-- ==== Sys2Proof/Word.lean ====
section
/-! DEFINITION. The word types, the index types of the units of R9, sparse tables, and the plain data that
commands carry as operands. -/

namespace Sys2Proof

abbrev Byte := BitVec 8
abbrev Word := BitVec 32
/-- A tick count (R19, R20): 48 bits, wrapping. -/
abbrev Tick := BitVec 48
/-- The 64 bytes of one line; byte 0 is the least significant (R8). -/
abbrev Line := BitVec 512

abbrev TileIx := Fin 12
abbrev PortIx := Fin 192
abbrev BrickIx := Fin 24
abbrev LaneIx := Fin 5
abbrev BankIx := Fin 16
abbrev StackIx := Fin 4
abbrev EngIx := Fin 64
abbrev ClusterIx := Fin 4
abbrev InstIx := Fin 1024
abbrev CoreIx := Fin 2
abbrev StationIx := Fin 53
abbrev StageIx := Fin 21
abbrev VcsIx := Fin 96
abbrev SliceIx := Fin 262144
abbrev DomIx := Fin 4096
/-- A fabric ID (R9): 10-bit group, 8-bit member. -/
abbrev Fid := Fin 262144
abbrev ClassIx := Fin 8
abbrev BusIx := Fin 2
abbrev FeedIx := Fin 2

/-- A sparse table: key and entry, keys strictly rising, no entry equal to the table's default. -/
abbrev Tab (α : Type) := List (Nat × α)

/-- Who sent a Nalug request, coded as GLB_LOCK_OWNER codes it (R325): PATH 1 SB0, 2 SB1, 3 management
function, 4 management core. -/
structure Src where
  path : BitVec 4
  port : BitVec 8
  eid  : BitVec 8
deriving DecidableEq, Repr

/-- The header of a Nalug request (R315), without its opcode and length. -/
structure Req where
  src   : Src
  seq   : BitVec 16
  kind  : BitVec 4
  index : BitVec 28
  lockV : Bool
  lock  : BitVec 6
  gen   : BitVec 16
  /-- a reserved bit of the header is not 0 -/
  rsvd  : Bool
deriving DecidableEq, Repr

/-- One value that an event carries (R384): a 4 B word or an 8 B value. -/
inductive EvVal where
  | w (v : Nat)
  | q (v : Nat)
deriving DecidableEq, Repr

/-- One MCTP packet as a path delivers it (R312, R313). -/
structure MctpPacket where
  src     : Src
  /-- the packet error code is right; true on paths that carry none (R314) -/
  pecOk   : Bool
  som     : Bool
  eom     : Bool
  pktSeq  : BitVec 2
  tag     : BitVec 3
  owner   : Bool
  payload : List Byte
deriving DecidableEq, Repr

/-- What a poll round reads from one stage (R333): absent when the stage did not answer. -/
structure StageReading where
  stage    : StageIx
  ok       : Bool
  status   : BitVec 16
  vout     : BitVec 16
  iout     : BitVec 16
  temp     : BitVec 16
  /-- VOUT_MODE, read when the stage first answers after a cold reset -/
  voutMode : BitVec 8
  /-- COEFFICIENTS m, b, R of the direct format -/
  cm       : Int
  cb       : Int
  cr       : Int
  /-- of a poll that failed: its CAUSE under R332, 1 to 5, and the command code -/
  cause    : Fin 6 := 1
  code     : BitVec 8 := 0x79
deriving DecidableEq, Repr

/-- A SYNC message as it arrives on a fabric port (R250). -/
structure SyncMsg where
  ftick    : Tick
  offset   : BitVec 16
  master   : Fid
  dist     : Fin 16
  locked   : Bool
  isMaster : Bool
  /-- arrival timestamp t_rx after the edge of the module's own tick, in sixteenths of a CK_CORE cycle (R252) -/
  cycle    : Nat
deriving DecidableEq, Repr

/-- How a request reaches its home, which gives the form of its completion (R58): a CXL.mem request, a CXL.io or
unordered request that waits or is posted, a CXL.cache request, a fabric request, an engine access; a request whose agent is lost completes
into a discard (R93, R94). -/
inductive Via where
  | mem | ioNp | ioP | discard
  | cache
  | fabric (port : PortIx) (tag : BitVec 16)
  | engine (inst : InstIx)
deriving DecidableEq, Repr

/-- MetaValue of a CXL.mem message (R72): I, S, A. -/
inductive MetaV where
  | i | s | a
deriving DecidableEq, Repr

/-- SnpType of a CXL.mem message (R72): No-Op, SnpCur, SnpData, SnpInv. -/
inductive SnpT where
  | noOp | cur | data | inv
deriving DecidableEq, Repr

/-- The message that reaches the home (R72): of a host on CXL.mem, of a Type-2 device on CXL.cache, or an access whose
home event is given with it (CXL.io, an engine, a fabric request of R229; `keep`: a write-back whose sender keeps a copy). -/
inductive CxMsg where
  | memRd (m : MetaV) (t : SnpT)
  | memRdData (m : MetaV) (t : SnpT)
  | memInv (m : MetaV) (t : SnpT)
  | memWr (m : MetaV)
  | memWrPtl (m : MetaV)
  | memClnEvct
  | rdShared | rdAny | rdOwn | rdOwnNoData | rdCurr
  | dirtyEvict | rspIFwdM | rspSFwdM | cleanEvict | cleanEvictNoData
  | wrCur | wrInv | woWrInv | woWrInvF | itoMWr
  | plain (keep : Bool)
deriving DecidableEq, Repr

/-- A message of CXL.cache. -/
def CxMsg.cache : CxMsg → Bool
  | .memRd _ _ | .memRdData _ _ | .memInv _ _ | .memWr _ | .memWrPtl _ | .memClnEvct | .plain _ => false
  | _ => true

/-- The sender of a write-back keeps a copy. -/
def CxMsg.keeps : CxMsg → Bool
  | .memWr .s | .memWrPtl .s | .rspSFwdM => true
  | .plain k => k
  | _ => false

/-- A request at its home (R70-R72): the requester's fabric ID, the line's slice and offset, the message, and for a write
the bytes and their mask. -/
structure HReq where
  fid   : Fid
  slice : SliceIx
  off   : BitVec 28
  via   : Via
  msg   : CxMsg
  data  : Line
  mask  : BitVec 64
deriving DecidableEq, Repr

/-- A snoop response (R79): what the agent holds afterwards (0 nothing, 1 a shared copy, 2 its exclusive copy) and
the data it wrote back. -/
structure SnpRsp where
  fid  : Fid
  keep : Fin 3
  data : Option Line
deriving DecidableEq, Repr

/-- The key of a hamper (R111, R122): stamp, origin, tag. -/
structure HKey where
  stamp  : Tick
  origin : Fid
  tag    : Word
deriving DecidableEq, Repr

/-- A line of a hamper at its home (R104, R128): WRITE or COMPARE, entry index, slice, line within the slice. -/
structure HLine where
  compare : Bool
  index   : Fin 32
  slice   : SliceIx
  off     : BitVec 22
  mask    : BitVec 64
  data    : Line
deriving DecidableEq, Repr

/-- A hamper message (R128), without its TYPE. -/
structure HMsg where
  key    : HKey
  code   : Byte
  attempt : Nat
  fail   : Byte
  sender : Fid
  voteBy : Nat
  boot   : Word
  acting : Fid
  parts  : List Fid
  limit  : Nat
  lines  : List HLine
deriving DecidableEq, Repr

/-- A message as it arrives at a port (R43, R57, R155): its class; source fabric ID (fabric ports) or logical device
(CXL ports); where it goes; data bytes; whether it expects a completion; the yellow mark and the hop count of its
fabric header. -/
inductive NetDst where
  /-- a fabric ID -/
  | fid (f : Fid)
  /-- a port-based ID -/
  | pbr (p : BitVec 12)
  /-- an extent in the vCS window of the port's host: first byte, write, bytes (R57) -/
  | window (addr : BitVec 64) (write : Bool) (len : Nat)
  /-- BAR0 of the upstream port function of the port's vCS: byte offset, write, bytes (R266) -/
  | bar (off : BitVec 23) (write : Bool) (len : Nat)
  /-- a configuration request of the port's host to vPPB k: one below it, or one to the vPPB itself (R267) -/
  | vppb (k : Fin 16) (below : Bool)
  /-- a slice and an offset in it, at the home module that the fabric ID names (R56) -/
  | home (f : Fid) (slice : SliceIx) (off : BitVec 28) (write : Bool)
deriving DecidableEq, Repr

/-- Message types, from which the ingress tile assigns the class of traffic of a CXL port (R155, R156). -/
inductive MsgType where
  | memRead | memWrite | memRsp | cacheReq | cacheRsp | backInv | hamper | ioPosted | ioCpl | ioNonPosted | bulk | mgmt
deriving DecidableEq, Repr

def MsgType.cls : MsgType → ClassIx
  | .memRead | .memWrite | .cacheReq => 0
  | .memRsp | .cacheRsp => 1
  | .backInv => 2
  | .hamper => 3
  | .ioPosted | .ioCpl => 4
  | .ioNonPosted => 5
  | .bulk => 6
  | .mgmt => 7

/-- The ordering attribute of a CXL.io request (R265): none, Relaxed Ordering, ID-Based Ordering, unordered I/O. -/
inductive IoAttr where
  | strict | relaxed | idBased | unordered
deriving DecidableEq, Repr

structure NetMsg where
  id     : Nat
  type   : MsgType
  /-- the class in the header of a fabric port's message -/
  cls    : ClassIx
  src    : Fid
  ld     : Fin 16
  dst    : NetDst
  bytes  : Nat
  expect : Bool
  yellow : Bool
  hop    : BitVec 4
  /-- the station of the unit that it addresses, when it is delivered within the module (R16) -/
  unit   : StationIx
  /-- the TAG of its fabric-link header, when it is not the sender's own number (R228) -/
  tag    : Option Nat := none
  /-- the CXL message of a coherent request (R72) -/
  req    : CxMsg := .plain false
  /-- the bytes after its fabric-link header, or the data of a request that is not yet in that form (R228, R229) -/
  body   : List Byte := []
  attr   : IoAttr := .strict
  /-- the PASID of an engine's request toward host memory (R177) -/
  pasid  : Option Nat := none
deriving DecidableEq, Repr

/-- The header of a fabric-link message (R228), without its type and length. -/
structure FHdr where
  hop    : BitVec 4
  yellow : Bool
  cls    : ClassIx
  src    : Fid
  dst    : Fid
  tag    : Word
deriving DecidableEq, Repr

/-- An INIT control flit (R231). -/
structure InitMsg where
  version  : Byte
  rates    : BitVec 8
  resume   : Bool
  sleepEn  : Bool
  moduleId : Fid
  port     : Byte
  pool     : BitVec 16
  rsv      : List Byte
  period   : BitVec 16
deriving DecidableEq, Repr

/-- What a CXL link trains to, and what its partner is (R256, R259, R262, R275): rate and device type coded as PT_CX_STATUS,
capacities of its LDs in 256 MiB units. -/
structure CxUp where
  rate   : Fin 6
  width  : BitVec 5
  has256 : Bool
  cache  : Bool
  mem    : Bool
  pbr    : Bool
  type   : Fin 7
  serial : Nat
  caps   : List Nat
  /-- the partner's lanes arrive in reverse order (R258, R286) -/
  rev    : Bool := false
deriving DecidableEq, Repr

end Sys2Proof
end

