-- ==== Sys2Proof/Syntax.lean ====
section
/-! DEFINITION. The commands of the block: one constructor for each row of the operation table, with the row's operands. -/

namespace Sys2Proof

/-- The commands (spec/opcode_table.json), in the table's order. -/
inductive Instr where
  /-- TICK_EDGE (R28). -/
  | tickEdge (tests : List (PortIx × LaneIx × Nat × Nat)) (cyc : List (Bool × Nat × Nat × ClassIx × Nat))
  /-- GUARD_POINT (R28). -/
  | guardPoint
  /-- SYNC_RECEIVE (R252). -/
  | syncReceive (p : PortIx) (m : SyncMsg) (trim : Int)
  /-- MASTER_LOSS_TIMEOUT (R22). -/
  | masterLossTimeout
  /-- ADJUSTMENT_TICK_START (R24). -/
  | adjustmentTickStart
  /-- TICK_STEPPED (R24). -/
  | tickStepped (tests : List (PortIx × LaneIx × Nat × Nat)) (cyc : List (Bool × Nat × Nat × ClassIx × Nat))
  /-- GLB_TICK_CTL_MASTER_ELIG (R428). -/
  | glbTickCtlMasterElig (v : Bool)
  /-- OP_WALLCLOCK_MARK (R32). -/
  | opWallclockMark (q : Req) (body : List Byte)
  /-- OP_UNIT_RETIRE (R323). -/
  | opUnitRetire (q : Req) (body : List Byte)
  /-- NALUG_PACKET_RECEIVE (R313). -/
  | nalugPacketReceive (k : MctpPacket)
  /-- MCTP_REASSEMBLY_TIMEOUT (R313). -/
  | mctpReassemblyTimeout (src : Src) (tag : BitVec 3) (owner : Bool)
  /-- SET_ENDPOINT_ID (R313). -/
  | setEndpointId (src : Src) (eid : Byte)
  /-- GET_ENDPOINT_ID (R313). -/
  | getEndpointId (src : Src)
  /-- GET_MCTP_VERSION_SUPPORT (R313). -/
  | getMctpVersionSupport (src : Src)
  /-- GET_MESSAGE_TYPE_SUPPORT (R313). -/
  | getMessageTypeSupport (src : Src)
  /-- GET_VENDOR_DEFINED_MESSAGE_SUPPORT (R313). -/
  | getVendorDefinedMessageSupport (src : Src)
  /-- OP_IDENTIFY (R323). -/
  | opIdentify (q : Req) (body : List Byte)
  /-- OP_REG_READ (R423). -/
  | opRegRead (q : Req) (body : List Byte)
  /-- OP_REG_WRITE (R423). -/
  | opRegWrite (q : Req) (body : List Byte)
  /-- OP_SET_MODULE_ID (R37). -/
  | opSetModuleId (q : Req) (body : List Byte)
  /-- OP_RESET (R323). -/
  | opReset (q : Req) (body : List Byte)
  /-- OP_LOCK_ACQUIRE (R326). -/
  | opLockAcquire (q : Req) (body : List Byte)
  /-- OP_LOCK_RELEASE (R326). -/
  | opLockRelease (q : Req) (body : List Byte)
  /-- OP_LOCK_QUERY (R323). -/
  | opLockQuery (q : Req) (body : List Byte)
  /-- OP_STEP_POLL (R321). -/
  | opStepPoll (q : Req) (body : List Byte)
  /-- OP_STEP_RESUME (R322). -/
  | opStepResume (q : Req) (body : List Byte)
  /-- OP_EVENT_CONFIG (R337). -/
  | opEventConfig (q : Req) (body : List Byte)
  /-- OP_EVENT_LOG_READ (R339). -/
  | opEventLogRead (q : Req) (body : List Byte)
  /-- STEPPED_COMMAND_STEP (R320). -/
  | steppedCommandStep
  /-- EVENT_DRAIN (R336). -/
  | eventDrain
  /-- GLB_EV_PEND_WRITE (R338). -/
  | glbEvPendWrite (v : Word)
  /-- SMBUS_CLOCK_LOW_TIMEOUT (R328). -/
  | smbusClockLowTimeout (b : BusIx)
  /-- I3C_TARGET_RESET (R328). -/
  | i3cTargetReset (b : BusIx)
  /-- SB_ARB_RETRY (R330). -/
  | sbArbRetry (b : BusIx)
  /-- PWR_BR_CMD_WRITE (R331). -/
  | pwrBrCmdWrite (m : Fin 8) (vendor : Bool) (v : Word)
  /-- PWR_BR_DATA_READ (R331). -/
  | pwrBrDataRead (m : Fin 8) (w : Fin 8)
  /-- BRIDGE_TRANSACTION_DONE (R332). -/
  | bridgeTransactionDone (cause : Fin 6) (data : List Byte)
  /-- BRIDGE_HOLD_LIMIT (R332). -/
  | bridgeHoldLimit
  /-- BRIDGE_POLL_ROUND (R333). -/
  | bridgePollRound (rs : List StageReading)
  /-- OP_PMBUS_READ (R331). -/
  | opPmbusRead (q : Req) (body : List Byte)
  /-- OP_PMBUS_WRITE (R323). -/
  | opPmbusWrite (q : Req) (body : List Byte)
  /-- OP_TELEMETRY_READ (R335). -/
  | opTelemetryRead (q : Req) (body : List Byte)
  /-- BOOT_ROM_START (R344). -/
  | bootRomStart
  /-- RECOVERY_BOOT_START (R346). -/
  | recoveryBootStart
  /-- BOOT_WATCHDOG_EXPIRY (R345). -/
  | bootWatchdogExpiry
  /-- OP_FW_WRITE (R347). -/
  | opFwWrite (q : Req) (body : List Byte)
  /-- FLASH_PROGRAM_DONE (R347). -/
  | flashProgramDone (fjx : Bool) (n : Nat) (ok : Bool)
  /-- OP_FW_COMMIT (R348). -/
  | opFwCommit (q : Req) (body : List Byte)
  /-- OP_FJX_READ (R351). -/
  | opFjxRead (q : Req) (body : List Byte)
  /-- OP_FJX_WRITE (R351). -/
  | opFjxWrite (q : Req) (body : List Byte)
  /-- OP_FJX_COMMIT (R351). -/
  | opFjxCommit (q : Req) (body : List Byte)
  /-- OP_LIFECYCLE_SET (R355). -/
  | opLifecycleSet (q : Req) (body : List Byte)
  /-- OP_DEBUG_UNLOCK (R358). -/
  | opDebugUnlock (q : Req) (body : List Byte)
  /-- OP_MC_SWITCH (R363). -/
  | opMcSwitch (q : Req) (body : List Byte)
  /-- HEARTBEAT_TIMEOUT (R362). -/
  | heartbeatTimeout
  /-- MC_FATAL_FAULT (R362). -/
  | mcFatalFault (c : CoreIx)
  /-- CHECKPOINT_START (R360). -/
  | checkpointStart
  /-- CHECKPOINT_SLICE (R360). -/
  | checkpointSlice
  /-- MGT_ACU_CTL_SEL_WRITE (R366). -/
  | mgtAcuCtlSelWrite (t : Fin 8) (m : Fin 8) (lvl : Fin 3) (sel : Bool)
  /-- MGT_ACU_CTL_LOCK_WRITE (R366). -/
  | mgtAcuCtlLockWrite (t : Fin 8) (m : Fin 8) (lvl : Fin 3)
  /-- REGISTER_WRITE (R421). -/
  | registerWrite (m : Fin 8) (lvl : Fin 3) (off : Word) (bytes : List Byte)
  /-- RC_REGISTER_READ (R422). -/
  | rcRegisterRead (m : Fin 8) (lvl : Fin 3) (off : Word) (n : Nat)
  /-- COUNTER_LOW_WORD_READ (R377). -/
  | counterLowWordRead (m : Fin 8) (lvl : Fin 3) (off : Word)
  /-- SEAT_PINS_SEATED (R299). -/
  | seatPinsSeated
  /-- SEAT_PIN_CHANGE (R299). -/
  | seatPinChange (a : Bool) (b : Bool)
  /-- SEAT_DEBOUNCE_EXPIRY (R299). -/
  | seatDebounceExpiry
  /-- ON_REQ_LOW (R299). -/
  | onReqLow (va : Nat) (vb : Nat) (vbus : Nat) (midA : Nat) (midB : Nat)
  /-- FAULT_ON_REQ_CYCLE (R299). -/
  | faultOnReqCycle
  /-- INRUSH_COMPLETE (R300). -/
  | inrushComplete
  /-- INRUSH_TIMEOUT (R300). -/
  | inrushTimeout
  /-- INRUSH_FEED_LOST (R299). -/
  | inrushFeedLost
  /-- RAIL_GROUP_SETTLED (R303). -/
  | railGroupSettled (g : Fin 10)
  /-- RAIL_GROUP_TIMEOUT (R303). -/
  | railGroupTimeout (g : Fin 10)
  /-- RAIL_FAULT (R304). -/
  | railFault (g : Fin 10)
  /-- EXTRACTION (R299). -/
  | extraction
  /-- VBUS_UNDERVOLTAGE (R304). -/
  | vbusUndervoltage
  /-- ON_REQ_HIGH (R305). -/
  | onReqHigh
  /-- OP_MODULE_OFF (R305). -/
  | opModuleOff (q : Req) (body : List Byte)
  /-- PWR_CTL_OFF (R305). -/
  | pwrCtlOff
  /-- PWR_CTL_FEED_A_EN (R311). -/
  | pwrCtlFeedAEn (v : Bool)
  /-- PWR_CTL_FEED_B_EN (R311). -/
  | pwrCtlFeedBEn (v : Bool)
  /-- ORDERLY_OFF_GROUP_DISABLE (R305). -/
  | orderlyOffGroupDisable (g : Fin 10)
  /-- VBUS_DISCHARGED (R299). -/
  | vbusDischarged
  /-- FEED_OUT_OF_RANGE (R296). -/
  | feedOutOfRange (f : FeedIx) (mv : Nat)
  /-- FEED_IN_RANGE (R296). -/
  | feedInRange (f : FeedIx) (mv : Nat)
  /-- ORING_TURN_OFF (R297). -/
  | oringTurnOff (f : FeedIx)
  /-- ORING_FAIL (R297). -/
  | oringFail (f : FeedIx)
  /-- CB_TRIP (R298). -/
  | cbTrip (f : FeedIx) (ma : Nat)
  /-- CB_RETRY (R298). -/
  | cbRetry (f : FeedIx)
  /-- PASS_DAMAGED (R302). -/
  | passDamaged (a : Bool) (b : Bool)
  /-- KEEPER_POWER_ON (R308). -/
  | keeperPowerOn
  /-- PLL_LOCK_LOSS (R394). -/
  | pllLockLoss (d : Fin 16)
  /-- PLL_RELOCK (R394). -/
  | pllRelock (d : Fin 15)
  /-- TILE_PLL_RELOCK_TIMEOUT (R394). -/
  | tilePllRelockTimeout (t : TileIx)
  /-- CORE_PLL_RELOCK_TIMEOUT (R394). -/
  | corePllRelockTimeout
  /-- CROSSING_EVENT_DELIVERY (R392). -/
  | crossingEventDelivery (x : Fin 1024) (k : Nat)
  /-- CROSSING_TIMEOUT (R393). -/
  | crossingTimeout (x : Fin 1024) (m : Fin 8) (off : Word) (write : Bool) (req : Option (Req × Nat))
  /-- COLD_MODULE_RESET (R395). -/
  | coldModuleReset (fails : List (Fin 12 × Nat))
  /-- WARM_MODULE_RESET (R395). -/
  | warmModuleReset
  /-- WARM_RESET_DRAIN_DONE (R395). -/
  | warmResetDrainDone
  /-- TILE_RESET (R395). -/
  | tileReset (t : TileIx)
  /-- PORT_RESET (R395). -/
  | portReset (p : PortIx)
  /-- MORTAR_HEADER_UE (R398). -/
  | mortarHeaderUe
  /-- SRAM_UE (R399). -/
  | sramUe (st : Fin 10) (unit : Byte) (entry : Word) (la : Option Nat)
  /-- SF_SCRUB_SET (R401). -/
  | sfScrubSet (b : BankIx) (idle : Bool) (bad : Bool) (la : Option Nat)
  /-- HBM_REFRESH (R403). -/
  | hbmRefresh (h : StackIx) (pc : Fin 32) (idle : Bool)
  /-- PATROL_SCRUB_UNIT (R146). -/
  | patrolScrubUnit (h : StackIx) (pc : Fin 32) (idle : Bool) (res : Fin 3) (la : Option Nat) (area : Fin 8) (addr : BitVec 64)
  /-- MONITOR_SAMPLE (R372). -/
  | monitorSample (temps : List (BitVec 16)) (volts : List (BitVec 16))
  /-- RO_MEASURE (R374). -/
  | roMeasure (khz : List (BitVec 24))
  /-- PMC_CONFIG_WRITE (R377). -/
  | pmcConfigWrite (tile : Option TileIx) (c : Fin 128) (k : Fin 3) (v : Word)
  /-- PMC_CNT_WRITE (R377). -/
  | pmcCntWrite (tile : Option TileIx) (c : Fin 128) (v : BitVec 64)
  /-- BW_WINDOW_END (R378). -/
  | bwWindowEnd (cxl : List (PortIx × Nat × Nat))
  /-- DUMP_WRITE_UNIT (R380). -/
  | dumpWriteUnit (good : Bool)
  /-- LATENCY_RECORD_WRITE (R383). -/
  | latencyRecordWrite
  /-- AUDIT_GO (R385). -/
  | auditGo (v : Word)
  /-- AUDIT_CHECK (R385). -/
  | auditCheck
  /-- AUDIT_TIMEOUT (R385). -/
  | auditTimeout
  /-- MORTAR_BEAT_GRANT (R138). -/
  | mortarBeatGrant (d : StationIx)
  /-- TILE_MESSAGE_ACCEPT (R140). -/
  | tileMessageAccept (p : PortIx) (m : NetMsg)
  /-- SPILL_FETCH (R141). -/
  | spillFetch (p : PortIx) (c : ClassIx) (egress : Bool)
  /-- HOLD_LIST_RELEASE (R161). -/
  | holdListRelease (t : TileIx) (fc : ClassIx) (src : Option Fid)
  /-- CALENDAR_SLOT_DUE (R163). -/
  | calendarSlotDue (t : TileIx) (fc : ClassIx) (src : Option Fid)
  /-- EGRESS_DRR_TURN (R165). -/
  | egressDrrTurn (p : PortIx) (credit : BitVec 8)
  /-- MESSAGE_AGED (R150). -/
  | messageAged (p : PortIx) (c : ClassIx) (egress : Bool)
  /-- OP_QOS_FLOW_SET (R159). -/
  | opQosFlowSet (q : Req) (body : List Byte)
  /-- OP_QOS_FLOW_CLEAR (R159). -/
  | opQosFlowClear (q : Req) (body : List Byte)
  /-- FLOW_CHANGE_APPLY (R159). -/
  | flowChangeApply
  /-- OP_QOS_RESERVE (R168). -/
  | opQosReserve (q : Req) (body : List Byte)
  /-- OP_QOS_RELEASE (R168). -/
  | opQosRelease (q : Req) (body : List Byte)
  /-- OP_QOS_TARGET_SET (R167). -/
  | opQosTargetSet (q : Req) (body : List Byte)
  /-- TL_QOS_CTL_WRITE (R164). -/
  | tlQosCtlWrite (t : TileIx) (v : Word)
  /-- QOS_MODE_CHANGE (R164). -/
  | qosModeChange (t : TileIx)
  /-- QOS_RESCALE (R171). -/
  | qosRescale (tgt : Fin 4096)
  /-- HOME_RDS (R75). -/
  | homeRds (r : HReq)
  /-- HOME_RDA (R75). -/
  | homeRda (r : HReq)
  /-- HOME_RDOWN (R75). -/
  | homeRdown (r : HReq)
  /-- HOME_NCR (R77). -/
  | homeNcr (r : HReq)
  /-- HOME_NCW (R77). -/
  | homeNcw (r : HReq)
  /-- HOME_WB (R75). -/
  | homeWb (r : HReq)
  /-- HOME_CE (R75). -/
  | homeCe (r : HReq)
  /-- MEMSPECRD (R72). -/
  | memspecrd (r : HReq)
  /-- CLFLUSH (R72). -/
  | clflush (r : HReq)
  /-- BICONFLICT (R72). -/
  | biconflict (fid : Fid) (la : Nat)
  /-- SNOOP_RESPONSE (R79). -/
  | snoopResponse (la : Nat) (a : SnpRsp)
  /-- SF_LOOKUP_DONE (R88). -/
  | sfLookupDone (k : Nat)
  /-- DEVICE_READ_COMPLETE (R88). -/
  | deviceReadComplete (rid : Nat) (d : Line) (poison : Bool)
  /-- LINE_STORE_WRITE_ACK (R74). -/
  | lineStoreWriteAck (la : Nat)
  /-- LINE_QUEUE_ADVANCE (R78). -/
  | lineQueueAdvance (la : Nat)
  /-- LS_VICTIM_WRITE_DONE (R86). -/
  | lsVictimWriteDone (la : Nat)
  /-- BLANKET_WINDOW_END (R89). -/
  | blanketWindowEnd
  /-- BLANKET_ENTER (R89). -/
  | blanketEnter (d : DomIx)
  /-- EXIT_WALK_START (R91). -/
  | exitWalkStart (d : DomIx)
  /-- EXIT_WALK_STEP (R91). -/
  | exitWalkStep (d : DomIx)
  /-- BLANKET_EXIT (R91). -/
  | blanketExit (d : DomIx)
  /-- SNOOP_TIMEOUT (R93). -/
  | snoopTimeout (k : Nat) (fid : Fid)
  /-- OP_SLICE_ASSIGN (R49). -/
  | opSliceAssign (q : Req) (body : List Byte)
  /-- OP_SLICE_RELEASE (R436). -/
  | opSliceRelease (q : Req) (body : List Byte)
  /-- OP_DOMAIN_CREATE (R53). -/
  | opDomainCreate (q : Req) (body : List Byte)
  /-- OP_DOMAIN_AGENT_ADD (R54). -/
  | opDomainAgentAdd (q : Req) (body : List Byte)
  /-- OP_DOMAIN_AGENT_REMOVE (R54). -/
  | opDomainAgentRemove (q : Req) (body : List Byte)
  /-- OP_DOMAIN_TEARDOWN (R53). -/
  | opDomainTeardown (q : Req) (body : List Byte)
  /-- OP_VCS_CREATE (R55). -/
  | opVcsCreate (q : Req) (body : List Byte)
  /-- OP_VCS_DESTROY (R55). -/
  | opVcsDestroy (q : Req) (body : List Byte)
  /-- OP_VCS_VPPB_BIND (R267). -/
  | opVcsVppbBind (q : Req) (body : List Byte)
  /-- OP_VCS_VPPB_UNBIND (R267). -/
  | opVcsVppbUnbind (q : Req) (body : List Byte)
  /-- OP_BIND (R61). -/
  | opBind (q : Req) (body : List Byte)
  /-- OP_UNBIND (R62). -/
  | opUnbind (q : Req) (body : List Byte)
  /-- OP_REBIND (R64). -/
  | opRebind (q : Req) (body : List Byte)
  /-- OP_DIR_REBUILD (R92). -/
  | opDirRebuild (q : Req) (body : List Byte)
  /-- UNBIND_DRAIN_DONE (R62). -/
  | unbindDrainDone (k : Fin 32)
  /-- WALK_STEP (R62). -/
  | walkStep (k : Fin 32)
  /-- PT_EDGE_ID_WRITE (R38). -/
  | ptEdgeIdWrite (p : PortIx) (ld : Fin 16) (v : Word)
  /-- HAMPER_PORT_ENTRY_WRITE (R106). -/
  | hamperPortEntryWrite (v : VcsIx) (k : Fin 64) (off : Fin 4096) (b : List Byte)
  /-- HAMPER_PORT_HEADER_WRITE (R106). -/
  | hamperPortHeaderWrite (v : VcsIx) (k : Fin 64) (off : Fin 32) (b : List Byte)
  /-- HMP_SLOT_ACK (R106). -/
  | hmpSlotAck (v : VcsIx) (k : Fin 64)
  /-- HPART_RECEIVE (R109). -/
  | hpartReceive (m : HMsg)
  /-- HAMPER_ARBITRATION (R111). -/
  | hamperArbitration
  /-- HAMPER_LINE_ACQUIRE (R112). -/
  | hamperLineAcquire (key : HKey) (ix : Fin 32)
  /-- HAMPER_VOTE_SEND (R114). -/
  | hamperVoteSend (key : HKey)
  /-- HVOTE_RECEIVE (R115). -/
  | hvoteReceive (m : HMsg)
  /-- HAMPER_DECIDE (R115). -/
  | hamperDecide
  /-- COMMIT_LOG_WRITE_ACK (R434). -/
  | commitLogWriteAck (key : HKey) (type : Fin 4)
  /-- HDECIDE_RECEIVE (R116). -/
  | hdecideReceive (m : HMsg)
  /-- HQUERY_SEND (R123). -/
  | hquerySend (key : HKey)
  /-- HQUERY_RECEIVE (R123). -/
  | hqueryReceive (m : HMsg)
  /-- HANSWER_RECEIVE (R123). -/
  | hanswerReceive (m : HMsg)
  /-- HAMPER_INDOUBT_POISON (R124). -/
  | hamperIndoubtPoison (key : HKey)
  /-- INDOUBT_RECORD_REWRITE (R121). -/
  | indoubtRecordRewrite (key : HKey)
  /-- HMP_TIMING_WRITE (R134). -/
  | hmpTimingWrite (second : Bool) (v : Word)
  /-- HBM_BURST_ARRIVAL (R147). -/
  | hbmBurstArrival (h : StackIx) (pc : Fin 32) (slot : Fin 64) (attempt : Bool) (half : Bool) (quality : Fin 3)
  /-- PAIRING_HOLD_EXPIRY (R147). -/
  | pairingHoldExpiry (h : StackIx) (pc : Fin 32) (slot : Fin 64)
  /-- HBM_STACK_RETIRE (R152). -/
  | hbmStackRetire (h : StackIx)
  /-- MIRROR_COPY_UNIT (R152). -/
  | mirrorCopyUnit
  /-- INS_DOORBELL_WRITE (R178). -/
  | insDoorbellWrite (ix : InstIx) (tail : Word)
  /-- RING_ENABLE (R180). -/
  | ringEnable (ix : InstIx) (ext : List (Nat × Nat × Nat))
  /-- RING_DISABLE (R180). -/
  | ringDisable (ix : InstIx)
  /-- RING_UNIT_FETCH (R179). -/
  | ringUnitFetch (ix : InstIx) (data : Option (List Byte))
  /-- NOP (R187). -/
  | nop (ix : InstIx) (ext : List (Nat × Nat × Nat))
  /-- COPY (R189). -/
  | copy (ix : InstIx) (ext : List (Nat × Nat × Nat))
  /-- FILL (R189). -/
  | fill (ix : InstIx) (ext : List (Nat × Nat × Nat))
  /-- COMPARE (R189). -/
  | compare (ix : InstIx) (ext : List (Nat × Nat × Nat))
  /-- CRC32C (R189). -/
  | crc32c (ix : InstIx) (ext : List (Nat × Nat × Nat))
  /-- REDUCE (R190). -/
  | reduce (ix : InstIx) (ext : List (Nat × Nat × Nat))
  /-- PAGE_MOVE (R194). -/
  | pageMove (ix : InstIx) (ext : List (Nat × Nat × Nat))
  /-- HAMPER (R193). -/
  | hamper (ix : InstIx) (rec : List Byte) (ext : List (Nat × Nat × Nat))
  /-- CHECK (R229). -/
  | check (fid : Fid) (tag : Word) (slice : SliceIx) (off : BitVec 22) (rights : BitVec 2) (len : BitVec 64)
  /-- JOB_STEP_BOUNDARY (R197). -/
  | jobStepBoundary (ix : InstIx) (rd : List (List Byte)) (bad : Option (Bool × Nat))
  /-- JOB_COMPLETE (R182). -/
  | jobComplete (ix : InstIx) (good : Bool)
  /-- HAMPER_ENTRY_OUTCOME (R193). -/
  | hamperEntryOutcome (ix : InstIx)
  /-- HEAD_PUBLISH (R183). -/
  | headPublish (ix : InstIx) (good : Bool)
  /-- REFETCH (R184). -/
  | refetch (ix : InstIx)
  /-- ATS_INVALIDATION (R186). -/
  | atsInvalidation (ix : InstIx) (used : Bool)
  /-- PAGE_MOVE_STEP_DONE (R195). -/
  | pageMoveStepDone (ix : InstIx)
  /-- OP_INS_BIND (R205). -/
  | opInsBind (q : Req) (body : List Byte)
  /-- OP_INS_UNBIND (R207). -/
  | opInsUnbind (q : Req) (body : List Byte)
  /-- OP_INS_SET_RATE (R205). -/
  | opInsSetRate (q : Req) (body : List Byte)
  /-- OP_INS_RESET (R218). -/
  | opInsReset (q : Req) (body : List Byte)
  /-- INSTANCE_WINDOW_ACCESS (R209). -/
  | instanceWindowAccess (v : VcsIx) (ix : InstIx) (off : Fin 4096) (wr : Option (List Byte)) (n : Nat) (ext : List (Nat × Nat × Nat))
  /-- INS_IRQ_CTL_WRITE (R211). -/
  | insIrqCtlWrite (ix : InstIx) (v : Word)
  /-- T2M_SEND (R216). -/
  | t2mSend (ix : InstIx)
  /-- T2M_ACK (R216). -/
  | t2mAck (ix : InstIx)
  /-- M2T_SEND (R216). -/
  | m2tSend (ix : InstIx)
  /-- M2T_ACK (R216). -/
  | m2tAck (ix : InstIx)
  /-- MAILBOX_BUFFER_WRITE (R216). -/
  | mailboxBufferWrite (ix : InstIx) (tenant : Bool) (m2t : Bool) (off : Fin 256) (b : List Byte)
  /-- SHARE_CHANGE (R212). -/
  | shareChange
  /-- LINK_BRINGUP_START (R232). -/
  | linkBringupStart (p : PortIx)
  /-- PT_FL_CTL_EN_WRITE (R239). -/
  | ptFlCtlEnWrite (p : PortIx) (v : Bool)
  /-- PT_FL_CTL_RATE_WRITE (R233). -/
  | ptFlCtlRateWrite (p : PortIx) (v : BitVec 2)
  /-- LANES_LOCKED (R232). -/
  | lanesLocked (p : PortIx)
  /-- LANE_ASSIGNMENT (R285). -/
  | laneAssignment (p : PortIx) (b1 : Word) (b2 : Word)
  /-- ALIGN_DONE (R232). -/
  | alignDone (p : PortIx) (m : List LaneIx)
  /-- INIT_RECEIVE (R232). -/
  | initReceive (p : PortIx) (ix : InitMsg)
  /-- LINK_TRAIN_TIMEOUT (R232). -/
  | linkTrainTimeout (p : PortIx)
  /-- LINK_TRAIN_RETRY (R232). -/
  | linkTrainRetry (p : PortIx)
  /-- DOWN_FLIT_RECEIVE (R239). -/
  | downFlitReceive (p : PortIx) (cause : Byte)
  /-- MARKERS_MISSED (R239). -/
  | markersMissed (p : PortIx)
  /-- LINK_ERROR_LIMIT (R239). -/
  | linkErrorLimit (p : PortIx)
  /-- FLIT_RECEIVE (R235). -/
  | flitReceive (p : PortIx) (cwOk : Bool) (cw : BitVec 20) (corr : List Nat) (b : List Byte)
  /-- REPLAY_TIMER_EXPIRY (R236). -/
  | replayTimerExpiry (p : PortIx)
  /-- NAK_REPEAT_TIMER (R235). -/
  | nakRepeatTimer (p : PortIx)
  /-- LINK_MESSAGE_SEND (R238). -/
  | linkMessageSend (p : PortIx) (cls : ClassIx) (len : Nat)
  /-- CREDIT_FLIT_RECEIVE (R238). -/
  | creditFlitReceive (p : PortIx) (totals : List (BitVec 16))
  /-- CREDIT_FLIT_SEND (R238). -/
  | creditFlitSend (p : PortIx)
  /-- CREQ_RECEIVE (R229). -/
  | creqReceive (p : PortIx) (h : FHdr) (hev : Fin 9) (rights : BitVec 2) (slice : SliceIx) (off : BitVec 22) (mask : BitVec 64) (data : Line)
  /-- CRSP_RECEIVE (R229). -/
  | crspReceive (p : PortIx) (h : FHdr) (status : Fin 5) (reason : Fin 6) (grant : Fin 4) (data : Option Line)
  /-- SNP_RECEIVE (R230). -/
  | snpReceive (p : PortIx) (h : FHdr) (kind : Fin 4) (slice : SliceIx) (off : BitVec 22) (home : Fid)
  /-- SNPRSP_RECEIVE (R229). -/
  | snprspReceive (p : PortIx) (h : FHdr) (rsp : Fin 4) (data : Line)
  /-- IO_MESSAGE_RECEIVE (R229). -/
  | ioMessageReceive (p : PortIx) (h : FHdr) (bytes : Nat) (expect : Bool) (unit : StationIx)
  /-- MCTP_MESSAGE_RECEIVE (R229). -/
  | mctpMessageReceive (p : PortIx) (h : FHdr) (bytes : Nat)
  /-- REMOTE_REQUEST_TIMEOUT (R241). -/
  | remoteRequestTimeout (tag : Word)
  /-- DELAY_REQ_SEND (R249). -/
  | delayReqSend (p : PortIx) (cyc : BitVec 12) (sx : BitVec 4)
  /-- DELAY_REQ_RECEIVE (R249). -/
  | delayReqReceive (p : PortIx) (t1 : BitVec 64) (id : Word) (cyc2 : BitVec 12) (sx2 : BitVec 4) (cyc3 : BitVec 12) (sx3 : BitVec 4)
  /-- DELAY_RSP_RECEIVE (R249). -/
  | delayRspReceive (p : PortIx) (t1 : BitVec 64) (t2 : BitVec 64) (t3 : BitVec 64) (id : Word) (cyc : BitVec 12) (sx : BitVec 4)
  /-- LANE_CE_THRESHOLD (R242). -/
  | laneCeThreshold (p : PortIx) (g : Fin 4)
  /-- SPARE_REQ_RECEIVE (R243). -/
  | spareReqReceive (p : PortIx) (g : Fin 4) (rot : Bool)
  /-- SPARE_READY_RECEIVE (R243). -/
  | spareReadyReceive (p : PortIx) (g : Fin 4)
  /-- SPARE_REPEAT_TIMER (R243). -/
  | spareRepeatTimer (p : PortIx)
  /-- SPARE_DWELL_END (R243). -/
  | spareDwellEnd (p : PortIx) (period : BitVec 16) (cw : Byte)
  /-- SPARE_SWITCH_POINT (R243). -/
  | spareSwitchPoint (p : PortIx)
  /-- SPARE_SWITCH_RECEIVE (R243). -/
  | spareSwitchReceive (p : PortIx) (period : BitVec 16) (cw : Byte)
  /-- SPARE_DONE_RECEIVE (R243). -/
  | spareDoneReceive (p : PortIx)
  /-- SPARE_ABORT_RECEIVE (R243). -/
  | spareAbortReceive (p : PortIx)
  /-- SPARE_BACK_RECEIVE (R245). -/
  | spareBackReceive (p : PortIx)
  /-- SPARE_LOCK_TIMEOUT (R243). -/
  | spareLockTimeout (p : PortIx)
  /-- ROTATION_INTERVAL (R245). -/
  | rotationInterval (p : PortIx)
  /-- RECALIBRATION_DONE (R287). -/
  | recalibrationDone (p : PortIx) (period : BitVec 16) (cw : Byte)
  /-- QUIET_ENTER (R246). -/
  | quietEnter (p : PortIx)
  /-- SLEEP_IDLE_TIMER (R247). -/
  | sleepIdleTimer (p : PortIx)
  /-- SLEEP_REQ_RECEIVE (R247). -/
  | sleepReqReceive (p : PortIx)
  /-- SLEEP_ACK_RECEIVE (R247). -/
  | sleepAckReceive (p : PortIx)
  /-- SLEEP_NAK_RECEIVE (R247). -/
  | sleepNakReceive (p : PortIx)
  /-- SLEEP_CANCEL_RECEIVE (R247). -/
  | sleepCancelReceive (p : PortIx)
  /-- WAKE_RECEIVE (R247). -/
  | wakeReceive (p : PortIx)
  /-- SLEEP_WAKE_EVENT (R247). -/
  | sleepWakeEvent (p : PortIx)
  /-- SLEEP_RESPONDER_TIMEOUT (R247). -/
  | sleepResponderTimeout (p : PortIx)
  /-- SLEEP_EXIT_DONE (R248). -/
  | sleepExitDone (p : PortIx) (ok : Bool)
  /-- EXPANDER_SCAN (R270). -/
  | expanderScan (t : TileIx) (b0 : Option (BitVec 8 × BitVec 8)) (b1 : Option (BitVec 8 × BitVec 8))
  /-- CXL_PRESENCE_ACCEPTED (R272). -/
  | cxlPresenceAccepted (p : PortIx)
  /-- CXL_PRESENCE_LOST (R272). -/
  | cxlPresenceLost (p : PortIx)
  /-- CXL_BUTTON_ACCEPTED (R272). -/
  | cxlButtonAccepted (p : PortIx)
  /-- BUTTON_WAIT_TIMER (R272). -/
  | buttonWaitTimer (p : PortIx)
  /-- CXL_LINK_UP (R272). -/
  | cxlLinkUp (p : PortIx) (ix : CxUp)
  /-- CXL_TRAIN_TIMEOUT (R272). -/
  | cxlTrainTimeout (p : PortIx)
  /-- CXL_TRAIN_RETRY (R272). -/
  | cxlTrainRetry (p : PortIx)
  /-- CXL_RECOVERY (R261). -/
  | cxlRecovery (p : PortIx)
  /-- CXL_LINK_DOWN (R261). -/
  | cxlLinkDown (p : PortIx) (cause : Fin 9)
  /-- CXL_DOWN_TICKS_EXPIRY (R262). -/
  | cxlDownTicksExpiry (p : PortIx)
  /-- CXL_UNCORRECTABLE_ERROR (R264). -/
  | cxlUncorrectableError (p : PortIx)
  /-- PT_CX_CTL_RETRAIN (R263). -/
  | ptCxCtlRetrain (p : PortIx) (force : Bool)
  /-- PT_CX_CTL_DPC_RELEASE (R264). -/
  | ptCxCtlDpcRelease (p : PortIx)
  /-- PT_CX_CTL_EN_WRITE (R435). -/
  | ptCxCtlEnWrite (p : PortIx) (v : Bool)
  /-- PT_CX_CTL_MGMT_FN_WRITE (R268). -/
  | ptCxCtlMgmtFnWrite (p : PortIx) (v : Bool)
  /-- VPPB_DPC_RELEASE (R264). -/
  | vppbDpcRelease (v : VcsIx) (k : Fin 16)
  /-- PT_CX_HP_CTL_REMOVE_OK (R272). -/
  | ptCxHpCtlRemoveOk (p : PortIx)
  /-- PT_CX_HP_CTL_CANCEL (R272). -/
  | ptCxHpCtlCancel (p : PortIx)
  /-- HOST_SLOT_CONTROL_WRITE (R271). -/
  | hostSlotControlWrite (v : VcsIx) (k : Fin 16) (pwr : BitVec 2) (attn : BitVec 2) (off : Bool)
  /-- OP_PORT_MODE (R15). -/
  | opPortMode (q : Req) (body : List Byte)
  /-- OP_PORT_MERGE (R257). -/
  | opPortMerge (q : Req) (body : List Byte)
  /-- IDENTIFY_SWITCH_DEVICE (R269). -/
  | identifySwitchDevice (src : Src)
  /-- GET_PHYSICAL_PORT_STATE (R269). -/
  | getPhysicalPortState (src : Src) (ports : List Byte)
  /-- PHYSICAL_PORT_CONTROL (R269). -/
  | physicalPortControl (src : Src) (port : Byte) (op : Fin 3)
  /-- SEND_PPB_CXL_IO_CONFIGURATION_REQUEST (R269). -/
  | sendPpbCxlIoConfigurationRequest (src : Src) (port : Byte) (b : List Byte)
  /-- GET_VIRTUAL_CXL_SWITCH_INFO (R269). -/
  | getVirtualCxlSwitchInfo (src : Src) (v : Byte)
  /-- BIND_VPPB (R269). -/
  | bindVppb (src : Src) (v : Byte) (k : Byte) (port : Byte) (ld : BitVec 16)
  /-- UNBIND_VPPB (R269). -/
  | unbindVppb (src : Src) (v : Byte) (k : Byte)
  /-- GENERATE_AER_EVENT (R269). -/
  | generateAerEvent (src : Src) (v : Byte) (k : Byte)
  /-- TUNNEL_MANAGEMENT_COMMAND (R269). -/
  | tunnelManagementCommand (src : Src) (port : Byte) (b : List Byte)
  /-- SEND_LD_CXL_IO_CONFIGURATION_REQUEST (R269). -/
  | sendLdCxlIoConfigurationRequest (src : Src) (port : Byte) (ld : Byte) (b : List Byte)
  /-- SEND_LD_CXL_IO_MEMORY_REQUEST (R269). -/
  | sendLdCxlIoMemoryRequest (src : Src) (port : Byte) (ld : Byte) (b : List Byte)
  /-- FM_API_UNSUPPORTED (R269). -/
  | fmApiUnsupported (src : Src) (opcode : BitVec 16)
  /-- LANE_RECEIVER_DETECTED (R279). -/
  | laneReceiverDetected (p : PortIx) (l : LaneIx)
  /-- LANE_DETECT_TIMEOUT (R279). -/
  | laneDetectTimeout (p : PortIx) (l : LaneIx)
  /-- LANE_PATTERN_FOUND (R280). -/
  | lanePatternFound (p : PortIx) (l : LaneIx) (inv : Bool) (blocks : List Word)
  /-- LANE_IDENT_TIMEOUT (R279). -/
  | laneIdentTimeout (p : PortIx) (l : LaneIx)
  /-- LANE_SWEEP_DWELL_END (R282). -/
  | laneSweepDwellEnd (p : PortIx) (l : LaneIx) (height : Byte)
  /-- LANE_DFE_SETTLED (R283). -/
  | laneDfeSettled (p : PortIx) (l : LaneIx) (settled : Bool) (d0 : Word) (d1 : Word)
  /-- LANE_CHECK_PASS (R279). -/
  | laneCheckPass (p : PortIx) (l : LaneIx) (heights : List Byte)
  /-- LANE_CHECK_TIMEOUT (R279). -/
  | laneCheckTimeout (p : PortIx) (l : LaneIx)
  /-- LANE_STANDBY_ENTER (R279). -/
  | laneStandbyEnter (p : PortIx) (l : LaneIx)
  /-- LANE_RELOCK_REQUEST (R284). -/
  | laneRelockRequest (p : PortIx) (l : LaneIx)
  /-- LANE_RELOCK_DONE (R284). -/
  | laneRelockDone (p : PortIx) (l : LaneIx)
  /-- LANE_RELOCK_TIMEOUT (R279). -/
  | laneRelockTimeout (p : PortIx) (l : LaneIx)
  /-- LANE_LOSS_OF_SIGNAL (R289). -/
  | laneLossOfSignal (p : PortIx) (l : LaneIx)
  /-- LANE_CDR_LOSS (R289). -/
  | laneCdrLoss (p : PortIx) (l : LaneIx)
  /-- EYE_MEASUREMENT (R292). -/
  | eyeMeasurement (p : PortIx) (l : LaneIx) (height : Byte) (width : Byte)
  /-- PEAKING_TRACK_STEP (R282). -/
  | peakingTrackStep (p : PortIx) (l : LaneIx) (up : Option Bool)
  /-- LN_TEST_CTL_GEN_EN (R290). -/
  | lnTestCtlGenEn (p : PortIx) (l : LaneIx) (v : Word)
  /-- LN_TEST_CTL_CHK_EN (R290). -/
  | lnTestCtlChkEn (p : PortIx) (l : LaneIx) (v : Word)
  /-- LN_TEST_CTL_INJ_ONE (R291). -/
  | lnTestCtlInjOne (p : PortIx) (l : LaneIx) (v : Word)
  /-- CHECKER_SYNC (R290). -/
  | checkerSync (p : PortIx) (l : LaneIx) (reg : BitVec 31)
  /-- CHECKER_SYNC_LOST (R290). -/
  | checkerSyncLost (p : PortIx) (l : LaneIx) (n : Nat) (wrong : Nat)
  /-- LN_MARGIN_CTL_GO (R292). -/
  | lnMarginCtlGo (p : PortIx) (l : LaneIx) (v : Word)
  /-- MARGIN_DONE (R292). -/
  | marginDone (p : PortIx) (l : LaneIx) (errors : Nat)
  /-- PCIE_MARGINING_COMMAND (R292). -/
  | pcieMarginingCommand (p : PortIx) (l : LaneIx) (run : Bool)
  /-- KEEPER_SUPPLY_LOST (R308). -/
  | keeperSupplyLost
  /-- SIDEBAND_BUS_SUPPLY_LOSS (R328). -/
  | sidebandBusSupplyLoss (b : BusIx)
  /-- I3C_ENTDAA (R314). -/
  | i3cEntdaa (b : BusIx) (addr : BitVec 7)
  /-- HDM_DECODER_WRITE (R56). -/
  | hdmDecoderWrite (v : VcsIx) (base : BitVec 64) (ig : BitVec 4) (iw : BitVec 4)
  /-- DEVICE_WRITE_COMPLETE (R74). -/
  | deviceWriteComplete (la : Nat)
  /-- RX_ELECTRICAL_IDLE_DETECT (R247). -/
  | rxElectricalIdleDetect (p : PortIx)
  /-- PSEUDO_CHANNEL_RETRAIN_FAIL (R152). -/
  | pseudoChannelRetrainFail (h : StackIx) (pc : Fin 32)
deriving DecidableEq, Repr

end Sys2Proof
end

