-- ==== Sys2Proof/Decode.lean ====
section
/-! DEFINITION. The decoder of table words: no row of spec/opcode_table.json gives its command any bits, so no word spells a
command. -/

namespace Sys2Proof

/-- The command that a word of the table spells: none. -/
def decodeTableWord (_nbits _w : Nat) : Option Instr := none

end Sys2Proof
end

