-- ==== Sys2Proof/Config.lean ====
section
/-! DEFINITION. What an implementation fixes and the spec does not give: opaque constants. Nothing in Lean can
evaluate one or prove a value of one. -/

namespace Sys2Proof

/-- Free values: the value of the n-th free choice (State.free counts them). -/
opaque Config.free : Nat → Nat
/-- The verdict of SHA-384 of the body against BODY_DIGEST (R343). -/
opaque Config.fwDigestOk : List Byte → Bool
/-- The OTP key hash of KEY_ID equals SHA-384 of PUBKEY and the key is not revoked (R343). -/
opaque Config.fwKeyOk : List Byte → Bool
/-- The image signature is valid under PUBKEY (R343). -/
opaque Config.fwSigOk : List Byte → Bool
/-- The debug signature is valid over nonce and serial number (R358). -/
opaque Config.debugSigOk : List Byte → List Byte → Bool
/-- The n-th debug nonce, 32 bytes (R358). -/
opaque Config.nonceByte : Nat → Nat → Byte
/-- Bytes of recorded values in the BEGIN chain of an opcode (R361). -/
opaque Config.recordedBytes : Nat → Nat
/-- The coding of the privilege level in MGT_ACU_LOG0 (R371): level 0 vendor firmware, 1 fabric manager, 2 tenant. -/
opaque Config.levelCode : Nat → Nat
/-- The PCI vendor ID of the management function (R313). -/
opaque Config.vendorId : BitVec 16
/-- Stack-local base of the directory area of a stack (R143, R154). -/
opaque Config.hbmAreaBase : Nat → BitVec 64

/-- The MCTP message type of the FM API (R313). -/
opaque Config.fmApiType : Byte
/-- The body of a Get MCTP Version Support response, which the MCTP base specification gives. -/
opaque Config.mctpVersions : List Byte
/-- A direct-format reading whose coefficient m is 0 (R334 gives no result). -/
opaque Config.directZero : Nat → Int
/-- The hash of a line address that gives its set in the HBM directory (R143) and in the line store (R144). -/
opaque Config.dirHash : Nat → Nat
opaque Config.lsHash : Nat → Nat

/-- The event of this sequence number comes from another clock domain whose crossing has not yet delivered the last edge (R27). -/
opaque Config.crossLag : BitVec 32 → Bool

/-- The DFE taps of a lane (port * 5 + lane) as adaptation has them in a tick: LN_DFE0, and LN_DFE1 above it (R283). -/
opaque Config.dfeTaps : Nat → BitVec 48 → BitVec 64

/-- The frequency of each ring oscillator at production test, in kHz (R374). -/
opaque Config.roRef : Nat → BitVec 24

/-- The words that loading a firmware copy leaves in the code RAM, by the copy's deposited bytes. -/
opaque Config.codeRam : List Byte → Nat → Word

end Sys2Proof
end

