-- ==== Sys2Proof/Machine/RegTable.lean ====
section
/-! DEFINITION. The register window (R419-R429): one row per register, its access types (R10) as masks over the
register's bits, and its reset value. Bits in no mask are RO or reserved. Offsets in the tile, port, lane and page
spaces are relative to the bases of R420. -/

namespace Sys2Proof.Machine

/-- The space an offset falls in under the decoder of R420. -/
inductive Space where
  | glob | tile | port | lane | page
deriving DecidableEq, Repr

/-- One register, or an array of `n` copies `st` bytes apart, each of `w` consecutive words. -/
structure RegRow where
  nm  : String
  sp  : Space
  b   : Nat
  st  : Nat := 4
  n   : Nat := 1
  w   : Nat := 1
  rst : Nat := 0
  rw  : Nat := 0
  rc  : Nat := 0
  w1c : Nat := 0
  w1s : Nat := 0
  wo  : Nat := 0
  rws : Nat := 0
  rwl : Nat := 0
  /-- a 64-bit counter: kept across warm module reset -/
  c64 : Bool := false
deriving DecidableEq, Repr

/-- Rows 0 onward of the register map. -/
def regRows0 : List RegRow := [
  ⟨"GLB_ID", .glob, 0x0, 0x4, 1, 1, 0xc00001, 0x0, 0x0, 0x0, 0x0, 0x0, 0x0, 0x0, false⟩,
  ⟨"GLB_SERIAL", .glob, 0x8, 0x8, 1, 2, 0x0, 0x0, 0x0, 0x0, 0x0, 0x0, 0x0, 0x0, false⟩,
  ⟨"GLB_MODULE_FID", .glob, 0x10, 0x4, 1, 1, 0x0, 0x0, 0x0, 0x0, 0x0, 0x0, 0x0, 0x0, false⟩,
  ⟨"GLB_BOOT_COUNT", .glob, 0x14, 0x4, 1, 1, 0x0, 0x0, 0x0, 0x0, 0x0, 0x0, 0x0, 0x0, false⟩,
  ⟨"GLB_WALLCLOCK_MARK", .glob, 0x20, 0x4, 4, 1, 0x0, 0x0, 0x0, 0x0, 0x0, 0x0, 0x0, 0x0, false⟩,
  ⟨"GLB_WALLCLOCK_TICK", .glob, 0x30, 0x8, 1, 2, 0x0, 0x0, 0x0, 0x0, 0x0, 0x0, 0x0, 0x0, false⟩,
  ⟨"GLB_CAP_ENG", .glob, 0x100, 0x8, 1, 2, 0xffffffff, 0x0, 0x0, 0x0, 0x0, 0x0, 0x0, 0x0, false⟩,
  ⟨"GLB_CAP_BANK", .glob, 0x108, 0x4, 1, 1, 0xffffffff, 0x0, 0x0, 0x0, 0x0, 0x0, 0x0, 0x0, false⟩,
  ⟨"GLB_CAP_MISC", .glob, 0x10c, 0x4, 1, 1, 0xfff0f03, 0x0, 0x0, 0x0, 0x0, 0x0, 0x0, 0x0, false⟩,
  ⟨"GLB_CAP_PORT", .glob, 0x110, 0x4, 6, 1, 0xffffffff, 0x0, 0x0, 0x0, 0x0, 0x0, 0x0, 0x0, false⟩,
  ⟨"GLB_CAP_LANE01", .glob, 0x140, 0x10, 12, 2, 0xffffffff, 0x0, 0x0, 0x0, 0x0, 0x0, 0x0, 0x0, false⟩,
  ⟨"GLB_CAP_LANE2", .glob, 0x148, 0x10, 12, 1, 0xffff, 0x0, 0x0, 0x0, 0x0, 0x0, 0x0, 0x0, false⟩,
  ⟨"GLB_RET_ENG", .glob, 0x200, 0x8, 1, 2, 0x0, 0x0, 0x0, 0x0, 0x0, 0x0, 0x0, 0x0, false⟩,
  ⟨"GLB_RET_BANK", .glob, 0x208, 0x4, 1, 1, 0x0, 0x0, 0x0, 0x0, 0x0, 0x0, 0x0, 0x0, false⟩,
  ⟨"GLB_RET_MISC", .glob, 0x20c, 0x4, 1, 1, 0x0, 0x0, 0x0, 0x0, 0x0, 0x0, 0x0, 0x0, false⟩,
  ⟨"GLB_RET_PORT", .glob, 0x210, 0x4, 6, 1, 0x0, 0x0, 0x0, 0x0, 0x0, 0x0, 0x0, 0x0, false⟩,
  ⟨"GLB_RET_LANE01", .glob, 0x240, 0x10, 12, 2, 0x0, 0x0, 0x0, 0x0, 0x0, 0x0, 0x0, 0x0, false⟩,
  ⟨"GLB_RET_LANE2", .glob, 0x248, 0x10, 12, 1, 0x0, 0x0, 0x0, 0x0, 0x0, 0x0, 0x0, 0x0, false⟩,
  ⟨"GLB_DIS_ENG", .glob, 0x300, 0x8, 1, 2, 0x0, 0x0, 0x0, 0x0, 0x0, 0x0, 0x0, 0x0, false⟩,
  ⟨"GLB_DIS_BANK", .glob, 0x308, 0x4, 1, 1, 0x0, 0x0, 0x0, 0x0, 0x0, 0x0, 0x0, 0x0, false⟩,
  ⟨"GLB_DIS_MISC", .glob, 0x30c, 0x4, 1, 1, 0x0, 0x0, 0x0, 0x0, 0x0, 0x0, 0x0, 0x0, false⟩,
  ⟨"GLB_DIS_PORT", .glob, 0x310, 0x4, 6, 1, 0x0, 0x0, 0x0, 0x0, 0x0, 0x0, 0x0, 0x0, false⟩,
  ⟨"GLB_DIS_LANE01", .glob, 0x340, 0x10, 12, 2, 0x0, 0x0, 0x0, 0x0, 0x0, 0x0, 0x0, 0x0, false⟩,
  ⟨"GLB_DIS_LANE2", .glob, 0x348, 0x10, 12, 1, 0x0, 0x0, 0x0, 0x0, 0x0, 0x0, 0x0, 0x0, false⟩]

/-- Rows 24 onward of the register map. -/
def regRows1 : List RegRow := [
  ⟨"GLB_PRS_ENG", .glob, 0x400, 0x8, 1, 2, 0x0, 0x0, 0x0, 0x0, 0x0, 0x0, 0x0, 0x0, false⟩,
  ⟨"GLB_PRS_BANK", .glob, 0x408, 0x4, 1, 1, 0x0, 0x0, 0x0, 0x0, 0x0, 0x0, 0x0, 0x0, false⟩,
  ⟨"GLB_PRS_MISC", .glob, 0x40c, 0x4, 1, 1, 0x0, 0x0, 0x0, 0x0, 0x0, 0x0, 0x0, 0x0, false⟩,
  ⟨"GLB_PRS_PORT", .glob, 0x410, 0x4, 6, 1, 0x0, 0x0, 0x0, 0x0, 0x0, 0x0, 0x0, 0x0, false⟩,
  ⟨"GLB_PRS_LANE01", .glob, 0x440, 0x10, 12, 2, 0x0, 0x0, 0x0, 0x0, 0x0, 0x0, 0x0, 0x0, false⟩,
  ⟨"GLB_PRS_LANE2", .glob, 0x448, 0x10, 12, 1, 0x0, 0x0, 0x0, 0x0, 0x0, 0x0, 0x0, 0x0, false⟩,
  ⟨"GLB_TICK_LOCAL", .glob, 0x1000, 0x8, 1, 2, 0x0, 0x0, 0x0, 0x0, 0x0, 0x0, 0x0, 0x0, false⟩,
  ⟨"GLB_TICK_FABRIC", .glob, 0x1008, 0x8, 1, 2, 0x0, 0x0, 0x0, 0x0, 0x0, 0x0, 0x0, 0x0, false⟩,
  ⟨"GLB_TICK_CTL", .glob, 0x1010, 0x4, 1, 1, 0x80000000, 0x0, 0x0, 0x0, 0x0, 0x0, 0x80000000, 0x0, false⟩,
  ⟨"GLB_TICK_STATUS", .glob, 0x1014, 0x4, 1, 1, 0x0, 0x0, 0x0, 0x0, 0x0, 0x0, 0x0, 0x0, false⟩,
  ⟨"GLB_TICK_MASTER", .glob, 0x1018, 0x4, 1, 1, 0x0, 0x0, 0x0, 0x0, 0x0, 0x0, 0x0, 0x0, false⟩,
  ⟨"GLB_TICK_PHASE", .glob, 0x101c, 0x4, 1, 1, 0x0, 0x0, 0x0, 0x0, 0x0, 0x0, 0x0, 0x0, false⟩,
  ⟨"GLB_TICK_OVERRUN_CNT", .glob, 0x1020, 0x4, 1, 1, 0x0, 0x0, 0xffffffff, 0x0, 0x0, 0x0, 0x0, 0x0, false⟩,
  ⟨"GLB_TICK_STEP_CNT", .glob, 0x1024, 0x4, 1, 1, 0x0, 0x0, 0xffffffff, 0x0, 0x0, 0x0, 0x0, 0x0, false⟩,
  ⟨"GLB_TICK_LAST_STEP", .glob, 0x1028, 0x4, 1, 1, 0x0, 0x0, 0x0, 0x0, 0x0, 0x0, 0x0, 0x0, false⟩,
  ⟨"GLB_LOCK_STATE", .glob, 0x4000, 0x10, 64, 1, 0x0, 0x0, 0x0, 0x0, 0x0, 0x0, 0x0, 0x0, false⟩,
  ⟨"GLB_LOCK_OWNER", .glob, 0x4004, 0x10, 64, 1, 0x0, 0x0, 0x0, 0x0, 0x0, 0x0, 0x0, 0x0, false⟩,
  ⟨"GLB_LOCK_FIRST", .glob, 0x4008, 0x10, 64, 1, 0x0, 0x0, 0x0, 0x0, 0x0, 0x0, 0x0, 0x0, false⟩,
  ⟨"GLB_LOCK_LAST", .glob, 0x400c, 0x10, 64, 1, 0x0, 0x0, 0x0, 0x0, 0x0, 0x0, 0x0, 0x0, false⟩,
  ⟨"GLB_EV_SEQ", .glob, 0x5000, 0x4, 1, 1, 0x0, 0x0, 0x0, 0x0, 0x0, 0x0, 0x0, 0x0, false⟩,
  ⟨"GLB_EV_PEND", .glob, 0x5004, 0x4, 1, 1, 0x0, 0x0, 0x0, 0x3ffe, 0x0, 0x0, 0x0, 0x0, false⟩,
  ⟨"GLB_EV_MASK", .glob, 0x5008, 0x4, 1, 1, 0x0, 0x3ffe, 0x0, 0x0, 0x0, 0x0, 0x0, 0x0, false⟩,
  ⟨"GLB_EV_FIFO_LEVEL", .glob, 0x500c, 0x4, 1, 1, 0x0, 0x0, 0x0, 0x0, 0x0, 0x0, 0x0, 0x0, false⟩,
  ⟨"GLB_EV_FIFO_OVF_CNT", .glob, 0x5010, 0x4, 1, 1, 0x0, 0x0, 0xffffffff, 0x0, 0x0, 0x0, 0x0, 0x0, false⟩]

/-- Rows 48 onward of the register map. -/
def regRows2 : List RegRow := [
  ⟨"GLB_EVLOG_HEAD", .glob, 0x5014, 0x4, 1, 1, 0x0, 0x0, 0x0, 0x0, 0x0, 0x0, 0x0, 0x0, false⟩,
  ⟨"GLB_LOCK_BREAK_CNT", .glob, 0x5018, 0x4, 1, 1, 0x0, 0x0, 0xffffffff, 0x0, 0x0, 0x0, 0x0, 0x0, false⟩,
  ⟨"GLB_CLK_STATUS", .glob, 0x6000, 0x4, 1, 1, 0x0, 0x0, 0x0, 0x0, 0x0, 0x0, 0x0, 0x0, false⟩,
  ⟨"GLB_CLK_LOSS_CNT", .glob, 0x6004, 0x4, 1, 1, 0x0, 0x0, 0xffffffff, 0x0, 0x0, 0x0, 0x0, 0x0, false⟩,
  ⟨"GLB_XING_IDX", .glob, 0x6010, 0x4, 1, 1, 0x0, 0x3ff, 0x0, 0x0, 0x0, 0x0, 0x0, 0x0, false⟩,
  ⟨"GLB_XING_MERGE_CNT", .glob, 0x6014, 0x4, 1, 1, 0x0, 0x0, 0xffffffff, 0x0, 0x0, 0x0, 0x0, 0x0, false⟩,
  ⟨"GLB_XING_TO_CNT", .glob, 0x6018, 0x4, 1, 1, 0x0, 0x0, 0xffffffff, 0x0, 0x0, 0x0, 0x0, 0x0, false⟩,
  ⟨"GLB_XING_LOG0", .glob, 0x6020, 0x4, 1, 1, 0x0, 0x0, 0x0, 0x80000000, 0x0, 0x0, 0x0, 0x0, false⟩,
  ⟨"GLB_XING_LOG1", .glob, 0x6024, 0x4, 1, 1, 0x0, 0x0, 0x0, 0x0, 0x0, 0x0, 0x0, 0x0, false⟩,
  ⟨"GLB_RST_CAUSE", .glob, 0x6100, 0x4, 1, 1, 0x10000000, 0x0, 0x0, 0x0, 0x0, 0x0, 0x0, 0x0, false⟩,
  ⟨"GLB_RST_WARM_CNT", .glob, 0x6104, 0x4, 1, 1, 0x0, 0x0, 0xffffffff, 0x0, 0x0, 0x0, 0x0, 0x0, false⟩,
  ⟨"GLB_ERR_CE_CNT", .glob, 0x6200, 0x8, 1, 2, 0x0, 0x0, 0x0, 0x0, 0x0, 0x0, 0x0, 0x0, true⟩,
  ⟨"GLB_ERR_UE_CNT", .glob, 0x6208, 0x4, 1, 1, 0x0, 0x0, 0xffffffff, 0x0, 0x0, 0x0, 0x0, 0x0, false⟩,
  ⟨"GLB_ERR_LOG0", .glob, 0x620c, 0x4, 1, 1, 0x0, 0x0, 0x0, 0x80000000, 0x0, 0x0, 0x0, 0x0, false⟩,
  ⟨"GLB_ERR_LOG1", .glob, 0x6210, 0x4, 1, 1, 0x0, 0x0, 0x0, 0x0, 0x0, 0x0, 0x0, 0x0, false⟩,
  ⟨"GLB_BG_DEFER_CNT", .glob, 0x6300, 0x10, 6, 2, 0x0, 0x0, 0x0, 0x0, 0x0, 0x0, 0x0, 0x0, true⟩,
  ⟨"GLB_BG_FORCE_CNT", .glob, 0x6308, 0x10, 6, 1, 0x0, 0x0, 0xffffffff, 0x0, 0x0, 0x0, 0x0, 0x0, false⟩,
  ⟨"GLB_BG_LATE_CNT", .glob, 0x630c, 0x10, 6, 1, 0x0, 0x0, 0xffffffff, 0x0, 0x0, 0x0, 0x0, 0x0, false⟩,
  ⟨"MGT_STATUS", .glob, 0x100000, 0x4, 1, 1, 0x0, 0x0, 0x0, 0x0, 0x0, 0x0, 0x0, 0x0, false⟩,
  ⟨"MGT_FW_INFO", .glob, 0x100004, 0x4, 1, 1, 0x0, 0x0, 0x0, 0x0, 0x0, 0x0, 0x0, 0x0, false⟩,
  ⟨"MGT_FW_GEN", .glob, 0x100008, 0x4, 1, 1, 0x0, 0x0, 0x0, 0x0, 0x0, 0x0, 0x0, 0x0, false⟩,
  ⟨"MGT_FJX_GEN", .glob, 0x10000c, 0x4, 1, 1, 0x0, 0x0, 0x0, 0x0, 0x0, 0x0, 0x0, 0x0, false⟩,
  ⟨"MGT_SVN_MIN", .glob, 0x100010, 0x4, 1, 1, 0x0, 0x0, 0x0, 0x0, 0x0, 0x0, 0x0, 0x0, false⟩,
  ⟨"MGT_LC_FUSES", .glob, 0x100014, 0x4, 1, 1, 0x0, 0x0, 0x0, 0x0, 0x0, 0x0, 0x0, 0x0, false⟩]

/-- Rows 72 onward of the register map. -/
def regRows3 : List RegRow := [
  ⟨"MGT_HA_CTL", .glob, 0x100020, 0x4, 1, 1, 0x81000020, 0xffff0ff, 0x0, 0x0, 0x0, 0x0, 0x80000000, 0x0, false⟩,
  ⟨"MGT_CKPT_STATUS", .glob, 0x100024, 0x4, 1, 1, 0x0, 0x0, 0x0, 0x0, 0x0, 0x0, 0x0, 0x0, false⟩,
  ⟨"MGT_CKPT_GEN", .glob, 0x100028, 0x4, 1, 1, 0x0, 0x0, 0x0, 0x0, 0x0, 0x0, 0x0, 0x0, false⟩,
  ⟨"MGT_JRNL_FREE", .glob, 0x10002c, 0x4, 1, 1, 0x0, 0x0, 0x0, 0x0, 0x0, 0x0, 0x0, 0x0, false⟩,
  ⟨"MGT_JRNL_SEQ", .glob, 0x100030, 0x4, 1, 1, 0x0, 0x0, 0x0, 0x0, 0x0, 0x0, 0x0, 0x0, false⟩,
  ⟨"MGT_SWITCH_CNT", .glob, 0x100040, 0x4, 1, 1, 0x0, 0x0, 0xffffffff, 0x0, 0x0, 0x0, 0x0, 0x0, false⟩,
  ⟨"MGT_JRNL_STALL_CNT", .glob, 0x100044, 0x4, 1, 1, 0x0, 0x0, 0xffffffff, 0x0, 0x0, 0x0, 0x0, 0x0, false⟩,
  ⟨"MGT_FJX_APPLY_FAIL_CNT", .glob, 0x100048, 0x4, 1, 1, 0x0, 0x0, 0xffffffff, 0x0, 0x0, 0x0, 0x0, 0x0, false⟩,
  ⟨"MGT_DEBUG_FAIL_CNT", .glob, 0x10004c, 0x4, 1, 1, 0x0, 0x0, 0xffffffff, 0x0, 0x0, 0x0, 0x0, 0x0, false⟩,
  ⟨"MGT_SWITCH_TIME", .glob, 0x100050, 0x4, 1, 1, 0x0, 0x0, 0x0, 0x0, 0x0, 0x0, 0x0, 0x0, false⟩,
  ⟨"MGT_ACU_VIOL_CNT", .glob, 0x100054, 0x4, 1, 1, 0x0, 0x0, 0xffffffff, 0x0, 0x0, 0x0, 0x0, 0x0, false⟩,
  ⟨"MGT_ACU_CTL", .glob, 0x101000, 0x100, 8, 1, 0x0, 0x80000000, 0x0, 0x0, 0x40000000, 0x0, 0x0, 0x0, false⟩,
  ⟨"MGT_ACU_DENY_CNT", .glob, 0x101004, 0x100, 8, 1, 0x0, 0x0, 0xffffffff, 0x0, 0x0, 0x0, 0x0, 0x0, false⟩,
  ⟨"MGT_ACU_LOG0", .glob, 0x101008, 0x100, 8, 1, 0x0, 0x0, 0x0, 0x80000000, 0x0, 0x0, 0x0, 0x0, false⟩,
  ⟨"MGT_ACU_LOG1", .glob, 0x10100c, 0x100, 8, 1, 0x0, 0x0, 0x0, 0x0, 0x0, 0x0, 0x0, 0x0, false⟩,
  ⟨"MGT_ACU_SLOT0_G", .glob, 0x101010, 0x100, 8, 1, 0xd8, 0x1ff, 0x0, 0x0, 0x0, 0x0, 0x0, 0x0, false⟩,
  ⟨"MGT_ACU_SLOT0_M", .glob, 0x101014, 0x100, 8, 1, 0x1c8, 0x1ff, 0x0, 0x0, 0x0, 0x0, 0x0, 0x0, false⟩,
  ⟨"MGT_ACU_SLOT0_B", .glob, 0x101018, 0x100, 8, 7, 0xd8, 0x1ff, 0x0, 0x0, 0x0, 0x0, 0x0, 0x0, false⟩,
  ⟨"MGT_ACU_SLOT0_I", .glob, 0x101034, 0x100, 8, 1, 0xdb, 0x1ff, 0x0, 0x0, 0x0, 0x0, 0x0, 0x0, false⟩,
  ⟨"MGT_ACU_SLOT0_T", .glob, 0x101038, 0x100, 8, 12, 0xd8, 0x1ff, 0x0, 0x0, 0x0, 0x0, 0x0, 0x0, false⟩,
  ⟨"MGT_ACU_SLOT0_U", .glob, 0x101068, 0x100, 8, 1, 0x0, 0x1ff, 0x0, 0x0, 0x0, 0x0, 0x0, 0x0, false⟩,
  ⟨"MGT_ACU_SLOT1_G", .glob, 0x101090, 0x100, 8, 1, 0xd8, 0x1ff, 0x0, 0x0, 0x0, 0x0, 0x0, 0x0, false⟩,
  ⟨"MGT_ACU_SLOT1_M", .glob, 0x101094, 0x100, 8, 1, 0x1c8, 0x1ff, 0x0, 0x0, 0x0, 0x0, 0x0, 0x0, false⟩,
  ⟨"MGT_ACU_SLOT1_B", .glob, 0x101098, 0x100, 8, 7, 0xd8, 0x1ff, 0x0, 0x0, 0x0, 0x0, 0x0, 0x0, false⟩]

/-- Rows 96 onward of the register map. -/
def regRows4 : List RegRow := [
  ⟨"MGT_ACU_SLOT1_I", .glob, 0x1010b4, 0x100, 8, 1, 0xdb, 0x1ff, 0x0, 0x0, 0x0, 0x0, 0x0, 0x0, false⟩,
  ⟨"MGT_ACU_SLOT1_T", .glob, 0x1010b8, 0x100, 8, 12, 0xd8, 0x1ff, 0x0, 0x0, 0x0, 0x0, 0x0, 0x0, false⟩,
  ⟨"MGT_ACU_SLOT1_U", .glob, 0x1010e8, 0x100, 8, 1, 0x0, 0x1ff, 0x0, 0x0, 0x0, 0x0, 0x0, 0x0, false⟩,
  ⟨"MGT_NALUG_CTL", .glob, 0x108000, 0x4, 1, 1, 0x3233, 0x0, 0x0, 0x0, 0x0, 0x0, 0x0, 0xc0007f7f, false⟩,
  ⟨"MGT_NALUG_STATUS", .glob, 0x108004, 0x4, 1, 1, 0x0, 0x0, 0x0, 0x0, 0x0, 0x0, 0x0, 0x0, false⟩,
  ⟨"MGT_NALUG_CMD_CNT", .glob, 0x108010, 0x8, 1, 2, 0x0, 0x0, 0x0, 0x0, 0x0, 0x0, 0x0, 0x0, true⟩,
  ⟨"MGT_NALUG_BAD_CNT", .glob, 0x108018, 0x4, 1, 1, 0x0, 0x0, 0xffffffff, 0x0, 0x0, 0x0, 0x0, 0x0, false⟩,
  ⟨"MGT_NALUG_PEC_ERR_CNT", .glob, 0x10801c, 0x4, 1, 1, 0x0, 0x0, 0xffffffff, 0x0, 0x0, 0x0, 0x0, 0x0, false⟩,
  ⟨"MGT_NALUG_REASM_ERR_CNT", .glob, 0x108020, 0x4, 1, 1, 0x0, 0x0, 0xffffffff, 0x0, 0x0, 0x0, 0x0, 0x0, false⟩,
  ⟨"MGT_NALUG_DENIED_CNT", .glob, 0x108024, 0x4, 1, 1, 0x0, 0x0, 0xffffffff, 0x0, 0x0, 0x0, 0x0, 0x0, false⟩,
  ⟨"MGT_NALUG_BUSY_CNT", .glob, 0x108028, 0x4, 1, 1, 0x0, 0x0, 0xffffffff, 0x0, 0x0, 0x0, 0x0, 0x0, false⟩,
  ⟨"MGT_NALUG_NOTIFY_LOST_CNT", .glob, 0x10802c, 0x4, 1, 1, 0x0, 0x0, 0xffffffff, 0x0, 0x0, 0x0, 0x0, 0x0, false⟩,
  ⟨"MGT_SB_ARB_LOSS_CNT", .glob, 0x108030, 0x4, 1, 1, 0x0, 0x0, 0xffffffff, 0x0, 0x0, 0x0, 0x0, 0x0, false⟩,
  ⟨"MGT_STEP", .glob, 0x108100, 0x10, 32, 4, 0x0, 0x0, 0x0, 0x0, 0x0, 0x0, 0x0, 0x0, false⟩,
  ⟨"SF_HOME_CTL", .glob, 0x200000, 0x4, 1, 1, 0xe0000000, 0xf0000000, 0x0, 0x0, 0x0, 0x0, 0x0, 0x0, false⟩,
  ⟨"SF_SNOOP_TIMEOUT", .glob, 0x200004, 0x4, 1, 1, 0x800, 0xffff, 0x0, 0x0, 0x0, 0x0, 0x0, 0x0, false⟩,
  ⟨"SF_BLANKET_CTL", .glob, 0x200010, 0x4, 1, 1, 0x800400, 0xf0ffff, 0x0, 0x0, 0x0, 0x0, 0x0, 0x0, false⟩,
  ⟨"SF_BLANKET_ENTER", .glob, 0x200014, 0x4, 1, 1, 0x10000, 0xffffffff, 0x0, 0x0, 0x0, 0x0, 0x0, 0x0, false⟩,
  ⟨"SF_BLANKET_EXIT", .glob, 0x200018, 0x4, 1, 1, 0x1000, 0xffffffff, 0x0, 0x0, 0x0, 0x0, 0x0, 0x0, false⟩,
  ⟨"SF_DIR_STATUS", .glob, 0x200020, 0x4, 1, 1, 0x0, 0x0, 0x0, 0x0, 0x0, 0x0, 0x0, 0x0, false⟩,
  ⟨"SF_DIR_USED", .glob, 0x200024, 0x4, 1, 1, 0x0, 0x0, 0x0, 0x0, 0x0, 0x0, 0x0, 0x0, false⟩,
  ⟨"SF_SCRUB_CTL", .glob, 0x200030, 0x4, 1, 1, 0x80000004, 0x800000ff, 0x0, 0x0, 0x0, 0x0, 0x0, 0x0, false⟩,
  ⟨"SF_SCRUB_UE_CNT", .glob, 0x200034, 0x4, 1, 1, 0x0, 0x0, 0xffffffff, 0x0, 0x0, 0x0, 0x0, 0x0, false⟩,
  ⟨"SF_SCRUB_PASS", .glob, 0x200038, 0x4, 1, 1, 0x0, 0x0, 0x0, 0x0, 0x0, 0x0, 0x0, 0x0, false⟩]

/-- Rows 120 onward of the register map. -/
def regRows5 : List RegRow := [
  ⟨"SF_BLANKET_MAP", .glob, 0x200400, 0x4, 128, 1, 0x0, 0x0, 0x0, 0x0, 0x0, 0x0, 0x0, 0x0, false⟩,
  ⟨"SF_DOM_COH_IDX", .glob, 0x200600, 0x4, 1, 1, 0x0, 0xfff, 0x0, 0x0, 0x0, 0x0, 0x0, 0x0, false⟩,
  ⟨"SF_DOM_COH", .glob, 0x200604, 0x4, 1, 1, 0x0, 0x0, 0x0, 0x0, 0x0, 0x0, 0x0, 0x0, false⟩,
  ⟨"SF_DOM_COH_EVICT", .glob, 0x200608, 0x4, 1, 1, 0x0, 0x0, 0x0, 0x0, 0x0, 0x0, 0x0, 0x0, false⟩,
  ⟨"SF_DOM_COH_DEAD", .glob, 0x20060c, 0x4, 1, 1, 0x0, 0x0, 0x0, 0x0, 0x0, 0x0, 0x0, 0x0, false⟩,
  ⟨"SF_BANK_STATUS", .glob, 0x210000, 0x100, 16, 1, 0x2000, 0x0, 0x0, 0x0, 0x0, 0x0, 0x0, 0x0, false⟩,
  ⟨"SF_BANK_HOLD_CNT", .glob, 0x210004, 0x100, 16, 1, 0x0, 0x0, 0x0, 0x0, 0x0, 0x0, 0x0, 0x0, false⟩,
  ⟨"SF_BANK_REQ_CNT", .glob, 0x210008, 0x100, 16, 2, 0x0, 0x0, 0x0, 0x0, 0x0, 0x0, 0x0, 0x0, true⟩,
  ⟨"SF_BANK_BISNP_CNT", .glob, 0x210010, 0x100, 16, 2, 0x0, 0x0, 0x0, 0x0, 0x0, 0x0, 0x0, 0x0, true⟩,
  ⟨"SF_BANK_SPEC_DISCARD_CNT", .glob, 0x210018, 0x100, 16, 2, 0x0, 0x0, 0x0, 0x0, 0x0, 0x0, 0x0, 0x0, true⟩,
  ⟨"SF_BANK_DIR_EVICT_CNT", .glob, 0x210020, 0x100, 16, 2, 0x0, 0x0, 0x0, 0x0, 0x0, 0x0, 0x0, 0x0, true⟩,
  ⟨"SF_BANK_LS_EVICT_CNT", .glob, 0x210028, 0x100, 16, 2, 0x0, 0x0, 0x0, 0x0, 0x0, 0x0, 0x0, 0x0, true⟩,
  ⟨"SF_BANK_CONFLICT_CNT", .glob, 0x210030, 0x100, 16, 2, 0x0, 0x0, 0x0, 0x0, 0x0, 0x0, 0x0, 0x0, true⟩,
  ⟨"SF_BANK_TRK_STALL_CNT", .glob, 0x210038, 0x100, 16, 2, 0x0, 0x0, 0x0, 0x0, 0x0, 0x0, 0x0, 0x0, true⟩,
  ⟨"SF_BANK_LS_DIRTY", .glob, 0x210040, 0x100, 16, 1, 0x0, 0x0, 0x0, 0x0, 0x0, 0x0, 0x0, 0x0, false⟩,
  ⟨"SF_BANK_POISON_CNT", .glob, 0x210044, 0x100, 16, 1, 0x0, 0x0, 0xffffffff, 0x0, 0x0, 0x0, 0x0, 0x0, false⟩,
  ⟨"SF_BANK_PROTO_ERR_CNT", .glob, 0x210048, 0x100, 16, 1, 0x0, 0x0, 0xffffffff, 0x0, 0x0, 0x0, 0x0, 0x0, false⟩,
  ⟨"SF_BANK_LOST_DIRTY_CNT", .glob, 0x21004c, 0x100, 16, 1, 0x0, 0x0, 0xffffffff, 0x0, 0x0, 0x0, 0x0, 0x0, false⟩,
  ⟨"SF_BIND_CTL", .glob, 0x2c0000, 0x4, 1, 1, 0x1000, 0x7fff, 0x0, 0x0, 0x0, 0x0, 0x0, 0x0, false⟩,
  ⟨"SF_SLICE_IDX", .glob, 0x2c0010, 0x4, 1, 1, 0x0, 0x3ffff, 0x0, 0x0, 0x0, 0x0, 0x0, 0x0, false⟩,
  ⟨"SF_SLICE_DATA", .glob, 0x2c0020, 0x4, 8, 1, 0x0, 0x0, 0x0, 0x0, 0x0, 0x0, 0x0, 0x0, false⟩,
  ⟨"SF_SLICE_STATE_CNT", .glob, 0x2c0040, 0x4, 6, 1, 0x0, 0x0, 0x0, 0x0, 0x0, 0x0, 0x0, 0x0, false⟩,
  ⟨"SF_DOM_IDX", .glob, 0x2c0080, 0x4, 1, 1, 0x0, 0xfff, 0x0, 0x0, 0x0, 0x0, 0x0, 0x0, false⟩,
  ⟨"SF_DOM_HDR", .glob, 0x2c0084, 0x4, 1, 1, 0x0, 0x0, 0x0, 0x0, 0x0, 0x0, 0x0, 0x0, false⟩]

/-- Rows 144 onward of the register map. -/
def regRows6 : List RegRow := [
  ⟨"SF_DOM_AGENT", .glob, 0x2c0100, 0x4, 64, 1, 0x0, 0x0, 0x0, 0x0, 0x0, 0x0, 0x0, 0x0, false⟩,
  ⟨"SF_HMAP_IDX", .glob, 0x2c0200, 0x4, 1, 1, 0x0, 0x7ffff, 0x0, 0x0, 0x0, 0x0, 0x0, 0x0, false⟩,
  ⟨"SF_HMAP_DATA", .glob, 0x2c0208, 0x8, 1, 2, 0x0, 0x0, 0x0, 0x0, 0x0, 0x0, 0x0, 0x0, false⟩,
  ⟨"SF_DECODE_FAIL_CNT", .glob, 0x2c0300, 0x4, 1, 1, 0x0, 0x0, 0xffffffff, 0x0, 0x0, 0x0, 0x0, 0x0, false⟩,
  ⟨"SF_DECODE_FAIL_LOG0", .glob, 0x2c0308, 0x4, 1, 1, 0x0, 0x0, 0x0, 0x80000000, 0x0, 0x0, 0x0, 0x0, false⟩,
  ⟨"SF_DECODE_FAIL_LOG1", .glob, 0x2c030c, 0x4, 1, 1, 0x0, 0x0, 0x0, 0x0, 0x0, 0x0, 0x0, 0x0, false⟩,
  ⟨"SF_DECODE_FAIL_LOG2", .glob, 0x2c0310, 0x4, 1, 1, 0x0, 0x0, 0x0, 0x0, 0x0, 0x0, 0x0, 0x0, false⟩,
  ⟨"SF_VCS", .glob, 0x2d0000, 0x40, 96, 7, 0x0, 0x0, 0x0, 0x0, 0x0, 0x0, 0x0, 0x0, false⟩,
  ⟨"HMP_CTL", .glob, 0x300000, 0x4, 1, 1, 0x84001000, 0xcf00ffff, 0x0, 0x0, 0x0, 0x0, 0x0, 0x0, false⟩,
  ⟨"HMP_TIMING0", .glob, 0x300004, 0x4, 1, 1, 0x7800200, 0xfff0fff, 0x0, 0x0, 0x0, 0x0, 0x0, 0x0, false⟩,
  ⟨"HMP_TIMING1", .glob, 0x300008, 0x4, 1, 1, 0x280, 0xfff, 0x0, 0x0, 0x0, 0x0, 0x0, 0x0, false⟩,
  ⟨"HMP_STATUS", .glob, 0x300010, 0x4, 1, 1, 0x4000, 0x0, 0x0, 0x0, 0x0, 0x0, 0x0, 0x0, false⟩,
  ⟨"HMP_TAG_NEXT", .glob, 0x300014, 0x4, 1, 1, 0x0, 0x0, 0x0, 0x0, 0x0, 0x0, 0x0, 0x0, false⟩,
  ⟨"HMP_SLOT_USE", .glob, 0x300018, 0x4, 1, 1, 0x0, 0x0, 0x0, 0x0, 0x0, 0x0, 0x0, 0x0, false⟩,
  ⟨"HMP_LOG_BASE", .glob, 0x300020, 0x8, 1, 2, 0x0, 0x0, 0x0, 0x0, 0x0, 0x0, 0x0, 0x0, false⟩,
  ⟨"HMP_LOG_SIZE", .glob, 0x300028, 0x4, 1, 1, 0x0, 0x0, 0x0, 0x0, 0x0, 0x0, 0x0, 0x0, false⟩,
  ⟨"HMP_LOG_HEAD", .glob, 0x30002c, 0x4, 1, 1, 0x0, 0x0, 0x0, 0x0, 0x0, 0x0, 0x0, 0x0, false⟩,
  ⟨"HMP_SUBMIT_CNT", .glob, 0x300040, 0x8, 1, 2, 0x0, 0x0, 0x0, 0x0, 0x0, 0x0, 0x0, 0x0, true⟩,
  ⟨"HMP_COMMIT_CNT", .glob, 0x300048, 0x8, 1, 2, 0x0, 0x0, 0x0, 0x0, 0x0, 0x0, 0x0, 0x0, true⟩,
  ⟨"HMP_RETRY_CNT", .glob, 0x300050, 0x8, 1, 2, 0x0, 0x0, 0x0, 0x0, 0x0, 0x0, 0x0, 0x0, true⟩,
  ⟨"HMP_HOME_PREP_CNT", .glob, 0x300058, 0x8, 1, 2, 0x0, 0x0, 0x0, 0x0, 0x0, 0x0, 0x0, 0x0, true⟩,
  ⟨"HMP_LATE_CNT", .glob, 0x300060, 0x4, 1, 1, 0x0, 0x0, 0xffffffff, 0x0, 0x0, 0x0, 0x0, 0x0, false⟩,
  ⟨"HMP_PORT_DISCARD_CNT", .glob, 0x300064, 0x4, 1, 1, 0x0, 0x0, 0xffffffff, 0x0, 0x0, 0x0, 0x0, 0x0, false⟩,
  ⟨"HMP_INDOUBT_HIT_CNT", .glob, 0x300068, 0x4, 1, 1, 0x0, 0x0, 0xffffffff, 0x0, 0x0, 0x0, 0x0, 0x0, false⟩]

/-- Rows 168 onward of the register map. -/
def regRows7 : List RegRow := [
  ⟨"HMP_LATE_SEAL_CNT", .glob, 0x30006c, 0x4, 1, 1, 0x0, 0x0, 0xffffffff, 0x0, 0x0, 0x0, 0x0, 0x0, false⟩,
  ⟨"HMP_LAST_ABORT0", .glob, 0x300080, 0x4, 1, 1, 0x0, 0x0, 0x0, 0x80000000, 0x0, 0x0, 0x0, 0x0, false⟩,
  ⟨"HMP_LAST_ABORT", .glob, 0x300084, 0x4, 3, 1, 0x0, 0x0, 0x0, 0x0, 0x0, 0x0, 0x0, 0x0, false⟩,
  ⟨"HMP_ABORT_CNT", .glob, 0x300100, 0x8, 14, 2, 0x0, 0x0, 0x0, 0x0, 0x0, 0x0, 0x0, 0x0, true⟩,
  ⟨"ENG_CTL", .glob, 0x400000, 0x4, 1, 1, 0x80000010, 0x8000003f, 0x0, 0x0, 0x0, 0x0, 0x0, 0x0, false⟩,
  ⟨"ENG_STATUS", .glob, 0x400004, 0x4, 1, 1, 0x0, 0x0, 0x0, 0x0, 0x0, 0x0, 0x0, 0x0, false⟩,
  ⟨"ENG_PRESENT_LO", .glob, 0x400008, 0x4, 1, 1, 0x0, 0x0, 0x0, 0x0, 0x0, 0x0, 0x0, 0x0, false⟩,
  ⟨"ENG_PRESENT_HI", .glob, 0x40000c, 0x4, 1, 1, 0x0, 0x0, 0x0, 0x0, 0x0, 0x0, 0x0, 0x0, false⟩,
  ⟨"ENG_SLOT_STATUS", .glob, 0x400010, 0x4, 1, 1, 0x80010000, 0x0, 0x0, 0x0, 0x0, 0x0, 0x0, 0x0, false⟩,
  ⟨"ENG_JOB_CNT", .glob, 0x400020, 0x8, 1, 2, 0x0, 0x0, 0x0, 0x0, 0x0, 0x0, 0x0, 0x0, true⟩,
  ⟨"ENG_BYTE_CNT", .glob, 0x400028, 0x8, 1, 2, 0x0, 0x0, 0x0, 0x0, 0x0, 0x0, 0x0, 0x0, true⟩,
  ⟨"ENG_REFETCH_CNT", .glob, 0x400030, 0x8, 1, 2, 0x0, 0x0, 0x0, 0x0, 0x0, 0x0, 0x0, 0x0, true⟩,
  ⟨"ENG_PREEMPT_CNT", .glob, 0x400038, 0x8, 1, 2, 0x0, 0x0, 0x0, 0x0, 0x0, 0x0, 0x0, 0x0, true⟩,
  ⟨"ENG_RESTART_CNT", .glob, 0x400040, 0x4, 1, 1, 0x0, 0x0, 0xffffffff, 0x0, 0x0, 0x0, 0x0, 0x0, false⟩,
  ⟨"ENG_HMP_ORPHAN_CNT", .glob, 0x400044, 0x4, 1, 1, 0x0, 0x0, 0xffffffff, 0x0, 0x0, 0x0, 0x0, 0x0, false⟩,
  ⟨"ENG_DOORBELL_ERR_CNT", .glob, 0x400048, 0x4, 1, 1, 0x0, 0x0, 0xffffffff, 0x0, 0x0, 0x0, 0x0, 0x0, false⟩,
  ⟨"ENG_INST_STRAY_CNT", .glob, 0x40004c, 0x4, 1, 1, 0x0, 0x0, 0xffffffff, 0x0, 0x0, 0x0, 0x0, 0x0, false⟩,
  ⟨"ENG_STATUS_CNT", .glob, 0x400100, 0x8, 12, 2, 0x0, 0x0, 0x0, 0x0, 0x0, 0x0, 0x0, 0x0, true⟩,
  ⟨"ENG_E_STATE", .glob, 0x410000, 0x20, 64, 1, 0x0, 0x0, 0x0, 0x0, 0x0, 0x0, 0x0, 0x0, false⟩,
  ⟨"ENG_E_JOB_CNT", .glob, 0x410008, 0x20, 64, 2, 0x0, 0x0, 0x0, 0x0, 0x0, 0x0, 0x0, 0x0, true⟩,
  ⟨"ENG_E_BYTE_CNT", .glob, 0x410010, 0x20, 64, 2, 0x0, 0x0, 0x0, 0x0, 0x0, 0x0, 0x0, 0x0, true⟩,
  ⟨"ENG_INST", .glob, 0x420000, 0x20, 1024, 6, 0x0, 0x0, 0x0, 0x0, 0x0, 0x0, 0x0, 0x0, false⟩,
  ⟨"ENG_INST_RATE_CNT", .glob, 0x420018, 0x20, 1024, 1, 0x0, 0x0, 0xffffffff, 0x0, 0x0, 0x0, 0x0, 0x0, false⟩,
  ⟨"ENG_INST_MBOX_DROP_CNT", .glob, 0x42001c, 0x20, 1024, 1, 0x0, 0x0, 0xffffffff, 0x0, 0x0, 0x0, 0x0, 0x0, false⟩]

/-- Rows 192 onward of the register map. -/
def regRows8 : List RegRow := [
  ⟨"HBM_CTL", .glob, 0x500000, 0x4, 1, 1, 0x80000000, 0x0, 0x0, 0x0, 0x0, 0x0, 0x80000000, 0x0, false⟩,
  ⟨"HBM_STATUS", .glob, 0x500004, 0x4, 1, 1, 0x0, 0x0, 0x0, 0x0, 0x0, 0x0, 0x0, 0x0, false⟩,
  ⟨"HBM_PAIR_CTL", .glob, 0x500008, 0x4, 1, 1, 0x40, 0xff, 0x0, 0x0, 0x0, 0x0, 0x0, 0x0, false⟩,
  ⟨"HBM_SCRUB_CTL", .glob, 0x50000c, 0x4, 1, 1, 0x4, 0xff, 0x0, 0x0, 0x0, 0x0, 0x0, 0x0, false⟩,
  ⟨"HBM_RETIRE_CTL", .glob, 0x500010, 0x4, 1, 1, 0x10, 0xff, 0x0, 0x0, 0x0, 0x0, 0x0, 0x0, false⟩,
  ⟨"HBM_AGE_LIMIT0", .glob, 0x500020, 0x4, 1, 1, 0x40000800, 0x7fff7fff, 0x0, 0x0, 0x0, 0x0, 0x0, 0x0, false⟩,
  ⟨"HBM_AGE_LIMIT1", .glob, 0x500024, 0x4, 1, 1, 0x10000100, 0x7fff7fff, 0x0, 0x0, 0x0, 0x0, 0x0, 0x0, false⟩,
  ⟨"HBM_SPILL_STATUS", .glob, 0x500030, 0x4, 1, 1, 0x0, 0x0, 0x0, 0x0, 0x0, 0x0, 0x0, 0x0, false⟩,
  ⟨"HBM_SPILL_RSV", .glob, 0x500034, 0x4, 1, 1, 0x10000, 0x1ffff, 0x0, 0x0, 0x0, 0x0, 0x0, 0x0, false⟩,
  ⟨"HBM_AREA_BASE", .glob, 0x500040, 0x8, 4, 2, 0x0, 0x0, 0x0, 0x0, 0x0, 0x0, 0x0, 0x0, false⟩,
  ⟨"HBM_SLICE_STACK_IDX", .glob, 0x500080, 0x4, 1, 1, 0x0, 0x3ffff, 0x0, 0x0, 0x0, 0x0, 0x0, 0x0, false⟩,
  ⟨"HBM_SLICE_STACK", .glob, 0x500084, 0x4, 1, 1, 0x0, 0x0, 0x0, 0x0, 0x0, 0x0, 0x0, 0x0, false⟩,
  ⟨"HBM_MTR_CTL", .glob, 0x500100, 0x4, 1, 1, 0x400708, 0xff0f1f, 0x0, 0x0, 0x0, 0x0, 0x0, 0x0, false⟩,
  ⟨"HBM_STK_READ_CNT", .glob, 0x510008, 0x100, 4, 2, 0x0, 0x0, 0x0, 0x0, 0x0, 0x0, 0x0, 0x0, true⟩,
  ⟨"HBM_STK_WRITE_CNT", .glob, 0x510010, 0x100, 4, 2, 0x0, 0x0, 0x0, 0x0, 0x0, 0x0, 0x0, 0x0, true⟩,
  ⟨"HBM_STK_CE_CNT", .glob, 0x510018, 0x100, 4, 2, 0x0, 0x0, 0x0, 0x0, 0x0, 0x0, 0x0, 0x0, true⟩,
  ⟨"HBM_STK_UE_CNT", .glob, 0x510020, 0x100, 4, 1, 0x0, 0x0, 0xffffffff, 0x0, 0x0, 0x0, 0x0, 0x0, false⟩,
  ⟨"HBM_STK_UNPAIRED_CNT", .glob, 0x510024, 0x100, 4, 1, 0x0, 0x0, 0xffffffff, 0x0, 0x0, 0x0, 0x0, 0x0, false⟩,
  ⟨"HBM_STK_PAIR_RETRY_OK_CNT", .glob, 0x510028, 0x100, 4, 1, 0x0, 0x0, 0xffffffff, 0x0, 0x0, 0x0, 0x0, 0x0, false⟩,
  ⟨"HBM_STK_PAIR_POISON_CNT", .glob, 0x51002c, 0x100, 4, 1, 0x0, 0x0, 0xffffffff, 0x0, 0x0, 0x0, 0x0, 0x0, false⟩,
  ⟨"HBM_STK_SCRUB_PASS", .glob, 0x510030, 0x100, 4, 1, 0x0, 0x0, 0x0, 0x0, 0x0, 0x0, 0x0, 0x0, false⟩,
  ⟨"HBM_STK_LS_HINT_MISS_CNT", .glob, 0x510034, 0x100, 4, 1, 0x0, 0x0, 0xffffffff, 0x0, 0x0, 0x0, 0x0, 0x0, false⟩,
  ⟨"HBM_STK_REFRESH_LATE_CNT", .glob, 0x510038, 0x100, 4, 1, 0x0, 0x0, 0xffffffff, 0x0, 0x0, 0x0, 0x0, 0x0, false⟩,
  ⟨"HBM_MTR_ST_GRANT_CNT", .glob, 0x520000, 0x40, 53, 2, 0x0, 0x0, 0x0, 0x0, 0x0, 0x0, 0x0, 0x0, true⟩]

/-- Rows 216 onward of the register map. -/
def regRows9 : List RegRow := [
  ⟨"HBM_MTR_ST_SLOT_CNT", .glob, 0x520008, 0x40, 53, 2, 0x0, 0x0, 0x0, 0x0, 0x0, 0x0, 0x0, 0x0, true⟩,
  ⟨"HBM_MTR_ST_WAIT_CNT", .glob, 0x520010, 0x40, 53, 2, 0x0, 0x0, 0x0, 0x0, 0x0, 0x0, 0x0, 0x0, true⟩,
  ⟨"HBM_MTR_ST_FREE", .glob, 0x520018, 0x40, 24, 1, 0x100, 0x0, 0x0, 0x0, 0x0, 0x0, 0x0, 0x0, false⟩,
  ⟨"HBM_MTR_ST_FREE_HB", .glob, 0x520618, 0x40, 16, 1, 0x10000100, 0x0, 0x0, 0x0, 0x0, 0x0, 0x0, 0x0, false⟩,
  ⟨"HBM_MTR_ST_FREE_X", .glob, 0x520a18, 0x40, 13, 1, 0x100, 0x0, 0x0, 0x0, 0x0, 0x0, 0x0, 0x0, false⟩,
  ⟨"HBM_MTR_ST_STARVE_CNT", .glob, 0x52001c, 0x40, 53, 1, 0x0, 0x0, 0xffffffff, 0x0, 0x0, 0x0, 0x0, 0x0, false⟩,
  ⟨"TL_BUF_CTL", .tile, 0x40000, 0x4, 1, 1, 0x40, 0xff, 0x0, 0x0, 0x0, 0x0, 0x0, 0x0, false⟩,
  ⟨"TL_SPILL_CTL", .tile, 0x40004, 0x4, 1, 1, 0x10002008, 0xffffffff, 0x0, 0x0, 0x0, 0x0, 0x0, 0x0, false⟩,
  ⟨"TL_BUF_FREE", .tile, 0x40010, 0x4, 1, 1, 0xc000c000, 0x0, 0x0, 0x0, 0x0, 0x0, 0x0, 0x0, false⟩,
  ⟨"TL_BUF_STATUS", .tile, 0x40014, 0x4, 1, 1, 0x0, 0x0, 0x0, 0x80000000, 0x0, 0x0, 0x0, 0x0, false⟩,
  ⟨"TL_SPILL_PAGES", .tile, 0x40018, 0x4, 1, 1, 0x0, 0x0, 0x0, 0x0, 0x0, 0x0, 0x0, 0x0, false⟩,
  ⟨"TL_AGE_DROP_CNT", .tile, 0x40020, 0x4, 1, 1, 0x0, 0x0, 0xffffffff, 0x0, 0x0, 0x0, 0x0, 0x0, false⟩,
  ⟨"TL_SPILL_CNT", .tile, 0x40028, 0x8, 1, 2, 0x0, 0x0, 0x0, 0x0, 0x0, 0x0, 0x0, 0x0, true⟩,
  ⟨"QOS_CTL", .glob, 0x600000, 0x4, 1, 1, 0xf0e0e0, 0xffffff, 0x0, 0x0, 0x0, 0x0, 0x0, 0x0, false⟩,
  ⟨"QOS_STATUS", .glob, 0x600004, 0x4, 1, 1, 0x10000, 0x0, 0x0, 0x0, 0x0, 0x0, 0x0, 0x0, false⟩,
  ⟨"QOS_TGT_IDX", .glob, 0x600010, 0x4, 1, 1, 0x0, 0xfff, 0x0, 0x0, 0x0, 0x0, 0x0, 0x0, false⟩,
  ⟨"QOS_TGT_NOMINAL", .glob, 0x600014, 0x4, 1, 1, 0x0, 0x0, 0x0, 0x0, 0x0, 0x0, 0x0, 0x0, false⟩,
  ⟨"QOS_TGT_DELIVER", .glob, 0x600018, 0x4, 1, 1, 0x0, 0x0, 0x0, 0x0, 0x0, 0x0, 0x0, 0x0, false⟩,
  ⟨"QOS_TGT_SUM", .glob, 0x60001c, 0x4, 1, 1, 0x0, 0x0, 0x0, 0x0, 0x0, 0x0, 0x0, 0x0, false⟩,
  ⟨"QOS_TGT_SCALE", .glob, 0x600020, 0x4, 1, 1, 0x10000, 0x0, 0x0, 0x0, 0x0, 0x0, 0x0, 0x0, false⟩,
  ⟨"QOS_RSV_IDX", .glob, 0x600030, 0x4, 1, 1, 0x0, 0xffff, 0x0, 0x0, 0x0, 0x0, 0x0, 0x0, false⟩,
  ⟨"QOS_RSV_DATA", .glob, 0x600034, 0x4, 3, 1, 0x0, 0x0, 0x0, 0x0, 0x0, 0x0, 0x0, 0x0, false⟩,
  ⟨"QOS_REFUSE_CNT", .glob, 0x600040, 0x4, 1, 1, 0x0, 0x0, 0xffffffff, 0x0, 0x0, 0x0, 0x0, 0x0, false⟩,
  ⟨"QOS_SCALE_CNT", .glob, 0x600044, 0x4, 1, 1, 0x0, 0x0, 0xffffffff, 0x0, 0x0, 0x0, 0x0, 0x0, false⟩]

/-- Rows 240 onward of the register map. -/
def regRows10 : List RegRow := [
  ⟨"TL_QOS_CTL", .tile, 0x50000, 0x4, 1, 1, 0x0, 0x3, 0x0, 0x0, 0x0, 0x0, 0x0, 0x0, false⟩,
  ⟨"TL_QOS_STATUS", .tile, 0x50004, 0x4, 1, 1, 0x0, 0x0, 0x0, 0x0, 0x0, 0x0, 0x0, 0x0, false⟩,
  ⟨"TL_FLOW_IDX", .tile, 0x50010, 0x4, 1, 1, 0x0, 0x3ffff, 0x0, 0x0, 0x0, 0x0, 0x0, 0x0, false⟩,
  ⟨"TL_FLOW_DATA", .tile, 0x50020, 0x4, 8, 1, 0x0, 0x0, 0x0, 0x0, 0x0, 0x0, 0x0, 0x0, false⟩,
  ⟨"TL_QOS_DEF_CIR", .tile, 0x50100, 0x10, 5, 1, 0x0, 0xffffff, 0x0, 0x0, 0x0, 0x0, 0x0, 0x0, false⟩,
  ⟨"TL_QOS_DEF_CIR", .tile, 0x50160, 0x10, 2, 1, 0x0, 0xffffff, 0x0, 0x0, 0x0, 0x0, 0x0, 0x0, false⟩,
  ⟨"TL_QOS_DEF_PIR", .tile, 0x50104, 0x10, 5, 1, 0xffffff, 0xffffff, 0x0, 0x0, 0x0, 0x0, 0x0, 0x0, false⟩,
  ⟨"TL_QOS_DEF_PIR", .tile, 0x50164, 0x10, 2, 1, 0xffffff, 0xffffff, 0x0, 0x0, 0x0, 0x0, 0x0, 0x0, false⟩,
  ⟨"TL_QOS_DEF_CBS", .tile, 0x50108, 0x10, 5, 1, 0x1000, 0xffffff, 0x0, 0x0, 0x0, 0x0, 0x0, 0x0, false⟩,
  ⟨"TL_QOS_DEF_CBS", .tile, 0x50168, 0x10, 2, 1, 0x1000, 0xffffff, 0x0, 0x0, 0x0, 0x0, 0x0, 0x0, false⟩,
  ⟨"TL_QOS_DEF_PBS", .tile, 0x5010c, 0x10, 5, 1, 0xffffff, 0xffffff, 0x0, 0x0, 0x0, 0x0, 0x0, 0x0, false⟩,
  ⟨"TL_QOS_DEF_PBS", .tile, 0x5016c, 0x10, 2, 1, 0xffffff, 0xffffff, 0x0, 0x0, 0x0, 0x0, 0x0, 0x0, false⟩,
  ⟨"TL_QOS_CNT_GREEN", .tile, 0x50200, 0x20, 5, 2, 0x0, 0x0, 0x0, 0x0, 0x0, 0x0, 0x0, 0x0, true⟩,
  ⟨"TL_QOS_CNT_GREEN", .tile, 0x502c0, 0x20, 2, 2, 0x0, 0x0, 0x0, 0x0, 0x0, 0x0, 0x0, 0x0, true⟩,
  ⟨"TL_QOS_CNT_YELLOW", .tile, 0x50208, 0x20, 5, 2, 0x0, 0x0, 0x0, 0x0, 0x0, 0x0, 0x0, 0x0, true⟩,
  ⟨"TL_QOS_CNT_YELLOW", .tile, 0x502c8, 0x20, 2, 2, 0x0, 0x0, 0x0, 0x0, 0x0, 0x0, 0x0, 0x0, true⟩,
  ⟨"TL_QOS_CNT_RED", .tile, 0x50210, 0x20, 5, 2, 0x0, 0x0, 0x0, 0x0, 0x0, 0x0, 0x0, 0x0, true⟩,
  ⟨"TL_QOS_CNT_RED", .tile, 0x502d0, 0x20, 2, 2, 0x0, 0x0, 0x0, 0x0, 0x0, 0x0, 0x0, 0x0, true⟩,
  ⟨"TL_QOS_CNT_DROP", .tile, 0x50218, 0x20, 5, 1, 0x0, 0x0, 0xffffffff, 0x0, 0x0, 0x0, 0x0, 0x0, false⟩,
  ⟨"TL_QOS_CNT_DROP", .tile, 0x502d8, 0x20, 2, 1, 0x0, 0x0, 0xffffffff, 0x0, 0x0, 0x0, 0x0, 0x0, false⟩,
  ⟨"TL_QOS_CNT_HOLD", .tile, 0x5021c, 0x20, 5, 1, 0x0, 0x0, 0xffffffff, 0x0, 0x0, 0x0, 0x0, 0x0, false⟩,
  ⟨"TL_QOS_CNT_HOLD", .tile, 0x502dc, 0x20, 2, 1, 0x0, 0x0, 0xffffffff, 0x0, 0x0, 0x0, 0x0, 0x0, false⟩,
  ⟨"PT_DRR_Q0", .port, 0x400, 0x4, 1, 1, 0x40204020, 0xffffffff, 0x0, 0x0, 0x0, 0x0, 0x0, 0x0, false⟩,
  ⟨"PT_DRR_Q1", .port, 0x404, 0x4, 1, 1, 0x4201010, 0xffffffff, 0x0, 0x0, 0x0, 0x0, 0x0, 0x0, false⟩]

/-- Rows 264 onward of the register map. -/
def regRows11 : List RegRow := [
  ⟨"TEL_MON_STATUS", .glob, 0x700000, 0x4, 1, 1, 0x0, 0x0, 0x0, 0x0, 0x0, 0x0, 0x0, 0x0, false⟩,
  ⟨"TEL_MON_STATUS1", .glob, 0x700004, 0x4, 1, 1, 0x0, 0x0, 0x0, 0x0, 0x0, 0x0, 0x0, 0x0, false⟩,
  ⟨"TEL_BW_CTL", .glob, 0x700008, 0x4, 1, 1, 0x400, 0xffff, 0x0, 0x0, 0x0, 0x0, 0x0, 0x0, false⟩,
  ⟨"TEL_THR0", .glob, 0x700010, 0x4, 1, 1, 0x5f676e05, 0xffffff0f, 0x0, 0x0, 0x0, 0x0, 0x0, 0x0, false⟩,
  ⟨"TEL_THR1", .glob, 0x700014, 0x4, 1, 1, 0x5f676e05, 0xffffff0f, 0x0, 0x0, 0x0, 0x0, 0x0, 0x0, false⟩,
  ⟨"TEL_THR2", .glob, 0x700018, 0x4, 1, 1, 0x5a5f6905, 0xffffff0f, 0x0, 0x0, 0x0, 0x0, 0x0, 0x0, false⟩,
  ⟨"TEL_THR3", .glob, 0x70001c, 0x4, 1, 1, 0x6e007d05, 0xffffff0f, 0x0, 0x0, 0x0, 0x0, 0x0, 0x0, false⟩,
  ⟨"TEL_TEMP", .glob, 0x700100, 0x4, 20, 1, 0x0, 0x0, 0x0, 0x0, 0x0, 0x0, 0x0, 0x0, false⟩,
  ⟨"TEL_VOLT", .glob, 0x700200, 0x4, 12, 1, 0x0, 0x0, 0x0, 0x0, 0x0, 0x0, 0x0, 0x0, false⟩,
  ⟨"TEL_RO", .glob, 0x700300, 0x8, 8, 2, 0x0, 0x0, 0x0, 0x0, 0x0, 0x0, 0x0, 0x0, false⟩,
  ⟨"TEL_PMC_CFG", .glob, 0x701000, 0x20, 128, 1, 0x3f00fff0, 0xbfffffff, 0x0, 0x0, 0x0, 0x0, 0x0, 0x0, false⟩,
  ⟨"TEL_PMC_MATCH", .glob, 0x701004, 0x20, 128, 1, 0x0, 0x8003ffff, 0x0, 0x0, 0x0, 0x0, 0x0, 0x0, false⟩,
  ⟨"TEL_PMC_MASK", .glob, 0x701008, 0x20, 128, 1, 0x0, 0x3ffff, 0x0, 0x0, 0x0, 0x0, 0x0, 0x0, false⟩,
  ⟨"TEL_PMC_CNT", .glob, 0x701010, 0x20, 128, 2, 0x0, 0xffffffff, 0x0, 0x0, 0x0, 0x0, 0x0, 0x0, true⟩,
  ⟨"TL_PMC_CFG", .tile, 0x60000, 0x20, 64, 1, 0x3f00fff0, 0xbfffffff, 0x0, 0x0, 0x0, 0x0, 0x0, 0x0, false⟩,
  ⟨"TL_PMC_MATCH", .tile, 0x60004, 0x20, 64, 1, 0x0, 0x8003ffff, 0x0, 0x0, 0x0, 0x0, 0x0, 0x0, false⟩,
  ⟨"TL_PMC_MASK", .tile, 0x60008, 0x20, 64, 1, 0x0, 0x3ffff, 0x0, 0x0, 0x0, 0x0, 0x0, 0x0, false⟩,
  ⟨"TL_PMC_CNT", .tile, 0x60010, 0x20, 64, 2, 0x0, 0xffffffff, 0x0, 0x0, 0x0, 0x0, 0x0, 0x0, true⟩,
  ⟨"TEL_RANGE", .glob, 0x702000, 0x4, 16, 1, 0x0, 0x3ffff, 0x0, 0x0, 0x0, 0x0, 0x0, 0x0, false⟩,
  ⟨"TEL_DUMP_CTL", .glob, 0x703000, 0x4, 1, 1, 0x400, 0x80ffffff, 0x0, 0x0, 0x0, 0x0, 0x0, 0x0, false⟩,
  ⟨"TEL_DUMP_STATUS", .glob, 0x703004, 0x4, 1, 1, 0x0, 0x0, 0x0, 0x80000000, 0x0, 0x0, 0x0, 0x0, false⟩,
  ⟨"TEL_DUMP_BASE", .glob, 0x703008, 0x8, 1, 2, 0x0, 0xffffffff, 0x0, 0x0, 0x0, 0x0, 0x0, 0x0, false⟩,
  ⟨"TEL_DUMP_SLOTS", .glob, 0x703010, 0x4, 1, 1, 0x10000, 0x1ffff, 0x0, 0x0, 0x0, 0x0, 0x0, 0x0, false⟩,
  ⟨"TEL_DUMP_SEQ", .glob, 0x703014, 0x4, 1, 1, 0x0, 0x0, 0x0, 0x0, 0x0, 0x0, 0x0, 0x0, false⟩]

/-- Rows 288 onward of the register map. -/
def regRows12 : List RegRow := [
  ⟨"TEL_DUMP_SKIP_CNT", .glob, 0x703018, 0x4, 1, 1, 0x0, 0x0, 0xffffffff, 0x0, 0x0, 0x0, 0x0, 0x0, false⟩,
  ⟨"TEL_LAT_CTL", .glob, 0x704000, 0x4, 1, 1, 0x1, 0x8fffffff, 0x0, 0x0, 0x0, 0x0, 0x0, 0x0, false⟩,
  ⟨"TEL_LAT_BASE", .glob, 0x704008, 0x8, 1, 2, 0x0, 0xffffffff, 0x0, 0x0, 0x0, 0x0, 0x0, 0x0, false⟩,
  ⟨"TEL_LAT_SIZE", .glob, 0x704010, 0x4, 1, 1, 0x100000, 0x1fffff, 0x0, 0x0, 0x0, 0x0, 0x0, 0x0, false⟩,
  ⟨"TEL_LAT_SEQ", .glob, 0x704014, 0x4, 1, 1, 0x0, 0x0, 0x0, 0x0, 0x0, 0x0, 0x0, 0x0, false⟩,
  ⟨"TEL_LAT_SKIP_CNT", .glob, 0x704018, 0x4, 1, 1, 0x0, 0x0, 0xffffffff, 0x0, 0x0, 0x0, 0x0, 0x0, false⟩,
  ⟨"TEL_AUDIT_CTL", .glob, 0x705000, 0x4, 1, 1, 0x40ffff, 0xf0ffff, 0x0, 0x0, 0x0, 0x80000000, 0x0, 0x0, false⟩,
  ⟨"TEL_AUDIT_STATUS", .glob, 0x705004, 0x4, 1, 1, 0x0, 0x0, 0x0, 0x0, 0x0, 0x0, 0x0, 0x0, false⟩,
  ⟨"TEL_AUDIT_RES", .glob, 0x705008, 0x4, 1, 1, 0x0, 0x0, 0x0, 0x0, 0x0, 0x0, 0x0, 0x0, false⟩,
  ⟨"TEL_AUDIT_FIRST", .glob, 0x70500c, 0x4, 1, 1, 0x0, 0x0, 0x0, 0x0, 0x0, 0x0, 0x0, 0x0, false⟩,
  ⟨"PT_BW", .port, 0x500, 0x8, 4, 2, 0x0, 0x0, 0x0, 0x0, 0x0, 0x0, 0x0, 0x0, false⟩,
  ⟨"PWR_CTL", .glob, 0x800000, 0x4, 1, 1, 0x60000000, 0x60000000, 0x0, 0x0, 0x0, 0x80000000, 0x0, 0x0, false⟩,
  ⟨"PWR_STATUS", .glob, 0x800004, 0x4, 1, 1, 0x0, 0x0, 0x0, 0x0, 0x0, 0x0, 0x0, 0x0, false⟩,
  ⟨"PWR_FAULT", .glob, 0x800008, 0x4, 1, 1, 0x0, 0x0, 0x0, 0xe000000, 0x0, 0x0, 0x0, 0x0, false⟩,
  ⟨"PWR_LAST_OFF", .glob, 0x80000c, 0x4, 1, 1, 0x0, 0x0, 0x0, 0x0, 0x0, 0x0, 0x0, 0x0, false⟩,
  ⟨"PWR_FEED_V", .glob, 0x800010, 0x10, 2, 1, 0x0, 0x0, 0x0, 0x0, 0x0, 0x0, 0x0, 0x0, false⟩,
  ⟨"PWR_FEED_I", .glob, 0x800014, 0x10, 2, 1, 0x0, 0x0, 0x0, 0x0, 0x0, 0x0, 0x0, 0x0, false⟩,
  ⟨"PWR_FEED_E", .glob, 0x800018, 0x10, 2, 2, 0x0, 0x0, 0x0, 0x0, 0x0, 0x0, 0x0, 0x0, true⟩,
  ⟨"PWR_VBUS", .glob, 0x800030, 0x4, 1, 1, 0x0, 0x0, 0x0, 0x0, 0x0, 0x0, 0x0, 0x0, false⟩,
  ⟨"PWR_CB_TRIP_CNT", .glob, 0x800034, 0x4, 1, 1, 0x0, 0x0, 0xffffffff, 0x0, 0x0, 0x0, 0x0, 0x0, false⟩,
  ⟨"PWR_PFAIL_CNT", .glob, 0x800038, 0x4, 1, 1, 0x0, 0x0, 0xffffffff, 0x0, 0x0, 0x0, 0x0, 0x0, false⟩,
  ⟨"PWR_BR_CTL", .glob, 0x800100, 0x4, 1, 1, 0x22000, 0x3ffff, 0x0, 0x0, 0x0, 0x0, 0x0, 0x0, false⟩,
  ⟨"PWR_BR_CMD", .glob, 0x800104, 0x4, 1, 1, 0x0, 0x1fff3f03, 0x0, 0x0, 0x0, 0x0, 0x0, 0x0, false⟩,
  ⟨"PWR_BR_STATUS", .glob, 0x800108, 0x4, 1, 1, 0x0, 0x0, 0x0, 0x40800000, 0x0, 0x0, 0x0, 0x0, false⟩]

/-- Rows 312 onward of the register map. -/
def regRows13 : List RegRow := [
  ⟨"PWR_BR_DATA", .glob, 0x800110, 0x4, 8, 1, 0x0, 0xffffffff, 0x0, 0x0, 0x0, 0x0, 0x0, 0x0, false⟩,
  ⟨"PWR_BR_ERR_CNT", .glob, 0x800130, 0x4, 1, 1, 0x0, 0x0, 0xffffffff, 0x0, 0x0, 0x0, 0x0, 0x0, false⟩,
  ⟨"PWR_BR_ARB_LOSS_CNT", .glob, 0x800134, 0x4, 1, 1, 0x0, 0x0, 0xffffffff, 0x0, 0x0, 0x0, 0x0, 0x0, false⟩,
  ⟨"PWR_BR_LATE_CNT", .glob, 0x800138, 0x4, 1, 1, 0x0, 0x0, 0xffffffff, 0x0, 0x0, 0x0, 0x0, 0x0, false⟩,
  ⟨"PWR_STG", .glob, 0x810000, 0x20, 21, 3, 0x0, 0x0, 0x0, 0x0, 0x0, 0x0, 0x0, 0x0, false⟩,
  ⟨"PWR_STG_STATUS", .glob, 0x81000c, 0x20, 21, 1, 0x40000000, 0x0, 0x0, 0x0, 0x0, 0x0, 0x0, 0x0, false⟩,
  ⟨"PWR_STG_STAMP", .glob, 0x810010, 0x20, 21, 1, 0x0, 0x0, 0x0, 0x0, 0x0, 0x0, 0x0, 0x0, false⟩,
  ⟨"TL_GROUP_RT", .tile, 0x10000, 0x4, 1024, 1, 0x0, 0xc00000ff, 0x0, 0x0, 0x0, 0x0, 0x0, 0x0, false⟩,
  ⟨"TL_PORTSET", .tile, 0x11000, 0x10, 256, 2, 0x0, 0xffffffff, 0x0, 0x0, 0x0, 0x0, 0x0, 0x0, false⟩,
  ⟨"TL_PORTSET_COUNT", .tile, 0x11008, 0x10, 256, 1, 0x0, 0xf, 0x0, 0x0, 0x0, 0x0, 0x0, 0x0, false⟩,
  ⟨"TL_ROUTE_CTL", .tile, 0x12000, 0x4, 1, 1, 0x60000, 0x800f0fff, 0x0, 0x0, 0x0, 0x0, 0x0, 0x0, false⟩,
  ⟨"TL_ROUTE_MISS_CNT", .tile, 0x12008, 0x4, 1, 1, 0x0, 0x0, 0xffffffff, 0x0, 0x0, 0x0, 0x0, 0x0, false⟩,
  ⟨"TL_HOP_DROP_CNT", .tile, 0x1200c, 0x4, 1, 1, 0x0, 0x0, 0xffffffff, 0x0, 0x0, 0x0, 0x0, 0x0, false⟩,
  ⟨"TL_MEMBER_RT", .tile, 0x20000, 0x400, 64, 256, 0x0, 0xefff0fff, 0x0, 0x0, 0x0, 0x0, 0x0, 0x0, false⟩,
  ⟨"TL_PBR_XLATE", .tile, 0x30000, 0x4, 4096, 1, 0x0, 0x8003ffff, 0x0, 0x0, 0x0, 0x0, 0x0, 0x0, false⟩,
  ⟨"PT_EDGE_ID", .port, 0x100, 0x4, 16, 1, 0x0, 0x8003ffff, 0x0, 0x0, 0x0, 0x0, 0x0, 0x0, false⟩,
  ⟨"PT_DECODE_FAIL_CNT", .port, 0x180, 0x4, 1, 1, 0x0, 0x0, 0xffffffff, 0x0, 0x0, 0x0, 0x0, 0x0, false⟩,
  ⟨"PT_FL_CTL", .port, 0x1000, 0x4, 1, 1, 0x9c000000, 0xfe000000, 0x0, 0x0, 0x0, 0x0, 0x0, 0x0, false⟩,
  ⟨"PT_FL_STATUS", .port, 0x1004, 0x4, 1, 1, 0x0, 0x0, 0x0, 0x0, 0x0, 0x0, 0x0, 0x0, false⟩,
  ⟨"PT_FL_NEIGHBOR", .port, 0x1008, 0x4, 1, 1, 0x0, 0x0, 0x0, 0x0, 0x0, 0x0, 0x0, 0x0, false⟩,
  ⟨"PT_FL_LANEMAP", .port, 0x100c, 0x4, 1, 1, 0x0, 0x0, 0x0, 0x1f00000, 0x0, 0x0, 0x0, 0x0, false⟩,
  ⟨"PT_FL_RSV0", .port, 0x1010, 0x4, 1, 1, 0x20202020, 0xffffffff, 0x0, 0x0, 0x0, 0x0, 0x0, 0x0, false⟩,
  ⟨"PT_FL_RSV1", .port, 0x1014, 0x4, 1, 1, 0x20202020, 0xffffffff, 0x0, 0x0, 0x0, 0x0, 0x0, 0x0, false⟩,
  ⟨"PT_FL_ERR_WIN", .port, 0x1018, 0x4, 1, 1, 0x3d140800, 0xffffffff, 0x0, 0x0, 0x0, 0x0, 0x0, 0x0, false⟩]

/-- Rows 336 onward of the register map. -/
def regRows14 : List RegRow := [
  ⟨"PT_FL_SPARE_CTL", .port, 0x101c, 0x4, 1, 1, 0x10000104, 0xffffffff, 0x0, 0x0, 0x0, 0x0, 0x0, 0x0, false⟩,
  ⟨"PT_FL_PWR", .port, 0x1020, 0x4, 1, 1, 0x4000040, 0xffffffff, 0x0, 0x0, 0x0, 0x0, 0x0, 0x0, false⟩,
  ⟨"PT_FL_DELAY", .port, 0x1024, 0x4, 1, 1, 0x0, 0x0, 0x0, 0x0, 0x0, 0x0, 0x0, 0x0, false⟩,
  ⟨"PT_FL_CREDIT_RSV", .port, 0x1030, 0x4, 8, 1, 0x0, 0x0, 0x0, 0x0, 0x0, 0x0, 0x0, 0x0, false⟩,
  ⟨"PT_FL_CREDIT_SH", .port, 0x1050, 0x4, 1, 1, 0x0, 0x0, 0x0, 0x0, 0x0, 0x0, 0x0, 0x0, false⟩,
  ⟨"PT_FL_LANE_CE", .port, 0x1060, 0x4, 5, 1, 0x0, 0x0, 0xffffffff, 0x0, 0x0, 0x0, 0x0, 0x0, false⟩,
  ⟨"PT_FL_TX_FLIT_CNT", .port, 0x1080, 0x8, 1, 2, 0x0, 0x0, 0x0, 0x0, 0x0, 0x0, 0x0, 0x0, true⟩,
  ⟨"PT_FL_RX_FLIT_CNT", .port, 0x1088, 0x8, 1, 2, 0x0, 0x0, 0x0, 0x0, 0x0, 0x0, 0x0, 0x0, true⟩,
  ⟨"PT_FL_CORR_CW_CNT", .port, 0x1090, 0x8, 1, 2, 0x0, 0x0, 0x0, 0x0, 0x0, 0x0, 0x0, 0x0, true⟩,
  ⟨"PT_FL_STUFF_CNT", .port, 0x1098, 0x8, 1, 2, 0x0, 0x0, 0x0, 0x0, 0x0, 0x0, 0x0, 0x0, true⟩,
  ⟨"PT_FL_BAD_FLIT_CNT", .port, 0x10a0, 0x4, 1, 1, 0x0, 0x0, 0xffffffff, 0x0, 0x0, 0x0, 0x0, 0x0, false⟩,
  ⟨"PT_FL_REPLAY_CNT", .port, 0x10a4, 0x4, 1, 1, 0x0, 0x0, 0xffffffff, 0x0, 0x0, 0x0, 0x0, 0x0, false⟩,
  ⟨"PT_FL_DOWN_CNT", .port, 0x10a8, 0x4, 1, 1, 0x0, 0x0, 0xffffffff, 0x0, 0x0, 0x0, 0x0, 0x0, false⟩,
  ⟨"PT_FL_LOST_MSG_CNT", .port, 0x10ac, 0x4, 1, 1, 0x0, 0x0, 0xffffffff, 0x0, 0x0, 0x0, 0x0, 0x0, false⟩,
  ⟨"PT_FL_SWAP_CNT", .port, 0x10b0, 0x4, 1, 1, 0x0, 0x0, 0xffffffff, 0x0, 0x0, 0x0, 0x0, 0x0, false⟩,
  ⟨"PT_FL_SLEEP_CNT", .port, 0x10b4, 0x4, 1, 1, 0x0, 0x0, 0xffffffff, 0x0, 0x0, 0x0, 0x0, 0x0, false⟩,
  ⟨"PT_FL_TRAIN_FAIL_CNT", .port, 0x10b8, 0x4, 1, 1, 0x0, 0x0, 0xffffffff, 0x0, 0x0, 0x0, 0x0, 0x0, false⟩,
  ⟨"PT_MODE", .port, 0x0, 0x4, 1, 1, 0x0, 0x0, 0x0, 0x0, 0x0, 0x0, 0x0, 0x0, false⟩,
  ⟨"PT_CX_CTL", .port, 0x2000, 0x4, 1, 1, 0xaf000000, 0xff000000, 0x0, 0x0, 0x0, 0xe00000, 0x0, 0x0, false⟩,
  ⟨"PT_CX_STATUS", .port, 0x2004, 0x4, 1, 1, 0x0, 0x0, 0x0, 0x0, 0x0, 0x0, 0x0, 0x0, false⟩,
  ⟨"PT_CX_HP_CTL", .port, 0x2008, 0x4, 1, 1, 0x400, 0xf000ffff, 0x0, 0x0, 0x0, 0xc000000, 0x0, 0x0, false⟩,
  ⟨"PT_CX_HP_STATUS", .port, 0x200c, 0x4, 1, 1, 0x0, 0x0, 0x0, 0x0, 0x0, 0x0, 0x0, 0x0, false⟩,
  ⟨"PT_CX_RECOVERY_CNT", .port, 0x2010, 0x4, 1, 1, 0x0, 0x0, 0xffffffff, 0x0, 0x0, 0x0, 0x0, 0x0, false⟩,
  ⟨"PT_CX_DOWN_CNT", .port, 0x2014, 0x4, 1, 1, 0x0, 0x0, 0xffffffff, 0x0, 0x0, 0x0, 0x0, 0x0, false⟩]

/-- Rows 360 onward of the register map. -/
def regRows15 : List RegRow := [
  ⟨"PT_CX_CORR_ERR_CNT", .port, 0x2018, 0x4, 1, 1, 0x0, 0x0, 0xffffffff, 0x0, 0x0, 0x0, 0x0, 0x0, false⟩,
  ⟨"PT_CX_UNCORR_ERR_CNT", .port, 0x201c, 0x4, 1, 1, 0x0, 0x0, 0xffffffff, 0x0, 0x0, 0x0, 0x0, 0x0, false⟩,
  ⟨"PT_CX_REISSUE_CNT", .port, 0x2020, 0x4, 1, 1, 0x0, 0x0, 0xffffffff, 0x0, 0x0, 0x0, 0x0, 0x0, false⟩,
  ⟨"PT_CX_CONTAIN_CNT", .port, 0x2024, 0x4, 1, 1, 0x0, 0x0, 0xffffffff, 0x0, 0x0, 0x0, 0x0, 0x0, false⟩,
  ⟨"PT_CX_SURPRISE_CNT", .port, 0x2028, 0x4, 1, 1, 0x0, 0x0, 0xffffffff, 0x0, 0x0, 0x0, 0x0, 0x0, false⟩,
  ⟨"PT_CX_TX_FLIT_CNT", .port, 0x2030, 0x8, 1, 2, 0x0, 0x0, 0x0, 0x0, 0x0, 0x0, 0x0, 0x0, true⟩,
  ⟨"PT_CX_RX_FLIT_CNT", .port, 0x2038, 0x8, 1, 2, 0x0, 0x0, 0x0, 0x0, 0x0, 0x0, 0x0, 0x0, true⟩,
  ⟨"LN_CTL", .lane, 0x0, 0x4, 1, 1, 0x80000000, 0xe0000000, 0x0, 0x0, 0x0, 0x0, 0x0, 0x0, false⟩,
  ⟨"LN_STATUS", .lane, 0x4, 0x4, 1, 1, 0x0, 0x0, 0x0, 0x0, 0x0, 0x0, 0x0, 0x0, false⟩,
  ⟨"LN_TX_EQ", .lane, 0x8, 0x4, 1, 1, 0x80400, 0x1f1f00, 0x0, 0x0, 0x0, 0x0, 0x0, 0x0, false⟩,
  ⟨"LN_RX_EQ", .lane, 0xc, 0x4, 1, 1, 0x80400000, 0xcffff000, 0x0, 0x0, 0x0, 0x0, 0x0, 0x0, false⟩,
  ⟨"LN_DFE0", .lane, 0x10, 0x4, 1, 1, 0x0, 0x0, 0x0, 0x0, 0x0, 0x0, 0x0, 0x0, false⟩,
  ⟨"LN_DFE1", .lane, 0x14, 0x4, 1, 1, 0x0, 0x0, 0x0, 0x0, 0x0, 0x0, 0x0, 0x0, false⟩,
  ⟨"LN_EYE", .lane, 0x18, 0x4, 1, 1, 0x0, 0x0, 0x0, 0x0, 0x0, 0x0, 0x0, 0x0, false⟩,
  ⟨"LN_FAULT_CTL", .lane, 0x1c, 0x4, 1, 1, 0x14000c, 0xff00ff, 0x0, 0x0, 0x0, 0x0, 0x0, 0x0, false⟩,
  ⟨"LN_MARGIN_CTL", .lane, 0x20, 0x4, 1, 1, 0x0, 0xf3f007f, 0x0, 0x0, 0x0, 0x80000000, 0x0, 0x0, false⟩,
  ⟨"LN_MARGIN_RES", .lane, 0x24, 0x4, 1, 1, 0x0, 0x0, 0x0, 0x0, 0x0, 0x0, 0x0, 0x0, false⟩,
  ⟨"LN_TEST_CTL", .lane, 0x30, 0x4, 1, 1, 0x0, 0xfef80000, 0x0, 0x0, 0x0, 0x1000000, 0x0, 0x0, false⟩,
  ⟨"LN_TEST_STATUS", .lane, 0x34, 0x4, 1, 1, 0x0, 0x0, 0x0, 0x40000000, 0x0, 0x0, 0x0, 0x0, false⟩,
  ⟨"LN_TEST_ERR_CNT", .lane, 0x38, 0x4, 1, 1, 0x0, 0x0, 0xffffffff, 0x0, 0x0, 0x0, 0x0, 0x0, false⟩,
  ⟨"LN_TEST_BIT_CNT", .lane, 0x40, 0x8, 1, 2, 0x0, 0x0, 0x0, 0x0, 0x0, 0x0, 0x0, 0x0, true⟩,
  ⟨"LN_FAIL_CNT", .lane, 0x48, 0x4, 1, 1, 0x0, 0x0, 0xffffffff, 0x0, 0x0, 0x0, 0x0, 0x0, false⟩,
  ⟨"LN_TRAIN_FAIL_CNT", .lane, 0x4c, 0x4, 1, 1, 0x0, 0x0, 0xffffffff, 0x0, 0x0, 0x0, 0x0, 0x0, false⟩,
  ⟨"LN_CDR_LOSS_CNT", .lane, 0x50, 0x4, 1, 1, 0x0, 0x0, 0xffffffff, 0x0, 0x0, 0x0, 0x0, 0x0, false⟩]

/-- Rows 384 onward of the register map. -/
def regRows16 : List RegRow := [
  ⟨"INS_DOORBELL", .page, 0x0, 0x4, 1, 1, 0x0, 0x0, 0x0, 0x0, 0x0, 0xffffffff, 0x0, 0x0, false⟩,
  ⟨"INS_RING_BASE", .page, 0x8, 0x4, 1, 1, 0x0, 0xfffff800, 0x0, 0x0, 0x0, 0x0, 0x0, 0x0, false⟩,
  ⟨"INS_RING_BASE_HI", .page, 0xc, 0x4, 1, 1, 0x0, 0xffffffff, 0x0, 0x0, 0x0, 0x0, 0x0, 0x0, false⟩,
  ⟨"INS_RING_CTL", .page, 0x10, 0x4, 1, 1, 0x40000000, 0xc000003f, 0x0, 0x0, 0x0, 0x0, 0x0, 0x0, false⟩,
  ⟨"INS_RING_STATUS", .page, 0x14, 0x4, 1, 1, 0x0, 0x0, 0x0, 0x0, 0x0, 0x0, 0x0, 0x0, false⟩,
  ⟨"INS_RING_HEAD", .page, 0x18, 0x4, 1, 1, 0x0, 0xffffffff, 0x0, 0x0, 0x0, 0x0, 0x0, 0x0, false⟩,
  ⟨"INS_RING_TAIL", .page, 0x1c, 0x4, 1, 1, 0x0, 0x0, 0x0, 0x0, 0x0, 0x0, 0x0, 0x0, false⟩,
  ⟨"INS_HEAD_WB", .page, 0x20, 0x4, 1, 1, 0x0, 0xfffffffc, 0x0, 0x0, 0x0, 0x0, 0x0, 0x0, false⟩,
  ⟨"INS_HEAD_WB_HI", .page, 0x24, 0x4, 1, 1, 0x0, 0xffffffff, 0x0, 0x0, 0x0, 0x0, 0x0, 0x0, false⟩,
  ⟨"INS_HEAD_WB_CTL", .page, 0x28, 0x4, 1, 1, 0x0, 0x80000003, 0x0, 0x0, 0x0, 0x0, 0x0, 0x0, false⟩,
  ⟨"INS_IRQ_CTL", .page, 0x30, 0x4, 1, 1, 0x0, 0x80000000, 0x0, 0x40000000, 0x0, 0x0, 0x0, 0x0, false⟩,
  ⟨"INS_INFO", .page, 0x34, 0x4, 1, 1, 0x0, 0x0, 0x0, 0x0, 0x0, 0x0, 0x0, 0x0, false⟩,
  ⟨"INS_SHARE", .page, 0x38, 0x4, 1, 1, 0x0, 0x0, 0x0, 0x0, 0x0, 0x0, 0x0, 0x0, false⟩,
  ⟨"INS_MBOX_CTL", .page, 0x40, 0x4, 1, 1, 0x0, 0x0, 0x0, 0x0, 0x0, 0xf, 0x0, 0x0, false⟩,
  ⟨"INS_MBOX_T2M", .page, 0x100, 0x4, 64, 1, 0x0, 0xffffffff, 0x0, 0x0, 0x0, 0x0, 0x0, 0x0, false⟩,
  ⟨"INS_MBOX_M2T", .page, 0x200, 0x4, 64, 1, 0x0, 0xffffffff, 0x0, 0x0, 0x0, 0x0, 0x0, 0x0, false⟩]

/-- The whole register map. -/
def regRows : List RegRow := regRows0 ++ regRows1 ++ regRows2 ++ regRows3 ++ regRows4 ++ regRows5 ++ regRows6 ++ regRows7 ++ regRows8 ++ regRows9 ++ regRows10 ++ regRows11 ++ regRows12 ++ regRows13 ++ regRows14 ++ regRows15 ++ regRows16

/-- Tile T common part (R420). -/
def tileBase (t : Nat) : Nat := 0x2000000 + t * 0x100000
/-- Port P (R420). -/
def portBase (p : Nat) : Nat := 0x2000000 + (p / 16) * 0x100000 + 0x80000 + (p % 16) * 0x8000
/-- Lane l of port P (R420). -/
def laneBase (p l : Nat) : Nat := portBase p + 0x6000 + l * 0x200
/-- Instance page i (R420). -/
def pageBase (i : Nat) : Nat := 0x1000000 + i * 0x1000

/-! Offsets by register name. Index an array by adding its stride times the index. -/

/-- GLB_ID (R425). -/
def glbId : Nat := 0x0
/-- GLB_SERIAL (R425). -/
def glbSerial : Nat := 0x8
/-- GLB_MODULE_FID (R425). -/
def glbModuleFid : Nat := 0x10
/-- GLB_BOOT_COUNT (R425). -/
def glbBootCount : Nat := 0x14
/-- GLB_WALLCLOCK_MARK[i] (R425). -/
def glbWallclockMark (i : Nat) : Nat := 0x20 + 0x4 * i
/-- GLB_WALLCLOCK_TICK (R425). -/
def glbWallclockTick : Nat := 0x30
/-- GLB_CAP_ENG (R426). -/
def glbCapEng : Nat := 0x100
/-- GLB_CAP_BANK (R426). -/
def glbCapBank : Nat := 0x108
/-- GLB_CAP_MISC (R426). -/
def glbCapMisc : Nat := 0x10c
/-- GLB_CAP_PORT[i] (R426). -/
def glbCapPort (i : Nat) : Nat := 0x110 + 0x4 * i
/-- GLB_CAP_LANE01[i] (R426). -/
def glbCapLane01 (i : Nat) : Nat := 0x140 + 0x10 * i
/-- GLB_CAP_LANE2[i] (R426). -/
def glbCapLane2 (i : Nat) : Nat := 0x148 + 0x10 * i
/-- GLB_RET_ENG (R426). -/
def glbRetEng : Nat := 0x200
/-- GLB_RET_BANK (R426). -/
def glbRetBank : Nat := 0x208
/-- GLB_RET_MISC (R426). -/
def glbRetMisc : Nat := 0x20c
/-- GLB_RET_PORT[i] (R426). -/
def glbRetPort (i : Nat) : Nat := 0x210 + 0x4 * i
/-- GLB_RET_LANE01[i] (R426). -/
def glbRetLane01 (i : Nat) : Nat := 0x240 + 0x10 * i
/-- GLB_RET_LANE2[i] (R426). -/
def glbRetLane2 (i : Nat) : Nat := 0x248 + 0x10 * i
/-- GLB_DIS_ENG (R426). -/
def glbDisEng : Nat := 0x300
/-- GLB_DIS_BANK (R426). -/
def glbDisBank : Nat := 0x308
/-- GLB_DIS_MISC (R426). -/
def glbDisMisc : Nat := 0x30c
/-- GLB_DIS_PORT[i] (R426). -/
def glbDisPort (i : Nat) : Nat := 0x310 + 0x4 * i
/-- GLB_DIS_LANE01[i] (R426). -/
def glbDisLane01 (i : Nat) : Nat := 0x340 + 0x10 * i
/-- GLB_DIS_LANE2[i] (R426). -/
def glbDisLane2 (i : Nat) : Nat := 0x348 + 0x10 * i
/-- GLB_PRS_ENG (R426). -/
def glbPrsEng : Nat := 0x400
/-- GLB_PRS_BANK (R426). -/
def glbPrsBank : Nat := 0x408
/-- GLB_PRS_MISC (R426). -/
def glbPrsMisc : Nat := 0x40c
/-- GLB_PRS_PORT[i] (R426). -/
def glbPrsPort (i : Nat) : Nat := 0x410 + 0x4 * i
/-- GLB_PRS_LANE01[i] (R426). -/
def glbPrsLane01 (i : Nat) : Nat := 0x440 + 0x10 * i
/-- GLB_PRS_LANE2[i] (R426). -/
def glbPrsLane2 (i : Nat) : Nat := 0x448 + 0x10 * i
/-- GLB_TICK_LOCAL (R428). -/
def glbTickLocal : Nat := 0x1000
/-- GLB_TICK_FABRIC (R428). -/
def glbTickFabric : Nat := 0x1008
/-- GLB_TICK_CTL (R428). -/
def glbTickCtl : Nat := 0x1010
/-- GLB_TICK_STATUS (R428). -/
def glbTickStatus : Nat := 0x1014
/-- GLB_TICK_MASTER (R428). -/
def glbTickMaster : Nat := 0x1018
/-- GLB_TICK_PHASE (R428). -/
def glbTickPhase : Nat := 0x101c
/-- GLB_TICK_OVERRUN_CNT (R428). -/
def glbTickOverrunCnt : Nat := 0x1020
/-- GLB_TICK_STEP_CNT (R428). -/
def glbTickStepCnt : Nat := 0x1024
/-- GLB_TICK_LAST_STEP (R428). -/
def glbTickLastStep : Nat := 0x1028
/-- GLB_LOCK_STATE[i] (R341). -/
def glbLockState (i : Nat) : Nat := 0x4000 + 0x10 * i
/-- GLB_LOCK_OWNER[i] (R341). -/
def glbLockOwner (i : Nat) : Nat := 0x4004 + 0x10 * i
/-- GLB_LOCK_FIRST[i] (R341). -/
def glbLockFirst (i : Nat) : Nat := 0x4008 + 0x10 * i
/-- GLB_LOCK_LAST[i] (R341). -/
def glbLockLast (i : Nat) : Nat := 0x400c + 0x10 * i
/-- GLB_EV_SEQ (R341). -/
def glbEvSeq : Nat := 0x5000
/-- GLB_EV_PEND (R341). -/
def glbEvPend : Nat := 0x5004
/-- GLB_EV_MASK (R341). -/
def glbEvMask : Nat := 0x5008
/-- GLB_EV_FIFO_LEVEL (R341). -/
def glbEvFifoLevel : Nat := 0x500c
/-- GLB_EV_FIFO_OVF_CNT (R341). -/
def glbEvFifoOvfCnt : Nat := 0x5010
/-- GLB_EVLOG_HEAD (R341). -/
def glbEvlogHead : Nat := 0x5014
/-- GLB_LOCK_BREAK_CNT (R341). -/
def glbLockBreakCnt : Nat := 0x5018
/-- GLB_CLK_STATUS (R407). -/
def glbClkStatus : Nat := 0x6000
/-- GLB_CLK_LOSS_CNT (R407). -/
def glbClkLossCnt : Nat := 0x6004
/-- GLB_XING_IDX (R407). -/
def glbXingIdx : Nat := 0x6010
/-- GLB_XING_MERGE_CNT (R407). -/
def glbXingMergeCnt : Nat := 0x6014
/-- GLB_XING_TO_CNT (R407). -/
def glbXingToCnt : Nat := 0x6018
/-- GLB_XING_LOG0 (R407). -/
def glbXingLog0 : Nat := 0x6020
/-- GLB_XING_LOG1 (R407). -/
def glbXingLog1 : Nat := 0x6024
/-- GLB_RST_CAUSE (R407). -/
def glbRstCause : Nat := 0x6100
/-- GLB_RST_WARM_CNT (R407). -/
def glbRstWarmCnt : Nat := 0x6104
/-- GLB_ERR_CE_CNT (R407). -/
def glbErrCeCnt : Nat := 0x6200
/-- GLB_ERR_UE_CNT (R407). -/
def glbErrUeCnt : Nat := 0x6208
/-- GLB_ERR_LOG0 (R407). -/
def glbErrLog0 : Nat := 0x620c
/-- GLB_ERR_LOG1 (R407). -/
def glbErrLog1 : Nat := 0x6210
/-- GLB_BG_DEFER_CNT[i] (R407). -/
def glbBgDeferCnt (i : Nat) : Nat := 0x6300 + 0x10 * i
/-- GLB_BG_FORCE_CNT[i] (R407). -/
def glbBgForceCnt (i : Nat) : Nat := 0x6308 + 0x10 * i
/-- GLB_BG_LATE_CNT[i] (R407). -/
def glbBgLateCnt (i : Nat) : Nat := 0x630c + 0x10 * i
/-- MGT_STATUS (R371). -/
def mgtStatus : Nat := 0x100000
/-- MGT_FW_INFO (R371). -/
def mgtFwInfo : Nat := 0x100004
/-- MGT_FW_GEN (R371). -/
def mgtFwGen : Nat := 0x100008
/-- MGT_FJX_GEN (R371). -/
def mgtFjxGen : Nat := 0x10000c
/-- MGT_SVN_MIN (R371). -/
def mgtSvnMin : Nat := 0x100010
/-- MGT_LC_FUSES (R371). -/
def mgtLcFuses : Nat := 0x100014
/-- MGT_HA_CTL (R371). -/
def mgtHaCtl : Nat := 0x100020
/-- MGT_CKPT_STATUS (R371). -/
def mgtCkptStatus : Nat := 0x100024
/-- MGT_CKPT_GEN (R371). -/
def mgtCkptGen : Nat := 0x100028
/-- MGT_JRNL_FREE (R371). -/
def mgtJrnlFree : Nat := 0x10002c
/-- MGT_JRNL_SEQ (R371). -/
def mgtJrnlSeq : Nat := 0x100030
/-- MGT_SWITCH_CNT (R371). -/
def mgtSwitchCnt : Nat := 0x100040
/-- MGT_JRNL_STALL_CNT (R371). -/
def mgtJrnlStallCnt : Nat := 0x100044
/-- MGT_FJX_APPLY_FAIL_CNT (R371). -/
def mgtFjxApplyFailCnt : Nat := 0x100048
/-- MGT_DEBUG_FAIL_CNT (R371). -/
def mgtDebugFailCnt : Nat := 0x10004c
/-- MGT_SWITCH_TIME (R371). -/
def mgtSwitchTime : Nat := 0x100050
/-- MGT_ACU_VIOL_CNT (R371). -/
def mgtAcuViolCnt : Nat := 0x100054
/-- MGT_ACU_CTL[i] (R371). -/
def mgtAcuCtl (i : Nat) : Nat := 0x101000 + 0x100 * i
/-- MGT_ACU_DENY_CNT[i] (R371). -/
def mgtAcuDenyCnt (i : Nat) : Nat := 0x101004 + 0x100 * i
/-- MGT_ACU_LOG0[i] (R371). -/
def mgtAcuLog0 (i : Nat) : Nat := 0x101008 + 0x100 * i
/-- MGT_ACU_LOG1[i] (R371). -/
def mgtAcuLog1 (i : Nat) : Nat := 0x10100c + 0x100 * i
/-- MGT_ACU_SLOT0_G[i] (R365). -/
def mgtAcuSlot0G (i : Nat) : Nat := 0x101010 + 0x100 * i
/-- MGT_ACU_SLOT0_M[i] (R365). -/
def mgtAcuSlot0M (i : Nat) : Nat := 0x101014 + 0x100 * i
/-- MGT_ACU_SLOT0_B[i] (R365). -/
def mgtAcuSlot0B (i : Nat) : Nat := 0x101018 + 0x100 * i
/-- MGT_ACU_SLOT0_I[i] (R365). -/
def mgtAcuSlot0I (i : Nat) : Nat := 0x101034 + 0x100 * i
/-- MGT_ACU_SLOT0_T[i] (R365). -/
def mgtAcuSlot0T (i : Nat) : Nat := 0x101038 + 0x100 * i
/-- MGT_ACU_SLOT0_U[i] (R365). -/
def mgtAcuSlot0U (i : Nat) : Nat := 0x101068 + 0x100 * i
/-- MGT_ACU_SLOT1_G[i] (R365). -/
def mgtAcuSlot1G (i : Nat) : Nat := 0x101090 + 0x100 * i
/-- MGT_ACU_SLOT1_M[i] (R365). -/
def mgtAcuSlot1M (i : Nat) : Nat := 0x101094 + 0x100 * i
/-- MGT_ACU_SLOT1_B[i] (R365). -/
def mgtAcuSlot1B (i : Nat) : Nat := 0x101098 + 0x100 * i
/-- MGT_ACU_SLOT1_I[i] (R365). -/
def mgtAcuSlot1I (i : Nat) : Nat := 0x1010b4 + 0x100 * i
/-- MGT_ACU_SLOT1_T[i] (R365). -/
def mgtAcuSlot1T (i : Nat) : Nat := 0x1010b8 + 0x100 * i
/-- MGT_ACU_SLOT1_U[i] (R365). -/
def mgtAcuSlot1U (i : Nat) : Nat := 0x1010e8 + 0x100 * i
/-- MGT_NALUG_CTL (R341). -/
def mgtNalugCtl : Nat := 0x108000
/-- MGT_NALUG_STATUS (R341). -/
def mgtNalugStatus : Nat := 0x108004
/-- MGT_NALUG_CMD_CNT (R341). -/
def mgtNalugCmdCnt : Nat := 0x108010
/-- MGT_NALUG_BAD_CNT (R341). -/
def mgtNalugBadCnt : Nat := 0x108018
/-- MGT_NALUG_PEC_ERR_CNT (R341). -/
def mgtNalugPecErrCnt : Nat := 0x10801c
/-- MGT_NALUG_REASM_ERR_CNT (R341). -/
def mgtNalugReasmErrCnt : Nat := 0x108020
/-- MGT_NALUG_DENIED_CNT (R341). -/
def mgtNalugDeniedCnt : Nat := 0x108024
/-- MGT_NALUG_BUSY_CNT (R341). -/
def mgtNalugBusyCnt : Nat := 0x108028
/-- MGT_NALUG_NOTIFY_LOST_CNT (R341). -/
def mgtNalugNotifyLostCnt : Nat := 0x10802c
/-- MGT_SB_ARB_LOSS_CNT (R341). -/
def mgtSbArbLossCnt : Nat := 0x108030
/-- MGT_STEP[i] (R341). -/
def mgtStep (i : Nat) : Nat := 0x108100 + 0x10 * i
/-- SF_HOME_CTL (R101). -/
def sfHomeCtl : Nat := 0x200000
/-- SF_SNOOP_TIMEOUT (R101). -/
def sfSnoopTimeout : Nat := 0x200004
/-- SF_BLANKET_CTL (R101). -/
def sfBlanketCtl : Nat := 0x200010
/-- SF_BLANKET_ENTER (R101). -/
def sfBlanketEnter : Nat := 0x200014
/-- SF_BLANKET_EXIT (R101). -/
def sfBlanketExit : Nat := 0x200018
/-- SF_DIR_STATUS (R101). -/
def sfDirStatus : Nat := 0x200020
/-- SF_DIR_USED (R101). -/
def sfDirUsed : Nat := 0x200024
/-- SF_SCRUB_CTL (R407). -/
def sfScrubCtl : Nat := 0x200030
/-- SF_SCRUB_UE_CNT (R407). -/
def sfScrubUeCnt : Nat := 0x200034
/-- SF_SCRUB_PASS (R407). -/
def sfScrubPass : Nat := 0x200038
/-- SF_BLANKET_MAP[i] (R101). -/
def sfBlanketMap (i : Nat) : Nat := 0x200400 + 0x4 * i
/-- SF_DOM_COH_IDX (R101). -/
def sfDomCohIdx : Nat := 0x200600
/-- SF_DOM_COH (R101). -/
def sfDomCoh : Nat := 0x200604
/-- SF_DOM_COH_EVICT (R101). -/
def sfDomCohEvict : Nat := 0x200608
/-- SF_DOM_COH_DEAD (R101). -/
def sfDomCohDead : Nat := 0x20060c
/-- SF_BANK_STATUS[i] (R101). -/
def sfBankStatus (i : Nat) : Nat := 0x210000 + 0x100 * i
/-- SF_BANK_HOLD_CNT[i] (R101). -/
def sfBankHoldCnt (i : Nat) : Nat := 0x210004 + 0x100 * i
/-- SF_BANK_REQ_CNT[i] (R101). -/
def sfBankReqCnt (i : Nat) : Nat := 0x210008 + 0x100 * i
/-- SF_BANK_BISNP_CNT[i] (R101). -/
def sfBankBisnpCnt (i : Nat) : Nat := 0x210010 + 0x100 * i
/-- SF_BANK_SPEC_DISCARD_CNT[i] (R101). -/
def sfBankSpecDiscardCnt (i : Nat) : Nat := 0x210018 + 0x100 * i
/-- SF_BANK_DIR_EVICT_CNT[i] (R101). -/
def sfBankDirEvictCnt (i : Nat) : Nat := 0x210020 + 0x100 * i
/-- SF_BANK_LS_EVICT_CNT[i] (R101). -/
def sfBankLsEvictCnt (i : Nat) : Nat := 0x210028 + 0x100 * i
/-- SF_BANK_CONFLICT_CNT[i] (R101). -/
def sfBankConflictCnt (i : Nat) : Nat := 0x210030 + 0x100 * i
/-- SF_BANK_TRK_STALL_CNT[i] (R101). -/
def sfBankTrkStallCnt (i : Nat) : Nat := 0x210038 + 0x100 * i
/-- SF_BANK_LS_DIRTY[i] (R101). -/
def sfBankLsDirty (i : Nat) : Nat := 0x210040 + 0x100 * i
/-- SF_BANK_POISON_CNT[i] (R101). -/
def sfBankPoisonCnt (i : Nat) : Nat := 0x210044 + 0x100 * i
/-- SF_BANK_PROTO_ERR_CNT[i] (R101). -/
def sfBankProtoErrCnt (i : Nat) : Nat := 0x210048 + 0x100 * i
/-- SF_BANK_LOST_DIRTY_CNT[i] (R101). -/
def sfBankLostDirtyCnt (i : Nat) : Nat := 0x21004c + 0x100 * i
/-- SF_BIND_CTL (R69). -/
def sfBindCtl : Nat := 0x2c0000
/-- SF_SLICE_IDX (R69). -/
def sfSliceIdx : Nat := 0x2c0010
/-- SF_SLICE_DATA[i] (R69). -/
def sfSliceData (i : Nat) : Nat := 0x2c0020 + 0x4 * i
/-- SF_SLICE_STATE_CNT[i] (R69). -/
def sfSliceStateCnt (i : Nat) : Nat := 0x2c0040 + 0x4 * i
/-- SF_DOM_IDX (R69). -/
def sfDomIdx : Nat := 0x2c0080
/-- SF_DOM_HDR (R69). -/
def sfDomHdr : Nat := 0x2c0084
/-- SF_DOM_AGENT[i] (R69). -/
def sfDomAgent (i : Nat) : Nat := 0x2c0100 + 0x4 * i
/-- SF_HMAP_IDX (R69). -/
def sfHmapIdx : Nat := 0x2c0200
/-- SF_HMAP_DATA (R69). -/
def sfHmapData : Nat := 0x2c0208
/-- SF_DECODE_FAIL_CNT (R69). -/
def sfDecodeFailCnt : Nat := 0x2c0300
/-- SF_DECODE_FAIL_LOG0 (R69). -/
def sfDecodeFailLog0 : Nat := 0x2c0308
/-- SF_DECODE_FAIL_LOG1 (R69). -/
def sfDecodeFailLog1 : Nat := 0x2c030c
/-- SF_DECODE_FAIL_LOG2 (R69). -/
def sfDecodeFailLog2 : Nat := 0x2c0310
/-- SF_VCS[i] (R69). -/
def sfVcs (i : Nat) : Nat := 0x2d0000 + 0x40 * i
/-- HMP_CTL (R132). -/
def hmpCtl : Nat := 0x300000
/-- HMP_TIMING0 (R132). -/
def hmpTiming0 : Nat := 0x300004
/-- HMP_TIMING1 (R132). -/
def hmpTiming1 : Nat := 0x300008
/-- HMP_STATUS (R132). -/
def hmpStatus : Nat := 0x300010
/-- HMP_TAG_NEXT (R132). -/
def hmpTagNext : Nat := 0x300014
/-- HMP_SLOT_USE (R132). -/
def hmpSlotUse : Nat := 0x300018
/-- HMP_LOG_BASE (R132). -/
def hmpLogBase : Nat := 0x300020
/-- HMP_LOG_SIZE (R132). -/
def hmpLogSize : Nat := 0x300028
/-- HMP_LOG_HEAD (R132). -/
def hmpLogHead : Nat := 0x30002c
/-- HMP_SUBMIT_CNT (R132). -/
def hmpSubmitCnt : Nat := 0x300040
/-- HMP_COMMIT_CNT (R132). -/
def hmpCommitCnt : Nat := 0x300048
/-- HMP_RETRY_CNT (R132). -/
def hmpRetryCnt : Nat := 0x300050
/-- HMP_HOME_PREP_CNT (R132). -/
def hmpHomePrepCnt : Nat := 0x300058
/-- HMP_LATE_CNT (R132). -/
def hmpLateCnt : Nat := 0x300060
/-- HMP_PORT_DISCARD_CNT (R132). -/
def hmpPortDiscardCnt : Nat := 0x300064
/-- HMP_INDOUBT_HIT_CNT (R132). -/
def hmpIndoubtHitCnt : Nat := 0x300068
/-- HMP_LATE_SEAL_CNT (R132). -/
def hmpLateSealCnt : Nat := 0x30006c
/-- HMP_LAST_ABORT0 (R132). -/
def hmpLastAbort0 : Nat := 0x300080
/-- HMP_LAST_ABORT[i] (R132). -/
def hmpLastAbort (i : Nat) : Nat := 0x300084 + 0x4 * i
/-- HMP_ABORT_CNT[i] (R132). -/
def hmpAbortCnt (i : Nat) : Nat := 0x300100 + 0x8 * i
/-- ENG_CTL (R204). -/
def engCtl : Nat := 0x400000
/-- ENG_STATUS (R204). -/
def engStatus : Nat := 0x400004
/-- ENG_PRESENT_LO (R204). -/
def engPresentLo : Nat := 0x400008
/-- ENG_PRESENT_HI (R204). -/
def engPresentHi : Nat := 0x40000c
/-- ENG_SLOT_STATUS (R204). -/
def engSlotStatus : Nat := 0x400010
/-- ENG_JOB_CNT (R204). -/
def engJobCnt : Nat := 0x400020
/-- ENG_BYTE_CNT (R204). -/
def engByteCnt : Nat := 0x400028
/-- ENG_REFETCH_CNT (R204). -/
def engRefetchCnt : Nat := 0x400030
/-- ENG_PREEMPT_CNT (R204). -/
def engPreemptCnt : Nat := 0x400038
/-- ENG_RESTART_CNT (R204). -/
def engRestartCnt : Nat := 0x400040
/-- ENG_HMP_ORPHAN_CNT (R204). -/
def engHmpOrphanCnt : Nat := 0x400044
/-- ENG_DOORBELL_ERR_CNT (R204). -/
def engDoorbellErrCnt : Nat := 0x400048
/-- ENG_INST_STRAY_CNT (R220). -/
def engInstStrayCnt : Nat := 0x40004c
/-- ENG_STATUS_CNT[i] (R204). -/
def engStatusCnt (i : Nat) : Nat := 0x400100 + 0x8 * i
/-- ENG_E_STATE[i] (R204). -/
def engEState (i : Nat) : Nat := 0x410000 + 0x20 * i
/-- ENG_E_JOB_CNT[i] (R204). -/
def engEJobCnt (i : Nat) : Nat := 0x410008 + 0x20 * i
/-- ENG_E_BYTE_CNT[i] (R204). -/
def engEByteCnt (i : Nat) : Nat := 0x410010 + 0x20 * i
/-- ENG_INST[i] (R220). -/
def engInst (i : Nat) : Nat := 0x420000 + 0x20 * i
/-- ENG_INST_RATE_CNT[i] (R220). -/
def engInstRateCnt (i : Nat) : Nat := 0x420018 + 0x20 * i
/-- ENG_INST_MBOX_DROP_CNT[i] (R220). -/
def engInstMboxDropCnt (i : Nat) : Nat := 0x42001c + 0x20 * i
/-- HBM_CTL (R154). -/
def hbmCtl : Nat := 0x500000
/-- HBM_STATUS (R154). -/
def hbmStatus : Nat := 0x500004
/-- HBM_PAIR_CTL (R154). -/
def hbmPairCtl : Nat := 0x500008
/-- HBM_SCRUB_CTL (R154). -/
def hbmScrubCtl : Nat := 0x50000c
/-- HBM_RETIRE_CTL (R154). -/
def hbmRetireCtl : Nat := 0x500010
/-- HBM_AGE_LIMIT0 (R154). -/
def hbmAgeLimit0 : Nat := 0x500020
/-- HBM_AGE_LIMIT1 (R154). -/
def hbmAgeLimit1 : Nat := 0x500024
/-- HBM_SPILL_STATUS (R154). -/
def hbmSpillStatus : Nat := 0x500030
/-- HBM_SPILL_RSV (R154). -/
def hbmSpillRsv : Nat := 0x500034
/-- HBM_AREA_BASE[i] (R154). -/
def hbmAreaBase (i : Nat) : Nat := 0x500040 + 0x8 * i
/-- HBM_SLICE_STACK_IDX (R154). -/
def hbmSliceStackIdx : Nat := 0x500080
/-- HBM_SLICE_STACK (R154). -/
def hbmSliceStack : Nat := 0x500084
/-- HBM_MTR_CTL (R154). -/
def hbmMtrCtl : Nat := 0x500100
/-- HBM_STK_READ_CNT[i] (R154). -/
def hbmStkReadCnt (i : Nat) : Nat := 0x510008 + 0x100 * i
/-- HBM_STK_WRITE_CNT[i] (R154). -/
def hbmStkWriteCnt (i : Nat) : Nat := 0x510010 + 0x100 * i
/-- HBM_STK_CE_CNT[i] (R154). -/
def hbmStkCeCnt (i : Nat) : Nat := 0x510018 + 0x100 * i
/-- HBM_STK_UE_CNT[i] (R154). -/
def hbmStkUeCnt (i : Nat) : Nat := 0x510020 + 0x100 * i
/-- HBM_STK_UNPAIRED_CNT[i] (R154). -/
def hbmStkUnpairedCnt (i : Nat) : Nat := 0x510024 + 0x100 * i
/-- HBM_STK_PAIR_RETRY_OK_CNT[i] (R154). -/
def hbmStkPairRetryOkCnt (i : Nat) : Nat := 0x510028 + 0x100 * i
/-- HBM_STK_PAIR_POISON_CNT[i] (R154). -/
def hbmStkPairPoisonCnt (i : Nat) : Nat := 0x51002c + 0x100 * i
/-- HBM_STK_SCRUB_PASS[i] (R154). -/
def hbmStkScrubPass (i : Nat) : Nat := 0x510030 + 0x100 * i
/-- HBM_STK_LS_HINT_MISS_CNT[i] (R154). -/
def hbmStkLsHintMissCnt (i : Nat) : Nat := 0x510034 + 0x100 * i
/-- HBM_STK_REFRESH_LATE_CNT[i] (R154). -/
def hbmStkRefreshLateCnt (i : Nat) : Nat := 0x510038 + 0x100 * i
/-- HBM_MTR_ST_GRANT_CNT[i] (R154). -/
def hbmMtrStGrantCnt (i : Nat) : Nat := 0x520000 + 0x40 * i
/-- HBM_MTR_ST_SLOT_CNT[i] (R154). -/
def hbmMtrStSlotCnt (i : Nat) : Nat := 0x520008 + 0x40 * i
/-- HBM_MTR_ST_WAIT_CNT[i] (R154). -/
def hbmMtrStWaitCnt (i : Nat) : Nat := 0x520010 + 0x40 * i
/-- HBM_MTR_ST_FREE[i] (R154). -/
def hbmMtrStFree (i : Nat) : Nat := 0x520018 + 0x40 * i
/-- HBM_MTR_ST_FREE_HB[i] (R154). -/
def hbmMtrStFreeHb (i : Nat) : Nat := 0x520618 + 0x40 * i
/-- HBM_MTR_ST_FREE_X[i] (R154). -/
def hbmMtrStFreeX (i : Nat) : Nat := 0x520a18 + 0x40 * i
/-- HBM_MTR_ST_STARVE_CNT[i] (R154). -/
def hbmMtrStStarveCnt (i : Nat) : Nat := 0x52001c + 0x40 * i
/-- TL_BUF_CTL (R154). -/
def tlBufCtl (t : Nat) : Nat := tileBase t + 0x40000
/-- TL_SPILL_CTL (R154). -/
def tlSpillCtl (t : Nat) : Nat := tileBase t + 0x40004
/-- TL_BUF_FREE (R154). -/
def tlBufFree (t : Nat) : Nat := tileBase t + 0x40010
/-- TL_BUF_STATUS (R154). -/
def tlBufStatus (t : Nat) : Nat := tileBase t + 0x40014
/-- TL_SPILL_PAGES (R154). -/
def tlSpillPages (t : Nat) : Nat := tileBase t + 0x40018
/-- TL_AGE_DROP_CNT (R154). -/
def tlAgeDropCnt (t : Nat) : Nat := tileBase t + 0x40020
/-- TL_SPILL_CNT (R154). -/
def tlSpillCnt (t : Nat) : Nat := tileBase t + 0x40028
/-- QOS_CTL (R175). -/
def qosCtl : Nat := 0x600000
/-- QOS_STATUS (R175). -/
def qosStatus : Nat := 0x600004
/-- QOS_TGT_IDX (R175). -/
def qosTgtIdx : Nat := 0x600010
/-- QOS_TGT_NOMINAL (R175). -/
def qosTgtNominal : Nat := 0x600014
/-- QOS_TGT_DELIVER (R175). -/
def qosTgtDeliver : Nat := 0x600018
/-- QOS_TGT_SUM (R175). -/
def qosTgtSum : Nat := 0x60001c
/-- QOS_TGT_SCALE (R175). -/
def qosTgtScale : Nat := 0x600020
/-- QOS_RSV_IDX (R175). -/
def qosRsvIdx : Nat := 0x600030
/-- QOS_RSV_DATA[i] (R175). -/
def qosRsvData (i : Nat) : Nat := 0x600034 + 0x4 * i
/-- QOS_REFUSE_CNT (R175). -/
def qosRefuseCnt : Nat := 0x600040
/-- QOS_SCALE_CNT (R175). -/
def qosScaleCnt : Nat := 0x600044
/-- TL_QOS_CTL (R175). -/
def tlQosCtl (t : Nat) : Nat := tileBase t + 0x50000
/-- TL_QOS_STATUS (R175). -/
def tlQosStatus (t : Nat) : Nat := tileBase t + 0x50004
/-- TL_FLOW_IDX (R175). -/
def tlFlowIdx (t : Nat) : Nat := tileBase t + 0x50010
/-- TL_FLOW_DATA (R175). -/
def tlFlowData (t : Nat) (k : Nat) : Nat := tileBase t + 0x50020 + 0x4 * k
/-- TL_QOS_DEF_CIR (R175). -/
def tlQosDefCir (t : Nat) (k : Nat) : Nat := tileBase t + 0x50100 + 0x10 * k
/-- TL_QOS_DEF_PIR (R175). -/
def tlQosDefPir (t : Nat) (k : Nat) : Nat := tileBase t + 0x50104 + 0x10 * k
/-- TL_QOS_DEF_CBS (R175). -/
def tlQosDefCbs (t : Nat) (k : Nat) : Nat := tileBase t + 0x50108 + 0x10 * k
/-- TL_QOS_DEF_PBS (R175). -/
def tlQosDefPbs (t : Nat) (k : Nat) : Nat := tileBase t + 0x5010c + 0x10 * k
/-- TL_QOS_CNT_GREEN (R175). -/
def tlQosCntGreen (t : Nat) (k : Nat) : Nat := tileBase t + 0x50200 + 0x20 * k
/-- TL_QOS_CNT_YELLOW (R175). -/
def tlQosCntYellow (t : Nat) (k : Nat) : Nat := tileBase t + 0x50208 + 0x20 * k
/-- TL_QOS_CNT_RED (R175). -/
def tlQosCntRed (t : Nat) (k : Nat) : Nat := tileBase t + 0x50210 + 0x20 * k
/-- TL_QOS_CNT_DROP (R175). -/
def tlQosCntDrop (t : Nat) (k : Nat) : Nat := tileBase t + 0x50218 + 0x20 * k
/-- TL_QOS_CNT_HOLD (R175). -/
def tlQosCntHold (t : Nat) (k : Nat) : Nat := tileBase t + 0x5021c + 0x20 * k
/-- PT_DRR_Q0 (R175). -/
def ptDrrQ0 (p : Nat) : Nat := portBase p + 0x400
/-- PT_DRR_Q1 (R175). -/
def ptDrrQ1 (p : Nat) : Nat := portBase p + 0x404
/-- TEL_MON_STATUS (R388). -/
def telMonStatus : Nat := 0x700000
/-- TEL_MON_STATUS1 (R388). -/
def telMonStatus1 : Nat := 0x700004
/-- TEL_BW_CTL (R388). -/
def telBwCtl : Nat := 0x700008
/-- TEL_THR0 (R388). -/
def telThr0 : Nat := 0x700010
/-- TEL_THR1 (R388). -/
def telThr1 : Nat := 0x700014
/-- TEL_THR2 (R388). -/
def telThr2 : Nat := 0x700018
/-- TEL_THR3 (R388). -/
def telThr3 : Nat := 0x70001c
/-- TEL_TEMP[i] (R388). -/
def telTemp (i : Nat) : Nat := 0x700100 + 0x4 * i
/-- TEL_VOLT[i] (R388). -/
def telVolt (i : Nat) : Nat := 0x700200 + 0x4 * i
/-- TEL_RO[i] (R388). -/
def telRo (i : Nat) : Nat := 0x700300 + 0x8 * i
/-- TEL_PMC_CFG[i] (R376). -/
def telPmcCfg (i : Nat) : Nat := 0x701000 + 0x20 * i
/-- TEL_PMC_MATCH[i] (R376). -/
def telPmcMatch (i : Nat) : Nat := 0x701004 + 0x20 * i
/-- TEL_PMC_MASK[i] (R376). -/
def telPmcMask (i : Nat) : Nat := 0x701008 + 0x20 * i
/-- TEL_PMC_CNT[i] (R376). -/
def telPmcCnt (i : Nat) : Nat := 0x701010 + 0x20 * i
/-- TL_PMC_CFG (R376). -/
def tlPmcCfg (t : Nat) (k : Nat) : Nat := tileBase t + 0x60000 + 0x20 * k
/-- TL_PMC_MATCH (R376). -/
def tlPmcMatch (t : Nat) (k : Nat) : Nat := tileBase t + 0x60004 + 0x20 * k
/-- TL_PMC_MASK (R376). -/
def tlPmcMask (t : Nat) (k : Nat) : Nat := tileBase t + 0x60008 + 0x20 * k
/-- TL_PMC_CNT (R376). -/
def tlPmcCnt (t : Nat) (k : Nat) : Nat := tileBase t + 0x60010 + 0x20 * k
/-- TEL_RANGE[i] (R388). -/
def telRange (i : Nat) : Nat := 0x702000 + 0x4 * i
/-- TEL_DUMP_CTL (R388). -/
def telDumpCtl : Nat := 0x703000
/-- TEL_DUMP_STATUS (R388). -/
def telDumpStatus : Nat := 0x703004
/-- TEL_DUMP_BASE (R388). -/
def telDumpBase : Nat := 0x703008
/-- TEL_DUMP_SLOTS (R388). -/
def telDumpSlots : Nat := 0x703010
/-- TEL_DUMP_SEQ (R388). -/
def telDumpSeq : Nat := 0x703014
/-- TEL_DUMP_SKIP_CNT (R388). -/
def telDumpSkipCnt : Nat := 0x703018
/-- TEL_LAT_CTL (R388). -/
def telLatCtl : Nat := 0x704000
/-- TEL_LAT_BASE (R388). -/
def telLatBase : Nat := 0x704008
/-- TEL_LAT_SIZE (R388). -/
def telLatSize : Nat := 0x704010
/-- TEL_LAT_SEQ (R388). -/
def telLatSeq : Nat := 0x704014
/-- TEL_LAT_SKIP_CNT (R388). -/
def telLatSkipCnt : Nat := 0x704018
/-- TEL_AUDIT_CTL (R388). -/
def telAuditCtl : Nat := 0x705000
/-- TEL_AUDIT_STATUS (R388). -/
def telAuditStatus : Nat := 0x705004
/-- TEL_AUDIT_RES (R388). -/
def telAuditRes : Nat := 0x705008
/-- TEL_AUDIT_FIRST (R388). -/
def telAuditFirst : Nat := 0x70500c
/-- PT_BW (R388). -/
def ptBw (p : Nat) (k : Nat) : Nat := portBase p + 0x500 + 0x8 * k
/-- PWR_CTL (R311). -/
def pwrCtl : Nat := 0x800000
/-- PWR_STATUS (R311). -/
def pwrStatus : Nat := 0x800004
/-- PWR_FAULT (R311). -/
def pwrFault : Nat := 0x800008
/-- PWR_LAST_OFF (R311). -/
def pwrLastOff : Nat := 0x80000c
/-- PWR_FEED_V[i] (R311). -/
def pwrFeedV (i : Nat) : Nat := 0x800010 + 0x10 * i
/-- PWR_FEED_I[i] (R311). -/
def pwrFeedI (i : Nat) : Nat := 0x800014 + 0x10 * i
/-- PWR_FEED_E[i] (R311). -/
def pwrFeedE (i : Nat) : Nat := 0x800018 + 0x10 * i
/-- PWR_VBUS (R311). -/
def pwrVbus : Nat := 0x800030
/-- PWR_CB_TRIP_CNT (R311). -/
def pwrCbTripCnt : Nat := 0x800034
/-- PWR_PFAIL_CNT (R311). -/
def pwrPfailCnt : Nat := 0x800038
/-- PWR_BR_CTL (R341). -/
def pwrBrCtl : Nat := 0x800100
/-- PWR_BR_CMD (R341). -/
def pwrBrCmd : Nat := 0x800104
/-- PWR_BR_STATUS (R341). -/
def pwrBrStatus : Nat := 0x800108
/-- PWR_BR_DATA[i] (R341). -/
def pwrBrData (i : Nat) : Nat := 0x800110 + 0x4 * i
/-- PWR_BR_ERR_CNT (R341). -/
def pwrBrErrCnt : Nat := 0x800130
/-- PWR_BR_ARB_LOSS_CNT (R341). -/
def pwrBrArbLossCnt : Nat := 0x800134
/-- PWR_BR_LATE_CNT (R341). -/
def pwrBrLateCnt : Nat := 0x800138
/-- PWR_STG[i] (R311). -/
def pwrStg (i : Nat) : Nat := 0x810000 + 0x20 * i
/-- PWR_STG_STATUS[i] (R311). -/
def pwrStgStatus (i : Nat) : Nat := 0x81000c + 0x20 * i
/-- PWR_STG_STAMP[i] (R311). -/
def pwrStgStamp (i : Nat) : Nat := 0x810010 + 0x20 * i
/-- TL_GROUP_RT (R69). -/
def tlGroupRt (t : Nat) (k : Nat) : Nat := tileBase t + 0x10000 + 0x4 * k
/-- TL_PORTSET (R69). -/
def tlPortset (t : Nat) (k : Nat) : Nat := tileBase t + 0x11000 + 0x10 * k
/-- TL_PORTSET_COUNT (R69). -/
def tlPortsetCount (t : Nat) (k : Nat) : Nat := tileBase t + 0x11008 + 0x10 * k
/-- TL_ROUTE_CTL (R69). -/
def tlRouteCtl (t : Nat) : Nat := tileBase t + 0x12000
/-- TL_ROUTE_MISS_CNT (R69). -/
def tlRouteMissCnt (t : Nat) : Nat := tileBase t + 0x12008
/-- TL_HOP_DROP_CNT (R69). -/
def tlHopDropCnt (t : Nat) : Nat := tileBase t + 0x1200c
/-- TL_MEMBER_RT (R69). -/
def tlMemberRt (t : Nat) (k : Nat) : Nat := tileBase t + 0x20000 + 0x400 * k
/-- TL_PBR_XLATE (R69). -/
def tlPbrXlate (t : Nat) (k : Nat) : Nat := tileBase t + 0x30000 + 0x4 * k
/-- PT_EDGE_ID (R69). -/
def ptEdgeId (p : Nat) (k : Nat) : Nat := portBase p + 0x100 + 0x4 * k
/-- PT_DECODE_FAIL_CNT (R69). -/
def ptDecodeFailCnt (p : Nat) : Nat := portBase p + 0x180
/-- PT_FL_CTL (R255). -/
def ptFlCtl (p : Nat) : Nat := portBase p + 0x1000
/-- PT_FL_STATUS (R255). -/
def ptFlStatus (p : Nat) : Nat := portBase p + 0x1004
/-- PT_FL_NEIGHBOR (R255). -/
def ptFlNeighbor (p : Nat) : Nat := portBase p + 0x1008
/-- PT_FL_LANEMAP (R255). -/
def ptFlLanemap (p : Nat) : Nat := portBase p + 0x100c
/-- PT_FL_RSV0 (R255). -/
def ptFlRsv0 (p : Nat) : Nat := portBase p + 0x1010
/-- PT_FL_RSV1 (R255). -/
def ptFlRsv1 (p : Nat) : Nat := portBase p + 0x1014
/-- PT_FL_ERR_WIN (R255). -/
def ptFlErrWin (p : Nat) : Nat := portBase p + 0x1018
/-- PT_FL_SPARE_CTL (R255). -/
def ptFlSpareCtl (p : Nat) : Nat := portBase p + 0x101c
/-- PT_FL_PWR (R255). -/
def ptFlPwr (p : Nat) : Nat := portBase p + 0x1020
/-- PT_FL_DELAY (R255). -/
def ptFlDelay (p : Nat) : Nat := portBase p + 0x1024
/-- PT_FL_CREDIT_RSV (R255). -/
def ptFlCreditRsv (p : Nat) (k : Nat) : Nat := portBase p + 0x1030 + 0x4 * k
/-- PT_FL_CREDIT_SH (R255). -/
def ptFlCreditSh (p : Nat) : Nat := portBase p + 0x1050
/-- PT_FL_LANE_CE (R255). -/
def ptFlLaneCe (p : Nat) (k : Nat) : Nat := portBase p + 0x1060 + 0x4 * k
/-- PT_FL_TX_FLIT_CNT (R255). -/
def ptFlTxFlitCnt (p : Nat) : Nat := portBase p + 0x1080
/-- PT_FL_RX_FLIT_CNT (R255). -/
def ptFlRxFlitCnt (p : Nat) : Nat := portBase p + 0x1088
/-- PT_FL_CORR_CW_CNT (R255). -/
def ptFlCorrCwCnt (p : Nat) : Nat := portBase p + 0x1090
/-- PT_FL_STUFF_CNT (R255). -/
def ptFlStuffCnt (p : Nat) : Nat := portBase p + 0x1098
/-- PT_FL_BAD_FLIT_CNT (R255). -/
def ptFlBadFlitCnt (p : Nat) : Nat := portBase p + 0x10a0
/-- PT_FL_REPLAY_CNT (R255). -/
def ptFlReplayCnt (p : Nat) : Nat := portBase p + 0x10a4
/-- PT_FL_DOWN_CNT (R255). -/
def ptFlDownCnt (p : Nat) : Nat := portBase p + 0x10a8
/-- PT_FL_LOST_MSG_CNT (R255). -/
def ptFlLostMsgCnt (p : Nat) : Nat := portBase p + 0x10ac
/-- PT_FL_SWAP_CNT (R255). -/
def ptFlSwapCnt (p : Nat) : Nat := portBase p + 0x10b0
/-- PT_FL_SLEEP_CNT (R255). -/
def ptFlSleepCnt (p : Nat) : Nat := portBase p + 0x10b4
/-- PT_FL_TRAIN_FAIL_CNT (R255). -/
def ptFlTrainFailCnt (p : Nat) : Nat := portBase p + 0x10b8
/-- PT_MODE (R275). -/
def ptMode (p : Nat) : Nat := portBase p + 0x0
/-- PT_CX_CTL (R275). -/
def ptCxCtl (p : Nat) : Nat := portBase p + 0x2000
/-- PT_CX_STATUS (R275). -/
def ptCxStatus (p : Nat) : Nat := portBase p + 0x2004
/-- PT_CX_HP_CTL (R275). -/
def ptCxHpCtl (p : Nat) : Nat := portBase p + 0x2008
/-- PT_CX_HP_STATUS (R275). -/
def ptCxHpStatus (p : Nat) : Nat := portBase p + 0x200c
/-- PT_CX_RECOVERY_CNT (R275). -/
def ptCxRecoveryCnt (p : Nat) : Nat := portBase p + 0x2010
/-- PT_CX_DOWN_CNT (R275). -/
def ptCxDownCnt (p : Nat) : Nat := portBase p + 0x2014
/-- PT_CX_CORR_ERR_CNT (R275). -/
def ptCxCorrErrCnt (p : Nat) : Nat := portBase p + 0x2018
/-- PT_CX_UNCORR_ERR_CNT (R275). -/
def ptCxUncorrErrCnt (p : Nat) : Nat := portBase p + 0x201c
/-- PT_CX_REISSUE_CNT (R275). -/
def ptCxReissueCnt (p : Nat) : Nat := portBase p + 0x2020
/-- PT_CX_CONTAIN_CNT (R275). -/
def ptCxContainCnt (p : Nat) : Nat := portBase p + 0x2024
/-- PT_CX_SURPRISE_CNT (R275). -/
def ptCxSurpriseCnt (p : Nat) : Nat := portBase p + 0x2028
/-- PT_CX_TX_FLIT_CNT (R275). -/
def ptCxTxFlitCnt (p : Nat) : Nat := portBase p + 0x2030
/-- PT_CX_RX_FLIT_CNT (R275). -/
def ptCxRxFlitCnt (p : Nat) : Nat := portBase p + 0x2038
/-- LN_CTL (R294). -/
def lnCtl (p l : Nat) : Nat := laneBase p l + 0x0
/-- LN_STATUS (R294). -/
def lnStatus (p l : Nat) : Nat := laneBase p l + 0x4
/-- LN_TX_EQ (R294). -/
def lnTxEq (p l : Nat) : Nat := laneBase p l + 0x8
/-- LN_RX_EQ (R294). -/
def lnRxEq (p l : Nat) : Nat := laneBase p l + 0xc
/-- LN_DFE0 (R294). -/
def lnDfe0 (p l : Nat) : Nat := laneBase p l + 0x10
/-- LN_DFE1 (R294). -/
def lnDfe1 (p l : Nat) : Nat := laneBase p l + 0x14
/-- LN_EYE (R294). -/
def lnEye (p l : Nat) : Nat := laneBase p l + 0x18
/-- LN_FAULT_CTL (R294). -/
def lnFaultCtl (p l : Nat) : Nat := laneBase p l + 0x1c
/-- LN_MARGIN_CTL (R294). -/
def lnMarginCtl (p l : Nat) : Nat := laneBase p l + 0x20
/-- LN_MARGIN_RES (R294). -/
def lnMarginRes (p l : Nat) : Nat := laneBase p l + 0x24
/-- LN_TEST_CTL (R294). -/
def lnTestCtl (p l : Nat) : Nat := laneBase p l + 0x30
/-- LN_TEST_STATUS (R294). -/
def lnTestStatus (p l : Nat) : Nat := laneBase p l + 0x34
/-- LN_TEST_ERR_CNT (R294). -/
def lnTestErrCnt (p l : Nat) : Nat := laneBase p l + 0x38
/-- LN_TEST_BIT_CNT (R294). -/
def lnTestBitCnt (p l : Nat) : Nat := laneBase p l + 0x40
/-- LN_FAIL_CNT (R294). -/
def lnFailCnt (p l : Nat) : Nat := laneBase p l + 0x48
/-- LN_TRAIN_FAIL_CNT (R294). -/
def lnTrainFailCnt (p l : Nat) : Nat := laneBase p l + 0x4c
/-- LN_CDR_LOSS_CNT (R294). -/
def lnCdrLossCnt (p l : Nat) : Nat := laneBase p l + 0x50
/-- INS_DOORBELL (R210). -/
def insDoorbell (i : Nat) : Nat := pageBase i + 0x0
/-- INS_RING_BASE (R210). -/
def insRingBase (i : Nat) : Nat := pageBase i + 0x8
/-- INS_RING_BASE_HI (R210). -/
def insRingBaseHi (i : Nat) : Nat := pageBase i + 0xc
/-- INS_RING_CTL (R210). -/
def insRingCtl (i : Nat) : Nat := pageBase i + 0x10
/-- INS_RING_STATUS (R210). -/
def insRingStatus (i : Nat) : Nat := pageBase i + 0x14
/-- INS_RING_HEAD (R210). -/
def insRingHead (i : Nat) : Nat := pageBase i + 0x18
/-- INS_RING_TAIL (R210). -/
def insRingTail (i : Nat) : Nat := pageBase i + 0x1c
/-- INS_HEAD_WB (R210). -/
def insHeadWb (i : Nat) : Nat := pageBase i + 0x20
/-- INS_HEAD_WB_HI (R210). -/
def insHeadWbHi (i : Nat) : Nat := pageBase i + 0x24
/-- INS_HEAD_WB_CTL (R210). -/
def insHeadWbCtl (i : Nat) : Nat := pageBase i + 0x28
/-- INS_IRQ_CTL (R210). -/
def insIrqCtl (i : Nat) : Nat := pageBase i + 0x30
/-- INS_INFO (R210). -/
def insInfo (i : Nat) : Nat := pageBase i + 0x34
/-- INS_SHARE (R210). -/
def insShare (i : Nat) : Nat := pageBase i + 0x38
/-- INS_MBOX_CTL (R210). -/
def insMboxCtl (i : Nat) : Nat := pageBase i + 0x40
/-- INS_MBOX_T2M (R216). -/
def insMboxT2m (i : Nat) (k : Nat) : Nat := pageBase i + 0x100 + 0x4 * k
/-- INS_MBOX_M2T (R216). -/
def insMboxM2t (i : Nat) (k : Nat) : Nat := pageBase i + 0x200 + 0x4 * k

end Sys2Proof.Machine
end

