-- ==== Sys2Proof/Machine/State.lean ====
section
/-! DEFINITION. The machine's state: plain data, one sub-structure per chapter of the spec, and the state after reset.
Registers of the window are kept in `regs`, a sparse table keyed by offset whose unlisted entries read as the
register's reset value (Machine/RegTable.lean). -/

namespace Sys2Proof.Machine

/-- What stops the block. -/
inductive Fault where
  /-- An operand lies outside the range the command's row admits (raised by no meaning of a well-formed command): safe. -/
  | illFormed
deriving DecidableEq, Repr

/-- Why a command is not run. -/
inductive Refusal where
  /-- The command's arm has no meaning yet (raised by Dispatch only): safe. -/
  | notModelled (mnemonic : String)
deriving DecidableEq, Repr

/-- An event as it was raised (R336, R384). -/
structure EvRec where
  code   : Nat
  locked : Bool
  seq    : Word
  boot   : Word
  ltick  : Tick
  ftick  : Tick
  vals   : List EvVal
deriving DecidableEq, Repr

/-! ### Ticks (chapter 01) -/

/-- The tick counts and the module's place in the fabric's tick (R19-R24, R250-R252). -/
structure TickS where
  /-- GLB_TICK_LOCAL.COUNT -/
  loc        : Tick := 0
  /-- GLB_TICK_FABRIC.NUMBER -/
  fab        : Tick := 0
  /-- the guard point of this tick has passed (R28) -/
  guardDone  : Bool := false
  /-- the tick at which the last path to a master was lost (R22) -/
  lostAt     : Option Tick := none
  /-- the adjustment tick in progress: extra cycles d and the master's number at its closing edge (R24) -/
  adj        : Option (Nat × Tick) := none
  /-- the tick opened at an edge with STEP_PENDING = 1 and no open hamper: it may be the adjustment tick (R24) -/
  adjDue     : Bool := false
  /-- the tick whose overrun has been counted (R30) -/
  ovrAt      : Option Tick := none
  /-- a lock gained at the next edge without a step, as its own master (R22) -/
  lockPend   : Bool := false
  /-- the SYNCs that each port received in the last 4 ticks, newest first: message and GLB_TICK_LOCAL at its arrival (R251) -/
  syncs      : Tab (List (SyncMsg × Tick)) := []
  /-- both counts before the last edge, which a crossing may still deliver (R27) -/
  locWas     : Tick := 0
  fabWas     : Tick := 0
  /-- home bank that serves each bucket, as fixed at cold reset (R34); absent entry: the bank of the same number -/
  hbMap      : Tab Nat := []
  /-- snoop-filter bank that serves each bucket (R70) -/
  sfMap      : Tab Nat := []
deriving DecidableEq, Repr

/-! ### Events (chapter 13) -/

/-- Event sequence, FIFO, log and rate windows (R336, R339, R432). -/
structure EvS where
  seq     : Word := 0
  /-- oldest first, at most 512 -/
  fifo    : List EvRec := []
  /-- records held by the HBM event log, oldest first, at most 1 Mi -/
  log     : List EvRec := []
  /-- GLB_EVLOG_HEAD -/
  logHead : Word := 0
  /-- rate-limited events: window number + 1 of the last one raised, keyed by code and unit (R432) -/
  win     : Tab Nat := []
  /-- events held back until the next management activity (R395, R345, R356) -/
  late    : List (Nat × List EvVal) := []
deriving DecidableEq, Repr

/-! ### Nalug (chapter 13) -/

/-- What a stepped command still has to do (R320). -/
inductive StepJob where
  | none
  | fwCommit
  | fjxCommit
  | lifecycle (target : Nat)
  | mcSwitch
  | sliceRelease (slice : Nat)
  | agentRemove (dom slot fid : Nat)
  | teardown (dom : Nat) (failed : Bool)
  | unbind (mode slice fid : Nat)
  | rebind (mode rights slice oldFid newFid vcs index : Nat) (newDom : Option Nat)
  | dirRebuild
deriving DecidableEq, Repr

/-- One step slot (R320, R321, MGT_STEP). STATE 0 free, 1 active, 2 suspended, 3 finished. -/
structure StepSlot where
  state  : Nat := 0
  status : Nat := 0
  opcode : Nat := 0
  use    : Nat := 0
  done   : Nat := 0
  total  : Nat := 0
  reply  : List Byte := []
  job    : StepJob := .none
  /-- the phase of the command's own machine -/
  phase  : Nat := 0
  /-- order in which slots finished -/
  fin    : Nat := 0
  /-- the tick in which its last step ran (R320) -/
  ranAt  : Option Tick := none
  src    : Src := ⟨0, 0, 0⟩
  seq    : BitVec 16 := 0
  /-- the stamp of its request: GLB_TICK_LOCAL when S52 accepted it (R25) -/
  at0    : Tick := 0
deriving DecidableEq, Repr

/-- One hardware lock (R325). -/
structure Lock where
  held   : Bool := false
  broken : Bool := false
  kind   : Nat := 0
  gen    : BitVec 16 := 0
  owner  : Src := ⟨0, 0, 0⟩
  first  : Nat := 0
  last   : Nat := 0
  /-- acquisitions plus breaks since cold reset, for the audit of R385 -/
  moves  : Nat := 0
deriving DecidableEq, Repr

/-- A message in reassembly (R313). -/
structure Reasm where
  src     : Src
  tag     : BitVec 3
  owner   : Bool
  nextSeq : BitVec 2
  bytes   : List Byte
deriving DecidableEq, Repr

/-- A kept reply (R316). -/
structure Kept where
  src    : Src
  seq    : BitVec 16
  opcode : Nat
  status : Nat
  body   : List Byte
  /-- held by the checkpoint or journaled (R316) -/
  safe   : Bool
deriving DecidableEq, Repr

/-- An event subscriber (R337). -/
structure Subscriber where
  src   : Src
  mask  : Nat
  count : BitVec 16
  lost  : Nat
  queue : List EvRec
deriving DecidableEq, Repr

/-- A transaction of the bridge (R331, R332). -/
structure BrTxn where
  stage : Nat
  code  : Nat
  len   : Nat
  read  : Bool
  block : Bool
  data  : List Byte
  /-- a held Nalug requester -/
  nalug : Option (Req × Nat) := none
  /-- register reads of PWR_BR_DATA that are held: master and word -/
  hold  : List (Nat × Nat) := []
  /-- the near side still waits -/
  opn   : Bool := false
  /-- started through PWR_BR_CMD -/
  cmd   : Bool := false
deriving DecidableEq, Repr

/-- What the bridge knows of a stage (R333-R335). -/
structure StageS where
  mode   : Option (BitVec 8) := none
  cm     : Int := 0
  cb     : Int := 0
  cr     : Int := 0
  raw    : List (BitVec 16) := []
  sat    : List Bool := []
  /-- successive unanswered polls (R309) -/
  fails  : Nat := 0
  status : Nat := 0
deriving DecidableEq, Repr

/-- Nalug (R312-R341). -/
structure NalugS where
  reasm   : List Reasm := []
  /-- complete requests accepted and not yet executed: source, bytes, and GLB_TICK_LOCAL at S52 (R25) -/
  inbox   : List (Src × List Byte × Tick) := []
  /-- that tick of the request being run -/
  reqAt   : Tick := 0
  kept    : List Kept := []
  steps   : Tab StepSlot := []
  finNext : Nat := 1
  locks   : Tab Lock := []
  subs    : Tab Subscriber := []
  /-- endpoint ID of each path: SB0, SB1 at 1 and 2, management function of port p at 16 + p -/
  eids    : Tab Nat := []
  /-- dynamic I3C address of each bus -/
  i3c     : Tab Nat := []
  /-- tries of the packet being sent on each bus (R330) -/
  tries   : Tab Nat := []
  /-- packet payloads waiting on each sideband bus: bus and destination -/
  br      : Option BrTxn := none
  /-- command transactions that wait for the bus, oldest first (R403, R405) -/
  brWait  : List BrTxn := []
  brTries : Nat := 0
  /-- the tick from which the next poll round's interval runs; none before the first round of a boot (R333) -/
  roundAt : Option Tick := none
  stages  : Tab StageS := []
  /-- resets that start one tick after their reply: scope, target, source, tick of acceptance (R323) -/
  resets  : List (Nat × Nat × Nat × Tick) := []
deriving DecidableEq, Repr

/-! ### Firmware, image, lifecycle (chapter 14) -/

/-- A firmware copy in flash (R343). `bytes` is what OP_FW_WRITE deposited; the copy the module ships with has its
header fields only. -/
structure FwCopy where
  started  : Bool := false
  bytes    : List Byte := []
  /-- header form is right: MAGIC, HDR_VERSION, BODY_SIZE in range -/
  hdrOk    : Bool := false
  version  : Nat := 0
  svn      : Nat := 0
  keyId    : Nat := 0
  bodySize : Nat := 0
  digestOk : Bool := false
  keyOk    : Bool := false
  sigOk    : Bool := false
  /-- a read-back of every programmed byte agreed -/
  readOk   : Bool := true
  /-- GENERATION of a commit record whose CHECK is right -/
  commit   : Option Word := none
deriving DecidableEq, Repr

/-- A checkpoint buffer (R360). -/
structure CkptBuf where
  complete : Bool := false
  gen      : Word := 0
  jseqAt   : Word := 0
  kept     : List Kept := []
deriving DecidableEq, Repr

/-- A journal record (R361). TYPE 1 BEGIN, 2 STEP, 3 DONE, 4 CONT. -/
structure JRec where
  type   : Nat
  status : Nat
  opcode : Nat
  jseq   : Word
  src    : Src
  seq    : BitVec 16
  slot   : Nat
  /-- steps done, payload length or offset -/
  num    : Nat
  data   : List Byte
deriving DecidableEq, Repr

/-- Flash, OTP, debug port, checkpoint memory (R342-R371). -/
structure MgmtS where
  /-- words of the code RAM written since the running copy was loaded (R344, R365) -/
  code      : Tab Word := []
  fwA       : FwCopy := {}
  fwB       : FwCopy := {}
  /-- images of the FJX copies; an erased or invalid copy is empty -/
  fjxA      : List Byte := []
  fjxB      : List Byte := []
  staging   : List Byte := []
  stagingOn : Bool := false
  stagingOk : Bool := true
  /-- bytes in the 64 KiB write buffers not yet programmed -/
  fwBuf     : Nat := 0
  fjxBuf    : Nat := 0
  /-- boot-failure marks: generations (R345) -/
  bootFail  : List Word := []
  bootCount : Word := 0
  /-- burned bits of each fuse, 3 bits each: intent of pair k at 2k, done at 2k + 1 (R354) -/
  fuses     : Tab Nat := []
  /-- burned bits of MGT_SVN_MIN (R349) -/
  svnMin    : Nat := 0
  /-- image of the FJX copy applied at the last cold reset -/
  applied   : Option (List Byte) := none
  /-- boot-ROM verdicts not yet raised -/
  booted    : Bool := false
  /-- the boot watchdog is armed (R344) -/
  watchdog  : Bool := false
  /-- a recovery commit has succeeded and its boot waits (R346) -/
  recovBoot : Bool := false
  inRecovery : Bool := false
  /-- the module stops in RETIRED (R344) -/
  stopped   : Bool := false
  capLocked : Bool := false
  keysErased : Nat := 0
  nonce     : Nat := 0
  nonceAt   : Option Tick := none
  nonceUsed : Bool := false
  debugBad  : Nat := 0
  /-- checkpoint and journal -/
  buf0      : CkptBuf := {}
  buf1      : CkptBuf := {}
  jrnl      : List JRec := []
  jseq      : Word := 0
  /-- JSEQ_AT of the checkpoint being written -/
  ckptJseq  : Word := 0
  ckptLast  : Tick := 0
  /-- tick of the last checkpoint slice -/
  sliceAt   : Option Tick := none
  /-- ticks of the last failure of each core (R362) -/
  failAt    : Tab Nat := []
  /-- the tick in which the active core began, whose heartbeat runs from then on (R362) -/
  actSince  : Tick := 0
  svnDone   : Bool := false
deriving DecidableEq, Repr

/-! ### Clocks, resets, faults (chapter 16) -/

structure ClkS where
  /-- GLB_XING_MERGE_CNT and GLB_XING_TO_CNT by crossing ID -/
  merge    : Tab Nat := []
  tmo      : Tab Nat := []
  /-- events held in the merged run of each crossing -/
  run      : Tab Nat := []
  /-- tick of PLL loss of each tile + 1 -/
  lostAt   : Tab Nat := []
  coreLost : Bool := false
  /-- tick + 1 of the last structure error of each tile (R399) -/
  tileUe   : Tab Nat := []
  /-- snoop-filter scrub: next set of each bank, deferrals, uncorrectable entries in the 1,024-tick window -/
  sfPos    : Tab Nat := []
  sfDefer  : Tab Nat := []
  /-- tick + 1 of the last set of each bank (R403) -/
  sfAt     : Tab Nat := []
  sfUe     : Tab (Nat × Nat) := []
  /-- table entries that read as invalid until firmware rewrites them (R399): 0 slice, 1 domain, 2 host map, 3 grant; the
  index; the tick of the error -/
  badEntry : List (Nat × Nat × Tick) := []
  /-- reset in progress: scope, target word, source (R396), the tick at which it began -/
  running  : List (Nat × Nat × Nat × Tick) := []
  /-- OP_RESET requests absorbed by the running reset, answered when it completes (R396) -/
  absorbed : List Req := []
  /-- CK_MGMT has stopped: Nalug goes unanswered (R394) -/
  mgmtLost : Bool := false
  /-- the logic of a warm reset is held: ports stop accepting, the home banks drain (R395) -/
  draining : Bool := false
deriving DecidableEq, Repr

/-! ### Telemetry (chapter 15) -/

/-- A tagged request (R382). `la` is its line, when its home is here; an unlisted stage reads 0xFFFF_FFFF. -/
structure LatTag where
  id     : Nat
  tile   : Nat
  port   : Nat
  cls    : Nat
  fid    : Nat
  slice  : Nat
  la     : Option Nat
  tick0  : Tick
  stamps : Tab Nat := []
  /-- INCOMPLETE, REMOTE, SNOOPED, LS_HIT, SPEC_UNDONE as bits 7 to 3 -/
  flags  : Nat := 0
  bank   : Nat := 0
  /-- complete, or discarded or refused: its record is due -/
  fin    : Bool := false
deriving DecidableEq, Repr

/-- A dump being written (R379-R381). -/
structure Dump where
  seq   : Word
  boot  : Word
  tick  : Tick
  fab   : Tick
  /-- LOCKED + 2 * DEST -/
  flags : Nat
  port  : Nat
  /-- GLB_TICK_LOCAL of the monitors' last sample -/
  sampled : Nat := 0
  /-- address of its slot -/
  addr  : Nat
  interval : Nat
  /-- the words of counters and monitors as the snapshot captured them -/
  regs  : Tab Word
  /-- 4 KiB units written, and the tick of the last -/
  units : Nat := 0
  at0   : Option Tick := none
deriving DecidableEq, Repr

/-- Telemetry (R372-R388). -/
structure TelS where
  /-- consecutive samples at or above (below) a threshold: keyed kind * 1024 + index * 8 + level * 2 (+ 1 below), level 1
  WARN, 2 HOT, 3 CRIT; samples in which CRIT has held at kind * 1024 + index * 8 -/
  runs     : Tab Nat := []
  /-- consecutive samples of each voltage monitor outside 3 percent -/
  voltRun  : Tab Nat := []
  /-- the last sample of the monitors and of the ring oscillators -/
  sampleAt : Option Tick := none
  roAt     : Option Tick := none
  /-- the edge of the last bandwidth window end -/
  bwAt     : Option Tick := none
  /-- levels entered by each source, WARN 1, HOT 2, CRIT 4: kind * 256 + index -/
  level    : Tab Nat := []
  roDone   : Bool := false
  /-- PMC words that take effect at the next edge: offset, value -/
  pmcPend  : List (Nat × Word) := []
  /-- the dump being written (R379-R381) -/
  dump     : Option Dump := none
  /-- the DUMP_SEQ that goes to slot 0 of the ring (R380) -/
  dumpOrg  : Word := 0
  /-- high words latched by 4 B low reads: master, offset, value (R377) -/
  latch    : List (Nat × Nat × Word) := []
  /-- bytes of the running bandwidth window per port and direction: port * 2 + direction -/
  bw       : Tab Nat := []
  lfsr     : Tab Nat := []
  tags     : List LatTag := []
  latTick  : Nat := 0
  auditOn  : Option Tick := none
  idleRun  : Nat := 0
  busy     : Bool := false
deriving DecidableEq, Repr
/-! ### Slices, domains, virtual switches (chapter 02) -/

/-- A slice-table entry (R46); the line-store stack and DIRTY_SEEN of R144 beside it. STATE 0 UNASSIGNED, 1 IDLE,
2 BOUND, 3 UNBINDING, 4 MOVING, 5 FAILED. -/
structure Slice where
  state  : Nat := 0
  lsEn   : Bool := false
  dom    : Nat := 0
  gen    : BitVec 16 := 0
  dev    : Nat := 0
  dpa    : Nat := 0
  maps   : Nat := 0
  newDev : Nat := 0
  newDpa : Nat := 0
  mark   : Nat := 0
  stack  : Nat := 0
  dirtySeen : Bool := false
deriving DecidableEq, Repr

/-- An agent slot (R51). -/
structure AgentSlot where
  caching : Bool
  rights  : Nat
  fid     : Nat
deriving DecidableEq, Repr

/-- A domain (R51). STATE 0 FREE, 1 ACTIVE, 2 FAILED, 3 TEARING. -/
structure Dom where
  state  : Nat := 0
  agents : Tab AgentSlot := []
deriving DecidableEq, Repr

/-- A host map entry (R56). -/
structure HEnt where
  rights : Nat
  remote : Option Nat
  slice  : Nat
deriving DecidableEq, Repr

/-- A virtual CXL switch (R55, R69). -/
structure Vcs where
  usp   : Nat
  host  : Nat
  base  : Nat
  len   : Nat
  hdm   : Nat := 0
  ig    : Nat := 0
  iw    : Nat := 0
deriving DecidableEq, Repr

/-- A walk over the lines of slices (R62, R91, R95, R436): the slice it is on and the lines each bank has examined. -/
structure Walk where
  slice  : Nat
  pos    : Tab Nat := []
  /-- it starts at the edge after this tick -/
  after  : Tick := 0
  ranAt  : Option Tick := none
  /-- dirty lines written, or slices moved -/
  count  : Nat := 0
  /-- the domain was ACTIVE when the command began -/
  domOk  : Bool := false
deriving DecidableEq, Repr

/-- Binding state (R36-R69). -/
structure BindS where
  slices  : Tab Slice := []
  doms    : Tab Dom := []
  hmap    : Tab HEnt := []
  /-- grants: host, slice, RIGHTS -/
  grants  : List (Nat × Nat × Nat) := []
  vcs     : Tab Vcs := []
  /-- present Type-3 logical devices, keyed by port * 16 + LD: capacity in 256 MiB units (R66) -/
  devs    : Tab Nat := []
  /-- port-set members that went down and wait for a rewrite of their entry (R40), keyed by tile * 256 + set: a mask -/
  demoted : Tab Nat := []
  /-- walks by step slot; exit walks at 32 + domain -/
  walks   : Tab Walk := []
deriving DecidableEq, Repr

/-! ### Coherence home (chapter 03) -/

/-- A directory entry (R81). STATE 1 S, 2 E, 3 M, 4 O. -/
structure DirEnt where
  st     : Nat
  hold   : Bool := false
  coarse : Bool := false
  dom    : Nat
  sh     : List Nat
  groups : Nat := 0
  onDie  : Bool := true
  use    : Nat := 0
deriving DecidableEq, Repr

/-- A line-store line (R73, R85, R144). -/
structure LsLine where
  dirty  : Bool
  poison : Bool
  data   : Line
  use    : Nat := 0
  /-- a victim that is being written to its device: its way is not yet free (R86) -/
  wr     : Bool := false
deriving DecidableEq, Repr

/-- A snoop sent and not answered: agent, 0 SnpCur 1 SnpData 2 SnpInv, the tick number of its deadline (R93). -/
structure Snp where
  fid  : Nat
  kind : Nat
  due  : Tick
  /-- its response has come at or after the deadline, and was discarded -/
  late : Bool := false
deriving DecidableEq, Repr

/-- What a tracker serves. -/
inductive HEv where
  | rds | rda | rdown | ncr | ncw | ce
  /-- a directory eviction -/
  | evict
  /-- an invalidation of a walk: step slot or exit walk, and the agent it invalidates (none: all) -/
  | walk (w : Nat) (fid : Option Nat)
  /-- a hamper line being acquired: its key and entry index -/
  | hamper (key : HKey) (index : Nat)
  /-- a line of the page that a PAGE_MOVE of an instance moves (R195) -/
  | move (inst : Nat)
  /-- a partial write-back that reads its line to merge into it, and the tracker whose snoop it answers (R72, R74) -/
  | part (trk : Option Nat)
deriving DecidableEq, Repr

/-- A tracker (R78, R88). PHASE 0 queued, 1 lookup, 2 snooping, 3 reading, 4 waiting for a write to be acknowledged. -/
structure Trk where
  la    : Nat
  ev    : HEv
  fid   : Nat := 0
  via   : Via := .mem
  type2 : Bool := false
  data  : Line := 0
  mask  : BitVec 64 := 0
  phase : Nat := 0
  snps  : List Snp := []
  rsps  : List SnpRsp := []
  /-- the entry as the lookup found it -/
  ent   : Option DirEnt := none
  /-- a read for it: 0 none, 1 in the line store, 2 at the device (its number), 3 waiting for a read tracker -/
  rd    : Nat := 0
  rid   : Nat := 0
  /-- data read for it: line, poison -/
  got   : Option (Line × Bool) := none
  /-- data written back for it, and whether it is poisoned -/
  wb    : Option Line := none
  wbBad : Bool := false
  /-- snooped as a line without an entry (R90) -/
  wide  : Bool := false
  /-- what it waits on: 1 a write to the line store, 2 a write to the device, 3 the line of its partial write-back, 4 a way
  for its shadow, 5 a way of the directory set whose 16 ways are all held -/
  ack   : Nat := 0
  /-- copies of a snoop that wait for room at the bank's station: kind and agents (R149) -/
  todo  : Option (Nat × List Nat) := none
  /-- acceptance order -/
  ord   : Nat := 0
  /-- a hamper's acquire has read its directory set (R143) -/
  dir   : Bool := false
deriving DecidableEq, Repr

/-- An allocation that waits for a way of its set: the line and the tracker that waits with it (R86). A clean one is the
fill of a device read, which holds its read tracker. -/
structure Alloc where
  la   : Nat
  line : LsLine
  trk  : Option Nat
deriving DecidableEq, Repr

/-- What the home keeps of a domain beside its registers (R89-R94). -/
structure DomCoh where
  blanket : Bool := false
  exitOn  : Bool := false
  cause   : Nat := 0
  /-- evictions in the running window, in the last complete one, and consecutive quiet windows -/
  win     : Nat := 0
  last    : Nat := 0
  quiet   : Nat := 0
  /-- the tick in which the window count reached ENTER_BI: entry is due at the next edge (R89) -/
  due     : Option Tick := none
  /-- dead agents, the first one first (R94, R95) -/
  deads   : List Nat := []
  /-- the tick in which the exit walk found no untracked slice left: Blanket mode ends at the next edge (R91) -/
  clearAt : Option Tick := none
deriving DecidableEq, Repr

/-- The home (R70-R101). -/
structure HomeS where
  ents    : Tab DirEnt := []
  lines   : Tab LsLine := []
  /-- shadow ways: data staged by hampers (R112, R144) -/
  shadow  : Tab (Line × Bool) := []
  trks    : Tab Trk := []
  /-- device reads not answered, by number: line, tracker that waits (none: the response is dropped) (R88) -/
  devRds  : Tab (Nat × Option Nat) := []
  /-- device writes not acknowledged: device, address, line, poison (R262) -/
  devWrs  : List (Nat × Nat × Line × Bool) := []
  /-- allocations that wait for a way, oldest first (R86) -/
  allocs  : List Alloc := []
  /-- snoops that were abandoned and may still be answered: line and agent (R93, R94) -/
  gone    : List (Nat × Nat) := []
  doms    : Tab DomCoh := []
  /-- untracked slices -/
  untrk   : List Nat := []
  /-- slices that an exit walk is visiting and that have not been marked again since their visit began (R91) -/
  visits  : List Nat := []
  /-- home banks and snoop-filter banks lost at run time (R97, R98) -/
  bankLost : List Nat := []
  sfLost  : List Nat := []
  clock   : Nat := 0
  /-- GLB_TICK_LOCAL at the start of the running window of evictions (R89) -/
  winAt   : Tick := 0
deriving DecidableEq, Repr

/-- What a completion carries: data with its grant (0 none, 1 S, 2 E, 3 M), poison, a normal completion, GO-I, an error
response, UR. -/
inductive HRsp where
  | data (grant : Nat) (d : Line) (poison : Bool)
  | poison | done | goI | err | ur | conflictAck
  /-- a fabric request refused at its home, with R57's reason (R58, R229) -/
  | decode (reason : Nat)
deriving DecidableEq, Repr
/-! ### Hampers (chapter 04) -/

/-- Where a hamper's outcome goes (R106, R107). -/
inductive HSrc where
  /-- hamper port: vCS and slot -/
  | port (v k : Nat)
  /-- engine instance and job number -/
  | engine (inst job : Nat)
  /-- nowhere: its port was reset, or its slot is gone (R106) -/
  | dropped
deriving DecidableEq, Repr

/-- A line of a part: 0 not acquired, 1 being acquired, 2 staged or compared. -/
structure PLine where
  l    : HLine
  step : Nat := 0
deriving DecidableEq, Repr

/-- A home's part of a hamper (R109-R118). -/
structure HPart where
  key      : HKey
  acting   : Nat
  lines    : List PLine
  parts    : List Nat
  boot     : Word
  limit    : Nat
  attempt  : Nat := 0
  /-- fabric tick of its acquiring window -/
  window   : Tick
  /-- won its lines and acquires -/
  won      : Bool := false
  /-- PREPARED record written, and acknowledged -/
  prepared : Bool := false
  prepAck  : Bool := false
  /-- what it votes: 0 PREPARED, 1 RETRY, or a status -/
  vote     : Option Nat := none
  fail     : Nat := 0xFF
  voteSent : Bool := false
  /-- the decision it holds: 0 COMMIT, 1 RETRY, or a status -/
  dec      : Option Nat := none
  sealAck  : Bool := false
  sealed   : Bool := false
  /-- in doubt since this tick -/
  doubt    : Option Tick := none
  asked    : Option Tick := none
  answer   : Option Nat := none
  poison   : Bool := false
  /-- the lowest-numbered entry whose comparison failed (R105) -/
  mis      : Option Nat := none
  /-- GLB_TICK_LOCAL at the last rewrite of its PREPARED record (R121) -/
  rew      : Option Tick := none
deriving DecidableEq, Repr

/-- A hamper at its origin (R103, R115). -/
structure HOrig where
  key     : HKey
  src     : HSrc
  user    : Word
  limit   : Nat
  retries : Nat := 0
  window  : Tick
  /-- home modules -/
  homes   : List Nat
  /-- votes received: module, vote, entry index -/
  votes   : List (Nat × Nat × Nat) := []
  dec     : Option Nat := none
  fail    : Nat := 0xFF
  decAck  : Bool := false
  /-- a target at this module failed after the vote: its entry, 0xFF when it is not one alone (R108, R126) -/
  failed  : Option Nat := none
deriving DecidableEq, Repr

/-- A commit-log record (R121). TYPE 1 PREPARED, 2 DECISION, 3 SEAL. -/
structure LogRec where
  type    : Nat
  code    : Nat
  lines   : Nat
  attempt : Nat
  key     : HKey
  boot    : Word
  parts   : List Nat
  edge    : Tick
  banks   : Nat
  /-- its line is poisoned: it reads as absent (R147) -/
  absent  : Bool := false
deriving DecidableEq, Repr

/-- A slot of a hamper port (R106): 0 FREE, 1 BUSY, 2 DONE. -/
structure PortSlot where
  st     : Nat := 0
  staged : Tab Nat := []
  out    : List Byte := []
deriving DecidableEq, Repr

/-- The hamper unit (R102-R134). -/
structure HmpS where
  origs   : List HOrig := []
  parts   : List HPart := []
  ports   : Tab PortSlot := []
  log     : List LogRec := []
  /-- timing values in force (R134) -/
  arb     : Nat := 512
  dcd     : Nat := 1920
  xlat    : Nat := 640
  timPend : Bool := false
  /-- in this tick: arbitration and decision have happened, banks that overran -/
  arbDone : Bool := false
  dcdDone : Bool := false
  ovr     : Nat := 0
  /-- outcomes for engine instances: instance, job, record -/
  engOut  : List (Nat × Nat × List Byte) := []
  /-- fabric tick at which the commit log was lost (R152) -/
  lostAt  : Option Tick := none
  /-- cross-module hampers whose part ended at its edge before its SEAL record was acknowledged (R116) -/
  seals   : List HKey := []
deriving DecidableEq, Repr
/-! ### HBM (chapter 05) -/

/-- What a read slot reads (R143, R147): a line-store line, the oldest spill page of a queue, a burst pair of a directory set, or the
commit-log record at a ring index that a query needs. -/
inductive RdJob where
  | line
  | spill (q page : Nat)
  | dir (pair : Nat)
  | log (i : Nat) (m : HMsg)
deriving DecidableEq, Repr

/-- A read slot (R147): line (or address in the spill area), the tracker it serves, attempt, halves that have arrived, a half
was uncorrectable. -/
structure RdSlot where
  la      : Nat
  trk     : Option Nat
  job     : RdJob := .line
  attempt : Nat := 0
  halves  : Nat := 0
  bad     : Bool := false
deriving DecidableEq, Repr

/-- A message in a tile's buffers (R140, R156). `egress` is its egress port, or 1,000 + the station it is delivered at. -/
structure TMsg where
  m      : NetMsg
  /-- the port it came in at -/
  inp    : Nat
  src    : Nat
  dst    : Nat
  egress : Nat
  cells  : Nat
  /-- GLB_TICK_LOCAL at acceptance -/
  stamp  : Tick
  yellow : Bool := false
  /-- its data is poisoned (R398, R399) -/
  poison : Bool := false
  /-- a response that takes the buffer that ingress run-ahead holds for its line (R88) -/
  ahead  : Option Nat := none
  /-- the place in the order in which the tiles accepted messages (R265) -/
  ord    : Nat := 0
deriving DecidableEq, Repr

/-- HBM, Mortar and tile buffers (R135-R154). -/
structure HbmS where
  /-- messages that the tiles have accepted (R265) -/
  accepts : Nat := 0
  /-- keyed by (stack * 32 + pseudo-channel) * 64 + slot -/
  slots   : Tab RdSlot := []
  /-- reads that wait for a slot: line, tracker, what is read -/
  waitRd  : List (Nat × Option Nat × RdJob) := []
  /-- mirror copy in progress: units copied -/
  mirror  : Option Nat := none
  /-- tick of the last unit copied -/
  mirAt   : Option Tick := none
  /-- uncorrectable bursts in the running window of each stack (R152), and the window number + 1 -/
  ueWin   : Tab (Nat × Nat) := []
  /-- patrol scrub by stack * 32 + pseudo-channel: units done, tick + 1 of the last issue and of the first deferral -/
  scrub   : Tab Nat := []
  scrubAt : Tab Nat := []
  scrubDef : Tab Nat := []
  /-- refresh intervals postponed, keyed by stack * 32 + pseudo-channel -/
  postp   : Tab Nat := []
  /-- corrected write-backs that wait for a hold (R146): line, stack, pseudo-channel, area, address -/
  ceWait  : List (Nat × Nat × Nat × Nat × Nat) := []
  /-- Mortar: messages in each station's receive buffer; cycles that a source station's class has waited, keyed by
  (destination * 53 + source) * 8 + class; round-robin pointer per station and tier; bulk grants in a row -/
  recv    : Tab (List TMsg) := []
  waits   : Tab Nat := []
  rr      : Tab Nat := []
  bulkRun : Tab Nat := []
  /-- parity of the grants of classes 6 and 7 at the stations of a hot tile (R373) -/
  half    : Tab Nat := []
  /-- queued messages, oldest first: ingress at port * 8 + class, egress at 1536 + port * 8 + class -/
  queues  : Tab (List TMsg) := []
  /-- queues that spill, and the messages that they hold in spill -/
  spilling : List Nat := []
  /-- with 4 * spill page + stack of the page that each lies in -/
  spill   : Tab (List (Nat × TMsg)) := []
  /-- buffers that ingress run-ahead holds in the coherent-response queue toward a requester: port, requester, line (R87) -/
  ahead   : List (Nat × Nat × Nat) := []
  /-- messages that a core station waits to put onto Mortar, by station * 8 + class; how much of `out` they cover -/
  sends   : Tab (List TMsg) := []
  mark    : Nat := 0
deriving DecidableEq, Repr
/-! ### Shaping and admission (chapter 06) -/

/-- A flow of a tile (R159-R163). The buckets are held as what they lack: TC = CBS - dc, TP = PBS - dp. `next` counts
1/65,536 ticks. -/
structure Flow where
  cir  : Nat := 0
  pir  : Nat := 0
  cbs  : Nat := 0
  pbs  : Nat := 0
  /-- CIR as programmed; `cir` is what the scale leaves (R171) -/
  cirP : Nat := 0
  dc   : Nat := 0
  dp   : Nat := 0
  next : Nat := 0
  drops : Nat := 0
  held : List TMsg := []
deriving DecidableEq, Repr

/-- An accepted flow change that waits for the edge: tile, key, parameters CIR PIR CBS PBS, or none for a clear (R159). -/
structure FlowChange where
  tile : Nat
  key  : Nat
  par  : Option (Nat × Nat × Nat × Nat)
  /-- GLB_TICK_LOCAL at acceptance -/
  at0  : Tick
deriving DecidableEq, Repr

/-- A reservation (R168): source, flow class, target, rate. -/
structure Rsv where
  src  : Nat
  fc   : Nat
  tgt  : Nat
  rate : Nat
deriving DecidableEq, Repr

/-- Shaping and admission (R155-R175). -/
structure QosS where
  /-- programmed flows, keyed by tile * 2^21 + flow class * 2^18 + source -/
  flows   : Tab Flow := []
  /-- the default flows' buckets, keyed by tile * 8 + flow class -/
  defs    : Tab Flow := []
  changes : List FlowChange := []
  /-- reservation table, keyed by index -/
  rsv     : Tab Rsv := []
  /-- declared rates of devices, keyed by target -/
  declared : Tab Nat := []
  /-- 65,536 - scale, and the deliverable rate last booked, keyed by target -/
  lack    : Tab Nat := []
  seen    : Tab Nat := []
  /-- mode asked for each tile at the next edge: 1 bucket, 2 wheel -/
  modeReq : Tab Nat := []
  /-- 1 + the tick in which that mode was asked for; the deliverable rates at the last edge (R164, R171) -/
  modeAt  : Tab Nat := []
  edgeD   : Tab Nat := []
  /-- next class of each port, and deficits in bytes keyed by port * 8 + class (R165) -/
  drrAt   : Tab Nat := []
  deficit : Tab Nat := []
deriving DecidableEq, Repr
/-! ### Engines and instances (chapters 07 and 08) -/

/-- An entry that has started and that the published head has not passed (R183, R202). -/
structure REnt where
  pos  : Nat
  n    : Nat
  job  : Nat
  irq  : Bool
  /-- an open HAMPER entry -/
  opn  : Bool := false
  comp : Bool := false
  /-- its write-back failed: the head stays before it (R180) -/
  bad  : Bool := false
deriving DecidableEq, Repr

/-- The running job of a ring: its entry's bytes and its progress (R197). -/
structure Job where
  pos   : Nat
  bytes : List Byte
  num   : Nat
  /-- bytes, elements or pages done -/
  prog  : Nat := 0
  /-- accumulator of REDUCE: an integer, or the bits of a binary64 -/
  acc   : Int := 0
  crc   : Nat := 0
  flags : Nat := 0
  /-- outcome: status and RESULT, once it has stopped -/
  fin   : Option (Nat × Nat) := none
  /-- a stop that waits for the next boundary -/
  stop  : Option Nat := none
  /-- slices of this module that its checked operands touch, or that it moves (R201) -/
  hit   : List Nat := []
  /-- line reads of the step: those not yet issued (SPACE, address, length), and the number outstanding (R176, R202) -/
  rdTodo : List (Nat × Nat × Nat) := []
  rdOut : Nat := 0
deriving DecidableEq, Repr

/-- An engine instance (R178-R184, R205-R218), beside its registers. -/
structure Inst where
  /-- position of the next entry to execute; units fetched from it on -/
  x      : Nat := 0
  units  : List (List Byte) := []
  /-- head H and tail T -/
  h      : Nat := 0
  t      : Nat := 0
  /-- a refetch is due (R184) -/
  refetch : Bool := false
  ents   : List REnt := []
  /-- entries started before the ring was last disabled or reset, not complete: the head does not wait for them -/
  late   : List REnt := []
  job    : Option Job := none
  /-- the engine that serves the ring -/
  eng    : Option Nat := none
  /-- completion slots of entries that H has passed and the published head has not (R202) -/
  unpub  : Nat := 0
  /-- an entry with IRQ = 1 has completed since the last publication -/
  irqDue : Bool := false
  /-- the tick in which H first moved past the published head (R183) -/
  movedAt : Tick := 0
  /-- what the buckets lack: TC = CBS - dc, TP = PBS - dp; DEFICIT -/
  dc     : Nat := 0
  dp     : Nat := 0
  deficit : Int := 0
  /-- WEIGHT, CIR, PIR, CBS, PBS that wait for the edge -/
  rates  : Option (Nat × Nat × Nat × Nat × Nat) := none
  /-- no further job starts before the next edge (R215) -/
  rej    : Bool := false
  /-- ATS invalidations of pages of the job that wait for its step (R186) -/
  ats    : Nat := 0
deriving DecidableEq, Repr

/-- Engines (R176-R220). -/
structure EngS where
  insts  : Tab Inst := []
  /-- the instance + 1 that each engine serves next (R197, R214) -/
  plan   : Tab Nat := []
  /-- walk pointer of each cluster and tier: cluster * 2 + tier -/
  ptr    : Tab Nat := []
  /-- bound instances and present clusters for which the shares stand (R212) -/
  shareN : Nat := 0
  shareP : Nat := 4
  /-- the same at the last edge, when the shares change (R212) -/
  dueN   : Nat := 0
  dueP   : Nat := 4
  jobs   : Nat := 0
deriving DecidableEq, Repr
/-! ### Fabric links (chapter 09) -/

/-- A logical lane of a transmitter: its scrambler, the level and the length of its run, the stuff symbols of its period
(R223-R225). -/
structure TxLane where
  scr   : Nat := 0
  level : Nat := 0
  run   : Nat := 0
  stuff : Nat := 0
deriving DecidableEq, Repr

/-- The transmitter of a link (R222-R227, R234). -/
structure TxS where
  /-- number of the period, and index of its next codeword -/
  period : Nat := 0
  cw     : Nat := 0
  lanes  : List TxLane := []
  /-- the lane that the spare mirrors in this period (R243) -/
  mirror : Option Nat := none
  /-- bytes of the stream that no flit carries yet, and where message headers start in them -/
  str    : List Byte := []
  hds    : List Nat := []
  /-- replay buffer: SEQ, START, payload of each DATA flit sent and not acknowledged -/
  buf    : List (Nat × Nat × List Byte) := []
deriving DecidableEq, Repr

/-- One fabric link, seen from its port (R221-R255). -/
structure LinkS where
  /-- GLB_TICK_LOCAL when the state was entered or last made progress -/
  since  : Tick := 0
  /-- DOWN for want of lanes: bring-up waits 1,024 ticks (R232) -/
  wait   : Bool := false
  /-- held in INIT by an ID conflict (R38) -/
  conflict : Bool := false
  tx     : TxS := {}
  /-- PT_FL_STUFF_CNT -/
  stuffs : Nat := 0
  /-- GLB_TICK_LOCAL at the last DATA flit sent, at the last advance of ACK_SEQ or replay, at the last NAK (R235, R236, R246) -/
  dataAt : Tick := 0
  ackAt  : Tick := 0
  nakAt  : Tick := 0
  /-- period and codeword of the far end that were last received: from its INIT and the CFF (R243) -/
  rxPer  : Nat × Nat := (0, 0)
  /-- next SEQ, oldest unacknowledged SEQ, expected SEQ (R234, R235) -/
  txSeq  : Nat := 0
  una    : Nat := 0
  rxSeq  : Nat := 0
  /-- the transmit lanes are assigned (R285) -/
  asgn   : Bool := false
  /-- a DATA flit has been accepted; a NAK is out for the present gap -/
  ackV   : Bool := false
  nak    : Bool := false
  /-- running totals received in CREDIT flits, and sent: classes 0-7, 8 shared (R238) -/
  retIn  : Tab Nat := []
  retOut : Tab Nat := []
  /-- buffers freed since the last CREDIT -/
  unrep  : Nat := 0
  /-- RSV of each class and the shared total as the far end's INIT announced them (R237, R253) -/
  cred   : List Nat := []
  /-- RSV of this end's classes as INIT announced them (R237) -/
  rsv    : List Nat := []
  /-- messages in the receive pool: class, buffers, shared buffers -/
  rx     : List (Nat × Nat × Nat) := []
  /-- the SEQ after each sent message that is not wholly acknowledged (R240) -/
  out    : List Nat := []
  /-- bytes of a partly received message -/
  part   : List Byte := []
  /-- error window: its number + 1, and its count (R239) -/
  errWin : Nat := 0
  err    : Nat := 0
  /-- training failures in a row; ticks of the last downs; trains at 32 GBd (R233) -/
  fails  : Nat := 0
  downs  : List Tick := []
  slow   : Bool := false
  /-- lane windows: corrected symbols of each logical lane, and the window number + 1 (R242) -/
  ce     : Tab Nat := []
  ceWin  : Nat := 0
  /-- replacement or rotation, as receiving end: 0 none, 1 REQ sent, 2 locking, 3 SWITCH sent, 4 reading from the spare with
  DONE out, 5 recalibrating, 6 SWITCH back sent; lane; started at; rotation; codeword named -/
  sp     : Nat := 0
  spLane : Nat := 0
  spAt   : Tick := 0
  spRot  : Bool := false
  spCw   : Nat × Nat := (0, 0)
  /-- READY arrived at -/
  spReady : Tick := 0
  /-- physical lane of each received logical lane, the spare at index 4; empty before ALIGN is done -/
  rxMap  : List Nat := []
  /-- physical lane that the rotated or replaced logical lane had -/
  spOld  : Nat := 0
  /-- as transmitting end: 0 none, 1 mirrors a lane; the codeword named -/
  tsp    : Nat := 0
  tspLane : Nat := 0
  tspRot : Bool := false
  tspCw  : Option (Nat × Nat) := none
  /-- a lane whose replacement waits for the end of a rotation, and whether it has failed (R404) -/
  dueLane : Option (Nat × Bool) := none
  /-- next lane to rotate, and the tick of the last rotation (R245) -/
  rotNext : Nat := 0
  rotAt  : Tick := 0
  /-- a replacement is on the spare (R244) -/
  spared : Bool := false
  /-- the far end's SLEEP_EN; last tick with DATA queued or unacknowledged (R247) -/
  farSleep : Bool := false
  busyAt : Tick := 0
  /-- L1-sleep handshake: 0 none, 1 initiator sent REQ, 2 responder sent ACK, 3 committed, 4 leaving -/
  slp    : Nat := 0
  /-- a wake at the responder after its SLEEP_ACK -/
  wake   : Bool := false
  slpAt  : Tick := 0
  /-- the receiving direction is marked quiet (R246) -/
  rxQuiet : Bool := false
  /-- delay measurement (R249): samples, oldest first; value of the last event; outstanding T1 and its number -/
  delays : List Nat := []
  delayEv : Option Nat := none
  req    : Option (Nat × Nat) := none
  reqNo  : Nat := 0
  reqAt  : Option Tick := none
deriving DecidableEq, Repr

/-- A request toward a remote home that waits for its response (R241): requester, tag, port it came in at, deadline. -/
structure RemReq where
  fid  : Nat
  tag  : Nat
  tile : Nat
  via  : Via
  la   : Nat
  write : Bool
  due  : Tick
deriving DecidableEq, Repr

/-- Fabric links (R221-R255). -/
structure FabS where
  links : Tab LinkS := []
  /-- requests toward remote homes (R241) -/
  rem   : List RemReq := []
  nextTag : Nat := 0
  /-- snoops of remote homes at hosts of this module: line, host, home, tag (R230) -/
  rsnp  : List (Nat × Nat × Nat × Nat) := []
deriving DecidableEq, Repr
/-! ### CXL ports (chapter 10) -/

/-- FM API return codes (R269). -/
inductive FmRc where
  | success | busy | invalidInput | internalError | unsupported
deriving DecidableEq, Repr

/-- What a CXL port holds beside its registers (R257-R272). -/
structure CxPort where
  /-- mode, or width and naming port, that waits for the next port reset (R15, R257) -/
  newMode  : Option Nat := none
  newLink  : Option (Nat × Nat) := none
  /-- training began at; the tick of the last attempt -/
  trainAt  : Option Tick := none
  tryAt    : Tick := 0
  /-- serial number of the partner that was identified last (R262) -/
  serial   : Nat := 0
  /-- what was behind the port when its link went down: DEV_TYPE, LDS (R262) -/
  wasType  : Nat := 0
  wasLds   : Nat := 0
  /-- a Type-3 link down that waits for DOWN_TICKS -/
  downAt   : Option Tick := none
  /-- scans with presence unlike PRSNT, with the button pressed -/
  prsRun   : Nat := 0
  btnRun   : Nat := 0
  /-- scans left of the 5.0 s timer -/
  timer    : Nat := 0
  /-- scans since the last link down beyond recovery, while it waits to be merged with a presence loss (R272) -/
  lostScan : Option Nat := none
  /-- PERST# is asserted (R269) -/
  perst    : Bool := false
  /-- outstanding non-posted CXL.io requests toward the port (R264) -/
  np       : List NetMsg := []
  /-- host Slot Control: power and attention indicator (R271) -/
  slotPwr  : Nat := 0
  slotAttn : Nat := 0
  /-- what the expander drives: power and attention indicator, and the scans since a blinking one last toggled (R270) -/
  pwrOut   : Bool := false
  attnOut  : Bool := false
  pwrRun   : Nat := 0
  attnRun  : Nat := 0
deriving DecidableEq, Repr

/-- CXL ports (R253-R275). -/
structure CxlS where
  /-- vPPB bindings: vCS * 16 + vPPB to a downstream port -/
  vppb  : Tab Nat := []
  ports : Tab CxPort := []
  /-- consecutive scans that each brick's expander did not answer (R270) -/
  quiet : Tab Nat := []
  /-- the MSI-X tables and pending bits of the vCS's upstream port functions: words by vCS * 8,192 + word, bits by vCS * 2,048 + vector;
  an unlisted word reads 0, but the vector control word of an entry 1, masked (R266) -/
  msix  : Tab Word := []
  pba   : Tab Bool := []
deriving DecidableEq, Repr
/-! ### Lanes (chapter 11) -/

/-- What a lane holds beside its registers (R279-R292). -/
structure LaneS where
  /-- GLB_TICK_LOCAL when the state, or the re-lock, began -/
  since   : Tick := 0
  /-- in test: 3 SWEEP, 4 ADAPT, 5 checking -/
  phase   : Nat := 0
  /-- SWEEP: settings measured; the best height and its setting -/
  swept   : Nat := 0
  best    : Option (Nat × Nat) := none
  /-- stored equalisation: peaking, DFE taps, at 64 GBd (R284) -/
  eq      : Option (Nat × Word × Word × Bool) := none
  relock  : Bool := false
  /-- recalibration of R287 runs on the lane -/
  recal   : Bool := false
  /-- consecutive ticks below EYE_MIN, below EYE_WARN -/
  lowRun  : Nat := 0
  warnRun : Nat := 0
  /-- the tick of the last tracking step -/
  trackAt : Tick := 0
  /-- the host is margining the lane under PCIe -/
  pcie    : Bool := false
  /-- training blocks emitted since the first one on the lane (R278) -/
  blocks  : Nat := 0
  /-- the tick of a running margin measurement's start (R292) -/
  margAt  : Tick := 0
  /-- generator and checker registers as they were last loaded -/
  gen     : Nat := 0
  chk     : Nat := 0
deriving DecidableEq, Repr

/-- Lanes, keyed by port * 5 + physical lane. -/
structure LaneT where
  lanes : Tab LaneS := []
deriving DecidableEq, Repr

/-! ### Module power (chapter 12) -/

/-- What the keeper holds beside its registers (R296-R308). -/
structure PwrS where
  /-- the keeper's supply is above 20 V -/
  supply   : Bool := true
  /-- the feed through which V_BUS charges -/
  charging : Nat := 0
  /-- pass and ORing transistors commanded on, bit 0 feed A, bit 1 feed B -/
  pass     : Nat := 0
  oring    : Nat := 0
  /-- feeds whose ORing transistor has failed, whose breaker is open, which are latched off (R297, R298) -/
  oringBad : Nat := 0
  tripped  : Nat := 0
  latched  : Nat := 0
  /-- tick + 1 of each feed's last trip -/
  tripAt   : Tab Nat := []
  /-- a retry after 1 s is due for the feed -/
  retry    : Nat := 0
  /-- V_BUS lies above 10 V -/
  vbusHigh : Bool := false
  /-- the 200 ohm bleeder is connected to V_BUS (R304, R305) -/
  bleeder  : Bool := false
  /-- group being brought up, 0-9 -/
  group    : Nat := 0
  /-- groups still enabled during an orderly off -/
  down     : Nat := 0
  /-- what the last off was: PWR_LAST_OFF.CAUSE -/
  offKind  : Nat := 0
  /-- OP_MODULE_OFF has been accepted, and its orderly off begins with the same command (R305) -/
  cycled   : Bool := false
  /-- CK_KEEP runs (R307) -/
  keepRun  : Bool := false
  /-- the management reset is released -/
  mgmtUp   : Bool := false
  /-- the boot ROM has run since that release -/
  bootRan  : Bool := false
  /-- a keeper power-on has happened since the last module reset (R395) -/
  fresh    : Bool := true
deriving DecidableEq, Repr

/-- What the block sends outside itself, in the order it sends it. -/
inductive Out where
  /-- the reply to a Nalug request (R316): opcode, status, body -/
  | reply (q : Req) (opcode status : Nat) (body : List Byte)
  /-- a notification (R337): subscriber, notification count, LOST, record -/
  | notify (src : Src) (count : BitVec 16) (lost : Nat) (ev : EvRec)
  /-- an MCTP control response (R313) -/
  | mctp (src : Src) (cmd : Nat) (body : List Byte)
  /-- an MSI-X vector of the management function (R338) -/
  | msix (vec : Nat)
  /-- a register read completes to its master -/
  | readDone (master off : Nat) (data : List Byte)
  /-- a register read ends in a bus error -/
  | busErr (master off : Nat)
  /-- a PMBus transaction starts: clock in kHz, transaction -/
  | pmbus (khz : Nat) (t : BrTxn)
  /-- a completion of the home (R58, R74): requester, form, line, what it holds -/
  | homeRsp (fid : Nat) (via : Via) (la : Nat) (r : HRsp)
  /-- a snoop: agent, kind, line -/
  | snoop (fid kind la : Nat)
  /-- a read or a write of a memory device: fabric ID, device address -/
  | devRead (rid dev addr : Nat)
  | devWrite (dev addr : Nat) (d : Line) (poison : Bool)
  /-- a read or a write of a line in a stack -/
  | hbmRead (stack la : Nat)
  | hbmWrite (stack la : Nat)
  /-- a burst pair of a directory set, a spill page and a commit-log record are read: stack, and line and pair; station, queue and
  page; ring index (R137, R142, R143) -/
  | dirRead (stack la pair : Nat)
  | spillRead (stn q page : Nat)
  | logRead (stack i : Nat)
  /-- a burst pair of a directory set returns to its bank -/
  | dirData (stack la : Nat)
  /-- the scrub writes a unit back, corrected: stack, pseudo-channel, area, address (R146) -/
  | scrubWrite (stack pc area addr : Nat)
  /-- a line read from a stack returns to its home bank -/
  | hbmData (stack la : Nat)
  /-- a directory entry is written to a stack: its 16 bytes (R81) -/
  | dirWrite (stack : Nat) (b : List Byte)
  /-- a hamper message leaves for a module (R128): TYPE, message, and its bytes -/
  | hmsg (dst type : Nat) (m : HMsg) (b : List Byte)
  /-- a commit-log record is written at a ring index: the record and its bytes (R121) -/
  | logWrite (idx : Nat) (r : LogRec) (b : List Byte)
  /-- the record's copy is written to the mirror stack (R145, R152) -/
  | logMirror (idx : Nat) (b : List Byte)
  /-- a message leaves through an egress port: on a CXL port with the destination ID, the logical device and the source ID
  that the tile writes (R44); or it is delivered at a station -/
  | sent (port : Nat) (m : TMsg) (ids : Option (Nat × Nat × Nat))
  | delivered (station : Nat) (m : TMsg)
  /-- an error completion (R41, R58, R150, R161) for a message: 0 route miss, 1 policed, 2 timeout, 3 decode; and its form -/
  | errDone (m : NetMsg) (why : Nat) (form : HRsp)
  /-- an engine writes bytes of one line: instance, SPACE, address -/
  | engWrite (inst space addr : Nat) (b : List Byte)
  /-- an engine reads bytes of one line: instance, SPACE, address, length, class of pooled traffic -/
  | engRead (inst space addr len cls : Nat)
  /-- an engine's request toward a remote home (R185, R229): instance, home, TAG, class; HEV, RIGHTS, SLICE, LINE_OFF, MASK, data -/
  | engCreq (inst dst tag cls hev rights slice off mask : Nat) (data : List Byte)
  /-- an engine asks its host to translate a 4 KiB page (R177) -/
  | atsRequest (inst page : Nat)
  /-- the write-back of an entry, one masked write of bytes 2-3 and 8-15 of its unit 0 (R182) -/
  | engStatus (inst space addr : Nat) (b2 b8 : List Byte)
  /-- vector VEC of the bound host's vCS upstream port function -/
  | insIrq (inst vec : Nat)
  /-- an instance-window read completes -/
  | insRead (inst off : Nat) (data : List Byte)
  /-- an ATS invalidation completes -/
  | atsDone (inst : Nat)
  /-- a message enters a link's byte stream: port, class, bytes after the header, SHN -/
  | linkTx (port cls bytes shn : Nat)
  /-- a control flit: port, CTYPE, payload values in their order (R231) -/
  | ctlFlit (port ctype : Nat) (vals : List Nat)
  /-- unacknowledged flits are sent again: port, first SEQ, number of them -/
  | replay (port seq n : Nat)
  /-- an IDLE flit whose header answers: ACK_SEQ and NAK -/
  | ackNak (port seq : Nat) (nak : Bool)
  /-- a codeword: port, PERIOD, CW_INDEX, its five flits, the PAM4 symbols of each logical lane, and of the spare where it mirrors
  one (R222-R224, R243) -/
  | codeword (port period index : Nat) (flits : List (List Byte)) (lanes : List (List Nat))
  /-- the marker blocks that end a period: port, PERIOD, the symbols of each lane (R225) -/
  | markers (port period : Nat) (lanes : List (List Nat))
  /-- a host's back-invalidate for a remote home: host, kind, host address (R230) -/
  | hostSnoop (fid kind addr : Nat)
  /-- a whole message leaves the receive pool's reassembly -/
  | linkMsg (port : Nat) (bytes : List Byte)
  /-- a link message of a station toward a requester or a home: destination, MTYPE, tag, values, data -/
  | fabMsg (stn dst mtype tag : Nat) (vals : List Nat) (data : Option Line)
  /-- the reply to an FM API command: requester, opcode, return code, values (R269) -/
  | fmReply (src : Src) (opcode : Nat) (rc : FmRc) (vals : List Nat)
  /-- an FM API command is passed to what is behind a port: opcode, port, LD, bytes (R269) -/
  | fmForward (opcode port ld : Nat) (b : List Byte)
  /-- a vector of a vCS's upstream port function that waited for its mask: vCS, vector (R266) -/
  | hostIrq (vcs vec : Nat)
  /-- an access to BAR0 reaches the hamper port or the instance window: vCS, offset, bytes (R266) -/
  | barAccess (vcs off : Nat) (m : NetMsg)
  /-- a read of BAR0 or of a vPPB completes: requester's port, its number, data -/
  | barRead (port id : Nat) (data : List Byte)
  /-- AER reports an error to the host of a vCS: port (R264, R269) -/
  | aer (port : Nat)
  /-- a vPPB shows surprise removal to its host: vCS * 16 + vPPB (R273) -/
  | vppbSurprise (key : Nat)
  /-- PERST# of a port -/
  | perst (port : Nat) (on : Bool)
  /-- a unit of a dump is written: DEST, port, address, bytes (R380) -/
  | dumpUnit (dest port addr : Nat) (b : List Byte)
  /-- a latency record is written (R383) -/
  | latRecord (dest port addr : Nat) (b : List Byte)
  /-- a training block: port, lane, taps PRE, main, POST; its symbols (R278, R281) -/
  | lnTrain (port lane pre main post : Nat) (symbols : List Nat)
  /-- a lane's generator starts, or its control changes: port, lane, RATE, bits between injected errors; the symbols of the first
  1,024 bits (R290, R291) -/
  | lnGen (port lane rate : Nat) (every : Option Nat) (symbols : List Nat)
  /-- the monitor slicer is placed: port, lane, horizontal and vertical steps, UI (R292) -/
  | lnMonitor (port lane : Nat) (x y : Int) (ui : Nat)
  /-- an error is injected into the next symbol of a lane's generator -/
  | lnInject (port lane : Nat)
  /-- a PCIe margining command is served, or answered not ready -/
  | lnMargin (port lane : Nat) (ready : Bool)
deriving DecidableEq, Repr

/-- The whole machine. -/
structure State where
  /-- commands that wait, first in, first out -/
  pending : List Instr
  /-- what the block has sent outside: the model's own record -/
  out     : List Out
  /-- the register window: words that differ from their reset value -/
  regs    : Tab Word
  /-- how many free values have been drawn: the model's own field -/
  free    : Nat
  tick    : TickS
  ev      : EvS
  nalug   : NalugS
  mgmt    : MgmtS
  clk     : ClkS
  tel     : TelS
  bind : BindS
  home : HomeS
  hmp : HmpS
  hbm : HbmS
  qos : QosS
  eng : EngS
  lnk : FabS
  cxl : CxlS
  lane : LaneT
  pwr : PwrS
deriving DecidableEq, Repr

/-- The firmware copy a module ships with (R433): valid; its version, SVN and size are the model's choice. -/
def FwCopy.shipped : FwCopy :=
  { started := true, hdrOk := true, version := 1, svn := 0, keyId := 0, bodySize := 1,
    digestOk := true, keyOk := true, sigOk := true, readOk := true, commit := some 1 }

/-- The machine right after reset: every field at the value the spec states, or at the value the log names. -/
def State.reset : State :=
  { pending := [], out := [], regs := [], free := 0, tick := {}, ev := {}, nalug := {},
    mgmt := { fwA := FwCopy.shipped, fuses := [(0, 7), (1, 7)] }, clk := {}, tel := {}, bind := {}, home := {}, hmp := {}, hbm := {}, qos := {}, eng := {}, lnk := {}, cxl := {}, lane := {}, pwr := {} }

end Sys2Proof.Machine
end

