-- ==== Sys2Proof/Machine/Ops.lean ====
section
/-! DEFINITION. The named operations over tables, registers, events and the outside: every meaning is built of these. -/

namespace Sys2Proof.Machine

/-! ### Sparse tables -/

/-- The entry at a key, or the default. -/
def tget {α : Type} (d : α) : Tab α → Nat → α
  | [], _ => d
  | (j, v) :: r, k => if j = k then v else tget d r k

/-- An optional entry. -/
def tfind {α : Type} : Tab α → Nat → Option α
  | [], _ => none
  | (j, v) :: r, k => if j = k then some v else tfind r k

/-- Insert or replace an entry whatever its value. -/
def tins {α : Type} : Tab α → Nat → α → Tab α
  | [], k, v => [(k, v)]
  | (j, w) :: r, k, v =>
    if k < j then (k, v) :: (j, w) :: r else if k = j then (k, v) :: r else (j, w) :: tins r k v

/-- Remove an entry. -/
def tdel {α : Type} (t : Tab α) (k : Nat) : Tab α := t.filter (fun e => e.1 != k)

/-- Write an entry, keeping keys rising and defaults out. -/
def tput {α : Type} [DecidableEq α] (d : α) (t : Tab α) (k : Nat) (v : α) : Tab α :=
  if v = d then tdel t k else tins t k v

/-- Keys rise strictly from above `lo`. -/
def risesFrom {α : Type} : Option Nat → Tab α → Bool
  | _, [] => true
  | none, (k, _) :: r => risesFrom (some k) r
  | some lo, (k, _) :: r => decide (lo < k) && risesFrom (some k) r

/-- The canonical form of a table. -/
def tabWf {α : Type} (t : Tab α) : Bool := risesFrom none t

/-! ### Bits and bytes -/

/-- Bits lo + n - 1 down to lo of a word. -/
def bits (w : Word) (lo n : Nat) : Nat := w.toNat / 2 ^ lo % 2 ^ n

/-- The word with bits lo + n - 1 down to lo replaced. -/
def putBits (w : Word) (lo n v : Nat) : Word :=
  BitVec.ofNat 32 (w.toNat - bits w lo n * 2 ^ lo + v % 2 ^ n * 2 ^ lo)

/-- Bit i of a number. -/
def nbit (v i : Nat) : Bool := v / 2 ^ i % 2 = 1

def b2n (b : Bool) : Nat := if b then 1 else 0

/-- Byte i of a list of bytes; 0 past its end. -/
def byteAt (b : List Byte) (i : Nat) : Nat := (b.getD i 0).toNat

/-- n bytes from i as a little-endian number (R8). -/
def leAt (b : List Byte) (i : Nat) : Nat → Nat
  | 0 => 0
  | n + 1 => byteAt b i + 256 * leAt b (i + 1) n

/-- A number as n bytes, little-endian (R8). -/
def toLe : Nat → Nat → List Byte
  | 0, _ => []
  | n + 1, v => BitVec.ofNat 8 v :: toLe n (v / 256)

/-- Round up to a multiple of 4 (R431). -/
def up4 (n : Nat) : Nat := (n + 3) / 4 * 4

/-- Round up a quotient. -/
def ceilDiv (a b : Nat) : Nat := if b = 0 then 0 else (a + b - 1) / b

/-- One bit step of the reflected CRC-32C with polynomial 0x1EDC_6F41 (R189). -/
def crcBit (c : Word) : Word := if c.toNat % 2 = 1 then (c >>> 1) ^^^ 0x82F63B78#32 else c >>> 1

def crcByte (c : Word) (b : Byte) : Word :=
  let x := c ^^^ b.setWidth 32
  crcBit (crcBit (crcBit (crcBit (crcBit (crcBit (crcBit (crcBit x)))))))

/-- CRC-32C over bytes with a seed (R189). -/
def crc32c (seed : Word) (b : List Byte) : Word :=
  (b.foldl crcByte (seed ^^^ 0xFFFFFFFF#32)) ^^^ 0xFFFFFFFF#32

/-- a is earlier than b modulo 2^48 (R21). -/
def tickEarlier (a b : Tick) : Bool :=
  let d := (b - a).toNat
  decide (1 ≤ d) && decide (d < 2 ^ 47)

/-- Ticks from a to b modulo 2^48. -/
def ticksSince (a b : Tick) : Nat := (b - a).toNat

/-- a is newer than b modulo 2^32 (R343, generations). -/
def newerGen (a b : Word) : Bool :=
  let d := (a - b).toNat
  decide (1 ≤ d) && decide (d < 2 ^ 31)

/-! ### Registers -/

/-- The decoder of R420: space, unit and offset in its block. -/
def locate (o : Nat) : Option (Space × Nat × Nat) :=
  if 0x4000000 ≤ o then none
  else if 0x2000000 ≤ o then
    let t := (o - 0x2000000) / 0x100000
    let r := o % 0x100000
    if 11 < t then none
    else if r < 0x80000 then some (.tile, t, r)
    else
      let p := t * 16 + (r - 0x80000) / 0x8000
      let q := r % 0x8000
      if 0x6000 ≤ q ∧ q < 0x6A00 then some (.lane, p * 5 + (q - 0x6000) / 0x200, q % 0x200)
      else some (.port, p, q)
  else if 0x1000000 ≤ o then
    if o < 0x1400000 then some (.page, (o - 0x1000000) / 0x1000, o % 0x1000) else none
  else some (.glob, 0, o)

/-- The row covers the offset of its space. -/
def RegRow.covers (r : RegRow) (q : Nat) : Bool :=
  decide (r.b ≤ q) && decide ((q - r.b) / r.st < r.n) && decide ((q - r.b) % r.st < 4 * r.w)

/-- The register row at an offset. -/
def findRow (o : Nat) : Option RegRow :=
  match locate o with
  | none => none
  | some (sp, _, q) => regRows.find? (fun r => decide (r.sp = sp) && r.covers q)

/-- The reset value of the word at an offset; PT_MODE.LINK is the port's own number (R275). -/
def regReset (o : Nat) : Word :=
  match locate o with
  | some (.port, p, 0) => BitVec.ofNat 32 (p * 2 ^ 16)
  | _ =>
    match findRow o with
    | some r => BitVec.ofNat 32 r.rst
    | none => 0

def State.reg (s : State) (o : Nat) : Word := tget (regReset o) s.regs o
def State.setReg (s : State) (o : Nat) (v : Word) : State := { s with regs := tput (regReset o) s.regs o v }
/-- A field of a register. -/
def State.fld (s : State) (o lo n : Nat) : Nat := bits (s.reg o) lo n
def State.setFld (s : State) (o lo n v : Nat) : State := s.setReg o (putBits (s.reg o) lo n v)
def State.bit (s : State) (o i : Nat) : Bool := s.fld o i 1 = 1
def State.setBit (s : State) (o i : Nat) (b : Bool) : State := s.setFld o i 1 (b2n b)
/-- A number written whole. -/
def State.setN (s : State) (o v : Nat) : State := s.setReg o (BitVec.ofNat 32 v)
def State.nreg (s : State) (o : Nat) : Nat := (s.reg o).toNat
/-- A 64-bit register. -/
def State.reg64 (s : State) (o : Nat) : Nat := (s.reg o).toNat + (s.reg (o + 4)).toNat * 2 ^ 32
def State.set64 (s : State) (o v : Nat) : State := (s.setN o v).setN (o + 4) (v / 2 ^ 32)

/-- Return registers to their reset values. -/
def State.clearRegs (s : State) (p : Nat → Bool) : State := { s with regs := s.regs.filter (fun e => !p e.1) }

/-- Add to a 32-bit RC counter, which saturates (R10, R386). -/
def State.cnt (s : State) (o : Nat) (k : Nat := 1) : State :=
  s.setN o (min ((s.reg o).toNat + k) (2 ^ 32 - 1))

/-! ### The outside -/

def State.emit (s : State) (m : Out) : State := { s with out := s.out ++ [m] }

/-- Draw a free value. -/
def State.draw (s : State) : Nat × State := (Config.free s.free, { s with free := s.free + 1 })

/-- A station or a port has accepted a message of foreground work in this tick (R385). -/
def State.markBusy (s : State) : State := { s with tel := { s.tel with busy := true } }

/-! ### Events (R336, R384, R432) -/

def State.locked (s : State) : Bool := s.bit glbTickStatus 31

/-- The blocks outside CK_CORE that raise events (R13, R389): management and telemetry, the HBM, the keeper, and what the tiles clock. -/
def otherClock (code : Nat) : Bool := [0x02, 0x07, 0x09, 0x0A, 0x0B, 0x0C, 0x0D].contains (code / 256)

/-- The tick values that an event carries: those of the core, or, from another domain, those that its crossing has delivered (R27). -/
def State.evTicks (s : State) (code : Nat) : Tick × Tick :=
  if otherClock code && Config.crossLag s.ev.seq then (s.tick.locWas, s.tick.fabWas) else (s.tick.loc, s.tick.fab)

/-- Raise an event: it takes the next sequence number and enters the FIFO of 512, or overflows (R336). -/
def State.raise (s : State) (code : Nat) (vals : List EvVal) : State :=
  let at0 := s.evTicks code
  let r : EvRec := ⟨code, s.locked, s.ev.seq, s.mgmt.bootCount, at0.1, at0.2, vals⟩
  let s1 := { s with ev := { s.ev with seq := s.ev.seq + 1 } }
  if s.ev.fifo.length < 512 then { s1 with ev := { s1.ev with fifo := s1.ev.fifo ++ [r] } }
  else s1.cnt glbEvFifoOvfCnt

/-- Raise an event at most once per unit in each window of 1,024 ticks (R432). -/
def State.raiseLim (s : State) (code unit : Nat) (vals : List EvVal) : State :=
  let key := code * 2 ^ 32 + unit
  let w := s.tick.loc.toNat / 1024 + 1
  if tget 0 s.ev.win key = w then s
  else ({ s with ev := { s.ev with win := tput 0 s.ev.win key w } }).raise code vals

/-- Hold an event until the next management activity. -/
def State.raiseLate (s : State) (code : Nat) (vals : List EvVal) : State :=
  { s with ev := { s.ev with late := s.ev.late ++ [(code, vals)] } }

/-- Raise the held events. -/
def State.raiseHeld (s : State) : State :=
  s.ev.late.foldl (fun t e => t.raise e.1 e.2) { s with ev := { s.ev with late := [] } }

/-- Add to a 64-bit counter, which saturates; the first saturation raises EV_CNT_SATURATED (R386). -/
def State.cnt64 (s : State) (o : Nat) (k : Nat := 1) : State :=
  let v := s.reg64 o
  let w := min (v + k) (2 ^ 64 - 1)
  let t := s.set64 o w
  if w = 2 ^ 64 - 1 ∧ v ≠ 2 ^ 64 - 1 then t.raise 0x0909 [.q o] else t

/-- Repeat an action over a list. -/
def State.each {α : Type} (s : State) (l : List α) (f : α → State → State) : State := l.foldl (fun t a => f a t) s

/-! ### Units: presence and retirement (R4-R6, R33, R426, R427) -/

/-- Word offset within a set, and bit, of a unit of a kind (R315 kinds). -/
def unitBit (kind i : Nat) : Option (Nat × Nat) :=
  match kind with
  | 1 => some (0xC, 16 + i)
  | 2 => some (0x10 + 4 * (i / 32), i % 32)
  | 3 => some (0x40 + 0x10 * (i / 80) + 4 * (i % 80 / 32), i % 80 % 32)
  | 4 => some (8, 16 + i)
  | 5 => some (8, i)
  | 6 => some (4 * (i / 32), i % 32)
  | 8 => some (0xC, 8 + i)
  | 11 => some (0xC, i)
  | _ => none

/-- A bit of one of the four sets at a base. -/
def State.setBitAt (s : State) (base kind i : Nat) : Bool :=
  match unitBit kind i with
  | some (o, b) => s.bit (base + o) b
  | none => false

/-- In the capability map and neither retired nor disabled. -/
def State.unitIn (s : State) (kind i : Nat) : Bool :=
  s.setBitAt 0x100 kind i && !s.setBitAt 0x200 kind i && !s.setBitAt 0x300 kind i

/-- Presence (R427): ports and lanes of an absent tile are absent; a cluster is present while one engine of it is. -/
def State.present (s : State) (kind i : Nat) : Bool :=
  match kind with
  | 0 => true
  | 2 => s.unitIn 2 i && s.unitIn 1 (i / 16)
  | 3 => s.unitIn 3 i && s.unitIn 1 (i / 80)
  | 7 => (List.range 16).any (fun k => s.unitIn 6 (16 * i + k))
  | 9 => true
  | 10 => s.bit (pwrStgStatus i) 30
  | k => s.unitIn k i

/-- The present set's word at an offset within the set (R427). -/
def State.presentWord (s : State) (o : Nat) : Word :=
  let m := s.reg (0x100 + o) &&& ~~~ s.reg (0x200 + o) &&& ~~~ s.reg (0x300 + o)
  if 0x10 ≤ o ∧ o < 0x28 then
    let lo := (o - 0x10) / 4 * 2
    let k := fun t => if s.unitIn 1 t then 0xFFFF else 0
    m &&& BitVec.ofNat 32 (k lo + k (lo + 1) * 65536)
  else if 0x40 ≤ o ∧ o < 0x100 then (if s.unitIn 1 ((o - 0x40) / 16) then m else 0)
  else m

/-- The minimum service set of R33, of the units that can go absent. -/
def State.minimumMet (s : State) : Bool :=
  (List.range 2).any (s.present 11) && (List.range 16).any (s.present 4) && (List.range 16).any (s.present 5) &&
  (List.range 192).any (s.present 2)

/-- Set BELOW_MINIMUM when the set is not met (R33). -/
def State.checkMinimum (s : State) : State :=
  if s.minimumMet || s.bit glbTickStatus 29 then s
  else (s.setBit glbTickStatus 29 true).raise 0x0124 []

/-- Set a retirement bit. -/
def State.setRetired (s : State) (kind i : Nat) : State :=
  match unitBit kind i with
  | some (o, b) => s.setBit (0x200 + o) b true
  | none => s

/-- Retire a unit (R6): its bit, then EV_UNIT_RETIRED; a cluster sets its 16 engines' bits and raises one event. -/
def State.retireUnit (s : State) (kind i : Nat) : State :=
  let s1 := if kind = 7 then s.each (List.range 16) (fun k t => t.setRetired 6 (16 * i + k)) else s.setRetired kind i
  (s1.raise 0x0102 [.w (kind * 2 ^ 28 + i)]).checkMinimum

/-- A command that writes a register of a unit that is not present is discarded, with its event (R4). -/
def State.ifPresent (s : State) (kind i off : Nat) (act : State → Host.Outcome State Fault Refusal) : Host.Outcome State Fault Refusal :=
  if s.present kind i then act s else .next (s.raise 0x0101 [.w off])

end Sys2Proof.Machine
end

