-- ==== Sys2Proof/Machine/Nalug.lean ====
section
/-! DEFINITION. The Nalug request path (R312-R328): checks, locks, replies, journal records and step slots, which every
OP_ command shares. -/

namespace Sys2Proof.Machine

/-! ### Status codes (R324) -/

def stOk := 0x00
def stInProgress := 0x01
def stBadOpcode := 0x02
def stBadLength := 0x03
def stBadParam := 0x04
def stDenied := 0x05
def stBusy := 0x06
def stLocked := 0x07
def stLockBroken := 0x08
def stBadToken := 0x09
def stUnitAbsent := 0x0A
def stPortBusy := 0x0B
def stIdInUse := 0x0C
def stRange := 0x0D
def stBridgeError := 0x0E
def stBridgeTimeout := 0x0F
def stBridgeBusy := 0x10
def stNotReady := 0x11
def stInternal := 0x12
def stSliceState := 0x20
def stSliceBusy := 0x21
def stSliceShared := 0x22
def stDomainState := 0x23
def stMapFull := 0x24
def stVcsBusy := 0x25
def stNotInDomain := 0x26
def stSigInvalid := 0x30
def stImageInvalid := 0x31
def stLifecycleState := 0x32
def stRollback := 0x33
def stDebugLocked := 0x34

/-! ### Locks (R325-R328) -/

/-- An object that a command names (R327). -/
inductive Obj where
  | module
  | slice (n : Nat)
  | dom (n : Nat)
  | vcs (n : Nat)
  | inst (n : Nat)
  | port (n : Nat)
  | page (n : Nat)
deriving DecidableEq, Repr

/-- The scope kind and index of an object (R325). -/
def Obj.scope : Obj → Nat × Nat
  | .module => (0, 0)
  | .slice n => (1, n)
  | .dom n => (2, n)
  | .vcs n => (3, n)
  | .inst n => (4, n)
  | .port n => (5, n)
  | .page n => (6, n)

/-- The lock's scope covers the object (R325): kind 0 covers every object. -/
def Lock.covers (l : Lock) (o : Obj) : Bool :=
  decide (l.kind = 0) ||
    (decide (o.scope.1 ≠ 0) && decide (l.kind = o.scope.1) && decide (l.first ≤ o.scope.2) && decide (o.scope.2 ≤ l.last))

/-- Two scopes overlap (R326). -/
def scopesOverlap (k1 f1 l1 k2 f2 l2 : Nat) : Bool :=
  decide (k1 = 0) || decide (k2 = 0) || (decide (k1 = k2) && decide (f1 ≤ l2) && decide (f2 ≤ l1))

def State.lockAt (s : State) (n : Nat) : Lock := tget {} s.nalug.locks n
def State.setLock (s : State) (n : Nat) (l : Lock) : State :=
  { s with nalug := { s.nalug with locks := tput {} s.nalug.locks n l } }

def srcWord (x : Src) : Nat := x.path.toNat * 2 ^ 28 + x.port.toNat * 2 ^ 16 + x.eid.toNat

/-- A break (R326): FREE, GEN + 1, BROKEN, EV_LOCK_BROKEN with n, old owner and new GEN. -/
def State.breakLock (s : State) (n : Nat) : State :=
  let l := s.lockAt n
  if l.held then
    ((s.setLock n { l with held := false, broken := true, gen := l.gen + 1, moves := l.moves + 1 }).cnt glbLockBreakCnt).raise 0x0130
      [.w n, .w (srcWord l.owner), .w (l.gen + 1).toNat]
  else s

/-- Break every lock whose owner meets a test (R328). -/
def State.breakLocksOf (s : State) (p : Src → Bool) : State :=
  s.each (List.range 64) (fun n t => if (t.lockAt n).held && p (t.lockAt n).owner then t.breakLock n else t)

/-- A path resets (R316, R328): its locks break and its kept replies go. -/
def State.resetPath (s : State) (p : Src → Bool) : State :=
  let s1 := s.breakLocksOf p
  { s1 with nalug := { s1.nalug with kept := s1.nalug.kept.filter (fun k => !p k.src) } }

/-- The opcodes that are not state-changing (R327). -/
def readsOnly (code : Nat) : Bool :=
  [0x0101, 0x0102, 0x0108, 0x0109, 0x010A, 0x010B, 0x010C, 0x010D, 0x010E, 0x0203, 0x0A02, 0x0A04].contains code

/-- The lock check of R327: none when the command proceeds. -/
def State.lockCheck (s : State) (q : Req) (objs : List Obj) : Option Nat :=
  let l := s.lockAt q.lock.toNat
  if q.lockV && !(l.held && decide (l.owner = q.src) && decide (l.gen = q.gen)) then some stLockBroken
  else if (List.range 64).any (fun n =>
      let k := s.lockAt n
      k.held && decide (k.owner ≠ q.src) && objs.any k.covers) then some stLocked
  else none

/-! ### Journal (R361) -/

/-- Records of a chain with a payload of L bytes. -/
def chainLen (L : Nat) : Nat := 1 + ceilDiv (L - 36) 36

/-- The read-only opcodes that are not journaled (R361). -/
def journaled (code : Nat) : Bool := !([0x0101, 0x0102, 0x010A, 0x010B, 0x0203] : List Nat).contains code

/-- MGT_JRNL_FREE: records not held since JSEQ_AT of the last complete checkpoint. -/
def State.jrnlFree (s : State) : Nat :=
  let a := s.mgmt.buf0
  let b := s.mgmt.buf1
  let at0 : Word :=
    if a.complete && (!b.complete || newerGen a.gen b.gen) then a.jseqAt
    else if b.complete then b.jseqAt else 0
  32768 - (s.mgmt.jseq - at0).toNat

/-- Write a chain of n records, the first of them as given. -/
def State.journal (s : State) (r : JRec) (n : Nat) : State :=
  { s with mgmt := { s.mgmt with
      jrnl := s.mgmt.jrnl ++ [{ r with jseq := s.mgmt.jseq }], jseq := s.mgmt.jseq + BitVec.ofNat 32 n } }

def State.journalBegin (s : State) (code : Nat) (q : Req) (body : List Byte) : State :=
  if journaled code then
    let len := body.length + Config.recordedBytes code
    s.journal ⟨1, 0, code, 0, q.src, q.seq, 0, len, body⟩ (chainLen len)
  else s

def State.journalDone (s : State) (code : Nat) (src : Src) (seq : BitVec 16) (status : Nat) (body : List Byte) : State :=
  if journaled code then s.journal ⟨3, status, code, 0, src, seq, 0, body.length, body⟩ (chainLen body.length) else s

/-! ### Replies (R316) -/

/-- Keep a reply: the last 8 of the source. -/
def State.keepReply (s : State) (k : Kept) : State :=
  let mine := s.nalug.kept.filter (fun x => decide (x.src = k.src))
  let rest := s.nalug.kept.filter (fun x => decide (x.src ≠ k.src))
  let mine8 := (mine ++ [k]).drop (mine.length + 1 - 8)
  { s with nalug := { s.nalug with kept := rest ++ mine8 } }

/-- The running copy. -/
def State.runningCopy (s : State) : FwCopy := if s.bit mgtStatus 21 then s.mgmt.fwB else s.mgmt.fwA

/-- The firmware's first Nalug answer disarms the watchdog, raises EV_FW_BOOTED and burns SVN bits (R344, R349). -/
def State.firstAnswer (s : State) : State :=
  if s.mgmt.watchdog && !s.mgmt.inRecovery then
    let c := s.runningCopy
    let svn := max s.mgmt.svnMin c.svn
    let s1 := { s with mgmt := { s.mgmt with watchdog := false, booted := true, svnMin := svn } }
    (s1.setN mgtSvnMin svn).raise 0x0201
      [.w (s.fld mgtStatus 21 1), .w ((c.commit.getD 0).toNat), .w c.version, .w (s.fld mgtStatus 19 1)]
  else s

/-- Answer a request: the reply leaves, is kept, and may be the firmware's first (R316, R344). -/
def State.answer (s : State) (code : Nat) (q : Req) (status : Nat) (body : List Byte) : State :=
  ((s.emit (.reply q code status body)).keepReply ⟨q.src, q.seq, code, status, body, journaled code⟩).firstAnswer

/-- Units of a target kind (R315). -/
def kindCount : Nat → Nat
  | 0 => 1
  | 1 => 12
  | 2 => 192
  | 3 => 960
  | 4 => 16
  | 5 => 16
  | 6 => 64
  | 7 => 4
  | 8 => 4
  | 9 => 1024
  | 10 => 21
  | 11 => 2
  | _ => 0

/-- Management-only operation (R318), recovery (R346) and RETIRED (R344): the opcodes that are served. -/
def State.served (s : State) (code : Nat) : Bool :=
  if s.mgmt.stopped then decide (code = 0x0101)
  else if s.mgmt.inRecovery then [0x0101, 0x0201, 0x0202, 0x010B].contains code
  else if s.bit glbTickStatus 29 || s.bit mgtStatus 29 then
    (decide (0x0100 ≤ code) && decide (code ≤ 0x02FF)) || (decide (0x0A02 ≤ code) && decide (code ≤ 0x0A04))
  else true

/-- What an OP_ row says of its packet: accepted target kinds, its length and fields checked, the units and objects it names. -/
structure OpForm where
  kinds : List Nat := [0]
  lenOk : Bool
  badParam : Bool := false
  units : List (Nat × Nat) := []
  objs  : List Obj := []

/-- The ports that a target names (R327). -/
def targetPorts (kind i : Nat) : List Obj :=
  match kind with
  | 1 => (List.range 16).map (fun k => .port (16 * i + k))
  | 2 => [.port i]
  | 3 => [.port (i / 5)]
  | 9 => [.inst i]
  | _ => []

/-- The first failure of R319, if any: status and whether MGT_NALUG_BAD_CNT counts it. -/
def State.opCheck (s : State) (code : Nat) (q : Req) (f : OpForm) : Option (Nat × Bool) :=
  let k := q.kind.toNat
  let i := q.index.toNat
  if !f.lenOk then some (stBadLength, true)
  else if q.rsvd || !f.kinds.contains k || decide (kindCount k ≤ i) || f.badParam then some (stBadParam, true)
  else if !s.present k i || f.units.any (fun u => !s.present u.1 u.2) then some (stUnitAbsent, false)
  else if readsOnly code then none
  else (s.lockCheck q (.module :: targetPorts k i ++ f.objs)).map (fun st => (st, false))

/-- The accepted requests that are this one. -/
def reqIsIn (q : Req) (m : Src × List Byte × Tick) : Bool := decide (m.1 = q.src) && decide (leAt m.2.1 4 2 = q.seq.toNat)

/-- Take a request out of the accepted ones; its stamp stays for the command (R25). -/
def State.takeInbox (s : State) (q : Req) : State :=
  let at0 := match s.nalug.inbox.find? (reqIsIn q) with | some m => m.2.2 | none => s.tick.loc
  { s with nalug := { s.nalug with inbox := s.nalug.inbox.filter (fun m => !reqIsIn q m), reqAt := at0 } }

/-- The bytes of a request (R315). -/
def reqBytes (q : Req) (code : Nat) (body : List Byte) : List Byte :=
  toLe 2 code ++ [0, 0] ++ toLe 2 q.seq.toNat ++ toLe 2 body.length ++ toLe 4 (q.kind.toNat * 2 ^ 28 + q.index.toNat) ++
  [BitVec.ofNat 8 (b2n q.lockV * 128 + q.lock.toNat), 0] ++ toLe 2 q.gen.toNat ++ body

/-- A request waits to be served. -/
def State.keepRequest (s : State) (code : Nat) (q : Req) (body : List Byte) : State :=
  if s.nalug.inbox.any (reqIsIn q) then s
  else { s with nalug := { s.nalug with inbox := s.nalug.inbox ++ [(q.src, reqBytes q code body, s.tick.loc)] } }

/-- No new command starts while fewer than 256 journal records are free: the request waits, and the stall is counted (R361). -/
def State.jrnlWait (s : State) (code : Nat) (q : Req) (body : List Byte) : State :=
  (s.cnt mgtJrnlStallCnt).keepRequest code q body

/-- OP_MC_SWITCH runs: the active core has stopped accepting commands (R363). -/
def State.switching (s : State) : Bool :=
  s.nalug.steps.any (fun e => decide (e.2.state = 1) && (match e.2.job with | .mcSwitch => true | _ => false))

/-- A request that came over CXL.io is not served below the minimum service set, where management answers over the sideband alone (R33),
nor where the port is no upstream link in L0 with the management function (R268). -/
def State.pathShut (s : State) (x : Src) : Bool :=
  let p := x.port.toNat
  decide (x.path = 3) && (s.bit glbTickStatus 29 || !(decide (s.fld (ptMode p) 30 2 = 1) && s.bit (ptCxCtl p) 30 && decide (s.fld (ptCxStatus p) 29 3 = 2)))

/-- Run one Nalug command (R316-R319, R361). `act` gives the next state and the reply, or none when the reply waits. -/
def State.nalug_run (s : State) (code : Nat) (q : Req) (body : List Byte) (f : OpForm)
    (act : State → State × Option (Nat × List Byte)) : State :=
  if s.clk.mgmtLost then s
  else if s.switching then s.keepRequest code q body
  else if s.pathShut q.src then s
  else
  let s0 := s
  let s := s.takeInbox q
  match s.nalug.kept.find? (fun k => decide (k.src = q.src) && decide (k.seq = q.seq)) with
  | some k => s.emit (.reply q k.opcode k.status k.body)
  | none =>
    if !s.served code then s.answer code q stNotReady []
    else match s.opCheck code q f with
    | some (st, cnt) => (if cnt then s.cnt mgtNalugBadCnt else s).answer code q st []
    | none =>
      if journaled code && decide (s.jrnlFree < 256) then s0.jrnlWait code q body
      else
        match act (s.journalBegin code q body) with
        | (t, none) => t.cnt64 mgtNalugCmdCnt
        | (t, some (st, b)) =>
          let t1 := t.cnt64 mgtNalugCmdCnt
          (if st = stInProgress then t1 else t1.journalDone code q.src q.seq st b).answer code q st b

/-! ### Step slots (R320-R322) -/

def State.slot (s : State) (k : Nat) : StepSlot := tget {} s.nalug.steps k
def State.setSlot (s : State) (k : Nat) (x : StepSlot) : State :=
  { s with nalug := { s.nalug with steps := tput {} s.nalug.steps k x } }

/-- The step token (R321). -/
def stepToken (k : Nat) (x : StepSlot) : Nat := x.opcode * 2 ^ 48 + x.use % 2 ^ 24 * 2 ^ 8 + k

/-- A slot for a new stepped command: the lowest free one, else the finished one that finished first (R321). -/
def State.pickSlot (s : State) : Option Nat :=
  match (List.range 32).find? (fun k => (s.slot k).state = 0) with
  | some k => some k
  | none =>
    let done := (List.range 32).filter (fun k => (s.slot k).state = 3)
    done.find? (fun k => done.all (fun j => decide ((s.slot k).fin ≤ (s.slot j).fin)))

/-- Begin a stepped command: ST_IN_PROGRESS with its token, or ST_BUSY (R320). -/
def State.stepStart (s : State) (code : Nat) (q : Req) (job : StepJob) (total phase : Nat) : State × Option (Nat × List Byte) :=
  match s.pickSlot with
  | none => (s.cnt mgtNalugBusyCnt, some (stBusy, []))
  | some k =>
    let x : StepSlot := { state := 1, opcode := code, use := (s.slot k).use + 1, total := total, job := job, phase := phase,
                          src := q.src, seq := q.seq, at0 := s.nalug.reqAt }
    (s.setSlot k x, some (stInProgress, toLe 8 (stepToken k x)))

/-- A stepped command reaches its final status: held in the slot, journaled, EV_STEP_DONE (R320). -/
def State.stepFinish (s : State) (k : Nat) (status : Nat) (body : List Byte) : State :=
  let x := s.slot k
  let s1 := s.setSlot k { x with state := 3, status := status, reply := body, job := .none, fin := s.nalug.finNext,
                                  done := x.done + 1 }
  let s2 := { s1 with nalug := { s1.nalug with finNext := s.nalug.finNext + 1 } }
  (s2.journalDone x.opcode x.src x.seq status body).raise 0x0210 [.q (stepToken k x), .w status]

/-- A firmware fault ends a stepped command: ST_INTERNAL and EV_MGT_INTERNAL with the opcode and a fault code (R369). -/
def State.stepInternal (s : State) (k : Nat) : State :=
  let (v, s1) := s.draw
  (s1.raise 0x020C [.w (s.slot k).opcode, .w v]).stepFinish k stInternal []

/-- One step done: progress and a STEP record (R361). -/
def State.stepNext (s : State) (k : Nat) (phase : Nat) : State :=
  let x := s.slot k
  (s.setSlot k { x with done := x.done + 1, phase := phase }).journal
    ⟨2, 0, x.opcode, 0, x.src, x.seq, k, x.done + 1, []⟩ 1

/-- Stay in a phase without a step completed. -/
def State.stepPhase (s : State) (k : Nat) (phase : Nat) : State := s.setSlot k { s.slot k with phase := phase }

/-- An active or suspended slot holds this job. -/
def State.jobSlot (s : State) (p : StepJob → Bool) : Option Nat :=
  (List.range 32).find? (fun k => ((s.slot k).state = 1 || (s.slot k).state = 2) && p (s.slot k).job)

/-- The management subset that is not in service answers nothing: the event log is in HBM (R145, R35). -/
def State.logOn (s : State) : Bool := (List.range 4).any (s.present 8)

/-- The reply of a fault-free command with no body. -/
def ok (s : State) : State × Option (Nat × List Byte) := (s, some (stOk, []))
/-- A refusal that changes nothing. -/
def refuse (s : State) (st : Nat) : State × Option (Nat × List Byte) := (s, some (st, []))

end Sys2Proof.Machine
end

