-- ==== Sys2Proof/Machine/Pmc.lean ====
section
/-! DEFINITION. Counting by the performance counters (R376) and the bandwidth windows (R378). -/

namespace Sys2Proof.Machine

/-- The attributes that a counted occurrence carries (R376). -/
structure PmcAttr where
  cls   : Option Nat := none
  prv   : Option Nat := none
  fid   : Option Nat := none
  slice : Option Nat := none

/-- The filter columns of an event (R376): class, privilege, requester, address; none outside the table. -/
def pmcCarries (global : Bool) (ev : Nat) : Option (Bool × Bool × Bool × Bool) :=
  if global then
    match ev with
    | 0x01 | 0x04 | 0x05 => some (true, true, true, true)
    | 0x02 => some (false, false, true, true)
    | 0x03 => some (true, false, false, true)
    | 0x06 | 0x08 => some (false, false, false, true)
    | 0x07 | 0x09 | 0x0A | 0x0F => some (false, false, false, false)
    | 0x0B | 0x0C => some (true, false, false, false)
    | 0x0D | 0x0E => some (false, true, true, false)
    | _ => none
  else
    match ev with
    | 0x01 | 0x02 => some (true, true, true, false)
    | 0x03 | 0x04 | 0x08 | 0x0A => some (true, false, false, false)
    | 0x05 | 0x06 | 0x07 => some (true, false, true, false)
    | 0x09 | 0x0B => some (false, false, false, false)
    | _ => none

/-- CFG_ERR: the event is outside the table, or an enabled filter is one that it does not carry (R376). -/
def pmcErr (global : Bool) (cfg mt : Word) : Bool :=
  match pmcCarries global (bits cfg 16 8) with
  | none => true
  | some (c, p, m, a) =>
    (!c && decide (bits cfg 8 8 ≠ 255)) || (!p && decide (bits cfg 4 4 ≠ 15)) || (!m && decide (bits mt 31 1 = 1)) ||
    (!a && global && decide (bits cfg 3 1 = 1))

/-- The counter counts this event of this unit. -/
def pmcCounts (cfg : Word) (ev unit : Nat) : Bool :=
  decide (bits cfg 31 1 = 1) && decide (bits cfg 30 1 = 0) && decide (bits cfg 16 8 = ev) &&
  (decide (bits cfg 24 6 = 63) || decide (bits cfg 24 6 = unit))

/-- The occurrence passes every enabled filter of the counter whose CFG lies at an offset. -/
def State.pmcPass (s : State) (global : Bool) (o : Nat) (cfg : Word) (a : PmcAttr) : Bool :=
  let mt := s.reg (o + 4)
  let mk := s.nreg (o + 8) % 2 ^ 18
  let r := 0x702000 + 8 * bits cfg 0 3
  (match a.cls with | some c => nbit (bits cfg 8 8) c | none => true) &&
  (match a.prv with | some p => nbit (bits cfg 4 4) p | none => true) &&
  (decide (bits mt 31 1 = 0) || (match a.fid with | some f => decide (f &&& mk = bits mt 0 18 &&& mk) | none => true)) &&
  (!global || decide (bits cfg 3 1 = 0) ||
    (match a.slice with | some n => decide (s.fld r 0 18 ≤ n) && decide (n ≤ s.fld (r + 4) 0 18) | none => true))

/-- Count in the counters of a bank of them: `lo` to `hi` are the offsets of their CFG words. Only a counter whose
CFG differs from its reset value is enabled, so the listed words are enough. -/
def State.pmcAdd (s : State) (global : Bool) (lo hi ev unit add : Nat) (a : PmcAttr) : State :=
  s.each (s.regs.filter (fun e => decide (lo ≤ e.1) && decide (e.1 < hi) && decide (e.1 % 0x20 = 0) && pmcCounts e.2 ev unit))
    (fun e t => if s.pmcPass global e.1 e.2 a then t.cnt64 (e.1 + 0x10) add else t)

/-- An event of the global counters. -/
def State.pmc (s : State) (ev unit add : Nat) (a : PmcAttr) : State := s.pmcAdd true 0x701000 0x702000 ev unit add a
/-- An event of a tile's counters; the unit is the local port. -/
def State.tpmc (s : State) (p ev add : Nat) (a : PmcAttr) : State :=
  let b := tlPmcCfg (p / 16) 0
  s.pmcAdd false b (b + 0x800) ev (p % 16) add a

/-- Lines or units are written to a stack, or read from it (R154). -/
def State.stkWrite (s : State) (h : Nat) (n : Nat := 1) : State := (s.cnt64 (hbmStkWriteCnt h) n).pmc 0x0A h (64 * n) {}
def State.stkRead (s : State) (h n : Nat) : State := (s.cnt64 (hbmStkReadCnt h) n).pmc 0x09 h (64 * n) {}

/-- A record of a 1 MiB unit of the log rings goes to the mirror too: when the mirror is valid, or the copy has passed the unit (R145,
R152). -/
def State.mirrored (s : State) (unit : Nat) : Bool :=
  s.bit hbmStatus 7 || (match s.hbm.mirror with | some n => decide (unit < n) | none => false)

/-- A record is written to the log stack and to its mirror (R145, R152); the commit log's units come first, then the event log's. -/
def State.logUnit (s : State) (unit : Nat) : State :=
  let s1 := s.stkWrite (s.fld hbmStatus 12 2)
  if s.mirrored unit then s1.stkWrite (s.fld hbmStatus 8 2) else s1

/-- Bytes on the wire of a port, in its running bandwidth window (R378): direction 0 sent, 1 received. -/
def State.bwAdd (s : State) (p dir n : Nat) : State :=
  { s with tel := { s.tel with bw := tput 0 s.tel.bw (p * 2 + dir) (tget 0 s.tel.bw (p * 2 + dir) + n) } }

end Sys2Proof.Machine
end

