-- ==== Sys2Proof/Machine/Mgmt.lean ====
section
/-! DEFINITION. Nalug management (chapter 13): MCTP reception, locks, step tokens, events, sideband paths. -/

namespace Sys2Proof.Machine

/-- A record enters the HBM event log, when the log is in service (R145, R336). -/
def State.evLogPut (s : State) (r : EvRec) : State :=
  if s.logOn then
    ({ s with ev := { s.ev with log := (s.ev.log ++ [r]).drop (s.ev.log.length + 1 - 2 ^ 20), logHead := s.ev.logHead + 1 } }).logUnit (512 + s.ev.logHead.toNat % 2 ^ 20 / 16384)
  else s

/-- The outcome of every meaning of the model. -/
abbrev Res := Host.Outcome State Fault Refusal

/-! ### MCTP (R312-R314) -/

/-- The opcodes of R323 that a request may carry. -/
def knownOpcodes : List Nat :=
  (List.range 14).map (· + 0x0101) ++ (List.range 8).map (· + 0x0201) ++ (List.range 14).map (· + 0x0301) ++
  (List.range 4).map (· + 0x0601) ++ (List.range 5).map (· + 0x0801) ++ (List.range 4).map (· + 0x0A01) ++ [0x0C01, 0x0C02]

/-- The header of a request's bytes (R315). -/
def parseReq (src : Src) (b : List Byte) : Req :=
  { src := src, seq := BitVec.ofNat 16 (leAt b 4 2), kind := BitVec.ofNat 4 (leAt b 8 4 / 2 ^ 28),
    index := BitVec.ofNat 28 (leAt b 8 4), lockV := nbit (byteAt b 12) 7, lock := BitVec.ofNat 6 (byteAt b 12),
    gen := BitVec.ofNat 16 (leAt b 14 2),
    rsvd := decide (byteAt b 2 % 64 ≠ 0) || decide (byteAt b 3 ≠ 0) || nbit (byteAt b 12) 6 || decide (byteAt b 13 ≠ 0) }

/-- A source's accepted commands that have no reply yet: waiting, or held by the bridge (R317). -/
def State.outstanding (s : State) (p : Src → Bool) : Nat :=
  (s.nalug.inbox.filter (fun m => p m.1)).length +
  ((s.nalug.br.toList ++ s.nalug.brWait).filter (fun t => match t.nalug with | some (q, _) => p q.src | none => false)).length

/-- A complete Nalug message reaches S52 (R316, R317, R319 step 1 and 2). What comes over a
path that is shut is not served (R33, R268). -/
def State.nalugAccept (s : State) (src : Src) (b : List Byte) : State :=
  if s.clk.mgmtLost || s.pathShut src || decide (b.length < 16) || nbit (byteAt b 2) 7 || nbit (byteAt b 2) 6 then s
  else
    let q := parseReq src b
    let code := leAt b 0 2
    match s.nalug.kept.find? (fun k => decide (k.src = src) && decide (k.seq = q.seq)) with
    | some k => s.emit (.reply q k.opcode k.status k.body)
    | none =>
      if s.nalug.inbox.any (fun m => decide (m.1 = src) && decide (leAt m.2.1 4 2 = q.seq.toNat)) ||
         (s.nalug.br.toList ++ s.nalug.brWait).any (fun t => match t.nalug with | some (r, _) => decide (r.src = src) && decide (r.seq = q.seq) | none => false)
      then s
      else if 8 ≤ s.outstanding (fun x => decide (x = src)) ∨ 64 ≤ s.outstanding (fun _ => true) then
        (s.cnt mgtNalugBusyCnt).answer code q stBusy []
      else if !s.served code then s.answer code q stNotReady []
      else if !knownOpcodes.contains code then (s.cnt mgtNalugBadCnt).answer code q stBadOpcode []
      else if leAt b 6 2 ≠ b.length - 16 then (s.cnt mgtNalugBadCnt).answer code q stBadLength []
      else { s with nalug := { s.nalug with inbox := s.nalug.inbox ++ [(src, b, s.tick.loc)] } }

/-- Same reassembly key (R313). -/
def Reasm.is (r : Reasm) (src : Src) (tag : BitVec 3) (owner : Bool) : Bool :=
  decide (r.src = src) && decide (r.tag = tag) && decide (r.owner = owner)

def State.dropReasm (s : State) (src : Src) (tag : BitVec 3) (owner : Bool) : State :=
  { s with nalug := { s.nalug with reasm := s.nalug.reasm.filter (fun r => !r.is src tag owner) } }

/-- A message's bytes are all there: type 0x7E without IC, the vendor ID, then the Nalug packet (R313). -/
def State.nalugMessage (s : State) (src : Src) (b : List Byte) : State :=
  if byteAt b 0 = 0x7E ∧ leAt b 1 2 = Config.vendorId.toNat then s.nalugAccept src (b.drop 3) else s

/-- Hold a first or later part of a message, or end it (R313). -/
def State.reassemble (s : State) (k : MctpPacket) (b : List Byte) : State :=
  let s1 := s.dropReasm k.src k.tag k.owner
  if b.length > 4096 + 3 then s1.cnt mgtNalugReasmErrCnt
  else if k.eom then s1.nalugMessage k.src b
  else
    let r : Reasm := ⟨k.src, k.tag, k.owner, k.pktSeq + 1, b⟩
    { s1 with nalug := { s1.nalug with reasm := s1.nalug.reasm ++ [r] } }

/-- NALUG_PACKET_RECEIVE (R313, R314, R316). -/
def execNalugPacketReceive (k : MctpPacket) (s : State) : Res :=
  if !k.pecOk then .next (s.cnt mgtNalugPecErrCnt)
  else
    let old := s.nalug.reasm.find? (fun r => r.is k.src k.tag k.owner)
    if k.som then
      let s1 := if old.isSome then (s.dropReasm k.src k.tag k.owner).cnt mgtNalugReasmErrCnt else s
      let onPath := s1.nalug.reasm.filter (fun r => decide (r.src.path = k.src.path) && decide (r.src.port = k.src.port))
      if !k.eom && decide (8 ≤ onPath.length) then .next (s1.cnt mgtNalugReasmErrCnt)
      else .next (s1.reassemble k k.payload)
    else
      match old with
      | none => .next s
      | some r =>
        if r.nextSeq ≠ k.pktSeq then .next ((s.dropReasm k.src k.tag k.owner).cnt mgtNalugReasmErrCnt)
        else .next (s.reassemble k (r.bytes ++ k.payload))

/-- MCTP_REASSEMBLY_TIMEOUT: 100 ms after its first packet a message is incomplete (R313). -/
def execMctpReassemblyTimeout (src : Src) (tag : BitVec 3) (owner : Bool) (s : State) : Res :=
  if s.nalug.reasm.any (fun r => r.is src tag owner) then
    .next ((s.dropReasm src tag owner).cnt mgtNalugReasmErrCnt)
  else .next s

/-- Key of a path's endpoint ID. -/
def pathKey (x : Src) : Nat := if x.path = 3 then 16 + x.port.toNat else x.path.toNat

/-- SET_ENDPOINT_ID (R312, R313). -/
def execSetEndpointId (src : Src) (eid : Byte) (s : State) : Res :=
  .next (({ s with nalug := { s.nalug with eids := tput 0 s.nalug.eids (pathKey src) eid.toNat } }).emit (.mctp src 1 [0, eid]))

/-- GET_ENDPOINT_ID (R313). -/
def execGetEndpointId (src : Src) (s : State) : Res :=
  .next (s.emit (.mctp src 2 [0, BitVec.ofNat 8 (tget 0 s.nalug.eids (pathKey src))]))

/-- GET_MCTP_VERSION_SUPPORT (R313). -/
def execGetMctpVersionSupport (src : Src) (s : State) : Res := .next (s.emit (.mctp src 4 Config.mctpVersions))

/-- GET_MESSAGE_TYPE_SUPPORT: Nalug's type and the FM API's (R313). -/
def execGetMessageTypeSupport (src : Src) (s : State) : Res :=
  .next (s.emit (.mctp src 5 [0, 2, 0x7E, Config.fmApiType]))

/-- GET_VENDOR_DEFINED_MESSAGE_SUPPORT: the PCI vendor ID of the management function (R313). -/
def execGetVendorDefinedMessageSupport (src : Src) (s : State) : Res :=
  .next (s.emit (.mctp src 6 (0 :: toLe 2 Config.vendorId.toNat)))

/-! ### General commands -/

/-- OP_IDENTIFY (R323); in recovery the firmware version reads 0 (R346). -/
def execOpIdentify (q : Req) (body : List Byte) (s : State) : Res :=
  .next (s.nalug_run 0x0101 q body { lenOk := body.length = 0 } (fun t =>
    let ver := if t.mgmt.inRecovery then 0 else t.fld mgtFwInfo 0 16
    let flags := b2n (t.bit glbTickStatus 29) + 2 * b2n (t.bit mgtStatus 29) + 4 * b2n t.locked
    (t, some (stOk, toLe 4 (t.nreg glbModuleFid) ++ toLe 4 t.mgmt.bootCount.toNat ++ toLe 2 ver ++
      toLe 1 (t.fld mgtStatus 25 3) ++ toLe 1 flags ++ toLe 4 1))))

/-- OP_WALLCLOCK_MARK (R32): the marker, the tick it was stored at, and one event-log record of both. -/
def execOpWallclockMark (q : Req) (body : List Byte) (s : State) : Res :=
  .next (s.nalug_run 0x0105 q body { lenOk := body.length = 16 } (fun t =>
    let t1 := t.each (List.range 4) (fun k u => u.setN (glbWallclockMark k) (leAt body (4 * k) 4))
    let t2 := t1.set64 glbWallclockTick (2 ^ 63 + t.tick.loc.toNat)
    let (v, t3) := t2.draw
    -- the spec names no code: an EV_ code of some block of R13
    let code := (1 + v / 256 % 13) * 256 + v % 256
    ok (t3.evLogPut ⟨code, t3.locked, t3.ev.seq, t3.mgmt.bootCount, t3.tick.loc, t3.tick.fab,
      [.q (leAt body 0 8), .q (leAt body 8 8), .q t.tick.loc.toNat]⟩)))

/-- OP_LOCK_ACQUIRE (R325, R326). -/
def execOpLockAcquire (q : Req) (body : List Byte) (s : State) : Res :=
  let n := byteAt body 0
  let kind := byteAt body 1
  let first := leAt body 4 4
  let last := leAt body 8 4
  let bad := (decide (63 < n) && decide (n ≠ 0xFF)) || decide (6 < kind) || decide (leAt body 2 2 ≠ 0) ||
    decide (2 ^ 28 ≤ first) || decide (2 ^ 28 ≤ last) || (decide (kind ≠ 0) && decide (last < first))
  .next (s.nalug_run 0x0108 q body { lenOk := body.length = 12, badParam := bad } (fun t =>
    let overlap := (List.range 64).any (fun k =>
      let l := t.lockAt k
      l.held && decide (l.owner ≠ q.src) && scopesOverlap kind first last l.kind l.first l.last)
    let pick := if n = 0xFF then (List.range 64).find? (fun k => !(t.lockAt k).held) else some n
    match pick with
    | none => if overlap then refuse t stLocked else refuse t stBusy
    | some k =>
      let l := t.lockAt k
      if overlap || l.held then refuse t stLocked
      else
        let l' : Lock := { held := true, broken := false, kind := kind, gen := l.gen + 1, owner := q.src,
                           first := first, last := last, moves := l.moves + 1 }
        (t.setLock k l', some (stOk, toLe 2 k ++ toLe 2 l'.gen.toNat))))

/-- OP_LOCK_RELEASE: the lock that the packet carries (R326). -/
def execOpLockRelease (q : Req) (body : List Byte) (s : State) : Res :=
  let force := nbit (byteAt body 0) 0
  .next (s.nalug_run 0x0109 q body { lenOk := body.length = 4, badParam := decide (1 < leAt body 0 4) } (fun t =>
    let n := q.lock.toNat
    let l := t.lockAt n
    if !l.held then refuse t stLockBroken
    else if force then ok (t.breakLock n)
    else if q.lockV && decide (l.owner = q.src) && decide (l.gen = q.gen) then ok (t.setLock n { l with held := false, broken := false })
    else refuse t stLockBroken))

/-- GLB_LOCK_STATE[n] (R341). -/
def Lock.stateWord (l : Lock) : Nat := b2n l.held * 2 ^ 31 + b2n l.broken * 2 ^ 30 + l.kind * 2 ^ 24 + l.gen.toNat

/-- The four words of GLB_LOCK[n]. -/
def Lock.word (l : Lock) : Nat → Nat
  | 0 => l.stateWord
  | 1 => srcWord l.owner
  | 2 => l.first
  | _ => l.last

/-- OP_LOCK_QUERY (R323). -/
def execOpLockQuery (q : Req) (body : List Byte) (s : State) : Res :=
  let n := byteAt body 0
  .next (s.nalug_run 0x010A q body { lenOk := body.length = 4, badParam := decide (63 < leAt body 0 4) } (fun t =>
    (t, some (stOk, ((List.range 4).map (fun i => toLe 4 ((t.lockAt n).word i))).flatten))))

/-! ### Step tokens (R321, R322) -/

/-- The answer to a poll (R321). -/
def State.pollSlot (s : State) (tok : Nat) : State × Option (Nat × List Byte) :=
  let k := tok % 256
  let x := s.slot k
  if 31 < k ∨ x.state = 0 ∨ tok ≠ stepToken k x then refuse s stBadToken
  else if x.state = 3 then (s.setSlot k { ({} : StepSlot) with use := x.use }, some (x.status, x.reply))
  else (s, some (stInProgress, toLe 8 tok ++ toLe 4 x.done ++ toLe 4 x.total))

/-- OP_STEP_POLL (R321); a polled recovery commit lets its boot start (R346). -/
def execOpStepPoll (q : Req) (body : List Byte) (s : State) : Res :=
  .next (s.nalug_run 0x010B q body { lenOk := body.length = 8 } (fun t => t.pollSlot (leAt body 0 8)))

/-- OP_STEP_RESUME: a suspended command goes on from the step after its last completed one (R322). -/
def execOpStepResume (q : Req) (body : List Byte) (s : State) : Res :=
  .next (s.nalug_run 0x010C q body { lenOk := body.length = 8 } (fun t =>
    let tok := leAt body 0 8
    let k := tok % 256
    let x := t.slot k
    if k ≤ 31 ∧ x.state = 2 ∧ tok = stepToken k x then (t.setSlot k { x with state := 1 }).pollSlot tok
    else t.pollSlot tok))

/-! ### Events (R336-R339) -/

/-- OP_EVENT_CONFIG (R337). -/
def execOpEventConfig (q : Req) (body : List Byte) (s : State) : Res :=
  let mask := leAt body 0 2
  let mode := byteAt body 2
  .next (s.nalug_run 0x010D q body { lenOk := body.length = 4, badParam := decide (1 < mode) || decide (byteAt body 3 ≠ 0) || nbit mask 0 || decide (2 ^ 14 ≤ mask) } (fun t =>
    let mine := t.nalug.subs.find? (fun e => decide (e.2.src = q.src))
    if mode = 1 then
      match mine with
      | some (k, u) => ({ t with nalug := { t.nalug with subs := tins t.nalug.subs k { u with mask := mask } } }, some (stOk, toLe 4 k))
      | none =>
        match (List.range 8).find? (fun k => (tfind t.nalug.subs k).isNone) with
        | some k => ({ t with nalug := { t.nalug with subs := tins t.nalug.subs k ⟨q.src, mask, 0, 0, []⟩ } }, some (stOk, toLe 4 k))
        | none => refuse (t.cnt mgtNalugBusyCnt) stBusy
    else
      match mine with
      | some (k, _) => ({ t with nalug := { t.nalug with subs := tdel t.nalug.subs k } }, some (stOk, toLe 4 k))
      | none => let (v, u) := t.draw; (u, some (stOk, toLe 4 (v % 8)))))

/-- Bytes of a value in an event record (R384). -/
def evValBytes : EvVal → List Byte
  | .w v => toLe 4 v
  | .q v => toLe 8 v

/-- The values that fit in 32 bytes, and whether some did not (R384). -/
def packVals : List EvVal → List Byte → List Byte × Bool
  | [], acc => (acc, false)
  | v :: r, acc => if acc.length + (evValBytes v).length ≤ 32 then packVals r (acc ++ evValBytes v) else (acc, true)

/-- The 64 B event record (R384). -/
def EvRec.bytes (r : EvRec) : List Byte :=
  let (vals, trunc) := packVals r.vals []
  let head := toLe 2 r.code ++ toLe 2 (b2n r.locked + 2 * b2n trunc) ++ toLe 4 r.seq.toNat ++ toLe 4 r.boot.toNat ++
    toLe 6 r.ltick.toNat ++ toLe 6 r.ftick.toNat
  let b := head ++ vals ++ List.replicate (32 - vals.length) 0 ++ toLe 4 0
  b ++ toLe 4 (crc32c 0 b).toNat

/-- OP_EVENT_LOG_READ (R339). -/
def execOpEventLogRead (q : Req) (body : List Byte) (s : State) : Res :=
  let idx := leAt body 0 4
  let n := byteAt body 4
  .next (s.nalug_run 0x010E q body { lenOk := body.length = 8, badParam := decide (n = 0) || decide (16 < n) || decide (leAt body 5 3 ≠ 0) } (fun t =>
    if !t.logOn then refuse t stUnitAbsent
    else
      let oldest := t.ev.logHead - BitVec.ofNat 32 t.ev.log.length
      let off := (BitVec.ofNat 32 idx - oldest).toNat
      let from0 := if off < 2 ^ 31 then off else 0
      let recs := (t.ev.log.drop from0).take n
      (t, some (stOk, toLe 4 t.ev.logHead.toNat ++ toLe 4 oldest.toNat ++ (recs.map EvRec.bytes).flatten))))

/-- Queue a notification for one subscriber: 64 at most, else LOST (R337). -/
def State.queueNotify (s : State) (k : Nat) (u : Subscriber) (r : EvRec) : State :=
  if u.mask / 2 ^ (r.code / 256) % 2 = 1 then
    if u.queue.length < 64 then { s with nalug := { s.nalug with subs := tins s.nalug.subs k { u with queue := u.queue ++ [r] } } }
    else ({ s with nalug := { s.nalug with subs := tins s.nalug.subs k { u with lost := min (u.lost + 1) 65535 } } }).cnt mgtNalugNotifyLostCnt
  else s

/-- Send a subscriber's oldest notification unless its sideband bus is between tries of another packet (R330, R337). -/
def State.sendNotify (s : State) (k : Nat) (u : Subscriber) : State :=
  if tget 0 s.nalug.tries u.src.path.toNat ≠ 0 then s
  else
    match u.queue with
    | [] => s
    | r :: rest =>
      ({ s with nalug := { s.nalug with subs := tins s.nalug.subs k { u with queue := rest, count := u.count + 1, lost := 0 } } }).emit
        (.notify u.src u.count u.lost r)

/-- EVENT_DRAIN: log, notifications, GLB_EV_PEND and its MSI-X vector, for the oldest event (R336-R338). -/
def execEventDrain (s : State) : Res :=
  if s.clk.mgmtLost then .next s else
  match s.ev.fifo with
  | [] => .next s
  | r :: rest =>
    let s1 := ({ s with ev := { s.ev with fifo := rest } }).evLogPut r
    let s2 := s1.each s1.nalug.subs (fun e t => t.queueNotify e.1 e.2 r)
    let s3 := s2.each s2.nalug.subs (fun e t => t.sendNotify e.1 e.2)
    let b := r.code / 256
    let was := s3.bit glbEvPend b
    let s4 := s3.setBit glbEvPend b true
    .next (if !was && !s4.bit glbEvMask b then s4.emit (.msix b) else s4)

/-- GLB_EV_PEND_WRITE: bits written 1 clear (R338). -/
def execGlbEvPendWrite (v : Word) (s : State) : Res :=
  .next (s.setReg glbEvPend (s.reg glbEvPend &&& ~~~ (v &&& 0x3FFE#32)))

/-! ### Sideband paths (R314, R328-R330) -/

/-- The bus runs I3C (R341). -/
def State.busI3c (s : State) (b : Nat) : Bool := s.bit mgtNalugCtl (31 - b)

def onBus (b : Nat) (x : Src) : Bool := decide (x.path.toNat = b + 1)

/-- SMBUS_CLOCK_LOW_TIMEOUT: 35 ms of clock low on an SMBus bus resets its path (R328). -/
def execSmbusClockLowTimeout (b : BusIx) (s : State) : Res :=
  if s.busI3c b then .next s else .next (s.resetPath (onBus b))

/-- SIDEBAND_BUS_SUPPLY_LOSS: the keeper observes the loss of an SMBus bus's supply (R328). -/
def execSidebandBusSupplyLoss (b : BusIx) (s : State) : Res :=
  if s.busI3c b then .next s else .next (s.resetPath (onBus b))

/-- I3C_TARGET_RESET: a target reset pattern or RSTACT on an I3C bus (R328). -/
def execI3cTargetReset (b : BusIx) (s : State) : Res :=
  if s.busI3c b then .next (s.resetPath (onBus b)) else .next s

/-- I3C_ENTDAA: the W192 takes its dynamic address (R314). -/
def execI3cEntdaa (b : BusIx) (addr : BitVec 7) (s : State) : Res :=
  if s.busI3c b then .next { s with nalug := { s.nalug with i3c := tput 0 s.nalug.i3c b (addr.toNat + 1) } } else .next s

/-- SB_ARB_RETRY: arbitration lost while sending on a sideband bus; after 8 tries the packet is discarded (R330). -/
def execSbArbRetry (b : BusIx) (s : State) : Res :=
  let n := tget 0 s.nalug.tries (b + 1) + 1
  let n' := if n < 8 then n else 0
  .next (({ s with nalug := { s.nalug with tries := tput 0 s.nalug.tries (b + 1) n' } }).cnt mgtSbArbLossCnt)

end Sys2Proof.Machine
end

