-- ==== Sys2Proof/Machine/Bridge.lean ====
section
/-! DEFINITION. The bridge to the point-of-load stages (R331-R335, R309). -/

namespace Sys2Proof.Machine

/-! ### Conversions (R334) -/

/-- Nearest integer of num ÷ den, halves away from zero. -/
def roundAway (num : Int) (den : Nat) : Int :=
  let a := num.natAbs
  let r := (2 * a + den) / (2 * den)
  if num < 0 then -(r : Int) else (r : Int)

/-- mantissa × 2^e × 1,000, rounded. -/
def scaled (mant e : Int) : Int :=
  if 0 ≤ e then mant * 2 ^ e.toNat * 1000 else roundAway (mant * 1000) (2 ^ (-e).toNat)

/-- A signed field of n bits. -/
def signedBits (v n : Nat) : Int := if v % 2 ^ n < 2 ^ (n - 1) then (v % 2 ^ n : Nat) else (v % 2 ^ n : Nat) - (2 : Int) ^ n

/-- Direct format: (word × 10^−R − b) ÷ m × 1,000. -/
def direct (w : Int) (m b r : Int) : Int :=
  if m = 0 then Config.directZero w.toNat
  else
    let num := if 0 ≤ r then (w - b * 10 ^ r.toNat) * 1000 else (w * 10 ^ (-r).toNat - b) * 1000
    let den := m.natAbs * (if 0 ≤ r then 10 ^ r.toNat else 1)
    roundAway (if m < 0 then -num else num) den

/-- A converted reading: value and RAW. -/
def convVout (x : StageS) (w : BitVec 16) : Int × Bool :=
  match x.mode with
  | some md =>
    if md.toNat / 32 = 0 then (scaled w.toNat (signedBits md.toNat 5), false)
    else if md.toNat / 32 = 2 then (direct (signedBits w.toNat 16) x.cm x.cb x.cr, false)
    else (0, true)
  | none => (0, true)

/-- LINEAR11, or direct where the stage uses the direct format. -/
def convOther (x : StageS) (w : BitVec 16) : Int × Bool :=
  match x.mode with
  | some md =>
    if md.toNat / 32 = 2 then (direct (signedBits w.toNat 16) x.cm x.cb x.cr, false)
    else (scaled (signedBits w.toNat 11) (signedBits (w.toNat / 2 ^ 11) 5), false)
  | none => (0, true)

/-- Saturate into lo..hi; the flag is SAT. -/
def clampInt (v lo hi : Int) : Int × Bool := if v < lo then (lo, true) else if hi < v then (hi, true) else (v, false)

/-- An integer as a 32-bit two's-complement number. -/
def int32 (v : Int) : Nat := (BitVec.ofInt 32 v).toNat

def State.stage (s : State) (k : Nat) : StageS := tget {} s.nalug.stages k
def State.setStage (s : State) (k : Nat) (x : StageS) : State :=
  { s with nalug := { s.nalug with stages := tput {} s.nalug.stages k x } }

/-- ERR and CAUSE (R332). -/
def State.brError (s : State) (cause : Nat) : State :=
  ((s.setBit pwrBrStatus 30 true).setFld pwrBrStatus 24 4 cause).cnt pwrBrErrCnt

/-- A far-side error of a transaction that is not open: a posted write, a poll (R332). -/
def State.brLate (s : State) (stage code cause : Nat) : State :=
  let s1 := s.brError cause
  if cause = 5 then (s1.cnt pwrBrArbLossCnt 3).raise 0x0A0D []
  else ((s1.setBit pwrBrStatus 23 true).cnt pwrBrLateCnt).raise 0x0A0C [.w stage, .w code, .w cause]

/-- SPEED of PWR_BR_CTL in kHz; 3 is treated as 2 (R341). -/
def State.brKhz (s : State) : Nat := match s.fld pwrBrCtl 16 2 with | 0 => 100 | 1 => 400 | _ => 1000

/-- The bridge drives a transaction. -/
def State.brDrive (s : State) (t : BrTxn) : State := s.emit (.pmbus s.brKhz t)

/-- The command codes that a poll reads from a stage: status, voltage, current, temperature; before them its VOUT_MODE when it first
answers after a cold reset, and COEFFICIENTS, a block read, if that says direct format (R333). -/
def State.pollCodes (s : State) (r : StageReading) : List Nat :=
  (if (s.stage r.stage).mode.isNone then 0x20 :: (if r.voutMode.toNat / 32 = 2 then [0x30] else []) else []) ++ [0x79, 0x8B, 0x8C, 0x8D]

/-- The reads of a poll. -/
def State.pollReads (s : State) (r : StageReading) : State :=
  s.each (s.pollCodes r) (fun c t => t.brDrive { stage := r.stage, code := c, len := (if c = 0x20 then 1 else if c = 0x30 then 5 else 2), read := true, block := decide (c = 0x30), data := [] })

/-- One stage's readings of a poll round (R309, R332-R334). -/
def State.pollTake (s : State) (r : StageReading) : State :=
  let k : Nat := r.stage
  let x := s.stage k
  if !r.ok then
    let n := x.fails + 1
    let s1 := (s.setStage k { x with fails := n }).brLate k r.code.toNat (max 1 r.cause.val)
    if 3 ≤ n then s1.setBit (pwrStgStatus k) 31 true else s1
  else
    let x1 := if x.mode.isNone then { x with mode := some r.voutMode, cm := r.cm, cb := r.cb, cr := r.cr } else x
    let v := convVout x1 r.vout
    let i := convOther x1 r.iout
    let t := convOther x1 r.temp
    let vc := clampInt v.1 0 65535
    let ic := clampInt i.1 0 (2 ^ 20 - 1)
    let tc := clampInt t.1 (-(2 ^ 31)) (2 ^ 31 - 1)
    let x2 := { x1 with fails := 0, status := r.status.toNat, raw := [r.vout, r.iout, r.temp, r.status],
                        sat := [vc.2, v.2, ic.2, i.2, tc.2, t.2] }
    let s1 := (((s.setStage k x2).setN (pwrStg k) vc.1.toNat).setN (pwrStg k + 4) ic.1.toNat).setN (pwrStg k + 8) (int32 tc.1)
    let s2 := ((s1.setBit (pwrStgStatus k) 31 false).setFld (pwrStgStatus k) 0 16 r.status.toNat).setN (pwrStgStamp k) s.tick.loc.toNat
    if r.status.toNat ≠ 0 then s2.raiseLim 0x0A0A k [.w k, .w r.status.toNat] else s2

/-- One stage of a poll round; an absent stage is not read. -/
def State.pollStage (s : State) (r : StageReading) : State := if s.present 10 r.stage then (s.pollReads r).pollTake r else s

/-- ROUND_TICKS of PWR_BR_CTL; below 4,096 it is treated as 4,096 (R341). -/
def State.roundTicks (s : State) : Nat := max 4096 (s.fld pwrBrCtl 0 16)

/-- The end of a round. One that was still running when the next fell due is counted late, and the next begins with its end
(R403). -/
def State.roundEnd (s : State) : State :=
  match s.nalug.roundAt with
  | none => { s with nalug := { s.nalug with roundAt := some s.tick.loc } }
  | some a =>
    if ticksSince a s.tick.loc < 2 * s.roundTicks then { s with nalug := { s.nalug with roundAt := some (a + BitVec.ofNat 48 s.roundTicks) } }
    else { s with nalug := { s.nalug with roundAt := some (s.tick.loc - BitVec.ofNat 48 s.roundTicks) } }.cnt (glbBgLateCnt 4)

/-- BRIDGE_POLL_ROUND: a round, due every ROUND_TICKS ticks, with what the stages answered (R333). -/
def execBridgePollRound (rs : List StageReading) (s : State) : Res :=
  let due := match s.nalug.roundAt with | some a => decide (s.roundTicks ≤ ticksSince a s.tick.loc) | none => true
  .next (if due then s.roundEnd.each rs (fun r t => t.pollStage r) else s)

/-! ### Transactions (R331, R332) -/

/-- Start a transaction, or let it wait behind the one that runs (R405). -/
def State.brStart (s : State) (t : BrTxn) : State :=
  match s.nalug.br with
  | none => ({ s with nalug := { s.nalug with br := some t } }).brDrive t
  | some _ => { s with nalug := { s.nalug with brWait := s.nalug.brWait ++ [t] } }

/-- The next waiting transaction starts. -/
def State.brNext (s : State) : State :=
  match s.nalug.brWait with
  | [] => { s with nalug := { s.nalug with br := none } }
  | t :: r => ({ s with nalug := { s.nalug with br := some t, brWait := r } }).brDrive t

/-- Words of PWR_BR_DATA from bytes. -/
def State.brData (s : State) (d : List Byte) : State :=
  s.each (List.range 8) (fun w t => t.setN (pwrBrData w) (leAt d (4 * w) 4))

/-- Held register reads end. -/
def State.brRelease (s : State) (t : BrTxn) (good : Bool) : State :=
  s.each t.hold (fun h u =>
    if good then u.emit (.readDone h.1 (pwrBrData h.2) (toLe 4 (u.nreg (pwrBrData h.2)))) else u.emit (.busErr h.1 (pwrBrData h.2)))

/-- The reply of a held Nalug bridge command. -/
def State.brAnswer (s : State) (t : BrTxn) (st : Nat) (b : List Byte) : State :=
  match t.nalug with
  | some (q, code) => if t.opn then (s.journalDone code q.src q.seq st b).answer code q st b else s
  | none => s

/-- A transaction ends with a cause, 0 for success (R331, R332). -/
def State.brFinish (s : State) (t : BrTxn) (cause : Nat) (d : List Byte) : State :=
  let s0 := if t.cmd then s.setBit pwrBrStatus 31 false else s
  if cause = 0 then
    let s1 := if t.cmd && t.read then s0.brData d else s0
    (s1.brAnswer t stOk (if t.read then d else [])).brRelease t true
  else if !t.opn then s0.brLate t.stage t.code cause
  else if cause = 5 then (((s0.brError 5).cnt pwrBrArbLossCnt 3).brAnswer t stBridgeBusy []).brRelease t false
  else ((s0.brError cause).brAnswer t stBridgeError (toLe 1 cause)).brRelease t false

/-- BRIDGE_TRANSACTION_DONE (R331, R332). -/
def execBridgeTransactionDone (cause : Fin 6) (data : List Byte) (s : State) : Res :=
  match s.nalug.br with
  | none => .next s
  | some t => .next ((s.brFinish t cause data).brNext)

/-- BRIDGE_HOLD_LIMIT: 40 ms without an answer; the transaction runs on and is no longer open (R331, R332). -/
def execBridgeHoldLimit (s : State) : Res :=
  match s.nalug.br with
  | none => .next s
  | some t =>
    if t.opn then
      let s1 := (s.brAnswer t stBridgeTimeout []).brRelease t false
      .next { s1 with nalug := { s1.nalug with br := some { t with opn := false, hold := [], nalug := none } } }
    else .next s

/-- OP_PMBUS_READ (R323, R331). -/
def execOpPmbusRead (q : Req) (body : List Byte) (s : State) : Res :=
  let n := byteAt body 1
  .next (s.nalug_run 0x0A02 q body { kinds := [10], lenOk := body.length = 4, badParam := decide (n = 0) || decide (32 < n) || decide (1 < byteAt body 2) || decide (byteAt body 3 ≠ 0) } (fun t =>
    (t.brStart { stage := q.index.toNat, code := byteAt body 0, len := n, read := true, block := nbit (byteAt body 2) 0,
                 data := [], nalug := some (q, 0x0A02), opn := true }, none)))

/-- OP_PMBUS_WRITE: at fabric-manager privilege CLEAR_FAULTS with LENGTH 0 only (R323). -/
def execOpPmbusWrite (q : Req) (body : List Byte) (s : State) : Res :=
  let n := byteAt body 1
  .next (s.nalug_run 0x0A03 q body { kinds := [10], lenOk := decide (body.length = 4 + n), badParam := decide (32 < n) || decide (1 < byteAt body 2) || decide (byteAt body 3 ≠ 0) } (fun t =>
    if (byteAt body 0 = 0x03 ∧ n = 0) ∨ q.src.path = 4 then
      (t.brStart { stage := q.index.toNat, code := byteAt body 0, len := n, read := false, block := nbit (byteAt body 2) 0,
                   data := body.drop 4, nalug := some (q, 0x0A03), opn := true }, none)
    else refuse (t.cnt mgtNalugDeniedCnt) stDenied))

/-- PWR_BR_CMD_WRITE (R331, R341): discarded while BUSY; a stage above 20 fails with CAUSE 1. -/
def execPwrBrCmdWrite (_m : Fin 8) (vendor : Bool) (v : Word) (s : State) : Res :=
  if s.bit pwrBrStatus 31 then .next s
  else
    let s1 := s.setReg pwrBrCmd (v &&& 0x1FFF3F03#32)
    let read := bits v 0 1 = 1
    let t : BrTxn := { stage := bits v 24 5, code := bits v 16 8, len := bits v 8 6, read := read, block := bits v 1 1 = 1,
                       data := ((List.range 8).map (fun w => toLe 4 (s.nreg (pwrBrData w)))).flatten.take (bits v 8 6), cmd := true }
    if !read && !vendor && !(decide (t.code = 3) && decide (t.len = 0)) then .next s1
    else if 20 < t.stage then .next (s1.brFinish { t with opn := read } 1 [])
    else .next ((s1.setBit pwrBrStatus 31 true).brStart t)

/-- PWR_BR_DATA_READ: held while BUSY (R331). -/
def execPwrBrDataRead (m : Fin 8) (w : Fin 8) (s : State) : Res :=
  if s.bit pwrBrStatus 31 then
    match s.nalug.br with
    | some t =>
      if t.cmd then .next { s with nalug := { s.nalug with br := some { t with opn := t.read, hold := t.hold ++ [((m : Nat), (w : Nat))] } } }
      else
        let ws := s.nalug.brWait.map (fun u => if u.cmd then { u with opn := u.read, hold := u.hold ++ [((m : Nat), (w : Nat))] } else u)
        .next { s with nalug := { s.nalug with brWait := ws } }
    | none => .next s
  else .next (s.emit (.readDone m (pwrBrData w) (toLe 4 (s.nreg (pwrBrData w)))))

/-! ### Telemetry records (R335) -/

/-- One 16 B record. -/
def telRecord (kind qty : Nat) (stale sat raw : Bool) (idx val stamp rawWord : Nat) : List Byte :=
  toLe 1 (kind * 16 + qty) ++ toLe 1 (b2n stale * 128 + b2n sat * 64 + b2n raw * 32) ++ toLe 2 idx ++ toLe 4 val ++ toLe 4 stamp ++
  toLe 2 rawWord ++ toLe 2 0

/-- The four records of a stage. -/
def State.stageRecords (s : State) (k : Nat) : List Byte :=
  let x := s.stage k
  let stale := s.bit (pwrStgStatus k) 31
  let st := s.nreg (pwrStgStamp k)
  let f := fun i => x.sat.getD i false
  let rw := fun i => (x.raw.getD i 0).toNat
  telRecord 1 1 stale (f 0) (f 1) k (s.nreg (pwrStg k)) st (rw 0) ++
  telRecord 1 2 stale (f 2) (f 3) k (s.nreg (pwrStg k + 4)) st (rw 1) ++
  telRecord 1 3 stale (f 4) (f 5) k (s.nreg (pwrStg k + 8)) st (rw 2) ++
  telRecord 1 5 stale false false k x.status st (rw 3)

/-- OP_TELEMETRY_READ (R335): one stage, or every present stage in order. -/
def execOpTelemetryRead (q : Req) (body : List Byte) (s : State) : Res :=
  .next (s.nalug_run 0x0A04 q body { kinds := [0, 10], lenOk := body.length = 0 } (fun t =>
    let ks := if q.kind = 10 then [q.index.toNat] else (List.range 21).filter (t.present 10)
    (t, some (stOk, (ks.map t.stageRecords).flatten))))

end Sys2Proof.Machine
end

