-- ==== Sys2Proof/Machine/Firmware.lean ====
section
/-! DEFINITION. Firmware copies, FJX image, lifecycle, debug, management cores, checkpoint and journal (chapter 14). -/

namespace Sys2Proof.Machine

/-! ### Firmware copies (R343-R349) -/

/-- The copy as its deposited bytes give it (R343). -/
def fwOfBytes (c : FwCopy) : FwCopy :=
  let b := c.bytes
  let size := leAt b 12 4
  { c with hdrOk := decide (leAt b 0 4 = 0x53465747) && decide (leAt b 4 2 = 1) && decide (1 ≤ size) && decide (size ≤ 33554112)
           version := leAt b 6 2
           svn := byteAt b 8 % 64
           keyId := byteAt b 9 % 4
           bodySize := size
           digestOk := Config.fwDigestOk b
           keyOk := Config.fwKeyOk b
           sigOk := Config.fwSigOk b }

/-- Why a copy fails verification (R343, R345): 0 when it is valid. -/
def State.fwReason (s : State) (c : FwCopy) : Nat :=
  if !c.hdrOk then 1 else if !c.digestOk then 2 else if !c.keyOk then 3 else if !c.sigOk then 4
  else if c.svn < s.mgmt.svnMin then 5
  else match c.commit with
    | none => 6
    | some g => if s.mgmt.bootFail.contains g then 7 else 0

def State.fwCopy (s : State) (i : Nat) : FwCopy := if i = 0 then s.mgmt.fwA else s.mgmt.fwB
def State.setFw (s : State) (i : Nat) (c : FwCopy) : State :=
  if i = 0 then { s with mgmt := { s.mgmt with fwA := c } } else { s with mgmt := { s.mgmt with fwB := c } }

/-- The inactive copy (R346, R347). -/
def State.inactive (s : State) : Nat :=
  if s.mgmt.inRecovery then
    match s.mgmt.fwA.commit, s.mgmt.fwB.commit with
    | some a, some b => if newerGen a b then 1 else 0
    | none, some _ => 1
    | _, none => 0
  else if s.bit mgtStatus 21 then 0 else 1

/-- With PFAIL asserted the firmware writes nothing more to flash (R306). -/
def State.flashHeld (s : State) : Bool := s.bit pwrStatus 20

/-- A stepped command of this kind is running. -/
def State.running (s : State) (j : StepJob) : Bool := (s.jobSlot (fun x => decide (x = j))).isSome

/-- OP_FW_WRITE (R347). -/
def execOpFwWrite (q : Req) (body : List Byte) (s : State) : Res :=
  let off := leAt body 0 4
  let data := body.drop 4
  .next (s.nalug_run 0x0201 q body { lenOk := decide (5 ≤ body.length) && decide (body.length ≤ 4068), badParam := decide (33554432 - 64 < off + data.length) } (fun t =>
    let i := t.inactive
    let c := t.fwCopy i
    if t.running .fwCommit then refuse t stBusy
    else if off ≠ 0 ∧ (!c.started ∨ off ≠ c.bytes.length) then refuse t stBadParam
    else if 65536 < t.mgmt.fwBuf + data.length then refuse t stBusy
    else
      let c1 : FwCopy := if off = 0 then { started := true, bytes := data } else { c with bytes := c.bytes ++ data }
      let t1 := t.setFw i c1
      ok { t1 with mgmt := { t1.mgmt with fwBuf := t.mgmt.fwBuf + data.length } }))

/-- FLASH_PROGRAM_DONE: part of a write buffer has been programmed, and its read-back agreed or not (R347, R351). -/
def execFlashProgramDone (fjx : Bool) (n : Nat) (good : Bool) (s : State) : Res :=
  if fjx then
    .next { s with mgmt := { s.mgmt with fjxBuf := s.mgmt.fjxBuf - n, stagingOk := s.mgmt.stagingOk && good } }
  else
    let i := s.inactive
    let c := s.fwCopy i
    let s1 := s.setFw i { c with readOk := c.readOk && good }
    .next { s1 with mgmt := { s1.mgmt with fwBuf := s.mgmt.fwBuf - n } }

/-- OP_FW_COMMIT: stepped (R348). -/
def execOpFwCommit (q : Req) (body : List Byte) (s : State) : Res :=
  .next (s.nalug_run 0x0202 q body { lenOk := body.length = 0 } (fun t =>
    if t.running .fwCommit then refuse t stBusy else t.stepStart 0x0202 q .fwCommit 1 0))

/-- The generation a commit assigns (R348). -/
def State.nextFwGen (s : State) : Word :=
  if s.mgmt.inRecovery then
    let gs := s.mgmt.fwA.commit.toList ++ s.mgmt.fwB.commit.toList ++ s.mgmt.bootFail
    match gs with
    | [] => 1
    | g :: r => r.foldl (fun m x => if newerGen x m then x else m) g + 1
  else s.reg mgtFwGen + 1

/-- The step of OP_FW_COMMIT: it waits for the buffer, then checks in order (R306, R348). -/
def State.fwCommitStep (s : State) (k : Nat) : State :=
  if s.mgmt.fwBuf ≠ 0 || s.flashHeld then s
  else
    let i := s.inactive
    let c := fwOfBytes (s.fwCopy i)
    if !c.started || decide (c.bytes.length ≠ c.bodySize + 256) then s.stepFinish k stImageInvalid []
    else if !c.hdrOk || !c.digestOk || !c.readOk then s.stepFinish k stImageInvalid []
    else if !c.keyOk || !c.sigOk then s.stepFinish k stSigInvalid []
    else if c.svn < s.mgmt.svnMin then s.stepFinish k stRollback []
    else
      let g := s.nextFwGen
      let s1 := s.setFw i { c with commit := some g }
      let s2 := if s.mgmt.inRecovery then { s1 with mgmt := { s1.mgmt with recovBoot := true } } else s1
      s2.stepFinish k stOk (toLe 4 g.toNat)

/-! ### FJX image (R350-R353) -/

/-- A record of an FJX image (R350). -/
inductive FjxRec where
  | ports (l : List (Nat × Nat × Nat × Bool))
  | sideband (b0 a0 a1 : Nat)
  | disable (eng hb sfb hbm tile mc : Nat)
  | regs (l : List (Nat × Nat × Nat))
  | mcPref (c : Nat)
  | other
deriving DecidableEq, Repr

/-- Entries of `w` bytes from a list of bytes, at most `n`. -/
def entriesOf (w : Nat) : Nat → List Byte → List (List Byte)
  | 0, _ => []
  | n + 1, b => if b.length < w then [] else b.take w :: entriesOf w n (b.drop w)

/-- One record's value bytes as a record; none where the type is unknown below 0x8000 or a value is out of range. -/
def fjxRec (ty : Nat) (v : List Byte) : Option FjxRec :=
  match ty with
  | 1 =>
    let es := (entriesOf 4 v.length v).map (fun e => (byteAt e 0, byteAt e 1, byteAt e 2, nbit (byteAt e 3) 0))
    if v.length % 4 = 0 ∧ es.all (fun e => decide (e.1 < 192) && decide (e.2.1 ≤ 3) && decide (e.2.2.1 ≤ 2)) then some (.ports es) else none
  | 2 => if v.length = 3 ∧ byteAt v 0 < 4 ∧ byteAt v 1 < 128 ∧ byteAt v 2 < 128 then some (.sideband (byteAt v 0) (byteAt v 1) (byteAt v 2)) else none
  | 3 => if v.length = 16 then some (.disable (leAt v 0 8) (leAt v 8 2) (leAt v 10 2) (byteAt v 12 % 16) (leAt v 13 2 % 4096) (byteAt v 15 % 4)) else none
  | 4 =>
    let es := (entriesOf 12 v.length v).map (fun e => (leAt e 0 4, leAt e 4 4, leAt e 8 4))
    if v.length % 12 = 0 ∧ es.all (fun e => decide (e.1 % 4 = 0) && decide (e.1 < 0x4000000)) then some (.regs es) else none
  | 5 => if v.length = 1 ∧ byteAt v 0 < 2 then some (.mcPref (byteAt v 0)) else none
  | t => if 0x8000 ≤ t then some .other else none

/-- Records from a list of bytes; fuel bounds their number. -/
def fjxRecs : Nat → List Byte → Option (List FjxRec)
  | 0, _ => some []
  | n + 1, b =>
    if b.length = 0 then some []
    else if b.length < 4 then none
    else
      let len := leAt b 2 2
      if b.length < 4 + up4 len then none
      else match fjxRec (leAt b 0 2) ((b.drop 4).take len), fjxRecs n (b.drop (4 + up4 len)) with
        | some r, some rs => some (r :: rs)
        | _, _ => none

/-- The modes of the ports that a list of records gives; the last entry of a port counts. -/
def fjxPorts (rs : List FjxRec) : List (Nat × Nat × Nat × Bool) :=
  (rs.map (fun r => match r with | .ports l => l | _ => [])).flatten

/-- Mode of port p in PORT entries; unused when it has none. -/
def portMode (l : List (Nat × Nat × Nat × Bool)) (p : Nat) : Nat :=
  match l.reverse.find? (fun e => decide (e.1 = p)) with
  | some e => e.2.1
  | none => 0

/-- Members of the link that a width gives a port (R257). -/
def linkMembers (p w : Nat) : List Nat := (List.range (2 ^ w)).map (· + p)

/-- Merges meet R257, and at most four ports set MGMT_FN (R268). -/
def fjxPortsOk (l : List (Nat × Nat × Nat × Bool)) : Bool :=
  l.all (fun e => e.2.2.1 = 0 ||
    (decide (e.1 % 2 ^ e.2.2.1 = 0) && decide (e.2.1 = 1 ∨ e.2.1 = 2) && (linkMembers e.1 e.2.2.1).all (fun p => decide (portMode l p = e.2.1)))) &&
  decide ((l.filter (fun e => e.2.2.2)).length ≤ 4)

/-- What a DISABLE record leaves holds the minimum service set (R350). -/
def State.disableOk (s : State) (rs : List FjxRec) : Bool :=
  rs.all (fun r => match r with
    | .disable _ hb sfb _ tile mc =>
      (List.range 16).any (fun i => s.setBitAt 0x100 4 i && !nbit hb i) &&
      (List.range 16).any (fun i => s.setBitAt 0x100 5 i && !nbit sfb i) &&
      (List.range 12).any (fun i => s.setBitAt 0x100 1 i && !nbit tile i) &&
      (List.range 2).any (fun i => s.setBitAt 0x100 11 i && !nbit mc i)
    | _ => true)

/-- The records of a valid image (R350), or none. -/
def State.fjxParse (s : State) (b : List Byte) : Option (List FjxRec) :=
  let len := leAt b 12 4
  let img := b.take len
  if leAt b 0 4 = 0x584A4657 ∧ leAt b 4 2 = 1 ∧ 64 ≤ len ∧ len ≤ 4194304 ∧ len ≤ b.length ∧
     leAt b 60 4 = (crc32c 0 (img.take 60 ++ img.drop 64)).toNat then
    match fjxRecs len (img.drop 64) with
    | some rs => if fjxPortsOk (fjxPorts rs) && s.disableOk rs then some rs else none
    | none => none
  else none

/-- GENERATION of an image. -/
def fjxGen (b : List Byte) : Word := BitVec.ofNat 32 (leAt b 8 4)

/-- The valid copies' choice: the newer generation; 0 for A, 1 for B (R352). -/
def State.newestFjx (s : State) : Option Nat :=
  let a := (s.fjxParse s.mgmt.fjxA).isSome
  let b := (s.fjxParse s.mgmt.fjxB).isSome
  if a && b then some (if newerGen (fjxGen s.mgmt.fjxB) (fjxGen s.mgmt.fjxA) then 1 else 0)
  else if a then some 0 else if b then some 1 else none

def State.fjxCopy (s : State) (i : Nat) : List Byte := if i = 0 then s.mgmt.fjxA else s.mgmt.fjxB
def State.setFjx (s : State) (i : Nat) (b : List Byte) : State :=
  if i = 0 then { s with mgmt := { s.mgmt with fjxA := b } } else { s with mgmt := { s.mgmt with fjxB := b } }

/-- OP_FJX_READ: the copy applied at the last cold reset (R351). -/
def execOpFjxRead (q : Req) (body : List Byte) (s : State) : Res :=
  let off := leAt body 0 4
  let n := leAt body 4 2
  .next (s.nalug_run 0x0203 q body { lenOk := body.length = 8, badParam := decide (n = 0) || decide (4064 < n) || decide (4194304 < off + n) || decide (leAt body 6 2 ≠ 0) } (fun t =>
    match t.mgmt.applied with
    | none => refuse t stImageInvalid
    | some b =>
      let have0 := (b.drop off).take n
      let rest := n - have0.length
      let extra := (List.range rest).map (fun i => BitVec.ofNat 8 (Config.free (t.free + i)))
      ({ t with free := t.free + rest }, some (stOk, have0 ++ extra))))

/-- OP_FJX_WRITE (R351). -/
def execOpFjxWrite (q : Req) (body : List Byte) (s : State) : Res :=
  let off := leAt body 0 4
  let data := body.drop 4
  .next (s.nalug_run 0x0204 q body { lenOk := decide (5 ≤ body.length) && decide (body.length ≤ 4068), badParam := decide (4194304 < off + data.length) } (fun t =>
    let m := t.mgmt
    if t.running .fjxCommit then refuse t stBusy
    else if off ≠ 0 ∧ (!m.stagingOn ∨ off ≠ m.staging.length) then refuse t stBadParam
    else if 65536 < m.fjxBuf + data.length then refuse t stBusy
    else ok { t with mgmt := { m with staging := (if off = 0 then data else m.staging ++ data), stagingOn := true,
                                      stagingOk := (if off = 0 then true else m.stagingOk), fjxBuf := m.fjxBuf + data.length } }))

/-- The lifecycle state that the done fuses give (R356): a fuse is burned with two of its bits. -/
def fuseBurned (v : Nat) : Bool := decide (2 ≤ b2n (nbit v 0) + b2n (nbit v 1) + b2n (nbit v 2))
def State.fuse (s : State) (k : Nat) : Nat := tget 0 s.mgmt.fuses k
def State.burn (s : State) (k : Nat) : State := { s with mgmt := { s.mgmt with fuses := tput 0 s.mgmt.fuses k 7 } }
def State.lcState (s : State) : Nat :=
  (List.range 4).foldl (fun m k => if fuseBurned (s.fuse (2 * k + 1)) then k + 1 else m) 0

/-- OP_FJX_COMMIT: stepped (R351). -/
def execOpFjxCommit (q : Req) (body : List Byte) (s : State) : Res :=
  .next (s.nalug_run 0x0205 q body { lenOk := body.length = 0 } (fun t =>
    if t.fld mgtStatus 25 3 = 4 then refuse t stLifecycleState
    else if t.running .fjxCommit then refuse t stBusy
    else t.stepStart 0x0205 q .fjxCommit 4 0))

/-- The target of an FJX commit: an invalid copy, else the older one (R351). -/
def State.fjxTarget (s : State) : Nat :=
  if (s.fjxParse s.mgmt.fjxA).isNone then 0
  else if (s.fjxParse s.mgmt.fjxB).isNone then 1
  else if newerGen (fjxGen s.mgmt.fjxB) (fjxGen s.mgmt.fjxA) then 0 else 1

/-- The image with a generation and its CHECK recomputed (R351). -/
def fjxStamp (b : List Byte) (g : Word) : List Byte :=
  let len := leAt b 12 4
  let b1 := b.take 8 ++ toLe 4 g.toNat ++ (b.take len).drop 12
  b1.take 60 ++ toLe 4 (crc32c 0 (b1.take 60 ++ b1.drop 64)).toNat ++ b1.drop 64

/-- The steps of OP_FJX_COMMIT: check, erase, program, header (R351). Until the header the target is invalid. -/
def State.fjxCommitStep (s : State) (k : Nat) : State :=
  if s.mgmt.fjxBuf ≠ 0 || s.flashHeld then s
  else
    match (s.slot k).phase with
    | 0 =>
      if !s.mgmt.stagingOn || !s.mgmt.stagingOk || (s.fjxParse s.mgmt.staging).isNone then s.stepFinish k stImageInvalid []
      else (s.setFjx s.fjxTarget []).stepNext k 1
    | 1 => s.stepNext k 2
    | _ =>
      let g : Word := match s.newestFjx with
        | some i => fjxGen (s.fjxCopy i) + 1
        | none => 1
      (s.setFjx s.fjxTarget (fjxStamp s.mgmt.staging g)).stepFinish k stOk (toLe 4 g.toNat)

/-! ### Lifecycle (R354-R356) -/

/-- The pair of a listed transition and whether it needs vendor-firmware privilege (R354). -/
def lcPair (cur tgt : Nat) : Option (Nat × Bool) :=
  match cur, tgt with
  | 0, 1 => some (0, true)
  | 1, 2 => some (1, false)
  | 2, 3 => some (2, false)
  | 0, 4 => some (3, true)
  | 1, 4 => some (3, true)
  | 3, 4 => some (3, true)
  | _, _ => none

/-- OP_LIFECYCLE_SET: stepped (R354, R355). -/
def execOpLifecycleSet (q : Req) (body : List Byte) (s : State) : Res :=
  let tgt := byteAt body 0
  .next (s.nalug_run 0x0206 q body { lenOk := body.length = 4, badParam := decide (4 < leAt body 0 4) } (fun t =>
    let cur := t.fld mgtStatus 25 3
    match lcPair cur tgt with
    | none => refuse t stLifecycleState
    | some (_, vendor) =>
      if cur = 1 ∧ tgt = 2 ∧ t.bit mgtStatus 29 then refuse t stLifecycleState
      else if (t.jobSlot (fun j => match j with | .lifecycle _ => true | _ => false)).isSome then refuse t stLifecycleState
      else if vendor && decide (q.src.path ≠ 4) then refuse (t.cnt mgtNalugDeniedCnt) stDenied
      else t.stepStart 0x0206 q (.lifecycle tgt) 5 0))

/-- The side effects of a transition (R354): each leaves the same result when done again. -/
def State.lcEffects (s : State) (tgt : Nat) : State :=
  match tgt with
  | 1 => { s with mgmt := { s.mgmt with keysErased := max s.mgmt.keysErased 1, capLocked := true } }
  | 3 => { s with mgmt := { s.mgmt with fjxA := [], fjxB := [], staging := [], stagingOn := false } }
  | 4 => { s with mgmt := { s.mgmt with keysErased := 2, fwA := {}, fwB := {} } }
  | _ => s

/-- Take a lifecycle state: LC_STATE, and the debug port open only in MANUFACTURE (R355, R357). -/
def State.takeLc (s : State) (tgt : Nat) : State := (s.setFld mgtStatus 25 3 tgt).setFld mgtStatus 22 2 (if tgt = 0 then 0 else 1)

/-- The fuse register mirrors the OTP bits (R371). -/
def State.fuseWord (s : State) : Nat :=
  (List.range 4).foldl (fun a k => a + s.fuse (2 * k) * 2 ^ (8 * k + 3) + s.fuse (2 * k + 1) * 2 ^ (8 * k)) 0

/-- The pair of a target state. -/
def pairOf (tgt : Nat) : Nat := tgt - 1

/-- The steps of OP_LIFECYCLE_SET (R306, R355): check, intent, side effects, done, state. -/
def State.lifecycleStep (s : State) (k tgt : Nat) : State :=
  match (s.slot k).phase with
  | 0 => s.stepNext k 1
  | 1 => (s.burn (2 * pairOf tgt)).stepNext k 2
  | 2 => if s.flashHeld then s else (s.lcEffects tgt).stepNext k 3
  | 3 => (s.burn (2 * pairOf tgt + 1)).stepNext k 4
  | _ =>
    let old := s.fld mgtStatus 25 3
    ((s.takeLc tgt).raise 0x0206 [.w old, .w tgt, .w 0]).stepFinish k stOk (toLe 1 tgt)

/-! ### Debug (R357, R358) -/

/-- The last nonce issued. -/
def State.nonceBytes (s : State) : List Byte := (List.range 32).map (Config.nonceByte s.mgmt.nonce)

/-- OP_DEBUG_UNLOCK (R358). -/
def execOpDebugUnlock (q : Req) (body : List Byte) (s : State) : Res :=
  let ph := byteAt body 0
  let n := body.length
  .next (s.nalug_run 0x0207 q body { lenOk := if ph = 0 then decide (n = 4) else if ph = 1 then decide (n = 132) else decide (n = 4 ∨ n = 132), badParam := decide (1 < ph) || decide (leAt body 1 3 ≠ 0) } (fun t =>
    let serial := toLe 8 (t.reg64 glbSerial)
    if ph = 0 then
      let t1 := { t with mgmt := { t.mgmt with nonce := t.mgmt.nonce + 1, nonceAt := some t.tick.loc, nonceUsed := false } }
      (t1, some (stOk, t1.nonceBytes ++ serial))
    else
      let lc := t.fld mgtStatus 25 3
      let non := (body.drop 4).take 32
      let fresh := match t.mgmt.nonceAt with
        | some a => decide (ticksSince a t.tick.loc ≤ 1024) && !t.mgmt.nonceUsed && decide (non = t.nonceBytes)
        | none => false
      let good := decide (lc = 1 ∨ lc = 3) && fresh && Config.debugSigOk (non ++ serial) (body.drop 36) && decide (t.mgmt.debugBad < 8)
      let t1 := if non = t.nonceBytes then { t with mgmt := { t.mgmt with nonceUsed := true } } else t
      if good then ok ((t1.setFld mgtStatus 22 2 2).raise 0x020A [])
      else refuse ({ t1 with mgmt := { t1.mgmt with debugBad := t1.mgmt.debugBad + 1 } }.cnt mgtDebugFailCnt) stDebugLocked))

/-! ### Boot (R344-R346, R359) -/

/-- Complete a pending pair forward (R356). -/
def State.completePending (s : State) : State :=
  match (List.range 4).find? (fun k => fuseBurned (s.fuse (2 * k)) && !fuseBurned (s.fuse (2 * k + 1))) with
  | none => s.takeLc s.lcState
  | some k =>
    let old := s.lcState
    let s1 := ((s.lcEffects (k + 1)).burn (2 * k + 1)).takeLc (k + 1)
    (s1.setBit mgtStatus 24 true).raiseLate 0x0206 [.w old, .w (k + 1), .w 1]

/-- The active core that a cold boot chooses (R359). -/
def State.coldCore (s : State) : Nat :=
  let pref := match s.newestFjx with
    | none => 0
    | some i => match s.fjxParse (s.fjxCopy i) with
      | none => 0
      | some rs => rs.foldl (fun m r => match r with | .mcPref c => c | _ => m) 0
  if s.present 11 0 && s.present 11 1 then pref else if s.present 11 0 then 0 else 1

/-- The running firmware of copy i: status and information registers (R344, R371). -/
def State.runFw (s : State) (i : Nat) (fallback : Bool) : State :=
  let c := s.fwCopy i
  let s1 := ((s.setBit mgtStatus 21 (decide (i = 1))).setBit mgtStatus 19 fallback).setBit mgtStatus 28 false
  let s2 := (s1.setN mgtFwInfo (c.svn * 2 ^ 24 + c.keyId * 2 ^ 16 + c.version)).setReg mgtFwGen (c.commit.getD 0)
  let s3 := s2.setN mgtSvnMin s2.mgmt.svnMin
  let s4 := s3.setBit mgtStatus 30 (s3.present 11 0 && s3.present 11 1)
  { s4 with mgmt := { s4.mgmt with watchdog := true, code := [], inRecovery := false, recovBoot := false, stopped := false } }

/-- Recovery (R346). -/
def State.enterRecovery (s : State) : State :=
  let s1 := (s.setBit mgtStatus 28 true)
  { s1 with mgmt := { s1.mgmt with inRecovery := true, watchdog := false, recovBoot := false },
            ev := { s1.ev with late := [] } }

/-- A boot record: the boot count goes up once at each cold module reset (R31, R344). -/
def State.countBoot (s : State) : State := { s with mgmt := { s.mgmt with bootCount := s.mgmt.bootCount + 1 } }

/-- The boot ROM (R344): lifecycle, choice of copy, watchdog. The firmware then raises the events that waited for it. -/
def State.bootRom (s : State) (cold : Bool) : State :=
  let s1 := s.completePending
  if s1.lcState = 4 then { s1 with mgmt := { s1.mgmt with stopped := true } }
  else
    let first := match s1.mgmt.fwA.commit, s1.mgmt.fwB.commit with
      | some a, some b => if newerGen b a then 1 else 0
      | none, some _ => 1
      | _, none => 0
    let r1 := s1.fwReason (s1.fwCopy first)
    let r2 := s1.fwReason (s1.fwCopy (1 - first))
    let s2 := if r1 = 0 then s1 else s1.raiseLate 0x0202 [.w first, .w r1]
    let s3 := if r1 = 0 ∨ r2 = 0 then s2 else s2.raiseLate 0x0202 [.w (1 - first), .w r2]
    if r1 ≠ 0 ∧ r2 ≠ 0 then s3.enterRecovery
    else
      let s4 := if cold then s3.setBit mgtStatus 31 (decide (s3.coldCore = 1)) else s3
      (s4.runFw (if r1 = 0 then first else 1 - first) (decide (r1 ≠ 0))).raiseHeld

/-- RECOVERY_BOOT_START: the boot that follows a recovery commit, without a reset (R346). -/
def execRecoveryBootStart (s : State) : Res :=
  if s.mgmt.inRecovery && s.mgmt.recovBoot then .next (s.bootRom false) else .next s

/-! ### Checkpoint and takeover (R359-R363) -/

/-- The complete buffer with the newer generation. -/
def State.bestBuf (s : State) : Option (Nat × CkptBuf) :=
  let a := s.mgmt.buf0
  let b := s.mgmt.buf1
  if a.complete && (!b.complete || newerGen a.gen b.gen) then some (0, a)
  else if b.complete then some (1, b) else none

def State.setBuf (s : State) (i : Nat) (b : CkptBuf) : State :=
  if i = 0 then { s with mgmt := { s.mgmt with buf0 := b } } else { s with mgmt := { s.mgmt with buf1 := b } }

/-- Start a checkpoint into the buffer that does not hold the last complete generation (R360). -/
def State.ckptBegin (s : State) : State :=
  let i := match s.bestBuf with | some (j, _) => 1 - j | none => 0
  let b := if i = 0 then s.mgmt.buf0 else s.mgmt.buf1
  let s1 := s.setBuf i { b with complete := false }
  let s2 := { s1 with mgmt := { s1.mgmt with ckptJseq := s.mgmt.jseq, ckptLast := s.tick.loc } }
  s2.setN mgtCkptStatus (i * 2 ^ 31 + 2 ^ 30)

/-- The last slice: the buffer is complete (R360); older journal records may go (R361). -/
def State.ckptEnd (s : State) : State :=
  let i := s.fld mgtCkptStatus 31 1
  let g := s.reg mgtCkptGen + 1
  let s1 := s.setBuf i ⟨true, g, s.mgmt.ckptJseq, s.nalug.kept⟩
  let keep := s.mgmt.jrnl.filter (fun r => decide ((r.jseq - s.mgmt.ckptJseq).toNat < 2 ^ 31))
  let s2 := { s1 with mgmt := { s1.mgmt with jrnl := keep } }
  (s2.setReg mgtCkptGen g).setBit mgtCkptStatus 30 false

/-- CKPT_TICKS, at least 512 (R371). -/
def State.ckptTicks (s : State) : Nat := max 512 (s.fld mgtHaCtl 12 16)

/-- CHECKPOINT_START: due every CKPT_TICKS ticks while none runs (R360). -/
def execCheckpointStart (s : State) : Res :=
  if s.bit mgtCkptStatus 30 || decide (ticksSince s.mgmt.ckptLast s.tick.loc < s.ckptTicks) then .next s
  else .next s.ckptBegin

/-- A slice of 8 KiB, at most one per tick; 384 make a buffer (R360). -/
def State.ckptSlice (s : State) : State :=
  if !s.bit mgtCkptStatus 30 || decide (s.mgmt.sliceAt = some s.tick.loc) then s
  else
    let n := s.fld mgtCkptStatus 16 9
    let s1 := { s with mgmt := { s.mgmt with sliceAt := some s.tick.loc } }
    if n < 383 then s1.setFld mgtCkptStatus 16 9 (n + 1) else s1.ckptEnd

/-- CHECKPOINT_SLICE: none past the guard point (R29, R360). -/
def execCheckpointSlice (s : State) : Res := .next (if s.tick.guardDone then s else s.ckptSlice)

/-- The active core. -/
def State.activeCore (s : State) : Nat := s.fld mgtStatus 31 1

/-- The new active core takes over (R362): checkpoint, replay, EV_MC_SWITCHOVER; the replies that neither hold are gone (R316). -/
def State.takeover (s : State) (old new cause : Nat) (replay : Bool := true) : State :=
  let best := s.bestBuf
  let gen : Word := match best with | some (_, b) => b.gen | none => 0
  let from0 : Word := match best with | some (_, b) => b.jseqAt | none => 0
  let held : List Kept := match best with | some (_, b) => b.kept | none => []
  let n := if !replay then 0 else (s.mgmt.jseq - from0).toNat
  let kept := s.nalug.kept.filter (fun k => k.safe || held.any (fun h => decide (h.src = k.src) && decide (h.seq = k.seq)))
  let s1 := { s with nalug := { s.nalug with kept := kept } }
  let s2 := (s1.setFld mgtStatus 31 1 new).setBit mgtStatus 30 (s1.present 11 0 && s1.present 11 1)
  let (v, s3) := s2.draw
  let s4 := (({ s3 with mgmt := { s3.mgmt with actSince := s.tick.loc } }.setN mgtSwitchTime (v % 1025)).cnt mgtSwitchCnt).ckptBegin
  let s5 := s4.breakLocksOf (fun x => decide (x.path = 4) && decide (x.port.toNat = old) && decide (old ≠ new))
  s5.raise 0x0207 [.w old, .w new, .w cause, .w gen.toNat, .w n]

/-- A core fails: the second time within 65,536 ticks it is retired, unless it is the last (R362). -/
def State.coreFailed (s : State) (c cause : Nat) : State :=
  let prev := tget 0 s.mgmt.failAt c
  let now := s.tick.loc
  let twice := prev ≠ 0 ∧ ticksSince (BitVec.ofNat 48 (prev - 1)) now < 65536
  let s1 := { s with mgmt := { s.mgmt with failAt := tput 0 s.mgmt.failAt c (now.toNat + 1) } }
  let other := s.present 11 (1 - c)
  let s2 := if twice ∧ other then s1.retireUnit 11 c else s1
  if s.activeCore ≠ c then s2.setBit mgtStatus 30 (s2.present 11 0 && s2.present 11 1)
  else if other then (if s.bit mgtHaCtl 31 then s2.takeover c (1 - c) cause else s1)
  else s2.takeover c c cause

/-- HB_TICKS of MGT_HA_CTL; 0 is treated as 32. -/
def State.hbTicks (s : State) : Nat := let v := s.fld mgtHaCtl 0 8; if v = 0 then 32 else v

/-- HEARTBEAT_TIMEOUT: the active core's heartbeat has been missing for HB_TICKS ticks (R362), which a core that began fewer ticks ago
cannot have reached. -/
def execHeartbeatTimeout (s : State) : Res :=
  .next (if ticksSince s.mgmt.actSince s.tick.loc < s.hbTicks then s else s.coreFailed s.activeCore 1)

/-- MC_FATAL_FAULT (R362). -/
def execMcFatalFault (c : CoreIx) (s : State) : Res :=
  if s.present 11 c then .next (s.coreFailed c 2) else .next s

/-- OP_MC_SWITCH: stepped (R363). -/
def execOpMcSwitch (q : Req) (body : List Byte) (s : State) : Res :=
  .next (s.nalug_run 0x0208 q body { lenOk := body.length = 0 } (fun t =>
    if !(t.present 11 0 && t.present 11 1) then refuse t stUnitAbsent else t.stepStart 0x0208 q .mcSwitch 2 0))

/-- The steps of OP_MC_SWITCH: a checkpoint is completed, a slice in a step, then the standby takes over with an empty replay (R29,
R363). -/
def State.mcSwitchStep (s : State) (k : Nat) : State :=
  match (s.slot k).phase with
  | 0 => (if s.bit mgtCkptStatus 30 then s else s.ckptBegin).stepPhase k 2
  | 2 =>
    let t := s.ckptSlice
    if t.bit mgtCkptStatus 30 then t else t.stepNext k 1
  | _ =>
    let old := s.activeCore
    let s1 := s.takeover old (1 - old) 3 false
    s1.stepFinish k stOk (toLe 1 (1 - old))

end Sys2Proof.Machine
end

