-- ==== Sys2Proof/Machine/Power.lean ====
section
/-! DEFINITION. Module power: the keeper's states, feeds, inrush, rails and going off (chapter 12). -/

namespace Sys2Proof.Machine

/-! ### Fields of PWR_STATUS, PWR_FAULT and PWR_LAST_OFF (R311) -/

def kUnseated := 0
def kDebounce := 1
def kStandby := 2
def kInrush := 3
def kSequencing := 4
def kOn := 5
def kStopping := 6
def kOffWait := 7
def kFault := 8

def State.kState (s : State) : Nat := s.fld pwrStatus 28 4
def State.setK (s : State) (k : Nat) : State := s.setFld pwrStatus 28 4 k
def State.feedOk (s : State) (f : Nat) : Bool := s.bit pwrStatus (24 - f)
def State.passDamaged (s : State) : Bool := s.bit pwrFault 31

/-- The removal-unsafe indication (R301). -/
def State.setUnsafe (s : State) : State := s.setBit pwrStatus 18 (s.pwr.vbusHigh || s.passDamaged)

/-- Raise an event while the management complex runs (R299). -/
def State.raiseUp (s : State) (code : Nat) (vals : List EvVal) : State := if s.pwr.mgmtUp then s.raise code vals else s

/-- Record an off event: cause, group, and the count, which saturates (R304, R311). -/
def State.recordOff (s : State) (cause group : Nat) : State :=
  let n := min (s.fld pwrLastOff 0 20 + 1) (2 ^ 20 - 1)
  let s1 := s.setN pwrLastOff (cause * 2 ^ 24 + group * 2 ^ 20 + n)
  { s1 with pwr := { s1.pwr with offKind := cause } }

/-- Both pass transistors off and the bleeder on. -/
def State.passOff (s : State) : State :=
  (({ s with pwr := { s.pwr with pass := 0, oring := 0, bleeder := true } }).setFld pwrStatus 21 2 0)

/-- Emergency off (R304): every group drops, both pass transistors open, the cause is recorded, the bleeder connects. -/
def State.emergencyOff (s : State) (cause group : Nat) : State :=
  let s1 := (s.recordOff cause group).passOff
  let s2 := { s1 with pwr := { s1.pwr with group := 0, mgmtUp := false, bootRan := false } }
  ((s2.setK kOffWait).setBit pwrStatus 19 false).setUnsafe

/-- Powered: the states in which the pass transistors may be on. -/
def State.powered (s : State) : Bool := [kInrush, kSequencing, kOn].contains s.kState

/-- Start the inrush through a feed (R299, R300). -/
def State.startInrush (s : State) (f : Nat) : State :=
  let s1 := { s with pwr := { s.pwr with charging := f, pass := 2 ^ f, oring := 2 ^ f, vbusHigh := true, bleeder := false, keepRun := true } }
  (s1.setK kInrush).setUnsafe

/-- A feed may be turned on: in range, enabled, not latched, its ORing transistor good. -/
def State.feedUsable (s : State) (f : Nat) : Bool :=
  s.feedOk f && s.bit pwrCtl (30 - f) && !nbit s.pwr.latched f && !nbit s.pwr.oringBad f

/-- A set of feeds with one feed's bit set or cleared. -/
def withFeed (m f : Nat) (on : Bool) : Nat :=
  if on then (if nbit m f then m else m + 2 ^ f) else (if nbit m f then m - 2 ^ f else m)

/-- A feed's path on or off. -/
def State.feedPath (s : State) (f : Nat) (on : Bool) : State :=
  let s1 := { s with pwr := { s.pwr with pass := withFeed s.pwr.pass f on, oring := withFeed s.pwr.oring f on } }
  s1.setFld pwrStatus 21 2 (withFeed (s.fld pwrStatus 21 2) f on)

/-- STANDBY without a running timer: CK_KEEP stops (R307). -/
def State.standby (s : State) : State := { s with pwr := { s.pwr with keepRun := false } }.setK kStandby

/-- SEAT_PINS_SEATED (R299). -/
def execSeatPinsSeated (s : State) : Res :=
  if s.kState = kUnseated ∧ s.pwr.supply then
    .next (({ s with pwr := { s.pwr with keepRun := true } }.setK kDebounce).setFld pwrStatus 26 2 3)
  else .next s

/-- SEAT_PIN_CHANGE: the 50 ms timer restarts (R299). -/
def execSeatPinChange (a b : Bool) (s : State) : Res :=
  if s.kState = kDebounce then .next ((s.setBit pwrStatus 27 a).setBit pwrStatus 26 b) else .next s

/-- SEAT_DEBOUNCE_EXPIRY: both pins have read seated for 50 ms (R299): a reseat ends a feed's latch (R298); CK_KEEP stops again in
STANDBY (R307). -/
def execSeatDebounceExpiry (s : State) : Res :=
  if s.kState = kDebounce ∧ s.fld pwrStatus 26 2 = 3 then
    .next (({ s with pwr := { s.pwr with latched := 0, tripped := 0 } }.setBit pwrFault 24 false).standby)
  else .next s

/-- PASS_DAMAGED: a mid node or V_BUS above 10 V with both pass transistors off (R302). -/
def State.damage (s : State) (a b : Bool) : State :=
  let feeds := if !a && !b then 3 else b2n a + 2 * b2n b
  let s1 := ((s.setBit pwrFault 31 true).setFld pwrFault 29 2 feeds).recordOff 6 0
  (s1.raiseUp 0x0A04 [.w feeds]).setUnsafe

/-- ON_REQ_LOW: ON_REQ# low for 1 ms in STANDBY, with the readings of the pass check in mV (R299, R302). -/
def execOnReqLow (va vb vbus midA midB : Nat) (s : State) : Res :=
  let s0 := s.setBit pwrStatus 25 true
  let s1 := if s.bit pwrStatus 25 then s0
            else { s0 with pwr := { s0.pwr with latched := 0, tripped := 0 } }.setBit pwrFault 24 false
  let s2 := (s1.setN (pwrFeedV 0) (min va 65535)).setN (pwrFeedV 1) (min vb 65535)
  if s.kState ≠ kStandby then .next s0
  else if s.passDamaged then .next s1
  else if 2000 ≤ vbus ∨ 2000 ≤ midA ∨ 2000 ≤ midB then
    .next ((s2.damage (decide (10000 < midA)) (decide (10000 < midB))).setK kFault)
  else
    let ua := s2.feedUsable 0
    let ub := s2.feedUsable 1
    if ua && (!ub || decide (vb ≤ va)) then .next (s2.startInrush 0)
    else if ub then .next (s2.startInrush 1)
    else .next s2

/-- FAULT_ON_REQ_CYCLE: ON_REQ# high then low leaves FAULT for STANDBY, unless PASS_DAMAGED blocks it (R299, R302). -/
def execFaultOnReqCycle (s : State) : Res :=
  if s.kState = kFault ∧ !s.passDamaged then
    let s1 := { s with pwr := { s.pwr with latched := 0, tripped := 0, offKind := 0 } }
    .next ((s1.setBit pwrFault 24 false).standby)
  else .next s

/-- INRUSH_COMPLETE: V_BUS within 1.0 V of the charging feed; the other feed's path is enabled, group 0 too (R299, R303). -/
def execInrushComplete (s : State) : Res :=
  if s.kState = kInrush then
    let o := 1 - s.pwr.charging
    let s1 := s.feedPath s.pwr.charging true
    let s2 := if s1.feedUsable o then s1.feedPath o true else s1
    .next ({ s2 with pwr := { s2.pwr with group := 0 } }.setK kSequencing)
  else .next s

/-- INRUSH_TIMEOUT: 60 ms (R299, R300). -/
def execInrushTimeout (s : State) : Res :=
  if s.kState = kInrush then .next ((s.recordOff 5 0).passOff.setK kFault) else .next s

/-- INRUSH_FEED_LOST: the charging feed leaves range; restart on the other feed, else STANDBY (R299). -/
def execInrushFeedLost (s : State) : Res :=
  if s.kState = kInrush then
    let o := 1 - s.pwr.charging
    let s1 := s.setBit pwrStatus (24 - s.pwr.charging) false
    if s1.feedUsable o then .next (s1.startInrush o) else .next s1.passOff.standby
  else .next s

/-- RAIL_GROUP_SETTLED: a group has stayed in its window for 0.5 ms (R303): the next group; after group 3 the
management reset is released; after group 9 ALL_GOOD, ON, and the cold module reset ends. -/
def execRailGroupSettled (g : Fin 10) (s : State) : Res :=
  if s.kState = kSequencing ∧ s.pwr.group = g then
    let s1 := { s with pwr := { s.pwr with group := g + 1, mgmtUp := s.pwr.mgmtUp || decide ((g : Nat) = 3) } }
    if (g : Nat) = 9 then
      let s2 := { s1 with nalug := { s1.nalug with resets := s1.nalug.resets ++ [(2, 0, 0, s.tick.loc)] } }
      .next ((s2.setK kOn).setBit pwrStatus 19 true)
    else .next s1
  else .next s

/-- RAIL_GROUP_TIMEOUT: not in its window within 2 ms, which is a rail fault (R303, R304). -/
def execRailGroupTimeout (g : Fin 10) (s : State) : Res :=
  if s.kState = kSequencing ∧ s.pwr.group = g then .next (s.emergencyOff 3 g) else .next s

/-- RAIL_FAULT: a rail leaves its window for 10 µs (R304). -/
def execRailFault (g : Fin 10) (s : State) : Res :=
  if s.powered then .next (s.emergencyOff 3 g) else .next s

/-- EXTRACTION: a seat pin open for 10 µs (R299, R304). -/
def execExtraction (s : State) : Res :=
  let s1 := s.setFld pwrStatus 26 2 0
  if s.kState = kUnseated ∨ s.kState = kDebounce then .next s
  else if s.pwr.vbusHigh then .next (s1.emergencyOff 2 0)
  else .next ((s1.recordOff 2 0).setK kUnseated)

/-- VBUS_UNDERVOLTAGE: V_BUS below 36.0 V (R299, R304, R306); with both feeds tripped the cause is CB_TRIP. -/
def execVbusUndervoltage (s : State) : Res :=
  if s.powered then
    let s1 := s.setBit pwrStatus 20 false
    .next (s1.emergencyOff (if s.pwr.tripped = 3 then 7 else 4) 0)
  else .next s

/-- Orderly off (R305): STOPPING, the cold module reset asserted, groups 9 to 0 to be disabled. -/
def State.orderlyOff (s : State) : State :=
  if s.kState = kSequencing ∨ s.kState = kOn then
    let s1 := s.recordOff 1 0
    let s2 := { s1 with pwr := { s1.pwr with down := 10, mgmtUp := false, bootRan := false } }
    (s2.setK kStopping).setBit pwrStatus 19 false
  else s

/-- ON_REQ_HIGH: ON_REQ# high for 1 ms (R299, R305). -/
def execOnReqHigh (s : State) : Res := .next ((s.setBit pwrStatus 25 false).orderlyOff)

/-- OP_MODULE_OFF: answered, then the orderly off begins (R305, R323). -/
def execOpModuleOff (q : Req) (body : List Byte) (s : State) : Res :=
  let s1 := s.nalug_run 0x0A01 q body { lenOk := body.length = 0 } (fun t => ok { t with pwr := { t.pwr with cycled := true } })
  .next (if s1.pwr.cycled then { s1 with pwr := { s1.pwr with cycled := false } }.orderlyOff else s1)

/-- PWR_CTL_OFF: a write of PWR_CTL.OFF = 1 (R311). -/
def execPwrCtlOff (s : State) : Res := .next s.orderlyOff

/-- A write of FEED_x_EN: 0 turns the feed's path off, and is discarded while the other feed is not in range (R311). -/
def State.feedEnable (s : State) (f : Nat) (v : Bool) : State :=
  if !v && !s.feedOk (1 - f) then s
  else
    let s1 := s.setBit pwrCtl (30 - f) v
    if !v then s1.feedPath f false
    else if (s.kState = kSequencing ∨ s.kState = kOn) ∧ s1.feedUsable f then s1.feedPath f true else s1

/-- PWR_CTL_FEED_A_EN (R311). -/
def execPwrCtlFeedAEn (v : Bool) (s : State) : Res := .next (s.feedEnable 0 v)
/-- PWR_CTL_FEED_B_EN (R311). -/
def execPwrCtlFeedBEn (v : Bool) (s : State) : Res := .next (s.feedEnable 1 v)

/-- ORDERLY_OFF_GROUP_DISABLE: groups go from 9 to 0; after group 0 the pass transistors open (R305). -/
def execOrderlyOffGroupDisable (g : Fin 10) (s : State) : Res :=
  if s.kState = kStopping ∧ s.pwr.down = g + 1 then
    let s1 := { s with pwr := { s.pwr with down := g } }
    .next (if (g : Nat) = 0 then s1.passOff else s1)
  else .next s

/-- VBUS_DISCHARGED: V_BUS below 10 V (R299, R301, R304). -/
def execVbusDischarged (s : State) : Res :=
  let s1 := { s with pwr := { s.pwr with vbusHigh := false, bleeder := false } }.setUnsafe
  if s.kState = kStopping then .next s1.standby
  else if s.kState = kOffWait then .next (s1.setK (if s.pwr.offKind = 2 then kUnseated else kFault))
  else .next s1

/-- FEED_IN_RANGE: between 38.0 V and 62.0 V for 1 ms (R296, R306). -/
def execFeedInRange (f : FeedIx) (mv : Nat) (s : State) : Res :=
  if !s.pwr.supply then .next s
  else
    let was := s.feedOk f
    let s1 := (s.setBit pwrStatus (24 - f) true).setN (pwrFeedV f) (min mv 65535)
    if (s.kState = kSequencing ∨ s.kState = kOn) ∧ !was then
      let s2 := if s1.feedUsable f then s1.feedPath f true else s1
      let s3 := if s.bit pwrStatus 20 then (s2.setBit pwrStatus 20 false).cnt pwrPfailCnt else s2
      .next (s3.raiseUp 0x0A03 [.w (f : Nat)])
    else .next s1

/-- ORING_TURN_OFF: the mid node falls 10 mV below V_BUS (R297). -/
def execOringTurnOff (f : FeedIx) (s : State) : Res :=
  let s1 := { s with pwr := { s.pwr with oring := withFeed s.pwr.oring f false } }
  .next (s1.setFld pwrStatus 21 2 (withFeed (s.fld pwrStatus 21 2) f false))

/-- ORING_FAIL: reverse current after a commanded turn-off (R297); the feed stays off until keeper power-on. -/
def execOringFail (f : FeedIx) (s : State) : Res :=
  if nbit s.pwr.oring f then .next s
  else
    let s1 := (s.feedPath f false).setBit pwrFault 28 true
    let s2 := { s1 with pwr := { s1.pwr with oringBad := withFeed s1.pwr.oringBad f true } }
    .next (s2.raiseUp 0x0A0B [.w (f : Nat)])

/-- Ticks in 60 s. -/
def sixtySeconds : Nat := 58593750

/-- CB_TRIP: the feed's circuit breaker opens; a second trip within 60 s latches it off (R298). -/
def execCbTrip (f : FeedIx) (ma : Nat) (s : State) : Res :=
  if nbit s.pwr.pass f then
    let prev := tget 0 s.pwr.tripAt f
    let again : Bool := decide (prev ≠ 0) && decide (ticksSince (BitVec.ofNat 48 (prev - 1)) s.tick.loc < sixtySeconds)
    let s1 := ((s.feedPath f false).setBit pwrFault 25 true).cnt pwrCbTripCnt
    let s2 := if again then s1.setBit pwrFault 24 true else s1
    let s3 := { s2 with pwr := { s2.pwr with tripAt := tput 0 s.pwr.tripAt f (s.tick.loc.toNat + 1),
                                              tripped := withFeed s2.pwr.tripped f true,
                                              latched := withFeed s2.pwr.latched f (again || nbit s.pwr.latched f),
                                              retry := withFeed s2.pwr.retry f (!again) } }
    .next (s3.raiseUp 0x0A06 [.w (f : Nat), .w ma])
  else .next s

/-- Ticks in 1 s, the last one begun. -/
def oneSecond : Nat := 976563

/-- CB_RETRY: 1 s after a trip the feed is turned on once more, while the module is powered (R298). The second is counted where the
tick counts run; else the command stands for it. -/
def execCbRetry (f : FeedIx) (s : State) : Res :=
  if s.kState = kOn ∧ ticksSince (BitVec.ofNat 48 (tget 0 s.pwr.tripAt f - 1)) s.tick.loc < oneSecond then .next s
  else if nbit s.pwr.retry f ∧ s.feedUsable f ∧ s.powered then
    let s1 := { s with pwr := { s.pwr with retry := withFeed s.pwr.retry f false, tripped := withFeed s.pwr.tripped f false } }
    .next (s1.feedPath f true)
  else .next { s with pwr := { s.pwr with retry := withFeed s.pwr.retry f false } }

/-- PASS_DAMAGED (R302); a fault that stands already is recorded once. -/
def execPassDamaged (a b : Bool) (s : State) : Res :=
  if s.pwr.pass = 0 ∧ s.kState ≠ kInrush ∧ !s.passDamaged then .next (s.damage a b) else .next s

/-- KEEPER_SUPPLY_LOST: both feeds below 20 V; the keeper stops (R308). -/
def execKeeperSupplyLost (s : State) : Res :=
  let s1 := { s with pwr := { s.pwr with supply := false, pass := 0, oring := 0, mgmtUp := false, bootRan := false, keepRun := false } }
  .next ((s1.setFld pwrStatus 21 4 0).setBit pwrStatus 19 false)

end Sys2Proof.Machine
end

