-- ==== Sys2Proof/Machine/Coding.lean ====
section
/-! DEFINITION. What fabric lanes carry: Gray levels, codewords, scrambler, stuffing, marker blocks, flits, training blocks,
test patterns (R221-R227, R278, R290). -/

namespace Sys2Proof.Machine

/-- A bit pair, earlier bit first, to its level (R221). -/
def grayLevel (b1 b0 : Bool) : Nat :=
  match b1, b0 with
  | false, false => 0
  | false, true => 1
  | true, true => 2
  | true, false => 3

/-- Bits of a field, lowest-numbered first (R221). -/
def fieldBits (n v : Nat) : List Bool := (List.range n).map (fun k => nbit v k)

/-! ### Reed-Solomon code RS(544,514) over GF(2^10) (R222) -/

/-- Product in GF(2^10) with x^10 + x^3 + 1. -/
def gfMul (a b : Nat) : Nat :=
  ((List.range 10).foldl (fun (x : Nat × Nat) k =>
    let r := if nbit b k then x.1 ^^^ x.2 else x.1
    let s := x.2 * 2
    (r, if 1024 ≤ s then (s ^^^ 0x409) else s)) (0, a % 1024)).1

/-- The generator with roots α^0 to α^29, highest degree first. -/
def rsGen : List Nat :=
  ((List.range 30).foldl (fun (x : List Nat × Nat) _ =>
    let p := x.1
    ((p ++ [0]).zipWith (fun (a b : Nat) => a ^^^ gfMul b x.2) (0 :: p), gfMul x.2 2)) ([1], 1)).1

/-- The 30 parity symbols of 514 message symbols, highest degree first. -/
def rsParity (msg : List Nat) : List Nat :=
  msg.foldl (fun (r : List Nat) m =>
    let f := m ^^^ r.headD 0
    (r.drop 1 ++ [0]).zipWith (fun (a b : Nat) => a ^^^ gfMul b f) (rsGen.drop 1)) (List.replicate 30 0)

/-- The codeword frame field: CW_INDEX and three copies of QUIET. -/
def cff (index : Nat) (quiet : Bool) : Nat := index % 256 * 4096 + (if quiet then 7 * 512 else 0)

/-- QUIET as the receiver takes it: the majority of its copies (R246). -/
def cffQuiet (f : Nat) : Bool := decide (2 ≤ b2n (nbit f 9) + b2n (nbit f 10) + b2n (nbit f 11))

/-- Message symbols of a codeword: CFF, then five flits. -/
def cwSymbols (cf : Nat) (flits : List (List Byte)) : List Nat :=
  let bs := fieldBits 20 cf ++ (flits.flatten).flatMap (fun b => fieldBits 8 b.toNat)
  (List.range 514).map (fun s => (List.range 10).foldl (fun a k => a + b2n (bs.getD (10 * s + k) false) * 2 ^ k) 0)

/-- Symbols of a codeword that a logical lane carries. -/
def laneSymbols (cw : List Nat) (lane : Nat) : List Nat := (List.range 136).map (fun k => cw.getD (4 * k + lane) 0)

/-- The bits of a codeword that a logical lane carries, in the order of sending (R221, R222). -/
def laneBits (cw : List Nat) (lane : Nat) : List Bool := (laneSymbols cw lane).flatMap (fieldBits 10)

/-- Bit pairs to levels (R221). -/
def levels : List Bool → List Nat
  | b1 :: b0 :: r => grayLevel b1 b0 :: levels r
  | _ => []

/-! ### Scrambler, stuffing (R223, R224) -/

/-- The scrambler's value after the marker blocks of a period begin it. -/
def scrLoad (lane period : Nat) : Nat := 2 ^ 30 + lane % 4 * 2 ^ 28 + period % 65536 * 2 ^ 12 + 0x5A5

/-- One bit: the bit sent and the register after it. -/
def scrBit (s : Nat) (d : Bool) : Bool × Nat :=
  let z := nbit s 30 != nbit s 27
  (d != z, (s * 2 + b2n z) % 2 ^ 31)

/-- Bits scrambled, and the register after them. -/
def scramble : Nat → List Bool → List Bool × Nat
  | s, [] => ([], s)
  | s, d :: r =>
    let x := scrBit s d
    let y := scramble x.2 r
    (x.1 :: y.1, y.2)

/-- Insert a stuff symbol after 32 equal levels; the run restarts with it. The symbols, the level and the length of the run after
them, and the stuff symbols inserted. -/
def stuffSyms : Nat → Nat → List Nat → List Nat × Nat × Nat × Nat
  | last, run, [] => ([], last, run, 0)
  | last, run, x :: r =>
    let n := if run ≠ 0 ∧ x = last then run + 1 else 1
    if n = 32 then
      let f := if x ≤ 1 then 3 else 0
      let y := stuffSyms f 1 r
      (x :: f :: y.1, y.2.1, y.2.2.1, y.2.2.2 + 1)
    else
      let y := stuffSyms x n r
      (x :: y.1, y.2)

/-- Remove the symbol after any 32 equal levels: the symbols, and the symbol errors counted. -/
def destuff : Nat → Nat → List Nat → List Nat × Nat
  | _, _, [] => ([], 0)
  | last, run, x :: r =>
    if run = 32 then
      let y := destuff x 1 r
      (y.1, y.2 + b2n (decide (x = last)))
    else
      let n := if run ≠ 0 ∧ x = last then run + 1 else 1
      let y := destuff x n r
      (x :: y.1, y.2)

/-! ### Marker blocks (R225) -/

def markerPattern : List Nat := [3, 0, 0, 3, 3, 3, 0, 3, 0, 0, 0, 3, 3, 0, 3, 0]

/-- A marker block of a lane that inserted `s` stuff symbols. -/
def markerBlock (lane period cws s : Nat) : List Nat :=
  let fill := 24 - s
  markerPattern ++ (fieldBits 3 lane ++ fieldBits 16 period ++ fieldBits 8 (cws % 256) ++ fieldBits 5 fill).map (fun b => 3 * b2n b) ++
  (List.range fill).map (fun k => 3 * (k % 2))

/-! ### Flits (R227) -/

def crc64Byte (c : BitVec 64) (b : Byte) : BitVec 64 :=
  (List.range 8).foldl (fun (x : BitVec 64) _ => if x.getLsbD 63 then (x <<< 1) ^^^ 0x42F0E1EBA9EA3693#64 else x <<< 1)
    (c ^^^ ((b.setWidth 64) <<< 56))

/-- CRC-64 over bytes. -/
def crc64 (b : List Byte) : BitVec 64 := b.foldl crc64Byte (BitVec.allOnes 64) ^^^ BitVec.allOnes 64

/-- The 128 bytes of a flit: FTYPE, SEQ, ACK_SEQ, ACK_V, NAK, START, CTYPE, payload. -/
def flitBytes (ft seq ack : Nat) (ackV nak : Bool) (start ctype : Nat) (pay : List Byte) : List Byte :=
  let h := ft * 2 ^ 62 + seq % 4096 * 2 ^ 50 + ack % 4096 * 2 ^ 38 + b2n ackV * 2 ^ 37 + b2n nak * 2 ^ 36 + start % 128 * 2 ^ 25 + ctype % 256
  let b := toLe 8 h ++ (pay ++ List.replicate 112 0).take 112
  b ++ toLe 8 (crc64 b).toNat

/-- The payload of a control flit (R231): of its values in their order. -/
def ctlPayload (ctype : Nat) (v : List Nat) : List Byte :=
  let x := fun i => v.getD i 0
  match ctype with
  | 1 => toLe 1 (x 0) ++ toLe 1 (x 1) ++ toLe 2 (x 2) ++ toLe 4 (x 3) ++ toLe 2 (x 4) ++ toLe 2 (x 5) ++ ((List.range 8).map (fun c => toLe 1 (x (6 + c)))).flatten ++ toLe 2 (x 14)
  | 2 => ((List.range 9).map (fun c => toLe 2 (x c))).flatten
  | 3 => toLe 6 (x 0) ++ toLe 2 (x 1) ++ toLe 4 (x 2 + x 3 * 2 ^ 24 + x 4 * 2 ^ 31 + x 5 * 2 ^ 30)
  | 4 => toLe 8 (x 0) ++ toLe 4 (x 1)
  | 5 => toLe 8 (x 0) ++ toLe 8 (x 1) ++ toLe 8 (x 2) ++ toLe 4 (x 3)
  | 6 => toLe 1 (x 0) ++ toLe 1 (x 1) ++ toLe 2 (x 2) ++ toLe 2 (x 3) ++ toLe 1 (x 4)
  | _ => toLe 1 (x 0)

/-- The 16 bytes of a message header, SHN 0 (R228). -/
def msgHead (hop : Nat) (yellow : Bool) (cls mtype len dst src tag : Nat) : List Byte :=
  toLe 1 (hop % 16 * 16 + b2n yellow * 8 + cls % 8) ++ toLe 1 mtype ++ toLe 2 len ++ toLe 4 dst ++ toLe 4 src ++ toLe 4 tag

/-- A message with its SHN. -/
def setShn (b : List Byte) (shn : Nat) : List Byte := b.take 4 ++ toLe 4 (leAt b 4 4 % 2 ^ 26 + shn % 64 * 2 ^ 26) ++ b.drop 8

/-- A flit whose 128 bytes carry a right CRC. -/
def flitCrcOk (b : List Byte) : Bool := decide (b.length = 128) && decide ((crc64 (b.take 120)).toNat = leAt b 120 8)

/-! ### Training blocks (R278) -/

def trainPattern : List Nat :=
  [3, 3, 3, 3, 0, 0, 0, 0, 3, 0, 3, 0, 3, 3, 0, 0, 3, 0, 0, 3, 0, 3, 3, 0, 0, 3, 3, 3, 0, 0, 0, 3]

/-- The 32 field bits of a training block. -/
def trainFields (phys locked phase : Nat) : List Bool :=
  let f := fieldBits 3 phys ++ fieldBits 5 locked ++ fieldBits 3 phase ++ List.replicate 20 false
  f ++ [f.foldl (fun a b => a != b) false]

/-- Parity over symbols 32 to 62 agrees with symbol 63. -/
def trainParityOk (f : List Bool) : Bool := decide (f.length = 32) && !(f.foldl (fun a b => a != b) false)

/-! ### Test patterns (R290) -/

/-- Width and feedback taps of a pattern. -/
def prbsTaps : Nat → Nat × List Nat
  | 0 => (7, [6, 5])
  | 1 => (13, [12, 11, 1, 0])
  | 2 => (23, [22, 17])
  | _ => (31, [30, 27])

/-- One step of a pattern generator: its bit and the register after it. -/
def prbsStep (pat reg : Nat) : Bool × Nat :=
  let (w, taps) := prbsTaps pat
  let z := taps.foldl (fun a k => a != nbit reg k) false
  (z, (reg * 2 + b2n z) % 2 ^ w)

/-- The register value of all ones of a pattern. -/
def prbsOnes (pat : Nat) : Nat := 2 ^ (prbsTaps pat).1 - 1

/-- Bits of a pattern from a register value on, and the register after them. -/
def prbsRun (pat : Nat) : Nat → Nat → List Bool × Nat
  | 0, reg => ([], reg)
  | n + 1, reg =>
    let x := prbsStep pat reg
    let y := prbsRun pat n x.2
    (x.1 :: y.1, y.2)

/-- The symbols of the `k`-th training block on a lane, whose PRBS31 runs on from the first block (R278). -/
def trainBlock (phys locked phase k : Nat) : List Nat :=
  trainPattern ++ (trainFields phys locked phase).map (fun b => 3 * b2n b) ++
  levels (prbsRun 3 2048 (prbsRun 3 (2048 * k) (prbsOnes 3)).2).1

/-- Bits of a generated stream, numbered from `i`, the last of each `e` inverted; in PAM4 the later bit of a pair is the one that
is inverted, which an even `e` makes it (R291). -/
def injected (every : Option Nat) : Nat → List Bool → List Bool
  | _, [] => []
  | i, b :: r => (match every with | some e => if (i + 1) % e = 0 then !b else b | none => b) :: injected every (i + 1) r

/-- The levels of a generated stream: bit pairs in PAM4, the low and the high level in NRZ (R290). -/
def genSymbols (pat : Nat) (pam4 : Bool) (every : Option Nat) (n : Nat) : List Nat :=
  let b := injected every 0 (prbsRun pat n (prbsOnes pat)).1
  if pam4 then levels b else b.map b2n

end Sys2Proof.Machine
end

