-- ==== Sys2Proof/Machine/Float.lean ====
section
/-! DEFINITION. binary64 addition, rounded to nearest, ties to even, with its flags (R192). -/

namespace Sys2Proof.Machine

/-- The value of a finite binary64 in units of 2^-1074. -/
def f64Units (b : Nat) : Int :=
  let e := b / 2 ^ 52 % 2048
  let f := b % 2 ^ 52
  let m : Nat := if e = 0 then f else (2 ^ 52 + f) * 2 ^ (e - 1)
  if b / 2 ^ 63 % 2 = 1 then -(m : Int) else (m : Int)

def f64Special (b : Nat) : Bool := decide (b / 2 ^ 52 % 2048 = 2047)
def f64Nan (b : Nat) : Bool := f64Special b && decide (b % 2 ^ 52 ≠ 0)
def f64Inf (b : Nat) : Bool := f64Special b && decide (b % 2 ^ 52 = 0)

/-- INVALID, OVERFLOW, INEXACT of RESULT. -/
def fInvalid := 16
def fOverflow := 8
def fInexact := 2

/-- Round a magnitude in units of 2^-1074: the bits without the sign, and the flags. -/
def f64Round (n : Nat) : Nat × Nat :=
  if n < 2 ^ 53 then (n, 0)
  else
    let k := Nat.log2 n - 52
    let q := n / 2 ^ k
    let r := n % 2 ^ k
    let half := 2 ^ k / 2
    let up := decide (half < r) || (decide (half = r) && decide (q % 2 = 1))
    let q1 := q + b2n up
    let k1 := if q1 = 2 ^ 53 then k + 1 else k
    let q2 := if q1 = 2 ^ 53 then 2 ^ 52 else q1
    let fl := if r = 0 then 0 else fInexact
    if 2047 ≤ k1 + 1 then (2047 * 2 ^ 52, fOverflow + fInexact) else ((k1 + 1) * 2 ^ 52 + (q2 - 2 ^ 52), fl)

/-- The sum of two binary64 values and its flags. -/
def f64Add (a b : Nat) : Nat × Nat :=
  let nan := (0x7FF8000000000000, fInvalid)
  if f64Nan a || f64Nan b then nan
  else if f64Inf a && f64Inf b then (if a = b then (a, 0) else nan)
  else if f64Inf a then (a, 0)
  else if f64Inf b then (b, 0)
  else
    let v := f64Units a + f64Units b
    if v = 0 then (if a = 2 ^ 63 ∧ b = 2 ^ 63 then (2 ^ 63, 0) else (0, 0))
    else
      let (m, fl) := f64Round v.natAbs
      ((if v < 0 then 2 ^ 63 else 0) + m, fl)

end Sys2Proof.Machine
end

