-- ==== Sys2Proof/Machine/HomeBase.lean ====
section
/-! DEFINITION. The home's tables: line addresses, slices, domains, the line store, the directory and Blanket mode
(R39-R58, R66, R70-R92, R144, R149). -/

namespace Sys2Proof.Machine

def State.inHome (s : State) (f : HomeS → HomeS) : State := { s with home := f s.home }
def State.inBind (s : State) (f : BindS → BindS) : State := { s with bind := f s.bind }
def State.inHbm (s : State) (f : HbmS → HbmS) : State := { s with hbm := f s.hbm }

/-! ### Line addresses (R70) -/

def lineAddr (slice off : Nat) : Nat := slice * 2 ^ 22 + off / 64
def laSlice (la : Nat) : Nat := la / 2 ^ 22
/-- The bucket: the XOR of the ten nibbles. -/
def bucket (la : Nat) : Nat := (List.range 10).foldl (fun x k => x ^^^ (la / 16 ^ k % 16)) 0
def State.bankOf (s : State) (b : Nat) : Nat := tget b s.tick.hbMap b
def State.sfOf (s : State) (b : Nat) : Nat := tget b s.tick.sfMap b
def State.laBank (s : State) (la : Nat) : Nat := s.bankOf (bucket la)
/-- The set within the snoop-filter bank. -/
def sfSet (la : Nat) : Nat := (la / 2 ^ 4 ^^^ la / 2 ^ 18) % 16384

/-! ### Slices, domains, maps (R46-R56) -/

def State.slice (s : State) (n : Nat) : Slice := tget {} s.bind.slices n
def State.setSlice (s : State) (n : Nat) (x : Slice) : State := s.inBind (fun b => { b with slices := tput {} b.slices n x })
def State.dom (s : State) (n : Nat) : Dom := tget {} s.bind.doms n
def State.setDom (s : State) (n : Nat) (x : Dom) : State := s.inBind (fun b => { b with doms := tput {} b.doms n x })
def State.laDom (s : State) (la : Nat) : Nat := (s.slice (laSlice la)).dom

/-- The slot that a fabric ID holds in a domain. -/
def State.agentOf (s : State) (d fid : Nat) : Option (Nat × AgentSlot) :=
  (s.dom d).agents.find? (fun a => decide (a.2.fid = fid))

/-- The caching agents of a domain, in slot order. -/
def State.cachers (s : State) (d : Nat) : List Nat :=
  ((s.dom d).agents.filter (fun a => a.2.caching)).map (fun a => a.2.fid)

/-- Slices of a domain, lowest first. -/
def State.domSlices (s : State) (d : Nat) : List Nat :=
  (s.bind.slices.filter (fun e => decide (e.2.state ≠ 0) && decide (e.2.dom = d))).map (·.1)

/-- PT_EDGE_ID[ld] of a port, when valid. -/
def State.edgeFid (s : State) (p ld : Nat) : Option Nat :=
  if s.bit (ptEdgeId p ld) 31 then some (s.fld (ptEdgeId p ld) 0 18) else none

def State.pmode (s : State) (p : Nat) : Nat := s.fld (ptMode p) 30 2
def State.isMember (s : State) (p : Nat) : Bool := s.bit (ptMode p) 27
def State.linkOf (s : State) (p : Nat) : Nat := s.fld (ptMode p) 16 8

/-- The valid PT_EDGE_ID entries: port, logical device, fabric ID. -/
def State.edges (s : State) : List (Nat × Nat × Nat) :=
  s.regs.filterMap (fun e => match locate e.1 with
    | some (.port, p, q) => if 0x100 ≤ q ∧ q < 0x140 ∧ bits e.2 31 1 = 1 then some (p, (q - 0x100) / 4, bits e.2 0 18) else none
    | _ => none)

/-- The downstream port and LD whose edge ID is a fabric ID. -/
def State.edgeOf (s : State) (fid : Nat) : Option (Nat × Nat) :=
  (s.edges.find? (fun x => decide (x.2.2 = fid))).map (fun x => (x.1, x.2.1))

/-- The capacity that a device has reported, in 256 MiB units; 0 for none (R49). -/
def State.capacityOf (s : State) (fid : Nat) : Nat :=
  match s.edgeOf fid with
  | some (p, l) => if s.pmode p = 2 then tget 0 s.bind.devs (p * 16 + l) else 0
  | none => 0

/-! ### Where a fabric ID lies in a tile (R39, R44, R66) -/

/-- The member entry of a fabric ID in a tile: its group is a member block and the entry is valid. -/
def State.memberEntry (s : State) (t fid : Nat) : Option Word :=
  let g := s.reg (tlGroupRt t (fid / 256))
  let m := s.reg (tlMemberRt t (bits g 0 6) + 4 * (fid % 256))
  if bits g 30 2 = 2 ∧ bits m 31 1 = 1 then some m else none

/-- The lowest present tile: where what the core die sends is looked up. -/
def State.coreTile (s : State) : Nat := ((List.range 12).find? (s.present 1)).getD 0

/-- A device is reachable: at its port's tile, routing is on, its KIND 0 member entry names the port, and TL_PBR_XLATE of the
entry's PBR_ID names the device (R66). -/
def State.reaches (s : State) (dev : Nat) : Bool :=
  match s.edgeOf dev with
  | none => false
  | some (p, _) =>
    let t := p / 16
    match s.memberEntry t dev with
    | none => false
    | some m =>
      s.bit (tlRouteCtl t) 31 && decide (bits m 29 2 = 0) && decide (bits m 16 8 = p) &&
      s.bit (tlPbrXlate t (bits m 0 12)) 31 && decide (s.fld (tlPbrXlate t (bits m 0 12)) 0 18 = dev)

/-- The form of a message's error completion (R41, R58): poisoned data for a CXL.mem read, the normal completion for a write, UR
for a CXL.io non-posted request; none for what has no completion. -/
def errForm : MsgType → Option HRsp
  | .memRead => some .poison
  | .memWrite => some .done
  | .ioNonPosted => some .ur
  | .cacheReq | .bulk | .mgmt => some .err
  | .memRsp | .cacheRsp | .backInv | .hamper | .ioPosted | .ioCpl => none

/-- A message that expects a completion gets an error completion: 0 route miss, 1 policed, 2 timeout, 3 decode, 4 containment. -/
def State.errReply (s : State) (m : NetMsg) (why : Nat) : State :=
  match errForm m.type with
  | some f => if m.expect then s.emit (.errDone m why f) else s
  | none => s

/-- A route miss of what the core die sends (R41). -/
def State.coreMiss (s : State) (dst : Nat) : State :=
  let t := match s.edgeOf dst with | some (p, _) => p / 16 | none => s.coreTile
  (s.cnt (tlRouteMissCnt t)).raiseLim 0x0140 t [.w dst]

def State.hasHbm (s : State) : Bool := s.logOn

/-- The line store may hold lines of the slice (R74, R85). -/
def State.lsUsable (s : State) (sl : Nat) : Bool := (s.slice sl).lsEn && s.present 8 (s.slice sl).stack

/-- The device and address that back a line, by MOVE_MARK (R47). -/
def State.backing (s : State) (la : Nat) : Nat × Nat :=
  let x := s.slice (laSlice la)
  let k := la % 2 ^ 22
  if x.state = 4 ∧ k / 64 < x.mark then (x.newDev, x.newDpa * 2 ^ 28 + k * 64) else (x.dev, x.dpa * 2 ^ 28 + k * 64)

/-! ### Line store (R85, R86, R144) -/

def State.lsSet (s : State) (la : Nat) : Nat := (s.slice (laSlice la)).stack * 25165824 + Config.lsHash la % 25165824
def State.lsLine (s : State) (la : Nat) : Option LsLine := tfind s.home.lines la
def State.lsDirty (s : State) (la : Nat) : Bool := match s.lsLine la with | some l => l.dirty | none => false
/-- A fresh number of the home: use stamps and read numbers. -/
def State.stamp (s : State) : Nat × State := (s.home.clock + 1, s.inHome (fun h => { h with clock := h.clock + 1 }))

/-- A write leaves for a device; it is held until it is acknowledged (R262). A device that cannot be reached is a route miss,
and the write is discarded (R41, R66). -/
def State.devWr (s : State) (dev addr : Nat) (d : Line) (poison : Bool) : State :=
  if s.reaches dev then (s.inHome (fun h => { h with devWrs := h.devWrs ++ [(dev, addr, d, poison)] })).emit (.devWrite dev addr d poison)
  else s.coreMiss dev

/-- A device write is one of the line. -/
def State.writeOf (s : State) (la : Nat) (w : Nat × Nat × Line × Bool) : Bool :=
  let x := s.slice (laSlice la)
  let o := la % 2 ^ 22 * 64
  (decide (w.1 = x.dev) && decide (w.2.1 = x.dpa * 2 ^ 28 + o)) || (decide (w.1 = x.newDev) && decide (w.2.1 = x.newDpa * 2 ^ 28 + o))

/-- A write of the line is on its way to a device. -/
def State.writing (s : State) (la : Nat) : Bool := s.home.devWrs.any (s.writeOf la)

/-- What a write of the line to its device waits for: 2 the device's acknowledgement, 0 nothing when none is due. -/
def State.devAck (s : State) (la : Nat) : Nat :=
  if s.writing la || s.home.trks.any (fun t => decide (t.2.la = la) && (match t.2.ev with | .move _ => t.2.wb.isSome | _ => false)) then 2 else 0

/-- The writes of a line are acknowledged. -/
def State.devWrDone (s : State) (la : Nat) : State :=
  s.inHome (fun h => { h with devWrs := h.devWrs.filter (fun w => !s.writeOf la w) })

/-- A write of a line to its device. While its slice is MOVING, a page below MOVE_MARK, or a page whose copy is written, is
written on both backings; a line whose copy is not yet written waits for it (R196). -/
def State.devWriteLine (s : State) (la : Nat) (d : Line) (poison : Bool) : State :=
  let x := s.slice (laSlice la)
  let k := la % 2 ^ 22
  let mv := s.home.trks.find? (fun t => decide (t.2.la = la) && decide (t.2.phase ≠ 0) && (match t.2.ev with | .move _ => true | _ => false))
  let both := (s.devWr x.newDev (x.newDpa * 2 ^ 28 + k * 64) d poison).devWr x.dev (x.dpa * 2 ^ 28 + k * 64) d poison
  if x.state ≠ 4 then s.devWr x.dev (x.dpa * 2 ^ 28 + k * 64) d poison
  else if k / 64 < x.mark then both
  else match mv with
    | some (n, t) =>
      if t.phase = 5 then both
      else s.inHome (fun h => { h with trks := h.trks.map (fun y => if y.1 = n then (n, { y.2 with wb := some d, wbBad := poison }) else y) })
    | none => s.devWr x.dev (x.dpa * 2 ^ 28 + k * 64) d poison

/-- An entry in S whose line store copy becomes DIRTY is in O, and one in O that loses it is in S (R73, R75). -/
def State.fixShared (s : State) (la : Nat) (dirty : Bool) : State :=
  match tfind s.home.ents la with
  | some e =>
    if dirty && decide (e.st = 1) then s.inHome (fun h => { h with ents := tins h.ents la { e with st := 4 } })
    else if !dirty && decide (e.st = 4) then s.inHome (fun h => { h with ents := tins h.ents la { e with st := 1 } })
    else s
  | none => s

/-- DIRTY_SEEN of a line's slice (R144). -/
def State.seeDirty (s : State) (la : Nat) : State :=
  let x := s.slice (laSlice la)
  if x.dirtySeen then s else s.setSlice (laSlice la) { x with dirtySeen := true }

/-- Put a line into its way. -/
def State.lsPut (s : State) (la : Nat) (l : LsLine) : State :=
  let (n, s1) := s.stamp
  let s2 := if l.dirty then (s1.seeDirty la).fixShared la true else s1
  let s3 := s2.inHome (fun h => { h with lines := tins h.lines la { l with use := n, wr := false } })
  (s3.stkWrite (s3.slice (laSlice la)).stack).emit (.hbmWrite (s3.slice (laSlice la)).stack la)

/-- A line leaves the line store. -/
def State.lsDrop (s : State) (la : Nat) : State := (s.inHome (fun h => { h with lines := tdel h.lines la })).fixShared la false

/-- A read renews the age of the line (R86). -/
def State.lsUse (s : State) (la : Nat) : State :=
  let (n, s1) := s.stamp
  s1.inHome (fun h => { h with lines := h.lines.map (fun e => if e.1 = la then (la, { e.2 with use := n }) else e) })

/-- The lines and the shadow ways of a line's set. -/
def State.setLines (s : State) (la : Nat) : List (Nat × LsLine) := s.home.lines.filter (fun e => decide (s.lsSet e.1 = s.lsSet la))
def State.setShadows (s : State) (la : Nat) : Nat := (s.home.shadow.filter (fun e => decide (s.lsSet e.1 = s.lsSet la))).length
/-- A way of the line's set is free. -/
def State.wayFree (s : State) (la : Nat) : Bool := decide ((s.setLines la).length + s.setShadows la < 16)
/-- Victims of the line's set that are being written, and what waits for a way of it (R86, R112). -/
def State.setWrites (s : State) (la : Nat) : Nat := ((s.setLines la).filter (fun e => e.2.wr)).length
def State.setWaits (s : State) (la : Nat) : Nat :=
  (s.home.allocs.filter (fun a => decide (s.lsSet a.la = s.lsSet la))).length +
  (s.home.trks.filter (fun t => decide (t.2.ack = 4) && decide (s.lsSet t.2.la = s.lsSet la))).length

/-- Least recently used of a list. -/
def lruOf {α : Type} (use : α → Nat) (l : List α) : Option α := l.find? (fun a => l.all (fun b => decide (use a ≤ use b)))

def State.ent (s : State) (la : Nat) : Option DirEnt := tfind s.home.ents la

/-- The victim of a set (R86): a clean line; a dirty line in I or E; a dirty line in O. -/
def State.lsVictim (s : State) (la : Nat) : Option (Nat × LsLine) :=
  let ls := (s.setLines la).filter (fun e => !e.2.wr)
  let st := fun e : Nat × LsLine => match s.ent e.1 with | some d => d.st | none => 0
  let u := fun e : Nat × LsLine => e.2.use
  let pick := fun p : Nat × LsLine → Bool => lruOf u (ls.filter p)
  match pick (fun e => !e.2.dirty) with
  | some e => some e
  | none => match pick (fun e => st e = 0 || st e = 2) with
    | some e => some e
    | none => pick (fun _ => true)

/-- The write of a dirty victim to its device starts; the victim keeps its way until it is done (R86). -/
def State.victimWrite (s : State) (v : Nat × LsLine) : State :=
  let s1 := (s.devWriteLine v.1 v.2.data v.2.poison).cnt64 (sfBankLsEvictCnt (s.laBank v.1))
  s1.inHome (fun h => { h with lines := h.lines.map (fun e => if e.1 = v.1 then (e.1, { e.2 with wr := true }) else e) })

/-- Find a way in the line's set: free now, by dropping a clean line; or by writing a dirty victim, of which there need be
no more than there are waiters. 1: a way is free; 2: one will be; 0: every way is a shadow way. -/
def State.findWay (s : State) (la waits : Nat) : State × Nat :=
  if s.wayFree la then (s, 1)
  else match s.lsVictim la with
    | some v =>
      if !v.2.dirty then (s.lsDrop v.1, 1)
      else if s.setWrites la < waits then (s.victimWrite v, 2)
      else (s, 2)
    | none => (s, if s.setWrites la = 0 then 0 else 2)

/-- The allocation that waits for a line. -/
def State.allocOf (s : State) (la : Nat) : Option Alloc := s.home.allocs.find? (fun a => decide (a.la = la))
def State.delAlloc (s : State) (la : Nat) : State := s.inHome (fun h => { h with allocs := h.allocs.filter (fun a => decide (a.la ≠ la)) })

/-- An allocation reads the line's whole set to choose its victim (R144). -/
def State.setRead (s : State) (la : Nat) : State := s.stkRead (s.slice (laSlice la)).stack 16

/-- Allocate a way for a line (R85, R86): 1 in the line store, now or when a way is free; 2 or 0 the device's, as `devAck`.
When every way is a shadow way a dirty line goes to its device, and a fill is not made. -/
def State.lsAlloc (s : State) (la : Nat) (l : LsLine) (trk : Option Nat) : State × Nat :=
  match (s.setRead la).findWay la (s.setWaits la + 1) with
  | (s1, 1) => (s1.lsPut la l, 1)
  | (s1, 0) => if l.dirty then let s2 := s1.devWriteLine la l.data l.poison; (s2, s2.devAck la) else (s1, 0)
  | (s1, _) =>
    let s2 := s1.inHome (fun h => { h with allocs := h.allocs ++ [⟨la, l, trk⟩] })
    (if l.dirty then (s2.seeDirty la).fixShared la true else s2, 1)

/-- Store a line for memory: in the line store, or on the device (R74, R85, R86). The number says what is waited for:
1 the line store's acknowledgement, 2 the device's, 0 nothing. -/
def State.memStore (s : State) (la : Nat) (d : Line) (poison : Bool) (trk : Option Nat) : State × Nat :=
  let l : LsLine := { dirty := true, poison := poison, data := d }
  if !s.lsUsable (laSlice la) then
    let s1 := s.devWriteLine la d poison
    (s1, s1.devAck la)
  else if (s.lsLine la).isSome then (s.lsPut la l, 1)
  else match s.allocOf la with
    | some _ =>
      (((s.inHome (fun h => { h with allocs := h.allocs.map (fun x => if x.la = la then ⟨la, l, trk⟩ else x) })).seeDirty la).fixShared la true, 1)
    | none => s.lsAlloc la l trk

/-- The fill of a device read (R85, R86). -/
def State.lsFill (s : State) (la : Nat) (d : Line) (poison : Bool) : State :=
  if !s.bit sfHomeCtl 29 || !s.lsUsable (laSlice la) || (s.lsLine la).isSome || (s.allocOf la).isSome then s
  else (s.lsAlloc la { dirty := false, poison := poison, data := d } none).1

/-- A way has become free, or may have: the allocations that wait in the set take it in order (R86). -/
def State.placeAllocs (s : State) (la : Nat) : State :=
  s.each (s.home.allocs.filter (fun a => decide (s.lsSet a.la = s.lsSet la))) (fun a t =>
    match t.findWay a.la (t.setWaits a.la) with
    | (t1, 1) => (t1.delAlloc a.la).lsPut a.la a.line
    | (t1, 0) =>
      let t2 := t1.delAlloc a.la
      if !a.line.dirty then t2
      else
        let t3 := (t2.devWriteLine a.la a.line.data a.line.poison).fixShared a.la false
        match a.trk with
        | some k => t3.inHome (fun h => { h with trks := h.trks.map (fun y => if y.1 = k then (k, { y.2 with ack := t3.devAck a.la }) else y) })
        | none => t3
    | (t1, _) => t1)

/-- Lines and waiting allocations that meet a test leave the line store; the allocations that wait take the ways (R86). -/
def State.lsLose (s : State) (p : Nat → LsLine → Bool) : State :=
  let s1 := s.inHome (fun h => { h with lines := h.lines.filter (fun e => !p e.1 e.2), allocs := h.allocs.filter (fun a => !p a.la a.line) })
  s1.each (s1.home.allocs.map (·.la)) (fun la t => if (t.allocOf la).isSome then t.placeAllocs la else t)

/-- Count a poisoned line or completion. -/
def State.poisonCnt (s : State) (la : Nat) : State := s.cnt (sfBankPoisonCnt (s.laBank la))

/-- Poison a line where it lies: in the line store when it holds the line, else on the device (R95). A poisoned line carries
no data: its bits are a free value. In the line store it is DIRTY, so that the device gets the poison. -/
def State.poisonLine (s : State) (la : Nat) : State :=
  let (n, s1) := s.draw
  if (s.lsLine la).isSome || (s.allocOf la).isSome then (s1.memStore la (BitVec.ofNat 512 n) true none).1
  else if (s.slice (laSlice la)).state = 5 ∧ s.capacityOf (s.slice (laSlice la)).dev = 0 then s else s1.devWriteLine la (BitVec.ofNat 512 n) true

/-- Poison an M line whose holder had no data: line store or device (R75). -/
def State.poisonOwned (s : State) (la : Nat) : State :=
  let (n, s1) := s.draw
  (s1.memStore la (BitVec.ofNat 512 n) true none).1.poisonCnt la

/-! ### Blanket mode and untracked slices (R89-R91) -/

def State.coh (s : State) (d : Nat) : DomCoh := tget {} s.home.doms d
def State.setCoh (s : State) (d : Nat) (x : DomCoh) : State := s.inHome (fun h => { h with doms := tput {} h.doms d x })

/-- Mark a slice untracked; one that an exit walk is visiting is marked again (R91). -/
def State.untrack (s : State) (sl : Nat) : State :=
  s.inHome (fun h => { h with
    untrk := if h.untrk.contains sl then h.untrk else h.untrk ++ [sl]
    visits := h.visits.filter (fun x => decide (x ≠ sl)) })

/-- An exit walk is abandoned (R91, R98). -/
def State.exitAbandon (s : State) (d : Nat) : State :=
  let x := s.coh d
  if x.exitOn then
    (s.setCoh d { x with exitOn := false, quiet := 0, clearAt := none }).inBind (fun b => { b with walks := tdel b.walks (32 + d) })
  else s

/-- Enter Blanket mode (R89). DESIGN CHOICE (log 244): a domain that is already in it keeps its cause and raises nothing. -/
def State.enterBlanket (s : State) (d cause : Nat) : State :=
  let x := s.coh d
  if x.blanket then s
  else (s.setCoh d { x with blanket := true, cause := cause, due := none, quiet := 0 }).raise 0x0302 [.w d, .w cause]

def State.enterBi (s : State) : Nat := if s.nreg sfBlanketEnter = 0 then 65536 else s.nreg sfBlanketEnter
def State.exitBi (s : State) : Nat := if s.nreg sfBlanketExit < s.enterBi then s.nreg sfBlanketExit else s.enterBi / 16

/-- Count a directory eviction for lack of room (R83, R89, R91). -/
def State.countEvict (s : State) (la d : Nat) : State :=
  let s1 := (s.cnt64 (sfBankDirEvictCnt (s.laBank la))).pmc 0x06 (s.laBank la) 1 { slice := some (laSlice la) }
  let x := s1.coh d
  let w := x.win + 1
  let s2 := s1.setCoh d { x with
    win := w
    due := if x.due.isNone && decide (s1.enterBi ≤ w) && !x.blanket then some s1.tick.loc else x.due }
  if s1.exitBi ≤ w then s2.exitAbandon d else s2

/-! ### Directory (R81-R84) -/

def State.dirAvail (s : State) : Bool := s.bit sfDirStatus 31
/-- The bucket of the line has a snoop-filter bank in service (R98). -/
def State.sfUp (s : State) (la : Nat) : Bool := !s.home.sfLost.contains (s.sfOf (bucket la))

def State.setEnt (s : State) (la : Nat) (e : Option DirEnt) : State :=
  match e with
  | some x => s.inHome (fun h => { h with ents := tins h.ents la x })
  | none => s.inHome (fun h => { h with ents := tdel h.ents la })

/-- Entries of the same on-die set. -/
def State.dieSet (s : State) (la : Nat) : List (Nat × DirEnt) :=
  s.home.ents.filter (fun e => e.2.onDie && decide (sfSet e.1 = sfSet la) && decide (s.sfOf (bucket e.1) = s.sfOf (bucket la)))

/-- Sets of the HBM directory: 2^25 for each stack that backs it. -/
def State.dirSets (s : State) : Nat := ((List.range 4).filter (fun h => s.bit sfDirStatus (24 + h))).length * 2 ^ 25
def State.dirSet (s : State) (la : Nat) : Nat := Config.dirHash la % s.dirSets
def State.hbmSet (s : State) (la : Nat) : List (Nat × DirEnt) :=
  s.home.ents.filter (fun e => !e.2.onDie && decide (s.dirSet e.1 = s.dirSet la))

def State.blanketDom (s : State) (d : Nat) : Bool := (s.coh d).blanket

/-- Drop an entry without a snoop (R84, R90). -/
def State.dropEnt (s : State) (la : Nat) (e : DirEnt) : State :=
  ((s.setEnt la none).countEvict la e.dom).untrack (laSlice la)

/-- Agents that a directory entry may name, in agent slot order (R82, R149): the recorded sharers, or every caching agent of the
marked groups. -/
def State.holders (s : State) (e : DirEnt) : List Nat :=
  if e.coarse then ((s.dom e.dom).agents.filter (fun a => a.2.caching && nbit e.groups (a.1 / 4))).map (fun a => a.2.fid)
  else
    let l := ((s.dom e.dom).agents.filter (fun a => e.sh.contains a.2.fid)).map (fun a => a.2.fid)
    l ++ e.sh.filter (fun f => !l.contains f)

/-- The tracker number that is free. -/
def State.freeTrk (s : State) : Nat :=
  ((List.range (s.home.trks.length + 1)).find? (fun k => (tfind s.home.trks k).isNone)).getD 0

def State.setTrk (s : State) (k : Nat) (t : Trk) : State := s.inHome (fun h => { h with trks := tins h.trks k t })
def State.delTrk (s : State) (k : Nat) : State := s.inHome (fun h => { h with trks := tdel h.trks k })

/-! ### Latency tags (R382) -/

/-- A tag stamps a stage with TICK[19:0] of GLB_TICK_LOCAL and a CK_CORE cycle; the cycle is a free value. -/
def State.stampWord (s : State) : Nat × State :=
  let (n, s1) := s.draw
  (s.tick.loc.toNat % 2 ^ 20 * 4096 + n % 3072, s1)

/-- Change the first open tag that meets a test. -/
def tagUpd (p : LatTag → Bool) (f : LatTag → LatTag) : List LatTag → List LatTag
  | [] => []
  | t :: r => if p t && !t.fin then f t :: r else t :: tagUpd p f r

def State.inTags (s : State) (p : LatTag → Bool) (f : LatTag → LatTag) : State :=
  { s with tel := { s.tel with tags := tagUpd p f s.tel.tags } }

/-- Stamp a stage of the open tagged request that meets a test. -/
def State.latStage (s : State) (p : LatTag → Bool) (stage : Nat) (last : Bool := false) : State :=
  if s.tel.tags.any (fun t => p t && !t.fin) then
    let (w, s1) := s.stampWord
    s1.inTags p (fun t => { t with stamps := tins t.stamps stage w, fin := last })
  else s

/-- A tagged request is discarded or refused: INCOMPLETE, its record is due. -/
def State.latAbort (s : State) (p : LatTag → Bool) : State := s.inTags p (fun t => { t with flags := t.flags ||| 128, fin := true })

/-- The tag of a request at its home: requester and line. -/
def tagAt (fid la : Nat) (t : LatTag) : Bool := decide (t.fid = fid) && decide (t.la = some la)

def State.latFlag (s : State) (fid la v : Nat) : State := s.inTags (tagAt fid la) (fun t => { t with flags := t.flags ||| v })

/-- The reads under way for trackers that meet a test are dropped when they come (R88). -/
def State.unread (s : State) (p : Nat → Bool) : State :=
  let un := fun o : Option Nat => match o with | some k => if p k then none else some k | none => none
  let s1 := s.inHome (fun h => { h with devRds := h.devRds.map (fun e => (e.1, (e.2.1, un e.2.2))) })
  s1.inHbm (fun h => { h with slots := h.slots.map (fun e => (e.1, { e.2 with trk := un e.2.trk })), waitRd := h.waitRd.filter (fun w => decide (w.2.2 ≠ .line) || (un w.2.1).isSome) })

/-- Remove the trackers that meet a test; reads under way for them are dropped. -/
def State.cutTrks (s : State) (p : Trk → Bool) : State :=
  let gone := (s.home.trks.filter (fun t => p t.2)).map (·.1)
  (s.inHome (fun h => { h with trks := h.trks.filter (fun t => !p t.2) })).unread gone.contains

/-- TIMEOUT_TICKS (R101). -/
def State.snoopTicks (s : State) : Nat := max 16 (s.fld sfSnoopTimeout 0 16)

/-- Copies of snoops that a home bank holds, not yet granted onto Mortar (R149). -/
def State.copiesWaiting (s : State) (b : Nat) : Nat :=
  (tget [] s.hbm.sends ((24 + b) * 8 + 2)).length +
  ((s.out.drop s.hbm.mark).filter (fun o => match o with | .snoop _ _ la => decide (s.laBank la = b) | _ => false)).length

/-- Send snoops to agents and count them (R75, R93); they wait in their tracker while the bank's station has no room for
the copies (R149). -/
def State.sendSnoops (s : State) (k : Nat) (t : Trk) (kind : Nat) (fids : List Nat) : State :=
  let b := s.laBank t.la
  if 4096 < s.copiesWaiting b + fids.length then s.setTrk k { t with phase := 2, todo := some (kind, fids) }
  else
    let due := s.tick.loc + BitVec.ofNat 48 (s.snoopTicks + 1)
    let s0 := if fids.isEmpty then s else s.latFlag t.fid t.la 32
    let s1 := s0.each fids (fun f x => x.emit (.snoop f kind t.la))
    let s2 := if fids.isEmpty then s1 else (s1.cnt64 (sfBankBisnpCnt b) fids.length).pmc 0x02 b fids.length { fid := some t.fid, slice := some (laSlice t.la) }
    s2.setTrk k { t with snps := t.snps ++ fids.map (fun f => { fid := f, kind := kind, due := due }), phase := 2, todo := none }

/-- A line has an open tracker: its entry is no victim. -/
def State.lineOpen (s : State) (la : Nat) : Bool := s.home.trks.any (fun x => decide (x.2.la = la) && decide (x.2.phase ≠ 0))

/-- The stack that holds a line's set of the HBM directory (R143). -/
def State.dirStack (s : State) (la : Nat) : Nat :=
  ((List.range 4).filter (fun h => s.bit sfDirStatus (24 + h))).getD (s.dirSet la / 2 ^ 25) 0

/-- The 16 bytes of a directory entry (R81). -/
def DirEnt.bytes (e : DirEnt) (la : Nat) : List Byte :=
  let who := if e.coarse then e.groups
    else e.sh.length * 2 ^ 54 + e.sh.getD 2 0 * 2 ^ 36 + e.sh.getD 1 0 * 2 ^ 18 + e.sh.getD 0 0
  toLe 5 la ++ toLe 1 (e.st * 32 + b2n e.hold * 16 + b2n e.coarse * 8) ++ toLe 2 e.dom ++ toLe 8 who

/-- The entries of a list cannot be read (R401): they are freed, those with HOLD set apart; every slice of every domain with a caching
agent is untracked and those domains enter Blanket mode. -/
def State.entriesLost (s : State) (b set : Nat) (las : List Nat) : State :=
  let s1 := s.inHome (fun h => { h with ents := h.ents.filter (fun e => !las.contains e.1 || e.2.hold) })
  let ds := (s.bind.doms.filter (fun e => decide (e.2.state ≠ 0) && e.2.agents.any (fun a => a.2.caching))).map (·.1)
  let s2 := s1.each ds (fun d t => (t.each (t.domSlices d) (fun n x => x.untrack n)).enterBlanket d 2)
  (s2.cnt sfScrubUeCnt).raise 0x030A [.w b, .w set]

/-- An entry is written into the HBM directory. -/
def State.dirPut (s : State) (la : Nat) (e : DirEnt) : State :=
  let h := s.dirStack la
  ((s.setEnt la (some { e with onDie := false })).stkWrite h).emit (.dirWrite h (e.bytes la))

/-- Evict an entry of the HBM directory for lack of room (R75, R83): a drop in Blanket mode, else a back-invalidate. -/
def State.evictEnt (s : State) (la : Nat) (e : DirEnt) : State :=
  if s.blanketDom e.dom then s.dropEnt la e
  else
    let s1 := (s.setEnt la none).countEvict la e.dom
    if (s.holders e).isEmpty then s1
    else s1.sendSnoops s1.freeTrk { la := la, ev := .evict, ent := some e } 2 (s.holders e)

/-- Move an on-die entry out: to the HBM directory, or drop it (R83, R84, R90). `keepOut`: only entries of Blanket
domains may be evicted to make room. Held entries and those of lines with an open tracker stay. False: no room. -/
def State.moveOut (s : State) (la : Nat) (e : DirEnt) (keepOut : Bool) : State × Bool :=
  if !s.dirAvail then
    if keepOut && !s.blanketDom e.dom then (s, false)
    else ((s.enterBlanket e.dom 1).dropEnt la e, true)
  else
    let hs := (s.hbmSet la).filter (fun x => decide (x.1 ≠ la))
    let free := hs.filter (fun x => !x.2.hold && !s.lineOpen x.1)
    let u := fun x : Nat × DirEnt => x.2.use
    if hs.length < 16 then (s.dirPut la e, true)
    else match lruOf u (free.filter (fun x => s.blanketDom x.2.dom)) with
      | some v => ((s.evictEnt v.1 v.2).dirPut la e, true)
      | none =>
        if keepOut then (s, false)
        else match lruOf u free with
          | some v => ((s.evictEnt v.1 v.2).dirPut la e, true)
          | none => (s, false)

/-- Record an entry on die (R83, R84, R90, R98). A grant in Blanket mode, or on a lost bank, that finds no way stays
unrecorded and its slice is marked untracked; any other, and an entry that a hamper holds (`must`), waits for a way: false
(R113). -/
def State.record (s : State) (la : Nat) (e : DirEnt) (must : Bool := false) : State × Bool :=
  let (n, s1) := s.stamp
  let e1 := { e with onDie := true, use := n }
  let bare := fun x : State => ((x.setEnt la none).untrack (laSlice la), true)
  if !s1.sfUp la then bare s1
  else
    let others := (s1.dieSet la).filter (fun x => decide (x.1 ≠ la))
    if others.length < 16 then (s1.setEnt la (some e1), true)
    else
      let ko := s1.blanketDom e.dom && !must
      let free := others.filter (fun x => !x.2.hold && !(!s1.dirAvail && s1.lineOpen x.1))
      let cand := if ko && !s1.dirAvail then free.filter (fun x => s1.blanketDom x.2.dom) else free
      match lruOf (fun x : Nat × DirEnt => x.2.use) cand with
      | none => if ko then bare s1 else (s, false)
      | some v =>
        let (s2, fits) := s1.moveOut v.1 v.2 ko
        if fits then (s2.setEnt la (some e1), true) else if ko then bare s1 else (s, false)

/-- Add a sharer (R82): a fourth converts the entry to coarse form. -/
def State.addSharer (s : State) (e : DirEnt) (f : Nat) : DirEnt :=
  let grp := fun x => match s.agentOf e.dom x with | some a => a.1 / 4 | none => 0
  let mark := fun (g x : Nat) => if nbit g (grp x) then g else g + 2 ^ grp x
  if e.coarse then { e with groups := mark e.groups f }
  else if e.sh.contains f then e
  else if e.sh.length < 3 then { e with sh := e.sh ++ [f] }
  else { e with coarse := true, groups := (e.sh ++ [f]).foldl mark 0, sh := [] }

/-- Remove a holder from a precise entry; none when it was the last. -/
def entMinus (e : DirEnt) (f : Nat) : Option DirEnt :=
  if e.coarse then some e
  else
    let r := e.sh.filter (fun x => decide (x ≠ f))
    if r.isEmpty then none else some { e with sh := r }

/-- The HBM directory becomes unavailable (R92): its entries are lost, every slice of a domain with a caching agent is
untracked, and those domains enter Blanket mode. -/
def State.dirLost (s : State) (h : Nat) : State :=
  let s1 := ((s.setBit sfDirStatus 31 false).inHome (fun x => { x with ents := x.ents.filter (fun e => e.2.onDie) })).raise 0x0304 [.w h]
  let ds := (s.bind.doms.filter (fun e => decide (e.2.state ≠ 0) && e.2.agents.any (fun a => a.2.caching))).map (·.1)
  s1.each ds (fun d t => (t.each (t.domSlices d) (fun n x => x.untrack n)).enterBlanket d 2)

/-! ### Checks at the home (R57, R58) -/

/-- A table entry reads as invalid since an uncorrectable error (R399): 0 slice, 1 domain, 2 host map. -/
def State.entryBad (s : State) (kind i : Nat) : Bool := s.clk.badEntry.any (fun e => decide (e.1 = kind) && decide (e.2.1 = i))

/-- Sordon firmware rewrites each such entry within 4 ticks (R399): in which of them is free. -/
def State.rewriteEntries (s : State) : State :=
  s.each s.clk.badEntry (fun e t =>
    let (v, u) := t.draw
    if v % 2 = 1 ∨ 3 ≤ ticksSince e.2.2 s.tick.loc then { u with clk := { u.clk with badEntry := u.clk.badEntry.filter (fun x => decide (x ≠ e)) } } else u)

/-- The first reason of R57 that fails at the home. -/
def State.homeReason (s : State) (fid sl : Nat) (write : Bool) : Option Nat :=
  let x := if s.entryBad 0 sl then {} else s.slice sl
  if !(decide (x.state = 2) || decide (x.state = 3) || (decide (x.state = 4) && decide (0 < x.maps))) then some 3
  else match (if s.entryBad 1 x.dom then none else s.agentOf x.dom fid) with
    | none => some 4
    | some a => if write && decide (a.2.rights ≠ 3) then some 5 else none

/-- Count and log a decode failure at the home (R58). -/
def State.homeFail (s : State) (fid sl off reason : Nat) : State :=
  let s1 := s.cnt sfDecodeFailCnt
  let s2 := if s1.bit sfDecodeFailLog0 31 then s1
            else ((s1.setN sfDecodeFailLog0 (2 ^ 31 + reason * 2 ^ 28 + fid)).setN sfDecodeFailLog1 sl).setN sfDecodeFailLog2 off
  s2.raiseLim 0x0340 192 [.w fid, .w reason, .w off]

/-- A protocol error (R76). -/
def State.protoErr (s : State) (la fid : Nat) : State :=
  let b := s.laBank la
  (s.cnt (sfBankProtoErrCnt b)).raiseLim 0x0307 b [.w fid, .q la]

end Sys2Proof.Machine
end

