-- ==== Sys2Proof/Machine/EngineBase.lean ====
section
/-! DEFINITION. What the homes and the failures know of the engines: the view of a host address, line accesses, stops (R56, R57, R176,
R177, R186, R201, R241). -/

namespace Sys2Proof.Machine

/-! ### The origin's view of a host address (R55-R57) -/

/-- The window offset of a host address under a vCS's decoder: base and interleave bits removed (R56); none when it has
no offset in the window (R57 reason 0). -/
def Vcs.offset (v : Vcs) (addr : Nat) : Option Nat :=
  if 3 < v.iw ∨ addr < v.hdm then none
  else
    let g := 256 * 2 ^ v.ig
    let x := addr - v.hdm
    let o := x / (g * 2 ^ v.iw) * g + x % g
    if o < v.len * 2 ^ 28 then some o else none

/-- A vCS presents its HDM decoder, unless its upstream link is up without 256 B flit mode (R260). -/
def State.decoderOn (s : State) (x : Vcs) : Bool :=
  let n := s.linkOf x.usp
  !(decide (s.pmode x.usp = 1) && [2, 3].contains (s.fld (ptCxStatus n) 29 3) && decide (s.fld (ptCxStatus n) 19 2 ≠ 2))

/-- The origin checks of R57 on one byte of an access: the reason and what it reports, or the map entry and the offset. -/
def State.originByte (s : State) (v : Nat) (addr : Nat) (write : Bool) : (Nat × Nat) ⊕ (HEnt × Nat) :=
  match (tfind s.bind.vcs v).bind (fun x => if s.decoderOn x then (x.offset addr).map (fun o => (x, o)) else none) with
  | none => .inl (0, addr)
  | some (x, o) =>
    match (if s.entryBad 2 (x.base + o / 2 ^ 28) then none else tfind s.bind.hmap (x.base + o / 2 ^ 28)) with
    | none => .inl (1, o)
    | some e => if write && decide (e.rights ≠ 3) then .inl (2, o) else .inr (e, o)

/-- The vCS of a host fabric ID. -/
def State.vcsOfHost (s : State) (f : Nat) : Option (Nat × Vcs) := s.bind.vcs.find? (fun v => decide (v.2.host = f))

/-- HBM_AGE_LIMIT0.COH (R150). -/
def State.cohLimit (s : State) : Nat := min 32767 (max 1 (s.fld hbmAgeLimit0 0 15))

/-! ### Line accesses of an engine (R176, R177, R188) -/

/-- The spans of a byte range within its 64 B lines. -/
def lineSpans (addr len : Nat) : List (Nat × Nat) :=
  (List.range (ceilDiv (addr % 64 + len) 64)).map (fun k =>
    let a := if k = 0 then addr else (addr / 64 + k) * 64
    (a, min (addr + len) ((addr / 64 + k + 1) * 64) - a))

/-- The pieces of a pooled range that lie in one stretch of the window each: their first byte and length. -/
def pooledPieces (c : Vcs) (addr len : Nat) : List (Nat × Nat) :=
  let g := if c.iw = 0 then 2 ^ 28 else 256 * 2 ^ c.ig
  let off := (addr - c.hdm) % g
  (List.range (ceilDiv (off + len) g)).map (fun k =>
    let o := if k = 0 then 0 else k * g - off
    (o, min (len - o) (if k = 0 then g - off else g)))

/-- The host that an instance is bound to. -/
def State.engHost (s : State) (i : Nat) : Nat := s.fld (engInst i) 0 18

/-- A request of an engine toward a remote home leaves, and is tracked until its response (R229, R241). The ingress tile of R241 is the one
that routes for the core: DESIGN CHOICE (log 266). -/
def State.engRemote (s : State) (i : Nat) (e : HEnt) (f o cls hev len : Nat) (d : Option (List Byte)) : State :=
  let tag := s.lnk.nextTag
  let k := o % 64
  let body := match d with | some b => List.replicate k 0 ++ b ++ List.replicate (64 - k - b.length) 0 | none => []
  let r : RemReq := { fid := s.engHost i, tag := tag, tile := s.coreTile, via := .engine (Fin.ofNat 1024 i), la := e.slice * 2 ^ 22 + o % 2 ^ 28 / 64, write := d.isSome, due := s.tick.loc + BitVec.ofNat 48 s.cohLimit }
  { s with lnk := { s.lnk with rem := s.lnk.rem ++ [r], nextTag := (tag + 1) % 2 ^ 32 } }.emit
    (.engCreq i f tag cls hev 0 e.slice (o % 2 ^ 28 / 64) ((2 ^ (k + len) - 2 ^ k) * b2n d.isSome) body)

/-- One line access of an engine: to the home of its pooled line, NCR or NCW, or to host memory (R177). -/
def State.engLine (s : State) (i space cls addr len : Nat) (d : Option (List Byte)) : State :=
  let plain := match d with | some b => Out.engWrite i space addr b | none => Out.engRead i space addr len cls
  if space ≠ 0 then s.emit plain
  else match (s.vcsOfHost (s.engHost i)).map (fun v => s.originByte v.1 addr d.isSome) with
    | some (.inr (e, o)) => (match e.remote with
      | some f => s.engRemote i e f o cls (if d.isSome then 7 else 4) len d
      | none => s.emit plain)
    | _ => s.emit plain

/-- A write of an engine, line by line. -/
def State.engLines (s : State) (i space cls addr : Nat) (b : List Byte) : State :=
  s.each (lineSpans addr b.length) (fun x t => t.engLine i space cls x.1 x.2 (some ((b.drop (x.1 - addr)).take x.2)))

/-- Issue a job's line reads while fewer than 256 are outstanding (R176). Its class is Bulk (R187). -/
def State.issueReads (s : State) (i : Nat) : State :=
  let x := tget {} s.eng.insts i
  match x.job with
  | none => s
  | some j =>
    let n := min (256 - j.rdOut) j.rdTodo.length
    let s1 := s.each (j.rdTodo.take n) (fun y t => t.engLine i y.1 6 y.2.1 y.2.2 none)
    if n = 0 then s
    else { s1 with eng := { s1.eng with insts := tput {} s1.eng.insts i { x with job := some { j with rdTodo := j.rdTodo.drop n, rdOut := j.rdOut + n } } } }

/-- A response reaches its requester; a read's that an engine waits for frees its read slot (R176, R202). -/
def State.readBack (s : State) (via : Via) (r : HRsp) : State :=
  match via, r with
  | .engine i, .data _ _ _ | .engine i, .poison | .engine i, .err =>
    let x := tget {} s.eng.insts i
    match x.job with
    | some j =>
      if j.rdOut = 0 then s
      else ({ s with eng := { s.eng with insts := tput {} s.eng.insts i { x with job := some { j with rdOut := j.rdOut - 1 } } } } : State).issueReads i
    | none => s
  | _, _ => s

/-! ### Stops (R186, R201, R203) -/

/-- A COPY whose destination overlaps its source from above runs downward (R189). -/
def copyDown (b : List Byte) : Bool :=
  let src := leAt b 16 8
  let dst := leAt b 24 8
  decide (byteAt b 40 % 4 = byteAt b 40 / 4 % 4) && decide (src < dst) && decide (dst < src + leAt b 32 8)

/-- The first operand byte that a job has not written: byte 0 where it writes downward, or only at its end. -/
def Job.firstUnwritten (j : Job) : Nat :=
  if byteAt j.bytes 0 = 0x08 ∨ (byteAt j.bytes 0 = 0x01 ∧ copyDown j.bytes = true) then 0 else j.prog

/-- A job ends between its steps with a status; RESULT is its progress, and for ST_ENG_TARGET_FAILED the first byte not written (R200). -/
def Job.ended (j : Job) (st : Nat) : Job :=
  { j with fin := some (st, if st = 0x65 then j.firstUnwritten else j.prog), rdTodo := [], rdOut := 0 }

/-- An unfinished job is stopped: at once where it rests at a step boundary, else at its next boundary. -/
def Inst.stopJob (x : Inst) (p : Job → Bool) (st : Nat) : Inst :=
  match x.job with
  | some j => if j.fin.isNone && p j then { x with job := some (if x.eng.isNone then j.ended st else { j with stop := some st }) } else x
  | none => x

/-- Stop every job that meets a test. -/
def State.jobsStop (s : State) (p : Job → Bool) (st : Nat) : State :=
  { s with eng := { s.eng with insts := s.eng.insts.map (fun e => (e.1, e.2.stopJob p st)) } }

/-- Slices fail, or a teardown begins on their domain: the jobs that touch them stop with ST_ENG_TARGET_FAILED (R201). -/
def State.jobsFailed (s : State) (ss : List Nat) : State := s.jobsStop (fun j => j.hit.any ss.contains) 0x65

/-! ### Page moves that end early (R48, R196, R201) -/

def HEv.isMove : HEv → Bool
  | .move _ => true
  | _ => false

/-- Abandon a page move (R48). -/
def State.abandonMove (s : State) (n : Nat) : State :=
  let x := s.slice n
  if x.state = 4 then
    ((s.setSlice n { x with state := (if 0 < x.maps then 2 else 1), newDev := 0, newDpa := 0, mark := 0 }).cutTrks (fun t =>
      t.ev.isMove && decide (laSlice t.la = n))).raise 0x0347 [.w n, .w x.newDev, .w x.mark]
  else s

/-- A copy read of a page move returned poison: the job stops at once with ST_ENG_POISON, and the move is abandoned (R196, R201). -/
def State.movePoison (s : State) (t : Trk) : State :=
  match t.ev with
  | .move i =>
    let s1 := s.abandonMove (laSlice t.la)
    let x := tget {} s1.eng.insts i
    let job := x.job.map (fun (j : Job) => if j.fin.isNone then ({ j with fin := some (0x64, t.la % 2 ^ 22 * 64) } : Job) else j)
    { s1 with eng := { s1.eng with insts := tput {} s1.eng.insts i { x with job := job } } }
  | _ => s

end Sys2Proof.Machine
end

