-- ==== Sys2Proof/Machine/HamperBase.lean ====
section
/-! DEFINITION. Parts of hampers at their home: acquisition, staging, release, the commit log (R112, R116, R117,
R121). -/

namespace Sys2Proof.Machine

def State.inHmp (s : State) (f : HmpS → HmpS) : State := { s with hmp := f s.hmp }
def State.moduleFid (s : State) : Nat := s.fld glbModuleFid 0 18

def PLine.la (p : PLine) : Nat := p.l.slice.val * 2 ^ 22 + p.l.off.toNat

def State.part (s : State) (k : HKey) : Option HPart := s.hmp.parts.find? (fun p => decide (p.key = k))
def State.setPart (s : State) (p : HPart) : State :=
  s.inHmp (fun h => { h with parts := h.parts.map (fun x => if x.key = p.key then p else x) })
def State.orig (s : State) (k : HKey) : Option HOrig := s.hmp.origs.find? (fun o => decide (o.key = k))
def State.setOrig (s : State) (o : HOrig) : State :=
  s.inHmp (fun h => { h with origs := h.origs.map (fun x => if x.key = o.key then o else x) })

/-- The line belongs to a part in doubt (R122). -/
def State.inDoubt (s : State) (la : Nat) : Bool :=
  s.hmp.parts.any (fun p => p.doubt.isSome && p.lines.any (fun l => decide (l.la = la) && decide (l.step ≠ 0)))

/-- Records of the commit-log ring (R145). -/
def logRing : Nat := 8388608

/-- Banks that hold lines of a part. -/
def State.partBanks (s : State) (p : HPart) : Nat :=
  (List.range 16).foldl (fun a h => a + b2n (p.lines.any (fun l => decide (s.laBank l.la = h))) * 2 ^ h) 0

/-- PART[0-3] (R121, R128). -/
def partBytes (l : List Nat) : List Byte :=
  ((List.range 4).map (fun i => toLe 4 (match l[i]? with | some f => 2 ^ 31 + f | none => 0))).flatten

/-- The 64 bytes of a commit-log record (R121). -/
def LogRec.bytes (r : LogRec) : List Byte :=
  let b := toLe 1 r.type ++ toLe 1 r.code ++ toLe 1 r.lines ++ toLe 1 r.attempt ++ toLe 6 r.key.stamp.toNat ++ toLe 2 0 ++
    toLe 4 r.key.tag.toNat ++ toLe 4 r.key.origin.val ++ toLe 4 r.boot.toNat ++ partBytes r.parts ++ toLe 6 r.edge.toNat ++
    toLe 2 r.banks ++ toLe 12 0
  b ++ toLe 4 (crc32c 0 b).toNat

/-- Write a commit-log record at the ring head (R121), and its copy to the mirror; the head counts on past the ring's size (R132,
R386). -/
def State.logAppend (s : State) (r : LogRec) : State :=
  let i := s.nreg hmpLogHead
  let s1 := s.inHmp (fun h => { h with log := (h.log ++ [r]).drop (h.log.length + 1 - logRing) })
  let s2 := ((s1.setN hmpLogHead (i + 1)).logUnit (i % logRing / 16384)).emit (.logWrite (i % logRing) r r.bytes)
  if s.mirrored (i % logRing / 16384) then s2.emit (.logMirror (i % logRing) r.bytes) else s2

/-- The ring index of the record at a place in the log's list, oldest first. -/
def State.logIndex (s : State) (j : Nat) : Nat := (s.nreg hmpLogHead + logRing + j - s.hmp.log.length) % logRing

/-- The record at a ring index reads as absent (R147). -/
def State.logAbsent (s : State) (i : Nat) : State :=
  match (List.range s.hmp.log.length).find? (fun j => decide (s.logIndex j = i)) with
  | some j => s.inHmp (fun h => { h with log := match h.log[j]? with | some r => h.log.set j { r with absent := true } | none => h.log })
  | none => s

/-- The bytes of a hamper message (R128): the header, then the fields of an HPART, or an HQUERY's COORD_BOOT. -/
def hmsgBytes (type : Nat) (m : HMsg) : List Byte :=
  let head := toLe 1 type ++ [m.code] ++ toLe 1 m.attempt ++ [m.fail] ++ toLe 6 m.key.stamp.toNat ++
    toLe 2 (if type = 1 then m.voteBy else 0) ++ toLe 4 m.key.tag.toNat ++ toLe 4 m.key.origin.val ++ toLe 4 m.sender.val
  let line := fun l : HLine => toLe 4 (b2n l.compare * 2 ^ 30 + l.index.val * 2 ^ 24 + l.slice.val) ++ toLe 4 l.off.toNat ++
    toLe 8 l.mask.toNat ++ toLe 64 l.data.toNat
  if type = 1 then
    head ++ toLe 4 m.boot.toNat ++ toLe 4 m.acting.val ++ partBytes (m.parts.map (·.val)) ++ toLe 1 m.lines.length ++
      toLe 1 m.limit ++ toLe 14 0 ++ (m.lines.map line).flatten
  else if type = 4 then head ++ toLe 4 m.boot.toNat
  else head

/-- A hamper message leaves for a module (R128). -/
def State.sendHmsg (s : State) (dst type : Nat) (m : HMsg) : State := s.emit (.hmsg dst type m (hmsgBytes type m))

def State.partRec (s : State) (p : HPart) (type code : Nat) : LogRec :=
  { type := type, code := code, lines := p.lines.length, attempt := p.attempt, key := p.key, boot := p.boot,
    parts := p.parts, edge := p.window + 1, banks := s.partBanks p }

/-- Release a line's hold; an entry that records nobody is freed. -/
def State.unhold (s : State) (la : Nat) : State :=
  match s.ent la with
  | some e => if e.hold then s.setEnt la (if e.sh.isEmpty && !e.coarse then none else some { e with hold := false }) else s
  | none => s

/-- The acquire's entry once its snoops are answered: a WRITE line has no holder; a COMPARE line keeps its state, or what
SnpData left (R75, R112). -/
def State.heldEnt (s : State) (t : Trk) (cmp : Bool) : DirEnt :=
  let d := s.laDom t.la
  let none0 : DirEnt := { st := (if s.lsDirty t.la then 4 else 1), hold := true, dom := d, sh := [] }
  if !cmp then none0
  else
    let kept := (t.rsps.filter (fun r => decide (r.keep.val ≠ 0))).map (fun r => (r.fid : Nat))
    match t.ent with
    | some e =>
      if e.st = 2 ∨ e.st = 3 then kept.foldl (fun x f => s.addSharer x f) none0
      else { (s.ent t.la).getD e with hold := true, onDie := true }
    | none => kept.foldl (fun x f => s.addSharer x f) none0

/-- An acquire whose part has let the line go ends: the entry is what its snoops left (R117). -/
def State.acquireEnd (s : State) (k : Nat) (t : Trk) : State :=
  let e := s.heldEnt t t.type2
  let s1 := match t.ent with
    | some x => if t.type2 && decide (x.st ≠ 2 ∧ x.st ≠ 3) then s
                else s.setEnt t.la (if e.sh.isEmpty && !e.coarse then none else some { e with hold := false })
    | none => s.setEnt t.la (if e.sh.isEmpty && !e.coarse then none else some { e with hold := false })
  (s1.delTrk k).unread (fun j => decide (j = k))

/-- Release a part's holds and discard its shadow ways (R114, R117). Acquires in progress end with what their snoops left, those
that still wait in their line's queue leave it; one whose snoops are out ends when they are answered, so that what they bring is
absorbed. -/
def State.partRelease (s : State) (p : HPart) : State :=
  let held := p.lines.filter (fun l => decide (l.step ≠ 0))
  let s1 := s.each held (fun l t =>
    let u := (t.unhold l.la).inHome (fun h => { h with shadow := tdel h.shadow l.la })
    if (tfind t.home.shadow l.la).isSome then u.placeAllocs l.la else u)
  let mine := fun t : Trk => (match t.ev with | .hamper k _ => decide (k = p.key) | _ => false)
  let s2 := (s1.cutTrks (fun t => mine t && decide (t.phase = 0))).each
    (s1.home.trks.filter (fun x => mine x.2 && x.2.phase ≠ 0 && x.2.snps.isEmpty && x.2.todo.isNone)) (fun x t => t.acquireEnd x.1 x.2)
  s2.setPart { p with lines := p.lines.map (fun l => { l with step := 0 }), won := false, mis := none }

/-- A part votes something other than PREPARED: its holds go at once (R114). -/
def State.partVote (s : State) (p : HPart) (v fail : Nat) : State :=
  let s1 := s.partRelease p
  match s1.part p.key with
  | some q => s1.setPart { q with vote := some v, fail := fail }
  | none => s1

/-- Selected bytes are equal (R105). -/
def maskedEq (a b : Line) (mask : BitVec 64) : Bool :=
  (List.range 64).all (fun i => !mask.getLsbD i || decide ((a >>> (8 * i)).setWidth 8 = ((b >>> (8 * i)).setWidth 8 : Byte)))

def maskMerge (old new : Line) (mask : BitVec 64) : Line :=
  (List.range 64).foldl (fun (x : Line) i =>
    if mask.getLsbD i then (x &&& ~~~ ((0xFF#512) <<< (8 * i))) ||| (new &&& ((0xFF#512) <<< (8 * i))) else x) old

/-- Stage a shadow way (R86, R112): 1 staged, 2 it waits for a victim to be written, 0 every way of the set is a shadow way. -/
def State.stageShadow (s : State) (la : Nat) (d : Line) (poison : Bool) : State × Nat :=
  match (s.setRead la).findWay la (s.setWaits la + 1) with
  | (s1, 1) =>
    let s2 := (s1.seeDirty la).inHome (fun h => { h with shadow := tins h.shadow la (d, poison) })
    ((s2.stkWrite (s2.slice (laSlice la)).stack).emit (.hbmWrite (s2.slice (laSlice la)).stack la), 1)
  | r => r

/-- A line of a part has been compared, or staged. When it was the last one, a mismatch makes the part vote with the lowest
entry that did not compare; otherwise the PREPARED record is written (R105, R112). -/
def State.hmpDone (s : State) (k : Nat) (t : Trk) (p : HPart) (l : PLine) (miss : Bool) : State :=
  let s1 := (s.setEnt t.la (some (s.heldEnt t l.l.compare))).delTrk k
  let i := l.l.index.val
  let q := { p with
    lines := p.lines.map (fun (y : PLine) => if y.l.index = l.l.index then ({ y with step := 2 } : PLine) else y)
    mis := if miss then some (min i (p.mis.getD i)) else p.mis }
  if !q.lines.all (fun (y : PLine) => decide (y.step = 2)) then s1.setPart q
  else match q.mis with
    | some j => (s1.setPart q).partVote q 0x49 j
    | none => (s1.setPart { q with prepared := true }).logAppend (s1.partRec q 1 0)

/-- A line of a part has its current data: compare it, or stage its shadow way (R105, R112). -/
def State.hmpLine (s : State) (k : Nat) (t : Trk) (p : HPart) (l : PLine) (d : Line) (poison : Bool) : State :=
  if l.l.compare then s.hmpDone k t p l (!maskedEq d l.l.data l.l.mask)
  else
    let full := decide (l.l.mask = BitVec.allOnes 64)
    match s.stageShadow t.la (maskMerge d l.l.data l.l.mask) (poison && !full) with
    | (s1, 1) => s1.hmpDone k t p l false
    | (s1, 0) => ((s1.setEnt t.la (some (s1.heldEnt t false))).delTrk k).partVote p 1 0xFF
    | (s1, _) => s1.setTrk k { t with phase := 3, ack := 4, got := (if t.wb.isSome then t.got else some (d, poison)) }

/-- The line that an acquire is for, while its part still acquires it. -/
def State.acquired (s : State) (t : Trk) : Option (HPart × PLine) :=
  match t.ev with
  | .hamper key i =>
    (s.part key).bind (fun p => (p.lines.find? (fun l => decide (l.l.index.val = i) && decide (l.step = 1))).map (fun l => (p, l)))
  | _ => none

/-- Slices have failed, or a teardown has begun on their domain: parts before their vote answer ST_HMP_TARGET_FAILED, with
the entry when only one line is hit; commits of this origin report it (R94, R108, R126). -/
def State.hmpFailed (s : State) (slices : List Nat) : State :=
  let on := fun l : PLine => slices.contains l.l.slice.val
  s.each (s.hmp.parts.filter (fun p => p.lines.any on)) (fun p t =>
    let f := match p.lines.filter on with | [l] => l.l.index.val | _ => 0xFF
    match p.vote with
    | none => t.partVote p 0x4C f
    | some _ => match t.orig p.key with
      | some o => t.setOrig { o with failed := some (if o.failed.isSome && o.failed ≠ some f then 0xFF else f) }
      | none => t)

end Sys2Proof.Machine
end

