-- ==== Sys2Proof/Machine/Home.lean ====
section
/-! DEFINITION. The coherence home's requests: trackers, snoops, speculation, service (R70-R88). -/

namespace Sys2Proof.Machine

/-! ### Forms of completion (R58, R94) -/

/-- A refused access (R58). -/
def refuseForm (via : Via) (write : Bool) : Option HRsp :=
  match via with
  | .mem => some (if write then .done else .poison)
  | .ioNp => some .ur
  | .ioP | .discard => none
  | _ => some .err

/-- An access that a home refuses: a fabric request is answered with the reason, and its origin refuses it (R57, R58, R229). -/
def homeRefuse (via : Via) (write : Bool) (reason : Nat) : Option HRsp :=
  match via with
  | .fabric _ _ => some (.decode reason)
  | _ => refuseForm via write

/-- An access to a FAILED slice or a lost bank (R57, R94, R97). -/
def failForm (via : Via) (write : Bool) : Option HRsp :=
  match via with
  | .mem => some (if write then .done else .poison)
  | .ioP | .discard => none
  | _ => some .err

def HEv.isWrite : HEv → Bool
  | .ncw => true
  | _ => false

/-- A request of R72, which takes a tracker. -/
def HEv.isReq : HEv → Bool
  | .evict | .walk _ _ | .hamper _ _ | .move _ | .part _ => false
  | _ => true

def HEv.isHamper : HEv → Bool
  | .hamper _ _ => true
  | _ => false

/-- The exclusive holder as the tracker's lookup found it: the agent that R76 names when it answers without data. -/
def Trk.owner (t : Trk) : Nat := match t.ent with | some e => e.sh.headD 0 | none => 0

/-- The buffer that ingress run-ahead holds for a request is consumed or released (R88). -/
def State.aheadFree (s : State) (fid la : Nat) : State :=
  s.inHbm (fun h => match h.ahead.find? (fun a => decide (a.2.1 = fid) && decide (a.2.2 = la)) with
    | some a => { h with ahead := h.ahead.erase a }
    | none => h)

/-- The response leaves the home and, for a requester of this module, its ingress port (R58, R382); that of a lost agent is
discarded (R93, R94), which releases the run-ahead buffer. -/
def State.complete (s : State) (fid : Nat) (via : Via) (la : Nat) (r : Option HRsp) : State :=
  match (if via = .discard then none else r) with
  | some x => ((s.latStage (tagAt fid la) 6 |>.latStage (tagAt fid la) 7 true).emit (.homeRsp fid via la x)).readBack via x
  | none => (s.aheadFree fid la).latAbort (tagAt fid la)

/-- The answer to a message that takes no tracker: it leaves the books of a request of the same agent and line as they are
(R79, R88). -/
def State.respond (s : State) (fid : Nat) (via : Via) (la : Nat) (r : Option HRsp) : State :=
  if s.home.trks.any (fun t => decide (t.2.la = la) && decide (t.2.fid = fid) && t.2.ev.isReq) then
    match (if via = .discard then none else r) with
    | some x => (s.emit (.homeRsp fid via la x)).readBack via x
    | none => s
  else s.complete fid via la r

/-- The home event that a message names (R72): each combination that the table lists, and none for any other. A memory write
is a write-back or a non-caching write as the entry says. -/
def evFits (m : CxMsg) (ev : HEv) : Bool :=
  match m, ev with
  | .plain _, _ => true
  | .memRd .s _, .rds | .memRdData .s _, .rds | .rdShared, .rds => true
  | .memRd .a .data, .rda | .memRdData .a .data, .rda | .rdAny, .rda => true
  | .memRd .a .inv, .rdown | .memInv .a .inv, .rdown | .rdOwn, .rdown | .rdOwnNoData, .rdown => true
  | .memRd .i .cur, .ncr | .memRd .i .noOp, .ncr | .rdCurr, .ncr => true
  | .memClnEvct, .ce | .cleanEvict, .ce | .cleanEvictNoData, .ce => true
  | .wrCur, .ncw | .wrInv, .ncw | .woWrInv, .ncw | .woWrInvF, .ncw | .itoMWr, .ncw => true
  | _, _ => false

/-- MemWr and MemWrPtl, which the entry makes a write-back or a non-caching write (R72). -/
def memWrites : CxMsg → Bool
  | .memWr _ | .memWrPtl _ => true
  | _ => false

/-- Class and privilege of a request at its home, as the counters filter them (R155, R376). -/
def viaAttr (via : Via) (fid la : Nat) : PmcAttr :=
  let c := match via with | .mem => 0 | .ioNp => 5 | .ioP => 4 | .discard => 0 | .cache => 0 | .fabric _ _ => 0 | .engine _ => 6
  let p := match via with | .engine _ => 1 | _ => 0
  { cls := some c, prv := some p, fid := some fid, slice := some (laSlice la) }

/-! ### Reads (R74, R87, R147) -/

/-- TRK_FREE of a bank (R99): 8,192 less its request trackers and its read trackers. A fill that waits for its way holds
its read tracker (R86). -/
def State.trkFree (s : State) (b : Nat) : Nat :=
  8192 - (s.home.trks.filter (fun t => t.2.ev.isReq && decide (s.laBank t.2.la = b))).length
       - (s.home.devRds.filter (fun d => decide (s.laBank d.2.1 = b))).length
       - (s.home.allocs.filter (fun a => !a.line.dirty && decide (s.laBank a.la = b))).length

/-- The pseudo-channel of an offset in an area of a stack (R143). A set of the line store lies in one pseudo-channel (R144):
its lines take that of the set's first byte. -/
def areaPc (a : Nat) : Nat := (a / 2 ^ 6 ^^^ a / 2 ^ 11 ^^^ a / 2 ^ 16) % 32
def State.linePc (s : State) (la : Nat) : Nat := areaPc (s.lsSet la % 25165824 * 1024)

/-- The stack and the pseudo-channel that a read is of (R143, R144). -/
def State.slotPlace (s : State) (la : Nat) : RdJob → Nat × Nat
  | .line => ((s.slice (laSlice la)).stack, s.linePc la)
  | .spill _ page => (page % 4, areaPc (page / 4 * 4096))
  | .dir _ => (s.dirStack la, areaPc (s.dirSet la % 2 ^ 25 * 256))
  | .log i _ => (s.fld hbmStatus 12 2, areaPc (i * 64))

/-- The station of a queue's port (R14). -/
def queueStation (q : Nat) : Nat := 2 * (q % 1536 / 8 / 16) + q % 1536 / 8 % 16 / 8

/-- A read goes out to its stack. -/
def State.slotAsk (s : State) (la : Nat) (job : RdJob) : State :=
  match job with
  | .line => s.emit (.hbmRead (s.slice (laSlice la)).stack la)
  | .spill q page => s.emit (.spillRead (queueStation q) q page)
  | .dir k => s.emit (.dirRead (s.dirStack la) la k)
  | .log i _ => s.emit (.logRead (s.fld hbmStatus 12 2) i)

/-- Issue a read of units of a stack: it takes a read slot of its pseudo-channel, or waits for one. -/
def State.slotIssue (s : State) (la : Nat) (trk : Option Nat) (job : RdJob) : State :=
  let (st, pc) := s.slotPlace la job
  let q := (st * 32 + pc) * 64
  match (List.range 64).find? (fun k => (tfind s.hbm.slots (q + k)).isNone) with
  | some k => ((s.inHbm (fun h => { h with slots := tins h.slots (q + k) { la := la, trk := trk, job := job } })).stkRead st 1).slotAsk la job
  | none => s.inHbm (fun h => { h with waitRd := h.waitRd ++ [(la, trk, job)] })

/-- Issue a line-store read. -/
def State.hbmIssue (s : State) (la : Nat) (trk : Option Nat) : State := s.slotIssue la trk .line

def RdJob.isDir : RdJob → Bool
  | .dir _ => true
  | _ => false

/-- A lookup of a line still waits for bursts of its directory set (R143). -/
def State.dirBusy (s : State) (la : Nat) : Bool :=
  s.hbm.slots.any (fun e => decide (e.2.la = la) && e.2.job.isDir) || s.hbm.waitRd.any (fun w => decide (w.1 = la) && w.2.2.isDir)

/-- A lookup reads the line's set of the HBM directory: its four burst pairs (R143). -/
def State.dirRead (s : State) (la : Nat) : State := if s.dirAvail then s.each (List.range 4) (fun k t => t.slotIssue la none (.dir k)) else s

/-- A lookup finds its entry on die, or reads its directory set (R83, R143). -/
def State.lookup0 (s : State) (la : Nat) : State := if (match s.ent la with | some e => e.onDie | none => false) then s else s.dirRead la

/-- The read of a tracker's line goes to its device (R74, R87). -/
def State.sendRead (s : State) (k : Nat) (t : Trk) : State :=
  let (n, s1) := ((s.pmc 0x05 (s.laBank t.la) 1 (viaAttr t.via t.fid t.la)).latStage (tagAt t.fid t.la) 4).stamp
  let b := s1.backing t.la
  ((s1.setTrk k { t with rd := 2, rid := n }).inHome (fun h => { h with devRds := tins h.devRds n (t.la, some k) })).emit (.devRead n b.1 b.2)

/-- Issue the read of a tracker's line: line store, else device. Without a read tracker, or while a write of the line is on
its way to the device, it waits, or is not made when it is only speculative (R87). A line that waits for its way is read
where it waits; a device that cannot be reached answers as a missed request: poison (R41, R66). -/
def State.issueRead (s : State) (k : Nat) (t : Trk) (spec : Bool) : State :=
  if (s.lsLine t.la).isSome && !t.ev.isMove then
    ((((s.pmc 0x04 (s.laBank t.la) 1 (viaAttr t.via t.fid t.la)).latStage (tagAt t.fid t.la) 4).latFlag t.fid t.la 16).setTrk k { t with rd := 1 }).lsUse t.la |>.hbmIssue t.la (some k)
  else match (if t.ev.isMove then none else s.allocOf t.la) with
  | some a => if spec then s.setTrk k t else s.setTrk k { t with rd := 4, got := some (a.line.data, a.line.poison) }
  | none =>
    if s.trkFree (s.laBank t.la) = 0 ∨ s.writing t.la then s.setTrk k (if spec then t else { t with rd := 3 })
    else if s.reaches (s.backing t.la).1 then s.sendRead k t
    else if spec then s.setTrk k t
    else
      let (n, s1) := s.draw
      (s1.coreMiss (s1.backing t.la).1).setTrk k { t with rd := 4, got := some (BitVec.ofNat 512 n, true) }

/-- A read tracker or a tracker has become free, or a write is done: the oldest read that waits in the bank is issued. -/
def State.kickReads (s : State) (b : Nat) : State :=
  match lruOf (fun x : Nat × Trk => x.2.ord) (s.home.trks.filter (fun x => decide (x.2.rd = 3) && decide (s.laBank x.2.la = b) && !s.writing x.2.la)) with
  | some (k, t) => s.issueRead k { t with rd := 0 } false
  | none => s

/-- Undo a speculative read: its data will be dropped, and the run-ahead buffer is released (R88). -/
def State.dropReads (s : State) (k : Nat) (t : Trk) : State :=
  let s1 := ((s.setTrk k { t with rd := 0, got := none }).unread (fun j => decide (j = k))).aheadFree t.fid t.la
  if t.rd = 1 ∨ t.rd = 2 ∨ t.got.isSome then ((s1.cnt64 (sfBankSpecDiscardCnt (s.laBank t.la))).pmc 0x03 (s.laBank t.la) 1 { viaAttr t.via t.fid t.la with prv := none, fid := none }).latFlag t.fid t.la 8 else s1

/-! ### State changes (R75) -/

def lineMerge (old new : Line) (mask : BitVec 64) : Line :=
  (List.range 64).foldl (fun (x : Line) i =>
    if mask.getLsbD i then (x &&& ~~~ ((0xFF#512) <<< (8 * i))) ||| (new &&& ((0xFF#512) <<< (8 * i))) else x) old

/-- Free a tracker; reads under way for it are dropped. -/
def State.endTrk (s : State) (k : Nat) (t : Trk) : State := ((s.delTrk k).unread (fun j => decide (j = k))).kickReads (s.laBank t.la)

/-- The line store holds the line DIRTY, or will when a way is free. -/
def State.dirtyHere (s : State) (la : Nat) : Bool :=
  s.lsDirty la || (match s.allocOf la with | some a => a.line.dirty | none => false)

/-- The entry after a served request, and the grant: 0 none, 1 S, 2 E, 3 M (R75, R82, R90). -/
def State.nextEnt (s : State) (t : Trk) : Option DirEnt × Nat :=
  let d := s.laDom t.la
  let shSt := if s.dirtyHere t.la then 4 else 1
  let mk := fun (st : Nat) (sh : List Nat) =>
    sh.foldl (fun e f => s.addSharer e f) ({ st := st, dom := d, sh := [] } : DirEnt)
  let keepers := (t.rsps.filter (fun r => decide (r.keep.val ≠ 0))).map (fun r => (r.fid : Nat))
  let now := s.ent t.la
  let excl := match t.ent with | some e => decide (e.st = 2 ∨ e.st = 3) | none => false
  let own := match t.ent with | some e => excl && decide (e.sh = [t.fid]) | none => false
  let base : Option DirEnt := if excl then none else now
  -- a shared line whose entry has been lost since the lookup (R92, R98): its sharers are unrecorded, and so is this one
  let lost := t.ent.isSome && !excl && now.isNone
  match t.ev with
  | .ncr =>
    if excl && !t.rsps.isEmpty then
      if t.rsps.any (fun r => decide (r.keep.val = 2)) then (now, 0)
      else if keepers.isEmpty then (none, 0) else (some (mk shSt keepers), 0)
    else (now, 0)
  | .rds => (match base with
    | some e => some (s.addSharer e t.fid)
    | none => if lost then none else some (mk shSt (keepers ++ [t.fid])), 1)
  | .rda => match base with
    | some e => (some (s.addSharer e t.fid), 1)
    | none => if lost then (none, 1) else if keepers.isEmpty && (!excl || own) then (some (mk 2 [t.fid]), 2) else (some (mk shSt (keepers ++ [t.fid])), 1)
  | .rdown =>
    if t.type2 && t.ent.isNone && !t.wide && s.lsDirty t.la && s.bit sfHomeCtl 28 then (some (mk 3 [t.fid]), 3) else (some (mk 2 [t.fid]), 2)
  | _ => (none, 0)

/-- Record what a request leaves of its line: an entry that an NCR leaves stays where it is. False: it waits for a way (R113). -/
def State.recordNext (s : State) (t : Trk) (e : Option DirEnt) : State × Bool :=
  match e, s.ent t.la with
  | none, _ => (s.setEnt t.la none, true)
  | some x, some o => if t.ev = .ncr then (s.setEnt t.la (some { x with onDie := o.onDie, use := o.use }), true) else s.record t.la x
  | some x, none => if t.ev = .ncr then (s, true) else s.record t.la x

/-- Serve a read whose data has come: what was written back for it, else what was read (R74, R75, R88). -/
def State.serve (s : State) (k : Nat) (t : Trk) : State :=
  match (match t.wb with | some d => some (d, t.wbBad) | none => t.got) with
  | none => s
  | some (d, p) =>
    let (e, g) := s.nextEnt t
    match s.recordNext t e with
    | (s1, false) => s1.setTrk k { t with phase := 3, rd := 0, ack := 5 }
    | (s1, true) =>
      let s2 := if g = 3 then (s1.lsDrop t.la).placeAllocs t.la else s1
      let s3 := if p then s2.poisonCnt t.la else s2
      (s3.complete t.fid t.via t.la (some (.data g d p))).endTrk k t

/-- Write a non-caching write (R75, R77): whole, or merged into the current data. -/
def State.ncwWrite (s : State) (k : Nat) (t : Trk) : State :=
  let full := decide (t.mask = BitVec.allOnes 64)
  let cur := match t.wb with | some d => some (d, t.wbBad) | none => t.got
  match full, cur with
  | false, none => s.issueRead k { t with phase := 3 } false
  | _, c =>
    let old := c.getD (0, false)
    let d := if full then t.data else lineMerge old.1 t.data t.mask
    let (s1, n) := ((s.setEnt t.la none).latStage (tagAt t.fid t.la) 4).memStore t.la d (!full && old.2) (some k)
    s1.setTrk k { t with phase := 4, rd := 0, ack := n }

/-- An M holder answered without data what a request or a walk asked (R75). -/
def Trk.noData (t : Trk) : Bool :=
  match t.ent with
  | some e => decide (e.st = 3) && !t.rsps.isEmpty && t.wb.isNone
  | none => false

/-- Then the line is poisoned and the request continues from state I (R75). -/
def State.ownerLost (s : State) (t : Trk) : State × Trk :=
  if t.noData then ((((s.setEnt t.la none).poisonOwned t.la).protoErr t.la t.owner), { t with ent := none, rsps := [] }) else (s, t)

/-- Every snoop is answered and every absorbed write acknowledged: the request continues (R74, R75, R88). -/
def State.goOn (s : State) (k : Nat) (t : Trk) : State :=
  let (s0, t0) := s.ownerLost t
  match t0.ev with
  | .ncw => s0.ncwWrite k t0
  | _ =>
    if t0.wb.isSome || t0.got.isSome then s0.serve k t0
    else if t0.rd = 0 then s0.issueRead k { t0 with phase := 3 } false
    else s0.setTrk k { t0 with phase := 3 }

/-- The tracker is of the teardown of a FAILED domain, which discards what the holders write back (R95). -/
def State.discards (s : State) (t : Trk) : Bool :=
  match t.ev with
  | .walk w _ => (match (s.slot w).job with | .teardown _ true => true | _ => false)
  | _ => false

/-- The hard part of a walk's line: the holders have answered (R62, R91, R95). -/
def State.walkLineDone (s : State) (k : Nat) (t : Trk) (f : Option Nat) : State :=
  let failedTeardown := s.discards t
  let failed := decide ((s.slice (laSlice t.la)).state = 5)
  let excl := match t.ent with | some e => decide (e.st = 2 ∨ e.st = 3) | none => true
  let s1 := match f with
    | some a => s.setEnt t.la ((s.ent t.la).bind (fun e => entMinus e a))
    | none => s.setEnt t.la none
  let s2 := if failedTeardown then (if excl then (s1.poisonLine t.la).poisonCnt t.la else s1)
            else if t.noData && !failed && (s1.ent t.la).isNone then (s1.poisonOwned t.la).protoErr t.la t.owner
            else s1
  s2.endTrk k t

/-- A hamper's acquire whose snoops are answered: it reads the line, then stages or compares it (R112); when its part has let
the line go, it ends (R117). -/
def State.hamperGoOn (s : State) (k : Nat) (t : Trk) : State :=
  let (s0, t0) := s.ownerLost t
  match s0.acquired t0 with
  | none => s0.acquireEnd k t0
  | some (p, l) =>
    match t0.wb, t0.got with
    | some d, _ => s0.hmpLine k t0 p l d t0.wbBad
    | none, some (d, x) => s0.hmpLine k t0 p l d x
    | none, none => if t0.rd = 0 then s0.issueRead k { t0 with phase := 3 } false else s0.setTrk k { t0 with phase := 3 }

/-- A move tracker has its line: it writes the new backing; then what was written back meanwhile goes to both backings;
then the copy is complete (R195, R196). A poisoned read stops the move (R201). -/
def State.moveOn (s : State) (k : Nat) (t : Trk) : State :=
  let x := s.slice (laSlice t.la)
  let o := t.la % 2 ^ 22 * 64
  if t.phase = 3 then match t.got with
    | none => s
    | some (_, true) => s.movePoison t
    | some (d, p) =>
      let s1 := s.devWr x.newDev (x.newDpa * 2 ^ 28 + o) d p
      s1.setTrk k { t with phase := 4, rd := 0, ack := s1.devAck t.la, got := none }
  else if t.phase = 4 then match t.wb with
    | some d =>
      let s1 := ((s.setTrk k { t with wb := none }).devWr x.newDev (x.newDpa * 2 ^ 28 + o) d t.wbBad).devWr x.dev (x.dpa * 2 ^ 28 + o) d t.wbBad
      s1.setTrk k { t with wb := none, ack := s1.devAck t.la }
    | none => s.setTrk k { t with phase := 5 }
  else s

/-- A partial write-back has its line: merged, it is stored as memory; the tracker that it answers waits for that (R74). -/
def State.partOn (s : State) (k : Nat) (t : Trk) (j : Option Nat) : State :=
  match t.got with
  | none => s
  | some (d, p) =>
    let m := lineMerge d t.data t.mask
    let (s1, n) := (s.delTrk k).memStore t.la m p j
    match j with
    | none => s1
    | some i => match tfind s1.home.trks i with
      | some x => s1.setTrk i { x with wb := some m, wbBad := p, ack := n }
      | none => s1

/-- One step of a tracker that waits for nothing. -/
def State.advance1 (s : State) (k : Nat) : State :=
  match tfind s.home.trks k with
  | none => s
  | some t =>
    if !t.snps.isEmpty || t.todo.isSome || t.ack ≠ 0 then s
    else if t.ev.isMove then s.moveOn k t
    else if t.phase = 2 then
      match t.ev with
      | .evict => (if t.noData then (s.poisonOwned t.la).protoErr t.la t.owner else s).endTrk k t
      | .walk _ f => s.walkLineDone k t f
      | .hamper _ _ => s.hamperGoOn k t
      | _ => s.goOn k t
    else if t.phase = 3 then
      if (t.rd = 1 ∨ t.rd = 2 ∨ t.rd = 3) ∧ t.wb.isNone then s
      else (match t.ev with | .ncw => s.ncwWrite k t | .hamper _ _ => s.hamperGoOn k t | .part j => s.partOn k t j | _ => s.serve k t)
    else if t.phase = 4 then (s.complete t.fid t.via t.la (some .done)).endTrk k t
    else s

/-- A tracker has its data at hand, or its write needs no acknowledgement: it goes on. -/
def State.trkReady (s : State) (k : Nat) : Bool :=
  match tfind s.home.trks k with
  | some t => t.snps.isEmpty && decide (t.ack = 0) && (decide (t.rd = 4) || decide (t.phase = 4))
  | none => false

/-- Advance a tracker: at most its read, its write and its completion. -/
def State.advance (s : State) (k : Nat) : State :=
  let s1 := s.advance1 k
  let s2 := if s1.trkReady k then s1.advance1 k else s1
  if s2.trkReady k then s2.advance1 k else s2

/-- Trackers that waited for a way of their directory set or of the line store go on, and those that have their data (R86, R113). -/
def State.resume (s : State) : State :=
  s.each (s.home.trks.filter (fun x => decide (x.2.ack = 4 ∨ x.2.ack = 5) || s.trkReady x.1)) (fun x t =>
    match tfind t.home.trks x.1 with
    | some y => (t.setTrk x.1 (if y.ack = 4 ∨ y.ack = 5 then { y with ack := 0 } else y)).advance x.1
    | none => t)

/-- A clean eviction takes effect (R75). -/
def State.cleanEvict (s : State) (fid la : Nat) : State :=
  match s.ent la with
  | none => s
  | some e =>
    if e.coarse || !e.sh.contains fid then s
    else if e.st = 3 then ((s.setEnt la none).poisonOwned la).protoErr la fid
    else s.setEnt la (entMinus e fid)

/-- Start a request at the head of its line: lookup and speculation (R87). -/
def State.startReq (s : State) (k : Nat) (t : Trk) : State :=
  let t1 : Trk := { t with phase := 1 }
  let reads := [HEv.rds, .rda, .rdown, .ncr].contains t.ev
  if reads && s.bit sfHomeCtl 31 then (s.lookup0 t.la).issueRead k t1 true else (s.lookup0 t.la).setTrk k t1

/-- The line has an open tracker, its HOLD is set, or what was written back for it waits for a way (R78, R80, R86). -/
def State.lineBusy (s : State) (la : Nat) : Bool :=
  s.lineOpen la || (match s.ent la with | some e => e.hold | none => false) ||
  (match s.allocOf la with | some a => a.line.dirty | none => false)

/-- A request is accepted at its home bank's station (R57, R58, R71, R75, R78, R80, R94, R97); one that finds no free tracker
is not (R80). `odd`: only a caching agent sends such a request, and the sender is none (R71). -/
def State.homeAccept (s : State) (ev : HEv) (r : HReq) (odd : Bool := false) : State :=
  let sl : Nat := r.slice
  let la := lineAddr sl r.off.toNat
  let fid : Nat := r.fid
  let b := s.laBank la
  let wr := decide (ev = .rdown) || decide (ev = .ncw)
  let fails := fun x : State =>
    ((x.poisonCnt la).latAbort (tagAt fid la)).complete fid r.via la (if ev = .ce then some .done else failForm r.via ev.isWrite)
  if s.clk.draining then s
  else if (s.slice sl).state = 5 ∨ s.home.bankLost.contains b then fails s
  else if s.inDoubt la then fails (s.cnt hmpIndoubtHitCnt)
  else match s.homeReason fid sl wr with
  | some reason => ((s.homeFail fid sl r.off.toNat reason).latAbort (tagAt fid la)).complete fid r.via la (if ev = .ce then some .done else homeRefuse r.via ev.isWrite reason)
  | none =>
    if s.trkFree b = 0 then s
    else
      let s := s.markBusy
      let ag := s.agentOf (s.slice sl).dom fid
      let caching := match ag with | some a => a.2.caching | none => false
      let demote := !caching && [HEv.rds, .rda, .rdown].contains ev
      let ev1 : HEv := if demote then .ncr
        else if ev = .rda && (match ag with | some a => decide (a.2.rights ≠ 3) | none => false) then .rds else ev
      let s1 := if demote || odd || (!caching && decide (ev = .ce)) then s.cnt (sfBankProtoErrCnt b) else s
      if !caching && decide (ev = .ce) then s1.complete fid r.via la (some .done)
      else
        let s2 := if ev = .ce then s1 else ((s1.cnt64 (sfBankReqCnt b)).pmc 0x01 b 1 (viaAttr r.via fid la)).latStage (tagAt fid la) 2
        let (n, s3) := s2.stamp
        let k := s3.freeTrk
        let t : Trk := { la := la, ev := ev1, fid := fid, via := r.via, type2 := r.msg.cache, data := r.data, mask := r.mask, ord := n }
        if s3.lineBusy la || s3.home.trks.any (fun x => decide (x.2.la = la)) then
          (s3.setTrk k t).cnt64 (sfBankConflictCnt b)
        else s3.startReq k t

/-- A message that the CXL specification forbids here (R76): counted, logged, completed in the form of a refused access
(log 245). -/
def State.forbidden (s : State) (r : HReq) (write : Bool) : State :=
  let la := lineAddr r.slice r.off.toNat
  (s.protoErr la r.fid).respond r.fid r.via la (refuseForm r.via write)

/-- A request by one of the events of R72: its message is one that the table gives for the event, or a protocol error. -/
def State.homeReq (s : State) (ev : HEv) (r : HReq) : State :=
  if evFits r.msg ev || s.clk.draining then s.homeAccept ev r else s.forbidden r ev.isWrite

/-- HOME_RDS (R75). -/
def execHomeRds (r : HReq) (s : State) : Res := .next (s.homeReq .rds r)
/-- HOME_RDA (R75). -/
def execHomeRda (r : HReq) (s : State) : Res := .next (s.homeReq .rda r)
/-- HOME_RDOWN (R75). -/
def execHomeRdown (r : HReq) (s : State) : Res := .next (s.homeReq .rdown r)
/-- HOME_NCR (R75, R77). -/
def execHomeNcr (r : HReq) (s : State) : Res := .next (s.homeReq .ncr r)
/-- HOME_CE (R71, R75). -/
def execHomeCe (r : HReq) (s : State) : Res := .next (s.homeReq .ce r)

/-- Absorb written-back data into a tracker's line: it replaces what was read for it (R74, R79). -/
def State.absorb (s : State) (k : Nat) (t : Trk) (d : Line) (poison : Bool) : State :=
  let t1 : Trk := { t with wb := some d, wbBad := poison, got := none, rd := 0 }
  let s0 := if t.rd = 1 ∨ t.rd = 2 then s.unread (fun j => decide (j = k)) else s
  if (s.slice (laSlice t.la)).state = 5 then (s0.setTrk k t1).poisonCnt t.la
  else if s.discards t then s0.setTrk k t1
  else
    let (s1, n) := s0.memStore t.la d poison (some k)
    s1.setTrk k { t1 with ack := n }

/-- Absorb the bytes of a write-back, whole or partial: a partial one merges into the line's current data, which is read
when the line store does not hold it (R72, R74, R77); bytes that come while an earlier partial one waits join it. -/
def State.takeWb (s : State) (la : Nat) (d : Line) (mask : BitVec 64) (k : Option (Nat × Trk)) : State :=
  let put := fun (x : Line) (p : Bool) => match k with
    | some (j, t) => s.absorb j t x p
    | none => (s.memStore la x p none).1
  let wait := fun x : State => match k with | some (j, t) => x.setTrk j { t with ack := 3 } | none => x
  match s.home.trks.find? (fun x => decide (x.2.la = la) && (match x.2.ev with | .part _ => true | _ => false)) with
  | some (i, y) =>
    (wait s).setTrk i { y with data := lineMerge y.data d mask, mask := y.mask ||| mask, ev := .part (match y.ev, k with | _, some (j, _) => some j | .part o, none => o | _, none => none) }
  | none =>
    if mask = BitVec.allOnes 64 ∨ (s.slice (laSlice la)).state = 5 then put d false
    else match s.lsLine la, s.allocOf la with
      | some l, _ => put (lineMerge l.data d mask) l.poison
      | none, some a => put (lineMerge a.line.data d mask) a.line.poison
      | none, none =>
        let (n, s1) := s.stamp
        let s2 := wait s1
        let i := s2.freeTrk
        (s2.issueRead i { la := la, ev := .part (k.map (·.1)), data := d, mask := mask, phase := 3, ord := n } false).advance i

/-- The open tracker whose snoop an agent owes. -/
def State.snoopOf (s : State) (la fid : Nat) : Option (Nat × Trk) :=
  s.home.trks.find? (fun x => decide (x.2.la = la) && x.2.snps.any (fun n => decide (n.fid = fid)))

/-- The open tracker of a line that a write-back is matched to (R79). -/
def State.openTrk (s : State) (la : Nat) : Option (Nat × Trk) :=
  s.home.trks.find? (fun x => decide (x.2.la = la) && [1, 2, 3].contains x.2.phase &&
    (match x.2.ev with | .part _ | .move _ | .ce => false | _ => true))

/-- A write-back that no open tracker has asked for meets the line's entry (R75): absorbed without an entry, and from the
exclusive holder; a protocol error from any other. -/
def State.wbEntry (s : State) (la fid : Nat) (d : Line) (mask : BitVec 64) (keep : Bool) : State :=
  match s.ent la with
  | none => s.takeWb la d mask (s.openTrk la)
  | some e =>
    if (e.st = 2 ∨ e.st = 3) ∧ e.sh.contains fid then
      let s1 := s.takeWb la d mask (s.openTrk la)
      s1.setEnt la (if keep then some { e with st := (if s1.dirtyHere la then 4 else 1) } else none)
    else s.protoErr la fid

/-- A write-back that no entry and no owed snoop explains is checked as a write (R57, R58); absorbed otherwise (R75). With the
reason of a refusal. -/
def State.strayWb (s : State) (r : HReq) : State × Option Nat :=
  let la := lineAddr r.slice r.off.toNat
  match s.homeReason r.fid r.slice true with
  | some reason => (s.homeFail r.fid r.slice r.off.toNat reason, some reason)
  | none => (s.wbEntry la r.fid r.data r.mask r.msg.keeps, none)

/-- HOME_WB, and HOME_NCW by MemWr: a write-back is matched to the open tracker of its line, or meets the line's entry; a
memory write of an agent that the entry does not record is a non-caching write (R71, R72, R75, R79). While a snoop is owed the
entry is the one that the snoop's lookup found. DESIGN CHOICE (log 260): a coarse entry records no sender of a memory write. -/
def State.homeWrite (s : State) (r : HReq) : State :=
  let sl : Nat := r.slice
  let la := lineAddr sl r.off.toNat
  let fid : Nat := r.fid
  let done := fun x : State => x.respond fid r.via la (some .done)
  let nonCaching := match s.agentOf (s.slice sl).dom fid with | some a => !a.2.caching | none => false
  let owed := s.snoopOf la fid
  let ent := match owed with | some (_, t) => t.ent | none => s.ent la
  let named := match ent with | some e => (s.holders e).contains fid && !(e.coarse && memWrites r.msg) | none => false
  let clean := match ent with | some e => decide (e.st = 1 ∨ e.st = 4) | none => false
  if (s.slice sl).state = 5 ∨ s.home.bankLost.contains (s.laBank la) then done (s.poisonCnt la)
  else if nonCaching then s.homeAccept .ncw r (!memWrites r.msg)
  else if named && (decide (r.msg = .memWr .a) || decide (r.msg = .memWrPtl .a)) then s.forbidden r true
  else if named && clean then done (s.protoErr la fid)
  else if ent.isSome && !named then s.homeAccept .ncw r
  else match owed with
    | some kt => done (s.takeWb la r.data r.mask (some kt))
    | none =>
      if named then done (s.wbEntry la fid r.data r.mask r.msg.keeps)
      else if memWrites r.msg then s.homeAccept .ncw r
      else match s.strayWb r with
        | (s1, none) => done s1
        | (s1, some reason) => s1.respond fid r.via la (homeRefuse r.via true reason)

/-- HOME_WB (R72, R75, R79). -/
def execHomeWb (r : HReq) (s : State) : Res :=
  .next (match r.msg with
    | .plain _ | .memWr _ | .memWrPtl _ | .dirtyEvict | .rspIFwdM | .rspSFwdM => s.homeWrite r
    | _ => s.forbidden r true)

/-- HOME_NCW (R72, R75, R77). -/
def execHomeNcw (r : HReq) (s : State) : Res :=
  .next (if memWrites r.msg then s.homeWrite r else s.homeReq .ncw r)

/-- MEMSPECRD: accepted, no action (R72). -/
def execMemspecrd (r : HReq) (s : State) : Res := match r with | _ => .next s

/-- CLFLUSH: a clean eviction when the entry records the device, else GO-I (R72). -/
def execClflush (r : HReq) (s : State) : Res :=
  let la := lineAddr r.slice r.off.toNat
  let rec0 := match s.ent la with | some e => (s.holders e).contains r.fid | none => false
  if rec0 then .next (s.homeAccept .ce r) else .next (s.respond r.fid r.via la (some .goI))

/-- BICONFLICT: acknowledged; the host's request stays queued behind the snoop that it crossed (R72, R78). -/
def execBiconflict (fid : Fid) (la : Nat) (s : State) : Res :=
  if (s.snoopOf la fid).isSome then .next (s.respond fid .mem la (some .conflictAck)) else .next s

/-- A response to a tracker's snoop (R74, R75, R76, R93): one that comes at or after the deadline is discarded; what an agent may
keep is bounded by the snoop, and a recorded sharer has no data to give. -/
def State.snoopAnswer (s : State) (la : Nat) (k : Nat) (t : Trk) (a : SnpRsp) : State :=
  let fid : Nat := a.fid
  match t.snps.find? (fun n => decide (n.fid = fid)) with
  | none => s
  | some n =>
    if !tickEarlier s.tick.loc n.due then
      s.setTrk k { t with snps := t.snps.map (fun x => if x.fid = fid then { x with late := true } else x) }
    else
      let keep : Fin 3 := if 2 - n.kind < a.keep.val then Fin.ofNat 3 (2 - n.kind) else a.keep
      let clean := match t.ent with | some e => decide (e.st = 1 ∨ e.st = 4) | none => false
      let bad := decide (keep ≠ a.keep) || (clean && a.data.isSome)
      let t1 : Trk := { t with snps := t.snps.filter (fun x => decide (x.fid ≠ fid)), rsps := t.rsps ++ [{ a with keep := keep }] }
      let s1 := if bad then s.protoErr la fid else s
      let s2 := match a.data with
        | some d => if clean then s1.setTrk k t1 else s1.absorb k t1 d false
        | none => s1.setTrk k t1
      s2.advance k

/-- SNOOP_RESPONSE: of an open tracker's snoop; of a remote home's (R229, R230); of a snoop that was abandoned, which is
discarded (R94); else what it brings is a write-back without a tracker (R75, R79). -/
def execSnoopResponse (la : Nat) (a : SnpRsp) (s : State) : Res :=
  let fid : Nat := a.fid
  if s.home.gone.contains (la, fid) then .next (s.inHome (fun h => { h with gone := h.gone.erase (la, fid) }))
  else match s.snoopOf la fid with
  | some (k, t) => .next (s.snoopAnswer la k t a)
  | none =>
    match s.lnk.rsnp.find? (fun x => decide (x.1 = la) && decide (x.2.1 = fid)) with
    | some (l, f, home, tag) =>
      let code := (if a.keep.val = 0 then 0 else 1) + (if a.data.isSome then 2 else 0)
      .next (({ s with lnk := { s.lnk with rsnp := s.lnk.rsnp.erase (l, f, home, tag) } }).emit (.fabMsg (match s.edgeOf fid with | some (p, _) => 2 * (p / 16) + p % 16 / 8 | none => 24) home 4 tag [code] a.data))
    | none =>
    match a.data with
    | none => .next s
    | some d =>
      if (s.slice (laSlice la)).state = 5 then .next (s.poisonCnt la)
      else match s.ent la, s.homeReason fid (laSlice la) true with
        | none, some reason => .next (s.homeFail fid (laSlice la) (la % 2 ^ 22 * 64) reason)
        | _, _ => .next (s.wbEntry la fid d (BitVec.allOnes 64) (decide (a.keep.val ≠ 0)))

/-- A lookup renews the age of its entry (R83). -/
def State.entUse (s : State) (la : Nat) : State :=
  let (n, s1) := s.stamp
  s1.inHome (fun h => { h with ents := h.ents.map (fun e => if e.1 = la then (la, { e.2 with use := n }) else e) })

/-- The lookup's entry comes on die (R83): read from the HBM directory when it is not there. False: it waits for a way. One for
which Blanket mode makes no room stays in the HBM directory (R90). -/
def State.bringIn (s : State) (la : Nat) : State × Bool :=
  match s.ent la with
  | some x =>
    if x.onDie then (s.entUse la, true)
    else match s.record la x with
      | (s1, ok) => if ok && (s1.ent la).isNone then (s.entUse la, true) else (s1, ok)
  | none => (s, true)

/-- SF_LOOKUP_DONE: the lookup answers; speculation is used or undone (R75, R83, R88, R90). A lookup that needs a way in a
set whose 16 ways are all held is not done (R113), nor is one whose directory bursts are still to come (R143). -/
def execSfLookupDone (k : Nat) (s : State) : Res :=
  match tfind s.home.trks k with
  | none => .next s
  | some t0 =>
    if t0.phase ≠ 1 ∨ s.dirBusy t0.la then .next s
    else match (s.latStage (tagAt t0.fid t0.la) 3).bringIn t0.la with
    | (_, false) => .next s
    | (s1, true) =>
      let la := t0.la
      let e := s.ent la
      let self : List Nat := match t0.via with | .engine _ => [] | _ => [t0.fid]
      let minus := fun l : List Nat => l.filter (fun f => !self.contains f)
      let wide := e.isNone && (s.blanketDom (s.laDom la) || !s.sfUp la)
      let kind := match t0.ev with | .ncr => 0 | .rds | .rda => 1 | _ => 2
      let excl := match e with | some x => decide (x.st = 2 ∨ x.st = 3) | none => false
      let tg : List Nat :=
        if wide then minus (s.cachers (s.laDom la))
        else match e with
          | none => []
          | some x => if excl || kind = 2 then minus (s.holders x) else []
      let t : Trk := { t0 with ent := e, wide := wide && !tg.isEmpty }
      if t0.ev = .ce then .next (((s1.cleanEvict t.fid la).complete t.fid t.via la (some .done)).endTrk k t)
      else if tg.isEmpty then .next ((s1.setTrk k { t with phase := 2 }).advance k)
      else
        let s2 := if wide || excl then s1.dropReads k t else s1.setTrk k t
        match tfind s2.home.trks k with
        | some t2 => .next (s2.sendSnoops k t2 kind tg)
        | none => .next s2

/-- A read's data reaches its tracker. -/
def State.readArrived (s : State) (k : Nat) (d : Line) (poison : Bool) : State :=
  match tfind s.home.trks k with
  | none => s
  | some t => ((s.latStage (tagAt t.fid t.la) 5).setTrk k { t with rd := 4, got := some (d, poison) }).advance k

/-- DEVICE_READ_COMPLETE: handed to its request or dropped; the read tracker frees (R85, R88). -/
def execDeviceReadComplete (rid : Nat) (d : Line) (poison : Bool) (s : State) : Res :=
  match tfind s.home.devRds rid with
  | none => .next s
  | some (la, trk) =>
    let s1 := s.inHome (fun h => { h with devRds := tdel h.devRds rid })
    let s2 := match trk with
      | none => s1
      | some k => (if (match tfind s.home.trks k with | some t => t.ev.isMove | none => false) then s1 else s1.lsFill la d poison).readArrived k d poison
    .next (s2.kickReads (s.laBank la))

/-- Trackers of a line that wait for an acknowledgement of a kind go on (R74). -/
def State.acked (s : State) (la kind : Nat) : State :=
  s.each (s.home.trks.filter (fun x => decide (x.2.la = la) && decide (x.2.ack = kind))) (fun x t =>
    ((t.latStage (tagAt x.2.fid la) 5).setTrk x.1 { x.2 with ack := 0 }).advance x.1)

/-- LINE_STORE_WRITE_ACK: the HBM controller has acknowledged the write of a line (R74). -/
def execLineStoreWriteAck (la : Nat) (s : State) : Res :=
  if (s.allocOf la).isSome then .next s else .next (s.acked la 1)

/-- LS_VICTIM_WRITE_DONE: a dirty victim is on its device; its way takes the line that waited, or a shadow (R86, R112). A victim that
was written again meanwhile, or has left, frees what waits all the same. -/
def execLsVictimWriteDone (la : Nat) (s : State) : Res :=
  let s0 := s.devWrDone la
  let s1 := match s.lsLine la with | some l => if l.wr then s0.lsDrop la else s0 | none => s0
  .next ((s1.placeAllocs la).resume.kickReads (s.laBank la))

/-- Requests that wait on a line complete as accesses to an in-doubt line (R122). -/
def State.failQueued (s : State) (p : Nat → Bool) : State :=
  s.each (s.home.trks.filter (fun x => decide (x.2.phase = 0) && x.2.ev.isReq && p x.2.la)) (fun x t =>
    let y := x.2
    let t1 := ((t.poisonCnt y.la).cnt hmpIndoubtHitCnt).complete y.fid y.via y.la (if y.ev = .ce then some .done else failForm y.via y.ev.isWrite)
    t1.endTrk x.1 y)

/-- The acquire of a part at the head of its line's queue: it holds the line, and snoops (R112). A line whose 16 ways are all held, or
whose snoop-filter bank is lost, cannot be acquired; one that waits for an entry to leave its set, or for its directory bursts (R143),
stays at the head. Of the tracker,
`type2` says that the line is a COMPARE line. -/
def State.hmpStart (s : State) (k : Nat) (t : Trk) : State :=
  let la := t.la
  match t.ev with
  | .hamper key i =>
    (match s.part key with
    | none => s.delTrk k
    | some p =>
      let e := s.ent la
      let out := match e with | some x => !x.onDie | none => true
      let full := decide (16 ≤ ((s.dieSet la).filter (fun x => decide (x.1 ≠ la) && x.2.hold)).length)
      if !s.sfUp la || (out && full) then (s.delTrk k).partVote p 1 0xFF
      else if out && s.dirAvail && !t.dir then (s.dirRead la).setTrk k { t with dir := true }
      else if s.dirBusy la then s
      else
        let d := s.laDom la
        let wide := e.isNone && s.blanketDom d
        let tg : List Nat := match e with
          | some x => if !t.type2 || decide (x.st = 2 ∨ x.st = 3) then s.holders x else []
          | none => if wide then s.cachers d else []
        let held : DirEnt := match e with
          | some x => { x with hold := true, onDie := true }
          | none => { st := 1, hold := true, dom := d, sh := [] }
        match (if out then s.record la held true else (s.setEnt la (some held), true)) with
        | (_, false) => s
        | (s1, true) =>
          let s2 := s1.setPart { p with lines := p.lines.map (fun x => if x.l.index.val = i then { x with step := 1 } else x) }
          let t1 : Trk := { t with ent := e }
          if tg.isEmpty then (s2.setTrk k { t1 with phase := 2 }).advance k else s2.sendSnoops k t1 (if t.type2 then 1 else 2) tg)
  | _ => s

/-- LINE_QUEUE_ADVANCE: the oldest request, page-move copy or acquire that waits on a line proceeds (R78, R80, R112). -/
def execLineQueueAdvance (la : Nat) (s : State) : Res :=
  if s.inDoubt la then .next (s.failQueued (fun x => decide (x = la)))
  else if s.lineBusy la then .next s.resume
  else match lruOf (fun x : Nat × Trk => x.2.ord) (s.home.trks.filter (fun x => decide (x.2.la = la) && decide (x.2.phase = 0) && (x.2.ev.isReq || x.2.ev.isMove || x.2.ev.isHamper))) with
  | some (k, t) => .next (if t.ev.isMove then (s.issueRead k { t with phase := 3 } false).advance k else if t.ev.isHamper then s.hmpStart k t else s.startReq k t)
  | none => .next s

end Sys2Proof.Machine
end

