-- ==== Sys2Proof/Machine/Binding.lean ====
section
/-! DEFINITION. Binding commands, walks, and Blanket mode's windows and exit walk (R36-R69, R89-R95, R436). -/

namespace Sys2Proof.Machine

/-- Bytes of a body are 0: (first, number) pairs. -/
def rsvZero (b : List Byte) (l : List (Nat × Nat)) : Bool := l.all (fun x => decide (leAt b x.1 x.2 = 0))

/-! ### Walks (R62) -/

/-- WALK_LINES (R69). -/
def State.walkLines (s : State) : Nat :=
  let w := s.fld sfBindCtl 0 15
  if 256 ≤ w ∧ w ≤ 16384 then w else 4096

/-- The buckets that a home bank serves, ascending. -/
def State.bucketsOf (s : State) (h : Nat) : List Nat := (List.range 16).filter (fun b => decide (s.bankOf b = h))

/-- The r-th line of a slice, in ascending order, of those whose bucket is in a list. Each group of 16 lines holds one
line of each bucket. -/
def walkLa (bs : List Nat) (slice r : Nat) : Nat :=
  let g := slice * 2 ^ 22 + r / bs.length * 16
  let x := bucket g
  let ls := (List.range 16).filter (fun i => bs.contains (x ^^^ i))
  g + ls.getD (r % bs.length) 0

/-- One bank examines at most n lines from its position: a line that is held or has an open tracker stops it, and so does one
that `stop` names (R62, R113, R436). -/
def walkBank (bs : List Nat) (slice : Nat) (stop : Nat → State → Bool) (act : Nat → State → State) : Nat → Nat → State → Nat × State
  | 0, p, s => (p, s)
  | n + 1, p, s =>
    if bs.length * 262144 ≤ p then (p, s)
    else
      let la := walkLa bs slice p
      if s.lineBusy la || stop la s then (p, s) else walkBank bs slice stop act n (p + 1) (act la s)

def State.walk (s : State) (w : Nat) : Option Walk := tfind s.bind.walks w
def State.setWalk (s : State) (w : Nat) (x : Option Walk) : State :=
  s.inBind (fun b => { b with walks := match x with | some y => tins b.walks w y | none => tdel b.walks w })

/-- One tick of a walk: every present bank examines its lines (R62). -/
def State.walkTick (s : State) (w : Nat) (act : Nat → State → State) (stop : Nat → State → Bool := fun _ _ => false) : State :=
  match s.walk w with
  | none => s
  | some k =>
    let banks := (List.range 16).filter (fun h => s.present 4 h)
    let (s1, pos) := banks.foldl (fun (a : State × Tab Nat) h =>
      let bs := s.bucketsOf h
      if bs.isEmpty then a
      else
        let (p, t) := walkBank bs k.slice stop act s.walkLines (tget 0 a.2 h) a.1
        (t, tput 0 a.2 h p)) (s, k.pos)
    match s1.walk w with
    | some k1 => s1.setWalk w (some { k1 with pos := pos, ranAt := some s.tick.loc })
    | none => s1

/-- Every bank has examined its lines of the slice, and no snoop of the walk is open. -/
def State.walkDone (s : State) (w : Nat) : Bool :=
  match s.walk w with
  | none => true
  | some k =>
    ((List.range 16).filter (fun h => s.present 4 h)).all (fun h => decide ((s.bucketsOf h).length * 262144 ≤ tget 0 k.pos h)) &&
    !s.home.trks.any (fun t => match t.2.ev with | .walk j _ => decide (j = w) | _ => false)

/-- Ticks that one slice takes when no line is held (R62). -/
def State.sliceTicks (s : State) : Nat :=
  ((List.range 16).map (fun h => ceilDiv ((s.bucketsOf h).length * 262144) s.walkLines)).foldl max 1

/-- Snoop agents for a walk's line. -/
def State.walkSnoop (s : State) (w la : Nat) (f : Option Nat) (fids : List Nat) : State :=
  let k := s.freeTrk
  s.sendSnoops k { la := la, ev := .walk w f, ent := s.ent la } 2 fids

/-- A line without an entry may be held without a record (R90, R95, R98). -/
def State.unrecorded (s : State) (la : Nat) : Bool :=
  s.home.untrk.contains (laSlice la)

/-- Examine a line for one agent: an unbind, or an agent's removal (R54, R62). -/
def State.examAgent (w f : Nat) (la : Nat) (s : State) : State :=
  match s.ent la with
  | some e => if (s.holders e).contains f then s.walkSnoop w la (some f) [f] else s
  | none => if s.unrecorded la && (s.cachers (s.laDom la)).contains f then s.walkSnoop w la (some f) [f] else s

/-- Examine a line of a domain in teardown (R53, R95). -/
def State.examTeardown (w d : Nat) (failed : Bool) (la : Nat) (s : State) : State :=
  let live := fun l : List Nat => l.filter (fun f => !failed || !(s.coh d).deads.contains f)
  match s.ent la with
  | some e =>
    let tg := live (s.holders e)
    if tg.isEmpty then
      let s1 := s.setEnt la none
      if failed && decide (e.st = 2 ∨ e.st = 3) then (s1.poisonLine la).poisonCnt la else s1
    else s.walkSnoop w la none tg
  | none =>
    if s.unrecorded la then
      let tg := live (s.cachers d)
      if tg.isEmpty then (if failed then (s.poisonLine la).poisonCnt la else s) else s.walkSnoop w la none tg
    else s

/-- A device write of the slice's lines of one home bank is not acknowledged yet. -/
def State.writesOpen (s : State) (slice bank : Nat) : Bool :=
  let x := s.slice slice
  s.home.devWrs.any (fun w => decide (w.1 = x.dev) && decide (x.dpa * 2 ^ 28 ≤ w.2.1) && decide (w.2.1 < (x.dpa + 1) * 2 ^ 28) &&
    decide (s.laBank (slice * 2 ^ 22 + (w.2.1 - x.dpa * 2 ^ 28) / 64) = bank))

/-- A release's bank goes no further in this tick: a dirty line comes while the link of its device is not in L0 or a write that
the bank handed out is not accepted yet (R436). -/
def State.writeBlocked (la : Nat) (s : State) : Bool :=
  s.lsDirty la && (s.writesOpen (laSlice la) (s.laBank la) ||
    (match s.edgeOf (s.backing la).1 with | some (p, _) => decide (s.fld (ptCxStatus (s.linkOf p)) 29 3 ≠ 2) | none => false))

/-- Examine a line of a slice in release: a dirty copy is written to the device, then the line is dropped (R436). -/
def State.examRelease (w : Nat) (la : Nat) (s : State) : State :=
  match s.lsLine la with
  | none => s
  | some l =>
    let s1 := if l.dirty then (s.devWriteLine la l.data l.poison).cnt64 (sfBankLsEvictCnt (s.laBank la)) else s
    let s2 := (s1.lsDrop la).placeAllocs la
    match s2.walk w with
    | some k => if l.dirty then s2.setWalk w (some { k with count := k.count + 1 }) else s2
    | none => s2

/-- Examine a line of an untracked slice in an exit walk (R91). -/
def State.examExit (w d : Nat) (la : Nat) (s : State) : State :=
  match s.ent la with
  | some _ => s
  | none => if (s.cachers d).isEmpty then s else s.walkSnoop w la none (s.cachers d)

/-! ### Slices (R48-R50, R65, R436) -/

def kSlice (x : StepJob) : Option Nat :=
  match x with
  | .sliceRelease n => some n
  | .unbind _ n _ => some n
  | .rebind _ _ n _ _ _ _ _ => some n
  | _ => none

/-- A stepped command on the slice is unfinished, or it is MOVING (R48). -/
def State.sliceBusy (s : State) (n : Nat) : Bool :=
  (s.jobSlot (fun j => decide (kSlice j = some n))).isSome || decide ((s.slice n).state = 4)

def sliceObjs (s : State) (n : Nat) : List Obj := [.slice n, .dom (s.slice n).dom]

/-- The present stack with the fewest slices, the lowest on a tie (R144). -/
def State.pickStack (s : State) : Nat :=
  let cnt := fun h => (s.bind.slices.filter (fun e => decide (e.2.state ≠ 0) && decide (e.2.stack = h))).length
  let ps := (List.range 4).filter (fun h => s.present 8 h)
  (ps.find? (fun h => ps.all (fun j => decide (cnt h ≤ cnt j)))).getD 0

/-- OP_SLICE_ASSIGN (R48, R49, R97, R144). -/
def execOpSliceAssign (q : Req) (body : List Byte) (s : State) : Res :=
  let n := leAt body 0 4
  let dev := leAt body 4 4
  let dpa := leAt body 8 4
  let d := leAt body 12 2
  .next (s.nalug_run 0x0301 q body { lenOk := body.length = 16, badParam := decide (2 ^ 18 ≤ n) || decide (2 ^ 18 ≤ dev) || decide (2 ^ 24 ≤ dpa) || decide (4096 ≤ d) || decide (1 < byteAt body 14) || !rsvZero body [(15, 1)], objs := sliceObjs s n ++ [.dom d] } (fun t =>
    if !t.home.bankLost.isEmpty then refuse t stUnitAbsent
    else if t.sliceBusy n then refuse t stSliceBusy
    else if (t.slice n).state ≠ 0 then refuse t stSliceState
    else if t.capacityOf dev < dpa + 1 then refuse t stRange
    else if t.bind.slices.any (fun e => decide (e.2.state ≠ 0) && decide (e.2.dev = dev) && decide (e.2.dpa = dpa)) then refuse t stSliceShared
    else if (t.dom d).state ≠ 1 then refuse t stDomainState
    else
      let g := (t.slice n).gen + 1
      let x : Slice := { state := 1, lsEn := nbit (byteAt body 14) 0, dom := d, gen := g, dev := dev, dpa := dpa, stack := t.pickStack }
      (t.setSlice n x, some (stOk, toLe 2 g.toNat))))

/-- Drop every line-store line of a slice. -/
def State.dropLines (s : State) (n : Nat) : State :=
  (s.lsLose (fun la _ => decide (laSlice la = n))).inHome (fun h => { h with untrk := h.untrk.filter (fun x => decide (x ≠ n)) })

/-- The slice becomes UNASSIGNED; its generation stays. -/
def State.unassign (s : State) (n : Nat) : State := s.setSlice n { gen := (s.slice n).gen }

/-- OP_SLICE_RELEASE (R48, R436). -/
def execOpSliceRelease (q : Req) (body : List Byte) (s : State) : Res :=
  let n := leAt body 0 4
  .next (s.nalug_run 0x0302 q body { lenOk := body.length = 4, badParam := decide (2 ^ 18 ≤ n), objs := sliceObjs s n } (fun t =>
    let x := t.slice n
    if t.sliceBusy n then refuse t stSliceBusy
    else if x.state ≠ 1 ∧ ¬ (x.state = 5 ∧ x.maps = 0) then refuse t stSliceState
    else if x.state = 5 ∨ !t.hasHbm ∨ !x.dirtySeen then
      ok (((t.dropLines n).unassign n).raise 0x0345 [.w n, .w 0])
    else match t.pickSlot with
    | none => (t.cnt mgtNalugBusyCnt, some (stBusy, []))
    | some k => (t.setWalk k (some { slice := n, after := t.tick.loc, domOk := decide ((t.dom x.dom).state = 1) })).stepStart 0x0302 q (.sliceRelease n) t.sliceTicks 1))

/-- A step of OP_SLICE_RELEASE (R65, R436). -/
def State.sliceReleaseStep (s : State) (k n : Nat) : State :=
  match s.walk k with
  | none => s.stepInternal k
  | some w =>
    if (s.slice n).state = 5 then
      (((s.dropLines n).unassign n).setWalk k none).raise 0x0345 [.w n, .w w.count] |>.stepFinish k stOk []
    else if (s.dom (s.slice n).dom).state = 3 ∨ (w.domOk ∧ (s.dom (s.slice n).dom).state ≠ 1) then (s.setWalk k none).stepFinish k stDomainState []
    else if s.tick.loc = w.after then s
    else
      let s1 := s.walkTick k (State.examRelease k) State.writeBlocked
      if s1.walkDone k then
        let c := match s1.walk k with | some y => y.count | none => 0
        ((((s1.dropLines n).unassign n).setWalk k none).raise 0x0345 [.w n, .w c]).stepFinish k stOk []
      else s1.stepNext k 1

/-! ### Domains (R51-R54) -/

/-- OP_DOMAIN_CREATE (R53, R97). -/
def execOpDomainCreate (q : Req) (body : List Byte) (s : State) : Res :=
  let d := leAt body 0 2
  .next (s.nalug_run 0x0303 q body { lenOk := body.length = 4, badParam := decide (4096 ≤ d) || !rsvZero body [(2, 2)], objs := [.dom d] } (fun t =>
    if !t.home.bankLost.isEmpty then refuse t stUnitAbsent
    else if (t.dom d).state ≠ 0 then refuse t stDomainState
    else ok (t.setDom d { state := 1 })))

/-- OP_DOMAIN_AGENT_ADD (R54, R98). -/
def execOpDomainAgentAdd (q : Req) (body : List Byte) (s : State) : Res :=
  let d := leAt body 0 2
  let f := leAt body 4 4
  let caching := nbit (byteAt body 8) 0
  let rights := byteAt body 8 / 2
  .next (s.nalug_run 0x0304 q body { lenOk := body.length = 12, badParam := decide (4096 ≤ d) || decide (2 ^ 18 ≤ f) || !(decide (rights = 1) || decide (rights = 3)) || !rsvZero body [(2, 2), (9, 3)], objs := [.dom d] } (fun t =>
    let x := t.dom d
    if x.state ≠ 1 then refuse t stDomainState
    else if (t.agentOf d f).isSome then refuse t stIdInUse
    else match (List.range 64).find? (fun k => (tfind x.agents k).isNone) with
    | none => refuse t stMapFull
    | some k =>
      let first := caching && (t.cachers d).isEmpty
      let t1 := t.setDom d { x with agents := tins x.agents k ⟨caching, rights, f⟩ }
      let t2 := if first && !t.home.sfLost.isEmpty then (t1.each (t1.domSlices d) (fun n y => y.untrack n)).enterBlanket d 3 else t1
      (t2, some (stOk, toLe 1 k))))

/-- A local map entry or a grant for the agent names a slice of the domain (R54). -/
def State.agentMapped (s : State) (d f : Nat) : Bool :=
  s.bind.grants.any (fun g => decide (g.1 = f) && decide ((s.slice g.2.1).dom = d)) ||
  s.bind.vcs.any (fun v => decide (v.2.host = f) && (s.bind.hmap.any (fun e =>
    decide (v.2.base ≤ e.1) && decide (e.1 < v.2.base + v.2.len) && e.2.remote.isNone && decide ((s.slice e.2.slice).dom = d))))

/-- OP_DOMAIN_AGENT_REMOVE (R54). -/
def execOpDomainAgentRemove (q : Req) (body : List Byte) (s : State) : Res :=
  let d := leAt body 0 2
  let f := leAt body 4 4
  .next (s.nalug_run 0x0305 q body { lenOk := body.length = 8, badParam := decide (4096 ≤ d) || decide (2 ^ 18 ≤ f) || !rsvZero body [(2, 2)], objs := [.dom d] } (fun t =>
    if (t.dom d).state = 0 ∨ (t.dom d).state = 3 then refuse t stDomainState
    else match t.agentOf d f with
    | none => refuse t stNotInDomain
    | some (slot, _) =>
      if t.agentMapped d f then refuse t stSliceBusy
      else match t.pickSlot with
      | none => (t.cnt mgtNalugBusyCnt, some (stBusy, []))
      | some k =>
        let ss := t.domSlices d
        let t1 := match ss with | [] => t | n :: _ => t.setWalk k (some { slice := n, after := t.tick.loc, domOk := decide ((t.dom d).state = 1) })
        t1.stepStart 0x0305 q (.agentRemove d slot f) (ss.length * t.sliceTicks + 1) 1))

/-- The next slice of a domain after one. -/
def State.nextSlice (s : State) (d n : Nat) : Option Nat := (s.domSlices d).find? (fun m => decide (n < m))

/-- Move a walk on to the domain's next slice, or end it. -/
def State.walkOn (s : State) (w d : Nat) : State :=
  match s.walk w with
  | none => s
  | some k => s.setWalk w ((s.nextSlice d k.slice).map (fun n => { k with slice := n, pos := [] }))

/-- A step of OP_DOMAIN_AGENT_REMOVE. -/
def State.agentRemoveStep (s : State) (k d slot f : Nat) : State :=
  let fin := fun x : State =>
    let y := x.dom d
    (x.setDom d { y with agents := tdel y.agents slot }).stepFinish k stOk []
  match s.walk k with
  | none => fin s
  | some w =>
    if (s.dom d).state = 3 ∨ (w.domOk ∧ (s.dom d).state ≠ 1) then (s.setWalk k none).stepFinish k stDomainState []
    else if s.tick.loc = w.after then s
    else
      let s1 := s.walkTick k (State.examAgent k f)
      if s1.walkDone k then
        let s2 := s1.walkOn k d
        if (s2.walk k).isNone then fin s2 else s2.stepNext k 1
      else s1.stepNext k 1

/-- OP_DOMAIN_TEARDOWN: its start reaches the domain's hampers (R53, R126). -/
def execOpDomainTeardown (q : Req) (body : List Byte) (s : State) : Res :=
  let d := leAt body 0 2
  .next (s.nalug_run 0x0306 q body { lenOk := body.length = 4, badParam := decide (4096 ≤ d) || !rsvZero body [(2, 2)], objs := [.dom d] } (fun t =>
    let x := t.dom d
    if x.state ≠ 1 ∧ x.state ≠ 2 then refuse t stDomainState
    else match t.pickSlot with
    | none => (t.cnt mgtNalugBusyCnt, some (stBusy, []))
    | some _ =>
      (((t.setDom d { x with state := 3 }).hmpFailed (t.domSlices d)).jobsFailed (t.domSlices d)).stepStart 0x0306 q (.teardown d (decide (x.state = 2))) ((t.domSlices d).length * t.sliceTicks + 2) 0))

/-- The end of a teardown (R48, R53, R101): slices move, agent slots clear, and the dead agents; Blanket mode ends only
through an exit walk (R91). -/
def State.teardownEnd (s : State) (k d moves : Nat) : State :=
  let ss := s.domSlices d
  let moved := moves + (ss.filter (fun n => decide ((s.slice n).state ≠ 1))).length
  let s1 := s.each ss (fun n t =>
    let x := t.slice n
    if x.state = 5 ∧ t.capacityOf x.dev = 0 then (t.dropLines n).unassign n
    else t.setSlice n { x with state := 1, maps := 0 })
  let s2 := (s1.setCoh d { s1.coh d with deads := [] }).inHome (fun h => { h with gone := h.gone.filter (fun g => !ss.contains (laSlice g.1)) })
  let s3 := (s2.setDom d {}).setWalk k none
  (s3.raise 0x0348 [.w d, .w moved]).stepFinish k stOk []

/-- A step of OP_DOMAIN_TEARDOWN: revoke; walk; free (R53, R95). A MOVING slice that nothing maps is IDLE after the first: it is
counted there. -/
def State.teardownStep (s : State) (k d : Nat) (failed : Bool) : State :=
  match (s.slot k).phase, s.walk k with
  | 0, _ =>
    let ss := s.domSlices d
    let moves := (ss.filter (fun n => decide ((s.slice n).state = 4) && decide ((s.slice n).maps = 0))).length
    let s1 := s.inBind (fun b => { b with
      hmap := b.hmap.filter (fun e => e.2.remote.isSome || !ss.contains e.2.slice),
      grants := b.grants.filter (fun g => !ss.contains g.2.1) })
    let s2 := s1.each ss (fun n t => t.abandonMove n)
    let s3 := s2.setWalk k (ss.head?.map (fun n => { slice := n, after := s.tick.loc, count := moves }))
    s3.stepNext k 1
  | 1, some w =>
    if s.tick.loc = w.after then s
    else
      let s1 := s.walkTick k (State.examTeardown k d failed)
      if !s1.walkDone k then s1.stepNext k 1
      else if (s1.nextSlice d w.slice).isNone then s1.stepNext k 2
      else (s1.walkOn k d).stepNext k 1
  | _, w => s.teardownEnd k d (match w with | some x => x.count | none => 0)

/-! ### Virtual switches (R55) -/

/-- The lowest free run of the host map table. -/
def State.freeRun (s : State) (len : Nat) : Option Nat :=
  let vs := s.bind.vcs.map (·.2)
  let cands := 0 :: vs.map (fun v => v.base + v.len)
  let fits := cands.filter (fun b => decide (b + len ≤ 524288) && vs.all (fun v => decide (b + len ≤ v.base) || decide (v.base + v.len ≤ b)))
  lruOf id fits

/-- OP_VCS_CREATE (R55). -/
def execOpVcsCreate (q : Req) (body : List Byte) (s : State) : Res :=
  let v := byteAt body 0
  let p := byteAt body 1
  let f := leAt body 4 4
  let len := leAt body 8 4
  .next (s.nalug_run 0x0307 q body { lenOk := body.length = 12, badParam := decide (96 ≤ v) || decide (192 ≤ p) || decide (2 ^ 18 ≤ f) || decide (len = 0) || decide (65536 < len) || !rsvZero body [(2, 2)], units := [(2, p)], objs := [.vcs v, .port p] } (fun t =>
    if (tfind t.bind.vcs v).isSome || t.bind.vcs.any (fun e => decide (e.2.usp = p)) then refuse t stIdInUse
    else if t.pmode p ≠ 1 ∨ t.isMember p ∨ t.edgeFid p 0 ≠ some f then refuse t stRange
    else match t.freeRun len with
    | none => refuse t stMapFull
    | some b => (t.inBind (fun x => { x with vcs := tins x.vcs v { usp := p, host := f, base := b, len := len } }), some (stOk, toLe 4 b))))

/-- HDM_DECODER_WRITE: the host programs its vCS's decoder (R56, R69). -/
def execHdmDecoderWrite (v : VcsIx) (base : BitVec 64) (ig iw : BitVec 4) (s : State) : Res :=
  match tfind s.bind.vcs v with
  | none => .next s
  | some x => .next (s.inBind (fun b => { b with vcs := tins b.vcs v { x with hdm := base.toNat / 2 ^ 28 * 2 ^ 28, ig := ig.toNat, iw := iw.toNat } }))

/-! ### Bindings (R60-R65) -/

/-- Why a binding is refused (R61). -/
def State.bindRefusal (s : State) (mode n f v index d : Nat) : Option Nat :=
  if (s.agentOf d f).isNone then some stNotInDomain
  else if mode = 1 then
    if s.bind.grants.any (fun g => decide (g.1 = f) && decide (g.2.1 = n)) then some stIdInUse
    else if 65536 ≤ s.bind.grants.length then some stMapFull
    else none
  else match tfind s.bind.vcs v with
    | none => some stRange
    | some x =>
      if x.len ≤ index ∨ x.host ≠ f then some stRange
      else if (tfind s.bind.hmap (x.base + index)).isSome then some stIdInUse
      else none

/-- Write a binding: map entry or grant; MAPCOUNT + 1; EV_BIND_DONE (R48). -/
def State.bindTo (s : State) (mode rights n f v index : Nat) : State :=
  let x := s.slice n
  let s1 := s.inBind (fun b =>
    if mode = 1 then { b with grants := b.grants ++ [(f, n, rights)] }
    else match tfind b.vcs v with
      | some y => { b with hmap := tins b.hmap (y.base + index) ⟨rights, none, n⟩ }
      | none => b)
  (s1.setSlice n { x with state := 2, maps := x.maps + 1 }).raise 0x0343 [.w n, .w f, .w (x.maps + 1)]

/-- The form of OP_BIND and OP_UNBIND. -/
def bindForm (s : State) (body : List Byte) (rights : Bool) : OpForm :=
  let mode := byteAt body 0
  let r := byteAt body 1
  let n := leAt body 4 4
  let v := byteAt body 12
  { lenOk := body.length = 24
    badParam := decide (2 < mode) || (rights && !(decide (r = 1) || decide (r = 3))) || decide (2 ^ 18 ≤ n) || decide (2 ^ 18 ≤ leAt body 8 4) || (decide (mode ≠ 1) && decide (96 ≤ v)) || (decide (mode = 2) && decide (2 ^ 18 ≤ leAt body 20 4)) || !rsvZero body [(2, 2), (13, 3)]
    objs := sliceObjs s n ++ (if mode = 1 then [] else [.vcs v]) }

/-- OP_BIND (R48, R61). While the domain is TEARING it is refused: DESIGN CHOICE (log 246). -/
def execOpBind (q : Req) (body : List Byte) (s : State) : Res :=
  let mode := byteAt body 0
  let r := byteAt body 1
  let n := leAt body 4 4
  let f := leAt body 8 4
  let v := byteAt body 12
  let index := leAt body 16 4
  .next (s.nalug_run 0x030B q body (bindForm s body true) (fun t =>
    if mode = 2 then
      match tfind t.bind.vcs v with
      | none => refuse t stRange
      | some x =>
        if x.len ≤ index ∨ x.host ≠ f then refuse t stRange
        else if (tfind t.bind.hmap (x.base + index)).isSome then refuse t stIdInUse
        else ok (t.inBind (fun b => { b with hmap := tins b.hmap (x.base + index) ⟨r, some (leAt body 20 4), n⟩ }))
    else
      let x := t.slice n
      if t.sliceBusy n then refuse t stSliceBusy
      else if x.state ≠ 1 ∧ x.state ≠ 2 then refuse t stSliceState
      else if (t.dom x.dom).state = 3 then refuse t stDomainState
      else match t.bindRefusal mode n f v index x.dom with
        | some st => refuse t st
        | none => ok (t.bindTo mode r n f v index)))

/-- Revoke a binding of a host to a slice (R62): the table with the entry gone, or none when there is no such entry. -/
def State.revoke (s : State) (mode n f v index : Nat) : Option State :=
  if mode = 1 then
    if s.bind.grants.any (fun g => decide (g.1 = f) && decide (g.2.1 = n)) then
      some (s.inBind (fun b => { b with grants := b.grants.filter (fun g => !(decide (g.1 = f) && decide (g.2.1 = n))) }))
    else none
  else match tfind s.bind.vcs v with
    | none => none
    | some x =>
      match tfind s.bind.hmap (x.base + index) with
      | none => none
      | some e =>
        if index < x.len ∧ x.host = f ∧ e.slice = n ∧ (e.remote.isSome ↔ mode = 2) then
          some (s.inBind (fun b => { b with hmap := tdel b.hmap (x.base + index) }))
        else none

/-- Begin the drain of an unbind: UNBINDING, or FAILED stays (R48, R62). -/
def State.unbindBegin (s : State) (k n : Nat) : State :=
  let x := s.slice n
  let s1 := if x.state = 2 then s.setSlice n { x with state := 3 } else s
  s1.setWalk k (some { slice := n, after := s.tick.loc, domOk := decide ((s.dom x.dom).state = 1) })

/-- OP_UNBIND (R48, R62). -/
def execOpUnbind (q : Req) (body : List Byte) (s : State) : Res :=
  let mode := byteAt body 0
  let n := leAt body 4 4
  let f := leAt body 8 4
  let v := byteAt body 12
  let index := leAt body 16 4
  .next (s.nalug_run 0x030C q body (bindForm s body false) (fun t =>
    if mode = 2 then
      match t.revoke 2 n f v index with
      | none => refuse t stRange
      | some t1 => ok t1
    else
      let x := t.slice n
      if t.sliceBusy n then refuse t stSliceBusy
      else if x.state ≠ 2 ∧ x.state ≠ 5 then refuse t stSliceState
      else match t.pickSlot, t.revoke mode n f v index with
        | _, none => refuse t stRange
        | none, _ => (t.cnt mgtNalugBusyCnt, some (stBusy, []))
        | some k, some t1 => (t1.unbindBegin k n).stepStart 0x030C q (.unbind mode n f) (t.sliceTicks + 1) 0))

/-- The first local map entry of a host that names a slice: vCS and index. -/
def State.mapOf (s : State) (n f : Nat) : Option (Nat × Nat) :=
  (s.bind.vcs.filter (fun v => decide (v.2.host = f))).findSome? (fun v =>
    (s.bind.hmap.find? (fun e => decide (v.2.base ≤ e.1) && decide (e.1 < v.2.base + v.2.len) && e.2.remote.isNone && decide (e.2.slice = n))).map
      (fun e => (v.1, e.1 - v.2.base)))

/-- OP_REBIND (R48, R64): of a FAILED slice it unbinds the old host. A new domain that is not ACTIVE is refused with
ST_DOMAIN_STATE: DESIGN CHOICE (log 246). -/
def execOpRebind (q : Req) (body : List Byte) (s : State) : Res :=
  let mode := byteAt body 0
  let r := byteAt body 1
  let n := leAt body 4 4
  let fo := leAt body 8 4
  let fn := leAt body 12 4
  let v := byteAt body 16
  let index := leAt body 20 4
  let nd : Option Nat := if nbit (byteAt body 2) 0 then some (leAt body 24 2) else none
  .next (s.nalug_run 0x030D q body { lenOk := body.length = 28, badParam := decide (1 < mode) || !(decide (r = 1) || decide (r = 3)) || decide (1 < byteAt body 2) || decide (2 ^ 18 ≤ n) || decide (2 ^ 18 ≤ fo) || decide (2 ^ 18 ≤ fn) || (decide (mode = 0) && decide (96 ≤ v)) || decide (4096 ≤ leAt body 24 2) || !rsvZero body [(3, 1), (17, 3), (26, 2)], objs := sliceObjs s n ++ (match nd with | some d => [.dom d] | none => []) ++ (if mode = 0 then [.vcs v] else []) } (fun t =>
    let x := t.slice n
    let old := t.mapOf n fo
    let rv := match old with
      | some (ov, oi) => t.revoke 0 n fo ov oi
      | none => t.revoke 1 n fo 0 0
    if t.sliceBusy n then refuse t stSliceBusy
    else if x.state ≠ 2 ∧ x.state ≠ 5 then refuse t stSliceState
    else if nd.isSome ∧ x.maps ≠ 1 then refuse t stSliceShared
    else if (match nd with | some d => decide ((t.dom d).state ≠ 1) | none => decide (x.state ≠ 5) && decide ((t.dom x.dom).state ≠ 1)) then refuse t stDomainState
    else match t.pickSlot, rv with
      | _, none => refuse t stRange
      | none, _ => (t.cnt mgtNalugBusyCnt, some (stBusy, []))
      | some k, some t1 =>
        match (if x.state = 5 then none else t1.bindRefusal mode n fn v index (nd.getD x.dom)) with
        | some st => refuse t st
        | none => (t1.unbindBegin k n).stepStart 0x030D q (.rebind mode r n fo fn v index nd) (t.sliceTicks + 2) 0))

/-- No tracker opened for the host on the slice remains (R62). -/
def State.drained (s : State) (n f : Nat) : Bool :=
  !s.home.trks.any (fun t => t.2.ev.isReq && decide (t.2.fid = f) && decide (laSlice t.2.la = n)) &&
  !s.hmp.parts.any (fun p => decide (p.acting = f) && p.lines.any (fun l => decide (l.l.slice.val = n)))

/-- MAPCOUNT - 1 and the state that follows; EV_UNBIND_DONE (R48). -/
def State.unbindEnd (s : State) (n f : Nat) : State :=
  let x := s.slice n
  let m := x.maps - 1
  (s.setSlice n { x with maps := m, state := (if x.state = 5 then 5 else if 0 < m then 2 else 1) }).raise 0x0344 [.w n, .w f, .w m]

/-- Start the walk once the drain is complete; it begins at the next edge (R62). -/
def State.startWalk (s : State) (k n f : Nat) : State :=
  if s.drained n f then
    match s.walk k with
    | some w => (s.setWalk k (some { w with after := s.tick.loc })).stepNext k 1
    | none => s
  else s

/-- A step of an unbind: drain, walk, then `fin` (R62, R65). -/
def State.unbindStep (s : State) (k n f : Nat) (fin : State → State) : State :=
  match s.walk k with
  | none => s.stepInternal k
  | some w =>
    let d := (s.slice n).dom
    if (s.dom d).state = 3 ∨ (w.domOk ∧ (s.dom d).state ≠ 1) then (s.setWalk k none).stepFinish k stDomainState []
    else if (s.slot k).phase = 0 then s.startWalk k n f
    else if s.tick.loc = w.after then s
    else
      let s1 := s.walkTick k (State.examAgent k f)
      if s1.walkDone k then fin (s1.setWalk k none) else s1.stepNext k 1

/-- The end of OP_REBIND: the domain changes, then the new host is bound (R64). -/
def State.rebindEnd (k mode r n fo fn v index : Nat) (nd : Option Nat) (s : State) : State :=
  let s1 := s.unbindEnd n fo
  let x := s1.slice n
  if x.state = 5 then s1.stepFinish k stSliceState []
  else
    let s2 := match nd with | some d => s1.setSlice n { x with dom := d } | none => s1
    match s2.bindRefusal mode n fn v index (s2.slice n).dom with
    | some st => s2.stepFinish k st []
    | none => (s2.bindTo mode r n fn v index).stepFinish k stOk []

/-- A step of OP_UNBIND and of OP_REBIND. -/
def State.opUnbindStep (s : State) (k n f : Nat) : State :=
  s.unbindStep k n f (fun x => (x.unbindEnd n f).stepFinish k stOk [])
def State.opRebindStep (s : State) (k mode r n fo fn v index : Nat) (nd : Option Nat) : State :=
  s.unbindStep k n fo (State.rebindEnd k mode r n fo fn v index nd)

/-- At most one step of a slot in a tick, and none past the guard point (R29, R320). -/
def State.stepOnce (s : State) (k : Nat) (f : State → State) : State :=
  let x := s.slot k
  if x.state ≠ 1 ∨ s.tick.guardDone ∨ x.ranAt = some s.tick.loc then s
  else f (s.setSlot k { x with ranAt := some s.tick.loc })

/-- UNBIND_DRAIN_DONE (R62, R65): a step of its command, as any other. -/
def execUnbindDrainDone (k : Fin 32) (s : State) : Res :=
  let x := s.slot k
  if x.phase ≠ 0 then .next s
  else match x.job with
    | .unbind _ n f => .next (s.stepOnce k (fun t => t.opUnbindStep k n f))
    | .rebind m r n fo fn v i nd => .next (s.stepOnce k (fun t => t.opRebindStep k m r n fo fn v i nd))
    | _ => .next s

/-- WALK_STEP: one tick of a binding command's walk (R62). -/
def execWalkStep (k : Fin 32) (s : State) : Res :=
  let x := s.slot k
  if x.phase = 0 then .next s
  else match x.job with
    | .unbind _ n f => .next (s.stepOnce k (fun t => t.opUnbindStep k n f))
    | .rebind m r n fo fn v i nd => .next (s.stepOnce k (fun t => t.opRebindStep k m r n fo fn v i nd))
    | .sliceRelease n => .next (s.stepOnce k (fun t => t.sliceReleaseStep k n))
    | .agentRemove d a f => .next (s.stepOnce k (fun t => t.agentRemoveStep k d a f))
    | .teardown d fl => .next (s.stepOnce k (fun t => t.teardownStep k d fl))
    | _ => .next s

/-! ### Edge IDs (R38) -/

/-- A fabric ID is the module's own, or another edge entry's. -/
def State.fidTaken (s : State) (f : Nat) (p ld : Nat) : Bool :=
  (s.bit glbModuleFid 31 && decide (s.fld glbModuleFid 0 18 = f)) ||
  s.edges.any (fun x => !(decide (x.1 = p) && decide (x.2.1 = ld)) && decide (x.2.2 = f))

/-- A valid PT_EDGE_ID entry is written. -/
def State.edgePut (s : State) (p ld : Nat) (v : Word) : State := s.setN (ptEdgeId p ld) (bits v 31 1 * 2 ^ 31 + bits v 0 18)

/-- PT_EDGE_ID_WRITE through the management function: a duplicate is discarded with EV_FABRIC_ID_CONFLICT (R38). -/
def execPtEdgeIdWrite (p : PortIx) (ld : Fin 16) (v : Word) (s : State) : Res :=
  if !s.present 2 p then .next (s.raise 0x0101 [.w (ptEdgeId p ld)])
  else if bits v 31 1 = 1 && s.fidTaken (bits v 0 18) p ld then .next (s.raise 0x0142 [.w p, .w ld, .w (bits v 0 18)])
  else .next (s.edgePut p ld v)

/-! ### Blanket mode (R89-R92) -/

/-- WINDOW_TICKS; 0 is treated as 1,024 (R101). -/
def State.windowTicks (s : State) : Nat := if s.fld sfBlanketCtl 0 16 = 0 then 1024 else s.fld sfBlanketCtl 0 16

/-- BLANKET_WINDOW_END: WINDOW_TICKS after the window's first tick (R89, R91). -/
def execBlanketWindowEnd (s : State) : Res :=
  if ticksSince s.home.winAt s.tick.loc < s.windowTicks then .next s
  else .next ((s.inHome (fun h => { h with winAt := s.tick.loc })).each (s.home.doms.map (·.1)) (fun d t =>
    let x := t.coh d
    t.setCoh d { x with last := x.win, win := 0, quiet := (if x.blanket ∧ x.win < t.exitBi then x.quiet + 1 else 0) }))

/-- BLANKET_ENTER: an edge after the window count has reached ENTER_BI (R89). -/
def execBlanketEnter (d : DomIx) (s : State) : Res :=
  match (s.coh d).due with
  | some t => if t = s.tick.loc then .next s else .next (s.enterBlanket d 0)
  | none => .next s

/-- EXIT_WINDOWS (R101). -/
def State.exitWindows (s : State) : Nat := if s.fld sfBlanketCtl 20 4 = 0 then 8 else s.fld sfBlanketCtl 20 4

/-- Untracked slices of a domain. -/
def State.untracked (s : State) (d : Nat) : List Nat := (s.domSlices d).filter s.home.untrk.contains

/-- Start the visit of the domain's lowest untracked slice; with none left Blanket mode ends at the next edge (R91). -/
def State.visitNext (s : State) (d : Nat) : State :=
  match s.untracked d with
  | [] => (s.setCoh d { s.coh d with clearAt := some s.tick.loc }).setWalk (32 + d) none
  | n :: _ =>
    (s.inHome (fun h => { h with visits := h.visits.filter (fun x => !(s.domSlices d).contains x) ++ [n] })).setWalk (32 + d)
      (some { slice := n, after := s.tick.loc })

/-- The end of a visit: a slice that has not been marked again is tracked (R91). -/
def State.visitEnd (s : State) (n : Nat) : State :=
  if s.home.visits.contains n then
    s.inHome (fun h => { h with untrk := h.untrk.filter (fun x => decide (x ≠ n)), visits := h.visits.filter (fun x => decide (x ≠ n)) })
  else s

/-- EXIT_WALK_START (R91, R98). -/
def execExitWalkStart (d : DomIx) (s : State) : Res :=
  let x := s.coh d
  if x.blanket && !x.exitOn && decide (s.exitWindows ≤ x.quiet) && s.dirAvail && s.home.sfLost.isEmpty then
    .next ((s.setCoh d { x with exitOn := true }).visitNext d)
  else .next s

/-- EXIT_WALK_STEP: one tick of the exit walk (R91). -/
def execExitWalkStep (d : DomIx) (s : State) : Res :=
  if !(s.coh d).exitOn || s.tick.guardDone then .next s
  else match s.walk (32 + d) with
    | none => .next (s.visitNext d)
    | some w =>
      if w.ranAt = some s.tick.loc ∨ w.after = s.tick.loc then .next s
      else
        let s1 := s.walkTick (32 + d) (State.examExit (32 + d) d)
        .next (if s1.walkDone (32 + d) then (s1.visitEnd w.slice).visitNext d else s1)

/-- BLANKET_EXIT: at an edge after the walk found no untracked slice left (R91). -/
def execBlanketExit (d : DomIx) (s : State) : Res :=
  let x := s.coh d
  if x.exitOn && (match x.clearAt with | some t => decide (t ≠ s.tick.loc) | none => false) && (s.untracked d).isEmpty then
    .next ((s.setCoh d { x with exitOn := false, blanket := false, quiet := 0, clearAt := none }).raise 0x0303 [.w (d : Nat)])
  else .next s

/-- Present stacks as a mask. -/
def State.stackMask (s : State) : Nat := (List.range 4).foldl (fun a h => a + b2n (s.present 8 h) * 2 ^ h) 0

/-- OP_DIR_REBUILD (R92). With DIR_AVAIL = 1 it makes the directory unavailable first; the stack that the event carries is
then a free value: DESIGN CHOICE (log 247). -/
def execOpDirRebuild (q : Req) (body : List Byte) (s : State) : Res :=
  .next (s.nalug_run 0x030E q body { lenOk := body.length = 0 } (fun t =>
    if t.stackMask = 0 then refuse t stUnitAbsent
    else if (t.jobSlot (fun j => decide (j = .dirRebuild))).isSome then refuse t stBusy
    else
      let (t1, r) := t.stepStart 0x030E q .dirRebuild 8192 0
      match r with
      | some (1, _) =>
        let (v, t0) := t1.draw
        let t2 := if t1.dirAvail then t0.dirLost (v % 4) else t1
        (((t2.setFld sfDirStatus 24 4 t.stackMask).setBit sfDirStatus 30 true).setBit sfDirStatus 31 false, r)
      | _ => (t1, r)))

/-- A step of OP_DIR_REBUILD: 4,096 sets of every remaining stack are cleared (R92). A stack of the new directory that has been
retired meanwhile ends it: DESIGN CHOICE (log 247). -/
def State.dirRebuildStep (s : State) (k : Nat) : State :=
  if (List.range 4).any (fun h => s.bit sfDirStatus (24 + h) && !s.present 8 h) then
    (s.setBit sfDirStatus 30 false).stepFinish k stUnitAbsent []
  else if (s.slot k).done + 1 < 8192 then s.stepNext k 0
  else
    let s1 := (s.setBit sfDirStatus 30 false).setBit sfDirStatus 31 true
    (s1.raise 0x0305 []).stepFinish k stOk (toLe 1 (s.fld sfDirStatus 24 4))

end Sys2Proof.Machine
end

