-- ==== Sys2Proof/Machine/Hampers.lean ====
section
/-! DEFINITION. Hampers: submission, votes, decisions, doubt (R102-R134). -/

namespace Sys2Proof.Machine

/-! ### What the origin reports (R58) -/

/-- Count a decode failure at the origin (R58). -/
def State.originFail (s : State) (port : Option Nat) (fid reason off : Nat) : State :=
  let s1 := match port with | some p => s.cnt (ptDecodeFailCnt p) | none => s
  s1.raiseLim 0x0340 (port.getD 193) [.w fid, .w reason, .q off]

/-! ### Slots and tags (R102, R119, R129) -/

/-- Home slots: parts whose origin is another module. -/
def State.homeSlots (s : State) : Nat := (s.hmp.parts.filter (fun p => decide (p.key.origin.val ≠ s.moduleFid))).length
/-- SLOT_FREE. -/
def State.slotFree (s : State) : Nat := 16384 - s.hmp.origs.length - s.homeSlots

/-- The next tag that no open or in-doubt hamper of the module holds (R119). -/
def State.freeTag (s : State) : Word :=
  let t := s.reg hmpTagNext
  let used := fun x : Word => s.hmp.origs.any (fun o => decide (o.key.tag = x)) ||
    s.hmp.parts.any (fun p => decide (p.key.origin.val = s.moduleFid) && decide (p.key.tag = x))
  match (List.range (s.hmp.origs.length + s.hmp.parts.length + 1)).find? (fun i => !used (t + BitVec.ofNat 32 i)) with
  | some i => t + BitVec.ofNat 32 i
  | none => t

/-! ### Outcomes (R108) -/

def outcomeRec (status : Nat) (elsewhere : Bool) (retries fail : Nat) (tag : Word) (tick : Tick) (user : Word) : List Byte :=
  toLe 1 status ++ toLe 1 (0x80 + b2n elsewhere * 0x40 + retries % 16) ++ toLe 1 fail ++ [0] ++ toLe 4 tag.toNat ++
  toLe 6 tick.toNat ++ toLe 2 user.toNat

def State.portSlot (s : State) (v k : Nat) : PortSlot := tget {} s.hmp.ports (v * 64 + k)
def State.setPortSlot (s : State) (v k : Nat) (x : PortSlot) : State :=
  s.inHmp (fun h => { h with ports := tput {} h.ports (v * 64 + k) x })

/-- The outcome reaches its submitter (R106, R107); a slot that is no longer BUSY drops it. -/
def State.outcome (s : State) (src : HSrc) (r : List Byte) : State :=
  match src with
  | .port v k =>
    let x := s.portSlot v k
    if x.st = 1 then s.setPortSlot v k { x with st := 2, out := r } else s
  | .engine i j => s.inHmp (fun h => { h with engOut := h.engOut ++ [(i, j, r)] })
  | .dropped => s

/-- Count an abort at the origin and capture it (R117, R132). -/
def State.abortCount (s : State) (status : Nat) : State := s.cnt64 (hmpAbortCnt (status - 0x40))

def State.abortCapture (s : State) (status : Nat) (key : HKey) : State :=
  if s.bit hmpLastAbort0 31 then s
  else (((s.setN hmpLastAbort0 (2 ^ 31 + status)).setReg (hmpLastAbort 0) key.tag).setN (hmpLastAbort 1) key.stamp.toNat).setN (hmpLastAbort 2) (key.stamp.toNat / 2 ^ 32)

/-! ### Submission (R103-R107, R109) -/

/-- One line entry of a record (R104). -/
structure HEntry where
  addr : Nat
  op   : Nat
  rsv  : Nat
  mask : BitVec 64
  data : Line
deriving DecidableEq, Repr

def parseEntry (b : List Byte) (i : Nat) : HEntry :=
  let o := 32 + 80 * i
  { addr := leAt b o 8 / 64 * 64, op := byteAt b o % 4, rsv := byteAt b o / 4 % 16,
    mask := BitVec.ofNat 64 (leAt b (o + 8) 8), data := BitVec.ofNat 512 (leAt b (o + 16) 64) }

/-- The record is well formed (R104). -/
def recordOk (b : List Byte) : Bool :=
  let n := byteAt b 1
  let es := (List.range n).map (parseEntry b)
  decide (byteAt b 0 = 0x10) && decide (1 ≤ n) && decide (n ≤ 32) && decide (byteAt b 2 < 16) && decide (byteAt b 3 = 0) &&
  decide (leAt b 8 24 = 0) && es.all (fun e => decide (e.op ≤ 1) && decide (e.rsv = 0)) &&
  decide ((es.map (·.addr)).eraseDups.length = n)

/-- The entry that makes a record malformed, when it is one entry alone (R104, R108). -/
def badEntry (b : List Byte) : Nat :=
  let es := ((List.range (min (byteAt b 1) 32)).map (fun i => (i, parseEntry b i))).filter (fun e => decide (1 < e.2.op) || decide (e.2.rsv ≠ 0))
  match es with | [(i, _)] => i | _ => 0xFF

/-- An unbind that runs has revoked a host from a slice (R62, R126). -/
def State.revoked (s : State) (fid n : Nat) : Bool :=
  s.nalug.steps.any (fun x => match x.2.job with
    | .unbind _ m f => decide (m = n) && decide (f = fid)
    | .rebind _ _ m f _ _ _ _ => decide (m = n) && decide (f = fid)
    | _ => false)

/-- What the home finds when a part arrives (R57, R109, R126): a vote and the entry, or none. Of several lines that fail, the
first one in the part's order gives the vote: DESIGN CHOICE (log 249). -/
def State.partCheck (s : State) (acting : Nat) (lines : List HLine) : Option (Nat × Nat) :=
  lines.findSome? (fun l =>
    let x := s.slice l.slice
    if x.state = 5 then some (0x4C, l.index.val)
    else if s.revoked acting l.slice then some (0x41, l.index.val)
    else if (s.homeReason acting l.slice true).isSome then some (0x41, l.index.val)
    else if !s.lsUsable l.slice then some (0x44, l.index.val)
    else none)

/-- Take a part at this home. -/
def State.addPart (s : State) (p : HPart) : State :=
  let p1 := match s.partCheck p.acting (p.lines.map (·.l)) with
    | some (v, f) => { p with vote := some v, fail := f }
    | none => p
  s.inHmp (fun h => { h with parts := h.parts ++ [p1] })

/-- TIMING values are valid (R133). -/
def timingOk (arb dcd xlat : Nat) : Bool :=
  decide (1 ≤ arb) && decide (arb + xlat < dcd) && decide (dcd + 256 + xlat ≤ 2816)

/-- Submit a hamper record (R103, R107). -/
def State.hmpSubmit (s : State) (src : HSrc) (acting v : Nat) (legacy : Bool) (port : Option Nat) (b : List Byte) : State :=
  let user := BitVec.ofNat 32 (leAt b 4 4)
  let me := s.moduleFid
  let refuse := fun (x : State) (st fail : Nat) =>
    (x.abortCount st).outcome src (outcomeRec st false 0 fail 0 s.tick.fab user)
  let n := byteAt b 1
  let es := (List.range (min n 32)).map (parseEntry b)
  let dec := es.map (fun e => s.originByte v e.addr true)
  let home := fun e : HEnt => e.remote.getD me
  let lines : List (Nat × HLine) := (es.zip (dec.zip (List.range 32))).filterMap (fun x =>
    match x.2.1 with
    | .inr (e, o) => some (home e, ⟨decide (x.1.op = 1), Fin.ofNat 32 x.2.2, Fin.ofNat 262144 e.slice, BitVec.ofNat 22 (o % 2 ^ 28 / 64), x.1.mask, x.1.data⟩)
    | .inl _ => none)
  let homes := (lines.map (·.1)).eraseDups
  let cross := homes.any (fun h => decide (h ≠ me))
  let crossAny := dec.any (fun d => match d with | .inr (e, _) => decide (home e ≠ me) | .inl _ => false)
  if !s.bit hmpCtl 31 || !s.bit hmpStatus 30 || (s.bit hmpStatus 31 && crossAny) then refuse s 0x44 0xFF
  else if legacy then refuse s 0x47 0xFF
  else if s.bit glbTickStatus 30 then refuse s 0x45 0xFF
  else if !recordOk b then refuse s 0x40 (badEntry b)
  else match (dec.zip (List.range 32)).find? (fun d => match d.1 with | .inl _ => true | .inr _ => false) with
  | some (.inl (reason, off), i) => refuse (s.originFail port acting reason off) 0x41 i
  | _ =>
    if 4 < homes.length then refuse s 0x42 0xFF
    else if cross && (!s.locked || s.bit hmpCtl 30) then refuse s 0x46 0xFF
    else if s.slotFree = 0 then refuse s 0x43 0xFF
    else
      let tag := s.freeTag
      let key : HKey := ⟨s.tick.fab, Fin.ofNat 262144 me, tag⟩
      let lim := if byteAt b 2 = 0 then s.fld hmpCtl 24 4 else byteAt b 2
      let o : HOrig := { key := key, src := src, user := user, limit := lim, window := s.tick.fab + 1, homes := homes }
      let s1 := ((s.setReg hmpTagNext (tag + 1)).cnt64 hmpSubmitCnt).inHmp (fun h => { h with origs := h.origs ++ [o] })
      s1.each homes (fun h t =>
        let mine := (lines.filter (fun l => decide (l.1 = h))).map (·.2)
        if h = me then
          t.addPart { key := key, acting := acting, lines := mine.map (fun l => { l := l }), parts := homes, boot := s.mgmt.bootCount, limit := lim, window := s.tick.fab + 1 }
        else
          t.sendHmsg h 1 ⟨key, 0, 0, 0xFF, Fin.ofNat 262144 me, s.hmp.dcd - s.hmp.xlat, s.mgmt.bootCount, Fin.ofNat 262144 acting, homes.map (Fin.ofNat 262144), lim, mine⟩)

/-! ### Hamper ports (R106) -/

/-- HAMPER_PORT_ENTRY_WRITE: bytes of line entries are staged in a FREE slot (R106). -/
def execHamperPortEntryWrite (v : VcsIx) (k : Fin 64) (off : Fin 4096) (b : List Byte) (s : State) : Res :=
  if (tfind s.bind.vcs v).isNone then .next s
  else
    let x := s.portSlot v k
    if x.st ≠ 0 then .next (s.cnt hmpPortDiscardCnt)
    else if off.val < 0x20 then .next (s.cnt hmpPortDiscardCnt)
    else
      let put := fun (t : Tab Nat) (i : Nat) => if off.val + i < 0xA20 then tput 0 t (off.val + i) (byteAt b i) else t
      .next (s.setPortSlot v k { x with staged := (List.range b.length).foldl put x.staged })

/-- HAMPER_PORT_HEADER_WRITE: one write of exactly the header submits; any other extent that touches it is discarded
(R106). -/
def execHamperPortHeaderWrite (v : VcsIx) (k : Fin 64) (off : Fin 32) (b : List Byte) (s : State) : Res :=
  if s.clk.draining then .next s else
  match tfind s.bind.vcs v with
  | none => .next s
  | some x =>
    let sl := s.portSlot v k
    if sl.st ≠ 0 ∨ off.val ≠ 0 ∨ b.length ≠ 32 then .next (s.cnt hmpPortDiscardCnt)
    else
      let rec0 := b ++ (List.range 2560).map (fun i => BitVec.ofNat 8 (tget 0 sl.staged (32 + i)))
      .next ((s.setPortSlot v k { sl with st := 1 }).hmpSubmit (.port v k) x.host v false (some x.usp) rec0)

/-- HMP_SLOT_ACK: ACK frees a DONE slot; in BUSY it is discarded (R106). -/
def execHmpSlotAck (v : VcsIx) (k : Fin 64) (s : State) : Res :=
  match (s.portSlot v k).st with
  | 2 => .next (s.setPortSlot v k {})
  | 1 => .next (s.cnt hmpPortDiscardCnt)
  | _ => .next s

/-! ### Parts at a home (R109-R114) -/

/-- A hamper message to a module. -/
def State.sendH (s : State) (dst type : Nat) (p : HPart) (code fail : Nat) : State :=
  s.sendHmsg dst type ⟨p.key, BitVec.ofNat 8 code, p.attempt, BitVec.ofNat 8 fail, Fin.ofNat 262144 s.moduleFid, 0, p.boot, Fin.ofNat 262144 p.acting, p.parts.map (Fin.ofNat 262144), p.limit, []⟩

def State.lateMsg (s : State) : State := s.cnt hmpLateCnt

/-- Send a part's vote to its coordinator (R114). -/
def State.sendVote (s : State) (p : HPart) : State :=
  (s.setPart { p with voteSent := true }).sendH p.key.origin 2 p (p.vote.getD 0) p.fail

/-- HPART_RECEIVE (R109, R110). One whose key the home already holds is discarded and counted in HMP_LATE_CNT: DESIGN CHOICE
(log 249). -/
def execHpartReceive (m : HMsg) (s : State) : Res :=
  let p : HPart := { key := m.key, acting := m.acting, lines := m.lines.map (fun l => { l := l }), parts := m.parts.map (·.val), boot := m.boot, limit := m.limit, attempt := m.attempt, window := m.key.stamp + 1 + BitVec.ofNat 48 m.attempt }
  if (s.part m.key).isSome then .next s.lateMsg
  else
    let late := tickEarlier p.window s.tick.fab || (decide (p.window = s.tick.fab) && s.hmp.arbDone)
    let s0 := if late then (s.lateMsg).raiseLim 0x0404 0 [] else s
    if s.slotFree = 0 then .next (s0.sendH m.key.origin 2 p 0x43 0xFF) else
    let notLocked := !s.locked || s.bit glbTickStatus 30
    let s1 := s0.addPart p
    match s1.part m.key with
    | none => .next s1
    | some q =>
      let q1 := if q.vote.isSome then q else if notLocked then { q with vote := some 0x46 } else if late then { q with vote := some 1 } else q
      if q1.vote.isSome then .next ((s1.setPart q1).sendVote q1) else .next s1

/-- A part has the higher priority (R111). -/
def prior (a b : HKey) : Bool :=
  tickEarlier a.stamp b.stamp || (decide (a.stamp = b.stamp) &&
    (decide (a.origin.val < b.origin.val) || (decide (a.origin = b.origin) && decide (a.tag.toNat < b.tag.toNat))))

/-- Parts that arbitrate in the present window. -/
def State.contenders (s : State) : List HPart :=
  s.hmp.parts.filter (fun p => decide (p.window = s.tick.fab) && p.vote.isNone && !p.won && p.doubt.isNone)

/-- HAMPER_ARBITRATION (R111). -/
def execHamperArbitration (s : State) : Res :=
  if s.hmp.arbDone || s.tick.guardDone then .next s
  else
    let cs := s.contenders
    let wins := fun (p : HPart) (la : Nat) => cs.all (fun q => decide (q.key = p.key) || !q.lines.any (fun l => decide (l.la = la)) || prior p.key q.key)
    let winAt := fun (p : HPart) (h : Nat) => p.lines.any (fun l => decide (s.laBank l.la = h) && wins p l.la)
    let cutAt := fun (p : HPart) (h : Nat) => winAt p h && decide (64 ≤ (cs.filter (fun q => winAt q h && decide (q.key ≠ p.key) && prior q.key p.key)).length)
    let s1 := s.inHmp (fun h => { h with arbDone := true })
    .next (s1.each cs (fun p t =>
      let cut := (List.range 16).filter (cutAt p)
      if !cut.isEmpty then
        (t.setPart { p with vote := some 0x4A }).inHmp (fun h => { h with ovr := cut.foldl (fun m b => if nbit m b then m else m + 2 ^ b) h.ovr })
      else if !p.lines.all (fun l => wins p l.la) then t.setPart { p with vote := some 1 }
      else t.setPart { p with won := true }))

/-- HAMPER_LINE_ACQUIRE: an acquire enters its line's queue, and starts when it is at the head (R78, R112). -/
def execHamperLineAcquire (key : HKey) (i : Fin 32) (s : State) : Res :=
  match s.part key with
  | none => .next s
  | some p =>
    match p.lines.find? (fun l => decide (l.l.index = i)) with
    | none => .next s
    | some l =>
      let la := l.la
      let earlier := p.lines.any (fun x => decide (x.la < la) && decide (s.laBank x.la = s.laBank la) && decide (x.step ≠ 2))
      let queued := s.home.trks.any (fun x => decide (x.2.ev = .hamper key i))
      if !p.won || s.tick.guardDone || p.vote.isSome || decide (l.step ≠ 0) || earlier || queued then .next s
      else
        let (n, s1) := s.stamp
        let k := s1.freeTrk
        let t : Trk := { la := la, ev := .hamper key i, fid := p.acting, type2 := l.l.compare, ord := n }
        if s.lineBusy la || s.home.trks.any (fun x => decide (x.2.la = la)) then .next ((s1.setTrk k t).cnt64 (sfBankConflictCnt (s.laBank la)))
        else .next ((s1.setTrk k t).hmpStart k t)

/-- Banks of a part that have not finished. -/
def State.unfinished (s : State) (p : HPart) : Nat :=
  let open0 := p.lines.filter (fun l => decide (l.step ≠ 2))
  let ls := if open0.isEmpty then p.lines else open0
  (List.range 16).foldl (fun a h => a + b2n (ls.any (fun l => decide (s.laBank l.la = h))) * 2 ^ h) 0

/-- A part is judged where its vote is due: PREPARED with its record acknowledged, else ST_HMP_OVERRUN (R114, R120). -/
def State.judge (s : State) (p : HPart) : State :=
  if p.vote.isSome then s
  else if p.prepAck then s.setPart { p with vote := some 0 }
  else
    let m := s.unfinished p
    (s.partVote p 0x4A 0xFF).inHmp (fun h => { h with ovr := (h.ovr ||| m) })

/-- HAMPER_VOTE_SEND: by VOTE_BY (R114). -/
def execHamperVoteSend (key : HKey) (s : State) : Res :=
  match s.part key with
  | none => .next s
  | some p =>
    if p.voteSent || s.tick.guardDone || decide (key.origin.val = s.moduleFid) || decide (p.window ≠ s.tick.fab) then .next s
    else
      let s1 := s.judge p
      match s1.part key with
      | some q => .next (s1.sendVote q)
      | none => .next s1

/-- HVOTE_RECEIVE (R115, R128). -/
def execHvoteReceive (m : HMsg) (s : State) : Res :=
  match s.orig m.key with
  | none => .next s.lateMsg
  | some o =>
    if o.dec.isSome ∨ m.attempt ≠ o.retries then .next s.lateMsg
    else .next (s.setOrig { o with votes := o.votes ++ [(m.sender.val, m.code.toNat, m.fail.toNat)] })

/-- The order in which abort statuses are taken (R115). -/
def abortOrder : List Nat := [0x4C, 0x4B, 0x41, 0x44, 0x43, 0x46, 0x4A, 0x49]

/-- The decision from the votes (R115): code and the lowest entry index that a home gave with it (R105, R108). -/
def decideVotes (votes : List (Nat × Nat)) (retries limit : Nat) : Nat × Nat :=
  if votes.all (fun v => decide (v.1 = 0)) then (0, 0xFF)
  else if votes.all (fun v => decide (v.1 ≤ 1)) then (if retries < limit then 1 else 0x48, 0xFF)
  else match abortOrder.find? (fun st => votes.any (fun v => decide (v.1 = st))) with
    | some st => (st, (votes.filter (fun v => decide (v.1 = st))).foldl (fun m v => min m v.2) 0xFF)
    | none => (0x4B, 0xFF)

/-- The votes that the coordinator holds; a missing one counts as ST_HMP_PARTICIPANT_LOST. -/
def State.votesOf (s : State) (o : HOrig) : List (Nat × Nat) :=
  o.homes.map (fun h =>
    if h = s.moduleFid then
      match s.part o.key with | some p => (p.vote.getD 0x4A, p.fail) | none => (0x4B, 0xFF)
    else match o.votes.find? (fun v => decide (v.1 = h)) with | some v => v.2 | none => (0x4B, 0xFF))

/-- The decision of a hamper goes to its remote homes, and to its part here (R115). -/
def State.announce (s : State) (o : HOrig) (c : Nat) : State :=
  let m : HPart := { key := o.key, acting := 0, lines := [], parts := o.homes, boot := s.mgmt.bootCount, limit := o.limit, attempt := o.retries, window := o.window }
  let s1 := s.each (o.homes.filter (fun h => decide (h ≠ s.moduleFid))) (fun h t => t.sendH h 3 m c o.fail)
  match s1.part o.key with
  | some p => s1.setPart (if p.doubt.isSome then { p with answer := some c } else { p with dec := some c })
  | none => s1

/-- The DECISION record of a hamper; LINES and BANKS are those of the coordinator's own part (R121). CODE of a RETRY decision, which
the table does not give, is 1: DESIGN CHOICE (log 261). -/
def State.decisionRec (s : State) (o : HOrig) (c : Nat) : LogRec :=
  let p := s.part o.key
  { type := 2, code := c, lines := (match p with | some p => p.lines.length | none => 0), attempt := o.retries, key := o.key, boot := s.mgmt.bootCount,
    parts := o.homes, edge := o.window + 1, banks := (match p with | some p => s.partBanks p | none => 0) }

/-- Every cross-module hamper of the window is decided and its DECISION record written (R115). Without a commit log there is no
record: it aborts with ST_HMP_UNAVAILABLE, and its homes are told at once (R152). -/
def State.decideAll (s : State) : State :=
  let me := s.moduleFid
  let s0 := s.inHmp (fun h => { h with dcdDone := true })
  let due := s0.hmp.origs.filter (fun o => decide (o.window = s.tick.fab) && o.dec.isNone && o.homes.any (fun h => decide (h ≠ me)))
  s0.each due (fun o t =>
    let t1 := match t.part o.key with | some p => t.judge p | none => t
    let missing := o.homes.any (fun h => decide (h ≠ me) && !o.votes.any (fun v => decide (v.1 = h)))
    let t2 := if missing then t1.raiseLim 0x0404 0 [] else t1
    if !t2.bit hmpStatus 30 then
      let x : HOrig := { o with dec := some 0x44, decAck := true }
      (t2.setOrig x).announce x 0x44
    else
      let (c, f) := decideVotes (t2.votesOf o) o.retries o.limit
      let t3 := (t2.setOrig { o with dec := some c, fail := f }).logAppend
        (t2.decisionRec o c)
      if c = 1 then t3.cnt64 hmpRetryCnt else t3)

/-- HAMPER_DECIDE: DECIDE_CYCLE (R115). -/
def execHamperDecide (s : State) : Res := .next (if s.hmp.dcdDone then s else s.decideAll)

/-- COMMIT_LOG_WRITE_ACK: a record is acknowledged on its copies (R115, R116, R121, R434). -/
def execCommitLogWriteAck (key : HKey) (type : Fin 4) (s : State) : Res :=
  match type.val with
  | 1 =>
    match s.part key with
    | some p => if p.prepared && !p.prepAck then .next ((s.setPart { p with prepAck := true }).cnt64 hmpHomePrepCnt) else .next s
    | none => .next s
  | 2 =>
    match s.orig key with
    | none => .next s
    | some o =>
      match o.dec with
      | none => .next s
      | some c =>
        if o.decAck then .next s else .next ((s.setOrig { o with decAck := true }).announce { o with decAck := true } c)
  | 3 =>
    match s.part key with
    | some p => if p.sealed then .next (s.setPart { p with sealAck := true }) else .next s
    | none =>
      if s.hmp.seals.contains key then .next ((s.cnt hmpLateSealCnt).inHmp (fun h => { h with seals := h.seals.filter (fun x => decide (x ≠ key)) }))
      else .next s
  | _ => .next s

/-- HDECIDE_RECEIVE (R116, R122). -/
def execHdecideReceive (m : HMsg) (s : State) : Res :=
  match s.part m.key with
  | none => .next s.lateMsg
  | some p =>
    if p.key.origin.val = s.moduleFid then .next s.lateMsg
    else if p.doubt.isSome then .next (s.setPart { p with answer := some m.code.toNat })
    else .next (s.setPart { p with dec := some m.code.toNat })

/-! ### Doubt (R122-R124) -/

/-- HQUERY_SEND: every 16 ticks an in-doubt home asks the coordinator and the other participants (R123). -/
def execHquerySend (key : HKey) (s : State) : Res :=
  match s.part key with
  | none => .next s
  | some p =>
    let due := match p.asked with | some t => decide (16 ≤ ticksSince t s.tick.loc) | none => true
    if p.doubt.isNone || !due then .next s
    else
      let tg := (p.key.origin.val :: p.parts).eraseDups.filter (fun h => decide (h ≠ s.moduleFid))
      .next ((s.setPart { p with asked := some s.tick.loc }).each tg (fun h t => t.sendH h 4 p 0 0xFF))

/-- The place in the commit log's list of the record that answers a query of a hamper that the module no longer holds: its last SEAL,
or at the origin the DECISION of the attempt (R121, R123). A record that reads as absent is none (R147). -/
def State.queryRec (s : State) (m : HMsg) : Option Nat :=
  let home := decide (m.key.origin.val = s.moduleFid)
  ((List.range s.hmp.log.length).reverse.find? (fun j => match s.hmp.log[j]? with
    | some r => decide (r.key = m.key) && !r.absent && (if home then decide (r.type = 2) && decide (r.attempt = m.attempt) else decide (r.type = 3))
    | none => false))

/-- A query is answered from the commit log: the module holds neither the hamper nor a part of it. -/
def State.queryReads (s : State) (m : HMsg) : Option Nat :=
  if m.key.origin.val = s.moduleFid then (if s.mgmt.bootCount = m.boot ∧ (s.orig m.key).isNone then s.queryRec m else none)
  else if (s.part m.key).isNone then s.queryRec m else none

/-- What a module holds of the hamper that a query names (R123): a decision's code, 0xFE IN_DOUBT or 0xFF NO_RECORD. -/
def State.queryHeld (s : State) (m : HMsg) : Nat :=
  let logged := (s.queryRec m).bind (fun j => s.hmp.log[j]?)
  if m.key.origin.val = s.moduleFid then
    if s.mgmt.bootCount ≠ m.boot then 0xFF
    else match s.orig m.key with
      | some o => if o.decAck then o.dec.getD 0xFE else 0xFE
      | none =>
        match logged with
        | some r => r.code
        | none =>
          match s.hmp.lostAt with
          | some t => if m.key.stamp = t ∨ tickEarlier m.key.stamp t then 0xFF else 0x4B
          | none => 0x4B
  else match s.part m.key with
    | some p => if p.doubt.isSome then 0xFE else match p.dec with | some c => c | none => 0xFF
    | none => match logged with | some r => r.code | none => 0xFF

/-- What a module answers to a query (R123, R128): 0x00 COMMITTED, a status, 0xFE IN_DOUBT, 0xFF NO_RECORD. A RETRY decision, for
which the rule gives no answer, resolves nothing: IN_DOUBT, DESIGN CHOICE (log 262). -/
def State.queryAnswer (s : State) (m : HMsg) : Nat := if s.queryHeld m = 1 then 0xFE else s.queryHeld m

/-- HANSWER to a query (R123, R128). -/
def State.answerQuery (s : State) (m : HMsg) : State :=
  s.sendHmsg m.sender 5 { m with code := BitVec.ofNat 8 (s.queryAnswer m), sender := Fin.ofNat 262144 s.moduleFid, lines := [] }

/-- HQUERY_RECEIVE (R123): always answered, at once from what the module holds, or when the record's read of the commit log returns. -/
def execHqueryReceive (m : HMsg) (s : State) : Res :=
  match s.queryReads m with
  | some j => .next (s.slotIssue (s.logIndex j) none (.log (s.logIndex j) m))
  | none => .next (s.answerQuery m)

/-- HANSWER_RECEIVE (R123). An origin that learns ST_HMP_INDOUBT_POISONED takes it as the outcome (R124). -/
def execHanswerReceive (m : HMsg) (s : State) : Res :=
  let c := m.code.toNat
  let s1 := match s.orig m.key with
    | some o => if c = 0x4D then s.setOrig { o with dec := some c, decAck := true } else s
    | none => s
  match s1.part m.key with
  | none => .next s1.lateMsg
  | some p =>
    if p.doubt.isNone ∨ c = 0xFE ∨ c = 0xFF then .next s1
    else .next (s1.setPart { p with answer := some c })

/-- INDOUBT_TICKS (R132). -/
def State.doubtTicks (s : State) : Nat := max 64 (s.fld hmpCtl 0 16)

/-- HAMPER_INDOUBT_POISON: doubt has lasted INDOUBT_TICKS; poison follows at the next edge (R124). -/
def execHamperIndoubtPoison (key : HKey) (s : State) : Res :=
  match s.part key with
  | none => .next s
  | some p =>
    match p.doubt with
    | some t => if s.doubtTicks ≤ ticksSince t s.tick.loc then .next (s.setPart { p with poison := true }) else .next s
    | none => .next s

/-- INDOUBT_RECORD_REWRITE: every 1,024 ticks the record of an in-doubt part is written again at the ring head (R121). -/
def execIndoubtRecordRewrite (key : HKey) (s : State) : Res :=
  match s.part key with
  | some p =>
    let due := match p.rew with | some t => decide (1024 ≤ ticksSince t s.tick.loc) | none => true
    if p.doubt.isSome && due then .next ((s.setPart { p with rew := some s.tick.loc }).logAppend (s.partRec p 1 0)) else .next s
  | none => .next s

/-- HMP_TIMING_WRITE: in force from the next edge (R133, R134). -/
def execHmpTimingWrite (second : Bool) (v : Word) (s : State) : Res :=
  let s1 := if second then s.setN hmpTiming1 (bits v 0 12) else s.setN hmpTiming0 (bits v 16 12 * 2 ^ 16 + bits v 0 12)
  .next (s1.inHmp (fun h => { h with timPend := true }))

/-! ### The guard point and the edge (R28, R30, R116, R117, R120, R122, R124) -/

/-- A part enters doubt (R122): what waits on its lines completes as on an in-doubt line. -/
def State.doubtBegin (s : State) (p : HPart) : State :=
  ((s.setPart { p with doubt := some s.tick.loc, rew := some s.tick.loc }).raise 0x0401 [.q p.key.stamp.toNat, .w p.key.origin, .w p.key.tag.toNat]).failQueued
    (fun la => p.lines.any (fun l => decide (l.la = la) && decide (l.step ≠ 0)))

/-- A tick overrun in the tick that runs, with its banks: the tick is counted once (R30, R120). -/
def State.overrun (s : State) (banks : Nat) : State :=
  let s1 := if s.tick.ovrAt = some s.tick.loc then s
    else { s.cnt glbTickOverrunCnt with tick := { s.tick with ovrAt := some s.tick.loc } }
  s1.raise 0x0123 [.q s.tick.fab.toNat, .w banks]

/-- The home of a local hamper (R116, R120). -/
def State.isLocal (s : State) (p : HPart) : Bool :=
  decide (p.key.origin.val = s.moduleFid) && p.parts.all (fun h => decide (h = s.moduleFid))

/-- A window is the running tick's, or behind it. -/
def State.windowDue (s : State) (w : Tick) : Bool := decide (w = s.tick.fab) || tickEarlier w s.tick.fab

/-- The guard point: a decision that is due is taken; local hampers are judged and decided; a remote part that has not finished its
acquire overruns and votes so; remote parts that voted PREPARED and are without HDECIDE enter doubt; outcomes are sealed, overruns are
counted (R30, R116, R120, R122). -/
def State.hmpGuard (s : State) : State :=
  let me := s.moduleFid
  let s := if s.hmp.dcdDone then s else s.decideAll
  let locals := s.hmp.origs.filter (fun o => decide (o.window = s.tick.fab) && o.dec.isNone && o.homes.all (fun h => decide (h = me)))
  let s1 := s.each locals (fun o t =>
    let t1 := match t.part o.key with | some p => t.judge p | none => t
    let (c, f) := if t1.bit hmpStatus 30 then decideVotes (t1.votesOf o) o.retries o.limit else (0x44, 0xFF)
    let t2 := t1.setOrig { o with dec := some c, fail := f, decAck := true }
    let t3 := if c = 1 then t2.cnt64 hmpRetryCnt else t2
    match t3.part o.key with | some p => t3.setPart { p with dec := some c } | none => t3)
  let behind := s1.hmp.parts.filter (fun p => s1.windowDue p.window && decide (p.key.origin.val ≠ me) && p.dec.isNone && p.vote.isNone && p.doubt.isNone && !p.prepAck)
  let s1 := s1.each behind (fun p t =>
    let u := t.judge p
    match u.part p.key with | some q => u.sendVote q | none => u)
  let doubtful := s1.hmp.parts.filter (fun p => s1.windowDue p.window && decide (p.key.origin.val ≠ me) && p.dec.isNone && decide (p.vote = some 0) && p.doubt.isNone)
  let s2 := s1.each doubtful (fun p t => t.doubtBegin p)
  let sealing := s2.hmp.parts.filter (fun p => s2.windowDue p.window && p.doubt.isNone && !p.sealed && (match p.dec with | some c => decide (c ≠ 1) | none => false))
  let s3 := s2.each sealing (fun p t => (t.logAppend (t.partRec p 3 (p.dec.getD 0))).setPart { p with sealed := true })
  if s3.hmp.ovr = 0 then s3 else (s3.overrun s3.hmp.ovr).inHmp (fun h => { h with ovr := 0 })

/-- The flip of a part: every shadow way becomes current data, DIRTY; holds clear; WRITE lines are in I (R116, R126). -/
def State.flip (s : State) (p : HPart) : State :=
  s.each p.lines (fun l t =>
    let failed := decide ((t.slice l.l.slice).state = 5)
    let t1 := match tfind t.home.shadow l.la with
      | some (d, poison) =>
        let x := t.inHome (fun h => { h with shadow := tdel h.shadow l.la })
        if failed then (x.poisonCnt l.la).placeAllocs l.la
        else
          let (n, y) := x.stamp
          ((y.inHome (fun h => { h with lines := tins h.lines l.la { dirty := true, poison := poison, data := d, use := n } })).placeAllocs l.la).pmc 0x08 (s.laBank l.la) 1 { slice := some l.l.slice.val }
      | none => t
    if l.l.compare then t1.unhold l.la else t1.setEnt l.la none)

def State.delPart (s : State) (key : HKey) : State := s.inHmp (fun h => { h with parts := h.parts.filter (fun p => decide (p.key ≠ key)) })
def State.delOrig (s : State) (key : HKey) : State := s.inHmp (fun h => { h with origs := h.origs.filter (fun o => decide (o.key ≠ key)) })

/-- Poison a part's WRITE lines (R124). -/
def State.poisonPart (s : State) (p : HPart) : State :=
  let s1 := s.each (p.lines.filter (fun l => !l.l.compare)) (fun l t => (t.poisonLine l.la).poisonCnt l.la)
  let s2 := s1.partRelease p
  ((s2.logAppend (s2.partRec p 3 0x4D)).raise 0x0403 [.q p.key.stamp.toNat, .w p.key.origin, .w p.key.tag.toNat]).delPart p.key

/-- A part is kept for the next window (R118); a line whose slice has failed since makes it vote for that (R126). -/
def State.partRetry (s : State) (p : HPart) : State :=
  let s1 := s.partRelease p
  let bad := p.lines.filter (fun l => decide ((s.slice l.l.slice).state = 5))
  let v := if bad.isEmpty then none else some 0x4C
  let f := match bad with | [l] => l.l.index.val | _ => 0xFF
  match s1.part p.key with
  | some q => s1.setPart { q with attempt := p.attempt + 1, window := s.tick.fab, prepared := false, prepAck := false, vote := v, fail := f, voteSent := false, dec := none, sealed := false, sealAck := false, won := false, doubt := none, answer := none, rew := none }
  | none => s1

/-- One part at the edge that opens a tick (R116-R118, R122-R124). The part of a hamper of this module whose DECISION record
is not yet acknowledged keeps its holds; one that learns its decision after the guard point is sealed at the next one, and ends at the
edge after it. -/
def State.partEdge (p : HPart) (s : State) : State :=
  match p.doubt with
  | some _ =>
    match p.answer with
    | some 1 => (s.partRetry p).raise 0x0402 [.w 1]
    | some c =>
      let s1 := if c = 0 then s.flip p else s.partRelease p
      ((s1.logAppend (s1.partRec p 3 c)).raise 0x0402 [.w c]).delPart p.key
    | none => if p.poison then s.poisonPart p else s
  | none =>
    let late := fun x : State => if p.sealed && !p.sealAck && !s.isLocal p then x.inHmp (fun h => { h with seals := h.seals ++ [p.key] }) else x
    let own := decide (p.key.origin.val = s.moduleFid)
    if tickEarlier s.tick.fab (p.window + 1) then s
    else match p.dec with
      | some 1 => s.partRetry p
      | some c =>
        if own && !p.sealed then s
        else late ((if c = 0 && !(s.isLocal p && !p.sealAck) then s.flip p else s.partRelease p).delPart p.key)
      | none => if own then s else (s.partRelease p).delPart p.key

/-- A local hamper whose SEAL record was not acknowledged by cycle 3,071 of the tick (R116, R120). -/
def State.lateSeal (s : State) (tick : Tick) (p : HPart) : Bool :=
  decide (p.window = tick) && decide (p.dec = some 0) && s.isLocal p && !p.sealAck && p.doubt.isNone

/-- Cycle 3,071: late seals of local hampers overrun the tick that ends (R120). -/
def State.hmpLate (s : State) : State :=
  let m := (s.hmp.parts.filter (s.lateSeal s.tick.fab)).foldl (fun a p => a ||| s.partBanks p) 0
  if m = 0 then s else s.overrun m

/-- One hamper of this origin at the edge: commit, abort or retry (R116-R118, R126). It stays open while its DECISION record is
not acknowledged, and while its own part has not ended. -/
def State.origEdge (late : Bool) (o : HOrig) (s : State) : State :=
  let end0 := fun (x : State) (st : Nat) (els : Bool) (f : Nat) =>
    (x.outcome o.src (outcomeRec st els o.retries f o.key.tag s.tick.fab o.user)).delOrig o.key
  let abort := fun (st f : Nat) => end0 ((s.abortCount st).abortCapture st o.key) st false f
  if tickEarlier s.tick.fab (o.window + 1) then s
  else if o.dec.isSome && !o.decAck then s
  else if o.dec ≠ some 1 ∧ (s.part o.key).isSome then s
  else match o.dec with
    | some 0 =>
      if late then abort 0x4A 0xFF
      else if o.failed.isSome then end0 ((s.abortCount 0x4C).abortCapture 0x4C o.key) 0x4C true (o.failed.getD 0xFF)
      else end0 (s.cnt64 hmpCommitCnt) 0 false 0xFF
    | some 1 => s.setOrig { o with retries := o.retries + 1, window := s.tick.fab, votes := [], dec := none, decAck := false, fail := 0xFF, failed := none }
    | some st => abort st o.fail
    | none => abort 0x4B 0xFF

/-- The hamper unit at the edge that opens tick s.tick.fab. -/
def State.hmpEdge (s : State) : State :=
  let lateKeys := (s.hmp.parts.filter (s.lateSeal (s.tick.fab - 1))).map (·.key)
  let s1 := s.each s.hmp.parts State.partEdge
  let s2 := s1.each s1.hmp.origs (fun o t => t.origEdge (lateKeys.contains o.key) o)
  let s3 := (s2.inHmp (fun h => { h with arbDone := false, dcdDone := false, ovr := 0 })).resume
  if s3.hmp.timPend then
    let arb := s3.fld hmpTiming0 0 12
    let dcd := s3.fld hmpTiming0 16 12
    let x := s3.fld hmpTiming1 0 12
    let okT := timingOk arb dcd x
    let s4 := (s3.inHmp (fun h => { h with arb := arb, dcd := dcd, xlat := x, timPend := false })).setBit hmpStatus 31 (!okT)
    if !okT && !s.bit hmpStatus 31 then s4.raise 0x0405 [] else s4
  else s3

/-- Slots of the hamper port of a vCS go FREE; outcomes are dropped, open hampers continue (R106, R126). -/
def State.freeHmpPort (s : State) (v : Nat) : State :=
  (s.each (List.range 64) (fun k t => t.setPortSlot v k {})).inHmp (fun h => { h with
    origs := h.origs.map (fun o => match o.src with | .port w _ => if w = v then { o with src := .dropped } else o | _ => o) })

end Sys2Proof.Machine
end

