-- ==== Sys2Proof/Machine/Fail.lean ====
section
/-! DEFINITION. What fails together: slices, domains, dead agents, lost devices, lost banks, lost stacks (R48, R67,
R93-R98, R152). -/

namespace Sys2Proof.Machine

/-- Complete every open tracker on lines that meet a test, as an access to a FAILED slice; snoops are abandoned, and those whose
response has not come yet are remembered (R94). -/
def State.failTrks (s : State) (p : Nat → Bool) : State :=
  s.each (s.home.trks.filter (fun t => p t.2.la)) (fun x t =>
    let k := x.1
    let y := x.2
    let t1 := (t.unread (fun j => decide (j = k))).inHome (fun h => { h with gone := h.gone ++ (y.snps.filter (fun n => !n.late)).map (fun n => (y.la, n.fid)) })
    let t2 := if y.ev.isReq then (t1.poisonCnt y.la).complete y.fid y.via y.la (if y.ev = .ce then some .done else failForm y.via y.ev.isWrite) else t1
    t2.delTrk k)

/-- Slices go to FAILED; EV_SLICE_FAILED once for each domain (R48). Cause 1 device lost, 2 domain failed. -/
def State.failSlices (s : State) (ss : List Nat) (cause : Nat) : State :=
  let s1 := s.each ss (fun n t => t.setSlice n { t.slice n with state := 5 })
  let doms := (ss.map (fun n => (s.slice n).dom)).eraseDups
  let s2 := s1.each doms (fun d t =>
    let mine := ss.filter (fun n => decide ((s.slice n).dom = d))
    t.raise 0x0341 [.w d, .w cause, .w mine.length, .w (mine.foldl min (mine.headD 0))])
  ((s2.hmpFailed ss).jobsFailed ss).failTrks (fun la => ss.contains (laSlice la))

/-- Fail an ACTIVE domain: steps 1 to 4 of R94. `why` raises the event that goes before EV_SLICE_FAILED. -/
def State.failDomain (s : State) (d : Nat) (why : State → State) : State :=
  let x := s.dom d
  let s1 := why (s.setDom d { x with state := 2 })
  let ss := (s1.domSlices d).filter (fun n => [2, 3, 4].contains (s1.slice n).state)
  let all := s1.domSlices d
  let s2 := if ss.isEmpty then s1 else s1.failSlices ss 2
  ((s2.hmpFailed all).jobsFailed all).failTrks (fun la => all.contains (laSlice la))

/-- The outstanding requests of an agent that is gone complete into a discard (R93). -/
def State.agentQuiet (s : State) (f : Nat) : State :=
  let s1 := s.inHome (fun h => { h with trks := h.trks.map (fun t => if t.2.fid = f ∧ t.2.ev.isReq then (t.1, { t.2 with via := .discard }) else t) })
  { s1 with lnk := { s1.lnk with rem := s1.lnk.rem.map (fun r => if r.fid = f then { r with via := .discard } else r) } }

/-- A caching agent is dead: every ACTIVE domain where it caches fails; those that have failed before note it, so that their
teardown does not snoop it; its requests elsewhere complete into a discard, and the slots of its hamper ports are free (R93-R95, R126). -/
def State.agentDead (s : State) (f : Nat) : State :=
  let caches := fun x : Dom => x.agents.any (fun a => a.2.caching && decide (a.2.fid = f))
  let note := fun (d : Nat) (x : State) => if (x.coh d).deads.contains f then x else x.setCoh d { x.coh d with deads := (x.coh d).deads ++ [f] }
  let ds := (s.bind.doms.filter (fun e => decide (e.2.state = 1) && caches e.2)).map (·.1)
  let tearing := fun d : Nat => s.nalug.steps.any (fun x => decide (x.2.job = .teardown d true))
  let old := (s.bind.doms.filter (fun e => caches e.2 && (decide (e.2.state = 2) || (decide (e.2.state = 3) && tearing e.1)))).map (·.1)
  let s1 := s.each ds (fun d t => t.failDomain d (fun x => (note d x).raise 0x0301 [.w f, .w d]))
  let s2 := (s1.each old note).agentQuiet f
  s2.each ((s2.bind.vcs.filter (fun e => decide (e.2.host = f))).map (·.1)) (fun v t => t.freeHmpPort v)

/-- The DIRTY lines of slices whose device is lost are dropped and counted, those that wait for a way too (R96). -/
def State.dropLost (s : State) (ss : List Nat) : State × Nat :=
  let gone := (s.home.lines.filter (fun e => e.2.dirty && ss.contains (laSlice e.1))).map (·.1) ++
    (s.home.allocs.filter (fun a => a.line.dirty && ss.contains (laSlice a.la))).map (·.la)
  ((s.each gone (fun la t => t.cnt (sfBankLostDirtyCnt (t.laBank la)))).lsLose (fun la l => l.dirty && ss.contains (laSlice la)), gone.length)

/-- A logical device is lost (R48, R67, R96). -/
def State.deviceLost (s : State) (p ld : Nat) : State :=
  let key := p * 16 + ld
  let s0 := s.inBind (fun b => { b with devs := tdel b.devs key })
  match s.edgeFid p ld with
  | none => s0.raise 0x0C41 [.w p, .w ld, .w 0, .w 0]
  | some f =>
    let s0 := s0.inHome (fun h => { h with devWrs := h.devWrs.filter (fun w => decide (w.1 ≠ f)) })
    let ss := (s.bind.slices.filter (fun e => decide (e.2.dev = f) && [1, 2, 3, 4].contains e.2.state)).map (·.1)
    let mv := (s.bind.slices.filter (fun e => decide (e.2.state = 4) && decide (e.2.newDev = f) && decide (e.2.dev ≠ f))).map (·.1)
    let s1 := if ss.isEmpty then s0 else s0.failSlices ss 1
    -- 0x6B: ST_ENG_MOVE_ABORTED
    let s2 := s1.each mv (fun n t => (t.abandonMove n).jobsStop (fun j => decide (j.hit = [n]) && decide (byteAt j.bytes 0 = 0x10)) 0x6B)
    let (s3, n) := s2.dropLost ss
    let s4 := if 0 < n then s3.raise 0x0306 [.w f, .w n] else s3
    s4.raise 0x0C41 [.w p, .w ld, .w (2 ^ 31 + f), .w ss.length]

/-- SNOOP_TIMEOUT: a snoop unanswered at its deadline makes its agent dead; a snoop that outlives the failures is
abandoned as answered invalid, and its E or M line is poisoned (R93, R94); the teardown of a FAILED domain poisons it itself
(R95). -/
def execSnoopTimeout (k : Nat) (fid : Fid) (s : State) : Res :=
  match tfind s.home.trks k with
  | none => .next s
  | some t =>
    match t.snps.find? (fun n => decide (n.fid = (fid : Nat))) with
    | none => .next s
    | some n =>
      if tickEarlier s.tick.loc n.due then .next s
      else
        let s1 := s.agentDead fid
        match tfind s1.home.trks k with
        | none => .next s1
        | some t1 =>
          let own := !s1.discards t1 && (match t1.ent with | some e => decide (e.st = 2 ∨ e.st = 3) && e.sh.contains (fid : Nat) | none => false)
          let s2 := if own then ((s1.setEnt t1.la none).poisonLine t1.la).poisonCnt t1.la else s1
          let s3 := if n.late then s2 else s2.inHome (fun h => { h with gone := h.gone ++ [(t1.la, (fid : Nat))] })
          let t2 : Trk := { t1 with snps := t1.snps.filter (fun x => decide (x.fid ≠ (fid : Nat))), rsps := t1.rsps ++ [⟨fid, 0, none⟩], ent := (if own && (match t1.ent with | some e => decide (e.st = 3) | none => false) then none else t1.ent) }
          .next ((s3.setTrk k t2).advance k)

/-- A home bank is lost at run time (R97). -/
def State.homeBankLost (s : State) (h : Nat) : State :=
  let ds := (s.bind.doms.filter (fun e => decide (e.2.state = 1) && !(s.domSlices e.1).isEmpty)).map (·.1)
  let s1 := s.inHome (fun x => { x with bankLost := x.bankLost ++ [h] })
  match ds with
  | [] => s1.raise 0x0308 [.w h, .w 0]
  | d :: r => (s1.failDomain d (fun t => t.raise 0x0308 [.w h, .w ds.length])).each r (fun e t => t.failDomain e id)

/-- A snoop-filter bank is lost at run time (R98): its buckets lose their directory, holds included; parts that hold or acquire
lines there and have not voted vote RETRY (log 249); caching domains enter Blanket mode. -/
def State.sfBankLost (s : State) (b : Nat) : State :=
  let on := fun la : Nat => decide (s.sfOf (bucket la) = b)
  let s1 := s.each (s.hmp.parts.filter (fun p => p.vote.isNone && p.lines.any (fun l => decide (l.step ≠ 0) && on l.la))) (fun p t => t.partVote p 1 0xFF)
  let s2 := s1.inHome (fun x => { x with sfLost := x.sfLost ++ [b], ents := x.ents.filter (fun e => !on e.1) })
  let ds := (s.bind.doms.filter (fun e => decide (e.2.state ≠ 0) && e.2.agents.any (fun a => a.2.caching))).map (·.1)
  let fresh := (ds.filter (fun d => !s.blanketDom d)).length
  let s3 := s2.each ds (fun d t => (((t.each (t.domSlices d) (fun n x => x.untrack n)).exitAbandon d)).enterBlanket d 3)
  s3.raise 0x0309 [.w b, .w fresh]

/-- The next present stack after one, wrapping; none when it is alone. -/
def State.nextStack (s : State) (h : Nat) : Option Nat :=
  ((List.range 3).map (fun k => (h + 1 + k) % 4)).find? (fun j => s.present 8 j && decide (j ≠ h))

/-- A new mirror copy starts on the stack after the log stack (R152); on a new log stack the dump ring restarts at slot 0
(R380). -/
def State.startMirror (s : State) (log : Nat) : State :=
  let s0 := if log = s.fld hbmStatus 12 2 then s else { s with tel := { s.tel with dumpOrg := s.reg telDumpSeq + 1 } }
  let s1 := (s0.setFld hbmStatus 12 2 log).setBit hbmStatus 7 false
  match s1.nextStack log with
  | some m => (s1.setFld hbmStatus 8 2 m).inHbm (fun h => { h with mirror := some 0 })
  | none => s1.inHbm (fun h => { h with mirror := none })

/-- The mirrors of the stack bits in HBM_STATUS (R427). -/
def State.hbmMirror (s : State) : State :=
  let m := fun base => (List.range 4).foldl (fun a h => a + b2n (s.setBitAt base 8 h) * 2 ^ h) 0
  let ls := (List.range 4).foldl (fun a h => a + b2n (s.bind.slices.any (fun e => decide (e.2.state ≠ 0) && decide (e.2.stack = h))) * 2 ^ h) 0
  (((s.setFld hbmStatus 28 4 s.stackMask).setFld hbmStatus 24 4 (m 0x200)).setFld hbmStatus 20 4 (m 0x300)).setFld hbmStatus 16 4 ls

/-- The port and class of a queue's key. -/
def queuePort (q : Nat) : Nat := q % 1536 / 8
def queueClass (q : Nat) : Nat := q % 8

/-- Messages of a queue are discarded as aged; a bulk request that expects a completion gets one marked timeout (R150). -/
def State.ageDrop (s : State) (q : Nat) (l : List TMsg) : State :=
  let tl := queuePort q / 16
  if l.isEmpty then s
  else ((s.cnt (tlAgeDropCnt tl) l.length).raiseLim 0x0705 tl [.w (queuePort q), .w (queueClass q)]).each l (fun m y => if queueClass q = 6 then y.errReply m.m 2 else y)

/-- Spilled messages in pages on a stack are discarded as aged messages (R150, R152). -/
def State.spillLost (s : State) (h : Nat) : State :=
  let gone := fun (x : Nat × TMsg) => decide (x.1 % 4 = h)
  s.each s.hbm.spill (fun e t =>
    (t.inHbm (fun x => { x with spill := tput [] x.spill e.1 (e.2.filter (fun m => !gone m)) })).ageDrop e.1 ((e.2.filter gone).map (·.2)))

/-- A stack is retired (R152), after the actions of R6. -/
def State.stackLost (s : State) (h : Nat) : State :=
  let s1 := if s.bit sfDirStatus (24 + h) && s.dirAvail then s.dirLost h else s
  let mine := (s1.bind.slices.filter (fun e => decide (e.2.state ≠ 0) && decide (e.2.stack = h))).map (·.1)
  let bad := mine.filter (fun n => (s1.slice n).dirtySeen)
  let good := mine.filter (fun n => !(s1.slice n).dirtySeen)
  let drop := fun t : State => (t.lsLose (fun la _ => mine.contains (laSlice la))).inHome (fun x => { x with shadow := x.shadow.filter (fun e => !mine.contains (laSlice e.1)) })
  let fail := bad.filter (fun n => (s1.slice n).state ≠ 5)
  let s2 := if fail.isEmpty then s1 else s1.failSlices fail 1
  let s3 := (drop s2).each mine (fun n t => t.setSlice n { t.slice n with stack := t.pickStack })
  let log := s.fld hbmStatus 12 2
  let mir := s.fld hbmStatus 8 2
  let valid := s.bit hbmStatus 7
  let s3 := s3.spillLost h
  let s4 :=
    if valid && (decide (h = mir) || decide (h = log)) then
      let l := if h = mir then log else mir
      (s3.startMirror l).raise 0x0707 [.w h, .w l]
    else if h = log then
      let s5 := s3.inHmp (fun x => { x with log := [], lostAt := some s.tick.fab })
      let s6 := { s5 with ev := { s5.ev with log := [] } }
      match s.nextStack h with
      | some l => (s6.startMirror l).raise 0x0708 [.w h, .q s.tick.fab.toNat]
      | none => s6.raise 0x0708 [.w h, .q s.tick.fab.toNat]
    else if h = mir ∧ s.hbm.mirror.isSome then (s3.startMirror log).raise 0x0707 [.w h, .w log]
    else s3
  let s7 := s4.raise 0x0702 [.w h, .w fail.length, .w good.length]
  let s8 := if s7.stackMask = 0 then
      let x := s7.setBit hmpStatus 30 false
      x.each (x.hmp.parts.filter (fun p => p.vote.isNone && p.dec.isNone && p.doubt.isNone)) (fun p t => t.partVote p 0x44 0xFF)
    else s7
  s8.hbmMirror

/-- Retire a stack (R6, R152). -/
def State.retireStack (s : State) (h : Nat) : State :=
  if s.present 8 h then (s.retireUnit 8 h).stackLost h else s

end Sys2Proof.Machine
end

