-- ==== Sys2Proof/Machine/Buffers.lean ====
section
/-! DEFINITION. The tiles' buffers and the spill area: occupancy, free cells, spill pages, the spilling state (R140-R142, R151). -/

namespace Sys2Proof.Machine

def cellCount (bytes : Nat) : Nat := max 1 (ceilDiv bytes 64)
def droppable (c : Nat) : Bool := decide (6 ≤ c)

def State.queue (s : State) (q : Nat) : List TMsg := tget [] s.hbm.queues q
def State.setQueue (s : State) (q : Nat) (l : List TMsg) : State := s.inHbm (fun h => { h with queues := tput [] h.queues q l })
def cellsOf (l : List TMsg) : Nat := l.foldl (fun a m => a + m.cells) 0

/-- Cells of held messages of an ingress queue. -/
def State.heldCells (s : State) (q : Nat) : Nat :=
  let mine := fun f : Flow => cellsOf (f.held.filter (fun m => decide (m.inp * 8 + m.m.cls.val = q)))
  (s.qos.flows.foldl (fun a e => a + mine e.2) 0) + (s.qos.defs.foldl (fun a e => a + mine e.2) 0)

/-- Cells that the spill pages being fetched back will take (R151), and that ingress run-ahead holds in the coherent-response queue
toward a port (R87, R140). -/
def State.fetchCells (s : State) (q : Nat) : Nat :=
  s.hbm.slots.foldl (fun a e => match e.2.job with
    | .spill x page => if x = q then a + cellsOf (((tget [] s.hbm.spill q).filter (fun y => decide (y.1 = page))).map (·.2)) else a
    | _ => a) 0
def State.aheadCells (s : State) (q : Nat) : Nat :=
  if 1536 ≤ q ∧ q % 8 = 1 then (s.hbm.ahead.filter (fun a => decide (a.1 = queuePort q))).length else 0

/-- On-chip cells that a queue occupies. -/
def State.occ (s : State) (q : Nat) : Nat :=
  cellsOf (s.queue q) + (if q < 1536 then s.heldCells q else 0) + s.fetchCells q + s.aheadCells q

/-- The queues of the buffer that a queue lies in. -/
def bufQueues (q : Nat) : List Nat := (List.range 128).map (fun k => q / 128 * 128 + k)
/-- The tile of a queue. -/
def queueTile (q : Nat) : Nat := q % 1536 / 128

def State.rsvCells (s : State) (t : Nat) : Nat := s.fld (tlBufCtl t) 0 8

/-- Shared cells of a queue's buffer that are free. -/
def State.sharedFree (s : State) (q : Nat) : Nat :=
  let r := s.rsvCells (queueTile q)
  49152 - 96 * r - (bufQueues q).foldl (fun a k => a + (if droppable (k % 8) then s.occ k else s.occ k - r)) 0

/-- A message's cells fit: reserved cells of its queue first, then shared ones (R140). -/
def State.cellFit (s : State) (q c : Nat) : Bool :=
  let free := if droppable (q % 8) then 0 else s.rsvCells (queueTile q) - s.occ q
  decide (c - free ≤ s.sharedFree q)

/-- Spill pages held, as 4 * page + stack: by tile, and all (R142). -/
def State.spillPages (s : State) (t : Option Nat) : List Nat :=
  ((s.hbm.spill.filter (fun e => match t with | some k => decide (queueTile e.1 = k) | none => true)).flatMap (fun e => e.2.map (·.1))).eraseDups

def State.presentStacks (s : State) : List Nat := (List.range 4).filter (s.present 8)

/-- A free spill page for a tile: from its reserve, then from the shared pages (R142). -/
def State.pickPage (s : State) (t : Nat) : Option Nat :=
  let st := s.presentStacks
  let cap := 524288 * st.length
  let rsv := s.fld hbmSpillRsv 0 17
  let held := fun k => (s.spillPages (some k)).length
  let shared := (List.range 12).foldl (fun a k => a + (held k - rsv)) 0
  let all := s.spillPages none
  if st.isEmpty || decide (cap ≤ all.length) then none
  else if held t < rsv ∨ shared < cap - 12 * rsv then
    match (List.range (all.length + 1)).find? (fun n => !all.any (fun x => decide (x / 4 = n))) with
    | some n => some (4 * n + st.getD (n % st.length) 0)
    | none => none
  else none

/-- The page for a message at the tail of a queue's chain: the last one while it has room and is not being fetched back, its cells being
reserved by then (R151); else a free one. -/
def State.tailPage (s : State) (q c : Nat) : Option Nat :=
  match (tget [] s.hbm.spill q).getLast? with
  | some (pg, _) =>
    let fetched := s.hbm.slots.any (fun e => decide (e.2.job = .spill q pg))
    let used := ((tget [] s.hbm.spill q).filter (fun x => decide (x.1 = pg))).foldl (fun a x => a + x.2.cells) 0
    if used + c ≤ 64 ∧ !fetched then some pg else s.pickPage (queueTile q)
  | none => s.pickPage (queueTile q)

/-- The station of a port (R14), and of an egress. -/
def portStation (p : Nat) : Nat := 2 * (p / 16) + p % 16 / 8
def egressStation (e : Nat) : Nat := if 1000 ≤ e then e - 1000 else portStation e

/-- The condition of R141 on a droppable queue. -/
def State.spillDue (s : State) (q : Nat) : Bool :=
  let t := queueTile q
  droppable (q % 8) &&
  (s.hbm.spilling.contains q || decide (s.fld (tlSpillCtl t) 8 8 * 64 < s.occ q) || decide (s.sharedFree q < s.fld (tlSpillCtl t) 16 16))

def State.markSpill (s : State) (q : Nat) : State :=
  if s.hbm.spilling.contains q then s else s.inHbm (fun h => { h with spilling := h.spilling ++ [q] })

/-- Leave the spilling state (R141). -/
def State.spillLeave (s : State) (q : Nat) : State :=
  if s.hbm.spilling.contains q && (tget [] s.hbm.spill q).isEmpty && decide (s.occ q < s.fld (tlSpillCtl (queueTile q)) 0 8 * 64) then
    s.inHbm (fun h => { h with spilling := h.spilling.filter (fun x => decide (x ≠ q)) })
  else s

end Sys2Proof.Machine
end

