-- ==== Sys2Proof/Machine/Hbm.lean ====
section
/-! DEFINITION. HBM reads, pairing, mirror copy and stack retirement (R143-R154). -/

namespace Sys2Proof.Machine

/-- UE_LIMIT and AUTO_RETIRE (R154). -/
def State.autoRetire (s : State) : Bool := s.bit hbmCtl 31

/-- An uncorrectable burst: counted; more than UE_LIMIT in a window of 1,024 ticks retire the stack (R152). The windows are the
aligned ones of R432: DESIGN CHOICE (log 250). -/
def State.stackUe (s : State) (h : Nat) : State :=
  let w := s.tick.loc.toNat / 1024 + 1
  let x := tget (0, 0) s.hbm.ueWin h
  let n := if x.2 = w then x.1 + 1 else 1
  let s1 := (s.cnt (hbmStkUeCnt h)).inHbm (fun y => { y with ueWin := tput (0, 0) y.ueWin h (n, w) })
  if s.fld hbmRetireCtl 0 8 < n ∧ s.autoRetire then s1.retireStack h else s1

/-- A slot's stack, pseudo-channel and number from its key. -/
def slotStack (q : Nat) : Nat := q / 2048
def slotPc (q : Nat) : Nat := q / 64 % 32

/-- Free a read slot; the oldest read that waits for one is issued. -/
def State.freeSlot (s : State) (q : Nat) : State :=
  let s1 := s.inHbm (fun h => { h with slots := tdel h.slots q })
  match s1.hbm.waitRd with
  | [] => s1
  | (la, k, job) :: r => (s1.inHbm (fun h => { h with waitRd := r })).slotIssue la k job

/-- The offset in its area that a read is of: a set of the directory or of the line store, a spill page, a record (R142-R144). -/
def RdSlot.offset (x : RdSlot) : Nat :=
  match x.job with
  | .line => Config.lsHash x.la % 25165824 * 1024
  | .spill _ page => page / 4 * 4096
  | .dir _ => Config.dirHash x.la % 2 ^ 25 * 256
  | .log i _ => i * 64

/-- The area of a read, as the events code it: 0 directory, 1 line store, 2 spill, 3 log: DESIGN CHOICE (log 250). -/
def RdJob.area : RdJob → Nat
  | .dir _ => 0
  | .line => 1
  | .spill _ _ => 2
  | .log _ _ => 3

/-- A poisoning (R147): its counter, an event-log record, and the event, which carries the area, and the
offset in it: DESIGN CHOICE (log 250). -/
def State.poisonLog (s : State) (q : Nat) (x : RdSlot) : State :=
  let h := slotStack q
  let vals := [EvVal.w h, .w (slotPc q), .w x.job.area, .q x.offset]
  let s1 := s.cnt (hbmStkPairPoisonCnt h)
  let s2 := s1.raiseLim 0x0701 h vals
  if s2.ev.seq = s1.ev.seq then s2.evLogPut ⟨0x0701, s.locked, s.ev.seq, s.mgmt.bootCount, s.tick.loc, s.tick.fab, vals⟩ else s2

/-- A message that a core station puts onto Mortar (R142, R155). -/
def State.sendFrom (s : State) (st : Nat) (m : TMsg) : State :=
  let k := st * 8 + m.m.cls.val
  s.inHbm (fun h => { h with sends := tput [] h.sends k (tget [] h.sends k ++ [m]) })

/-- The station of a pseudo-channel of a stack (R137). -/
def pcStation (h pc : Nat) : Nat := 40 + 2 * h + pc / 16

/-- A spill page has come back: its messages join the on-chip queue when their cells are free, and free the page; else they
stay (R141, R151). -/
def State.pageBack (s : State) (st q page : Nat) : State :=
  let ch := tget [] s.hbm.spill q
  let ms := (ch.filter (fun x => decide (x.1 = page))).map (·.2)
  (s.inHbm (fun h => { h with spill := tput [] h.spill q (ch.filter (fun x => decide (x.1 ≠ page))), queues := tput [] h.queues q (tget [] h.queues q ++ ms) })).each ms
    (fun m t => t.sendFrom st { m with egress := 1000 + queueStation q }) |>.spillLeave q

/-- Burst `b` of a directory set is lost: its two entries are (R143, R401). An entry's way is its place among those of its set. -/
def State.dirLose (s : State) (la b : Nat) : State :=
  s.entriesLost (s.sfOf (bucket la)) (Config.dirHash la % 16384) ((((s.hbmSet la).drop (2 * b)).take 2).map (·.1))

/-- A burst of a directory pair has come, or is lost: the slot is free when both are accounted for. -/
def State.dirPart (s : State) (q : Nat) (x : RdSlot) (half : Nat) : State :=
  let y : RdSlot := { x with halves := x.halves ||| half }
  if y.halves = 3 then (s.freeSlot q).emit (.dirData (slotStack q) x.la) else s.inHbm (fun z => { z with slots := tins z.slots q y })

/-- A line, a spill page or a commit-log record is poisoned (R147): POISON in the line's metadata, and the request completes with poison; of a page,
one message is discarded as aged: which one is a free value; the record reads as absent. -/
def State.pairPoison (s : State) (q : Nat) (x : RdSlot) : State :=
  let s0 := s.poisonLog q x
  match x.job with
  | .spill sq page =>
    let (n, s1) := (s0.freeSlot q).draw
    let ch := tget [] s1.hbm.spill sq
    let ms := ch.filter (fun y => decide (y.1 = page))
    match ms[n % ms.length]? with
    | some m => ((s1.inHbm (fun h => { h with spill := tput [] h.spill sq (ch.erase m) })).ageDrop sq [m.2]).pageBack (pcStation (slotStack q) (slotPc q)) sq page
    | none => s1
  | .dir _ => s0.freeSlot q
  | .log i m => ((s0.freeSlot q).logAbsent i).answerQuery m
  | .line =>
    let s1 := s0.inHome (fun y => { y with lines := y.lines.map (fun e => if e.1 = x.la then (e.1, { e.2 with poison := true }) else e) })
    let s2 := s1.freeSlot q
    match x.trk with
    | some k => let (n, s3) := s2.draw; s3.readArrived k (BitVec.ofNat 512 n) true
    | none => s2

/-- A read's data is delivered (R147): to its request, by the way hint or, when the hint is wrong, after a read of the whole set:
whether it is wrong is a free value (R144); or a spill page or a record comes back. -/
def State.deliver (s : State) (q : Nat) (x : RdSlot) : State :=
  let h := slotStack q
  let s1 := if x.attempt = 1 then s.cnt (hbmStkPairRetryOkCnt h) else s
  let s2 := s1.freeSlot q
  match x.job, x.trk with
  | .spill sq page, _ => s2.pageBack (pcStation h (slotPc q)) sq page
  | .dir _, _ => s2
  | .log _ m, _ => s2.answerQuery m
  | .line, none => s2
  | .line, some k =>
    match s2.lsLine x.la with
    | some l =>
      let (n, s3) := s2.draw
      let s4 := if n % 2 = 1 then (s3.cnt (hbmStkLsHintMissCnt h)).stkRead h 16 else s3
      (s4.emit (.hbmData h x.la)).readArrived k l.data l.poison
    | none => match tfind s2.home.trks k with
      | some t => (s2.issueRead k { t with rd := 0 } false).advance k
      | none => s2

/-- HBM_BURST_ARRIVAL: half `half` of a read's attempt arrives: good, corrected or uncorrectable (R147). An uncorrectable half of the
first attempt starts the hold and never pairs (log 93). Bursts of a directory set are each checked alone: one that fails when it is read
again loses its two entries (R143). -/
def execHbmBurstArrival (h : StackIx) (pc : Fin 32) (slot : Fin 64) (attempt half : Bool) (quality : Fin 3) (s : State) : Res :=
  let q := (h.val * 32 + pc.val) * 64 + slot.val
  match tfind s.hbm.slots q with
  | none => .next s
  | some x =>
    if x.attempt ≠ b2n attempt then .next s
    else if quality = 2 then
      let s1 := s.stackUe h
      match tfind s1.hbm.slots q with
      | some y => .next (if attempt then (match y.job with
          | .dir k => (s1.dirLose y.la (2 * k + b2n half)).dirPart q y (if half then 2 else 1)
          | _ => s1.pairPoison q y) else s1.inHbm (fun z => { z with slots := tins z.slots q { y with bad := true } }))
      | none => .next s1
    else
      let s1 := if quality = 1 then s.cnt64 (hbmStkCeCnt h) else s
      let y : RdSlot := { x with halves := x.halves ||| (if half then 2 else 1) }
      if x.job.isDir then .next (s1.dirPart q x (if half then 2 else 1))
      else if y.halves = 3 then .next (s1.deliver q y)
      else .next (s1.inHbm (fun z => { z with slots := tins z.slots q y }))

/-- PAIRING_HOLD_EXPIRY: a lone half has waited HOLD_CYCLES: the read is retried once, then poisoned; an undone read is
dropped (R147, R148). A directory burst that has not come within HOLD_CYCLES is read once more, alone; when it fails again its two
entries are lost (R143). -/
def execPairingHoldExpiry (h : StackIx) (pc : Fin 32) (slot : Fin 64) (s : State) : Res :=
  let q := (h.val * 32 + pc.val) * 64 + slot.val
  match tfind s.hbm.slots q with
  | none => .next s
  | some x =>
    match x.job with
    | .dir k =>
      if x.attempt = 0 then .next (((s.inHbm (fun z => { z with slots := tins z.slots q { x with attempt := 1 } })).stkRead h 1).slotAsk x.la x.job)
      else .next (((List.range 2).filter (fun b => !nbit x.halves b)).foldl (fun t b => t.dirLose x.la (2 * k + b)) s |>.dirPart q x 3)
    | _ =>
    if x.halves ≠ 1 ∧ x.halves ≠ 2 ∧ !(x.bad && decide (x.attempt = 0)) then .next s
    else
      let s1 := s.cnt (hbmStkUnpairedCnt h)
      if x.attempt = 0 then
        if x.trk.isNone && decide (x.job = .line) then .next (s1.freeSlot q)
        else .next (((s1.inHbm (fun z => { z with slots := tins z.slots q { x with attempt := 1, halves := 0 } })).stkRead h 1).slotAsk x.la x.job)
      else .next (s1.pairPoison q x)

/-- HBM_STACK_RETIRE (R6, R152). -/
def execHbmStackRetire (h : StackIx) (s : State) : Res := .next (s.retireStack h)

/-- PSEUDO_CHANNEL_RETRAIN_FAIL: retires the stack when AUTO_RETIRE = 1 (R152). -/
def execPseudoChannelRetrainFail (h : StackIx) (pc : Fin 32) (s : State) : Res :=
  if s.present 8 h && s.autoRetire then .next (s.retireStack h)
  else if s.present 8 h then .next (s.raise 0x0703 [.w h, .w pc, .w 0, .q 0])
  else .next s

/-- MIRROR_COPY_UNIT: one unit of 1 MiB per tick, 576 in all (R29, R152). -/
def execMirrorCopyUnit (s : State) : Res :=
  match s.hbm.mirror with
  | some n =>
    if n < 576 ∧ !s.tick.guardDone ∧ s.hbm.mirAt ≠ some s.tick.loc then
      .next (((s.inHbm (fun h => { h with mirror := some (n + 1), mirAt := some s.tick.loc })).stkRead (s.fld hbmStatus 12 2) 16384).stkWrite (s.fld hbmStatus 8 2) 16384)
    else .next s
  | none => .next s

/-- A unit of a line with a shadow way, or whose entry is held, is not written back by the scrub (R146). -/
def State.scrubHeld (s : State) (la : Nat) : Bool :=
  s.home.shadow.any (fun e => decide (e.1 = la)) || (match s.ent la with | some e => e.hold | none => false)

/-- The scrub writes a unit back, corrected (R146, R154). -/
def State.scrubBack (s : State) (h pc area addr : Nat) : State := (s.stkWrite h).emit (.scrubWrite h pc area addr)

/-- At the edge after the last unit MIRROR_VALID is set (R152). -/
def State.hbmEdge (s : State) : State :=
  let go := s.hbm.ceWait.filter (fun x => !s.scrubHeld x.1)
  let s := (s.inHbm (fun h => { h with ceWait := h.ceWait.filter (fun x => s.scrubHeld x.1) })).each go (fun x t => t.scrubBack x.2.1 x.2.2.1 x.2.2.2.1 x.2.2.2.2)
  if s.hbm.mirror = some 576 then (s.inHbm (fun h => { h with mirror := none })).setBit hbmStatus 7 true else s

/-- DEVICE_WRITE_COMPLETE: the device has taken a line: absorbed data is released, writes that waited complete (R74). -/
def execDeviceWriteComplete (la : Nat) (s : State) : Res := .next (((s.devWrDone la).acked la 2).kickReads (s.laBank la))

end Sys2Proof.Machine
end

