-- ==== Sys2Proof/Machine/LinkBase.lean ====
section
/-! DEFINITION. Ports up, the transmitter of a fabric link: lanes, codewords, periods, flits, replay buffer; its credits and the
entry into its byte stream (R40, R221-R228, R231, R234, R237, R238, R243, R246). -/

namespace Sys2Proof.Machine

def State.link (s : State) (p : Nat) : LinkS := tget {} s.lnk.links p
def State.setLink (s : State) (p : Nat) (x : LinkS) : State := { s with lnk := { s.lnk with links := tput {} s.lnk.links p x } }

/-- PT_FL_STATUS.STATE, PT_CX_STATUS.STATE. -/
def State.flState (s : State) (p : Nat) : Nat := s.fld (ptFlStatus p) 29 3
def State.cxState (s : State) (p : Nat) : Nat := s.fld (ptCxStatus p) 29 3

/-! ### Bodies of fabric messages (R229) -/

/-- CREQ: HEV, RIGHTS, SLICE; LINE_OFF; MASK; the data of a WB or NCW. -/
def creqBody (hev : Nat) (rights : BitVec 2) (slice : Nat) (off : BitVec 22) (mask : BitVec 64) (data : List Byte) : List Byte :=
  toLe 4 (hev * 2 ^ 28 + rights.toNat * 2 ^ 26 + slice) ++ toLe 4 off.toNat ++ toLe 8 mask.toNat ++ data

def lineBytes (d : Option Line) : List Byte := match d with | some x => toLe 64 x.toNat | none => []

/-- CRSP: STATUS, REASON, GRANT; the data of a read. -/
def crspBody (status reason grant : Nat) (d : Option Line) : List Byte := toLe 8 (status + reason * 2 ^ 8 + grant * 2 ^ 12) ++ lineBytes d

/-- SNP: SLICE, LINE_OFF, HOME; SNPTYPE, whose word the rule does not name, stands in the last one: DESIGN CHOICE (log 263). -/
def snpBody (type slice off home : Nat) : List Byte := toLe 4 slice ++ toLe 4 off ++ toLe 4 home ++ toLe 4 type

/-- SNPRSP: RSP; the data that comes with it. -/
def snprspBody (rsp : Nat) (d : Option Line) : List Byte := toLe 8 rsp ++ lineBytes d

/-- The port's link is up and the port is live (R40, R246, R248): L0, L0-quiet, L1-sleep or the exit from it; for CXL L0 or RECOVERY. -/
def State.portUp (s : State) (p : Nat) : Bool :=
  s.present 2 p &&
  (if s.pmode p = 3 then [4, 5, 6].contains (s.flState p) || decide ((s.link p).slp = 4)
   else if s.pmode p = 0 then false
   else [2, 3].contains (s.cxState (s.linkOf p)))

def State.cxp (s : State) (p : Nat) : CxPort := tget {} s.cxl.ports p
def State.setCxp (s : State) (p : Nat) (x : CxPort) : State := { s with cxl := { s.cxl with ports := tput {} s.cxl.ports p x } }

/-- A word of a vCS's MSI-X table: 16 B an entry, its vector control word last, whose bit 0 masks it and is 1 at reset: PRESUMED, the
family's (log 265). -/
def State.msixWord (s : State) (v w : Nat) : Word := tget (if w % 4 = 3 then 1#32 else 0) s.cxl.msix (v * 8192 + w)
def State.msixMasked (s : State) (v n : Nat) : Bool := nbit (s.msixWord v (4 * n + 3)).toNat 0

/-- A vector that is unmasked while its pending bit is set is sent. -/
def State.msixKick (s : State) (v n : Nat) : State :=
  if tget false s.cxl.pba (v * 2048 + n) && !s.msixMasked v n then
    ({ s with cxl := { s.cxl with pba := tput false s.cxl.pba (v * 2048 + n) false } }).emit (.hostIrq v n)
  else s

def State.msixPut (s : State) (v w : Nat) (x : Word) : State :=
  ({ s with cxl := { s.cxl with msix := tput (if w % 4 = 3 then 1#32 else 0) s.cxl.msix (v * 8192 + w) x } }).msixKick v (w / 4)

/-- The MSI-X table and pending bits of a vCS's upstream port function as after its reset. -/
def State.fnReset (s : State) (v : Nat) : State :=
  { s with cxl := { s.cxl with msix := s.cxl.msix.filter (fun e => decide (e.1 / 8192 ≠ v)), pba := s.cxl.pba.filter (fun e => decide (e.1 / 2048 ≠ v)) } }

/-- PT_CX_STATUS.FLIT: 0 non-flit, 1 68 B, 2 256 B. -/
def State.flit (s : State) (p : Nat) : Nat := s.fld (ptCxStatus p) 19 2

/-- A port's link carries messages of a type (R256, R259, R260): CXL.mem and CXL.cache need a flit mode and the protocol negotiated,
back-invalidates 256 B flits; CXL.io and everything on a fabric link is carried. -/
def State.carries (s : State) (p : Nat) (t : MsgType) : Bool :=
  let n := s.linkOf p
  if s.pmode p = 3 then true
  else match t with
    | .memRead | .memWrite | .memRsp => s.bit (ptCxStatus n) 17 && decide (s.flit n ≠ 0)
    | .backInv => s.bit (ptCxStatus n) 17 && decide (s.flit n = 2)
    | .cacheReq | .cacheRsp => s.bit (ptCxStatus n) 18 && decide (s.flit n ≠ 0)
    | _ => true

/-- Buffers that a message occupies (R228). -/
def bufCount (len : Nat) : Nat := ceilDiv (16 + len) 112

/-- DATA flits sent and not acknowledged (R234). -/
def LinkS.unacked (l : LinkS) : Nat := (l.txSeq + 4096 - l.una) % 4096

/-! ### The transmitter (R221-R227, R231, R234, R243, R246) -/

/-- A lane sends bits: its symbols, and the lane after them (R221, R223, R224). -/
def TxLane.send (x : TxLane) (bits : List Bool) : List Nat × TxLane :=
  let z := scramble x.scr bits
  let y := stuffSyms x.level x.run (levels z.1)
  (y.1, { scr := z.2, level := y.2.1, run := y.2.2.1, stuff := x.stuff + y.2.2.2 })

/-- The lanes at the start of a period (R223, R224). -/
def txLanes (period : Nat) : List TxLane := (List.range 4).map (fun g => { scr := scrLoad g period })

/-- A period begins: the number after the one that ends; a lane that the far end has asked to see on the spare is mirrored from here
on (R223, R243). -/
def LinkS.newPeriod (l : LinkS) (period : Nat) : LinkS :=
  { l with tx := { l.tx with period := period % 65536, cw := 0, lanes := txLanes (period % 65536), mirror := (if l.tsp = 1 then some l.tspLane else none) } }

/-- A flit whose header shows what this end has received. -/
def LinkS.flit (l : LinkS) (ft seq start ctype : Nat) (nak : Bool) (pay : List Byte) : List Byte :=
  flitBytes ft seq ((l.rxSeq + 4095) % 4096) l.ackV nak start ctype pay

/-- The five flits of a codeword; IDLE flits fill it up (R227). -/
def LinkS.five (l : LinkS) (flits : List (List Byte)) : List (List Byte) := (flits ++ List.replicate 5 (l.flit 0 0 0 0 false [])).take 5

/-- What the four lanes send of a codeword, and the lanes after it (R222). -/
def LinkS.encode (l : LinkS) (quiet : Bool) (flits : List (List Byte)) : List (List Nat × TxLane) :=
  let m := cwSymbols (cff l.tx.cw quiet) flits
  let cw := m ++ rsParity m
  (List.range 4).map (fun g => (l.tx.lanes.getD g {}).send (laneBits cw g))

/-- The marker blocks of a period of `n` codewords (R225). -/
def LinkS.markerBlocks (l : LinkS) (lanes : List TxLane) (n : Nat) : List (List Nat) :=
  (lanes.zip (List.range 4)).map (fun x => markerBlock x.2 l.tx.period n x.1.stuff)

/-- Send one codeword; after the 256th, and after one in which a lane's stuff symbols reach 4, the period ends (R222, R225). Codewords of
IDLE flits alone, which a link sends all the time, are sent here only where a rule asks for one (log 253). -/
def State.sendCw (s : State) (p : Nat) (quiet : Bool) (flits : List (List Byte)) : State :=
  let l := s.link p
  let fl := l.five flits
  let e := l.encode quiet fl
  let lanes := e.map (·.2)
  let out := e.map (·.1)
  let n := lanes.foldl (fun a x => a + x.stuff) 0 - l.tx.lanes.foldl (fun a x => a + x.stuff) 0
  let o := Out.codeword p l.tx.period l.tx.cw fl (match l.tx.mirror with | some g => out ++ [out.getD g []] | none => out)
  let l1 : LinkS := { l with stuffs := l.stuffs + n, tx := { l.tx with cw := l.tx.cw + 1, lanes := lanes } }
  if l.tx.cw + 1 = 256 ∨ lanes.any (fun x => decide (4 ≤ x.stuff)) then
    ((s.setLink p (l1.newPeriod (l.tx.period + 1))).emit o).emit (.markers p l.tx.period (l.markerBlocks lanes (l.tx.cw + 1)))
  else (s.setLink p l1).emit o

/-- Leave L0-quiet: one IDLE codeword that is not marked goes before any that carries a DATA or control flit, or an answer that the far
end must decode (R246). -/
def State.quietExit (s : State) (p : Nat) : State := if s.flState p = 5 then (s.sendCw p false []).setFld (ptFlStatus p) 29 3 4 else s

/-- Send flits, five to a codeword. -/
def State.sendFlits (s : State) (p : Nat) (fl : List (List Byte)) : State :=
  s.each (List.range (ceilDiv fl.length 5)) (fun i t => t.sendCw p false ((fl.drop (5 * i)).take 5))

/-- Send a control flit as flit 0 of a codeword, in a number of consecutive codewords (R231). -/
def State.ctl (s : State) (p ctype : Nat) (vals : List Nat) (n : Nat := 1) : State :=
  ((s.quietExit p).emit (.ctlFlit p ctype vals)).each (List.range n) (fun _ t => t.sendCw p false [(t.link p).flit 2 0 0 ctype false (ctlPayload ctype vals)])

/-- Answer with ACK_SEQ, and NAK (R235). -/
def State.linkAnswer (s : State) (p : Nat) (nak : Bool) : State :=
  let t := s.quietExit p
  (t.emit (.ackNak p (((s.link p).rxSeq + 4095) % 4096) nak)).sendCw p false [(t.link p).flit 0 0 0 0 nak []]

/-- START of a flit that carries the stream's bytes from an offset on (R227). -/
def startAt (hds : List Nat) (o : Nat) : Nat := match hds.find? (fun h => decide (o ≤ h) && decide (h < o + 112)) with | some h => h - o | none => 0x7F

/-- The DATA flits that take the stream's first bytes: SEQ, START, payload. A flit that the stream does not fill goes padded with zeros:
nothing else is ready (DESIGN CHOICE, log 253). -/
def LinkS.nextFlits (l : LinkS) (n : Nat) : List (Nat × Nat × List Byte) :=
  (List.range n).map (fun i => ((l.txSeq + i) % 4096, startAt l.tx.hds (112 * i), (l.tx.str.drop (112 * i)).take 112))

/-- The DATA flit of an entry of the replay buffer. -/
def LinkS.dataFlit (l : LinkS) (x : Nat × Nat × List Byte) : List Byte := l.flit 1 x.1 x.2.1 0 false x.2.2

/-- The stream goes into DATA flits while fewer than 4,095 are unacknowledged, and they are sent (R227, R234). -/
def State.pump (s : State) (p : Nat) : State :=
  let l := s.link p
  let n := min (ceilDiv l.tx.str.length 112) (4095 - l.unacked)
  if n = 0 then s
  else
    let fl := l.nextFlits n
    let l1 : LinkS := { l with
      txSeq := (l.txSeq + n) % 4096, busyAt := s.tick.loc, dataAt := s.tick.loc, ackAt := (if l.unacked = 0 then s.tick.loc else l.ackAt)
      tx := { l.tx with str := l.tx.str.drop (112 * n), hds := (l.tx.hds.filter (fun h => decide (112 * n ≤ h))).map (· - 112 * n), buf := l.tx.buf ++ fl } }
    (((s.setLink p l1).cnt64 (ptFlTxFlitCnt p) n).bwAdd p 0 (128 * n)).sendFlits p (fl.map l.dataFlit)

/-- Charge a message's buffers and enter it into the byte stream (R238); none while credits lack. A message leaves L0-quiet (R246). -/
def State.linkSend (s : State) (p cls : Nat) (b : List Byte) : Option State :=
  if s.flState p ≠ 4 ∧ s.flState p ≠ 5 then none
  else
    let n := bufCount (b.length - 16)
    let r := min n (s.nreg (ptFlCreditRsv p cls))
    let shn := n - r
    if s.nreg (ptFlCreditSh p) < shn then none
    else
      let s1 := ((s.setN (ptFlCreditRsv p cls) (s.nreg (ptFlCreditRsv p cls) - r)).setN (ptFlCreditSh p) (s.nreg (ptFlCreditSh p) - shn)).quietExit p
      let l := s1.link p
      let l1 : LinkS := { l with
        out := l.out ++ [(l.txSeq + ceilDiv (l.tx.str.length + b.length) 112) % 4096]
        tx := { l.tx with hds := l.tx.hds ++ [l.tx.str.length], str := l.tx.str ++ setShn b shn } }
      some (((s1.setLink p l1).emit (.linkTx p cls (b.length - 16) shn)).pump p)

/-! ### Credits -/

/-- RSV of a class in PT_FL_RSV0 and PT_FL_RSV1 (R237). -/
def State.ownRsv (s : State) (p c : Nat) : Nat :=
  let v := s.fld (if c < 4 then ptFlRsv0 p else ptFlRsv1 p) (8 * (c % 4)) 8
  if 8 ≤ v ∧ v ≤ 64 then v else 32

/-- Send a CREDIT flit with the running totals (R238). -/
def State.sendCredit (s : State) (p : Nat) : State :=
  let l := s.link p
  (s.setLink p { l with unrep := 0 }).ctl p 2 ((List.range 9).map (fun c => tget 0 l.retOut c))

/-- Free the receive buffers of the oldest message of a class; 16 freed buffers send a CREDIT (R238). -/
def State.linkFree (s : State) (p cls : Nat) : State :=
  let l := s.link p
  match l.rx.find? (fun x => decide (x.1 = cls)) with
  | none => s
  | some (c, n, shn) =>
    let add := fun (t : Tab Nat) (k v : Nat) => tput 0 t k ((tget 0 t k + v) % 65536)
    let l1 : LinkS := { l with rx := l.rx.erase (c, n, shn), retOut := add (add l.retOut c (n - shn)) 8 shn, unrep := l.unrep + n }
    let s1 := s.setLink p l1
    if 16 ≤ l1.unrep then s1.sendCredit p else s1

end Sys2Proof.Machine
end

