-- ==== Sys2Proof/Machine/Tiles.lean ====
section
/-! DEFINITION. Tiles: routing, shaping, buffers and spill, Mortar grants, egress service (R39-R43, R135-R142,
R155-R166). -/

namespace Sys2Proof.Machine

def State.inQos (s : State) (f : QosS → QosS) : State := { s with qos := f s.qos }

/-! ### Flows and the shaper (R158-R163) -/

/-- Codes 4 and 5 form flow class 4. -/
def fcOf (c : Nat) : Nat := if c = 5 then 4 else c
def flowKey (t fc src : Nat) : Nat := t * 2 ^ 21 + fc * 2 ^ 18 + src

/-- The floors of R159. -/
def pirFloor (fc pir : Nat) : Nat := if fc = 0 ∨ fc = 4 then max 64 pir else pir

/-- A tile's default flow of a flow class, with the parameters of TL_QOS_DEF. -/
def State.defFlow (s : State) (t fc : Nat) : Flow :=
  let f := tget {} s.qos.defs (t * 8 + fc)
  let cbs := max 4096 (s.fld (tlQosDefCbs t fc) 0 24)
  { f with cir := s.fld (tlQosDefCir t fc) 0 24, pir := pirFloor fc (s.fld (tlQosDefPir t fc) 0 24), cbs := cbs,
           pbs := max cbs (s.fld (tlQosDefPbs t fc) 0 24) }

/-- Store a default flow: only what its registers do not hold. -/
def State.setDef (s : State) (t fc : Nat) (f : Flow) : State :=
  s.inQos (fun q => { q with defs := tput {} q.defs (t * 8 + fc) { f with cir := 0, pir := 0, cbs := 0, pbs := 0 } })

/-- The flow that a source's messages are charged to: its programmed flow, else the default flow (R158). -/
def State.flowOf (s : State) (t fc src : Nat) : Flow := (tfind s.qos.flows (flowKey t fc src)).getD (s.defFlow t fc)
def State.setFlowOf (s : State) (t fc src : Nat) (f : Flow) : State :=
  if (tfind s.qos.flows (flowKey t fc src)).isSome then s.inQos (fun q => { q with flows := tins q.flows (flowKey t fc src) f })
  else s.setDef t fc f

/-- TL_QOS_STATUS.MODE. -/
def State.wheel (s : State) (t : Nat) : Bool := s.bit (tlQosStatus t) 31

/-- GLB_TICK_LOCAL in 1/65,536 ticks. -/
def State.now16 (s : State) : Nat := s.tick.loc.toNat * 65536
/-- τ of R163. -/
def Flow.tau (f : Flow) : Nat := min (f.pbs * 65536 / f.pir) (4096 * 65536)

/-- Test a charge: 0 green, 1 yellow, 2 red, and the flow afterwards (R160, R163). -/
def shaperTest (wheel : Bool) (now : Nat) (f : Flow) (c : Nat) : Nat × Flow :=
  if wheel then
    if f.pir = 0 then (2, f)
    else if f.next ≤ now + f.tau then (0, { f with next := max f.next now + c * 65536 / f.pir })
    else (2, f)
  else if f.pbs < f.dp + c then (2, f)
  else if f.dc + c ≤ f.cbs then (0, { f with dp := f.dp + c, dc := f.dc + c })
  else (1, { f with dp := f.dp + c })

/-- Count a charge under its colour. -/
def State.countColour (s : State) (t fc col c : Nat) : State :=
  s.cnt64 (if col = 0 then tlQosCntGreen t fc else if col = 1 then tlQosCntYellow t fc else tlQosCntRed t fc) c

/-! ### Buffers: arrival (R140-R142) -/

/-- Put a message at the tail of a queue, its cells being there. -/
def State.pushQueue (s : State) (q : Nat) (m : TMsg) : State := s.setQueue q (s.queue q ++ [m])

/-- The shared cells of a buffer have fallen below LOW_FREE: its droppable queues spill, those that would not leave at once (R141). -/
def State.spillScan (s : State) (q : Nat) : State :=
  let c := tlSpillCtl (queueTile q)
  if s.sharedFree q < s.fld c 16 16 ∧ s.logOn then
    s.each ((bufQueues q).filter (fun k => droppable (k % 8) && decide (s.fld c 0 8 * 64 ≤ s.occ k))) (fun k t => t.markSpill k)
  else s

/-- A message arrives at a queue: on chip, in spill, or discarded for its yellow mark; false when it is not accepted
(R140-R142, R162). -/
def State.enqueue (s : State) (q : Nat) (m : TMsg) : State × Bool :=
  let t := queueTile q
  if s.spillDue q then
    if !s.logOn then (s, false)
    else
      let s1 := s.markSpill q
      if m.yellow then (s1.cnt (tlQosCntDrop t (fcOf (q % 8))), true)
      else match s1.tailPage q m.cells with
        | some pg =>
          let s2 := (s1.inHbm (fun h => { h with spill := tput [] h.spill q (tget [] h.spill q ++ [(pg, m)]) })).cnt64 (tlSpillCnt t) |>.tpmc (queuePort q) 0x08 1 { cls := some m.m.cls.val }
          -- the write travels on Mortar in the message's class (R142)
          ((s2.stkWrite (pg % 4) m.cells).sendFrom (portStation (queuePort q)) { m with egress := 1000 + pcStation (pg % 4) (areaPc (pg / 4 * 4096)) }, true)
        | none => ((s1.setBit (tlBufStatus t) 31 true).raiseLim 0x0704 t [], false)
  else if s.cellFit q m.cells then
    let s1 := s.pushQueue q m
    ((if s1.spillDue q && s1.logOn then s1.markSpill q else s1).spillScan q, true)
  else (s, false)

/-! ### Routing (R39-R44) -/

/-- The live members of a port set, in order (R40). A COUNT of 9 to 15 acts as 8: DESIGN CHOICE (log 248). -/
def State.liveMembers (s : State) (t k : Nat) : List Nat :=
  let n := s.fld (tlPortsetCount t k) 0 4
  let bad := tget 0 s.bind.demoted (t * 256 + k)
  (((List.range 8).filter (fun j => decide (j < n) && !nbit bad j)).map (fun j => s.fld (tlPortset t k + 4 * (j / 4)) (8 * (j % 4)) 8)).filter
    (fun p => decide (p < 192) && s.portUp p)

/-- pick() of R40. -/
def State.pick (s : State) (t k src dst : Nat) : Option Nat :=
  let l := s.liveMembers t k
  let x := src ^^^ dst
  let h := (x ^^^ (x / 64) ^^^ (x / 4096)) % 64
  if l.isEmpty then none else l[h % l.length]?

/-- The lookup of R39: an egress port, or (none inside) this module. DESIGN CHOICE (log 248): of a MODE 2 entry's TARGET the low
6 bits name the member block, and a KIND 0 entry's PORT is taken as the egress number even when no such port exists. -/
def State.lookup (s : State) (t src dst : Nat) : Option (Option Nat) :=
  let g := s.reg (tlGroupRt t (dst / 256))
  if !s.bit (tlRouteCtl t) 31 then none
  else if bits g 30 2 = 1 then (s.pick t (bits g 0 8) src dst).map some
  else if bits g 30 2 = 2 then
    let m := s.reg (tlMemberRt t (bits g 0 6) + 4 * (dst % 256))
    if bits m 31 1 = 0 then none
    else if bits m 29 2 = 0 then some (some (bits m 16 8))
    else if bits m 29 2 = 1 then (s.pick t (bits m 16 8) src dst).map some
    else if bits m 29 2 = 2 then some none
    else none
  else none

/-- A route miss at a tile, its count and its event (R41); all that becomes of traffic of a logical device without an edge ID (R43). The event's destination is the ID that missed; for traffic of a logical device without an edge ID
the module's own ID, and for a port-based ID without an entry the 12-bit ID: DESIGN CHOICE (log 248). -/
def State.missOf (s : State) (p dst : Nat) (m : NetMsg) : State :=
  let t := p / 16
  (((s.tpmc p 0x05 1 { cls := some m.cls.val, fid := some m.src.val }).cnt (tlRouteMissCnt t)).raiseLim 0x0140 t [.w dst]).latAbort (fun g => decide (g.id = m.id))

/-- A route miss of a message, with the completion that it expects (R41). -/
def State.routeMiss (s : State) (p dst : Nat) (m : NetMsg) : State := (s.missOf p dst m).errReply m 0

/-- The vCS whose window a CXL port's source addresses: its own as a host, or that of its vPPB (R55, R267). -/
def State.vcsOf (s : State) (p fid : Nat) : Option Nat :=
  match s.vcsOfHost fid with
  | some (v, _) => some v
  | none => (s.cxl.vppb.find? (fun e => decide (e.2 = p))).map (fun e => e.1 / 16)

/-- Where a message goes: its destination ID, its line when its home is known, and the station when it stays within the
module by its address. -/
structure Dest where
  dst     : Nat
  la      : Option Nat := none
  station : Option Nat := none
  /-- the line, and whether the access writes, of a request in a vCS window whose home is another module (R241) -/
  rem     : Option (Nat × Bool) := none

/-- A home of this module: the station of a line's bank. -/
def State.homeDest (s : State) (slice off : Nat) : Dest :=
  let la := slice * 2 ^ 22 + off / 64
  { dst := s.moduleFid, la := some la, station := some (24 + s.laBank la) }

/-- Where the pieces of an extent begin: its first byte and each multiple of 64 B in it. No boundary of a window, of a decoder's
interleave or of a slice lies within a piece. -/
def pieces (addr len : Nat) : List Nat :=
  addr :: ((List.range (len / 64 + 2)).map (fun k => (addr / 64 + 1 + k) * 64)).filter (fun a => decide (a < addr + len))

/-- A part of an access: the map entry, the window offset of its first byte, and that byte's place in the extent (R59). -/
structure Piece where
  ent : HEnt
  off : Nat
  at0 : Nat

/-- The origin checks of an extent, every byte of it (R57): the first failing byte's reason and what it reports, or the parts that
lie in one slice each (R59). -/
def State.originExtent (s : State) (v : Nat) (addr : Nat) (write : Bool) : List Nat → List Piece → (Nat × Nat) ⊕ List Piece
  | [], acc => .inr acc
  | a :: r, acc =>
    match s.originByte v a write with
    | .inl e => .inl e
    | .inr (e, o) =>
      match acc.getLast? with
      | some y => s.originExtent v addr write r (if y.off / 2 ^ 28 = o / 2 ^ 28 then acc else acc ++ [⟨e, o, a - addr⟩])
      | none => s.originExtent v addr write r [⟨e, o, a - addr⟩]

/-- The message of a part: a write carries the part's bytes; toward a remote home it names the slice and the slice offset (R56). -/
def partMsg (m : NetMsg) (write : Bool) (total : Nat) (ps : List Piece) (i : Nat) (y : Piece) : NetMsg :=
  let stop := match ps[i + 1]? with | some z => z.at0 | none => total
  let m1 : NetMsg := if 1 < ps.length ∧ write then { m with bytes := stop - y.at0 } else m
  match y.ent.remote with
  | some f => { m1 with dst := .home (Fin.ofNat 262144 f) (Fin.ofNat 262144 y.ent.slice) (BitVec.ofNat 28 (y.off % 2 ^ 28)) write }
  | none => m1

/-- An access to BAR0 of a vCS's upstream port function (R266). The hamper port and the instance window take theirs as HAMPER_PORT and
INSTANCE_WINDOW commands. Reserved offsets, and what an access spans beyond a table, read 0 and discard writes. -/
def State.barAccess (s : State) (p v : Nat) (m : NetMsg) (off : Nat) (write : Bool) (len : Nat) : State :=
  if off < 0x40000 ∨ 0x400000 ≤ off then s.emit (.barAccess v off m)
  else if write then
    if 0x40000 ≤ off ∧ off < 0x48000 ∧ off % 4 = 0 ∧ len % 4 = 0 then
      s.each ((List.range (len / 4)).filter (fun k => decide ((off - 0x40000) / 4 + k < 8192))) (fun k t =>
        t.msixPut v ((off - 0x40000) / 4 + k) (BitVec.ofNat 32 (leAt m.body (4 * k) 4)))
    else s
  else s.emit (.barRead p m.id ((List.range len).map (fun k =>
    let o := off + k
    if o < 0x48000 then BitVec.ofNat 8 ((s.msixWord v ((o - 0x40000) / 4)).toNat / 256 ^ (o % 4))
    else if o < 0x48100 then BitVec.ofNat 8 ((List.range 8).foldl (fun a j => a + b2n (tget false s.cxl.pba (v * 2048 + 8 * (o - 0x48000) + j)) * 2 ^ j) 0)
    else 0)))

/-- A configuration request of a vCS's host: below a bound vPPB it goes to the port of the device, unless a posted request stays ahead;
to the vPPB itself it shows the link up and the slot occupied, neither of them when it is unbound, and nothing is below it (R267). -/
def State.vppbConfig (s : State) (p v : Nat) (m : NetMsg) (k : Nat) (below : Bool) : State ⊕ Dest :=
  match tfind s.cxl.vppb (v * 16 + k), below with
  | some q, true => match s.edgeFid q 0 with
    | some f => .inr { dst := f }
    | none => .inl (s.errReply m 3)
  | some q, false => .inl (s.emit (.barRead p m.id [BitVec.ofNat 8 (b2n (decide (s.cxState q = 2)) + 2 * b2n (s.bit (ptCxHpStatus q) 28))]))
  | none, true => .inl (s.errReply m 3)
  | none, false => .inl (s.emit (.barRead p m.id [0]))

/-- The vCS whose upstream port a port is. -/
def State.vcsAt (s : State) (p : Nat) : Option Nat := (s.bind.vcs.find? (fun e => decide (e.2.usp = p))).map (·.1)

/-- Destinations of a message and of its parts (R43, R56, R57, R59, R267), or what is left when it has none: a route miss, a port-based
ID without an entry, a decode failure, an access to BAR0 or to a vPPB. -/
def State.destOf (s : State) (p src : Nat) (m : NetMsg) : State ⊕ List (Dest × NetMsg) :=
  let t := p / 16
  match m.dst with
  | .fid f => .inr [({ dst := f }, m)]
  | .home f slice off _ => .inr [(if f.val = s.moduleFid then s.homeDest slice off.toNat else { dst := f }, m)]
  | .pbr x =>
    if s.bit (tlPbrXlate t x.toNat) 31 then .inr [({ dst := s.fld (tlPbrXlate t x.toNat) 0 18 }, m)]
    else .inl (s.routeMiss p x.toNat m)
  | .bar off write len =>
    .inl (match s.vcsAt p with
      | some v => s.barAccess p v m off.toNat write len
      | none => s.errReply m 3)
  | .vppb k below =>
    (match s.vcsAt p with
      | some v => (match s.vppbConfig p v m k below with
        | .inl x => .inl x
        | .inr d => .inr [(d, m)])
      | none => .inl (s.errReply m 3))
  | .window addr write len =>
    let fail := fun (r o : Nat) => (s.originFail (some p) src r o).errReply m 3
    match s.vcsOf p src with
    | none => .inl (fail 0 addr.toNat)
    | some v =>
      match s.originExtent v addr.toNat write (pieces addr.toNat len) [] with
      | .inl (r, o) => .inl (fail r o)
      | .inr ps => .inr ((ps.zip (List.range ps.length)).map (fun x =>
          let m1 := partMsg m write len ps x.2 x.1
          match x.1.ent.remote with
          | some f => ({ dst := f, rem := some (x.1.ent.slice * 2 ^ 22 + x.1.off % 2 ^ 28 / 64, write) }, m1)
          | none => (s.homeDest x.1.ent.slice (x.1.off % 2 ^ 28), m1)))

/-- The egress of a destination: a port, or 1,000 + the station of a unit of this module. -/
def State.egressOf (s : State) (t src : Nat) (d : Dest) (m : NetMsg) : Option Nat :=
  match d.station with
  | some x => some (1000 + x)
  | none => (s.lookup t src d.dst).map (fun r => match r with | some p => p | none => 1000 + m.unit.val)

/-! ### Latency tagging (R382) -/

/-- One step of the LFSR x^23 + x^18 + 1. -/
def lfsrNext (x : Nat) : Nat := (x * 2 + (x / 2 ^ 22 + x / 2 ^ 17) % 2) % 2 ^ 23
def State.lfsrOf (s : State) (t : Nat) : Nat := let v := tget 0 s.tel.lfsr t; if v = 0 then 1 else v

/-- Tag a request of class 0 or 5 that a tile has accepted. -/
def State.tagRequest (s : State) (p : Nat) (m : TMsg) (la : Option Nat) (remote : Bool) : State :=
  let t := p / 16
  if m.m.cls.val ≠ 0 ∧ m.m.cls.val ≠ 5 then s
  else
    let x := lfsrNext (s.lfsrOf t)
    let s1 := { s with tel := { s.tel with lfsr := tput 0 s.tel.lfsr t x } }
    let k0 := s.fld telLatCtl 23 5
    let k := if k0 < 4 then 4 else min k0 22
    if k0 = 0 ∨ x % 2 ^ k ≠ 0 then s1
    else if 16 ≤ (s1.tel.tags.filter (fun g => decide (g.tile = t))).length then s1.cnt telLatSkipCnt
    else
      let g : LatTag := { id := m.m.id, tile := t, port := p, cls := m.m.cls, fid := m.src, slice := (match la with | some a => laSlice a | none => 0), la := la, tick0 := s.tick.loc, flags := (if remote then 64 else 0), bank := (match la with | some a => s.laBank a | none => 0) }
      ({ s1 with tel := { s1.tel with tags := s1.tel.tags ++ [g] } }).latStage (fun y => decide (y.id = m.m.id)) 0

/-! ### Acceptance -/

/-- A request toward a remote home carries the tag that its response is matched by (R228, R241). -/
def State.tagRemote (s : State) (d : Dest) (m : NetMsg) : NetMsg := if d.rem.isSome && m.expect then { m with tag := some s.lnk.nextTag } else m

/-- The edge module tracks a request that it sends toward a remote home (R241). -/
def State.trackRemote (s : State) (t src : Nat) (d : Dest) (m : NetMsg) : State :=
  match d.rem with
  | none => s
  | some (la, write) =>
    if !m.expect then s
    else
      let r : RemReq := { fid := src, tag := s.lnk.nextTag, tile := t, via := (if m.type = .cacheReq then .cache else if m.cls.val = 0 then .mem else .ioNp), la := la, write := write, due := s.tick.loc + BitVec.ofNat 48 s.cohLimit }
      { s with lnk := { s.lnk with rem := s.lnk.rem ++ [r], nextTag := (s.lnk.nextTag + 1) % 2 ^ 32 } }

/-- Discard a red bulk or best-effort message (R161). -/
def State.police (s : State) (t fc src : Nat) (f : Flow) (m : NetMsg) : State :=
  let s1 := ((s.setFlowOf t fc src { f with drops := min 65535 (f.drops + 1) }).cnt (tlQosCntDrop t fc)).raiseLim 0x0805 t [.w (fc * 2 ^ 28 + src)]
  s1.errReply m 1

/-- Ingress run-ahead reserves a coherent-response buffer toward the requester of a read, when one is free (R87). -/
def State.reserveAhead (s : State) (p src : Nat) (d : Dest) (m : NetMsg) : State :=
  let la := match d.la, d.rem with | some a, _ => some a | none, some (a, _) => some a | none, none => none
  let write := match m.dst with | .window _ w _ => w | .home _ _ _ w => w | _ => false
  match la with
  | some a =>
    if s.bit sfHomeCtl 30 && !write && (decide (m.type = .memRead) || decide (m.type = .cacheReq)) && s.cellFit (1536 + p * 8 + 1) 1 then
      s.inHbm (fun h => { h with ahead := h.ahead ++ [(p, src, a)] })
    else s
  | none => s

/-- A tile accepts a message that has a route: cells, charge, queue (R140-R142, R158-R163). False: it stays where it is. -/
def State.tileTake (s : State) (p src : Nat) (d : Dest) (e : Nat) (m : NetMsg) : State × Bool :=
  let t := p / 16
  let fc := fcOf m.cls
  let q := p * 8 + m.cls.val
  let cells := cellCount m.bytes
  let charge := min 4096 (64 * cells)
  let tm : TMsg := { m := s.tagRemote d m, inp := p, src := src, dst := d.dst, egress := e, cells := cells, stamp := s.tick.loc, yellow := m.yellow, ord := s.hbm.accepts }
  let f := s.flowOf t fc src
  let holds := decide (fc = 0) || decide (fc = 4)
  let (c, f1) := if holds && !f.held.isEmpty then (2, f) else shaperTest (s.wheel t) s.now16 f charge
  let at0 : PmcAttr := { cls := some m.cls.val, prv := some 0, fid := some src }
  let rx := fun x : State => ((x.tpmc p 0x01 1 at0).tpmc p 0x02 charge at0)
  let rx := fun x : State => if s.pmode p = 3 then rx x else (rx x).cnt64 (ptCxRxFlitCnt (s.linkOf p))
  let done := fun x : State => ((((((rx x).inHbm (fun h => { h with accepts := h.accepts + 1 })).countColour t fc c charge).linkFree p m.cls).trackRemote t src d m).reserveAhead p src d m).tagRequest p tm d.la (decide (d.dst ≠ s.moduleFid))
  if c = 2 ∧ droppable m.cls then (((((rx s).tpmc p 0x06 1 { at0 with prv := none }).countColour t fc 2 charge).linkFree p m.cls).police t fc src f m, true)
  else if c = 2 ∧ holds then
    if s.cellFit q cells then (done ((s.setFlowOf t fc src { f1 with held := f1.held ++ [tm] }).cnt (tlQosCntHold t fc) |>.tpmc p 0x07 1 { at0 with prv := none }), true) else (s, false)
  else
    let y := m.yellow || (decide (c = 1) && droppable m.cls)
    let (s1, fits) := s.enqueue q { tm with yellow := y }
    if fits then (done (s1.setFlowOf t fc src f1), true) else (s1, false)

/-- A completion from a CXL port closes the non-posted request that it answers, named by its TAG (R264). -/
def State.npDone (s : State) (p : Nat) (m : NetMsg) : State :=
  let n := s.linkOf p
  if m.type = .ioCpl then s.setCxp n { s.cxp n with np := (s.cxp n).np.filter (fun x => decide (some x.id ≠ m.tag)) } else s

/-- A tile takes the parts of a message, all or none; a part without a route is a route miss (R41, R59). -/
def State.takeParts (s : State) (p src : Nat) : List (Dest × NetMsg) → State × Bool
  | [] => (s, true)
  | (d, m) :: r =>
    match s.egressOf (p / 16) src d m with
    | none => ((s.routeMiss p d.dst m).linkFree p m.cls).takeParts p src r
    | some e =>
      match s.tileTake p src d e m with
      | (s1, true) => s1.takeParts p src r
      | x => x

/-- TILE_MESSAGE_ACCEPT: a tile accepts a message from a port, classes, charges and shapes it, and routes it (R39-R43, R57, R59, R140,
R156, R158). A message that cannot take its cells stays at its port. -/
def execTileMessageAccept (p : PortIx) (m : NetMsg) (s : State) : Res :=
  let t : Nat := p.val / 16
  let fabric := decide (s.pmode p = 3)
  let lim := if s.fld (tlRouteCtl t) 16 4 = 0 then 15 else s.fld (tlRouteCtl t) 16 4
  let m : NetMsg := if fabric then m else { m with cls := m.type.cls }
  if !s.portUp p || s.clk.draining || !s.carries p m.type then .next s
  else
    let s := s.markBusy
    let s := if fabric then s else s.npDone p m
    match (if fabric then some m.src.val else s.edgeFid p m.ld) with
    | none => .next (s.missOf p s.moduleFid m)
    | some src =>
      if fabric && decide (lim ≤ m.hop.toNat) then
        .next ((((s.cnt (tlHopDropCnt t)).raiseLim 0x0141 t []).linkFree p m.cls).errReply m 0)
      else match s.destOf p src m with
        | .inl x => .next (x.linkFree p m.cls)
        | .inr [(d, m1)] =>
          (match s.egressOf t src d m1 with
          | none => .next ((s.routeMiss p d.dst m1).linkFree p m.cls)
          | some e => .next (s.tileTake p src d e m1).1)
        | .inr l =>
          (match s.takeParts p src l with
          | (s1, true) => .next s1
          | _ => .next s)

/-! ### Hold lists (R161, R163) -/

/-- Test held messages in order; each that conforms leaves the list for its queue. -/
def State.releaseHeld (s : State) (t fc src : Nat) : Nat → State
  | 0 => s
  | n + 1 =>
    let f := s.flowOf t fc src
    match f.held with
    | [] => s
    | m :: r =>
      let charge := min 4096 (64 * m.cells)
      let (c, f1) := shaperTest (s.wheel t) s.now16 f charge
      if c = 2 then s
      else
        (((s.setFlowOf t fc src { f1 with held := r }).countColour t fc c charge).pushQueue (m.inp * 8 + m.m.cls.val) m).releaseHeld t fc src n

/-- A source that has no flow of its own, for the default flow's list. -/
def State.listSrc (s : State) (t fc : Nat) (src : Option Fid) : Nat :=
  match src with
  | some f => f
  | none => ((List.range (s.qos.flows.length + 1)).find? (fun k => (tfind s.qos.flows (flowKey t fc k)).isNone)).getD 0

/-- The list that a command names: a programmed flow's, or the default flow's. -/
def State.listHeld (s : State) (t fc : Nat) (src : Option Fid) : Option Flow :=
  match src with
  | some f => tfind s.qos.flows (flowKey t fc f)
  | none => some (s.defFlow t fc)

/-- HOLD_LIST_RELEASE: at a refill the held messages of one flow are tested in order (R161). -/
def execHoldListRelease (t : TileIx) (fc : ClassIx) (src : Option Fid) (s : State) : Res :=
  match s.listHeld t fc src with
  | none => .next s
  | some f => if s.wheel t then .next s else .next (s.releaseHeld t fc (s.listSrc t fc src) f.held.length)

/-- CALENDAR_SLOT_DUE: a held flow is tested again at the slot of tick ⌈NEXT - τ⌉ (R163). -/
def execCalendarSlotDue (t : TileIx) (fc : ClassIx) (src : Option Fid) (s : State) : Res :=
  match s.listHeld t fc src with
  | none => .next s
  | some f =>
    if s.wheel t && decide (f.next ≤ s.now16 + f.tau) then .next (s.releaseHeld t fc (s.listSrc t fc src) f.held.length) else .next s

/-! ### Mortar (R135-R139) -/

/-- Message slots (R135). -/
def mtrSlots (bytes : Nat) : Nat :=
  if bytes ≤ 64 then 1 else if bytes ≤ 128 then 2 else if bytes ≤ 256 then 4 else 4 * ceilDiv bytes 256
/-- Slots of a message: a hamper part takes one for each of its lines and one for its header; any other message by its data, whose
header shares its slots (R135). -/
def TMsg.slots (m : TMsg) : Nat := if m.m.type = .hamper then m.m.bytes / 64 + 1 else mtrSlots m.m.bytes
/-- Beats of a message: one, or a train. -/
def TMsg.beats (m : TMsg) : Nat := ceilDiv m.slots 4

/-- RSV of HBM_MTR_CTL. -/
def State.mtrRsv (s : State) : Nat := let v := s.fld hbmMtrCtl 0 5; if 1 ≤ v ∧ v ≤ 24 then v else 8

/-- The message fits in the receive buffer of a station: reserved slots of its class, then shared ones (R138). -/
def State.mtrFit (s : State) (d : Nat) (m : TMsg) : Bool :=
  let l := tget [] s.hbm.recv d
  let use := fun c => (l.filter (fun x => decide (x.m.cls.val = c))).foldl (fun a x => a + x.slots) 0
  let r := s.mtrRsv
  let shared := 256 - 8 * r - (List.range 8).foldl (fun a c => a + (use c - r)) 0
  decide (m.slots - (r - use m.m.cls) ≤ shared)

/-- A request for a beat: source station, class, queue, message. A queue number from 4096 on is of the messages that the station's
own unit sends. -/
structure MtrReq where
  src : Nat
  cls : Nat
  q   : Nat
  m   : TMsg

/-- A posted CXL.io request of the same requester and completer, accepted earlier, is still in the port's queue of class 4: the
non-posted one does not pass it; unordered I/O is unordered (R265). Queues and hold lists keep their own order. -/
def State.postedAhead (s : State) (q4 : Nat) (m : TMsg) : Bool :=
  decide (m.m.type = .ioNonPosted) && decide (m.m.attr ≠ .unordered) &&
    (s.queue q4).any (fun x => decide (x.m.type = .ioPosted) && decide (x.m.attr ≠ .unordered) && decide (x.src = m.src) && decide (x.dst = m.dst) && decide (x.ord < m.ord))

/-- The request of a source station's class toward a station: the oldest among the heads of its ports' queues and what its unit
sends (R136, R138). -/
def State.mtrReq (s : State) (d st c : Nat) : Option MtrReq :=
  let qs := if st < 24 then (List.range 8).map (fun j => (st / 2 * 16 + st % 2 * 8 + j) * 8 + c) else []
  let hs : List (Nat × TMsg) := (qs.filterMap (fun q => (s.queue q).head?.map (fun m => (q, m)))).filter (fun x => !s.postedAhead (x.1 - 1) x.2)
  let own := ((tget [] s.hbm.sends (st * 8 + c)).find? (fun m => decide (egressStation m.egress = d))).map (fun m => (4096 + st * 8 + c, m))
  (lruOf (fun x : Nat × TMsg => x.2.stamp.toNat) (hs.filter (fun x => decide (egressStation x.2.egress = d)) ++ own.toList)).map
    (fun x => { src := st, cls := c, q := x.1, m := x.2 })

/-- The requests toward a station. -/
def State.mtrReqs (s : State) (d : Nat) : List MtrReq :=
  (List.range 53).flatMap (fun st => (List.range 8).filterMap (s.mtrReq d st))

def mtrTier (c : Nat) : Nat :=
  match c with
  | 1 => 1
  | 2 => 2
  | 3 => 3
  | 0 => 4
  | 4 => 5
  | 5 => 6
  | _ => 7

def State.mtrWait (s : State) (d : Nat) (r : MtrReq) : Nat := tget 0 s.hbm.waits ((d * 53 + r.src) * 8 + r.cls)

/-- STARVE_CYCLES and BULK_WEIGHT. -/
def State.starveCycles (s : State) : Nat := let v := s.fld hbmMtrCtl 16 8; if v = 0 then 64 else v
def State.bulkWeight (s : State) : Nat := max 1 (s.fld hbmMtrCtl 8 4)

/-- The queue that a message takes at its egress tile. -/
def egressQueue (m : TMsg) : Nat := 1536 + m.egress * 8 + m.m.cls.val

/-- A message reaches its egress queue. Toward a port in containment CXL.io goes no further: a posted request is discarded, and a
non-posted one completes with UR (R264). -/
def State.egressTake (s : State) (m : TMsg) : State × Bool :=
  if (m.m.cls.val = 4 ∨ m.m.cls.val = 5) ∧ s.pmode m.egress = 2 ∧ s.cxState (s.linkOf m.egress) = 4 then (s.errReply m.m 4, true)
  else s.enqueue (egressQueue m) m

/-- A response takes its cell in place of the buffer that run-ahead holds for it (R88, R151). -/
def State.takesAhead (s : State) (m : TMsg) : State := match m.ahead with | some la => s.aheadFree m.dst la | none => s

/-- The request fits: receive slots, and cells of the egress tile that a message to a port needs (R138, R140). -/
def State.mtrFits (s : State) (d : Nat) (r : MtrReq) : Bool :=
  s.mtrFit d r.m && (if r.m.egress < 192 then (s.takesAhead r.m).egressTake r.m |>.2 else true)

/-- The choice of R139, and whether the starvation rule made it. -/
def State.mtrChoose (s : State) (d : Nat) (fits : List MtrReq) : Option (MtrReq × Bool) :=
  let starved := fits.filter (fun r => decide (s.starveCycles ≤ s.mtrWait d r))
  match starved.find? (fun r => starved.all (fun x => decide (s.mtrWait d x ≤ s.mtrWait d r))) with
  | some r => some (r, true)
  | none =>
    let tier := fits.foldl (fun a r => min a (mtrTier r.cls)) 8
    let top := fits.filter (fun r => decide (mtrTier r.cls = tier))
    let both := top.any (fun r => decide (r.cls = 6)) && top.any (fun r => decide (r.cls = 7))
    let pool := if both then top.filter (fun r => decide (r.cls = (if tget 0 s.hbm.bulkRun d < s.bulkWeight then 6 else 7))) else top
    let at0 := tget 0 s.hbm.rr (d * 8 + tier)
    let order := (List.range 53).map (fun k => (at0 + k) % 53)
    (order.findSome? (fun st => pool.find? (fun r => decide (r.src = st)))).map (fun r => (r, false))

/-- The unit behind a station takes what its receive buffer holds; a home bank takes coherent requests while a tracker is
free (R78, R138). -/
def State.mtrDrain (s : State) (d : Nat) : State :=
  let l := tget [] s.hbm.recv d
  let stays := fun m : TMsg => decide (24 ≤ d) && decide (d < 40) && decide (m.m.cls.val = 0) && decide (s.trkFree (d - 24) = 0)
  let s1 := s.inHbm (fun h => { h with recv := tput [] h.recv d (l.filter stays) })
  s1.each (l.filter (fun m => !stays m)) (fun m t => if m.egress < 192 then t else t.emit (.delivered d m))

/-! #### What the core die's units put onto Mortar (R142, R155, R156) -/

/-- A message of a unit of the core die. -/
def coreMsg (id : Nat) (type : MsgType) (src dst egress bytes : Nat) (now : Tick) : TMsg :=
  { m := { id := id, type := type, cls := type.cls, src := Fin.ofNat 262144 src, ld := 0, dst := .fid (Fin.ofNat 262144 dst), bytes := bytes,
           expect := false, yellow := false, hop := 0, unit := Fin.ofNat 53 (if 1000 ≤ egress then egress - 1000 else 0) },
    inp := 0, src := src, dst := dst, egress := egress, cells := cellCount bytes, stamp := now }

/-- The line of a device address. -/
def State.lineOf (s : State) (dev addr : Nat) : Nat :=
  match s.bind.slices.find? (fun e => (decide (e.2.dev = dev) && decide (e.2.dpa = addr / 2 ^ 28)) || (decide (e.2.newDev = dev) && decide (e.2.newDpa = addr / 2 ^ 28))) with
  | some (n, _) => n * 2 ^ 22 + addr % 2 ^ 28 / 64
  | none => 0

/-- The station of the cluster that an instance is assigned to (R176). -/
def State.instStation (s : State) (i : Nat) : Nat := 48 + s.fld (engInst i) 24 2

/-- What an item sends: its station, and the message; its destination is a station, or a fabric ID that is looked up. -/
inductive CoreTo where
  | station (d : Nat)
  | fid (f : Nat)
  | port (p : Nat)

/-- Where an engine's access goes: the home of its pooled line, or the host's upstream link (R177). -/
def State.engTo (s : State) (i space addr : Nat) : CoreTo :=
  let host := s.engHost i
  if space = 0 then
    match (s.vcsOfHost host).map (fun v => s.originByte v.1 addr true) with
    | some (.inr (e, o)) => (match e.remote with
      | some f => .fid f
      | none => .station (24 + s.laBank (e.slice * 2 ^ 22 + o % 2 ^ 28 / 64)))
    | _ => .fid host
  else .fid host

/-- A message of the management complex toward a management function, in the best-effort management class (R155, R312, R337). -/
def mgmtTo (src : Src) (bytes : Nat) : Option (Nat × MsgType × Nat × CoreTo) :=
  if src.path = 3 then some (52, .mgmt, bytes, .port src.port.toNat) else none

/-- What an item of the outside's list is as a message on Mortar: its station, its type, its data bytes, where it goes. -/
def State.coreSend (s : State) (o : Out) : Option (Nat × MsgType × Nat × CoreTo) :=
  let bank := fun la : Nat => 24 + s.laBank la
  let pc := fun (h la : Nat) => CoreTo.station (pcStation h (s.linePc la))
  match o with
  | .homeRsp f via la r =>
    let n := match r with | .data _ _ _ => 64 | _ => 1
    match via with
    | .engine i => some (bank la, .bulk, n, .station (s.instStation i))
    | .ioNp | .ioP => some (bank la, .ioCpl, n, .fid f)
    | _ => some (bank la, .memRsp, n, .fid f)
  | .snoop f _ la => some (bank la, .backInv, 1, .fid f)
  | .devRead _ dev addr => some (bank (s.lineOf dev addr), .memRead, 1, .fid dev)
  | .devWrite dev addr _ _ => some (bank (s.lineOf dev addr), .memWrite, 64, .fid dev)
  | .hbmRead h la => some (bank la, .memRead, 1, pc h la)
  | .hbmWrite h la => some (bank la, .memWrite, 64, pc h la)
  | .hbmData h la => some (pcStation h (s.linePc la), .memRsp, 64, .station (bank la))
  | .dirWrite h b => let la := leAt b 0 5; some (bank la, .memWrite, 32, .station (pcStation h (areaPc (s.dirSet la % 2 ^ 25 * 256))))
  | .hmsg dst type m _ => some (52, .hamper, (if type = 1 then 64 * m.lines.length else 0), .fid dst)
  | .logWrite i _ _ => some (52, .hamper, 64, .station (pcStation (s.fld hbmStatus 12 2) (areaPc (i * 64))))
  | .logMirror i _ => some (52, .hamper, 64, .station (pcStation (s.fld hbmStatus 8 2) (areaPc (i * 64))))
  | .logRead h i => some (52, .hamper, 0, .station (pcStation h (areaPc (i * 64))))
  | .dirRead h la _ => some (bank la, .memRead, 1, .station (pcStation h (areaPc (s.dirSet la % 2 ^ 25 * 256))))
  | .dirData h la => some (pcStation h (areaPc (s.dirSet la % 2 ^ 25 * 256)), .memRsp, 64, .station (bank la))
  | .spillRead stn q page => some (stn, (if q % 8 = 6 then .bulk else .mgmt), 1, .station (pcStation (page % 4) (areaPc (page / 4 * 4096))))
  | .reply q _ _ b => mgmtTo q.src (16 + b.length)
  | .notify src _ _ _ => mgmtTo src 88
  | .mctp src _ b => mgmtTo src b.length
  | .dumpUnit dest port addr b => some (52, .mgmt, b.length, (if dest = 1 then .port port else .station (pcStation (s.fld hbmStatus 12 2) (areaPc addr))))
  | .latRecord dest port addr b => some (52, .mgmt, b.length, (if dest = 1 then .port port else .station (pcStation (s.fld hbmStatus 12 2) (areaPc addr))))
  | .engRead i sp a _ c => some (s.instStation i, (if sp = 0 then (if c = 3 then .hamper else .bulk) else .ioNonPosted), 1, s.engTo i sp a)
  | .engCreq i dst _ _ hev _ _ _ _ d => some (s.instStation i, (if hev = 7 then .memWrite else .memRead), max 1 d.length, .fid dst)
  | .atsRequest i _ => some (s.instStation i, .ioNonPosted, 1, .fid (s.engHost i))
  | .fabMsg stn dst mtype _ _ data => some (stn, (if mtype = 4 then .cacheRsp else .memRsp), (if data.isSome then 64 else 1), .fid dst)
  | .hostSnoop f _ _ => some ((match s.edgeOf f with | some (p, _) => portStation p | none => 0), .backInv, 1, .fid f)
  | .engWrite i sp a b => some (s.instStation i, (if sp = 0 then .bulk else .ioPosted), b.length, s.engTo i sp a)
  | .engStatus i sp a _ _ => some (s.instStation i, (if sp = 0 then .bulk else .ioPosted), 16, s.engTo i sp a)
  | _ => none

/-- TAG and body of what the core die sends over a fabric link (R128, R229). -/
def State.coreBody (s : State) : Out → Option (Nat × List Byte)
  | .homeRsp _ (.fabric _ tag) _ r => some (tag.toNat, match r with
    | .data g d p => crspBody (b2n p) 0 g (some d)
    | .poison => crspBody 1 0 0 none
    | .err | .ur => crspBody 2 0 0 none
    | .decode x => crspBody 3 x 0 none
    | _ => crspBody 0 0 0 none)
  | .snoop f kind la => some ((match s.snoopOf la f with | some (k, _) => k | none => 0), snpBody (kind + 1) (laSlice la) (la % 2 ^ 22) s.moduleFid)
  | .fabMsg _ _ mtype tag vals data => some (tag,
    if mtype = 4 then snprspBody (vals.getD 0 0) data else crspBody (vals.getD 0 0) (vals.getD 1 0) (vals.getD 2 0) data)
  | .hmsg _ _ _ b => some (0, b)
  | .engCreq _ _ tag _ hev rights slice off mask d => some (tag, creqBody hev (BitVec.ofNat 2 rights) slice (BitVec.ofNat 22 off) (BitVec.ofNat 64 mask) d)
  | _ => none

/-- An engine's request toward a remote home acts for its host and has its own class; one toward host memory carries the instance's PASID
(R177, R187, R217). -/
def State.coreMark (s : State) (o : Out) (x : TMsg) : TMsg :=
  let pasid := fun i : Nat => { x with m := { x.m with pasid := some (s.fld (engInst i + 4) 0 20) } }
  match o with
  | .engCreq i _ _ cls _ _ _ _ _ _ =>
    { x with src := s.engHost i, m := { x.m with src := Fin.ofNat 262144 (s.engHost i), cls := Fin.ofNat 8 cls } }
  | .engRead i sp _ _ _ => if sp = 0 then x else pasid i
  | .engWrite i sp _ _ => if sp = 0 then x else pasid i
  | .engStatus i sp _ _ _ => if sp = 0 then x else pasid i
  | .atsRequest i _ => pasid i
  | _ => x

/-- The line whose run-ahead buffer a response takes: that of a read (R88). -/
def aheadOf : Out → Option Nat
  | .homeRsp _ _ la (.data _ _ _) | .homeRsp _ _ la .poison | .homeRsp _ _ la .err => some la
  | _ => none

/-- Put one item of the outside's list onto its station's messages; one without a route is discarded (R41), and what run-ahead holds
for it is released. -/
def State.corePut (s : State) (id : Nat) (o : Out) : State :=
  match s.coreSend o with
  | none => s
  | some (st, type, n, .port p) => s.sendFrom st { coreMsg id type s.moduleFid ((s.edgeFid p 0).getD s.moduleFid) p n s.tick.loc with inp := 16 * s.coreTile }
  | some (st, type, n, .station d) => s.sendFrom st (coreMsg id type s.moduleFid s.moduleFid (1000 + d) n s.tick.loc)
  | some (st, type, n, .fid f) =>
    let m := fun e : Nat => s.coreMark o <|
      let x := coreMsg id type s.moduleFid f e n s.tick.loc
      match s.coreBody o with
      | some (tag, b) => { x with inp := 16 * s.coreTile, ahead := aheadOf o, cells := cellCount (if type = .hamper then b.length else n), m := { x.m with tag := some tag, body := b } }
      | none => { x with inp := 16 * s.coreTile, ahead := aheadOf o }
    match s.lookup s.coreTile s.moduleFid f with
    | some (some e) => s.sendFrom st (m e)
    | some none => s.sendFrom st (m 1052)
    | none => match aheadOf o with | some la => (s.coreMiss f).aheadFree f la | none => s.coreMiss f

/-- What the units of the core die have sent since the last grant waits at their stations. -/
def State.collect (s : State) : State :=
  let l := s.out.drop s.hbm.mark
  ((l.zip (List.range l.length)).foldl (fun t x => t.corePut (2 ^ 64 + s.hbm.mark + x.2) x.1) s).inHbm (fun h => { h with mark := s.out.length })

/-! #### The grant -/

/-- A granted message crosses: into the receive buffer, and into its egress queue (R138, R140). -/
def State.mtrMove (d : Nat) (r : MtrReq) (s : State) : State :=
  let s1 := if r.q < 4096 then ((s.setQueue r.q ((s.queue r.q).erase r.m)).spillLeave r.q)
    else s.inHbm (fun h => { h with sends := tput [] h.sends (r.q - 4096) ((tget [] h.sends (r.q - 4096)).erase r.m) })
  let k := (d * 53 + r.src) * 8 + r.cls
  let s2 := s1.inHbm (fun h => { h with recv := tput [] h.recv d (tget [] h.recv d ++ [r.m]), waits := tput 0 h.waits k 0 })
  let s3 := (s2.cnt64 (hbmMtrStSlotCnt d) (r.m.slots)).latStage (fun g => decide (g.id = r.m.m.id)) 1
  if r.m.egress < 192 then ((s3.takesAhead r.m).egressTake r.m).1 else s3.takesAhead r.m

/-- The rest of the beat: further messages of the source station to the destination, highest tier first, while slots are left and each
fits (R135). -/
def State.mtrFill (d src : Nat) : Nat → Nat → State → State
  | 0, _, s => s
  | n + 1, room, s =>
    let reqs := ((List.range 8).filterMap (s.mtrReq d src)).filter (fun r => decide (r.m.slots ≤ room) && s.mtrFits d r)
    match lruOf (fun r : MtrReq => mtrTier r.cls) reqs with
    | some r => State.mtrFill d src n (room - r.m.slots) (State.mtrMove d r s)
    | none => s

/-- A request that does not fit for want of spill pages leaves its mark (R142). -/
def State.mtrHeldBack (s : State) (l : List MtrReq) : State :=
  s.each l (fun r t => if r.m.egress < 192 then (match t.egressTake r.m with | (u, false) => u | _ => t) else t)

/-- Trackers whose copies of a snoop waited for room at the bank's station try again (R149). -/
def State.kickSnoops (s : State) : State :=
  s.each (s.home.trks.filter (fun x => x.2.todo.isSome)) (fun x t =>
    match x.2.todo with | some (kind, fids) => t.sendSnoops x.1 { x.2 with todo := none } kind fids | none => t)

/-- MORTAR_BEAT_GRANT: a destination station grants one beat, or a train (R135, R138, R139). -/
def execMortarBeatGrant (d : StationIx) (s : State) : Res :=
  let s1 := s.collect.mtrDrain d
  let reqs := s1.mtrReqs d
  let hot := decide (d.val < 24) && nbit (tget 0 s.tel.level (d.val / 2)) 1
  let off := hot && decide (tget 0 s.hbm.half d = 1)
  let s1 := s1.inHbm (fun h => { h with half := tput 0 h.half d (if hot then 1 - tget 0 h.half d else 0) })
  let fit0 := reqs.filter (s1.mtrFits d)
  let fits := fit0.filter (fun r => !(off && droppable r.cls))
  let s2 := if fit0.length < reqs.length then (s1.cnt64 (hbmMtrStWaitCnt d)).mtrHeldBack (reqs.filter (fun r => !s1.mtrFits d r)) else s1
  let s3 := s2.each reqs (fun r t =>
    let k := (d.val * 53 + r.src) * 8 + r.cls
    t.inHbm (fun h => { h with waits := tput 0 h.waits k (tget 0 h.waits k + 1) }))
  match s1.mtrChoose d fits with
  | none => .next s3
  | some (r, starve) =>
    let n := r.m.slots
    let s4 := (State.mtrMove d r s3.markBusy).inHbm (fun h => { h with
      rr := tput 0 h.rr (d * 8 + mtrTier r.cls) ((r.src + 1) % 53)
      bulkRun := tput 0 h.bulkRun d (if r.cls = 6 then tget 0 h.bulkRun d + 1 else if r.cls = 7 then 0 else tget 0 h.bulkRun d) })
    let s5 := if n < 4 then State.mtrFill d r.src 3 (4 - n) s4 else s4
    let s6 := (s5.cnt64 (hbmMtrStGrantCnt d) (r.m.beats)).pmc 0x0B d (256 * r.m.beats) { cls := some r.m.m.cls.val }
    .next (if starve then s6.cnt (hbmMtrStStarveCnt d) else s6).kickSnoops

/-- Messages leave a queue otherwise than by service. A request for a beat that goes with them has waited for nothing (R139), and an
egress queue left empty has no deficit (R165). -/
def State.cutQueue (s : State) (q : Nat) (l : List TMsg) : State :=
  let t := s.setQueue q l
  if q < 1536 then
    let st := portStation (queuePort q)
    let c := q % 8
    t.inHbm (fun h => { h with waits := (List.range 53).foldl (fun w d =>
      if (s.mtrReq d st c).map (·.m) = (t.mtrReq d st c).map (·.m) then w else tput 0 w ((d * 53 + st) * 8 + c) 0) h.waits })
  else if l.isEmpty && (tget [] t.hbm.spill q).isEmpty then t.inQos (fun x => { x with deficit := tput 0 x.deficit (q - 1536) 0 })
  else t

/-! ### Spill (R141) -/

/-- SPILL_FETCH: the oldest spill page of a queue is read back when its on-chip part is below 64 cells (R141); it takes a read slot
and holds its cells from then on (R151). -/
def execSpillFetch (p : PortIx) (c : ClassIx) (egress : Bool) (s : State) : Res :=
  let q := (if egress then 1536 else 0) + p.val * 8 + c.val
  let ch := tget [] s.hbm.spill q
  match ch with
  | [] => .next (s.spillLeave q)
  | (pg, _) :: _ =>
    let n := cellsOf ((ch.filter (fun x => decide (x.1 = pg))).map (·.2))
    let k0 := (pg % 4 * 32 + areaPc (pg / 4 * 4096)) * 64
    let job : RdJob := .spill q pg
    if 64 ≤ cellsOf (s.queue q) ∨ 0 < s.fetchCells q ∨ !s.cellFit q n then .next s
    else match (List.range 64).find? (fun k => (tfind s.hbm.slots (k0 + k)).isNone) with
      | some k => .next (((s.inHbm (fun h => { h with slots := tins h.slots (k0 + k) { la := pg, trk := none, job := job } })).stkRead (pg % 4) n).slotAsk pg job |>.spillScan q)
      | none => .next s

/-! ### Egress service (R165, R166) -/

/-- QUANTUM of a class, in cells; 0 is treated as 1. -/
def State.quantum (s : State) (p c : Nat) : Nat :=
  max 1 (s.fld (if c < 4 then ptDrrQ0 p else ptDrrQ1 p) (8 * (c % 4)) 8)

/-- The destination ID, the logical device and the source ID that the tile writes for a message on a CXL port: of the destination's KIND 0
member entry in the tile that routed it, and of the source's in the egress tile, else PBR_DEFAULT_SPID (R44). -/
def State.egressIds (s : State) (p : Nat) (m : TMsg) : Option (Nat × Nat × Nat) :=
  match s.memberEntry (m.inp / 16) m.dst with
  | some e =>
    if bits e 29 2 = 0 then
      let src := match s.memberEntry (p / 16) m.src with
        | some x => if bits x 29 2 = 0 then bits x 0 12 else s.fld (tlRouteCtl (p / 16)) 0 12
        | none => s.fld (tlRouteCtl (p / 16)) 0 12
      some (bits e 0 12, bits e 24 4, src)
    else none
  | none => none

/-- The home event that a request asks of a remote home (R72, R229). A memory write goes as a write-back, which the home's entry sorts, and
a combination that R72 does not list as a non-caching access: DESIGN CHOICE (log 264). -/
def hevOf (write : Bool) : CxMsg → Nat
  | .memRd .s _ | .memRdData .s _ | .rdShared => 1
  | .memRd .a .data | .memRdData .a .data | .rdAny => 2
  | .memRd .a .inv | .memInv .a .inv | .rdOwn | .rdOwnNoData => 3
  | .memClnEvct | .cleanEvict | .cleanEvictNoData => 6
  | .memWr _ | .memWrPtl _ | .dirtyEvict | .rspIFwdM | .rspSFwdM => 5
  | _ => if write then 7 else 4

/-- MTYPE of a message on a fabric link (R229). -/
def mtypeOf : MsgType → Nat
  | .memRead | .memWrite | .cacheReq => 1
  | .memRsp => 2
  | .backInv => 3
  | .cacheRsp => 4
  | .hamper => 5
  | .mgmt => 7
  | _ => 6

/-- The bytes after the header of a message on a fabric link (R229). What a command does not give of them is 0. -/
def linkBody (m : NetMsg) : List Byte :=
  match m.dst with
  | .home _ slice off write =>
    if mtypeOf m.type = 1 then
      let o := off.toNat % 64
      let mask := BitVec.ofNat 64 ((2 ^ min 64 (o + m.bytes) - 2 ^ o) * b2n write)
      creqBody (hevOf write m.req) 0 slice (BitVec.ofNat 22 (off.toNat / 64)) mask (if write then (m.body ++ List.replicate 64 0).take 64 else [])
    else (m.body ++ List.replicate m.bytes 0).take m.bytes
  | _ => if m.body.isEmpty then List.replicate m.bytes 0 else m.body

/-- A message as it goes on a fabric link (R228). -/
def TMsg.linkBytes (m : TMsg) (hop : Nat) : List Byte :=
  let b := linkBody m.m
  msgHead hop m.yellow m.m.cls (mtypeOf m.m.type) b.length m.dst m.src (m.m.tag.getD m.m.id) ++ b

/-- HOPS of a message that leaves over a fabric link (R228). -/
def State.hopOf (s : State) (m : TMsg) : BitVec 4 := if s.pmode m.inp = 3 then (if m.m.hop = 15 then 15 else m.m.hop + 1) else 1

/-- A non-posted CXL.io request that leaves through a downstream port is outstanding (R264). -/
def State.npOpen (s : State) (p : Nat) (m : NetMsg) : State :=
  let n := s.linkOf p
  if m.type = .ioNonPosted ∧ m.expect ∧ s.pmode p = 2 then s.setCxp n { s.cxp n with np := (s.cxp n).np ++ [m] } else s

/-- A message leaves its port; a fabric link charges its credits first and writes HOPS (R228, R238). None: no credit. -/
def State.sendOne (s : State) (p : Nat) (m : TMsg) : Option State :=
  let at0 : PmcAttr := { cls := some m.m.cls.val }
  let tx := fun x : State => (x.tpmc p 0x03 1 at0).tpmc p 0x04 (min 4096 (64 * m.cells)) at0
  if s.postedAhead (1536 + p * 8 + 4) m then none
  else if s.pmode p = 3 then (s.linkSend p m.m.cls (m.linkBytes (s.hopOf m).toNat)).map (fun t =>
    (tx t).emit (.sent p { m with m := { m.m with hop := s.hopOf m } } none))
  else if s.cxState (s.linkOf p) = 2 then some (((((tx s).cnt64 (ptCxTxFlitCnt (s.linkOf p))).npOpen p m.m)).emit (.sent p m (s.egressIds p m)))
  else none

/-- Send head messages while the head's charge is within the deficit. -/
def State.drrServe (s : State) (p c : Nat) : Nat → State
  | 0 => s
  | n + 1 =>
    let q := 1536 + p * 8 + c
    match s.queue q with
    | [] => (s.spillLeave q).inQos (fun x => if (tget [] s.hbm.spill q).isEmpty then { x with deficit := tput 0 x.deficit (p * 8 + c) 0 } else x)
    | m :: r =>
      let charge := min 4096 (64 * m.cells)
      let d := tget 0 s.qos.deficit (p * 8 + c)
      if d < charge then s
      else match s.sendOne p m with
        | none => s
        | some s1 =>
          let s2 := (s1.setQueue q r).inQos (fun x => { x with deficit := tput 0 x.deficit (p * 8 + c) (d - charge) })
          -- the response of a remote or CXL.io request closes its latency tag
          let rsp := decide (c = 1) || decide (c = 4)
          let s3 := if rsp then s2.latStage (fun g => decide (g.port = p) && decide (g.fid = m.dst) && g.la.isNone && decide (g.cls = (if c = 1 then 0 else 5))) 7 true else s2
          (s3.spillLeave q).drrServe p c n

/-- EGRESS_DRR_TURN: the port serves its next class queue with credit (R165, R166). `credit` names the classes with CXL
credit; a fabric link's credits are its own. -/
def execEgressDrrTurn (p : PortIx) (credit : BitVec 8) (s : State) : Res :=
  let at0 := tget 0 s.qos.drrAt p
  let order := (List.range 8).map (fun k => (at0 + k) % 8)
  let head := fun c => (s.queue (1536 + p.val * 8 + c)).head?
  let ready := fun c => match head c with
    | some m => if s.pmode p = 3 then (s.linkSend p c (m.linkBytes (s.hopOf m).toNat)).isSome && !s.postedAhead (1536 + p.val * 8 + 4) m else credit.getLsbD c && decide (s.cxState (s.linkOf p) = 2) && !s.postedAhead (1536 + p.val * 8 + 4) m
    | none => false
  match order.find? ready with
  | none => .next s
  | some c =>
    let s1 := s.inQos (fun q => { q with
      drrAt := tput 0 q.drrAt p ((c + 1) % 8)
      deficit := tput 0 q.deficit (p.val * 8 + c) (tget 0 q.deficit (p.val * 8 + c) + 64 * s.quantum p c) })
    .next (s1.drrServe p c ((s.queue (1536 + p.val * 8 + c)).length + 1))

end Sys2Proof.Machine
end

