-- ==== Sys2Proof/Machine/Qos.lean ====
section
/-! DEFINITION. Flow changes, modes, admission and scaling (R158-R173). -/

namespace Sys2Proof.Machine

def stQosAdmission := 0x50
def stQosNoEntry := 0x51
def stQosRate := 0x52
def stQosTarget := 0x53
def stQosNoFlow := 0x54

/-! ### Flow changes (R159, R164) -/

def tileOfKey (k : Nat) : Nat := k / 2 ^ 21

/-- Keys that a tile will hold when its accepted changes have taken effect. -/
def State.futureKeys (s : State) (t : Nat) : List Nat :=
  s.qos.changes.foldl (fun l c => if c.tile ≠ t then l else match c.par with
    | some _ => if l.contains c.key then l else l ++ [c.key]
    | none => l.filter (fun k => decide (k ≠ c.key)))
    ((s.qos.flows.filter (fun e => decide (tileOfKey e.1 = t))).map (·.1))

/-- MODE of TL_QOS_CTL; 3 is treated as 0. -/
def State.modeCtl (s : State) (t : Nat) : Nat := let v := s.fld (tlQosCtl t) 0 2; if v = 3 then 0 else v

/-- Ask for the mode that MODE and a number of flows give, at the next edge (R164). -/
def State.askMode (s : State) (t flows : Nat) : State :=
  let want := match s.modeCtl t with
    | 1 => 1
    | 2 => 2
    | _ => if 16384 < flows then 2 else if flows ≤ 12288 then 1 else 0
  let now := if s.wheel t then 2 else 1
  let was := tget 0 s.qos.modeReq t
  let req := if want = now then 0 else if want = 0 then was else want
  if req = was then s
  else s.inQos (fun q => { q with modeReq := tput 0 q.modeReq t req, modeAt := tput 0 q.modeAt t (s.tick.loc.toNat + 1) })

/-- The flow class of a body byte is one of 0-4, 6, 7. -/
def fcOk (fc : Nat) : Bool := decide (fc < 8) && decide (fc ≠ 5)

/-- OP_QOS_FLOW_SET: creates or changes a flow from the next edge (R159, R164). -/
def execOpQosFlowSet (q : Req) (b : List Byte) (s : State) : Res :=
  let src := leAt b 0 4
  let fc := byteAt b 4
  let t := q.index.toNat
  let cir := leAt b 8 4
  let pir := pirFloor fc (leAt b 12 4)
  let cbs := max 4096 (leAt b 16 4)
  let pbs := leAt b 20 4
  let bad := decide (2 ^ 18 ≤ src) || !fcOk fc || !rsvZero b [(5, 3)] ||
    [cir, leAt b 12 4, leAt b 16 4, pbs].any (fun v => decide (2 ^ 24 ≤ v))
  .next (s.nalug_run 0x0801 q b { kinds := [1], lenOk := decide (b.length = 24), badParam := bad } (fun s =>
    if pir < cir ∨ pbs < cbs then refuse s stQosRate
    else
      let key := flowKey t fc src
      let keys := s.futureKeys t
      let new := !keys.contains key
      if new && decide ((if s.modeCtl t = 1 then 16384 else 262144) ≤ keys.length) then refuse s stQosNoEntry
      else
        let s1 := s.inQos (fun x => { x with changes := x.changes ++ [⟨t, key, some (cir, pir, cbs, pbs), s.tick.loc⟩] })
        ok (s1.askMode t (keys.length + b2n new))))

/-- OP_QOS_FLOW_CLEAR: removes a flow at the next edge (R159, R169). -/
def execOpQosFlowClear (q : Req) (b : List Byte) (s : State) : Res :=
  let src := leAt b 0 4
  let fc := byteAt b 4
  let t := q.index.toNat
  .next (s.nalug_run 0x0802 q b { kinds := [1], lenOk := decide (b.length = 8), badParam := decide (2 ^ 18 ≤ src) || !fcOk fc || !rsvZero b [(5, 3)] } (fun s =>
    let key := flowKey t fc src
    let keys := s.futureKeys t
    if !keys.contains key then refuse s stQosNoFlow
    else
      let s1 := s.inQos (fun x => { x with changes := x.changes ++ [⟨t, key, none, s.tick.loc⟩] })
      ok (s1.askMode t (keys.length - 1))))

/-- A flow's record after a change: the buckets keep their contents, clamped (R159); a new flow's buckets are full. -/
def Flow.reparam (f : Flow) (now : Nat) (fresh : Bool) (cir pir cbs pbs : Nat) : Flow :=
  let tc := min cbs (f.cbs - f.dc)
  let tp := min pbs (f.pbs - f.dp)
  if fresh then { cir := cir, pir := pir, cbs := cbs, pbs := pbs, cirP := cir, next := now }
  else { f with cir := cir, pir := pir, cbs := cbs, pbs := pbs, cirP := cir, dc := cbs - tc, dp := pbs - tp }

/-- TL_QOS_STATUS.FLOWS. -/
def State.countFlows (s : State) (t : Nat) : State :=
  s.setFld (tlQosStatus t) 0 19 (s.qos.flows.filter (fun e => decide (tileOfKey e.1 = t))).length

/-- FLOW_CHANGE_APPLY: the oldest accepted change takes effect once an edge has passed (R159). -/
def execFlowChangeApply (s : State) : Res :=
  match s.qos.changes with
  | [] => .next s
  | c :: r =>
    if c.at0 = s.tick.loc then .next s
    else
      let s1 := s.inQos (fun q => { q with changes := r })
      match c.par with
      | some (cir, pir, cbs, pbs) =>
        let old := tfind s.qos.flows c.key
        let f := (old.getD {}).reparam s.now16 old.isNone cir pir cbs pbs
        .next ((s1.inQos (fun q => { q with flows := tins q.flows c.key f })).countFlows c.tile)
      | none =>
        let held := match tfind s.qos.flows c.key with | some f => f.held | none => []
        let fc := c.key / 2 ^ 18 % 8
        let s2 := (s1.inQos (fun q => { q with flows := tdel q.flows c.key })).countFlows c.tile
        let d := s2.defFlow c.tile fc
        .next (s2.setDef c.tile fc { d with held := d.held ++ held })

/-- TL_QOS_CTL_WRITE: MODE = 1 with more than 16,384 flows is discarded (R164). -/
def execTlQosCtlWrite (t : TileIx) (v : Word) (s : State) : Res :=
  s.ifPresent 1 t (tlQosCtl t) (fun s =>
    let n := (s.futureKeys t).length
    if bits v 0 2 = 1 ∧ 16384 < n then .next s
    else .next ((s.setFld (tlQosCtl t) 0 2 (bits v 0 2)).askMode t n))

/-- A flow's state in the other mode, its conformance unchanged (R164). -/
def Flow.convert (f : Flow) (toWheel : Bool) (now : Nat) : Flow :=
  if toWheel then { f with next := if f.pir = 0 then now else now + f.dp * 65536 / f.pir, dp := if f.pir = 0 then f.pbs else f.dp }
  else { f with dc := 0, dp := if f.pir = 0 then f.pbs else min f.pbs ((f.next - now) * f.pir / 65536) }

/-- QOS_MODE_CHANGE: at the edge after the request a tile changes its mode and converts every flow (R164). -/
def execQosModeChange (t : TileIx) (s : State) : Res :=
  let m := tget 0 s.qos.modeReq t
  if m = 0 ∨ tget 0 s.qos.modeAt t = s.tick.loc.toNat + 1 then .next s
  else
    let wh := decide (m = 2)
    let s1 := s.inQos (fun q => { q with modeReq := tput 0 q.modeReq t 0, modeAt := tput 0 q.modeAt t 0, flows := q.flows.map (fun e => if tileOfKey e.1 = t then (e.1, e.2.convert wh s.now16) else e) })
    let s2 := s1.each [0, 1, 2, 3, 4, 6, 7] (fun fc x => x.setDef t fc ((x.defFlow t fc).convert wh s.now16))
    .next ((s2.setBit (tlQosStatus t) 31 wh).raise (if wh then 0x0801 else 0x0802) [])

/-! ### Targets and reservations (R167-R171) -/

/-- Bytes per tick of one CXL lane at a rate code: GT/s times 128. -/
def cxlLaneRate : Nat → Nat
  | 0 => 320
  | 1 => 640
  | 2 => 1024
  | 3 => 2048
  | 4 => 4096
  | _ => 8192

/-- Nominal rate of a port's link (R167). -/
def State.linkRate (s : State) (p : Nat) : Nat :=
  if !s.portUp p || s.isMember p then 0
  else if s.pmode p = 3 then (if s.bit (ptFlStatus p) 28 then 61440 else 30720)
  else s.fld (ptCxStatus p) 21 5 * cxlLaneRate (s.fld (ptCxStatus p) 26 3)

/-- Nominal rate of a target (R167). -/
def State.tgtNominal (s : State) (g : Nat) : Nat :=
  if g < 192 then s.linkRate g
  else if g < 196 then (if s.present 8 (g - 192) then 1228800 else 0)
  else if 256 ≤ g ∧ g < 256 + 3072 then
    let p := (g - 256) / 16
    if s.pmode p = 2 ∧ tget 0 s.bind.devs (g - 256) ≠ 0 then
      let n := s.linkRate p
      match tfind s.qos.declared g with
      | some d => min n d
      | none => n
    else 0
  else 0

/-- DERATE of a target's kind; values below 128 are treated as 128. -/
def State.derate (s : State) (g : Nat) : Nat :=
  max 128 (if g < 192 then s.fld qosCtl 16 8 else if g < 256 then s.fld qosCtl 0 8 else s.fld qosCtl 8 8)

/-- Deliverable rate (R167). -/
def State.tgtDeliver (s : State) (g : Nat) : Nat := s.tgtNominal g * s.derate g / 256

def State.tgtSum (s : State) (g : Nat) : Nat := (s.qos.rsv.filter (fun e => decide (e.2.tgt = g))).foldl (fun a e => a + e.2.rate) 0
def State.tgtScale (s : State) (g : Nat) : Nat := 65536 - tget 0 s.qos.lack g

def State.rsvFind (s : State) (src fc g : Nat) : Option (Nat × Rsv) :=
  s.qos.rsv.find? (fun e => decide (e.2.src = src) && decide (e.2.fc = fc) && decide (e.2.tgt = g))

/-- QOS_STATUS.RSV_FREE. -/
def State.rsvFree (s : State) : State := s.setFld qosStatus 0 17 (65536 - s.qos.rsv.length)

/-- The unit that a target names (R5, R167): an egress port, a stack, or the port of a logical device. -/
def tgtUnits (g : Nat) : List (Nat × Nat) :=
  if g < 192 then [(2, g)] else if g < 196 then [(8, g - 192)] else if 256 ≤ g ∧ g < 256 + 3072 then [(2, (g - 256) / 16)] else []

/-- The port that a TGT field names (R327). -/
def tgtObjs (g : Nat) : List Obj :=
  if g < 192 then [.port g] else if 256 ≤ g ∧ g < 256 + 3072 then [.port ((g - 256) / 16)] else []

/-- OP_QOS_RESERVE: adds a reservation or replaces its rate (R168). -/
def execOpQosReserve (q : Req) (b : List Byte) (s : State) : Res :=
  let src := leAt b 0 4
  let fc := byteAt b 4
  let g := leAt b 6 2
  let rate := leAt b 8 4
  let bad := decide (2 ^ 18 ≤ src) || !fcOk fc || !rsvZero b [(5, 1)] || decide (4096 ≤ g) || decide (2 ^ 24 ≤ rate)
  .next (s.nalug_run 0x0803 q b { lenOk := decide (b.length = 12), badParam := bad, units := tgtUnits g, objs := tgtObjs g } (fun s =>
    let old := s.rsvFind src fc g
    let d := s.tgtDeliver g
    let sum := s.tgtSum g
    let was := match old with | some e => e.2.rate | none => 0
    let first := decide (sum = 0) && decide (s.tgtScale g = 65536)
    let idx := match old with
      | some e => some e.1
      | none => (List.range (min 65536 (s.qos.rsv.length + 1))).find? (fun k => (tfind s.qos.rsv k).isNone)
    let put := fun (x : State) (k : Nat) => ((x.inQos (fun y => { y with
        rsv := tins y.rsv k ⟨src, fc, g, rate⟩
        seen := if first then tput 0 y.seen g d else y.seen
        edgeD := if first then tput 0 y.edgeD g d else y.edgeD })).rsvFree, some (stOk, toLe 4 (d - (sum - was + rate))))
    if old.isSome ∧ rate < was then put s (idx.getD 0)
    else if d = 0 then refuse s stQosTarget
    else match idx with
      | none => refuse s stQosNoEntry
      | some k =>
        if d < sum - was + rate then (s.cnt qosRefuseCnt, some (stQosAdmission, toLe 4 (d - sum)))
        else put s k))

/-- OP_QOS_RELEASE: removes a reservation (R168). -/
def execOpQosRelease (q : Req) (b : List Byte) (s : State) : Res :=
  let src := leAt b 0 4
  let fc := byteAt b 4
  let g := leAt b 6 2
  let bad := decide (2 ^ 18 ≤ src) || !fcOk fc || !rsvZero b [(5, 1)] || decide (4096 ≤ g)
  .next (s.nalug_run 0x0804 q b { lenOk := decide (b.length = 8), badParam := bad, units := tgtUnits g, objs := tgtObjs g } (fun s =>
    match s.rsvFind src fc g with
    | none => refuse s stQosNoFlow
    | some e => ok (s.inQos (fun y => { y with rsv := tdel y.rsv e.1 })).rsvFree))

/-- OP_QOS_TARGET_SET: declares or removes a device's rate (R167). -/
def execOpQosTargetSet (q : Req) (b : List Byte) (s : State) : Res :=
  let g := leAt b 6 2
  let rate := leAt b 8 4
  let bad := !rsvZero b [(0, 6)] || decide (4096 ≤ g) || decide (2 ^ 24 ≤ rate)
  .next (s.nalug_run 0x0805 q b { lenOk := decide (b.length = 12), badParam := bad, units := tgtUnits g, objs := tgtObjs g } (fun s =>
    if g < 256 ∨ tget 0 s.bind.devs (g - 256) = 0 then refuse s stQosTarget
    else ok (s.inQos (fun y => { y with declared := if rate = 0 then tdel y.declared g else tins y.declared g rate }))))

/-- The CIR of a flow under its reservations' scales (R171). -/
def State.scaledCir (s : State) (key cirP : Nat) : Option Nat :=
  let src := key % 2 ^ 18
  let fc := key / 2 ^ 18 % 8
  let mine := s.qos.rsv.filter (fun e => decide (e.2.src = src) && decide (e.2.fc = fc))
  if mine.isEmpty then none
  else
    let booked := mine.foldl (fun a e => a + e.2.rate) 0
    some (mine.foldl (fun a e => a + e.2.rate * s.tgtScale e.2.tgt / 65536) 0 + (cirP - booked))

/-- At an edge: the deliverable rates of the targets that are or were reserved on (R171). -/
def State.rateEdge (s : State) : State :=
  let gs := ((s.qos.rsv.map (fun e => e.2.tgt)) ++ (s.qos.lack.map (·.1)) ++ (s.qos.seen.map (·.1))).eraseDups
  s.inQos (fun q => { q with edgeD := gs.foldl (fun a g => tput 0 a g (s.tgtDeliver g)) q.edgeD })

/-- QOS_RESCALE: at the first edge after a target's deliverable rate changed, its scale and the flows' CIRs (R171). The rate is
that of the edge; a target that nothing was ever reserved on has scale 65,536 at every rate. -/
def execQosRescale (tgt : Fin 4096) (s : State) : Res :=
  let g : Nat := tgt
  let d := tget 0 s.qos.edgeD g
  let was := tget 0 s.qos.seen g
  if d = was then .next s
  else
    let sum := s.tgtSum g
    let sc := if sum = 0 then 65536 else min 65536 (d * 65536 / sum)
    let old := s.tgtScale g
    let s1 := s.inQos (fun q => { q with seen := tput 0 q.seen g d, lack := tput 0 q.lack g (65536 - sc) })
    let s2 := s1.inQos (fun q => { q with flows := q.flows.map (fun e => match s1.scaledCir e.1 e.2.cirP with
      | some c => (e.1, { e.2 with cir := c })
      | none => e) })
    if sc < old then .next ((s2.raise 0x0803 [.w g, .w was, .w d, .w sc]).cnt qosScaleCnt)
    else if old < sc then .next (s2.raise 0x0804 [])
    else .next s2

/-- Refill every bucket of the module in cycle 0 (R160). -/
def State.refillFlows (s : State) : State :=
  let s1 := s.inQos (fun q => { q with flows := q.flows.map (fun e => (e.1, { e.2 with dc := e.2.dc - e.2.cir, dp := e.2.dp - e.2.pir })) })
  s1.each (s1.qos.defs.map (·.1)) (fun k t =>
    let f := t.defFlow (k / 8) (k % 8)
    if t.wheel (k / 8) then t else t.setDef (k / 8) (k % 8) { f with dc := f.dc - f.cir, dp := f.dp - f.pir })

end Sys2Proof.Machine
end

