-- ==== Sys2Proof/Machine/Rings.lean ====
section
/-! DEFINITION. Engine instances: rings, heads, interrupts, shares, mailboxes, service (R176-R184, R205-R218). -/

namespace Sys2Proof.Machine

def stEngFormat := 0x60
def stEngDenied := 0x61
def stEngDecode := 0x62
def stEngMismatch := 0x63
def stEngPoison := 0x64
def stEngTargetFailed := 0x65
def stEngOverflow := 0x66
def stEngRate := 0x67
def stEngAborted := 0x68
def stEngTimeout := 0x69
def stEngMoveState := 0x6A
def stEngMoveAborted := 0x6B
def stInsBusy := 0x70

def State.inEng (s : State) (f : EngS → EngS) : State := { s with eng := f s.eng }
def State.inst (s : State) (i : Nat) : Inst := tget {} s.eng.insts i
def State.setInst (s : State) (i : Nat) (x : Inst) : State := s.inEng (fun e => { e with insts := tput {} e.insts i x })

/-! ### Fields of an instance (R210, R220) -/

def State.insBound (s : State) (i : Nat) : Bool := s.bit (engInst i) 31
def State.insHost (s : State) (i : Nat) : Nat := s.fld (engInst i) 0 18
def State.insCluster (s : State) (i : Nat) : Nat := s.fld (engInst i) 24 2
def State.insLegacy (s : State) (i : Nat) : Bool := s.bit (engInst i) 29
def State.insManager (s : State) (i : Nat) : Bool := s.bit (engInst i) 30
def State.insReject (s : State) (i : Nat) : Bool := s.bit (engInst i) 28
def State.insVec (s : State) (i : Nat) : Nat := s.fld (engInst i + 4) 20 11
def State.insCir (s : State) (i : Nat) : Nat := s.fld (engInst i + 8) 0 24
def State.insPir (s : State) (i : Nat) : Nat := s.fld (engInst i + 12) 0 24
def State.insPbs (s : State) (i : Nat) : Nat := s.fld (engInst i + 16) 0 24
def State.insWeight (s : State) (i : Nat) : Nat := max 1 (s.fld (engInst i + 16) 24 8)
def State.insCbs (s : State) (i : Nat) : Nat := s.fld (engInst i + 20) 0 24
/-- INS_RING_STATUS.STATE: 0 DISABLED, 1 RUNNING, 2 DISABLING, 3 STOPPED, 4 ERROR. -/
def State.ringState (s : State) (i : Nat) : Nat := s.fld (insRingStatus i) 29 3
def State.setRing (s : State) (i st err : Nat) : State := (s.setFld (insRingStatus i) 29 3 st).setFld (insRingStatus i) 24 2 err
def State.ringUnits (s : State) (i : Nat) : Nat := 2 ^ (6 + s.fld (insRingCtl i) 0 4)
def State.ringSpace (s : State) (i : Nat) : Nat := s.fld (insRingCtl i) 4 2
def State.ringBase (s : State) (i : Nat) : Nat := s.reg64 (insRingBase i)
/-- The address of a ring position (R178). -/
def State.unitAddr (s : State) (i pos : Nat) : Nat := s.ringBase i + pos % s.ringUnits i * 32

/-- Instances that are bound, lowest first. -/
def State.boundInsts (s : State) : List Nat := (List.range 1024).filter s.insBound

/-! ### Shares (R212) -/

def State.pfShare (s : State) : Nat := if s.eng.shareN = 0 then 1024 else min 1024 (16384 * s.eng.shareP / s.eng.shareN)
def State.cplShare (s : State) : Nat := if s.eng.shareN = 0 then 256 else min 256 (4096 * s.eng.shareP / s.eng.shareN)
def State.clusters (s : State) : List Nat := (List.range 4).filter (s.present 7)

/-- Prefetch slots that an instance holds (R202). -/
def Inst.pfHeld (x : Inst) : Nat := x.units.length + (x.ents ++ x.late).foldl (fun a e => if e.comp then a else a + e.n) 0
/-- Completion slots that an instance holds (R202). -/
def Inst.cplHeld (x : Inst) : Nat :=
  x.unpub + ((x.ents ++ x.late).filter (fun e => e.comp || e.opn || e.bad)).length + (match x.job with | some j => b2n j.fin.isSome | none => 0)

/-- A tick edge: n and P as they stand are those for which the shares now change (R212). -/
def State.latchShares (s : State) : State := s.inEng (fun e => { e with dueN := s.boundInsts.length, dueP := s.clusters.length })

/-- SHARE_CHANGE: n or P has changed before the last edge; the shares change (R212). -/
def execShareChange (s : State) : Res :=
  if s.eng.dueN = s.eng.shareN ∧ s.eng.dueP = s.eng.shareP then .next s
  else .next ((s.inEng (fun e => { e with shareN := e.dueN, shareP := e.dueP })).raise 0x0604 [])

/-! ### Interrupts and the head (R183, R211) -/

/-- Send an instance's vector, of the bound host's vCS upstream port function: a masked one sets its pending bit (R211, R266). -/
def State.sendVec (s : State) (i : Nat) : State :=
  let n := s.insVec i
  match s.vcsOfHost (s.insHost i) with
  | some (v, _) => if s.msixMasked v n then { s with cxl := { s.cxl with pba := tput false s.cxl.pba (v * 2048 + n) true } } else s.emit (.insIrq i n)
  | none => s.emit (.insIrq i n)

/-- Signal an instance (R211). -/
def State.insSignal (s : State) (i : Nat) : State :=
  if s.bit (insIrqCtl i) 31 then s.setBit (insIrqCtl i) 30 true else s.sendVec i

/-- INS_IRQ_CTL_WRITE: PEND is cleared by 1; clearing MASK while PEND is set sends the vector once (R211). -/
def execInsIrqCtlWrite (i : InstIx) (v : Word) (s : State) : Res :=
  let pend := s.bit (insIrqCtl i) 30
  let send := s.bit (insIrqCtl i) 31 && !v.getLsbD 31 && pend
  let s1 := (s.setBit (insIrqCtl i) 31 (v.getLsbD 31)).setBit (insIrqCtl i) 30 (pend && !v.getLsbD 30 && !send)
  .next (if send then s1.sendVec i else s1)

/-- Advance H past the complete entries at its front (R183). -/
def Inst.advance (x : Inst) (now : Tick) : Inst :=
  let n := (x.ents.takeWhile (fun e => e.comp)).length
  match (x.ents.take n).getLast? with
  | none => x
  | some e => { x with h := (e.pos + e.n) % 2 ^ 32, ents := x.ents.drop n, unpub := x.unpub + n, movedAt := if x.unpub = 0 then now else x.movedAt }

/-- Publish H: to INS_HEAD_WB when valid, then INS_RING_HEAD, then the signal (R183, R211). -/
def State.publish (s : State) (i : Nat) : State :=
  let x := s.inst i
  let s1 := if s.bit (insHeadWbCtl i) 31 then s.emit (.engWrite i (s.fld (insHeadWbCtl i) 0 2) (s.reg64 (insHeadWb i)) (toLe 4 x.h)) else s
  let s2 := (s1.setN (insRingHead i) x.h).setInst i { x with unpub := 0, irqDue := false }
  if x.irqDue then s2.insSignal i else s2

/-- A ring leaves DISABLING when every started entry is complete: DISABLED, head published (R180). -/
def State.ringSettle (s : State) (i : Nat) : State :=
  let x := s.inst i
  if s.ringState i = 2 ∧ x.ents.isEmpty ∧ x.job.isNone then (s.publish i).setRing i 0 (s.fld (insRingStatus i) 24 2) else s

/-- A ring is DISABLED: entries that are not complete, open hampers among them, no longer hold its head back (R180, R193, R203):
DESIGN CHOICE (log 267). -/
def Inst.park (x : Inst) : Inst := { x with late := x.late ++ x.ents.filter (fun e => !e.comp && !e.bad), ents := [], units := [], refetch := false }

/-- Stop the unfinished job of a ring; a page move at its boundary is abandoned (R180, R196, R203). -/
def State.stopInst (s : State) (i st : Nat) : State :=
  let x := s.inst i
  let s1 := match x.job with
    | some j => if j.fin.isNone ∧ x.eng.isNone ∧ byteAt j.bytes 0 = 0x10 then s.abandonMove (leAt j.bytes 16 4) else s
    | none => s
  s1.setInst i ((s1.inst i).stopJob (fun j => j.stop.isNone) st)

/-- The write-back of an entry fails: the head stays before it, and a ring in service goes to ERROR (R180). -/
def State.wbFailed (s : State) (i num : Nat) : State :=
  let x := s.inst i
  let s1 := s.setInst i { x with
    late := x.late.filter (fun e => decide (e.job ≠ num))
    ents := x.ents.map (fun (e : REnt) => if e.job = num then ({ e with bad := true, opn := false } : REnt) else e) }
  if s.ringState i = 1 ∨ s.ringState i = 2 then
    ((s1.setInst i { s1.inst i with units := [], refetch := false }).setRing i 4 3).raiseLim 0x0501 i []
  else s1

/-- The engine that serves a ring becomes free. -/
def State.freeEngine (s : State) (i : Nat) : State :=
  let x := s.inst i
  match x.eng with
  | some e => (s.setInst i { x with eng := none }).setReg (engEState e) 0
  | none => s

/-- A ring goes to ERROR (R178, R180): fetched entries are discarded. -/
def State.ringError (s : State) (i err : Nat) : State :=
  let x := s.inst i
  ((s.setInst i { x with units := [], refetch := false }).setRing i 4 err).raiseLim 0x0501 i []

/-- The head is due to be published: an entry with IRQ = 1 has completed, H has reached T, or an edge has passed since H moved
(R183). -/
def State.headDue (s : State) (i : Nat) : Bool :=
  let x := s.inst i
  x.irqDue || (decide (x.h ≠ s.nreg (insRingHead i)) && (decide (x.h = x.t) || decide (x.movedAt ≠ s.tick.loc)))

/-- HEAD_PUBLISH (R183); a write-back that fails puts the ring into ERROR (R180). -/
def execHeadPublish (i : InstIx) (good : Bool) (s : State) : Res :=
  if s.headDue i then
    (if good || !s.bit (insHeadWbCtl i) 31 then .next (s.publish i)
     else .next ((s.ringError i 3)))
  else .next s

/-! ### Range checks (R57, R185) -/

/-- The first byte of a pooled range that this module refuses: offset, reason (7 a FAILED slice), and what R58 reports; the origin's
port is the upstream port of the host's vCS: DESIGN CHOICE (log 252). -/
def State.poolCheck (s : State) (i addr len : Nat) (write : Bool) : Option (Nat × Nat × (State → State)) :=
  let host := s.insHost i
  match s.vcsOfHost host with
  | none => some (0, 0, fun t => t.originFail none host 0 addr)
  | some (v, c) =>
    (pooledPieces c addr len).findSome? (fun y =>
      match s.originByte v (addr + y.1) write with
      | .inl (r, w) => some (y.1, r, fun t => t.originFail (some c.usp) host r w)
      | .inr (e, w) =>
        if e.remote.isSome then none
        else if (s.slice e.slice).state = 5 then some (y.1, 7, id)
        else match s.homeReason host e.slice write with
          | some r => some (y.1, r, fun t => t.homeFail host e.slice (w % 2 ^ 28) r)
          | none => none)

/-- The check requests of a pooled operand toward remote homes, one per slice (R185, R229); of one in host memory, the translation of each
page (R177). -/
def State.sendChecks (s : State) (i space addr len : Nat) (write : Bool) : State :=
  if space = 1 then s.each (List.range (ceilDiv (addr % 4096 + len) 4096)) (fun k t => t.emit (.atsRequest i (addr / 4096 + k)))
  else match s.vcsOfHost (s.insHost i) with
  | none => s
  | some (v, c) =>
    let l := (pooledPieces c addr len).filterMap (fun y => match s.originByte v (addr + y.1) write with
      | .inr (e, o) => e.remote.map (fun f => (f, e.slice, o % 2 ^ 28, y.2))
      | .inl _ => none)
    let sl := (l.map (fun y => y.2.1)).eraseDups
    s.each sl (fun n t =>
      let mine := l.filter (fun y => decide (y.2.1 = n))
      match mine with
      | [] => t
      | (f, _, o, _) :: _ =>
        let total := mine.foldl (fun a y => a + y.2.2.2) (o % 64)
        { t with lnk := { t.lnk with nextTag := (t.lnk.nextTag + 1) % 2 ^ 32 } }.emit
          (.engCreq i f t.lnk.nextTag 0 8 (if write then 2 else 1) n (o / 64) total []))

/-- The first byte of an operand that a check refuses: this module's checks of a pooled range, and the answers of remote
homes and of the host's translation, which the command carries as operand, offset, reason. -/
def State.rangeCheck (s : State) (i k space addr len : Nat) (write : Bool) (ext : List (Nat × Nat × Nat)) : Option (Nat × Nat × (State → State)) :=
  let out := (ext.filter (fun x => decide (x.1 = k))).foldl (fun (a : Option (Nat × Nat)) x => match a with
    | some y => if y.1 ≤ x.2.1 then some y else some (x.2.1, x.2.2)
    | none => some (x.2.1, x.2.2)) none
  let own := if space = 0 then s.poolCheck i addr len write else none
  match own, out with
  | some a, some b => if a.1 ≤ b.1 then some a else some (b.1, b.2, id)
  | some a, none => some a
  | none, some b => some (b.1, b.2, id)
  | none, none => none

/-! ### Enable, disable, doorbell, fetch (R178-R180) -/

/-- RING_ENABLE: EN from 0 to 1. `ext`: refusals from outside, the ring being operand 0 and the head write-back 1. -/
def execRingEnable (i : InstIx) (ext : List (Nat × Nat × Nat)) (s : State) : Res :=
  if !s.insBound i || s.bit (insRingCtl i) 31 then .next s
  else
    let s1 := s.setBit (insRingCtl i) 31 true
    if s.ringState i ≠ 0 then .next s1
    else
      let len := s.ringUnits i * 32
      let sp := s.ringSpace i
      let s1 := s1.sendChecks i sp (s.ringBase i) len true
      let s1 := if s.bit (insHeadWbCtl i) 31 then s1.sendChecks i (s.fld (insHeadWbCtl i) 0 2) (s.reg64 (insHeadWb i)) 4 true else s1
      let ring := [false, true].findSome? (fun w => s.rangeCheck i 0 sp (s.ringBase i) len w ext)
      let wb := if s.bit (insHeadWbCtl i) 31 then s.rangeCheck i 1 (s.fld (insHeadWbCtl i) 0 2) (s.reg64 (insHeadWb i)) 4 true ext else none
      let badForm := decide (10 < s.fld (insRingCtl i) 0 4) || decide (1 < sp) || (s.bit (insHeadWbCtl i) 31 && decide (1 < s.fld (insHeadWbCtl i) 0 2))
      match badForm, ring, wb with
      | false, none, none =>
        let h := (s.inst i).h
        .next (((s1.setInst i { (s1.inst i).park with t := h, x := h }).setN (insRingTail i) h).setRing i 1 0)
      | _, some a, _ => .next ((a.2.2 s1).ringError i 2)
      | _, none, some a => .next ((a.2.2 s1).ringError i 2)
      | _, _, _ => .next (s1.ringError i 2)

/-- RING_DISABLE: EN from 1 to 0 (R180). -/
def execRingDisable (i : InstIx) (s : State) : Res :=
  if !s.bit (insRingCtl i) 31 then .next s
  else
    let s1 := s.setBit (insRingCtl i) 31 false
    let s2 := s1.stopInst i stEngAborted
    let err := s.fld (insRingStatus i) 24 2
    match s.ringState i with
    | 1 => .next (((s2.setInst i { s2.inst i with units := [], refetch := false }).setRing i 2 err).ringSettle i)
    | 3 | 4 => .next ((s2.setInst i (s2.inst i).park).setRing i 0 err)
    | _ => .next s1

/-- INS_DOORBELL_WRITE (R178, R180). -/
def execInsDoorbellWrite (i : InstIx) (tail : Word) (s : State) : Res :=
  if s.ringState i ≠ 1 then .next (s.cnt engDoorbellErrCnt)
  else
    let x := s.inst i
    let d := fun a b : Nat => (a + 2 ^ 32 - b) % 2 ^ 32
    if d tail.toNat x.h ≤ s.ringUnits i ∧ d tail.toNat x.t < 2 ^ 31 then
      .next ((s.setInst i { x with t := tail.toNat }).setReg (insRingTail i) tail)
    else .next ((s.cnt engDoorbellErrCnt).ringError i 1)

/-- RING_UNIT_FETCH: the unit at F arrives, or its fetch fails (R179, R180, R212). -/
def execRingUnitFetch (i : InstIx) (data : Option (List Byte)) (s : State) : Res :=
  let x := s.inst i
  if s.ringState i ≠ 1 ∨ (x.x + x.units.length) % 2 ^ 32 = x.t ∨ s.pfShare ≤ x.pfHeld ∨ x.refetch then .next s
  else match data with
  | none => .next (s.ringError i 3)
  | some b =>
    if b.length = 32 then
      let s1 := s.engLine i (s.ringSpace i) 6 (s.unitAddr i (x.x + x.units.length)) 32 none
      .next (s1.setInst i { x with units := x.units ++ [b] })
    else .next s

/-- REFETCH: the discarded entries are fetched again, after the writing job's writes have completed (R184). -/
def execRefetch (i : InstIx) (s : State) : Res :=
  let x := s.inst i
  if x.refetch ∧ x.job.isNone then .next (s.setInst i { x with refetch := false }) else .next s

/-- The number of leading units that whole entries before an address range take, when the range overlaps a fetched unit:
the entries from there on are discarded (R184). -/
def keepUnits (hit : Nat → Bool) : Nat → List (List Byte) → Nat → Option Nat
  | 0, _, _ => none
  | _, [], _ => none
  | fuel + 1, u :: r, k =>
    let n := byteAt u 1 % 8 + 1
    if (List.range (min n (r.length + 1))).any (fun j => hit (k + j)) then some k
    else keepUnits hit fuel ((u :: r).drop n) (k + n)

/-- A write of a job to memory; it discards fetched entries that it overlaps (R184). -/
def State.engData (s : State) (i space addr : Nat) (b : List Byte) : State :=
  if b.isEmpty then s
  else
    let x := s.inst i
    let s1 := s.engLines i space 6 addr b
    let hit := fun k => let a := s.unitAddr i (x.x + k); decide (addr < a + 32) && decide (a < addr + b.length)
    if space ≠ s.ringSpace i then s1
    else match keepUnits hit (x.units.length + 1) x.units 0 with
      | none => s1
      | some k => (s1.setInst i { x with units := x.units.take k, refetch := true }).cnt64 engRefetchCnt

/-! ### Service (R197, R213, R214) -/

/-- TC > 0 and TP > 0. -/
def State.insTc (s : State) (i : Nat) : Bool := decide ((s.inst i).dc < s.insCbs i)
def State.insTp (s : State) (i : Nat) : Bool := decide ((s.inst i).dp < s.insPbs i)

/-- The first entry of the fetched units is whole. -/
def Inst.entryReady (x : Inst) : Bool :=
  match x.units with
  | [] => false
  | u :: _ => decide (byteAt u 1 % 8 + 1 ≤ x.units.length) && !x.refetch

/-- Ready (R214). -/
def State.insReady (s : State) (i : Nat) : Bool :=
  let x := s.inst i
  s.insBound i && decide (s.ringState i = 1) && (x.job.isSome || x.entryReady) && s.insTp i && s.bit engCtl 31

/-- An engine event of the counters, for an instance (R376). -/
def State.pmcEng (s : State) (i ev n : Nat) : State := s.pmc ev (s.insCluster i) n { prv := some 1, fid := some (s.insHost i) }

/-- Subtract a charge (R213, R214). -/
def State.insCharge (s : State) (i c : Nat) : State :=
  let x := s.inst i
  s.setInst i { x with dc := min (s.insCbs i) (x.dc + c), dp := x.dp + c, deficit := x.deficit - c }

/-- Deficit round robin over a tier: instances in walk order take engines; the others gain. Fuel bounds the rounds. -/
def State.walkTier (s : State) : Nat → List Nat → Nat → List Nat → State × List Nat
  | 0, _, _, got => (s, got)
  | _, [], _, got => (s, got)
  | fuel + 1, i :: r, room, got =>
    if room ≤ got.length then (s, got)
    else
      let x := s.inst i
      if 0 < x.deficit then s.walkTier fuel r room (got ++ [i])
      else
        let w := s.insWeight i
        (s.setInst i { x with deficit := min ((w * 8192 : Nat) : Int) (x.deficit + ((w * 4096 : Nat) : Int)) }).walkTier fuel (r ++ [i]) room got

/-- The instances that a cluster serves next with `room` engines (R214); `skip` are served already. -/
def State.chooseInsts (s : State) (c room : Nat) (skip : List Nat) : State × List Nat :=
  let ready := s.boundInsts.filter (fun i => decide (s.insCluster i = c) && s.insReady i && !skip.contains i)
  let tier := fun (t : State) (k : Nat) (l : List Nat) (room : Nat) =>
    let at0 := tget 0 t.eng.ptr (c * 2 + k)
    let order := l.filter (fun i => decide (at0 ≤ i)) ++ l.filter (fun i => decide (i < at0))
    let (t1, got) := t.walkTier 65536 order room []
    (match got.getLast? with | some i => t1.inEng (fun e => { e with ptr := tput 0 e.ptr (c * 2 + k) (i + 1) }) | none => t1, got)
  let (s1, a) := tier s 0 (ready.filter s.insTc) room
  let (s2, b) := tier s1 1 (ready.filter (fun i => !s.insTc i)) (room - a.length)
  (s2, a ++ b)

/-- Bytes of an operation's step, or all of a legacy job (R197, R199). -/
def State.stepKib (s : State) : Nat := let v := s.fld engCtl 0 6; if 4 ≤ v ∧ v ≤ 63 then v else 16
def State.stepBytes (s : State) (i : Nat) (j : Job) : Nat :=
  min (if s.insLegacy i then leAt j.bytes 32 8 else s.stepKib * 1024) (leAt j.bytes 32 8 - j.prog)

/-- The entries of a REDUCE's sources: SPACE, address, count (R190). -/
def redSrcs (b : List Byte) : List (Nat × Nat × Nat) :=
  (List.range (byteAt b 29 / 16)).map (fun k => (byteAt b (76 + 16 * k) % 4, leAt b (64 + 16 * k) 8, leAt b (72 + 16 * k) 4))

/-- Elements of all sources. -/
def redTotal (b : List Byte) : Nat := (redSrcs b).foldl (fun a x => a + x.2.2) 0

/-- The ranges of elements `lo` to `hi` - 1 of the sources. -/
def redRanges (lo hi : Nat) : Nat → List (Nat × Nat × Nat) → List (Nat × Nat × Nat)
  | _, [] => []
  | base, (sp, a, n) :: r =>
    let x := max lo base
    let y := min hi (base + n)
    (if x < y then [(sp, a + 8 * (x - base), 8 * (y - x))] else []) ++ redRanges lo hi (base + n) r

/-- What the next step of a job reads: SPACE, address, length (R188 to R190, R197). -/
def State.stepRanges (s : State) (i : Nat) (j : Job) : List (Nat × Nat × Nat) :=
  let b := j.bytes
  let n := s.stepBytes i j
  let lo := byteAt b 40 % 4
  let hi := byteAt b 40 / 4 % 4
  match byteAt b 0 with
  | 0x01 => [(lo, leAt b 16 8 + (if copyDown b then leAt b 32 8 - j.prog - n else j.prog), n)]
  | 0x03 => [(lo, leAt b 16 8 + j.prog, n), (hi, leAt b 24 8 + j.prog, n)]
  | 0x04 => [(lo, leAt b 16 8 + j.prog, n)]
  | 0x08 =>
    let k := leAt b 48 4 + j.prog
    redRanges k (min (redTotal b) (k + s.stepKib * 128)) 0 (redSrcs b)
  | _ => []

/-- A step of the job that an engine runs begins: its line reads are issued (R176, R197). -/
def State.beginStep (s : State) (i : Nat) : State :=
  let x := s.inst i
  match x.job with
  | some j =>
    if j.fin.isSome || x.eng.isNone then s
    else
      let l := (s.stepRanges i j).flatMap (fun y => (lineSpans y.2.1 y.2.2).map (fun z => (y.1, z.1, z.2)))
      (s.setInst i { x with job := some { j with rdTodo := l, rdOut := 0 } }).issueReads i
  | none => s

/-- Give an engine to a ring. -/
def State.takeEngine (s : State) (i e : Nat) : State :=
  let x := s.inst i
  let s1 := (s.setInst i { x with eng := some e }).beginStep i
  match x.job with
  | some j => (s1.setReg (engEState e) (BitVec.ofNat 32 (2 ^ 31 + byteAt j.bytes 0 * 65536 + i))).cnt64 (engEJobCnt e)
  | none => s1

/-- The engines of a cluster that are present. -/
def State.clusterEngines (s : State) (c : Nat) : List Nat := ((List.range 16).map (fun k => 16 * c + k)).filter (s.present 6)

/-- The ring that an engine serves. -/
def State.servedBy (s : State) (e : Nat) : Option Nat := (s.eng.insts.find? (fun x => decide (x.2.eng = some e))).map (·.1)

/-- The schedule of one cluster at the edge (R197, R214): each engine has its next ring; an engine in the middle of a job
takes it at its step boundary, any other at once. -/
def State.schedCluster (s : State) (c : Nat) : State :=
  let es := s.clusterEngines c
  let (s1, l) := s.chooseInsts c (if s.bit engCtl 31 then es.length else 0) []
  let keep := es.filter (fun e => match s1.servedBy e with | some i => l.contains i | none => false)
  let free := es.filter (fun e => !keep.contains e)
  let rest := l.filter (fun i => !(match (s1.inst i).eng with | some e => keep.contains e | none => false))
  let s2 := s1.each keep (fun e t => t.inEng (fun g => { g with plan := tput 0 g.plan e (match t.servedBy e with | some i => i + 1 | none => 0) }))
  let s3 := s2.each free (fun e t => t.inEng (fun g => { g with plan := tput 0 g.plan e 0 }))
  let s4 := s3.each (free.zip rest) (fun x t => t.inEng (fun g => { g with plan := tput 0 g.plan x.1 (x.2 + 1) }))
  s4.each free (fun e t =>
    let midJob : Bool := match t.servedBy e with | some i => (t.inst i).job.any (fun j => j.fin.isNone) | none => false
    if midJob then t
    else
      let t1 := match t.servedBy e with | some i => t.freeEngine i | none => t
      match tget 0 t1.eng.plan e with
      | 0 => t1
      | n + 1 => if (t1.inst n).eng.isNone then t1.takeEngine n e else t1)

/-- At a step boundary the engine takes the ring that the schedule gave it; a ring whose TP is spent leaves its engine,
which takes the next in the walk (R197, R214). -/
def State.boundary (s : State) (i : Nat) : State :=
  match (s.inst i).eng with
  | none => s
  | some e =>
    let due := tget 0 s.eng.plan e
    let unfinished := (s.inst i).job.any (fun j => j.fin.isNone)
    let leave := fun t : State => ((if unfinished then t.cnt64 engPreemptCnt else t).freeEngine i)
    if due ≠ i + 1 then
      let s1 := leave s
      match due with
      | 0 => s1
      | n + 1 => if (s1.inst n).eng.isNone then s1.takeEngine n e else s1
    else if s.insTp i then s
    else
      let s1 := leave s
      let busy := (s1.eng.insts.filter (fun x => x.2.eng.isSome)).map (·.1)
      let (s2, l) := s1.chooseInsts (s1.insCluster i) 1 busy
      match l with
      | [] => s2.inEng (fun g => { g with plan := tput 0 g.plan e 0 })
      | n :: _ => (s2.inEng (fun g => { g with plan := tput 0 g.plan e (n + 1) })).takeEngine n e

/-- Refill the buckets of the instances in cycle 0; rates that wait take effect (R205, R213). -/
def State.refillInsts (s : State) : State :=
  s.each (s.eng.insts.map (·.1)) (fun i t =>
    let x := t.inst i
    let t1 := match x.rates with
      | none => t
      | some (w, cir, pir, cbs, pbs) =>
        let tc := min cbs (t.insCbs i - x.dc)
        let lack := if t.insPbs i < x.dp then pbs + (x.dp - t.insPbs i) else pbs - min pbs (t.insPbs i - x.dp)
        ((((t.setN (engInst i + 8) cir).setN (engInst i + 12) pir).setN (engInst i + 16) (w * 2 ^ 24 + pbs)).setN (engInst i + 20) cbs).setInst i
          { x with rates := none, dc := cbs - tc, dp := lack }
    let y := t1.inst i
    t1.setInst i { y with dc := y.dc - t1.insCir i, dp := y.dp - t1.insPir i, rej := false })

/-! ### Mailboxes (R216) -/

/-- T2M_SEND. -/
def execT2mSend (i : InstIx) (s : State) : Res :=
  if !s.insBound i then .next s
  else if s.bit (insMboxCtl i) 31 then .next (s.cnt (engInstMboxDropCnt i))
  else .next ((s.setBit (insMboxCtl i) 31 true).raise 0x0603 [.w i])

/-- T2M_ACK. -/
def execT2mAck (i : InstIx) (s : State) : Res := .next (s.setBit (insMboxCtl i) 31 false)

/-- M2T_SEND. -/
def execM2tSend (i : InstIx) (s : State) : Res :=
  if !s.insBound i then .next s
  else if s.bit (insMboxCtl i) 30 then .next (s.cnt (engInstMboxDropCnt i))
  else .next ((s.setBit (insMboxCtl i) 30 true).insSignal i)

/-- M2T_ACK. -/
def execM2tAck (i : InstIx) (s : State) : Res :=
  if s.insBound i then .next ((s.setBit (insMboxCtl i) 30 false).raise 0x0603 [.w i]) else .next s

/-- Write bytes at a byte offset within a run of words. -/
def State.putBytes (s : State) (base off : Nat) : List Byte → State
  | [] => s
  | b :: r => (s.setFld (base + off / 4 * 4) (off % 4 * 8) 8 b.toNat).putBytes base (off + 1) r

/-- MAILBOX_BUFFER_WRITE (R216). -/
def execMailboxBufferWrite (i : InstIx) (tenant m2t : Bool) (off : Fin 256) (b : List Byte) (s : State) : Res :=
  let full := s.bit (insMboxCtl i) (if m2t then 30 else 31)
  if tenant && m2t then .next s
  else if full && decide (tenant ≠ m2t) then .next (s.cnt (engInstMboxDropCnt i))
  else .next (s.putBytes (if m2t then insMboxM2t i 0 else insMboxT2m i 0) off (b.take (256 - off.val)))

end Sys2Proof.Machine
end

