-- ==== Sys2Proof/Machine/Engines.lean ====
section
/-! DEFINITION. Jobs of the engines: checks, operations, steps, completion, hampers, page moves (R181-R201, R205-R218). -/

namespace Sys2Proof.Machine

/-! ### Entry formats (R181, R187, R188, R190, R193, R194) -/

/-- An operand: number, SPACE, address, length, written. -/
structure Opnd where
  num   : Nat
  space : Nat
  addr  : Nat
  len   : Nat
  write : Bool

/-- Operands of an entry (R185). -/
def opnds (b : List Byte) : List Opnd :=
  let sz := leAt b 32 8
  let lo := byteAt b 40 % 4
  let hi := byteAt b 40 / 4 % 4
  match byteAt b 0 with
  | 0x01 => [⟨0, hi, leAt b 24 8, sz, true⟩, ⟨1, lo, leAt b 16 8, sz, false⟩]
  | 0x02 => [⟨0, hi, leAt b 16 8, sz, true⟩]
  | 0x03 => [⟨0, lo, leAt b 16 8, sz, false⟩, ⟨1, hi, leAt b 24 8, sz, false⟩]
  | 0x04 => [⟨1, lo, leAt b 16 8, sz, false⟩]
  | 0x08 => ⟨0, byteAt b 29 / 4 % 4, leAt b 16 8, 16, true⟩ ::
      ((redSrcs b).zip (List.range 12)).map (fun x => ⟨2 + x.2, x.1.1, x.1.2.1, 8 * x.1.2.2, false⟩)
  | _ => []

/-- Bytes a to b - 1 are 0. -/
def zeroBytes (b : List Byte) (lo n : Nat) : Bool := (List.range n).all (fun k => decide (byteAt b (lo + k) = 0))

/-- Units - 1 that an operation admits. -/
def lenOk (op n : Nat) : Bool :=
  match op with
  | 0x00 => true
  | 0x08 => decide (2 ≤ n)
  | _ => decide (n = 1)

/-- The greatest operand length: 2 MiB of host memory, 2^36 B of pooled memory; 1 MiB in legacy queued mode (R177, R199). -/
def maxLen (legacy : Bool) (space : Nat) : Nat := if legacy then 2 ^ 20 else if space = 1 then 2 ^ 21 else 2 ^ 36

/-- The offset of the first offending field of an entry (R187). -/
def formatErr (legacy : Bool) (b : List Byte) : Option Nat :=
  let op := byteAt b 0
  let n := byteAt b 1 % 8
  let known := ([0x00, 0x01, 0x02, 0x03, 0x04, 0x08, 0x10, 0x11] : List Nat).contains op
  let past := fun a len : Nat => decide (2 ^ 64 < a + len)
  let sz := leAt b 32 8
  let sp := byteAt b 40
  let body : List (Nat × Bool) :=
    match op with
    | 0x01 | 0x03 =>
      [(16, past (leAt b 16 8) sz), (24, past (leAt b 24 8) sz),
       (32, decide (sz = 0) || decide (maxLen legacy (sp % 4) < sz) || decide (maxLen legacy (sp / 4 % 4) < sz)),
       (40, decide (15 < sp) || decide (1 < sp % 4) || decide (1 < sp / 4 % 4)), (41, !zeroBytes b 41 23)]
    | 0x02 =>
      [(16, past (leAt b 16 8) sz), (32, decide (sz = 0) || decide (maxLen legacy (sp / 4 % 4) < sz)),
       (40, decide (15 < sp) || decide (sp % 4 ≠ 0) || decide (1 < sp / 4 % 4)), (41, !zeroBytes b 41 23)]
    | 0x04 =>
      [(16, past (leAt b 16 8) sz), (24, !zeroBytes b 28 4), (32, decide (sz = 0) || decide (maxLen legacy (sp % 4) < sz)),
       (40, decide (1 < sp)), (41, !zeroBytes b 41 23)]
    | 0x08 =>
      let rop := byteAt b 28
      let nsrc := byteAt b 29 / 16
      let hi := leAt b 42 6
      let sg := decide (128 ≤ byteAt b 41)
      [(16, past (leAt b 16 8) 16), (24, !zeroBytes b 24 4), (28, decide (6 < rop)),
       (29, decide (nsrc = 0) || decide (12 < nsrc) || decide (2 * (n - 1) < nsrc) || decide (1 < byteAt b 29 / 4 % 4) || decide (byteAt b 29 % 4 ≠ 0)),
       (30, !zeroBytes b 30 2),
       (32, if rop = 0 then (if sg then decide (hi ≠ 2 ^ 48 - 1) else decide (hi ≠ 0)) else if rop = 1 then decide (hi ≠ 0) else !zeroBytes b 40 8),
       (52, !zeroBytes b 52 12)] ++
      (((redSrcs b).zip (List.range 12)).flatMap (fun x =>
        [(64 + 16 * x.2, decide (x.1.2.1 % 8 ≠ 0) || past x.1.2.1 (8 * x.1.2.2)),
         (72 + 16 * x.2, decide (x.1.2.2 = 0) || decide (2 ^ 32 - 1 < ((redSrcs b).take (x.2 + 1)).foldl (fun a y => a + y.2.2) 0) || decide (maxLen legacy x.1.1 < 8 * x.1.2.2)),
         (76 + 16 * x.2, decide (1 < leAt b (76 + 16 * x.2) 4))]))
    | 0x11 => [(16, past (leAt b 16 8) 32), (24, decide (1 < byteAt b 24)), (25, !zeroBytes b 25 7), (48, !zeroBytes b 48 16)]
    | 0x10 => [(16, decide (2 ^ 18 ≤ leAt b 16 4)), (20, decide (2 ^ 18 ≤ leAt b 20 4)), (24, decide (2 ^ 24 ≤ leAt b 24 4)), (28, !zeroBytes b 28 36)]
    | _ => []
  let all : List (Nat × Bool) := [(0, !known), (1, !lenOk op n || decide (byteAt b 1 / 8 % 8 ≠ 0)), (3, decide (byteAt b 3 % 128 ≠ 0))] ++ body
  (all.find? (fun x => x.2)).map (·.1)

/-- The operation is not permitted on the instance (R187). -/
def State.engDenied (s : State) (i op : Nat) : Bool :=
  (decide (op = 0x10) && !s.insManager i) || (s.insLegacy i && (decide (op = 0x08) || decide (op = 0x10)))

/-- The whole charge of a job (R213). -/
def jobCharge (b : List Byte) : Nat :=
  let sz := leAt b 32 8
  match byteAt b 0 with
  | 0x01 | 0x03 => 2 * sz
  | 0x02 | 0x04 => sz
  | 0x08 => 8 * (redTotal b - leAt b 48 4) + 16
  | 0x10 => 8192 * 65536
  | _ => 0

/-! ### Starting a job -/

/-- The conditions under which a ring starts its next entry (R179, R181, R212, R214, R215). -/
def State.canStart (s : State) (i : Nat) : Bool :=
  !s.clk.draining &&
  let x := s.inst i
  s.insBound i && decide (s.ringState i = 1) && x.eng.isSome && x.job.isNone && x.entryReady && !x.rej && s.insTp i &&
  decide (x.cplHeld < s.cplShare) &&
  (match x.units with | u :: _ => !(decide (128 ≤ byteAt u 1)) || x.ents.all (fun e => e.comp) | [] => false)

/-- The next entry's bytes. -/
def Inst.entry (x : Inst) : List Byte :=
  match x.units with
  | u :: _ => (x.units.take (byteAt u 1 % 8 + 1)).flatten
  | [] => []

/-- Begin the next entry: its units leave the fetched ones, its job runs on the ring's engine. -/
def State.beginJob (s : State) (i : Nat) (b : List Byte) (fin : Option (Nat × Nat)) : State :=
  let x := s.inst i
  let n := b.length / 32
  let num := s.eng.jobs
  let s1 := (s.inEng (fun e => { e with jobs := e.jobs + 1 })).setInst i { x with
    units := x.units.drop n
    x := (x.x + n) % 2 ^ 32
    ents := x.ents ++ [{ pos := x.x, n := n, job := num, irq := decide (byteAt b 1 / 64 % 2 = 1) }]
    job := some { pos := x.x, bytes := b, num := num, fin := fin } }
  match x.eng with
  | some e => (s1.setReg (engEState e) (BitVec.ofNat 32 (2 ^ 31 + byteAt b 0 * 65536 + i))).cnt64 (engEJobCnt e)
  | none => s1

/-- RESULT of a refused operand (R185). -/
def decodeResult (reason opnd off : Nat) : Nat := reason * 2 ^ 61 + opnd * 2 ^ 57 + off % 2 ^ 57

/-- The first operand byte that a check refuses: operand, offset, reason, its books. -/
def State.opndCheck (s : State) (i : Nat) (ops : List Opnd) (ext : List (Nat × Nat × Nat)) : Option (Nat × Nat × Nat × (State → State)) :=
  ops.findSome? (fun o => (s.rangeCheck i o.num o.space o.addr o.len o.write ext).map (fun r => (o.num, r)))

/-- The check requests of a job's operands leave (R185). -/
def State.checkOpnds (s : State) (i : Nat) (ops : List Opnd) : State :=
  s.each ops (fun o t => t.sendChecks i o.space o.addr o.len o.write)

/-- The slices of this module that the pooled operands of a job touch (R201). -/
def State.opndSlices (s : State) (i : Nat) (ops : List Opnd) : List Nat :=
  match s.vcsOfHost (s.insHost i) with
  | none => []
  | some (v, c) => ((ops.filter (fun o => decide (o.space = 0))).flatMap (fun o =>
      (pooledPieces c o.addr o.len).filterMap (fun y => match s.originByte v (o.addr + y.1) o.write with
        | .inr (e, _) => if e.remote.isNone then some e.slice else none
        | .inl _ => none))).eraseDups

/-- Change the job of an instance. -/
def State.inJob (s : State) (i : Nat) (f : Job → Job) : State := let x := s.inst i; s.setInst i { x with job := x.job.map f }

/-- Start an entry of operation `op`: format, permission, rate, operand checks; then `go` (R185, R187, R215). `bad`: a field that what
the command brings shows to be wrong. -/
def State.startEntry (s : State) (i op : Nat) (chg : List Byte → Nat) (ops : List Byte → List Opnd) (ext : List (Nat × Nat × Nat)) (go : State → List Byte → State)
    (bad : List Byte → Option Nat := fun _ => none) : State :=
  let x := s.inst i
  if !s.canStart i then s
  else
    let b := x.entry
    let o := byteAt b 0
    let mine := decide (o = op) || (decide (op = 0) && !([0x01, 0x02, 0x03, 0x04, 0x08, 0x10, 0x11] : List Nat).contains o)
    let wrong := match formatErr (s.insLegacy i) b, bad b with
      | some a, some c => some (min a c)
      | some a, none => some a
      | none, c => c
    if !mine then s
    else match wrong with
    | some off => s.beginJob i b (some (stEngFormat, off))
    | none =>
      if s.engDenied i o then s.beginJob i b (some (stEngDenied, 0))
      else
        let c := chg b
        let tp := s.insPbs i - x.dp
        if s.insLegacy i && decide (s.insPbs i < c) then (s.cnt (engInstRateCnt i)).beginJob i b (some (stEngRate, 0))
        else if s.insLegacy i && decide (tp < c) then s
        else if !s.insLegacy i && s.insReject i && decide (tp < c) then
          let s1 := (s.cnt (engInstRateCnt i)).beginJob i b (some (stEngRate, 0))
          s1.setInst i { s1.inst i with rej := true }
        else
          let s1 := s.checkOpnds i (ops b)
          match s.opndCheck i (ops b) ext with
          | some (_, _, 7, _) => s1.beginJob i b (some (stEngTargetFailed, 0))
          -- the read of a hamper's record
          | some (_, off, 8, _) => s1.beginJob i b (some (stEngPoison, off))
          | some (_, off, 9, _) => s1.beginJob i b (some (stEngTimeout, off))
          | some (k, off, r, f) => (f s1).beginJob i b (some (stEngDecode, decodeResult r k off))
          | none =>
            let t := go (if s.insLegacy i then s1.insCharge i c else s1) b
            (t.inJob i (fun j => { j with hit := j.hit ++ s.opndSlices i (ops b) })).beginStep i

/-- NOP, and entries whose OP names no operation (R187). -/
def execNop (i : InstIx) (ext : List (Nat × Nat × Nat)) (s : State) : Res :=
  .next (s.startEntry i 0 jobCharge opnds ext (fun t b => t.beginJob i b (some (stOk, 0))))
/-- COPY (R189). -/
def execCopy (i : InstIx) (ext : List (Nat × Nat × Nat)) (s : State) : Res := .next (s.startEntry i 0x01 jobCharge opnds ext (fun t b => t.beginJob i b none))
/-- FILL (R189). -/
def execFill (i : InstIx) (ext : List (Nat × Nat × Nat)) (s : State) : Res := .next (s.startEntry i 0x02 jobCharge opnds ext (fun t b => t.beginJob i b none))
/-- COMPARE (R189). -/
def execCompare (i : InstIx) (ext : List (Nat × Nat × Nat)) (s : State) : Res := .next (s.startEntry i 0x03 jobCharge opnds ext (fun t b => t.beginJob i b none))

/-- CRC32C: the register starts at SEED XOR 0xFFFF_FFFF (R189). -/
def execCrc32c (i : InstIx) (ext : List (Nat × Nat × Nat)) (s : State) : Res :=
  .next (s.startEntry i 0x04 jobCharge opnds ext (fun t b =>
    (t.beginJob i b none).inJob i (fun j => { j with crc := leAt b 24 4 })))

/-- A two's complement number of n bits. -/
def signed (n v : Nat) : Int := if 2 ^ (n - 1) ≤ v then (v : Int) - ((2 ^ n : Nat) : Int) else (v : Int)

/-- The starting accumulator (R190). -/
def accIn (b : List Byte) : Int :=
  match byteAt b 28 with
  | 0 => signed 80 (leAt b 32 10)
  | 1 => leAt b 32 10
  | 2 | 3 => signed 64 (leAt b 32 8)
  | _ => leAt b 32 8

/-- REDUCE (R190). -/
def execReduce (i : InstIx) (ext : List (Nat × Nat × Nat)) (s : State) : Res :=
  .next (s.startEntry i 0x08 jobCharge opnds ext (fun t b =>
    (t.beginJob i b none).inJob i (fun j => { j with acc := accIn b })))

/-! ### Hampers (R193) -/

/-- HAMPER: the record is checked, fetched and submitted; the entry stays open and the ring goes on. `ext` also tells a read of the record
that returned poison (8) or a timeout (9). -/
def execHamper (i : InstIx) (rec : List Byte) (ext : List (Nat × Nat × Nat)) (s : State) : Res :=
  let len := 32 + 80 * byteAt rec 1
  if rec.length < len then .next s
  else .next (s.startEntry i 0x11 (fun _ => len) (fun b => [⟨1, byteAt b 24, leAt b 16 8, len, false⟩]) ext (fun t b =>
    let host := t.insHost i
    let v := match t.vcsOfHost host with | some x => x.1 | none => 96
    let t0 := t.each (lineSpans (leAt b 16 8) len) (fun y z => z.engLine i (byteAt b 24) 3 y.1 y.2 none)
    let t1 := t0.beginJob i b none
    let t1 := if t.insLegacy i then t1 else t1.insCharge i len
    let x := t1.inst i
    let num := t.eng.jobs
    let t2 := t1.setInst i { x with job := none, ents := x.ents.map (fun (e : REnt) => if e.job = num then ({ e with opn := true } : REnt) else e) }
    let t3 := match x.eng with
      | some e => (((t2.setReg (engEState e) 0).cnt64 (engEByteCnt e) len).cnt64 engByteCnt len).pmcEng i 0x0D len
      | none => t2
    (t3.hmpSubmit (.engine i num) host v (t.insLegacy i) none rec).boundary i)
    (fun b => if 2 ^ 64 < leAt b 16 8 + len then some 16 else none))

/-! ### Completion (R182, R183, R200) -/

def haltingStatus (st : Nat) : Bool := decide (0x60 ≤ st) && decide (st ≤ 0x6B) && decide (st ≠ 0x63)

/-- The write-back of STATUS, DONE and RESULT into unit 0 (R182). -/
def State.writeBack (s : State) (i pos st res : Nat) : State :=
  let sp := s.ringSpace i
  let a := s.unitAddr i pos
  s.emit (.engStatus i sp a (toLe 1 st ++ [0x80]) (toLe 8 res))

/-- The write-back of a finished job, and what it counts (R182, R200, R204). -/
def State.jobBack (s : State) (i pos st res : Nat) : State :=
  let s1 := ((s.writeBack i pos st res).cnt64 engJobCnt).pmcEng i 0x0E 1
  if 0x60 ≤ st ∧ st ≤ 0x6B then s1.cnt64 (engStatusCnt (st - 0x60)) else s1

/-- An entry is complete: H may move; an IRQ is due (R183). -/
def State.entryDone (s : State) (i num : Nat) : State :=
  let x := s.inst i
  let irq := x.ents.any (fun e => decide (e.job = num) && e.irq)
  let es : List REnt := x.ents.map (fun (e : REnt) => if e.job = num then ({ e with comp := true, opn := false } : REnt) else e)
  s.setInst i (({ x with ents := es, late := x.late.filter (fun e => decide (e.job ≠ num)), irqDue := x.irqDue || irq } : Inst).advance s.tick.loc)

/-- The write-back of an open HAMPER entry, whose outcome is known, fails (R180). -/
def State.hamperWbFail (s : State) (i : Nat) : State :=
  match s.hmp.engOut.find? (fun o => decide (o.1 = i)) with
  | none => s
  | some (_, num, rec) =>
    let s1 := s.inHmp (fun h => { h with engOut := h.engOut.erase (i, num, rec) })
    if ((s.inst i).ents ++ (s.inst i).late).any (fun e => decide (e.job = num) && e.opn) then s1.wbFailed i num else s1

/-- JOB_COMPLETE: the data writes are complete; STATUS, DONE and RESULT are written back (R180, R182, R200). While no job of the
instance is at its write-back, one that fails is that of its oldest HAMPER entry whose outcome is known (log 252). -/
def execJobComplete (i : InstIx) (good : Bool) (s : State) : Res :=
  let x := s.inst i
  let other := Host.Outcome.next (if good then s else s.hamperWbFail i)
  match x.job with
  | none => other
  | some j =>
    match j.fin with
    | none => other
    | some (st, res) =>
      let s0 := match x.eng with | some e => s.setReg (engEState e) 0 | none => s
      if !good then
        .next (((s0.setInst i { x with job := none }).wbFailed i j.num).freeEngine i)
      else
        let s4 := ((s0.setInst i { x with job := none }).jobBack i j.pos st res).entryDone i j.num
        if haltingStatus st && s.bit (insRingCtl i) 30 && decide (s.ringState i = 1) then
          let y := s4.inst i
          .next ((((s4.setInst i { y with units := [], refetch := false }).publish i).setRing i 3 (s.fld (insRingStatus i) 24 2)).freeEngine i)
        else .next (s4.ringSettle i)

/-- HAMPER_ENTRY_OUTCOME: the outcome of an open entry is written, in a ring disabled since too; one of a reset instance is not (R193,
R203). -/
def execHamperEntryOutcome (i : InstIx) (s : State) : Res :=
  match s.hmp.engOut.find? (fun o => decide (o.1 = i.val)) with
  | none => .next s
  | some (_, num, rec) =>
    let s1 := s.inHmp (fun h => { h with engOut := h.engOut.erase (i.val, num, rec) })
    match ((s.inst i).ents ++ (s.inst i).late).find? (fun e => decide (e.job = num) && e.opn) with
    | none => .next s1
    | some e =>
      let s2 := s1.each [0, 1] (fun k t => t.engLines i (s1.ringSpace i) 6 (t.unitAddr i (e.pos + 1) + 8 * k) ((rec.drop (8 * k)).take 8))
      .next (((s2.jobBack i e.pos (byteAt rec 0) 0).entryDone i num).ringSettle i)

/-! ### Steps (R197, R201) -/

/-- RESULT of a job that an ATS invalidation stops: its first operand in host memory, and the first byte not written. The invalidation names
no operand: DESIGN CHOICE (log 268). -/
def Job.atsResult (j : Job) : Nat :=
  decodeResult 6 (match (opnds j.bytes).find? (fun o => decide (o.space = 1)) with | some o => o.num | none => 0) j.firstUnwritten

/-- Why a started job must stop at a boundary: a failure or a disable, a revocation, an ATS invalidation (R180, R186, R201). -/
def State.jobStop (s : State) (i : Nat) (j : Job) : Option (Nat × Nat) :=
  match j.stop with
  | some st => (j.ended st).fin
  | none => match s.opndCheck i (opnds j.bytes) [] with
    | some (k, _, r, _) => some (stEngDecode, decodeResult r k j.firstUnwritten)
    | none => if 0 < (s.inst i).ats then some (stEngDecode, j.atsResult) else none

/-- Add elements to the accumulator from element `k`: the accumulator, the flags, and the element that overflows (R191,
R192). -/
def reduceElems (rop : Nat) : List Nat → Nat → Int → Nat → Int × Nat × Option Nat
  | [], _, acc, fl => (acc, fl, none)
  | v :: r, k, acc, fl =>
    match rop with
    | 0 =>
      let a := acc + signed 64 v
      if a < -((2 ^ 79 : Nat) : Int) ∨ ((2 ^ 79 : Nat) : Int) ≤ a then (acc, fl, some k) else reduceElems rop r (k + 1) a fl
    | 1 =>
      let a := acc + (v : Int)
      if ((2 ^ 80 : Nat) : Int) ≤ a then (acc, fl, some k) else reduceElems rop r (k + 1) a fl
    | 2 => reduceElems rop r (k + 1) (min acc (signed 64 v)) fl
    | 3 => reduceElems rop r (k + 1) (max acc (signed 64 v)) fl
    | 4 => reduceElems rop r (k + 1) (min acc (v : Int)) fl
    | 5 => reduceElems rop r (k + 1) (max acc (v : Int)) fl
    | _ =>
      let a := f64Add acc.toNat v
      reduceElems rop r (k + 1) (a.1 : Int) (fl ||| a.2)

/-- The accumulator in the ACC_IN layout (R190). -/
def accOut (rop : Nat) (acc : Int) : List Byte :=
  match rop with
  | 0 => toLe 16 (acc % ((2 ^ 128 : Nat) : Int)).toNat
  | 1 => toLe 16 acc.toNat
  | 2 | 3 => toLe 16 (acc % ((2 ^ 64 : Nat) : Int)).toNat
  | _ => toLe 16 acc.toNat

/-- Bytes in groups of eight. -/
def words64 : Nat → List Byte → List Nat
  | 0, _ => []
  | n + 1, b => leAt b 0 8 :: words64 n (b.drop 8)

/-- One step's work: the state with its writes, the job after it, the bytes charged. None: the step's reads are not there.
`part`: the step ends early, at a read that failed. -/
def State.stepWork (s : State) (i : Nat) (j : Job) (rd : List (List Byte)) (part : Bool) : Option (State × Job × Nat) :=
  let b := j.bytes
  let sz := leAt b 32 8
  let a := rd.headD []
  let n0 := s.stepBytes i j
  let n := if part then min n0 a.length else n0
  let hi := byteAt b 40 / 4 % 4
  let last := fun (k : Job) (st res : Nat) => if !part && decide (sz ≤ k.prog) then { k with fin := some (st, res) } else k
  match byteAt b 0 with
  | 0x01 =>
    if a.length < n then none
    else
      let dst := leAt b 24 8
      let o := if copyDown b then sz - j.prog - n else j.prog
      some (s.engData i hi (dst + o) (a.take n), last { j with prog := j.prog + n } stOk 0, 2 * n)
  | 0x02 =>
    if part then some (s, j, 0)
    else
      let dst := leAt b 16 8 + j.prog
      some (s.engData i hi dst ((List.range n).map (fun k => b.getD (24 + (dst + k) % 8) 0)), last { j with prog := j.prog + n } stOk 0, n)
  | 0x03 =>
    let c := (rd.drop 1).headD []
    let m := if part then min n c.length else n
    if a.length < m ∨ c.length < m then none
    else match (List.range m).find? (fun k => a.getD k 0 != c.getD k 0) with
      | some k => some (s, { j with fin := some (stEngMismatch, j.prog + k) }, 2 * m)
      | none => some (s, last { j with prog := j.prog + m } stOk 0, 2 * m)
  | 0x04 =>
    if a.length < n then none
    else
      let c := (crc32c (BitVec.ofNat 32 j.crc) (a.take n)).toNat
      some (s, last { j with prog := j.prog + n, crc := c } stOk c, n)
  | 0x08 =>
    let rop := byteAt b 28
    let total := redTotal b - leAt b 48 4
    let m0 := min (s.stepKib * 128) (total - j.prog)
    let m := if part then min m0 (a.length / 8) else m0
    if a.length < 8 * m then none
    else
      let (acc, fl, ov) := reduceElems rop (words64 m a) (leAt b 48 4 + j.prog) j.acc j.flags
      let k : Job := { j with prog := j.prog + m, acc := acc, flags := fl }
      let out := fun t : State => t.engData i (byteAt b 29 / 4 % 4) (leAt b 16 8) (accOut rop acc)
      match ov with
      | some e => some (out s, { k with fin := some (stEngOverflow, e) }, 8 * m + 16)
      | none =>
        if !part && decide (total ≤ k.prog) then some (out s, { k with fin := some (stOk, if rop = 6 then fl else 0) }, 8 * m + 16)
        else some (s, k, 8 * m)
  | _ => none

/-- Every line read of the step has been issued and has returned. -/
def State.readsDone (s : State) (i : Nat) (j : Job) : State :=
  s.each j.rdTodo (fun y t => t.engLine i y.1 6 y.2.1 y.2.2 none)

/-- The ATS invalidations that wait for a job's step complete (R186). -/
def State.atsEnd (s : State) (i : Nat) : State := s.each (List.range (s.inst i).ats) (fun _ t => t.emit (.atsDone i))

/-- JOB_STEP_BOUNDARY: a step's reads have returned `rd`, or one failed (`bad`: timeout instead of poison, and its operand
offset); its writes go out, the progress is saved, the engine may switch (R186, R189-R192, R197, R201). -/
def execJobStepBoundary (i : InstIx) (rd : List (List Byte)) (bad : Option (Bool × Nat)) (s : State) : Res :=
  let x := s.inst i
  match x.job, x.eng with
  | some j, some e =>
    if j.fin.isSome then .next s
    else match (s.readsDone i j).stepWork i { j with rdTodo := [], rdOut := 0 } rd bad.isSome with
    | none => .next s
    | some (s1, j1, c) =>
      let s2 := if s.insLegacy i then s1 else s1.insCharge i c
      let s3 := ((s2.cnt64 engByteCnt c).cnt64 (engEByteCnt e) c).pmcEng i 0x0D c
      let j2 : Job := match j1.fin, bad with
        | some _, _ => j1
        | none, some (tmo, off) => { j1 with fin := some (if tmo then stEngTimeout else stEngPoison, off) }
        | none, none => match s3.jobStop i j1 with
          | some r => { j1 with fin := some r }
          | none => j1
      let y := s3.inst i
      let s4 := (s3.atsEnd i).setInst i { y with job := some j2, ats := 0 }
      let s5 := s4.boundary i
      .next (if (s5.inst i).eng = some e then s5.beginStep i else s5)
  | _, _ => .next s

/-- ATS_INVALIDATION: it completes when every step that uses the page has ended; a job that rests at a boundary stops there (R186). -/
def execAtsInvalidation (i : InstIx) (used : Bool) (s : State) : Res :=
  let x := s.inst i
  match x.job with
  | some j =>
    if !used || j.fin.isSome then .next (s.emit (.atsDone i))
    else if x.eng.isSome then .next (s.setInst i { x with ats := x.ats + 1 })
    else .next ((s.setInst i { x with job := some { j with fin := some (stEngDecode, j.atsResult) } }).emit (.atsDone i))
  | none => .next (s.emit (.atsDone i))

/-! ### Page move (R47, R194-R196) -/

/-- A fabric ID has a valid KIND 0 member entry in the tile of its port (R194). -/
def State.hasMember (s : State) (f : Nat) : Bool :=
  (List.range 12).any (fun t =>
    let g := s.reg (tlGroupRt t (f / 256))
    let m := s.reg (tlMemberRt t (bits g 0 6) + 4 * (f % 256))
    decide (bits g 30 2 = 2) && decide (bits m 31 1 = 1) && decide (bits m 29 2 = 0))

/-- Open the move trackers of a page (R195). -/
def State.openPage (s : State) (i sl page : Nat) : State :=
  s.each (List.range 64) (fun l t =>
    let la := sl * 2 ^ 22 + page * 64 + l
    let (n, t1) := t.stamp
    let k := t1.freeTrk
    let tr : Trk := { la := la, ev := .move i, ord := n }
    if t1.lineBusy la || t1.home.trks.any (fun x => decide (x.2.la = la)) then t1.setTrk k tr
    else t1.issueRead k { tr with phase := 3 } false)

/-- PAGE_MOVE: the checks of R194, then the slice enters MOVING. -/
def execPageMove (i : InstIx) (ext : List (Nat × Nat × Nat)) (s : State) : Res :=
  .next (s.startEntry i 0x10 jobCharge opnds ext (fun t b =>
    let n := leAt b 16 4
    let dev := leAt b 20 4
    let dpa := leAt b 24 4
    let x := t.slice n
    let refused := !(decide (x.state = 1) || decide (x.state = 2)) || !t.hasMember dev || (decide (dev = x.dev) && decide (dpa = x.dpa)) ||
      decide (t.capacityOf dev < dpa + 1) ||
      t.bind.slices.any (fun e => decide (e.1 ≠ n) && decide (e.2.state ≠ 0) &&
        ((decide (e.2.dev = dev) && decide (e.2.dpa = dpa)) || (decide (e.2.state = 4) && decide (e.2.newDev = dev) && decide (e.2.newDpa = dpa))))
    if refused then t.beginJob i b (some (stEngMoveState, 0))
    else (((t.beginJob i b none).inJob i (fun j => { j with hit := [n] })).setSlice n { x with state := 4, newDev := dev, newDpa := dpa, mark := 0 }).openPage i n 0))

/-- PAGE_MOVE_STEP_DONE: the 64 copy writes of the page are complete: MOVE_MARK advances, the trackers close; the last page
completes the move; a move that must stop is abandoned (R47, R195, R196, R201). -/
def execPageMoveStepDone (i : InstIx) (s : State) : Res :=
  let x := s.inst i
  match x.job with
  | none => .next s
  | some j =>
    let n := leAt j.bytes 16 4
    let y := s.slice n
    let done := fun (t : State) (st res : Nat) =>
      let z := t.inst i
      (t.setInst i { z with job := some { j with fin := some (st, res) } }).boundary i
    if byteAt j.bytes 0 ≠ 0x10 ∨ j.fin.isSome then .next s
    else if y.state ≠ 4 ∨ j.stop = some stEngTargetFailed ∨ j.stop = some stEngMoveAborted then
      -- the slice failed, its domain is torn down, or NEW_DEVICE was lost
      .next (done s (j.stop.getD stEngMoveAborted) j.prog)
    else
      let page := y.mark
      let tr := fun k => s.home.trks.find? (fun t => decide (t.2.la = n * 2 ^ 22 + page * 64 + k) && t.2.ev.isMove)
      let all := (List.range 64).all (fun k => match tr k with | some t => decide (t.2.phase = 5) | none => false)
      let open0 := (List.range 64).any (fun k => (tr k).isSome)
      if !open0 then (if x.eng.isSome then .next (s.openPage i n page) else .next s)
      else if !all then .next s
      else
        let s1 := s.cutTrks (fun t => t.ev.isMove && decide (laSlice t.la = n))
        let s2 := s1.insCharge i 8192
        let s3 := (s2.cnt64 engByteCnt 8192).pmcEng i 0x0D 8192
        let s4 := match x.eng with | some e => s3.cnt64 (engEByteCnt e) 8192 | none => s3
        let s5 := s4.engLines i (s.ringSpace i) 6 (s.unitAddr i j.pos + 8) (toLe 8 (page + 1))
        let z := s5.inst i
        let s6 := (s5.setInst i { z with job := some { j with prog := page + 1 } }).setSlice n { y with mark := page + 1 }
        if 65536 ≤ page + 1 then
          .next (done (s6.setSlice n { y with mark := 0, dev := y.newDev, dpa := y.newDpa, newDev := 0, newDpa := 0, state := (if 0 < y.maps then 2 else 1) }) stOk (page + 1))
        else match j.stop with
          | some st => .next (done (s6.abandonMove n) st (page + 1))
          | none =>
            let s7 := s6.boundary i
            .next (if (s7.inst i).eng.isSome then s7.openPage i n (page + 1) else s7)

/-! ### Instances: bind, unbind, rates, reset (R205-R208, R218) -/

/-- An instance reset (R203, R218). -/
def State.insReset (s : State) (i : Nat) : State :=
  let x := s.inst i
  let opn := ((x.ents ++ x.late).filter (fun e => e.opn)).length
  let s0 := match x.job with
    | some j => if byteAt j.bytes 0 = 0x10 ∧ j.fin.isNone then s.abandonMove (leAt j.bytes 16 4) else s
    | none => s
  let s1 := ((s0.atsEnd i).freeEngine i).setInst i { rates := x.rates }
  let s2 := if 0 < opn then s1.cnt engHmpOrphanCnt opn else s1
  let page := insDoorbell i
  s2.clearRegs (fun o => decide (page ≤ o) && decide (o < page + 0x1000) && decide (o ≠ insInfo i) && decide (o ≠ insShare i))

/-- The present cluster with the fewest bound instances, the lowest on a tie (R205). -/
def State.pickCluster (s : State) : Option Nat :=
  let cnt := fun c => (s.boundInsts.filter (fun i => decide (s.insCluster i = c))).length
  s.clusters.find? (fun c => s.clusters.all (fun d => decide (cnt c ≤ cnt d)))

/-- OP_INS_BIND (R205). -/
def execOpInsBind (q : Req) (b : List Byte) (s : State) : Res :=
  let i := q.index.toNat
  let host := leAt b 0 4
  let pasid := leAt b 4 4
  let fl := byteAt b 8
  let vec := leAt b 10 2
  let cir := leAt b 12 4
  let pir := leAt b 16 4
  let cbs := leAt b 20 4
  let pbs := leAt b 24 4
  let bad := decide (2 ^ 18 ≤ host) || decide (2 ^ 20 ≤ pasid) || decide (8 ≤ fl) || decide (2048 ≤ vec) || [cir, pir, cbs, pbs].any (fun v => decide (2 ^ 24 ≤ v))
  .next (s.nalug_run 0x0601 q b { kinds := [9], lenOk := decide (b.length = 28), badParam := bad } (fun s =>
    let dup := s.boundInsts.any (fun k => decide (k = i) || (decide (s.insHost k = host) && decide (s.fld (engInst k + 4) 0 20 = pasid)))
    match s.pickCluster with
    | none => refuse s stUnitAbsent
    | some c =>
      if dup then refuse s stIdInUse
      else if (s.vcsOfHost host).isNone then refuse s stRange
      else if pir < cir ∨ pbs < cbs then refuse s stQosRate
      else
        let s1 := s.setN (engInst i) (2 ^ 31 + fl % 2 * 2 ^ 30 + fl / 2 % 2 * 2 ^ 29 + fl / 4 % 2 * 2 ^ 28 + c * 2 ^ 24 + host)
        let s2 := (((s1.setN (engInst i + 4) (vec * 2 ^ 20 + pasid)).setN (engInst i + 8) cir).setN (engInst i + 12) pir).setN (engInst i + 16) (byteAt b 9 * 2 ^ 24 + pbs)
        let s3 := (s2.setN (engInst i + 20) cbs).setN (insInfo i) (fl / 2 % 2 * 2 ^ 31 + fl % 2 * 2 ^ 30 + pasid)
        (((s3.setInst i {}).setReg (insRingHead i) 0).raise 0x0601 [], some (stOk, toLe 1 c))))

/-- OP_INS_UNBIND (R207). -/
def execOpInsUnbind (q : Req) (b : List Byte) (s : State) : Res :=
  let i := q.index.toNat
  .next (s.nalug_run 0x0602 q b { kinds := [9], lenOk := decide (b.length = 0) } (fun s =>
    if !s.insBound i then refuse s stRange
    else if s.ringState i ≠ 0 ∨ ((s.inst i).ents ++ (s.inst i).late).any (fun e => e.opn) then refuse s stInsBusy
    else
      let s1 := s.insReset i
      ok (((s1.setReg (insInfo i) 0).setBit (engInst i) 31 false).raise 0x0602 [])))

/-- OP_INS_SET_RATE (R205): from the next edge. -/
def execOpInsSetRate (q : Req) (b : List Byte) (s : State) : Res :=
  let i := q.index.toNat
  let cir := leAt b 12 4
  let pir := leAt b 16 4
  let cbs := leAt b 20 4
  let pbs := leAt b 24 4
  let bad := !rsvZero b [(0, 9), (10, 2)] || [cir, pir, cbs, pbs].any (fun v => decide (2 ^ 24 ≤ v))
  .next (s.nalug_run 0x0603 q b { kinds := [9], lenOk := decide (b.length = 28), badParam := bad } (fun s =>
    if !s.insBound i then refuse s stRange
    else if pir < cir ∨ pbs < cbs then refuse s stQosRate
    else ok (s.setInst i { s.inst i with rates := some (byteAt b 9, cir, pir, cbs, pbs) })))

/-- OP_INS_RESET (R218). -/
def execOpInsReset (q : Req) (b : List Byte) (s : State) : Res :=
  let i := q.index.toNat
  .next (s.nalug_run 0x0604 q b { kinds := [9], lenOk := decide (b.length = 0) } (fun s => ok (s.insReset i)))

/-! ### Lost engines (R198, R208) -/

/-- Instances of an absent cluster move, one at a time in instance order (R208). -/
def State.moveInsts (s : State) (c : Nat) : State :=
  if s.present 7 c then s
  else s.each (s.boundInsts.filter (fun i => decide (s.insCluster i = c))) (fun i t =>
    match t.pickCluster with
    | some d => t.setFld (engInst i) 24 2 d
    | none => t)

/-- Some engine is present. -/
def State.anyEngine (s : State) : Bool := (List.range 64).any (s.present 6)

/-- An engine is lost: its job goes on elsewhere from its last boundary, while an engine is left (R198). -/
def State.engineGone (e : Nat) (s : State) : State :=
  let s1 := match s.servedBy e with
    | none => s
    | some i =>
      let t := ((s.atsEnd i).setInst i { s.inst i with ats := 0 }).freeEngine i
      if s.anyEngine && (s.inst i).job.any (fun (j : Job) => j.fin.isNone) then
        ((t.inJob i (fun j => { j with rdTodo := [], rdOut := 0 })).cnt engRestartCnt).raise 0x0502 [.w e, .w i]
      else t
  (s1.inEng (fun g => { g with plan := tput 0 g.plan e 0 })).moveInsts (e / 16)

/-- No engine is left: every running job ends with ST_ENG_ABORTED, every ring goes to STOPPED (R198). -/
def State.enginesNone (s : State) : State :=
  (s.each s.boundInsts (fun i t =>
    let u := (t.freeEngine i).stopInst i stEngAborted
    (u.setInst i { u.inst i with units := [], refetch := false }).setRing i 3 (t.fld (insRingStatus i) 24 2))).raise 0x0503 []

/-- Engines are lost together (R198). -/
def State.enginesLost (s : State) (es : List Nat) : State :=
  let t := s.each es State.engineGone
  if t.anyEngine then t else t.enginesNone

/-! ### The instance window (R209, R210) -/

/-- A write of one word of an instance page, by the tenant or by the manager. -/
def State.pageWrite (s : State) (i : Nat) (tenant : Bool) (o : Nat) (w : Word) (ext : List (Nat × Nat × Nat)) : State :=
  let ii : InstIx := Fin.ofNat 1024 i
  let get := fun r : Res => match r with | .next t => t | _ => s
  let idle := decide (s.ringState i = 0)
  if o = 0 then get (execInsDoorbellWrite ii w s)
  else if o = 0x08 then (if idle then s.setReg (insRingBase i) (w &&& 0xFFFFF800#32) else s)
  else if o = 0x0C then (if idle then s.setReg (insRingBaseHi i) w else s)
  else if o = 0x10 then
    let en := s.bit (insRingCtl i) 31
    let keep := (s.reg (insRingCtl i)) &&& 0x80000000#32
    let sp := if idle then w &&& 0x30#32 else s.reg (insRingCtl i) &&& 0x30#32
    let s1 := s.setReg (insRingCtl i) (keep ||| (w &&& 0x4000000F#32) ||| sp)
    if w.getLsbD 31 && !en then get (execRingEnable ii ext s1)
    else if !w.getLsbD 31 && en then get (execRingDisable ii s1)
    else s1
  else if o = 0x18 then (if idle then (s.setInst i { s.inst i with h := w.toNat }).setReg (insRingHead i) w else s)
  else if o = 0x20 then s.setReg (insHeadWb i) (w &&& 0xFFFFFFFC#32)
  else if o = 0x24 then s.setReg (insHeadWbHi i) w
  else if o = 0x28 then s.setReg (insHeadWbCtl i) (w &&& 0x80000003#32)
  else if o = 0x30 then get (execInsIrqCtlWrite ii w s)
  else if o = 0x40 then
    let s1 := if tenant && w.getLsbD 3 then get (execT2mSend ii s) else s
    let s2 := if !tenant && w.getLsbD 2 then (match execT2mAck ii s1 with | .next t => t | _ => s1) else s1
    let s3 := if !tenant && w.getLsbD 1 then (match execM2tSend ii s2 with | .next t => t | _ => s2) else s2
    if tenant && w.getLsbD 0 then (match execM2tAck ii s3 with | .next t => t | _ => s3) else s3
  else if 0x100 ≤ o ∧ o < 0x200 then get (execMailboxBufferWrite ii tenant false (Fin.ofNat 256 (o - 0x100)) (toLe 4 w.toNat) s)
  else if 0x200 ≤ o ∧ o < 0x300 then get (execMailboxBufferWrite ii tenant true (Fin.ofNat 256 (o - 0x200)) (toLe 4 w.toNat) s)
  else s

/-- INS_SHARE of a bound instance. -/
def State.shareWord (s : State) : Nat := s.pfShare * 2 ^ 16 + s.cplShare

/-- A word of an instance page as it reads. -/
def State.pageRead (s : State) (i o : Nat) : Nat :=
  if o = 0 then 0
  else if o = 0x38 then (if s.insBound i then s.shareWord else 0)
  else s.nreg (insDoorbell i + o)

/-- INSTANCE_WINDOW_ACCESS: an access of a vCS's host to page i (R209). -/
def execInstanceWindowAccess (v : VcsIx) (i : InstIx) (off : Fin 4096) (wr : Option (List Byte)) (n : Nat) (ext : List (Nat × Nat × Nat)) (s : State) : Res :=
  let len := match wr with | some b => b.length | none => n
  match tfind s.bind.vcs v with
  | none => .next s
  | some c =>
    if !(s.insBound i && decide (s.insHost i = c.host)) then
      let s1 := s.cnt engInstStrayCnt
      .next (if wr.isNone then s1.emit (.insRead i off (List.replicate n 0)) else s1)
    else if (len ≠ 4 ∧ len ≠ 8) ∨ off.val % len ≠ 0 then
      .next (if wr.isNone then s.emit (.insRead i off (List.replicate n 0)) else s)
    else match wr with
      | none => .next (s.emit (.insRead i off ((List.range (len / 4)).flatMap (fun k => toLe 4 (s.pageRead i (off.val + 4 * k))))))
      | some b =>
        -- a write of a buffer is one write, discarded or not (R216)
        if 0x100 ≤ off.val ∧ off.val < 0x300 then
          execMailboxBufferWrite i true (decide (0x200 ≤ off.val)) (Fin.ofNat 256 off.val) b s
        else .next (s.each (List.range (len / 4)) (fun k t => t.pageWrite i true (off.val + 4 * k) (BitVec.ofNat 32 (leAt b (4 * k) 4)) ext))

/-- CHECK: a check request at this home (R185, R229): the home checks for the acting ID; nothing changes but the books of a
refusal. -/
def execCheck (fid : Fid) (tag : Word) (slice : SliceIx) (off : BitVec 22) (rights : BitVec 2) (len : BitVec 64) (s : State) : Res :=
  let sl : Nat := slice
  let write := rights.getLsbD 1
  let stn := 24 + s.laBank (sl * 2 ^ 22 + off.toNat)
  if 2 ^ 28 < off.toNat * 64 + len.toNat then .next (s.emit (.fabMsg stn fid 2 tag.toNat [2, 0, 0] none))
  else if (s.slice sl).state = 5 then .next (s.emit (.fabMsg stn fid 2 tag.toNat [2, 0, 0] none))
  else match s.homeReason fid sl write with
  | some r => .next ((s.homeFail fid sl (off.toNat * 64) r).emit (.fabMsg stn fid 2 tag.toNat [3, r, 0] none))
  | none => .next (s.emit (.fabMsg stn fid 2 tag.toNat [0, 0, 0] none))

end Sys2Proof.Machine
end

