-- ==== Sys2Proof/Machine/LinkDown.lean ====
section
/-! DEFINITION. A link taken down, its error window and rate, the start of a lane replacement (R233, R239, R240,
R242-R244). -/

namespace Sys2Proof.Machine

/-- LN_STATUS.STATE. -/
def State.lnState (s : State) (p l : Nat) : Nat := s.fld (lnStatus p l) 28 4
def State.setLn (s : State) (p l st : Nat) : State := s.setFld (lnStatus p l) 28 4 st

/-! ### Port sets and queued messages (R40, R240) -/

/-- A port that goes down leaves its port sets until their entries are rewritten (R40). -/
def State.demotePort (s : State) (p : Nat) : State :=
  s.each (List.range 12) (fun t x => x.each (List.range 256) (fun k y =>
    let n := y.fld (tlPortsetCount t k) 0 4
    let m := (List.range 8).foldl (fun a j => if j < n ∧ y.fld (tlPortset t k + 4 * (j / 4)) (8 * (j % 4)) 8 = p then a ||| 2 ^ j else a) 0
    if m = 0 then y else y.inBind (fun b => { b with demoted := tput 0 b.demoted (t * 256 + k) (tget 0 b.demoted (t * 256 + k) ||| m) })))

/-- Messages of a port's egress queues go to another live member, where they arrive as at any egress queue, or are route misses (R240).
One that the other member's queue cannot take stays with its port, behind those of its class that stay: DESIGN CHOICE (log 137). -/
def State.rerouteQueues (s : State) (p : Nat) : State :=
  s.each (List.range 8) (fun c t =>
    let q := 1536 + p * 8 + c
    let go := fun (m : TMsg) (y : State) (stay : State) => match y.lookup (m.inp / 16) m.src m.dst with
      | some (some e) =>
        if e = p then y.routeMiss m.inp m.dst m.m
        else match y.enqueue (1536 + e * 8 + c) { m with egress := e } with
          | (z, true) => z
          | (_, false) => stay
      | _ => y.routeMiss m.inp m.dst m.m
    let t1 := t.each (t.queue q) (fun m y => go m (y.setQueue q ((y.queue q).drop 1)) (y.setQueue q ((y.queue q).drop 1 ++ [m])))
    let t2 := t1.each (tget [] t1.hbm.spill q) (fun x y =>
      let cut := fun (l : List (Nat × TMsg)) => y.inHbm (fun h => { h with spill := tput [] h.spill q ((tget [] h.spill q).drop 1 ++ l) })
      go x.2 (cut []) (cut [x]))
    (t2.cutQueue q (t2.queue q)).spillLeave q)

/-! ### Error window and rate (R233, R239) -/

def State.errLimit (s : State) (p : Nat) : Nat := let v := s.fld (ptFlErrWin p) 12 8; if v = 0 then 64 else v
def State.errTicks (s : State) (p : Nat) : Nat := let v := s.fld (ptFlErrWin p) 20 12; if v = 0 then 977 else v

/-- Count in the error window. -/
def State.errCount (s : State) (p n : Nat) : State :=
  let l := s.link p
  let w := s.tick.loc.toNat / s.errTicks p + 1
  s.setLink p { l with errWin := w, err := (if l.errWin = w then l.err else 0) + n }

/-- RATE of PT_FL_CTL; 3 is treated as 0. -/
def State.rateCtl (s : State) (p : Nat) : Nat := let v := s.fld (ptFlCtl p) 29 2; if v = 3 then 0 else v

/-- The port trains at 64 GBd (R233). -/
def State.trains64 (s : State) (p : Nat) : Bool := match s.rateCtl p with | 0 => !(s.link p).slow | 1 => true | _ => false

/-- After 8 failures or downs an automatic port falls back to 32 GBd (R233). -/
def State.fallback (s : State) (p : Nat) : State :=
  let l := s.link p
  if s.rateCtl p = 0 ∧ !l.slow ∧ (8 ≤ l.fails ∨ 8 ≤ l.downs.length) then (s.setLink p { l with slow := true }).raise 0x0B06 [] else s

/-- What a lane holds beside its registers. -/
def State.laneS (s : State) (p l : Nat) : LaneS := tget {} s.lane.lanes (p * 5 + l)
def State.setLane (s : State) (p l : Nat) (x : LaneS) : State := { s with lane := { s.lane with lanes := tput {} s.lane.lanes (p * 5 + l) x } }

/-- The DFE taps as they stand (R283): they adapt while the lane receives data, and stay as they were when it stopped. A CXL lane at
2.5 and 5 GT/s has no DFE (R286). One value per tick; what a lane in OFF shows is the last one reported: DESIGN CHOICE (log 270). -/
def State.dfe (s : State) (p l : Nat) : BitVec 64 :=
  let x := s.laneS p l
  let st := s.lnState p l
  let live := decide (4 ≤ st) && decide (st ≤ 6) && (decide (s.pmode p = 3) || decide (2 ≤ s.fld (ptCxStatus (s.linkOf p)) 26 3)) || decide (st = 9) && decide (4 ≤ x.phase)
  if live then Config.dfeTaps (p * 5 + l) s.tick.loc
  else if st = 7 ∨ (st = 8 ∧ 4 ≤ s.fld (lnStatus p l) 18 4) then Config.dfeTaps (p * 5 + l) x.since
  else s.reg (lnDfe1 p l) ++ s.reg (lnDfe0 p l)

/-- A lane goes OFF; its stored equalisation is discarded (R279). -/
def State.laneOff (s : State) (p l : Nat) : State := ((s.setLn p l 0).setFld (lnStatus p l) 25 2 0).setLane p l {}

/-- Lanes of a port that leaves the link states go OFF; a lane in test stays. -/
def State.lanesOff (s : State) (p : Nat) : State :=
  s.each (List.range 5) (fun l t => if t.lnState p l = 9 then t else t.laneOff p l)

/-- A link goes DOWN (R239, R240). -/
def State.linkDown (s : State) (p cause : Nat) : State :=
  let l := s.link p
  let st := s.flState p
  if st = 0 then s
  else if st < 4 ∧ l.slp ≠ 4 then ((s.setFld (ptFlStatus p) 29 3 0).setLink p { l with since := s.tick.loc, conflict := false }).lanesOff p
  else
    let s0 := if cause ≠ 4 ∧ (st = 4 ∨ st = 5) then s.ctl p 8 [cause] 3 else s
    let lost := l.out.length + b2n (!l.part.isEmpty)
    let downs := (l.downs.filter (fun t => decide (ticksSince t s.tick.loc < 1024))) ++ [s.tick.loc]
    let l1 : LinkS := { since := s.tick.loc, fails := l.fails, downs := downs, slow := l.slow, stuffs := (s0.link p).stuffs, delays := l.delays, delayEv := l.delayEv, reqNo := l.reqNo, rotNext := l.rotNext, rotAt := l.rotAt }
    let s1 := ((s0.setLink p l1).setFld (ptFlStatus p) 29 3 0).setFld (ptFlStatus p) 24 4 cause
    let s2 := (((s1.setBit (ptFlStatus p) 23 false).setBit (ptFlStatus p) 22 false).setFld (ptFlStatus p) 16 6 0).setBit (ptFlNeighbor p) 31 false
    let s3 := (if lost = 0 then s2 else s2.cnt (ptFlLostMsgCnt p) lost).cnt (ptFlDownCnt p)
    let s4 := (s3.raise 0x0B02 [.w p, .w cause]).lanesOff p
    ((s4.demotePort p).rerouteQueues p).fallback p

/-! ### Lane replacement, at the receiving end (R242-R245) -/

/-- A SPARE control flit: OP, LANE, CAUSE, AT_PERIOD, AT_CW; SWITCH in 4 consecutive codewords (R231, R243). -/
def State.spareFlit (s : State) (p op lane : Nat) (rot : Bool) (cw : Nat × Nat) : State := s.ctl p 6 [op, lane, b2n rot, cw.1, cw.2] (if op = 3 then 4 else 1)

def State.setSpare (s : State) (p st lane : Nat) : State := (s.setFld (ptFlStatus p) 19 3 st).setFld (ptFlStatus p) 16 3 lane

/-- The spare of the receiving direction, when there is one. -/
def LinkS.rxSpare (l : LinkS) : Option Nat := l.rxMap[4]?

/-- The receiving end begins: REQ (R243). -/
def State.spareBegin (s : State) (p lane : Nat) (rot : Bool) : State :=
  let k := s.link p
  ((s.setLink p { k with sp := 1, spLane := lane, spAt := s.tick.loc, spRot := rot, spOld := k.rxMap.getD lane 0 }).setSpare p 1 lane).spareFlit p 1 lane rot (0, 0)

/-- No spare is left for a lane: the link stays up, unless the lane has failed (R244). -/
def State.noSpare (s : State) (p : Nat) (failed : Bool) : State :=
  let s1 := s.raise 0x0B05 []
  if failed then s1.linkDown p 6 else s1

/-- A replacement of a logical lane falls due (R242, R244, R404). -/
def State.replaceLane (s : State) (p lane : Nat) (failed : Bool) : State :=
  let l := s.link p
  if l.rxSpare.isNone || l.spared then s.noSpare p failed
  else if l.sp = 0 then s.spareBegin p lane false
  else if !l.spRot then (if l.spLane = lane ∧ l.sp ≠ 4 then s else s.noSpare p failed)
  else if l.sp = 3 ∧ l.spLane = lane then s.setLink p { l with spRot := false }
  else if l.sp ≤ 2 then (s.spareFlit p 5 l.spLane true (0, 0)).spareBegin p lane false
  else
    let s1 := s.setLink p { l with dueLane := some (lane, failed) }
    let st := s.lnState p l.spOld
    if l.sp = 5 ∧ 3 ≤ st ∧ st ≤ 5 then
      (s1.setLn p l.spOld 7).setLane p l.spOld { s1.laneS p l.spOld with recal := false, relock := true, since := s.tick.loc }
    else s1

end Sys2Proof.Machine
end

