-- ==== Sys2Proof/Machine/Lanes.lean ====
section
/-! DEFINITION. Lanes: bring-up, equalisation, faults, tests, margining (R276-R293). -/

namespace Sys2Proof.Machine

/-- EYE_MIN; 0 is treated as 12. -/
def State.eyeMin (s : State) (p l : Nat) : Nat := let v := s.fld (lnFaultCtl p l) 0 8; if v = 0 then 12 else v

/-- PRE and POST of a fabric lane's transmit filter; what is out of range is treated as the reset value (R281). -/
def State.txTaps (s : State) (p l : Nat) : Nat × Nat :=
  let pre := s.fld (lnTxEq p l) 8 5
  let post := s.fld (lnTxEq p l) 16 5
  (if pre ≤ 16 then pre else 4, if post ≤ 24 then post else 8)

def State.lockedLanes (s : State) (p : Nat) : List Nat := (List.range 5).filter (fun l => decide (s.lnState p l = 6))

/-- A training block of a lane whose receiver is in IDENT to LOCKED while its port is in LANES (R278, R279). Blocks go out back to
back; one is emitted where what they show changes: DESIGN CHOICE (log 269). -/
def State.sendTrain (s : State) (p l : Nat) : State :=
  let k := s.laneS p l
  let st := s.lnState p l
  if s.pmode p = 3 ∧ s.flState p = 1 ∧ 2 ≤ st ∧ st ≤ 6 then
    let (pre, post) := s.txTaps p l
    let locked := (s.lockedLanes p).foldl (fun a g => a + 2 ^ g) 0
    (s.setLane p l { k with blocks := k.blocks + 1 }).emit (.lnTrain p l pre (64 - pre - post) post (trainBlock l locked (st - 1) k.blocks))
  else s

/-- A lane enters a state; a lane that locks shows on every lane of its port. -/
def State.laneTo (s : State) (p l st : Nat) : State :=
  let t := (s.setLn p l st).setLane p l { s.laneS p l with since := s.tick.loc }
  if st = 6 then t.each (List.range 5) (fun g u => u.sendTrain p g) else t.sendTrain p l

/-- Ticks since the lane's state began. -/
def State.laneAge (s : State) (p l : Nat) : Nat := ticksSince (s.laneS p l).since s.tick.loc

/-- A physical lane that this bring-up may use: present, enabled, neither BAD nor FAILED (R232, R279). -/
def State.laneGood (s : State) (p l : Nat) : Bool :=
  s.present 3 (p * 5 + l) && s.bit (lnCtl p l) 31 && !s.bit (ptFlLanemap p) (20 + l) && decide (s.lnState p l ≠ 8)

/-- A port in LANES with fewer than four good lanes goes DOWN and waits (R232). -/
def State.checkLanes (s : State) (p : Nat) : State :=
  if s.flState p = 1 ∧ ((List.range 5).filter (s.laneGood p)).length < 4 then
    let t := (s.linkDown p 0).raise 0x0B09 []
    t.setLink p { t.link p with wait := true }
  else s

/-- A lane fails its bring-up (R279), or the recalibration of R287. -/
def State.laneFail (s : State) (p l cause : Nat) : State :=
  let recal := (s.laneS p l).recal
  let s1 := ((s.laneTo p l 8).setFld (lnStatus p l) 18 4 cause)
  if recal then s1 else (s1.cnt (lnTrainFailCnt p l)).checkLanes p

/-! ### Bring-up -/

/-- LANE_RECEIVER_DETECTED: a far receiver within 1 tick moves DETECT to IDENT (R279). -/
def execLaneReceiverDetected (p : PortIx) (l : LaneIx) (s : State) : Res :=
  .next (if s.lnState p l = 1 ∧ s.laneAge p l ≤ 1 then s.laneTo p l 2 else s)

/-- LANE_DETECT_TIMEOUT: 1 tick without a far receiver fails the lane with cause 1 (R279). -/
def execLaneDetectTimeout (p : PortIx) (l : LaneIx) (s : State) : Res :=
  .next (if s.lnState p l = 1 ∧ 1 ≤ s.laneAge p l then s.laneFail p l 1 else s)

/-- SWEEP begins with setting 0, or the forced one (R282). -/
def State.sweepStart (s : State) (p l : Nat) : State :=
  let k := s.laneS p l
  (s.setLane p l { k with since := s.tick.loc, swept := 0, best := none }).setFld (lnRxEq p l) 0 4
    (if s.bit (lnRxEq p l) 30 then s.fld (lnRxEq p l) 24 4 else 0)

/-- The 32 field bits of a training block, symbol 32 first. -/
def blockBits (b : Word) : List Bool := fieldBits 32 b.toNat

/-- LANE_PATTERN_FOUND: four consecutive blocks of good parity record polarity and far lane (R278-R280). `inv`: the inverse
of the fixed pattern was found; `blocks`: their field bits. -/
def execLanePatternFound (p : PortIx) (l : LaneIx) (inv : Bool) (blocks : List Word) (s : State) : Res :=
  if s.lnState p l = 2 ∧ s.laneAge p l ≤ 4 ∧ 4 ≤ blocks.length ∧ blocks.all (fun b => trainParityOk (blockBits b)) then
    let pol := if s.bit (lnCtl p l) 30 then s.bit (lnCtl p l) 29 else inv
    let s1 := ((s.setBit (lnStatus p l) 27 pol).setFld (lnStatus p l) 22 3 (bits (blocks.getLastD 0) 0 3)).setBit (lnStatus p l) 25 true
    .next ((s1.laneTo p l 3).sweepStart p l)
  else .next s

/-- LANE_IDENT_TIMEOUT: 4 ticks without the pattern fail the lane with cause 2 (R279). -/
def execLaneIdentTimeout (p : PortIx) (l : LaneIx) (s : State) : Res :=
  .next (if s.lnState p l = 2 ∧ 4 ≤ s.laneAge p l then s.laneFail p l 2 else s)

/-- The lane sweeps, in bring-up, recalibration or a test. -/
def State.sweeping (s : State) (p l : Nat) : Bool := decide (s.lnState p l = 3) || (decide (s.lnState p l = 9) && decide ((s.laneS p l).phase = 3))
def State.adapting (s : State) (p l : Nat) : Bool := decide (s.lnState p l = 4) || (decide (s.lnState p l = 9) && decide ((s.laneS p l).phase = 4))

/-- Leave SWEEP or ADAPT for the next state; a lane in test keeps STATE = TEST. -/
def State.laneNext (s : State) (p l st : Nat) : State :=
  if s.lnState p l = 9 then s.setLane p l { s.laneS p l with phase := st, since := s.tick.loc } else s.laneTo p l st

/-- LANE_SWEEP_DWELL_END: the eye height at the end of a 2-tick dwell (R282). After 16 settings the best is applied, the
lower on a tie; below EYE_MIN the lane fails with cause 3 (R279). -/
def execLaneSweepDwellEnd (p : PortIx) (l : LaneIx) (height : Byte) (s : State) : Res :=
  let k := s.laneS p l
  if !s.sweeping p l || decide (s.laneAge p l < 2 * (k.swept + 1)) then .next s
  else
    let h := height.toNat
    let b := match k.best with
      | some (bh, bs) => if bh < h then (h, k.swept) else (bh, bs)
      | none => (h, k.swept)
    let force := s.bit (lnRxEq p l) 30
    let s1 := s.setLane p l { k with swept := k.swept + 1, best := some b }
    let peak := fun (t : State) n => t.setFld (lnRxEq p l) 0 4 (if force then t.fld (lnRxEq p l) 24 4 else n)
    if k.swept < 15 then .next (peak s1 (k.swept + 1))
    else if b.1 < s.eyeMin p l ∧ s.lnState p l = 3 then .next (s1.laneFail p l 3)
    else .next ((peak s1 b.2).laneNext p l 4)

/-- LANE_DFE_SETTLED: the DFE has settled, or 16 ticks have passed (R279, R283); `d0`, `d1`: the taps as they stand. -/
def execLaneDfeSettled (p : PortIx) (l : LaneIx) (settled : Bool) (d0 d1 : Word) (s : State) : Res :=
  if s.adapting p l && (settled || decide (16 ≤ s.laneAge p l)) then
    .next (((s.setReg (lnDfe0 p l) d0).setReg (lnDfe1 p l) d1).laneNext p l 5)
  else .next s

/-- The equalisation as it stands, for the current rate (R284). -/
def State.eqNow (s : State) (p l : Nat) : Nat × Word × Word × Bool :=
  (s.fld (lnRxEq p l) 0 4, (s.dfe p l).extractLsb' 0 32, (s.dfe p l).extractLsb' 32 32, s.trains64 p)

/-- Enter LOCKED: no eye measured yet. -/
def State.laneLock (s : State) (p l : Nat) : State :=
  let s1 := ((s.laneTo p l 6).setFld (lnStatus p l) 25 2 3).setBit (lnEye p l) 31 false
  s1.setLane p l { s1.laneS p l with relock := false, lowRun := 0, warnRun := 0, trackAt := s.tick.loc }

/-- LANE_CHECK_PASS: CDR locked and an eye of at least EYE_MIN in four consecutive ticks (R279, R284). -/
def execLaneCheckPass (p : PortIx) (l : LaneIx) (heights : List Byte) (s : State) : Res :=
  if s.lnState p l = 5 ∧ s.laneAge p l ≤ 8 ∧ 4 ≤ heights.length ∧ heights.all (fun h => decide (s.eyeMin p l ≤ h.toNat)) then
    let s1 := s.laneLock p l
    .next (s1.setLane p l { s1.laneS p l with eq := some (s.eqNow p l) })
  else .next s

/-- LANE_CHECK_TIMEOUT: 8 ticks without passing CHECK fail the lane with cause 4 (R279). -/
def execLaneCheckTimeout (p : PortIx) (l : LaneIx) (s : State) : Res :=
  .next (if s.lnState p l = 5 ∧ 8 ≤ s.laneAge p l then s.laneFail p l 4 else s)

/-! ### Standby and re-lock -/

/-- The lane carries a logical lane, or its mirror, in the receiving direction. -/
def LinkS.carries (l : LinkS) (ph : Nat) : Bool := (l.rxMap.take 4).contains ph || (decide (l.sp ≠ 0) && decide (l.rxMap[4]? = some ph))

/-- LANE_STANDBY_ENTER: a lane that enters electrical idle keeps its stored equalisation (R277, R279); of a replacement it
shows that the far end has stopped the old lane, a failed one too (R243, R244). -/
def execLaneStandbyEnter (p : PortIx) (l : LaneIx) (s : State) : Res :=
  let k := s.link p
  let ended := decide (k.sp = 4) && decide (k.spOld = l.val)
  if ended ∧ s.lnState p l ≠ 6 then .next (s.setLink p { k with sp := 0, spared := true })
  else if s.lnState p l ≠ 6 ∨ (s.flState p ≠ 6 ∧ s.pmode p = 3 ∧ k.carries l ∧ !ended) then .next s
  else
    let s1 := (s.laneTo p l 7).setFld (lnStatus p l) 25 2 0
    .next (if ended then (s1.setLink p { k with sp := 0, spared := true }) else s1)

/-- Start a re-lock from the stored values. -/
def State.relockStart (s : State) (p l : Nat) : State :=
  if s.lnState p l = 7 ∧ !(s.laneS p l).relock then s.setLane p l { s.laneS p l with relock := true, since := s.tick.loc } else s

/-- LANE_RELOCK_REQUEST: signal detect or a request starts a re-lock of a lane in STANDBY (R284). -/
def execLaneRelockRequest (p : PortIx) (l : LaneIx) (s : State) : Res := .next (s.relockStart p l)

/-- LANE_RELOCK_DONE: the re-lock completes within 8 ticks with the stored equalisation (R284). -/
def execLaneRelockDone (p : PortIx) (l : LaneIx) (s : State) : Res :=
  let k := s.laneS p l
  if s.lnState p l = 7 ∧ k.relock ∧ s.laneAge p l ≤ 8 then
    match k.eq with
    | some (pk, d0, d1, _) => .next ((((s.setFld (lnRxEq p l) 0 4 (if s.bit (lnRxEq p l) 30 then s.fld (lnRxEq p l) 24 4 else pk)).setReg (lnDfe0 p l) d0).setReg (lnDfe1 p l) d1).laneLock p l)
    | none => .next s
  else .next s

/-- EV_LN_FAILED, at most once per lane per 1,024 ticks. -/
def State.laneEv (s : State) (p l cause : Nat) : State := s.raiseLim 0x0D01 (p * 5 + l) [.w p, .w l, .w cause]

/-- LANE_RELOCK_TIMEOUT: a re-lock not complete within 8 ticks fails the lane with cause 5 (R279). -/
def execLaneRelockTimeout (p : PortIx) (l : LaneIx) (s : State) : Res :=
  if s.lnState p l = 7 ∧ (s.laneS p l).relock ∧ 8 ≤ s.laneAge p l then
    .next (((s.laneTo p l 8).setFld (lnStatus p l) 18 4 5).laneEv p l 5)
  else .next s

/-! ### Faults (R289) -/

/-- A CXL link in L0 enters Recovery (R261). -/
def State.cxRecover (s : State) (p : Nat) : State :=
  let n := s.linkOf p
  if s.cxState n = 2 then (s.setFld (ptCxStatus n) 29 3 3).cnt (ptCxRecoveryCnt n) else s

/-- A failed lane of a fabric port: replacement, or DOWN with cause 6 (R242, R244, R287). -/
def State.fabLaneLost (s : State) (p l : Nat) : State :=
  let k := s.link p
  let none4 := k.rxMap.take 4
  if s.flState p = 1 then s.checkLanes p
  else if s.flState p ≠ 4 ∧ s.flState p ≠ 5 then s
  else match none4.findIdx? (fun x => decide (x = l)) with
  | some g =>
    let onSpare := decide (k.sp = 5 ∨ k.sp = 6) && decide (k.spLane = g)
    if k.spared ∨ k.rxSpare.isNone then s.noSpare p true
    else if onSpare then
      -- the spare fails while it carries a rotated lane: back at once, or a second failure (R287)
      if s.lnState p k.spOld = 6 then
        let t := (s.spareFlit p 6 g true (0, 0)).setSpare p 0 0
        let t1 := t.setLink p { k with sp := 0, rxMap := none4.set g k.spOld, dueLane := none }
        match k.dueLane with
        | some (_, f) => t1.noSpare p f
        | none => t1
      else s.linkDown p 6
    else if !s.bit (ptFlCtl p) 28 then s.linkDown p 6
    else s.replaceLane p g true
  | none =>
    if k.rxMap[4]? = some l then
      -- the idle or mirroring spare fails: no spare until the next retrain (R287)
      let t := if 1 ≤ k.sp ∧ k.sp ≤ 3 then (s.spareFlit p 5 k.spLane k.spRot (0, 0)).setSpare p 0 0 else s
      t.setLink p { k with sp := (if k.sp ≤ 3 then 0 else k.sp), rxMap := none4 }
    else s

/-- A fault of a LOCKED lane (R289). -/
def State.laneFault (s : State) (p l cause : Nat) : State :=
  let s1 := (((s.laneTo p l 8).setFld (lnStatus p l) 18 4 cause).cnt (lnFailCnt p l)).laneEv p l cause
  if s.pmode p = 3 then s1.fabLaneLost p l else s1.cxRecover p

/-- LANE_LOSS_OF_SIGNAL: no signal for 256 UI fails a LOCKED lane with cause 6 (R289). -/
def execLaneLossOfSignal (p : PortIx) (l : LaneIx) (s : State) : Res :=
  if s.lnState p l ≠ 6 then .next s
  else .next ((s.setBit (lnStatus p l) 25 false).laneFault p l 6)

/-- LANE_CDR_LOSS: loss of phase lock fails a LOCKED lane with cause 7 (R289). -/
def execLaneCdrLoss (p : PortIx) (l : LaneIx) (s : State) : Res :=
  if s.lnState p l ≠ 6 then .next s
  else .next (((s.setBit (lnStatus p l) 26 false).cnt (lnCdrLossCnt p l)).laneFault p l 7)

/-- EV_LN_EYE_LOW. -/
def State.eyeEv (s : State) (p l h : Nat) : State := s.raiseLim 0x0D02 (p * 5 + l) [.w p, .w l, .w h]

/-- EYE_MEASUREMENT: the tick's eye of a LOCKED lane (R289, R292). -/
def execEyeMeasurement (p : PortIx) (l : LaneIx) (height width : Byte) (s : State) : Res :=
  if s.lnState p l ≠ 6 ∨ s.bit (lnMarginRes p l) 30 then .next s
  else
    let h := height.toNat
    let k := s.laneS p l
    let low := if h < s.eyeMin p l then k.lowRun + 1 else 0
    let warn := if h < s.fld (lnFaultCtl p l) 16 8 then k.warnRun + 1 else 0
    let s1 := (((s.setFld (lnEye p l) 0 8 h).setFld (lnEye p l) 16 8 width.toNat).setBit (lnEye p l) 31 true).setLane p l { k with lowRun := low, warnRun := warn }
    let s2 := if 64 ≤ warn ∨ (4 ≤ low ∧ s.pmode p ≠ 3) then s1.eyeEv p l h else s1
    .next (if 4 ≤ low ∧ s.pmode p = 3 then s2.laneFault p l 8 else s2)

/-! ### Tracking (R282) -/

/-- TRACK_TICKS; 0 is treated as 1,024. -/
def State.trackTicks (s : State) (p l : Nat) : Nat := let v := s.fld (lnRxEq p l) 12 12; if v = 0 then 1024 else v

/-- PEAKING_TRACK_STEP: the setting moves by at most one step, as the error sign of the interval says (R282). -/
def execPeakingTrackStep (p : PortIx) (l : LaneIx) (up : Option Bool) (s : State) : Res :=
  let k := s.laneS p l
  let n := s.link p
  let paused := s.bit (lnMarginRes p l) 30 || k.recal || n.rxQuiet ||
    (decide (n.sp ≠ 0) && (decide (n.rxMap[n.spLane]? = some l.val) || decide (n.spOld = l.val) || decide (n.rxMap[4]? = some l.val)))
  if s.lnState p l ≠ 6 ∨ !s.bit (lnRxEq p l) 31 ∨ s.bit (lnRxEq p l) 30 ∨ paused ∨ ticksSince k.trackAt s.tick.loc < s.trackTicks p l then .next s
  else
    let v := s.fld (lnRxEq p l) 0 4
    let w := match up with
      | some true => min 15 (v + 1)
      | some false => v - 1
      | none => v
    .next ((s.setFld (lnRxEq p l) 0 4 w).setLane p l { k with trackAt := s.tick.loc })

/-! ### Pattern generator and checker (R290, R291) -/

/-- The port's link is disabled. -/
def State.linkDisabled (s : State) (p : Nat) : Bool :=
  if s.pmode p = 3 then !s.bit (ptFlCtl p) 31 else !s.bit (ptCxCtl (s.linkOf p)) 31

/-- Bits between injected errors: 2^INJ_RATE, 1-9 treated as 10; none at 0 (R291). -/
def injEvery (v : Word) : Option Nat := let k := bits v 19 5; if k = 0 then none else some (2 ^ max 10 k)

/-- RATE of a lane in test; CXL 64 GT/s and the fabric rates signal PAM4 (R276). -/
def testRate (v : Word) : Nat := bits v 25 3

/-- The generator runs under a value of LN_TEST_CTL. -/
def State.genOn (s : State) (p l : Nat) (v : Word) : State :=
  s.emit (.lnGen p l (testRate v) (injEvery v) (genSymbols (bits v 28 2) (decide (5 ≤ testRate v)) (injEvery v) 1024))

/-- A write of LN_TEST_CTL: GEN_EN or CHK_EN only on a disabled link, on LS only in fabric mode; INJ_ONE injects. -/
def State.lnTestWrite (s : State) (p l : Nat) (v : Word) : State :=
  let gen := bits v 31 1 = 1
  let chk := bits v 30 1 = 1
  if (gen ∨ chk) ∧ (!s.linkDisabled p ∨ (l = 4 ∧ s.pmode p ≠ 3)) then s
  else
    let old := s.reg (lnTestCtl p l)
    let k := s.laneS p l
    let s1 := s.setReg (lnTestCtl p l) (v &&& 0xFEF80000#32)
    let k1 := if gen ∧ bits old 31 1 = 0 then { k with gen := prbsOnes (bits v 28 2) } else k
    let s2 := s1.setLane p l k1
    let s3 := if chk ∧ bits old 30 1 = 0 then ((s2.setLane p l { k1 with phase := 3 }).sweepStart p l).setBit (lnTestStatus p l) 31 false
      else if ¬ chk then (s2.setLane p l { k1 with phase := 0 }).setBit (lnTestStatus p l) 31 false else s2
    let s4 := if gen ∨ chk then s3.setLn p l 9 else if s.lnState p l = 9 then s3.laneOff p l else s3
    let s5 := if gen then s4.genOn p l v else s4
    if bits v 24 1 = 1 ∧ gen then s5.emit (.lnInject p l) else s5

/-- End every test on a port's lanes (R290). -/
def State.endTests (s : State) (p : Nat) : State :=
  s.each (List.range 5) (fun l t =>
    let t1 := (t.setFld (lnTestCtl p l) 30 2 0).setBit (lnTestStatus p l) 31 false
    if t.lnState p l = 9 then t1.laneOff p l else t1)

/-- A write of a register of a lane that is not present is discarded, with its event (R4). -/
def State.ifLane (s : State) (p l off : Nat) (act : State → Res) : Res :=
  s.ifPresent 2 p off (fun s => s.ifPresent 3 (p * 5 + l) off act)

/-- A write of LN_TEST_CTL that sets GEN_EN. -/
def execLnTestCtlGenEn (p : PortIx) (l : LaneIx) (v : Word) (s : State) : Res :=
  s.ifLane p l (lnTestCtl p l) (fun s => .next (s.lnTestWrite p l (putBits v 31 1 1)))
/-- A write of LN_TEST_CTL that sets CHK_EN. -/
def execLnTestCtlChkEn (p : PortIx) (l : LaneIx) (v : Word) (s : State) : Res :=
  s.ifLane p l (lnTestCtl p l) (fun s => .next (s.lnTestWrite p l (putBits v 30 1 1)))
/-- A write of LN_TEST_CTL that sets INJ_ONE (R291). -/
def execLnTestCtlInjOne (p : PortIx) (l : LaneIx) (v : Word) (s : State) : Res :=
  s.ifLane p l (lnTestCtl p l) (fun s => .next (s.lnTestWrite p l (putBits v 24 1 1)))

/-- CHECKER_SYNC: 1,024 consecutive right bits (R290); `reg`: the register that the checker has loaded and run on. -/
def execCheckerSync (p : PortIx) (l : LaneIx) (reg : BitVec 31) (s : State) : Res :=
  if s.lnState p l = 9 ∧ s.bit (lnTestCtl p l) 30 ∧ (s.laneS p l).phase = 5 ∧ !s.bit (lnTestStatus p l) 31 then
    .next ((s.setBit (lnTestStatus p l) 31 true).setLane p l { s.laneS p l with chk := reg.toNat % (prbsOnes (s.fld (lnTestCtl p l) 28 2) + 1) })
  else .next s

/-- Count bits checked while in SYNC. -/
def State.checked (s : State) (p l n wrong : Nat) : State :=
  if s.bit (lnTestStatus p l) 31 then (s.cnt64 (lnTestBitCnt p l) n).cnt (lnTestErrCnt p l) wrong else s

/-- CHECKER_SYNC_LOST: 64 wrong bits within 1,024 leave SYNC (R290); `n`, `wrong`: bits counted since the last count. -/
def execCheckerSyncLost (p : PortIx) (l : LaneIx) (n wrong : Nat) (s : State) : Res :=
  if s.lnState p l = 9 ∧ s.bit (lnTestStatus p l) 31 then
    .next (((s.checked p l n wrong).setFld (lnTestStatus p l) 30 2 1).setLane p l { s.laneS p l with chk := 0 })
  else .next s

/-! ### Margining (R292) -/

/-- UI in a tick of 1.024 µs, by rate: 0-5 as PT_CX_CTL.MAX_RATE, 6 fabric 32 GBd, 7 fabric 64 GBd (R276). 5 and 2.5 GT/s: 200 and 400 ps. -/
def uiPerTick : Nat → Nat
  | 0 => 2560
  | 1 => 5120
  | 2 => 8192
  | 3 => 16384
  | 4 => 32768
  | 5 => 32768
  | 6 => 32768
  | _ => 65536

/-- UI that pass in a tick of a lane: by the rate of its test, its fabric link or its CXL link (R276). -/
def State.laneUi (s : State) (p l : Nat) : Nat :=
  uiPerTick (if s.lnState p l = 9 then testRate (s.reg (lnTestCtl p l))
    else if s.pmode p = 3 then (if s.trains64 p then 7 else 6)
    else s.fld (ptCxStatus (s.linkOf p)) 26 3)

/-- UI that a measurement of LN_MARGIN_CTL takes. -/
def State.marginUi (s : State) (p l : Nat) : Nat := 2 ^ (20 + s.fld (lnMarginCtl p l) 24 4)

/-- LN_MARGIN_CTL_GO: a write that sets GO places the monitor, or is refused (R292). -/
def execLnMarginCtlGo (p : PortIx) (l : LaneIx) (v : Word) (s : State) : Res :=
  s.ifLane p l (lnMarginCtl p l) (fun s =>
    let s1 := (s.setReg (lnMarginCtl p l) (v &&& 0x0F3F007F#32)).setFld (lnMarginRes p l) 31 1 0
    let k := s.laneS p l
    if (s.lnState p l ≠ 6 ∧ s.lnState p l ≠ 9) ∨ k.recal ∨ k.pcie then .next (s1.setFld (lnMarginRes p l) 28 2 1)
    else
      let s2 := ((s1.setFld (lnMarginRes p l) 28 2 0).setBit (lnMarginRes p l) 30 true).setLane p l { k with margAt := s.tick.loc }
      .next (s2.emit (.lnMonitor p l (signed 6 (bits v 16 6)) (signed 7 (bits v 0 7)) (s1.marginUi p l))))

/-- MARGIN_DONE: the disagreements of the measurement, which has lasted its UI (R292). -/
def execMarginDone (p : PortIx) (l : LaneIx) (errors : Nat) (s : State) : Res :=
  if s.bit (lnMarginRes p l) 30 ∧ s.marginUi p l ≤ (ticksSince (s.laneS p l).margAt s.tick.loc + 1) * s.laneUi p l then
    .next (s.setReg (lnMarginRes p l) (putBits (BitVec.ofNat 32 (min errors (2 ^ 28 - 1))) 31 1 1))
  else .next s

/-- PCIE_MARGINING_COMMAND: served by the monitor at 16 GT/s and above, or answered not ready (R292). `run`: the host starts
margining, or ends it. -/
def execPcieMarginingCommand (p : PortIx) (l : LaneIx) (run : Bool) (s : State) : Res :=
  let n := s.linkOf p
  if s.pmode p = 0 ∨ s.pmode p = 3 ∨ s.lnState p l ≠ 6 ∨ s.fld (ptCxStatus n) 26 3 < 3 then .next s
  else if s.bit (lnMarginRes p l) 30 then .next (s.emit (.lnMargin p l false))
  else .next ((s.setLane p l { s.laneS p l with pcie := run }).emit (.lnMargin p l true))

end Sys2Proof.Machine
end

