-- ==== Sys2Proof/Machine/Links.lean ====
section
/-! DEFINITION. Fabric links: bring-up, flits and replay, credits, delay, lane replacement and rotation, quiet and sleep
(R232-R249). -/

namespace Sys2Proof.Machine

def State.flTo (s : State) (p st : Nat) : State := (s.setFld (ptFlStatus p) 29 3 st).setLink p { s.link p with since := s.tick.loc }
def State.flAge (s : State) (p : Nat) : Nat := ticksSince (s.link p).since s.tick.loc
/-- L0 or L0-quiet. -/
def State.linkL0 (s : State) (p : Nat) : Bool := decide (s.flState p = 4) || decide (s.flState p = 5)

/-! ### Bring-up (R232) -/

/-- A port that may leave DOWN (R37, R232). -/
def State.mayTrain (s : State) (p : Nat) : Bool :=
  decide (s.pmode p = 3) && s.present 2 p && decide (s.flState p = 0) && s.bit (ptFlCtl p) 31 && s.bit glbModuleFid 31 && !s.bit glbTickStatus 29 &&
  !s.clk.draining

/-- Enter LANES: every enabled lane that is not marked BAD starts receiver detect (R244, R279). -/
def State.bringup (s : State) (p : Nat) : State :=
  let s1 := (s.flTo p 1).setLink p { s.link p with since := s.tick.loc, wait := false, asgn := false, rxMap := [], conflict := false }
  (s1.each (List.range 5) (fun l t =>
    if t.present 3 (p * 5 + l) && t.bit (lnCtl p l) 31 && !t.bit (ptFlLanemap p) (20 + l) then (t.laneOff p l).laneTo p l 1 else t)).checkLanes p

/-- LINK_BRINGUP_START (R37, R232). -/
def execLinkBringupStart (p : PortIx) (s : State) : Res :=
  .next (if s.mayTrain p && !(s.link p).wait then s.bringup p else s)

/-- EN of PT_FL_CTL: 0 takes the link down with cause 7; 1 ends the tests on its lanes (R239, R290). -/
def State.flEnWrite (s : State) (p : Nat) (v : Bool) : State :=
  let s1 := s.setBit (ptFlCtl p) 31 v
  if v then s1.endTests p else s1.linkDown p 7

/-- PT_FL_CTL_EN_WRITE (R239). -/
def execPtFlCtlEnWrite (p : PortIx) (v : Bool) (s : State) : Res :=
  s.ifPresent 2 p (ptFlCtl p) (fun s => .next (s.flEnWrite p v))

/-- RATE of PT_FL_CTL: an automatic port tries 64 GBd again (R233). -/
def State.flRateWrite (s : State) (p v : Nat) : State :=
  (s.setFld (ptFlCtl p) 29 2 v).setLink p { s.link p with slow := false, fails := 0, downs := [] }

/-- PT_FL_CTL_RATE_WRITE (R233). -/
def execPtFlCtlRateWrite (p : PortIx) (v : BitVec 2) (s : State) : Res :=
  s.ifPresent 2 p (ptFlCtl p) (fun s => .next (s.flRateWrite p v.toNat))

/-- ALIGN begins: the transmitter starts its periods; the number of the first one is a free value (R223, R232). -/
def State.txStart (s : State) (p : Nat) : State :=
  let (n, s1) := s.draw
  s1.setLink p ((s1.link p).newPeriod n)

/-- LANES_LOCKED: four lanes locked at the chosen rate (R232, R285). -/
def execLanesLocked (p : PortIx) (s : State) : Res :=
  if s.flState p = 1 ∧ 4 ≤ (s.lockedLanes p).length then .next (((s.flTo p 2).setBit (ptFlStatus p) 28 (s.trains64 p)).txStart p) else .next s

/-- LANE_ASSIGNMENT: two consecutive far blocks have shown at least four transmit lanes locked; logical lanes 0-3 and the spare
are assigned (R285). `b1`, `b2`: field bits of the blocks. -/
def execLaneAssignment (p : PortIx) (b1 b2 : Word) (s : State) : Res :=
  let ok := fun b => trainParityOk (blockBits b)
  let far := (List.range 5).filter (fun l => b1.getLsbD (3 + l) && b2.getLsbD (3 + l))
  let use := far.filter (fun l => !s.bit (ptFlLanemap p) (20 + l))
  if (s.flState p = 1 ∨ s.flState p = 2) ∧ !(s.link p).asgn ∧ ok b1 ∧ ok b2 ∧ 4 ≤ far.length ∧ 4 ≤ use.length then
    let s1 := s.each (List.range 4) (fun g t => t.setFld (ptFlLanemap p) (3 * g) 3 (use.getD g 0))
    .next ((s1.setFld (ptFlLanemap p) 12 3 (use.getD 4 7)).setLink p { s.link p with asgn := true })
  else .next s

/-- This end's INIT (R231). -/
def State.sendInit (s : State) (p : Nat) (resume : Bool) : State :=
  let r := s.rateCtl p
  let rates := if r = 1 then 1 else if r = 2 then 2 else 3
  let flags := b2n resume + 2 * b2n (s.bit (ptFlCtl p) 25)
  s.ctl p 1 ([1, rates, flags, s.moduleFid, p, 1536] ++ (List.range 8).map (s.ownRsv p) ++ [((s.link p).tx.period + 1) % 65536])

/-- ALIGN_DONE: two consecutive periods decoded on all lanes; `m`: the physical lane of each logical lane, as the markers name
them (R232, R280); the exit from L1-sleep passes here too (R248). The one lane left that is locked is the spare. -/
def execAlignDone (p : PortIx) (m : List LaneIx) (s : State) : Res :=
  let lanes : List Nat := m.map (fun x => x.val)
  if s.flState p = 2 ∧ lanes.length = 4 ∧ lanes.eraseDups.length = 4 ∧ lanes.all (fun l => decide (s.lnState p l = 6)) then
    let spare := (List.range 5).filter (fun l => !lanes.contains l && (decide (s.lnState p l = 6) || decide (s.lnState p l = 7)))
    let s1 := (s.flTo p 3).setLink p { s.link p with since := s.tick.loc, rxMap := lanes ++ spare }
    .next (s1.sendInit p (decide ((s.link p).slp = 4)))
  else .next s

/-- Set the credits from the far end's INIT, and the sequence state (R234, R237). -/
def State.creditsInit (s : State) (p : Nat) (i : InitMsg) : State :=
  let rsv := (List.range 8).map (fun c => byteAt i.rsv c)
  let s1 := s.each (List.range 8) (fun c t => t.setN (ptFlCreditRsv p c) (rsv.getD c 0))
  let s2 := s1.setN (ptFlCreditSh p) (i.pool.toNat - rsv.foldl (· + ·) 0)
  s2.setLink p { s2.link p with tx := { (s2.link p).tx with str := [], hds := [], buf := [] }, txSeq := 0, una := 0, rxSeq := 0, ackV := false, nak := false, out := [], retIn := [], retOut := [], unrep := 0, rx := [], part := [], rsv := (List.range 8).map (s.ownRsv p), cred := rsv ++ [i.pool.toNat - rsv.foldl (· + ·) 0] }

/-- The rates that this end offers. -/
def State.offers (s : State) (p : Nat) (r : BitVec 8) : Bool :=
  match s.rateCtl p with
  | 1 => r.getLsbD 0
  | 2 => r.getLsbD 1
  | _ => r.getLsbD 0 || r.getLsbD 1

/-- INIT_RECEIVE (R38, R232, R239, R248); none is taken below the capability minimum (R33). -/
def execInitReceive (p : PortIx) (i : InitMsg) (s : State) : Res :=
  if s.linkL0 p then .next (s.linkDown p 4)
  else if s.flState p ≠ 3 ∨ s.bit glbTickStatus 29 then .next s
  else if i.moduleId.val = s.moduleFid then
    if (s.link p).conflict then .next s
    else .next ((s.setLink p { s.link p with conflict := true }).raise 0x0142 [.w p, .w 0xFF, .w i.moduleId])
  else if i.version.toNat ≠ 1 ∨ !s.offers p i.rates then .next s
  else
    let s1 := if i.resume then s else s.creditsInit p i
    let s2 := (s1.flTo p 4).setN (ptFlNeighbor p) (2 ^ 31 + i.port.toNat * 2 ^ 20 + i.moduleId)
    let s3 := s2.setLink p { s2.link p with farSleep := i.sleepEn, rxPer := (i.period.toNat, 0), fails := 0, conflict := false, busyAt := s.tick.loc, rotAt := s.tick.loc, sp := 0, tsp := 0, spared := false, slp := 0 }
    let s4 := s3.setBit (ptFlStatus p) 23 false
    .next ((if i.resume then s4.pump p else s4).raise 0x0B01 [.w p, .w (if s.bit (ptFlStatus p) 28 then 1 else 2), .w i.moduleId, .w i.port.toNat])

/-- LINK_TRAIN_TIMEOUT: 64 ticks without progress (R232, R233); a link held by an ID conflict stays held (R38). -/
def execLinkTrainTimeout (p : PortIx) (s : State) : Res :=
  let st := s.flState p
  if 1 ≤ st ∧ st ≤ 3 ∧ 64 ≤ s.flAge p ∧ !(s.link p).conflict ∧ (s.link p).slp ≠ 4 then
    let s1 := (s.linkDown p 0).cnt (ptFlTrainFailCnt p)
    .next ((s1.setLink p { s1.link p with fails := (s1.link p).fails + 1 }).fallback p)
  else .next s

/-- LINK_TRAIN_RETRY: 1,024 ticks after too few lanes were good (R232). -/
def execLinkTrainRetry (p : PortIx) (s : State) : Res :=
  .next (if s.mayTrain p && (s.link p).wait && decide (1024 ≤ s.flAge p) then s.bringup p else s)

/-! ### Down (R239) -/

/-- DOWN_FLIT_RECEIVE: cause 4 REMOTE (R239). -/
def execDownFlitReceive (p : PortIx) (cause : Byte) (s : State) : Res :=
  match cause with
  | _ => .next (if 4 ≤ s.flState p then s.linkDown p 4 else s)

/-- MARKERS_MISSED: on a lane for two consecutive periods, cause 3 (R239). -/
def execMarkersMissed (p : PortIx) (s : State) : Res := .next (if s.linkL0 p then s.linkDown p 3 else s)

/-- LINK_ERROR_LIMIT: the window count exceeds LIMIT, cause 1 (R239). -/
def execLinkErrorLimit (p : PortIx) (s : State) : Res :=
  let l := s.link p
  .next (if s.linkL0 p ∧ l.errWin = s.tick.loc.toNat / s.errTicks p + 1 ∧ s.errLimit p < l.err then s.linkDown p 1 else s)

/-! ### Flits (R227, R234-R236) -/

/-- Resend every unacknowledged flit in order, then new ones (R236). -/
def State.replayAll (s : State) (p : Nat) : State :=
  let l := s.link p
  let n := l.unacked
  if n = 0 then s
  else
    let s1 := (((((s.quietExit p).cnt (ptFlReplayCnt p)).cnt64 (ptFlTxFlitCnt p) n).bwAdd p 0 (128 * n)).errCount p 1).emit (.replay p l.una n)
    let k := s1.link p
    ((s1.setLink p { k with ackAt := s.tick.loc, dataAt := s.tick.loc }).sendFlits p (k.tx.buf.map k.dataFlit)).pump p

/-- The last SEQ accepted. -/
def LinkS.lastRx (l : LinkS) : Nat := (l.rxSeq + 4095) % 4096

/-- A discarded flit: NAK once per gap (R235). -/
def State.gap (s : State) (p : Nat) : State :=
  let l := s.link p
  if l.nak then s else (s.setLink p { l with nak := true, nakAt := s.tick.loc }).linkAnswer p true

/-- A flit that is bad: counted, discarded, NAKed (R235, R239). -/
def State.badFlit (s : State) (p : Nat) : State := ((s.cnt (ptFlBadFlitCnt p)).errCount p 1).gap p

/-- ACK_SEQ: every flit up to it leaves the replay buffer, and what waited for room there goes; one not sent is ignored and counted (R236). -/
def State.ackTake (s : State) (p a : Nat) : State :=
  let l := s.link p
  let d := (a + 4096 - l.una) % 4096
  if d < l.unacked then
    let una := (a + 1) % 4096
    (s.setLink p { l with
      una := una, out := l.out.filter (fun e => decide (d + 1 < (e + 4096 - l.una) % 4096)), busyAt := s.tick.loc, ackAt := s.tick.loc
      tx := { l.tx with buf := l.tx.buf.drop (d + 1) } }).pump p
  else if d = 4095 then s
  else s.cnt (ptFlBadFlitCnt p)

/-- LEN fits the message type (R128, R229). -/
def msgOk (b : List Byte) : Bool :=
  let t := byteAt b 1
  let len := leAt b 2 2 % 8192
  let hev := leAt b 16 4 / 2 ^ 28
  if t = 1 then (if hev = 5 ∨ hev = 7 then decide (len = 80) else decide (len = 16) && decide (1 ≤ hev) && decide (hev ≤ 8))
  else if t = 2 then decide (len = 8 ∨ len = 72)
  else if t = 3 then decide (len = 16)
  else if t = 4 then (if byteAt b 16 % 4 < 2 then decide (len = 8) else decide (len = 72))
  else if t = 5 then
    (match byteAt b 16 with
    | 1 => decide (1 ≤ byteAt b 64) && decide (byteAt b 64 ≤ 32) && decide (len = 64 + 80 * byteAt b 64)
    | 2 | 3 | 5 => decide (len = 24)
    | 4 => decide (len = 28)
    | _ => false)
  else decide (6 ≤ t) && decide (t ≤ 7) && decide (len ≤ 4112)

/-- A whole message has been received: it occupies its buffers; one of no known form is discarded and counted (R228, R229). -/
def State.msgIn (s : State) (p : Nat) (b : List Byte) : State :=
  let cls := byteAt b 0 % 8
  let shn := leAt b 4 4 / 2 ^ 26
  let l := s.link p
  let s1 := s.setLink p { l with rx := l.rx ++ [(cls, bufCount (leAt b 2 2 % 8192), shn)] }
  if msgOk b then s1.emit (.linkMsg p b) else (s1.cnt (ptFlLostMsgCnt p)).linkFree p cls

/-- Take the messages that are whole from a byte stream: the state and what is left. A header of zeros is padding: the flit
holds no more. -/
def State.unpack (s : State) (p : Nat) : Nat → List Byte → State × List Byte
  | 0, b => (s, b)
  | n + 1, b =>
    if b.length < 16 then (s, b)
    else if (b.take 16).all (fun x => decide (x = 0)) then (s, [])
    else
      let len := 16 + leAt b 2 2 % 8192
      if b.length < len then (s, b) else (s.msgIn p (b.take len)).unpack p n (b.drop len)

/-- The payload of an accepted DATA flit enters the byte stream. -/
def State.payload (s : State) (p start : Nat) (pay : List Byte) : State :=
  let l := s.link p
  let new := if l.part.isEmpty then (if start < 112 then pay.drop start else []) else pay
  let (s1, rest) := s.unpack p 8 (l.part ++ new)
  s1.setLink p { s1.link p with part := rest }

/-- Corrected symbols of a codeword, by logical lane (R242). -/
def State.corrected (s : State) (p : Nat) (corr : List Nat) : State :=
  if corr.all (fun n => decide (n = 0)) then s
  else
    let l := s.link p
    let wt := s.fld (ptFlSpareCtl p) 0 8
    let w := s.tick.loc.toNat / ((if wt = 0 then 4 else wt) * 256) + 1
    let old := if l.ceWin = w then l.ce else []
    let onSp := l.spared || decide (l.sp = 4 ∨ l.sp = 5 ∨ l.sp = 6)
    let idx := fun g : Nat => if onSp && decide (g = l.spLane) then 4 else g
    let ce := (List.range 4).foldl (fun (t : Tab Nat) g => tput 0 t g (tget 0 t g + corr.getD g 0)) old
    ((s.setLink p { l with ceWin := w, ce := ce }).cnt64 (ptFlCorrCwCnt p)).each (List.range 4) (fun g t =>
      if corr.getD g 0 = 0 then t else t.cnt (ptFlLaneCe p (idx g)) (corr.getD g 0))

/-- The far end's period and codeword once a CFF shows an index: a lower one is of the next period (R222). -/
def LinkS.codewordAt (l : LinkS) (i : Nat) : Nat × Nat := if i < l.rxPer.2 then ((l.rxPer.1 + 1) % 65536, i) else (l.rxPer.1, i)

/-- FLIT_RECEIVE: a flit of a codeword that did or did not decode (R227, R235, R236, R246). `corr`: the corrected symbols of each
logical lane in its codeword, with the codeword's first flit; `cw`: its CFF. -/
def execFlitReceive (p : PortIx) (cwOk : Bool) (cw : BitVec 20) (corr : List Nat) (b : List Byte) (s : State) : Res :=
  if !s.linkL0 p then .next s
  else if !cwOk then .next ((s.bwAdd p 1 128).badFlit p)
  else
    let s0 := ((s.bwAdd p 1 128).setLink p { s.link p with rxQuiet := cffQuiet cw.toNat, rxPer := (s.link p).codewordAt (cw.toNat / 4096) }).corrected p corr
    let h := leAt b 0 8
    let ft := h / 2 ^ 62 % 4
    if !flitCrcOk b || decide (ft = 3) then .next (s0.badFlit p)
    else
      let s1 := if nbit h 37 then s0.ackTake p (h / 2 ^ 38 % 4096) else s0
      let s2 := if nbit h 36 then s1.replayAll p else s1
      if ft ≠ 1 then .next s2
      else
        let l := s2.link p
        if h / 2 ^ 50 % 4096 = l.rxSeq then
          let rx := (l.rxSeq + 1) % 4096
          let s3 := ((s2.setLink p { l with rxSeq := rx, ackV := true, nak := false, busyAt := s.tick.loc }).cnt64 (ptFlRxFlitCnt p)).linkAnswer p false
          .next (s3.payload p (h / 2 ^ 25 % 128) ((b.drop 8).take 112))
        else if l.nak then .next s2
        else .next (s2.badFlit p)

/-- REPLAY_NS in whole ticks; below 256 ns it is 256 ns (R235, R255). -/
def State.replayTicks (s : State) (p : Nat) : Nat := max 256 (s.fld (ptFlErrWin p) 0 12) / 1024

/-- REPLAY_TIMER_EXPIRY: ACK_SEQ has not advanced for REPLAY_NS (R236). -/
def execReplayTimerExpiry (p : PortIx) (s : State) : Res :=
  .next (if s.linkL0 p && decide (s.replayTicks p ≤ ticksSince (s.link p).ackAt s.tick.loc) then s.replayAll p else s)

/-- NAK_REPEAT_TIMER: the gap persists after REPLAY_NS (R235). -/
def execNakRepeatTimer (p : PortIx) (s : State) : Res :=
  .next (if s.linkL0 p && (s.link p).nak && decide (s.replayTicks p ≤ ticksSince (s.link p).nakAt s.tick.loc) then
    (s.setLink p { s.link p with nakAt := s.tick.loc }).linkAnswer p true else s)

/-! ### Credits (R238) -/

/-- LINK_MESSAGE_SEND: a message enters the byte stream when the credits cover its buffers; else it waits (R238, R246). What else than
its class and length its header and body hold is its sender's: a free value. -/
def execLinkMessageSend (p : PortIx) (cls : ClassIx) (len : Nat) (s : State) : Res :=
  let (n, s1) := s.draw
  let x := fun w k : Nat => n / 2 ^ k % 2 ^ w
  .next ((s1.linkSend p cls (msgHead (x 4 0) (decide (x 1 4 = 1)) cls (x 8 5) len (x 18 13) (x 18 31) (x 32 49) ++ toLe len (n / 2 ^ 81))).getD s)

/-- CREDIT_FLIT_RECEIVE: the difference of running totals returns to the credits (R238). -/
def execCreditFlitReceive (p : PortIx) (totals : List (BitVec 16)) (s : State) : Res :=
  if !s.linkL0 p || decide (totals.length ≠ 9) then .next s
  else
    let l := s.link p
    let tot := fun c => (totals.getD c 0).toNat
    let add := fun c => (tot c + 65536 - tget 0 l.retIn c) % 65536
    let s1 := s.each (List.range 8) (fun c t => t.setN (ptFlCreditRsv p c) ((t.nreg (ptFlCreditRsv p c) + add c) % 65536))
    let s2 := s1.setN (ptFlCreditSh p) ((s1.nreg (ptFlCreditSh p) + add 8) % 65536)
    .next (s2.setLink p { l with retIn := (List.range 9).foldl (fun (t : Tab Nat) c => tput 0 t c (tot c)) [] })

/-- CREDIT_FLIT_SEND: 64 flit times with a freed buffer unreported, or the edge (R238). -/
def execCreditFlitSend (p : PortIx) (s : State) : Res :=
  .next (if s.linkL0 p ∧ 0 < (s.link p).unrep then s.sendCredit p else s)

/-! ### Delay (R249) -/

/-- A timestamp in sixteenths of a CK_CORE cycle. -/
def stampVal (t : Nat) : Nat := t / 65536 * 49152 + t % 65536
/-- The timestamp of now, with a cycle and sixteenths. -/
def State.stampAt (s : State) (cyc : BitVec 12) (sx : BitVec 4) : Nat := s.tick.loc.toNat * 65536 + cyc.toNat * 16 + sx.toNat

/-- DELAY_REQ_SEND: every 16 ticks in L0 (R249). -/
def execDelayReqSend (p : PortIx) (cyc : BitVec 12) (sx : BitVec 4) (s : State) : Res :=
  let l := s.link p
  let due : Bool := match l.reqAt with | some t => decide (16 ≤ ticksSince t s.tick.loc) | none => true
  if s.linkL0 p ∧ due then
    let t1 := s.stampAt cyc sx
    .next ((s.setLink p { l with req := some (t1, l.reqNo), reqNo := (l.reqNo + 1) % 2 ^ 32, reqAt := some s.tick.loc }).ctl p 4 [t1, l.reqNo])
  else .next s

/-- DELAY_REQ_RECEIVE: answered with T1, T2 and T3 (R249). -/
def execDelayReqReceive (p : PortIx) (t1 : BitVec 64) (id : Word) (cyc2 : BitVec 12) (sx2 : BitVec 4) (cyc3 : BitVec 12) (sx3 : BitVec 4) (s : State) : Res :=
  if s.linkL0 p then .next (s.ctl p 5 [t1.toNat, s.stampAt cyc2 sx2, s.stampAt cyc3 sx3, id.toNat]) else .next s

/-- Insert in rising order. -/
def insertUp (x : Nat) : List Nat → List Nat
  | [] => [x]
  | y :: r => if x ≤ y then x :: y :: r else y :: insertUp x r

/-- The median of 8 samples: half the sum of the two in the middle, rounded down. -/
def median8 (l : List Nat) : Nat := let o := l.foldr insertUp []; (o.getD 3 0 + o.getD 4 0) / 2

/-- DELAY_RSP_RECEIVE: a sample, the median, EV_FL_DELAY_CHANGE when it has moved more than 96 sixteenths (R249). -/
def execDelayRspReceive (p : PortIx) (t1 t2 t3 : BitVec 64) (id : Word) (cyc : BitVec 12) (sx : BitVec 4) (s : State) : Res :=
  let l := s.link p
  if !s.linkL0 p || decide (l.req ≠ some (t1.toNat, id.toNat)) then .next s
  else
    let v := fun t : Nat => (stampVal t : Int)
    let d := ((v (s.stampAt cyc sx) - v t1.toNat) - (v t3.toNat - v t2.toNat)) / 2
    let ds := (l.delays ++ [d.toNat]).reverse.take 8 |>.reverse
    let full := decide (ds.length = 8)
    let m := if full then median8 ds else s.fld (ptFlDelay p) 0 24
    let moved := full && (match l.delayEv with | some e => decide (96 < (if e ≤ m then m - e else e - m)) | none => false)
    let ev := if full && (moved || l.delayEv.isNone) then some m else l.delayEv
    let s1 := (s.setLink p { l with delays := ds, req := none, delayEv := ev }).setN (ptFlDelay p) (if full then 2 ^ 31 + m % 2 ^ 24 else s.nreg (ptFlDelay p))
    .next (if moved then s1.raise 0x0B08 [] else s1)

/-! ### Lane replacement and rotation (R242-R245, R287) -/

/-- LANE_CE_THRESHOLD: corrected symbols of a lane window above CE_THRESH start a replacement (R242). -/
def execLaneCeThreshold (p : PortIx) (g : Fin 4) (s : State) : Res :=
  let l := s.link p
  let wt := s.fld (ptFlSpareCtl p) 0 8
  let w := s.tick.loc.toNat / ((if wt = 0 then 4 else wt) * 256) + 1
  .next (if s.linkL0 p ∧ s.bit (ptFlCtl p) 28 ∧ l.ceWin = w ∧ s.fld (ptFlSpareCtl p) 16 16 < tget 0 l.ce g then s.replaceLane p g false else s)

/-- SPARE_REQ_RECEIVE: the transmitting end mirrors the lane on LS and sends READY (R243). -/
def execSpareReqReceive (p : PortIx) (g : Fin 4) (rot : Bool) (s : State) : Res :=
  let l := s.link p
  if !s.linkL0 p || decide (s.fld (ptFlLanemap p) 12 3 = 7) then .next s
  else .next ((s.setLink p { l with tsp := 1, tspLane := g, tspRot := rot, tspCw := none }).spareFlit p 2 g rot (0, 0))

/-- SPARE_READY_RECEIVE: the receiving end begins to lock LS (R243, R284). -/
def execSpareReadyReceive (p : PortIx) (g : Fin 4) (s : State) : Res :=
  let l := s.link p
  if s.linkL0 p ∧ l.sp = 1 ∧ l.spLane = g.val then
    match l.rxSpare with
    | some ls => .next ((s.setLink p { l with sp := 2, spReady := s.tick.loc }).relockStart p ls)
    | none => .next s
  else .next s

/-- SPARE_REPEAT_TIMER: REQ or DONE again after 1 µs (R243). -/
def execSpareRepeatTimer (p : PortIx) (s : State) : Res :=
  let l := s.link p
  if l.sp = 1 then .next (s.spareFlit p 1 l.spLane l.spRot (0, 0))
  else if l.sp = 4 then .next (s.spareFlit p 4 l.spLane l.spRot (0, 0))
  else .next s

/-- A codeword lies at least 16 ahead of the last one received (R243). -/
def LinkS.ahead16 (l : LinkS) (period cw : Nat) : Bool :=
  let d := (period + 65536 - l.rxPer.1) % 65536
  decide (d < 32768) && decide (l.rxPer.2 + 16 ≤ d * 256 + cw)

/-- SPARE_DWELL_END: 64 µs after READY, LS locked: SWITCH names a codeword at least 16 ahead (R243). -/
def execSpareDwellEnd (p : PortIx) (period : BitVec 16) (cw : Byte) (s : State) : Res :=
  let l := s.link p
  match l.rxSpare with
  | some ls =>
    if s.linkL0 p ∧ l.sp = 2 ∧ 63 ≤ ticksSince l.spReady s.tick.loc ∧ s.lnState p ls = 6 ∧ l.ahead16 period.toNat cw.toNat then
      .next ((s.setLink p { l with sp := 3, spCw := (period.toNat, cw.toNat) }).spareFlit p 3 l.spLane l.spRot (period.toNat, cw.toNat))
    else .next s
  | none => .next s

/-- The replacement's last row at the receiving end: DONE, event and count (R243). -/
def State.spareDone (s : State) (p : Nat) : State :=
  let l := s.link p
  let s1 := (((s.setLink p { l with sp := 4, spRot := false }).setSpare p 2 l.spLane).spareFlit p 4 l.spLane false (0, 0)).cnt (ptFlSwapCnt p)
  let s2 := (s1.raise 0x0B03 [.w p, .w 0, .w l.spLane, .w l.spOld]).setLink p { s1.link p with dueLane := none }
  match l.dueLane with
  | some (_, f) => s2.noSpare p f
  | none => s2

/-- SPARE_SWITCH_POINT: at the named codeword the lane is read from its new physical lane; a rotated lane's old receiver starts
its recalibration, and a lane switched back ends the rotation (R243, R245, R287, R404). -/
def execSpareSwitchPoint (p : PortIx) (s : State) : Res :=
  let l := s.link p
  if !s.linkL0 p then .next s
  else match l.sp, l.rxSpare with
  | 3, some ls =>
    let s1 := s.setLink p { l with rxMap := l.rxMap.set l.spLane ls }
    if l.spRot then
      let s2 := (s1.setLink p { s1.link p with sp := 5 }).setSpare p 3 l.spLane
      let s3 := s2.setLane p l.spOld { s2.laneS p l.spOld with recal := l.dueLane.isNone }
      .next (if s3.lnState p l.spOld = 6 ∧ l.dueLane.isNone then (s3.laneTo p l.spOld 3).sweepStart p l.spOld else s3)
    else .next (s1.spareDone p)
  | 6, _ =>
    let s1 := (s.setLink p { l with sp := 0, rxMap := l.rxMap.set l.spLane l.spOld }).setSpare p 0 0
    let s2 := s1.spareFlit p 6 l.spLane true (0, 0)
    match l.dueLane with
    | some (g, f) => .next ((s2.setLink p { s2.link p with dueLane := none }).replaceLane p g f)
    | none => .next s2
  | _, _ => .next s

/-- SPARE_SWITCH_RECEIVE: the transmitting end records the codeword (R243). -/
def execSpareSwitchReceive (p : PortIx) (period : BitVec 16) (cw : Byte) (s : State) : Res :=
  let l := s.link p
  .next (if s.linkL0 p ∧ l.tsp = 1 then s.setLink p { l with tspCw := some (period.toNat, cw.toNat) } else s)

/-- The transmitting end stops driving the spare. -/
def LinkS.mirrorOff (l : LinkS) : LinkS := { l with tsp := 0, tspCw := none, tx := { l.tx with mirror := none } }

/-- SPARE_DONE_RECEIVE: the transmitting end stops the old physical lane and marks it BAD (R243). -/
def execSpareDoneReceive (p : PortIx) (s : State) : Res :=
  let l := s.link p
  let ls := s.fld (ptFlLanemap p) 12 3
  if s.linkL0 p ∧ l.tsp = 1 then
    let old := s.fld (ptFlLanemap p) (3 * l.tspLane) 3
    let s1 := ((s.setFld (ptFlLanemap p) (3 * l.tspLane) 3 ls).setFld (ptFlLanemap p) 12 3 7).setBit (ptFlLanemap p) (20 + old) true
    .next (((s1.setLink p l.mirrorOff).cnt (ptFlSwapCnt p)).raise 0x0B03 [.w p, .w 1, .w l.tspLane, .w old])
  else .next s

/-- SPARE_ABORT_RECEIVE: the transmitting end stops mirroring (R243). -/
def execSpareAbortReceive (p : PortIx) (s : State) : Res := .next (if s.linkL0 p then s.setLink p (s.link p).mirrorOff else s)

/-- SPARE_BACK_RECEIVE: the transmitting end stops driving LS after a rotation (R245). -/
def execSpareBackReceive (p : PortIx) (s : State) : Res :=
  .next (if s.linkL0 p ∧ (s.link p).tspRot then s.setLink p (s.link p).mirrorOff else s)

/-- SPARE_LOCK_TIMEOUT: LS has not locked by 256 µs: ABORT, EV_FL_SPARE_FAIL; a rotation raises nothing (R243, R245). -/
def execSpareLockTimeout (p : PortIx) (s : State) : Res :=
  let l := s.link p
  if (l.sp = 1 ∨ l.sp = 2) ∧ 250 ≤ ticksSince l.spAt s.tick.loc then
    let s1 := ((s.setLink p { l with sp := 0 }).setSpare p 0 0).spareFlit p 5 l.spLane l.spRot (0, 0)
    .next (if l.spRot then s1 else s1.raise 0x0B04 [])
  else .next s

/-- ROTATION_INTERVAL: the spare takes the next logical lane (R245). -/
def execRotationInterval (p : PortIx) (s : State) : Res :=
  let l := s.link p
  let iv := let v := s.fld (ptFlSpareCtl p) 8 8; if v = 0 then 1 else v
  let noisy := decide (l.errWin = s.tick.loc.toNat / s.errTicks p + 1) && decide (s.errLimit p / 2 < l.err)
  if s.linkL0 p ∧ s.bit (ptFlCtl p) 27 ∧ l.sp = 0 ∧ !l.spared ∧ l.rxSpare.isSome ∧ !noisy ∧ iv * 65536 ≤ ticksSince l.rotAt s.tick.loc then
    .next ((s.setLink p { l with rotNext := (l.rotNext + 1) % 4, rotAt := s.tick.loc }).spareBegin p l.rotNext true)
  else .next s

/-- RECALIBRATION_DONE: the freed lane is locked again and SWITCH names the codeword of the way back, or it has failed and the
rotation becomes a replacement (R287). -/
def execRecalibrationDone (p : PortIx) (period : BitVec 16) (cw : Byte) (s : State) : Res :=
  let l := s.link p
  let st := s.lnState p l.spOld
  if s.linkL0 p ∧ l.sp = 5 ∧ (st = 8 ∨ (st = 6 ∧ l.ahead16 period.toNat cw.toNat)) then
    let s1 := s.setLane p l.spOld { s.laneS p l.spOld with recal := false }
    if st = 8 then .next (s1.spareDone p)
    else .next (((s1.setLink p { l with sp := 6, spCw := (period.toNat, cw.toNat) }).setSpare p 4 l.spLane).spareFlit p 3 l.spLane true (period.toNat, cw.toNat))
  else .next s

/-! ### Quiet and sleep (R246-R248) -/

/-- The whole ticks that QUIET_CW codewords take at the trained rate (R226, R246); 0 is treated as 1,024. -/
def State.quietTicks (s : State) (p : Nat) : Nat :=
  let q := let v := s.fld (ptFlPwr p) 16 16; if v = 0 then 1024 else v
  q * 174152 * 15625 * (if s.bit (ptFlStatus p) 28 then 1 else 2) / 262144000000

/-- QUIET_ENTER: QUIET_CW codewords without DATA, and nothing unacknowledged (R246). -/
def execQuietEnter (p : PortIx) (s : State) : Res :=
  let l := s.link p
  .next (if s.flState p = 4 ∧ s.bit (ptFlCtl p) 26 ∧ l.unacked = 0 ∧ s.quietTicks p ≤ ticksSince l.dataAt s.tick.loc then
    (s.sendCw p true []).setFld (ptFlStatus p) 29 3 5 else s)

/-- The conditions of R247 at this end. -/
def State.sleepOk (s : State) (p : Nat) : Bool :=
  let l := s.link p
  let n := let v := s.fld (ptFlPwr p) 0 16; if v = 0 then 64 else v
  s.linkL0 p && s.bit (ptFlCtl p) 25 && l.farSleep && decide (l.unacked = 0) && decide (n ≤ ticksSince l.busyAt s.tick.loc) &&
  (List.range 8).all (fun c => (s.queue (1536 + p * 8 + c)).isEmpty) && !s.bit (ptFlStatus p) 22

/-- A PWR control flit, in three consecutive codewords (R231). -/
def State.pwrFlit (s : State) (p op : Nat) : State := s.ctl p 7 [op] 3

/-- SLEEP_IDLE_TIMER: an end may send SLEEP_REQ (R247). -/
def execSleepIdleTimer (p : PortIx) (s : State) : Res :=
  .next (if s.sleepOk p ∧ (s.link p).slp = 0 then (s.setLink p { s.link p with slp := 1 }).pwrFlit p 1 else s)

/-- The responder answers a SLEEP_REQ. -/
def State.sleepAnswer (s : State) (p : Nat) : State :=
  if s.sleepOk p then (s.setLink p { s.link p with slp := 2, wake := false, slpAt := s.tick.loc }).pwrFlit p 2
  else (s.setLink p { s.link p with slp := 0 }).pwrFlit p 3

/-- SLEEP_REQ_RECEIVE: answered, or the crossing is resolved by module ID (R247). -/
def execSleepReqReceive (p : PortIx) (s : State) : Res :=
  if !s.linkL0 p then .next s
  else if (s.link p).slp = 1 ∧ s.moduleFid < s.fld (ptFlNeighbor p) 0 18 then .next s
  else if (s.link p).slp ≤ 1 then .next (s.sleepAnswer p)
  else .next s

/-- The exit from L1-sleep: the lanes re-lock, and the link passes ALIGN and INIT with RESUME = 1; sequence numbers, the replay buffer
and credits stay (R247, R248, R284). -/
def State.sleepExit (s : State) (p : Nat) : State :=
  let s1 := ((s.setBit (ptFlStatus p) 23 true).setFld (ptFlStatus p) 29 3 2).setLink p
    (({ s.link p with slp := 4, slpAt := s.tick.loc, since := s.tick.loc } : LinkS).newPeriod ((s.link p).tx.period + 1))
  s1.each (List.range 5) (fun l t => if (s.link p).rxMap.take 4 |>.contains l then t.relockStart p l else t)

/-- The commit point is known: two more codewords, then L1-sleep; a latched wake starts the exit at once (R247). -/
def State.sleepEnter (s : State) (p : Nat) (latch : Bool) : State :=
  let s0 := ((s.quietExit p).sendCw p false []).sendCw p false []
  let s1 := ((s0.setFld (ptFlStatus p) 29 3 6).setBit (ptFlStatus p) 23 latch).cnt (ptFlSleepCnt p)
  let s2 := s1.setLink p { s1.link p with slp := 3, wake := false, slpAt := s.tick.loc }
  if latch then s2.sleepExit p else s2

/-- SLEEP_ACK_RECEIVE: the initiator sends its own and both ends are committed (R247). -/
def execSleepAckReceive (p : PortIx) (s : State) : Res :=
  let l := s.link p
  if !s.linkL0 p then .next s
  else if l.slp = 1 then .next ((s.pwrFlit p 2).sleepEnter p false)
  else if l.slp = 2 then .next (s.sleepEnter p l.wake)
  else .next s

/-- SLEEP_NAK_RECEIVE (R247). -/
def execSleepNakReceive (p : PortIx) (s : State) : Res := .next (if (s.link p).slp = 1 then s.setLink p { s.link p with slp := 0 } else s)

/-- SLEEP_CANCEL_RECEIVE (R247). -/
def execSleepCancelReceive (p : PortIx) (s : State) : Res := .next (if (s.link p).slp = 2 then s.setLink p { s.link p with slp := 0, wake := false } else s)

/-- WAKE_RECEIVE: cancels before the commit point, is latched after it (R247). -/
def execWakeReceive (p : PortIx) (s : State) : Res :=
  let l := s.link p
  if l.slp = 1 ∧ s.linkL0 p then .next ((s.setLink p { l with slp := 0 }).pwrFlit p 4)
  else if l.slp = 3 ∧ s.flState p = 6 then .next (s.sleepExit p)
  else .next s

/-- SLEEP_WAKE_EVENT: a wake at this end (R247). -/
def execSleepWakeEvent (p : PortIx) (s : State) : Res :=
  let l := s.link p
  if s.linkL0 p then
    if l.slp = 1 then .next ((s.setLink p { l with slp := 0, busyAt := s.tick.loc }).pwrFlit p 4)
    else if l.slp = 2 then .next ((s.setLink p { l with wake := true }).pwrFlit p 5)
    else .next (s.setLink p { l with busyAt := s.tick.loc })
  else if s.flState p = 6 ∧ l.slp = 3 then .next (s.sleepExit p)
  else .next s

/-- SLEEP_RESPONDER_TIMEOUT: nothing within 4 µs of the responder's SLEEP_ACK (R247). -/
def execSleepResponderTimeout (p : PortIx) (s : State) : Res :=
  .next (if (s.link p).slp = 2 ∧ 3 ≤ ticksSince (s.link p).slpAt s.tick.loc then s.setLink p { s.link p with slp := 0, wake := false } else s)

/-- RX_ELECTRICAL_IDLE_DETECT: on all four receive lanes after the responder's SLEEP_ACK (R247). -/
def execRxElectricalIdleDetect (p : PortIx) (s : State) : Res :=
  .next (if s.linkL0 p ∧ (s.link p).slp = 2 then s.sleepEnter p (s.link p).wake else s)

/-- SLEEP_EXIT_DONE: the exit completes within 16 ticks, ALIGN passed and INIT exchanged with RESUME = 1, or takes the link down with cause
3 (R248). -/
def execSleepExitDone (p : PortIx) (ok : Bool) (s : State) : Res :=
  let l := s.link p
  if l.slp = 4 then
    if ok ∧ ticksSince l.slpAt s.tick.loc ≤ 16 then
      let s0 := if s.flState p = 3 then s else (s.flTo p 3).sendInit p true
      let s1 := (s0.flTo p 4).setBit (ptFlStatus p) 23 false
      .next ((s1.setLink p { s1.link p with slp := 0, busyAt := s.tick.loc }).pump p)
    else .next (s.linkDown p 3)
  else .next s

/-! ### Messages at a fabric port (R228-R230, R241) -/

/-- The state that a meaning leaves. -/
def resState (r : Res) (s : State) : State :=
  match r with
  | .next t => t
  | _ => s

/-- A message of a fabric port meets its tile: hop limit, route, charge; a message for this module is handled here (R39-R42,
R158-R161), and one that the edge module turns into its host's form where its route ends at that host's port (`edge`, R229,
R230); but one that the shaper holds joins its hold list, and goes on to its station when it is released (R161). A yellow message
that meets a spilling queue is discarded (R162). -/
def State.fabTake (s : State) (p : Nat) (type : MsgType) (h : FHdr) (bytes : Nat) (body : List Byte) (expect : Bool) (unit : StationIx) (edge : Bool)
    (here : Bool → State → State) : State :=
  let t := p / 16
  let lim := if s.fld (tlRouteCtl t) 16 4 = 0 then 15 else s.fld (tlRouteCtl t) 16 4
  let m : NetMsg := { id := h.tag.toNat, type := type, cls := h.cls, src := h.src, ld := 0, dst := .fid h.dst, bytes := bytes, expect := expect, yellow := h.yellow, hop := h.hop, unit := unit, body := body }
  let s0 := s
  let s := s.markBusy
  if s.pmode p ≠ 3 ∨ !s.portUp p ∨ s.clk.draining then s0
  else if lim ≤ h.hop.toNat then
    (((s.cnt (tlHopDropCnt t)).raiseLim 0x0141 t []).linkFree p h.cls).errReply m 0
  else match s.egressOf t h.src { dst := h.dst } m with
  | none => (s.routeMiss p h.dst m).linkFree p h.cls
  | some e =>
    if e < 192 ∧ !(edge && decide (s.pmode e ≠ 3)) then (s.tileTake p h.src { dst := h.dst } e m).1
    else
      let fc := fcOf h.cls
      let charge := min 4096 (64 * cellCount bytes)
      let f := s.flowOf t fc h.src
      let holds := decide (fc = 0) || decide (fc = 4)
      let (c, f1) := if holds && !f.held.isEmpty then (2, f) else shaperTest (s.wheel t) s.now16 f charge
      let yellow := h.yellow || (decide (c = 1) && droppable h.cls)
      if c = 2 ∧ droppable h.cls then (((s.countColour t fc 2 charge).linkFree p h.cls).police t fc h.src f m)
      else if c = 2 ∧ holds then (s.tileTake p h.src { dst := h.dst } e m).1
      else
        let at0 : PmcAttr := { cls := some h.cls.val, prv := some 0, fid := some h.src.val }
        let s1 := ((((s.setFlowOf t fc h.src f1).tpmc p 0x01 1 at0).tpmc p 0x02 charge at0).countColour t fc c charge).linkFree p h.cls
        if yellow && s1.spillDue (p * 8 + h.cls.val) && s1.logOn then s1.cnt (tlQosCntDrop t fc) else here yellow s1

/-- The station of the home bank of a line. -/
def State.bankStation (s : State) (la : Nat) : StationIx := ⟨(24 + s.laBank la) % 53, Nat.mod_lt _ (by decide)⟩

/-- CREQ_RECEIVE: routed, or handled at the home (R229). HEV 1 RdS, 2 RdA, 3 RdOwn, 4 NCR, 5 WB, 6 CE, 7 NCW, 8 CHECK. -/
def execCreqReceive (p : PortIx) (h : FHdr) (hev : Fin 9) (rights : BitVec 2) (slice : SliceIx) (off : BitVec 22) (mask : BitVec 64) (data : Line) (s : State) : Res :=
  let la := slice.val * 2 ^ 22 + off.toNat
  let v : Via := .fabric p (h.tag.setWidth 16)
  let r : HReq := { fid := h.src, slice := slice, off := BitVec.ofNat 28 (off.toNat * 64), via := v, msg := .plain false, data := data, mask := mask }
  let bytes := if hev.val = 5 ∨ hev.val = 7 then 64 else 0
  if hev.val = 0 then .next (s.cnt (ptFlLostMsgCnt p))
  else .next (s.fabTake p .cacheReq h bytes (creqBody hev rights slice off mask (if bytes = 0 then [] else toLe 64 data.toNat)) true (s.bankStation la) false (fun _ t =>
    match hev.val with
    | 1 => t.homeAccept .rds r
    | 2 => t.homeAccept .rda r
    | 3 => t.homeAccept .rdown r
    | 4 => t.homeAccept .ncr r
    | 5 => resState (execHomeWb r t) t
    | 6 => t.homeAccept .ce r
    | 7 => t.homeAccept .ncw r
    | _ => resState (execCheck h.src h.tag slice off rights mask t) t))

/-- The completion of a request toward a remote home (R229, R241). -/
def RemReq.rsp (r : RemReq) (status grant : Nat) (data : Option Line) : Option HRsp :=
  if r.via = .discard then none else
  match status with
  | 0 => match data with
    | some d => some (.data grant d false)
    | none => some .done
  | 1 => match data with
    | some d => some (.data grant d true)
    | none => some .poison
  | 2 => failForm r.via r.write
  | _ => refuseForm r.via r.write

/-- CRSP_RECEIVE: completes its request toward the requester; a late one is discarded (R229, R241). -/
def execCrspReceive (p : PortIx) (h : FHdr) (status : Fin 5) (reason : Fin 6) (grant : Fin 4) (data : Option Line) (s : State) : Res :=
  .next (s.fabTake p .memRsp h (if data.isSome then 64 else 0) (crspBody status reason grant data) false ⟨p.val / 16 * 2 % 53, Nat.mod_lt _ (by decide)⟩ true (fun _ t =>
    match t.lnk.rem.find? (fun r => decide (r.fid = h.dst.val) && decide (r.tag = h.tag.toNat)) with
    | none => t
    | some r =>
      let t1 : State := { t with lnk := { t.lnk with rem := t.lnk.rem.erase r } }
      let t2 := if status.val = 3 then t1.originFail none r.fid reason.val (r.la % 2 ^ 22 * 64) else t1
      match r.rsp status.val grant.val data with
      | some x => (t2.emit (.homeRsp r.fid r.via r.la x)).readBack r.via x
      | none => t2.aheadFree r.fid r.la))

/-- The window index of the valid host map entry of a host's vCS with REMOTE = 1, MODULE and SLICE, and the vCS (R230). -/
def State.remoteEntry (s : State) (host home slice : Nat) : Option (Vcs × Nat) :=
  match s.vcsOfHost host with
  | none => none
  | some (_, c) => ((List.range c.len).find? (fun k => match tfind s.bind.hmap (c.base + k) with
    | some e => decide (e.remote = some home) && decide (e.slice = slice)
    | none => false)).map (fun k => (c, k))

/-- The host address of a window offset: the decoder's interleave and base in the reverse of R56. Which way of the interleave it is no
register says: `way`. -/
def Vcs.address (v : Vcs) (o way : Nat) : Nat :=
  let g := 256 * 2 ^ v.ig
  v.hdm + (o / g * 2 ^ v.iw + way % 2 ^ v.iw) * g + o % g

/-- SNP_RECEIVE: turned into the host's snoop, or answered SNPRSP I at once (R230). -/
def execSnpReceive (p : PortIx) (h : FHdr) (kind : Fin 4) (slice : SliceIx) (off : BitVec 22) (home : Fid) (s : State) : Res :=
  let la := slice.val * 2 ^ 22 + off.toNat
  if kind.val = 0 then .next (s.cnt (ptFlLostMsgCnt p))
  else .next (s.fabTake p .backInv h 0 (snpBody kind slice off.toNat home) false ⟨p.val / 16 * 2 % 53, Nat.mod_lt _ (by decide)⟩ true (fun _ t =>
    match t.remoteEntry h.dst home slice with
    | some (v, k) =>
      -- the way of the interleave is a free value
      let (w, t1) := t.draw
      ({ t1 with lnk := { t1.lnk with rsnp := t1.lnk.rsnp ++ [(la, h.dst.val, home.val, h.tag.toNat)] } }).emit
        (.hostSnoop h.dst (kind.val - 1) (v.address (k * 2 ^ 28 + off.toNat * 64) w))
    | none => t.emit (.fabMsg (portStation p) home 4 h.tag.toNat [0] none)))

/-- SNPRSP_RECEIVE: matched at the home by its tag, the tracker that sent the snoop (R229). -/
def execSnprspReceive (p : PortIx) (h : FHdr) (rsp : Fin 4) (data : Line) (s : State) : Res :=
  .next (s.fabTake p .cacheRsp h (if rsp.val < 2 then 0 else 64) (snprspBody rsp (if rsp.val < 2 then none else some data)) false ⟨p.val / 16 * 2 % 53, Nat.mod_lt _ (by decide)⟩ false (fun _ t =>
    match tfind t.home.trks h.tag.toNat with
    | none => t
    | some k =>
      let a : SnpRsp := { fid := h.src, keep := (if rsp.val % 2 = 1 then 1 else 0), data := (if rsp.val < 2 then none else some data) }
      resState (execSnoopResponse k.la a t) t))

/-- IO_MESSAGE_RECEIVE: a CXL.io TLP, routed or delivered to its unit (R229). -/
def execIoMessageReceive (p : PortIx) (h : FHdr) (bytes : Nat) (expect : Bool) (unit : StationIx) (s : State) : Res :=
  let type : MsgType := if h.cls = 5 then .ioNonPosted else if h.cls = 6 then .bulk else if expect then .ioNonPosted else .ioPosted
  let m : NetMsg := { id := h.tag.toNat, type := type, cls := h.cls, src := h.src, ld := 0, dst := .fid h.dst, bytes := bytes, expect := expect, yellow := h.yellow, hop := h.hop, unit := unit }
  .next (s.fabTake p type h bytes [] expect unit false (fun y t => t.emit (.delivered unit { m := { m with yellow := y }, yellow := y, inp := p, src := h.src, dst := h.dst, egress := 1000 + unit.val, cells := cellCount bytes, stamp := t.tick.loc })))

/-- MCTP_MESSAGE_RECEIVE: one MCTP packet, routed or delivered to the management station (R229). -/
def execMctpMessageReceive (p : PortIx) (h : FHdr) (bytes : Nat) (s : State) : Res :=
  let m : NetMsg := { id := h.tag.toNat, type := .mgmt, cls := h.cls, src := h.src, ld := 0, dst := .fid h.dst, bytes := bytes, expect := false, yellow := h.yellow, hop := h.hop, unit := 52 }
  .next (s.fabTake p .mgmt h bytes [] false 52 false (fun y t => t.emit (.delivered 52 { m := { m with yellow := y }, yellow := y, inp := p, src := h.src, dst := h.dst, egress := 1052, cells := cellCount bytes, stamp := t.tick.loc })))

/-- REMOTE_REQUEST_TIMEOUT: no response within the COH limit: completed as a route miss (R241). -/
def execRemoteRequestTimeout (tag : Word) (s : State) : Res :=
  match s.lnk.rem.find? (fun r => decide (r.tag = tag.toNat)) with
  | none => .next s
  | some r =>
    if tickEarlier s.tick.loc r.due then .next s
    else
      let s1 := ({ s with lnk := { s.lnk with rem := s.lnk.rem.erase r } } : State).cnt (tlAgeDropCnt r.tile)
      match refuseForm r.via r.write with
      | some x => .next ((s1.emit (.homeRsp r.fid r.via r.la x)).readBack r.via x)
      | none => .next (s1.aheadFree r.fid r.la)

end Sys2Proof.Machine
end

