-- ==== Sys2Proof/Machine/Cxl.lean ====
section
/-! DEFINITION. CXL ports, hot-plug, containment, vPPBs, the FM API, aged messages (R55, R66, R67, R150, R256-R274, R435). -/

namespace Sys2Proof.Machine

/-- A port that names a CXL link. -/
def State.isCxl (s : State) (p : Nat) : Bool := (decide (s.pmode p = 1) || decide (s.pmode p = 2)) && !s.isMember p && s.present 2 p

/-- PT_CX_HP_STATUS.HP_STATE: 0 EMPTY, 1 PRESENT, 2 ACTIVE, 3 BUTTON_WAIT, 4 REMOVE_REQ, 5 SAFE. -/
def State.hp (s : State) (p : Nat) : Nat := s.fld (ptCxHpStatus p) 29 3
def State.setHp (s : State) (p st : Nat) : State := s.setFld (ptCxHpStatus p) 29 3 st
/-- DEV_TYPE: 1 host, 2 Type-1, 3 Type-2, 4 Type-3 SLD, 5 Type-3 MLD, 6 PCIe device. -/
def State.devType (s : State) (p : Nat) : Nat := s.fld (ptCxStatus p) 12 3

/-- The vPPB that a port is bound to: vCS * 16 + vPPB. -/
def State.vppbOf (s : State) (p : Nat) : Option Nat := (s.cxl.vppb.find? (fun e => decide (e.2 = p))).map (·.1)

/-- Indicators of an FM-managed port; those of a host-managed port are the host's (R271). -/
def State.setPwrInd (s : State) (p v : Nat) : State := if (s.vppbOf p).isSome then s else s.setFld (ptCxHpCtl p) 30 2 v
def State.setAttnInd (s : State) (p v : Nat) : State := if (s.vppbOf p).isSome then s else s.setFld (ptCxHpCtl p) 28 2 v

/-- The lanes of a link's configured width. -/
def State.cfgWidth (s : State) (p : Nat) : Nat := 4 * 2 ^ min 2 (s.fld (ptMode p) 28 2)

/-- A CXL lane in L0 is LOCKED (R286): peaking 4 and no DFE at 2.5 and 5 GT/s, above them the result of the lane's own sweep, a
free value. -/
def State.cxLaneUp (s : State) (p l rate : Nat) : State :=
  let (v, s1) := if rate < 2 then (4, s) else s.draw
  let pk := if s.bit (lnRxEq p l) 30 then s.fld (lnRxEq p l) 24 4 else v % 16
  let s2 := ((s1.setFld (lnRxEq p l) 0 4 pk).setReg (lnDfe0 p l) (BitVec.ofNat 32 (v / 16))).setReg (lnDfe1 p l) (BitVec.ofNat 32 (v / 2 ^ 36))
  let s3 := s2.laneLock p l
  s3.setLane p l { s3.laneS p l with eq := some (s3.eqNow p l) }

/-- The lanes of a link, from its naming port on (R258): link lane n is lane n mod 4 of member n / 4; with reversed lanes it is counted
from the link's last lane down. -/
def State.cxLanesUp (s : State) (p width rate : Nat) (rev : Bool) : State :=
  s.each (List.range width) (fun k t =>
    let n := if rev then s.cfgWidth p - 1 - k else k
    t.cxLaneUp (p + n / 4) (n % 4) rate)

/-- The lanes of a link go OFF; a lane in test stays. -/
def State.cxLanesOff (s : State) (p : Nat) : State :=
  s.each (List.range (s.cfgWidth p / 4)) (fun m t => t.lanesOff (p + m))

/-- Training starts (R272). -/
def State.cxTrain (s : State) (p : Nat) : State :=
  if s.bit (ptCxCtl p) 31 ∧ s.cxState p = 0 ∧ s.hp p ≠ 5 ∧ !s.bit glbTickStatus 29 then
    (s.setFld (ptCxStatus p) 29 3 1).setCxp p { s.cxp p with trainAt := some s.tick.loc, tryAt := s.tick.loc }
  else s

/-! ### What a link down and a removal do (R261-R264, R273) -/

/-- Engine jobs that use a host's memory stop; a ring there is unreachable (R203, R273). -/
def State.hostJobs (s : State) (f : Nat) : State :=
  s.each (s.boundInsts.filter (fun i => decide (s.insHost i = f))) (fun i t =>
    let there := decide (t.ringSpace i = 1)
    let uses := (t.inst i).job.any (fun j => j.fin.isNone && (there || (opnds j.bytes).any (fun o => decide (o.space = 1))))
    let t1 := if uses then t.stopInst i stEngAborted else t
    if there ∧ (t.ringState i = 1 ∨ t.ringState i = 2) then t1.ringError i 3
    else if t.ringState i = 1 ∧ uses = true then
      (t1.setInst i { t1.inst i with units := [], refetch := false }).setRing i 3 (t.fld (insRingStatus i) 24 2)
    else t1)

/-- A vPPB shows surprise removal to its host (R273). -/
def State.vppbGone (s : State) (p : Nat) : State :=
  match s.vppbOf p with
  | some k => s.emit (.vppbSurprise k)
  | none => s

/-- The agents behind a port are gone: dead agents, lost devices; a bound vPPB shows it (R67, R93, R262, R273). -/
def State.agentsGone (s : State) (p type lds : Nat) : State :=
  let s := s.vppbGone p
  match type with
  | 1 =>
    let s1 := match s.edgeFid p 0 with
      | some f => (s.agentDead f).hostJobs f
      | none => s
    s1.each ((s.bind.vcs.filter (fun e => decide (e.2.usp = p))).map (·.1)) (fun v t => t.freeHmpPort v)
  | 2 | 3 => match s.edgeFid p 0 with
    | some f => s.agentDead f
    | none => s
  | 4 | 5 => s.each (List.range (max 1 lds)) (fun ld t => (match t.edgeFid p ld with | some f => t.agentQuiet f | none => t).deviceLost p ld)
  | _ => match s.edgeFid p 0 with
    | some f => s.agentQuiet f
    | none => s

/-- Containment of a downstream port (R264). -/
def State.contain (s : State) (p : Nat) (aged : Bool) : State :=
  if s.pmode p ≠ 2 ∨ s.cxState p = 4 then s
  else
    let q4 := 1536 + p * 8 + 4
    let q5 := 1536 + p * 8 + 5
    let s1 := (s.setFld (ptCxStatus p) 29 3 4).cnt (ptCxContainCnt p)
    let s2 := s1.each ((s.cxp p).np ++ (s.queue q5).map (·.m)) (fun m t => if m.expect then t.emit (.errDone m 4 .ur) else t)
    let s3 := ((s2.cutQueue q4 []).cutQueue q5 []).setCxp p { s2.cxp p with np := [], trainAt := none }
    if aged then s3.raise 0x0706 [] else s3.raise 0x0C04 []

/-- After a link down beyond recovery the port shows PRESENT (R272). -/
def State.hpGone (s : State) (p : Nat) : State :=
  if 2 ≤ s.hp p ∧ s.hp p ≤ 4 then ((s.setHp p 1).cnt (ptCxSurpriseCnt p)).setCxp p { s.cxp p with lostScan := some 0 } else s

/-- Management locks held through a port that resets or loses its link break (R328). -/
def State.mgmtFnLost (s : State) (p : Nat) : State := s.resetPath (fun x => decide (x.path = 3) && decide (x.port.toNat = p))

/-- A CXL link goes down (R261, R262, R435); its port leaves the port sets (R40). For what is not a Type-3 device it is beyond recovery at
once, and a downstream port is contained (R264); containment and removal do that themselves. -/
def State.cxDown (s : State) (p cause : Nat) : State :=
  if s.cxState p ≠ 2 ∧ s.cxState p ≠ 3 then (if s.cxState p = 1 then (s.setFld (ptCxStatus p) 29 3 0).setCxp p { s.cxp p with trainAt := none } else s)
  else
    let ty := s.devType p
    let lds := s.fld (ptCxStatus p) 7 5
    let s1 := ((s.setReg (ptCxStatus p) 0).cnt (ptCxDownCnt p)).raise 0x0C02 [.w p, .w cause]
    let s2 := (s1.setCxp p { s1.cxp p with wasType := ty, wasLds := lds, tryAt := s.tick.loc }).mgmtFnLost p
    let keep := decide (cause = 3) || decide (cause = 4) || decide (cause = 6) || decide (cause = 7)
    let s3 := (s2.cxLanesOff p).demotePort p
    if (ty = 4 ∨ ty = 5) ∧ cause ≠ 6 then
      let t := s3.setCxp p { s3.cxp p with downAt := some s.tick.loc }
      if keep ∨ cause = 5 then t else t.cxTrain p
    else
      let t := s3.agentsGone p ty lds
      let t1 := if cause = 6 then t else t.hpGone p
      if cause = 5 ∨ cause = 6 then t1
      else if s.pmode p = 2 then t1.contain p false
      else if keep then t1
      else t1.cxTrain p

/-- CXL_LINK_DOWN: the partner left, Recovery failed, or the partner disabled the link (R261, R435). -/
def execCxlLinkDown (p : PortIx) (cause : Fin 9) (s : State) : Res :=
  if s.isCxl p && (decide (cause.val = 1) || decide (cause.val = 2) || decide (cause.val = 8)) then .next (s.cxDown p cause) else .next s

/-- CXL_RECOVERY: the LTSSM passes through Recovery back to L0 (R261). -/
def execCxlRecovery (p : PortIx) (s : State) : Res :=
  if !s.isCxl p then .next s
  else if s.cxState p = 2 then .next (s.cnt (ptCxRecoveryCnt p))
  else if s.cxState p = 3 then .next (s.setFld (ptCxStatus p) 29 3 2)
  else .next s

/-- DOWN_TICKS; 0 is treated as 1,024. -/
def State.downTicks (s : State) (p : Nat) : Nat := let v := s.fld (ptCxHpCtl p) 0 16; if v = 0 then 1024 else v

/-- The LDs of a Type-3 link that is down beyond recovery are lost (R67, R262). -/
def State.type3Lost (s : State) (p : Nat) : State :=
  let x := s.cxp p
  ((s.setCxp p { x with downAt := none }).agentsGone p x.wasType x.wasLds).hpGone p

/-- CXL_DOWN_TICKS_EXPIRY (R262, R264). -/
def execCxlDownTicksExpiry (p : PortIx) (s : State) : Res :=
  match (s.cxp p).downAt with
  | none => .next s
  | some t =>
    if ticksSince t s.tick.loc < s.downTicks p then .next s
    else
      let s1 := s.type3Lost p
      .next ((if s1.cxState p = 1 then s1.setFld (ptCxStatus p) 29 3 0 else s1).contain p false)

/-- CXL_UNCORRECTABLE_ERROR (R264). -/
def execCxlUncorrectableError (p : PortIx) (s : State) : Res :=
  if !s.isCxl p || (decide (s.cxState p ≠ 2) && decide (s.cxState p ≠ 3)) then .next s
  else
    let s1 := s.cnt (ptCxUncorrErrCnt p)
    if s.pmode p = 1 then .next (s1.emit (.aer p))
    else if s.bit (ptCxCtl p) 24 then .next ((s1.cxDown p 5).contain p false)
    else .next s1

/-! ### Link up (R66, R259, R260, R262, R272) -/

/-- The flit mode of R259: 0 non-flit, 1 68 B, 2 256 B. -/
def State.flitMode (s : State) (p rate : Nat) (has256 : Bool) : Nat :=
  if s.pmode p = 1 then (if 4 ≤ rate ∧ has256 then 2 else 0)
  else if rate = 5 then 2
  else if rate = 4 then (if has256 then 2 else if s.bit (ptCxCtl p) 26 then 1 else 0)
  else if 2 ≤ rate ∧ s.bit (ptCxCtl p) 26 then 1
  else 0

/-- MAX_RATE; 6 and 7 are treated as 5. -/
def State.maxRate (s : State) (p : Nat) : Nat := min 5 (s.fld (ptCxCtl p) 27 3)

/-- Reissue every M2S request toward a port's devices, in tracker order, then those that no tracker holds any more (R262). -/
def State.cxReissue (s : State) (p : Nat) : State :=
  let mine := fun dev : Nat => match s.edgeOf dev with | some (q, _) => decide (q = p) | none => false
  let rds := s.home.devRds.filter (fun e => mine (s.backing e.2.1).1)
  let wrs := s.home.devWrs.filter (fun w => mine w.1)
  let rd := fun (e : Nat × Nat × Option Nat) (t : State) => let b := t.backing e.2.1; (t.emit (.devRead e.1 b.1 b.2)).cnt (ptCxReissueCnt p)
  let wr := fun (w : Nat × Nat × Line × Bool) (t : State) => (t.emit (.devWrite w.1 w.2.1 w.2.2.1 w.2.2.2)).cnt (ptCxReissueCnt p)
  let lead := s.home.trks.filter (fun k => decide ((s.home.trks.find? (fun x => decide (x.2.la = k.2.la))).map (·.1) = some k.1))
  let s1 := s.each lead (fun k t => (t.each (rds.filter (fun e => decide (e.2.1 = k.2.la))) rd).each (wrs.filter (s.writeOf k.2.la)) wr)
  let s2 := s1.each (rds.filter (fun e => !lead.any (fun k => decide (e.2.1 = k.2.la)))) rd
  s2.each (wrs.filter (fun w => !lead.any (fun k => s.writeOf k.2.la w))) wr

/-- What a port may train with: not below the minimum configuration (R33), no faster and no wider than it is set to, 16, 8, 4, 2 or 1 lanes
wide (R258); a downstream port with a device, at 2.5 and 5 GT/s with a PCIe device only (R259). -/
def State.mayLinkUp (s : State) (p : Nat) (i : CxUp) : Bool :=
  s.isCxl p && decide (s.cxState p = 1) && !s.bit glbTickStatus 29 && decide (i.rate.val ≤ s.maxRate p) && decide (i.width.toNat ≤ s.cfgWidth p) &&
    [1, 2, 4, 8, 16].contains i.width.toNat && (decide (s.pmode p = 1) || (decide (2 ≤ i.type.val) && (decide (2 ≤ i.rate.val) || decide (i.type.val = 6))))

/-- What the link trained to and what the partner is. A Type-3 device that returns with another serial number leaves a link that was down
beyond recovery: its port is contained, and the new partner trains after the release (R262, R264). -/
def execCxlLinkUp (p : PortIx) (i : CxUp) (s : State) : Res :=
  if !s.mayLinkUp p i then .next s
  else if (s.cxp p).downAt.isSome && !(decide ((s.cxp p).serial = i.serial) && (decide (i.type.val = 4) || decide (i.type.val = 5))) then
    .next (((s.type3Lost p).setFld (ptCxStatus p) 29 3 0).contain p false)
  else
    let rate := i.rate.val
    let ty := if s.pmode p = 1 then 1 else i.type.val
    let flit := if ty = 6 then (if rate = 5 then 2 else 0) else s.flitMode p rate i.has256
    let lds := if ty = 5 then min 16 i.caps.length else if ty = 4 then 1 else 0
    let cxl := decide (flit ≠ 0) && decide (ty ≠ 6)
    let w := 2 * 2 ^ 29 + rate * 2 ^ 26 + i.width.toNat % 32 * 2 ^ 21 + flit * 2 ^ 19 + b2n (cxl && i.cache && decide (s.pmode p = 2)) * 2 ^ 18 + b2n (cxl && i.mem) * 2 ^ 17 + 2 ^ 16 +
      b2n (i.pbr && decide (flit = 2)) * 2 ^ 15 + ty * 2 ^ 12 + lds * 2 ^ 7
    let x := s.cxp p
    let s1 := (s.setN (ptCxStatus p) w).setCxp p { x with serial := i.serial, downAt := none, trainAt := none, lostScan := none }
    let s2 := s1.cxLanesUp p i.width.toNat rate i.rev
    let s3 := if x.downAt.isSome then s2.cxReissue p
      else
        let t := (s2.setHp p 2).setPwrInd p 1
        let t1 := t.raise 0x0C01 []
        if ty = 4 ∨ ty = 5 then
          t1.each (List.range lds) (fun ld y =>
            let c := i.caps.getD ld 0
            (y.inBind (fun b => { b with devs := tput 0 b.devs (p * 16 + ld) c })).raise 0x0C40 [.w p, .w ld, .w c])
        else t1
    let bad := decide (rate < s.maxRate p) || decide (i.width.toNat < s.cfgWidth p) || (decide (s.pmode p = 1) && decide (flit ≠ 2))
    .next (if bad then s3.raise 0x0C03 [.w p, .w rate, .w i.width.toNat, .w flit] else s3)

/-- CXL_TRAIN_TIMEOUT: 64 ticks without L0 (R272). -/
def execCxlTrainTimeout (p : PortIx) (s : State) : Res :=
  match (s.cxp p).trainAt with
  | none => .next s
  | some t =>
    if s.isCxl p && decide (s.cxState p = 1) && decide (s.hp p = 1) && decide (64 ≤ ticksSince t s.tick.loc) then
      .next ((((s.setFld (ptCxStatus p) 29 3 0).setCxp p { s.cxp p with trainAt := none }).setAttnInd p 1).raiseLim 0x0C06 p [])
    else .next s

/-- CXL_TRAIN_RETRY: training is retried every 1,024 ticks (R272). -/
def execCxlTrainRetry (p : PortIx) (s : State) : Res :=
  .next (if s.isCxl p && decide (s.cxState p = 0) && (decide (s.hp p = 1) || (s.cxp p).downAt.isSome) && decide (1024 ≤ ticksSince (s.cxp p).tryAt s.tick.loc) then s.cxTrain p else s)

/-! ### Presence, buttons (R270-R272) -/

/-- An indicator at the expander: 1 on, 2 toggles every 1,907 scans, else off; and the scans since it toggled (R270). -/
def indStep (v : Nat) (out : Bool) (run : Nat) : Bool × Nat :=
  if v = 2 then (if 1907 ≤ run + 1 then (!out, 0) else (out, run + 1)) else (decide (v = 1), 0)

/-- The indicators that a port shows: the host's on a host-managed port, else PT_CX_HP_CTL's (R271). -/
def State.indShown (s : State) (p : Nat) : Nat × Nat :=
  if (s.vppbOf p).isSome then ((s.cxp p).slotPwr, (s.cxp p).slotAttn) else (s.fld (ptCxHpCtl p) 30 2, s.fld (ptCxHpCtl p) 28 2)

/-- The tile drives a port's indicators in a scan (R270). -/
def State.indScan (s : State) (p : Nat) (x : CxPort) : CxPort :=
  let want := s.indShown p
  let a := indStep want.1 x.pwrOut x.pwrRun
  let b := indStep want.2 x.attnOut x.attnRun
  { x with pwrOut := a.1, pwrRun := a.2, attnOut := b.1, attnRun := b.2 }

/-- One brick of a scan: presence and buttons of its eight ports are read and its indicators driven; none: the expander does not answer (R270). -/
def State.scanBrick (s : State) (b : Nat) (r : Option (BitVec 8 × BitVec 8)) : State :=
  let ports := (List.range 8).map (fun k => 8 * b + k)
  match r with
  | none =>
    let n := tget 0 s.cxl.quiet b + 1
    let s1 := { s with cxl := { s.cxl with quiet := tput 0 s.cxl.quiet b (min 3 n) } }
    if n = 3 then (s1.each ports (fun p t => (t.setBit (ptCxHpStatus p) 26 false).setCxp p { t.cxp p with prsRun := 0, btnRun := 0 })).raise 0x0C14 [] else s1
  | some (pr, bt) =>
    ({ s with cxl := { s.cxl with quiet := tput 0 s.cxl.quiet b 0 } }).each (List.range 8) (fun k t =>
      let p := 8 * b + k
      let x := t.cxp p
      let now := pr.getLsbD k
      let press := bt.getLsbD k
      let x1 : CxPort := { x with prsRun := (if now = t.bit (ptCxHpStatus p) 28 then 0 else x.prsRun + 1), btnRun := (if press then x.btnRun + 1 else 0),
                                  timer := x.timer - 1, lostScan := x.lostScan.map (· + 1) }
      ((t.setBit (ptCxHpStatus p) 26 true).setBit (ptCxHpStatus p) 27 press).setCxp p (t.indScan p x1))

/-- EXPANDER_SCAN: every 256 ticks a tile reads the expanders of its two bricks (R270). -/
def execExpanderScan (t : TileIx) (b0 b1 : Option (BitVec 8 × BitVec 8)) (s : State) : Res :=
  .next (if s.present 1 t then (s.scanBrick (2 * t.val) b0).scanBrick (2 * t.val + 1) b1 else s)

/-- CXL_PRESENCE_ACCEPTED: 64 equal scans (R270, R272). -/
def execCxlPresenceAccepted (p : PortIx) (s : State) : Res :=
  let x := s.cxp p
  if s.isCxl p && !s.bit (ptCxHpStatus p) 28 && s.bit (ptCxHpStatus p) 26 && decide (64 ≤ x.prsRun) then
    let s1 := ((s.setBit (ptCxHpStatus p) 28 true).setCxp p { x with prsRun := 0 }).raise 0x0C10 []
    let s2 := if s.hp p = 0 then s1.setHp p 1 else s1
    .next (if s.hp p = 0 ∧ s.bit (ptCxCtl p) 25 then s2.cxTrain p else s2)
  else .next s

/-- The consequence of a removal fixed by the state left behind (R273). -/
def State.removed (s : State) (p cause : Nat) : State :=
  let ty := if s.cxState p = 2 ∨ s.cxState p = 3 then s.devType p else (s.cxp p).wasType
  let bound := (s.vppbOf p).isSome
  let s1 := s.cxDown p cause
  let s2 := if (s1.cxp p).downAt.isSome then (let t := s1.type3Lost p; if cause = 6 then t else t.contain p false) else s1
  if bound ∧ (ty = 2 ∨ ty = 6) then s2.contain p false else s2

/-- CXL_PRESENCE_LOST: 64 equal scans (R270, R272, R273). -/
def execCxlPresenceLost (p : PortIx) (s : State) : Res :=
  let x := s.cxp p
  if s.isCxl p && s.bit (ptCxHpStatus p) 28 && s.bit (ptCxHpStatus p) 26 && decide (64 ≤ x.prsRun) then
    let s1 := (s.setBit (ptCxHpStatus p) 28 false).setCxp p { x with prsRun := 0 }
    if s.hp p = 0 then .next s1
    else if s.hp p = 5 then .next (((s1.setHp p 0).setAttnInd p 0).raise 0x0C10 [])
    else
      let merged := match x.lostScan with | some n => decide (n ≤ 64) | none => false
      let s2 := if merged then s1 else s1.cnt (ptCxSurpriseCnt p)
      let s3 := (s2.setHp p 0).removed p 1
      .next (((s3.setHp p 0).setCxp p { s3.cxp p with lostScan := none, timer := 0 }).raise 0x0C13 [])
  else .next s

/-- CXL_BUTTON_ACCEPTED: 8 scans pressed (R270, R272). -/
def execCxlButtonAccepted (p : PortIx) (s : State) : Res :=
  let x := s.cxp p
  if !s.isCxl p || decide (x.btnRun < 8) || decide (1000000 ≤ x.btnRun) || !s.bit (ptCxHpStatus p) 26 then .next s
  else
    let s1 := s.setCxp p { x with btnRun := 1000000 }
    if s.hp p = 2 then .next ((((s1.setCxp p { s1.cxp p with timer := 19074 }).setHp p 3).setPwrInd p 2).raise 0x0C11 [])
    else if s.hp p = 3 then .next ((((s1.setCxp p { s1.cxp p with timer := 0 }).setHp p 2).setPwrInd p 1).raise 0x0C11 [])
    else .next s1

/-- BUTTON_WAIT_TIMER: 19,074 scans in BUTTON_WAIT (R272). -/
def execButtonWaitTimer (p : PortIx) (s : State) : Res :=
  if s.hp p = 3 ∧ (s.cxp p).timer = 0 then
    .next ((s.setHp p 4).raise 0x0C12 (.w p :: ((List.range 16).filterMap (s.edgeFid p)).map (fun f => EvVal.w f)))
  else .next s

/-- REMOVE_OK: the link is disabled; SAFE (R272, R273). -/
def State.removeOk (s : State) (p : Nat) : State :=
  if 2 ≤ s.hp p ∧ s.hp p ≤ 4 then
    let s1 := ((s.setHp p 5).removed p 6).setHp p 5
    s1.setPwrInd p 0
  else s

/-- PT_CX_HP_CTL_REMOVE_OK: of an FM-managed port (R271, R272). -/
def execPtCxHpCtlRemoveOk (p : PortIx) (s : State) : Res :=
  s.ifPresent 2 p (ptCxHpCtl p) (fun s => .next (if s.isCxl p && (s.vppbOf p).isNone then s.removeOk p else s))

/-- PT_CX_HP_CTL_CANCEL (R272). -/
def execPtCxHpCtlCancel (p : PortIx) (s : State) : Res :=
  s.ifPresent 2 p (ptCxHpCtl p) (fun s => .next (if s.isCxl p ∧ s.hp p = 4 then (s.setHp p 2).setPwrInd p 1 else s))

/-- HOST_SLOT_CONTROL_WRITE: the bound host drives the indicators; power off acts as REMOVE_OK (R271). -/
def execHostSlotControlWrite (v : VcsIx) (k : Fin 16) (pwr attn : BitVec 2) (off : Bool) (s : State) : Res :=
  match tfind s.cxl.vppb (v.val * 16 + k.val) with
  | none => .next s
  | some p =>
    let s1 := s.setCxp p { s.cxp p with slotPwr := pwr.toNat, slotAttn := attn.toNat }
    .next (if off then s1.removeOk p else s1)

/-! ### Control writes (R263, R264, R268) -/

/-- An agent behind a port holds a CACHING = 1 slot in an ACTIVE domain. -/
def State.cachesBehind (s : State) (p : Nat) : Bool :=
  (List.range 16).any (fun ld => match s.edgeFid p ld with
    | some f => s.bind.doms.any (fun e => decide (e.2.state = 1) && e.2.agents.any (fun a => a.2.caching && decide (a.2.fid = f)))
    | none => false)

/-- PT_CX_CTL_RETRAIN (R261, R263, R272). -/
def execPtCxCtlRetrain (p : PortIx) (force : Bool) (s : State) : Res :=
  s.ifPresent 2 p (ptCxCtl p) (fun s =>
    if !s.isCxl p || decide (s.cxState p = 4) then .next s
    else if !force && (s.cachesBehind p || (decide (s.pmode p = 1) && s.bind.vcs.any (fun e => decide (e.2.usp = p.val)))) then .next (s.raise 0x0C07 [])
    else if s.hp p = 5 then .next ((s.setHp p 1).cxTrain p)
    else .next ((s.cxDown p 3).cxTrain p))

/-- Leave containment; the link trains again (R264). -/
def State.dpcRelease (s : State) (p : Nat) : State := if s.cxState p = 4 then (s.setFld (ptCxStatus p) 29 3 0).cxTrain p else s

/-- PT_CX_CTL_DPC_RELEASE (R264). -/
def execPtCxCtlDpcRelease (p : PortIx) (s : State) : Res :=
  s.ifPresent 2 p (ptCxCtl p) (fun s => .next (if s.isCxl p then s.dpcRelease p else s))

/-- VPPB_DPC_RELEASE (R264). -/
def execVppbDpcRelease (v : VcsIx) (k : Fin 16) (s : State) : Res :=
  match tfind s.cxl.vppb (v.val * 16 + k.val) with
  | none => .next s
  | some p => .next (s.dpcRelease p)

/-- The upstream links that have the management function, beside port p's (R268). -/
def State.mgmtFns (s : State) (p : Nat) : Nat :=
  ((List.range 192).filter (fun q => decide (q ≠ p) && decide (s.pmode q = 1) && s.bit (ptCxCtl q) 30)).length

/-- PT_CX_CTL_MGMT_FN_WRITE: at most four links; clearing it breaks the locks held through it (R268, R328). -/
def execPtCxCtlMgmtFnWrite (p : PortIx) (v : Bool) (s : State) : Res :=
  s.ifPresent 2 p (ptCxCtl p) (fun s =>
    if !s.isCxl p then .next s
    else if v then
      if s.pmode p = 1 ∧ 4 ≤ s.mgmtFns p then .next s
      else .next (s.setBit (ptCxCtl p) 30 true)
    else .next (if s.bit (ptCxCtl p) 30 then (s.setBit (ptCxCtl p) 30 false).mgmtFnLost p else s))

/-- EN of PT_CX_CTL: 0 takes the link down with cause 4; 1 ends lane tests and starts training (R290, R435). -/
def State.cxEnWrite (s : State) (p : Nat) (v : Bool) : State :=
  let s1 := s.setBit (ptCxCtl p) 31 v
  if v then (let t := s1.endTests p; if s.bit (ptCxHpStatus p) 28 ∧ s.hp p ≠ 5 ∧ !s.bit (ptCxCtl p) 31 then t.cxTrain p else t)
  else s1.cxDown p 4

/-- PT_CX_CTL_EN_WRITE (R435). -/
def execPtCxCtlEnWrite (p : PortIx) (v : Bool) (s : State) : Res :=
  s.ifPresent 2 p (ptCxCtl p) (fun s => .next (if s.isCxl p then s.cxEnWrite p v else s))

/-! ### Port mode and merge, vCS and vPPBs (R15, R55, R257, R267) -/

/-- A port's link is up, or coming up. -/
def State.portRuns (s : State) (p : Nat) : Bool :=
  if s.pmode p = 3 then decide (s.flState p ≠ 0)
  else if s.pmode p = 0 then false
  else let n := s.linkOf p; [1, 2, 3].contains (s.cxState n)

/-- OP_PORT_MODE: at the next port reset (R15). -/
def execOpPortMode (q : Req) (body : List Byte) (s : State) : Res :=
  let m := byteAt body 0
  let p := q.index.toNat
  .next (s.nalug_run 0x0C01 q body { kinds := [2], lenOk := body.length = 4, badParam := decide (3 < m) || !rsvZero body [(1, 3)] } (fun t =>
    if t.portRuns p then refuse t stPortBusy else ok (t.setCxp p { t.cxp p with newMode := some m })))

/-- OP_PORT_MERGE: at the next port reset of every member (R257). -/
def execOpPortMerge (q : Req) (body : List Byte) (s : State) : Res :=
  let w := byteAt body 0
  let p := q.index.toNat
  let n := 2 ^ w
  let ports := (List.range n).map (p + ·)
  let was := (List.range 192).filter (fun x => ports.any (fun y => decide (s.linkOf x = s.linkOf y)))
  .next (s.nalug_run 0x0C02 q body { kinds := [2], lenOk := body.length = 4, badParam := decide (2 < w) || !rsvZero body [(1, 3)], objs := (ports ++ was).map .port } (fun t =>
    if p % 16 % n ≠ 0 ∨ (t.pmode p ≠ 1 ∧ t.pmode p ≠ 2) ∨ ports.any (fun x => decide (t.pmode x ≠ t.pmode p)) then refuse t stRange
    else if (ports ++ was).any t.portUp then refuse t stPortBusy
    else
      let t1 := t.each was (fun x y => y.setCxp x { y.cxp x with newLink := some (0, x) })
      ok (t1.each ports (fun x y => y.setCxp x { y.cxp x with newLink := some (w, p) }))))

/-- Bind a downstream port to a vPPB (R267). -/
def State.vppbBind (s : State) (v k p : Nat) : State × Nat :=
  if (tfind s.bind.vcs v).isNone ∨ s.pmode p ≠ 2 ∨ s.isMember p ∨ s.devType p = 4 ∨ s.devType p = 5 then (s, stRange)
  else if (s.vppbOf p).isSome then (s, stIdInUse)
  else if (tfind s.cxl.vppb (v * 16 + k)).isSome then (s, stIdInUse)
  else (({ s with cxl := { s.cxl with vppb := tins s.cxl.vppb (v * 16 + k) p } }).setBit (ptCxHpStatus p) 25 true, stOk)

/-- Unbind a vPPB (R267). -/
def State.vppbUnbind (s : State) (v k : Nat) : State × Nat :=
  match tfind s.cxl.vppb (v * 16 + k) with
  | none => (s, stRange)
  | some p =>
    let held := match s.edgeFid p 0 with
      | some f => s.bind.doms.any (fun e => decide (e.2.state ≠ 0) && e.2.agents.any (fun a => decide (a.2.fid = f)))
      | none => false
    if held then (s, stPortBusy)
    else (({ s with cxl := { s.cxl with vppb := tdel s.cxl.vppb (v * 16 + k) } }).setBit (ptCxHpStatus p) 25 false, stOk)

/-- OP_VCS_VPPB_BIND (R267). -/
def execOpVcsVppbBind (q : Req) (body : List Byte) (s : State) : Res :=
  let v := byteAt body 0
  let k := byteAt body 1
  let p := byteAt body 2
  .next (s.nalug_run 0x0309 q body { lenOk := body.length = 4, badParam := decide (96 ≤ v) || decide (16 ≤ k) || decide (192 ≤ p) || !rsvZero body [(3, 1)], objs := [.vcs v, .port p], units := [(2, p)] } (fun t =>
    let (t1, st) := t.vppbBind v k p
    (t1, some (st, []))))

/-- OP_VCS_VPPB_UNBIND (R267). -/
def execOpVcsVppbUnbind (q : Req) (body : List Byte) (s : State) : Res :=
  let v := byteAt body 0
  let k := byteAt body 1
  let port := match tfind s.cxl.vppb (v * 16 + k) with | some p => [Obj.port p] | none => []
  .next (s.nalug_run 0x030A q body { lenOk := body.length = 4, badParam := decide (96 ≤ v) || decide (16 ≤ k) || !rsvZero body [(2, 2)], objs := .vcs v :: port } (fun t =>
    let (t1, st) := t.vppbUnbind v k
    (t1, some (st, []))))

/-- OP_VCS_DESTROY: the instances of its host are reset (R55, R218). -/
def execOpVcsDestroy (q : Req) (body : List Byte) (s : State) : Res :=
  let v := byteAt body 0
  .next (s.nalug_run 0x0308 q body { lenOk := body.length = 4, badParam := decide (96 ≤ v) || !rsvZero body [(1, 3)], objs := [.vcs v] } (fun t =>
    match tfind t.bind.vcs v with
    | none => refuse t stRange
    | some x =>
      if (List.range x.len).any (fun i => (tfind t.bind.hmap (x.base + i)).isSome) then refuse t stVcsBusy
      else
        let bound := (t.cxl.vppb.filter (fun e => decide (e.1 / 16 = v))).map (·.2)
        let t1 := t.inBind (fun b => { b with vcs := tdel b.vcs v })
        let t2 := (t1.each (t1.boundInsts.filter (fun i => decide (t1.insHost i = x.host))) (fun i y => y.insReset i)).freeHmpPort v |>.fnReset v
        let t3 := t2.each bound (fun p y => y.setBit (ptCxHpStatus p) 25 false)
        ok { t3 with cxl := { t3.cxl with vppb := t3.cxl.vppb.filter (fun e => decide (e.1 / 16 ≠ v)) } }))

/-! ### The FM API (R269) -/

/-- The return code of a status. -/
def fmRc (st : Nat) : FmRc :=
  if st = stOk then .success
  else if st = stPortBusy ∨ st = stIdInUse then .busy
  else if st = stRange ∨ st = stUnitAbsent then .invalidInput
  else .internalError

/-- A command that changes binding has the locks, the refusals and the journal of its Nalug command. -/
def State.fmBinding (s : State) (src : Src) (code nalug : Nat) (body : List Byte) (objs : List Obj) (ports : List Nat) (act : State → State × Nat) : State :=
  let q : Req := { src := src, seq := 0, kind := 0, index := 0, lockV := false, lock := 0, gen := 0, rsvd := false }
  if ports.any (fun p => !s.present 2 p) then s.emit (.fmReply src code (fmRc stUnitAbsent) [])
  else match s.lockCheck q (.module :: objs) with
  | some st => s.emit (.fmReply src code (fmRc st) [])
  | none =>
    let (t, st) := act (s.journalBegin nalug q body)
    (t.journalDone nalug src 0 st []).emit (.fmReply src code (fmRc st) [])

/-- The management complex does not take FM API commands of this source: it is down, or a switch of cores runs, or the path is shut (R33,
R268, R363, R394). -/
def State.fmShut (s : State) (src : Src) : Bool := s.clk.mgmtLost || s.switching || s.pathShut src

/-- Serve an FM API command that is taken. -/
def State.fmServe (s : State) (src : Src) (act : Res) : Res := if s.fmShut src then .next s else act

/-- IDENTIFY_SWITCH_DEVICE: 192 physical ports, 96 vCSs. -/
def execIdentifySwitchDevice (src : Src) (s : State) : Res :=
  s.fmServe src (
    .next (s.emit (.fmReply src 0x5100 .success [192, 96])))

/-- GET_PHYSICAL_PORT_STATE: PT_MODE and PT_CX_STATUS. -/
def execGetPhysicalPortState (src : Src) (ports : List Byte) (s : State) : Res :=
  s.fmServe src (
    if ports.any (fun p => decide (192 ≤ p.toNat)) then .next (s.emit (.fmReply src 0x5101 .invalidInput []))
    else .next (s.emit (.fmReply src 0x5101 .success (ports.flatMap (fun p => [s.nreg (ptMode p.toNat), if s.isMember p.toNat then 0 else s.nreg (ptCxStatus p.toNat)])))))

/-- PHYSICAL_PORT_CONTROL: assert or deassert PERST#, or reset the port; CXL ports only. -/
def execPhysicalPortControl (src : Src) (port : Byte) (op : Fin 3) (s : State) : Res :=
  s.fmServe src (
    let p := port.toNat
    if 192 ≤ p ∨ !s.isCxl p then .next (s.emit (.fmReply src 0x5102 .invalidInput []))
    else
      let r := fun t : State => Host.Outcome.next (t.emit (.fmReply src 0x5102 .success []))
      match op.val with
      | 0 => r ((s.setCxp p { s.cxp p with perst := true }).emit (.perst p true))
      | 1 => r ((s.setCxp p { s.cxp p with perst := false }).emit (.perst p false))
      | _ => r { s with nalug := { s.nalug with resets := s.nalug.resets ++ [(5, 2 * 2 ^ 28 + p, 1, s.tick.loc)] } })

/-- SEND_PPB_CXL_IO_CONFIGURATION_REQUEST. -/
def execSendPpbCxlIoConfigurationRequest (src : Src) (port : Byte) (b : List Byte) (s : State) : Res :=
  s.fmServe src (
    let p := port.toNat
    if 192 ≤ p ∨ !s.isCxl p then .next (s.emit (.fmReply src 0x5103 .invalidInput []))
    else .next (s.emit (.fmForward 0x5103 p 0 b)))

/-- GET_VIRTUAL_CXL_SWITCH_INFO: whether the vCS exists, its upstream port, and 1 + the port of each vPPB. -/
def execGetVirtualCxlSwitchInfo (src : Src) (v : Byte) (s : State) : Res :=
  s.fmServe src (
    if 96 ≤ v.toNat then .next (s.emit (.fmReply src 0x5200 .invalidInput []))
    else
      let x := tfind s.bind.vcs v.toNat
      let usp := match x with | some c => c.usp | none => 0
      .next (s.emit (.fmReply src 0x5200 .success ([b2n x.isSome, usp] ++ (List.range 16).map (fun k => match tfind s.cxl.vppb (v.toNat * 16 + k) with | some p => p + 1 | none => 0)))))

/-- BIND_VPPB: as OP_VCS_VPPB_BIND; an LD-ID other than 0xFFFF is refused. -/
def execBindVppb (src : Src) (v : Byte) (k : Byte) (port : Byte) (ld : BitVec 16) (s : State) : Res :=
  s.fmServe src (
    if 96 ≤ v.toNat ∨ 16 ≤ k.toNat ∨ 192 ≤ port.toNat ∨ ld ≠ 0xFFFF then .next (s.emit (.fmReply src 0x5201 .invalidInput []))
    else .next (s.fmBinding src 0x5201 0x0309 [v, k, port, 0] [.vcs v.toNat, .port port.toNat] [port.toNat] (fun t => t.vppbBind v.toNat k.toNat port.toNat)))

/-- UNBIND_VPPB: as OP_VCS_VPPB_UNBIND. -/
def execUnbindVppb (src : Src) (v : Byte) (k : Byte) (s : State) : Res :=
  s.fmServe src (
    if 96 ≤ v.toNat ∨ 16 ≤ k.toNat then .next (s.emit (.fmReply src 0x5202 .invalidInput []))
    else
      let port := match tfind s.cxl.vppb (v.toNat * 16 + k.toNat) with | some p => [Obj.port p] | none => []
      .next (s.fmBinding src 0x5202 0x030A [v, k, 0, 0] (.vcs v.toNat :: port) [] (fun t => t.vppbUnbind v.toNat k.toNat)))

/-- GENERATE_AER_EVENT: AER reports it to the host of the vCS. -/
def execGenerateAerEvent (src : Src) (v : Byte) (k : Byte) (s : State) : Res :=
  s.fmServe src (
    match tfind s.bind.vcs v.toNat with
    | some c => if 16 ≤ k.toNat then .next (s.emit (.fmReply src 0x5203 .invalidInput [])) else .next ((s.emit (.aer c.usp)).emit (.fmReply src 0x5203 .success []))
    | none => .next (s.emit (.fmReply src 0x5203 .invalidInput [])))

/-- A port that carries an MLD. -/
def State.mldPort (s : State) (p : Nat) : Bool := decide (p < 192) && s.isCxl p && decide (s.devType p = 5) && (decide (s.cxState p = 2) || decide (s.cxState p = 3))

/-- TUNNEL_MANAGEMENT_COMMAND: to an MLD's FM-owned LD. -/
def execTunnelManagementCommand (src : Src) (port : Byte) (b : List Byte) (s : State) : Res :=
  s.fmServe src (
    if s.mldPort port.toNat then .next (s.emit (.fmForward 0x5300 port.toNat 0xFFFF b)) else .next (s.emit (.fmReply src 0x5300 .invalidInput [])))

/-- SEND_LD_CXL_IO_CONFIGURATION_REQUEST. -/
def execSendLdCxlIoConfigurationRequest (src : Src) (port : Byte) (ld : Byte) (b : List Byte) (s : State) : Res :=
  s.fmServe src (
    if s.mldPort port.toNat && decide (ld.toNat < s.fld (ptCxStatus port.toNat) 7 5) then .next (s.emit (.fmForward 0x5301 port.toNat ld.toNat b))
    else .next (s.emit (.fmReply src 0x5301 .invalidInput [])))

/-- SEND_LD_CXL_IO_MEMORY_REQUEST. -/
def execSendLdCxlIoMemoryRequest (src : Src) (port : Byte) (ld : Byte) (b : List Byte) (s : State) : Res :=
  s.fmServe src (
    if s.mldPort port.toNat && decide (ld.toNat < s.fld (ptCxStatus port.toNat) 7 5) then .next (s.emit (.fmForward 0x5302 port.toNat ld.toNat b))
    else .next (s.emit (.fmReply src 0x5302 .invalidInput [])))

/-- FM_API_UNSUPPORTED. -/
def execFmApiUnsupported (src : Src) (opcode : BitVec 16) (s : State) : Res :=
  s.fmServe src (
    .next (s.emit (.fmReply src opcode.toNat .unsupported [])))

/-! ### Ageing (R150) -/

/-- The age limit of a class; hamper messages are not aged. -/
def State.ageLimit (s : State) (c : Nat) : Option Nat :=
  let lim := fun o lo => min 32767 (max 1 (s.fld o lo 15))
  match c with
  | 0 | 1 | 2 => some (lim hbmAgeLimit0 0)
  | 4 | 5 => some (lim hbmAgeLimit0 16)
  | 6 => some (lim hbmAgeLimit1 0)
  | 7 => some (lim hbmAgeLimit1 16)
  | _ => none

/-- The oldest message of a queue, which may lie in its spill chain, and the state without it (R141, R150). -/
def State.ageHead (s : State) (q : Nat) : Option (TMsg × State) :=
  match s.queue q, tget [] s.hbm.spill q with
  | m :: r, _ => some (m, s.cutQueue q r)
  | [], (_, m) :: r => some (m, s.inHbm (fun h => { h with spill := tput [] h.spill q r }))
  | [], [] => none

/-- MESSAGE_AGED: the head of a queue has reached its class limit (R150). Only droppable classes are checked at ingress. An aged
CXL.io message at a fabric port takes its link down with cause 2, and one at an upstream port takes its link down with cause
contained, with the same event: DESIGN CHOICE (log 251). -/
def execMessageAged (p : PortIx) (c : ClassIx) (egress : Bool) (s : State) : Res :=
  let q := (if egress then 1536 else 0) + p.val * 8 + c.val
  match s.ageHead q, s.ageLimit c with
  | some (m, s1), some lim =>
    let age := (ticksSince m.stamp s.tick.loc) % 65536
    let n := s.linkOf p
    if age < lim ∨ (!egress ∧ !droppable c) then .next s
    else if droppable c then .next ((s1.spillLeave q).latAbort (fun g => decide (g.id = m.m.id)) |>.ageDrop q [m])
    else if 4 ≤ c.val then
      .next (if s.pmode p = 3 then (s.linkDown p 2).raise 0x0706 []
        else if s.pmode n = 2 then (s.cxDown n 5).contain n true
        else (s.cxDown n 5).raise 0x0706 [])
    else if s.pmode p = 3 then .next (s.linkDown p 2)
    else
      match s.edgeOf m.dst with
      | some (_, ld) => if s.devType n = 4 ∨ s.devType n = 5 then .next (s1.deviceLost n ld) else .next (s1.agentDead m.dst)
      | none => .next s1
  | _, _ => .next s

end Sys2Proof.Machine
end

