-- ==== Sys2Proof/Machine/Units.lean ====
section
/-! DEFINITION. Units that leave service: ports that stop, queues that are discarded, retirement of each kind (R6, R33,
R153, R400). -/

namespace Sys2Proof.Machine

/-- The ports of a tile. -/
def tilePorts (t : Nat) : List Nat := (List.range 16).map (fun k => 16 * t + k)

/-- A port's link goes down: cause of a fabric link, cause of a CXL link (R254, R274). -/
def State.portDown (s : State) (p fl cx : Nat) : State :=
  if s.pmode p = 3 then s.linkDown p fl else if s.isCxl p then s.cxDown p cx else s

/-- A message that a reset discards (R153): a lost coherent message makes its agents dead, or its device lost, as an aged
one does (R93, R150); any other is completed as an aged message where it expects a completion. -/
def State.discard (s : State) (m : TMsg) : State :=
  let s1 := s.latAbort (fun g => decide (g.id = m.m.id))
  if m.m.cls.val ≤ 2 then
    match s1.edgeOf m.dst with
    | some (n, ld) => if s1.devType n = 4 ∨ s1.devType n = 5 then s1.deviceLost n ld else s1.agentDead m.dst
    | none => match s1.edgeOf m.src with
      | some (n, ld) => if s1.devType n = 4 ∨ s1.devType n = 5 then s1.deviceLost n ld else s1.agentDead m.src
      | none => s1
  else s1.errReply m.m 2

/-- Discard what a queue holds, its spill chain too; `dead`: coherent losses make agents dead. -/
def State.flushQueue (s : State) (q : Nat) : State :=
  let l := s.queue q ++ (tget [] s.hbm.spill q).map (·.2)
  let s1 := (s.inHbm (fun h => { h with spill := tput [] h.spill q [], spilling := h.spilling.filter (fun x => decide (x ≠ q)) })).cutQueue q []
  s1.each l (fun m t => t.discard m)

/-- Held messages that meet a test, and the flows without them. -/
def State.dropHeld (s : State) (p : TMsg → Bool) : State :=
  let cut := fun (t : Tab Flow) => t.map (fun e => (e.1, { e.2 with held := e.2.held.filter (fun m => !p m) }))
  let cut0 := fun (t : Tab Flow) => t.foldl (fun a e => tput {} a e.1 { e.2 with held := e.2.held.filter (fun m => !p m) }) []
  let gone := (s.qos.flows ++ s.qos.defs).flatMap (fun e => e.2.held.filter p)
  (s.inQos (fun q => { q with flows := cut q.flows, defs := cut0 q.defs })).each gone (fun m t => t.discard m)

/-- A port's queues are discarded, with the messages held that came in at it and the buffers reserved toward it; its deficits go to 0
(R87, R153, R174). -/
def State.flushPort (s : State) (p : Nat) : State :=
  let s1 := s.each (List.range 8) (fun c t => (t.flushQueue (p * 8 + c)).flushQueue (1536 + p * 8 + c))
  let s2 := s1.dropHeld (fun m => decide (m.inp = p))
  (s2.inQos (fun q => { q with deficit := q.deficit.filter (fun e => decide (e.1 / 8 ≠ p)) })).inHbm (fun h => { h with ahead := h.ahead.filter (fun a => decide (a.1 ≠ p)) })

/-- Retire a tile (R6, R400): its ports stop and what they hold is discarded, then its bit and event. -/
def State.retireTile (s : State) (t : Nat) : State :=
  if s.present 1 t then (s.each (tilePorts t) (fun p x => (x.portDown p 7 7).flushPort p)).retireUnit 1 t else s

/-- Retire a unit of any kind that R6 names, with what its chapter gives for its loss. -/
def State.retireAny (s : State) (kind i : Nat) : State :=
  match kind with
  | 1 => s.retireTile i
  | 2 => ((s.portDown i 7 7).flushPort i).retireUnit 2 i
  | 4 => (s.retireUnit 4 i).homeBankLost i
  | 5 => (s.retireUnit 5 i).sfBankLost i
  | 6 => (s.retireUnit 6 i).enginesLost (if s.present 6 i then [i] else [])
  | 7 =>
    let es := s.clusterEngines i
    (s.retireUnit 7 i).enginesLost es
  | 8 => s.retireStack i
  | 11 =>
    let s1 := s.retireUnit 11 i
    let s2 := s1.setBit mgtStatus 30 (s1.present 11 0 && s1.present 11 1)
    if s.activeCore = i ∧ s.present 11 (1 - i) then s2.takeover i (1 - i) 2 else s2
  | _ => s

/-- The kinds of the minimum service set that a command can name (R33). -/
def State.lastOfMinimum (s : State) (kind i : Nat) : Bool :=
  [1, 2, 4, 5, 11].contains kind && !(List.range (kindCount kind)).any (fun j => decide (j ≠ i) && s.present kind j)

/-- OP_UNIT_RETIRE: R6 on the target; refused for the last present unit of a kind of the minimum service set (R323). -/
def execOpUnitRetire (q : Req) (body : List Byte) (s : State) : Res :=
  let k := q.kind.toNat
  let i := q.index.toNat
  .next (s.nalug_run 0x0107 q body { kinds := [1, 2, 4, 5, 6, 7, 8, 11], lenOk := body.length = 0 } (fun t =>
    if t.lastOfMinimum k i then refuse t stBadParam else ok (t.retireAny k i)))

end Sys2Proof.Machine
end

