-- ==== Sys2Proof/Machine/Telemetry.lean ====
section
/-! DEFINITION. Monitors, counter registers, bandwidth windows, dumps, latency records, the audit (chapter 15). -/

namespace Sys2Proof.Machine

def State.inTel (s : State) (f : TelS → TelS) : State := { s with tel := f s.tel }

/-! ### Temperature levels (R372, R373) -/

/-- A threshold in °C of a kind: level 1 WARN, 2 HOT, 3 CRIT; CRIT is capped at its reset value (R373). -/
def State.thr (s : State) (kind lvl : Nat) : Nat :=
  let o := 0x700010 + 4 * kind
  match lvl with
  | 1 => s.fld o 24 8
  | 2 => s.fld o 16 8
  | _ => min (s.fld o 8 8) (bits (regReset o) 8 8)

/-- The level shown: 0 normal, 1 WARN, 2 HOT, 3 CRIT. -/
def levelOf (m : Nat) : Nat := if nbit m 2 then 3 else if nbit m 1 then 2 else if nbit m 0 then 1 else 0

def State.lvlMask (s : State) (kind i : Nat) : Nat := tget 0 s.tel.level (kind * 256 + i)

/-- What entry into CRIT does, after its event (R373). -/
def State.critAction (s : State) (kind i : Nat) : State :=
  match kind with
  | 0 =>
    if !s.present 1 i then s
    else if (List.range 12).any (fun t => decide (t ≠ i) && s.present 1 t) then s.retireTile i
    else s.orderlyOff
  | 1 | 3 => s.orderlyOff
  | _ => s

/-- One level of one source sees a sample: `t` in units of 1/`u` °C; `show` is the temperature as its register shows it. -/
def State.levelStep (s : State) (kind i lvl : Nat) (t : Int) (u shown : Nat) : State :=
  let l := s.thr kind lvl
  let key := kind * 1024 + i * 8 + lvl * 2
  let runOf := fun (x : State) k => tget 0 x.tel.runs k
  let setRun := fun (x : State) k v => x.inTel (fun y => { y with runs := tput 0 y.runs k v })
  let setLvl := fun (x : State) m => x.inTel (fun y => { y with level := tput 0 y.level (kind * 256 + i) m })
  let m := s.lvlMask kind i
  if !nbit m (lvl - 1) then
    let n := if ((l * u : Nat) : Int) ≤ t ∧ ¬ (lvl = 2 ∧ l = 0) then runOf s key + 1 else 0
    if n < 4 then setRun s key n
    else ((setLvl (setRun s key 0) (m + 2 ^ (lvl - 1))).raise (0x0900 + lvl) [.w kind, .w i, .w shown]) |> fun x =>
      if lvl = 3 then x.critAction kind i else x
  else
    let n := if t ≤ ((l : Int) - s.fld (0x700010 + 4 * kind) 0 4) * u then runOf s (key + 1) + 1 else 0
    if n < 4 then setRun s (key + 1) n else setLvl (setRun s (key + 1) 0) (m - 2 ^ (lvl - 1))

/-- A stack is retired when CRIT holds for 64 consecutive samples and AUTO_RETIRE = 1 (R373). -/
def State.critHold (s : State) (h : Nat) (t : Int) (u : Nat) : State :=
  let n := if ((s.thr 2 3 * u : Nat) : Int) ≤ t then tget 0 s.tel.runs (2048 + h * 8) + 1 else 0
  let s1 := s.inTel (fun y => { y with runs := tput 0 y.runs (2048 + h * 8) n })
  if 64 ≤ n ∧ s1.autoRetire then s1.retireStack h else s1

/-- A source's sample against all its levels; back to normal raises EV_TEMP_CLEAR (R373). -/
def State.levelSample (s : State) (kind i : Nat) (t : Int) (u shown : Nat) : State :=
  let m := s.lvlMask kind i
  let s1 := ((s.levelStep kind i 1 t u shown).levelStep kind i 2 t u shown).levelStep kind i 3 t u shown
  let s2 := if m ≠ 0 ∧ s1.lvlMask kind i = 0 then s1.raise 0x0904 [.w kind, .w i, .w shown] else s1
  if kind = 2 then s2.critHold i t u else s2

/-- A signed 16-bit reading. -/
def signed16 (v : Nat) : Int := if 32768 ≤ v then (v : Int) - 65536 else (v : Int)
def signed32 (v : Nat) : Int := if 2 ^ 31 ≤ v then (v : Int) - ((2 ^ 32 : Nat) : Int) else (v : Int)

/-- Kind and index of a temperature monitor (R372). -/
def tempSource (i : Nat) : Nat × Nat := if i < 12 then (0, i) else if i < 16 then (1, i - 12) else (2, i - 16)

/-- One temperature monitor: levels, TEL_TEMP, TEL_MON_STATUS. -/
def State.tempSample (s : State) (i : Nat) (w : BitVec 16) : State :=
  let (k, j) := tempSource i
  let s1 := s.levelSample k j (signed16 w.toNat) 16 w.toNat
  let l := levelOf (s1.lvlMask k j)
  (s1.setN (telTemp i) (2 ^ 31 + l * 2 ^ 28 + w.toNat)).setFld (telMonStatus + 4 * (i / 16)) (2 * (i % 16)) 2 l

/-- Nominal value of a voltage monitor in mV (R303, R372). -/
def voltNominal (i : Nat) : Nat :=
  if i < 4 then 750 else if i = 4 then 850 else if i = 5 then 800 else if i = 6 then 1800 else if i < 11 then 900 else 1100

/-- One voltage monitor: outside 3 percent in 4 consecutive samples sets WARN (R374). -/
def State.voltSample (s : State) (i mv : Nat) : State :=
  let nom := voltNominal i
  let out := decide (3 * nom < 100 * (mv - nom)) || decide (3 * nom < 100 * (nom - mv))
  let n := if out then min 5 (tget 0 s.tel.voltRun i + 1) else 0
  let s1 := s.inTel (fun y => { y with voltRun := tput 0 y.voltRun i n })
  let warn := s.bit (telVolt i) 30 || decide (n = 4)
  let s2 := s1.setN (telVolt i) (2 ^ 31 + b2n warn * 2 ^ 30 + mv)
  if n = 4 then s2.raise 0x0905 [.w i, .w mv] else s2

/-- A stage's sample: the temperature of its last poll, while it answers (R309, R372). -/
def State.stageSample (s : State) (k : Nat) : State :=
  if s.present 10 k && !s.bit (pwrStgStatus k) 31 && (s.stage k).mode.isSome then
    s.levelSample 3 k (signed32 (s.nreg (pwrStg k + 8))) 1000 (s.nreg (pwrStg k + 8))
  else s

/-- MONITOR_SAMPLE: every 64 ticks; readings of the 20 temperature and 12 voltage monitors (R372-R374). -/
def execMonitorSample (temps volts : List (BitVec 16)) (s : State) : Res :=
  let due := match s.tel.sampleAt with | some a => decide (64 ≤ ticksSince a s.tick.loc) | none => true
  if !due then .next s
  else
    let s1 := s.inTel (fun y => { y with sampleAt := some s.tick.loc })
    let s2 := s1.each (List.range 20) (fun i t => t.tempSample i (temps.getD i 0))
    let s3 := s2.each (List.range 12) (fun i t => t.voltSample i (volts.getD i 0).toNat)
    .next (s3.each (List.range 21) (fun k t => t.stageSample k))

/-- RO_MEASURE: every 2^20 ticks; below 95 percent of its reference an oscillator is SLOW (R374). -/
def execRoMeasure (khz : List (BitVec 24)) (s : State) : Res :=
  let due := match s.tel.roAt with | some a => decide (2 ^ 20 ≤ ticksSince a s.tick.loc) | none => true
  if !due then .next s
  else
    let slow := fun i => decide (100 * (khz.getD i 0).toNat < 95 * (Config.roRef i).toNat)
    let s1 := s.inTel (fun y => { y with roAt := some s.tick.loc })
    let s2 := s1.each (List.range 8) (fun i t =>
      t.setN (telRo i) (b2n (slow i || s.bit (telRo i) 31) * 2 ^ 31 + (khz.getD i 0).toNat))
    if !s.tel.roDone && (List.range 8).any slow then .next ((s2.inTel (fun y => { y with roDone := true })).raise 0x0906 []) else .next s2

/-! ### Counters (R376, R377) -/

/-- The offset of a counter's registers: a tile's, or a global one. -/
def pmcBase (tile : Option TileIx) (c : Nat) : Nat :=
  match tile with
  | some t => tlPmcCfg t.val 0 + 0x20 * c
  | none => telPmcCfg c

/-- The counter exists: 64 of a tile, 128 global ones. -/
def pmcThere (tile : Option TileIx) (c : Nat) : Bool := decide (c < 64) || tile.isNone

/-- A write of a counter's registers; those of an absent tile discard it and report it (R4). -/
def State.pmcWrite (s : State) (tile : Option TileIx) (c off : Nat) (act : State → State) : Res :=
  if !pmcThere tile c then .next s
  else match tile with
    | some t => s.ifPresent 1 t.val (pmcBase tile c + off) (fun s => .next (act s))
    | none => .next (act s)

/-- The bits of word k of a counter that a write keeps: CFG, MATCH, MASK. -/
def pmcKeep (global : Bool) (k : Nat) : Nat := if k = 0 then (if global then 0xBFFFFFFF else 0xBFFFFFF7) else if k = 1 then 0x8003FFFF else 0x3FFFF

/-- PMC_CONFIG_WRITE: CFG, MATCH or MASK (word 0, 1, 2) takes effect at the next edge, after its snapshot (R377). -/
def execPmcConfigWrite (tile : Option TileIx) (c : Fin 128) (k : Fin 3) (v : Word) (s : State) : Res :=
  s.pmcWrite tile c (4 * k.val) (fun s => s.inTel (fun y => { y with pmcPend := y.pmcPend ++ [(pmcBase tile c + 4 * k.val, v)] }))

/-- PMC_CNT_WRITE: the count is set at once (R377). -/
def execPmcCntWrite (tile : Option TileIx) (c : Fin 128) (v : BitVec 64) (s : State) : Res :=
  s.pmcWrite tile c 0x10 (fun s => s.set64 (pmcBase tile c + 0x10) v.toNat)

/-- A pending word takes effect: CFG_ERR is judged anew (R376, R377). -/
def State.pmcApply (s : State) (o : Nat) (v : Word) : State :=
  let global := decide (0x701000 ≤ o) && decide (o < 0x702000)
  let b := o / 0x20 * 0x20
  let s1 := s.setN o (v.toNat &&& pmcKeep global (o % 0x20 / 4))
  s1.setBit b 30 (s1.bit b 31 && pmcErr global (s1.reg b) (s1.reg (b + 4)))

/-- Every pending word, in the order written. -/
def State.pmcEdge (s : State) : State :=
  s.tel.pmcPend.foldl (fun t e => t.pmcApply e.1 e.2) (s.inTel (fun y => { y with pmcPend := [] }))

/-! ### Bandwidth windows (R378) -/

def State.bwWindow (s : State) : Nat := let v := s.fld telBwCtl 0 16; if v = 0 then 1024 else v

/-- The offset lies in PT_BW_TX or PT_BW_RX of a port. -/
def isBw (o : Nat) : Bool :=
  match locate o with
  | some (.port, _, q) => decide (0x500 ≤ q) && decide (q < 0x510)
  | _ => false

/-- One port's direction at a window's end. -/
def State.bwMove (s : State) (p dir n : Nat) : State :=
  let s1 := s.set64 (ptBw p dir) n
  if s1.reg64 (ptBw p (2 + dir)) < n then s1.set64 (ptBw p (2 + dir)) n else s1

/-- BW_WINDOW_END: at an edge whose GLB_TICK_LOCAL is a multiple of WINDOW the counts move into PT_BW_*; `cxl` holds the
link-layer bytes sent and received by CXL ports (R378). -/
def execBwWindowEnd (cxl : List (PortIx × Nat × Nat)) (s : State) : Res :=
  if s.tick.loc.toNat % s.bwWindow ≠ 0 ∨ s.tel.bwAt = some s.tick.loc then .next s
  else
    let s1 := (s.clearRegs isBw).inTel (fun y => { y with bw := [], bwAt := some s.tick.loc })
    let s2 := s1.each (s.tel.bw.filter (fun e => decide (s.pmode (e.1 / 2) = 3))) (fun e t => t.bwMove (e.1 / 2) (e.1 % 2) e.2)
    .next (s2.each (cxl.filter (fun e => decide (s.pmode e.1.val ≠ 3))) (fun e t => (t.bwMove e.1.val 0 e.2.1).bwMove e.1.val 1 e.2.2))

/-! ### Dumps (R379-R381) -/

/-- The destination of dumps and records is there: DEST 0 a log stack, DEST 1 the management function on PORT. -/
def State.telDest (s : State) (dest port : Nat) : Bool :=
  if dest = 0 then s.logOn
  else decide (port < 192) && s.bit (ptCxCtl port) 30 && decide (s.cxState port = 2)

def State.dumpSlots (s : State) : Nat := let v := s.fld telDumpSlots 0 17; if v = 0 ∨ 65536 < v then 65536 else v

/-- A write of a dump fails, or its destination is missing (R380). -/
def State.dumpFail (s : State) (seq : Word) : State := (s.setBit telDumpStatus 31 true).raiseLim 0x0907 0 [.w seq.toNat]

/-- The words that a dump copies: counters, bandwidth registers, temperature and voltage monitors. -/
def dumped (o : Nat) : Bool :=
  match locate o with
  | some (.glob, _, q) => (decide (0x701000 ≤ q) && decide (q < 0x702000)) || (decide (0x700100 ≤ q) && decide (q < 0x700230))
  | some (.tile, _, q) => decide (0x60000 ≤ q) && decide (q < 0x60800)
  | some (.port, _, q) => decide (0x500 ≤ q) && decide (q < 0x510)
  | _ => false

/-- INTERVAL of TEL_DUMP_CTL: 1 to 15 are treated as 16, 0 stops dumps. -/
def State.dumpInterval (s : State) : Nat := let v := s.fld telDumpCtl 0 16; if v = 0 then 0 else max 16 v

/-- The snapshot of an edge (R379, R380): skipped while a dump is being written. -/
def State.snapshot (s : State) : State :=
  let seq := s.reg telDumpSeq + 1
  let s1 := s.setReg telDumpSeq seq
  let dest := s.fld telDumpCtl 31 1
  let port := s.fld telDumpCtl 16 8
  if s.tel.dump.isSome then (s1.cnt telDumpSkipCnt).cnt (glbBgLateCnt 5)
  else if !s.telDest dest port then s1.dumpFail seq
  else
    let slot := if dest = 0 then (seq - s.tel.dumpOrg).toNat % s.dumpSlots else seq.toNat % s.dumpSlots
    let d : Dump := { seq := seq, boot := s.mgmt.bootCount, tick := s.tick.loc, fab := s.tick.fab, flags := b2n s.locked + 2 * dest,
                      port := port, sampled := (s.tel.sampleAt.getD 0).toNat, addr := s.reg64 telDumpBase + slot * 16384, interval := s.dumpInterval,
                      regs := s.regs.filter (fun e => dumped e.1) }
    (s1.setBit telDumpStatus 30 true).inTel (fun y => { y with dump := some d })

/-- A word, or a 64-bit value, as a snapshot captured it. -/
def Dump.word (d : Dump) (o : Nat) : Nat := (tget (regReset o) d.regs o).toNat
def Dump.val64 (d : Dump) (o : Nat) : List Byte := toLe 4 (d.word o) ++ toLe 4 (d.word (o + 4))

/-- The telemetry record of a temperature or voltage monitor (R375). -/
def Dump.temp (d : Dump) (i : Nat) : List Byte :=
  let w := d.word (telTemp i)
  let m := signed16 (w % 65536) * 1000 / 16
  telRecord 2 3 (decide (w < 2 ^ 31)) false false i (BitVec.ofInt 32 m).toNat d.sampled (w % 65536)
def Dump.volt (d : Dump) (i : Nat) : List Byte :=
  let w := d.word (telVolt i)
  telRecord 3 1 (decide (w < 2 ^ 31)) false false i (w % 65536) d.sampled (w % 65536)

/-- Bytes 0x0000 to 0x3FFB of a dump slot (R381); counters of absent units are 0. -/
def State.dumpBody (s : State) (d : Dump) : List Byte :=
  let zero := List.replicate 8 (0 : Byte)
  toLe 4 d.seq.toNat ++ toLe 4 d.boot.toNat ++ toLe 6 d.tick.toNat ++ toLe 6 d.fab.toNat ++ toLe 1 d.flags ++ toLe 3 0 ++
  toLe 4 d.interval ++ List.replicate 36 0 ++
  (List.range 128).flatMap (fun c => d.val64 (telPmcCnt c)) ++
  (List.range 768).flatMap (fun k => if s.present 1 (k / 64) then d.val64 (tlPmcCfg (k / 64) (k % 64) + 0x10) else zero) ++
  (List.range 192).flatMap (fun p => if s.present 2 p then d.val64 (ptBw p 0) ++ d.val64 (ptBw p 1) else zero ++ zero) ++
  (List.range 20).flatMap d.temp ++ (List.range 12).flatMap d.volt ++
  List.replicate 0x1580 0 ++ toLe 4 d.seq.toNat ++ List.replicate 56 0

/-- The whole slot, with its check word. -/
def State.dumpBytes (s : State) (d : Dump) : List Byte :=
  let b := s.dumpBody d
  b ++ toLe 4 (crc32c 0 b).toNat

/-- DUMP_WRITE_UNIT: one 4 KiB unit, at most one per tick and none past the guard point (R29, R380). `good`: the write was
acknowledged. -/
def execDumpWriteUnit (good : Bool) (s : State) : Res :=
  match s.tel.dump with
  | none => .next s
  | some d =>
    if s.tick.guardDone || decide (d.at0 = some s.tick.loc) then .next s
    else
      let dest := d.flags / 2
      let stop := fun x : State => (x.setBit telDumpStatus 30 false).inTel (fun y => { y with dump := none })
      if !good || !s.telDest dest d.port then .next ((stop s).dumpFail d.seq)
      else
        let s1 := s.emit (.dumpUnit dest d.port (d.addr + 4096 * d.units) (((s.dumpBytes d).drop (4096 * d.units)).take 4096))
        if d.units = 3 then .next ((stop s1).setFld telDumpStatus 0 30 d.seq.toNat)
        else .next (s1.inTel (fun y => { y with dump := some { d with units := d.units + 1, at0 := some s.tick.loc } }))

/-! ### Latency records (R382, R383) -/

/-- The 64 B record of a tagged request (R383). -/
def LatTag.bytes (t : LatTag) (seq : Word) : List Byte :=
  let b := toLe 4 seq.toNat ++ toLe 1 t.port ++ toLe 1 (t.flags / 8 * 8 + t.cls) ++ toLe 1 t.bank ++ toLe 1 0 ++ toLe 4 t.fid ++
    toLe 4 t.slice ++ toLe 6 t.tick0.toNat ++ toLe 2 0 ++
    (List.range 8).flatMap (fun k => toLe 4 (match tfind t.stamps k with | some v => v | none => 0xFFFFFFFF)) ++ toLe 4 0
  b ++ toLe 4 (crc32c 0 b).toNat

/-- Remove the first tag whose record is due. -/
def dropFin : List LatTag → List LatTag
  | [] => []
  | t :: r => if t.fin then r else t :: dropFin r

/-- LATENCY_RECORD_WRITE: the oldest record that is due; at most 64 per tick, the rest are counted (R383). -/
def execLatencyRecordWrite (s : State) : Res :=
  match s.tel.tags.find? (fun t => t.fin) with
  | none => .next s
  | some t =>
    let s1 := s.inTel (fun y => { y with tags := dropFin y.tags })
    let dest := s.fld telLatCtl 31 1
    let port := s.fld telDumpCtl 16 8
    if 64 ≤ s.tel.latTick ∨ !s.telDest dest port then .next (s1.cnt telLatSkipCnt)
    else
      let seq := s.reg telLatSeq
      let size := let v := s.fld telLatSize 0 21; if v = 0 then 1048576 else v
      let s2 := s1.inTel (fun y => { y with latTick := y.latTick + 1 })
      .next ((s2.setReg telLatSeq (seq + 1)).emit (.latRecord dest port (s.reg64 telLatBase + seq.toNat % size * 64) (t.bytes seq)))

/-! ### The audit (R385) -/

/-- No hamper slot in use, no ring RUNNING with an entry between head and tail, no stepped command active. -/
def State.quietNow (s : State) : Bool :=
  decide (s.slotFree = 16384) && !s.eng.insts.any (fun e => decide (s.ringState e.1 = 1) && decide (e.2.h ≠ e.2.t)) &&
  !s.nalug.steps.any (fun e => decide (e.2.state = 1))

def State.idleTicks (s : State) : Nat := let v := s.fld telAuditCtl 20 4; if v = 0 then 4 else v

/-- TEL_AUDIT_STATUS.IDLE. -/
def State.idle (s : State) : Bool := decide (s.idleTicks ≤ s.tel.idleRun) && s.quietNow && !s.tel.busy

/-- At an edge: the tick that ends counts toward the idle run. -/
def State.idleEdge (s : State) : State :=
  s.inTel (fun y => { y with idleRun := (if s.quietNow && !s.tel.busy then y.idleRun + 1 else 0), busy := false, latTick := 0 })

/-- The units of a quantity whose identity fails at idle, lowest first (R385). -/
def State.auditFail (s : State) (k : Nat) : List Nat :=
  let units := fun n (bad : Nat → Bool) => (List.range n).filter bad
  match k with
  | 0 => units 16 (fun b => s.present 4 b && decide (s.trkFree b ≠ 8192))
  | 1 => units 16 (fun b => s.present 4 b && s.home.ents.any (fun e => e.2.hold && decide (s.laBank e.1 = b)))
  | 2 => units 53 (fun d => !(tget [] s.hbm.recv d).isEmpty)
  | 3 => units 12 (fun t => s.hbm.queues.any (fun e => decide (queueTile e.1 = t) && decide (0 < cellsOf e.2)))
  | 4 => if (s.spillPages none).isEmpty then [] else [0]
  | 5 => units 4 (fun h => s.hbm.slots.any (fun e => decide (slotStack e.1 = h)))
  | 6 => units 16 (fun b => s.present 4 b && decide (s.copiesWaiting b ≠ 0))
  | 7 => units 192 (fun p => decide (s.pmode p = 3) && decide (s.flState p = 4) &&
      decide ((List.range 8).map (fun c => s.nreg (ptFlCreditRsv p c)) ++ [s.nreg (ptFlCreditSh p)] ≠ (s.link p).cred))
  | 8 => if s.slotFree = 16384 then [] else [0]
  | 9 => if s.hmp.parts.any (fun p => p.doubt.isSome) then [0] else []
  | 10 => if s.eng.insts.any (fun e => decide (0 < e.2.pfHeld)) then [0] else []
  | 11 => if s.eng.insts.any (fun e => decide (0 < e.2.cplHeld)) then [0] else []
  | 12 => if s.fld qosStatus 0 17 + s.qos.rsv.length = 65536 then [] else [0]
  | 13 => units 12 (fun t => s.qos.flows.any (fun e => decide (e.1 / 2 ^ 21 = t) && !e.2.held.isEmpty) || s.qos.defs.any (fun e => decide (e.1 / 8 = t) && !e.2.held.isEmpty))
  | 14 => units 64 (fun n => decide ((s.lockAt n).gen.toNat ≠ (s.lockAt n).moves % 65536))
  | 15 =>
    let maps := s.bind.slices.foldl (fun a e => a + e.2.maps) 0
    let counted := (s.bind.doms.foldl (fun a e => a + (s.domSlices e.1).length) 0)
    if maps = s.bind.hmap.length + s.bind.grants.length ∧ counted = (s.bind.slices.filter (fun e => decide (e.2.state ≠ 0))).length then [] else [0]
  | _ => []

/-- A write of TEL_AUDIT_CTL; with GO = 1 it starts an audit (R385). -/
def State.auditWrite (s : State) (v : Word) : State :=
  let s1 := s.setN telAuditCtl (bits v 20 4 * 2 ^ 20 + bits v 0 16)
  if bits v 31 1 = 1 then (s1.setFld telAuditStatus 30 2 1).inTel (fun y => { y with auditOn := some s.tick.loc }) else s1

/-- AUDIT_GO (R385). -/
def execAuditGo (v : Word) (s : State) : Res := .next (s.auditWrite (putBits v 31 1 1))

/-- AUDIT_CHECK: at the first edge at which the module is idle every identity is checked (R385). -/
def execAuditCheck (s : State) : Res :=
  if s.tel.auditOn.isNone || !s.idle then .next s
  else
    let fails := (List.range 16).map s.auditFail
    let mask := (List.range 16).foldl (fun a k => a + b2n (!(fails.getD k []).isEmpty) * 2 ^ k) 0
    let s1 := ((s.inTel (fun y => { y with auditOn := none })).setN telAuditRes mask).setFld telAuditStatus 30 2 2
    match (List.range 16).find? (fun k => !(fails.getD k []).isEmpty) with
    | none => .next s1
    | some k =>
      let u := (fails.getD k []).headD 0
      .next ((s1.setN telAuditFirst (k * 2 ^ 28 + u)).raise 0x0908 [.w k, .w u])

/-- TIMEOUT of TEL_AUDIT_CTL; 0 is treated as 65,535. -/
def State.auditLimit (s : State) : Nat := let v := s.fld telAuditCtl 0 16; if v = 0 then 65535 else v

/-- AUDIT_TIMEOUT: not idle within TIMEOUT ticks (R385). -/
def execAuditTimeout (s : State) : Res :=
  match s.tel.auditOn with
  | none => .next s
  | some a =>
    if ticksSince a s.tick.loc < s.auditLimit ∨ s.idle then .next s
    else .next ((s.inTel (fun y => { y with auditOn := none })).setFld telAuditStatus 30 2 3)

end Sys2Proof.Machine
end

