-- ==== Sys2Proof/Machine/Tick.lean ====
section
/-! DEFINITION. The tick: its edge and guard point, the choice of the tick master, lock and step (R19-R30, R250-R252). -/

namespace Sys2Proof.Machine

def State.inTick (s : State) (f : TickS → TickS) : State := { s with tick := f s.tick }

/-! ### Lock (R22) -/

def State.stepPending (s : State) : Bool := s.bit glbTickStatus 30
def State.ownMaster (s : State) : Bool := s.bit glbTickStatus 28
/-- GLB_TICK_MASTER.VALID. -/
def State.hasMaster (s : State) : Bool := s.bit glbTickMaster 31
/-- UPSTREAM, when the module follows a master other than itself. -/
def State.upstream (s : State) : Option Nat := if s.hasMaster && !s.ownMaster then some (s.fld glbTickStatus 16 8) else none

/-- LOCKED goes from 1 to 0, with its event. -/
def State.loseLock (s : State) (cause : Nat) : State :=
  if s.locked then (s.setBit glbTickStatus 31 false).raise 0x0121 [.w cause] else s

/-- LOCKED goes from 0 to 1, with its event. -/
def State.gainLock (s : State) : State := if s.locked then s else (s.setBit glbTickStatus 31 true).raise 0x0120 []

/-! ### A SYNC against the module's own edge (R252), in sixteenths of a CK_CORE cycle -/

/-- Sixteenths in a tick. -/
def tick16 : Int := 49152

/-- The master-side edge that a SYNC names, after the own edge of the tick in which it arrived: t_rx - PT_FL_DELAY - OFFSET. -/
def State.masterEdge (s : State) (p : Nat) (m : SyncMsg) : Int :=
  (m.cycle : Int) - s.fld (ptFlDelay p) 0 24 - m.offset.toNat

/-- The own edge nearest to it, in ticks from the edge of the tick of arrival; and the phase error: that own edge less the
master's. -/
def nearestEdge (e : Int) : Int := (e + 24576) / tick16
def phaseOf (e : Int) : Int := nearestEdge e * tick16 - e

/-- A follower takes its upstream SYNC (R22, R252). `trim` is the trim in ppm that the error requires. -/
def State.follow (s : State) (p : Nat) (m : SyncMsg) (trim : Int) : State :=
  let e := s.masterEdge p m
  let ph := phaseOf e
  let own : Tick := s.tick.fab + BitVec.ofInt 48 (nearestEdge e)
  let good := decide (m.ftick = own) && decide (ph ≤ 384) && decide (-384 ≤ ph)
  let tr := max (-200) (min 200 trim)
  let s1 := s.setN glbTickPhase ((BitVec.ofInt 9 tr).toNat * 2 ^ 16 + (BitVec.ofInt 16 ph).toNat)
  if s1.locked then
    if good then (if trim < -200 ∨ 200 < trim then s1.loseLock 1 else s1)
    else (s1.loseLock 3).setBit glbTickStatus 30 true
  else if s1.stepPending then s1
  else if good then s1.gainLock
  else s1.setBit glbTickStatus 30 true

/-- SYNC_RECEIVE (R251, R252). -/
def execSyncReceive (p : PortIx) (m : SyncMsg) (trim : Int) (s : State) : Res :=
  if !s.linkL0 p then .next s
  else
    let s1 := s.inTick (fun t => { t with syncs := tput [] t.syncs p ((m, s.tick.loc) :: tget [] t.syncs p) })
    if s.upstream = some p.val ∧ s.tick.adj.isNone then .next (s1.follow p m trim) else .next s1

/-- MASTER_LOSS_TIMEOUT: 64 ticks without a path to a master (R22). -/
def execMasterLossTimeout (s : State) : Res :=
  match s.tick.lostAt with
  | some a => if 64 ≤ ticksSince a s.tick.loc then .next (s.loseLock 2) else .next s
  | none => .next s

/-- GLB_TICK_CTL_MASTER_ELIG: the choice of the next edge sees it (R428). -/
def execGlbTickCtlMasterElig (v : Bool) (s : State) : Res := .next (s.setBit glbTickCtl 31 v)

/-! ### The choice of the master (R251) -/

/-- A candidate: master, distance, port + 1 or 0 for the module itself. -/
def candLess (a b : Nat × Nat × Nat) : Bool :=
  decide (a.1 < b.1) || (decide (a.1 = b.1) && (decide (a.2.1 < b.2.1) || (decide (a.2.1 = b.2.1) && decide (a.2.2 ≤ b.2.2))))

def State.candidates (s : State) : List (Nat × Nat × Nat) :=
  (if s.bit glbTickCtl 31 then [(s.moduleFid, 0, 0)] else []) ++
  (s.tick.syncs.map (fun e =>
    (e.2.filter (fun m => decide (m.1.dist.val + 1 ≤ 15) && (m.1.locked || m.1.isMaster))).map
      (fun m => ((m.1.master.val, m.1.dist.val + 1, e.1 + 1) : Nat × Nat × Nat)))).flatten

/-- Mark the upstream link in PT_FL_STATUS. -/
def State.markUpstream (s : State) (old new : Option Nat) : State :=
  let s1 := match old with | some p => s.setBit (ptFlStatus p) 22 false | none => s
  match new with | some p => s1.setBit (ptFlStatus p) 22 true | none => s1

/-- The choice at an edge. SYNCs older than 4 ticks are gone. -/
def State.elect (s : State) : State :=
  let s0 := s.inTick (fun t => { t with
    syncs := (t.syncs.map (fun e => (e.1, e.2.filter (fun m => decide (ticksSince m.2 t.loc ≤ 4))))).filter (fun e => !e.2.isEmpty) })
  let cs := s0.candidates
  let was := s.upstream
  match cs.find? (fun c => cs.all (candLess c)) with
  | none =>
    let s1 := ((s0.setBit glbTickMaster 31 false).setBit glbTickStatus 28 false).setFld glbTickStatus 24 4 0
    (s1.inTick (fun t => { t with lostAt := (match t.lostAt with | some a => some a | none => some t.loc), lockPend := false })).markUpstream was none
  | some (m, d, q) =>
    let old := s.fld glbTickMaster 0 18
    let s1 := if !s.hasMaster && decide (old = m) && decide (s.reg glbTickMaster = 0) || decide (old ≠ m) then s0.raise 0x0B07 [.w old, .w m] else s0
    let s2 := ((s1.setN glbTickMaster (2 ^ 31 + m)).setBit glbTickStatus 28 (decide (q = 0))).setFld glbTickStatus 24 4 d
    let s3 := s2.inTick (fun t => { t with lostAt := none, lockPend := decide (q = 0) && !s.locked })
    if q = 0 then s3.markUpstream was none else (s3.setFld glbTickStatus 16 8 (q - 1)).markUpstream was (some (q - 1))

/-- A SYNC on every fabric link in L0 or L0-quiet (R250): FTICK, OFFSET, MASTER, DIST, LOCKED, IS_MASTER. A module without a master
sends DIST 15, which no receiver follows (R251). -/
def State.sendSyncs (s : State) : State :=
  s.each ((s.lnk.links.map (·.1)).filter s.linkL0) (fun p t =>
    let (o, t1) := t.draw
    t1.ctl p 3 [s.tick.fab.toNat, o % 65536, s.fld glbTickMaster 0 18, if s.hasMaster then s.fld glbTickStatus 24 4 else 15, b2n s.locked, b2n s.ownMaster])

/-! ### The step (R24) -/

/-- No hamper is open: none of this module's, and no part but those in doubt. -/
def State.noOpenHamper (s : State) : Bool := s.hmp.origs.isEmpty && s.hmp.parts.all (fun p => p.doubt.isSome)

/-- Whole ticks to the closing edge and the extra sixteenths, for a master edge at `x` after the edge that opens the
adjustment tick: the first edge of the master that lies at least one tick after it. -/
def stepTicks (x : Int) : Int := -((x - tick16) / tick16)
def stepExtra (x : Int) : Int := x + stepTicks x * tick16 - tick16

/-- ADJUSTMENT_TICK_START: in a tick that began with STEP_PENDING set and no hamper open; the step is abandoned when no other master
is there (R24). -/
def execAdjustmentTickStart (s : State) : Res :=
  if !s.stepPending || s.tick.adj.isSome || !s.tick.adjDue || s.tick.guardDone then .next s
  else
    let gone := s.setBit glbTickStatus 30 false
    match s.upstream with
    | none => .next (if s.ownMaster then (gone.inTick (fun t => { t with lockPend := false })).gainLock else gone)
    | some p =>
      match (tget [] s.tick.syncs p).head? with
      | none => .next gone
      | some (m, a) =>
        let x := s.masterEdge p m - (ticksSince a s.tick.loc : Int) * tick16
        .next (s.inTick (fun t => { t with adj := some ((stepExtra x / 16).toNat, m.ftick + BitVec.ofInt 48 (stepTicks x)) }))

/-- The edge that ends the adjustment tick (R24). -/
def State.stepEnd (s : State) (d : Nat) (new : Tick) : State :=
  let old := s.tick.fab + 1
  let s1 := s.inTick (fun t => { t with loc := t.loc + 1, fab := new, locWas := t.loc, fabWas := t.fab, adj := none, lockPend := false })
  let s2 := ((s1.setBit glbTickStatus 30 false).setN glbTickLastStep d).cnt glbTickStepCnt
  ((s2.setBit glbTickStatus 31 true).raise 0x0122 [.q old.toNat, .q new.toNat, .w d]).raise 0x0120 []

/-! ### The edge (R28) -/

/-- Count events that have no unit, whatever UNIT selects. -/
def State.pmcCycles (s : State) (global : Bool) (lo hi ev n : Nat) : State :=
  s.each (s.regs.filter (fun e => decide (lo ≤ e.1) && decide (e.1 < hi) && decide (e.1 % 0x20 = 0) && pmcCounts e.2 ev (bits e.2 24 6)))
    (fun e t => if s.pmcPass global e.1 e.2 {} then t.cnt64 (e.1 + 0x10) n else t)

/-- The quantities that are counted in every cycle, of the tick that ends (R376): its own cycles, and those that the
command brings (global, event, unit, class, quantity): beside R376's, event 0x10 brings the cycles in which a home bank had no free
tracker (R80). -/
def State.pmcTick (s : State) (cyc : List (Bool × Nat × Nat × ClassIx × Nat)) : State :=
  let n := 3072 + (match s.tick.adj with | some (d, _) => d | none => 0)
  let s1 := s.pmcCycles true 0x701000 0x702000 0x0F n
  let s2 := s1.each (List.range 12) (fun t x => if x.present 1 t then x.pmcCycles false (tlPmcCfg t 0) (tlPmcCfg t 0 + 0x800) 0x0B (n * 2 / 3) else x)
  let s3 := s2.each (cyc.filter (fun e => e.1 && decide (e.2.1 = 0x10) && decide (e.2.2.1 < 16))) (fun e t => t.cnt64 (sfBankTrkStallCnt e.2.2.1) (min n e.2.2.2.2))
  s3.each (cyc.filter (fun e => if e.1 then decide (e.2.1 = 0x07) || decide (e.2.1 = 0x0C) else decide (e.2.1 = 0x09) || decide (e.2.1 = 0x0A)))
    (fun e t => if e.1 then t.pmc e.2.1 e.2.2.1 e.2.2.2.2 { cls := some e.2.2.2.1.val } else t.tpmc e.2.2.1 e.2.1 e.2.2.2.2 { cls := some e.2.2.2.1.val })

/-- The counts at an edge: an ordinary one, or the one that ends the adjustment tick (R19, R20, R24); a module that became
its own master at the edge before sets LOCKED (R22). -/
def State.countEdge (s : State) : State :=
  match s.tick.adj with
  | some (d, new) => s.stepEnd d new
  | none =>
    let s1 := s.inTick (fun t => { t with loc := t.loc + 1, fab := t.fab + 1, locWas := t.loc, fabWas := t.fab })
    if s.tick.lockPend && s.ownMaster && !s.stepPending then (s1.inTick (fun t => { t with lockPend := false })).gainLock else s1

/-- A snapshot when GLB_TICK_LOCAL is a multiple of the dump interval (R379). -/
def State.snapshotEdge (s : State) : State :=
  if s.dumpInterval ≠ 0 ∧ s.tick.loc.toNat % s.dumpInterval = 0 then s.snapshot else s

/-- Checkers of lanes in test that are in SYNC (R288). -/
def State.laneTests (s : State) (tests : List (PortIx × LaneIx × Nat × Nat)) : State :=
  s.each tests (fun e t => if t.lnState e.1 e.2.1 = 9 then t.checked e.1 e.2.1 e.2.2.1 e.2.2.2 else t)

/-- The guard point of a tick (R28, R30). -/
def State.guard (s : State) : State := if s.tick.guardDone then s else s.hmpGuard.inTick (fun t => { t with guardDone := true })

/-- The end of a tick: a guard point that has not been named is passed, and cycle 3,071 finds the late seals (R28, R120). -/
def State.tickEnd (s : State) : State := s.guard.hmpLate

/-- Cycle 0 of a tick (R28). -/
def State.edge (s : State) (tests : List (PortIx × LaneIx × Nat × Nat)) (cyc : List (Bool × Nat × Nat × ClassIx × Nat)) : State :=
  let s1 := (((s.tickEnd.pmcTick cyc).laneTests tests).idleEdge).countEdge
  let s2 := (s1.inTick (fun t => { t with guardDone := false })).hmpEdge
  let s3 := (((s2.hbmEdge.refillFlows).refillInsts).latchShares).rewriteEntries
  let s4 := s3.each (List.range 4) (fun c t => t.schedCluster c)
  let s5 := s4.snapshotEdge.pmcEdge
  let s6 := s5.elect.sendSyncs
  let s7 := s6.each ((s6.lnk.links.filter (fun e => decide (0 < e.2.unrep))).map (·.1)) (fun p t => if t.linkL0 p then t.sendCredit p else t)
  (s7.rateEdge).inTick (fun t => { t with adjDue := s7.stepPending && s7.noOpenHamper })

/-- The core die is powered and out of reset (R299): the ticks are counted only then (R31). -/
def State.coreRuns (s : State) : Bool := decide (s.kState = kOn) || decide (s.kState = kStopping)

/-- TICK_EDGE (R28): tests are the results of lane checkers, cyc the per-cycle quantities of the tick that ends. -/
def execTickEdge (tests : List (PortIx × LaneIx × Nat × Nat)) (cyc : List (Bool × Nat × Nat × ClassIx × Nat)) (s : State) : Res :=
  .next (if s.coreRuns then s.edge tests cyc else s)

/-- TICK_STEPPED: the closing edge of the adjustment tick, which is that tick's TICK_EDGE (R24). -/
def execTickStepped (tests : List (PortIx × LaneIx × Nat × Nat)) (cyc : List (Bool × Nat × Nat × ClassIx × Nat)) (s : State) : Res :=
  if s.tick.adj.isSome ∧ s.coreRuns = true then .next (s.edge tests cyc) else .next s

/-- GUARD_POINT (R28, R30). -/
def execGuardPoint (s : State) : Res :=
  .next s.guard

end Sys2Proof.Machine
end

