-- ==== Sys2Proof/Machine/Views.lean ====
section
/-! DEFINITION. What a register of the window reads as (R421 step 7, without the clearing of RC bits): stored words, and
the words that show other state of the block. -/

namespace Sys2Proof.Machine

/-- Half k of a 64-bit number. -/
def half32 (v k : Nat) : Nat := v / 2 ^ (32 * k) % 2 ^ 32

/-- Global block (R425-R428, R341, R408). -/
def State.viewGlb (s : State) (o : Nat) : Nat :=
  if o = 0x14 then s.mgmt.bootCount.toNat
  else if 0x400 ≤ o ∧ o < 0x500 then (s.presentWord (o - 0x400)).toNat
  else if o = 0x1000 ∨ o = 0x1004 then half32 s.tick.loc.toNat ((o - 0x1000) / 4)
  else if o = 0x1008 ∨ o = 0x100C then half32 s.tick.fab.toNat ((o - 0x1008) / 4)
  else if 0x4000 ≤ o ∧ o < 0x4400 then (s.lockAt ((o - 0x4000) / 16)).word (o % 16 / 4)
  else if o = 0x5000 then s.ev.seq.toNat
  else if o = 0x500C then s.ev.fifo.length
  else if o = 0x5014 then s.ev.logHead.toNat
  else if o = 0x6014 then tget 0 s.clk.merge (s.fld glbXingIdx 0 10)
  else if o = 0x6018 then tget 0 s.clk.tmo (s.fld glbXingIdx 0 10)
  else s.nreg o

/-- A word of MGT_STEP[k] (R341). -/
def StepSlot.word (x : StepSlot) : Nat → Nat
  | 0 => x.state * 2 ^ 30 + x.status % 256 * 2 ^ 16
  | 1 => x.opcode
  | 2 => x.done
  | _ => x.total

/-- Management block (R371, R341); the code RAM holds what the boot loaded and what has been written since. -/
def State.viewMgt (s : State) (o : Nat) : Nat :=
  if o = 0x100010 then s.mgmt.svnMin
  else if o = 0x100014 then s.fuseWord
  else if o = 0x10002C then s.jrnlFree
  else if o = 0x100030 then s.mgmt.jseq.toNat
  else if o = 0x108004 then
    s.nalug.subs.length * 2 ^ 24 + ((List.range 32).filter (fun k => decide ((s.slot k).state ≠ 0))).length * 2 ^ 16 + s.outstanding (fun _ => true)
  else if 0x180000 ≤ o then
    (match tfind s.mgmt.code ((o - 0x180000) / 4) with
     | some w => w.toNat
     | none => (Config.codeRam s.runningCopy.bytes ((o - 0x180000) / 4)).toNat)
  else if 0x108100 ≤ o ∧ o < 0x108300 then (s.slot ((o - 0x108100) / 16)).word (o % 16 / 4)
  else s.nreg o

/-- Word k of a slice-table entry (R46). -/
def Slice.word (x : Slice) : Nat → Nat
  | 0 => x.state * 2 ^ 13 + b2n x.lsEn * 2 ^ 12 + x.dom + x.gen.toNat * 2 ^ 16
  | 1 => x.dev
  | 2 => x.dpa
  | 3 => x.maps * 2 ^ 16
  | 4 => x.newDev
  | 5 => x.newDpa
  | 6 => x.mark
  | _ => 0

/-- An agent slot as SF_DOM_AGENT shows it (R51). -/
def AgentSlot.word (a : AgentSlot) : Nat := 2 ^ 31 + b2n a.caching * 2 ^ 30 + a.rights * 2 ^ 28 + a.fid

/-- A host map entry (R56). -/
def HEnt.word (e : HEnt) : Nat :=
  2 ^ 63 + e.rights * 2 ^ 61 + b2n e.remote.isSome * 2 ^ 60 + e.remote.getD 0 * 2 ^ 42 + e.slice

/-- Word k of SF_VCS_* (R69). -/
def Vcs.word (x : Vcs) : Nat → Nat
  | 0 => 2 ^ 31 + x.usp
  | 1 => x.host
  | 2 => x.base
  | 3 => x.len
  | 4 => half32 x.hdm 0
  | 5 => half32 x.hdm 1
  | 6 => x.ig * 16 + x.iw
  | _ => 0

/-- Coherence home and binding block (R69, R101). Of a bank that serves several buckets SF_BANK_STATUS.SF_BANK shows the snoop-filter
bank of the lowest: DESIGN CHOICE (log 251). -/
def State.viewSf (s : State) (o : Nat) : Nat :=
  if o = 0x200024 then (s.home.ents.filter (fun e => !e.2.onDie)).length
  else if 0x200400 ≤ o ∧ o < 0x200600 then
    let i := (o - 0x200400) / 4
    (List.range 32).foldl (fun a j => a + b2n (s.coh (32 * i + j)).blanket * 2 ^ j) 0
  else if o = 0x200604 then
    let d := s.fld sfDomCohIdx 0 12
    let x := s.coh d
    b2n x.blanket * 2 ^ 31 + b2n x.exitOn * 2 ^ 30 + x.cause * 2 ^ 28 + (s.untracked d).length
  else if o = 0x200608 then (s.coh (s.fld sfDomCohIdx 0 12)).last
  else if o = 0x20060C then (match (s.coh (s.fld sfDomCohIdx 0 12)).deads.head? with | some f => 2 ^ 31 + f | none => 0)
  else if 0x210000 ≤ o ∧ o < 0x211000 then
    let h := (o - 0x210000) / 256
    let q := o % 256
    if q = 0 then
      let b := ((List.range 16).find? (fun b => decide (s.bankOf b = h))).getD h
      b2n (s.present 4 h) * 2 ^ 31 + s.sfOf b * 2 ^ 24 + s.trkFree h
    else if q = 4 then (s.home.ents.filter (fun e => e.2.hold && decide (s.laBank e.1 = h))).length
    else if q = 0x40 then (s.home.lines.filter (fun e => e.2.dirty && decide (s.laBank e.1 = h))).length
    else s.nreg o
  else if 0x2C0020 ≤ o ∧ o < 0x2C0040 then (s.slice (s.fld sfSliceIdx 0 18)).word ((o - 0x2C0020) / 4)
  else if 0x2C0040 ≤ o ∧ o < 0x2C0058 then
    let k := (o - 0x2C0040) / 4
    if k = 0 then 262144 - (s.bind.slices.filter (fun e => decide (e.2.state ≠ 0))).length
    else (s.bind.slices.filter (fun e => decide (e.2.state = k))).length
  else if o = 0x2C0084 then
    let d := s.fld sfDomIdx 0 12
    (s.dom d).state * 2 ^ 29 + (s.dom d).agents.length * 2 ^ 22 + (s.domSlices d).length
  else if 0x2C0100 ≤ o ∧ o < 0x2C0200 then
    (match tfind (s.dom (s.fld sfDomIdx 0 12)).agents ((o - 0x2C0100) / 4) with | some a => a.word | none => 0)
  else if o = 0x2C0208 ∨ o = 0x2C020C then
    (match tfind s.bind.hmap (s.fld sfHmapIdx 0 19) with | some e => half32 e.word ((o - 0x2C0208) / 4) | none => 0)
  else if 0x2D0000 ≤ o ∧ o < 0x2D1800 then
    (match tfind s.bind.vcs ((o - 0x2D0000) / 64) with | some x => x.word (o % 64 / 4) | none => 0)
  else s.nreg o

/-- Bytes of a present stack from its area base to the commit-log ring: directory, line store and spill (R143). -/
def logOffset : Nat := 34 * 2 ^ 30

/-- Hamper block (R134). -/
def State.viewHmp (s : State) (o : Nat) : Nat :=
  if o = 0x300010 then
    s.nreg o / 2 ^ 30 * 2 ^ 30 + (s.hmp.parts.filter (fun p => p.doubt.isSome)).length * 2 ^ 15 + s.slotFree
  else if o = 0x300018 then s.hmp.origs.length * 2 ^ 16 + s.homeSlots
  else if o = 0x300020 ∨ o = 0x300024 then
    half32 (if s.logOn then (Config.hbmAreaBase (s.fld hbmStatus 12 2)).toNat + logOffset else 0) ((o - 0x300020) / 4)
  else if o = 0x300028 then logRing
  else s.nreg o

/-- Engine block (R204, R220). -/
def State.viewEng (s : State) (o : Nat) : Nat :=
  if o = 0x400004 then
    (List.range 4).foldl (fun a c => a + b2n (s.present 7 c) * 2 ^ (28 + c)) 0 + ((List.range 64).filter (s.present 6)).length
  else if o = 0x400008 then (s.presentWord 0).toNat
  else if o = 0x40000C then (s.presentWord 4).toNat
  else if o = 0x400010 then
    let p := s.clusters.length
    let pf := s.eng.insts.foldl (fun a x => a + x.2.pfHeld) 0
    let cpl := s.eng.insts.foldl (fun a x => a + x.2.cplHeld) 0
    (4096 * p - cpl) * 2 ^ 17 + (16384 * p - pf)
  else s.nreg o

/-- Free slots of a station's receive buffer; a home-bank station also shows its free copy slots (R138, R154). -/
def State.stationFree (s : State) (d : Nat) : Nat :=
  256 - (tget [] s.hbm.recv d).foldl (fun a m => a + mtrSlots m.m.bytes) 0 + (if 24 ≤ d ∧ d < 40 then (4096 - s.copiesWaiting (d - 24)) * 2 ^ 16 else 0)

/-- HBM block (R154). -/
def State.viewHbm (s : State) (o : Nat) : Nat :=
  if o = 0x500004 then s.hbmMirror.nreg o
  else if o = 0x500030 then 524288 * s.presentStacks.length - (s.spillPages none).length
  else if 0x500040 ≤ o ∧ o < 0x500060 then
    half32 (if s.present 8 ((o - 0x500040) / 8) then (Config.hbmAreaBase ((o - 0x500040) / 8)).toNat else 0) (o % 8 / 4)
  else if o = 0x500084 then
    let x := s.slice (s.fld hbmSliceStackIdx 0 18)
    b2n x.dirtySeen * 4 + x.stack
  else if 0x520000 ≤ o ∧ o < 0x520D40 ∧ o % 64 = 0x18 then s.stationFree ((o - 0x520000) / 64)
  else s.nreg o

/-- Shaping block (R175). -/
def State.viewQos (s : State) (o : Nat) : Nat :=
  let g := s.fld qosTgtIdx 0 12
  if o = 0x600004 then 65536 - s.qos.rsv.length
  else if o = 0x600014 then s.tgtNominal g
  else if o = 0x600018 then s.tgtDeliver g
  else if o = 0x60001C then s.tgtSum g
  else if o = 0x600020 then s.tgtScale g
  else if 0x600034 ≤ o ∧ o < 0x600040 then
    match tfind s.qos.rsv (s.fld qosRsvIdx 0 16) with
    | none => 0
    | some r => if o = 0x600034 then 2 ^ 31 + r.fc * 2 ^ 28 + r.src else if o = 0x600038 then r.tgt * 2 ^ 16 else r.rate
  else s.nreg o

/-- Telemetry block (R388). -/
def State.viewTel (s : State) (o : Nat) : Nat :=
  if 0x700300 ≤ o ∧ o < 0x700340 ∧ o % 8 = 4 then (Config.roRef ((o - 0x700300) / 8)).toNat
  else if o = 0x705004 then bits (putBits (s.reg o) 29 1 (b2n s.idle)) 0 32
  else s.nreg o

/-- Word k of the flow record at an index of a tile (R175). -/
def State.flowWord (s : State) (t n k : Nat) : Nat :=
  match (s.qos.flows.filter (fun e => decide (e.1 / 2 ^ 21 = t)))[n]? with
  | none => 0
  | some (key, f) =>
    match k with
    | 0 => 2 ^ 31 + key / 2 ^ 18 % 8 * 2 ^ 28 + key % 2 ^ 18
    | 1 => f.cir
    | 2 => f.pir
    | 3 => f.cbs
    | 4 => f.pbs
    | 5 => if s.wheel t then f.next % 65536 * 65536 + f.next / 65536 % 65536 else f.cbs - f.dc
    | 6 => if s.wheel t then 0 else f.pbs - f.dp
    | _ => f.held.length * 2 ^ 16 + f.drops

/-- Tile block (R154, R175). -/
def State.viewTile (s : State) (t r o : Nat) : Nat :=
  if r = 0x40010 then
    let used := fun base => (List.range 128).foldl (fun a k => a + s.occ (base + 128 * t + k)) 0
    (49152 - used 1536) * 2 ^ 16 + (49152 - used 0)
  else if r = 0x40018 then (s.spillPages (some t)).length
  else if 0x50020 ≤ r ∧ r < 0x50040 then s.flowWord t (s.fld (tlFlowIdx t) 0 18) ((r - 0x50020) / 4)
  else s.nreg o

/-- What the word at an offset reads as. -/
def State.view (s : State) (o : Nat) : Nat :=
  if 0x4000000 ≤ o then 0
  else match locate o with
  | none => 0
  | some (.tile, t, r) => s.viewTile t r o
  | some (.page, i, q) => s.pageRead i q
  | some (.port, p, q) => if q = 0x1098 ∨ q = 0x109C then half32 (s.link p).stuffs ((q - 0x1098) / 4) else s.nreg o
  | some (.lane, x, q) => if q = 0x10 ∨ q = 0x14 then half32 (s.dfe (x / 5) (x % 5)).toNat ((q - 0x10) / 4) else s.nreg o
  | some (.glob, _, _) =>
    match o / 0x100000 with
    | 0 => s.viewGlb o
    | 1 => s.viewMgt o
    | 2 => s.viewSf o
    | 3 => s.viewHmp o
    | 4 => s.viewEng o
    | 5 => s.viewHbm o
    | 6 => s.viewQos o
    | 7 => s.viewTel o
    | _ => s.nreg o

end Sys2Proof.Machine
end

