-- ==== Sys2Proof/Machine/Access.lean ====
section
/-! DEFINITION. Register accesses: the checks of R421 in their order, the access types of R10 and R422, the fields whose
write is a command of its own, and the two Nalug commands that access registers (R423). -/

namespace Sys2Proof.Machine

/-! ### The access check unit (R365-R368) -/

/-- The slot of an offset (R365, R419). -/
def slotOf (o : Nat) : Nat :=
  if o < 0x900000 then o / 0x100000
  else if 0x1000000 ≤ o ∧ o < 0x1400000 then 9
  else if 0x2000000 ≤ o ∧ o < 0x2C00000 then 10 + (o - 0x2000000) / 0x100000
  else 22

/-- The slot of set `set` of master m grants the level a read or a write (R365). -/
def State.slotGrants (s : State) (m set lvl o : Nat) (write : Bool) : Bool :=
  s.bit (mgtAcuCtl m + 0x10 + 0x80 * set + 4 * slotOf o) (3 * (2 - lvl) + b2n write)

/-- The debug port is LOCKED (R357). -/
def State.debugLocked (s : State) : Bool := decide (s.fld mgtStatus 22 2 = 1)

/-- The unit admits an access: the slot set that SEL names, and the debug port's own state (R364, R366). -/
def State.acuAdmits (s : State) (m lvl o : Nat) (write : Bool) : Bool :=
  !(decide (m = 6) && s.debugLocked) && s.slotGrants m (s.fld (mgtAcuCtl m) 31 1) lvl o write

/-- The evidence of a refusal (R368). -/
def State.acuDenied (s : State) (m lvl o : Nat) (write : Bool) : State :=
  let s1 := s.cnt (mgtAcuDenyCnt m)
  let s2 := if s.bit (mgtAcuLog0 m) 31 then s1
            else (s1.setN (mgtAcuLog0 m) (2 ^ 31 + Config.levelCode lvl % 4 * 2 ^ 28 + b2n write * 2 ^ 24 + slotOf o)).setN (mgtAcuLog1 m) o
  s2.raiseLim 0x0208 m [.w m, .w (Config.levelCode lvl % 4), .w o]

/-- Natural alignment and size (R367). -/
def aligned (o n : Nat) : Bool := ([1, 2, 4, 8, 16, 32, 64] : List Nat).contains n && decide (o % n = 0)

/-! ### Absent units, members, holes (R421 steps 4 to 6) -/

/-- The unit whose register lies at an offset, if it has one: kind and index. -/
def unitAt (o : Nat) : Option (Nat × Nat) :=
  match locate o with
  | some (.tile, t, _) => some (1, t)
  | some (.port, p, _) => some (2, p)
  | some (.lane, l, _) => some (3, l)
  | some (.glob, _, _) =>
    if 0x210000 ≤ o ∧ o < 0x211000 then some (4, (o - 0x210000) / 0x100)
    else if 0x410000 ≤ o ∧ o < 0x410800 then some (6, (o - 0x410000) / 0x20)
    else if 0x510000 ≤ o ∧ o < 0x510400 then some (8, (o - 0x510000) / 0x100)
    else if 0x810000 ≤ o ∧ o < 0x8102A0 then some (10, (o - 0x810000) / 0x20)
    else none
  | _ => none

/-- The register's unit is absent (R4). -/
def State.absentAt (s : State) (o : Nat) : Bool :=
  match unitAt o with
  | some (3, l) => !(s.present 3 l && s.present 2 (l / 5))
  | some (k, i) => !s.present k i
  | none => false

/-- A PT_ register, other than PT_MODE, of a port that does not name its merged link (R257). -/
def State.memberAt (s : State) (o : Nat) : Bool :=
  match locate o with
  | some (.port, p, q) => decide (q ≠ 0) && s.isMember p
  | _ => false

/-! ### Reads (R422, R377) -/

/-- The offset is the low word of a 64-bit counter or of a tick count. -/
def lowOf64 (o : Nat) : Bool :=
  decide (o = 0x1000) || decide (o = 0x1008) || decide (o = 0x800018) || decide (o = 0x800028) ||
  (match locate o, findRow o with
   | some (_, _, q), some r => r.c64 && decide (r.w = 2) && decide ((q - r.b) % r.st = 0)
   | _, _ => false)

/-- A word that shows a measured quantity of the power path (R311): its width, at the moment of the read. -/
def measured (o : Nat) : Option Nat :=
  if o = 0x800010 ∨ o = 0x800020 ∨ o = 0x800030 then some 16
  else if o = 0x800014 ∨ o = 0x800024 then some 17
  else if o = 0x800018 ∨ o = 0x80001C ∨ o = 0x800028 ∨ o = 0x80002C then some 32
  else none

/-- The DFE taps of a lane that adapts, as they stand (R283): a lane in ADAPT, CHECK or LOCKED, at 8 GT/s and above in CXL mode
(R286). -/
def State.dfeRuns (s : State) (o : Nat) : Bool :=
  match locate o with
  | some (.lane, x, q) =>
    (decide (q = 0x10) || decide (q = 0x14)) && ([4, 5, 6] : List Nat).contains (s.lnState (x / 5) (x % 5)) &&
    (decide (s.pmode (x / 5) = 3) || decide (2 ≤ s.fld (ptCxStatus (s.linkOf (x / 5))) 26 3))
  | _ => false

/-- The value of a word at a read. -/
def State.sense (s : State) (o : Nat) : Nat × State :=
  match measured o with
  | some k => let (v, t) := s.draw; (v % 2 ^ k, t)
  | none => if s.dfeRuns o then (let (v, t) := s.draw; (v % 2 ^ 32, t)) else (s.view o, s)

/-- RC bits read clear (R10). -/
def State.readClear (s : State) (o : Nat) : State :=
  match findRow o with
  | none => s
  | some r =>
    if r.rc = 0 then s
    else if o = glbXingMergeCnt then { s with clk := { s.clk with merge := tput 0 s.clk.merge (s.fld glbXingIdx 0 10) 0 } }
    else if o = glbXingToCnt then { s with clk := { s.clk with tmo := tput 0 s.clk.tmo (s.fld glbXingIdx 0 10) 0 } }
    else s.setReg o (s.reg o &&& ~~~ BitVec.ofNat 32 r.rc)

/-- Read one word: what the master gets, and the state after. `four`: a 4 B read of its own (R377). -/
def State.readWord (s : State) (m o : Nat) (four : Bool) : Nat × State :=
  if s.absentAt o then (0, s.raise 0x0101 [.w o])
  else if s.memberAt o then (0, s)
  else
    match (if four then s.tel.latch.find? (fun e => decide (e.1 = m) && decide (e.2.1 = o)) else none) with
    | some (_, _, w) =>
      (w.toNat, { s with tel := { s.tel with latch := s.tel.latch.filter (fun e => !(decide (e.1 = m) && decide (e.2.1 = o))) } })
    | none =>
      let (v, s1) := s.sense o
      let s2 := s1.readClear o
      if four && lowOf64 o then
        let (h, s3) := s2.sense (o + 4)
        let keep := s3.tel.latch.filter (fun e => !(decide (e.1 = m) && decide (e.2.1 = o + 4)))
        (v, { s3 with tel := { s3.tel with latch := keep ++ [(m, o + 4, BitVec.ofNat 32 h)] } })
      else (v, s2)

/-- Read n words from a word offset; `four` is given per word. -/
def State.readWords (s : State) (m o : Nat) (four : Nat → Bool) : Nat → List Nat × State
  | 0 => ([], s)
  | n + 1 =>
    let (l, s1) := s.readWords m o four n
    let (v, s2) := s1.readWord m (o + 4 * n) (four (o + 4 * n))
    (l ++ [v], s2)

/-- The instance-page form of R209: 4 B or 8 B. -/
def pageForm (o n : Nat) : Bool := !(decide (slotOf o = 9)) || decide (n = 4) || decide (n = 8)

/-- A misaligned access (R367). -/
def State.misaligned (s : State) (m o : Nat) : State := (s.cnt mgtAcuViolCnt).raiseLim 0x0209 0 [.w m, .w o]

/-- A read of n bytes by a master (R421). -/
def State.regRead (s : State) (m lvl o n : Nat) : State :=
  if !aligned o n then (s.misaligned m o).emit (.busErr m o)
  else if !s.acuAdmits m lvl o false then (s.acuDenied m lvl o false).emit (.busErr m o)
  else if !pageForm o n then s.emit (.readDone m o (List.replicate n 0))
  else if 0x800110 ≤ o ∧ o < 0x800130 ∧ n ≤ 4 then
    (match execPwrBrDataRead (Fin.ofNat 8 m) (Fin.ofNat 8 ((o - 0x800110) / 4)) s with | .next t => t | _ => s)
  else
    let w0 := o / 4 * 4
    let (l, s1) := s.readWords m w0 (fun _ => decide (n = 4)) ((o + n - w0 + 3) / 4)
    s1.emit (.readDone m o (((l.flatMap (toLe 4)).drop (o - w0)).take n))

/-! ### Writes (R10, R422) -/

/-- The bits of the addressed bytes: byte enables as 4 bits. -/
def byteMask (be : Nat) : Nat := (List.range 4).foldl (fun a k => a + b2n (nbit be k) * 255 * 2 ^ (8 * k)) 0

/-- RWL fields take writes before DEPLOYED (R10). -/
def State.rwlOpen (s : State) : Bool := decide (s.fld mgtStatus 25 3 < 2)

/-- Apply the access types of a register to a write of the bits `bm` (R10). -/
def RegRow.written (r : RegRow) (old v bm : Word) (rwl : Bool) : Word :=
  let m := BitVec.ofNat 32 (r.rw ||| r.rws ||| (if rwl then r.rwl else 0)) &&& bm
  let c := v &&& BitVec.ofNat 32 r.w1c &&& bm
  let t := v &&& BitVec.ofNat 32 r.w1s &&& bm
  ((old &&& ~~~ m ||| v &&& m) &&& ~~~ c) ||| t

/-- A write by access types alone. -/
def State.plainWrite (s : State) (o : Nat) (v bm : Word) : State :=
  match findRow o with
  | none => s
  | some r =>
    let s1 := s.setReg o (r.written (s.reg o) v bm s.rwlOpen)
    if BitVec.ofNat 32 r.rwl &&& bm = 0 ∨ s.rwlOpen then s1 else s1.raiseLim 0x020B 0 [.w o]

/-- The state of a next outcome. -/
def nextOr (s : State) (r : Res) : State := match r with | .next t => t | _ => s

/-- The word a write presents to a field that acts: unaddressed RW bits as they stand, unaddressed action bits as 0. -/
def State.presented (s : State) (o : Nat) (v bm : Word) : Word :=
  let act := match findRow o with | some r => BitVec.ofNat 32 (r.w1c ||| r.w1s ||| r.wo) | none => 0
  (v &&& bm) ||| (s.reg o &&& ~~~ bm &&& ~~~ act)

/-- MGT_ACU_* of a master (R366). -/
def State.acuWrite (s : State) (m lvl o : Nat) (v bm : Word) : State :=
  let t := (o - 0x101000) / 0x100
  let q := o % 0x100
  if q = 0 then
    let bm1 := if m = t ∨ lvl = 0 then bm else bm &&& 0x7FFFFFFF#32
    s.plainWrite o v bm1
  else if 0x10 ≤ q then (if lvl = 0 ∧ !s.bit (mgtAcuCtl t) 30 then s.plainWrite o v bm else s)
  else s.plainWrite o v bm

/-- A write in the global part, of registers whose write acts. -/
def State.globWrite (s : State) (m lvl o : Nat) (v bm : Word) : State :=
  let w := s.presented o v bm
  if 0x101000 ≤ o ∧ o < 0x101800 then s.acuWrite m lvl o v bm
  else if 0x180000 ≤ o ∧ o < 0x200000 then
    let k := (o - 0x180000) / 4
    { s with mgmt := { s.mgmt with code := tins s.mgmt.code k (v &&& bm ||| BitVec.ofNat 32 (s.viewMgt o) &&& ~~~ bm) } }
  else if o = hmpTiming0 then nextOr s (execHmpTimingWrite false w s)
  else if o = hmpTiming1 then nextOr s (execHmpTimingWrite true w s)
  else if 0x701000 ≤ o ∧ o < 0x702000 then
    let c : Fin 128 := Fin.ofNat 128 ((o - 0x701000) / 0x20)
    let q := o % 0x20
    if q < 12 then nextOr s (execPmcConfigWrite none c (Fin.ofNat 3 (q / 4)) w s) else s.plainWrite o v bm
  else if o = telAuditCtl then s.auditWrite w
  else if o = pwrCtl then
    if bits bm 24 8 = 0 then s
    else
      let s1 := (s.feedEnable 0 (w.getLsbD 30)).feedEnable 1 (w.getLsbD 29)
      if w.getLsbD 31 then s1.orderlyOff else s1
  else if o = pwrBrCmd then nextOr s (execPwrBrCmdWrite (Fin.ofNat 8 m) (decide (lvl = 0)) w s)
  else s.plainWrite o v bm

/-- A default flow's parameters change: what the buckets hold stays (R160). -/
def State.defWrite (s : State) (t fc o : Nat) (v bm : Word) : State :=
  let f := s.defFlow t fc
  let s1 := s.plainWrite o v bm
  let g := s1.defFlow t fc
  s1.setDef t fc { f with dc := g.cbs - min g.cbs (f.cbs - f.dc), dp := g.pbs - min g.pbs (f.pbs - f.dp) }

/-- A write in a tile's common part. -/
def State.tileWrite (s : State) (t r o : Nat) (v bm : Word) : State :=
  let w := s.presented o v bm
  let tt : TileIx := Fin.ofNat 12 t
  if r = 0x50000 then nextOr s (execTlQosCtlWrite tt w s)
  else if 0x50100 ≤ r ∧ r < 0x50180 ∧ (r - 0x50100) / 0x10 ≠ 5 then s.defWrite t ((r - 0x50100) / 0x10) o v bm
  else if 0x60000 ≤ r ∧ r < 0x60800 then
    let c : Fin 128 := Fin.ofNat 128 ((r - 0x60000) / 0x20)
    let q := r % 0x20
    if q < 12 then nextOr s (execPmcConfigWrite (some tt) c (Fin.ofNat 3 (q / 4)) w s) else s.plainWrite o v bm
  else if 0x11000 ≤ r ∧ r < 0x12000 ∧ r % 16 < 8 then
    let key := t * 256 + (r - 0x11000) / 16
    let hit := (List.range 4).foldl (fun a k => a + b2n (bits bm (8 * k) 1 = 1) * 2 ^ k) 0 * 2 ^ (r % 16)
    let old := tget 0 s.bind.demoted key
    (s.plainWrite o v bm).inBind (fun b => { b with demoted := tput 0 b.demoted key (old - (old &&& hit)) })
  else s.plainWrite o v bm

/-- PT_FL_CTL: EN and RATE act in fabric mode (R233, R239, R424). -/
def State.flCtlWrite (s : State) (p : Nat) (v bm : Word) : State :=
  let o := ptFlCtl p
  let w := s.presented o v bm
  if bits bm 24 8 = 0 then s
  else if s.pmode p ≠ 3 then s.plainWrite o v bm
  else
    let en := s.bit o 31
    let s1 := s.plainWrite o v (bm &&& 0x1FFFFFFF#32)
    let s2 := s1.flRateWrite p (bits w 29 2)
    if w.getLsbD 31 = en then s2 else s2.flEnWrite p (w.getLsbD 31)

/-- PT_CX_CTL: MGMT_FN, EN, RETRAIN and DPC_RELEASE act in CXL mode (R263, R264, R268, R424, R435). -/
def State.cxCtlWrite (s : State) (p : PortIx) (v bm : Word) : State :=
  let o := ptCxCtl p
  let w := s.presented o v bm
  if !s.isCxl p then s.plainWrite o v bm
  else
    let en := s.bit o 31
    let s1 := s.plainWrite o v (bm &&& 0x3FFFFFFF#32)
    let s2 := if bits bm 24 8 = 0 then s1 else nextOr s1 (execPtCxCtlMgmtFnWrite p (w.getLsbD 30) s1)
    let s3 := if w.getLsbD 31 = en then s2 else s2.cxEnWrite p (w.getLsbD 31)
    let s4 := if w.getLsbD 23 then nextOr s3 (execPtCxCtlRetrain p (w.getLsbD 22) s3) else s3
    if w.getLsbD 21 then s4.dpcRelease p else s4

/-- PT_CX_HP_CTL: the indicators belong to the host on a bound port; REMOVE_OK and CANCEL act (R271, R272). -/
def State.hpCtlWrite (s : State) (p : PortIx) (v bm : Word) : State :=
  let o := ptCxHpCtl p
  let w := s.presented o v bm
  let s1 := s.plainWrite o v (if (s.vppbOf p).isSome then bm &&& 0xFFFF#32 else bm)
  let s2 := if w.getLsbD 27 then nextOr s1 (execPtCxHpCtlRemoveOk p s1) else s1
  if w.getLsbD 26 then nextOr s2 (execPtCxHpCtlCancel p s2) else s2

/-- A write in a port's block. -/
def State.portWrite (s : State) (p q o : Nat) (v bm : Word) : State :=
  let w := s.presented o v bm
  let pp : PortIx := Fin.ofNat 192 p
  if 0x100 ≤ q ∧ q < 0x140 then nextOr s (execPtEdgeIdWrite pp (Fin.ofNat 16 ((q - 0x100) / 4)) w s)
  else if q = 0x1000 then s.flCtlWrite p v bm
  else if q = 0x2000 then s.cxCtlWrite pp v bm
  else if q = 0x2008 then s.hpCtlWrite pp v bm
  else s.plainWrite o v bm

/-- LN_CTL: EN = 0 turns the lane off (R279). -/
def State.lnCtlWrite (s : State) (p l : Nat) (v bm : Word) : State :=
  let en := s.bit (lnCtl p l) 31
  let s1 := s.plainWrite (lnCtl p l) v bm
  if en && !s1.bit (lnCtl p l) 31 && decide (s.pmode p = 3) && decide (s.lnState p l ≠ 9) then (s1.laneOff p l).checkLanes p else s1

/-- LN_RX_EQ: FORCE holds the setting in use at FORCE_PEAK (R282). -/
def State.lnRxEqWrite (s : State) (p l : Nat) (v bm : Word) : State :=
  let s1 := s.plainWrite (lnRxEq p l) v bm
  if s1.bit (lnRxEq p l) 30 then s1.setFld (lnRxEq p l) 0 4 (s1.fld (lnRxEq p l) 24 4) else s1

/-- A write in a lane's block. -/
def State.laneWrite (s : State) (x q o : Nat) (v bm : Word) : State :=
  let w := s.presented o v bm
  let p := x / 5
  let l := x % 5
  if q = 0 then s.lnCtlWrite p l v bm
  else if q = 0x0C then s.lnRxEqWrite p l v bm
  else if q = 0x30 then s.lnTestWrite p l w
  else if q = 0x20 ∧ w.getLsbD 31 then nextOr s (execLnMarginCtlGo (Fin.ofNat 192 p) (Fin.ofNat 5 l) w s)
  else s.plainWrite o v bm

/-- Write the bytes `be` of one word (R421 steps 4 to 7). -/
def State.writeWord (s : State) (m lvl o be : Nat) (v : Word) : State :=
  let bm := BitVec.ofNat 32 (byteMask be)
  if s.absentAt o then s.raise 0x0101 [.w o]
  else if s.memberAt o then s
  else match locate o with
  | some (.tile, t, r) => s.tileWrite t r o v bm
  | some (.port, p, q) => s.portWrite p q o v bm
  | some (.lane, x, q) => s.laneWrite x q o v bm
  | some (.page, i, q) => s.pageWrite i (decide (lvl = 2)) q v []
  | some (.glob, _, _) => s.globWrite m lvl o v bm
  | none => s

/-- The byte enables of the word at w for an access of n bytes at o. -/
def byteEn (o n w : Nat) : Nat := (List.range 4).foldl (fun a k => a + b2n (decide (o ≤ w + k) && decide (w + k < o + n)) * 2 ^ k) 0

/-- The PT_EDGE_ID entries that a command makes valid: port, logical device, fabric ID. -/
def edgeWrites (off n : Nat) (b : List Byte) : List (Nat × Nat × Nat) :=
  (List.range n).filterMap (fun k => match locate (off + 4 * k) with
    | some (.port, p, q) =>
      let v := leAt b (4 * k) 4
      if 0x100 ≤ q ∧ q < 0x140 ∧ nbit v 31 then some (p, (q - 0x100) / 4, v % 2 ^ 18) else none
    | _ => none)

/-- A duplicate among the entries that a command makes valid, the module ID and the entries it does not overwrite (R38). -/
def State.edgeClash (s : State) (ws : List Nat) (es : List (Nat × Nat × Nat)) : Bool :=
  let rest := s.edges.filter (fun e => !ws.contains (ptEdgeId e.1 e.2.1))
  es.any (fun e => (s.bit glbModuleFid 31 && decide (s.fld glbModuleFid 0 18 = e.2.2)) || rest.any (fun x => decide (x.2.2 = e.2.2))) ||
  !decide ((es.map (·.2.2)).Nodup)

/-- A write of several PT_EDGE_ID entries by one access is checked whole; one that would duplicate is discarded (R38). -/
def State.edgeAccess (s : State) (o : Nat) (b : List Byte) : State :=
  let n := b.length / 4
  let es := edgeWrites o n b
  let ws := (List.range n).map (fun k => o + 4 * k)
  match (es.zip (List.range es.length)).find? (fun e => s.edgeClash ws [e.1] || (es.take e.2).any (fun x => decide (x.2.2 = e.1.2.2))) with
  | some ((p, ld, f), _) => s.raise 0x0142 [.w p, .w ld, .w f]
  | none => s.each (List.range n) (fun k t => match locate (o + 4 * k) with
    | some (.port, p, q) => t.edgePut p ((q - 0x100) / 4) (BitVec.ofNat 32 (leAt b (4 * k) 4))
    | _ => t)

/-- A write of bytes by a master (R421). An access to a PT_EDGE_ID table or to a mailbox buffer is one write (R38, R216). -/
def State.regWrite (s : State) (m lvl o : Nat) (b : List Byte) : State :=
  let n := b.length
  if !aligned o n then s.misaligned m o
  else if !s.acuAdmits m lvl o true then s.acuDenied m lvl o true
  else if !pageForm o n then s
  else
    let w0 := o / 4 * 4
    let full := List.replicate (o - w0) 0 ++ b
    let words := s.each (List.range ((o + n - w0 + 3) / 4)) (fun k t =>
      t.writeWord m lvl (w0 + 4 * k) (byteEn o n (w0 + 4 * k)) (BitVec.ofNat 32 (leAt full (4 * k) 4)))
    let wide := decide (4 < n) && !s.absentAt o && !s.memberAt o
    match locate o with
    | some (.port, _, q) => if wide = true ∧ 0x100 ≤ q ∧ q < 0x140 then s.edgeAccess o b else words
    | some (.page, i, q) =>
      if wide = true ∧ 0x100 ≤ q ∧ q < 0x300 then
        nextOr s (execMailboxBufferWrite (Fin.ofNat 1024 i) (decide (lvl = 2)) (decide (0x200 ≤ q)) (Fin.ofNat 256 q) b s)
      else words
    | _ => words

/-! ### The commands -/

/-- MGT_ACU_CTL_SEL_WRITE: a write of SEL of master t's unit by master m (R366). -/
def execMgtAcuCtlSelWrite (t m : Fin 8) (lvl : Fin 3) (sel : Bool) (s : State) : Res :=
  .next (s.regWrite m lvl (mgtAcuCtl t + 3) (toLe 1 (b2n sel * 128)))

/-- MGT_ACU_CTL_LOCK_WRITE: LOCK = 1 (R366); SEL is presented as it stands. -/
def execMgtAcuCtlLockWrite (t m : Fin 8) (lvl : Fin 3) (s : State) : Res :=
  .next (s.regWrite m lvl (mgtAcuCtl t + 3) (toLe 1 (b2n (s.bit (mgtAcuCtl t) 31) * 128 + 64)))

/-- REGISTER_WRITE (R421). -/
def execRegisterWrite (m : Fin 8) (lvl : Fin 3) (off : Word) (b : List Byte) (s : State) : Res :=
  .next (s.regWrite m lvl off.toNat b)

/-- RC_REGISTER_READ: a read of n bytes; RC bits clear (R422). -/
def execRcRegisterRead (m : Fin 8) (lvl : Fin 3) (off : Word) (n : Nat) (s : State) : Res :=
  .next (s.regRead m lvl off.toNat n)

/-- COUNTER_LOW_WORD_READ: a 4 B read of a low word latches the high word for the master (R377). -/
def execCounterLowWordRead (m : Fin 8) (lvl : Fin 3) (off : Word) (s : State) : Res :=
  .next (s.regRead m lvl off.toNat 4)

/-! ### OP_REG_READ and OP_REG_WRITE (R318, R368, R423) -/

/-- The word offsets of a command. -/
def opWords (off n : Nat) : List Nat := (List.range n).map (fun k => off + 4 * k)

/-- The first word that slot set 1 of the active core refuses to fabric-manager privilege (R318, R364, R366). -/
def State.opRefused (s : State) (ws : List Nat) (write : Bool) : Option Nat :=
  ws.find? (fun o => !s.slotGrants s.activeCore 1 1 o write)

/-- A refused word of a command. -/
def State.opDenied (s : State) (o : Nat) (write : Bool) : State × Option (Nat × List Byte) :=
  refuse ((s.acuDenied s.activeCore 1 o write).cnt mgtNalugDeniedCnt) stDenied

/-- The words of a command that stand alone: not one half of a 64-bit counter that lies whole in the command. -/
def aloneIn (ws : List Nat) (o : Nat) : Bool :=
  !(lowOf64 o && ws.contains (o + 4)) && !(decide (4 ≤ o) && lowOf64 (o - 4) && ws.contains (o - 4))

/-- OP_REG_READ. -/
def execOpRegRead (q : Req) (body : List Byte) (s : State) : Res :=
  let off := leAt body 0 4
  let n := byteAt body 4
  let ws := opWords off n
  .next (s.nalug_run 0x0102 q body
    { lenOk := decide (body.length = 8)
      badParam := decide (off % 4 ≠ 0) || decide (n = 0) || decide (64 < n) || decide (0x4000000 < off + 4 * n) || decide (leAt body 5 3 ≠ 0) }
    (fun t => match t.opRefused ws false with
      | some o => t.opDenied o false
      | none =>
        let (l, u) := t.readWords t.activeCore off (aloneIn ws) n
        (u, some (if ws.any t.absentAt then stUnitAbsent else stOk, l.flatMap (toLe 4)))))

/-- One word of a command: of a PT_EDGE_ID entry the check has been made, for the command as a whole (R38). -/
def State.nalugWord (s : State) (o : Nat) (v : Word) : State :=
  match locate o with
  | some (.port, p, q) =>
    if 0x100 ≤ q ∧ q < 0x140 then (if s.memberAt o then s else s.edgePut p ((q - 0x100) / 4) v) else s.writeWord s.activeCore 1 o 15 v
  | _ => s.writeWord s.activeCore 1 o 15 v

/-- OP_REG_WRITE. -/
def execOpRegWrite (q : Req) (body : List Byte) (s : State) : Res :=
  let off := leAt body 0 4
  let n := byteAt body 4
  let ws := opWords off n
  let data := body.drop 8
  .next (s.nalug_run 0x0103 q body
    { lenOk := decide (body.length = 8 + 4 * n)
      badParam := decide (off % 4 ≠ 0) || decide (n = 0) || decide (64 < n) || decide (0x4000000 < off + 4 * n) || decide (leAt body 5 3 ≠ 0)
      objs := (ws.map (fun o => Obj.page (o / 4096))).eraseDups }
    (fun t => match t.opRefused ws true with
      | some o => t.opDenied o true
      | none =>
        let gone := ws.filter t.absentAt
        if !gone.isEmpty then refuse (t.each gone (fun o u => u.raise 0x0101 [.w o])) stUnitAbsent
        else if t.edgeClash ws (edgeWrites off n data) then refuse t stIdInUse
        else ok (t.each (List.range n) (fun k u => u.nalugWord (off + 4 * k) (BitVec.ofNat 32 (leAt data (4 * k) 4))))))

/-- OP_SET_MODULE_ID: only while every fabric port is DOWN (R37). -/
def execOpSetModuleId (q : Req) (body : List Byte) (s : State) : Res :=
  let f := leAt body 0 4
  .next (s.nalug_run 0x0104 q body { lenOk := decide (body.length = 4), badParam := decide (2 ^ 18 ≤ f) } (fun t =>
    if (List.range 192).any (fun p => decide (t.pmode p = 3) && decide (t.flState p ≠ 0)) then refuse t stPortBusy
    else ok (t.setN glbModuleFid (2 ^ 31 + f))))

end Sys2Proof.Machine
end

