-- ==== Sys2Proof/Machine/Reset.lean ====
section
/-! DEFINITION. Reset scopes and their commands, the boot, and module power on (R68, R100, R131, R153, R174, R203, R254, R274,
R293, R308, R310, R340, R344, R352, R353, R370, R387, R395, R396, R430). -/

namespace Sys2Proof.Machine

/-! ### Reset requests (R395, R396)

A request is scope, target word, source and the tick of its acceptance. -/

def srcPower := 0
def srcOp := 1
def srcWatchdog := 2
def srcClock := 3

/-- A reset request waits for its command. -/
def State.askReset (s : State) (scope target source : Nat) : State :=
  { s with nalug := { s.nalug with resets := s.nalug.resets ++ [(scope, target, source, s.tick.loc)] } }

/-- The request that a reset command performs: an OP_RESET one starts a tick after its reply (R323). -/
def State.dueReset (s : State) (scope target : Nat) : Option (Nat × Nat × Nat × Tick) :=
  s.nalug.resets.find? (fun r => decide (r.1 = scope) && decide (r.2.1 = target) &&
    (decide (r.2.2.1 ≠ srcOp) || decide (1 ≤ ticksSince r.2.2.2 s.tick.loc)))

def State.dropResets (s : State) (p : Nat × Nat × Nat × Tick → Bool) : State :=
  { s with nalug := { s.nalug with resets := s.nalug.resets.filter (fun r => !p r) } }

/-- Return the 32-bit counters of a part of the window to 0. -/
def State.clearCounters (s : State) (p : Space × Nat × Nat → Bool) : State :=
  s.clearRegs (fun o => match locate o with
    | some l => p l && (match findRow o with | some r => decide (r.rc ≠ 0) | none => false)
    | none => false)

/-! ### Port and tile reset -/

/-- The mode, or the width and naming port, that waited for the port's reset (R15, R257). -/
def State.newMode (s : State) (p : Nat) : State :=
  let c := s.cxp p
  let s1 := match c.newMode with | some m => s.setFld (ptMode p) 30 2 m | none => s
  let s2 := match c.newLink with
    | some (w, nm) => ((s1.setFld (ptMode p) 16 8 nm).setBit (ptMode p) 27 (decide (nm ≠ p))).setFld (ptMode p) 28 2 (if nm = p then w else 0)
    | none => s1
  s2.setCxp p { s2.cxp p with newMode := none, newLink := none }

/-- A management function's path goes: locks, kept replies, subscriptions and queued notifications (R340). -/
def State.mgmtPathReset (s : State) (p : Nat) : State :=
  let mine := fun x : Src => decide (x.path = 3) && decide (x.port.toNat = p)
  let s1 := s.mgmtFnLost p
  { s1 with nalug := { s1.nalug with subs := s1.nalug.subs.filter (fun u => !mine u.2.src) } }

/-- A port reset keeps the hot-plug state of a CXL port (R274). -/
def State.keepHp (s : State) (p st : Nat) : State := if s.isCxl p then s.setHp p st else s

/-- What a tile reset and a port reset do to one port (R100, R131, R153, R174, R203, R254, R274, R293, R340, R387). -/
def State.portClear (s : State) (p : Nat) : State :=
  let host := if s.pmode p = 1 then s.edgeFid p 0 else none
  let s1 := (s.portDown p 5 7).keepHp p (s.hp p)
  let s2 := if s1.cxState p = 4 then s1.setFld (ptCxStatus p) 29 3 0 else s1
  let s3 := s2.each ((s2.bind.vcs.filter (fun e => decide (e.2.usp = p))).map (·.1)) (fun v t => (t.freeHmpPort v).fnReset v)
  let s4 := match host with | some f => s3.hostJobs f | none => s3
  let s5 := (((s4.flushPort p).endTests p).lanesOff p).mgmtPathReset p
  let s6 := s5.clearCounters (fun l => (decide (l.1 = .port) && decide (l.2.1 = p)) || (decide (l.1 = .lane) && decide (l.2.1 / 5 = p)))
  let s7 := (s6.clearRegs (fun o => decide (o = ptBw p 2) || decide (o = ptBw p 3))).inTel (fun y =>
    { y with bw := tput 0 (tput 0 y.bw (2 * p) 0) (2 * p + 1) 0 })
  let l := s7.link p
  (s7.setLink p { l with fails := 0, downs := [], slow := false, wait := false }).newMode p

/-- A port in CXL mode trains again after its reset; a fabric port's bring-up is its own command. -/
def State.portTrain (s : State) (p : Nat) : State :=
  if s.isCxl p && s.bit (ptCxHpStatus p) 28 && decide (s.hp p ≠ 5) then s.cxTrain p else s

def State.portReset (s : State) (p source : Nat) : State :=
  ((s.portClear p).portTrain p).raise 0x0113 [.w 5, .w (2 * 2 ^ 28 + p), .w source]

/-- A tile's own state: buckets refilled, counters and PMC counts cleared, open tags cleared (R68, R174, R387). -/
def State.tileClear (s : State) (t : Nat) : State :=
  let s1 := s.each (tilePorts t) (fun p x => x.portClear p)
  let s2 := s1.inQos (fun q => { q with
    flows := q.flows.map (fun (e : Nat × Flow) => if e.1 / 2 ^ 21 = t then (e.1, { e.2 with dc := 0, dp := 0, next := 0 }) else e)
    defs := q.defs.filter (fun e => decide (e.1 / 8 ≠ t) || !e.2.held.isEmpty) })
  let s3 := s2.clearCounters (fun l => decide (l.1 = .tile) && decide (l.2.1 = t))
  let s4 := s3.clearRegs (fun o => match locate o with
    | some (.tile, u, q) => decide (u = t) && decide (0x60010 ≤ q) && decide (q < 0x60800) && decide (0x10 ≤ q % 0x20)
    | _ => false)
  s4.inTel (fun y => { y with tags := y.tags.filter (fun g => decide (g.tile ≠ t)) })

def State.tileReset (s : State) (t source : Nat) : State :=
  let s1 := (s.tileClear t).each (tilePorts t) (fun p x => x.portTrain p)
  s1.raise 0x0113 [.w 4, .w (2 ^ 28 + t), .w source]

/-- TILE_RESET. -/
def execTileReset (t : TileIx) (s : State) : Res :=
  match s.dueReset 4 (2 ^ 28 + t) with
  | some r =>
    let s1 := s.dropResets (fun x => decide (x = r) || (decide (x.1 = 5) && decide ((x.2.1 - 2 * 2 ^ 28) / 16 = t.val)))
    .next (s1.tileReset t r.2.2.1)
  | none => .next s

/-- PORT_RESET. -/
def execPortReset (p : PortIx) (s : State) : Res :=
  match s.dueReset 5 (2 * 2 ^ 28 + p) with
  | some r => .next ((s.dropResets (fun x => decide (x = r))).portReset p r.2.2.1)
  | none => .next s

/-! ### Hampers after a warm module reset (R125) -/

/-- A record of the log says that the hamper of this origin is decided (R125). -/
def State.recorded (s : State) (o : HOrig) : Bool :=
  if o.homes.all (fun h => decide (h = s.moduleFid)) then
    decide (o.dec = some 0) && (match s.part o.key with | some p => p.sealAck | none => true)
  else o.dec.isSome && o.decAck

/-- One home part. -/
def State.restartPart (p : HPart) (s : State) : State :=
  let own := s.orig p.key
  if p.doubt.isSome then s
  else if p.sealAck then
    if p.dec = some 0 then (if tickEarlier s.tick.fab (p.window + 1) then s else (s.flip p).delPart p.key)
    else (s.partRelease p).delPart p.key
  else if p.prepAck then
    let ans := match own with
      | some o => some (if s.recorded o then o.dec.getD 0x4B else 0x4B)
      | none => none
    (s.setPart { p with doubt := some s.tick.loc, answer := ans }).raise 0x0401 [.q p.key.stamp.toNat, .w p.key.origin, .w p.key.tag.toNat]
  else (s.partRelease p).delPart p.key

/-- One hamper that this module coordinated: without a record it is aborted with ST_HMP_PARTICIPANT_LOST, and one whose record was
not acknowledged has none. -/
def State.restartOrig (known : List HKey) (o : HOrig) (s : State) : State :=
  if known.contains o.key then
    (if tickEarlier s.tick.fab (o.window + 1) then s else s.origEdge false { o with window := s.tick.fab - 1 })
  else
    ((((s.abortCount 0x4B).abortCapture 0x4B o.key).outcome o.src (outcomeRec 0x4B false o.retries 0xFF o.key.tag s.tick.fab o.user)).delOrig o.key).inHmp
      (fun h => { h with log := h.log.filter (fun r => !(decide (r.key = o.key) && decide (r.type = 2) && decide (r.attempt = o.retries))) })

def State.hmpRestart (s : State) : State :=
  let known := (s.hmp.origs.filter s.recorded).map (·.key)
  let s1 := s.each s.hmp.parts State.restartPart
  let s2 := s1.each s1.hmp.origs (State.restartOrig known)
  s2.inHmp (fun h => { h with arbDone := false, dcdDone := false, ovr := 0 })

/-! ### Warm module reset (R395) -/

/-- Registers that a warm module reset keeps, by chapter (R68, R100, R131, R153, R174, R203, R254, R274, R293, R310, R370,
R387, R406, R430); RWS fields and 64-bit counters are kept beside these (R10, R395). -/
def warmKeeps (o : Nat) : Bool :=
  match locate o with
  | some (.glob, _, _) =>
    decide (o < 0x500) || (decide (0x1000 ≤ o) && decide (o < 0x1030)) || decide (o = glbClkStatus) || decide (o = glbRstCause) ||
    decide (o = glbRstWarmCnt) || (decide (0x100000 ≤ o) && decide (o < 0x100010)) ||
    (decide (0x101000 ≤ o) && decide (o < 0x101800) && decide (0x10 ≤ o % 0x100)) ||
    decide (o = mgtNalugCtl) || decide (o = sfDirStatus) || decide (o = hmpTagNext) || decide (o = hmpLogHead) || decide (o = hmpStatus) ||
    (decide (0x420000 ≤ o) && decide (o < 0x428000) && decide (o % 0x20 < 0x18)) || decide (o = hbmStatus) ||
    decide (o = telMonStatus) || decide (o = telMonStatus1) ||
    (decide (0x701000 ≤ o) && decide (o < 0x703000)) || decide (o = telDumpSeq) || decide (o = telDumpBase) || decide (o = telDumpBase + 4) || decide (o = telDumpSlots) ||
    decide (o = telLatBase) || decide (o = telLatBase + 4) || decide (o = telLatSize) || decide (o = telLatSeq) ||
    (decide (0x700100 ≤ o) && decide (o < 0x700400)) ||
    (decide (0x800000 ≤ o) && decide (o < 0x800040)) || (decide (0x810000 ≤ o) && decide (o < 0x8102A0))
  | some (.page, _, q) => decide (q ≠ 0x14) && decide (q < 0x40)
  | some (.tile, _, q) =>
    (decide (0x10000 ≤ q) && decide (q < 0x12004)) || (decide (0x20000 ≤ q) && decide (q < 0x34000)) ||
    decide (q = 0x50000) || decide (q = 0x50004) || (decide (0x60000 ≤ q) && decide (q < 0x60800))
  | some (.port, _, q) =>
    decide (q = 0) || decide (q = 0x1004) || (decide (0x100 ≤ q) && decide (q < 0x140)) || (decide (0x2000 ≤ q) && decide (q < 0x2010)) || decide (q = 0x100C)
  | some (.lane, _, _) => true
  | none => false

/-- The word of a register after a warm module reset. -/
def State.warmWord (s : State) (o : Nat) (v : Word) : Word :=
  match locate o, findRow o with
  | some l, some r =>
    let m := BitVec.ofNat 32 r.rws
    let keep : Bool := warmKeeps o && (match l with | (.lane, x, _) => decide (s.pmode (x / 5) ≠ 3) | _ => true)
    if r.rc ≠ 0 ∧ o ≠ glbRstWarmCnt then regReset o
    else if 0x101000 ≤ o ∧ o < 0x101800 ∧ o % 0x100 = 0 then putBits (regReset o) 30 1 (bits v 30 1)
    else if o = hmpStatus then v &&& 0x40000000#32
    else if r.c64 then v
    else if keep then
      (match l with
       | (.page, _, 0x10) => v &&& 0x7FFFFFFF#32
       | (.port, _, 0x100C) => putBits (regReset o) 20 5 (bits v 20 5)
       | _ => v)
    else (regReset o &&& ~~~ m) ||| (v &&& m)
  | _, _ => regReset o

/-- Jobs stop with ST_ENG_ABORTED written back, fetched entries go, rings are DISABLED with their heads kept; open hampers
stay to be answered (R203). A page move is abandoned (R196). -/
def State.warmRings (s : State) : State :=
  s.each (s.eng.insts.map (·.1)) (fun i t =>
    let x := t.inst i
    let t1 := match x.job with
      | none => t
      | some j =>
        let t0 := if byteAt j.bytes 0 = 0x10 ∧ j.fin.isNone then t.abandonMove (leAt j.bytes 16 4) else t
        let (st, res) := match j.fin with | some f => f | none => (stEngAborted, j.prog)
        ((t0.atsEnd i).freeEngine i).jobBack i j.pos st res
    let h := t1.nreg (insRingHead i)
    ((t1.setInst i { late := (x.late ++ x.ents).filter (fun e => e.opn), x := h, h := h, t := h, rates := x.rates }).setRing i 0 0).setN (insRingTail i) h)

/-- Bulk and best-effort messages and their spill chains are discarded and counted; held messages are discarded (R153,
R174). -/
def State.warmQueues (s : State) : State :=
  let qs := ((s.hbm.queues.map (·.1)) ++ (s.hbm.spill.map (·.1))).eraseDups.filter (fun q => decide (6 ≤ q % 8))
  let s1 := s.each qs (fun q t =>
    let n := (t.queue q).length + (tget [] t.hbm.spill q).length
    let t1 := if n = 0 then t else t.cnt (tlAgeDropCnt (queueTile q)) n
    t1.flushQueue q)
  let s2 := s1.dropHeld (fun _ => true)
  s2.inQos (fun q => { q with
    flows := q.flows.map (fun (e : Nat × Flow) => (e.1, { e.2 with dc := 0, dp := 0, next := 0 }))
    defs := []
    deficit := [] })

/-- All logic that a warm module reset resets, the rest kept (R395); the discards of the queues are counted in counters that start at
0 (R153). -/
def State.warmLogic (s : State) : State :=
  let s1 := ((s.warmRings).hmpRestart).cutTrks (fun t => t.ev.isReq)
  let s2 := s1.each (List.range 32) (fun k t => if (t.slot k).state = 1 then t.setSlot k { t.slot k with state := 2 } else t)
  let s3 := s2.breakLocksOf (fun _ => true)
  let s4 := { s3 with
    regs := s3.regs.foldl (fun a (e : Nat × Word) => tput (regReset e.1) a e.1 (s3.warmWord e.1 e.2)) []
    nalug := { s3.nalug with reasm := [], inbox := [], tries := [], br := none, brWait := [], brTries := 0,
                             resets := s3.nalug.resets.filter (fun r => decide (r.1 = 2)) }
    tel := { s3.tel with dump := none, latch := [], tags := [], auditOn := none, idleRun := 0, busy := false }
    clk := { s3.clk with merge := [], tmo := [], run := [], draining := false, running := [], absorbed := [], coreLost := false }
    eng := { s3.eng with plan := [], ptr := [] }
    hmp := { s3.hmp with arb := 512, dcd := 1920, xlat := 640, timPend := false }
    lane := { lanes := s3.lane.lanes.filter (fun e => decide (s3.pmode (e.1 / 5) ≠ 3)) }
    hbm := { s3.hbm with sends := [], recv := [], ahead := [], waits := [], bulkRun := [], rr := [], half := [], mark := s3.out.length }
    lnk := { s3.lnk with rem := [], rsnp := [], links := s3.lnk.links.map (fun (e : Nat × LinkS) => (e.1, { e.2 with delays := [], delayEv := none })) } }
  (s4.warmQueues).setBit mgtStatus 24 false

/-- The fabric links go DOWN with cause 5; CXL links stay in L0 with their credits withheld (R254, R274). -/
def State.linksReset (s : State) : State :=
  s.each ((s.lnk.links.map (·.1)).filter (fun p => decide (s.pmode p = 3))) (fun p t => t.linkDown p 5)

/-- A warm module reset begins: ports stop accepting; the banks drain. Narrower requests are dropped (R395, R396). -/
def State.warmBegin (s : State) (source : Nat) : State :=
  let s1 := s.dropResets (fun r => decide (3 ≤ r.1))
  ({ s1 with clk := { s1.clk with running := [(3, 0, source, s.tick.loc)], draining := true } }).linksReset

/-- The firmware serves again after a module reset. -/
def State.up (s : State) : Bool := !s.mgmt.stopped && !s.mgmt.inRecovery

/-- The reset ends: cause, event, and the replies of the requests that it absorbed (R395, R396). -/
def State.resetDone (s : State) (scope source : Nat) (absorbed : List Req) : State :=
  let s1 := s.setN glbRstCause (scope * 2 ^ 28 + source * 2 ^ 16)
  let s2 := if s1.up then s1.raise 0x0113 [.w scope, .w 0, .w source] else s1
  s2.each absorbed (fun q t => (t.journalDone 0x0106 q.src q.seq stOk []).answer 0x0106 q stOk [])

/-- The logic resets and the firmware takes over (R395 steps 3 and 4). -/
def State.warmFinish (s : State) (source : Nat) : State :=
  let waits := s.clk.absorbed
  let debug := s.fld mgtStatus 22 2
  let s1 := s.warmLogic.bootRom false
  let s2 := if debug = 2 ∧ s1.up then s1.setFld mgtStatus 22 2 2 else s1
  let s3 := if s2.up then
      let (v, t) := s2.draw
      t.takeover t.activeCore t.activeCore (v % 256)
    else s2
  (s3.cnt glbRstWarmCnt).resetDone 3 source waits

/-- WARM_MODULE_RESET. -/
def execWarmModuleReset (s : State) : Res :=
  if !s.clk.running.isEmpty then .next s
  else match s.dueReset 3 0 with
  | some r => .next (s.warmBegin r.2.2.1)
  | none => .next s

/-- WARM_RESET_DRAIN_DONE: the open trackers have completed, or TIMEOUT_TICKS + 1 ticks have passed (R100, R395). -/
def execWarmResetDrainDone (s : State) : Res :=
  match s.clk.running with
  | (3, _, source, t0) :: _ =>
    if source = srcClock then .next s
    else if !(s.home.trks.any (fun t => t.2.ev.isReq)) ∨ s.snoopTicks + 1 ≤ ticksSince t0 s.tick.loc then .next (s.warmFinish source)
    else .next s
  | _ => .next s

/-! ### FJX image and factory defaults at a cold module reset (R352, R353) -/

/-- One REG entry: refused or absent ones are skipped and their offset kept (R352). -/
def State.fjxReg (x : State × Option Nat) (e : Nat × Nat × Nat) : State × Option Nat :=
  let (s, bad) := x
  let (o, v, m) := e
  if !s.slotGrants s.activeCore 0 1 o true || s.absentAt o then (s, some (bad.getD o))
  else
    let w := (BitVec.ofNat 32 (s.view o) &&& ~~~ BitVec.ofNat 32 m) ||| (BitVec.ofNat 32 v &&& BitVec.ofNat 32 m)
    match findRow o with
    | some r => if r.rwl ≠ 0 then (s.setReg o (r.written (s.reg o) w 0xFFFFFFFF#32 true), bad) else (s.writeWord s.activeCore 1 o 15 w, bad)
    | none => (s, bad)

/-- One PORT entry: mode, width and MGMT_FN of a port and of the members of its link (R257, R268). -/
def State.fjxPort (s : State) (e : Nat × Nat × Nat × Bool) : State :=
  let (p, mode, w, fn) := e
  let s0 := s.setFld (ptMode p) 30 2 mode
  let s1 := s0.setBit (ptCxCtl p) 30 (fn && (decide (mode ≠ 1) || decide (s0.mgmtFns p < 4)))
  if w = 0 then s1
  else (s1.setFld (ptMode p) 28 2 w).each ((linkMembers p w).filter (fun q => decide (q ≠ p))) (fun q t =>
    (t.setFld (ptMode q) 16 8 p).setBit (ptMode q) 27 true)

/-- One record. -/
def State.fjxRecord (x : State × Option Nat) (r : FjxRec) : State × Option Nat :=
  let (s, bad) := x
  match r with
  | .ports l => (l.foldl State.fjxPort s, bad)
  | .sideband b0 a0 a1 => (s.setN mgtNalugCtl (b0 % 2 * 2 ^ 31 + b0 / 2 % 2 * 2 ^ 30 + a0 * 2 ^ 8 + a1), bad)
  | .disable eng hb sfb hbm tile mc =>
    (((((s.set64 glbDisEng eng).setN glbDisBank (hb * 2 ^ 16 + sfb)).setN glbDisMisc (tile * 2 ^ 16 + hbm * 2 ^ 8 + mc))), bad)
  | .regs l => l.foldl State.fjxReg (s, bad)
  | .mcPref _ => (s, bad)
  | .other => (s, bad)

/-- The firmware applies the newer valid copy, or factory defaults. -/
def State.fjxApply (s : State) : State :=
  let s1 := s.each [0, 1] (fun i t => if (t.fjxParse (t.fjxCopy i)).isNone then t.raise 0x0204 [.w i] else t)
  match s1.newestFjx with
  | none => (s1.setBit mgtStatus 29 true).raise 0x0203 []
  | some i =>
    let b := s1.fjxCopy i
    let (s2, bad) := ((s1.fjxParse b).getD []).foldl State.fjxRecord (s1, none)
    let s3 := ({ s2 with mgmt := { s2.mgmt with applied := some b } }.setBit mgtStatus 20 (decide (i = 1))).setReg mgtFjxGen (fjxGen b)
    match bad with
    | some o => (s3.cnt mgtFjxApplyFailCnt).raise 0x0205 [.w o]
    | none => s3

/-! ### Cold module reset (R395) -/

/-- The bank that serves bucket b: the first present one from b on, wrapping (R34, R70). -/
def State.firstBank (s : State) (kind b : Nat) : Nat :=
  (((List.range 16).map (fun k => (b + k) % 16)).find? (s.present kind)).getD b

/-- Bank maps, directory, log and mirror stacks, line-store areas, latency LFSRs (R34, R70, R92, R131, R145, R382). -/
def State.bootTables (s : State) : State :=
  let m := fun kind => (List.range 16).foldl (fun a b => tput b a b (s.firstBank kind b)) ([] : Tab Nat)
  let s1 := s.inTick (fun t => { t with hbMap := m 4, sfMap := m 5 })
  let st := (List.range 4).filter (s.present 8)
  let s2 := (s1.setFld sfDirStatus 24 4 s.stackMask).setBit sfDirStatus 31 (!st.isEmpty)
  let s3 := (((s2.setFld hbmStatus 12 2 (st.getD 0 0)).setFld hbmStatus 8 2 (st.getD 1 0)).setBit hbmStatus 7 (decide (2 ≤ st.length))).hbmMirror
  let s4 := s3.setBit hmpStatus 30 (!st.isEmpty)
  let seed := s4.fld telLatCtl 0 23
  s4.inTel (fun y => { y with lfsr := (List.range 12).foldl (fun a t => tput 0 a t (if seed = 0 then 1 else seed)) [] })

/-- What outlives a cold module reset: flash, OTP, the keeper's state, the model's own record; everything else is as
reset (R308, R310, R370, R395, R430). -/
def State.coldBase (s : State) : State :=
  let m := s.mgmt
  let lost := fun c : FwCopy => { c with bytes := c.bytes.take (c.bytes.length - m.fwBuf) }
  let i := s.inactive
  let keep := fun o : Nat => decide (o = pwrStatus) || decide (o = pwrLastOff) || decide (o = pwrCtl)
  let fault := s.reg pwrFault &&& 0xF0000000#32
  ({ State.reset with
      pending := s.pending
      out := s.out
      free := s.free
      regs := s.regs.filter (fun e => keep e.1)
      mgmt := { fwA := if i = 0 then lost m.fwA else m.fwA, fwB := if i = 1 then lost m.fwB else m.fwB, fjxA := m.fjxA, fjxB := m.fjxB,
                staging := m.staging, stagingOn := m.stagingOn, stagingOk := m.stagingOk, bootFail := m.bootFail, bootCount := m.bootCount,
                fuses := m.fuses, svnMin := m.svnMin, capLocked := m.capLocked, keysErased := m.keysErased, nonce := m.nonce }
      pwr := s.pwr }).setReg pwrFault fault

/-- Every PLL locked, the reference running; CK_KEEP as the keeper runs it (R389, R407). -/
def State.clocksUp (s : State) : State := s.setN glbClkStatus (0xFFFF0000 + b2n s.pwr.keepRun * 2 ^ 15)

/-- A unit that fails self-test (R427). -/
def State.selfTest (s : State) (u : Nat × Nat) : State := (s.setRetired u.1 u.2).raiseLate 0x0102 [.w (u.1 * 2 ^ 28 + u.2)]

/-- The cold module reset: `fails` are the units that fail self-test. At a power-up whose boot ROM has run already, the boot
record is the one that it wrote. -/
def State.coldReset (s : State) (source : Nat) (fails : List (Nat × Nat)) : State :=
  let ran := decide (source = srcPower) && s.pwr.bootRan
  let scope := if source = srcPower ∧ s.pwr.fresh then 1 else 2
  let s0 := s.coldBase
  let s1 := { s0 with pwr := { s0.pwr with fresh := false, bootRan := true }, mgmt := { s0.mgmt with bootCount := if ran then s0.mgmt.bootCount else s0.mgmt.bootCount + 1 } }
  let s2 := (s1.clocksUp.each fails (fun u t => t.selfTest u)).bootRom true
  let s3 := if s2.up then s2.fjxApply else s2
  let s4 := s3.bootTables.checkMinimum
  let s5 := s4.resetDone scope source []
  if s5.up then s5.raise 0x0A08 [.w (s5.fld pwrLastOff 24 8)] else s5

/-- COLD_MODULE_RESET: the units that failed self-test are its operand (R395, R427). -/
def execColdModuleReset (fails : List (Fin 12 × Nat)) (s : State) : Res :=
  match s.dueReset 2 0 with
  | some r => .next (s.coldReset r.2.2.1 (fails.map (fun u => (u.1.val, u.2))))
  | none => .next s

/-- BOOT_ROM_START: the management reset is released (R303, R344). -/
def execBootRomStart (s : State) : Res :=
  if s.pwr.mgmtUp ∧ !s.pwr.bootRan then .next (({ s with pwr := { s.pwr with bootRan := true } }.countBoot).bootRom true) else .next s

/-- BOOT_WATCHDOG_EXPIRY: a boot-failure mark, then a warm module reset (R345). -/
def execBootWatchdogExpiry (s : State) : Res :=
  if s.mgmt.watchdog then
    let g := s.runningCopy.commit.getD 0
    .next ({ s with mgmt := { s.mgmt with watchdog := false, bootFail := s.mgmt.bootFail ++ [g] } }.askReset 3 0 srcWatchdog)
  else .next s

/-! ### OP_RESET (R323, R395, R396) -/

/-- The request came over the management function of a port of the target, or of the link that names it (R323). -/
def State.ownPath (s : State) (q : Req) (scope i : Nat) : Bool :=
  let p := q.src.port.toNat
  decide (q.src.path = 3) && (if scope = 4 then decide (p / 16 = i) else decide (p = i) || decide (s.linkOf i = p))

/-- OP_RESET. -/
def execOpReset (q : Req) (body : List Byte) (s : State) : Res :=
  let sc := byteAt body 0
  let k := q.kind.toNat
  let i := q.index.toNat
  let fits := (decide (sc = 2) && decide (k = 0)) || (decide (sc = 3) && decide (k = 0)) || (decide (sc = 4) && decide (k = 1)) ||
    (decide (sc = 5) && decide (k = 2)) || (decide (sc = 6) && decide (k = 9))
  .next (s.nalug_run 0x0106 q body { kinds := [0, 1, 2, 9], lenOk := body.length = 4, badParam := !fits || !rsvZero body [(1, 3)] } (fun t =>
    if 3 ≤ sc ∧ !t.clk.running.isEmpty then ({ t with clk := { t.clk with absorbed := t.clk.absorbed ++ [q] } }, none)
    else match sc with
      | 2 => ok (t.askReset 2 0 srcOp)
      | 3 => ok (t.askReset 3 0 srcOp)
      | 4 => ok (if t.ownPath q 4 i then t.askReset 4 (2 ^ 28 + i) srcOp else t.tileReset i srcOp)
      | 5 => ok (if t.ownPath q 5 i then t.askReset 5 (2 * 2 ^ 28 + i) srcOp else t.portReset i srcOp)
      | _ => ok (t.insReset i)))

/-! ### Module power (R296, R306, R308) -/

/-- KEEPER_POWER_ON: the keeper's supply rises above 20 V; every keeper register is cleared (R308). -/
def execKeeperPowerOn (s : State) : Res :=
  if s.pwr.supply then .next s
  else
    let s1 := s.coldBase
    .next { s1 with pwr := {}, regs := [] }

/-- FEED_OUT_OF_RANGE (R296, R306): with both feeds out the module runs from V_BUS and its fabric links go DOWN. -/
def execFeedOutOfRange (f : FeedIx) (mv : Nat) (s : State) : Res :=
  let on := decide (s.kState = kSequencing) || decide (s.kState = kOn)
  let s1 := (s.setBit pwrStatus (24 - f) false).setN (pwrFeedV f) (min mv 65535)
  if !on || !s.feedOk f then .next s1
  else
    let s2 := ((s1.feedPath f false).setBit pwrFault (27 - f) true).raiseUp 0x0A02 [.w (f : Nat), .w mv]
    if s2.feedOk (1 - f) then .next s2
    else .next ((s2.setBit pwrStatus 20 true).linksReset)

/-! ### Stepped commands (R320) -/

/-- One step of the command in a slot. -/
def State.runStep (s : State) (k : Nat) : State :=
  let x := s.slot k
  match x.job with
  | .none => s
  | .fwCommit => s.stepOnce k (fun t => t.fwCommitStep k)
  | .fjxCommit => s.stepOnce k (fun t => t.fjxCommitStep k)
  | .lifecycle g => s.stepOnce k (fun t => t.lifecycleStep k g)
  | .mcSwitch => s.stepOnce k (fun t => t.mcSwitchStep k)
  | .sliceRelease n => s.stepOnce k (fun t => t.sliceReleaseStep k n)
  | .agentRemove d a f => s.stepOnce k (fun t => t.agentRemoveStep k d a f)
  | .teardown d fl => s.stepOnce k (fun t => t.teardownStep k d fl)
  | .unbind _ n f => if x.phase = 0 then s else s.stepOnce k (fun t => t.opUnbindStep k n f)
  | .rebind m r n fo fn v i nd => if x.phase = 0 then s else s.stepOnce k (fun t => t.opRebindStep k m r n fo fn v i nd)
  | .dirRebuild => s.stepOnce k (fun t => t.dirRebuildStep k)

/-- STEPPED_COMMAND_STEP: at most one step of each active command, in slot order. -/
def execSteppedCommandStep (s : State) : Res :=
  if s.clk.mgmtLost then .next s else .next (s.each (List.range 32) (fun k t => t.runStep k))

end Sys2Proof.Machine
end

