-- ==== Sys2Proof/Machine/Clocks.lean ====
section
/-! DEFINITION. PLL loss, clock crossings, on-die SRAM errors, and background work: snoop-filter scrub, refresh, patrol scrub
(R146, R389-R403). -/

namespace Sys2Proof.Machine

def State.inClk (s : State) (f : ClkS → ClkS) : State := { s with clk := f s.clk }

/-! ### PLLs (R394) -/

/-- The bit of GLB_CLK_STATUS of a domain: 0 core, 1-12 tiles, 13 HBM, 14 management, 15 the reference (R389). -/
def pllBit (d : Nat) : Nat :=
  if d = 0 then 31 else if d = 13 then 30 else if d = 14 then 29 else if d = 15 then 28 else 15 + d

/-- An event that waits while the management complex is stopped (R394). -/
def State.raiseClk (s : State) (code : Nat) (vals : List EvVal) : State :=
  if s.clk.mgmtLost then s.raiseLate code vals else s.raise code vals

/-- A PLL's bit, count and event. -/
def State.pllGone (s : State) (d : Nat) : State :=
  if s.bit glbClkStatus (pllBit d) then
    (((s.setBit glbClkStatus (pllBit d) false).cnt glbClkLossCnt).inClk (fun c => { c with mgmtLost := c.mgmtLost || decide (d = 14) })).raiseClk 0x0110 [.w d]
  else s

/-- The core PLL is lost: a warm module reset without a drain; open requests receive no completion (R394). -/
def State.coreLost (s : State) : State :=
  let s1 := (s.warmBegin srcClock).inClk (fun c => { c with coreLost := true })
  s1.cutTrks (fun t => t.ev.isReq)

/-- A tile's PLL is lost: its ports stop (R394). -/
def State.tilePllLost (s : State) (t : Nat) : State :=
  let s1 := s.each (tilePorts t) (fun p x => x.portDown p 5 7)
  s1.inClk (fun c => { c with lostAt := tput 0 c.lostAt t (s.tick.loc.toNat + 1) })

/-- PLL_LOCK_LOSS (R394). -/
def execPllLockLoss (d : Fin 16) (s : State) : Res :=
  if !s.bit glbClkStatus (pllBit d) then .next s
  else if d.val = 15 then
    let s1 := (s.setBit glbClkStatus 28 false).inClk (fun c => { c with mgmtLost := true })
    .next ((s1.each (List.range 15) (fun k t => t.pllGone k)).emergencyOff 3 0)
  else
    let s1 := s.pllGone d
    if d.val = 0 then .next s1.coreLost
    else if d.val ≤ 12 then .next (if s1.present 1 (d.val - 1) then s1.tilePllLost (d.val - 1) else s1)
    else if d.val = 13 then .next (s1.each (List.range 4) (fun h t => if t.present 8 h then t.retireStack h else t))
    else .next s1

/-- PLL_RELOCK (R394): a tile's within 64 ticks asks for a tile reset; the management complex restarts. -/
def execPllRelock (d : Fin 15) (s : State) : Res :=
  if s.bit glbClkStatus (pllBit d) || !s.bit glbClkStatus 28 then .next s
  else
    let s1 := (s.setBit glbClkStatus (pllBit d) true).raiseClk 0x0111 [.w (d : Nat)]
    if d.val = 0 then
      .next (match s1.clk.running with
        | (3, _, src, _) :: _ => if src = srcClock then s1.warmFinish srcClock else s1
        | _ => s1)
    else if d.val ≤ 12 then
      let t := d.val - 1
      let at0 := tget 0 s1.clk.lostAt t
      if at0 = 0 ∨ 64 < ticksSince (BitVec.ofNat 48 (at0 - 1)) s.tick.loc then .next s1
      else .next ((s1.inClk (fun c => { c with lostAt := tput 0 c.lostAt t 0 })).askReset 4 (2 ^ 28 + t) srcClock)
    else if d.val = 14 then
      let s2 := s1.inClk (fun c => { c with mgmtLost := false })
      .next ((s2.raiseHeld).takeover s2.activeCore s2.activeCore 1)
    else .next s1

/-- TILE_PLL_RELOCK_TIMEOUT: more than 64 ticks without lock (R394). -/
def execTilePllRelockTimeout (t : TileIx) (s : State) : Res :=
  let at0 := tget 0 s.clk.lostAt t
  if at0 ≠ 0 ∧ 64 ≤ ticksSince (BitVec.ofNat 48 (at0 - 1)) s.tick.loc then
    .next ((s.inClk (fun c => { c with lostAt := tput 0 c.lostAt t 0 })).retireTile t)
  else .next s

/-- CORE_PLL_RELOCK_TIMEOUT: 1 ms without lock; the module stays below the minimum service set (R33, R394). -/
def execCorePllRelockTimeout (s : State) : Res :=
  if s.clk.coreLost && !s.bit glbClkStatus 31 && !s.bit glbTickStatus 29 then .next ((s.setBit glbTickStatus 29 true).raise 0x0124 [])
  else .next s

/-! ### Crossings (R389-R393) -/

/-- The 34 crossings, by ID: near code * 32 + far code. -/
def isCrossing (x : Nat) : Bool :=
  let a := x / 32
  let b := x % 32
  (decide (a = 0) && decide (1 ≤ b) && decide (b ≤ 14)) || (decide (b = 0) && decide (1 ≤ a) && decide (a ≤ 14)) ||
  (decide (a = 14) && decide (15 ≤ b) && decide (b ≤ 17)) || (decide (b = 14) && decide (15 ≤ a) && decide (a ≤ 17))

/-- A 32-bit count of a crossing, which saturates. -/
def satCnt (t : Tab Nat) (x k : Nat) : Tab Nat := tput 0 t x (min (tget 0 t x + k) (2 ^ 32 - 1))

/-- CROSSING_EVENT_DELIVERY: a delivery that covers k events (R392). -/
def execCrossingEventDelivery (x : Fin 1024) (k : Nat) (s : State) : Res :=
  if isCrossing x ∧ 1 ≤ k then .next (s.inClk (fun c => { c with merge := satCnt c.merge x (k - 1) })) else .next s

/-- CROSSING_TIMEOUT: a request of master m, or of a Nalug command, ends; toward CK_TCK it is only logged (R393). -/
def execCrossingTimeout (x : Fin 1024) (m : Fin 8) (off : Word) (write : Bool) (req : Option (Req × Nat)) (s : State) : Res :=
  if !isCrossing x then .next s
  else
    let s1 := s.inClk (fun c => { c with tmo := satCnt c.tmo x 1 })
    let s2 := if s.bit glbXingLog0 31 then s1
              else (s1.setN glbXingLog0 (2 ^ 31 + b2n write * 2 ^ 16 + x)).setReg glbXingLog1 off
    let s3 := s2.raiseLim 0x0112 x [.w (x : Nat), .w off.toNat]
    if x.val % 32 = 16 then .next s3
    else match req with
      | some (q, code) => .next (s3.answer code q stUnitAbsent [])
      | none => .next (if write then s3 else s3.emit (.busErr m off.toNat))

/-! ### On-die SRAM errors (R398, R399, R401) -/

/-- MORTAR_HEADER_UE (R398). -/
def execMortarHeaderUe (s : State) : Res := .next (s.askReset 3 0 4)

/-- The evidence of an uncorrectable error (R399): structure in the row order of R399, unit, entry. -/
def State.sramUe (s : State) (st unit entry : Nat) : State :=
  let s1 := s.cnt glbErrUeCnt
  let s2 := if s.bit glbErrLog0 31 then s1 else (s1.setN glbErrLog0 (2 ^ 31 + st * 2 ^ 16 + unit % 256)).setN glbErrLog1 entry
  s2.raise 0x0114 [.w st, .w unit]

/-- The messages with an ID, among a tile's queues, are poisoned (R399). -/
def State.poisonMsg (s : State) (t id : Nat) : State :=
  let mark := fun (m : TMsg) => if m.m.id = id then { m with poison := true } else m
  s.inHbm (fun h => { h with
    queues := h.queues.map (fun (e : Nat × List TMsg) => if queueTile e.1 = t then (e.1, e.2.map mark) else e)
    spill := h.spill.map (fun (e : Nat × List (Nat × TMsg)) => if queueTile e.1 = t then (e.1, e.2.map (fun x => (x.1, mark x.2))) else e) })

/-- A snoop-filter entry cannot be read (R401): it is freed; every slice of every domain with a caching agent is untracked
and those domains enter Blanket mode; past UE_LIMIT in 1,024 ticks the bank is retired (R400). -/
def State.sfEntryUe (s : State) (b set : Nat) (la : Option Nat) : State :=
  let s3 := s.entriesLost b set la.toList
  let w := s.tick.loc.toNat / 1024 + 1
  let x := tget (0, 0) s.clk.sfUe b
  let n := if x.2 = w then x.1 + 1 else 1
  let lim := if s.fld sfScrubCtl 0 8 = 0 then 4 else s.fld sfScrubCtl 0 8
  let s4 := s3.inClk (fun c => { c with sfUe := tput (0, 0) c.sfUe b (n, w) })
  if lim < n ∧ s.present 5 b then s4.retireAny 5 b else s4

/-- A route table entry reads as invalid until it is rewritten (R399). -/
def State.routeUe (s : State) (t q : Nat) : State :=
  if (0x10000 ≤ q ∧ q < 0x12000) ∨ (0x20000 ≤ q ∧ q < 0x34000) then s.setReg (tileBase t + q / 4 * 4) 0 else s

/-- A tile's queue links or headers: a tile reset, and the second within 2^20 ticks retires the tile. The reset's source is
free: R407 gives no code for it. -/
def State.tileUe (s : State) (t : Nat) : State :=
  let at0 := tget 0 s.clk.tileUe t
  let again := decide (at0 ≠ 0) && decide (ticksSince (BitVec.ofNat 48 (at0 - 1)) s.tick.loc ≤ 2 ^ 20)
  let s1 := s.inClk (fun c => { c with tileUe := tput 0 c.tileUe t (s.tick.loc.toNat + 1) })
  if again then s1.retireTile t
  else
    let (v, s2) := s1.draw
    s2.askReset 4 (2 ^ 28 + t) (2 + v % 254)

/-- SRAM_UE: an uncorrectable error of a structure (R399). `unit` is its tile, bank, table, engine, cluster or core; `entry`
its entry: a message's ID, a set, an index, or an offset in the tile's route tables; `la` the line of a snoop-filter entry. -/
def execSramUe (st : Fin 10) (unit : Byte) (entry : Word) (la : Option Nat) (s : State) : Res :=
  let u := unit.toNat
  let e := entry.toNat
  let s1 := s.sramUe st u e
  match st.val with
  | 0 => .next (s1.poisonMsg u e)
  | 1 => .next (if s1.present 1 u then s1.tileUe u else s1)
  | 2 => .next (if s1.present 4 u then s1.retireAny 4 u else s1)
  | 3 => .next (s1.sfEntryUe u e la)
  | 4 => .next (s1.inClk (fun c => { c with badEntry := c.badEntry ++ [(u, e, s.tick.loc)] }))
  | 5 => .next (if s1.present 1 u then s1.routeUe u e else s1)
  | 6 => .next (if s1.present 6 u then s1.retireAny 6 u else s1)
  | 7 => .next (if s1.present 7 u then s1.retireAny 7 u else s1)
  | 8 => .next (if s1.present 11 u then s1.coreFailed u 2 else s1)
  | _ => .next (s1.askReset 3 0 5)

/-! ### Background work (R401-R403, R146) -/

/-- A scrub read of the next set of a bank. -/
def State.sfScrub (s : State) (b : Nat) (la : Option Nat) (bad : Bool) : State :=
  let p := tget 0 s.clk.sfPos b
  let s1 := s.inClk (fun c => { c with sfPos := tput 0 c.sfPos b ((p + 1) % 16384), sfDefer := tput 0 c.sfDefer b 0 })
  let s2 := if p = 16383 then s1.setN sfScrubPass (s1.nreg sfScrubPass + 1) else s1
  if bad then s2.sfEntryUe b p la else s2

/-- The set is deferred; through the fourth guard point it is read all the same (R403). -/
def State.sfWait (s : State) (b : Nat) (la : Option Nat) (bad : Bool) : State :=
  let n := tget 0 s.clk.sfDefer b + 1
  let s1 := if n = 1 then s.cnt64 (glbBgDeferCnt 2) else s
  if n = 4 then (s1.cnt (glbBgForceCnt 2)).sfScrub b la bad else s1.inClk (fun c => { c with sfDefer := tput 0 c.sfDefer b n })

/-- SF_SCRUB_SET: a bank's set of this tick, one per tick. `idle`: the lookup port had a cycle free; `bad`: the set holds an uncorrectable
entry, the one of line `la` (R401, R403). -/
def execSfScrubSet (b : BankIx) (idle bad : Bool) (la : Option Nat) (s : State) : Res :=
  if !s.present 5 b || !s.bit sfScrubCtl 31 || decide (tget 0 s.clk.sfAt b = s.tick.loc.toNat + 1) then .next s
  else
    let s0 := s.inClk (fun c => { c with sfAt := tput 0 c.sfAt b (s.tick.loc.toNat + 1) })
    .next (if idle then s0.sfScrub b la bad else s0.sfWait b la bad)

/-- HBM_REFRESH: a refresh interval of a pseudo-channel falls due; `idle`: no foreground command waits. A refresh postponed
by 4 intervals is issued ahead of every other command (R146, R403). -/
def execHbmRefresh (h : StackIx) (pc : Fin 32) (idle : Bool) (s : State) : Res :=
  if !s.present 8 h then .next s
  else
    let k := h.val * 32 + pc.val
    let n := tget 0 s.hbm.postp k
    if idle then .next (s.inHbm (fun x => { x with postp := tput 0 x.postp k 0 }))
    else
      let s1 := s.cnt64 (glbBgDeferCnt 0)
      if n = 4 then .next ((s1.cnt (glbBgForceCnt 0)).cnt (hbmStkRefreshLateCnt h))
      else .next (s1.inHbm (fun x => { x with postp := tput 0 x.postp k (n + 1) }))

/-- Units of a pseudo-channel: 36 GiB / 64 B / 32. -/
def scrubUnits : Nat := 18874368

/-- Passes that all of a stack's pseudo-channels have completed. -/
def State.scrubPasses (s : State) (h : Nat) : Nat :=
  (List.range 32).foldl (fun a pc => min a (tget 0 s.hbm.scrub (h * 32 + pc) / scrubUnits)) (2 ^ 64)

/-- A unit of a stack that cannot be corrected (R143, R146, R401): of the line store, POISON in the metadata of the line or of its
shadow way, which of the two being a free value; of the HBM directory, as an uncorrectable entry of the snoop filter. -/
def State.scrubLost (s : State) (area la : Nat) : State :=
  match area with
  | 0 => s.sfEntryUe (s.sfOf (bucket la)) (Config.dirHash la % 16384) (some la)
  | 1 =>
    let line := fun x : State => x.inHome (fun y => { y with lines := y.lines.map (fun (e : Nat × LsLine) => if e.1 = la then (e.1, { e.2 with poison := true }) else e) })
    let shadow := fun x : State => x.inHome (fun y => { y with shadow := y.shadow.map (fun (e : Nat × (Line × Bool)) => if e.1 = la then (e.1, (e.2.1, true)) else e) })
    if (tfind s.home.shadow la).isNone then line s
    else if (tfind s.home.lines la).isNone then shadow s
    else
      let (n, t) := s.draw
      if n % 2 = 0 then line t else shadow t
  | _ => s

/-- A unit that holds no line cannot be corrected (R146): of the spill area, the message whose cells lie there is poisoned; of the commit
log, its record reads as absent (R147). What else a stack holds has no metadata in the model: DESIGN CHOICE (log 250). -/
def State.scrubSpoilt (s : State) (h area addr : Nat) : State :=
  if area = 2 then
    let pg := 4 * (addr / 4096) + h
    let hit := fun (l : List (Nat × TMsg)) => (l.foldl (fun (a : List (Nat × TMsg) × Nat) x =>
      if x.1 = pg then (a.1 ++ [(x.1, if a.2 ≤ addr % 4096 / 64 ∧ addr % 4096 / 64 < a.2 + x.2.cells then { x.2 with poison := true } else x.2)], a.2 + x.2.cells)
      else (a.1 ++ [x], a.2)) ([], 0)).1
    s.inHbm (fun x => { x with spill := x.spill.map (fun e => (e.1, hit e.2)) })
  else if area = 3 ∧ addr / 64 < logRing ∧ h = s.fld hbmStatus 12 2 then s.logAbsent (addr / 64)
  else s

/-- The outcome of a scrub unit's read (R146). -/
def State.scrubRead (s : State) (h pc : Nat) (res : Fin 3) (la : Option Nat) (area : Nat) (addr : BitVec 64) : State :=
  let k := h * 32 + pc
  let s0 := s.inHbm (fun x => { x with scrub := tput 0 x.scrub k (tget 0 x.scrub k + 1), scrubAt := tput 0 x.scrubAt k (s.tick.loc.toNat + 1),
                                        scrubDef := tput 0 x.scrubDef k 0 })
  let s1 := (s0.setN (hbmStkScrubPass h) (s0.nreg (hbmStkScrubPass h) + (s0.scrubPasses h - s.scrubPasses h))).stkRead h 1
  match res.val with
  | 0 => s1
  | 1 =>
    let s2 := s1.cnt64 (hbmStkCeCnt h)
    match la with
    | none => s2.scrubBack h pc area addr.toNat
    | some l =>
      if s2.scrubHeld l then s2.inHbm (fun x => { x with ceWait := x.ceWait ++ [(l, h, pc, area, addr.toNat)] }) else s2.scrubBack h pc area addr.toNat
  | _ =>
    let s2 := match la with
      | some l => s1.scrubLost area l
      | none => s1.scrubSpoilt h area addr.toNat
    (s2.raise 0x0703 [.w h, .w pc, .w area, .q addr.toNat]).stackUe h

/-- PATROL_SCRUB_UNIT: the next unit of a pseudo-channel falls due. `idle`: its queue holds no foreground command; the read
is good, corrected or uncorrectable; `la` is the line of the unit, if it holds one (R146, R403). Paused while the stack is
HOT (R373). -/
def execPatrolScrubUnit (h : StackIx) (pc : Fin 32) (idle : Bool) (res : Fin 3) (la : Option Nat) (area : Fin 8) (addr : BitVec 64) (s : State) : Res :=
  let k := h.val * 32 + pc.val
  let iv := s.fld hbmScrubCtl 0 8
  let last := tget 0 s.hbm.scrubAt k
  let df := tget 0 s.hbm.scrubDef k
  let since := fun n : Nat => ticksSince (BitVec.ofNat 48 (n - 1)) s.tick.loc
  if !s.present 8 h || decide (iv = 0) || nbit (s.lvlMask 2 h) 1 || (decide (last ≠ 0) && decide (since last < iv)) then .next s
  else if idle then .next (s.scrubRead h pc res la area addr)
  else if df = 0 then .next ((s.cnt64 (glbBgDeferCnt 1)).inHbm (fun x => { x with scrubDef := tput 0 x.scrubDef k (s.tick.loc.toNat + 1) }))
  else if 4 * iv ≤ since df then .next ((s.cnt (glbBgForceCnt 1)).scrubRead h pc res la area addr)
  else .next s

end Sys2Proof.Machine
end

