-- ==== Sys2Proof/Machine/Dispatch.lean ====
section
/-! DEFINITION. The dispatch: one arm for each command. -/

namespace Sys2Proof.Machine

def exec (i : Instr) (s : State) : Host.Outcome State Fault Refusal :=
  match i with
  | .tickEdge tests cyc => Sys2Proof.Machine.execTickEdge tests cyc s
  | .guardPoint => Sys2Proof.Machine.execGuardPoint s
  | .syncReceive p m trim => Sys2Proof.Machine.execSyncReceive p m trim s
  | .masterLossTimeout => Sys2Proof.Machine.execMasterLossTimeout s
  | .adjustmentTickStart => Sys2Proof.Machine.execAdjustmentTickStart s
  | .tickStepped tests cyc => Sys2Proof.Machine.execTickStepped tests cyc s
  | .glbTickCtlMasterElig v => Sys2Proof.Machine.execGlbTickCtlMasterElig v s
  | .opWallclockMark q body => Sys2Proof.Machine.execOpWallclockMark q body s
  | .opUnitRetire q body => Sys2Proof.Machine.execOpUnitRetire q body s
  | .nalugPacketReceive k => Sys2Proof.Machine.execNalugPacketReceive k s
  | .mctpReassemblyTimeout src tag owner => Sys2Proof.Machine.execMctpReassemblyTimeout src tag owner s
  | .setEndpointId src eid => Sys2Proof.Machine.execSetEndpointId src eid s
  | .getEndpointId src => Sys2Proof.Machine.execGetEndpointId src s
  | .getMctpVersionSupport src => Sys2Proof.Machine.execGetMctpVersionSupport src s
  | .getMessageTypeSupport src => Sys2Proof.Machine.execGetMessageTypeSupport src s
  | .getVendorDefinedMessageSupport src => Sys2Proof.Machine.execGetVendorDefinedMessageSupport src s
  | .opIdentify q body => Sys2Proof.Machine.execOpIdentify q body s
  | .opRegRead q body => Sys2Proof.Machine.execOpRegRead q body s
  | .opRegWrite q body => Sys2Proof.Machine.execOpRegWrite q body s
  | .opSetModuleId q body => Sys2Proof.Machine.execOpSetModuleId q body s
  | .opReset q body => Sys2Proof.Machine.execOpReset q body s
  | .opLockAcquire q body => Sys2Proof.Machine.execOpLockAcquire q body s
  | .opLockRelease q body => Sys2Proof.Machine.execOpLockRelease q body s
  | .opLockQuery q body => Sys2Proof.Machine.execOpLockQuery q body s
  | .opStepPoll q body => Sys2Proof.Machine.execOpStepPoll q body s
  | .opStepResume q body => Sys2Proof.Machine.execOpStepResume q body s
  | .opEventConfig q body => Sys2Proof.Machine.execOpEventConfig q body s
  | .opEventLogRead q body => Sys2Proof.Machine.execOpEventLogRead q body s
  | .steppedCommandStep => Sys2Proof.Machine.execSteppedCommandStep s
  | .eventDrain => Sys2Proof.Machine.execEventDrain s
  | .glbEvPendWrite v => Sys2Proof.Machine.execGlbEvPendWrite v s
  | .smbusClockLowTimeout b => Sys2Proof.Machine.execSmbusClockLowTimeout b s
  | .i3cTargetReset b => Sys2Proof.Machine.execI3cTargetReset b s
  | .sbArbRetry b => Sys2Proof.Machine.execSbArbRetry b s
  | .pwrBrCmdWrite m vendor v => Sys2Proof.Machine.execPwrBrCmdWrite m vendor v s
  | .pwrBrDataRead m w => Sys2Proof.Machine.execPwrBrDataRead m w s
  | .bridgeTransactionDone cause data => Sys2Proof.Machine.execBridgeTransactionDone cause data s
  | .bridgeHoldLimit => Sys2Proof.Machine.execBridgeHoldLimit s
  | .bridgePollRound rs => Sys2Proof.Machine.execBridgePollRound rs s
  | .opPmbusRead q body => Sys2Proof.Machine.execOpPmbusRead q body s
  | .opPmbusWrite q body => Sys2Proof.Machine.execOpPmbusWrite q body s
  | .opTelemetryRead q body => Sys2Proof.Machine.execOpTelemetryRead q body s
  | .bootRomStart => Sys2Proof.Machine.execBootRomStart s
  | .recoveryBootStart => Sys2Proof.Machine.execRecoveryBootStart s
  | .bootWatchdogExpiry => Sys2Proof.Machine.execBootWatchdogExpiry s
  | .opFwWrite q body => Sys2Proof.Machine.execOpFwWrite q body s
  | .flashProgramDone fjx n ok => Sys2Proof.Machine.execFlashProgramDone fjx n ok s
  | .opFwCommit q body => Sys2Proof.Machine.execOpFwCommit q body s
  | .opFjxRead q body => Sys2Proof.Machine.execOpFjxRead q body s
  | .opFjxWrite q body => Sys2Proof.Machine.execOpFjxWrite q body s
  | .opFjxCommit q body => Sys2Proof.Machine.execOpFjxCommit q body s
  | .opLifecycleSet q body => Sys2Proof.Machine.execOpLifecycleSet q body s
  | .opDebugUnlock q body => Sys2Proof.Machine.execOpDebugUnlock q body s
  | .opMcSwitch q body => Sys2Proof.Machine.execOpMcSwitch q body s
  | .heartbeatTimeout => Sys2Proof.Machine.execHeartbeatTimeout s
  | .mcFatalFault c => Sys2Proof.Machine.execMcFatalFault c s
  | .checkpointStart => Sys2Proof.Machine.execCheckpointStart s
  | .checkpointSlice => Sys2Proof.Machine.execCheckpointSlice s
  | .mgtAcuCtlSelWrite t m lvl sel => Sys2Proof.Machine.execMgtAcuCtlSelWrite t m lvl sel s
  | .mgtAcuCtlLockWrite t m lvl => Sys2Proof.Machine.execMgtAcuCtlLockWrite t m lvl s
  | .registerWrite m lvl off bytes => Sys2Proof.Machine.execRegisterWrite m lvl off bytes s
  | .rcRegisterRead m lvl off n => Sys2Proof.Machine.execRcRegisterRead m lvl off n s
  | .counterLowWordRead m lvl off => Sys2Proof.Machine.execCounterLowWordRead m lvl off s
  | .seatPinsSeated => Sys2Proof.Machine.execSeatPinsSeated s
  | .seatPinChange a b => Sys2Proof.Machine.execSeatPinChange a b s
  | .seatDebounceExpiry => Sys2Proof.Machine.execSeatDebounceExpiry s
  | .onReqLow va vb vbus midA midB => Sys2Proof.Machine.execOnReqLow va vb vbus midA midB s
  | .faultOnReqCycle => Sys2Proof.Machine.execFaultOnReqCycle s
  | .inrushComplete => Sys2Proof.Machine.execInrushComplete s
  | .inrushTimeout => Sys2Proof.Machine.execInrushTimeout s
  | .inrushFeedLost => Sys2Proof.Machine.execInrushFeedLost s
  | .railGroupSettled g => Sys2Proof.Machine.execRailGroupSettled g s
  | .railGroupTimeout g => Sys2Proof.Machine.execRailGroupTimeout g s
  | .railFault g => Sys2Proof.Machine.execRailFault g s
  | .extraction => Sys2Proof.Machine.execExtraction s
  | .vbusUndervoltage => Sys2Proof.Machine.execVbusUndervoltage s
  | .onReqHigh => Sys2Proof.Machine.execOnReqHigh s
  | .opModuleOff q body => Sys2Proof.Machine.execOpModuleOff q body s
  | .pwrCtlOff => Sys2Proof.Machine.execPwrCtlOff s
  | .pwrCtlFeedAEn v => Sys2Proof.Machine.execPwrCtlFeedAEn v s
  | .pwrCtlFeedBEn v => Sys2Proof.Machine.execPwrCtlFeedBEn v s
  | .orderlyOffGroupDisable g => Sys2Proof.Machine.execOrderlyOffGroupDisable g s
  | .vbusDischarged => Sys2Proof.Machine.execVbusDischarged s
  | .feedOutOfRange f mv => Sys2Proof.Machine.execFeedOutOfRange f mv s
  | .feedInRange f mv => Sys2Proof.Machine.execFeedInRange f mv s
  | .oringTurnOff f => Sys2Proof.Machine.execOringTurnOff f s
  | .oringFail f => Sys2Proof.Machine.execOringFail f s
  | .cbTrip f ma => Sys2Proof.Machine.execCbTrip f ma s
  | .cbRetry f => Sys2Proof.Machine.execCbRetry f s
  | .passDamaged a b => Sys2Proof.Machine.execPassDamaged a b s
  | .keeperPowerOn => Sys2Proof.Machine.execKeeperPowerOn s
  | .pllLockLoss d => Sys2Proof.Machine.execPllLockLoss d s
  | .pllRelock d => Sys2Proof.Machine.execPllRelock d s
  | .tilePllRelockTimeout t => Sys2Proof.Machine.execTilePllRelockTimeout t s
  | .corePllRelockTimeout => Sys2Proof.Machine.execCorePllRelockTimeout s
  | .crossingEventDelivery x k => Sys2Proof.Machine.execCrossingEventDelivery x k s
  | .crossingTimeout x m off write req => Sys2Proof.Machine.execCrossingTimeout x m off write req s
  | .coldModuleReset fails => Sys2Proof.Machine.execColdModuleReset fails s
  | .warmModuleReset => Sys2Proof.Machine.execWarmModuleReset s
  | .warmResetDrainDone => Sys2Proof.Machine.execWarmResetDrainDone s
  | .tileReset t => Sys2Proof.Machine.execTileReset t s
  | .portReset p => Sys2Proof.Machine.execPortReset p s
  | .mortarHeaderUe => Sys2Proof.Machine.execMortarHeaderUe s
  | .sramUe st unit entry la => Sys2Proof.Machine.execSramUe st unit entry la s
  | .sfScrubSet b idle bad la => Sys2Proof.Machine.execSfScrubSet b idle bad la s
  | .hbmRefresh h pc idle => Sys2Proof.Machine.execHbmRefresh h pc idle s
  | .patrolScrubUnit h pc idle res la area addr => Sys2Proof.Machine.execPatrolScrubUnit h pc idle res la area addr s
  | .monitorSample temps volts => Sys2Proof.Machine.execMonitorSample temps volts s
  | .roMeasure khz => Sys2Proof.Machine.execRoMeasure khz s
  | .pmcConfigWrite tile c k v => Sys2Proof.Machine.execPmcConfigWrite tile c k v s
  | .pmcCntWrite tile c v => Sys2Proof.Machine.execPmcCntWrite tile c v s
  | .bwWindowEnd cxl => Sys2Proof.Machine.execBwWindowEnd cxl s
  | .dumpWriteUnit good => Sys2Proof.Machine.execDumpWriteUnit good s
  | .latencyRecordWrite => Sys2Proof.Machine.execLatencyRecordWrite s
  | .auditGo v => Sys2Proof.Machine.execAuditGo v s
  | .auditCheck => Sys2Proof.Machine.execAuditCheck s
  | .auditTimeout => Sys2Proof.Machine.execAuditTimeout s
  | .mortarBeatGrant d => Sys2Proof.Machine.execMortarBeatGrant d s
  | .tileMessageAccept p m => Sys2Proof.Machine.execTileMessageAccept p m s
  | .spillFetch p c egress => Sys2Proof.Machine.execSpillFetch p c egress s
  | .holdListRelease t fc src => Sys2Proof.Machine.execHoldListRelease t fc src s
  | .calendarSlotDue t fc src => Sys2Proof.Machine.execCalendarSlotDue t fc src s
  | .egressDrrTurn p credit => Sys2Proof.Machine.execEgressDrrTurn p credit s
  | .messageAged p c egress => Sys2Proof.Machine.execMessageAged p c egress s
  | .opQosFlowSet q body => Sys2Proof.Machine.execOpQosFlowSet q body s
  | .opQosFlowClear q body => Sys2Proof.Machine.execOpQosFlowClear q body s
  | .flowChangeApply => Sys2Proof.Machine.execFlowChangeApply s
  | .opQosReserve q body => Sys2Proof.Machine.execOpQosReserve q body s
  | .opQosRelease q body => Sys2Proof.Machine.execOpQosRelease q body s
  | .opQosTargetSet q body => Sys2Proof.Machine.execOpQosTargetSet q body s
  | .tlQosCtlWrite t v => Sys2Proof.Machine.execTlQosCtlWrite t v s
  | .qosModeChange t => Sys2Proof.Machine.execQosModeChange t s
  | .qosRescale tgt => Sys2Proof.Machine.execQosRescale tgt s
  | .homeRds r => Sys2Proof.Machine.execHomeRds r s
  | .homeRda r => Sys2Proof.Machine.execHomeRda r s
  | .homeRdown r => Sys2Proof.Machine.execHomeRdown r s
  | .homeNcr r => Sys2Proof.Machine.execHomeNcr r s
  | .homeNcw r => Sys2Proof.Machine.execHomeNcw r s
  | .homeWb r => Sys2Proof.Machine.execHomeWb r s
  | .homeCe r => Sys2Proof.Machine.execHomeCe r s
  | .memspecrd r => Sys2Proof.Machine.execMemspecrd r s
  | .clflush r => Sys2Proof.Machine.execClflush r s
  | .biconflict fid la => Sys2Proof.Machine.execBiconflict fid la s
  | .snoopResponse la a => Sys2Proof.Machine.execSnoopResponse la a s
  | .sfLookupDone k => Sys2Proof.Machine.execSfLookupDone k s
  | .deviceReadComplete rid d poison => Sys2Proof.Machine.execDeviceReadComplete rid d poison s
  | .lineStoreWriteAck la => Sys2Proof.Machine.execLineStoreWriteAck la s
  | .lineQueueAdvance la => Sys2Proof.Machine.execLineQueueAdvance la s
  | .lsVictimWriteDone la => Sys2Proof.Machine.execLsVictimWriteDone la s
  | .blanketWindowEnd => Sys2Proof.Machine.execBlanketWindowEnd s
  | .blanketEnter d => Sys2Proof.Machine.execBlanketEnter d s
  | .exitWalkStart d => Sys2Proof.Machine.execExitWalkStart d s
  | .exitWalkStep d => Sys2Proof.Machine.execExitWalkStep d s
  | .blanketExit d => Sys2Proof.Machine.execBlanketExit d s
  | .snoopTimeout k fid => Sys2Proof.Machine.execSnoopTimeout k fid s
  | .opSliceAssign q body => Sys2Proof.Machine.execOpSliceAssign q body s
  | .opSliceRelease q body => Sys2Proof.Machine.execOpSliceRelease q body s
  | .opDomainCreate q body => Sys2Proof.Machine.execOpDomainCreate q body s
  | .opDomainAgentAdd q body => Sys2Proof.Machine.execOpDomainAgentAdd q body s
  | .opDomainAgentRemove q body => Sys2Proof.Machine.execOpDomainAgentRemove q body s
  | .opDomainTeardown q body => Sys2Proof.Machine.execOpDomainTeardown q body s
  | .opVcsCreate q body => Sys2Proof.Machine.execOpVcsCreate q body s
  | .opVcsDestroy q body => Sys2Proof.Machine.execOpVcsDestroy q body s
  | .opVcsVppbBind q body => Sys2Proof.Machine.execOpVcsVppbBind q body s
  | .opVcsVppbUnbind q body => Sys2Proof.Machine.execOpVcsVppbUnbind q body s
  | .opBind q body => Sys2Proof.Machine.execOpBind q body s
  | .opUnbind q body => Sys2Proof.Machine.execOpUnbind q body s
  | .opRebind q body => Sys2Proof.Machine.execOpRebind q body s
  | .opDirRebuild q body => Sys2Proof.Machine.execOpDirRebuild q body s
  | .unbindDrainDone k => Sys2Proof.Machine.execUnbindDrainDone k s
  | .walkStep k => Sys2Proof.Machine.execWalkStep k s
  | .ptEdgeIdWrite p ld v => Sys2Proof.Machine.execPtEdgeIdWrite p ld v s
  | .hamperPortEntryWrite v k off b => Sys2Proof.Machine.execHamperPortEntryWrite v k off b s
  | .hamperPortHeaderWrite v k off b => Sys2Proof.Machine.execHamperPortHeaderWrite v k off b s
  | .hmpSlotAck v k => Sys2Proof.Machine.execHmpSlotAck v k s
  | .hpartReceive m => Sys2Proof.Machine.execHpartReceive m s
  | .hamperArbitration => Sys2Proof.Machine.execHamperArbitration s
  | .hamperLineAcquire key ix => Sys2Proof.Machine.execHamperLineAcquire key ix s
  | .hamperVoteSend key => Sys2Proof.Machine.execHamperVoteSend key s
  | .hvoteReceive m => Sys2Proof.Machine.execHvoteReceive m s
  | .hamperDecide => Sys2Proof.Machine.execHamperDecide s
  | .commitLogWriteAck key type => Sys2Proof.Machine.execCommitLogWriteAck key type s
  | .hdecideReceive m => Sys2Proof.Machine.execHdecideReceive m s
  | .hquerySend key => Sys2Proof.Machine.execHquerySend key s
  | .hqueryReceive m => Sys2Proof.Machine.execHqueryReceive m s
  | .hanswerReceive m => Sys2Proof.Machine.execHanswerReceive m s
  | .hamperIndoubtPoison key => Sys2Proof.Machine.execHamperIndoubtPoison key s
  | .indoubtRecordRewrite key => Sys2Proof.Machine.execIndoubtRecordRewrite key s
  | .hmpTimingWrite second v => Sys2Proof.Machine.execHmpTimingWrite second v s
  | .hbmBurstArrival h pc slot attempt half quality => Sys2Proof.Machine.execHbmBurstArrival h pc slot attempt half quality s
  | .pairingHoldExpiry h pc slot => Sys2Proof.Machine.execPairingHoldExpiry h pc slot s
  | .hbmStackRetire h => Sys2Proof.Machine.execHbmStackRetire h s
  | .mirrorCopyUnit => Sys2Proof.Machine.execMirrorCopyUnit s
  | .insDoorbellWrite ix tail => Sys2Proof.Machine.execInsDoorbellWrite ix tail s
  | .ringEnable ix ext => Sys2Proof.Machine.execRingEnable ix ext s
  | .ringDisable ix => Sys2Proof.Machine.execRingDisable ix s
  | .ringUnitFetch ix data => Sys2Proof.Machine.execRingUnitFetch ix data s
  | .nop ix ext => Sys2Proof.Machine.execNop ix ext s
  | .copy ix ext => Sys2Proof.Machine.execCopy ix ext s
  | .fill ix ext => Sys2Proof.Machine.execFill ix ext s
  | .compare ix ext => Sys2Proof.Machine.execCompare ix ext s
  | .crc32c ix ext => Sys2Proof.Machine.execCrc32c ix ext s
  | .reduce ix ext => Sys2Proof.Machine.execReduce ix ext s
  | .pageMove ix ext => Sys2Proof.Machine.execPageMove ix ext s
  | .hamper ix rec ext => Sys2Proof.Machine.execHamper ix rec ext s
  | .check fid tag slice off rights len => Sys2Proof.Machine.execCheck fid tag slice off rights len s
  | .jobStepBoundary ix rd bad => Sys2Proof.Machine.execJobStepBoundary ix rd bad s
  | .jobComplete ix good => Sys2Proof.Machine.execJobComplete ix good s
  | .hamperEntryOutcome ix => Sys2Proof.Machine.execHamperEntryOutcome ix s
  | .headPublish ix good => Sys2Proof.Machine.execHeadPublish ix good s
  | .refetch ix => Sys2Proof.Machine.execRefetch ix s
  | .atsInvalidation ix used => Sys2Proof.Machine.execAtsInvalidation ix used s
  | .pageMoveStepDone ix => Sys2Proof.Machine.execPageMoveStepDone ix s
  | .opInsBind q body => Sys2Proof.Machine.execOpInsBind q body s
  | .opInsUnbind q body => Sys2Proof.Machine.execOpInsUnbind q body s
  | .opInsSetRate q body => Sys2Proof.Machine.execOpInsSetRate q body s
  | .opInsReset q body => Sys2Proof.Machine.execOpInsReset q body s
  | .instanceWindowAccess v ix off wr n ext => Sys2Proof.Machine.execInstanceWindowAccess v ix off wr n ext s
  | .insIrqCtlWrite ix v => Sys2Proof.Machine.execInsIrqCtlWrite ix v s
  | .t2mSend ix => Sys2Proof.Machine.execT2mSend ix s
  | .t2mAck ix => Sys2Proof.Machine.execT2mAck ix s
  | .m2tSend ix => Sys2Proof.Machine.execM2tSend ix s
  | .m2tAck ix => Sys2Proof.Machine.execM2tAck ix s
  | .mailboxBufferWrite ix tenant m2t off b => Sys2Proof.Machine.execMailboxBufferWrite ix tenant m2t off b s
  | .shareChange => Sys2Proof.Machine.execShareChange s
  | .linkBringupStart p => Sys2Proof.Machine.execLinkBringupStart p s
  | .ptFlCtlEnWrite p v => Sys2Proof.Machine.execPtFlCtlEnWrite p v s
  | .ptFlCtlRateWrite p v => Sys2Proof.Machine.execPtFlCtlRateWrite p v s
  | .lanesLocked p => Sys2Proof.Machine.execLanesLocked p s
  | .laneAssignment p b1 b2 => Sys2Proof.Machine.execLaneAssignment p b1 b2 s
  | .alignDone p m => Sys2Proof.Machine.execAlignDone p m s
  | .initReceive p ix => Sys2Proof.Machine.execInitReceive p ix s
  | .linkTrainTimeout p => Sys2Proof.Machine.execLinkTrainTimeout p s
  | .linkTrainRetry p => Sys2Proof.Machine.execLinkTrainRetry p s
  | .downFlitReceive p cause => Sys2Proof.Machine.execDownFlitReceive p cause s
  | .markersMissed p => Sys2Proof.Machine.execMarkersMissed p s
  | .linkErrorLimit p => Sys2Proof.Machine.execLinkErrorLimit p s
  | .flitReceive p cwOk cw corr b => Sys2Proof.Machine.execFlitReceive p cwOk cw corr b s
  | .replayTimerExpiry p => Sys2Proof.Machine.execReplayTimerExpiry p s
  | .nakRepeatTimer p => Sys2Proof.Machine.execNakRepeatTimer p s
  | .linkMessageSend p cls len => Sys2Proof.Machine.execLinkMessageSend p cls len s
  | .creditFlitReceive p totals => Sys2Proof.Machine.execCreditFlitReceive p totals s
  | .creditFlitSend p => Sys2Proof.Machine.execCreditFlitSend p s
  | .creqReceive p h hev rights slice off mask data => Sys2Proof.Machine.execCreqReceive p h hev rights slice off mask data s
  | .crspReceive p h status reason grant data => Sys2Proof.Machine.execCrspReceive p h status reason grant data s
  | .snpReceive p h kind slice off home => Sys2Proof.Machine.execSnpReceive p h kind slice off home s
  | .snprspReceive p h rsp data => Sys2Proof.Machine.execSnprspReceive p h rsp data s
  | .ioMessageReceive p h bytes expect unit => Sys2Proof.Machine.execIoMessageReceive p h bytes expect unit s
  | .mctpMessageReceive p h bytes => Sys2Proof.Machine.execMctpMessageReceive p h bytes s
  | .remoteRequestTimeout tag => Sys2Proof.Machine.execRemoteRequestTimeout tag s
  | .delayReqSend p cyc sx => Sys2Proof.Machine.execDelayReqSend p cyc sx s
  | .delayReqReceive p t1 id cyc2 sx2 cyc3 sx3 => Sys2Proof.Machine.execDelayReqReceive p t1 id cyc2 sx2 cyc3 sx3 s
  | .delayRspReceive p t1 t2 t3 id cyc sx => Sys2Proof.Machine.execDelayRspReceive p t1 t2 t3 id cyc sx s
  | .laneCeThreshold p g => Sys2Proof.Machine.execLaneCeThreshold p g s
  | .spareReqReceive p g rot => Sys2Proof.Machine.execSpareReqReceive p g rot s
  | .spareReadyReceive p g => Sys2Proof.Machine.execSpareReadyReceive p g s
  | .spareRepeatTimer p => Sys2Proof.Machine.execSpareRepeatTimer p s
  | .spareDwellEnd p period cw => Sys2Proof.Machine.execSpareDwellEnd p period cw s
  | .spareSwitchPoint p => Sys2Proof.Machine.execSpareSwitchPoint p s
  | .spareSwitchReceive p period cw => Sys2Proof.Machine.execSpareSwitchReceive p period cw s
  | .spareDoneReceive p => Sys2Proof.Machine.execSpareDoneReceive p s
  | .spareAbortReceive p => Sys2Proof.Machine.execSpareAbortReceive p s
  | .spareBackReceive p => Sys2Proof.Machine.execSpareBackReceive p s
  | .spareLockTimeout p => Sys2Proof.Machine.execSpareLockTimeout p s
  | .rotationInterval p => Sys2Proof.Machine.execRotationInterval p s
  | .recalibrationDone p period cw => Sys2Proof.Machine.execRecalibrationDone p period cw s
  | .quietEnter p => Sys2Proof.Machine.execQuietEnter p s
  | .sleepIdleTimer p => Sys2Proof.Machine.execSleepIdleTimer p s
  | .sleepReqReceive p => Sys2Proof.Machine.execSleepReqReceive p s
  | .sleepAckReceive p => Sys2Proof.Machine.execSleepAckReceive p s
  | .sleepNakReceive p => Sys2Proof.Machine.execSleepNakReceive p s
  | .sleepCancelReceive p => Sys2Proof.Machine.execSleepCancelReceive p s
  | .wakeReceive p => Sys2Proof.Machine.execWakeReceive p s
  | .sleepWakeEvent p => Sys2Proof.Machine.execSleepWakeEvent p s
  | .sleepResponderTimeout p => Sys2Proof.Machine.execSleepResponderTimeout p s
  | .sleepExitDone p ok => Sys2Proof.Machine.execSleepExitDone p ok s
  | .expanderScan t b0 b1 => Sys2Proof.Machine.execExpanderScan t b0 b1 s
  | .cxlPresenceAccepted p => Sys2Proof.Machine.execCxlPresenceAccepted p s
  | .cxlPresenceLost p => Sys2Proof.Machine.execCxlPresenceLost p s
  | .cxlButtonAccepted p => Sys2Proof.Machine.execCxlButtonAccepted p s
  | .buttonWaitTimer p => Sys2Proof.Machine.execButtonWaitTimer p s
  | .cxlLinkUp p ix => Sys2Proof.Machine.execCxlLinkUp p ix s
  | .cxlTrainTimeout p => Sys2Proof.Machine.execCxlTrainTimeout p s
  | .cxlTrainRetry p => Sys2Proof.Machine.execCxlTrainRetry p s
  | .cxlRecovery p => Sys2Proof.Machine.execCxlRecovery p s
  | .cxlLinkDown p cause => Sys2Proof.Machine.execCxlLinkDown p cause s
  | .cxlDownTicksExpiry p => Sys2Proof.Machine.execCxlDownTicksExpiry p s
  | .cxlUncorrectableError p => Sys2Proof.Machine.execCxlUncorrectableError p s
  | .ptCxCtlRetrain p force => Sys2Proof.Machine.execPtCxCtlRetrain p force s
  | .ptCxCtlDpcRelease p => Sys2Proof.Machine.execPtCxCtlDpcRelease p s
  | .ptCxCtlEnWrite p v => Sys2Proof.Machine.execPtCxCtlEnWrite p v s
  | .ptCxCtlMgmtFnWrite p v => Sys2Proof.Machine.execPtCxCtlMgmtFnWrite p v s
  | .vppbDpcRelease v k => Sys2Proof.Machine.execVppbDpcRelease v k s
  | .ptCxHpCtlRemoveOk p => Sys2Proof.Machine.execPtCxHpCtlRemoveOk p s
  | .ptCxHpCtlCancel p => Sys2Proof.Machine.execPtCxHpCtlCancel p s
  | .hostSlotControlWrite v k pwr attn off => Sys2Proof.Machine.execHostSlotControlWrite v k pwr attn off s
  | .opPortMode q body => Sys2Proof.Machine.execOpPortMode q body s
  | .opPortMerge q body => Sys2Proof.Machine.execOpPortMerge q body s
  | .identifySwitchDevice src => Sys2Proof.Machine.execIdentifySwitchDevice src s
  | .getPhysicalPortState src ports => Sys2Proof.Machine.execGetPhysicalPortState src ports s
  | .physicalPortControl src port op => Sys2Proof.Machine.execPhysicalPortControl src port op s
  | .sendPpbCxlIoConfigurationRequest src port b => Sys2Proof.Machine.execSendPpbCxlIoConfigurationRequest src port b s
  | .getVirtualCxlSwitchInfo src v => Sys2Proof.Machine.execGetVirtualCxlSwitchInfo src v s
  | .bindVppb src v k port ld => Sys2Proof.Machine.execBindVppb src v k port ld s
  | .unbindVppb src v k => Sys2Proof.Machine.execUnbindVppb src v k s
  | .generateAerEvent src v k => Sys2Proof.Machine.execGenerateAerEvent src v k s
  | .tunnelManagementCommand src port b => Sys2Proof.Machine.execTunnelManagementCommand src port b s
  | .sendLdCxlIoConfigurationRequest src port ld b => Sys2Proof.Machine.execSendLdCxlIoConfigurationRequest src port ld b s
  | .sendLdCxlIoMemoryRequest src port ld b => Sys2Proof.Machine.execSendLdCxlIoMemoryRequest src port ld b s
  | .fmApiUnsupported src opcode => Sys2Proof.Machine.execFmApiUnsupported src opcode s
  | .laneReceiverDetected p l => Sys2Proof.Machine.execLaneReceiverDetected p l s
  | .laneDetectTimeout p l => Sys2Proof.Machine.execLaneDetectTimeout p l s
  | .lanePatternFound p l inv blocks => Sys2Proof.Machine.execLanePatternFound p l inv blocks s
  | .laneIdentTimeout p l => Sys2Proof.Machine.execLaneIdentTimeout p l s
  | .laneSweepDwellEnd p l height => Sys2Proof.Machine.execLaneSweepDwellEnd p l height s
  | .laneDfeSettled p l settled d0 d1 => Sys2Proof.Machine.execLaneDfeSettled p l settled d0 d1 s
  | .laneCheckPass p l heights => Sys2Proof.Machine.execLaneCheckPass p l heights s
  | .laneCheckTimeout p l => Sys2Proof.Machine.execLaneCheckTimeout p l s
  | .laneStandbyEnter p l => Sys2Proof.Machine.execLaneStandbyEnter p l s
  | .laneRelockRequest p l => Sys2Proof.Machine.execLaneRelockRequest p l s
  | .laneRelockDone p l => Sys2Proof.Machine.execLaneRelockDone p l s
  | .laneRelockTimeout p l => Sys2Proof.Machine.execLaneRelockTimeout p l s
  | .laneLossOfSignal p l => Sys2Proof.Machine.execLaneLossOfSignal p l s
  | .laneCdrLoss p l => Sys2Proof.Machine.execLaneCdrLoss p l s
  | .eyeMeasurement p l height width => Sys2Proof.Machine.execEyeMeasurement p l height width s
  | .peakingTrackStep p l up => Sys2Proof.Machine.execPeakingTrackStep p l up s
  | .lnTestCtlGenEn p l v => Sys2Proof.Machine.execLnTestCtlGenEn p l v s
  | .lnTestCtlChkEn p l v => Sys2Proof.Machine.execLnTestCtlChkEn p l v s
  | .lnTestCtlInjOne p l v => Sys2Proof.Machine.execLnTestCtlInjOne p l v s
  | .checkerSync p l reg => Sys2Proof.Machine.execCheckerSync p l reg s
  | .checkerSyncLost p l n wrong => Sys2Proof.Machine.execCheckerSyncLost p l n wrong s
  | .lnMarginCtlGo p l v => Sys2Proof.Machine.execLnMarginCtlGo p l v s
  | .marginDone p l errors => Sys2Proof.Machine.execMarginDone p l errors s
  | .pcieMarginingCommand p l run => Sys2Proof.Machine.execPcieMarginingCommand p l run s
  | .keeperSupplyLost => Sys2Proof.Machine.execKeeperSupplyLost s
  | .sidebandBusSupplyLoss b => Sys2Proof.Machine.execSidebandBusSupplyLoss b s
  | .i3cEntdaa b addr => Sys2Proof.Machine.execI3cEntdaa b addr s
  | .hdmDecoderWrite v base ig iw => Sys2Proof.Machine.execHdmDecoderWrite v base ig iw s
  | .deviceWriteComplete la => Sys2Proof.Machine.execDeviceWriteComplete la s
  | .rxElectricalIdleDetect p => Sys2Proof.Machine.execRxElectricalIdleDetect p s
  | .pseudoChannelRetrainFail h pc => Sys2Proof.Machine.execPseudoChannelRetrainFail h pc s

end Sys2Proof.Machine
end

