-- ==== Sys2Proof/WellFormed.lean ====
section
/-! DEFINITION. Which terms of Instr are commands: the lengths and ranges that the rows of the operation table give their
operands, where the operand's type does not already say it. -/

namespace Sys2Proof

/-- A Nalug body: header and body are at most 4,096 B (R315). -/
def bodyOk (b : List Byte) : Bool := decide (b.length ≤ 4080)

/-- A register access has at least one byte and stays within one 4 KiB page. -/
def accessLen (n : Nat) : Bool := decide (0 < n) && decide (n ≤ 4096)

/-- A tile has 64 performance counters, the module 128 (R376). -/
def pmcExists (tile : Option TileIx) (c : Fin 128) : Bool := tile.isNone || decide (c.val < 64)

/-- A line number: slice (18 bits) and line within the slice (22 bits). -/
def lineOk (la : Nat) : Bool := decide (la < 2 ^ 40)

/-- A hamper message carries at most 32 lines (R104). -/
def hmsgOk (m : HMsg) : Bool := decide (m.lines.length ≤ 32)

/-- The reasons that refusals from outside can have: those of R57 and R58, a device's or a translation's, and for a hamper's record also
a poisoned or timed-out read. -/
def extOk (top : Nat) (ext : List (Nat × Nat × Nat)) : Bool := ext.all (fun x => decide (x.2.2 ≤ top))

/-- Units of a kind (R315). -/
def unitsOf : Fin 12 → Nat := fun k => [1, 12, 192, 960, 16, 16, 64, 4, 4, 1024, 21, 2].getD k.val 0

/-- A unit that a self-test can fail. -/
def selfTestUnit (k : Fin 12) (i : Nat) : Bool := decide (i < unitsOf k)

/-- The term is a command of the operation table. -/
def Instr.wellFormed : Instr → Bool
  | .tickEdge .. => true
  | .guardPoint => true
  | .syncReceive .. => true
  | .masterLossTimeout => true
  | .adjustmentTickStart => true
  | .tickStepped .. => true
  | .glbTickCtlMasterElig .. => true
  | .opWallclockMark _ body => bodyOk body
  | .opUnitRetire _ body => bodyOk body
  | .nalugPacketReceive k => decide (k.payload.length ≤ 4096)
  | .mctpReassemblyTimeout .. => true
  | .setEndpointId .. => true
  | .getEndpointId .. => true
  | .getMctpVersionSupport .. => true
  | .getMessageTypeSupport .. => true
  | .getVendorDefinedMessageSupport .. => true
  | .opIdentify _ body => bodyOk body
  | .opRegRead _ body => bodyOk body
  | .opRegWrite _ body => bodyOk body
  | .opSetModuleId _ body => bodyOk body
  | .opReset _ body => bodyOk body
  | .opLockAcquire _ body => bodyOk body
  | .opLockRelease _ body => bodyOk body
  | .opLockQuery _ body => bodyOk body
  | .opStepPoll _ body => bodyOk body
  | .opStepResume _ body => bodyOk body
  | .opEventConfig _ body => bodyOk body
  | .opEventLogRead _ body => bodyOk body
  | .steppedCommandStep => true
  | .eventDrain => true
  | .glbEvPendWrite .. => true
  | .smbusClockLowTimeout .. => true
  | .i3cTargetReset .. => true
  | .sbArbRetry .. => true
  | .pwrBrCmdWrite .. => true
  | .pwrBrDataRead .. => true
  | .bridgeTransactionDone _ data => decide (data.length ≤ 32)
  | .bridgeHoldLimit => true
  | .bridgePollRound .. => true
  | .opPmbusRead _ body => bodyOk body
  | .opPmbusWrite _ body => bodyOk body
  | .opTelemetryRead _ body => bodyOk body
  | .bootRomStart => true
  | .recoveryBootStart => true
  | .bootWatchdogExpiry => true
  | .opFwWrite _ body => bodyOk body
  | .flashProgramDone .. => true
  | .opFwCommit _ body => bodyOk body
  | .opFjxRead _ body => bodyOk body
  | .opFjxWrite _ body => bodyOk body
  | .opFjxCommit _ body => bodyOk body
  | .opLifecycleSet _ body => bodyOk body
  | .opDebugUnlock _ body => bodyOk body
  | .opMcSwitch _ body => bodyOk body
  | .heartbeatTimeout => true
  | .mcFatalFault .. => true
  | .checkpointStart => true
  | .checkpointSlice => true
  | .mgtAcuCtlSelWrite .. => true
  | .mgtAcuCtlLockWrite .. => true
  | .registerWrite _ _ _ bytes => accessLen bytes.length
  | .rcRegisterRead _ _ _ n => accessLen n
  | .counterLowWordRead .. => true
  | .seatPinsSeated => true
  | .seatPinChange .. => true
  | .seatDebounceExpiry => true
  | .onReqLow .. => true
  | .faultOnReqCycle => true
  | .inrushComplete => true
  | .inrushTimeout => true
  | .inrushFeedLost => true
  | .railGroupSettled .. => true
  | .railGroupTimeout .. => true
  | .railFault .. => true
  | .extraction => true
  | .vbusUndervoltage => true
  | .onReqHigh => true
  | .opModuleOff _ body => bodyOk body
  | .pwrCtlOff => true
  | .pwrCtlFeedAEn .. => true
  | .pwrCtlFeedBEn .. => true
  | .orderlyOffGroupDisable .. => true
  | .vbusDischarged => true
  | .feedOutOfRange _ mv => decide (mv < 2 ^ 32)
  | .feedInRange _ mv => decide (mv < 2 ^ 32)
  | .oringTurnOff .. => true
  | .oringFail .. => true
  | .cbTrip _ ma => decide (ma < 2 ^ 32)
  | .cbRetry .. => true
  | .passDamaged .. => true
  | .keeperPowerOn => true
  | .pllLockLoss .. => true
  | .pllRelock .. => true
  | .tilePllRelockTimeout .. => true
  | .corePllRelockTimeout => true
  | .crossingEventDelivery .. => true
  | .crossingTimeout .. => true
  | .coldModuleReset fails => fails.all (fun f => selfTestUnit f.1 f.2)
  | .warmModuleReset => true
  | .warmResetDrainDone => true
  | .tileReset .. => true
  | .portReset .. => true
  | .mortarHeaderUe => true
  | .sramUe .. => true
  | .sfScrubSet .. => true
  | .hbmRefresh .. => true
  | .patrolScrubUnit .. => true
  | .monitorSample temps volts => decide (temps.length = 20) && decide (volts.length = 12)
  | .roMeasure khz => decide (khz.length = 8)
  | .pmcConfigWrite tile c _ _ => pmcExists tile c
  | .pmcCntWrite tile c _ => pmcExists tile c
  | .bwWindowEnd .. => true
  | .dumpWriteUnit .. => true
  | .latencyRecordWrite => true
  | .auditGo .. => true
  | .auditCheck => true
  | .auditTimeout => true
  | .mortarBeatGrant .. => true
  | .tileMessageAccept _ m => decide (m.bytes ≤ 4096)
  | .spillFetch .. => true
  | .holdListRelease .. => true
  | .calendarSlotDue .. => true
  | .egressDrrTurn .. => true
  | .messageAged .. => true
  | .opQosFlowSet _ body => bodyOk body
  | .opQosFlowClear _ body => bodyOk body
  | .flowChangeApply => true
  | .opQosReserve _ body => bodyOk body
  | .opQosRelease _ body => bodyOk body
  | .opQosTargetSet _ body => bodyOk body
  | .tlQosCtlWrite .. => true
  | .qosModeChange .. => true
  | .qosRescale .. => true
  | .homeRds .. => true
  | .homeRda .. => true
  | .homeRdown .. => true
  | .homeNcr .. => true
  | .homeNcw .. => true
  | .homeWb .. => true
  | .homeCe .. => true
  | .memspecrd .. => true
  | .clflush .. => true
  | .biconflict _ la => lineOk la
  | .snoopResponse la _ => lineOk la
  | .sfLookupDone .. => true
  | .deviceReadComplete .. => true
  | .lineStoreWriteAck la => lineOk la
  | .lineQueueAdvance la => lineOk la
  | .lsVictimWriteDone la => lineOk la
  | .blanketWindowEnd => true
  | .blanketEnter .. => true
  | .exitWalkStart .. => true
  | .exitWalkStep .. => true
  | .blanketExit .. => true
  | .snoopTimeout .. => true
  | .opSliceAssign _ body => bodyOk body
  | .opSliceRelease _ body => bodyOk body
  | .opDomainCreate _ body => bodyOk body
  | .opDomainAgentAdd _ body => bodyOk body
  | .opDomainAgentRemove _ body => bodyOk body
  | .opDomainTeardown _ body => bodyOk body
  | .opVcsCreate _ body => bodyOk body
  | .opVcsDestroy _ body => bodyOk body
  | .opVcsVppbBind _ body => bodyOk body
  | .opVcsVppbUnbind _ body => bodyOk body
  | .opBind _ body => bodyOk body
  | .opUnbind _ body => bodyOk body
  | .opRebind _ body => bodyOk body
  | .opDirRebuild _ body => bodyOk body
  | .unbindDrainDone .. => true
  | .walkStep .. => true
  | .ptEdgeIdWrite .. => true
  | .hamperPortEntryWrite _ _ _ b => decide (0 < b.length)
  | .hamperPortHeaderWrite _ _ _ b => decide (0 < b.length)
  | .hmpSlotAck .. => true
  | .hpartReceive m => hmsgOk m
  | .hamperArbitration => true
  | .hamperLineAcquire .. => true
  | .hamperVoteSend .. => true
  | .hvoteReceive m => hmsgOk m
  | .hamperDecide => true
  | .commitLogWriteAck .. => true
  | .hdecideReceive m => hmsgOk m
  | .hquerySend .. => true
  | .hqueryReceive m => hmsgOk m
  | .hanswerReceive m => hmsgOk m
  | .hamperIndoubtPoison .. => true
  | .indoubtRecordRewrite .. => true
  | .hmpTimingWrite .. => true
  | .hbmBurstArrival .. => true
  | .pairingHoldExpiry .. => true
  | .hbmStackRetire .. => true
  | .mirrorCopyUnit => true
  | .insDoorbellWrite .. => true
  | .ringEnable _ ext => extOk 7 ext
  | .ringDisable .. => true
  | .ringUnitFetch _ data => match data with | some b => decide (b.length = 32) | none => true
  | .nop _ ext => extOk 7 ext
  | .copy _ ext => extOk 7 ext
  | .fill _ ext => extOk 7 ext
  | .compare _ ext => extOk 7 ext
  | .crc32c _ ext => extOk 7 ext
  | .reduce _ ext => extOk 7 ext
  | .pageMove _ ext => extOk 7 ext
  | .hamper _ r ext => decide (r.length = 32 + 80 * (r.getD 1 0).toNat) && extOk 9 ext
  | .check .. => true
  | .jobStepBoundary .. => true
  | .jobComplete .. => true
  | .hamperEntryOutcome .. => true
  | .headPublish .. => true
  | .refetch .. => true
  | .atsInvalidation .. => true
  | .pageMoveStepDone .. => true
  | .opInsBind _ body => bodyOk body
  | .opInsUnbind _ body => bodyOk body
  | .opInsSetRate _ body => bodyOk body
  | .opInsReset _ body => bodyOk body
  | .instanceWindowAccess _ _ _ wr n ext => (match wr with | some b => decide (b.length = n) | none => decide (0 < n)) && extOk 7 ext
  | .insIrqCtlWrite .. => true
  | .t2mSend .. => true
  | .t2mAck .. => true
  | .m2tSend .. => true
  | .m2tAck .. => true
  | .mailboxBufferWrite _ _ _ _ b => decide (0 < b.length)
  | .shareChange => true
  | .linkBringupStart .. => true
  | .ptFlCtlEnWrite .. => true
  | .ptFlCtlRateWrite .. => true
  | .lanesLocked .. => true
  | .laneAssignment .. => true
  | .alignDone _ m => decide (m.length = 4)
  | .initReceive .. => true
  | .linkTrainTimeout .. => true
  | .linkTrainRetry .. => true
  | .downFlitReceive .. => true
  | .markersMissed .. => true
  | .linkErrorLimit .. => true
  | .flitReceive _ _ _ corr b => decide (corr.length = 0 ∨ corr.length = 4) && decide (b.length = 128)
  | .replayTimerExpiry .. => true
  | .nakRepeatTimer .. => true
  | .linkMessageSend _ _ len => decide (len ≤ 4096)
  | .creditFlitReceive _ totals => decide (totals.length = 9)
  | .creditFlitSend .. => true
  | .creqReceive .. => true
  | .crspReceive .. => true
  | .snpReceive .. => true
  | .snprspReceive .. => true
  | .ioMessageReceive _ _ bytes _ _ => decide (bytes ≤ 4096)
  | .mctpMessageReceive _ _ bytes => decide (bytes ≤ 4096)
  | .remoteRequestTimeout .. => true
  | .delayReqSend .. => true
  | .delayReqReceive .. => true
  | .delayRspReceive .. => true
  | .laneCeThreshold .. => true
  | .spareReqReceive .. => true
  | .spareReadyReceive .. => true
  | .spareRepeatTimer .. => true
  | .spareDwellEnd .. => true
  | .spareSwitchPoint .. => true
  | .spareSwitchReceive .. => true
  | .spareDoneReceive .. => true
  | .spareAbortReceive .. => true
  | .spareBackReceive .. => true
  | .spareLockTimeout .. => true
  | .rotationInterval .. => true
  | .recalibrationDone .. => true
  | .quietEnter .. => true
  | .sleepIdleTimer .. => true
  | .sleepReqReceive .. => true
  | .sleepAckReceive .. => true
  | .sleepNakReceive .. => true
  | .sleepCancelReceive .. => true
  | .wakeReceive .. => true
  | .sleepWakeEvent .. => true
  | .sleepResponderTimeout .. => true
  | .sleepExitDone .. => true
  | .expanderScan .. => true
  | .cxlPresenceAccepted .. => true
  | .cxlPresenceLost .. => true
  | .cxlButtonAccepted .. => true
  | .buttonWaitTimer .. => true
  | .cxlLinkUp _ u => [1, 2, 4, 8, 16].contains u.width.toNat
  | .cxlTrainTimeout .. => true
  | .cxlTrainRetry .. => true
  | .cxlRecovery .. => true
  | .cxlLinkDown .. => true
  | .cxlDownTicksExpiry .. => true
  | .cxlUncorrectableError .. => true
  | .ptCxCtlRetrain .. => true
  | .ptCxCtlDpcRelease .. => true
  | .ptCxCtlEnWrite .. => true
  | .ptCxCtlMgmtFnWrite .. => true
  | .vppbDpcRelease .. => true
  | .ptCxHpCtlRemoveOk .. => true
  | .ptCxHpCtlCancel .. => true
  | .hostSlotControlWrite .. => true
  | .opPortMode _ body => bodyOk body
  | .opPortMerge _ body => bodyOk body
  | .identifySwitchDevice .. => true
  | .getPhysicalPortState .. => true
  | .physicalPortControl .. => true
  | .sendPpbCxlIoConfigurationRequest .. => true
  | .getVirtualCxlSwitchInfo .. => true
  | .bindVppb .. => true
  | .unbindVppb .. => true
  | .generateAerEvent .. => true
  | .tunnelManagementCommand .. => true
  | .sendLdCxlIoConfigurationRequest .. => true
  | .sendLdCxlIoMemoryRequest .. => true
  | .fmApiUnsupported .. => true
  | .laneReceiverDetected .. => true
  | .laneDetectTimeout .. => true
  | .lanePatternFound _ _ _ blocks => decide (blocks.length = 4)
  | .laneIdentTimeout .. => true
  | .laneSweepDwellEnd .. => true
  | .laneDfeSettled .. => true
  | .laneCheckPass _ _ heights => decide (heights.length = 4)
  | .laneCheckTimeout .. => true
  | .laneStandbyEnter .. => true
  | .laneRelockRequest .. => true
  | .laneRelockDone .. => true
  | .laneRelockTimeout .. => true
  | .laneLossOfSignal .. => true
  | .laneCdrLoss .. => true
  | .eyeMeasurement .. => true
  | .peakingTrackStep .. => true
  | .lnTestCtlGenEn .. => true
  | .lnTestCtlChkEn .. => true
  | .lnTestCtlInjOne .. => true
  | .checkerSync .. => true
  | .checkerSyncLost .. => true
  | .lnMarginCtlGo .. => true
  | .marginDone .. => true
  | .pcieMarginingCommand .. => true
  | .keeperSupplyLost => true
  | .sidebandBusSupplyLoss .. => true
  | .i3cEntdaa .. => true
  | .hdmDecoderWrite _ base _ _ => decide (base.toNat % 2 ^ 28 = 0)
  | .deviceWriteComplete la => lineOk la
  | .rxElectricalIdleDetect .. => true
  | .pseudoChannelRetrainFail .. => true

end Sys2Proof
end

