-- ==== Sys2Proof/Safety.lean ====
section
/-! DEFINITION. What counts as a safe run, in the terms that claims use: when a management command is admitted, what follows
its action, what a one-time memory may do, and what two states share. -/

namespace Sys2Proof

/-! ### Families of commands, for frames -/

/-- Commands of the keeper and its feeds, without the feed that takes the links down. -/
def Instr.isKeeper : Instr → Bool
  | .seatPinsSeated | .seatPinChange .. | .seatDebounceExpiry | .onReqLow .. | .inrushComplete | .inrushTimeout
  | .inrushFeedLost | .railGroupTimeout .. | .railFault .. | .faultOnReqCycle | .passDamaged .. | .extraction
  | .vbusUndervoltage | .onReqHigh | .pwrCtlOff | .orderlyOffGroupDisable .. | .vbusDischarged | .feedInRange ..
  | .oringTurnOff .. | .oringFail .. | .cbTrip .. | .cbRetry .. | .pwrCtlFeedAEn .. | .pwrCtlFeedBEn ..
  | .keeperSupplyLost => true
  | _ => false

/-- General management commands, those of firmware, FJX image, lifecycle and the bridge (R315). -/
def Instr.isManagement : Instr → Bool
  | .opIdentify .. | .opWallclockMark .. | .opLockAcquire .. | .opLockRelease .. | .opLockQuery .. | .opStepPoll ..
  | .opStepResume .. | .opEventConfig .. | .opEventLogRead .. | .opFwWrite .. | .opFwCommit .. | .opFjxRead ..
  | .opFjxWrite .. | .opFjxCommit .. | .opLifecycleSet .. | .opDebugUnlock .. | .opMcSwitch .. | .opSetModuleId ..
  | .opPmbusRead .. | .opPmbusWrite .. => true
  | _ => false

/-- Commands that change domains, switches and bindings alone; the two that go on to lines and hampers are not among them. -/
def Instr.isBinding : Instr → Bool
  | .opDomainCreate .. | .opDomainAgentRemove .. | .opVcsCreate .. | .opBind .. | .opUnbind .. | .opRebind ..
  | .hdmDecoderWrite .. => true
  | _ => false

/-- Commands of flows, modes and reservations. -/
def Instr.isQos : Instr → Bool
  | .opQosFlowSet .. | .opQosFlowClear .. | .opQosReserve .. | .opQosRelease .. | .opQosTargetSet ..
  | .flowChangeApply | .qosModeChange .. | .qosRescale .. | .tlQosCtlWrite .. => true
  | _ => false

/-- Commands of rings and jobs, without those that reach the homes. -/
def Instr.isRing : Instr → Bool
  | .insDoorbellWrite .. | .ringEnable .. | .ringUnitFetch .. | .nop .. | .copy .. | .fill ..
  | .compare .. | .crc32c .. | .reduce .. | .refetch .. | .headPublish .. | .atsInvalidation .. | .shareChange
  | .jobStepBoundary .. | .opInsBind .. | .opInsSetRate .. => true
  | _ => false

/-- Commands of a fabric link that is not going up or down. -/
def Instr.isLink : Instr → Bool
  | .lanesLocked .. | .laneAssignment .. | .alignDone .. | .ptFlCtlRateWrite .. | .flitReceive ..
  | .replayTimerExpiry .. | .nakRepeatTimer .. | .linkMessageSend .. | .creditFlitReceive .. | .creditFlitSend ..
  | .delayReqSend .. | .delayReqReceive .. | .delayRspReceive .. | .spareReqReceive .. | .spareRepeatTimer ..
  | .spareDwellEnd .. | .spareSwitchReceive .. | .spareDoneReceive .. | .spareAbortReceive .. | .spareBackReceive ..
  | .spareLockTimeout .. | .rotationInterval .. | .quietEnter .. | .sleepIdleTimer .. | .sleepReqReceive ..
  | .sleepNakReceive .. | .sleepCancelReceive .. | .sleepResponderTimeout .. => true
  | _ => false

/-- Commands that put a fabric link to sleep or wake it, with its lanes. -/
def Instr.isWake : Instr → Bool
  | .sleepAckReceive .. | .rxElectricalIdleDetect .. | .wakeReceive .. | .sleepWakeEvent .. => true
  | _ => false

/-- Commands of a lane that do not fail it. -/
def Instr.isLane : Instr → Bool
  | .laneReceiverDetected .. | .lanePatternFound .. | .laneDfeSettled .. | .laneCheckPass .. | .laneRelockRequest ..
  | .laneRelockDone .. | .laneRelockTimeout .. | .peakingTrackStep .. | .lnTestCtlGenEn .. | .lnTestCtlChkEn ..
  | .lnTestCtlInjOne .. | .checkerSync .. | .checkerSyncLost .. | .lnMarginCtlGo .. | .marginDone ..
  | .pcieMarginingCommand .. => true
  | _ => false

/-- Commands of a CXL port that end no device. -/
def Instr.isCxlPort : Instr → Bool
  | .expanderScan .. | .cxlPresenceAccepted .. | .cxlButtonAccepted .. | .buttonWaitTimer .. | .ptCxHpCtlCancel ..
  | .cxlTrainTimeout .. | .cxlTrainRetry .. | .cxlRecovery .. | .ptCxCtlDpcRelease .. | .vppbDpcRelease .. => true
  | _ => false

/-- Requests at a home, without the messages that may be a write-back. -/
def Instr.isHomeRequest : Instr → Bool
  | .homeRds .. | .homeRda .. | .homeRdown .. | .homeNcr .. | .homeCe .. | .memspecrd .. | .clflush .. | .biconflict .. => true
  | .homeNcw r => !Machine.memWrites r.msg
  | _ => false

/-- Commands of hampers that reach no line. -/
def Instr.isHamper : Instr → Bool
  | .hamperPortEntryWrite .. | .hmpSlotAck .. | .hamperArbitration | .hvoteReceive .. | .hdecideReceive ..
  | .hquerySend .. | .hanswerReceive .. | .hamperIndoubtPoison .. | .commitLogWriteAck .. | .hmpTimingWrite .. => true
  | _ => false

/-- Commands of audit, monitors, counters, events and the tick master. -/
def Instr.isTelemetry : Instr → Bool
  | .auditGo .. | .auditCheck | .auditTimeout | .bwWindowEnd .. | .roMeasure .. | .pmcConfigWrite ..
  | .pmcCntWrite .. | .latencyRecordWrite | .eventDrain | .glbEvPendWrite .. | .syncReceive .. | .masterLossTimeout
  | .adjustmentTickStart | .glbTickCtlMasterElig .. => true
  | _ => false

end Sys2Proof

namespace Sys2Proof.Machine

/-! ### Management commands (R316-R319, R361) -/

/-- No kept reply answers the request. -/
def State.freshSeq (s : State) (q : Req) : Bool :=
  (s.nalug.kept.find? (fun k => decide (k.src = q.src) && decide (k.seq = q.seq))).isNone

/-- The command passes R316 to R319, the active core accepts commands (R363) and the journal has room (R361): it executes. -/
def State.admitted (s : State) (code : Nat) (q : Req) (f : OpForm) : Bool :=
  !s.clk.mgmtLost && !s.switching && !s.pathShut q.src && s.freshSeq q && s.served code && (s.opCheck code q f).isNone && (!journaled code || decide (256 ≤ s.jrnlFree))

/-- What a command's action starts from: its request taken, its BEGIN record written. -/
def State.begun (s : State) (code : Nat) (q : Req) (body : List Byte) : State := (s.takeInbox q).journalBegin code q body

/-- What follows a command's action: it is counted, its DONE record written, its reply sent and kept (R316, R361). -/
def State.answered (t : State) (code : Nat) (q : Req) (st : Nat) (b : List Byte) : State :=
  let t1 := t.cnt64 mgtNalugCmdCnt
  (if st = stInProgress then t1 else t1.journalDone code q.src q.seq st b).answer code q st b

/-- The slot of a stepped command that has just begun (R320, R321). -/
def State.newSlot (s : State) (k code : Nat) (q : Req) (job : StepJob) (total phase : Nat) : StepSlot :=
  { state := 1, opcode := code, use := (s.slot k).use + 1, total := total, job := job, phase := phase, src := q.src, seq := q.seq,
    at0 := (s.takeInbox q).nalug.reqAt }

/-- A stepped command begins in slot k: ST_IN_PROGRESS with its token (R320, R321). -/
def State.stepped (s : State) (k code : Nat) (q : Req) (body : List Byte) (job : StepJob) (total phase : Nat) : State :=
  let x := s.newSlot k code q job total phase
  ((s.begun code q body).setSlot k x).answered code q stInProgress (toLe 8 (stepToken k x))

/-! ### Coherent requests (R57, R58, R71, R78, R94, R97, R99) -/

/-- The line of a request. -/
def reqLine (r : HReq) : Nat := lineAddr r.slice r.off.toNat

/-- The request passes every check of its home, a tracker is free, and its line is free. -/
def State.requestFree (s : State) (r : HReq) (a : Nat × AgentSlot) : Prop :=
  s.clk.draining = false ∧ (s.slice r.slice).state = 2 ∧ s.home.bankLost.contains (s.laBank (reqLine r)) = false ∧ s.inDoubt (reqLine r) = false ∧
  s.clk.badEntry = [] ∧ s.agentOf (s.slice r.slice).dom r.fid = some a ∧ a.2.rights = 3 ∧ a.2.caching = true ∧
  s.trkFree (s.laBank (reqLine r)) ≠ 0 ∧ s.lineBusy (reqLine r) = false ∧ s.home.trks.any (fun x => decide (x.2.la = reqLine r)) = false

/-- What the line store holds, without the age of its lines. -/
def State.lineData (s : State) : List (Nat × Bool × Bool × Line) := s.home.lines.map (fun e => (e.1, e.2.dirty, e.2.poison, e.2.data))

/-- A tracker of the request's line is open, in the lookup, and nothing else of the home has changed (R78, R88). -/
def State.opened (s t : State) (r : HReq) (ev : HEv) : Prop :=
  ∃ k x, tfind t.home.trks k = some x ∧ x.la = reqLine r ∧ x.ev = ev ∧ x.fid = r.fid ∧ x.via = r.via ∧ x.phase = 1 ∧ x.data = r.data ∧
    x.mask = r.mask ∧ t.home.ents = s.home.ents ∧ t.lineData = s.lineData ∧ t.bind = s.bind ∧ tfind s.home.trks k = none

/-- A message that R72 does not list for its event: counted, completed in refused form, and the home as it was (R76). -/
def State.protoRefused (s t : State) (r : HReq) (write : Bool) : Prop :=
  t.home = s.home ∧ t.bind = s.bind ∧
  t.nreg (sfBankProtoErrCnt (s.laBank (reqLine r))) = min 0xFFFFFFFF (s.nreg (sfBankProtoErrCnt (s.laBank (reqLine r))) + 1) ∧
  ∀ x, r.via ≠ .discard → refuseForm r.via write = some x → Out.homeRsp r.fid r.via (reqLine r) x ∈ t.out

/-- The messages by which an agent writes back (R72). -/
def wbMsg : CxMsg → Bool
  | .plain _ | .memWr _ | .memWrPtl _ | .dirtyEvict | .rspIFwdM | .rspSFwdM => true
  | _ => false

/-- A write-back reaches its home's tables: the slice and the bank serve, the sender is no agent without a cache, and owes
no snoop of the line. -/
def State.wbFree (s : State) (r : HReq) : Prop :=
  (s.slice r.slice).state ≠ 5 ∧ s.home.bankLost.contains (s.laBank (reqLine r)) = false ∧
  (∀ a, s.agentOf (s.slice r.slice).dom r.fid = some a → a.2.caching = true) ∧ s.snoopOf (reqLine r) r.fid = none

/-! ### Messages of the fabric for this module (R39-R42, R158-R161) -/

/-- The message that a fabric header stands for at its tile. -/
def fabMsgOf (type : MsgType) (h : FHdr) (bytes : Nat) (expect : Bool) (unit : StationIx) (body : List Byte := []) : NetMsg :=
  { id := h.tag.toNat, type := type, cls := h.cls, src := h.src, ld := 0, dst := .fid h.dst, bytes := bytes, expect := expect, yellow := h.yellow,
    hop := h.hop, unit := unit, body := body }

/-- What the tile has booked before the unit gets such a message: the flow's charge, the counters, the freed receive buffers. -/
def State.fabBooked (s : State) (p : Nat) (h : FHdr) (bytes : Nat) : State :=
  let charge := min 4096 (64 * cellCount bytes)
  let fc := fcOf h.cls
  let r := shaperTest (s.wheel (p / 16)) s.now16 (s.flowOf (p / 16) fc h.src) charge
  let at0 : PmcAttr := { cls := some h.cls.val, prv := some 0, fid := some h.src.val }
  (((((s.markBusy.setFlowOf (p / 16) fc h.src r.2).tpmc p 0x01 1 at0).tpmc p 0x02 charge at0).countColour (p / 16) fc r.1 charge).linkFree p h.cls)

/-- The message is yellow: by its header, or by the shaper (R160). -/
def State.fabYellow (s : State) (p : Nat) (h : FHdr) (bytes : Nat) : Bool :=
  let r := shaperTest (s.wheel (p / 16)) s.now16 (s.flowOf (p / 16) (fcOf h.cls) h.src) (min 4096 (64 * cellCount bytes))
  h.yellow || (decide (r.1 = 1) && droppable h.cls)

/-- A message of a fabric port is below the hop limit, routed to a unit of this module, and conforms; a yellow one meets no spilling
queue (R162). -/
def State.fabHere (s : State) (p : Nat) (type : MsgType) (h : FHdr) (bytes : Nat) (expect : Bool) (unit : StationIx) : Prop :=
  s.pmode p = 3 ∧ s.portUp p = true ∧ s.clk.draining = false ∧
  h.hop.toNat < (if s.fld (tlRouteCtl (p / 16)) 16 4 = 0 then 15 else s.fld (tlRouteCtl (p / 16)) 16 4) ∧
  (∃ e, s.egressOf (p / 16) h.src { dst := h.dst } (fabMsgOf type h bytes expect unit) = some e ∧ 192 ≤ e) ∧
  (s.flowOf (p / 16) (fcOf h.cls) h.src).held = [] ∧
  (shaperTest (s.wheel (p / 16)) s.now16 (s.flowOf (p / 16) (fcOf h.cls) h.src) (min 4096 (64 * cellCount bytes))).1 ≠ 2 ∧
  (s.fabYellow p h bytes = true → (s.fabBooked p h bytes).spillDue (p * 8 + h.cls.val) = false)

/-! ### Entries of a ring (R181, R189) -/

/-- The next entry of a direct ring may start: its operation, its format and every operand byte pass. -/
def State.entryReady (s : State) (ix : InstIx) (op : Nat) (ext : List (Nat × Nat × Nat)) : Prop :=
  s.canStart ix = true ∧ s.insLegacy ix = false ∧ s.insReject ix = false ∧ formatErr false (s.inst ix).entry = none ∧
  s.opndCheck ix (opnds (s.inst ix).entry) ext = none ∧ byteAt (s.inst ix).entry 0 = op

/-- Its job runs and its units are taken from the ring. -/
def State.jobBegun (s t : State) (ix : InstIx) (j : Job) : Prop :=
  (t.inst ix).job = some j ∧ j.bytes = (s.inst ix).entry ∧ j.pos = (s.inst ix).x ∧ j.fin = none ∧ j.prog = 0 ∧
  (t.inst ix).units = (s.inst ix).units.drop ((s.inst ix).entry.length / 32) ∧
  (t.inst ix).x = ((s.inst ix).x + (s.inst ix).entry.length / 32) % 2 ^ 32

/-- The remote home of a line that an engine writes: its fabric ID, the slice and the offset there (R56, R57, R177). -/
def State.remoteLine (s : State) (ix space addr : Nat) : Option (Nat × Nat × Nat) :=
  if space ≠ 0 then none
  else match (s.vcsOfHost (s.engHost ix)).map (fun v => s.originByte v.1 addr true) with
    | some (.inr (e, o)) => e.remote.map (fun f => (f, e.slice, o % 2 ^ 28))
    | _ => none

/-! ### One-time memory (R349, R354) -/

/-- No burned bit is lost: every fuse keeps its bits, MGT_SVN_MIN never falls. -/
def State.otpKept (s t : State) : Prop :=
  (∀ k b, b < 3 → nbit (tget 0 s.mgmt.fuses k) b = true → nbit (tget 0 t.mgmt.fuses k) b = true) ∧ s.mgmt.svnMin ≤ t.mgmt.svnMin

end Sys2Proof.Machine
end

