-- ==== Sys2Proof/Certificates/Slice0/Obligations.lean ====
section
/-! DEFINITION. The statements for the provers. -/

open Sys2Proof Sys2Proof.Machine

/-- A step takes the command at the front of the queue and runs it with the queue's rest; an empty queue idles. -/
def Obligations.CommandsFromTheQueue : Prop :=
  (∀ (c : Instr) (rest : List Instr) (s : State), s.pending = c :: rest → step s = exec c { s with pending := rest }) ∧
  (∀ s : State, s.pending = [] → step s = .next s)

/-- What reset leaves: no command waits, both counts are 0, no slice is assigned, no domain, switch, flow, tracker or line is held,
no lock is held, every ring is DISABLED, every lane OFF, every fabric link DOWN, the module is UNSEATED and not locked to a tick
master. The burned fuse bits are those of a shipped module. -/
def Obligations.ResetState : Prop :=
  State.reset.pending = [] ∧ State.reset.tick.loc = 0 ∧ State.reset.tick.fab = 0 ∧ State.reset.locked = false ∧
  State.reset.kState = kUnseated ∧ (∀ n, (State.reset.slice n).state = 0) ∧ (∀ d, (State.reset.dom d).state = 0) ∧
  (∀ v, tfind State.reset.bind.vcs v = none) ∧ (∀ la, State.reset.ent la = none ∧ State.reset.lsLine la = none) ∧
  State.reset.home.trks = [] ∧ State.reset.qos.flows = [] ∧ (∀ k, (State.reset.lockAt k).held = false) ∧
  (∀ ix : InstIx, State.reset.ringState ix = 0) ∧ (∀ (p : PortIx) (l : LaneIx), State.reset.lnState p l = 0) ∧
  (∀ p : PortIx, State.reset.flState p = 0) ∧ (∀ b, nbit (tget 0 State.reset.mgmt.fuses 0) b = decide (b < 3)) ∧
  State.reset.mgmt.svnMin = 0

/-- Every command has an effect and leaves the queue alone: nothing that can be commanded stops the block. -/
def Obligations.EveryCommandAnswers : Prop :=
  ∀ (c : Instr) (s : State), ∃ t, exec c s = .next t ∧ t.pending = s.pending

/-- One-time memory (R349, R354): whatever command a step runs, every burned fuse bit stays burned and MGT_SVN_MIN never decreases. -/
def Obligations.OneTimeMemory : Prop :=
  ∀ s t : State, step s = .next t → s.otpKept t

/-- The local tick count (R19, R21): it takes the next value of 48 bits at every edge, keeper power-on and cold module reset set it
to 0, and no other command changes it: not the warm module reset, nor a narrower one; while the core die is not powered no edge
advances it (R31). It is shown in GLB_TICK_LOCAL. Ticks are compared modulo 2^48. -/
def Obligations.LocalTicks : Prop :=
  (∀ (tests : List (PortIx × LaneIx × Nat × Nat)) (cyc : List (Bool × Nat × Nat × ClassIx × Nat)) (s : State),
    (s.coreRuns = true → ∃ t, exec (.tickEdge tests cyc) s = .next t ∧ t.tick.loc = s.tick.loc + 1) ∧
    (s.coreRuns = false → exec (.tickEdge tests cyc) s = .next s)) ∧
  (∀ s : State, s.pwr.supply = false → ∃ t, exec .keeperPowerOn s = .next t ∧ t.tick.loc = 0) ∧
  (∀ (fails : List (Fin 12 × Nat)) (s : State), (s.dueReset 2 0).isSome = true →
    ∃ t, exec (.coldModuleReset fails) s = .next t ∧ t.tick.loc = 0) ∧
  (∀ (c : Instr) (s t : State), exec c s = .next t → t.tick.loc ≠ s.tick.loc →
    c = .keeperPowerOn ∨ (∃ fails, c = .coldModuleReset fails) ∨ (∃ tests cyc, c = .tickEdge tests cyc ∨ c = .tickStepped tests cyc)) ∧
  (∀ s : State, s.view glbTickLocal + 2 ^ 32 * s.view (glbTickLocal + 4) = s.tick.loc.toNat) ∧
  (∀ a b : Tick, tickEarlier a b = true ↔ 1 ≤ (b - a).toNat ∧ (b - a).toNat ≤ 2 ^ 47 - 1)

/-- The tick edge (R19, R20, R24, R28): both counts advance by one and a new tick's guard point is ahead; the closing edge of the
adjustment tick takes the master's number in place of the next one. Following a master (R22, R24, R251, R252): a SYNC from upstream
is kept and judged against the module's own edge; 64 ticks without a path to a master end LOCKED; a pending step begins in a tick
whose opening edge found it pending and crossed by no open hamper; that edge decides. Delay of a link (R249): every 16 ticks in L0 a
request with its T1; a request is answered with T1, T2 and T3; the eighth sample makes PT_FL_DELAY the median of eight. -/
def Obligations.TickAndMaster : Prop :=
  (∀ (tests : List (PortIx × LaneIx × Nat × Nat)) (cyc : List (Bool × Nat × Nat × ClassIx × Nat)) (s : State),
    s.tick.adj = none → s.coreRuns = true →
    ∃ t, exec (.tickEdge tests cyc) s = .next t ∧ t.tick.loc = s.tick.loc + 1 ∧ t.tick.fab = s.tick.fab + 1 ∧
      t.tick.guardDone = false ∧ t.pending = s.pending) ∧
  (∀ (tests : List (PortIx × LaneIx × Nat × Nat)) (cyc : List (Bool × Nat × Nat × ClassIx × Nat)) (d : Nat) (new : Tick)
    (s : State), s.tick.adj = some (d, new) → s.coreRuns = true →
    ∃ t, exec (.tickStepped tests cyc) s = .next t ∧ t.tick.loc = s.tick.loc + 1 ∧ t.tick.fab = new ∧ t.tick.adj = none ∧
      t.tick.guardDone = false) ∧
  (∀ s : State, s.tick.guardDone = false →
    ∃ t, exec .guardPoint s = .next t ∧ t.tick.guardDone = true ∧ t.tick.loc = s.tick.loc ∧ t.tick.fab = s.tick.fab ∧
      t.tick.adj = s.tick.adj) ∧
  (∀ (v : Bool) (s : State),
    ∃ t, exec (.glbTickCtlMasterElig v) s = .next t ∧ t.bit glbTickCtl 31 = v ∧ (∀ o, o ≠ glbTickCtl → t.reg o = s.reg o) ∧
      t.tick = s.tick) ∧
  (∀ (p : PortIx) (m : SyncMsg) (trim : Int) (s : State), s.linkL0 p = true →
    (∃ t, exec (.syncReceive p m trim) s = .next t ∧ tget [] t.tick.syncs p = (m, s.tick.loc) :: tget [] s.tick.syncs p) ∧
    (s.upstream = some p.val → s.tick.adj = none → s.locked = true →
      m.ftick ≠ s.tick.fab + BitVec.ofInt 48 (nearestEdge (s.masterEdge p m)) →
      ∃ t, exec (.syncReceive p m trim) s = .next t ∧ t.locked = false ∧ t.stepPending = true) ∧
    (s.upstream = some p.val → s.tick.adj = none → s.locked = false → s.stepPending = false →
      m.ftick = s.tick.fab + BitVec.ofInt 48 (nearestEdge (s.masterEdge p m)) →
      phaseOf (s.masterEdge p m) ≤ 384 → -384 ≤ phaseOf (s.masterEdge p m) →
      ∃ t, exec (.syncReceive p m trim) s = .next t ∧ t.locked = true)) ∧
  (∀ (a : Tick) (s : State), s.tick.lostAt = some a → 64 ≤ ticksSince a s.tick.loc → s.locked = true →
    ∃ t, exec .masterLossTimeout s = .next t ∧ t.locked = false ∧ t.ev.seq = s.ev.seq + 1 ∧ t.tick = s.tick) ∧
  (∀ (p : Nat) (m : SyncMsg) (a : Tick) (s : State), s.stepPending = true → s.tick.adj = none → s.tick.adjDue = true →
    s.tick.guardDone = false → s.upstream = some p → (tget [] s.tick.syncs p).head? = some (m, a) →
    ∃ t d new, exec .adjustmentTickStart s = .next t ∧ t.tick.adj = some (d, new) ∧ t.tick.loc = s.tick.loc ∧
      t.regs = s.regs ∧
      (let x := s.masterEdge p m - (ticksSince a s.tick.loc : Int) * tick16
       d = (stepExtra x / 16).toNat ∧ new = m.ftick + BitVec.ofInt 48 (stepTicks x))) ∧
  (∀ (s : State), s.tick.adjDue = false → exec .adjustmentTickStart s = .next s) ∧
  (∀ (tests : List (PortIx × LaneIx × Nat × Nat)) (cyc : List (Bool × Nat × Nat × ClassIx × Nat)) (s : State),
    s.coreRuns = true → ∃ t, exec (.tickEdge tests cyc) s = .next t ∧ t.tick.adjDue = (t.stepPending && t.noOpenHamper)) ∧
  (∀ (p : PortIx) (cyc : BitVec 12) (sx : BitVec 4) (s : State), s.linkL0 p = true →
    (∀ a, (s.link p).reqAt = some a → 16 ≤ ticksSince a s.tick.loc) →
    ∃ t, exec (.delayReqSend p cyc sx) s = .next t ∧ (t.link p).req = some (s.stampAt cyc sx, (s.link p).reqNo) ∧
      (t.link p).reqAt = some s.tick.loc ∧ Out.ctlFlit p 4 [s.stampAt cyc sx, (s.link p).reqNo] ∈ t.out) ∧
  (∀ (p : PortIx) (t1 : BitVec 64) (id : Word) (c2 : BitVec 12) (x2 : BitVec 4) (c3 : BitVec 12) (x3 : BitVec 4) (s : State), s.linkL0 p = true →
    ∃ t, exec (.delayReqReceive p t1 id c2 x2 c3 x3) s = .next t ∧
      Out.ctlFlit p 5 [t1.toNat, s.stampAt c2 x2, s.stampAt c3 x3, id.toNat] ∈ t.out) ∧
  (∀ (p : PortIx) (t1 t2 t3 : BitVec 64) (id : Word) (cyc : BitVec 12) (sx : BitVec 4) (s : State),
    let d : Int := (((stampVal (s.stampAt cyc sx) : Int) - stampVal t1.toNat) - ((stampVal t3.toNat : Int) - stampVal t2.toNat)) / 2
    s.linkL0 p = true → (s.link p).req = some (t1.toNat, id.toNat) → (s.link p).delays.length = 7 → (s.link p).delayEv = none →
    ∃ t, exec (.delayRspReceive p t1 t2 t3 id cyc sx) s = .next t ∧ (t.link p).req = none ∧
      (t.link p).delays = (s.link p).delays ++ [d.toNat] ∧
      t.nreg (ptFlDelay p) = 2 ^ 31 + median8 ((s.link p).delays ++ [d.toNat]) % 2 ^ 24) ∧
  (∀ (p : PortIx) (t1 t2 t3 : BitVec 64) (id : Word) (cyc : BitVec 12) (sx : BitVec 4) (s : State),
    (s.link p).req ≠ some (t1.toNat, id.toNat) → exec (.delayRspReceive p t1 t2 t3 id cyc sx) s = .next s)

/-- Frames of power and management: the keeper's commands change the keeper's registers, the power state and events alone; general
management commands leave every home, hamper, queue, engine, link, lane and the power state, and every register above the management
block but the count of HBM writes, as they were; telemetry and event commands leave them too. -/
def Obligations.FramesOfPowerAndManagement : Prop :=
  (∀ (c : Instr) (s t : State), c.isKeeper = true → exec c s = .next t →
    t.out = s.out ∧ t.free = s.free ∧ t.tick = s.tick ∧ t.nalug = s.nalug ∧ t.mgmt = s.mgmt ∧ t.clk = s.clk ∧ t.tel = s.tel ∧
    t.bind = s.bind ∧ t.home = s.home ∧ t.hmp = s.hmp ∧ t.hbm = s.hbm ∧ t.qos = s.qos ∧ t.eng = s.eng ∧ t.lnk = s.lnk ∧
    t.cxl = s.cxl ∧ t.lane = s.lane ∧
    ∀ o, o ∉ [pwrStatus, pwrFault, pwrLastOff, pwrCtl, pwrFeedV 0, pwrFeedV 1, pwrCbTripCnt, pwrPfailCnt, glbEvFifoOvfCnt] →
      t.reg o = s.reg o) ∧
  (∀ (c : Instr) (s t : State), c.isManagement = true → exec c s = .next t →
    t.tick = s.tick ∧ t.clk = s.clk ∧ t.bind = s.bind ∧ t.home = s.home ∧ t.hmp = s.hmp ∧ t.hbm = s.hbm ∧ t.qos = s.qos ∧
    t.eng = s.eng ∧ t.lnk = s.lnk ∧ t.cxl = s.cxl ∧ t.lane = s.lane ∧ t.pwr = s.pwr ∧
    ∀ o, 0x200000 ≤ o → (∀ h, h < 4 → o ≠ hbmStkWriteCnt h ∧ o ≠ hbmStkWriteCnt h + 4) → t.reg o = s.reg o) ∧
  (∀ (c : Instr) (s t : State), c.isTelemetry = true → exec c s = .next t →
    t.free = s.free ∧ t.mgmt = s.mgmt ∧ t.clk = s.clk ∧ t.bind = s.bind ∧ t.home = s.home ∧ t.hmp = s.hmp ∧ t.hbm = s.hbm ∧
    t.qos = s.qos ∧ t.eng = s.eng ∧ t.lnk = s.lnk ∧ t.cxl = s.cxl ∧ t.lane = s.lane ∧ t.pwr = s.pwr)

/-- Frames of the data path: what the commands of bindings, flows, rings, home requests and hampers leave unchanged. -/
def Obligations.FramesOfDataPath : Prop :=
  (∀ (c : Instr) (s t : State), c.isBinding = true → exec c s = .next t →
    t.tick = s.tick ∧ t.clk = s.clk ∧ t.home = s.home ∧ t.hmp = s.hmp ∧ t.hbm = s.hbm ∧ t.qos = s.qos ∧ t.eng = s.eng ∧
    t.lnk = s.lnk ∧ t.cxl = s.cxl ∧ t.lane = s.lane ∧ t.pwr = s.pwr ∧ ∀ o, 0x200000 ≤ o → t.reg o = s.reg o) ∧
  (∀ (c : Instr) (s t : State), ((∃ q b, c = .opDomainTeardown q b) ∨ ∃ k, c = .unbindDrainDone k) → exec c s = .next t →
    t.tick = s.tick ∧ t.clk = s.clk ∧ t.qos = s.qos ∧ { t.eng with insts := [] } = { s.eng with insts := [] } ∧ t.lnk = s.lnk ∧ t.cxl = s.cxl ∧ t.lane = s.lane ∧
    t.pwr = s.pwr) ∧
  (∀ (c : Instr) (s t : State), c.isQos = true → exec c s = .next t →
    t.tick = s.tick ∧ t.clk = s.clk ∧ t.bind = s.bind ∧ t.home = s.home ∧ t.hmp = s.hmp ∧ t.hbm = s.hbm ∧ t.eng = s.eng ∧
    t.lnk = s.lnk ∧ t.cxl = s.cxl ∧ t.lane = s.lane ∧ t.pwr = s.pwr ∧ ∀ o, 0x200000 ≤ o → o < 0x600000 → t.reg o = s.reg o) ∧
  (∀ (c : Instr) (s t : State), c.isRing = true → exec c s = .next t →
    t.tick = s.tick ∧ t.clk = s.clk ∧ t.bind = s.bind ∧ t.home = s.home ∧ t.hmp = s.hmp ∧ t.hbm = s.hbm ∧ t.qos = s.qos ∧
    t.lnk.links = s.lnk.links ∧ t.lnk.rsnp = s.lnk.rsnp ∧ { t.cxl with pba := [] } = { s.cxl with pba := [] } ∧ t.lane = s.lane ∧ t.pwr = s.pwr) ∧
  (∀ (i : InstIx) (s t : State), exec (.ringDisable i) s = .next t →
    t.free = s.free ∧ t.tick = s.tick ∧ t.nalug = s.nalug ∧ t.mgmt = s.mgmt ∧ t.clk = s.clk ∧ t.tel = s.tel ∧ t.hmp = s.hmp ∧ t.qos = s.qos ∧
    t.lnk = s.lnk ∧ { t.cxl with pba := [] } = { s.cxl with pba := [] } ∧ t.lane = s.lane ∧ t.pwr = s.pwr) ∧
  (∀ (c : Instr) (s t : State), c.isHomeRequest = true → exec c s = .next t →
    t.tick = s.tick ∧ t.nalug = s.nalug ∧ t.mgmt = s.mgmt ∧ t.clk = s.clk ∧ t.bind = s.bind ∧ t.hmp = s.hmp ∧ t.qos = s.qos ∧
    { t.eng with insts := [] } = { s.eng with insts := [] } ∧ t.lnk.links = s.lnk.links ∧ t.lnk.rsnp = s.lnk.rsnp ∧
    { t.hbm with slots := [], waitRd := [], ahead := [] } = { s.hbm with slots := [], waitRd := [], ahead := [] } ∧
    t.cxl = s.cxl ∧ t.lane = s.lane ∧ t.pwr = s.pwr) ∧
  (∀ (c : Instr) (s t : State), c.isHamper = true → exec c s = .next t →
    t.free = s.free ∧ t.tick = s.tick ∧ t.clk = s.clk ∧ t.tel = s.tel ∧ t.bind = s.bind ∧ t.hbm = s.hbm ∧ t.qos = s.qos ∧
    t.eng = s.eng ∧ t.lnk = s.lnk ∧ t.cxl = s.cxl ∧ t.lane = s.lane ∧ t.pwr = s.pwr ∧ ∀ o, 0x400000 ≤ o → t.reg o = s.reg o)

/-- Frames of ports: what the commands of a fabric link, of a lane and of a CXL port leave unchanged; of the registers, all but
those of the ports and the count of lost events. -/
def Obligations.FramesOfPorts : Prop :=
  (∀ (c : Instr) (s t : State), c.isLink = true → exec c s = .next t →
    t.tick = s.tick ∧ t.nalug = s.nalug ∧ t.mgmt = s.mgmt ∧ t.clk = s.clk ∧ t.bind = s.bind ∧ t.home = s.home ∧ t.hmp = s.hmp ∧
    t.hbm = s.hbm ∧ t.qos = s.qos ∧ t.eng = s.eng ∧ t.cxl = s.cxl ∧ t.lane = s.lane ∧ t.pwr = s.pwr ∧
    ∀ o, o < 0x2000000 → o ≠ glbEvFifoOvfCnt → t.reg o = s.reg o) ∧
  (∀ (c : Instr) (s t : State), c.isWake = true → exec c s = .next t →
    t.free = s.free ∧ t.tick = s.tick ∧ t.ev = s.ev ∧ t.nalug = s.nalug ∧ t.mgmt = s.mgmt ∧ t.clk = s.clk ∧ t.tel = s.tel ∧ t.bind = s.bind ∧
    t.home = s.home ∧ t.hmp = s.hmp ∧ t.hbm = s.hbm ∧ t.qos = s.qos ∧ t.eng = s.eng ∧ t.cxl = s.cxl ∧ t.pwr = s.pwr ∧
    ∀ o, o < 0x2000000 → t.reg o = s.reg o) ∧
  (∀ (c : Instr) (s t : State), c.isLane = true → exec c s = .next t →
    t.free = s.free ∧ t.tick = s.tick ∧ t.nalug = s.nalug ∧ t.mgmt = s.mgmt ∧ t.clk = s.clk ∧ t.tel = s.tel ∧ t.bind = s.bind ∧
    t.home = s.home ∧ t.hmp = s.hmp ∧ t.hbm = s.hbm ∧ t.qos = s.qos ∧ t.eng = s.eng ∧ t.lnk = s.lnk ∧ t.cxl = s.cxl ∧
    t.pwr = s.pwr ∧ ∀ o, o < 0x2000000 → o ≠ glbEvFifoOvfCnt → t.reg o = s.reg o) ∧
  (∀ (c : Instr) (s t : State), c.isCxlPort = true → exec c s = .next t →
    t.out = s.out ∧ t.free = s.free ∧ t.tick = s.tick ∧ t.nalug = s.nalug ∧ t.mgmt = s.mgmt ∧ t.clk = s.clk ∧ t.tel = s.tel ∧
    t.bind = s.bind ∧ t.home = s.home ∧ t.hmp = s.hmp ∧ t.hbm = s.hbm ∧ t.qos = s.qos ∧ t.eng = s.eng ∧ t.lnk = s.lnk ∧
    t.lane = s.lane ∧ t.pwr = s.pwr ∧ ∀ o, o < 0x2000000 → o ≠ glbEvFifoOvfCnt → t.reg o = s.reg o)

/-- Slices (R46, R48, R49): an unassigned slice takes a device range and the next generation; an idle one without data in the line
store is released at once. Domains (R51, R53, R54): creating one, adding an agent to the lowest free slot, and the stepped removal
and teardown. -/
def Obligations.SlicesAndDomains : Prop :=
  (∀ (q : Req) (body : List Byte) (s : State),
    let n := leAt body 0 4
    s.admitted 0x0301 q { lenOk := true, objs := sliceObjs s n ++ [.dom (leAt body 12 2)] } = true → body.length = 16 →
    n < 2 ^ 18 → leAt body 4 4 < 2 ^ 18 → leAt body 8 4 < 2 ^ 24 → leAt body 12 2 < 4096 → byteAt body 14 ≤ 1 →
    byteAt body 15 = 0 → s.home.bankLost = [] → s.sliceBusy n = false → (s.slice n).state = 0 →
    leAt body 8 4 < s.capacityOf (leAt body 4 4) → (s.dom (leAt body 12 2)).state = 1 →
    (∀ k x, (k, x) ∈ s.bind.slices → x.state ≠ 0 → x.dev = leAt body 4 4 → x.dpa ≠ leAt body 8 4) →
    ∃ t, exec (.opSliceAssign q body) s = .next t ∧
      t.slice n = { state := 1, lsEn := decide (byteAt body 14 = 1), dom := leAt body 12 2, gen := (s.slice n).gen + 1,
                    dev := leAt body 4 4, dpa := leAt body 8 4, stack := s.pickStack } ∧
      (∀ k, k ≠ n → t.slice k = s.slice k) ∧
      Out.reply q 0x0301 stOk (toLe 2 ((s.slice n).gen + 1).toNat) ∈ t.out) ∧
  (∀ (q : Req) (body : List Byte) (s : State),
    let n := leAt body 0 4
    s.admitted 0x0302 q { lenOk := true, objs := sliceObjs s n } = true → body.length = 4 → n < 2 ^ 18 →
    s.sliceBusy n = false → (s.slice n).state = 1 → (s.slice n).dirtySeen = false →
    ∃ t, exec (.opSliceRelease q body) s = .next t ∧ t.slice n = { gen := (s.slice n).gen } ∧
      (∀ e, e ∈ t.home.lines → laSlice e.1 ≠ n) ∧ (∀ k, k ≠ n → t.slice k = s.slice k) ∧
      Out.reply q 0x0302 stOk [] ∈ t.out) ∧
  (∀ (q : Req) (body : List Byte) (s : State),
    let d := leAt body 0 2
    s.admitted 0x0303 q { lenOk := true, objs := [.dom d] } = true → body.length = 4 → d < 4096 → leAt body 2 2 = 0 →
    s.home.bankLost = [] → (s.dom d).state = 0 →
    exec (.opDomainCreate q body) s =
      .next (((s.begun 0x0303 q body).setDom d { state := 1 }).answered 0x0303 q stOk [])) ∧
  (∀ (q : Req) (body : List Byte) (k : Nat) (s : State),
    let d := leAt body 0 2
    let f := leAt body 4 4
    s.admitted 0x0304 q { lenOk := true, objs := [.dom d] } = true → body.length = 12 → d < 4096 → f < 2 ^ 18 →
    (byteAt body 8 / 2 = 1 ∨ byteAt body 8 / 2 = 3) → leAt body 2 2 = 0 → leAt body 9 3 = 0 → (s.dom d).state = 1 →
    s.agentOf d f = none → (List.range 64).find? (fun j => (tfind (s.dom d).agents j).isNone) = some k → s.home.sfLost = [] →
    exec (.opDomainAgentAdd q body) s =
      .next (((s.begun 0x0304 q body).setDom d { s.dom d with
        agents := tins (s.dom d).agents k ⟨nbit (byteAt body 8) 0, byteAt body 8 / 2, f⟩ }).answered 0x0304 q stOk (toLe 1 k))) ∧
  (∀ (q : Req) (body : List Byte) (slot k : Nat) (a : AgentSlot) (s : State),
    let d := leAt body 0 2
    let f := leAt body 4 4
    s.admitted 0x0305 q { lenOk := true, objs := [.dom d] } = true → body.length = 8 → d < 4096 → f < 2 ^ 18 →
    leAt body 2 2 = 0 → (s.dom d).state = 1 → s.agentOf d f = some (slot, a) → s.agentMapped d f = false →
    s.pickSlot = some k → s.domSlices d = [] →
    exec (.opDomainAgentRemove q body) s = .next (s.stepped k 0x0305 q body (.agentRemove d slot f) 1 1)) ∧
  (∀ (q : Req) (body : List Byte) (k : Nat) (s : State),
    let d := leAt body 0 2
    s.admitted 0x0306 q { lenOk := true, objs := [.dom d] } = true → body.length = 4 → d < 4096 → leAt body 2 2 = 0 →
    ((s.dom d).state = 1 ∨ (s.dom d).state = 2) → s.pickSlot = some k →
    ∃ t, exec (.opDomainTeardown q body) s = .next t ∧ (t.dom d).state = 3 ∧ (t.dom d).agents = (s.dom d).agents ∧
      (t.slot k).state = 1 ∧ (t.slot k).job = .teardown d (decide ((s.dom d).state = 2)) ∧
      Out.reply q 0x0306 stInProgress (toLe 8 (stepToken k (t.slot k))) ∈ t.out)

/-- Virtual switches and bindings (R55, R56, R61, R69): a vCS takes the lowest run of host-map entries; the host programs its
decoder; a binding in MODE 0 writes its host-map entry and counts on the slice. Unbinding and moving a binding (R62, R64): the
mapping goes at once and the command goes on in steps, through the drain and the walk of the slice's lines. -/
def Obligations.Bindings : Prop :=
  (∀ (q : Req) (body : List Byte) (b : Nat) (s : State),
    let v := byteAt body 0
    let p := byteAt body 1
    s.admitted 0x0307 q { lenOk := true, units := [(2, p)], objs := [.vcs v, .port p] } = true → body.length = 12 → v < 96 → p < 192 →
    leAt body 4 4 < 2 ^ 18 → 0 < leAt body 8 4 → leAt body 8 4 ≤ 65536 → leAt body 2 2 = 0 → tfind s.bind.vcs v = none →
    (∀ k x, (k, x) ∈ s.bind.vcs → x.usp ≠ p) → s.pmode p = 1 → s.isMember p = false →
    s.edgeFid p 0 = some (leAt body 4 4) → s.freeRun (leAt body 8 4) = some b →
    ∃ t, exec (.opVcsCreate q body) s = .next t ∧
      tfind t.bind.vcs v = some { usp := p, host := leAt body 4 4, base := b, len := leAt body 8 4 } ∧
      Out.reply q 0x0307 stOk (toLe 4 b) ∈ t.out) ∧
  (∀ (v : VcsIx) (base : BitVec 64) (ig iw : BitVec 4) (x : Vcs) (s : State), tfind s.bind.vcs v = some x →
    ∃ t, exec (.hdmDecoderWrite v base ig iw) s = .next t ∧
      tfind t.bind.vcs v = some { x with hdm := base.toNat / 2 ^ 28 * 2 ^ 28, ig := ig.toNat, iw := iw.toNat } ∧
      t.bind.hmap = s.bind.hmap ∧ t.regs = s.regs) ∧
  (∀ (q : Req) (body : List Byte) (y : Vcs) (s : State),
    let n := leAt body 4 4
    let f := leAt body 8 4
    let v := byteAt body 12
    let index := leAt body 16 4
    let x := s.slice n
    s.admitted 0x030B q (bindForm s body true) = true → byteAt body 0 = 0 → s.sliceBusy n = false →
    (x.state = 1 ∨ x.state = 2) → (s.dom x.dom).state ≠ 3 → tfind s.bind.vcs v = some y → s.bindRefusal 0 n f v index x.dom = none →
    ∃ t, exec (.opBind q body) s = .next t ∧ tfind t.bind.hmap (y.base + index) = some ⟨byteAt body 1, none, n⟩ ∧
      t.slice n = { x with state := 2, maps := x.maps + 1 } ∧ t.bind.grants = s.bind.grants ∧ t.bind.vcs = s.bind.vcs ∧
      Out.reply q 0x030B stOk [] ∈ t.out) ∧
  (∀ (p : PortIx) (ld : Fin 16) (v : Word) (s : State), s.present 2 p = true → (bits v 31 1 = 1 → s.fidTaken (bits v 0 18) p ld = false) →
    ∃ t, exec (.ptEdgeIdWrite p ld v) s = .next t ∧
      t.nreg (ptEdgeId p ld) = bits v 31 1 * 2 ^ 31 + bits v 0 18 ∧ (∀ o, o ≠ ptEdgeId p ld → t.reg o = s.reg o)) ∧
  (∀ (p : PortIx) (ld : Fin 16) (v : Word) (s : State), s.present 2 p = true → bits v 31 1 = 1 →
    s.fidTaken (bits v 0 18) p ld = true → exec (.ptEdgeIdWrite p ld v) s = .next (s.raise 0x0142 [.w p, .w ld, .w (bits v 0 18)])) ∧
  (∀ (p : PortIx) (ld : Fin 16) (v : Word) (s : State), s.present 2 p = false →
    exec (.ptEdgeIdWrite p ld v) s = .next (s.raise 0x0101 [.w (ptEdgeId p ld)])) ∧
  (∀ (q : Req) (body : List Byte) (y : Vcs) (e : HEnt) (k : Nat) (s : State),
    let n := leAt body 4 4
    let f := leAt body 8 4
    let index := leAt body 16 4
    s.admitted 0x030C q (bindForm s body false) = true → byteAt body 0 = 0 → s.sliceBusy n = false → (s.slice n).state = 2 →
    tfind s.bind.vcs (byteAt body 12) = some y → index < y.len → y.host = f → tfind s.bind.hmap (y.base + index) = some e →
    e.slice = n → e.remote = none → s.pickSlot = some k →
    ∃ t, exec (.opUnbind q body) s = .next t ∧ tfind t.bind.hmap (y.base + index) = none ∧ (t.slice n).state = 3 ∧
      (t.slot k).state = 1 ∧ (t.slot k).phase = 0 ∧ (t.slot k).job = .unbind 0 n f ∧
      Out.reply q 0x030C stInProgress (toLe 8 (stepToken k (t.slot k))) ∈ t.out) ∧
  (∀ (q : Req) (body : List Byte) (s1 : State) (k : Nat) (s : State),
    let n := leAt body 4 4
    s.admitted 0x030D q { lenOk := true, objs := sliceObjs s n } = true → body.length = 28 → byteAt body 0 = 1 →
    (byteAt body 1 = 1 ∨ byteAt body 1 = 3) → byteAt body 2 = 0 → byteAt body 3 = 0 → n < 2 ^ 18 → leAt body 8 4 < 2 ^ 18 →
    leAt body 12 4 < 2 ^ 18 → leAt body 17 3 = 0 → leAt body 26 2 = 0 → leAt body 24 2 < 4096 → s.sliceBusy n = false →
    (s.slice n).state = 2 → (s.dom (s.slice n).dom).state = 1 → s.mapOf n (leAt body 8 4) = none →
    s.revoke 1 n (leAt body 8 4) 0 0 = some s1 →
    s1.bindRefusal 1 n (leAt body 12 4) (byteAt body 16) (leAt body 20 4) (s.slice n).dom = none → s.pickSlot = some k →
    ∃ t, exec (.opRebind q body) s = .next t ∧ t.bind.grants = s1.bind.grants ∧ (t.slice n).state = 3 ∧
      (t.slot k).state = 1 ∧ (t.slot k).phase = 0 ∧
      (t.slot k).job = .rebind 1 (byteAt body 1) n (leAt body 8 4) (leAt body 12 4) (byteAt body 16) (leAt body 20 4) none) ∧
  (∀ (k : Fin 32) (mode n f : Nat) (w : Walk) (s : State), (s.slot k).state = 1 → (s.slot k).phase = 0 →
    (s.slot k).job = .unbind mode n f → s.drained n f = true → s.walk k = some w → s.tick.guardDone = false →
    (s.slot k).ranAt ≠ some s.tick.loc → (s.dom (s.slice n).dom).state = 1 →
    ∃ t, exec (.unbindDrainDone k) s = .next t ∧ (t.slot k).phase = 1 ∧ t.walk k = some { w with after := s.tick.loc } ∧
      t.bind.slices = s.bind.slices) ∧
  (∀ (k : Fin 32) (mode n f : Nat) (s : State), (s.slot k).state = 1 → (s.slot k).phase ≠ 0 → (s.slot k).job = .unbind mode n f →
    s.tick.guardDone = false → (s.slot k).ranAt ≠ some s.tick.loc →
    exec (.walkStep k) s = .next ((s.setSlot k { s.slot k with ranAt := some s.tick.loc }).opUnbindStep k n f))

/-- Blanket mode (R89, R91, R92): windows end after WINDOW_TICKS, a domain over the limit enters after the next edge, a quiet one
starts its exit walk, the walk goes from slice to slice, and the domain leaves when no untracked slice is left; the directory is
rebuilt by a stepped command. -/
def Obligations.BlanketMode : Prop :=
  (∀ (d : Nat) (s : State), s.home.doms.map (·.1) = [d] → s.windowTicks ≤ ticksSince s.home.winAt s.tick.loc →
    ∃ t, exec .blanketWindowEnd s = .next t ∧ (t.coh d).last = (s.coh d).win ∧ (t.coh d).win = 0 ∧
      (t.coh d).quiet = (if (s.coh d).blanket ∧ (s.coh d).win < s.exitBi then (s.coh d).quiet + 1 else 0) ∧ t.home.winAt = s.tick.loc ∧ t.regs = s.regs) ∧
  (∀ (s : State), ticksSince s.home.winAt s.tick.loc < s.windowTicks → exec .blanketWindowEnd s = .next s) ∧
  (∀ (d : DomIx) (a : Tick) (s : State), (s.coh d).due = some a → a ≠ s.tick.loc →
    exec (.blanketEnter d) s = .next (s.enterBlanket d 0)) ∧
  (∀ (d : DomIx) (n : Nat) (l : List Nat) (s : State), (s.coh d).blanket = true → (s.coh d).exitOn = false →
    s.exitWindows ≤ (s.coh d).quiet → s.dirAvail = true → s.home.sfLost = [] → s.untracked d = n :: l →
    ∃ t, exec (.exitWalkStart d) s = .next t ∧ (t.coh d).exitOn = true ∧ (t.coh d).blanket = true ∧
      t.walk (32 + d) = some { slice := n, after := s.tick.loc } ∧ t.home.untrk = s.home.untrk ∧ n ∈ t.home.visits) ∧
  (∀ (d : DomIx) (w : Walk) (s : State), (s.coh d).exitOn = true → s.tick.guardDone = false → s.walk (32 + d) = some w →
    w.ranAt ≠ some s.tick.loc → w.after ≠ s.tick.loc →
    exec (.exitWalkStep d) s =
      .next (let s1 := s.walkTick (32 + d) (State.examExit (32 + d) d)
             if s1.walkDone (32 + d) then (s1.visitEnd w.slice).visitNext d else s1)) ∧
  (∀ (d : DomIx) (a : Tick) (s : State), (s.coh d).exitOn = true → (s.coh d).clearAt = some a → a ≠ s.tick.loc → s.untracked d = [] →
    ∃ t, exec (.blanketExit d) s = .next t ∧ (t.coh d).blanket = false ∧ (t.coh d).exitOn = false ∧ (t.coh d).quiet = 0 ∧
      t.ev.seq = s.ev.seq + 1) ∧
  (∀ (q : Req) (k : Nat) (s : State), s.admitted 0x030E q { lenOk := true } = true → s.stackMask ≠ 0 →
    (∀ j, j < 32 → (s.slot j).job ≠ .dirRebuild) → s.pickSlot = some k →
    ∃ t, exec (.opDirRebuild q []) s = .next t ∧ t.bit sfDirStatus 30 = true ∧ t.bit sfDirStatus 31 = false ∧
      (s.dirAvail = true → ∀ e, e ∈ t.home.ents → e.2.onDie = true) ∧ (t.slot k).job = .dirRebuild)

/-- Requests at their home (R71, R72, R75, R76, R78): an accepted request whose message the table of R72 lists for its event opens a
tracker of its line, in the lookup; one that it does not list is a protocol error and completes in refused form; a clean eviction of
CXL.cache is one only when the line records the device; a MEMSPECRD does nothing; a BICONFLICT of a snooped line is acknowledged.
Write-backs (R72, R75): the recorded holder of an E or M line writes back: the line leaves E or M for O or S, or I, by whether it
keeps a copy and the line store has the line DIRTY; a write-back to a line without an entry is absorbed with DIRTY = 1, a partial
one (R77) merged by its byte mask into the line that the line store holds; a recorded sharer's is a protocol error, discarded with
the normal completion; MemWr with MetaValue A by an agent that the entry records, or a message that writes nothing back, is a
protocol error. -/
def Obligations.HomeRequests : Prop :=
  (∀ (r : HReq) (a : Nat × AgentSlot) (s : State), s.requestFree r a → evFits r.msg .rds = true →
    ∃ t, exec (.homeRds r) s = .next t ∧ s.opened t r .rds) ∧
  (∀ (r : HReq) (a : Nat × AgentSlot) (s : State), s.requestFree r a → evFits r.msg .rda = true →
    ∃ t, exec (.homeRda r) s = .next t ∧ s.opened t r .rda) ∧
  (∀ (r : HReq) (a : Nat × AgentSlot) (s : State), s.requestFree r a → evFits r.msg .rdown = true →
    ∃ t, exec (.homeRdown r) s = .next t ∧ s.opened t r .rdown) ∧
  (∀ (r : HReq) (a : Nat × AgentSlot) (s : State), s.requestFree r a → evFits r.msg .ncr = true →
    ∃ t, exec (.homeNcr r) s = .next t ∧ s.opened t r .ncr) ∧
  (∀ (r : HReq) (a : Nat × AgentSlot) (s : State), s.requestFree r a → evFits r.msg .ncw = true →
    ∃ t, exec (.homeNcw r) s = .next t ∧ s.opened t r .ncw) ∧
  (∀ (r : HReq) (a : Nat × AgentSlot) (s : State), s.requestFree r a → evFits r.msg .ce = true →
    ∃ t, exec (.homeCe r) s = .next t ∧ s.opened t r .ce) ∧
  (∀ (r : HReq) (s : State), s.clk.draining = false → evFits r.msg .rds = false →
    ∃ t, exec (.homeRds r) s = .next t ∧ s.protoRefused t r false) ∧
  (∀ (r : HReq) (s : State), s.clk.draining = false → evFits r.msg .rda = false →
    ∃ t, exec (.homeRda r) s = .next t ∧ s.protoRefused t r false) ∧
  (∀ (r : HReq) (s : State), s.clk.draining = false → evFits r.msg .rdown = false →
    ∃ t, exec (.homeRdown r) s = .next t ∧ s.protoRefused t r false) ∧
  (∀ (r : HReq) (s : State), s.clk.draining = false → evFits r.msg .ncr = false →
    ∃ t, exec (.homeNcr r) s = .next t ∧ s.protoRefused t r false) ∧
  (∀ (r : HReq) (s : State), s.clk.draining = false → memWrites r.msg = false → evFits r.msg .ncw = false →
    ∃ t, exec (.homeNcw r) s = .next t ∧ s.protoRefused t r true) ∧
  (∀ (r : HReq) (s : State), s.clk.draining = false → evFits r.msg .ce = false →
    ∃ t, exec (.homeCe r) s = .next t ∧ s.protoRefused t r false) ∧
  (∀ (r : HReq) (s : State), exec (.memspecrd r) s = .next s) ∧
  (∀ (r : HReq) (e : DirEnt) (s : State), s.ent (reqLine r) = some e → (s.holders e).contains r.fid = true →
    exec (.clflush r) s = .next (s.homeAccept .ce r)) ∧
  (∀ (r : HReq) (s : State), s.ent (reqLine r) = none → exec (.clflush r) s = .next (s.respond r.fid r.via (reqLine r) (some .goI))) ∧
  (∀ (fid : Fid) (la : Nat) (s : State), (s.snoopOf la fid).isSome = true →
    ∃ t, exec (.biconflict fid la) s = .next t ∧ Out.homeRsp fid .mem la .conflictAck ∈ t.out ∧ t.home = s.home) ∧
  (∀ (r : HReq) (e : DirEnt) (s : State), s.wbFree r → wbMsg r.msg = true → r.msg ≠ .memWr .a → r.msg ≠ .memWrPtl .a →
    s.ent (reqLine r) = some e → (e.st = 2 ∨ e.st = 3) → e.coarse = false → e.sh.contains r.fid = true → r.via ≠ .discard →
    ∃ t, exec (.homeWb r) s = .next t ∧
      t.ent (reqLine r) = (if r.msg.keeps then some { e with st := if t.dirtyHere (reqLine r) then 4 else 1 } else none) ∧
      Out.homeRsp r.fid r.via (reqLine r) .done ∈ t.out) ∧
  (∀ (r : HReq) (l : LsLine) (s : State), s.wbFree r → wbMsg r.msg = true → memWrites r.msg = false → s.homeReason r.fid r.slice true = none →
    (∀ k x, (k, x) ∈ s.home.trks → x.la ≠ reqLine r) → s.ent (reqLine r) = none → s.lsUsable (laSlice (reqLine r)) = true →
    s.lsLine (reqLine r) = some l → r.via ≠ .discard →
    ∃ t n, exec (.homeWb r) s = .next t ∧ t.home.ents = s.home.ents ∧
      t.lsLine (reqLine r) = some (if r.mask = BitVec.allOnes 64 then ⟨true, false, r.data, n, false⟩
        else ⟨true, l.poison, lineMerge l.data r.data r.mask, n, false⟩) ∧
      Out.homeRsp r.fid r.via (reqLine r) .done ∈ t.out) ∧
  (∀ (r : HReq) (s : State), wbMsg r.msg = false → exec (.homeWb r) s = .next (s.forbidden r true)) ∧
  (∀ (r : HReq) (e : DirEnt) (s : State), s.wbFree r → (r.msg = .memWr .a ∨ r.msg = .memWrPtl .a) → s.ent (reqLine r) = some e →
    e.coarse = false → e.sh.contains r.fid = true → exec (.homeWb r) s = .next (s.forbidden r true)) ∧
  (∀ (r : HReq) (e : DirEnt) (s : State), s.wbFree r → wbMsg r.msg = true → r.msg ≠ .memWr .a → r.msg ≠ .memWrPtl .a →
    s.ent (reqLine r) = some e → (e.st = 1 ∨ e.st = 4) → e.coarse = false → e.sh.contains r.fid = true → r.via ≠ .discard →
    ∃ t, exec (.homeWb r) s = .next t ∧ t.home = s.home ∧ t.bind = s.bind ∧
      t.nreg (sfBankProtoErrCnt (s.laBank (reqLine r))) = min 0xFFFFFFFF (s.nreg (sfBankProtoErrCnt (s.laBank (reqLine r))) + 1) ∧
      Out.homeRsp r.fid r.via (reqLine r) .done ∈ t.out) ∧
  (∀ (r : HReq) (s : State), memWrites r.msg = true → exec (.homeNcw r) s = exec (.homeWb r) s)

/-- The lookup answers a read of a line in I whose data is there (R75): RdS gives S, or O when the line store's copy is dirty; RdA
and RdOwn give E; the requester is the one recorded agent and gets the data with that grant. A clean eviction by the only sharer
frees the entry. Snoops (R75, R79, R93, R94): an answer without data leaves the tracker waiting for the other snooped agents, or
lets it go on when it was the last: an RdOwn with its data there is served in E; the answer to a snoop that was abandoned, and one
at or after the deadline, are discarded; an unanswered snoop makes its agent dead only after its deadline. -/
def Obligations.LookupsAndSnoops : Prop :=
  (∀ (k : Nat) (x : Trk) (d : Line) (s : State), tfind s.home.trks k = some x → x.phase = 1 →
    (x.ev = .rds ∨ x.ev = .rda ∨ x.ev = .rdown) → x.type2 = false → x.snps = [] → x.todo = none → x.ack = 0 → x.rsps = [] →
    x.wb = none → x.got = some (d, false) → x.via ≠ .discard → s.ent x.la = none → s.blanketDom (s.laDom x.la) = false →
    s.sfUp x.la = true → (s.dieSet x.la).length < 16 → s.dirBusy x.la = false →
    ∃ t e, exec (.sfLookupDone k) s = .next t ∧ t.ent x.la = some e ∧ e.sh = [x.fid] ∧ e.coarse = false ∧ e.onDie = true ∧
      e.st = (if x.ev = .rds then (if s.dirtyHere x.la then 4 else 1) else 2) ∧
      Out.homeRsp x.fid x.via x.la (.data (if x.ev = .rds then 1 else 2) d false) ∈ t.out) ∧
  (∀ (k : Nat) (x : Trk) (e : DirEnt) (s : State), tfind s.home.trks k = some x → x.phase = 1 → x.ev = .ce → x.via ≠ .discard →
    s.ent x.la = some e → e.onDie = true → e.coarse = false → e.sh = [x.fid] → e.st ≠ 3 → s.dirBusy x.la = false →
    ∃ t, exec (.sfLookupDone k) s = .next t ∧ t.ent x.la = none ∧ Out.homeRsp x.fid x.via x.la .done ∈ t.out) ∧
  (∀ (la k : Nat) (a : SnpRsp) (x : Trk) (s : State), s.home.gone.contains (la, (a.fid : Nat)) = false →
    s.snoopOf la a.fid = some (k, x) → a.data = none →
    (∀ n, n ∈ x.snps → n.fid = a.fid → tickEarlier s.tick.loc n.due = true ∧ a.keep.val + n.kind ≤ 2) →
    x.snps.any (fun n => decide (n.fid ≠ a.fid)) = true →
    exec (.snoopResponse la a) s =
      .next (s.setTrk k { x with snps := x.snps.filter (fun n => decide (n.fid ≠ a.fid)), rsps := x.rsps ++ [a] })) ∧
  (∀ (la k : Nat) (a : SnpRsp) (x : Trk) (n : Snp) (d : Line) (e : DirEnt) (s : State),
    s.home.gone.contains (la, (a.fid : Nat)) = false → s.snoopOf la a.fid = some (k, x) → a.data = none → a.keep = 0 → x.snps = [n] →
    n.fid = a.fid → n.kind ≤ 2 → tickEarlier s.tick.loc n.due = true → x.phase = 2 → x.todo = none → x.ack = 0 → x.ev = .rdown →
    x.type2 = false → x.wb = none → x.got = some (d, false) → x.via ≠ .discard → x.ent = some e → (e.st = 1 ∨ e.st = 4) →
    s.sfUp la = true → (s.dieSet la).length < 16 →
    ∃ t y, exec (.snoopResponse la a) s = .next t ∧ t.ent la = some y ∧ y.st = 2 ∧ y.sh = [x.fid] ∧ y.coarse = false ∧
      Out.homeRsp x.fid x.via la (.data 2 d false) ∈ t.out) ∧
  (∀ (la : Nat) (a : SnpRsp) (s : State), s.home.gone.contains (la, (a.fid : Nat)) = true →
    exec (.snoopResponse la a) s = .next (s.inHome (fun h => { h with gone := h.gone.erase (la, (a.fid : Nat)) }))) ∧
  (∀ (la k : Nat) (a : SnpRsp) (x : Trk) (s : State), s.home.gone.contains (la, (a.fid : Nat)) = false →
    s.snoopOf la a.fid = some (k, x) → (∀ n, n ∈ x.snps → n.fid = a.fid → tickEarlier s.tick.loc n.due = false) →
    exec (.snoopResponse la a) s =
      .next (s.setTrk k { x with snps := x.snps.map (fun n => if n.fid = (a.fid : Nat) then { n with late := true } else n) })) ∧
  (∀ (k : Nat) (fid : Fid) (x : Trk) (n : Snp) (s : State), tfind s.home.trks k = some x →
    x.snps.find? (fun n => decide (n.fid = (fid : Nat))) = some n → tickEarlier s.tick.loc n.due = true →
    exec (.snoopTimeout k fid) s = .next s) ∧
  (∀ (k : Nat) (fid : Fid) (x : Trk) (n : Snp) (s : State), tfind s.home.trks k = some x →
    x.snps.find? (fun n => decide (n.fid = (fid : Nat))) = some n → tickEarlier s.tick.loc n.due = false →
    tfind (s.agentDead fid).home.trks k = none → exec (.snoopTimeout k fid) s = .next (s.agentDead fid))

/-- What memory answers (R74, R78, R85, R86, R88): a device's data frees its read tracker and is dropped when its read was undone,
else goes to its request; acknowledgements let the writes of the line go on; a victim's way takes the line that waited; the oldest
request that waits on a line starts. -/
def Obligations.MemoryAnswers : Prop :=
  (∀ (rid la : Nat) (d : Line) (p : Bool) (s : State), tfind s.home.devRds rid = some (la, none) →
    ∃ t, exec (.deviceReadComplete rid d p) s = .next t ∧
      t = (s.inHome (fun h => { h with devRds := tdel h.devRds rid })).kickReads (s.laBank la) ∧ t.home.ents = s.home.ents ∧
      t.lineData = s.lineData) ∧
  (∀ (rid la k : Nat) (d : Line) (p : Bool) (x : Trk) (s : State), tfind s.home.devRds rid = some (la, some k) →
    tfind s.home.trks k = some x → x.ev.isMove = false →
    exec (.deviceReadComplete rid d p) s =
      .next ((((s.inHome (fun h => { h with devRds := tdel h.devRds rid })).lsFill la d p).readArrived k d p).kickReads (s.laBank la))) ∧
  (∀ (la : Nat) (s : State), s.allocOf la = none → exec (.lineStoreWriteAck la) s = .next (s.acked la 1)) ∧
  (∀ (la : Nat) (s : State), (s.allocOf la).isSome = true → exec (.lineStoreWriteAck la) s = .next s) ∧
  (∀ (la : Nat) (s : State), exec (.deviceWriteComplete la) s = .next (((s.devWrDone la).acked la 2).kickReads (s.laBank la))) ∧
  (∀ (la : Nat) (l : LsLine) (a : Alloc) (s : State), s.lsLine la = some l → l.wr = true → s.home.allocs = [a] → a.la ≠ la →
    s.lsSet a.la = s.lsSet la → s.home.trks = [] → (s.setLines la).length + s.setShadows la ≤ 16 →
    ∃ t n, exec (.lsVictimWriteDone la) s = .next t ∧ t.lsLine la = none ∧
      t.lsLine a.la = some { a.line with use := n, wr := false } ∧ t.home.allocs = []) ∧
  (∀ (la k : Nat) (x : Trk) (s : State), s.inDoubt la = false → s.lineBusy la = false → (k, x) ∈ s.home.trks → x.la = la →
    x.phase = 0 → x.ev = .ncw →
    (∀ j y, (j, y) ∈ s.home.trks → y.la = la → (j, y) ≠ (k, x) → x.ord < y.ord) →
    exec (.lineQueueAdvance la) s = .next ((s.lookup0 la).setTrk k { x with phase := 1 }))

/-- HBM reads (R147, R148): the first half of a read waits; a half of the other attempt is discarded; a lone half past the hold is
counted and its read issued again once as attempt 1; the second time the line is poisoned. Stacks and the mirror (R29, R152): a
retired stack takes the actions of R152, once; a retrain failure retires its stack when AUTO_RETIRE is set; the mirror copy goes a
unit of 1 MiB in a tick up to 576. -/
def Obligations.StackMemory : Prop :=
  (∀ (h : StackIx) (pc : Fin 32) (slot : Fin 64) (attempt half : Bool) (x : RdSlot) (s : State),
    tfind s.hbm.slots ((h.val * 32 + pc.val) * 64 + slot.val) = some x → x.attempt ≠ b2n attempt →
    ∀ quality, exec (.hbmBurstArrival h pc slot attempt half quality) s = .next s) ∧
  (∀ (h : StackIx) (pc : Fin 32) (slot : Fin 64) (half : Bool) (x : RdSlot) (s : State),
    tfind s.hbm.slots ((h.val * 32 + pc.val) * 64 + slot.val) = some x → x.attempt = 0 → x.halves = 0 →
    exec (.hbmBurstArrival h pc slot false half 0) s = .next (s.inHbm (fun z => { z with
      slots := tins z.slots ((h.val * 32 + pc.val) * 64 + slot.val) { x with halves := if half then 2 else 1 } }))) ∧
  (∀ (h : StackIx) (pc : Fin 32) (slot : Fin 64) (half : Bool) (x : RdSlot) (s : State),
    tfind s.hbm.slots ((h.val * 32 + pc.val) * 64 + slot.val) = some x → x.attempt = 0 → x.halves = (if half then 1 else 2) →
    exec (.hbmBurstArrival h pc slot false half 0) s =
      .next (s.deliver ((h.val * 32 + pc.val) * 64 + slot.val) { x with halves := 3 })) ∧
  (∀ (h : StackIx) (pc : Fin 32) (slot : Fin 64) (x : RdSlot) (k : Nat) (s : State),
    tfind s.hbm.slots ((h.val * 32 + pc.val) * 64 + slot.val) = some x → (x.halves = 1 ∨ x.halves = 2) → x.attempt = 0 →
    x.trk = some k →
    ∃ t, exec (.pairingHoldExpiry h pc slot) s = .next t ∧
      tfind t.hbm.slots ((h.val * 32 + pc.val) * 64 + slot.val) = some { x with attempt := 1, halves := 0 } ∧
      Out.hbmRead h x.la ∈ t.out ∧ t.home = s.home) ∧
  (∀ (h : StackIx) (pc : Fin 32) (slot : Fin 64) (x : RdSlot) (s : State),
    tfind s.hbm.slots ((h.val * 32 + pc.val) * 64 + slot.val) = some x → (x.halves = 1 ∨ x.halves = 2) → x.attempt ≠ 0 →
    exec (.pairingHoldExpiry h pc slot) s =
      .next ((s.cnt (hbmStkUnpairedCnt h)).pairPoison ((h.val * 32 + pc.val) * 64 + slot.val) x)) ∧
  (∀ (h : StackIx) (s : State), s.present 8 h = true → exec (.hbmStackRetire h) s = .next ((s.retireUnit 8 h).stackLost h)) ∧
  (∀ (h : StackIx) (s : State), s.present 8 h = false → exec (.hbmStackRetire h) s = .next s) ∧
  (∀ (h : StackIx) (pc : Fin 32) (s : State), s.present 8 h = true → s.bit hbmCtl 31 = true →
    exec (.pseudoChannelRetrainFail h pc) s = .next ((s.retireUnit 8 h).stackLost h)) ∧
  (∀ (n : Nat) (s : State), s.hbm.mirror = some n → n < 576 → s.tick.guardDone = false → s.hbm.mirAt ≠ some s.tick.loc →
    exec .mirrorCopyUnit s = .next (((s.inHbm (fun h => { h with mirror := some (n + 1), mirAt := some s.tick.loc })).stkRead (s.fld hbmStatus 12 2) 16384).stkWrite
      (s.fld hbmStatus 8 2) 16384)) ∧
  (∀ (n : Nat) (s : State), s.hbm.mirror = some n → 576 ≤ n → exec .mirrorCopyUnit s = .next s)

/-- The hamper ports (R106, R107): entry bytes are staged in a FREE slot, a header write of exactly the header submits the record
and makes the slot BUSY, a record with hampers switched off ends at once with ST_HMP_UNAVAILABLE, ACK frees a DONE slot. -/
def Obligations.HamperPorts : Prop :=
  (∀ (v : VcsIx) (k : Fin 64) (off : Fin 4096) (b : List Byte) (s : State), (tfind s.bind.vcs v).isSome = true →
    (s.portSlot v k).st = 0 → 0x20 ≤ off.val → off.val + b.length ≤ 0xA20 →
    ∃ t, exec (.hamperPortEntryWrite v k off b) s = .next t ∧ (t.portSlot v k).st = 0 ∧ t.regs = s.regs ∧ t.hmp.parts = s.hmp.parts ∧
      ∀ j, tget 0 (t.portSlot v k).staged j =
        if off.val ≤ j ∧ j < off.val + b.length then byteAt b (j - off.val) else tget 0 (s.portSlot v k).staged j) ∧
  (∀ (v : VcsIx) (k : Fin 64) (b : List Byte) (x : Vcs) (s : State), s.clk.draining = false → tfind s.bind.vcs v = some x →
    (s.portSlot v k).st = 0 → b.length = 32 →
    exec (.hamperPortHeaderWrite v k 0 b) s =
      .next ((s.setPortSlot v k { s.portSlot v k with st := 1 }).hmpSubmit (.port v k) x.host v false (some x.usp)
        (b ++ (List.range 2560).map (fun j => BitVec.ofNat 8 (tget 0 (s.portSlot v k).staged (32 + j)))))) ∧
  (∀ (v : VcsIx) (k : Fin 64) (b : List Byte) (x : Vcs) (s : State), s.clk.draining = false → tfind s.bind.vcs v = some x →
    (s.portSlot v k).st = 0 → b.length = 32 → s.bit hmpCtl 31 = false →
    ∃ t, exec (.hamperPortHeaderWrite v k 0 b) s = .next t ∧ (t.portSlot v k).st = 2 ∧
      (t.portSlot v k).out = outcomeRec 0x44 false 0 0xFF 0 s.tick.fab (BitVec.ofNat 32 (leAt b 4 4)) ∧ t.hmp.origs = s.hmp.origs) ∧
  (∀ (v : VcsIx) (k : Fin 64) (s : State), (s.portSlot v k).st = 2 →
    ∃ t, exec (.hmpSlotAck v k) s = .next t ∧ t.portSlot v k = {} ∧ t.regs = s.regs) ∧
  (∀ (v : VcsIx) (k : Fin 64) (s : State), (s.portSlot v k).st = 1 → exec (.hmpSlotAck v k) s = .next (s.cnt hmpPortDiscardCnt))

/-- Parts at their home (R109 to R112): a part is kept until its window, is answered SLOTS_EXHAUSTED without a slot, and a second
copy is late; of two parts that want one line the one with the higher priority wins and the other votes RETRY; a WRITE line's
acquire holds it and snoops every holder, and waits in its line's queue behind what came before it. -/
def Obligations.HamperParts : Prop :=
  (∀ (m : HMsg) (s : State), (s.part m.key).isSome = true → exec (.hpartReceive m) s = .next (s.cnt hmpLateCnt)) ∧
  (∀ (m : HMsg) (s : State), s.part m.key = none → s.slotFree ≠ 0 → s.partCheck m.acting m.lines = none → s.locked = true →
    s.bit glbTickStatus 30 = false → tickEarlier s.tick.fab (m.key.stamp + 1 + BitVec.ofNat 48 m.attempt) = true →
    tickEarlier (m.key.stamp + 1 + BitVec.ofNat 48 m.attempt) s.tick.fab = false →
    m.key.stamp + 1 + BitVec.ofNat 48 m.attempt ≠ s.tick.fab →
    ∃ t p, exec (.hpartReceive m) s = .next t ∧ t.hmp.parts = s.hmp.parts ++ [p] ∧ p.key = m.key ∧ p.vote = none ∧ p.won = false ∧
      p.lines.map (·.l) = m.lines ∧ t.regs = s.regs ∧ t.out = s.out) ∧
  (∀ (m : HMsg) (s : State), s.part m.key = none → s.slotFree = 0 →
    ∃ t x b, exec (.hpartReceive m) s = .next t ∧ t.hmp = s.hmp ∧ Out.hmsg m.key.origin 2 x b ∈ t.out ∧ x.code = 0x43 ∧ x.key = m.key ∧
      (m.key.stamp + 1 + BitVec.ofNat 48 m.attempt = s.tick.fab → s.hmp.arbDone = true → t.reg hmpLateCnt = (s.cnt hmpLateCnt).reg hmpLateCnt)) ∧
  (∀ (p q : HPart) (l m : PLine) (s : State), s.hmp.arbDone = false → s.tick.guardDone = false → s.contenders = [p, q] → p.key ≠ q.key → l ∈ p.lines →
    m ∈ q.lines → m.la = l.la → prior p.key q.key = true → prior q.key p.key = false →
    ∃ t, exec .hamperArbitration s = .next t ∧ t.part p.key = some { p with won := true } ∧
      t.part q.key = some { q with vote := some 1 } ∧ t.hmp.arbDone = true) ∧
  (∀ (key : HKey) (ix : Fin 32) (p : HPart) (l : PLine) (e : DirEnt) (s : State), s.part key = some p →
    p.lines.find? (fun l => decide (l.l.index = ix)) = some l → p.won = true → p.vote = none → l.step = 0 →
    (∀ x, x ∈ p.lines → x.la < l.la → s.laBank x.la = s.laBank l.la → x.step = 2) → s.lineBusy l.la = false →
    s.home.trks.any (fun x => decide (x.2.la = l.la) || decide (x.2.ev = .hamper key ix)) = false → s.dirBusy l.la = false →
    s.ent l.la = some e → l.l.compare = false → s.holders e ≠ [] → s.tick.guardDone = false → s.sfUp l.la = true →
    e.onDie = true → s.copiesWaiting (s.laBank l.la) + (s.holders e).length ≤ 4096 →
    ∃ t k x y, exec (.hamperLineAcquire key ix) s = .next t ∧ tfind t.home.trks k = some x ∧ x.la = l.la ∧ x.ev = .hamper key ix ∧
      x.snps.map (·.fid) = s.holders e ∧ (∀ f, f ∈ s.holders e → Out.snoop f 2 l.la ∈ t.out) ∧
      t.ent l.la = some y ∧ y = { e with hold := true, onDie := true, use := y.use }) ∧
  (∀ (key : HKey) (ix : Fin 32) (p : HPart) (l : PLine) (s : State), s.part key = some p →
    p.lines.find? (fun l => decide (l.l.index = ix)) = some l → p.won = true → p.vote = none → l.step = 0 →
    (∀ x, x ∈ p.lines → x.la < l.la → s.laBank x.la = s.laBank l.la → x.step = 2) → s.lineBusy l.la = false →
    s.home.trks.any (fun x => decide (x.2.la = l.la) || decide (x.2.ev = .hamper key ix)) = false →
    (∀ e, s.ent l.la = some e → e.onDie = false) → s.tick.guardDone = false → s.sfUp l.la = true →
    (s.dieSet l.la).length < 16 → s.dirAvail = true →
    ∃ t k x, exec (.hamperLineAcquire key ix) s = .next t ∧ tfind t.home.trks k = some x ∧ x.la = l.la ∧ x.ev = .hamper key ix ∧
      x.dir = true ∧ x.snps = [] ∧ t.ent l.la = s.ent l.la ∧ t.hmp = s.hmp) ∧
  (∀ (key : HKey) (ix : Fin 32) (p : HPart) (l : PLine) (s : State), s.part key = some p →
    p.lines.find? (fun l => decide (l.l.index = ix)) = some l → p.won = true → p.vote = none → l.step = 0 →
    (∀ x, x ∈ p.lines → x.la < l.la → s.laBank x.la = s.laBank l.la → x.step = 2) → s.tick.guardDone = false →
    s.home.trks.any (fun x => decide (x.2.ev = .hamper key ix)) = false →
    (s.lineBusy l.la = true ∨ s.home.trks.any (fun x => decide (x.2.la = l.la)) = true) →
    ∃ t k x, exec (.hamperLineAcquire key ix) s = .next t ∧ tfind t.home.trks k = some x ∧ x.la = l.la ∧ x.ev = .hamper key ix ∧ x.phase = 0 ∧
      t.ent l.la = s.ent l.la ∧ t.hmp = s.hmp)

/-- Late parts (R110): a part that arrives after ARB_CYCLE of its window takes no part in that window's arbitration: its home votes
RETRY at once, or, where it has no free slot, ST_HMP_BUSY, increments HMP_LATE_CNT and raises EV_HMP_LATE_MSG, at most once per
1,024 ticks. -/
def Obligations.LateParts : Prop :=
  (∀ (m : HMsg) (s : State),
    let w := m.key.stamp + 1 + BitVec.ofNat 48 m.attempt
    s.part m.key = none → s.slotFree ≠ 0 → s.partCheck m.acting m.lines = none → s.locked = true → s.bit glbTickStatus 30 = false →
    (tickEarlier w s.tick.fab = true ∨ w = s.tick.fab ∧ s.hmp.arbDone = true) →
    ∃ t p x b, exec (.hpartReceive m) s = .next t ∧ t.part m.key = some p ∧ p.vote = some 1 ∧ p.voteSent = true ∧ p.won = false ∧
      (∀ q, q ∈ t.contenders → q.key ≠ m.key) ∧ Out.hmsg m.key.origin 2 x b ∈ t.out ∧ x.key = m.key ∧ x.code = 1 ∧
      t.nreg hmpLateCnt = min 0xFFFFFFFF (s.nreg hmpLateCnt + 1) ∧
      (tget 0 s.ev.win (0x0404 * 2 ^ 32) = s.tick.loc.toNat / 1024 + 1 → t.ev = s.ev) ∧
      (tget 0 s.ev.win (0x0404 * 2 ^ 32) ≠ s.tick.loc.toNat / 1024 + 1 →
        t.ev.seq = s.ev.seq + 1 ∧ tget 0 t.ev.win (0x0404 * 2 ^ 32) = s.tick.loc.toNat / 1024 + 1)) ∧
  (∀ (m : HMsg) (s : State),
    let w := m.key.stamp + 1 + BitVec.ofNat 48 m.attempt
    s.part m.key = none → s.slotFree = 0 →
    (tickEarlier w s.tick.fab = true ∨ w = s.tick.fab ∧ s.hmp.arbDone = true) →
    ∃ t x b, exec (.hpartReceive m) s = .next t ∧ t.hmp.parts = s.hmp.parts ∧ Out.hmsg m.key.origin 2 x b ∈ t.out ∧ x.key = m.key ∧
      x.code = 0x43 ∧ t.nreg hmpLateCnt = min 0xFFFFFFFF (s.nreg hmpLateCnt + 1))

/-- Votes and decisions (R114, R115): a part votes PREPARED when its record is acknowledged, else ST_HMP_OVERRUN; a vote is kept
with its hamper; at DECIDE_CYCLE the decision follows from the votes and its DECISION record is written; without a commit log it is
an abort with ST_HMP_UNAVAILABLE (R152). -/
def Obligations.HamperVotes : Prop :=
  (∀ (key : HKey) (p : HPart) (s : State), s.part key = some p → p.voteSent = false → key.origin.val ≠ s.moduleFid →
    p.window = s.tick.fab → p.vote = none → s.tick.guardDone = false →
    ∃ t m q b, exec (.hamperVoteSend key) s = .next t ∧ t.part key = some q ∧ q.voteSent = true ∧
      q.vote = some (if p.prepAck then 0 else 0x4A) ∧ Out.hmsg key.origin 2 m b ∈ t.out ∧ m.key = key ∧
      m.code = (if p.prepAck then 0 else 0x4A)) ∧
  (∀ (m : HMsg) (o : HOrig) (s : State), s.orig m.key = some o → o.dec = none → m.attempt = o.retries →
    ∃ t, exec (.hvoteReceive m) s = .next t ∧
      t.orig m.key = some { o with votes := o.votes ++ [(m.sender.val, m.code.toNat, m.fail.toNat)] } ∧ t.regs = s.regs) ∧
  (∀ (m : HMsg) (s : State), s.orig m.key = none → exec (.hvoteReceive m) s = .next (s.cnt hmpLateCnt)) ∧
  (∀ (o : HOrig) (s : State), s.hmp.dcdDone = false → s.part o.key = none →
    s.hmp.origs.filter (fun o => decide (o.window = s.tick.fab) && o.dec.isNone && o.homes.any (fun h => decide (h ≠ s.moduleFid))) = [o] →
    o.homes.all (fun h => decide (h = s.moduleFid) || o.votes.any (fun v => decide (v.1 = h))) = true →
    (s.bit hmpStatus 30 = false → ∃ t, exec .hamperDecide s = .next t ∧
      t.orig o.key = some { o with dec := some 0x44, decAck := true } ∧ t.hmp.log = s.hmp.log) ∧
    (s.bit hmpStatus 30 = true → ∃ t r, exec .hamperDecide s = .next t ∧ t.hmp.dcdDone = true ∧
      t.orig o.key = some { o with dec := some (decideVotes (s.votesOf o) o.retries o.limit).1,
                                   fail := (decideVotes (s.votesOf o) o.retries o.limit).2 } ∧
      r ∈ t.hmp.log ∧ r.type = 2 ∧ r.key = o.key ∧ r.code = (decideVotes (s.votesOf o) o.retries o.limit).1))

/-- Records, decisions and doubt (R115, R116, R121, R123, R124): an acknowledged PREPARED record makes its part ready to vote, an
acknowledged DECISION goes to every other home; a decision received is held, or ends doubt; an in-doubt home asks every 16 ticks and
every query is answered; doubt past INDOUBT_TICKS poisons; the record of an in-doubt part is written again every 1,024 ticks. -/
def Obligations.HamperResolution : Prop :=
  (∀ (key : HKey) (p : HPart) (s : State), s.part key = some p → p.prepared = true → p.prepAck = false →
    ∃ t, exec (.commitLogWriteAck key 1) s = .next t ∧ t.part key = some { p with prepAck := true } ∧ t.hmp.log = s.hmp.log) ∧
  (∀ (key : HKey) (o : HOrig) (c : Nat) (s : State), s.orig key = some o → o.dec = some c → o.decAck = false →
    ∃ t, exec (.commitLogWriteAck key 2) s = .next t ∧ t.orig key = some { o with decAck := true } ∧
      ∀ h, h ∈ o.homes → h ≠ s.moduleFid → ∃ m b, Out.hmsg h 3 m b ∈ t.out ∧ m.key = key ∧ m.code = BitVec.ofNat 8 c) ∧
  (∀ (m : HMsg) (p : HPart) (s : State), s.part m.key = some p → m.key.origin.val ≠ s.moduleFid →
    ∃ t, exec (.hdecideReceive m) s = .next t ∧ t.regs = s.regs ∧
      t.part m.key = some (if p.doubt.isSome then { p with answer := some m.code.toNat } else { p with dec := some m.code.toNat })) ∧
  (∀ (key : HKey) (p : HPart) (d : Tick) (s : State), s.part key = some p → p.doubt = some d →
    (∀ a, p.asked = some a → 16 ≤ ticksSince a s.tick.loc) →
    ∃ t, exec (.hquerySend key) s = .next t ∧ t.part key = some { p with asked := some s.tick.loc } ∧
      ∀ h, (h = key.origin.val ∨ h ∈ p.parts) → h ≠ s.moduleFid → ∃ m b, Out.hmsg h 4 m b ∈ t.out ∧ m.key = key) ∧
  (∀ (m : HMsg) (s : State), ∃ t x b, exec (.hqueryReceive m) s = .next t ∧ t.out = s.out ++ [.hmsg m.sender 5 x b] ∧ x.key = m.key ∧
      x.code = BitVec.ofNat 8 (s.queryAnswer m) ∧ t.regs = s.regs ∧ t.hmp = s.hmp) ∧
  (∀ (m : HMsg) (p : HPart) (s : State), s.part m.key = some p → p.doubt.isSome = true → m.code ≠ 0xFE → m.code ≠ 0xFF →
    ∃ t, exec (.hanswerReceive m) s = .next t ∧ t.part m.key = some { p with answer := some m.code.toNat }) ∧
  (∀ (key : HKey) (p : HPart) (d : Tick) (s : State), s.part key = some p → p.doubt = some d →
    max 64 (s.fld hmpCtl 0 16) ≤ ticksSince d s.tick.loc →
    ∃ t, exec (.hamperIndoubtPoison key) s = .next t ∧ t.part key = some { p with poison := true } ∧ t.regs = s.regs) ∧
  (∀ (key : HKey) (p : HPart) (s : State), s.part key = some p → p.doubt.isSome = true →
    (∀ a, p.rew = some a → 1024 ≤ ticksSince a s.tick.loc) →
    ∃ t r, exec (.indoubtRecordRewrite key) s = .next t ∧ r ∈ t.hmp.log ∧ r.type = 1 ∧ r.key = key ∧
      t.part key = some { p with rew := some s.tick.loc }) ∧
  (∀ (key : HKey) (p : HPart) (a : Tick) (s : State), s.part key = some p → p.rew = some a → ticksSince a s.tick.loc < 1024 →
    exec (.indoubtRecordRewrite key) s = .next s) ∧
  (∀ (v : Word) (s : State), ∃ t, exec (.hmpTimingWrite false v) s = .next t ∧
      t.nreg hmpTiming0 = bits v 16 12 * 2 ^ 16 + bits v 0 12 ∧ t.hmp.arb = s.hmp.arb ∧ t.hmp.dcd = s.hmp.dcd ∧ t.hmp.xlat = s.hmp.xlat)

/-- A tile takes a message (R43, R140, R156, R158, R160): a message of an up CXL port is given the class of its type; one whose
source has a flow with room in both buckets is green, goes to the tail of its ingress queue toward its egress, and both buckets give
its charge; one with no route is a miss. -/
def Obligations.TileAcceptance : Prop :=
  (∀ (p : PortIx) (m : NetMsg) (src e : Nat) (f : Flow) (x : Fid) (s : State),
    let n : NetMsg := { m with cls := m.type.cls }
    s.portUp p = true → s.clk.draining = false → s.carries p m.type = true →
    s.pmode p ≠ 3 → s.edgeFid p m.ld = some src → m.dst = .fid x → s.egressOf (p.val / 16) src { dst := x } n = some e →
    tfind s.qos.flows (flowKey (p.val / 16) (fcOf n.cls) src) = some f → f.held = [] → s.wheel (p.val / 16) = false →
    f.dp + min 4096 (64 * cellCount m.bytes) ≤ f.pbs → f.dc + min 4096 (64 * cellCount m.bytes) ≤ f.cbs →
    s.spillDue (p.val * 8 + n.cls.val) = false → s.cellFit (p.val * 8 + n.cls.val) (cellCount m.bytes) = true →
    ∃ t y, exec (.tileMessageAccept p m) s = .next t ∧
      t.queue (p.val * 8 + n.cls.val) = s.queue (p.val * 8 + n.cls.val) ++ [y] ∧ y.m = n ∧ y.egress = e ∧ y.dst = x.val ∧ y.src = src ∧
      y.cells = cellCount m.bytes ∧ y.stamp = s.tick.loc ∧
      tfind t.qos.flows (flowKey (p.val / 16) (fcOf n.cls) src) = some { f with
        dp := f.dp + min 4096 (64 * cellCount m.bytes), dc := f.dc + min 4096 (64 * cellCount m.bytes) } ∧
      (∀ k, k ≠ p.val * 8 + n.cls.val → t.queue k = s.queue k)) ∧
  (∀ (p : PortIx) (m : NetMsg) (src : Nat) (x : Fid) (s : State),
    let n : NetMsg := { m with cls := m.type.cls }
    s.portUp p = true → s.clk.draining = false → s.carries p m.type = true → s.pmode p ≠ 3 →
    s.edgeFid p m.ld = some src → m.dst = .fid x → s.egressOf (p.val / 16) src { dst := x } n = none →
    exec (.tileMessageAccept p m) s = .next (((s.markBusy.npDone p n).routeMiss p x n).linkFree p n.cls)) ∧
  (∀ (p : PortIx) (m : NetMsg) (s : State), (s.portUp p = false ∨ s.clk.draining = true ∨ s.carries p m.type = false) → exec (.tileMessageAccept p m) s = .next s)

/-- The shaper (R160, R163). In bucket mode a red message changes no bucket, a conforming one takes its charge from the peak bucket,
a green one from the committed bucket too, and no bucket goes below empty. In wheel mode a conforming message moves NEXT on by its
charge over PIR and nothing is yellow. -/
def Obligations.ShaperBuckets : Prop :=
  ∀ (now c : Nat) (f : Flow), f.dp ≤ f.pbs → f.dc ≤ f.cbs →
    (let r := shaperTest false now f c
     (r.1 = 2 ↔ f.pbs - f.dp < c) ∧ (r.1 = 2 → r.2 = f) ∧ (r.1 = 1 → r.2 = { f with dp := f.dp + c }) ∧
     (r.1 = 0 ↔ c ≤ f.pbs - f.dp ∧ c ≤ f.cbs - f.dc) ∧ (r.1 = 0 → r.2 = { f with dp := f.dp + c, dc := f.dc + c }) ∧
     r.2.dp ≤ r.2.pbs ∧ r.2.dc ≤ r.2.cbs) ∧
    (let r := shaperTest true now f c
     r.1 ≠ 1 ∧ (f.pir = 0 → r = (2, f)) ∧ (r.1 = 2 → r.2 = f) ∧
     (r.1 = 0 → f.next - now ≤ min (f.pbs * 65536 / f.pir) (4096 * 65536) ∧
       r.2 = { f with next := max f.next now + c * 65536 / f.pir }))

/-- Transport (R138, R139, R141, R161, R163, R166): a station grants a lone request that fits and fills the beat with others, a
queue's oldest spill page is read and comes back to its tail, a port serves a queue that has credit and enough deficit, held
messages are tested in their order. -/
def Obligations.TileTransport : Prop :=
  (∀ (d : StationIx) (r : MtrReq) (s : State), (s.collect.mtrDrain d).mtrReqs d = [r] → (s.collect.mtrDrain d).mtrFits d r = true →
    nbit (tget 0 s.tel.level (d.val / 2)) 1 = false → 192 ≤ r.m.egress → r.q < 4096 →
    ∃ t l, exec (.mortarBeatGrant d) s = .next t ∧
      tget [] t.hbm.recv d = tget [] (s.collect.mtrDrain d).hbm.recv d ++ r.m :: l ∧ t.mtrWait d r = 0 ∧
      (4 ≤ r.m.slots → l = [] ∧ t.queue r.q = ((s.collect.mtrDrain d).queue r.q).drop 1)) ∧
  (∀ (p : PortIx) (c : ClassIx) (eg : Bool) (pg k : Nat) (m : TMsg) (ch : List (Nat × TMsg)) (s : State),
    let q := (if eg then 1536 else 0) + p.val * 8 + c.val
    let k0 := (pg % 4 * 32 + areaPc (pg / 4 * 4096)) * 64
    tget [] s.hbm.spill q = (pg, m) :: ch → cellsOf (s.queue q) < 64 → s.fetchCells q = 0 →
    s.cellFit q (cellsOf ((((pg, m) :: ch).filter (fun x => decide (x.1 = pg))).map (·.2))) = true →
    (List.range 64).find? (fun k => (tfind s.hbm.slots (k0 + k)).isNone) = some k →
    ∃ t, exec (.spillFetch p c eg) s = .next t ∧
      tfind t.hbm.slots (k0 + k) = some { la := pg, trk := none, job := .spill q pg } ∧
      t.hbm.spill = s.hbm.spill ∧ t.hbm.queues = s.hbm.queues) ∧
  (∀ (h : StackIx) (pc : Fin 32) (slot : Fin 64) (q pg : Nat) (x : RdSlot) (s : State),
    tfind s.hbm.slots ((h.val * 32 + pc.val) * 64 + slot.val) = some x → x.job = .spill q pg → x.attempt = 0 → x.halves = 1 →
    ∃ t, exec (.hbmBurstArrival h pc slot false true 0) s = .next t ∧
      t.queue q = s.queue q ++ ((tget [] s.hbm.spill q).filter (fun y => decide (y.1 = pg))).map (·.2) ∧
      tget [] t.hbm.spill q = (tget [] s.hbm.spill q).filter (fun y => decide (y.1 ≠ pg))) ∧
  (∀ (p : PortIx) (c : ClassIx) (m : TMsg) (s : State), s.pmode p ≠ 3 → s.cxState (s.linkOf p) = 2 →
    tget 0 s.qos.drrAt p % 8 = c.val → s.queue (1536 + p.val * 8 + c.val) = [m] → m.cells ≤ s.quantum p c →
    ∃ t, exec (.egressDrrTurn p (BitVec.ofNat 8 (2 ^ c.val))) s = .next t ∧ t.queue (1536 + p.val * 8 + c.val) = [] ∧
      Out.sent p m (s.egressIds p m) ∈ t.out) ∧
  (∀ (tl : TileIx) (fc : ClassIx) (src : Fid) (f : Flow) (m : TMsg) (s : State), s.wheel tl = false →
    tfind s.qos.flows (flowKey tl fc src) = some f → f.held = [m] → f.dp + min 4096 (64 * m.cells) ≤ f.pbs →
    f.cbs < f.dc + min 4096 (64 * m.cells) →
    ∃ t, exec (.holdListRelease tl fc (some src)) s = .next t ∧
      t.queue (m.inp * 8 + m.m.cls.val) = s.queue (m.inp * 8 + m.m.cls.val) ++ [m] ∧
      tfind t.qos.flows (flowKey tl fc src) = some { f with held := [], dp := f.dp + min 4096 (64 * m.cells) }) ∧
  (∀ (tl : TileIx) (fc : ClassIx) (src : Fid) (f : Flow) (m : TMsg) (s : State), s.wheel tl = true →
    tfind s.qos.flows (flowKey tl fc src) = some f → f.held = [m] → f.pir ≠ 0 → f.next ≤ s.now16 + f.tau →
    ∃ t, exec (.calendarSlotDue tl fc (some src)) s = .next t ∧
      t.queue (m.inp * 8 + m.m.cls.val) = s.queue (m.inp * 8 + m.m.cls.val) ++ [m] ∧
      tfind t.qos.flows (flowKey tl fc src) = some { f with held := [], next := max f.next s.now16 + min 4096 (64 * m.cells) * 65536 / f.pir }) ∧
  (∀ (p : PortIx) (c : ClassIx) (eg : Bool) (m : TMsg) (r : List TMsg) (lim : Nat) (s : State),
    let q := (if eg then 1536 else 0) + p.val * 8 + c.val
    s.queue q = m :: r → s.ageLimit c = some lim → lim ≤ ticksSince m.stamp s.tick.loc % 65536 → 6 ≤ c.val →
    ∃ t, exec (.messageAged p c eg) s = .next t ∧ t.queue q = r ∧ t.home = s.home ∧
      t.nreg (tlAgeDropCnt (p.val / 16)) = min 0xFFFFFFFF (s.nreg (tlAgeDropCnt (p.val / 16)) + 1))

/-- Flows (R159, R169): an accepted change waits for the next edge; then a new flow starts with full buckets, a changed one keeps
what its buckets hold clamped to the new sizes, and a cleared one hands its held messages to the default flow's list. Modes and
scaling (R164, R171): MODE = 1 is discarded with more than 16,384 flows; a change that is due, after an edge, flips
TL_QOS_STATUS.MODE and converts the tile's flows; a target whose deliverable rate at the edge changed gets the scale of its rate
over its reserved sum, at most 1. -/
def Obligations.QosFlowsAndModes : Prop :=
  (∀ (q : Req) (b : List Byte) (s : State),
    let key := flowKey q.index.toNat (byteAt b 4) (leAt b 0 4)
    s.admitted 0x0801 q { kinds := [1], lenOk := true } = true → b.length = 24 → leAt b 0 4 < 2 ^ 18 → fcOk (byteAt b 4) = true →
    rsvZero b [(5, 3)] = true → leAt b 8 4 < 2 ^ 24 → leAt b 12 4 < 2 ^ 24 → leAt b 16 4 < 2 ^ 24 → leAt b 20 4 < 2 ^ 24 →
    leAt b 8 4 ≤ pirFloor (byteAt b 4) (leAt b 12 4) → max 4096 (leAt b 16 4) ≤ leAt b 20 4 →
    ((s.futureKeys q.index.toNat).contains key = true ∨ (s.futureKeys q.index.toNat).length < 16384) →
    ∃ t, exec (.opQosFlowSet q b) s = .next t ∧ t.qos.flows = s.qos.flows ∧ Out.reply q 0x0801 stOk [] ∈ t.out ∧
      t.qos.changes = s.qos.changes ++ [⟨q.index.toNat, key,
        some (leAt b 8 4, pirFloor (byteAt b 4) (leAt b 12 4), max 4096 (leAt b 16 4), leAt b 20 4), s.tick.loc⟩]) ∧
  (∀ (q : Req) (b : List Byte) (s : State),
    let key := flowKey q.index.toNat (byteAt b 4) (leAt b 0 4)
    s.admitted 0x0802 q { kinds := [1], lenOk := true } = true → b.length = 8 → leAt b 0 4 < 2 ^ 18 → fcOk (byteAt b 4) = true →
    rsvZero b [(5, 3)] = true → (s.futureKeys q.index.toNat).contains key = true →
    ∃ t, exec (.opQosFlowClear q b) s = .next t ∧ t.qos.flows = s.qos.flows ∧ Out.reply q 0x0802 stOk [] ∈ t.out ∧
      t.qos.changes = s.qos.changes ++ [⟨q.index.toNat, key, none, s.tick.loc⟩]) ∧
  (∀ (tl key cir pir cbs pbs : Nat) (a : Tick) (l : List FlowChange) (s : State),
    s.qos.changes = ⟨tl, key, some (cir, pir, cbs, pbs), a⟩ :: l → a ≠ s.tick.loc →
    ∃ t g, exec .flowChangeApply s = .next t ∧ t.qos.changes = l ∧ tfind t.qos.flows key = some g ∧ g.cir = cir ∧ g.pir = pir ∧
      g.cbs = cbs ∧ g.pbs = pbs ∧ (∀ k, k ≠ key → tfind t.qos.flows k = tfind s.qos.flows k) ∧
      (tfind s.qos.flows key = none → g.dc = 0 ∧ g.dp = 0 ∧ g.held = []) ∧
      (∀ f, tfind s.qos.flows key = some f →
        g.cbs - g.dc = min cbs (f.cbs - f.dc) ∧ g.pbs - g.dp = min pbs (f.pbs - f.dp) ∧ g.held = f.held)) ∧
  (∀ (tl key : Nat) (a : Tick) (l : List FlowChange) (f : Flow) (s : State), s.qos.changes = ⟨tl, key, none, a⟩ :: l →
    a ≠ s.tick.loc → tfind s.qos.flows key = some f →
    ∃ t, exec .flowChangeApply s = .next t ∧ t.qos.changes = l ∧ tfind t.qos.flows key = none ∧
      (t.defFlow tl (key / 2 ^ 18 % 8)).held = (s.defFlow tl (key / 2 ^ 18 % 8)).held ++ f.held) ∧
  (∀ (tl : TileIx) (v : Word) (s : State), s.present 1 tl = false →
    exec (.tlQosCtlWrite tl v) s = .next (s.raise 0x0101 [.w (tlQosCtl tl)])) ∧
  (∀ (tl : TileIx) (v : Word) (s : State), s.present 1 tl = true → bits v 0 2 = 1 → 16384 < (s.futureKeys tl).length →
    exec (.tlQosCtlWrite tl v) s = .next s) ∧
  (∀ (tl : TileIx) (v : Word) (s : State), s.present 1 tl = true → (bits v 0 2 ≠ 1 ∨ (s.futureKeys tl).length ≤ 16384) →
    ∃ t, exec (.tlQosCtlWrite tl v) s = .next t ∧ t.fld (tlQosCtl tl) 0 2 = bits v 0 2 ∧ t.qos.flows = s.qos.flows ∧
      t.bit (tlQosStatus tl) 31 = s.bit (tlQosStatus tl) 31) ∧
  (∀ (tl : TileIx) (s : State), tget 0 s.qos.modeReq tl = 0 → exec (.qosModeChange tl) s = .next s) ∧
  (∀ (tl : TileIx) (m : Nat) (s : State), tget 0 s.qos.modeReq tl = m → (m = 1 ∨ m = 2) →
    tget 0 s.qos.modeAt tl ≠ s.tick.loc.toNat + 1 →
    ∃ t, exec (.qosModeChange tl) s = .next t ∧ t.wheel tl = decide (m = 2) ∧ tget 0 t.qos.modeReq tl = 0 ∧
      t.qos.flows = s.qos.flows.map (fun e => if tileOfKey e.1 = tl then (e.1, e.2.convert (decide (m = 2)) s.now16) else e) ∧
      t.ev.seq = s.ev.seq + 1) ∧
  (∀ (tl : TileIx) (s : State), tget 0 s.qos.modeAt tl = s.tick.loc.toNat + 1 → exec (.qosModeChange tl) s = .next s) ∧
  (∀ (g : Fin 4096) (s : State), tget 0 s.qos.edgeD g ≠ tget 0 s.qos.seen g →
    ∃ t, exec (.qosRescale g) s = .next t ∧ tget 0 t.qos.seen g = tget 0 s.qos.edgeD g ∧
      t.tgtScale g = (if s.tgtSum g = 0 then 65536 else min 65536 (tget 0 s.qos.edgeD g * 65536 / s.tgtSum g)) ∧
      t.qos.rsv = s.qos.rsv) ∧
  (∀ (g : Fin 4096) (s : State), tget 0 s.qos.edgeD g = tget 0 s.qos.seen g → exec (.qosRescale g) s = .next s)

/-- Admission (R167, R168): a new reservation within the target's deliverable rate is kept and answered with the headroom that is
left; one beyond it is refused with the headroom and changes no reservation; a release removes it; a device's rate is declared. -/
def Obligations.QosAdmission : Prop :=
  (∀ (q : Req) (b : List Byte) (k : Nat) (s : State),
    let x := s.begun 0x0803 q b
    let g := leAt b 6 2
    s.admitted 0x0803 q { lenOk := true, units := tgtUnits g, objs := tgtObjs g } = true → b.length = 12 → leAt b 0 4 < 2 ^ 18 → fcOk (byteAt b 4) = true →
    rsvZero b [(5, 1)] = true → g < 4096 → leAt b 8 4 < 2 ^ 24 → s.rsvFind (leAt b 0 4) (byteAt b 4) g = none →
    (List.range (min 65536 (s.qos.rsv.length + 1))).find? (fun k => (tfind s.qos.rsv k).isNone) = some k →
    x.tgtDeliver g ≠ 0 → s.tgtSum g + leAt b 8 4 ≤ x.tgtDeliver g →
    ∃ t, exec (.opQosReserve q b) s = .next t ∧ t.qos.rsv = tins s.qos.rsv k ⟨leAt b 0 4, byteAt b 4, g, leAt b 8 4⟩ ∧
      Out.reply q 0x0803 stOk (toLe 4 (x.tgtDeliver g - (s.tgtSum g + leAt b 8 4))) ∈ t.out) ∧
  (∀ (q : Req) (b : List Byte) (k : Nat) (s : State),
    let x := s.begun 0x0803 q b
    let g := leAt b 6 2
    s.admitted 0x0803 q { lenOk := true, units := tgtUnits g, objs := tgtObjs g } = true → b.length = 12 → leAt b 0 4 < 2 ^ 18 → fcOk (byteAt b 4) = true →
    rsvZero b [(5, 1)] = true → g < 4096 → leAt b 8 4 < 2 ^ 24 → s.rsvFind (leAt b 0 4) (byteAt b 4) g = none →
    (List.range (min 65536 (s.qos.rsv.length + 1))).find? (fun k => (tfind s.qos.rsv k).isNone) = some k →
    x.tgtDeliver g ≠ 0 → x.tgtDeliver g < s.tgtSum g + leAt b 8 4 →
    ∃ t, exec (.opQosReserve q b) s = .next t ∧ t.qos.rsv = s.qos.rsv ∧
      Out.reply q 0x0803 stQosAdmission (toLe 4 (x.tgtDeliver g - s.tgtSum g)) ∈ t.out) ∧
  (∀ (q : Req) (b : List Byte) (e : Nat × Rsv) (s : State), s.admitted 0x0804 q { lenOk := true, units := tgtUnits (leAt b 6 2), objs := tgtObjs (leAt b 6 2) } = true → b.length = 8 →
    leAt b 0 4 < 2 ^ 18 → fcOk (byteAt b 4) = true → rsvZero b [(5, 1)] = true → leAt b 6 2 < 4096 →
    s.rsvFind (leAt b 0 4) (byteAt b 4) (leAt b 6 2) = some e →
    ∃ t, exec (.opQosRelease q b) s = .next t ∧ t.qos.rsv = tdel s.qos.rsv e.1 ∧ Out.reply q 0x0804 stOk [] ∈ t.out) ∧
  (∀ (q : Req) (b : List Byte) (s : State), s.admitted 0x0805 q { lenOk := true, units := tgtUnits (leAt b 6 2), objs := tgtObjs (leAt b 6 2) } = true → b.length = 12 → rsvZero b [(0, 6)] = true →
    256 ≤ leAt b 6 2 → leAt b 6 2 < 4096 → leAt b 8 4 < 2 ^ 24 → tget 0 s.bind.devs (leAt b 6 2 - 256) ≠ 0 →
    ∃ t, exec (.opQosTargetSet q b) s = .next t ∧ Out.reply q 0x0805 stOk [] ∈ t.out ∧
      t.qos.declared = (if leAt b 8 4 = 0 then tdel s.qos.declared (leAt b 6 2) else tins s.qos.declared (leAt b 6 2) (leAt b 8 4)))

/-- Entries start (R181, R185, R187, R189, R190): a ring that may start its next entry starts its job when the format is good, the
operation permitted and every operand byte passes its check; a bad format ends it with ST_ENG_FORMAT and the offset; NOP ends with
ST_OK. -/
def Obligations.EntriesStart : Prop :=
  (∀ (ix : InstIx) (ext : List (Nat × Nat × Nat)) (s : State), s.entryReady ix 0x01 ext →
    ∃ t j, exec (.copy ix ext) s = .next t ∧ s.jobBegun t ix j) ∧
  (∀ (ix : InstIx) (ext : List (Nat × Nat × Nat)) (s : State), s.entryReady ix 0x02 ext →
    ∃ t j, exec (.fill ix ext) s = .next t ∧ s.jobBegun t ix j) ∧
  (∀ (ix : InstIx) (ext : List (Nat × Nat × Nat)) (s : State), s.entryReady ix 0x03 ext →
    ∃ t j, exec (.compare ix ext) s = .next t ∧ s.jobBegun t ix j) ∧
  (∀ (ix : InstIx) (ext : List (Nat × Nat × Nat)) (s : State), s.entryReady ix 0x04 ext →
    ∃ t j, exec (.crc32c ix ext) s = .next t ∧ s.jobBegun t ix j ∧ j.crc = leAt (s.inst ix).entry 24 4) ∧
  (∀ (ix : InstIx) (ext : List (Nat × Nat × Nat)) (s : State), s.entryReady ix 0x08 ext →
    ∃ t j, exec (.reduce ix ext) s = .next t ∧ s.jobBegun t ix j ∧ j.acc = accIn (s.inst ix).entry) ∧
  (∀ (ix : InstIx) (ext : List (Nat × Nat × Nat)) (s : State), s.canStart ix = true → s.insLegacy ix = false → s.insReject ix = false →
    formatErr false (s.inst ix).entry = none → byteAt (s.inst ix).entry 0 = 0 →
    ∃ t j, exec (.nop ix ext) s = .next t ∧ (t.inst ix).job = some j ∧ j.fin = some (stOk, 0) ∧ j.bytes = (s.inst ix).entry) ∧
  (∀ (ix : InstIx) (ext : List (Nat × Nat × Nat)) (off : Nat) (s : State), s.canStart ix = true →
    formatErr (s.insLegacy ix) (s.inst ix).entry = some off → byteAt (s.inst ix).entry 0 = 0x01 →
    ∃ t j, exec (.copy ix ext) s = .next t ∧ (t.inst ix).job = some j ∧ j.fin = some (stEngFormat, off)) ∧
  (∀ (ix : InstIx) (rec : List Byte) (ext : List (Nat × Nat × Nat)) (s : State), s.canStart ix = true → s.insLegacy ix = false →
    s.insReject ix = false → formatErr false (s.inst ix).entry = none → byteAt (s.inst ix).entry 0 = 0x11 →
    32 + 80 * byteAt rec 1 ≤ rec.length → leAt (s.inst ix).entry 16 8 + (32 + 80 * byteAt rec 1) ≤ 2 ^ 64 →
    s.opndCheck ix [⟨1, byteAt (s.inst ix).entry 24, leAt (s.inst ix).entry 16 8, 32 + 80 * byteAt rec 1, false⟩] ext = none →
    ∃ t e, exec (.hamper ix rec ext) s = .next t ∧ (t.inst ix).job = none ∧ e ∈ (t.inst ix).ents ∧ e.job = s.eng.jobs ∧ e.opn = true ∧
      e.pos = (s.inst ix).x) ∧
  (∀ (fid : Fid) (tag : Word) (sl : SliceIx) (off : BitVec 22) (rights : BitVec 2) (len : BitVec 64) (s : State),
    off.toNat * 64 + len.toNat ≤ 2 ^ 28 → (s.slice sl).state ≠ 5 → s.homeReason fid sl (rights.getLsbD 1) = none →
    exec (.check fid tag sl off rights len) s = .next (s.emit (.fabMsg (24 + s.laBank (sl.val * 2 ^ 22 + off.toNat)) fid 2 tag.toNat [0, 0, 0] none))) ∧
  (∀ (fid : Fid) (tag : Word) (sl : SliceIx) (off : BitVec 22) (rights : BitVec 2) (len : BitVec 64) (r : Nat) (s : State),
    off.toNat * 64 + len.toNat ≤ 2 ^ 28 → (s.slice sl).state ≠ 5 → s.homeReason fid sl (rights.getLsbD 1) = some r →
    ∃ t, exec (.check fid tag sl off rights len) s = .next t ∧ Out.fabMsg (24 + s.laBank (sl.val * 2 ^ 22 + off.toNat)) fid 2 tag.toNat [3, r, 0] none ∈ t.out ∧ t.home = s.home)

/-- Jobs go on and end (R176, R182, R186, R188, R189, R193, R197, R201): the last step of a FILL writes its pattern line by line, to
host memory or to the line's home, and ends the job; the first unequal byte ends a COMPARE; a step whose read failed ends with
ST_ENG_POISON and its offset; completion writes STATUS, DONE and RESULT together; an ATS invalidation waits for a step that uses its
page, and ends a job that rests at a boundary; a hamper's outcome goes into its entry, and a write-back of it that fails puts the
ring into ERROR. -/
def Obligations.JobsRun : Prop :=
  (∀ (ix : InstIx) (j : Job) (e : Nat) (rd : List (List Byte)) (s : State), (s.inst ix).job = some j → (s.inst ix).eng = some e →
    j.fin = none → byteAt j.bytes 0 = 0x02 → s.insLegacy ix = false → j.prog < leAt j.bytes 32 8 →
    leAt j.bytes 32 8 - j.prog ≤ s.stepKib * 1024 →
    ∃ t, exec (.jobStepBoundary ix rd none) s = .next t ∧
      (t.inst ix).job = some { j with prog := leAt j.bytes 32 8, fin := some (stOk, 0), rdTodo := [], rdOut := 0 } ∧
      (∀ y, y ∈ lineSpans (leAt j.bytes 16 8 + j.prog) (leAt j.bytes 32 8 - j.prog) →
        let w := (List.range y.2).map (fun k => j.bytes.getD (24 + (y.1 + k) % 8) 0)
        (s.remoteLine ix (byteAt j.bytes 40 / 4 % 4) y.1 = none → Out.engWrite ix (byteAt j.bytes 40 / 4 % 4) y.1 w ∈ t.out) ∧
        (∀ f sl o, s.remoteLine ix (byteAt j.bytes 40 / 4 % 4) y.1 = some (f, sl, o) →
          ∃ tag, Out.engCreq ix f tag 6 7 0 sl (o / 64) (2 ^ (o % 64 + y.2) - 2 ^ (o % 64))
            (List.replicate (o % 64) 0 ++ w ++ List.replicate (64 - o % 64 - y.2) 0) ∈ t.out))) ∧
  (∀ (ix : InstIx) (j : Job) (e k : Nat) (a c : List Byte) (s : State), (s.inst ix).job = some j → (s.inst ix).eng = some e →
    j.fin = none → byteAt j.bytes 0 = 0x03 → s.insLegacy ix = false →
    min (s.stepKib * 1024) (leAt j.bytes 32 8 - j.prog) ≤ a.length → min (s.stepKib * 1024) (leAt j.bytes 32 8 - j.prog) ≤ c.length →
    k < min (s.stepKib * 1024) (leAt j.bytes 32 8 - j.prog) → a.getD k 0 ≠ c.getD k 0 → (∀ n, n < k → a.getD n 0 = c.getD n 0) →
    ∃ t, exec (.jobStepBoundary ix [a, c] none) s = .next t ∧ (t.inst ix).job = some { j with fin := some (stEngMismatch, j.prog + k), rdTodo := [], rdOut := 0 }) ∧
  (∀ (ix : InstIx) (j : Job) (e off : Nat) (s : State), (s.inst ix).job = some j → (s.inst ix).eng = some e → j.fin = none →
    byteAt j.bytes 0 = 0x01 →
    ∃ t, exec (.jobStepBoundary ix [[]] (some (false, off))) s = .next t ∧
      (t.inst ix).job = some { j with fin := some (stEngPoison, off), rdTodo := [], rdOut := 0 }) ∧
  (∀ (ix : InstIx) (j : Job) (st res : Nat) (s : State), (s.inst ix).job = some j → j.fin = some (st, res) → haltingStatus st = false →
    (∀ e, (s.inst ix).eng = some e → e < 64) →
    ∃ t, exec (.jobComplete ix true) s = .next t ∧ (t.inst ix).job = none ∧
      Out.engStatus ix (s.ringSpace ix) (s.unitAddr ix j.pos) (toLe 1 st ++ [0x80]) (toLe 8 res) ∈ t.out) ∧
  (∀ (ix : InstIx) (num : Nat) (rec : List Byte) (e : REnt) (s : State),
    s.hmp.engOut.find? (fun o => decide (o.1 = ix.val)) = some (ix.val, num, rec) →
    ((s.inst ix).ents ++ (s.inst ix).late).find? (fun e => decide (e.job = num) && e.opn) = some e → s.ringState ix = 1 →
    (∃ t, exec (.hamperEntryOutcome ix) s = .next t ∧ t.hmp.engOut = s.hmp.engOut.erase (ix.val, num, rec) ∧
      Out.engStatus ix (s.ringSpace ix) (s.unitAddr ix e.pos) (toLe 1 (byteAt rec 0) ++ [0x80]) (toLe 8 0) ∈ t.out) ∧
    ((s.inst ix).job = none → ∃ t, exec (.jobComplete ix false) s = .next t ∧ t.ringState ix = 4)) ∧
  (∀ (ix : InstIx) (j : Job) (e : Nat) (s : State), (s.inst ix).job = some j → j.fin = none → (s.inst ix).eng = some e →
    exec (.atsInvalidation ix true) s = .next (s.setInst ix { s.inst ix with ats := (s.inst ix).ats + 1 })) ∧
  (∀ (ix : InstIx) (j : Job) (s : State), (s.inst ix).job = some j → j.fin = none → (s.inst ix).eng = none →
    exec (.atsInvalidation ix true) s =
      .next ((s.setInst ix { s.inst ix with job := some { j with fin := some (stEngDecode, j.atsResult) } }).emit (.atsDone ix))) ∧
  (∀ (ix : InstIx) (s : State), (s.inst ix).job.isNone = true → exec (.atsInvalidation ix true) s = .next (s.emit (.atsDone ix))) ∧
  (∀ (ix : InstIx) (s : State), exec (.atsInvalidation ix false) s = .next (s.emit (.atsDone ix)))

/-- Page moves (R47, R194 to R196, R201): an accepted PAGE_MOVE makes its slice MOVING from mark 0; the last page's copy makes the
new device back the slice; a move that its slice's failure stops ends with ST_ENG_TARGET_FAILED, and one that the loss of its new
device stops with ST_ENG_MOVE_ABORTED. -/
def Obligations.PageMoves : Prop :=
  (∀ (ix : InstIx) (ext : List (Nat × Nat × Nat)) (s : State),
    let b := (s.inst ix).entry
    let n := leAt b 16 4
    s.canStart ix = true → s.insLegacy ix = false → s.insReject ix = false → s.insManager ix = true → formatErr false b = none →
    byteAt b 0 = 0x10 → (s.slice n).state = 1 → s.hasMember (leAt b 20 4) = true →
    (leAt b 20 4 ≠ (s.slice n).dev ∨ leAt b 24 4 ≠ (s.slice n).dpa) → leAt b 24 4 < s.capacityOf (leAt b 20 4) →
    (∀ k x, (k, x) ∈ s.bind.slices → k ≠ n → x.state ≠ 0 → ¬ (x.dev = leAt b 20 4 ∧ x.dpa = leAt b 24 4) ∧
      ¬ (x.state = 4 ∧ x.newDev = leAt b 20 4 ∧ x.newDpa = leAt b 24 4)) →
    ∃ t j, exec (.pageMove ix ext) s = .next t ∧ (t.inst ix).job = some j ∧ j.fin = none ∧
      t.slice n = { s.slice n with state := 4, newDev := leAt b 20 4, newDpa := leAt b 24 4, mark := 0 } ∧
      (∀ k, k ≠ n → t.slice k = s.slice k)) ∧
  (∀ (ix : InstIx) (j : Job) (s : State),
    let n := leAt j.bytes 16 4
    (s.inst ix).job = some j → byteAt j.bytes 0 = 0x10 → j.fin = none → (s.slice n).state = 4 → (s.slice n).mark = 65535 →
    (∀ k, k < 64 → ∃ x, s.home.trks.find? (fun t => decide (t.2.la = n * 2 ^ 22 + 65535 * 64 + k) && t.2.ev.isMove) = some x ∧ x.2.phase = 5) →
    ∃ t, exec (.pageMoveStepDone ix) s = .next t ∧ (t.inst ix).job = some { j with fin := some (stOk, 65536) } ∧
      t.slice n = { s.slice n with mark := 0, dev := (s.slice n).newDev, dpa := (s.slice n).newDpa, newDev := 0, newDpa := 0,
                                   state := if 0 < (s.slice n).maps then 2 else 1 }) ∧
  (∀ (ix : InstIx) (j : Job) (st : Nat) (s : State), (s.inst ix).job = some j → byteAt j.bytes 0 = 0x10 → j.fin = none →
    j.stop = some st → (st = stEngTargetFailed ∨ st = stEngMoveAborted) →
    ∃ t, exec (.pageMoveStepDone ix) s = .next t ∧ (t.inst ix).job = some { j with fin := some (st, j.prog) })

/-- Rings (R178 to R180, R183, R184): a DISABLED ring whose range passes its checks runs from its head; EN = 0 stops a STOPPED ring
at once and stops a running one's job at its step boundary; a good doorbell moves the tail, a bad one makes the ring ERROR; units
are fetched in order; the head is published when it is due, and not before. -/
def Obligations.Rings : Prop :=
  (∀ (ix : InstIx) (s : State), s.insBound ix = true → s.bit (insRingCtl ix) 31 = false → s.ringState ix = 0 →
    s.fld (insRingCtl ix) 0 4 ≤ 10 → s.ringSpace ix = 1 → s.bit (insHeadWbCtl ix) 31 = false →
    ∃ t, exec (.ringEnable ix []) s = .next t ∧ t.ringState ix = 1 ∧ t.bit (insRingCtl ix) 31 = true ∧
      t.nreg (insRingTail ix) = (s.inst ix).h % 2 ^ 32 ∧ (t.inst ix).h = (s.inst ix).h ∧
      (t.inst ix).t = (s.inst ix).h ∧ (t.inst ix).ents = [] ∧
      t.out = s.out ++ (List.range (ceilDiv (s.ringBase ix % 4096 + s.ringUnits ix * 32) 4096)).map (fun k => .atsRequest ix (s.ringBase ix / 4096 + k))) ∧
  (∀ (ix : InstIx) (s : State), s.bit (insRingCtl ix) 31 = true → s.ringState ix = 3 →
    ∃ t, exec (.ringDisable ix) s = .next t ∧ t.ringState ix = 0 ∧ t.bit (insRingCtl ix) 31 = false) ∧
  (∀ (ix : InstIx) (j : Job) (s : State), s.bit (insRingCtl ix) 31 = true → s.ringState ix = 1 → (s.inst ix).job = some j → j.fin = none →
    j.stop = none →
    ∃ t, exec (.ringDisable ix) s = .next t ∧ t.ringState ix = 2 ∧ (t.inst ix).units = [] ∧
      ((s.inst ix).eng.isSome = true → (t.inst ix).job = some { j with stop := some stEngAborted }) ∧
      ((s.inst ix).eng = none → (t.inst ix).job = some { j with fin := some (stEngAborted, j.prog), rdTodo := [], rdOut := 0 })) ∧
  (∀ (ix : InstIx) (tail : Word) (s : State), s.ringState ix = 1 →
    (tail.toNat + 2 ^ 32 - (s.inst ix).h) % 2 ^ 32 ≤ s.ringUnits ix → (tail.toNat + 2 ^ 32 - (s.inst ix).t) % 2 ^ 32 < 2 ^ 31 →
    ∃ t, exec (.insDoorbellWrite ix tail) s = .next t ∧ (t.inst ix).t = tail.toNat ∧ t.reg (insRingTail ix) = tail ∧ t.ringState ix = 1) ∧
  (∀ (ix : InstIx) (tail : Word) (s : State), s.ringState ix = 1 → s.ringUnits ix < (tail.toNat + 2 ^ 32 - (s.inst ix).h) % 2 ^ 32 →
    ∃ t, exec (.insDoorbellWrite ix tail) s = .next t ∧ t.ringState ix = 4 ∧ t.fld (insRingStatus ix) 24 2 = 1 ∧ (t.inst ix).units = []) ∧
  (∀ (ix : InstIx) (tail : Word) (s : State), s.ringState ix ≠ 1 → exec (.insDoorbellWrite ix tail) s = .next (s.cnt engDoorbellErrCnt)) ∧
  (∀ (ix : InstIx) (b : List Byte) (s : State), s.ringState ix = 1 → ((s.inst ix).x + (s.inst ix).units.length) % 2 ^ 32 ≠ (s.inst ix).t →
    (s.inst ix).pfHeld < s.pfShare → (s.inst ix).refetch = false → b.length = 32 →
    ∃ t, exec (.ringUnitFetch ix (some b)) s = .next t ∧ (t.inst ix).units = (s.inst ix).units ++ [b] ∧ t.regs = s.regs ∧
      (s.ringSpace ix = 1 → t.out = s.out ++ [.engRead ix 1 (s.unitAddr ix ((s.inst ix).x + (s.inst ix).units.length)) 32 6])) ∧
  (∀ (ix : InstIx) (s : State), (s.inst ix).refetch = true → (s.inst ix).job = none →
    ∃ t, exec (.refetch ix) s = .next t ∧ t.inst ix = { s.inst ix with refetch := false } ∧ t.regs = s.regs) ∧
  (∀ (ix : InstIx) (s : State), s.headDue ix = false → ∀ good, exec (.headPublish ix good) s = .next s) ∧
  (∀ (ix : InstIx) (s : State), s.headDue ix = true → (s.inst ix).h < 2 ^ 32 →
    ∃ t, exec (.headPublish ix true) s = .next t ∧ t.nreg (insRingHead ix) = (s.inst ix).h ∧ (t.inst ix).unpub = 0)

/-- Instances (R205, R209, R211, R212, R216, R218): binding names the cluster with the fewest instances, new rates wait for the
edge, a reset clears the ring and keeps rates that wait; shares change to what the last edge found; a host reaches its own instance
pages only; mailboxes hold one message a way; an interrupt that is masked, at the instance or in its MSI-X table, stays pending. -/
def Obligations.Instances : Prop :=
  (∀ (q : Req) (b : List Byte) (c : Nat) (s : State),
    let n := q.index.toNat
    let x := s.begun 0x0601 q b
    s.admitted 0x0601 q { kinds := [9], lenOk := true } = true → b.length = 28 → leAt b 0 4 < 2 ^ 18 → leAt b 4 4 < 2 ^ 20 →
    byteAt b 8 < 8 → leAt b 10 2 < 2048 → leAt b 12 4 < 2 ^ 24 → leAt b 16 4 < 2 ^ 24 → leAt b 20 4 < 2 ^ 24 → leAt b 24 4 < 2 ^ 24 →
    leAt b 12 4 ≤ leAt b 16 4 → leAt b 20 4 ≤ leAt b 24 4 → x.pickCluster = some c →
    x.boundInsts.any (fun k => decide (k = n) || (decide (x.insHost k = leAt b 0 4) && decide (x.fld (engInst k + 4) 0 20 = leAt b 4 4))) = false →
    (x.vcsOfHost (leAt b 0 4)).isSome = true →
    ∃ t, exec (.opInsBind q b) s = .next t ∧ t.insBound n = true ∧ t.insHost n = leAt b 0 4 ∧ t.inst n = {} ∧
      Out.reply q 0x0601 stOk (toLe 1 c) ∈ t.out) ∧
  (∀ (q : Req) (b : List Byte) (s : State), s.admitted 0x0603 q { kinds := [9], lenOk := true } = true → b.length = 28 →
    rsvZero b [(0, 9), (10, 2)] = true → leAt b 12 4 < 2 ^ 24 → leAt b 16 4 < 2 ^ 24 → leAt b 20 4 < 2 ^ 24 → leAt b 24 4 < 2 ^ 24 →
    leAt b 12 4 ≤ leAt b 16 4 → leAt b 20 4 ≤ leAt b 24 4 → (s.begun 0x0603 q b).insBound q.index.toNat = true →
    ∃ t, exec (.opInsSetRate q b) s = .next t ∧ Out.reply q 0x0603 stOk [] ∈ t.out ∧
      t.inst q.index.toNat = { s.inst q.index.toNat with rates := some (byteAt b 9, leAt b 12 4, leAt b 16 4, leAt b 20 4, leAt b 24 4) }) ∧
  (∀ (q : Req) (b : List Byte) (s : State), s.admitted 0x0604 q { kinds := [9], lenOk := true } = true → b.length = 0 →
    ∃ t, exec (.opInsReset q b) s = .next t ∧ t.inst q.index.toNat = { rates := (s.inst q.index.toNat).rates } ∧ Out.reply q 0x0604 stOk [] ∈ t.out) ∧
  (∀ (v : VcsIx) (ix : InstIx) (off : Fin 4096) (c : Vcs) (s : State), tfind s.bind.vcs v = some c → s.insBound ix = true →
    s.insHost ix = c.host → off.val % 4 = 0 →
    exec (.instanceWindowAccess v ix off none 4 []) s = .next (s.emit (.insRead ix off (toLe 4 (s.pageRead ix off))))) ∧
  (∀ (v : VcsIx) (ix : InstIx) (off : Fin 4096) (b : List Byte) (n : Nat) (ext : List (Nat × Nat × Nat)) (c : Vcs) (s : State),
    tfind s.bind.vcs v = some c → s.insHost ix ≠ c.host →
    exec (.instanceWindowAccess v ix off (some b) n ext) s = .next (s.cnt engInstStrayCnt)) ∧
  (∀ (ix : InstIx) (v : Word) (s : State), s.bit (insIrqCtl ix) 31 = true → s.bit (insIrqCtl ix) 30 = true → v.getLsbD 31 = false →
    (∀ n c, s.vcsOfHost (s.insHost ix) = some (n, c) → s.msixMasked n (s.insVec ix) = false) →
    ∃ t, exec (.insIrqCtlWrite ix v) s = .next t ∧ t.bit (insIrqCtl ix) 31 = false ∧ t.bit (insIrqCtl ix) 30 = false ∧
      t.out = s.out ++ [.insIrq ix (s.insVec ix)]) ∧
  (∀ (ix : InstIx) (s : State), s.insBound ix = true → s.bit (insMboxCtl ix) 31 = false →
    ∃ t, exec (.t2mSend ix) s = .next t ∧ t.bit (insMboxCtl ix) 31 = true ∧ t.ev.seq = s.ev.seq + 1) ∧
  (∀ (ix : InstIx) (s : State), ∃ t, exec (.t2mAck ix) s = .next t ∧ t.bit (insMboxCtl ix) 31 = false ∧ t.out = s.out) ∧
  (∀ (ix : InstIx) (s : State), s.insBound ix = true → s.bit (insMboxCtl ix) 30 = false → s.bit (insIrqCtl ix) 31 = false →
    (∀ n c, s.vcsOfHost (s.insHost ix) = some (n, c) → s.msixMasked n (s.insVec ix) = false) →
    ∃ t, exec (.m2tSend ix) s = .next t ∧ t.bit (insMboxCtl ix) 30 = true ∧ t.out = s.out ++ [.insIrq ix (s.insVec ix)]) ∧
  (∀ (ix : InstIx) (n : Nat) (c : Vcs) (s : State), s.insBound ix = true → s.bit (insMboxCtl ix) 30 = false → s.bit (insIrqCtl ix) 31 = false →
    s.vcsOfHost (s.insHost ix) = some (n, c) → s.msixMasked n (s.insVec ix) = true →
    ∃ t, exec (.m2tSend ix) s = .next t ∧ t.bit (insMboxCtl ix) 30 = true ∧ t.out = s.out ∧ tget false t.cxl.pba (n * 2048 + s.insVec ix) = true) ∧
  (∀ (ix : InstIx) (s : State), s.insBound ix = true →
    ∃ t, exec (.m2tAck ix) s = .next t ∧ t.bit (insMboxCtl ix) 30 = false ∧ t.ev.seq = s.ev.seq + 1) ∧
  (∀ (ix : InstIx) (off : Fin 256) (b : List Byte) (s : State), s.bit (insMboxCtl ix) 31 = false →
    exec (.mailboxBufferWrite ix true false off b) s = .next (s.putBytes (insMboxT2m ix 0) off (b.take (256 - off.val)))) ∧
  (∀ (s : State), s.eng.dueN ≠ s.eng.shareN ∨ s.eng.dueP ≠ s.eng.shareP →
    ∃ t, exec .shareChange s = .next t ∧ t.eng.shareN = s.eng.dueN ∧ t.eng.shareP = s.eng.dueP)

/-- OP_INS_UNBIND (R207): refused with ST_INS_BUSY unless the ring is DISABLED and no HAMPER entry is open; accepted, it performs an
instance reset, then clears ENG_INST_BIND.VALID, then raises EV_INS_UNBOUND. -/
def Obligations.InstanceUnbinding : Prop :=
  stInsBusy = 0x70 ∧
  (∀ (q : Req) (s : State),
    let n := q.index.toNat
    let x := s.begun 0x0602 q []
    s.admitted 0x0602 q { kinds := [9], lenOk := true } = true → x.insBound n = true →
    (x.ringState n ≠ 0 ∨ ((x.inst n).ents ++ (x.inst n).late).any (fun e => e.opn) = true →
      exec (.opInsUnbind q []) s = .next (x.answered 0x0602 q stInsBusy [])) ∧
    (x.ringState n = 0 → ((x.inst n).ents ++ (x.inst n).late).any (fun e => e.opn) = false →
      ∃ r u : State, exec (.opInsUnbind q []) s = .next ((u.raise 0x0602 []).answered 0x0602 q stOk []) ∧
        r = x.insReset n ∧ r.inst n = { rates := (x.inst n).rates } ∧ u.insBound n = false ∧
        (∀ o, o ≠ engInst n → o ≠ insInfo n → u.reg o = r.reg o) ∧ u.eng = r.eng ∧ u.home = r.home ∧ u.out = r.out))

/-- Bring-up of a fabric link (R231 to R234, R237, R239, R285): each step's condition moves PT_FL_STATUS.STATE on; the far end's
INIT sets the credits and brings L0; 64 ticks without progress count a training failure. -/
def Obligations.LinkBringup : Prop :=
  (∀ (p : PortIx) (s : State), s.mayTrain p = true → (s.link p).wait = false → exec (.linkBringupStart p) s = .next (s.bringup p)) ∧
  (∀ (p : PortIx) (s : State), s.mayTrain p = true → (s.link p).wait = true → 1024 ≤ s.flAge p →
    exec (.linkTrainRetry p) s = .next (s.bringup p)) ∧
  (∀ (p : PortIx) (s : State), s.mayTrain p = false →
    exec (.linkBringupStart p) s = .next s ∧ exec (.linkTrainRetry p) s = .next s) ∧
  (∀ (p : PortIx) (s : State), s.flState p = 1 → 4 ≤ (s.lockedLanes p).length →
    ∃ t, exec (.lanesLocked p) s = .next t ∧ t.flState p = 2 ∧ t.bit (ptFlStatus p) 28 = s.trains64 p ∧ (t.link p).since = s.tick.loc) ∧
  (∀ (p : PortIx) (b1 b2 : Word) (s : State),
    let far := (List.range 5).filter (fun l => b1.getLsbD (3 + l) && b2.getLsbD (3 + l))
    let use := far.filter (fun l => !s.bit (ptFlLanemap p) (20 + l))
    (s.flState p = 1 ∨ s.flState p = 2) → (s.link p).asgn = false → trainParityOk (blockBits b1) = true →
    trainParityOk (blockBits b2) = true → 4 ≤ use.length →
    ∃ t, exec (.laneAssignment p b1 b2) s = .next t ∧ (∀ g, g < 4 → t.fld (ptFlLanemap p) (3 * g) 3 = use.getD g 0) ∧
      t.fld (ptFlLanemap p) 12 3 = use.getD 4 7 ∧ (t.link p).asgn = true) ∧
  (∀ (p : PortIx) (m : List LaneIx) (s : State), s.flState p = 2 → m.length = 4 → m.Nodup → m.all (fun l => decide (s.lnState p l = 6)) = true →
    ∃ t, exec (.alignDone p m) s = .next t ∧ t.flState p = 3 ∧ (t.link p).rxMap.take 4 = m.map (·.val) ∧ (t.link p).since = s.tick.loc) ∧
  (∀ (p : PortIx) (m : InitMsg) (s : State), s.flState p = 3 → m.moduleId.val ≠ s.moduleFid → m.version = 1 → s.offers p m.rates = true →
    m.resume = false → s.bit glbTickStatus 29 = false →
    ∃ t, exec (.initReceive p m) s = .next t ∧ t.flState p = 4 ∧ (∀ c, c < 8 → t.nreg (ptFlCreditRsv p c) = byteAt m.rsv c) ∧
      t.nreg (ptFlCreditSh p) = m.pool.toNat - ((List.range 8).map (byteAt m.rsv)).foldl (· + ·) 0 ∧
      t.fld (ptFlNeighbor p) 0 18 = m.moduleId ∧ t.bit (ptFlNeighbor p) 31 = true ∧ (t.link p).txSeq = 0 ∧ (t.link p).rxSeq = 0 ∧
      (t.link p).farSleep = m.sleepEn ∧ t.ev.seq = s.ev.seq + 1) ∧
  (∀ (p : PortIx) (s : State), 1 ≤ s.flState p → s.flState p ≤ 3 → 64 ≤ s.flAge p → (s.link p).conflict = false → (s.link p).slp ≠ 4 →
    ∃ t, exec (.linkTrainTimeout p) s = .next t ∧ t.flState p = 0 ∧ (t.link p).fails = (s.link p).fails + 1 ∧
      t.nreg (ptFlTrainFailCnt p) = min 0xFFFFFFFF (s.nreg (ptFlTrainFailCnt p) + 1)) ∧
  (∀ (p : PortIx) (v : BitVec 2) (s : State), s.present 2 p = true →
    ∃ t, exec (.ptFlCtlRateWrite p v) s = .next t ∧ t.fld (ptFlCtl p) 29 2 = v.toNat ∧ (t.link p).slow = false ∧ (t.link p).fails = 0 ∧
      (t.link p).downs = [])

/-- What takes a fabric link down (R239): EN = 0 with cause 7, a DOWN flit with cause 4, missed markers with cause 3, errors above
the limit of the window with cause 1; in training the link is DOWN at once. A write to an absent port is discarded with its event
(R4). -/
def Obligations.LinkDowns : Prop :=
  (∀ (p : PortIx) (s : State), s.present 2 p = true →
    exec (.ptFlCtlEnWrite p false) s = .next ((s.setBit (ptFlCtl p) 31 false).linkDown p 7)) ∧
  (∀ (p : PortIx) (s : State), s.present 2 p = false →
    (∀ v, exec (.ptFlCtlEnWrite p v) s = .next (s.raise 0x0101 [.w (ptFlCtl p)])) ∧
    ∀ v, exec (.ptFlCtlRateWrite p v) s = .next (s.raise 0x0101 [.w (ptFlCtl p)])) ∧
  (∀ (p : PortIx) (s : State), s.present 2 p = true → 1 ≤ s.flState p → s.flState p ≤ 3 →
    ∃ t, exec (.ptFlCtlEnWrite p false) s = .next t ∧ t.flState p = 0 ∧ t.bit (ptFlCtl p) 31 = false) ∧
  (∀ (p : PortIx) (s : State), s.present 2 p = true → exec (.ptFlCtlEnWrite p true) s = .next ((s.setBit (ptFlCtl p) 31 true).endTests p)) ∧
  (∀ (p : PortIx) (c : Byte) (s : State), 4 ≤ s.flState p → exec (.downFlitReceive p c) s = .next (s.linkDown p 4)) ∧
  (∀ (p : PortIx) (c : Byte) (s : State), s.flState p < 4 → exec (.downFlitReceive p c) s = .next s) ∧
  (∀ (p : PortIx) (s : State), s.linkL0 p = true → exec (.markersMissed p) s = .next (s.linkDown p 3)) ∧
  (∀ (p : PortIx) (s : State), s.linkL0 p = true → (s.link p).errWin = s.tick.loc.toNat / s.errTicks p + 1 →
    s.errLimit p < (s.link p).err → exec (.linkErrorLimit p) s = .next (s.linkDown p 1)) ∧
  (∀ (p : PortIx) (s : State), (s.link p).err ≤ s.errLimit p → exec (.linkErrorLimit p) s = .next s)

/-- Flits, replay and credits (R234 to R238): a DATA flit in sequence is accepted and acknowledged, one out of sequence is discarded
and NAKed once; what is not acknowledged within REPLAY_NS is sent again, and so is a NAK; a message takes its buffers from its class
and the shared credits or waits; CREDIT totals return by their difference. -/
def Obligations.LinkFlits : Prop :=
  (∀ (p : PortIx) (cw : BitVec 20) (b : List Byte) (s : State), s.linkL0 p = true → flitCrcOk b = true → leAt b 0 8 / 2 ^ 62 % 4 = 1 →
    nbit (leAt b 0 8) 36 = false → nbit (leAt b 0 8) 37 = false → leAt b 0 8 / 2 ^ 50 % 4096 = (s.link p).rxSeq →
    ∃ t, exec (.flitReceive p true cw [] b) s = .next t ∧ (t.link p).rxSeq = ((s.link p).rxSeq + 1) % 4096 ∧ (t.link p).ackV = true ∧
      (t.link p).nak = false ∧ Out.ackNak p (s.link p).rxSeq false ∈ t.out) ∧
  (∀ (p : PortIx) (cw : BitVec 20) (b : List Byte) (s : State), s.linkL0 p = true → flitCrcOk b = true → leAt b 0 8 / 2 ^ 62 % 4 = 1 →
    nbit (leAt b 0 8) 36 = false → nbit (leAt b 0 8) 37 = false → leAt b 0 8 / 2 ^ 50 % 4096 ≠ (s.link p).rxSeq → (s.link p).nak = false →
    ∃ t, exec (.flitReceive p true cw [] b) s = .next t ∧ (t.link p).rxSeq = (s.link p).rxSeq ∧ (t.link p).nak = true ∧
      Out.ackNak p (s.link p).lastRx true ∈ t.out) ∧
  (∀ (p : PortIx) (s : State), s.linkL0 p = true → (s.link p).unacked ≠ 0 → (s.link p).tx.str = [] →
    s.replayTicks p ≤ ticksSince (s.link p).ackAt s.tick.loc →
    ∃ t, exec (.replayTimerExpiry p) s = .next t ∧ Out.replay p (s.link p).una (s.link p).unacked ∈ t.out ∧ (t.link p).txSeq = (s.link p).txSeq ∧
      (t.link p).tx.buf = (s.link p).tx.buf ∧ (t.link p).ackAt = s.tick.loc) ∧
  (∀ (p : PortIx) (s : State), ticksSince (s.link p).ackAt s.tick.loc < s.replayTicks p → exec (.replayTimerExpiry p) s = .next s) ∧
  (∀ (p : PortIx) (s : State), s.linkL0 p = true → (s.link p).nak = true → s.replayTicks p ≤ ticksSince (s.link p).nakAt s.tick.loc →
    ∃ t, exec (.nakRepeatTimer p) s = .next t ∧ Out.ackNak p (s.link p).lastRx true ∈ t.out ∧ (t.link p).nakAt = s.tick.loc ∧
      (t.link p).rxSeq = (s.link p).rxSeq) ∧
  (∀ (p : PortIx) (cls : ClassIx) (len : Nat) (s : State),
    let n := bufCount len
    let r := min n (s.nreg (ptFlCreditRsv p cls))
    s.linkL0 p = true → n - r ≤ s.nreg (ptFlCreditSh p) → (s.link p).unacked + n ≤ 4095 →
    ∃ t, exec (.linkMessageSend p cls len) s = .next t ∧ t.nreg (ptFlCreditRsv p cls) = s.nreg (ptFlCreditRsv p cls) - r ∧
      t.nreg (ptFlCreditSh p) = s.nreg (ptFlCreditSh p) - (n - r) ∧ Out.linkTx p cls len (n - r) ∈ t.out ∧ t.flState p = 4 ∧
      ((s.link p).tx.str = [] → (t.link p).txSeq = ((s.link p).txSeq + n) % 4096 ∧ (t.link p).tx.str = [] ∧
        (t.link p).tx.buf.length = (s.link p).tx.buf.length + n ∧ (t.link p).tx.buf.take (s.link p).tx.buf.length = (s.link p).tx.buf)) ∧
  (∀ (p : PortIx) (cls : ClassIx) (len : Nat) (s : State), s.nreg (ptFlCreditSh p) < bufCount len - s.nreg (ptFlCreditRsv p cls) →
    exec (.linkMessageSend p cls len) s = .next s) ∧
  (∀ (p : PortIx) (totals : List (BitVec 16)) (s : State), s.linkL0 p = true → totals.length = 9 →
    ∃ t, exec (.creditFlitReceive p totals) s = .next t ∧
      (∀ c, c < 8 → t.nreg (ptFlCreditRsv p c) =
        (s.nreg (ptFlCreditRsv p c) + ((totals.getD c 0).toNat + 65536 - tget 0 (s.link p).retIn c) % 65536) % 65536) ∧
      t.nreg (ptFlCreditSh p) = (s.nreg (ptFlCreditSh p) + ((totals.getD 8 0).toNat + 65536 - tget 0 (s.link p).retIn 8) % 65536) % 65536 ∧
      (∀ c, c < 9 → tget 0 (t.link p).retIn c = (totals.getD c 0).toNat)) ∧
  (∀ (p : PortIx) (s : State), s.linkL0 p = true → 0 < (s.link p).unrep →
    ∃ t, exec (.creditFlitSend p) s = .next t ∧ (t.link p).unrep = 0 ∧
      Out.ctlFlit p 2 ((List.range 9).map (fun c => tget 0 (s.link p).retOut c)) ∈ t.out)

/-- Messages of the fabric for this module (R229, R230, R241): a CREQ meets its home, a CRSP completes its request, a SNP becomes
the host's snoop or is answered invalid, a SNPRSP answers its tracker's snoop, CXL.io and MCTP messages reach their stations; a
request without a response by its deadline is completed as a route miss. -/
def Obligations.FabricMessages : Prop :=
  (∀ (p : PortIx) (h : FHdr) (rights : BitVec 2) (sl : SliceIx) (off : BitVec 22) (mask : BitVec 64) (d : Line) (s : State),
    s.fabHere p .cacheReq h 0 true (s.bankStation (sl.val * 2 ^ 22 + off.toNat)) →
    exec (.creqReceive p h 1 rights sl off mask d) s = .next ((s.fabBooked p h 0).homeAccept .rds
      { fid := h.src, slice := sl, off := BitVec.ofNat 28 (off.toNat * 64), via := .fabric p (h.tag.setWidth 16), msg := .plain false,
        data := d, mask := mask })) ∧
  (∀ (p : PortIx) (h : FHdr) (reason : Fin 6) (g : Fin 4) (d : Line) (r : RemReq) (s : State),
    s.fabHere p .memRsp h 64 false ⟨p.val / 16 * 2 % 53, Nat.mod_lt _ (by decide)⟩ →
    s.lnk.rem.find? (fun r => decide (r.fid = h.dst.val) && decide (r.tag = h.tag.toNat)) = some r → r.via ≠ .discard →
    ∃ t, exec (.crspReceive p h 0 reason g (some d)) s = .next t ∧ t.lnk.rem = s.lnk.rem.erase r ∧
      Out.homeRsp r.fid r.via r.la (.data g d false) ∈ t.out) ∧
  (∀ (p : PortIx) (h : FHdr) (kind : Fin 4) (sl : SliceIx) (off : BitVec 22) (home : Fid) (v : Vcs) (k : Nat) (s : State), kind.val ≠ 0 →
    s.fabHere p .backInv h 0 false ⟨p.val / 16 * 2 % 53, Nat.mod_lt _ (by decide)⟩ → s.remoteEntry h.dst home sl = some (v, k) →
    ∃ t w, exec (.snpReceive p h kind sl off home) s = .next t ∧
      Out.hostSnoop h.dst (kind.val - 1) (v.address (k * 2 ^ 28 + off.toNat * 64) w) ∈ t.out ∧
      (k * 2 ^ 28 + off.toNat * 64 < v.len * 2 ^ 28 → v.iw ≤ 3 → v.offset (v.address (k * 2 ^ 28 + off.toNat * 64) w) = some (k * 2 ^ 28 + off.toNat * 64)) ∧
      t.lnk.rsnp = s.lnk.rsnp ++ [(sl.val * 2 ^ 22 + off.toNat, h.dst.val, home.val, h.tag.toNat)]) ∧
  (∀ (p : PortIx) (h : FHdr) (kind : Fin 4) (sl : SliceIx) (off : BitVec 22) (home : Fid) (s : State), kind.val ≠ 0 →
    s.fabHere p .backInv h 0 false ⟨p.val / 16 * 2 % 53, Nat.mod_lt _ (by decide)⟩ → s.remoteEntry h.dst home sl = none →
    ∃ t, exec (.snpReceive p h kind sl off home) s = .next t ∧ Out.fabMsg (portStation p) home 4 h.tag.toNat [0] none ∈ t.out ∧ t.lnk.rsnp = s.lnk.rsnp) ∧
  (∀ (p : PortIx) (h : FHdr) (d : Line) (x : Trk) (s : State),
    s.fabHere p .cacheRsp h 0 false ⟨p.val / 16 * 2 % 53, Nat.mod_lt _ (by decide)⟩ → tfind s.home.trks h.tag.toNat = some x →
    ∃ t, exec (.snprspReceive p h 0 d) s = .next t ∧ exec (.snoopResponse x.la ⟨h.src, 0, none⟩) (s.fabBooked p h 0) = .next t) ∧
  (∀ (p : PortIx) (h : FHdr) (bytes : Nat) (e : Bool) (u : StationIx) (s : State),
    let ty : MsgType := if h.cls = 5 then .ioNonPosted else if h.cls = 6 then .bulk else if e then .ioNonPosted else .ioPosted
    s.fabHere p ty h bytes e u →
    ∃ t m, exec (.ioMessageReceive p h bytes e u) s = .next t ∧ Out.delivered u m ∈ t.out ∧ m.m = { fabMsgOf ty h bytes e u with yellow := s.fabYellow p h bytes }) ∧
  (∀ (p : PortIx) (h : FHdr) (bytes : Nat) (s : State), s.fabHere p .mgmt h bytes false 52 →
    ∃ t m, exec (.mctpMessageReceive p h bytes) s = .next t ∧ Out.delivered 52 m ∈ t.out ∧ m.m = { fabMsgOf .mgmt h bytes false 52 with yellow := s.fabYellow p h bytes }) ∧
  (∀ (tag : Word) (r : RemReq) (s : State), s.lnk.rem.find? (fun r => decide (r.tag = tag.toNat)) = some r →
    tickEarlier s.tick.loc r.due = false → r.via = .mem → r.write = false →
    ∃ t, exec (.remoteRequestTimeout tag) s = .next t ∧ t.lnk.rem = s.lnk.rem.erase r ∧ Out.homeRsp r.fid .mem r.la .poison ∈ t.out)

/-- Lane replacement and rotation (R242 to R245): a lane above CE_THRESH, or the next one of a rotation, makes the receiving end ask
with REQ; the far end mirrors and answers READY; locking, SWITCH at a named codeword, DONE and the end follow; the transmitting end
then reads its map from the spare and marks the old lane BAD; a lock that does not come aborts. -/
def Obligations.LaneReplacement : Prop :=
  (∀ (p : PortIx) (g : Fin 4) (ls : Nat) (s : State), s.linkL0 p = true → s.bit (ptFlCtl p) 28 = true →
    (s.link p).ceWin = s.tick.loc.toNat / ((if s.fld (ptFlSpareCtl p) 0 8 = 0 then 4 else s.fld (ptFlSpareCtl p) 0 8) * 256) + 1 →
    s.fld (ptFlSpareCtl p) 16 16 < tget 0 (s.link p).ce g → (s.link p).rxSpare = some ls → (s.link p).spared = false → (s.link p).sp = 0 →
    ∃ t, exec (.laneCeThreshold p g) s = .next t ∧ (t.link p).sp = 1 ∧ (t.link p).spLane = g ∧ (t.link p).spRot = false ∧
      Out.ctlFlit p 6 [1, g, 0, 0, 0] ∈ t.out) ∧
  (∀ (p : PortIx) (ls : Nat) (s : State), s.linkL0 p = true → s.bit (ptFlCtl p) 27 = true → (s.link p).sp = 0 → (s.link p).spared = false →
    (s.link p).rxSpare = some ls → (s.link p).err ≤ s.errLimit p / 2 →
    (if s.fld (ptFlSpareCtl p) 8 8 = 0 then 1 else s.fld (ptFlSpareCtl p) 8 8) * 65536 ≤ ticksSince (s.link p).rotAt s.tick.loc →
    ∃ t, exec (.rotationInterval p) s = .next t ∧ (t.link p).sp = 1 ∧ (t.link p).spRot = true ∧ (t.link p).spLane = (s.link p).rotNext ∧
      (t.link p).rotNext = ((s.link p).rotNext + 1) % 4 ∧ (t.link p).rotAt = s.tick.loc) ∧
  (∀ (p : PortIx) (g : Fin 4) (rot : Bool) (s : State), s.linkL0 p = true → s.fld (ptFlLanemap p) 12 3 ≠ 7 →
    ∃ t, exec (.spareReqReceive p g rot) s = .next t ∧ (t.link p).tsp = 1 ∧ (t.link p).tspLane = g ∧ (t.link p).tspRot = rot ∧
      Out.ctlFlit p 6 [2, g, b2n rot, 0, 0] ∈ t.out) ∧
  (∀ (p : PortIx) (g : Fin 4) (ls : Nat) (s : State), s.linkL0 p = true → (s.link p).sp = 1 → (s.link p).spLane = g.val →
    (s.link p).rxSpare = some ls →
    ∃ t, exec (.spareReadyReceive p g) s = .next t ∧ (t.link p).sp = 2 ∧ (t.link p).spReady = s.tick.loc) ∧
  (∀ (p : PortIx) (s : State), (s.link p).sp = 1 ∨ (s.link p).sp = 4 →
    exec (.spareRepeatTimer p) s = .next (s.spareFlit p (s.link p).sp (s.link p).spLane (s.link p).spRot (0, 0))) ∧
  (∀ (p : PortIx) (per : BitVec 16) (cw : Byte) (ls : Nat) (s : State), s.linkL0 p = true → (s.link p).sp = 2 →
    (s.link p).rxSpare = some ls → 63 ≤ ticksSince (s.link p).spReady s.tick.loc → s.lnState p ls = 6 →
    (s.link p).ahead16 per.toNat cw.toNat = true →
    ∃ t, exec (.spareDwellEnd p per cw) s = .next t ∧ (t.link p).sp = 3 ∧ (t.link p).spCw = (per.toNat, cw.toNat) ∧
      Out.ctlFlit p 6 [3, (s.link p).spLane, b2n (s.link p).spRot, per.toNat, cw.toNat] ∈ t.out) ∧
  (∀ (p : PortIx) (ls : Nat) (s : State), s.linkL0 p = true → (s.link p).sp = 3 → (s.link p).rxSpare = some ls → (s.link p).spRot = false →
    (s.link p).dueLane = none →
    ∃ t, exec (.spareSwitchPoint p) s = .next t ∧ (t.link p).sp = 4 ∧ (t.link p).rxMap = (s.link p).rxMap.set (s.link p).spLane ls ∧
      Out.ctlFlit p 6 [4, (s.link p).spLane, 0, 0, 0] ∈ t.out ∧ t.ev.seq = s.ev.seq + 1) ∧
  (∀ (p : PortIx) (per : BitVec 16) (cw : Byte) (s : State), s.linkL0 p = true → (s.link p).tsp = 1 →
    ∃ t, exec (.spareSwitchReceive p per cw) s = .next t ∧ (t.link p).tspCw = some (per.toNat, cw.toNat) ∧ t.regs = s.regs) ∧
  (∀ (p : PortIx) (s : State), s.linkL0 p = true → (s.link p).tsp = 1 → (s.link p).tspLane < 4 → s.fld (ptFlLanemap p) 12 3 < 5 →
    s.fld (ptFlLanemap p) (3 * (s.link p).tspLane) 3 < 5 →
    ∃ t, exec (.spareDoneReceive p) s = .next t ∧ t.fld (ptFlLanemap p) (3 * (s.link p).tspLane) 3 = s.fld (ptFlLanemap p) 12 3 ∧
      t.fld (ptFlLanemap p) 12 3 = 7 ∧ t.bit (ptFlLanemap p) (20 + s.fld (ptFlLanemap p) (3 * (s.link p).tspLane) 3) = true ∧
      (t.link p).tsp = 0) ∧
  (∀ (p : PortIx) (s : State), s.linkL0 p = true →
    exec (.spareAbortReceive p) s = .next (s.setLink p (s.link p).mirrorOff)) ∧
  (∀ (p : PortIx) (s : State), s.linkL0 p = true → (s.link p).tspRot = true →
    exec (.spareBackReceive p) s = .next (s.setLink p (s.link p).mirrorOff)) ∧
  (∀ (p : PortIx) (s : State), ((s.link p).sp = 1 ∨ (s.link p).sp = 2) → 250 ≤ ticksSince (s.link p).spAt s.tick.loc → (s.link p).spRot = false →
    ∃ t, exec (.spareLockTimeout p) s = .next t ∧ (t.link p).sp = 0 ∧ Out.ctlFlit p 6 [5, (s.link p).spLane, 0, 0, 0] ∈ t.out ∧
      t.ev.seq = s.ev.seq + 1) ∧
  (∀ (p : PortIx) (per : BitVec 16) (cw : Byte) (s : State), s.linkL0 p = true → (s.link p).sp = 5 → s.lnState p (s.link p).spOld = 6 →
    (s.link p).ahead16 per.toNat cw.toNat = true →
    ∃ t, exec (.recalibrationDone p per cw) s = .next t ∧ (t.link p).sp = 6 ∧ (t.link p).spCw = (per.toNat, cw.toNat) ∧
      Out.ctlFlit p 6 [3, (s.link p).spLane, 1, per.toNat, cw.toNat] ∈ t.out)

/-- L0-quiet and L1-sleep (R246 to R248): the handshake REQ, ACK, ACK; a refusal, a cancel and a wake before and after the commit
point; the exit passes ALIGN and INIT with RESUME to L0, or takes the link down. -/
def Obligations.LinkSleep : Prop :=
  (∀ (p : PortIx) (s : State), s.flState p = 4 → s.bit (ptFlCtl p) 26 = true → (s.link p).unacked = 0 →
    s.quietTicks p ≤ ticksSince (s.link p).dataAt s.tick.loc →
    ∃ t, exec (.quietEnter p) s = .next t ∧ t.flState p = 5 ∧ (t.link p).txSeq = (s.link p).txSeq ∧ (t.link p).tx.buf = (s.link p).tx.buf) ∧
  (∀ (p : PortIx) (s : State), s.sleepOk p = true → (s.link p).slp = 0 →
    ∃ t, exec (.sleepIdleTimer p) s = .next t ∧ (t.link p).slp = 1 ∧ Out.ctlFlit p 7 [1] ∈ t.out) ∧
  (∀ (p : PortIx) (s : State), s.sleepOk p = true → (s.link p).slp = 0 →
    ∃ t, exec (.sleepReqReceive p) s = .next t ∧ (t.link p).slp = 2 ∧ (t.link p).slpAt = s.tick.loc ∧ Out.ctlFlit p 7 [2] ∈ t.out) ∧
  (∀ (p : PortIx) (s : State), s.linkL0 p = true → s.sleepOk p = false → (s.link p).slp = 0 →
    ∃ t, exec (.sleepReqReceive p) s = .next t ∧ (t.link p).slp = 0 ∧ Out.ctlFlit p 7 [3] ∈ t.out) ∧
  (∀ (p : PortIx) (s : State), s.linkL0 p = true → ((s.link p).slp = 1 ∨ ((s.link p).slp = 2 ∧ (s.link p).wake = false)) →
    ∃ t, exec (.sleepAckReceive p) s = .next t ∧ t.flState p = 6 ∧ (t.link p).slp = 3 ∧ t.bit (ptFlStatus p) 23 = false) ∧
  (∀ (p : PortIx) (s : State), s.linkL0 p = true → (s.link p).slp = 2 → (s.link p).wake = true →
    ∃ t, exec (.sleepAckReceive p) s = .next t ∧ t.flState p = 2 ∧ (t.link p).slp = 4 ∧ t.bit (ptFlStatus p) 23 = true ∧
      (t.link p).txSeq = (s.link p).txSeq ∧ (t.link p).tx.buf = (s.link p).tx.buf) ∧
  (∀ (p : PortIx) (s : State), (s.link p).slp = 1 →
    exec (.sleepNakReceive p) s = .next (s.setLink p { s.link p with slp := 0 })) ∧
  (∀ (p : PortIx) (s : State), (s.link p).slp = 2 →
    exec (.sleepCancelReceive p) s = .next (s.setLink p { s.link p with slp := 0, wake := false })) ∧
  (∀ (p : PortIx) (s : State), s.linkL0 p = true → (s.link p).slp = 1 →
    ∃ t, exec (.wakeReceive p) s = .next t ∧ (t.link p).slp = 0 ∧ Out.ctlFlit p 7 [4] ∈ t.out) ∧
  (∀ (p : PortIx) (s : State), s.linkL0 p = true → (s.link p).slp = 2 →
    ∃ t, exec (.sleepWakeEvent p) s = .next t ∧ (t.link p).slp = 2 ∧ (t.link p).wake = true ∧ Out.ctlFlit p 7 [5] ∈ t.out) ∧
  (∀ (p : PortIx) (s : State), s.flState p = 6 → (s.link p).slp = 3 →
    exec (.wakeReceive p) s = .next (s.sleepExit p) ∧ exec (.sleepWakeEvent p) s = .next (s.sleepExit p)) ∧
  (∀ (p : PortIx) (s : State), (s.link p).slp = 2 → 3 ≤ ticksSince (s.link p).slpAt s.tick.loc →
    exec (.sleepResponderTimeout p) s = .next (s.setLink p { s.link p with slp := 0, wake := false })) ∧
  (∀ (p : PortIx) (s : State), s.linkL0 p = true → (s.link p).slp = 2 →
    ∃ t, exec (.rxElectricalIdleDetect p) s = .next t ∧ t.flState p = (if (s.link p).wake then 2 else 6) ∧ t.bit (ptFlStatus p) 23 = (s.link p).wake) ∧
  (∀ (p : PortIx) (m : List LaneIx) (s : State), s.flState p = 2 → (s.link p).slp = 4 → m.length = 4 → m.Nodup →
    m.all (fun l => decide (s.lnState p l = 6)) = true →
    ∃ t v, exec (.alignDone p m) s = .next t ∧ t.flState p = 3 ∧ (t.link p).slp = 4 ∧ Out.ctlFlit p 1 v ∈ t.out ∧ nbit (v.getD 2 0) 0 = true) ∧
  (∀ (p : PortIx) (s : State), (s.link p).slp = 4 → ticksSince (s.link p).slpAt s.tick.loc ≤ 16 →
    ∃ t, exec (.sleepExitDone p true) s = .next t ∧ t.flState p = 4 ∧ (t.link p).slp = 0 ∧ t.bit (ptFlStatus p) 23 = false) ∧
  (∀ (p : PortIx) (s : State), (s.link p).slp = 4 → exec (.sleepExitDone p false) s = .next (s.linkDown p 3))

/-- Hot-plug of a CXL port (R270 to R273): a scan keeps the runs of equal presence and pressed buttons; 64 equal scans accept a
device or its absence; a button starts BUTTON_WAIT, which ends in REMOVE_REQ; REMOVE_OK makes the port SAFE, CANCEL keeps it ACTIVE. -/
def Obligations.CxlHotPlug : Prop :=
  (∀ (tl : TileIx) (pr bt : BitVec 8) (b1 : Option (BitVec 8 × BitVec 8)) (k : Nat) (s : State), k < 8 → s.present 1 tl = true →
    let p := 8 * (2 * tl.val) + k
    ∃ t, exec (.expanderScan tl (some (pr, bt)) b1) s = .next t ∧ t.bit (ptCxHpStatus p) 27 = bt.getLsbD k ∧
      t.bit (ptCxHpStatus p) 26 = true ∧
      (t.cxp p).prsRun = (if pr.getLsbD k = s.bit (ptCxHpStatus p) 28 then 0 else (s.cxp p).prsRun + 1) ∧
      (t.cxp p).btnRun = (if bt.getLsbD k then (s.cxp p).btnRun + 1 else 0) ∧ (t.cxp p).timer = (s.cxp p).timer - 1) ∧
  (∀ (p : PortIx) (s : State), s.isCxl p = true → s.bit (ptCxHpStatus p) 28 = false → s.bit (ptCxHpStatus p) 26 = true →
    64 ≤ (s.cxp p).prsRun → s.hp p = 0 →
    s.bit (ptCxCtl p) 25 = false →
    ∃ t, exec (.cxlPresenceAccepted p) s = .next t ∧ t.hp p = 1 ∧ t.bit (ptCxHpStatus p) 28 = true ∧ (t.cxp p).prsRun = 0 ∧
      t.ev.seq = s.ev.seq + 1) ∧
  (∀ (p : PortIx) (s : State), s.isCxl p = true → s.bit (ptCxHpStatus p) 28 = true → s.bit (ptCxHpStatus p) 26 = true →
    64 ≤ (s.cxp p).prsRun → s.hp p = 5 →
    ∃ t, exec (.cxlPresenceLost p) s = .next t ∧ t.hp p = 0 ∧ t.bit (ptCxHpStatus p) 28 = false ∧ t.ev.seq = s.ev.seq + 1) ∧
  (∀ (p : PortIx) (s : State), ((s.cxp p).prsRun < 64 ∨ s.bit (ptCxHpStatus p) 26 = false) →
    exec (.cxlPresenceAccepted p) s = .next s ∧ exec (.cxlPresenceLost p) s = .next s) ∧
  (∀ (p : PortIx) (s : State), s.isCxl p = true → 8 ≤ (s.cxp p).btnRun → (s.cxp p).btnRun < 1000000 → s.bit (ptCxHpStatus p) 26 = true →
    s.hp p = 2 → ∃ t, exec (.cxlButtonAccepted p) s = .next t ∧ t.hp p = 3 ∧ (t.cxp p).timer = 19074 ∧ t.ev.seq = s.ev.seq + 1) ∧
  (∀ (p : PortIx) (s : State), s.isCxl p = true → 8 ≤ (s.cxp p).btnRun → (s.cxp p).btnRun < 1000000 → s.bit (ptCxHpStatus p) 26 = true →
    s.hp p = 3 → ∃ t, exec (.cxlButtonAccepted p) s = .next t ∧ t.hp p = 2 ∧ (t.cxp p).timer = 0) ∧
  (∀ (p : PortIx) (s : State), s.hp p = 3 → (s.cxp p).timer = 0 →
    ∃ t, exec (.buttonWaitTimer p) s = .next t ∧ t.hp p = 4 ∧ t.ev.seq = s.ev.seq + 1) ∧
  (∀ (p : PortIx) (s : State), s.isCxl p = true → s.vppbOf p = none → 2 ≤ s.hp p → s.hp p ≤ 4 →
    ∃ t, exec (.ptCxHpCtlRemoveOk p) s = .next t ∧ t = (((s.setHp p 5).removed p 6).setHp p 5).setPwrInd p 0 ∧ t.hp p = 5) ∧
  (∀ (p : PortIx) (s : State), s.isCxl p = true → s.hp p = 4 →
    ∃ t, exec (.ptCxHpCtlCancel p) s = .next t ∧ t.hp p = 2 ∧ t.out = s.out) ∧
  (∀ (v : VcsIx) (k : Fin 16) (pwr attn : BitVec 2) (p : Nat) (s : State), tfind s.cxl.vppb (v.val * 16 + k.val) = some p →
    ∃ t, exec (.hostSlotControlWrite v k pwr attn false) s = .next t ∧ (t.cxp p).slotPwr = pwr.toNat ∧ (t.cxp p).slotAttn = attn.toNat ∧
      t.regs = s.regs)

/-- A CXL link (R259, R261 to R264, R268, R272, R435): training that reaches L0 records what the partner is and makes the port
ACTIVE; 64 ticks without L0 end it, and it is tried again every 1,024; Recovery, link down, containment and its release. -/
def Obligations.CxlLinks : Prop :=
  (∀ (p : PortIx) (u : CxUp) (s : State), s.isCxl p = true → s.cxState p = 1 → s.bit glbTickStatus 29 = false →
    u.rate.val ≤ s.maxRate p → u.width.toNat ≤ s.cfgWidth p → u.width.toNat ∈ [1, 2, 4, 8, 16] →
    (s.pmode p = 1 ∨ 2 ≤ u.type.val ∧ (2 ≤ u.rate.val ∨ u.type.val = 6)) → (s.cxp p).downAt = none →
    ∃ t, exec (.cxlLinkUp p u) s = .next t ∧ t.cxState p = 2 ∧ t.fld (ptCxStatus p) 26 3 = u.rate ∧
      t.fld (ptCxStatus p) 21 5 = u.width.toNat ∧ t.devType p = (if s.pmode p = 1 then 1 else u.type.val) ∧ t.hp p = 2 ∧
      (t.cxp p).serial = u.serial ∧
      (t.devType p = 4 → tget 0 t.bind.devs (p.val * 16) = u.caps.getD 0 0) ∧
      (t.devType p = 5 → ∀ ld, ld < min 16 u.caps.length → tget 0 t.bind.devs (p.val * 16 + ld) = u.caps.getD ld 0)) ∧
  (∀ (p : PortIx) (u : CxUp) (s : State), s.mayLinkUp p u = false → exec (.cxlLinkUp p u) s = .next s) ∧
  (∀ (p : PortIx) (a : Tick) (s : State), s.isCxl p = true → s.cxState p = 1 → s.hp p = 1 → (s.cxp p).trainAt = some a →
    64 ≤ ticksSince a s.tick.loc →
    ∃ t, exec (.cxlTrainTimeout p) s = .next t ∧ t.cxState p = 0 ∧ (t.cxp p).trainAt = none) ∧
  (∀ (p : PortIx) (s : State), s.isCxl p = true → s.cxState p = 0 → s.hp p = 1 → 1024 ≤ ticksSince (s.cxp p).tryAt s.tick.loc →
    s.bit (ptCxCtl p) 31 = true → s.bit glbTickStatus 29 = false →
    ∃ t, exec (.cxlTrainRetry p) s = .next t ∧ t.cxState p = 1 ∧ (t.cxp p).trainAt = some s.tick.loc ∧ (t.cxp p).tryAt = s.tick.loc) ∧
  (∀ (p : PortIx) (s : State), s.isCxl p = true → s.cxState p = 2 → exec (.cxlRecovery p) s = .next (s.cnt (ptCxRecoveryCnt p))) ∧
  (∀ (p : PortIx) (s : State), s.isCxl p = true → s.cxState p = 3 →
    ∃ t, exec (.cxlRecovery p) s = .next t ∧ t.cxState p = 2 ∧ t.cxl = s.cxl) ∧
  (∀ (p : PortIx) (c : Fin 9) (s : State), s.isCxl p = true → (c.val = 1 ∨ c.val = 2 ∨ c.val = 8) →
    exec (.cxlLinkDown p c) s = .next (s.cxDown p c)) ∧
  (∀ (p : PortIx) (s : State), s.cxState p = 1 → (s.cxDown p 4).cxState p = 0 ∧ ((s.cxDown p 4).cxp p).trainAt = none) ∧
  (∀ (p : PortIx) (a : Tick) (s : State), (s.cxp p).downAt = some a → s.downTicks p ≤ ticksSince a s.tick.loc → (s.type3Lost p).cxState p ≠ 1 →
    exec (.cxlDownTicksExpiry p) s = .next ((s.type3Lost p).contain p false)) ∧
  (∀ (p : PortIx) (a : Tick) (s : State), (s.cxp p).downAt = some a → ticksSince a s.tick.loc < s.downTicks p →
    exec (.cxlDownTicksExpiry p) s = .next s) ∧
  (∀ (p : PortIx) (s : State), s.isCxl p = true → (s.cxState p = 2 ∨ s.cxState p = 3) → s.pmode p = 1 →
    exec (.cxlUncorrectableError p) s = .next ((s.cnt (ptCxUncorrErrCnt p)).emit (.aer p))) ∧
  (∀ (p : PortIx) (s : State), s.isCxl p = true → (s.cxState p = 2 ∨ s.cxState p = 3) → s.pmode p = 2 → s.bit (ptCxCtl p) 24 = true →
    exec (.cxlUncorrectableError p) s = .next (((s.cnt (ptCxUncorrErrCnt p)).cxDown p 5).contain p false)) ∧
  (∀ (p : PortIx) (s : State), s.isCxl p = true → s.cxState p ≠ 4 → s.cachesBehind p = true →
    ∃ t, exec (.ptCxCtlRetrain p false) s = .next t ∧ t.cxState p = s.cxState p ∧ t.cxl = s.cxl ∧ t.ev.seq = s.ev.seq + 1) ∧
  (∀ (p : PortIx) (s : State), s.isCxl p = true → s.cxState p ≠ 4 → s.hp p ≠ 5 →
    exec (.ptCxCtlRetrain p true) s = .next ((s.cxDown p 3).cxTrain p)) ∧
  (∀ (p : PortIx) (s : State), s.isCxl p = true → s.cxState p = 4 → s.bit (ptCxCtl p) 31 = true → s.bit glbTickStatus 29 = false →
    ∃ t, exec (.ptCxCtlDpcRelease p) s = .next t ∧ t.cxState p = 1 ∧ (t.cxp p).trainAt = some s.tick.loc) ∧
  (∀ (v : VcsIx) (k : Fin 16) (p : Nat) (s : State), tfind s.cxl.vppb (v.val * 16 + k.val) = some p → s.cxState p = 4 →
    exec (.vppbDpcRelease v k) s = .next ((s.setFld (ptCxStatus p) 29 3 0).cxTrain p)) ∧
  (∀ (p : PortIx) (s : State), s.isCxl p = true →
    exec (.ptCxCtlEnWrite p false) s = .next ((s.setBit (ptCxCtl p) 31 false).cxDown p 4)) ∧
  (∀ (p : PortIx) (s : State), s.isCxl p = true → s.bit (ptCxHpStatus p) 28 = false →
    exec (.ptCxCtlEnWrite p true) s = .next ((s.setBit (ptCxCtl p) 31 true).endTests p)) ∧
  (∀ (p : PortIx) (s : State), s.isCxl p = true →
    (s.regs.filter (fun e => match locate e.1 with | some (.port, q, 0x2000) => bits e.2 30 1 = 1 && decide (q ≠ p.val) | _ => false)).length < 4 →
    ∃ t, exec (.ptCxCtlMgmtFnWrite p true) s = .next t ∧ t.bit (ptCxCtl p) 30 = true ∧ t.nalug = s.nalug)

/-- Ports, switches and bindings by Nalug command (R15, R55, R218, R257, R267): a mode or a merge waits for the port's reset; a vCS
is destroyed when no host address is mapped; a vPPB is bound to a free downstream port and unbound again. -/
def Obligations.SwitchCommands : Prop :=
  (∀ (q : Req) (b : List Byte) (s : State), s.admitted 0x0C01 q { kinds := [2], lenOk := true } = true → b.length = 4 → byteAt b 0 ≤ 3 →
    rsvZero b [(1, 3)] = true → (s.begun 0x0C01 q b).portRuns q.index.toNat = false →
    ∃ t, exec (.opPortMode q b) s = .next t ∧ (t.cxp q.index.toNat).newMode = some (byteAt b 0) ∧ t.pmode q.index.toNat = s.pmode q.index.toNat ∧
      Out.reply q 0x0C01 stOk [] ∈ t.out) ∧
  (∀ (q : Req) (b : List Byte) (s : State),
    let x := s.begun 0x0C02 q b
    let p := q.index.toNat
    let ports := (List.range (2 ^ byteAt b 0)).map (p + ·)
    let was := (List.range 192).filter (fun y => decide (s.linkOf y = p))
    s.admitted 0x0C02 q { kinds := [2], lenOk := true, objs := (ports ++ was).map .port } = true → b.length = 4 → byteAt b 0 ≤ 2 →
    rsvZero b [(1, 3)] = true → p % 16 % 2 ^ byteAt b 0 = 0 → (x.pmode p = 1 ∨ x.pmode p = 2) → (∀ y, y ∈ ports → x.pmode y = x.pmode p) →
    (∀ y, y ∈ ports ++ was → x.portRuns y = false) →
    ∃ t, exec (.opPortMerge q b) s = .next t ∧ (∀ y, y ∈ ports → (t.cxp y).newLink = some (byteAt b 0, p)) ∧
      Out.reply q 0x0C02 stOk [] ∈ t.out) ∧
  (∀ (q : Req) (b : List Byte) (c : Vcs) (s : State), s.admitted 0x0308 q { lenOk := true, objs := [.vcs (byteAt b 0)] } = true →
    b.length = 4 → byteAt b 0 < 96 → rsvZero b [(1, 3)] = true → tfind s.bind.vcs (byteAt b 0) = some c →
    (List.range c.len).any (fun k => (tfind s.bind.hmap (c.base + k)).isSome) = false →
    ∃ t, exec (.opVcsDestroy q b) s = .next t ∧ tfind t.bind.vcs (byteAt b 0) = none ∧ (∀ e, e ∈ t.cxl.vppb → e.1 / 16 ≠ byteAt b 0) ∧
      Out.reply q 0x0308 stOk [] ∈ t.out) ∧
  (∀ (q : Req) (b : List Byte) (s : State),
    let x := s.begun 0x0309 q b
    s.admitted 0x0309 q { lenOk := true, objs := [.vcs (byteAt b 0), .port (byteAt b 2)], units := [(2, byteAt b 2)] } = true → b.length = 4 → byteAt b 0 < 96 →
    byteAt b 1 < 16 → byteAt b 2 < 192 → rsvZero b [(3, 1)] = true → (tfind s.bind.vcs (byteAt b 0)).isSome = true →
    x.pmode (byteAt b 2) = 2 → x.isMember (byteAt b 2) = false → x.devType (byteAt b 2) ≠ 4 → x.devType (byteAt b 2) ≠ 5 →
    s.vppbOf (byteAt b 2) = none → tfind s.cxl.vppb (byteAt b 0 * 16 + byteAt b 1) = none →
    ∃ t, exec (.opVcsVppbBind q b) s = .next t ∧ t.cxl.vppb = tins s.cxl.vppb (byteAt b 0 * 16 + byteAt b 1) (byteAt b 2) ∧
      t.bit (ptCxHpStatus (byteAt b 2)) 25 = true ∧ Out.reply q 0x0309 stOk [] ∈ t.out) ∧
  (∀ (q : Req) (b : List Byte) (p : Nat) (s : State), s.admitted 0x030A q { lenOk := true, objs := [.vcs (byteAt b 0), .port p] } = true →
    b.length = 4 → byteAt b 0 < 96 → byteAt b 1 < 16 → rsvZero b [(2, 2)] = true → p < 192 →
    tfind s.cxl.vppb (byteAt b 0 * 16 + byteAt b 1) = some p → (s.begun 0x030A q b).edgeFid p 0 = none →
    ∃ t, exec (.opVcsVppbUnbind q b) s = .next t ∧ t.cxl.vppb = tdel s.cxl.vppb (byteAt b 0 * 16 + byteAt b 1) ∧
      t.bit (ptCxHpStatus p) 25 = false ∧ Out.reply q 0x030A stOk [] ∈ t.out)

/-- The FM API (R269): what each command of the switch component answers or forwards; a command of no known opcode is unsupported. -/
def Obligations.FmApi : Prop :=
  (∀ (src : Src) (s : State), s.fmShut src = false → exec (.identifySwitchDevice src) s = .next (s.emit (.fmReply src 0x5100 .success [192, 96]))) ∧
  (∀ (src : Src) (p : Byte) (s : State), s.fmShut src = false → p.toNat < 192 →
    exec (.getPhysicalPortState src [p]) s =
      .next (s.emit (.fmReply src 0x5101 .success [s.nreg (ptMode p.toNat), if s.isMember p.toNat then 0 else s.nreg (ptCxStatus p.toNat)]))) ∧
  (∀ (src : Src) (p : Byte) (s : State), s.fmShut src = false → p.toNat < 192 → s.isCxl p.toNat = true →
    ∃ t, exec (.physicalPortControl src p 0) s = .next t ∧ (t.cxp p.toNat).perst = true ∧
      t.out = s.out ++ [.perst p.toNat true, .fmReply src 0x5102 .success []]) ∧
  (∀ (src : Src) (p : Byte) (b : List Byte) (s : State), s.fmShut src = false → p.toNat < 192 → s.isCxl p.toNat = true →
    exec (.sendPpbCxlIoConfigurationRequest src p b) s = .next (s.emit (.fmForward 0x5103 p.toNat 0 b))) ∧
  (∀ (src : Src) (v : Byte) (s : State), s.fmShut src = false → v.toNat < 96 →
    ∃ t l, exec (.getVirtualCxlSwitchInfo src v) s = .next t ∧ t.out = s.out ++ [.fmReply src 0x5200 .success l] ∧ l.length = 18 ∧
      l.getD 0 2 = b2n (tfind s.bind.vcs v.toNat).isSome) ∧
  (∀ (src : Src) (v k p : Byte) (s : State),
    let q : Req := { src := src, seq := 0, kind := 0, index := 0, lockV := false, lock := 0, gen := 0, rsvd := false }
    let x := s.journalBegin 0x0309 q [v, k, p, 0]
    s.fmShut src = false → v.toNat < 96 → k.toNat < 16 → p.toNat < 192 → s.present 2 p.toNat = true →
    s.lockCheck q [.module, .vcs v.toNat, .port p.toNat] = none →
    (tfind s.bind.vcs v.toNat).isSome = true → x.pmode p.toNat = 2 → x.isMember p.toNat = false → x.devType p.toNat ≠ 4 →
    x.devType p.toNat ≠ 5 → s.vppbOf p.toNat = none → tfind s.cxl.vppb (v.toNat * 16 + k.toNat) = none →
    ∃ t, exec (.bindVppb src v k p 0xFFFF) s = .next t ∧ t.cxl.vppb = tins s.cxl.vppb (v.toNat * 16 + k.toNat) p.toNat ∧
      Out.fmReply src 0x5201 .success [] ∈ t.out) ∧
  (∀ (src : Src) (v k : Byte) (p : Nat) (s : State),
    let q : Req := { src := src, seq := 0, kind := 0, index := 0, lockV := false, lock := 0, gen := 0, rsvd := false }
    s.fmShut src = false → v.toNat < 96 → k.toNat < 16 → tfind s.cxl.vppb (v.toNat * 16 + k.toNat) = some p →
    s.lockCheck q [.module, .vcs v.toNat, .port p] = none → (s.journalBegin 0x030A q [v, k, 0, 0]).edgeFid p 0 = none →
    ∃ t, exec (.unbindVppb src v k) s = .next t ∧ t.cxl.vppb = tdel s.cxl.vppb (v.toNat * 16 + k.toNat) ∧
      Out.fmReply src 0x5202 .success [] ∈ t.out) ∧
  (∀ (src : Src) (v k : Byte) (c : Vcs) (s : State), s.fmShut src = false → tfind s.bind.vcs v.toNat = some c → k.toNat < 16 →
    exec (.generateAerEvent src v k) s = .next ((s.emit (.aer c.usp)).emit (.fmReply src 0x5203 .success []))) ∧
  (∀ (src : Src) (p : Byte) (b : List Byte) (s : State), s.fmShut src = false → s.mldPort p.toNat = true →
    exec (.tunnelManagementCommand src p b) s = .next (s.emit (.fmForward 0x5300 p.toNat 0xFFFF b))) ∧
  (∀ (src : Src) (p ld : Byte) (b : List Byte) (s : State), s.fmShut src = false → s.mldPort p.toNat = true → ld.toNat < s.fld (ptCxStatus p.toNat) 7 5 →
    exec (.sendLdCxlIoConfigurationRequest src p ld b) s = .next (s.emit (.fmForward 0x5301 p.toNat ld.toNat b)) ∧
    exec (.sendLdCxlIoMemoryRequest src p ld b) s = .next (s.emit (.fmForward 0x5302 p.toNat ld.toNat b))) ∧
  (∀ (src : Src) (op : BitVec 16) (s : State), s.fmShut src = false →
    exec (.fmApiUnsupported src op) s = .next (s.emit (.fmReply src op.toNat .unsupported []))) ∧
  (∀ (src : Src) (p : Byte) (s : State), s.fmShut src = true →
    exec (.identifySwitchDevice src) s = .next s ∧ exec (.getPhysicalPortState src [p]) s = .next s)

/-- Bring-up of a lane (R279, R280, R282 to R284): DETECT, IDENT, SWEEP, ADAPT, CHECK and LOCKED each end on their condition, or
fail the lane with their cause; a lane in STANDBY locks again with its stored equalisation. -/
def Obligations.LaneBringup : Prop :=
  (∀ (p : PortIx) (l : LaneIx) (s : State), s.lnState p l = 1 → s.laneAge p l ≤ 1 →
    ∃ t, exec (.laneReceiverDetected p l) s = .next t ∧ t.lnState p l = 2 ∧ (t.laneS p l).since = s.tick.loc) ∧
  (∀ (p : PortIx) (l : LaneIx) (s : State), s.lnState p l = 1 → 1 ≤ s.laneAge p l →
    exec (.laneDetectTimeout p l) s = .next (s.laneFail p l 1)) ∧
  (∀ (p : PortIx) (l : LaneIx) (s : State), s.lnState p l = 2 → 4 ≤ s.laneAge p l →
    exec (.laneIdentTimeout p l) s = .next (s.laneFail p l 2)) ∧
  (∀ (p : PortIx) (l : LaneIx) (s : State), s.lnState p l = 5 → 8 ≤ s.laneAge p l →
    exec (.laneCheckTimeout p l) s = .next (s.laneFail p l 4)) ∧
  (∀ (p : PortIx) (l : LaneIx) (cause : Nat) (s : State), cause < 16 → (s.laneS p l).recal = false → s.flState p ≠ 1 →
    (s.laneFail p l cause).lnState p l = 8 ∧ (s.laneFail p l cause).fld (lnStatus p l) 18 4 = cause) ∧
  (∀ (p : PortIx) (l : LaneIx) (inv : Bool) (blocks : List Word) (s : State), s.lnState p l = 2 → s.laneAge p l ≤ 4 →
    4 ≤ blocks.length → blocks.all (fun b => trainParityOk (blockBits b)) = true → s.bit (lnCtl p l) 30 = false →
    ∃ t, exec (.lanePatternFound p l inv blocks) s = .next t ∧ t.lnState p l = 3 ∧ t.bit (lnStatus p l) 27 = inv ∧
      t.fld (lnStatus p l) 22 3 = bits (blocks.getLastD 0) 0 3 ∧ (t.laneS p l).swept = 0) ∧
  (∀ (p : PortIx) (l : LaneIx) (h : Byte) (s : State), s.lnState p l = 3 → 2 * ((s.laneS p l).swept + 1) ≤ s.laneAge p l →
    (s.laneS p l).swept < 15 → s.bit (lnRxEq p l) 30 = false →
    ∃ t, exec (.laneSweepDwellEnd p l h) s = .next t ∧ (t.laneS p l).swept = (s.laneS p l).swept + 1 ∧
      t.fld (lnRxEq p l) 0 4 = (s.laneS p l).swept + 1 ∧ t.lnState p l = 3) ∧
  (∀ (p : PortIx) (l : LaneIx) (h : Byte) (bh bs : Nat) (s : State), s.lnState p l = 3 → 32 ≤ s.laneAge p l → (s.laneS p l).swept = 15 →
    (s.laneS p l).best = some (bh, bs) → h.toNat ≤ bh → bs < 16 → s.eyeMin p l ≤ bh → s.bit (lnRxEq p l) 30 = false →
    ∃ t, exec (.laneSweepDwellEnd p l h) s = .next t ∧ t.lnState p l = 4 ∧ t.fld (lnRxEq p l) 0 4 = bs) ∧
  (∀ (p : PortIx) (l : LaneIx) (d0 d1 : Word) (s : State), s.lnState p l = 4 →
    ∃ t, exec (.laneDfeSettled p l true d0 d1) s = .next t ∧ t.lnState p l = 5 ∧ t.reg (lnDfe0 p l) = d0 ∧ t.reg (lnDfe1 p l) = d1) ∧
  (∀ (p : PortIx) (l : LaneIx) (hs : List Byte) (s : State), s.lnState p l = 5 → s.laneAge p l ≤ 8 → 4 ≤ hs.length →
    hs.all (fun h => decide (s.eyeMin p l ≤ h.toNat)) = true →
    ∃ t, exec (.laneCheckPass p l hs) s = .next t ∧ t.lnState p l = 6 ∧ t.fld (lnStatus p l) 25 2 = 3 ∧
      (t.laneS p l).eq = some (s.eqNow p l)) ∧
  (∀ (p : PortIx) (l : LaneIx) (s : State), s.lnState p l = 6 → (s.link p).carries l = false → (s.link p).sp ≠ 4 →
    ∃ t, exec (.laneStandbyEnter p l) s = .next t ∧ t.lnState p l = 7 ∧ t.fld (lnStatus p l) 25 2 = 0 ∧ (t.laneS p l).eq = (s.laneS p l).eq) ∧
  (∀ (p : PortIx) (l : LaneIx) (s : State), s.lnState p l = 7 → (s.laneS p l).relock = false →
    ∃ t, exec (.laneRelockRequest p l) s = .next t ∧ (t.laneS p l).relock = true ∧ t.regs = s.regs) ∧
  (∀ (p : PortIx) (l : LaneIx) (pk : Nat) (d0 d1 : Word) (r : Bool) (s : State), s.lnState p l = 7 → (s.laneS p l).relock = true →
    s.laneAge p l ≤ 8 → (s.laneS p l).eq = some (pk, d0, d1, r) → pk < 16 →
    ∃ t, exec (.laneRelockDone p l) s = .next t ∧ t.lnState p l = 6 ∧ t.fld (lnRxEq p l) 0 4 = pk ∧ t.reg (lnDfe0 p l) = d0 ∧
      t.reg (lnDfe1 p l) = d1) ∧
  (∀ (p : PortIx) (l : LaneIx) (s : State), s.lnState p l = 7 → (s.laneS p l).relock = true → 8 ≤ s.laneAge p l →
    ∃ t, exec (.laneRelockTimeout p l) s = .next t ∧ t.lnState p l = 8 ∧ t.fld (lnStatus p l) 18 4 = 5)

/-- Faults, tracking, tests and margining of a lane (R282, R289 to R292): loss of signal and of phase lock fail a LOCKED lane of a
CXL port; an eye is recorded each tick; tracking moves one step at most; a test is only for a disabled link; a margin measurement
ends with its count of errors. -/
def Obligations.LaneFaultsAndTests : Prop :=
  (∀ (p : PortIx) (l : LaneIx) (s : State), s.lnState p l = 6 → s.pmode p ≠ 3 →
    ∃ t, exec (.laneLossOfSignal p l) s = .next t ∧ t.lnState p l = 8 ∧ t.fld (lnStatus p l) 18 4 = 6 ∧
      t.nreg (lnFailCnt p l) = min 0xFFFFFFFF (s.nreg (lnFailCnt p l) + 1)) ∧
  (∀ (p : PortIx) (l : LaneIx) (s : State), s.lnState p l = 6 → s.pmode p ≠ 3 →
    ∃ t, exec (.laneCdrLoss p l) s = .next t ∧ t.lnState p l = 8 ∧ t.fld (lnStatus p l) 18 4 = 7 ∧
      t.nreg (lnCdrLossCnt p l) = min 0xFFFFFFFF (s.nreg (lnCdrLossCnt p l) + 1)) ∧
  (∀ (p : PortIx) (l : LaneIx) (h w : Byte) (s : State), s.lnState p l = 6 → s.bit (lnMarginRes p l) 30 = false →
    s.eyeMin p l ≤ h.toNat →
    ∃ t, exec (.eyeMeasurement p l h w) s = .next t ∧ t.fld (lnEye p l) 0 8 = h.toNat ∧ t.fld (lnEye p l) 16 8 = w.toNat ∧
      t.bit (lnEye p l) 31 = true ∧ (t.laneS p l).lowRun = 0 ∧ t.lnState p l = 6) ∧
  (∀ (p : PortIx) (l : LaneIx) (s : State), s.lnState p l = 6 → s.bit (lnRxEq p l) 31 = true → s.bit (lnRxEq p l) 30 = false →
    s.bit (lnMarginRes p l) 30 = false → (s.laneS p l).recal = false → (s.link p).rxQuiet = false → (s.link p).sp = 0 →
    s.trackTicks p l ≤ ticksSince (s.laneS p l).trackAt s.tick.loc →
    ∃ t, exec (.peakingTrackStep p l (some true)) s = .next t ∧ t.fld (lnRxEq p l) 0 4 = min 15 (s.fld (lnRxEq p l) 0 4 + 1) ∧
      (t.laneS p l).trackAt = s.tick.loc) ∧
  (∀ (p : PortIx) (l : LaneIx) (v : Word) (s : State), s.present 2 p = true → s.present 3 (p.val * 5 + l.val) = true → s.linkDisabled p = false →
    exec (.lnTestCtlGenEn p l v) s = .next s ∧ exec (.lnTestCtlChkEn p l v) s = .next s) ∧
  (∀ (p : PortIx) (l : LaneIx) (v : Word) (s : State), (s.present 2 p && s.present 3 (p.val * 5 + l.val)) = false →
    exec (.lnTestCtlGenEn p l v) s = .next (s.raise 0x0101 [.w (lnTestCtl p l)]) ∧
    exec (.lnTestCtlChkEn p l v) s = .next (s.raise 0x0101 [.w (lnTestCtl p l)]) ∧
    exec (.lnTestCtlInjOne p l v) s = .next (s.raise 0x0101 [.w (lnTestCtl p l)]) ∧
    exec (.lnMarginCtlGo p l v) s = .next (s.raise 0x0101 [.w (lnMarginCtl p l)])) ∧
  (∀ (p : PortIx) (l : LaneIx) (v : Word) (s : State), s.present 2 p = true → s.present 3 (p.val * 5 + l.val) = true → s.linkDisabled p = true → (l.val ≠ 4 ∨ s.pmode p = 3) →
    ∃ t, exec (.lnTestCtlGenEn p l v) s = .next t ∧ t.lnState p l = 9 ∧ t.bit (lnTestCtl p l) 31 = true) ∧
  (∀ (p : PortIx) (l : LaneIx) (v : Word) (s : State), s.present 2 p = true → s.present 3 (p.val * 5 + l.val) = true → s.linkDisabled p = true → (l.val ≠ 4 ∨ s.pmode p = 3) →
    ∃ t, exec (.lnTestCtlChkEn p l v) s = .next t ∧ t.lnState p l = 9 ∧ t.bit (lnTestCtl p l) 30 = true) ∧
  (∀ (p : PortIx) (l : LaneIx) (v : Word) (s : State), s.present 2 p = true → s.present 3 (p.val * 5 + l.val) = true → s.linkDisabled p = true → (l.val ≠ 4 ∨ s.pmode p = 3) → bits v 31 1 = 1 →
    ∃ t, exec (.lnTestCtlInjOne p l v) s = .next t ∧ t.lnState p l = 9 ∧ Out.lnInject p l ∈ t.out ∧ t.bit (lnTestCtl p l) 24 = false) ∧
  (∀ (p : PortIx) (l : LaneIx) (r : BitVec 31) (s : State), s.lnState p l = 9 → s.bit (lnTestCtl p l) 30 = true → (s.laneS p l).phase = 5 →
    s.bit (lnTestStatus p l) 31 = false → ∃ t, exec (.checkerSync p l r) s = .next t ∧ t.bit (lnTestStatus p l) 31 = true) ∧
  (∀ (p : PortIx) (l : LaneIx) (n wrong : Nat) (s : State), s.lnState p l = 9 → s.bit (lnTestStatus p l) 31 = true →
    ∃ t, exec (.checkerSyncLost p l n wrong) s = .next t ∧ t.bit (lnTestStatus p l) 31 = false ∧
      t.nreg (lnTestErrCnt p l) = min 0xFFFFFFFF (s.nreg (lnTestErrCnt p l) + wrong)) ∧
  (∀ (p : PortIx) (l : LaneIx) (v : Word) (s : State), s.present 2 p = true → s.present 3 (p.val * 5 + l.val) = true → (s.lnState p l = 6 ∨ s.lnState p l = 9) → (s.laneS p l).recal = false →
    (s.laneS p l).pcie = false →
    ∃ t, exec (.lnMarginCtlGo p l v) s = .next t ∧ t.bit (lnMarginRes p l) 30 = true ∧ t.bit (lnMarginRes p l) 31 = false) ∧
  (∀ (p : PortIx) (l : LaneIx) (n : Nat) (s : State), s.bit (lnMarginRes p l) 30 = true →
    s.marginUi p l ≤ (ticksSince (s.laneS p l).margAt s.tick.loc + 1) * s.laneUi p l →
    ∃ t, exec (.marginDone p l n) s = .next t ∧ t.bit (lnMarginRes p l) 30 = false ∧ t.bit (lnMarginRes p l) 31 = true ∧
      t.fld (lnMarginRes p l) 0 28 = min n (2 ^ 28 - 1)) ∧
  (∀ (p : PortIx) (l : LaneIx) (run : Bool) (s : State), (s.pmode p = 1 ∨ s.pmode p = 2) → s.lnState p l = 6 →
    3 ≤ s.fld (ptCxStatus (s.linkOf p)) 26 3 → s.bit (lnMarginRes p l) 30 = false →
    ∃ t, exec (.pcieMarginingCommand p l run) s = .next t ∧ (t.laneS p l).pcie = run ∧ t.out = s.out ++ [.lnMargin p l true])

/-- Power up (R299, R300, R303): seating, debounce, the pass check, inrush, the rail groups, up to ON. Failing to power up, and
leaving FAULT (R299, R300, R302, R304). -/
def Obligations.PowerUp : Prop :=
  (∀ s : State, s.kState = kUnseated → s.pwr.supply = true →
    ∃ t, exec .seatPinsSeated s = .next t ∧ t.kState = kDebounce ∧ t.fld pwrStatus 26 2 = 3 ∧ t.pwr.keepRun = true) ∧
  (∀ (a b : Bool) (s : State), s.kState = kDebounce →
    ∃ t, exec (.seatPinChange a b) s = .next t ∧ t.bit pwrStatus 27 = a ∧ t.bit pwrStatus 26 = b ∧ t.kState = kDebounce) ∧
  (∀ s : State, s.kState = kDebounce → s.fld pwrStatus 26 2 = 3 →
    ∃ t, exec .seatDebounceExpiry s = .next t ∧ t.kState = kStandby ∧ t.pwr = { s.pwr with keepRun := false, latched := 0, tripped := 0 } ∧
      t.bit pwrFault 24 = false) ∧
  (∀ (va vb vbus midA midB : Nat) (s : State), s.kState = kStandby → s.passDamaged = false → vbus < 2000 → midA < 2000 →
    midB < 2000 → s.feedUsable 0 = true → s.feedUsable 1 = true → s.bit pwrStatus 25 = true →
    ∃ t, exec (.onReqLow va vb vbus midA midB) s = .next t ∧ t.kState = kInrush ∧
      t.pwr.charging = (if vb ≤ va then 0 else 1) ∧ t.pwr.pass = 2 ^ t.pwr.charging ∧
      t.nreg (pwrFeedV 0) = min va 65535 ∧ t.nreg (pwrFeedV 1) = min vb 65535) ∧
  (∀ (va vb vbus midA midB : Nat) (s : State), s.kState = kStandby → s.passDamaged = false →
    2000 ≤ vbus ∨ 2000 ≤ midA ∨ 2000 ≤ midB →
    ∃ t, exec (.onReqLow va vb vbus midA midB) s = .next t ∧ t.kState = kFault ∧ t.passDamaged = true) ∧
  (∀ s : State, s.kState = kInrush →
    ∃ t, exec .inrushComplete s = .next t ∧ t.kState = kSequencing ∧ t.pwr.group = 0) ∧
  (∀ (g : Fin 10) (s : State), s.kState = kSequencing → s.pwr.group = g →
    ∃ t, exec (.railGroupSettled g) s = .next t ∧ t.pwr.group = g + 1 ∧
      t.pwr.mgmtUp = (s.pwr.mgmtUp || decide (g = 3)) ∧ t.kState = (if g = 9 then kOn else kSequencing) ∧
      (g = 9 → t.bit pwrStatus 19 = true)) ∧
  (∀ s : State, s.kState = kInrush →
    ∃ t, exec .inrushTimeout s = .next t ∧ t.kState = kFault ∧ t.pwr.pass = 0 ∧ t.pwr.bleeder = true ∧
      t.fld pwrLastOff 24 8 = 5) ∧
  (∀ s : State, s.kState = kInrush → s.pwr.charging < 2 →
    ∃ t, exec .inrushFeedLost s = .next t ∧ t.bit pwrStatus (24 - s.pwr.charging) = false ∧
      (s.feedUsable (1 - s.pwr.charging) = true → t.kState = kInrush ∧ t.pwr.charging = 1 - s.pwr.charging) ∧
      (s.feedUsable (1 - s.pwr.charging) = false → t.kState = kStandby ∧ t.pwr.pass = 0)) ∧
  (∀ (g : Fin 10) (s : State), s.kState = kSequencing → s.pwr.group = g →
    exec (.railGroupTimeout g) s = .next (s.emergencyOff 3 g)) ∧
  (∀ s : State, s.kState = kFault → s.passDamaged = false →
    ∃ t, exec .faultOnReqCycle s = .next t ∧ t.kState = kStandby ∧ t.pwr.latched = 0 ∧ t.pwr.tripped = 0 ∧
      t.bit pwrFault 24 = false) ∧
  (∀ (a b : Bool) (s : State), s.pwr.pass = 0 → s.kState ≠ kInrush → s.passDamaged = false →
    ∃ t, exec (.passDamaged a b) s = .next t ∧ t.passDamaged = true ∧ t.bit pwrStatus 18 = true ∧
      t.fld pwrLastOff 24 8 = 6)

/-- Every emergency off opens both pass transistors, drops the rails, records its cause and connects the bleeder (R304), whichever
command brings it. Going off in order (R299, R305, R311), and what the discharge of V_BUS ends (R299, R301). -/
def Obligations.PowerOff : Prop :=
  (∀ (cause group : Nat) (s : State), cause < 16 → group < 16 →
    let t := s.emergencyOff cause group
    t.kState = kOffWait ∧ t.pwr.pass = 0 ∧ t.pwr.oring = 0 ∧ t.pwr.bleeder = true ∧ t.pwr.mgmtUp = false ∧
      t.bit pwrStatus 19 = false ∧ t.fld pwrStatus 21 2 = 0 ∧ t.fld pwrLastOff 24 4 = cause ∧ t.fld pwrLastOff 20 4 = group ∧
      t.fld pwrLastOff 0 20 = min (s.fld pwrLastOff 0 20 + 1) (2 ^ 20 - 1) ∧
      t.home = s.home ∧ t.bind = s.bind ∧ t.mgmt = s.mgmt ∧ t.out = s.out) ∧
  (∀ (g : Fin 10) (s : State), s.powered = true → exec (.railFault g) s = .next (s.emergencyOff 3 g)) ∧
  (∀ s : State, s.kState = kStandby ∨ s.kState = kOn → s.pwr.vbusHigh = true →
    exec .extraction s = .next ((s.setFld pwrStatus 26 2 0).emergencyOff 2 0)) ∧
  (∀ s : State, s.kState = kStandby → s.pwr.vbusHigh = false →
    ∃ t, exec .extraction s = .next t ∧ t.kState = kUnseated ∧ t.fld pwrStatus 26 2 = 0 ∧ t.fld pwrLastOff 24 4 = 2) ∧
  (∀ s : State, s.powered = true →
    exec .vbusUndervoltage s =
      .next ((s.setBit pwrStatus 20 false).emergencyOff (if s.pwr.tripped = 3 then 7 else 4) 0)) ∧
  (∀ s : State, s.kState = kOn →
    (∃ t, exec .onReqHigh s = .next t ∧ t.kState = kStopping ∧ t.bit pwrStatus 25 = false ∧ t.pwr.down = 10) ∧
    (∃ t, exec .pwrCtlOff s = .next t ∧ t.kState = kStopping ∧ t.pwr.down = 10)) ∧
  (∀ (q : Req) (s : State), s.admitted 0x0A01 q { lenOk := true } = true → s.kState = kOn →
    ∃ t, exec (.opModuleOff q []) s = .next t ∧ t.kState = kStopping ∧ Out.reply q 0x0A01 stOk [] ∈ t.out) ∧
  (∀ (g : Fin 10) (s : State), s.kState = kStopping → s.pwr.down = g + 1 →
    ∃ t, exec (.orderlyOffGroupDisable g) s = .next t ∧ t.pwr.down = g ∧ t.kState = kStopping ∧
      (g = 0 → t.pwr.pass = 0 ∧ t.pwr.bleeder = true)) ∧
  (∀ s : State, s.kState = kStopping ∨ s.kState = kOffWait →
    ∃ t, exec .vbusDischarged s = .next t ∧ t.pwr.vbusHigh = false ∧ t.pwr.bleeder = false ∧
      t.bit pwrStatus 18 = s.passDamaged ∧
      t.kState = (if s.kState = kStopping then kStandby else if s.pwr.offKind = 2 then kUnseated else kFault))

/-- The two feeds and their protection (R296-R298, R306, R308, R311). -/
def Obligations.FeedProtection : Prop :=
  (∀ (f : FeedIx) (mv : Nat) (s : State), s.kState = kOn → s.feedOk f = true →
    ∃ t, exec (.feedOutOfRange f mv) s = .next t ∧ t.feedOk f = false ∧ nbit t.pwr.pass f = false ∧ t.bit pwrFault (27 - f) = true ∧
      (s.feedOk (1 - f) = true → t.bit pwrStatus 20 = s.bit pwrStatus 20) ∧
      (s.feedOk (1 - f) = false → t.bit pwrStatus 20 = true)) ∧
  (∀ (f : FeedIx) (mv : Nat) (s : State), s.kState = kOn → s.pwr.supply = true → s.feedOk f = false →
    ∃ t, exec (.feedInRange f mv) s = .next t ∧ t.feedOk f = true ∧ t.bit pwrStatus 20 = false ∧
      t.nreg (pwrFeedV f) = min mv 65535) ∧
  (∀ (f : FeedIx) (s : State),
    ∃ t, exec (.oringTurnOff f) s = .next t ∧ nbit t.pwr.oring f = false ∧ nbit (t.fld pwrStatus 21 2) f = false ∧
      t.pwr.pass = s.pwr.pass) ∧
  (∀ (f : FeedIx) (s : State), nbit s.pwr.oring f = false →
    ∃ t, exec (.oringFail f) s = .next t ∧ nbit t.pwr.pass f = false ∧ nbit t.pwr.oringBad f = true ∧ t.bit pwrFault 28 = true) ∧
  (∀ (f : FeedIx) (ma : Nat) (s : State), nbit s.pwr.pass f = true →
    ∃ t, exec (.cbTrip f ma) s = .next t ∧ nbit t.pwr.pass f = false ∧ nbit t.pwr.tripped f = true ∧ t.bit pwrFault 25 = true ∧
      t.nreg pwrCbTripCnt = min (s.nreg pwrCbTripCnt + 1) (2 ^ 32 - 1) ∧
      (tget 0 s.pwr.tripAt f = 0 → nbit t.pwr.retry f = true ∧ nbit t.pwr.latched f = nbit s.pwr.latched f) ∧
      (tget 0 s.pwr.tripAt f ≠ 0 → ticksSince (BitVec.ofNat 48 (tget 0 s.pwr.tripAt f - 1)) s.tick.loc < sixtySeconds →
        nbit t.pwr.retry f = false ∧ nbit t.pwr.latched f = true ∧ t.bit pwrFault 24 = true)) ∧
  (∀ (f : FeedIx) (s : State), nbit s.pwr.retry f = true → s.feedUsable f = true → s.powered = true →
    (s.kState ≠ kOn ∨ oneSecond ≤ ticksSince (BitVec.ofNat 48 (tget 0 s.pwr.tripAt f - 1)) s.tick.loc) →
    ∃ t, exec (.cbRetry f) s = .next t ∧ nbit t.pwr.retry f = false ∧ nbit t.pwr.tripped f = false ∧ nbit t.pwr.pass f = true) ∧
  (∀ (v : Bool) (s : State), s.feedOk 0 = true → s.feedOk 1 = true →
    (∃ t, exec (.pwrCtlFeedAEn v) s = .next t ∧ t.bit pwrCtl 30 = v ∧ (v = false → nbit t.pwr.pass 0 = false)) ∧
    (∃ t, exec (.pwrCtlFeedBEn v) s = .next t ∧ t.bit pwrCtl 29 = v ∧ (v = false → nbit t.pwr.pass 1 = false))) ∧
  (∀ s : State,
    ∃ t, exec .keeperSupplyLost s = .next t ∧ t.pwr.supply = false ∧ t.pwr.pass = 0 ∧ t.pwr.mgmtUp = false ∧
      t.mgmt = s.mgmt) ∧
  (∀ s : State, s.pwr.supply = false →
    ∃ t, exec .keeperPowerOn s = .next t ∧ t.regs = [] ∧ t.pwr.supply = true ∧ t.mgmt.fuses = s.mgmt.fuses)

/-- MCTP reception and control (R312, R313): a whole Nalug message in one packet enters the queue of accepted requests, or is
answered; the control commands set and give what R313 lists; an unfinished message goes after 100 ms. The sideband buses (R314,
R328, R330): a bus reset breaks the locks of its path and forgets its replies; a lost arbitration is counted and retried, the eighth
gives the packet up. -/
def Obligations.MctpAndSideband : Prop :=
  (∀ (k : MctpPacket) (s : State), k.pecOk = true → k.som = true → k.eom = true → k.payload.length ≤ 4099 →
    byteAt k.payload 0 = 0x7E → leAt k.payload 1 2 = Config.vendorId.toNat →
    s.nalug.reasm.find? (fun r => r.is k.src k.tag k.owner) = none →
    exec (.nalugPacketReceive k) s = .next (s.nalugAccept k.src (k.payload.drop 3))) ∧
  (∀ (src : Src) (tag : BitVec 3) (owner : Bool) (s : State), s.nalug.reasm.any (fun r => r.is src tag owner) = true →
    exec (.mctpReassemblyTimeout src tag owner) s =
      .next (({ s with nalug := { s.nalug with reasm := s.nalug.reasm.filter (fun r => !r.is src tag owner) } }).cnt
        mgtNalugReasmErrCnt)) ∧
  (∀ (src : Src) (eid : Byte) (s : State),
    exec (.setEndpointId src eid) s =
      .next { s with
        nalug := { s.nalug with eids := tput 0 s.nalug.eids (pathKey src) eid.toNat },
        out := s.out ++ [.mctp src 1 [0, eid]] }) ∧
  (∀ (src : Src) (s : State),
    exec (.getEndpointId src) s =
      .next { s with out := s.out ++ [.mctp src 2 [0, BitVec.ofNat 8 (tget 0 s.nalug.eids (pathKey src))]] } ∧
    exec (.getMctpVersionSupport src) s = .next { s with out := s.out ++ [.mctp src 4 Config.mctpVersions] } ∧
    exec (.getMessageTypeSupport src) s =
      .next { s with out := s.out ++ [.mctp src 5 [0, 2, 0x7E, Config.fmApiType]] } ∧
    exec (.getVendorDefinedMessageSupport src) s =
      .next { s with out := s.out ++ [.mctp src 6 (0 :: toLe 2 Config.vendorId.toNat)] }) ∧
  (∀ (b : BusIx) (s : State), s.busI3c b = false →
    exec (.smbusClockLowTimeout b) s = .next (s.resetPath (onBus b)) ∧
    exec (.sidebandBusSupplyLoss b) s = .next (s.resetPath (onBus b))) ∧
  (∀ (b : BusIx) (addr : BitVec 7) (s : State), s.busI3c b = true →
    exec (.i3cTargetReset b) s = .next (s.resetPath (onBus b)) ∧
    (∃ t, exec (.i3cEntdaa b addr) s = .next t ∧ tget 0 t.nalug.i3c b = addr.toNat + 1 ∧ t.regs = s.regs ∧ t.out = s.out)) ∧
  (∀ (b : BusIx) (s : State),
    ∃ t, exec (.sbArbRetry b) s = .next t ∧
      t.nreg mgtSbArbLossCnt = min (s.nreg mgtSbArbLossCnt + 1) (2 ^ 32 - 1) ∧
      (tget 0 s.nalug.tries (b + 1) < 7 → tget 0 t.nalug.tries (b + 1) = tget 0 s.nalug.tries (b + 1) + 1) ∧
      (tget 0 s.nalug.tries (b + 1) = 7 → tget 0 t.nalug.tries (b + 1) = 0)) ∧
  (∀ (b : BusIx) (s : State) (n : Nat), n < 64 → s.busI3c b = false → (s.lockAt n).held = true → onBus b (s.lockAt n).owner = true →
    ((s.resetPath (onBus b)).lockAt n).held = false ∧ ((s.resetPath (onBus b)).lockAt n).broken = true ∧
    ((s.resetPath (onBus b)).lockAt n).gen = (s.lockAt n).gen + 1)

/-- An accepted request waits in the order of arrival; a ninth of its source, or a sixty-fifth, is answered ST_BUSY and counted; a
repeated sequence number gets its kept reply again (R316, R317). -/
def Obligations.NalugAcceptance : Prop :=
  ∀ (src : Src) (b : List Byte) (s : State), s.clk.mgmtLost = false → (s.bit glbTickStatus 29 = false ∨ src.path ≠ 3) → 16 ≤ b.length →
    byteAt b 2 < 64 →
    let q := parseReq src b
    (∀ k, s.nalug.kept.find? (fun k => decide (k.src = src) && decide (k.seq = q.seq)) = some k →
      s.nalugAccept src b = { s with out := s.out ++ [.reply q k.opcode k.status k.body] }) ∧
    (s.freshSeq q = true → s.nalug.inbox = [] → s.nalug.br = none → s.nalug.brWait = [] → s.served (leAt b 0 2) = true →
      knownOpcodes.contains (leAt b 0 2) = true → leAt b 6 2 = b.length - 16 →
      (s.nalugAccept src b).nalug.inbox = [(src, b, s.tick.loc)] ∧ (s.nalugAccept src b).out = s.out) ∧
    (s.freshSeq q = true → s.nalug.br = none → s.nalug.brWait = [] → s.nalug.inbox.length = 64 →
      s.nalug.inbox.all (fun m => !decide (m.1 = src)) = true →
      s.nalugAccept src b = (s.cnt mgtNalugBusyCnt).answer (leAt b 0 2) q stBusy [])

/-- General management commands (R32, R323): what OP_IDENTIFY and OP_WALLCLOCK_MARK answer and leave. Locks (R325, R326, R341):
acquiring a free lock, releasing one's own, breaking one by force, and asking. Step tokens (R321, R322): a poll of a running command
tells its progress; of a finished one its final status and reply, and its slot is free again; a suspended command resumes. Events to
software (R336-R339): subscribing, reading the log, draining the oldest event, clearing pending bits. -/
def Obligations.GeneralCommands : Prop :=
  (∀ (q : Req) (s : State), s.admitted 0x0101 q { lenOk := true } = true →
    exec (.opIdentify q []) s =
      .next ((s.begun 0x0101 q []).answered 0x0101 q stOk
        (toLe 4 (s.nreg glbModuleFid) ++ toLe 4 s.mgmt.bootCount.toNat ++
          toLe 2 (if s.mgmt.inRecovery then 0 else s.fld mgtFwInfo 0 16) ++ toLe 1 (s.fld mgtStatus 25 3) ++
          toLe 1 (b2n (s.bit glbTickStatus 29) + 2 * b2n (s.bit mgtStatus 29) + 4 * b2n s.locked) ++ toLe 4 1))) ∧
  (∀ (q : Req) (body : List Byte) (s : State), s.admitted 0x0105 q { lenOk := true } = true → body.length = 16 →
    ∃ t, exec (.opWallclockMark q body) s = .next t ∧
      (∀ k, k < 4 → t.reg (glbWallclockMark k) = BitVec.ofNat 32 (leAt body (4 * k) 4)) ∧
      t.reg glbWallclockTick = BitVec.ofNat 32 s.tick.loc.toNat ∧
      t.reg (glbWallclockTick + 4) = BitVec.ofNat 32 (2 ^ 31 + s.tick.loc.toNat / 2 ^ 32) ∧
      Out.reply q 0x0105 stOk [] ∈ t.out) ∧
  (∀ (q : Req) (body : List Byte) (s : State),
    let n := byteAt body 0
    let l := s.lockAt n
    s.admitted 0x0108 q { lenOk := true } = true → body.length = 12 → n < 64 → byteAt body 1 ≤ 6 → leAt body 2 2 = 0 →
    leAt body 4 4 ≤ leAt body 8 4 → leAt body 8 4 < 2 ^ 28 → l.held = false →
    (∀ k, k < 64 → (s.lockAt k).held = true → (s.lockAt k).owner = q.src) →
    exec (.opLockAcquire q body) s =
      .next (((s.begun 0x0108 q body).setLock n
          { held := true, broken := false, kind := byteAt body 1, gen := l.gen + 1, owner := q.src, first := leAt body 4 4,
            last := leAt body 8 4, moves := l.moves + 1 }).answered 0x0108 q stOk (toLe 2 n ++ toLe 2 (l.gen + 1).toNat))) ∧
  (∀ (q : Req) (body : List Byte) (s : State),
    let n := q.lock.toNat
    let l := s.lockAt n
    s.admitted 0x0109 q { lenOk := true } = true → body.length = 4 → l.held = true →
    (leAt body 0 4 = 0 → q.lockV = true → l.owner = q.src → l.gen = q.gen →
      exec (.opLockRelease q body) s =
        .next (((s.begun 0x0109 q body).setLock n { l with held := false, broken := false }).answered 0x0109 q stOk [])) ∧
    (leAt body 0 4 = 1 →
      exec (.opLockRelease q body) s = .next (((s.begun 0x0109 q body).breakLock n).answered 0x0109 q stOk []))) ∧
  (∀ (q : Req) (body : List Byte) (s : State), s.admitted 0x010A q { lenOk := true } = true → body.length = 4 →
    leAt body 0 4 ≤ 63 →
    exec (.opLockQuery q body) s =
      .next ((s.begun 0x010A q body).answered 0x010A q stOk
        (let l := s.lockAt (byteAt body 0)
         toLe 4 (b2n l.held * 2 ^ 31 + b2n l.broken * 2 ^ 30 + l.kind * 2 ^ 24 + l.gen.toNat) ++ toLe 4 (srcWord l.owner) ++
           toLe 4 l.first ++ toLe 4 l.last))) ∧
  (∀ (q : Req) (body : List Byte) (s : State),
    let tok := leAt body 0 8
    let k := tok % 256
    let x := s.slot k
    s.admitted 0x010B q { lenOk := true } = true → body.length = 8 → k < 32 → tok = stepToken k x →
    (x.state = 1 ∨ x.state = 2 →
      exec (.opStepPoll q body) s =
        .next ((s.begun 0x010B q body).answered 0x010B q stInProgress (toLe 8 tok ++ toLe 4 x.done ++ toLe 4 x.total))) ∧
    (x.state = 3 →
      exec (.opStepPoll q body) s =
        .next (((s.begun 0x010B q body).setSlot k ({ use := x.use } : StepSlot)).answered 0x010B q x.status x.reply))) ∧
  (∀ (q : Req) (body : List Byte) (s : State),
    let tok := leAt body 0 8
    let k := tok % 256
    let x := s.slot k
    s.admitted 0x010C q { lenOk := true } = true → body.length = 8 → k < 32 → tok = stepToken k x → x.state = 2 →
    exec (.opStepResume q body) s =
      .next (((s.begun 0x010C q body).setSlot k { x with state := 1 }).answered 0x010C q stInProgress
        (toLe 8 tok ++ toLe 4 x.done ++ toLe 4 x.total))) ∧
  (∀ (q : Req) (body : List Byte) (k : Nat) (s : State), s.admitted 0x010D q { lenOk := true } = true → body.length = 4 →
    byteAt body 2 = 1 → byteAt body 3 = 0 → leAt body 0 2 < 2 ^ 14 → leAt body 0 2 % 2 = 0 →
    s.nalug.subs.find? (fun e => decide (e.2.src = q.src)) = none →
    (List.range 8).find? (fun k => (tfind s.nalug.subs k).isNone) = some k →
    ∃ t, exec (.opEventConfig q body) s = .next t ∧ tfind t.nalug.subs k = some ⟨q.src, leAt body 0 2, 0, 0, []⟩ ∧
      Out.reply q 0x010D stOk (toLe 4 k) ∈ t.out) ∧
  (∀ (q : Req) (body : List Byte) (s : State), s.admitted 0x010E q { lenOk := true } = true → body.length = 8 →
    s.logOn = true → 0 < byteAt body 4 → byteAt body 4 ≤ 16 → leAt body 5 3 = 0 →
    BitVec.ofNat 32 (leAt body 0 4) = s.ev.logHead - BitVec.ofNat 32 s.ev.log.length →
    exec (.opEventLogRead q body) s =
      .next ((s.begun 0x010E q body).answered 0x010E q stOk
        (toLe 4 s.ev.logHead.toNat ++ toLe 4 (leAt body 0 4) ++ ((s.ev.log.take (byteAt body 4)).map EvRec.bytes).flatten))) ∧
  (∀ (r : EvRec) (rest : List EvRec) (s : State), s.clk.mgmtLost = false → s.ev.fifo = r :: rest → s.nalug.subs = [] →
    ∃ t, exec .eventDrain s = .next t ∧ t.ev.fifo = rest ∧ t.bit glbEvPend (r.code / 256) = decide (r.code / 256 < 32) ∧
      (s.logOn = true → s.ev.log.length < 2 ^ 20 → t.ev.log = s.ev.log ++ [r] ∧ t.ev.logHead = s.ev.logHead + 1) ∧
      (s.bit glbEvPend (r.code / 256) = false → s.bit glbEvMask (r.code / 256) = false → r.code / 256 < 32 →
        t.out = s.out ++ [.msix (r.code / 256)])) ∧
  (∀ (v : Word) (s : State),
    ∃ t, exec (.glbEvPendWrite v) s = .next t ∧ t.reg glbEvPend = s.reg glbEvPend &&& ~~~ (v &&& 0x3FFE#32) ∧
      (∀ o, o ≠ glbEvPend → t.reg o = s.reg o))

/-- The PMBus bridge (R331, R332, R335): a free bus takes a transaction at once and a busy one queues it; its end answers the
requester that still waits, reports a late error otherwise, and lets the next one start; after 40 ms a held access ends with a
timeout while the transaction runs on. A poll round (R309, R333): a stage that does not answer is counted, one that answers is read
into its registers. -/
def Obligations.Bridge : Prop :=
  (∀ (q : Req) (body : List Byte) (s : State), s.admitted 0x0A02 q { kinds := [10], lenOk := true } = true → body.length = 4 →
    0 < byteAt body 1 → byteAt body 1 ≤ 32 → byteAt body 2 ≤ 1 → byteAt body 3 = 0 →
    let x : BrTxn := { stage := q.index.toNat, code := byteAt body 0, len := byteAt body 1, read := true,
                       block := decide (byteAt body 2 = 1), data := [], nalug := some (q, 0x0A02), opn := true }
    exec (.opPmbusRead q body) s = .next (((s.begun 0x0A02 q body).brStart x).cnt64 mgtNalugCmdCnt) ∧
    (s.nalug.br = none → (s.brStart x).nalug.br = some x ∧ (s.brStart x).out = s.out ++ [.pmbus s.brKhz x]) ∧
    (s.nalug.br.isSome = true → (s.brStart x).nalug.brWait = s.nalug.brWait ++ [x] ∧ (s.brStart x).out = s.out)) ∧
  (∀ (q : Req) (body : List Byte) (s : State), s.admitted 0x0A03 q { kinds := [10], lenOk := true } = true →
    body.length = 4 + byteAt body 1 → byteAt body 1 ≤ 32 → byteAt body 2 ≤ 1 → byteAt body 3 = 0 →
    ((byteAt body 0 = 0x03 ∧ byteAt body 1 = 0) ∨ q.src.path = 4 →
      exec (.opPmbusWrite q body) s =
        .next (((s.begun 0x0A03 q body).brStart
          { stage := q.index.toNat, code := byteAt body 0, len := byteAt body 1, read := false,
            block := decide (byteAt body 2 = 1), data := body.drop 4, nalug := some (q, 0x0A03), opn := true }).cnt64
          mgtNalugCmdCnt)) ∧
    (¬ (byteAt body 0 = 0x03 ∧ byteAt body 1 = 0) → q.src.path ≠ 4 →
      exec (.opPmbusWrite q body) s =
        .next (((s.begun 0x0A03 q body).cnt mgtNalugDeniedCnt).answered 0x0A03 q stDenied []))) ∧
  (∀ (cause : Fin 6) (data : List Byte) (x : BrTxn) (s : State), s.nalug.br = some x → s.nalug.brWait = [] →
    ∃ t, exec (.bridgeTransactionDone cause data) s = .next t ∧ t.nalug.br = none ∧
      (cause ≠ 0 → x.cmd = true → t.bit pwrBrStatus 30 = true ∧ t.fld pwrBrStatus 24 4 = cause) ∧
      (x.cmd = true → t.bit pwrBrStatus 31 = false)) ∧
  (∀ (x : BrTxn) (s : State), s.nalug.br = some x → x.opn = true →
    ∃ t, exec .bridgeHoldLimit s = .next t ∧ t.nalug.br = some { x with opn := false, hold := [], nalug := none } ∧
      (∀ q code, x.nalug = some (q, code) → Out.reply q code stBridgeTimeout [] ∈ t.out)) ∧
  (∀ (m : Fin 8) (vendor : Bool) (v : Word) (s : State), s.bit pwrBrStatus 31 = false → bits v 0 1 = 1 → bits v 24 5 ≤ 20 →
    s.nalug.br = none →
    ∃ t x, exec (.pwrBrCmdWrite m vendor v) s = .next t ∧ t.bit pwrBrStatus 31 = true ∧ t.reg pwrBrCmd = v &&& 0x1FFF3F03#32 ∧
      t.nalug.br = some x ∧ x.stage = bits v 24 5 ∧ x.code = bits v 16 8 ∧ x.len = bits v 8 6 ∧ x.read = true ∧
      t.out = s.out ++ [.pmbus s.brKhz x]) ∧
  (∀ (m w : Fin 8) (s : State),
    (s.bit pwrBrStatus 31 = false →
      exec (.pwrBrDataRead m w) s = .next (s.emit (.readDone m (pwrBrData w) (toLe 4 (s.nreg (pwrBrData w)))))) ∧
    (∀ x, s.bit pwrBrStatus 31 = true → s.nalug.br = some x → x.cmd = true → x.read = true →
      exec (.pwrBrDataRead m w) s =
        .next { s with nalug := { s.nalug with br := some { x with opn := true, hold := x.hold ++ [(m.val, w.val)] } } })) ∧
  (∀ (q : Req) (s : State), s.admitted 0x0A04 q { kinds := [0, 10], lenOk := true } = true → q.kind = 10 →
    exec (.opTelemetryRead q []) s =
      .next ((s.begun 0x0A04 q []).answered 0x0A04 q stOk (s.stageRecords q.index.toNat))) ∧
  (∀ (r : StageReading) (s : State), s.present 10 r.stage = true →
    (r.ok = false →
      ∃ t, exec (.bridgePollRound [r]) s = .next t ∧
        (tget {} t.nalug.stages r.stage).fails = (tget {} s.nalug.stages r.stage).fails + 1 ∧
        (2 ≤ (tget {} s.nalug.stages r.stage).fails → t.bit (pwrStgStatus r.stage) 31 = true)) ∧
    (r.ok = true →
      ∃ t, exec (.bridgePollRound [r]) s = .next t ∧ (tget {} t.nalug.stages r.stage).fails = 0 ∧
        (tget {} t.nalug.stages r.stage).raw = [r.vout, r.iout, r.temp, r.status] ∧
        t.bit (pwrStgStatus r.stage) 31 = false ∧ t.fld (pwrStgStatus r.stage) 0 16 = r.status.toNat ∧
        t.nreg (pwrStgStamp r.stage) = s.tick.loc.toNat % 2 ^ 32))

/-- Firmware copies (R347, R348): writing the inactive copy, the flash's progress, and the commit as a stepped command. The FJX
image (R351): reading the applied copy, staging a new one, committing it as a stepped command. -/
def Obligations.FirmwareAndFjx : Prop :=
  (∀ (q : Req) (body : List Byte) (s : State), s.admitted 0x0201 q { lenOk := true } = true → 5 ≤ body.length →
    body.length ≤ 4068 → leAt body 0 4 + (body.length - 4) ≤ 33554432 - 64 → s.running .fwCommit = false →
    s.mgmt.fwBuf + (body.length - 4) ≤ 65536 →
    (leAt body 0 4 = 0 ∨ ((s.fwCopy s.inactive).started = true ∧ leAt body 0 4 = (s.fwCopy s.inactive).bytes.length)) →
    ∃ t, exec (.opFwWrite q body) s = .next t ∧
      (t.fwCopy s.inactive).bytes = (if leAt body 0 4 = 0 then body.drop 4 else (s.fwCopy s.inactive).bytes ++ body.drop 4) ∧
      t.fwCopy (1 - s.inactive) = s.fwCopy (1 - s.inactive) ∧ t.mgmt.fwBuf = s.mgmt.fwBuf + (body.length - 4) ∧
      Out.reply q 0x0201 stOk [] ∈ t.out) ∧
  (∀ (n : Nat) (good : Bool) (s : State),
    (∃ t, exec (.flashProgramDone false n good) s = .next t ∧ t.mgmt.fwBuf = s.mgmt.fwBuf - n ∧
      (t.fwCopy s.inactive).readOk = ((s.fwCopy s.inactive).readOk && good) ∧ t.mgmt.staging = s.mgmt.staging) ∧
    (∃ t, exec (.flashProgramDone true n good) s = .next t ∧ t.mgmt.fjxBuf = s.mgmt.fjxBuf - n ∧
      t.mgmt.stagingOk = (s.mgmt.stagingOk && good) ∧ t.mgmt.fwA = s.mgmt.fwA ∧ t.mgmt.fwB = s.mgmt.fwB)) ∧
  (∀ (q : Req) (k : Nat) (s : State), s.admitted 0x0202 q { lenOk := true } = true → s.running .fwCommit = false →
    s.pickSlot = some k → exec (.opFwCommit q []) s = .next (s.stepped k 0x0202 q [] .fwCommit 1 0)) ∧
  (∀ s : State, s.mgmt.inRecovery = true → s.mgmt.recovBoot = true → exec .recoveryBootStart s = .next (s.bootRom false)) ∧
  (∀ (q : Req) (body b : List Byte) (s : State), s.admitted 0x0203 q { lenOk := true } = true → body.length = 8 →
    0 < leAt body 4 2 → leAt body 4 2 ≤ 4064 → leAt body 6 2 = 0 → s.mgmt.applied = some b →
    leAt body 0 4 + leAt body 4 2 ≤ b.length → b.length ≤ 4194304 →
    ∃ t, exec (.opFjxRead q body) s = .next t ∧
      Out.reply q 0x0203 stOk ((b.drop (leAt body 0 4)).take (leAt body 4 2)) ∈ t.out) ∧
  (∀ (q : Req) (body : List Byte) (s : State), s.admitted 0x0204 q { lenOk := true } = true → 5 ≤ body.length →
    body.length ≤ 4068 → leAt body 0 4 + (body.length - 4) ≤ 4194304 → s.running .fjxCommit = false →
    s.mgmt.fjxBuf + (body.length - 4) ≤ 65536 →
    (leAt body 0 4 = 0 ∨ (s.mgmt.stagingOn = true ∧ leAt body 0 4 = s.mgmt.staging.length)) →
    ∃ t, exec (.opFjxWrite q body) s = .next t ∧
      t.mgmt.staging = (if leAt body 0 4 = 0 then body.drop 4 else s.mgmt.staging ++ body.drop 4) ∧
      t.mgmt.stagingOn = true ∧ t.mgmt.fjxA = s.mgmt.fjxA ∧ t.mgmt.fjxB = s.mgmt.fjxB ∧ Out.reply q 0x0204 stOk [] ∈ t.out) ∧
  (∀ (q : Req) (k : Nat) (s : State), s.admitted 0x0205 q { lenOk := true } = true → s.fld mgtStatus 25 3 ≠ 4 →
    s.running .fjxCommit = false → s.pickSlot = some k →
    exec (.opFjxCommit q []) s = .next (s.stepped k 0x0205 q [] .fjxCommit 4 0))

/-- Lifecycle and debug (R354, R355, R358): a listed transition begins as a stepped command, one that is not listed is refused; a
debug unlock hands out a nonce and opens the port only on a good signature over it. A stepped command goes on one step at a time
(R320, R355): the lifecycle change burns its intent fuse before its side effects, its done fuse after them, and takes the new state
in its last step. -/
def Obligations.Lifecycle : Prop :=
  (∀ (q : Req) (body : List Byte) (tgt pair k : Nat) (vendor : Bool) (s : State),
    s.admitted 0x0206 q { lenOk := true } = true → body.length = 4 → leAt body 0 4 = tgt → tgt ≤ 4 →
    (lcPair (s.fld mgtStatus 25 3) tgt = some (pair, vendor) → (vendor = true → q.src.path = 4) →
      s.bit mgtStatus 29 = false → (∀ j g, j < 32 → (s.slot j).job ≠ .lifecycle g) →
      s.pickSlot = some k → exec (.opLifecycleSet q body) s = .next (s.stepped k 0x0206 q body (.lifecycle tgt) 5 0)) ∧
    (lcPair (s.fld mgtStatus 25 3) tgt = none →
      exec (.opLifecycleSet q body) s = .next ((s.begun 0x0206 q body).answered 0x0206 q stLifecycleState []))) ∧
  (∀ (q : Req) (s : State), s.admitted 0x0207 q { lenOk := true } = true →
    ∃ t, exec (.opDebugUnlock q [0, 0, 0, 0]) s = .next t ∧ t.mgmt.nonce = s.mgmt.nonce + 1 ∧ t.mgmt.nonceUsed = false ∧
      t.mgmt.nonceAt = some s.tick.loc ∧
      Out.reply q 0x0207 stOk ((List.range 32).map (Config.nonceByte (s.mgmt.nonce + 1)) ++ toLe 8 (s.reg64 glbSerial)) ∈ t.out) ∧
  (∀ (q : Req) (sig : List Byte) (a : Tick) (s : State), s.admitted 0x0207 q { lenOk := true } = true → sig.length = 96 →
    (s.fld mgtStatus 25 3 = 1 ∨ s.fld mgtStatus 25 3 = 3) → s.mgmt.nonceAt = some a → ticksSince a s.tick.loc ≤ 1024 →
    s.mgmt.nonceUsed = false → s.mgmt.debugBad < 8 →
    ∃ t, exec (.opDebugUnlock q ([1, 0, 0, 0] ++ s.nonceBytes ++ sig)) s = .next t ∧ t.mgmt.nonceUsed = true ∧
      (Config.debugSigOk (s.nonceBytes ++ toLe 8 (s.reg64 glbSerial)) sig = true →
        t.fld mgtStatus 22 2 = 2 ∧ t.mgmt.debugBad = s.mgmt.debugBad) ∧
      (Config.debugSigOk (s.nonceBytes ++ toLe 8 (s.reg64 glbSerial)) sig = false →
        t.fld mgtStatus 22 2 = s.fld mgtStatus 22 2 ∧ t.mgmt.debugBad = s.mgmt.debugBad + 1 ∧
        Out.reply q 0x0207 stDebugLocked [] ∈ t.out)) ∧
  (∀ (k tgt : Nat) (s : State), k < 32 → 1 ≤ tgt → tgt ≤ 4 → s.clk.mgmtLost = false → (s.slot k).state = 1 →
    (s.slot k).job = .lifecycle tgt → (s.slot k).ranAt ≠ some s.tick.loc →
    s.tick.guardDone = false → (∀ j, j < 32 → j ≠ k → (s.slot j).job = .none) →
    ∃ t, exec .steppedCommandStep s = .next t ∧
      ((s.slot k).phase < 4 → (t.slot k).phase = (s.slot k).phase + 1 ∧ (t.slot k).done = (s.slot k).done + 1 ∧
        t.fld mgtStatus 25 3 = s.fld mgtStatus 25 3) ∧
      ((s.slot k).phase = 0 → t.mgmt.fuses = s.mgmt.fuses) ∧
      ((s.slot k).phase = 1 → t.fuse (2 * (tgt - 1)) = 7) ∧
      ((s.slot k).phase = 2 → t.mgmt.fuses = s.mgmt.fuses) ∧
      ((s.slot k).phase = 3 → t.fuse (2 * (tgt - 1) + 1) = 7) ∧
      ((s.slot k).phase = 4 → t.fld mgtStatus 25 3 = tgt ∧ (t.slot k).state = 3 ∧ (t.slot k).status = stOk ∧
        (t.slot k).reply = toLe 1 tgt))

/-- Booting (R344, R345): the boot ROM runs once the management reset is released, with the boot count one higher, and when the
firmware does not answer in time its copy is marked and a warm module reset follows. Checkpoint and takeover (R360, R362, R363). -/
def Obligations.BootAndTakeover : Prop :=
  (∀ s : State, s.pwr.mgmtUp = true → s.pwr.bootRan = false →
    exec .bootRomStart s = .next (({ s with pwr := { s.pwr with bootRan := true } }.countBoot).bootRom true)) ∧
  (∀ s : State, s.pwr.mgmtUp = true → s.pwr.bootRan = false →
    ∃ t, exec .bootRomStart s = .next t ∧ t.mgmt.bootCount = s.mgmt.bootCount + 1 ∧ t.pwr.bootRan = true) ∧
  (∀ s : State, s.lcState ≤ 3 → s.completePending = s.takeLc s.lcState → s.mgmt.fwB.commit = none →
    s.fwReason s.mgmt.fwA = 0 → s.mgmt.stopped = false →
    ∃ t, s.bootRom true = t ∧ t.mgmt.bootCount = s.mgmt.bootCount ∧ t.bit mgtStatus 21 = false ∧
      t.bit mgtStatus 19 = false ∧ t.bit mgtStatus 28 = false ∧ t.mgmt.watchdog = true ∧ t.mgmt.inRecovery = false ∧
      t.fld mgtStatus 25 3 = s.lcState) ∧
  (∀ s : State, s.mgmt.watchdog = true →
    exec .bootWatchdogExpiry s =
      .next (({ s with mgmt := { s.mgmt with watchdog := false, bootFail := s.mgmt.bootFail ++ [s.runningCopy.commit.getD 0] } }).askReset
        3 0 srcWatchdog)) ∧
  (∀ s : State, s.bit mgtCkptStatus 30 = false → s.ckptTicks ≤ ticksSince s.mgmt.ckptLast s.tick.loc →
    ∃ t, exec .checkpointStart s = .next t ∧ t.bit mgtCkptStatus 30 = true ∧ t.fld mgtCkptStatus 16 9 = 0 ∧
      t.mgmt.ckptJseq = s.mgmt.jseq ∧ t.mgmt.ckptLast = s.tick.loc ∧ t.bestBuf = s.bestBuf) ∧
  (∀ s : State, s.bit mgtCkptStatus 30 = true → s.tick.guardDone = false → s.mgmt.sliceAt ≠ some s.tick.loc →
    ∃ t, exec .checkpointSlice s = .next t ∧
      (s.fld mgtCkptStatus 16 9 < 383 → t.fld mgtCkptStatus 16 9 = s.fld mgtCkptStatus 16 9 + 1 ∧ t.bit mgtCkptStatus 30 = true ∧
        t.reg mgtCkptGen = s.reg mgtCkptGen) ∧
      (383 ≤ s.fld mgtCkptStatus 16 9 → t.bit mgtCkptStatus 30 = false ∧ t.reg mgtCkptGen = s.reg mgtCkptGen + 1)) ∧
  (∀ s : State, s.activeCore < 2 → tget 0 s.mgmt.failAt s.activeCore = 0 → s.present 11 (1 - s.activeCore) = true →
    s.bit mgtHaCtl 31 = true → s.hbTicks ≤ ticksSince s.mgmt.actSince s.tick.loc →
    ∃ t, exec .heartbeatTimeout s = .next t ∧ t.activeCore = 1 - s.activeCore ∧
      t.nreg mgtSwitchCnt = min (s.nreg mgtSwitchCnt + 1) (2 ^ 32 - 1)) ∧
  (∀ (c : CoreIx) (s : State), s.present 11 c = true → s.activeCore = c → tget 0 s.mgmt.failAt c = 0 →
    s.present 11 (1 - c) = true → s.bit mgtHaCtl 31 = true →
    ∃ t, exec (.mcFatalFault c) s = .next t ∧ t.activeCore = 1 - c) ∧
  (∀ (q : Req) (k : Nat) (s : State), s.admitted 0x0208 q { lenOk := true } = true → s.present 11 0 = true →
    s.present 11 1 = true → s.pickSlot = some k →
    exec (.opMcSwitch q []) s = .next (s.stepped k 0x0208 q [] .mcSwitch 2 0))

/-- Monitors and counters (R372, R374, R376, R377): every 64 ticks the voltage registers show their reading, and WARN from the
fourth sample outside 3 percent on; an oscillator below 95 percent of its reference is SLOW; a counter's configuration waits for the
edge, its count is set at once; a write to a counter of an absent tile is discarded and reported (R4). Bandwidth, dumps, records and
the audit (R378, R380, R383, R385): a window's bytes move into PT_BW_*, a dump goes out in four units, a due record takes the next
slot, an audit runs when the module is idle and shows each failed identity, or ends NOT_IDLE. -/
def Obligations.Telemetry : Prop :=
  (∀ (temps volts : List (BitVec 16)) (n : Nat) (s : State), n < 12 → (∀ a, s.tel.sampleAt = some a → 64 ≤ ticksSince a s.tick.loc) →
    (volts.getD n 0).toNat < 2 ^ 14 →
    (∀ k, k < 21 → s.present 10 k = false) → (∀ kind ix, s.lvlMask kind ix = 0) → (∀ k, tget 0 s.tel.runs k = 0) →
    ∃ t, exec (.monitorSample temps volts) s = .next t ∧ t.tel.sampleAt = some s.tick.loc ∧ t.fld (telVolt n) 0 14 = (volts.getD n 0).toNat ∧
      t.bit (telVolt n) 31 = true) ∧
  (∀ (temps volts : List (BitVec 16)) (a : Tick) (s : State), s.tel.sampleAt = some a → ticksSince a s.tick.loc < 64 →
    exec (.monitorSample temps volts) s = .next s) ∧
  (∀ (khz : List (BitVec 24)) (n : Nat) (s : State), n < 8 → (∀ a, s.tel.roAt = some a → 2 ^ 20 ≤ ticksSince a s.tick.loc) →
    ∃ t, exec (.roMeasure khz) s = .next t ∧ t.tel.roAt = some s.tick.loc ∧ t.fld (telRo n) 0 24 = (khz.getD n 0).toNat ∧
      t.bit (telRo n) 31 = (decide (100 * (khz.getD n 0).toNat < 95 * (Config.roRef n).toNat) || s.bit (telRo n) 31)) ∧
  (∀ (tl : Option TileIx) (c : Fin 128) (k : Fin 3) (v : Word) (s : State), pmcThere tl c = true → (∀ x, tl = some x → s.present 1 x = true) →
    ∃ t, exec (.pmcConfigWrite tl c k v) s = .next t ∧ t.tel.pmcPend = s.tel.pmcPend ++ [(pmcBase tl c + 4 * k.val, v)] ∧ t.regs = s.regs) ∧
  (∀ (tl : Option TileIx) (c : Fin 128) (v : BitVec 64) (s : State), pmcThere tl c = true → (∀ x, tl = some x → s.present 1 x = true) →
    ∃ t, exec (.pmcCntWrite tl c v) s = .next t ∧ t.reg64 (pmcBase tl c + 0x10) = v.toNat) ∧
  (∀ (x : TileIx) (c : Fin 128) (k : Fin 3) (v : Word) (w : BitVec 64) (s : State), c.val < 64 → s.present 1 x = false →
    exec (.pmcConfigWrite (some x) c k v) s = .next (s.raise 0x0101 [.w (pmcBase (some x) c + 4 * k.val)]) ∧
    exec (.pmcCntWrite (some x) c w) s = .next (s.raise 0x0101 [.w (pmcBase (some x) c + 0x10)])) ∧
  (∀ (p : PortIx) (tx rx : Nat) (s : State), s.tick.loc.toNat % s.bwWindow = 0 → s.tel.bwAt ≠ some s.tick.loc → s.pmode p ≠ 3 →
    s.tel.bw = [] → tx < 2 ^ 64 → rx < 2 ^ 64 →
    ∃ t, exec (.bwWindowEnd [(p, tx, rx)]) s = .next t ∧ t.reg64 (ptBw p 0) = tx ∧ t.reg64 (ptBw p 1) = rx ∧ t.tel.bwAt = some s.tick.loc) ∧
  (∀ (d : Dump) (s : State), s.tel.dump = some d → s.tick.guardDone = false → d.at0 ≠ some s.tick.loc →
    s.telDest (d.flags / 2) d.port = true → d.units ≠ 3 →
    ∃ t, exec (.dumpWriteUnit true) s = .next t ∧ t.tel.dump = some { d with units := d.units + 1, at0 := some s.tick.loc } ∧
      t.out = s.out ++ [.dumpUnit (d.flags / 2) d.port (d.addr + 4096 * d.units) (((s.dumpBytes d).drop (4096 * d.units)).take 4096)]) ∧
  (∀ (d : Dump) (s : State), s.tel.dump = some d → s.tick.guardDone = false → d.at0 ≠ some s.tick.loc →
    s.telDest (d.flags / 2) d.port = true → d.units = 3 →
    ∃ t, exec (.dumpWriteUnit true) s = .next t ∧ t.tel.dump = none ∧ t.bit telDumpStatus 30 = false ∧
      t.fld telDumpStatus 0 30 = d.seq.toNat % 2 ^ 30) ∧
  (∀ (g : LatTag) (s : State), s.tel.tags.find? (fun t => t.fin) = some g → s.tel.latTick < 64 →
    s.telDest (s.fld telLatCtl 31 1) (s.fld telDumpCtl 16 8) = true →
    ∃ t, exec .latencyRecordWrite s = .next t ∧ t.reg telLatSeq = s.reg telLatSeq + 1 ∧ t.tel.tags = dropFin s.tel.tags ∧
      t.tel.latTick = s.tel.latTick + 1 ∧ ∃ a, Out.latRecord (s.fld telLatCtl 31 1) (s.fld telDumpCtl 16 8) a (g.bytes (s.reg telLatSeq)) ∈ t.out) ∧
  (∀ (v : Word) (s : State),
    ∃ t, exec (.auditGo v) s = .next t ∧ t.tel.auditOn = some s.tick.loc ∧ t.fld telAuditStatus 30 2 = 1) ∧
  (∀ (s : State), s.tel.auditOn.isSome = true → s.idle = true →
    ∃ t, exec .auditCheck s = .next t ∧ t.tel.auditOn = none ∧ t.fld telAuditStatus 30 2 = 2 ∧
      ∀ k, k < 16 → t.bit telAuditRes k = !(s.auditFail k).isEmpty) ∧
  (∀ (a : Tick) (s : State), s.tel.auditOn = some a → s.idle = false → s.auditLimit ≤ ticksSince a s.tick.loc →
    ∃ t, exec .auditTimeout s = .next t ∧ t.tel.auditOn = none ∧ t.fld telAuditStatus 30 2 = 3)

/-- Resets (R323, R395, R396): a request is answered and then takes its reset a tick later, the tile and port resets at once; a
request during a running module reset is absorbed; each reset runs when its request is due, and a module reset leaves its cause in
GLB_RST_CAUSE. -/
def Obligations.ResetRequests : Prop :=
  (∀ (q : Req) (body : List Byte) (s : State), s.admitted 0x0106 q { kinds := [0, 1, 2, 9], lenOk := true } = true →
    body.length = 4 → leAt body 1 3 = 0 → s.clk.running = [] →
    (byteAt body 0 = 2 → q.kind = 0 →
      exec (.opReset q body) s = .next (((s.begun 0x0106 q body).askReset 2 0 srcOp).answered 0x0106 q stOk [])) ∧
    (byteAt body 0 = 3 → q.kind = 0 →
      exec (.opReset q body) s = .next (((s.begun 0x0106 q body).askReset 3 0 srcOp).answered 0x0106 q stOk [])) ∧
    (byteAt body 0 = 4 → q.kind = 1 → q.src.path ≠ 3 →
      exec (.opReset q body) s = .next (((s.begun 0x0106 q body).tileReset q.index.toNat srcOp).answered 0x0106 q stOk [])) ∧
    (byteAt body 0 = 5 → q.kind = 2 → q.src.path ≠ 3 →
      exec (.opReset q body) s = .next (((s.begun 0x0106 q body).portReset q.index.toNat srcOp).answered 0x0106 q stOk []))) ∧
  (∀ (q : Req) (body : List Byte) (s : State), s.admitted 0x0106 q { kinds := [0, 1, 2, 9], lenOk := true } = true →
    body.length = 4 → leAt body 1 3 = 0 → s.clk.running ≠ [] → byteAt body 0 = 3 → q.kind = 0 →
    ∃ t, exec (.opReset q body) s = .next t ∧ t.clk.absorbed = s.clk.absorbed ++ [q] ∧ t.out = s.out) ∧
  (∀ (u : TileIx) (r : Nat × Nat × Nat × Tick) (s : State), s.dueReset 4 (2 ^ 28 + u) = some r →
    ∃ s1 : State, exec (.tileReset u) s = .next (s1.tileReset u r.2.2.1) ∧ s1.regs = s.regs ∧ s1.qos = s.qos ∧
      s1.nalug.resets.all (fun x => decide (x ≠ r)) = true) ∧
  (∀ (p : PortIx) (r : Nat × Nat × Nat × Tick) (s : State), s.dueReset 5 (2 * 2 ^ 28 + p) = some r →
    ∃ s1 : State, exec (.portReset p) s = .next (s1.portReset p r.2.2.1) ∧ s1.regs = s.regs ∧ s1.cxl = s.cxl ∧
      s1.nalug.resets.all (fun x => decide (x ≠ r)) = true) ∧
  (∀ (r : Nat × Nat × Nat × Tick) (s : State), s.clk.running = [] → s.dueReset 3 0 = some r →
    exec .warmModuleReset s =
      .next (({ s with nalug := { s.nalug with resets := s.nalug.resets.filter (fun x => decide (x.1 < 3)) }, clk := { s.clk with running := [(3, 0, r.2.2.1, s.tick.loc)], draining := true } }).linksReset)) ∧
  (∀ (source : Nat) (t0 : Tick) (s : State), s.clk.running = [(3, 0, source, t0)] → source ≠ srcClock →
    s.home.trks = [] →
    ∃ t, exec .warmResetDrainDone s = .next t ∧ t.reg glbRstCause = BitVec.ofNat 32 (3 * 2 ^ 28 + source * 2 ^ 16)) ∧
  (∀ (fails : List (Fin 12 × Nat)) (r : Nat × Nat × Nat × Tick) (s : State), s.dueReset 2 0 = some r →
    (r.2.2.1 = srcPower → s.pwr.fresh = false) →
    ∃ t, exec (.coldModuleReset fails) s = .next t ∧
      t.reg glbRstCause = BitVec.ofNat 32 (2 * 2 ^ 28 + r.2.2.1 * 2 ^ 16))

/-- Clocks and crossings (R389 to R394): a lost PLL clears its lock bit and does what its domain needs; a lock that returns sets the
bit; a tile that stays unlocked is retired, a core that stays unlocked keeps the module below the minimum service set; a crossing
counts merged events and ends a request that no one answers. -/
def Obligations.ClocksAndCrossings : Prop :=
  (∀ (d : Fin 16) (s : State), d.val = 14 → s.bit glbClkStatus 29 = true →
    ∃ t, exec (.pllLockLoss d) s = .next t ∧ t.bit glbClkStatus 29 = false ∧ t.clk.mgmtLost = true ∧
      t.nreg glbClkLossCnt = min 0xFFFFFFFF (s.nreg glbClkLossCnt + 1)) ∧
  (∀ (d : Fin 16) (s : State), 1 ≤ d.val → d.val ≤ 12 → s.bit glbClkStatus (15 + d.val) = true → s.present 1 (d.val - 1) = true →
    exec (.pllLockLoss d) s = .next ((s.pllGone d).tilePllLost (d.val - 1))) ∧
  (∀ (d : Fin 16) (s : State), 1 ≤ d.val → d.val ≤ 12 → s.bit glbClkStatus (15 + d.val) = true → s.present 1 (d.val - 1) = false →
    exec (.pllLockLoss d) s = .next (s.pllGone d)) ∧
  (∀ (d : Fin 16) (s : State), d.val = 0 → s.bit glbClkStatus 31 = true → exec (.pllLockLoss d) s = .next (s.pllGone 0).coreLost) ∧
  (∀ (d : Fin 16) (s : State), d.val = 13 → s.bit glbClkStatus 30 = true →
    exec (.pllLockLoss d) s = .next ((s.pllGone 13).each (List.range 4) (fun h t => t.retireStack h))) ∧
  (∀ (d : Fin 16) (s : State), s.bit glbClkStatus (pllBit d) = false → exec (.pllLockLoss d) s = .next s) ∧
  (∀ (d : Fin 15) (s : State), d.val = 13 → s.bit glbClkStatus 30 = false → s.bit glbClkStatus 28 = true →
    ∃ t, exec (.pllRelock d) s = .next t ∧ t.bit glbClkStatus 30 = true ∧ t.clk = s.clk) ∧
  (∀ (d : Fin 15) (s : State), 1 ≤ d.val → d.val ≤ 12 → s.bit glbClkStatus (15 + d.val) = false → s.bit glbClkStatus 28 = true →
    tget 0 s.clk.lostAt (d.val - 1) ≠ 0 → ticksSince (BitVec.ofNat 48 (tget 0 s.clk.lostAt (d.val - 1) - 1)) s.tick.loc ≤ 64 →
    exec (.pllRelock d) s = .next ((((s.setBit glbClkStatus (15 + d.val) true).raiseClk 0x0111 [.w d.val]).inClk (fun c =>
      { c with lostAt := tput 0 c.lostAt (d.val - 1) 0 })).askReset 4 (2 ^ 28 + (d.val - 1)) srcClock)) ∧
  (∀ (tl : TileIx) (s : State), tget 0 s.clk.lostAt tl ≠ 0 → 64 ≤ ticksSince (BitVec.ofNat 48 (tget 0 s.clk.lostAt tl - 1)) s.tick.loc →
    exec (.tilePllRelockTimeout tl) s = .next ((s.inClk (fun c => { c with lostAt := tput 0 c.lostAt tl 0 })).retireTile tl)) ∧
  (∀ (s : State), s.clk.coreLost = true → s.bit glbClkStatus 31 = false → s.bit glbTickStatus 29 = false →
    ∃ t, exec .corePllRelockTimeout s = .next t ∧ t.bit glbTickStatus 29 = true ∧ t.ev.seq = s.ev.seq + 1) ∧
  (∀ (x : Fin 1024) (k : Nat) (s : State), isCrossing x = true → 1 ≤ k →
    ∃ t, exec (.crossingEventDelivery x k) s = .next t ∧ tget 0 t.clk.merge x = min (tget 0 s.clk.merge x + (k - 1)) (2 ^ 32 - 1) ∧ t.regs = s.regs) ∧
  (∀ (x : Fin 1024) (m : Fin 8) (off : Word) (s : State), isCrossing x = true → x.val % 32 ≠ 16 → s.bit glbXingLog0 31 = false →
    ∃ t, exec (.crossingTimeout x m off false none) s = .next t ∧ tget 0 t.clk.tmo x = min (tget 0 s.clk.tmo x + 1) (2 ^ 32 - 1) ∧
      t.bit glbXingLog0 31 = true ∧ t.fld glbXingLog0 0 10 = x.val ∧ t.reg glbXingLog1 = off ∧ Out.busErr m off.toNat ∈ t.out)

/-- Memory errors and background work (R146, R323, R398 to R403): an uncorrectable error is counted and logged, the first one kept;
work that finds no idle cycle is counted and postponed, and issued by force at its limit; a unit is retired by command unless it is
the last of the minimum service set. -/
def Obligations.FaultsAndBackground : Prop :=
  (∀ (e : Word) (la : Option Nat) (u : Byte) (s : State), s.bit glbErrLog0 31 = false →
    ∃ t, exec (.sramUe 0 u e la) s = .next t ∧ t.bit glbErrLog0 31 = true ∧ t.fld glbErrLog0 0 8 = u.toNat ∧ t.nreg glbErrLog1 = e.toNat ∧
      t.nreg glbErrUeCnt = min 0xFFFFFFFF (s.nreg glbErrUeCnt + 1) ∧ t.ev.seq = s.ev.seq + 1) ∧
  (∀ (e : Word) (la : Option Nat) (u : Byte) (s : State), s.bit glbErrLog0 31 = true →
    ∃ t, exec (.sramUe 4 u e la) s = .next t ∧ t.reg glbErrLog0 = s.reg glbErrLog0 ∧ t.clk.badEntry = s.clk.badEntry ++ [(u.toNat, e.toNat, s.tick.loc)]) ∧
  (∀ (s : State), exec .mortarHeaderUe s = .next (s.askReset 3 0 4)) ∧
  (∀ (b : BankIx) (la : Option Nat) (s : State), s.present 5 b = true → s.bit sfScrubCtl 31 = true →
    ∃ t, exec (.sfScrubSet b true false la) s = .next t ∧ tget 0 t.clk.sfPos b = (tget 0 s.clk.sfPos b + 1) % 16384 ∧
      tget 0 t.clk.sfDefer b = 0 ∧ t.home = s.home) ∧
  (∀ (b : BankIx) (la : Option Nat) (s : State), s.present 5 b = true → s.bit sfScrubCtl 31 = true → tget 0 s.clk.sfDefer b ≠ 3 →
    ∃ t, exec (.sfScrubSet b false false la) s = .next t ∧ tget 0 t.clk.sfPos b = tget 0 s.clk.sfPos b ∧
      tget 0 t.clk.sfDefer b = tget 0 s.clk.sfDefer b + 1) ∧
  (∀ (h : StackIx) (pc : Fin 32) (s : State), s.present 8 h = true →
    ∃ t, exec (.hbmRefresh h pc true) s = .next t ∧ tget 0 t.hbm.postp (h.val * 32 + pc.val) = 0 ∧ t.regs = s.regs) ∧
  (∀ (h : StackIx) (pc : Fin 32) (s : State), s.present 8 h = true →
    ∃ t, exec (.hbmRefresh h pc false) s = .next t ∧ tget 0 t.hbm.postp (h.val * 32 + pc.val) =
      (if tget 0 s.hbm.postp (h.val * 32 + pc.val) = 4 then 4 else tget 0 s.hbm.postp (h.val * 32 + pc.val) + 1)) ∧
  (∀ (h : StackIx) (pc : Fin 32) (area : Fin 8) (a : BitVec 64) (s : State), s.present 8 h = true → s.fld hbmScrubCtl 0 8 ≠ 0 →
    nbit (s.lvlMask 2 h) 1 = false → tget 0 s.hbm.scrubAt (h.val * 32 + pc.val) = 0 →
    ∃ t, exec (.patrolScrubUnit h pc true 0 none area a) s = .next t ∧
      tget 0 t.hbm.scrub (h.val * 32 + pc.val) = tget 0 s.hbm.scrub (h.val * 32 + pc.val) + 1 ∧
      tget 0 t.hbm.scrubAt (h.val * 32 + pc.val) = s.tick.loc.toNat + 1) ∧
  (∀ (q : Req) (b : List Byte) (s : State), s.admitted 0x0107 q { kinds := [1, 2, 4, 5, 6, 7, 8, 11], lenOk := true } = true → b.length = 0 →
    (s.begun 0x0107 q b).lastOfMinimum q.kind.toNat q.index.toNat = false →
    exec (.opUnitRetire q b) s =
      .next (((s.begun 0x0107 q b).retireAny q.kind.toNat q.index.toNat).answered 0x0107 q stOk [])) ∧
  (∀ (q : Req) (b : List Byte) (s : State), s.admitted 0x0107 q { kinds := [1, 2, 4, 5, 6, 7, 8, 11], lenOk := true } = true → b.length = 0 →
    (s.begun 0x0107 q b).lastOfMinimum q.kind.toNat q.index.toNat = true →
    exec (.opUnitRetire q b) s = .next ((s.begun 0x0107 q b).answered 0x0107 q stBadParam []))

/-- A register access by a master (R366-R368, R377, R421, R422): an access that is misaligned or refused leaves only its evidence; a
whole write of a register whose write does not act applies the access types of R10; a read of a counter's low word keeps its high
word for the master, and a read clears what is RC. The access check units (R366): SEL of a master's unit takes a write of that
master, or of vendor firmware; LOCK sets and never clears by a write. -/
def Obligations.RegisterAccess : Prop :=
  (∀ (m : Fin 8) (lvl : Fin 3) (off : Word) (b : List Byte) (r : RegRow) (s : State), b.length = 4 → off.toNat % 4 = 0 →
    s.acuAdmits m lvl off.toNat true = true → locate off.toNat = some (.glob, 0, off.toNat) → unitAt off.toNat = none →
    findRow off.toNat = some r → (off.toNat < 0x101000 ∨ 0x101800 ≤ off.toNat) → (off.toNat < 0x180000 ∨ 0x200000 ≤ off.toNat) →
    (off.toNat < 0x701000 ∨ 0x702000 ≤ off.toNat) →
    off.toNat ∉ [hmpTiming0, hmpTiming1, telAuditCtl, pwrCtl, pwrBrCmd] → slotOf off.toNat ≠ 9 → off.toNat ≠ glbEvFifoOvfCnt →
    ∃ t, exec (.registerWrite m lvl off b) s = .next t ∧
      t.reg off.toNat = r.written (s.reg off.toNat) (BitVec.ofNat 32 (leAt b 0 4)) (BitVec.ofNat 32 (byteMask 15)) s.rwlOpen ∧
      (∀ o, o ≠ off.toNat → o ≠ glbEvFifoOvfCnt → t.reg o = s.reg o)) ∧
  (∀ (m : Fin 8) (lvl : Fin 3) (off : Word) (b : List Byte) (s : State), aligned off.toNat b.length = false →
    exec (.registerWrite m lvl off b) s = .next ((s.cnt mgtAcuViolCnt).raiseLim 0x0209 0 [.w m, .w off.toNat])) ∧
  (∀ (m : Fin 8) (lvl : Fin 3) (off : Word) (b : List Byte) (s : State), aligned off.toNat b.length = true →
    s.acuAdmits m lvl off.toNat true = false →
    exec (.registerWrite m lvl off b) s = .next (s.acuDenied m lvl off.toNat true)) ∧
  (∀ (m : Fin 8) (lvl : Fin 3) (off : Word) (r : RegRow) (s : State), off.toNat % 4 = 0 → s.acuAdmits m lvl off.toNat false = true →
    slotOf off.toNat ≠ 9 → (off.toNat < 0x800110 ∨ 0x800130 ≤ off.toNat) → unitAt off.toNat = none → s.memberAt off.toNat = false →
    measured off.toNat = none → s.tel.latch = [] → lowOf64 off.toNat = false → findRow off.toNat = some r →
    off.toNat ≠ glbXingMergeCnt → off.toNat ≠ glbXingToCnt →
    ∃ t, exec (.rcRegisterRead m lvl off 4) s = .next t ∧
      t.out = s.out ++ [.readDone m off.toNat (toLe 4 (s.view off.toNat))] ∧
      t.reg off.toNat = s.reg off.toNat &&& ~~~ BitVec.ofNat 32 r.rc ∧ (∀ o, o ≠ off.toNat → t.reg o = s.reg o)) ∧
  (∀ (m : Fin 8) (lvl : Fin 3) (off : Word) (r : RegRow) (s : State), off.toNat % 4 = 0 → s.acuAdmits m lvl off.toNat false = true →
    slotOf off.toNat ≠ 9 → (off.toNat < 0x800110 ∨ 0x800130 ≤ off.toNat) → unitAt off.toNat = none → s.memberAt off.toNat = false →
    measured off.toNat = none → measured (off.toNat + 4) = none → s.tel.latch = [] → lowOf64 off.toNat = true →
    findRow off.toNat = some r → r.rc = 0 →
    ∃ t, exec (.counterLowWordRead m lvl off) s = .next t ∧
      t.out = s.out ++ [.readDone m off.toNat (toLe 4 (s.view off.toNat))] ∧
      t.tel.latch = [(m.val, off.toNat + 4, BitVec.ofNat 32 (s.view (off.toNat + 4)))] ∧ t.regs = s.regs) ∧
  (∀ (u m : Fin 8) (lvl : Fin 3) (sel : Bool) (s : State), s.acuAdmits m lvl (mgtAcuCtl u + 3) true = true →
    ∃ t, exec (.mgtAcuCtlSelWrite u m lvl sel) s = .next t ∧
      t.bit (mgtAcuCtl u) 31 = (if m = u ∨ lvl = 0 then sel else s.bit (mgtAcuCtl u) 31) ∧
      t.bit (mgtAcuCtl u) 30 = s.bit (mgtAcuCtl u) 30 ∧ (∀ o, o ≠ mgtAcuCtl u → t.reg o = s.reg o)) ∧
  (∀ (u m : Fin 8) (lvl : Fin 3) (s : State), s.acuAdmits m lvl (mgtAcuCtl u + 3) true = true →
    ∃ t, exec (.mgtAcuCtlLockWrite u m lvl) s = .next t ∧ t.bit (mgtAcuCtl u) 30 = true ∧
      t.bit (mgtAcuCtl u) 31 = s.bit (mgtAcuCtl u) 31 ∧ (∀ o, o ≠ mgtAcuCtl u → t.reg o = s.reg o)) ∧
  (∀ (u m : Fin 8) (lvl : Fin 3) (k : Fin 64) (b : List Byte) (s : State), b.length = 4 → s.bit (mgtAcuCtl u) 30 = true →
    4 ≤ k.val → s.acuAdmits m lvl (mgtAcuCtl u + 4 * k) true = true →
    exec (.registerWrite m lvl (BitVec.ofNat 32 (mgtAcuCtl u + 4 * k)) b) s = .next s)

/-- Registers by Nalug (R37, R318, R423): a read answers the words, a write applies them in ascending order, and the module ID takes
a new value while every fabric port is DOWN. -/
def Obligations.RegisterCommands : Prop :=
  (∀ (q : Req) (body : List Byte) (s : State), s.admitted 0x0102 q { lenOk := true } = true → body.length = 8 →
    leAt body 0 4 % 4 = 0 → 0 < byteAt body 4 → byteAt body 4 ≤ 64 → leAt body 0 4 + 4 * byteAt body 4 ≤ 0x4000000 →
    leAt body 5 3 = 0 → s.opRefused (opWords (leAt body 0 4) (byteAt body 4)) false = none →
    exec (.opRegRead q body) s =
      (let ws := opWords (leAt body 0 4) (byteAt body 4)
       let r := (s.begun 0x0102 q body).readWords s.activeCore (leAt body 0 4) (aloneIn ws) (byteAt body 4)
       .next (r.2.answered 0x0102 q (if ws.any s.absentAt then stUnitAbsent else stOk) (r.1.flatMap (toLe 4))))) ∧
  (∀ (q : Req) (body : List Byte) (s : State),
    let off := leAt body 0 4
    let n := byteAt body 4
    let ws := opWords off n
    s.admitted 0x0103 q { lenOk := true, objs := (ws.map (fun o => Obj.page (o / 4096))).eraseDups } = true →
    body.length = 8 + 4 * n → off % 4 = 0 → 0 < n → n ≤ 64 → off + 4 * n ≤ 0x4000000 → leAt body 5 3 = 0 →
    s.opRefused ws true = none → ws.filter s.absentAt = [] → s.edgeClash ws (edgeWrites off n (body.drop 8)) = false →
    exec (.opRegWrite q body) s =
      .next (((s.begun 0x0103 q body).each (List.range n) (fun k u =>
        u.nalugWord (off + 4 * k) (BitVec.ofNat 32 (leAt (body.drop 8) (4 * k) 4)))).answered 0x0103 q stOk [])) ∧
  (∀ (q : Req) (body : List Byte) (s : State), s.admitted 0x0104 q { lenOk := true } = true → body.length = 4 →
    leAt body 0 4 < 2 ^ 18 →
    ((∀ p, p < 192 → s.pmode p = 3 → s.flState p = 0) →
      ∃ t, exec (.opSetModuleId q body) s = .next t ∧ t.reg glbModuleFid = BitVec.ofNat 32 (2 ^ 31 + leAt body 0 4) ∧
        Out.reply q 0x0104 stOk [] ∈ t.out) ∧
    ((∃ p, p < 192 ∧ s.pmode p = 3 ∧ s.flState p ≠ 0) →
      exec (.opSetModuleId q body) s = .next ((s.begun 0x0104 q body).answered 0x0104 q stPortBusy [])))
end

