-- ==== Sys2Proof/Laws/State.lean ====
section
/-! SUPPORT. Laws of the state updates: what each update leaves as it was. -/

namespace Sys2Proof.Machine

variable (s : State)

/-! ### setReg -/

@[simp] theorem setReg_pending (o : Nat) (v : Word) : (s.setReg o v).pending = s.pending := (rfl)
@[simp] theorem setReg_out (o : Nat) (v : Word) : (s.setReg o v).out = s.out := (rfl)
@[simp] theorem setReg_free (o : Nat) (v : Word) : (s.setReg o v).free = s.free := (rfl)
@[simp] theorem setReg_tick (o : Nat) (v : Word) : (s.setReg o v).tick = s.tick := (rfl)
@[simp] theorem setReg_ev (o : Nat) (v : Word) : (s.setReg o v).ev = s.ev := (rfl)
@[simp] theorem setReg_nalug (o : Nat) (v : Word) : (s.setReg o v).nalug = s.nalug := (rfl)
@[simp] theorem setReg_mgmt (o : Nat) (v : Word) : (s.setReg o v).mgmt = s.mgmt := (rfl)
@[simp] theorem setReg_clk (o : Nat) (v : Word) : (s.setReg o v).clk = s.clk := (rfl)
@[simp] theorem setReg_tel (o : Nat) (v : Word) : (s.setReg o v).tel = s.tel := (rfl)
@[simp] theorem setReg_bind (o : Nat) (v : Word) : (s.setReg o v).bind = s.bind := (rfl)
@[simp] theorem setReg_home (o : Nat) (v : Word) : (s.setReg o v).home = s.home := (rfl)
@[simp] theorem setReg_hmp (o : Nat) (v : Word) : (s.setReg o v).hmp = s.hmp := (rfl)
@[simp] theorem setReg_hbm (o : Nat) (v : Word) : (s.setReg o v).hbm = s.hbm := (rfl)
@[simp] theorem setReg_qos (o : Nat) (v : Word) : (s.setReg o v).qos = s.qos := (rfl)
@[simp] theorem setReg_eng (o : Nat) (v : Word) : (s.setReg o v).eng = s.eng := (rfl)
@[simp] theorem setReg_lnk (o : Nat) (v : Word) : (s.setReg o v).lnk = s.lnk := (rfl)
@[simp] theorem setReg_cxl (o : Nat) (v : Word) : (s.setReg o v).cxl = s.cxl := (rfl)
@[simp] theorem setReg_lane (o : Nat) (v : Word) : (s.setReg o v).lane = s.lane := (rfl)
@[simp] theorem setReg_pwr (o : Nat) (v : Word) : (s.setReg o v).pwr = s.pwr := (rfl)

/-! ### setFld -/

@[simp] theorem setFld_pending (o lo n v : Nat) : (s.setFld o lo n v).pending = s.pending := (rfl)
@[simp] theorem setFld_out (o lo n v : Nat) : (s.setFld o lo n v).out = s.out := (rfl)
@[simp] theorem setFld_free (o lo n v : Nat) : (s.setFld o lo n v).free = s.free := (rfl)
@[simp] theorem setFld_tick (o lo n v : Nat) : (s.setFld o lo n v).tick = s.tick := (rfl)
@[simp] theorem setFld_ev (o lo n v : Nat) : (s.setFld o lo n v).ev = s.ev := (rfl)
@[simp] theorem setFld_nalug (o lo n v : Nat) : (s.setFld o lo n v).nalug = s.nalug := (rfl)
@[simp] theorem setFld_mgmt (o lo n v : Nat) : (s.setFld o lo n v).mgmt = s.mgmt := (rfl)
@[simp] theorem setFld_clk (o lo n v : Nat) : (s.setFld o lo n v).clk = s.clk := (rfl)
@[simp] theorem setFld_tel (o lo n v : Nat) : (s.setFld o lo n v).tel = s.tel := (rfl)
@[simp] theorem setFld_bind (o lo n v : Nat) : (s.setFld o lo n v).bind = s.bind := (rfl)
@[simp] theorem setFld_home (o lo n v : Nat) : (s.setFld o lo n v).home = s.home := (rfl)
@[simp] theorem setFld_hmp (o lo n v : Nat) : (s.setFld o lo n v).hmp = s.hmp := (rfl)
@[simp] theorem setFld_hbm (o lo n v : Nat) : (s.setFld o lo n v).hbm = s.hbm := (rfl)
@[simp] theorem setFld_qos (o lo n v : Nat) : (s.setFld o lo n v).qos = s.qos := (rfl)
@[simp] theorem setFld_eng (o lo n v : Nat) : (s.setFld o lo n v).eng = s.eng := (rfl)
@[simp] theorem setFld_lnk (o lo n v : Nat) : (s.setFld o lo n v).lnk = s.lnk := (rfl)
@[simp] theorem setFld_cxl (o lo n v : Nat) : (s.setFld o lo n v).cxl = s.cxl := (rfl)
@[simp] theorem setFld_lane (o lo n v : Nat) : (s.setFld o lo n v).lane = s.lane := (rfl)
@[simp] theorem setFld_pwr (o lo n v : Nat) : (s.setFld o lo n v).pwr = s.pwr := (rfl)

/-! ### setBit -/

@[simp] theorem setBit_pending (o i : Nat) (b : Bool) : (s.setBit o i b).pending = s.pending := (rfl)
@[simp] theorem setBit_out (o i : Nat) (b : Bool) : (s.setBit o i b).out = s.out := (rfl)
@[simp] theorem setBit_free (o i : Nat) (b : Bool) : (s.setBit o i b).free = s.free := (rfl)
@[simp] theorem setBit_tick (o i : Nat) (b : Bool) : (s.setBit o i b).tick = s.tick := (rfl)
@[simp] theorem setBit_ev (o i : Nat) (b : Bool) : (s.setBit o i b).ev = s.ev := (rfl)
@[simp] theorem setBit_nalug (o i : Nat) (b : Bool) : (s.setBit o i b).nalug = s.nalug := (rfl)
@[simp] theorem setBit_mgmt (o i : Nat) (b : Bool) : (s.setBit o i b).mgmt = s.mgmt := (rfl)
@[simp] theorem setBit_clk (o i : Nat) (b : Bool) : (s.setBit o i b).clk = s.clk := (rfl)
@[simp] theorem setBit_tel (o i : Nat) (b : Bool) : (s.setBit o i b).tel = s.tel := (rfl)
@[simp] theorem setBit_bind (o i : Nat) (b : Bool) : (s.setBit o i b).bind = s.bind := (rfl)
@[simp] theorem setBit_home (o i : Nat) (b : Bool) : (s.setBit o i b).home = s.home := (rfl)
@[simp] theorem setBit_hmp (o i : Nat) (b : Bool) : (s.setBit o i b).hmp = s.hmp := (rfl)
@[simp] theorem setBit_hbm (o i : Nat) (b : Bool) : (s.setBit o i b).hbm = s.hbm := (rfl)
@[simp] theorem setBit_qos (o i : Nat) (b : Bool) : (s.setBit o i b).qos = s.qos := (rfl)
@[simp] theorem setBit_eng (o i : Nat) (b : Bool) : (s.setBit o i b).eng = s.eng := (rfl)
@[simp] theorem setBit_lnk (o i : Nat) (b : Bool) : (s.setBit o i b).lnk = s.lnk := (rfl)
@[simp] theorem setBit_cxl (o i : Nat) (b : Bool) : (s.setBit o i b).cxl = s.cxl := (rfl)
@[simp] theorem setBit_lane (o i : Nat) (b : Bool) : (s.setBit o i b).lane = s.lane := (rfl)
@[simp] theorem setBit_pwr (o i : Nat) (b : Bool) : (s.setBit o i b).pwr = s.pwr := (rfl)

/-! ### setN -/

@[simp] theorem setN_pending (o v : Nat) : (s.setN o v).pending = s.pending := (rfl)
@[simp] theorem setN_out (o v : Nat) : (s.setN o v).out = s.out := (rfl)
@[simp] theorem setN_free (o v : Nat) : (s.setN o v).free = s.free := (rfl)
@[simp] theorem setN_tick (o v : Nat) : (s.setN o v).tick = s.tick := (rfl)
@[simp] theorem setN_ev (o v : Nat) : (s.setN o v).ev = s.ev := (rfl)
@[simp] theorem setN_nalug (o v : Nat) : (s.setN o v).nalug = s.nalug := (rfl)
@[simp] theorem setN_mgmt (o v : Nat) : (s.setN o v).mgmt = s.mgmt := (rfl)
@[simp] theorem setN_clk (o v : Nat) : (s.setN o v).clk = s.clk := (rfl)
@[simp] theorem setN_tel (o v : Nat) : (s.setN o v).tel = s.tel := (rfl)
@[simp] theorem setN_bind (o v : Nat) : (s.setN o v).bind = s.bind := (rfl)
@[simp] theorem setN_home (o v : Nat) : (s.setN o v).home = s.home := (rfl)
@[simp] theorem setN_hmp (o v : Nat) : (s.setN o v).hmp = s.hmp := (rfl)
@[simp] theorem setN_hbm (o v : Nat) : (s.setN o v).hbm = s.hbm := (rfl)
@[simp] theorem setN_qos (o v : Nat) : (s.setN o v).qos = s.qos := (rfl)
@[simp] theorem setN_eng (o v : Nat) : (s.setN o v).eng = s.eng := (rfl)
@[simp] theorem setN_lnk (o v : Nat) : (s.setN o v).lnk = s.lnk := (rfl)
@[simp] theorem setN_cxl (o v : Nat) : (s.setN o v).cxl = s.cxl := (rfl)
@[simp] theorem setN_lane (o v : Nat) : (s.setN o v).lane = s.lane := (rfl)
@[simp] theorem setN_pwr (o v : Nat) : (s.setN o v).pwr = s.pwr := (rfl)

/-! ### set64 -/

@[simp] theorem set64_pending (o v : Nat) : (s.set64 o v).pending = s.pending := (rfl)
@[simp] theorem set64_out (o v : Nat) : (s.set64 o v).out = s.out := (rfl)
@[simp] theorem set64_free (o v : Nat) : (s.set64 o v).free = s.free := (rfl)
@[simp] theorem set64_tick (o v : Nat) : (s.set64 o v).tick = s.tick := (rfl)
@[simp] theorem set64_ev (o v : Nat) : (s.set64 o v).ev = s.ev := (rfl)
@[simp] theorem set64_nalug (o v : Nat) : (s.set64 o v).nalug = s.nalug := (rfl)
@[simp] theorem set64_mgmt (o v : Nat) : (s.set64 o v).mgmt = s.mgmt := (rfl)
@[simp] theorem set64_clk (o v : Nat) : (s.set64 o v).clk = s.clk := (rfl)
@[simp] theorem set64_tel (o v : Nat) : (s.set64 o v).tel = s.tel := (rfl)
@[simp] theorem set64_bind (o v : Nat) : (s.set64 o v).bind = s.bind := (rfl)
@[simp] theorem set64_home (o v : Nat) : (s.set64 o v).home = s.home := (rfl)
@[simp] theorem set64_hmp (o v : Nat) : (s.set64 o v).hmp = s.hmp := (rfl)
@[simp] theorem set64_hbm (o v : Nat) : (s.set64 o v).hbm = s.hbm := (rfl)
@[simp] theorem set64_qos (o v : Nat) : (s.set64 o v).qos = s.qos := (rfl)
@[simp] theorem set64_eng (o v : Nat) : (s.set64 o v).eng = s.eng := (rfl)
@[simp] theorem set64_lnk (o v : Nat) : (s.set64 o v).lnk = s.lnk := (rfl)
@[simp] theorem set64_cxl (o v : Nat) : (s.set64 o v).cxl = s.cxl := (rfl)
@[simp] theorem set64_lane (o v : Nat) : (s.set64 o v).lane = s.lane := (rfl)
@[simp] theorem set64_pwr (o v : Nat) : (s.set64 o v).pwr = s.pwr := (rfl)

/-! ### clearRegs -/

@[simp] theorem clearRegs_pending (p : Nat → Bool) : (s.clearRegs p).pending = s.pending := (rfl)
@[simp] theorem clearRegs_out (p : Nat → Bool) : (s.clearRegs p).out = s.out := (rfl)
@[simp] theorem clearRegs_free (p : Nat → Bool) : (s.clearRegs p).free = s.free := (rfl)
@[simp] theorem clearRegs_tick (p : Nat → Bool) : (s.clearRegs p).tick = s.tick := (rfl)
@[simp] theorem clearRegs_ev (p : Nat → Bool) : (s.clearRegs p).ev = s.ev := (rfl)
@[simp] theorem clearRegs_nalug (p : Nat → Bool) : (s.clearRegs p).nalug = s.nalug := (rfl)
@[simp] theorem clearRegs_mgmt (p : Nat → Bool) : (s.clearRegs p).mgmt = s.mgmt := (rfl)
@[simp] theorem clearRegs_clk (p : Nat → Bool) : (s.clearRegs p).clk = s.clk := (rfl)
@[simp] theorem clearRegs_tel (p : Nat → Bool) : (s.clearRegs p).tel = s.tel := (rfl)
@[simp] theorem clearRegs_bind (p : Nat → Bool) : (s.clearRegs p).bind = s.bind := (rfl)
@[simp] theorem clearRegs_home (p : Nat → Bool) : (s.clearRegs p).home = s.home := (rfl)
@[simp] theorem clearRegs_hmp (p : Nat → Bool) : (s.clearRegs p).hmp = s.hmp := (rfl)
@[simp] theorem clearRegs_hbm (p : Nat → Bool) : (s.clearRegs p).hbm = s.hbm := (rfl)
@[simp] theorem clearRegs_qos (p : Nat → Bool) : (s.clearRegs p).qos = s.qos := (rfl)
@[simp] theorem clearRegs_eng (p : Nat → Bool) : (s.clearRegs p).eng = s.eng := (rfl)
@[simp] theorem clearRegs_lnk (p : Nat → Bool) : (s.clearRegs p).lnk = s.lnk := (rfl)
@[simp] theorem clearRegs_cxl (p : Nat → Bool) : (s.clearRegs p).cxl = s.cxl := (rfl)
@[simp] theorem clearRegs_lane (p : Nat → Bool) : (s.clearRegs p).lane = s.lane := (rfl)
@[simp] theorem clearRegs_pwr (p : Nat → Bool) : (s.clearRegs p).pwr = s.pwr := (rfl)

/-! ### cnt -/

@[simp] theorem cnt_pending (o k : Nat) : (s.cnt o k).pending = s.pending := (rfl)
@[simp] theorem cnt_out (o k : Nat) : (s.cnt o k).out = s.out := (rfl)
@[simp] theorem cnt_free (o k : Nat) : (s.cnt o k).free = s.free := (rfl)
@[simp] theorem cnt_tick (o k : Nat) : (s.cnt o k).tick = s.tick := (rfl)
@[simp] theorem cnt_ev (o k : Nat) : (s.cnt o k).ev = s.ev := (rfl)
@[simp] theorem cnt_nalug (o k : Nat) : (s.cnt o k).nalug = s.nalug := (rfl)
@[simp] theorem cnt_mgmt (o k : Nat) : (s.cnt o k).mgmt = s.mgmt := (rfl)
@[simp] theorem cnt_clk (o k : Nat) : (s.cnt o k).clk = s.clk := (rfl)
@[simp] theorem cnt_tel (o k : Nat) : (s.cnt o k).tel = s.tel := (rfl)
@[simp] theorem cnt_bind (o k : Nat) : (s.cnt o k).bind = s.bind := (rfl)
@[simp] theorem cnt_home (o k : Nat) : (s.cnt o k).home = s.home := (rfl)
@[simp] theorem cnt_hmp (o k : Nat) : (s.cnt o k).hmp = s.hmp := (rfl)
@[simp] theorem cnt_hbm (o k : Nat) : (s.cnt o k).hbm = s.hbm := (rfl)
@[simp] theorem cnt_qos (o k : Nat) : (s.cnt o k).qos = s.qos := (rfl)
@[simp] theorem cnt_eng (o k : Nat) : (s.cnt o k).eng = s.eng := (rfl)
@[simp] theorem cnt_lnk (o k : Nat) : (s.cnt o k).lnk = s.lnk := (rfl)
@[simp] theorem cnt_cxl (o k : Nat) : (s.cnt o k).cxl = s.cxl := (rfl)
@[simp] theorem cnt_lane (o k : Nat) : (s.cnt o k).lane = s.lane := (rfl)
@[simp] theorem cnt_pwr (o k : Nat) : (s.cnt o k).pwr = s.pwr := (rfl)

/-! ### emit -/

@[simp] theorem emit_pending (m : Out) : (s.emit m).pending = s.pending := (rfl)
@[simp] theorem emit_regs (m : Out) : (s.emit m).regs = s.regs := (rfl)
@[simp] theorem emit_free (m : Out) : (s.emit m).free = s.free := (rfl)
@[simp] theorem emit_tick (m : Out) : (s.emit m).tick = s.tick := (rfl)
@[simp] theorem emit_ev (m : Out) : (s.emit m).ev = s.ev := (rfl)
@[simp] theorem emit_nalug (m : Out) : (s.emit m).nalug = s.nalug := (rfl)
@[simp] theorem emit_mgmt (m : Out) : (s.emit m).mgmt = s.mgmt := (rfl)
@[simp] theorem emit_clk (m : Out) : (s.emit m).clk = s.clk := (rfl)
@[simp] theorem emit_tel (m : Out) : (s.emit m).tel = s.tel := (rfl)
@[simp] theorem emit_bind (m : Out) : (s.emit m).bind = s.bind := (rfl)
@[simp] theorem emit_home (m : Out) : (s.emit m).home = s.home := (rfl)
@[simp] theorem emit_hmp (m : Out) : (s.emit m).hmp = s.hmp := (rfl)
@[simp] theorem emit_hbm (m : Out) : (s.emit m).hbm = s.hbm := (rfl)
@[simp] theorem emit_qos (m : Out) : (s.emit m).qos = s.qos := (rfl)
@[simp] theorem emit_eng (m : Out) : (s.emit m).eng = s.eng := (rfl)
@[simp] theorem emit_lnk (m : Out) : (s.emit m).lnk = s.lnk := (rfl)
@[simp] theorem emit_cxl (m : Out) : (s.emit m).cxl = s.cxl := (rfl)
@[simp] theorem emit_lane (m : Out) : (s.emit m).lane = s.lane := (rfl)
@[simp] theorem emit_pwr (m : Out) : (s.emit m).pwr = s.pwr := (rfl)

/-! ### markBusy -/

@[simp] theorem markBusy_pending : (s.markBusy).pending = s.pending := (rfl)
@[simp] theorem markBusy_out : (s.markBusy).out = s.out := (rfl)
@[simp] theorem markBusy_regs : (s.markBusy).regs = s.regs := (rfl)
@[simp] theorem markBusy_free : (s.markBusy).free = s.free := (rfl)
@[simp] theorem markBusy_tick : (s.markBusy).tick = s.tick := (rfl)
@[simp] theorem markBusy_ev : (s.markBusy).ev = s.ev := (rfl)
@[simp] theorem markBusy_nalug : (s.markBusy).nalug = s.nalug := (rfl)
@[simp] theorem markBusy_mgmt : (s.markBusy).mgmt = s.mgmt := (rfl)
@[simp] theorem markBusy_clk : (s.markBusy).clk = s.clk := (rfl)
@[simp] theorem markBusy_bind : (s.markBusy).bind = s.bind := (rfl)
@[simp] theorem markBusy_home : (s.markBusy).home = s.home := (rfl)
@[simp] theorem markBusy_hmp : (s.markBusy).hmp = s.hmp := (rfl)
@[simp] theorem markBusy_hbm : (s.markBusy).hbm = s.hbm := (rfl)
@[simp] theorem markBusy_qos : (s.markBusy).qos = s.qos := (rfl)
@[simp] theorem markBusy_eng : (s.markBusy).eng = s.eng := (rfl)
@[simp] theorem markBusy_lnk : (s.markBusy).lnk = s.lnk := (rfl)
@[simp] theorem markBusy_cxl : (s.markBusy).cxl = s.cxl := (rfl)
@[simp] theorem markBusy_lane : (s.markBusy).lane = s.lane := (rfl)
@[simp] theorem markBusy_pwr : (s.markBusy).pwr = s.pwr := (rfl)

/-! ### raiseLate -/

@[simp] theorem raiseLate_pending (code : Nat) (vals : List EvVal) : (s.raiseLate code vals).pending = s.pending := (rfl)
@[simp] theorem raiseLate_out (code : Nat) (vals : List EvVal) : (s.raiseLate code vals).out = s.out := (rfl)
@[simp] theorem raiseLate_regs (code : Nat) (vals : List EvVal) : (s.raiseLate code vals).regs = s.regs := (rfl)
@[simp] theorem raiseLate_free (code : Nat) (vals : List EvVal) : (s.raiseLate code vals).free = s.free := (rfl)
@[simp] theorem raiseLate_tick (code : Nat) (vals : List EvVal) : (s.raiseLate code vals).tick = s.tick := (rfl)
@[simp] theorem raiseLate_nalug (code : Nat) (vals : List EvVal) : (s.raiseLate code vals).nalug = s.nalug := (rfl)
@[simp] theorem raiseLate_mgmt (code : Nat) (vals : List EvVal) : (s.raiseLate code vals).mgmt = s.mgmt := (rfl)
@[simp] theorem raiseLate_clk (code : Nat) (vals : List EvVal) : (s.raiseLate code vals).clk = s.clk := (rfl)
@[simp] theorem raiseLate_tel (code : Nat) (vals : List EvVal) : (s.raiseLate code vals).tel = s.tel := (rfl)
@[simp] theorem raiseLate_bind (code : Nat) (vals : List EvVal) : (s.raiseLate code vals).bind = s.bind := (rfl)
@[simp] theorem raiseLate_home (code : Nat) (vals : List EvVal) : (s.raiseLate code vals).home = s.home := (rfl)
@[simp] theorem raiseLate_hmp (code : Nat) (vals : List EvVal) : (s.raiseLate code vals).hmp = s.hmp := (rfl)
@[simp] theorem raiseLate_hbm (code : Nat) (vals : List EvVal) : (s.raiseLate code vals).hbm = s.hbm := (rfl)
@[simp] theorem raiseLate_qos (code : Nat) (vals : List EvVal) : (s.raiseLate code vals).qos = s.qos := (rfl)
@[simp] theorem raiseLate_eng (code : Nat) (vals : List EvVal) : (s.raiseLate code vals).eng = s.eng := (rfl)
@[simp] theorem raiseLate_lnk (code : Nat) (vals : List EvVal) : (s.raiseLate code vals).lnk = s.lnk := (rfl)
@[simp] theorem raiseLate_cxl (code : Nat) (vals : List EvVal) : (s.raiseLate code vals).cxl = s.cxl := (rfl)
@[simp] theorem raiseLate_lane (code : Nat) (vals : List EvVal) : (s.raiseLate code vals).lane = s.lane := (rfl)
@[simp] theorem raiseLate_pwr (code : Nat) (vals : List EvVal) : (s.raiseLate code vals).pwr = s.pwr := (rfl)

/-! ### setLock -/

@[simp] theorem setLock_pending (n : Nat) (l : Lock) : (s.setLock n l).pending = s.pending := (rfl)
@[simp] theorem setLock_out (n : Nat) (l : Lock) : (s.setLock n l).out = s.out := (rfl)
@[simp] theorem setLock_regs (n : Nat) (l : Lock) : (s.setLock n l).regs = s.regs := (rfl)
@[simp] theorem setLock_free (n : Nat) (l : Lock) : (s.setLock n l).free = s.free := (rfl)
@[simp] theorem setLock_tick (n : Nat) (l : Lock) : (s.setLock n l).tick = s.tick := (rfl)
@[simp] theorem setLock_ev (n : Nat) (l : Lock) : (s.setLock n l).ev = s.ev := (rfl)
@[simp] theorem setLock_mgmt (n : Nat) (l : Lock) : (s.setLock n l).mgmt = s.mgmt := (rfl)
@[simp] theorem setLock_clk (n : Nat) (l : Lock) : (s.setLock n l).clk = s.clk := (rfl)
@[simp] theorem setLock_tel (n : Nat) (l : Lock) : (s.setLock n l).tel = s.tel := (rfl)
@[simp] theorem setLock_bind (n : Nat) (l : Lock) : (s.setLock n l).bind = s.bind := (rfl)
@[simp] theorem setLock_home (n : Nat) (l : Lock) : (s.setLock n l).home = s.home := (rfl)
@[simp] theorem setLock_hmp (n : Nat) (l : Lock) : (s.setLock n l).hmp = s.hmp := (rfl)
@[simp] theorem setLock_hbm (n : Nat) (l : Lock) : (s.setLock n l).hbm = s.hbm := (rfl)
@[simp] theorem setLock_qos (n : Nat) (l : Lock) : (s.setLock n l).qos = s.qos := (rfl)
@[simp] theorem setLock_eng (n : Nat) (l : Lock) : (s.setLock n l).eng = s.eng := (rfl)
@[simp] theorem setLock_lnk (n : Nat) (l : Lock) : (s.setLock n l).lnk = s.lnk := (rfl)
@[simp] theorem setLock_cxl (n : Nat) (l : Lock) : (s.setLock n l).cxl = s.cxl := (rfl)
@[simp] theorem setLock_lane (n : Nat) (l : Lock) : (s.setLock n l).lane = s.lane := (rfl)
@[simp] theorem setLock_pwr (n : Nat) (l : Lock) : (s.setLock n l).pwr = s.pwr := (rfl)

/-! ### setSlot -/

@[simp] theorem setSlot_pending (k : Nat) (x : StepSlot) : (s.setSlot k x).pending = s.pending := (rfl)
@[simp] theorem setSlot_out (k : Nat) (x : StepSlot) : (s.setSlot k x).out = s.out := (rfl)
@[simp] theorem setSlot_regs (k : Nat) (x : StepSlot) : (s.setSlot k x).regs = s.regs := (rfl)
@[simp] theorem setSlot_free (k : Nat) (x : StepSlot) : (s.setSlot k x).free = s.free := (rfl)
@[simp] theorem setSlot_tick (k : Nat) (x : StepSlot) : (s.setSlot k x).tick = s.tick := (rfl)
@[simp] theorem setSlot_ev (k : Nat) (x : StepSlot) : (s.setSlot k x).ev = s.ev := (rfl)
@[simp] theorem setSlot_mgmt (k : Nat) (x : StepSlot) : (s.setSlot k x).mgmt = s.mgmt := (rfl)
@[simp] theorem setSlot_clk (k : Nat) (x : StepSlot) : (s.setSlot k x).clk = s.clk := (rfl)
@[simp] theorem setSlot_tel (k : Nat) (x : StepSlot) : (s.setSlot k x).tel = s.tel := (rfl)
@[simp] theorem setSlot_bind (k : Nat) (x : StepSlot) : (s.setSlot k x).bind = s.bind := (rfl)
@[simp] theorem setSlot_home (k : Nat) (x : StepSlot) : (s.setSlot k x).home = s.home := (rfl)
@[simp] theorem setSlot_hmp (k : Nat) (x : StepSlot) : (s.setSlot k x).hmp = s.hmp := (rfl)
@[simp] theorem setSlot_hbm (k : Nat) (x : StepSlot) : (s.setSlot k x).hbm = s.hbm := (rfl)
@[simp] theorem setSlot_qos (k : Nat) (x : StepSlot) : (s.setSlot k x).qos = s.qos := (rfl)
@[simp] theorem setSlot_eng (k : Nat) (x : StepSlot) : (s.setSlot k x).eng = s.eng := (rfl)
@[simp] theorem setSlot_lnk (k : Nat) (x : StepSlot) : (s.setSlot k x).lnk = s.lnk := (rfl)
@[simp] theorem setSlot_cxl (k : Nat) (x : StepSlot) : (s.setSlot k x).cxl = s.cxl := (rfl)
@[simp] theorem setSlot_lane (k : Nat) (x : StepSlot) : (s.setSlot k x).lane = s.lane := (rfl)
@[simp] theorem setSlot_pwr (k : Nat) (x : StepSlot) : (s.setSlot k x).pwr = s.pwr := (rfl)

/-! ### takeInbox -/

@[simp] theorem takeInbox_pending (q : Req) : (s.takeInbox q).pending = s.pending := (rfl)
@[simp] theorem takeInbox_out (q : Req) : (s.takeInbox q).out = s.out := (rfl)
@[simp] theorem takeInbox_regs (q : Req) : (s.takeInbox q).regs = s.regs := (rfl)
@[simp] theorem takeInbox_free (q : Req) : (s.takeInbox q).free = s.free := (rfl)
@[simp] theorem takeInbox_tick (q : Req) : (s.takeInbox q).tick = s.tick := (rfl)
@[simp] theorem takeInbox_ev (q : Req) : (s.takeInbox q).ev = s.ev := (rfl)
@[simp] theorem takeInbox_mgmt (q : Req) : (s.takeInbox q).mgmt = s.mgmt := (rfl)
@[simp] theorem takeInbox_clk (q : Req) : (s.takeInbox q).clk = s.clk := (rfl)
@[simp] theorem takeInbox_tel (q : Req) : (s.takeInbox q).tel = s.tel := (rfl)
@[simp] theorem takeInbox_bind (q : Req) : (s.takeInbox q).bind = s.bind := (rfl)
@[simp] theorem takeInbox_home (q : Req) : (s.takeInbox q).home = s.home := (rfl)
@[simp] theorem takeInbox_hmp (q : Req) : (s.takeInbox q).hmp = s.hmp := (rfl)
@[simp] theorem takeInbox_hbm (q : Req) : (s.takeInbox q).hbm = s.hbm := (rfl)
@[simp] theorem takeInbox_qos (q : Req) : (s.takeInbox q).qos = s.qos := (rfl)
@[simp] theorem takeInbox_eng (q : Req) : (s.takeInbox q).eng = s.eng := (rfl)
@[simp] theorem takeInbox_lnk (q : Req) : (s.takeInbox q).lnk = s.lnk := (rfl)
@[simp] theorem takeInbox_cxl (q : Req) : (s.takeInbox q).cxl = s.cxl := (rfl)
@[simp] theorem takeInbox_lane (q : Req) : (s.takeInbox q).lane = s.lane := (rfl)
@[simp] theorem takeInbox_pwr (q : Req) : (s.takeInbox q).pwr = s.pwr := (rfl)

/-! ### keepReply -/

@[simp] theorem keepReply_pending (k : Kept) : (s.keepReply k).pending = s.pending := (rfl)
@[simp] theorem keepReply_out (k : Kept) : (s.keepReply k).out = s.out := (rfl)
@[simp] theorem keepReply_regs (k : Kept) : (s.keepReply k).regs = s.regs := (rfl)
@[simp] theorem keepReply_free (k : Kept) : (s.keepReply k).free = s.free := (rfl)
@[simp] theorem keepReply_tick (k : Kept) : (s.keepReply k).tick = s.tick := (rfl)
@[simp] theorem keepReply_ev (k : Kept) : (s.keepReply k).ev = s.ev := (rfl)
@[simp] theorem keepReply_mgmt (k : Kept) : (s.keepReply k).mgmt = s.mgmt := (rfl)
@[simp] theorem keepReply_clk (k : Kept) : (s.keepReply k).clk = s.clk := (rfl)
@[simp] theorem keepReply_tel (k : Kept) : (s.keepReply k).tel = s.tel := (rfl)
@[simp] theorem keepReply_bind (k : Kept) : (s.keepReply k).bind = s.bind := (rfl)
@[simp] theorem keepReply_home (k : Kept) : (s.keepReply k).home = s.home := (rfl)
@[simp] theorem keepReply_hmp (k : Kept) : (s.keepReply k).hmp = s.hmp := (rfl)
@[simp] theorem keepReply_hbm (k : Kept) : (s.keepReply k).hbm = s.hbm := (rfl)
@[simp] theorem keepReply_qos (k : Kept) : (s.keepReply k).qos = s.qos := (rfl)
@[simp] theorem keepReply_eng (k : Kept) : (s.keepReply k).eng = s.eng := (rfl)
@[simp] theorem keepReply_lnk (k : Kept) : (s.keepReply k).lnk = s.lnk := (rfl)
@[simp] theorem keepReply_cxl (k : Kept) : (s.keepReply k).cxl = s.cxl := (rfl)
@[simp] theorem keepReply_lane (k : Kept) : (s.keepReply k).lane = s.lane := (rfl)
@[simp] theorem keepReply_pwr (k : Kept) : (s.keepReply k).pwr = s.pwr := (rfl)

/-! ### inTick -/

@[simp] theorem inTick_pending (f : TickS → TickS) : (s.inTick f).pending = s.pending := (rfl)
@[simp] theorem inTick_out (f : TickS → TickS) : (s.inTick f).out = s.out := (rfl)
@[simp] theorem inTick_regs (f : TickS → TickS) : (s.inTick f).regs = s.regs := (rfl)
@[simp] theorem inTick_free (f : TickS → TickS) : (s.inTick f).free = s.free := (rfl)
@[simp] theorem inTick_ev (f : TickS → TickS) : (s.inTick f).ev = s.ev := (rfl)
@[simp] theorem inTick_nalug (f : TickS → TickS) : (s.inTick f).nalug = s.nalug := (rfl)
@[simp] theorem inTick_mgmt (f : TickS → TickS) : (s.inTick f).mgmt = s.mgmt := (rfl)
@[simp] theorem inTick_clk (f : TickS → TickS) : (s.inTick f).clk = s.clk := (rfl)
@[simp] theorem inTick_tel (f : TickS → TickS) : (s.inTick f).tel = s.tel := (rfl)
@[simp] theorem inTick_bind (f : TickS → TickS) : (s.inTick f).bind = s.bind := (rfl)
@[simp] theorem inTick_home (f : TickS → TickS) : (s.inTick f).home = s.home := (rfl)
@[simp] theorem inTick_hmp (f : TickS → TickS) : (s.inTick f).hmp = s.hmp := (rfl)
@[simp] theorem inTick_hbm (f : TickS → TickS) : (s.inTick f).hbm = s.hbm := (rfl)
@[simp] theorem inTick_qos (f : TickS → TickS) : (s.inTick f).qos = s.qos := (rfl)
@[simp] theorem inTick_eng (f : TickS → TickS) : (s.inTick f).eng = s.eng := (rfl)
@[simp] theorem inTick_lnk (f : TickS → TickS) : (s.inTick f).lnk = s.lnk := (rfl)
@[simp] theorem inTick_cxl (f : TickS → TickS) : (s.inTick f).cxl = s.cxl := (rfl)
@[simp] theorem inTick_lane (f : TickS → TickS) : (s.inTick f).lane = s.lane := (rfl)
@[simp] theorem inTick_pwr (f : TickS → TickS) : (s.inTick f).pwr = s.pwr := (rfl)

/-! ### inClk -/

@[simp] theorem inClk_pending (f : ClkS → ClkS) : (s.inClk f).pending = s.pending := (rfl)
@[simp] theorem inClk_out (f : ClkS → ClkS) : (s.inClk f).out = s.out := (rfl)
@[simp] theorem inClk_regs (f : ClkS → ClkS) : (s.inClk f).regs = s.regs := (rfl)
@[simp] theorem inClk_free (f : ClkS → ClkS) : (s.inClk f).free = s.free := (rfl)
@[simp] theorem inClk_tick (f : ClkS → ClkS) : (s.inClk f).tick = s.tick := (rfl)
@[simp] theorem inClk_ev (f : ClkS → ClkS) : (s.inClk f).ev = s.ev := (rfl)
@[simp] theorem inClk_nalug (f : ClkS → ClkS) : (s.inClk f).nalug = s.nalug := (rfl)
@[simp] theorem inClk_mgmt (f : ClkS → ClkS) : (s.inClk f).mgmt = s.mgmt := (rfl)
@[simp] theorem inClk_tel (f : ClkS → ClkS) : (s.inClk f).tel = s.tel := (rfl)
@[simp] theorem inClk_bind (f : ClkS → ClkS) : (s.inClk f).bind = s.bind := (rfl)
@[simp] theorem inClk_home (f : ClkS → ClkS) : (s.inClk f).home = s.home := (rfl)
@[simp] theorem inClk_hmp (f : ClkS → ClkS) : (s.inClk f).hmp = s.hmp := (rfl)
@[simp] theorem inClk_hbm (f : ClkS → ClkS) : (s.inClk f).hbm = s.hbm := (rfl)
@[simp] theorem inClk_qos (f : ClkS → ClkS) : (s.inClk f).qos = s.qos := (rfl)
@[simp] theorem inClk_eng (f : ClkS → ClkS) : (s.inClk f).eng = s.eng := (rfl)
@[simp] theorem inClk_lnk (f : ClkS → ClkS) : (s.inClk f).lnk = s.lnk := (rfl)
@[simp] theorem inClk_cxl (f : ClkS → ClkS) : (s.inClk f).cxl = s.cxl := (rfl)
@[simp] theorem inClk_lane (f : ClkS → ClkS) : (s.inClk f).lane = s.lane := (rfl)
@[simp] theorem inClk_pwr (f : ClkS → ClkS) : (s.inClk f).pwr = s.pwr := (rfl)

/-! ### inTel -/

@[simp] theorem inTel_pending (f : TelS → TelS) : (s.inTel f).pending = s.pending := (rfl)
@[simp] theorem inTel_out (f : TelS → TelS) : (s.inTel f).out = s.out := (rfl)
@[simp] theorem inTel_regs (f : TelS → TelS) : (s.inTel f).regs = s.regs := (rfl)
@[simp] theorem inTel_free (f : TelS → TelS) : (s.inTel f).free = s.free := (rfl)
@[simp] theorem inTel_tick (f : TelS → TelS) : (s.inTel f).tick = s.tick := (rfl)
@[simp] theorem inTel_ev (f : TelS → TelS) : (s.inTel f).ev = s.ev := (rfl)
@[simp] theorem inTel_nalug (f : TelS → TelS) : (s.inTel f).nalug = s.nalug := (rfl)
@[simp] theorem inTel_mgmt (f : TelS → TelS) : (s.inTel f).mgmt = s.mgmt := (rfl)
@[simp] theorem inTel_clk (f : TelS → TelS) : (s.inTel f).clk = s.clk := (rfl)
@[simp] theorem inTel_bind (f : TelS → TelS) : (s.inTel f).bind = s.bind := (rfl)
@[simp] theorem inTel_home (f : TelS → TelS) : (s.inTel f).home = s.home := (rfl)
@[simp] theorem inTel_hmp (f : TelS → TelS) : (s.inTel f).hmp = s.hmp := (rfl)
@[simp] theorem inTel_hbm (f : TelS → TelS) : (s.inTel f).hbm = s.hbm := (rfl)
@[simp] theorem inTel_qos (f : TelS → TelS) : (s.inTel f).qos = s.qos := (rfl)
@[simp] theorem inTel_eng (f : TelS → TelS) : (s.inTel f).eng = s.eng := (rfl)
@[simp] theorem inTel_lnk (f : TelS → TelS) : (s.inTel f).lnk = s.lnk := (rfl)
@[simp] theorem inTel_cxl (f : TelS → TelS) : (s.inTel f).cxl = s.cxl := (rfl)
@[simp] theorem inTel_lane (f : TelS → TelS) : (s.inTel f).lane = s.lane := (rfl)
@[simp] theorem inTel_pwr (f : TelS → TelS) : (s.inTel f).pwr = s.pwr := (rfl)

/-! ### inBind -/

@[simp] theorem inBind_pending (f : BindS → BindS) : (s.inBind f).pending = s.pending := (rfl)
@[simp] theorem inBind_out (f : BindS → BindS) : (s.inBind f).out = s.out := (rfl)
@[simp] theorem inBind_regs (f : BindS → BindS) : (s.inBind f).regs = s.regs := (rfl)
@[simp] theorem inBind_free (f : BindS → BindS) : (s.inBind f).free = s.free := (rfl)
@[simp] theorem inBind_tick (f : BindS → BindS) : (s.inBind f).tick = s.tick := (rfl)
@[simp] theorem inBind_ev (f : BindS → BindS) : (s.inBind f).ev = s.ev := (rfl)
@[simp] theorem inBind_nalug (f : BindS → BindS) : (s.inBind f).nalug = s.nalug := (rfl)
@[simp] theorem inBind_mgmt (f : BindS → BindS) : (s.inBind f).mgmt = s.mgmt := (rfl)
@[simp] theorem inBind_clk (f : BindS → BindS) : (s.inBind f).clk = s.clk := (rfl)
@[simp] theorem inBind_tel (f : BindS → BindS) : (s.inBind f).tel = s.tel := (rfl)
@[simp] theorem inBind_home (f : BindS → BindS) : (s.inBind f).home = s.home := (rfl)
@[simp] theorem inBind_hmp (f : BindS → BindS) : (s.inBind f).hmp = s.hmp := (rfl)
@[simp] theorem inBind_hbm (f : BindS → BindS) : (s.inBind f).hbm = s.hbm := (rfl)
@[simp] theorem inBind_qos (f : BindS → BindS) : (s.inBind f).qos = s.qos := (rfl)
@[simp] theorem inBind_eng (f : BindS → BindS) : (s.inBind f).eng = s.eng := (rfl)
@[simp] theorem inBind_lnk (f : BindS → BindS) : (s.inBind f).lnk = s.lnk := (rfl)
@[simp] theorem inBind_cxl (f : BindS → BindS) : (s.inBind f).cxl = s.cxl := (rfl)
@[simp] theorem inBind_lane (f : BindS → BindS) : (s.inBind f).lane = s.lane := (rfl)
@[simp] theorem inBind_pwr (f : BindS → BindS) : (s.inBind f).pwr = s.pwr := (rfl)

/-! ### inHome -/

@[simp] theorem inHome_pending (f : HomeS → HomeS) : (s.inHome f).pending = s.pending := (rfl)
@[simp] theorem inHome_out (f : HomeS → HomeS) : (s.inHome f).out = s.out := (rfl)
@[simp] theorem inHome_regs (f : HomeS → HomeS) : (s.inHome f).regs = s.regs := (rfl)
@[simp] theorem inHome_free (f : HomeS → HomeS) : (s.inHome f).free = s.free := (rfl)
@[simp] theorem inHome_tick (f : HomeS → HomeS) : (s.inHome f).tick = s.tick := (rfl)
@[simp] theorem inHome_ev (f : HomeS → HomeS) : (s.inHome f).ev = s.ev := (rfl)
@[simp] theorem inHome_nalug (f : HomeS → HomeS) : (s.inHome f).nalug = s.nalug := (rfl)
@[simp] theorem inHome_mgmt (f : HomeS → HomeS) : (s.inHome f).mgmt = s.mgmt := (rfl)
@[simp] theorem inHome_clk (f : HomeS → HomeS) : (s.inHome f).clk = s.clk := (rfl)
@[simp] theorem inHome_tel (f : HomeS → HomeS) : (s.inHome f).tel = s.tel := (rfl)
@[simp] theorem inHome_bind (f : HomeS → HomeS) : (s.inHome f).bind = s.bind := (rfl)
@[simp] theorem inHome_hmp (f : HomeS → HomeS) : (s.inHome f).hmp = s.hmp := (rfl)
@[simp] theorem inHome_hbm (f : HomeS → HomeS) : (s.inHome f).hbm = s.hbm := (rfl)
@[simp] theorem inHome_qos (f : HomeS → HomeS) : (s.inHome f).qos = s.qos := (rfl)
@[simp] theorem inHome_eng (f : HomeS → HomeS) : (s.inHome f).eng = s.eng := (rfl)
@[simp] theorem inHome_lnk (f : HomeS → HomeS) : (s.inHome f).lnk = s.lnk := (rfl)
@[simp] theorem inHome_cxl (f : HomeS → HomeS) : (s.inHome f).cxl = s.cxl := (rfl)
@[simp] theorem inHome_lane (f : HomeS → HomeS) : (s.inHome f).lane = s.lane := (rfl)
@[simp] theorem inHome_pwr (f : HomeS → HomeS) : (s.inHome f).pwr = s.pwr := (rfl)

/-! ### inHbm -/

@[simp] theorem inHbm_pending (f : HbmS → HbmS) : (s.inHbm f).pending = s.pending := (rfl)
@[simp] theorem inHbm_out (f : HbmS → HbmS) : (s.inHbm f).out = s.out := (rfl)
@[simp] theorem inHbm_regs (f : HbmS → HbmS) : (s.inHbm f).regs = s.regs := (rfl)
@[simp] theorem inHbm_free (f : HbmS → HbmS) : (s.inHbm f).free = s.free := (rfl)
@[simp] theorem inHbm_tick (f : HbmS → HbmS) : (s.inHbm f).tick = s.tick := (rfl)
@[simp] theorem inHbm_ev (f : HbmS → HbmS) : (s.inHbm f).ev = s.ev := (rfl)
@[simp] theorem inHbm_nalug (f : HbmS → HbmS) : (s.inHbm f).nalug = s.nalug := (rfl)
@[simp] theorem inHbm_mgmt (f : HbmS → HbmS) : (s.inHbm f).mgmt = s.mgmt := (rfl)
@[simp] theorem inHbm_clk (f : HbmS → HbmS) : (s.inHbm f).clk = s.clk := (rfl)
@[simp] theorem inHbm_tel (f : HbmS → HbmS) : (s.inHbm f).tel = s.tel := (rfl)
@[simp] theorem inHbm_bind (f : HbmS → HbmS) : (s.inHbm f).bind = s.bind := (rfl)
@[simp] theorem inHbm_home (f : HbmS → HbmS) : (s.inHbm f).home = s.home := (rfl)
@[simp] theorem inHbm_hmp (f : HbmS → HbmS) : (s.inHbm f).hmp = s.hmp := (rfl)
@[simp] theorem inHbm_qos (f : HbmS → HbmS) : (s.inHbm f).qos = s.qos := (rfl)
@[simp] theorem inHbm_eng (f : HbmS → HbmS) : (s.inHbm f).eng = s.eng := (rfl)
@[simp] theorem inHbm_lnk (f : HbmS → HbmS) : (s.inHbm f).lnk = s.lnk := (rfl)
@[simp] theorem inHbm_cxl (f : HbmS → HbmS) : (s.inHbm f).cxl = s.cxl := (rfl)
@[simp] theorem inHbm_lane (f : HbmS → HbmS) : (s.inHbm f).lane = s.lane := (rfl)
@[simp] theorem inHbm_pwr (f : HbmS → HbmS) : (s.inHbm f).pwr = s.pwr := (rfl)

/-! ### inHmp -/

@[simp] theorem inHmp_pending (f : HmpS → HmpS) : (s.inHmp f).pending = s.pending := (rfl)
@[simp] theorem inHmp_out (f : HmpS → HmpS) : (s.inHmp f).out = s.out := (rfl)
@[simp] theorem inHmp_regs (f : HmpS → HmpS) : (s.inHmp f).regs = s.regs := (rfl)
@[simp] theorem inHmp_free (f : HmpS → HmpS) : (s.inHmp f).free = s.free := (rfl)
@[simp] theorem inHmp_tick (f : HmpS → HmpS) : (s.inHmp f).tick = s.tick := (rfl)
@[simp] theorem inHmp_ev (f : HmpS → HmpS) : (s.inHmp f).ev = s.ev := (rfl)
@[simp] theorem inHmp_nalug (f : HmpS → HmpS) : (s.inHmp f).nalug = s.nalug := (rfl)
@[simp] theorem inHmp_mgmt (f : HmpS → HmpS) : (s.inHmp f).mgmt = s.mgmt := (rfl)
@[simp] theorem inHmp_clk (f : HmpS → HmpS) : (s.inHmp f).clk = s.clk := (rfl)
@[simp] theorem inHmp_tel (f : HmpS → HmpS) : (s.inHmp f).tel = s.tel := (rfl)
@[simp] theorem inHmp_bind (f : HmpS → HmpS) : (s.inHmp f).bind = s.bind := (rfl)
@[simp] theorem inHmp_home (f : HmpS → HmpS) : (s.inHmp f).home = s.home := (rfl)
@[simp] theorem inHmp_hbm (f : HmpS → HmpS) : (s.inHmp f).hbm = s.hbm := (rfl)
@[simp] theorem inHmp_qos (f : HmpS → HmpS) : (s.inHmp f).qos = s.qos := (rfl)
@[simp] theorem inHmp_eng (f : HmpS → HmpS) : (s.inHmp f).eng = s.eng := (rfl)
@[simp] theorem inHmp_lnk (f : HmpS → HmpS) : (s.inHmp f).lnk = s.lnk := (rfl)
@[simp] theorem inHmp_cxl (f : HmpS → HmpS) : (s.inHmp f).cxl = s.cxl := (rfl)
@[simp] theorem inHmp_lane (f : HmpS → HmpS) : (s.inHmp f).lane = s.lane := (rfl)
@[simp] theorem inHmp_pwr (f : HmpS → HmpS) : (s.inHmp f).pwr = s.pwr := (rfl)

/-! ### inQos -/

@[simp] theorem inQos_pending (f : QosS → QosS) : (s.inQos f).pending = s.pending := (rfl)
@[simp] theorem inQos_out (f : QosS → QosS) : (s.inQos f).out = s.out := (rfl)
@[simp] theorem inQos_regs (f : QosS → QosS) : (s.inQos f).regs = s.regs := (rfl)
@[simp] theorem inQos_free (f : QosS → QosS) : (s.inQos f).free = s.free := (rfl)
@[simp] theorem inQos_tick (f : QosS → QosS) : (s.inQos f).tick = s.tick := (rfl)
@[simp] theorem inQos_ev (f : QosS → QosS) : (s.inQos f).ev = s.ev := (rfl)
@[simp] theorem inQos_nalug (f : QosS → QosS) : (s.inQos f).nalug = s.nalug := (rfl)
@[simp] theorem inQos_mgmt (f : QosS → QosS) : (s.inQos f).mgmt = s.mgmt := (rfl)
@[simp] theorem inQos_clk (f : QosS → QosS) : (s.inQos f).clk = s.clk := (rfl)
@[simp] theorem inQos_tel (f : QosS → QosS) : (s.inQos f).tel = s.tel := (rfl)
@[simp] theorem inQos_bind (f : QosS → QosS) : (s.inQos f).bind = s.bind := (rfl)
@[simp] theorem inQos_home (f : QosS → QosS) : (s.inQos f).home = s.home := (rfl)
@[simp] theorem inQos_hmp (f : QosS → QosS) : (s.inQos f).hmp = s.hmp := (rfl)
@[simp] theorem inQos_hbm (f : QosS → QosS) : (s.inQos f).hbm = s.hbm := (rfl)
@[simp] theorem inQos_eng (f : QosS → QosS) : (s.inQos f).eng = s.eng := (rfl)
@[simp] theorem inQos_lnk (f : QosS → QosS) : (s.inQos f).lnk = s.lnk := (rfl)
@[simp] theorem inQos_cxl (f : QosS → QosS) : (s.inQos f).cxl = s.cxl := (rfl)
@[simp] theorem inQos_lane (f : QosS → QosS) : (s.inQos f).lane = s.lane := (rfl)
@[simp] theorem inQos_pwr (f : QosS → QosS) : (s.inQos f).pwr = s.pwr := (rfl)

/-! ### inEng -/

@[simp] theorem inEng_pending (f : EngS → EngS) : (s.inEng f).pending = s.pending := (rfl)
@[simp] theorem inEng_out (f : EngS → EngS) : (s.inEng f).out = s.out := (rfl)
@[simp] theorem inEng_regs (f : EngS → EngS) : (s.inEng f).regs = s.regs := (rfl)
@[simp] theorem inEng_free (f : EngS → EngS) : (s.inEng f).free = s.free := (rfl)
@[simp] theorem inEng_tick (f : EngS → EngS) : (s.inEng f).tick = s.tick := (rfl)
@[simp] theorem inEng_ev (f : EngS → EngS) : (s.inEng f).ev = s.ev := (rfl)
@[simp] theorem inEng_nalug (f : EngS → EngS) : (s.inEng f).nalug = s.nalug := (rfl)
@[simp] theorem inEng_mgmt (f : EngS → EngS) : (s.inEng f).mgmt = s.mgmt := (rfl)
@[simp] theorem inEng_clk (f : EngS → EngS) : (s.inEng f).clk = s.clk := (rfl)
@[simp] theorem inEng_tel (f : EngS → EngS) : (s.inEng f).tel = s.tel := (rfl)
@[simp] theorem inEng_bind (f : EngS → EngS) : (s.inEng f).bind = s.bind := (rfl)
@[simp] theorem inEng_home (f : EngS → EngS) : (s.inEng f).home = s.home := (rfl)
@[simp] theorem inEng_hmp (f : EngS → EngS) : (s.inEng f).hmp = s.hmp := (rfl)
@[simp] theorem inEng_hbm (f : EngS → EngS) : (s.inEng f).hbm = s.hbm := (rfl)
@[simp] theorem inEng_qos (f : EngS → EngS) : (s.inEng f).qos = s.qos := (rfl)
@[simp] theorem inEng_lnk (f : EngS → EngS) : (s.inEng f).lnk = s.lnk := (rfl)
@[simp] theorem inEng_cxl (f : EngS → EngS) : (s.inEng f).cxl = s.cxl := (rfl)
@[simp] theorem inEng_lane (f : EngS → EngS) : (s.inEng f).lane = s.lane := (rfl)
@[simp] theorem inEng_pwr (f : EngS → EngS) : (s.inEng f).pwr = s.pwr := (rfl)

/-! ### setLink -/

@[simp] theorem setLink_pending (p : Nat) (x : LinkS) : (s.setLink p x).pending = s.pending := (rfl)
@[simp] theorem setLink_out (p : Nat) (x : LinkS) : (s.setLink p x).out = s.out := (rfl)
@[simp] theorem setLink_regs (p : Nat) (x : LinkS) : (s.setLink p x).regs = s.regs := (rfl)
@[simp] theorem setLink_free (p : Nat) (x : LinkS) : (s.setLink p x).free = s.free := (rfl)
@[simp] theorem setLink_tick (p : Nat) (x : LinkS) : (s.setLink p x).tick = s.tick := (rfl)
@[simp] theorem setLink_ev (p : Nat) (x : LinkS) : (s.setLink p x).ev = s.ev := (rfl)
@[simp] theorem setLink_nalug (p : Nat) (x : LinkS) : (s.setLink p x).nalug = s.nalug := (rfl)
@[simp] theorem setLink_mgmt (p : Nat) (x : LinkS) : (s.setLink p x).mgmt = s.mgmt := (rfl)
@[simp] theorem setLink_clk (p : Nat) (x : LinkS) : (s.setLink p x).clk = s.clk := (rfl)
@[simp] theorem setLink_tel (p : Nat) (x : LinkS) : (s.setLink p x).tel = s.tel := (rfl)
@[simp] theorem setLink_bind (p : Nat) (x : LinkS) : (s.setLink p x).bind = s.bind := (rfl)
@[simp] theorem setLink_home (p : Nat) (x : LinkS) : (s.setLink p x).home = s.home := (rfl)
@[simp] theorem setLink_hmp (p : Nat) (x : LinkS) : (s.setLink p x).hmp = s.hmp := (rfl)
@[simp] theorem setLink_hbm (p : Nat) (x : LinkS) : (s.setLink p x).hbm = s.hbm := (rfl)
@[simp] theorem setLink_qos (p : Nat) (x : LinkS) : (s.setLink p x).qos = s.qos := (rfl)
@[simp] theorem setLink_eng (p : Nat) (x : LinkS) : (s.setLink p x).eng = s.eng := (rfl)
@[simp] theorem setLink_cxl (p : Nat) (x : LinkS) : (s.setLink p x).cxl = s.cxl := (rfl)
@[simp] theorem setLink_lane (p : Nat) (x : LinkS) : (s.setLink p x).lane = s.lane := (rfl)
@[simp] theorem setLink_pwr (p : Nat) (x : LinkS) : (s.setLink p x).pwr = s.pwr := (rfl)

/-! ### setLane -/

@[simp] theorem setLane_pending (p l : Nat) (x : LaneS) : (s.setLane p l x).pending = s.pending := (rfl)
@[simp] theorem setLane_out (p l : Nat) (x : LaneS) : (s.setLane p l x).out = s.out := (rfl)
@[simp] theorem setLane_regs (p l : Nat) (x : LaneS) : (s.setLane p l x).regs = s.regs := (rfl)
@[simp] theorem setLane_free (p l : Nat) (x : LaneS) : (s.setLane p l x).free = s.free := (rfl)
@[simp] theorem setLane_tick (p l : Nat) (x : LaneS) : (s.setLane p l x).tick = s.tick := (rfl)
@[simp] theorem setLane_ev (p l : Nat) (x : LaneS) : (s.setLane p l x).ev = s.ev := (rfl)
@[simp] theorem setLane_nalug (p l : Nat) (x : LaneS) : (s.setLane p l x).nalug = s.nalug := (rfl)
@[simp] theorem setLane_mgmt (p l : Nat) (x : LaneS) : (s.setLane p l x).mgmt = s.mgmt := (rfl)
@[simp] theorem setLane_clk (p l : Nat) (x : LaneS) : (s.setLane p l x).clk = s.clk := (rfl)
@[simp] theorem setLane_tel (p l : Nat) (x : LaneS) : (s.setLane p l x).tel = s.tel := (rfl)
@[simp] theorem setLane_bind (p l : Nat) (x : LaneS) : (s.setLane p l x).bind = s.bind := (rfl)
@[simp] theorem setLane_home (p l : Nat) (x : LaneS) : (s.setLane p l x).home = s.home := (rfl)
@[simp] theorem setLane_hmp (p l : Nat) (x : LaneS) : (s.setLane p l x).hmp = s.hmp := (rfl)
@[simp] theorem setLane_hbm (p l : Nat) (x : LaneS) : (s.setLane p l x).hbm = s.hbm := (rfl)
@[simp] theorem setLane_qos (p l : Nat) (x : LaneS) : (s.setLane p l x).qos = s.qos := (rfl)
@[simp] theorem setLane_eng (p l : Nat) (x : LaneS) : (s.setLane p l x).eng = s.eng := (rfl)
@[simp] theorem setLane_lnk (p l : Nat) (x : LaneS) : (s.setLane p l x).lnk = s.lnk := (rfl)
@[simp] theorem setLane_cxl (p l : Nat) (x : LaneS) : (s.setLane p l x).cxl = s.cxl := (rfl)
@[simp] theorem setLane_pwr (p l : Nat) (x : LaneS) : (s.setLane p l x).pwr = s.pwr := (rfl)

/-! ### setCxp -/

@[simp] theorem setCxp_pending (p : Nat) (x : CxPort) : (s.setCxp p x).pending = s.pending := (rfl)
@[simp] theorem setCxp_out (p : Nat) (x : CxPort) : (s.setCxp p x).out = s.out := (rfl)
@[simp] theorem setCxp_regs (p : Nat) (x : CxPort) : (s.setCxp p x).regs = s.regs := (rfl)
@[simp] theorem setCxp_free (p : Nat) (x : CxPort) : (s.setCxp p x).free = s.free := (rfl)
@[simp] theorem setCxp_tick (p : Nat) (x : CxPort) : (s.setCxp p x).tick = s.tick := (rfl)
@[simp] theorem setCxp_ev (p : Nat) (x : CxPort) : (s.setCxp p x).ev = s.ev := (rfl)
@[simp] theorem setCxp_nalug (p : Nat) (x : CxPort) : (s.setCxp p x).nalug = s.nalug := (rfl)
@[simp] theorem setCxp_mgmt (p : Nat) (x : CxPort) : (s.setCxp p x).mgmt = s.mgmt := (rfl)
@[simp] theorem setCxp_clk (p : Nat) (x : CxPort) : (s.setCxp p x).clk = s.clk := (rfl)
@[simp] theorem setCxp_tel (p : Nat) (x : CxPort) : (s.setCxp p x).tel = s.tel := (rfl)
@[simp] theorem setCxp_bind (p : Nat) (x : CxPort) : (s.setCxp p x).bind = s.bind := (rfl)
@[simp] theorem setCxp_home (p : Nat) (x : CxPort) : (s.setCxp p x).home = s.home := (rfl)
@[simp] theorem setCxp_hmp (p : Nat) (x : CxPort) : (s.setCxp p x).hmp = s.hmp := (rfl)
@[simp] theorem setCxp_hbm (p : Nat) (x : CxPort) : (s.setCxp p x).hbm = s.hbm := (rfl)
@[simp] theorem setCxp_qos (p : Nat) (x : CxPort) : (s.setCxp p x).qos = s.qos := (rfl)
@[simp] theorem setCxp_eng (p : Nat) (x : CxPort) : (s.setCxp p x).eng = s.eng := (rfl)
@[simp] theorem setCxp_lnk (p : Nat) (x : CxPort) : (s.setCxp p x).lnk = s.lnk := (rfl)
@[simp] theorem setCxp_lane (p : Nat) (x : CxPort) : (s.setCxp p x).lane = s.lane := (rfl)
@[simp] theorem setCxp_pwr (p : Nat) (x : CxPort) : (s.setCxp p x).pwr = s.pwr := (rfl)

/-! ### setInst -/

@[simp] theorem setInst_pending (i : Nat) (x : Inst) : (s.setInst i x).pending = s.pending := (rfl)
@[simp] theorem setInst_out (i : Nat) (x : Inst) : (s.setInst i x).out = s.out := (rfl)
@[simp] theorem setInst_regs (i : Nat) (x : Inst) : (s.setInst i x).regs = s.regs := (rfl)
@[simp] theorem setInst_free (i : Nat) (x : Inst) : (s.setInst i x).free = s.free := (rfl)
@[simp] theorem setInst_tick (i : Nat) (x : Inst) : (s.setInst i x).tick = s.tick := (rfl)
@[simp] theorem setInst_ev (i : Nat) (x : Inst) : (s.setInst i x).ev = s.ev := (rfl)
@[simp] theorem setInst_nalug (i : Nat) (x : Inst) : (s.setInst i x).nalug = s.nalug := (rfl)
@[simp] theorem setInst_mgmt (i : Nat) (x : Inst) : (s.setInst i x).mgmt = s.mgmt := (rfl)
@[simp] theorem setInst_clk (i : Nat) (x : Inst) : (s.setInst i x).clk = s.clk := (rfl)
@[simp] theorem setInst_tel (i : Nat) (x : Inst) : (s.setInst i x).tel = s.tel := (rfl)
@[simp] theorem setInst_bind (i : Nat) (x : Inst) : (s.setInst i x).bind = s.bind := (rfl)
@[simp] theorem setInst_home (i : Nat) (x : Inst) : (s.setInst i x).home = s.home := (rfl)
@[simp] theorem setInst_hmp (i : Nat) (x : Inst) : (s.setInst i x).hmp = s.hmp := (rfl)
@[simp] theorem setInst_hbm (i : Nat) (x : Inst) : (s.setInst i x).hbm = s.hbm := (rfl)
@[simp] theorem setInst_qos (i : Nat) (x : Inst) : (s.setInst i x).qos = s.qos := (rfl)
@[simp] theorem setInst_lnk (i : Nat) (x : Inst) : (s.setInst i x).lnk = s.lnk := (rfl)
@[simp] theorem setInst_cxl (i : Nat) (x : Inst) : (s.setInst i x).cxl = s.cxl := (rfl)
@[simp] theorem setInst_lane (i : Nat) (x : Inst) : (s.setInst i x).lane = s.lane := (rfl)
@[simp] theorem setInst_pwr (i : Nat) (x : Inst) : (s.setInst i x).pwr = s.pwr := (rfl)

/-! ### setSlice -/

@[simp] theorem setSlice_pending (n : Nat) (x : Slice) : (s.setSlice n x).pending = s.pending := (rfl)
@[simp] theorem setSlice_out (n : Nat) (x : Slice) : (s.setSlice n x).out = s.out := (rfl)
@[simp] theorem setSlice_regs (n : Nat) (x : Slice) : (s.setSlice n x).regs = s.regs := (rfl)
@[simp] theorem setSlice_free (n : Nat) (x : Slice) : (s.setSlice n x).free = s.free := (rfl)
@[simp] theorem setSlice_tick (n : Nat) (x : Slice) : (s.setSlice n x).tick = s.tick := (rfl)
@[simp] theorem setSlice_ev (n : Nat) (x : Slice) : (s.setSlice n x).ev = s.ev := (rfl)
@[simp] theorem setSlice_nalug (n : Nat) (x : Slice) : (s.setSlice n x).nalug = s.nalug := (rfl)
@[simp] theorem setSlice_mgmt (n : Nat) (x : Slice) : (s.setSlice n x).mgmt = s.mgmt := (rfl)
@[simp] theorem setSlice_clk (n : Nat) (x : Slice) : (s.setSlice n x).clk = s.clk := (rfl)
@[simp] theorem setSlice_tel (n : Nat) (x : Slice) : (s.setSlice n x).tel = s.tel := (rfl)
@[simp] theorem setSlice_home (n : Nat) (x : Slice) : (s.setSlice n x).home = s.home := (rfl)
@[simp] theorem setSlice_hmp (n : Nat) (x : Slice) : (s.setSlice n x).hmp = s.hmp := (rfl)
@[simp] theorem setSlice_hbm (n : Nat) (x : Slice) : (s.setSlice n x).hbm = s.hbm := (rfl)
@[simp] theorem setSlice_qos (n : Nat) (x : Slice) : (s.setSlice n x).qos = s.qos := (rfl)
@[simp] theorem setSlice_eng (n : Nat) (x : Slice) : (s.setSlice n x).eng = s.eng := (rfl)
@[simp] theorem setSlice_lnk (n : Nat) (x : Slice) : (s.setSlice n x).lnk = s.lnk := (rfl)
@[simp] theorem setSlice_cxl (n : Nat) (x : Slice) : (s.setSlice n x).cxl = s.cxl := (rfl)
@[simp] theorem setSlice_lane (n : Nat) (x : Slice) : (s.setSlice n x).lane = s.lane := (rfl)
@[simp] theorem setSlice_pwr (n : Nat) (x : Slice) : (s.setSlice n x).pwr = s.pwr := (rfl)

/-! ### setDom -/

@[simp] theorem setDom_pending (n : Nat) (x : Dom) : (s.setDom n x).pending = s.pending := (rfl)
@[simp] theorem setDom_out (n : Nat) (x : Dom) : (s.setDom n x).out = s.out := (rfl)
@[simp] theorem setDom_regs (n : Nat) (x : Dom) : (s.setDom n x).regs = s.regs := (rfl)
@[simp] theorem setDom_free (n : Nat) (x : Dom) : (s.setDom n x).free = s.free := (rfl)
@[simp] theorem setDom_tick (n : Nat) (x : Dom) : (s.setDom n x).tick = s.tick := (rfl)
@[simp] theorem setDom_ev (n : Nat) (x : Dom) : (s.setDom n x).ev = s.ev := (rfl)
@[simp] theorem setDom_nalug (n : Nat) (x : Dom) : (s.setDom n x).nalug = s.nalug := (rfl)
@[simp] theorem setDom_mgmt (n : Nat) (x : Dom) : (s.setDom n x).mgmt = s.mgmt := (rfl)
@[simp] theorem setDom_clk (n : Nat) (x : Dom) : (s.setDom n x).clk = s.clk := (rfl)
@[simp] theorem setDom_tel (n : Nat) (x : Dom) : (s.setDom n x).tel = s.tel := (rfl)
@[simp] theorem setDom_home (n : Nat) (x : Dom) : (s.setDom n x).home = s.home := (rfl)
@[simp] theorem setDom_hmp (n : Nat) (x : Dom) : (s.setDom n x).hmp = s.hmp := (rfl)
@[simp] theorem setDom_hbm (n : Nat) (x : Dom) : (s.setDom n x).hbm = s.hbm := (rfl)
@[simp] theorem setDom_qos (n : Nat) (x : Dom) : (s.setDom n x).qos = s.qos := (rfl)
@[simp] theorem setDom_eng (n : Nat) (x : Dom) : (s.setDom n x).eng = s.eng := (rfl)
@[simp] theorem setDom_lnk (n : Nat) (x : Dom) : (s.setDom n x).lnk = s.lnk := (rfl)
@[simp] theorem setDom_cxl (n : Nat) (x : Dom) : (s.setDom n x).cxl = s.cxl := (rfl)
@[simp] theorem setDom_lane (n : Nat) (x : Dom) : (s.setDom n x).lane = s.lane := (rfl)
@[simp] theorem setDom_pwr (n : Nat) (x : Dom) : (s.setDom n x).pwr = s.pwr := (rfl)

/-! ### setCoh -/

@[simp] theorem setCoh_pending (d : Nat) (x : DomCoh) : (s.setCoh d x).pending = s.pending := (rfl)
@[simp] theorem setCoh_out (d : Nat) (x : DomCoh) : (s.setCoh d x).out = s.out := (rfl)
@[simp] theorem setCoh_regs (d : Nat) (x : DomCoh) : (s.setCoh d x).regs = s.regs := (rfl)
@[simp] theorem setCoh_free (d : Nat) (x : DomCoh) : (s.setCoh d x).free = s.free := (rfl)
@[simp] theorem setCoh_tick (d : Nat) (x : DomCoh) : (s.setCoh d x).tick = s.tick := (rfl)
@[simp] theorem setCoh_ev (d : Nat) (x : DomCoh) : (s.setCoh d x).ev = s.ev := (rfl)
@[simp] theorem setCoh_nalug (d : Nat) (x : DomCoh) : (s.setCoh d x).nalug = s.nalug := (rfl)
@[simp] theorem setCoh_mgmt (d : Nat) (x : DomCoh) : (s.setCoh d x).mgmt = s.mgmt := (rfl)
@[simp] theorem setCoh_clk (d : Nat) (x : DomCoh) : (s.setCoh d x).clk = s.clk := (rfl)
@[simp] theorem setCoh_tel (d : Nat) (x : DomCoh) : (s.setCoh d x).tel = s.tel := (rfl)
@[simp] theorem setCoh_bind (d : Nat) (x : DomCoh) : (s.setCoh d x).bind = s.bind := (rfl)
@[simp] theorem setCoh_hmp (d : Nat) (x : DomCoh) : (s.setCoh d x).hmp = s.hmp := (rfl)
@[simp] theorem setCoh_hbm (d : Nat) (x : DomCoh) : (s.setCoh d x).hbm = s.hbm := (rfl)
@[simp] theorem setCoh_qos (d : Nat) (x : DomCoh) : (s.setCoh d x).qos = s.qos := (rfl)
@[simp] theorem setCoh_eng (d : Nat) (x : DomCoh) : (s.setCoh d x).eng = s.eng := (rfl)
@[simp] theorem setCoh_lnk (d : Nat) (x : DomCoh) : (s.setCoh d x).lnk = s.lnk := (rfl)
@[simp] theorem setCoh_cxl (d : Nat) (x : DomCoh) : (s.setCoh d x).cxl = s.cxl := (rfl)
@[simp] theorem setCoh_lane (d : Nat) (x : DomCoh) : (s.setCoh d x).lane = s.lane := (rfl)
@[simp] theorem setCoh_pwr (d : Nat) (x : DomCoh) : (s.setCoh d x).pwr = s.pwr := (rfl)

/-! ### setTrk -/

@[simp] theorem setTrk_pending (k : Nat) (t : Trk) : (s.setTrk k t).pending = s.pending := (rfl)
@[simp] theorem setTrk_out (k : Nat) (t : Trk) : (s.setTrk k t).out = s.out := (rfl)
@[simp] theorem setTrk_regs (k : Nat) (t : Trk) : (s.setTrk k t).regs = s.regs := (rfl)
@[simp] theorem setTrk_free (k : Nat) (t : Trk) : (s.setTrk k t).free = s.free := (rfl)
@[simp] theorem setTrk_tick (k : Nat) (t : Trk) : (s.setTrk k t).tick = s.tick := (rfl)
@[simp] theorem setTrk_ev (k : Nat) (t : Trk) : (s.setTrk k t).ev = s.ev := (rfl)
@[simp] theorem setTrk_nalug (k : Nat) (t : Trk) : (s.setTrk k t).nalug = s.nalug := (rfl)
@[simp] theorem setTrk_mgmt (k : Nat) (t : Trk) : (s.setTrk k t).mgmt = s.mgmt := (rfl)
@[simp] theorem setTrk_clk (k : Nat) (t : Trk) : (s.setTrk k t).clk = s.clk := (rfl)
@[simp] theorem setTrk_tel (k : Nat) (t : Trk) : (s.setTrk k t).tel = s.tel := (rfl)
@[simp] theorem setTrk_bind (k : Nat) (t : Trk) : (s.setTrk k t).bind = s.bind := (rfl)
@[simp] theorem setTrk_hmp (k : Nat) (t : Trk) : (s.setTrk k t).hmp = s.hmp := (rfl)
@[simp] theorem setTrk_hbm (k : Nat) (t : Trk) : (s.setTrk k t).hbm = s.hbm := (rfl)
@[simp] theorem setTrk_qos (k : Nat) (t : Trk) : (s.setTrk k t).qos = s.qos := (rfl)
@[simp] theorem setTrk_eng (k : Nat) (t : Trk) : (s.setTrk k t).eng = s.eng := (rfl)
@[simp] theorem setTrk_lnk (k : Nat) (t : Trk) : (s.setTrk k t).lnk = s.lnk := (rfl)
@[simp] theorem setTrk_cxl (k : Nat) (t : Trk) : (s.setTrk k t).cxl = s.cxl := (rfl)
@[simp] theorem setTrk_lane (k : Nat) (t : Trk) : (s.setTrk k t).lane = s.lane := (rfl)
@[simp] theorem setTrk_pwr (k : Nat) (t : Trk) : (s.setTrk k t).pwr = s.pwr := (rfl)

/-! ### setQueue -/

@[simp] theorem setQueue_pending (q : Nat) (l : List TMsg) : (s.setQueue q l).pending = s.pending := (rfl)
@[simp] theorem setQueue_out (q : Nat) (l : List TMsg) : (s.setQueue q l).out = s.out := (rfl)
@[simp] theorem setQueue_regs (q : Nat) (l : List TMsg) : (s.setQueue q l).regs = s.regs := (rfl)
@[simp] theorem setQueue_free (q : Nat) (l : List TMsg) : (s.setQueue q l).free = s.free := (rfl)
@[simp] theorem setQueue_tick (q : Nat) (l : List TMsg) : (s.setQueue q l).tick = s.tick := (rfl)
@[simp] theorem setQueue_ev (q : Nat) (l : List TMsg) : (s.setQueue q l).ev = s.ev := (rfl)
@[simp] theorem setQueue_nalug (q : Nat) (l : List TMsg) : (s.setQueue q l).nalug = s.nalug := (rfl)
@[simp] theorem setQueue_mgmt (q : Nat) (l : List TMsg) : (s.setQueue q l).mgmt = s.mgmt := (rfl)
@[simp] theorem setQueue_clk (q : Nat) (l : List TMsg) : (s.setQueue q l).clk = s.clk := (rfl)
@[simp] theorem setQueue_tel (q : Nat) (l : List TMsg) : (s.setQueue q l).tel = s.tel := (rfl)
@[simp] theorem setQueue_bind (q : Nat) (l : List TMsg) : (s.setQueue q l).bind = s.bind := (rfl)
@[simp] theorem setQueue_home (q : Nat) (l : List TMsg) : (s.setQueue q l).home = s.home := (rfl)
@[simp] theorem setQueue_hmp (q : Nat) (l : List TMsg) : (s.setQueue q l).hmp = s.hmp := (rfl)
@[simp] theorem setQueue_qos (q : Nat) (l : List TMsg) : (s.setQueue q l).qos = s.qos := (rfl)
@[simp] theorem setQueue_eng (q : Nat) (l : List TMsg) : (s.setQueue q l).eng = s.eng := (rfl)
@[simp] theorem setQueue_lnk (q : Nat) (l : List TMsg) : (s.setQueue q l).lnk = s.lnk := (rfl)
@[simp] theorem setQueue_cxl (q : Nat) (l : List TMsg) : (s.setQueue q l).cxl = s.cxl := (rfl)
@[simp] theorem setQueue_lane (q : Nat) (l : List TMsg) : (s.setQueue q l).lane = s.lane := (rfl)
@[simp] theorem setQueue_pwr (q : Nat) (l : List TMsg) : (s.setQueue q l).pwr = s.pwr := (rfl)

/-! ### setK -/

@[simp] theorem setK_pending (k : Nat) : (s.setK k).pending = s.pending := by simp [State.setK]
@[simp] theorem setK_out (k : Nat) : (s.setK k).out = s.out := by simp [State.setK]
@[simp] theorem setK_free (k : Nat) : (s.setK k).free = s.free := by simp [State.setK]
@[simp] theorem setK_tick (k : Nat) : (s.setK k).tick = s.tick := by simp [State.setK]
@[simp] theorem setK_ev (k : Nat) : (s.setK k).ev = s.ev := by simp [State.setK]
@[simp] theorem setK_nalug (k : Nat) : (s.setK k).nalug = s.nalug := by simp [State.setK]
@[simp] theorem setK_mgmt (k : Nat) : (s.setK k).mgmt = s.mgmt := by simp [State.setK]
@[simp] theorem setK_clk (k : Nat) : (s.setK k).clk = s.clk := by simp [State.setK]
@[simp] theorem setK_tel (k : Nat) : (s.setK k).tel = s.tel := by simp [State.setK]
@[simp] theorem setK_bind (k : Nat) : (s.setK k).bind = s.bind := by simp [State.setK]
@[simp] theorem setK_home (k : Nat) : (s.setK k).home = s.home := by simp [State.setK]
@[simp] theorem setK_hmp (k : Nat) : (s.setK k).hmp = s.hmp := by simp [State.setK]
@[simp] theorem setK_hbm (k : Nat) : (s.setK k).hbm = s.hbm := by simp [State.setK]
@[simp] theorem setK_qos (k : Nat) : (s.setK k).qos = s.qos := by simp [State.setK]
@[simp] theorem setK_eng (k : Nat) : (s.setK k).eng = s.eng := by simp [State.setK]
@[simp] theorem setK_lnk (k : Nat) : (s.setK k).lnk = s.lnk := by simp [State.setK]
@[simp] theorem setK_cxl (k : Nat) : (s.setK k).cxl = s.cxl := by simp [State.setK]
@[simp] theorem setK_lane (k : Nat) : (s.setK k).lane = s.lane := by simp [State.setK]
@[simp] theorem setK_pwr (k : Nat) : (s.setK k).pwr = s.pwr := by simp [State.setK]

end Sys2Proof.Machine
end

