-- ==== Sys2Proof/Laws/Tables.lean ====
section
/-! SUPPORT. Laws of the sparse tables: a read after a write, the canonical form, bytes and bit fields. -/

namespace Sys2Proof.Machine

variable {α : Type}

/-! ### Reading after writing -/

theorem tget_tins_self (d : α) (t : Tab α) (k : Nat) (v : α) : tget d (tins t k v) k = v := by
  induction t with
  | nil => simp [tins, tget]
  | cons e r ih =>
    obtain ⟨j, w⟩ := e
    simp only [tins]
    split
    · simp [tget]
    · split
      · simp [tget]
      · next h => simp [tget, Ne.symm h, ih]

theorem tget_tins_ne (d : α) (t : Tab α) {k j : Nat} (v : α) (h : j ≠ k) : tget d (tins t k v) j = tget d t j := by
  induction t with
  | nil => simp [tins, tget, Ne.symm h]
  | cons e r ih =>
    obtain ⟨i, w⟩ := e
    simp only [tins]
    split
    · simp [tget, Ne.symm h]
    · split
      · next hk => subst hk; simp [tget, Ne.symm h]
      · simp only [tget, ih]

theorem tget_tdel_self (d : α) (t : Tab α) (k : Nat) : tget d (tdel t k) k = d := by
  induction t with
  | nil => rfl
  | cons e r ih =>
    obtain ⟨j, w⟩ := e
    simp only [tdel] at ih ⊢
    by_cases h : j = k
    · simp [List.filter_cons, h, ih]
    · simp [List.filter_cons, h, tget, ih]

theorem tget_tdel_ne (d : α) (t : Tab α) {k j : Nat} (h : j ≠ k) : tget d (tdel t k) j = tget d t j := by
  induction t with
  | nil => rfl
  | cons e r ih =>
    obtain ⟨i, w⟩ := e
    simp only [tdel] at ih ⊢
    by_cases hk : i = k
    · have : i ≠ j := fun x => h (x.symm.trans hk)
      simp [List.filter_cons, hk, tget, ih, Ne.symm h]
    · simp [List.filter_cons, hk, tget, ih]

@[simp] theorem tget_tput_self [DecidableEq α] (d : α) (t : Tab α) (k : Nat) (v : α) : tget d (tput d t k v) k = v := by
  unfold tput
  split
  · next h => rw [tget_tdel_self, h]
  · exact tget_tins_self d t k v

theorem tget_tput_ne [DecidableEq α] (d : α) (e : α) (t : Tab α) {k j : Nat} (v : α) (h : j ≠ k) :
    tget e (tput d t k v) j = tget e t j := by
  unfold tput
  split
  · exact tget_tdel_ne e t h
  · exact tget_tins_ne e t v h

@[simp] theorem tfind_tins_self (t : Tab α) (k : Nat) (v : α) : tfind (tins t k v) k = some v := by
  induction t with
  | nil => simp [tins, tfind]
  | cons e r ih =>
    obtain ⟨j, w⟩ := e
    simp only [tins]
    split
    · simp [tfind]
    · split
      · simp [tfind]
      · next h => simp [tfind, Ne.symm h, ih]

theorem tfind_tins_ne (t : Tab α) {k j : Nat} (v : α) (h : j ≠ k) : tfind (tins t k v) j = tfind t j := by
  induction t with
  | nil => simp [tins, tfind, Ne.symm h]
  | cons e r ih =>
    obtain ⟨i, w⟩ := e
    simp only [tins]
    split
    · simp [tfind, Ne.symm h]
    · split
      · next hk => subst hk; simp [tfind, Ne.symm h]
      · simp only [tfind, ih]

@[simp] theorem tfind_tdel_self (t : Tab α) (k : Nat) : tfind (tdel t k) k = none := by
  induction t with
  | nil => rfl
  | cons e r ih =>
    obtain ⟨j, w⟩ := e
    simp only [tdel] at ih ⊢
    by_cases h : j = k
    · simp [List.filter_cons, h, ih]
    · simp [List.filter_cons, h, tfind, ih]

theorem tfind_tdel_ne (t : Tab α) {k j : Nat} (h : j ≠ k) : tfind (tdel t k) j = tfind t j := by
  induction t with
  | nil => rfl
  | cons e r ih =>
    obtain ⟨i, w⟩ := e
    simp only [tdel] at ih ⊢
    by_cases hk : i = k
    · have : i ≠ j := fun x => h (x.symm.trans hk)
      simp [List.filter_cons, hk, tfind, ih, Ne.symm h]
    · simp [List.filter_cons, hk, tfind, ih]

/-! ### The canonical form -/

theorem risesFrom_weaken {lo k : Nat} {t : Tab α} (h : lo ≤ k) (ht : risesFrom (some k) t = true) :
    risesFrom (some lo) t = true := by
  cases t with
  | nil => rfl
  | cons e r =>
    obtain ⟨j, w⟩ := e
    simp only [risesFrom, Bool.and_eq_true, decide_eq_true_eq] at ht ⊢
    exact ⟨by omega, ht.2⟩

theorem risesFrom_tins {lo k : Nat} {t : Tab α} {v : α} (hk : lo < k) (ht : risesFrom (some lo) t = true) :
    risesFrom (some lo) (tins t k v) = true := by
  induction t generalizing lo with
  | nil => simp [tins, risesFrom, hk]
  | cons e r ih =>
    obtain ⟨j, w⟩ := e
    simp only [risesFrom, Bool.and_eq_true, decide_eq_true_eq] at ht
    simp only [tins]
    split
    · simp [risesFrom, *]
    · split
      · next h => subst h; simp [risesFrom, *]
      · have := ih (lo := j) (by omega) ht.2
        simp [risesFrom, ht.1, this]

theorem risesFrom_filter {lo : Nat} {t : Tab α} (p : Nat × α → Bool) (ht : risesFrom (some lo) t = true) :
    risesFrom (some lo) (t.filter p) = true := by
  induction t generalizing lo with
  | nil => rfl
  | cons e r ih =>
    obtain ⟨j, w⟩ := e
    simp only [risesFrom, Bool.and_eq_true, decide_eq_true_eq] at ht
    simp only [List.filter]
    split
    · simp [risesFrom, ht.1, ih ht.2]
    · exact ih (risesFrom_weaken (by omega) ht.2)

/-- Inserting keeps the canonical form. -/
theorem tabWf_tins {t : Tab α} (k : Nat) (v : α) (ht : tabWf t = true) : tabWf (tins t k v) = true := by
  cases t with
  | nil => rfl
  | cons e r =>
    obtain ⟨j, w⟩ := e
    simp only [tabWf, risesFrom] at ht ⊢
    simp only [tins]
    split
    · simp [risesFrom, *]
    · split
      · next h => subst h; simpa [risesFrom] using ht
      · simpa [risesFrom] using risesFrom_tins (v := v) (by omega) ht

/-- Removing entries keeps the canonical form. -/
theorem tabWf_filter {t : Tab α} (p : Nat × α → Bool) (ht : tabWf t = true) : tabWf (t.filter p) = true := by
  induction t with
  | nil => rfl
  | cons e r ih =>
    obtain ⟨j, w⟩ := e
    simp only [tabWf, risesFrom] at ht ih ⊢
    simp only [List.filter]
    split
    · simpa [risesFrom] using risesFrom_filter p ht
    · cases r with
      | nil => rfl
      | cons e' r' =>
        obtain ⟨j', w'⟩ := e'
        simp only [risesFrom, Bool.and_eq_true, decide_eq_true_eq] at ht
        exact ih (by simpa [risesFrom] using ht.2)

/-- Writing keeps the canonical form. -/
theorem tabWf_tput [DecidableEq α] {t : Tab α} (d : α) (k : Nat) (v : α) (ht : tabWf t = true) :
    tabWf (tput d t k v) = true := by
  unfold tput
  split
  · exact tabWf_filter _ ht
  · exact tabWf_tins k v ht

/-! ### Bytes and bit fields -/

theorem byteAt_lt (b : List Byte) (i : Nat) : byteAt b i < 256 := (b.getD i 0).isLt

theorem leAt_lt (b : List Byte) (i n : Nat) : leAt b i n < 256 ^ n := by
  induction n generalizing i with
  | zero => simp [leAt]
  | succ n ih =>
    have h1 := byteAt_lt b i
    have h2 := ih (i + 1)
    rw [leAt, Nat.pow_succ]
    omega

@[simp] theorem toLe_length (n v : Nat) : (toLe n v).length = n := by
  induction n generalizing v with
  | zero => rfl
  | succ n ih => simp [toLe, ih]

theorem bits_lt (w : Word) (lo n : Nat) : bits w lo n < 2 ^ n := Nat.mod_lt _ (Nat.two_pow_pos n)

end Sys2Proof.Machine
end

