-- ==== Sys2Proof/Laws/Registers.lean ====
section
/-! SUPPORT. Laws of the register operations: a register after a write, and every other register. -/

namespace Sys2Proof.Machine

variable (s : State)

@[simp] theorem reg_setReg_self (o : Nat) (v : Word) : (s.setReg o v).reg o = v := by
  simp [State.reg, State.setReg]

theorem reg_setReg_ne {o j : Nat} (v : Word) (h : j ≠ o) : (s.setReg o v).reg j = s.reg j := by
  simp [State.reg, State.setReg, tget_tput_ne _ _ _ _ h]

theorem reg_setReg (o j : Nat) (v : Word) : (s.setReg o v).reg j = if j = o then v else s.reg j := by
  split
  · next h => rw [h, reg_setReg_self]
  · next h => exact reg_setReg_ne s v h

/-- A register depends on the register table alone. -/
theorem reg_congr {s t : State} (h : t.regs = s.regs) (o : Nat) : t.reg o = s.reg o := by
  simp [State.reg, h]

theorem reg_setN (o j v : Nat) : (s.setN o v).reg j = if j = o then BitVec.ofNat 32 v else s.reg j := reg_setReg s o j _

theorem reg_setFld (o lo n v j : Nat) : (s.setFld o lo n v).reg j = if j = o then putBits (s.reg o) lo n v else s.reg j :=
  reg_setReg s o j _

theorem reg_setBit (o i j : Nat) (b : Bool) :
    (s.setBit o i b).reg j = if j = o then putBits (s.reg o) i 1 (b2n b) else s.reg j := reg_setFld s o i 1 _ j

theorem reg_set64 (o v j : Nat) : (s.set64 o v).reg j =
    if j = o + 4 then BitVec.ofNat 32 (v / 2 ^ 32) else if j = o then BitVec.ofNat 32 v else s.reg j := by
  simp only [State.set64, reg_setN]

theorem reg_cnt (o k j : Nat) : (s.cnt o k).reg j =
    if j = o then BitVec.ofNat 32 (min ((s.reg o).toNat + k) (2 ^ 32 - 1)) else s.reg j := reg_setN s o j _

/-! ### Fields -/

theorem putBits_toNat (w : Word) (lo n v : Nat) (h : lo + n ≤ 32) :
    (putBits w lo n v).toNat = w.toNat - bits w lo n * 2 ^ lo + v % 2 ^ n * 2 ^ lo := by
  have hw := w.isLt
  have hv : v % 2 ^ n < 2 ^ n := Nat.mod_lt _ (Nat.two_pow_pos n)
  have hp : (2:Nat) ^ 32 = 2 ^ (32 - lo - n) * (2 ^ n * 2 ^ lo) := by
    rw [← Nat.pow_add, ← Nat.pow_add]; congr 1; omega
  simp only [putBits, BitVec.toNat_ofNat]
  apply Nat.mod_eq_of_lt
  have e1 : w.toNat = w.toNat / 2 ^ lo * 2 ^ lo + w.toNat % 2 ^ lo := (Nat.div_add_mod' _ _).symm
  have e2 : w.toNat / 2 ^ lo = w.toNat / 2 ^ lo / 2 ^ n * 2 ^ n + bits w lo n := by
    simp only [bits]; exact (Nat.div_add_mod' _ _).symm
  generalize hb : bits w lo n = b at *
  generalize hq : w.toNat / 2 ^ lo / 2 ^ n = a at *
  have hl : w.toNat % 2 ^ lo < 2 ^ lo := Nat.mod_lt _ (Nat.two_pow_pos lo)
  generalize hm : w.toNat % 2 ^ lo = m at *
  have e3 : w.toNat = a * (2 ^ n * 2 ^ lo) + b * 2 ^ lo + m := by
    rw [e1, e2]; ring
  have ha : a < 2 ^ (32 - lo - n) := by
    by_contra hge
    have : 2 ^ (32 - lo - n) * (2 ^ n * 2 ^ lo) ≤ a * (2 ^ n * 2 ^ lo) := Nat.mul_le_mul_right _ (by omega)
    omega
  have h4 : (a + 1) * (2 ^ n * 2 ^ lo) ≤ 2 ^ (32 - lo - n) * (2 ^ n * 2 ^ lo) := Nat.mul_le_mul_right _ (by omega)
  have h5 : (v % 2 ^ n + 1) * 2 ^ lo ≤ 2 ^ n * 2 ^ lo := Nat.mul_le_mul_right _ (by omega)
  have h6 : (a + 1) * (2 ^ n * 2 ^ lo) = a * (2 ^ n * 2 ^ lo) + 2 ^ n * 2 ^ lo := by ring
  have h7 : (v % 2 ^ n + 1) * 2 ^ lo = v % 2 ^ n * 2 ^ lo + 2 ^ lo := by ring
  omega

/-- A field after it is written. -/
theorem bits_putBits (w : Word) (lo n v : Nat) (h : lo + n ≤ 32) : bits (putBits w lo n v) lo n = v % 2 ^ n := by
  have e1 : w.toNat = w.toNat / 2 ^ lo * 2 ^ lo + w.toNat % 2 ^ lo := (Nat.div_add_mod' _ _).symm
  have e2 : w.toNat / 2 ^ lo = w.toNat / 2 ^ lo / 2 ^ n * 2 ^ n + bits w lo n := by
    simp only [bits]; exact (Nat.div_add_mod' _ _).symm
  have hl : w.toNat % 2 ^ lo < 2 ^ lo := Nat.mod_lt _ (Nat.two_pow_pos lo)
  have hv : v % 2 ^ n < 2 ^ n := Nat.mod_lt _ (Nat.two_pow_pos n)
  have e3 : (putBits w lo n v).toNat = (w.toNat / 2 ^ lo / 2 ^ n * 2 ^ n + v % 2 ^ n) * 2 ^ lo + w.toNat % 2 ^ lo := by
    rw [putBits_toNat w lo n v h]
    conv => lhs; rw [e1, e2]
    generalize bits w lo n = b
    generalize w.toNat / 2 ^ lo / 2 ^ n = a
    generalize w.toNat % 2 ^ lo = m
    generalize v % 2 ^ n = x
    have : (a * 2 ^ n + b) * 2 ^ lo + m - b * 2 ^ lo = a * 2 ^ n * 2 ^ lo + m := by
      rw [Nat.add_mul]; omega
    rw [this, Nat.add_mul]; omega
  rw [bits, e3, Nat.mul_comm, Nat.mul_add_div (Nat.two_pow_pos lo), Nat.div_eq_of_lt hl, Nat.add_zero,
    Nat.mul_comm, Nat.mul_add_mod, Nat.mod_eq_of_lt hv]

/-- A field that does not overlap the one that is written. -/
theorem bits_putBits_ne (w : Word) (lo n v lo' n' : Nat) (h : lo + n ≤ 32) (hd : lo' + n' ≤ lo ∨ lo + n ≤ lo') :
    bits (putBits w lo n v) lo' n' = bits w lo' n' := by
  have e2 : w.toNat / 2 ^ lo = w.toNat / 2 ^ lo / 2 ^ n * 2 ^ n + bits w lo n := by
    simp only [bits]; exact (Nat.div_add_mod' _ _).symm
  have e1 : w.toNat = w.toNat / 2 ^ lo * 2 ^ lo + w.toNat % 2 ^ lo := (Nat.div_add_mod' _ _).symm
  have hl : w.toNat % 2 ^ lo < 2 ^ lo := Nat.mod_lt _ (Nat.two_pow_pos lo)
  have hb : bits w lo n < 2 ^ n := bits_lt w lo n
  have hv : v % 2 ^ n < 2 ^ n := Nat.mod_lt _ (Nat.two_pow_pos n)
  have e4 := putBits_toNat w lo n v h
  generalize bits w lo n = b at *
  generalize w.toNat / 2 ^ lo / 2 ^ n = a at *
  generalize w.toNat % 2 ^ lo = m at *
  generalize v % 2 ^ n = x at *
  have ew : w.toNat = (a * 2 ^ n + b) * 2 ^ lo + m := by rw [← e2]; exact e1
  have ep : (putBits w lo n v).toNat = (a * 2 ^ n + x) * 2 ^ lo + m := by
    rw [e4, ew, Nat.add_mul, Nat.add_mul]; omega
  simp only [bits, ew, ep]
  rcases hd with hd | hd
  · obtain ⟨c, rfl⟩ : ∃ c, lo = lo' + n' + c := ⟨lo - (lo' + n'), by omega⟩
    have hp : (2:Nat) ^ (lo' + n' + c) = 2 ^ lo' * (2 ^ n' * 2 ^ c) := by rw [Nat.pow_add, Nat.pow_add, Nat.mul_assoc]
    rw [hp]
    have key : ∀ y, (y * (2 ^ lo' * (2 ^ n' * 2 ^ c)) + m) / 2 ^ lo' % 2 ^ n' = m / 2 ^ lo' % 2 ^ n' := by
      intro y
      have : y * (2 ^ lo' * (2 ^ n' * 2 ^ c)) + m = 2 ^ lo' * (2 ^ n' * (y * 2 ^ c)) + m := by ring
      rw [this, Nat.mul_add_div (Nat.two_pow_pos lo'), Nat.mul_add_mod]
    rw [key, key]
  · obtain ⟨c, rfl⟩ : ∃ c, lo' = lo + n + c := ⟨lo' - (lo + n), by omega⟩
    have hp : (2:Nat) ^ (lo + n + c) = 2 ^ lo * (2 ^ n * 2 ^ c) := by rw [Nat.pow_add, Nat.pow_add, Nat.mul_assoc]
    have key : ∀ y, y < 2 ^ n → ((a * 2 ^ n + y) * 2 ^ lo + m) / (2 ^ lo * (2 ^ n * 2 ^ c)) = a / 2 ^ c := by
      intro y hy
      rw [← Nat.div_div_eq_div_mul, Nat.mul_comm _ (2 ^ lo), Nat.mul_add_div (Nat.two_pow_pos lo), Nat.div_eq_of_lt hl,
        Nat.add_zero, ← Nat.div_div_eq_div_mul, Nat.mul_comm a, Nat.mul_add_div (Nat.two_pow_pos n), Nat.div_eq_of_lt hy,
        Nat.add_zero]
    rw [hp, key x hv, key b hb]

theorem fld_setFld_self (o lo n v : Nat) (h : lo + n ≤ 32) : (s.setFld o lo n v).fld o lo n = v % 2 ^ n := by
  simp [State.fld, reg_setFld, bits_putBits _ _ _ _ h]

theorem fld_setFld (o lo n v j lo' n' : Nat) (h : lo + n ≤ 32) (hd : j ≠ o ∨ lo' + n' ≤ lo ∨ lo + n ≤ lo') :
    (s.setFld o lo n v).fld j lo' n' = s.fld j lo' n' := by
  simp only [State.fld, reg_setFld]
  split
  · next he => subst he; exact bits_putBits_ne _ _ _ _ _ _ h (by simpa using hd)
  · rfl

theorem bit_setFld (o lo n v j i : Nat) (h : lo + n ≤ 32) (hd : j ≠ o ∨ i + 1 ≤ lo ∨ lo + n ≤ i) :
    (s.setFld o lo n v).bit j i = s.bit j i := by
  simp only [State.bit, fld_setFld s o lo n v j i 1 h hd]

theorem fld_setBit (o i j lo n : Nat) (b : Bool) (h : i < 32) (hd : j ≠ o ∨ lo + n ≤ i ∨ i + 1 ≤ lo) :
    (s.setBit o i b).fld j lo n = s.fld j lo n := fld_setFld s o i 1 _ j lo n (by omega) hd

theorem bit_setBit (o i j k : Nat) (b : Bool) (h : i < 32) (hd : j ≠ o ∨ k ≠ i) :
    (s.setBit o i b).bit j k = s.bit j k := bit_setFld s o i 1 _ j k (by omega) (by omega)

theorem bit_setBit_self (o i : Nat) (b : Bool) (h : i < 32) : (s.setBit o i b).bit o i = b := by
  have : (s.setBit o i b).fld o i 1 = b2n b % 2 ^ 1 := fld_setFld_self s o i 1 _ (by omega)
  cases b <;> simp [State.bit, this, b2n]

/-! ### Reset values of ranges -/

/-- A row that covers an offset begins at or below it and ends above it. -/
theorem RegRow.covers_bounds {r : RegRow} {q : Nat} (h : r.covers q = true) : r.b ≤ q ∧ q < r.b + r.st * r.n + 4 * r.w := by
  simp only [RegRow.covers, Bool.and_eq_true, decide_eq_true_eq] at h
  obtain ⟨⟨h1, h2⟩, h3⟩ := h
  refine ⟨h1, ?_⟩
  have h4 := Nat.div_add_mod (q - r.b) r.st
  have h5 : r.st * ((q - r.b) / r.st) ≤ r.st * r.n := Nat.mul_le_mul_left _ h2.le
  omega

/-- No global row with a reset value other than 0 lies in a range: every word of the range is 0 at reset. -/
theorem regReset_glob_zero {lo hi o : Nat} (h1 : lo ≤ o) (h2 : o < hi) (h3 : hi ≤ 0x1000000)
    (h : regRows.all (fun r => decide (r.sp ≠ .glob) || decide (r.rst = 0) || decide (hi ≤ r.b) || decide (r.b + r.st * r.n + 4 * r.w ≤ lo)) = true) :
    regReset o = 0 := by
  have hl : locate o = some (.glob, 0, o) := by
    unfold locate; rw [if_neg (by omega), if_neg (by omega), if_neg (by omega)]
  unfold regReset
  simp only [hl, findRow]
  split
  · rename_i r hr
    have hm := List.mem_of_find?_eq_some hr
    have hc := List.find?_some hr
    have hx := List.all_eq_true.mp h r hm
    simp only [Bool.and_eq_true, decide_eq_true_eq] at hc
    have hb := RegRow.covers_bounds hc.2
    simp only [Bool.or_eq_true, decide_eq_true_eq] at hx
    rcases hx with ((hx | hx) | hx) | hx
    · exact absurd hc.1 hx
    · rw [hx]; rfl
    · omega
    · omega
  · rfl

end Sys2Proof.Machine
end

