-- ==== Sys2Proof/Laws/Nalug.lean ====
section
/-! SUPPORT. Laws of events, counters and of the management path that every OP_ command shares. -/

namespace Sys2Proof.Machine

variable (s : State)

/-! ### raise -/

@[simp] theorem raise_pending (code : Nat) (vals : List EvVal) : (s.raise code vals).pending = s.pending := by unfold State.raise; dsimp only; split <;> first | (exact (rfl)) | (exact cnt_pending _ _ _)
@[simp] theorem raise_out (code : Nat) (vals : List EvVal) : (s.raise code vals).out = s.out := by unfold State.raise; dsimp only; split <;> first | (exact (rfl)) | (exact cnt_out _ _ _)
@[simp] theorem raise_free (code : Nat) (vals : List EvVal) : (s.raise code vals).free = s.free := by unfold State.raise; dsimp only; split <;> first | (exact (rfl)) | (exact cnt_free _ _ _)
@[simp] theorem raise_tick (code : Nat) (vals : List EvVal) : (s.raise code vals).tick = s.tick := by unfold State.raise; dsimp only; split <;> first | (exact (rfl)) | (exact cnt_tick _ _ _)
@[simp] theorem raise_nalug (code : Nat) (vals : List EvVal) : (s.raise code vals).nalug = s.nalug := by unfold State.raise; dsimp only; split <;> first | (exact (rfl)) | (exact cnt_nalug _ _ _)
@[simp] theorem raise_mgmt (code : Nat) (vals : List EvVal) : (s.raise code vals).mgmt = s.mgmt := by unfold State.raise; dsimp only; split <;> first | (exact (rfl)) | (exact cnt_mgmt _ _ _)
@[simp] theorem raise_clk (code : Nat) (vals : List EvVal) : (s.raise code vals).clk = s.clk := by unfold State.raise; dsimp only; split <;> first | (exact (rfl)) | (exact cnt_clk _ _ _)
@[simp] theorem raise_tel (code : Nat) (vals : List EvVal) : (s.raise code vals).tel = s.tel := by unfold State.raise; dsimp only; split <;> first | (exact (rfl)) | (exact cnt_tel _ _ _)
@[simp] theorem raise_bind (code : Nat) (vals : List EvVal) : (s.raise code vals).bind = s.bind := by unfold State.raise; dsimp only; split <;> first | (exact (rfl)) | (exact cnt_bind _ _ _)
@[simp] theorem raise_home (code : Nat) (vals : List EvVal) : (s.raise code vals).home = s.home := by unfold State.raise; dsimp only; split <;> first | (exact (rfl)) | (exact cnt_home _ _ _)
@[simp] theorem raise_hmp (code : Nat) (vals : List EvVal) : (s.raise code vals).hmp = s.hmp := by unfold State.raise; dsimp only; split <;> first | (exact (rfl)) | (exact cnt_hmp _ _ _)
@[simp] theorem raise_hbm (code : Nat) (vals : List EvVal) : (s.raise code vals).hbm = s.hbm := by unfold State.raise; dsimp only; split <;> first | (exact (rfl)) | (exact cnt_hbm _ _ _)
@[simp] theorem raise_qos (code : Nat) (vals : List EvVal) : (s.raise code vals).qos = s.qos := by unfold State.raise; dsimp only; split <;> first | (exact (rfl)) | (exact cnt_qos _ _ _)
@[simp] theorem raise_eng (code : Nat) (vals : List EvVal) : (s.raise code vals).eng = s.eng := by unfold State.raise; dsimp only; split <;> first | (exact (rfl)) | (exact cnt_eng _ _ _)
@[simp] theorem raise_lnk (code : Nat) (vals : List EvVal) : (s.raise code vals).lnk = s.lnk := by unfold State.raise; dsimp only; split <;> first | (exact (rfl)) | (exact cnt_lnk _ _ _)
@[simp] theorem raise_cxl (code : Nat) (vals : List EvVal) : (s.raise code vals).cxl = s.cxl := by unfold State.raise; dsimp only; split <;> first | (exact (rfl)) | (exact cnt_cxl _ _ _)
@[simp] theorem raise_lane (code : Nat) (vals : List EvVal) : (s.raise code vals).lane = s.lane := by unfold State.raise; dsimp only; split <;> first | (exact (rfl)) | (exact cnt_lane _ _ _)
@[simp] theorem raise_pwr (code : Nat) (vals : List EvVal) : (s.raise code vals).pwr = s.pwr := by unfold State.raise; dsimp only; split <;> first | (exact (rfl)) | (exact cnt_pwr _ _ _)

/-! ### raiseLim -/

@[simp] theorem raiseLim_pending (code unit : Nat) (vals : List EvVal) : (s.raiseLim code unit vals).pending = s.pending := by unfold State.raiseLim; dsimp only; split <;> first | (exact (rfl)) | (exact raise_pending _ _ _)
@[simp] theorem raiseLim_out (code unit : Nat) (vals : List EvVal) : (s.raiseLim code unit vals).out = s.out := by unfold State.raiseLim; dsimp only; split <;> first | (exact (rfl)) | (exact raise_out _ _ _)
@[simp] theorem raiseLim_free (code unit : Nat) (vals : List EvVal) : (s.raiseLim code unit vals).free = s.free := by unfold State.raiseLim; dsimp only; split <;> first | (exact (rfl)) | (exact raise_free _ _ _)
@[simp] theorem raiseLim_tick (code unit : Nat) (vals : List EvVal) : (s.raiseLim code unit vals).tick = s.tick := by unfold State.raiseLim; dsimp only; split <;> first | (exact (rfl)) | (exact raise_tick _ _ _)
@[simp] theorem raiseLim_nalug (code unit : Nat) (vals : List EvVal) : (s.raiseLim code unit vals).nalug = s.nalug := by unfold State.raiseLim; dsimp only; split <;> first | (exact (rfl)) | (exact raise_nalug _ _ _)
@[simp] theorem raiseLim_mgmt (code unit : Nat) (vals : List EvVal) : (s.raiseLim code unit vals).mgmt = s.mgmt := by unfold State.raiseLim; dsimp only; split <;> first | (exact (rfl)) | (exact raise_mgmt _ _ _)
@[simp] theorem raiseLim_clk (code unit : Nat) (vals : List EvVal) : (s.raiseLim code unit vals).clk = s.clk := by unfold State.raiseLim; dsimp only; split <;> first | (exact (rfl)) | (exact raise_clk _ _ _)
@[simp] theorem raiseLim_tel (code unit : Nat) (vals : List EvVal) : (s.raiseLim code unit vals).tel = s.tel := by unfold State.raiseLim; dsimp only; split <;> first | (exact (rfl)) | (exact raise_tel _ _ _)
@[simp] theorem raiseLim_bind (code unit : Nat) (vals : List EvVal) : (s.raiseLim code unit vals).bind = s.bind := by unfold State.raiseLim; dsimp only; split <;> first | (exact (rfl)) | (exact raise_bind _ _ _)
@[simp] theorem raiseLim_home (code unit : Nat) (vals : List EvVal) : (s.raiseLim code unit vals).home = s.home := by unfold State.raiseLim; dsimp only; split <;> first | (exact (rfl)) | (exact raise_home _ _ _)
@[simp] theorem raiseLim_hmp (code unit : Nat) (vals : List EvVal) : (s.raiseLim code unit vals).hmp = s.hmp := by unfold State.raiseLim; dsimp only; split <;> first | (exact (rfl)) | (exact raise_hmp _ _ _)
@[simp] theorem raiseLim_hbm (code unit : Nat) (vals : List EvVal) : (s.raiseLim code unit vals).hbm = s.hbm := by unfold State.raiseLim; dsimp only; split <;> first | (exact (rfl)) | (exact raise_hbm _ _ _)
@[simp] theorem raiseLim_qos (code unit : Nat) (vals : List EvVal) : (s.raiseLim code unit vals).qos = s.qos := by unfold State.raiseLim; dsimp only; split <;> first | (exact (rfl)) | (exact raise_qos _ _ _)
@[simp] theorem raiseLim_eng (code unit : Nat) (vals : List EvVal) : (s.raiseLim code unit vals).eng = s.eng := by unfold State.raiseLim; dsimp only; split <;> first | (exact (rfl)) | (exact raise_eng _ _ _)
@[simp] theorem raiseLim_lnk (code unit : Nat) (vals : List EvVal) : (s.raiseLim code unit vals).lnk = s.lnk := by unfold State.raiseLim; dsimp only; split <;> first | (exact (rfl)) | (exact raise_lnk _ _ _)
@[simp] theorem raiseLim_cxl (code unit : Nat) (vals : List EvVal) : (s.raiseLim code unit vals).cxl = s.cxl := by unfold State.raiseLim; dsimp only; split <;> first | (exact (rfl)) | (exact raise_cxl _ _ _)
@[simp] theorem raiseLim_lane (code unit : Nat) (vals : List EvVal) : (s.raiseLim code unit vals).lane = s.lane := by unfold State.raiseLim; dsimp only; split <;> first | (exact (rfl)) | (exact raise_lane _ _ _)
@[simp] theorem raiseLim_pwr (code unit : Nat) (vals : List EvVal) : (s.raiseLim code unit vals).pwr = s.pwr := by unfold State.raiseLim; dsimp only; split <;> first | (exact (rfl)) | (exact raise_pwr _ _ _)

/-! ### cnt64 -/

@[simp] theorem cnt64_pending (o k : Nat) : (s.cnt64 o k).pending = s.pending := by simp only [State.cnt64]; split <;> simp
@[simp] theorem cnt64_out (o k : Nat) : (s.cnt64 o k).out = s.out := by simp only [State.cnt64]; split <;> simp
@[simp] theorem cnt64_free (o k : Nat) : (s.cnt64 o k).free = s.free := by simp only [State.cnt64]; split <;> simp
@[simp] theorem cnt64_tick (o k : Nat) : (s.cnt64 o k).tick = s.tick := by simp only [State.cnt64]; split <;> simp
@[simp] theorem cnt64_nalug (o k : Nat) : (s.cnt64 o k).nalug = s.nalug := by simp only [State.cnt64]; split <;> simp
@[simp] theorem cnt64_mgmt (o k : Nat) : (s.cnt64 o k).mgmt = s.mgmt := by simp only [State.cnt64]; split <;> simp
@[simp] theorem cnt64_clk (o k : Nat) : (s.cnt64 o k).clk = s.clk := by simp only [State.cnt64]; split <;> simp
@[simp] theorem cnt64_tel (o k : Nat) : (s.cnt64 o k).tel = s.tel := by simp only [State.cnt64]; split <;> simp
@[simp] theorem cnt64_bind (o k : Nat) : (s.cnt64 o k).bind = s.bind := by simp only [State.cnt64]; split <;> simp
@[simp] theorem cnt64_home (o k : Nat) : (s.cnt64 o k).home = s.home := by simp only [State.cnt64]; split <;> simp
@[simp] theorem cnt64_hmp (o k : Nat) : (s.cnt64 o k).hmp = s.hmp := by simp only [State.cnt64]; split <;> simp
@[simp] theorem cnt64_hbm (o k : Nat) : (s.cnt64 o k).hbm = s.hbm := by simp only [State.cnt64]; split <;> simp
@[simp] theorem cnt64_qos (o k : Nat) : (s.cnt64 o k).qos = s.qos := by simp only [State.cnt64]; split <;> simp
@[simp] theorem cnt64_eng (o k : Nat) : (s.cnt64 o k).eng = s.eng := by simp only [State.cnt64]; split <;> simp
@[simp] theorem cnt64_lnk (o k : Nat) : (s.cnt64 o k).lnk = s.lnk := by simp only [State.cnt64]; split <;> simp
@[simp] theorem cnt64_cxl (o k : Nat) : (s.cnt64 o k).cxl = s.cxl := by simp only [State.cnt64]; split <;> simp
@[simp] theorem cnt64_lane (o k : Nat) : (s.cnt64 o k).lane = s.lane := by simp only [State.cnt64]; split <;> simp
@[simp] theorem cnt64_pwr (o k : Nat) : (s.cnt64 o k).pwr = s.pwr := by simp only [State.cnt64]; split <;> simp

/-! ### journal -/

@[simp] theorem journal_pending (r : JRec) (n : Nat) : (s.journal r n).pending = s.pending := (rfl)
@[simp] theorem journal_out (r : JRec) (n : Nat) : (s.journal r n).out = s.out := (rfl)
@[simp] theorem journal_regs (r : JRec) (n : Nat) : (s.journal r n).regs = s.regs := (rfl)
@[simp] theorem journal_free (r : JRec) (n : Nat) : (s.journal r n).free = s.free := (rfl)
@[simp] theorem journal_tick (r : JRec) (n : Nat) : (s.journal r n).tick = s.tick := (rfl)
@[simp] theorem journal_ev (r : JRec) (n : Nat) : (s.journal r n).ev = s.ev := (rfl)
@[simp] theorem journal_nalug (r : JRec) (n : Nat) : (s.journal r n).nalug = s.nalug := (rfl)
@[simp] theorem journal_clk (r : JRec) (n : Nat) : (s.journal r n).clk = s.clk := (rfl)
@[simp] theorem journal_tel (r : JRec) (n : Nat) : (s.journal r n).tel = s.tel := (rfl)
@[simp] theorem journal_bind (r : JRec) (n : Nat) : (s.journal r n).bind = s.bind := (rfl)
@[simp] theorem journal_home (r : JRec) (n : Nat) : (s.journal r n).home = s.home := (rfl)
@[simp] theorem journal_hmp (r : JRec) (n : Nat) : (s.journal r n).hmp = s.hmp := (rfl)
@[simp] theorem journal_hbm (r : JRec) (n : Nat) : (s.journal r n).hbm = s.hbm := (rfl)
@[simp] theorem journal_qos (r : JRec) (n : Nat) : (s.journal r n).qos = s.qos := (rfl)
@[simp] theorem journal_eng (r : JRec) (n : Nat) : (s.journal r n).eng = s.eng := (rfl)
@[simp] theorem journal_lnk (r : JRec) (n : Nat) : (s.journal r n).lnk = s.lnk := (rfl)
@[simp] theorem journal_cxl (r : JRec) (n : Nat) : (s.journal r n).cxl = s.cxl := (rfl)
@[simp] theorem journal_lane (r : JRec) (n : Nat) : (s.journal r n).lane = s.lane := (rfl)
@[simp] theorem journal_pwr (r : JRec) (n : Nat) : (s.journal r n).pwr = s.pwr := (rfl)

/-! ### journalBegin -/

@[simp] theorem journalBegin_pending (code : Nat) (q : Req) (body : List Byte) : (s.journalBegin code q body).pending = s.pending := by simp only [State.journalBegin]; split <;> simp
@[simp] theorem journalBegin_out (code : Nat) (q : Req) (body : List Byte) : (s.journalBegin code q body).out = s.out := by simp only [State.journalBegin]; split <;> simp
@[simp] theorem journalBegin_regs (code : Nat) (q : Req) (body : List Byte) : (s.journalBegin code q body).regs = s.regs := by simp only [State.journalBegin]; split <;> simp
@[simp] theorem journalBegin_free (code : Nat) (q : Req) (body : List Byte) : (s.journalBegin code q body).free = s.free := by simp only [State.journalBegin]; split <;> simp
@[simp] theorem journalBegin_tick (code : Nat) (q : Req) (body : List Byte) : (s.journalBegin code q body).tick = s.tick := by simp only [State.journalBegin]; split <;> simp
@[simp] theorem journalBegin_ev (code : Nat) (q : Req) (body : List Byte) : (s.journalBegin code q body).ev = s.ev := by simp only [State.journalBegin]; split <;> simp
@[simp] theorem journalBegin_nalug (code : Nat) (q : Req) (body : List Byte) : (s.journalBegin code q body).nalug = s.nalug := by simp only [State.journalBegin]; split <;> simp
@[simp] theorem journalBegin_clk (code : Nat) (q : Req) (body : List Byte) : (s.journalBegin code q body).clk = s.clk := by simp only [State.journalBegin]; split <;> simp
@[simp] theorem journalBegin_tel (code : Nat) (q : Req) (body : List Byte) : (s.journalBegin code q body).tel = s.tel := by simp only [State.journalBegin]; split <;> simp
@[simp] theorem journalBegin_bind (code : Nat) (q : Req) (body : List Byte) : (s.journalBegin code q body).bind = s.bind := by simp only [State.journalBegin]; split <;> simp
@[simp] theorem journalBegin_home (code : Nat) (q : Req) (body : List Byte) : (s.journalBegin code q body).home = s.home := by simp only [State.journalBegin]; split <;> simp
@[simp] theorem journalBegin_hmp (code : Nat) (q : Req) (body : List Byte) : (s.journalBegin code q body).hmp = s.hmp := by simp only [State.journalBegin]; split <;> simp
@[simp] theorem journalBegin_hbm (code : Nat) (q : Req) (body : List Byte) : (s.journalBegin code q body).hbm = s.hbm := by simp only [State.journalBegin]; split <;> simp
@[simp] theorem journalBegin_qos (code : Nat) (q : Req) (body : List Byte) : (s.journalBegin code q body).qos = s.qos := by simp only [State.journalBegin]; split <;> simp
@[simp] theorem journalBegin_eng (code : Nat) (q : Req) (body : List Byte) : (s.journalBegin code q body).eng = s.eng := by simp only [State.journalBegin]; split <;> simp
@[simp] theorem journalBegin_lnk (code : Nat) (q : Req) (body : List Byte) : (s.journalBegin code q body).lnk = s.lnk := by simp only [State.journalBegin]; split <;> simp
@[simp] theorem journalBegin_cxl (code : Nat) (q : Req) (body : List Byte) : (s.journalBegin code q body).cxl = s.cxl := by simp only [State.journalBegin]; split <;> simp
@[simp] theorem journalBegin_lane (code : Nat) (q : Req) (body : List Byte) : (s.journalBegin code q body).lane = s.lane := by simp only [State.journalBegin]; split <;> simp
@[simp] theorem journalBegin_pwr (code : Nat) (q : Req) (body : List Byte) : (s.journalBegin code q body).pwr = s.pwr := by simp only [State.journalBegin]; split <;> simp

/-! ### begun -/

@[simp] theorem begun_pending (code : Nat) (q : Req) (body : List Byte) : (s.begun code q body).pending = s.pending := by simp [State.begun]
@[simp] theorem begun_out (code : Nat) (q : Req) (body : List Byte) : (s.begun code q body).out = s.out := by simp [State.begun]
@[simp] theorem begun_regs (code : Nat) (q : Req) (body : List Byte) : (s.begun code q body).regs = s.regs := by simp [State.begun]
@[simp] theorem begun_free (code : Nat) (q : Req) (body : List Byte) : (s.begun code q body).free = s.free := by simp [State.begun]
@[simp] theorem begun_tick (code : Nat) (q : Req) (body : List Byte) : (s.begun code q body).tick = s.tick := by simp [State.begun]
@[simp] theorem begun_ev (code : Nat) (q : Req) (body : List Byte) : (s.begun code q body).ev = s.ev := by simp [State.begun]
@[simp] theorem begun_clk (code : Nat) (q : Req) (body : List Byte) : (s.begun code q body).clk = s.clk := by simp [State.begun]
@[simp] theorem begun_tel (code : Nat) (q : Req) (body : List Byte) : (s.begun code q body).tel = s.tel := by simp [State.begun]
@[simp] theorem begun_bind (code : Nat) (q : Req) (body : List Byte) : (s.begun code q body).bind = s.bind := by simp [State.begun]
@[simp] theorem begun_home (code : Nat) (q : Req) (body : List Byte) : (s.begun code q body).home = s.home := by simp [State.begun]
@[simp] theorem begun_hmp (code : Nat) (q : Req) (body : List Byte) : (s.begun code q body).hmp = s.hmp := by simp [State.begun]
@[simp] theorem begun_hbm (code : Nat) (q : Req) (body : List Byte) : (s.begun code q body).hbm = s.hbm := by simp [State.begun]
@[simp] theorem begun_qos (code : Nat) (q : Req) (body : List Byte) : (s.begun code q body).qos = s.qos := by simp [State.begun]
@[simp] theorem begun_eng (code : Nat) (q : Req) (body : List Byte) : (s.begun code q body).eng = s.eng := by simp [State.begun]
@[simp] theorem begun_lnk (code : Nat) (q : Req) (body : List Byte) : (s.begun code q body).lnk = s.lnk := by simp [State.begun]
@[simp] theorem begun_cxl (code : Nat) (q : Req) (body : List Byte) : (s.begun code q body).cxl = s.cxl := by simp [State.begun]
@[simp] theorem begun_lane (code : Nat) (q : Req) (body : List Byte) : (s.begun code q body).lane = s.lane := by simp [State.begun]
@[simp] theorem begun_pwr (code : Nat) (q : Req) (body : List Byte) : (s.begun code q body).pwr = s.pwr := by simp [State.begun]

/-! ### journalDone -/

@[simp] theorem journalDone_pending (code : Nat) (src : Src) (seq : BitVec 16) (st : Nat) (b : List Byte) : (s.journalDone code src seq st b).pending = s.pending := by simp only [State.journalDone]; split <;> simp
@[simp] theorem journalDone_out (code : Nat) (src : Src) (seq : BitVec 16) (st : Nat) (b : List Byte) : (s.journalDone code src seq st b).out = s.out := by simp only [State.journalDone]; split <;> simp
@[simp] theorem journalDone_regs (code : Nat) (src : Src) (seq : BitVec 16) (st : Nat) (b : List Byte) : (s.journalDone code src seq st b).regs = s.regs := by simp only [State.journalDone]; split <;> simp
@[simp] theorem journalDone_free (code : Nat) (src : Src) (seq : BitVec 16) (st : Nat) (b : List Byte) : (s.journalDone code src seq st b).free = s.free := by simp only [State.journalDone]; split <;> simp
@[simp] theorem journalDone_tick (code : Nat) (src : Src) (seq : BitVec 16) (st : Nat) (b : List Byte) : (s.journalDone code src seq st b).tick = s.tick := by simp only [State.journalDone]; split <;> simp
@[simp] theorem journalDone_ev (code : Nat) (src : Src) (seq : BitVec 16) (st : Nat) (b : List Byte) : (s.journalDone code src seq st b).ev = s.ev := by simp only [State.journalDone]; split <;> simp
@[simp] theorem journalDone_nalug (code : Nat) (src : Src) (seq : BitVec 16) (st : Nat) (b : List Byte) : (s.journalDone code src seq st b).nalug = s.nalug := by simp only [State.journalDone]; split <;> simp
@[simp] theorem journalDone_clk (code : Nat) (src : Src) (seq : BitVec 16) (st : Nat) (b : List Byte) : (s.journalDone code src seq st b).clk = s.clk := by simp only [State.journalDone]; split <;> simp
@[simp] theorem journalDone_tel (code : Nat) (src : Src) (seq : BitVec 16) (st : Nat) (b : List Byte) : (s.journalDone code src seq st b).tel = s.tel := by simp only [State.journalDone]; split <;> simp
@[simp] theorem journalDone_bind (code : Nat) (src : Src) (seq : BitVec 16) (st : Nat) (b : List Byte) : (s.journalDone code src seq st b).bind = s.bind := by simp only [State.journalDone]; split <;> simp
@[simp] theorem journalDone_home (code : Nat) (src : Src) (seq : BitVec 16) (st : Nat) (b : List Byte) : (s.journalDone code src seq st b).home = s.home := by simp only [State.journalDone]; split <;> simp
@[simp] theorem journalDone_hmp (code : Nat) (src : Src) (seq : BitVec 16) (st : Nat) (b : List Byte) : (s.journalDone code src seq st b).hmp = s.hmp := by simp only [State.journalDone]; split <;> simp
@[simp] theorem journalDone_hbm (code : Nat) (src : Src) (seq : BitVec 16) (st : Nat) (b : List Byte) : (s.journalDone code src seq st b).hbm = s.hbm := by simp only [State.journalDone]; split <;> simp
@[simp] theorem journalDone_qos (code : Nat) (src : Src) (seq : BitVec 16) (st : Nat) (b : List Byte) : (s.journalDone code src seq st b).qos = s.qos := by simp only [State.journalDone]; split <;> simp
@[simp] theorem journalDone_eng (code : Nat) (src : Src) (seq : BitVec 16) (st : Nat) (b : List Byte) : (s.journalDone code src seq st b).eng = s.eng := by simp only [State.journalDone]; split <;> simp
@[simp] theorem journalDone_lnk (code : Nat) (src : Src) (seq : BitVec 16) (st : Nat) (b : List Byte) : (s.journalDone code src seq st b).lnk = s.lnk := by simp only [State.journalDone]; split <;> simp
@[simp] theorem journalDone_cxl (code : Nat) (src : Src) (seq : BitVec 16) (st : Nat) (b : List Byte) : (s.journalDone code src seq st b).cxl = s.cxl := by simp only [State.journalDone]; split <;> simp
@[simp] theorem journalDone_lane (code : Nat) (src : Src) (seq : BitVec 16) (st : Nat) (b : List Byte) : (s.journalDone code src seq st b).lane = s.lane := by simp only [State.journalDone]; split <;> simp
@[simp] theorem journalDone_pwr (code : Nat) (src : Src) (seq : BitVec 16) (st : Nat) (b : List Byte) : (s.journalDone code src seq st b).pwr = s.pwr := by simp only [State.journalDone]; split <;> simp

/-! ### firstAnswer -/

@[simp] theorem firstAnswer_pending : (s.firstAnswer).pending = s.pending := by simp only [State.firstAnswer]; split <;> simp
@[simp] theorem firstAnswer_out : (s.firstAnswer).out = s.out := by simp only [State.firstAnswer]; split <;> simp
@[simp] theorem firstAnswer_free : (s.firstAnswer).free = s.free := by simp only [State.firstAnswer]; split <;> simp
@[simp] theorem firstAnswer_tick : (s.firstAnswer).tick = s.tick := by simp only [State.firstAnswer]; split <;> simp
@[simp] theorem firstAnswer_nalug : (s.firstAnswer).nalug = s.nalug := by simp only [State.firstAnswer]; split <;> simp
@[simp] theorem firstAnswer_clk : (s.firstAnswer).clk = s.clk := by simp only [State.firstAnswer]; split <;> simp
@[simp] theorem firstAnswer_tel : (s.firstAnswer).tel = s.tel := by simp only [State.firstAnswer]; split <;> simp
@[simp] theorem firstAnswer_bind : (s.firstAnswer).bind = s.bind := by simp only [State.firstAnswer]; split <;> simp
@[simp] theorem firstAnswer_home : (s.firstAnswer).home = s.home := by simp only [State.firstAnswer]; split <;> simp
@[simp] theorem firstAnswer_hmp : (s.firstAnswer).hmp = s.hmp := by simp only [State.firstAnswer]; split <;> simp
@[simp] theorem firstAnswer_hbm : (s.firstAnswer).hbm = s.hbm := by simp only [State.firstAnswer]; split <;> simp
@[simp] theorem firstAnswer_qos : (s.firstAnswer).qos = s.qos := by simp only [State.firstAnswer]; split <;> simp
@[simp] theorem firstAnswer_eng : (s.firstAnswer).eng = s.eng := by simp only [State.firstAnswer]; split <;> simp
@[simp] theorem firstAnswer_lnk : (s.firstAnswer).lnk = s.lnk := by simp only [State.firstAnswer]; split <;> simp
@[simp] theorem firstAnswer_cxl : (s.firstAnswer).cxl = s.cxl := by simp only [State.firstAnswer]; split <;> simp
@[simp] theorem firstAnswer_lane : (s.firstAnswer).lane = s.lane := by simp only [State.firstAnswer]; split <;> simp
@[simp] theorem firstAnswer_pwr : (s.firstAnswer).pwr = s.pwr := by simp only [State.firstAnswer]; split <;> simp

/-! ### answer -/

@[simp] theorem answer_pending (code : Nat) (q : Req) (st : Nat) (b : List Byte) : (s.answer code q st b).pending = s.pending := by simp [State.answer]
@[simp] theorem answer_free (code : Nat) (q : Req) (st : Nat) (b : List Byte) : (s.answer code q st b).free = s.free := by simp [State.answer]
@[simp] theorem answer_tick (code : Nat) (q : Req) (st : Nat) (b : List Byte) : (s.answer code q st b).tick = s.tick := by simp [State.answer]
@[simp] theorem answer_clk (code : Nat) (q : Req) (st : Nat) (b : List Byte) : (s.answer code q st b).clk = s.clk := by simp [State.answer]
@[simp] theorem answer_tel (code : Nat) (q : Req) (st : Nat) (b : List Byte) : (s.answer code q st b).tel = s.tel := by simp [State.answer]
@[simp] theorem answer_bind (code : Nat) (q : Req) (st : Nat) (b : List Byte) : (s.answer code q st b).bind = s.bind := by simp [State.answer]
@[simp] theorem answer_home (code : Nat) (q : Req) (st : Nat) (b : List Byte) : (s.answer code q st b).home = s.home := by simp [State.answer]
@[simp] theorem answer_hmp (code : Nat) (q : Req) (st : Nat) (b : List Byte) : (s.answer code q st b).hmp = s.hmp := by simp [State.answer]
@[simp] theorem answer_hbm (code : Nat) (q : Req) (st : Nat) (b : List Byte) : (s.answer code q st b).hbm = s.hbm := by simp [State.answer]
@[simp] theorem answer_qos (code : Nat) (q : Req) (st : Nat) (b : List Byte) : (s.answer code q st b).qos = s.qos := by simp [State.answer]
@[simp] theorem answer_eng (code : Nat) (q : Req) (st : Nat) (b : List Byte) : (s.answer code q st b).eng = s.eng := by simp [State.answer]
@[simp] theorem answer_lnk (code : Nat) (q : Req) (st : Nat) (b : List Byte) : (s.answer code q st b).lnk = s.lnk := by simp [State.answer]
@[simp] theorem answer_cxl (code : Nat) (q : Req) (st : Nat) (b : List Byte) : (s.answer code q st b).cxl = s.cxl := by simp [State.answer]
@[simp] theorem answer_lane (code : Nat) (q : Req) (st : Nat) (b : List Byte) : (s.answer code q st b).lane = s.lane := by simp [State.answer]
@[simp] theorem answer_pwr (code : Nat) (q : Req) (st : Nat) (b : List Byte) : (s.answer code q st b).pwr = s.pwr := by simp [State.answer]

/-! ### answered -/

@[simp] theorem answered_pending (code : Nat) (q : Req) (st : Nat) (b : List Byte) : (s.answered code q st b).pending = s.pending := by simp only [State.answered]; split <;> simp
@[simp] theorem answered_free (code : Nat) (q : Req) (st : Nat) (b : List Byte) : (s.answered code q st b).free = s.free := by simp only [State.answered]; split <;> simp
@[simp] theorem answered_tick (code : Nat) (q : Req) (st : Nat) (b : List Byte) : (s.answered code q st b).tick = s.tick := by simp only [State.answered]; split <;> simp
@[simp] theorem answered_clk (code : Nat) (q : Req) (st : Nat) (b : List Byte) : (s.answered code q st b).clk = s.clk := by simp only [State.answered]; split <;> simp
@[simp] theorem answered_tel (code : Nat) (q : Req) (st : Nat) (b : List Byte) : (s.answered code q st b).tel = s.tel := by simp only [State.answered]; split <;> simp
@[simp] theorem answered_bind (code : Nat) (q : Req) (st : Nat) (b : List Byte) : (s.answered code q st b).bind = s.bind := by simp only [State.answered]; split <;> simp
@[simp] theorem answered_home (code : Nat) (q : Req) (st : Nat) (b : List Byte) : (s.answered code q st b).home = s.home := by simp only [State.answered]; split <;> simp
@[simp] theorem answered_hmp (code : Nat) (q : Req) (st : Nat) (b : List Byte) : (s.answered code q st b).hmp = s.hmp := by simp only [State.answered]; split <;> simp
@[simp] theorem answered_hbm (code : Nat) (q : Req) (st : Nat) (b : List Byte) : (s.answered code q st b).hbm = s.hbm := by simp only [State.answered]; split <;> simp
@[simp] theorem answered_qos (code : Nat) (q : Req) (st : Nat) (b : List Byte) : (s.answered code q st b).qos = s.qos := by simp only [State.answered]; split <;> simp
@[simp] theorem answered_eng (code : Nat) (q : Req) (st : Nat) (b : List Byte) : (s.answered code q st b).eng = s.eng := by simp only [State.answered]; split <;> simp
@[simp] theorem answered_lnk (code : Nat) (q : Req) (st : Nat) (b : List Byte) : (s.answered code q st b).lnk = s.lnk := by simp only [State.answered]; split <;> simp
@[simp] theorem answered_cxl (code : Nat) (q : Req) (st : Nat) (b : List Byte) : (s.answered code q st b).cxl = s.cxl := by simp only [State.answered]; split <;> simp
@[simp] theorem answered_lane (code : Nat) (q : Req) (st : Nat) (b : List Byte) : (s.answered code q st b).lane = s.lane := by simp only [State.answered]; split <;> simp
@[simp] theorem answered_pwr (code : Nat) (q : Req) (st : Nat) (b : List Byte) : (s.answered code q st b).pwr = s.pwr := by simp only [State.answered]; split <;> simp

/-! ### Registers -/

theorem raise_reg {o : Nat} (code : Nat) (vals : List EvVal) (h : o ≠ glbEvFifoOvfCnt) :
    (s.raise code vals).reg o = s.reg o := by
  unfold State.raise
  dsimp only
  split
  · exact (rfl)
  · rw [reg_cnt, if_neg h]; exact (rfl)

theorem raiseLim_reg {o : Nat} (code unit : Nat) (vals : List EvVal) (h : o ≠ glbEvFifoOvfCnt) :
    (s.raiseLim code unit vals).reg o = s.reg o := by
  unfold State.raiseLim
  dsimp only
  split
  · exact (rfl)
  · rw [raise_reg _ _ _ h]; exact (rfl)

theorem cnt64_reg {o j : Nat} (k : Nat) (h : j ≠ o) (h4 : j ≠ o + 4) (he : j ≠ glbEvFifoOvfCnt) :
    (s.cnt64 o k).reg j = s.reg j := by
  unfold State.cnt64
  dsimp only
  split
  · rw [raise_reg _ _ _ he, reg_set64, if_neg h4, if_neg h]
  · rw [reg_set64, if_neg h4, if_neg h]

@[simp] theorem emit_reg (m : Out) (o : Nat) : (s.emit m).reg o = s.reg o := reg_congr (by simp) o
@[simp] theorem begun_reg (code : Nat) (q : Req) (body : List Byte) (o : Nat) : (s.begun code q body).reg o = s.reg o :=
  reg_congr (by simp) o

theorem firstAnswer_reg {o : Nat} (hs : o ≠ mgtSvnMin) (he : o ≠ glbEvFifoOvfCnt) : s.firstAnswer.reg o = s.reg o := by
  unfold State.firstAnswer
  dsimp only
  split
  · rw [raise_reg _ _ _ he, reg_setN, if_neg hs]; exact (rfl)
  · exact (rfl)

theorem answer_reg {o : Nat} (code : Nat) (q : Req) (st : Nat) (b : List Byte) (hs : o ≠ mgtSvnMin)
    (he : o ≠ glbEvFifoOvfCnt) : (s.answer code q st b).reg o = s.reg o := by
  rw [State.answer, firstAnswer_reg _ hs he]; exact (rfl)

/-- What follows a command's action writes only its own counters and the fuse word of the security version. -/
theorem answered_reg {o : Nat} (code : Nat) (q : Req) (st : Nat) (b : List Byte) (hs : o ≠ mgtSvnMin)
    (he : o ≠ glbEvFifoOvfCnt) (hc : o ≠ mgtNalugCmdCnt) (hd : o ≠ mgtNalugCmdCnt + 4) :
    (s.answered code q st b).reg o = s.reg o := by
  unfold State.answered
  dsimp only
  rw [answer_reg _ _ _ _ _ hs he]
  split
  · exact cnt64_reg _ _ hc hd he
  · rw [reg_congr (journalDone_regs _ _ _ _ _ _), cnt64_reg _ _ hc hd he]

/-! ### What a command's action sees -/

theorem fld_congr {s t : State} (h : t.regs = s.regs) (o lo n : Nat) : t.fld o lo n = s.fld o lo n := by
  simp [State.fld, reg_congr h]
theorem bit_congr {s t : State} (h : t.regs = s.regs) (o i : Nat) : t.bit o i = s.bit o i := by
  simp [State.bit, fld_congr h]
theorem nreg_congr {s t : State} (h : t.regs = s.regs) (o : Nat) : t.nreg o = s.nreg o := by
  simp [State.nreg, reg_congr h]
theorem unitIn_congr {s t : State} (h : t.regs = s.regs) (k i : Nat) : t.unitIn k i = s.unitIn k i := by
  simp only [State.unitIn, State.setBitAt]
  cases unitBit k i <;> simp [bit_congr h]
/-- Presence depends on the register table alone. -/
theorem present_congr {s t : State} (h : t.regs = s.regs) (k i : Nat) : t.present k i = s.present k i := by
  unfold State.present
  simp only [unitIn_congr h, bit_congr h]
theorem logOn_congr {s t : State} (h : t.regs = s.regs) : t.logOn = s.logOn := by
  simp [State.logOn, funext (present_congr h 8)]

section Begun
variable (code : Nat) (q : Req) (body : List Byte)

@[simp] theorem begun_fld (o lo n : Nat) : (s.begun code q body).fld o lo n = s.fld o lo n := fld_congr (by simp) o lo n
@[simp] theorem begun_bit (o i : Nat) : (s.begun code q body).bit o i = s.bit o i := bit_congr (by simp) o i
@[simp] theorem begun_nreg (o : Nat) : (s.begun code q body).nreg o = s.nreg o := nreg_congr (by simp) o
@[simp] theorem begun_locked : (s.begun code q body).locked = s.locked := bit_congr (by simp) _ _
@[simp] theorem begun_present (k i : Nat) : (s.begun code q body).present k i = s.present k i := present_congr (by simp) k i
@[simp] theorem begun_logOn : (s.begun code q body).logOn = s.logOn := logOn_congr (by simp)
theorem begun_nalug : (s.begun code q body).nalug = (s.takeInbox q).nalug := by
  unfold State.begun State.journalBegin
  split <;> exact (rfl)
@[simp] theorem begun_locks : (s.begun code q body).nalug.locks = s.nalug.locks := by rw [begun_nalug]; exact (rfl)
@[simp] theorem begun_steps : (s.begun code q body).nalug.steps = s.nalug.steps := by rw [begun_nalug]; exact (rfl)
@[simp] theorem begun_subs : (s.begun code q body).nalug.subs = s.nalug.subs := by rw [begun_nalug]; exact (rfl)
@[simp] theorem begun_br : (s.begun code q body).nalug.br = s.nalug.br := by rw [begun_nalug]; exact (rfl)
@[simp] theorem begun_lockAt (k : Nat) : (s.begun code q body).lockAt k = s.lockAt k := by simp [State.lockAt]
@[simp] theorem begun_slot (k : Nat) : (s.begun code q body).slot k = s.slot k := by simp [State.slot]
theorem begun_mgmt : ∃ j n, (s.begun code q body).mgmt = { s.mgmt with jrnl := j, jseq := n } := by
  unfold State.begun State.journalBegin
  split <;> exact ⟨_, _, (rfl)⟩
@[simp] theorem begun_bootCount : (s.begun code q body).mgmt.bootCount = s.mgmt.bootCount := by
  obtain ⟨j, n, h⟩ := begun_mgmt s code q body; rw [h]
@[simp] theorem begun_inRecovery : (s.begun code q body).mgmt.inRecovery = s.mgmt.inRecovery := by
  obtain ⟨j, n, h⟩ := begun_mgmt s code q body; rw [h]
@[simp] theorem begun_fuses : (s.begun code q body).mgmt.fuses = s.mgmt.fuses := by
  obtain ⟨j, n, h⟩ := begun_mgmt s code q body; rw [h]

end Begun

/-! ### Replies -/

theorem answer_out (code : Nat) (q : Req) (st : Nat) (b : List Byte) :
    (s.answer code q st b).out = s.out ++ [.reply q code st b] := by
  simp [State.answer, State.emit]

/-- The reply is the last thing sent. -/
@[simp] theorem answered_out (code : Nat) (q : Req) (st : Nat) (b : List Byte) :
    (s.answered code q st b).out = s.out ++ [.reply q code st b] := by
  unfold State.answered
  dsimp only
  rw [answer_out]
  split <;> simp

theorem keepReply_nalug (k : Kept) : ∃ kept, (s.keepReply k).nalug = { s.nalug with kept := kept } := ⟨_, (rfl)⟩

/-- Of the management state, only the kept replies change after the action. -/
theorem answered_nalug (code : Nat) (q : Req) (st : Nat) (b : List Byte) :
    ∃ kept, (s.answered code q st b).nalug = { s.nalug with kept := kept } := by
  simp only [State.answered, State.answer, firstAnswer_nalug]
  split
  all_goals
    obtain ⟨kept, h⟩ := keepReply_nalug (State.emit _ (.reply q code st b)) ⟨q.src, q.seq, code, st, b, journaled code⟩
    exact ⟨kept, by rw [h]; simp⟩

/-! ### One command -/

/-- An admitted command's action runs on the begun state, and its reply follows. -/
theorem nalug_run_of_admitted {s : State} {code : Nat} {q : Req} {body : List Byte} {f : OpForm}
    (act : State → State × Option (Nat × List Byte)) (h : s.admitted code q f = true) :
    s.nalug_run code q body f act =
      match act (s.begun code q body) with
      | (t, none) => t.cnt64 mgtNalugCmdCnt
      | (t, some (st, b)) => t.answered code q st b := by
  simp only [State.admitted, Bool.and_eq_true, Bool.not_eq_true', Bool.or_eq_true, decide_eq_true_eq, State.freshSeq] at h
  obtain ⟨⟨⟨⟨⟨⟨hm, hw⟩, hs⟩, hk⟩, hv⟩, hc⟩, hj⟩ := h
  unfold State.nalug_run
  rw [if_neg (by simp [hm]), if_neg (by simp [hw]), if_neg (by simp [hs])]
  have hk' : (s.takeInbox q).nalug.kept.find? (fun k => decide (k.src = q.src) && decide (k.seq = q.seq)) = none := by
    simpa [State.takeInbox] using hk
  have hv' : (s.takeInbox q).served code = true := hv
  have hc' : (s.takeInbox q).opCheck code q f = none := by
    simpa using (show ((s.takeInbox q).opCheck code q f).isNone = true from hc)
  have hj' : (journaled code && decide ((s.takeInbox q).jrnlFree < 256)) = false := by
    have : (s.takeInbox q).jrnlFree = s.jrnlFree := (rfl)
    rw [this]
    rcases hj with hj | hj
    · simp [hj]
    · simp; omega
  simp only [hk', hv', hc', hj']
  simp only [Bool.not_true, Bool.false_eq_true, ↓reduceIte]
  rfl

end Sys2Proof.Machine
end

