-- ==== Sys2Proof/Laws/Rings.lean ====
section
/-! SUPPORT. Laws of engine instances. -/

namespace Sys2Proof.Machine

/-- No engine instance is bound in a state whose registers are all at reset. -/
theorem State.boundInsts_of_regs_nil {s : State} (h : s.regs = []) : s.boundInsts = [] := by
  unfold State.boundInsts
  rw [List.filter_eq_nil_iff]
  intro i hi
  have hi := List.mem_range.mp hi
  have hz : regReset (engInst i) = 0 := by
    refine regReset_glob_zero (lo := 0x420000) (hi := 0x428000) ?_ ?_ ?_ (by decide +kernel)
    · unfold engInst; omega
    · unfold engInst; omega
    · omega
  simp [State.insBound, State.bit, State.fld, State.reg, h, tget, hz, bits]
end Sys2Proof.Machine
end

