-- ==== Sys2Proof/Tests/Slice0.lean ====
section
/-! SUPPORT. Tests: a witness for the hypotheses of every statement, ill-formed commands, single steps. -/

namespace Sys2Proof.Tests

open Sys2Proof.Machine

set_option maxRecDepth 8000
set_option Elab.async false

/-! ### States and operands of the witnesses -/

def src0 : Src := ⟨1, 0, 8⟩
def rq (kind : BitVec 4) (index : BitVec 28) : Req := ⟨src0, 1, kind, index, false, 0, 0, false⟩
def rg (r : Tab Word) : State := { State.reset with regs := r }
def l0 : Tab Word := [(ptMode 0, 0xC0000000#32), (ptFlStatus 0, 0x80000000#32)]
def onS : State := rg [(pwrStatus, 0x50000000#32)]
def sm0 : SyncMsg := ⟨5, 0, 3, 1, true, true, 0⟩
def dv : Tab Word := [(ptMode 0, 0x80000000#32), (ptEdgeId 0 0, 0x80000009#32)]
def dm (b : BindS) : State := { State.reset with bind := b }
def dom3 : Dom := { state := 1, agents := [(0, ⟨true, 3, 7⟩)] }
def hm (h : HomeS) : State := { State.reset with home := h }
def bd3 : BindS := { doms := [(3, dom3)], slices := [(5, { state := 2, dom := 3, lsEn := true, maps := 1 })] }
def hr : HReq := ⟨7, 5, 64, .mem, .plain true, 0xAB, 1⟩
def la5 : Nat := lineAddr 5 64
def ent5 (st : Nat) : DirEnt := { st := st, dom := 3, sh := [7] }
def snp8 : Trk := { la := la5, ev := .rds, fid := 7, phase := 2, snps := [⟨8, 1, 100, false⟩, ⟨9, 1, 100, false⟩] }
def own5 : Trk := { la := la5, ev := .rdown, fid := 7, phase := 2, snps := [⟨8, 2, 100, false⟩], ent := some (ent5 1), got := some (0xAB, false) }
def hln : HLine := ⟨false, 0, 5, 1, 0xFF, 0xAB⟩
def hky : HKey := ⟨100, 9, 1⟩
def hms : HMsg := ⟨hky, 0, 0, 0xFF, 9, 0, 0, 7, [9], 4, [hln]⟩
def hpt : HPart := { key := hky, acting := 7, lines := [⟨hln, 0⟩], parts := [0, 9], boot := 0, limit := 4, window := 101 }
def hpt2 : HPart := { hpt with key := ⟨100, 9, 2⟩ }
def hor : HOrig := { key := ⟨100, 0, 1⟩, src := .engine 0 1, user := 0, limit := 4, window := 101, homes := [9] }
def hp (h : HmpS) : State := { State.reset with hmp := h, bind := bd3 }
def hpf (h : HmpS) (f : Tick) : State := { hp h with tick := { fab := f } }
def lk : Tab Word := [(glbTickStatus, 0x80000000#32)]
def vc3 : Vcs := { usp := 0, host := 7, base := 0, len := 16 }
def tr0 : Tab Word := [(ptMode 0, 0x40000000#32), (ptCxStatus 0, 0x40160000#32), (ptEdgeId 0 0, 0x80000007#32), (tlRouteCtl 0, 0x80000000#32),
  (tlGroupRt 0 0, 0x80000000#32), (tlMemberRt 0 0 + 36, 0x80010000#32)]
def nm0 : NetMsg :=
  { id := 1, type := .memRead, cls := 0, src := 7, ld := 0, dst := .fid 9, bytes := 100, expect := true, yellow := false, hop := 0, unit := 0 }
def fl0 : Flow := { cir := 100, pir := 100, cbs := 4096, pbs := 8192, cirP := 100 }
def ms0 : TMsg := { m := nm0, inp := 0, src := 7, dst := 9, egress := 1024, cells := 2, stamp := 0 }
def qs (q : QosS) : State := { State.reset with qos := q }
def hb (h : HbmS) : State := { State.reset with hbm := h }
def fb : List Byte := toLe 4 9 ++ [0, 0, 0, 0] ++ toLe 4 64 ++ toLe 4 100 ++ toLe 4 4096 ++ toLe 4 8192
def cb9 : List Byte := toLe 4 9 ++ [0, 0, 0, 0]
def ei : Tab Word := [(engInst 0, 0x80000007#32), (engInst 0 + 16, 1000#32), (insRingStatus 0, 0x20000000#32)]
def eiM : Tab Word := [(engInst 0, 0xC0000007#32), (engInst 0 + 16, 1000#32), (insRingStatus 0, 0x20000000#32)]
def u0 (op : Byte) : List Byte := [op, 1, 0, 0] ++ List.replicate 12 0 ++ toLe 8 0x1000 ++ toLe 8 0x2000
def u1 : List Byte := toLe 8 64 ++ [5] ++ List.replicate 23 0
def eb (op : Byte) : List Byte := u0 op ++ u1
def fillB : List Byte := u0 2 ++ (toLe 8 64 ++ [4] ++ List.replicate 23 0)
def crcB : List Byte := u0 4 ++ (toLe 8 64 ++ [1] ++ List.replicate 23 0)
def redU : List (List Byte) := [[8, 2, 0, 0] ++ List.replicate 12 0 ++ toLe 8 0x1000 ++ [0, 0, 0, 0, 0, 0x14, 0, 0], List.replicate 32 0, toLe 8
  0x2000 ++ toLe 4 1 ++ toLe 4 1 ++ List.replicate 16 0]
def i0 (x : Inst) : State := { rg ei with eng := { insts := [(0, x)] } }
def iu (l : List (List Byte)) : Inst := { units := l, eng := some 0 }
def R0 : RegRow := (findRow 0x5008).get (by decide)
def rec0 : List Byte := [0, 1] ++ List.replicate 110 0
def hu : List (List Byte) := [[0x11, 1, 0, 0] ++ List.replicate 12 0 ++ toLe 8 0x1000 ++ [1, 0, 0, 0, 0, 0, 0, 0], List.replicate 32 0]
def jb (b : List Byte) : Job := { pos := 0, bytes := b, num := 0 }
def ij (j : Job) : Inst := { job := some j, eng := some 0 }
def pmU : List (List Byte) := [[0x10, 1, 0, 0] ++ List.replicate 12 0 ++ toLe 4 5 ++ toLe 4 9 ++ toLe 4 2 ++ [0, 0, 0, 0], List.replicate 32 0]
def pmR : Tab Word := [(ptMode 0, 0x80000000#32), (ptEdgeId 0 0, 0x80000009#32), (tlGroupRt 0 0, 0x80000000#32), (tlMemberRt 0 0 + 36, 0x80010000#32)]
def mvT : Tab Trk := (List.range 64).map (fun k => (k, { la := 5 * 2 ^ 22 + 65535 * 64 + k, ev := .move 0, phase := 5 }))
def inB : List Byte := toLe 4 7 ++ toLe 4 3 ++ [0, 1] ++ toLe 2 0 ++ toLe 4 1 ++ toLe 4 2 ++ toLe 4 64 ++ toLe 4 64
def lnk6 : Tab Word := (List.range 5).map (fun l => (lnStatus 0 l, 0x60000000#32))
def fst (v : Nat) : Tab Word := [(ptMode 0, 0xC0000000#32), (ptFlStatus 0, BitVec.ofNat 32 (v * 2 ^ 29))]
def lkS (v : Nat) (x : Tab Word) (l : LinkS) : State := { rg (fst v ++ x) with lnk := { links := [(0, l)] } }
def lkT (v : Nat) (x : Tab Word) (l : LinkS) (t : Tick) : State := { lkS v x l with tick := { loc := t } }
def upR : Tab Word := [(ptFlCtl 0, 0x80000000#32), (glbModuleFid, 0x80000005#32), (glbTickStatus, 0#32)]
def ini : InitMsg :=
  { version := 1, rates := 3, resume := false, sleepEn := true, moduleId := 9, port := 2, pool := 100, rsv := [1, 2, 3, 4, 5, 6, 7, 8], period := 0 }
def fbody (seq : Nat) : List Byte := toLe 8 (2 ^ 62 + seq * 2 ^ 50) ++ List.replicate 112 0
def flit (seq : Nat) : List Byte := fbody seq ++ toLe 8 (crc64 (fbody seq)).toNat
def frR : Tab Word := [(ptMode 0, 0xC0000000#32), (ptFlStatus 0, 0x80000000#32), (tlRouteCtl 0, 0x80000000#32), (tlGroupRt 0 0, 0x80000000#32),
  (tlMemberRt 0 0 + 36, 0xC0000000#32)]
def fhd (c : ClassIx) : FHdr := { hop := 1, yellow := false, cls := c, src := 7, dst := 9, tag := 3 }
def frS : State := { rg frR with bind := bd3, qos := { flows := (List.range 8).map (fun c => (flowKey 0 c 7, { fl0 with pir := 100 })) } }
def rr : RemReq := { fid := 9, tag := 3, tile := 0, via := .mem, la := 64, write := false, due := 0 }
def cx (mode st hp : Nat) (x : Tab Word) (c : CxPort) (t : Tick) : State :=
  { rg (x ++ [(ptMode 0, BitVec.ofNat 32 (mode * 2 ^ 30)), (ptCxStatus 0, BitVec.ofNat 32 (st * 2 ^ 29)), (ptCxHpStatus 0, BitVec.ofNat 32 (hp * 2 ^ 28))]) with cxl := { ports := [(0, c)] }, tick := { loc := t } }
def cxu : CxUp := { rate := 1, width := 4, has256 := true, cache := false, mem := true, pbr := false, type := 1, serial := 0, caps := [] }
def vb (x : State) : State := { x with cxl := { x.cxl with vppb := [(49, 0)] }, bind := { x.bind with vcs := [(3, vc3)] } }
def ln (st : Nat) (x : Tab Word) (k : LaneS) (t : Tick) : State :=
  { rg (x ++ [(lnStatus 0 1, BitVec.ofNat 32 (st * 2 ^ 28))]) with lane := { lanes := [(1, k)] }, tick := { loc := t } }
def pw (k low : Nat) (x : Tab Word) (p : PwrS) : State := { rg (x ++ [(pwrStatus, BitVec.ofNat 32 (k * 2 ^ 28 + low))]) with pwr := p }
def ng (n : NalugS) : State := { State.reset with nalug := n }
def mg (m : MgmtS) : State := { State.reset with mgmt := m }
def opB (op : Nat) : List Byte := toLe 2 op ++ [0, 0, 5, 0, 0, 0] ++ List.replicate 8 0
def lk0 : Lock := { held := true, gen := 3, owner := src0 }
def rqL : Req := ⟨src0, 1, 0, 0, true, 2, 3, false⟩
def sl3 : StepSlot := { state := 1, opcode := 0x0202, use := 5, total := 1, job := .fwCommit }
def tokB (x : StepSlot) : List Byte := toLe 8 (stepToken 2 x)
def ev0 : EvRec := ⟨0x0204, false, 0, 0, 0, 0, []⟩
def brx : BrTxn := { stage := 0, code := 3, len := 1, read := true, block := false, data := [], cmd := true, opn := true }
def brn : BrTxn := { stage := 0, code := 3, len := 1, read := true, block := false, data := [], nalug := some (rq 10 0, 0x0A02), opn := true }
def stR : StageReading := { stage := 1, ok := true, status := 0, vout := 5, iout := 6, temp := 7, voutMode := 0x17, cm := 1, cb := 0, cr := 0 }
def noStg : Tab Word := (List.range 21).map (fun k => (pwrStgStatus k, 0#32))
def dmp : Dump := { seq := 5, boot := 0, tick := 0, fab := 0, flags := 0, port := 0, addr := 0x1000, interval := 1, regs := [] }
def ltg : LatTag := { id := 1, tile := 0, port := 0, cls := 0, fid := 7, slice := 5, la := none, tick0 := 0, fin := true }
def rsR (r : Nat × Nat × Nat × Tick) (t : Tick) : State := { ng { resets := [r] } with tick := { loc := t } }
def lcS (ph : Nat) : StepSlot := { state := 1, opcode := 0x0206, total := 5, job := .lifecycle 2, phase := ph }

/-- States and operands that meet the hypotheses of `Obligations.CommandsFromTheQueue`, clause by clause. -/
theorem witness_CommandsFromTheQueue :
    (∃ (c : Instr) (rest : List Instr) (s : State), s.pending = c :: rest) ∧
    (∃ (s : State), s.pending = []) :=
  ⟨⟨.guardPoint, [], { State.reset with pending := [.guardPoint] }, rfl⟩,
   ⟨State.reset, rfl⟩⟩

/-- States and operands that meet the hypotheses of `Obligations.OneTimeMemory`, clause by clause. -/
theorem witness_OneTimeMemory :
    ∃ (s : State) (t : State), step s = .next t :=
  ⟨{ State.reset with pending := [.opIdentify (rq 0 0) []] }, _, rfl⟩

/-- States and operands that meet the hypotheses of `Obligations.LocalTicks`, clause by clause. -/
theorem witness_LocalTicks :
    (∃ (s : State), s.coreRuns = true) ∧
    (∃ (s : State), s.coreRuns = false) ∧
    (∃ (s : State), s.pwr.supply = false) ∧
    (∃ (s : State), (s.dueReset 2 0).isSome = true) ∧
    (∃ (c : Instr) (s : State) (t : State), exec c s = .next t ∧ t.tick.loc ≠ s.tick.loc) :=
  ⟨⟨onS, by decide +kernel⟩,
   ⟨{ onS with regs := [(pwrStatus, 0x20000000#32)] }, by decide +kernel⟩,
   ⟨{ State.reset with pwr := { supply := false }, tick := { loc := 5 } }, by decide +kernel⟩,
   ⟨{ State.reset with nalug := { resets := [(2, 0, 5, 0)] }, tick := { loc := 5 } }, by decide +kernel⟩,
   ⟨.keeperPowerOn, { State.reset with pwr := { supply := false }, tick := { loc := 5 } }, _, rfl, by decide +kernel⟩⟩

/-- States and operands that meet the hypotheses of `Obligations.TickAndMaster`, clause by clause. -/
theorem witness_TickAndMaster :
    (∃ (s : State), s.tick.adj = none ∧ s.coreRuns = true) ∧
    (∃ (d : Nat) (new : Tick) (s : State), s.tick.adj = some (d, new) ∧ s.coreRuns = true) ∧
    (∃ (s : State), s.tick.guardDone = false) ∧
    (∃ (p : PortIx) (s : State), s.linkL0 p = true) ∧
    (∃ (p : PortIx) (m : SyncMsg) (s : State), s.linkL0 p = true ∧ s.upstream = some p.val ∧ s.tick.adj = none ∧ s.locked = true ∧ m.ftick ≠
      s.tick.fab + BitVec.ofInt 48 (nearestEdge (s.masterEdge p m))) ∧
    (∃ (p : PortIx) (m : SyncMsg) (s : State), s.linkL0 p = true ∧ s.upstream = some p.val ∧ s.tick.adj = none ∧ s.locked = false ∧ s.stepPending =
      false ∧ m.ftick = s.tick.fab + BitVec.ofInt 48 (nearestEdge (s.masterEdge p m)) ∧ phaseOf (s.masterEdge p m) ≤ 384 ∧ -384 ≤ phaseOf
      (s.masterEdge p m)) ∧
    (∃ (a : Tick) (s : State), s.tick.lostAt = some a ∧ 64 ≤ ticksSince a s.tick.loc ∧ s.locked = true) ∧
    (∃ (p : Nat) (m : SyncMsg) (a : Tick) (s : State), s.stepPending = true ∧ s.tick.adj = none ∧ s.tick.adjDue = true ∧ s.tick.guardDone = false ∧
      s.upstream = some p ∧ (tget [] s.tick.syncs p).head? = some (m, a)) ∧
    (∃ (s : State), s.tick.adjDue = false) ∧
    (∃ (s : State), s.coreRuns = true) ∧
    (∃ (p : PortIx) (s : State), s.linkL0 p = true ∧ (∀ a, (s.link p).reqAt = some a → 16 ≤ ticksSince a s.tick.loc)) ∧
    (∃ (p : PortIx) (t1 : BitVec 64) (id : Word) (s : State), s.linkL0 p = true ∧ (s.link p).req = some (t1.toNat, id.toNat) ∧ (s.link
      p).delays.length = 7 ∧ (s.link p).delayEv = none) ∧
    (∃ (p : PortIx) (t1 : BitVec 64) (id : Word) (s : State), (s.link p).req ≠ some (t1.toNat, id.toNat)) :=
  ⟨⟨{ onS with tick := { loc := 0xFFFFFFFFFFFF } }, by decide +kernel⟩,
   ⟨12, 77, { onS with tick := { adj := some (12, 77) } }, by decide +kernel⟩,
   ⟨State.reset, by decide +kernel⟩,
   ⟨0, rg l0, by decide +kernel⟩,
   ⟨0, sm0, rg (l0 ++ [(glbTickStatus, 0x80000000#32), (glbTickMaster, 0x80000003#32)]), by decide +kernel⟩,
   ⟨0, { sm0 with ftick := 0 }, rg (l0 ++ [(glbTickStatus, 0#32), (glbTickMaster, 0x80000003#32)]), by decide +kernel⟩,
   ⟨0, { rg [(glbTickStatus, 0x80000000#32)] with tick := { lostAt := some 0, loc := 64 } }, by decide +kernel⟩,
   ⟨0, sm0, 1,
     { rg (l0 ++ [(glbTickStatus, 0x40000000#32), (glbTickMaster, 0x80000003#32)]) with tick := { loc := 1, syncs := [(0, [(sm0, 1)])], adjDue := true } },
     by decide +kernel⟩,
   ⟨State.reset, by decide +kernel⟩,
   ⟨onS, by decide +kernel⟩,
   ⟨0, rg l0, by decide +kernel, (fun a h => nomatch (show none = some a from h))⟩,
   ⟨0, 100, 4, { rg l0 with lnk := { links := [(0, { req := some (100, 4), delays := [1, 2, 3, 4, 5, 6, 7] })] } }, by decide +kernel⟩,
   ⟨0, 0, 0, rg l0, by decide +kernel⟩⟩

/-- States and operands that meet the hypotheses of `Obligations.FramesOfPowerAndManagement`, clause by clause. -/
theorem witness_FramesOfPowerAndManagement :
    (∃ (c : Instr) (s : State) (t : State), c.isKeeper = true ∧ exec c s = .next t) ∧
    (∃ (c : Instr) (s : State) (t : State), c.isManagement = true ∧ exec c s = .next t) ∧
    (∃ (c : Instr) (s : State) (t : State), c.isTelemetry = true ∧ exec c s = .next t) :=
  ⟨⟨.oringTurnOff 0, State.reset, _, rfl, rfl⟩,
   ⟨.opIdentify (rq 0 0) [], State.reset, _, rfl, rfl⟩,
   ⟨.auditGo 0x80000000#32, State.reset, _, rfl, rfl⟩⟩

/-- States and operands that meet the hypotheses of `Obligations.FramesOfDataPath`, clause by clause. -/
theorem witness_FramesOfDataPath :
    (∃ (c : Instr) (s : State) (t : State), c.isBinding = true ∧ exec c s = .next t) ∧
    (∃ (c : Instr) (s : State) (t : State), ((∃ q b, c = .opDomainTeardown q b) ∨ ∃ k, c = .unbindDrainDone k) ∧ exec c s = .next t) ∧
    (∃ (c : Instr) (s : State) (t : State), c.isQos = true ∧ exec c s = .next t) ∧
    (∃ (c : Instr) (s : State) (t : State), c.isRing = true ∧ exec c s = .next t) ∧
    (∃ (i : InstIx) (s : State) (t : State), exec (.ringDisable i) s = .next t) ∧
    (∃ (c : Instr) (s : State) (t : State), c.isHomeRequest = true ∧ exec c s = .next t) ∧
    (∃ (c : Instr) (s : State) (t : State), c.isHamper = true ∧ exec c s = .next t) :=
  ⟨⟨.opDomainCreate (rq 0 0) [3, 0, 0, 0], State.reset, _, rfl, rfl⟩,
   ⟨.unbindDrainDone 0, State.reset, _, .inr ⟨0, rfl⟩, rfl⟩,
   ⟨.opQosFlowSet (rq 1 0) fb, State.reset, _, rfl, rfl⟩,
   ⟨.nop 0 [], State.reset, _, rfl, rfl⟩,
   ⟨0, State.reset, _, rfl⟩,
   ⟨.homeRds hr, State.reset, _, rfl, rfl⟩,
   ⟨.hmpTimingWrite false 0x00800123#32, State.reset, _, rfl, rfl⟩⟩

/-- States and operands that meet the hypotheses of `Obligations.FramesOfPorts`, clause by clause. -/
theorem witness_FramesOfPorts :
    (∃ (c : Instr) (s : State) (t : State), c.isLink = true ∧ exec c s = .next t) ∧
    (∃ (c : Instr) (s : State) (t : State), c.isWake = true ∧ exec c s = .next t) ∧
    (∃ (c : Instr) (s : State) (t : State), c.isLane = true ∧ exec c s = .next t) ∧
    (∃ (c : Instr) (s : State) (t : State), c.isCxlPort = true ∧ exec c s = .next t) :=
  ⟨⟨.ptFlCtlRateWrite 0 2, State.reset, _, rfl, rfl⟩,
   ⟨.sleepWakeEvent 0, State.reset, _, rfl, rfl⟩,
   ⟨.laneRelockRequest 0 1, State.reset, _, rfl, rfl⟩,
   ⟨.expanderScan 0 none none, State.reset, _, rfl, rfl⟩⟩

/-- States and operands that meet the hypotheses of `Obligations.SlicesAndDomains`, clause by clause. -/
theorem witness_SlicesAndDomains :
    (∃ (q : Req) (body : List Byte) (s : State), s.admitted 0x0301 q { lenOk := true, objs := sliceObjs s (leAt body 0 4) ++ [.dom (leAt body 12 2)] }
      = true ∧ body.length = 16 ∧ (leAt body 0 4) < 2 ^ 18 ∧ leAt body 4 4 < 2 ^ 18 ∧ leAt body 8 4 < 2 ^ 24 ∧ leAt body 12 2 < 4096 ∧ byteAt body 14
      ≤ 1 ∧ byteAt body 15 = 0 ∧ s.home.bankLost = [] ∧ s.sliceBusy (leAt body 0 4) = false ∧ (s.slice (leAt body 0 4)).state = 0 ∧ leAt body 8 4 <
      s.capacityOf (leAt body 4 4) ∧ (s.dom (leAt body 12 2)).state = 1 ∧ (∀ k x, (k, x) ∈ s.bind.slices → x.state ≠ 0 → x.dev = leAt body 4 4 → x.dpa
      ≠ leAt body 8 4)) ∧
    (∃ (q : Req) (body : List Byte) (s : State), s.admitted 0x0302 q { lenOk := true, objs := sliceObjs s (leAt body 0 4) } = true ∧ body.length = 4 ∧
      (leAt body 0 4) < 2 ^ 18 ∧ s.sliceBusy (leAt body 0 4) = false ∧ (s.slice (leAt body 0 4)).state = 1 ∧ (s.slice (leAt body 0 4)).dirtySeen =
      false) ∧
    (∃ (q : Req) (body : List Byte) (s : State), s.admitted 0x0303 q { lenOk := true, objs := [.dom (leAt body 0 2)] } = true ∧ body.length = 4 ∧
      (leAt body 0 2) < 4096 ∧ leAt body 2 2 = 0 ∧ s.home.bankLost = [] ∧ (s.dom (leAt body 0 2)).state = 0) ∧
    (∃ (q : Req) (body : List Byte) (k : Nat) (s : State), s.admitted 0x0304 q { lenOk := true, objs := [.dom (leAt body 0 2)] } = true ∧ body.length
      = 12 ∧ (leAt body 0 2) < 4096 ∧ (leAt body 4 4) < 2 ^ 18 ∧ (byteAt body 8 / 2 = 1 ∨ byteAt body 8 / 2 = 3) ∧ leAt body 2 2 = 0 ∧ leAt body 9 3 =
      0 ∧ (s.dom (leAt body 0 2)).state = 1 ∧ s.agentOf (leAt body 0 2) (leAt body 4 4) = none ∧ (List.range 64).find? (fun j => (tfind (s.dom (leAt
      body 0 2)).agents j).isNone) = some k ∧ s.home.sfLost = []) ∧
    (∃ (q : Req) (body : List Byte) (slot : Nat) (k : Nat) (a : AgentSlot) (s : State), s.admitted 0x0305 q
      { lenOk := true, objs := [.dom (leAt body 0 2)] } = true ∧ body.length = 8 ∧ (leAt body 0 2) < 4096 ∧ (leAt body 4 4) < 2 ^ 18 ∧ leAt body 2 2 =
      0 ∧ (s.dom (leAt body 0 2)).state = 1 ∧ s.agentOf (leAt body 0 2) (leAt body 4 4) = some (slot, a) ∧ s.agentMapped (leAt body 0 2) (leAt body 4
      4) = false ∧ s.pickSlot = some k ∧ s.domSlices (leAt body 0 2) = []) ∧
    (∃ (q : Req) (body : List Byte) (k : Nat) (s : State), s.admitted 0x0306 q { lenOk := true, objs := [.dom (leAt body 0 2)] } = true ∧ body.length
      = 4 ∧ (leAt body 0 2) < 4096 ∧ leAt body 2 2 = 0 ∧ ((s.dom (leAt body 0 2)).state = 1 ∨ (s.dom (leAt body 0 2)).state = 2) ∧ s.pickSlot = some
      k) :=
  ⟨⟨rq 0 0, toLe 4 0 ++ toLe 4 9 ++ toLe 4 2 ++ toLe 2 3 ++ [1, 0], { rg dv with bind := { devs := [(0, 16)], doms := [(3, dom3)] } },
     by and_intros <;> first | decide +kernel | exact (fun k x h => nomatch (show (k, x) ∈ [] from h))⟩,
   ⟨rq 0 0, toLe 4 0, dm { slices := [(0, { state := 1, gen := 4 })] }, by decide +kernel⟩,
   ⟨rq 0 0, toLe 2 4095 ++ [0, 0], State.reset, by decide +kernel⟩,
   ⟨rq 0 0, toLe 2 3 ++ [0, 0] ++ toLe 4 8 ++ [7, 0, 0, 0], 1, dm { doms := [(3, dom3)] }, by decide +kernel⟩,
   ⟨rq 0 0, toLe 2 3 ++ [0, 0] ++ toLe 4 7, 0, 0, ⟨true, 3, 7⟩, dm { doms := [(3, dom3)] }, by decide +kernel⟩,
   ⟨rq 0 0, toLe 2 3 ++ [0, 0], 0, dm { doms := [(3, dom3)] }, by decide +kernel⟩⟩

/-- States and operands that meet the hypotheses of `Obligations.Bindings`, clause by clause. -/
theorem witness_Bindings :
    (∃ (q : Req) (body : List Byte) (b : Nat) (s : State), s.admitted 0x0307 q
      { lenOk := true, units := [(2, (byteAt body 1))], objs := [.vcs (byteAt body 0), .port (byteAt body 1)] } = true ∧ body.length = 12 ∧ (byteAt
      body 0) < 96 ∧ (byteAt body 1) < 192 ∧ leAt body 4 4 < 2 ^ 18 ∧ 0 < leAt body 8 4 ∧ leAt body 8 4 ≤ 65536 ∧ leAt body 2 2 = 0 ∧ tfind s.bind.vcs
      (byteAt body 0) = none ∧ (∀ k x, (k, x) ∈ s.bind.vcs → x.usp ≠ (byteAt body 1)) ∧ s.pmode (byteAt body 1) = 1 ∧ s.isMember (byteAt body 1) =
      false ∧ s.edgeFid (byteAt body 1) 0 = some (leAt body 4 4) ∧ s.freeRun (leAt body 8 4) = some b) ∧
    (∃ (v : VcsIx) (x : Vcs) (s : State), tfind s.bind.vcs v = some x) ∧
    (∃ (q : Req) (body : List Byte) (y : Vcs) (s : State), s.admitted 0x030B q (bindForm s body true) = true ∧ byteAt body 0 = 0 ∧ s.sliceBusy (leAt
      body 4 4) = false ∧ ((s.slice (leAt body 4 4)).state = 1 ∨ (s.slice (leAt body 4 4)).state = 2) ∧ (s.dom (s.slice (leAt body 4 4)).dom).state ≠
      3 ∧ tfind s.bind.vcs (byteAt body 12) = some y ∧ s.bindRefusal 0 (leAt body 4 4) (leAt body 8 4) (byteAt body 12) (leAt body 16 4) (s.slice
      (leAt body 4 4)).dom = none) ∧
    (∃ (p : PortIx) (ld : Fin 16) (v : Word) (s : State), s.present 2 p = true ∧ (bits v 31 1 = 1 → s.fidTaken (bits v 0 18) p ld = false)) ∧
    (∃ (p : PortIx) (ld : Fin 16) (v : Word) (s : State), s.present 2 p = true ∧ bits v 31 1 = 1 ∧ s.fidTaken (bits v 0 18) p ld = true) ∧
    (∃ (p : PortIx) (s : State), s.present 2 p = false) ∧
    (∃ (q : Req) (body : List Byte) (y : Vcs) (e : HEnt) (k : Nat) (s : State), s.admitted 0x030C q (bindForm s body false) = true ∧ byteAt body 0 = 0
      ∧ s.sliceBusy (leAt body 4 4) = false ∧ (s.slice (leAt body 4 4)).state = 2 ∧ tfind s.bind.vcs (byteAt body 12) = some y ∧ (leAt body 16 4) <
      y.len ∧ y.host = (leAt body 8 4) ∧ tfind s.bind.hmap (y.base + (leAt body 16 4)) = some e ∧ e.slice = (leAt body 4 4) ∧ e.remote = none ∧
      s.pickSlot = some k) ∧
    (∃ (q : Req) (body : List Byte) (s1 : State) (k : Nat) (s : State), s.admitted 0x030D q { lenOk := true, objs := sliceObjs s (leAt body 4 4) } =
      true ∧ body.length = 28 ∧ byteAt body 0 = 1 ∧ (byteAt body 1 = 1 ∨ byteAt body 1 = 3) ∧ byteAt body 2 = 0 ∧ byteAt body 3 = 0 ∧ (leAt body 4 4)
      < 2 ^ 18 ∧ leAt body 8 4 < 2 ^ 18 ∧ leAt body 12 4 < 2 ^ 18 ∧ leAt body 17 3 = 0 ∧ leAt body 26 2 = 0 ∧ leAt body 24 2 < 4096 ∧ s.sliceBusy
      (leAt body 4 4) = false ∧ (s.slice (leAt body 4 4)).state = 2 ∧ (s.dom (s.slice (leAt body 4 4)).dom).state = 1 ∧ s.mapOf (leAt body 4 4) (leAt
      body 8 4) = none ∧ s.revoke 1 (leAt body 4 4) (leAt body 8 4) 0 0 = some s1 ∧ s1.bindRefusal 1 (leAt body 4 4) (leAt body 12 4) (byteAt body 16)
      (leAt body 20 4) (s.slice (leAt body 4 4)).dom = none ∧ s.pickSlot = some k) ∧
    (∃ (k : Fin 32) (mode : Nat) (n : Nat) (f : Nat) (w : Walk) (s : State), (s.slot k).state = 1 ∧ (s.slot k).phase = 0 ∧ (s.slot k).job = .unbind
      mode n f ∧ s.drained n f = true ∧ s.walk k = some w ∧ s.tick.guardDone = false ∧ (s.slot k).ranAt ≠ some s.tick.loc ∧ (s.dom (s.slice
      n).dom).state = 1) ∧
    (∃ (k : Fin 32) (mode : Nat) (n : Nat) (f : Nat) (s : State), (s.slot k).state = 1 ∧ (s.slot k).phase ≠ 0 ∧ (s.slot k).job = .unbind mode n f ∧
      s.tick.guardDone = false ∧ (s.slot k).ranAt ≠ some s.tick.loc) :=
  ⟨⟨rq 0 0, [1, 0, 0, 0] ++ toLe 4 7 ++ toLe 4 16, 0, rg [(ptMode 0, 0x40000000#32), (ptEdgeId 0 0, 0x80000007#32)],
     by and_intros <;> first | decide +kernel | exact (fun k x h => nomatch (show (k, x) ∈ [] from h))⟩,
   ⟨0, { usp := 0, host := 7, base := 0, len := 16 }, dm { vcs := [(0, { usp := 0, host := 7, base := 0, len := 16 })] }, by decide +kernel⟩,
   ⟨rq 0 0, [0, 3, 0, 0] ++ toLe 4 5 ++ toLe 4 7 ++ [1, 0, 0, 0] ++ toLe 4 2 ++ toLe 4 0, { usp := 0, host := 7, base := 10, len := 16 }, dm
     { doms := [(3, dom3)], slices := [(5, { state := 1, dom := 3 })], vcs := [(1, { usp := 0, host := 7, base := 10, len := 16 })] }, by
     decide +kernel⟩,
   ⟨0, 0, 0x80000007#32, State.reset, by decide +kernel⟩,
   ⟨1, 0, 0x80000007#32, rg [(ptEdgeId 0 0, 0x80000007#32)], by decide +kernel⟩,
   ⟨1, rg [(glbRetPort 0, 2#32)], by decide +kernel⟩,
   ⟨rq 0 0, [0, 0, 0, 0] ++ toLe 4 5 ++ toLe 4 7 ++ [1, 0, 0, 0] ++ toLe 4 2 ++ toLe 4 0, { usp := 0, host := 7, base := 10, len := 16 }, ⟨3, none,
     5⟩, 0, dm
     { doms := [(3, dom3)], slices := [(5, { state := 2, dom := 3, maps := 1 })], hmap := [(12, ⟨3, none, 5⟩)], vcs := [(1, { usp := 0, host := 7, base := 10, len := 16 })] },
     by decide +kernel⟩,
   ⟨rq 0 0, [1, 3, 0, 0] ++ toLe 4 5 ++ toLe 4 7 ++ toLe 4 8 ++ [1, 0, 0, 0] ++ toLe 4 2 ++ [0, 0, 0, 0], dm
     { doms := [(3, { state := 1, agents := [(0, ⟨true, 3, 7⟩), (1, ⟨true, 3, 8⟩)] })], slices := [(5, { state := 2, dom := 3, maps := 1 })], grants := [] },
     0, dm
     { doms := [(3, { state := 1, agents := [(0, ⟨true, 3, 7⟩), (1, ⟨true, 3, 8⟩)] })], slices := [(5, { state := 2, dom := 3, maps := 1 })], grants := [(7, 5, 3)] },
     by decide +kernel⟩,
   ⟨0, 0, 5, 7, { slice := 5 },
     { dm { doms := [(3, dom3)], slices := [(5, { state := 3, dom := 3 })], walks := [(0, { slice := 5 })] } with nalug := { steps := [(0, { state := 1, phase := 0, job := .unbind 0 5 7 })] } },
     by decide +kernel⟩,
   ⟨0, 0, 5, 7,
     { dm { slices := [(5, { state := 3, dom := 3, maps := 1 })], walks := [(0, { slice := 5 })] } with nalug := { steps := [(0, { state := 1, phase := 1, job := .unbind 0 5 7 })] } },
     by decide +kernel⟩⟩

/-- States and operands that meet the hypotheses of `Obligations.BlanketMode`, clause by clause. -/
theorem witness_BlanketMode :
    (∃ (d : Nat) (s : State), s.home.doms.map (·.1) = [d] ∧ s.windowTicks ≤ ticksSince s.home.winAt s.tick.loc) ∧
    (∃ (s : State), ticksSince s.home.winAt s.tick.loc < s.windowTicks) ∧
    (∃ (d : DomIx) (a : Tick) (s : State), (s.coh d).due = some a ∧ a ≠ s.tick.loc) ∧
    (∃ (d : DomIx) (n : Nat) (l : List Nat) (s : State), (s.coh d).blanket = true ∧ (s.coh d).exitOn = false ∧ s.exitWindows ≤ (s.coh d).quiet ∧
      s.dirAvail = true ∧ s.home.sfLost = [] ∧ s.untracked d = n :: l) ∧
    (∃ (d : DomIx) (w : Walk) (s : State), (s.coh d).exitOn = true ∧ s.tick.guardDone = false ∧ s.walk (32 + d) = some w ∧ w.ranAt ≠ some s.tick.loc ∧
      w.after ≠ s.tick.loc) ∧
    (∃ (d : DomIx) (a : Tick) (s : State), (s.coh d).exitOn = true ∧ (s.coh d).clearAt = some a ∧ a ≠ s.tick.loc ∧ s.untracked d = []) ∧
    (∃ (q : Req) (k : Nat) (s : State), s.admitted 0x030E q { lenOk := true } = true ∧ s.stackMask ≠ 0 ∧ (∀ j, j < 32 → (s.slot j).job ≠ .dirRebuild)
      ∧ s.pickSlot = some k) :=
  ⟨⟨3, { hm { doms := [(3, { win := 9, quiet := 2 })] } with bind := bd3, tick := { loc := 5000000 } }, by decide +kernel⟩,
   ⟨State.reset, by decide +kernel⟩,
   ⟨3, 4, { hm { doms := [(3, { due := some 4 })] } with bind := bd3, tick := { loc := 5 } }, by decide +kernel⟩,
   ⟨3, 5, [], { hm { doms := [(3, { blanket := true, quiet := 8 })], untrk := [5] } with bind := bd3, regs := [(sfDirStatus, 0x80000000#32)] }, by
     decide +kernel⟩,
   ⟨3, { slice := 5 },
     { hm { doms := [(3, { blanket := true, exitOn := true })], untrk := [] } with bind := { bd3 with walks := [(35, { slice := 5 })] }, tick := { loc := 3 } },
     by decide +kernel⟩,
   ⟨3, 7, { hm { doms := [(3, { blanket := true, exitOn := true, quiet := 8, clearAt := some 7 })] } with bind := bd3 }, by decide +kernel⟩,
   ⟨rq 0 0, 0, { hm { ents := [(la5, { ent5 2 with onDie := false })] } with bind := bd3 }, by decide +kernel⟩⟩

/-- States and operands that meet the hypotheses of `Obligations.HomeRequests`, clause by clause. -/
theorem witness_HomeRequests :
    (∃ (r : HReq) (a : Nat × AgentSlot) (s : State), s.requestFree r a ∧ evFits r.msg .rds = true) ∧
    (∃ (r : HReq) (a : Nat × AgentSlot) (s : State), s.requestFree r a ∧ evFits r.msg .rda = true) ∧
    (∃ (r : HReq) (a : Nat × AgentSlot) (s : State), s.requestFree r a ∧ evFits r.msg .rdown = true) ∧
    (∃ (r : HReq) (a : Nat × AgentSlot) (s : State), s.requestFree r a ∧ evFits r.msg .ncr = true) ∧
    (∃ (r : HReq) (a : Nat × AgentSlot) (s : State), s.requestFree r a ∧ evFits r.msg .ncw = true) ∧
    (∃ (r : HReq) (a : Nat × AgentSlot) (s : State), s.requestFree r a ∧ evFits r.msg .ce = true) ∧
    (∃ (r : HReq) (s : State), s.clk.draining = false ∧ evFits r.msg .rds = false) ∧
    (∃ (r : HReq) (s : State), s.clk.draining = false ∧ evFits r.msg .rda = false) ∧
    (∃ (r : HReq) (s : State), s.clk.draining = false ∧ evFits r.msg .rdown = false) ∧
    (∃ (r : HReq) (s : State), s.clk.draining = false ∧ evFits r.msg .ncr = false) ∧
    (∃ (r : HReq) (s : State), s.clk.draining = false ∧ memWrites r.msg = false ∧ evFits r.msg .ncw = false) ∧
    (∃ (r : HReq) (s : State), s.clk.draining = false ∧ evFits r.msg .ce = false) ∧
    (∃ (r : HReq) (e : DirEnt) (s : State), s.ent (reqLine r) = some e ∧ (s.holders e).contains r.fid = true) ∧
    (∃ (r : HReq) (s : State), s.ent (reqLine r) = none) ∧
    (∃ (fid : Fid) (la : Nat) (s : State), (s.snoopOf la fid).isSome = true) ∧
    (∃ (r : HReq) (e : DirEnt) (s : State), s.wbFree r ∧ wbMsg r.msg = true ∧ r.msg ≠ .memWr .a ∧ r.msg ≠ .memWrPtl .a ∧ s.ent (reqLine r) = some e ∧
      (e.st = 2 ∨ e.st = 3) ∧ e.coarse = false ∧ e.sh.contains r.fid = true ∧ r.via ≠ .discard) ∧
    (∃ (r : HReq) (l : LsLine) (s : State), s.wbFree r ∧ wbMsg r.msg = true ∧ memWrites r.msg = false ∧ s.homeReason r.fid r.slice true = none ∧ (∀ k
      x, (k, x) ∈ s.home.trks → x.la ≠ reqLine r) ∧ s.ent (reqLine r) = none ∧ s.lsUsable (laSlice (reqLine r)) = true ∧ s.lsLine (reqLine r) = some l
      ∧ r.via ≠ .discard) ∧
    (∃ (r : HReq), wbMsg r.msg = false) ∧
    (∃ (r : HReq) (e : DirEnt) (s : State), s.wbFree r ∧ (r.msg = .memWr .a ∨ r.msg = .memWrPtl .a) ∧ s.ent (reqLine r) = some e ∧ e.coarse = false ∧
      e.sh.contains r.fid = true) ∧
    (∃ (r : HReq) (e : DirEnt) (s : State), s.wbFree r ∧ wbMsg r.msg = true ∧ r.msg ≠ .memWr .a ∧ r.msg ≠ .memWrPtl .a ∧ s.ent (reqLine r) = some e ∧
      (e.st = 1 ∨ e.st = 4) ∧ e.coarse = false ∧ e.sh.contains r.fid = true ∧ r.via ≠ .discard) ∧
    (∃ (r : HReq), memWrites r.msg = true) :=
  ⟨⟨{ hr with msg := .memRd .s .noOp }, (0, ⟨true, 3, 7⟩), { State.reset with bind := bd3 }, (by unfold State.requestFree; decide +kernel), by
     decide +kernel⟩,
   ⟨{ hr with msg := .rdAny }, (0, ⟨true, 3, 7⟩), { State.reset with bind := bd3 }, (by unfold State.requestFree; decide +kernel), by decide +kernel⟩,
   ⟨{ hr with msg := .rdOwn }, (0, ⟨true, 3, 7⟩), { State.reset with bind := bd3 }, (by unfold State.requestFree; decide +kernel), by decide +kernel⟩,
   ⟨{ hr with msg := .memRd .i .cur }, (0, ⟨true, 3, 7⟩), { State.reset with bind := bd3 }, (by unfold State.requestFree; decide +kernel), by
     decide +kernel⟩,
   ⟨{ hr with msg := .wrInv }, (0, ⟨true, 3, 7⟩), { State.reset with bind := bd3 }, (by unfold State.requestFree; decide +kernel), by decide +kernel⟩,
   ⟨{ hr with msg := .memClnEvct }, (0, ⟨true, 3, 7⟩), { State.reset with bind := bd3 }, (by unfold State.requestFree; decide +kernel), by
     decide +kernel⟩,
   ⟨{ hr with msg := .memRd .a .cur }, { State.reset with bind := bd3 }, by decide +kernel⟩,
   ⟨{ hr with msg := .memRd .a .cur }, { State.reset with bind := bd3 }, by decide +kernel⟩,
   ⟨{ hr with msg := .memRd .a .cur }, { State.reset with bind := bd3 }, by decide +kernel⟩,
   ⟨{ hr with msg := .memRd .a .cur }, { State.reset with bind := bd3 }, by decide +kernel⟩,
   ⟨{ hr with msg := .memRd .a .cur }, { State.reset with bind := bd3 }, by decide +kernel⟩,
   ⟨{ hr with msg := .memRd .a .cur }, { State.reset with bind := bd3 }, by decide +kernel⟩,
   ⟨hr, ent5 2, { hm { ents := [(la5, ent5 2)] } with bind := bd3 }, by decide +kernel⟩,
   ⟨hr, { State.reset with bind := bd3 }, by decide +kernel⟩,
   ⟨8, la5, { hm { trks := [(3, snp8)] } with bind := bd3 }, by decide +kernel⟩,
   ⟨hr, ent5 3, { hm { ents := [(la5, ent5 3)] } with bind := bd3 },
     by and_intros <;> first | exact (by unfold State.wbFree; decide +kernel) | decide +kernel⟩,
   ⟨hr, ⟨false, false, 0xCD, 0, false⟩, { hm { lines := [(la5, ⟨false, false, 0xCD, 0, false⟩)] } with bind := bd3 },
     by and_intros <;> first | exact (by unfold State.wbFree; decide +kernel) | exact (fun k x h => nomatch (show (k, x) ∈ [] from h)) | decide +kernel⟩,
   ⟨{ hr with msg := .rdOwn }, by decide +kernel⟩,
   ⟨{ hr with msg := .memWr .a }, ent5 3, { hm { ents := [(la5, ent5 3)] } with bind := bd3 }, (by unfold State.wbFree; decide +kernel), by
     decide +kernel, by decide +kernel, by decide +kernel, by decide +kernel⟩,
   ⟨{ hr with msg := .memWr .i }, ent5 1, { hm { ents := [(la5, ent5 1)] } with bind := bd3 },
     by and_intros <;> first | exact (by unfold State.wbFree; decide +kernel) | decide +kernel⟩,
   ⟨{ hr with msg := .memWr .i }, by decide +kernel⟩⟩

/-- States and operands that meet the hypotheses of `Obligations.LookupsAndSnoops`, clause by clause. -/
theorem witness_LookupsAndSnoops :
    (∃ (k : Nat) (x : Trk) (d : Line) (s : State), tfind s.home.trks k = some x ∧ x.phase = 1 ∧ (x.ev = .rds ∨ x.ev = .rda ∨ x.ev = .rdown) ∧ x.type2
      = false ∧ x.snps = [] ∧ x.todo = none ∧ x.ack = 0 ∧ x.rsps = [] ∧ x.wb = none ∧ x.got = some (d, false) ∧ x.via ≠ .discard ∧ s.ent x.la = none ∧
      s.blanketDom (s.laDom x.la) = false ∧ s.sfUp x.la = true ∧ (s.dieSet x.la).length < 16 ∧ s.dirBusy x.la = false) ∧
    (∃ (k : Nat) (x : Trk) (e : DirEnt) (s : State), tfind s.home.trks k = some x ∧ x.phase = 1 ∧ x.ev = .ce ∧ x.via ≠ .discard ∧ s.ent x.la = some e
      ∧ e.onDie = true ∧ e.coarse = false ∧ e.sh = [x.fid] ∧ e.st ≠ 3 ∧ s.dirBusy x.la = false) ∧
    (∃ (la : Nat) (k : Nat) (a : SnpRsp) (x : Trk) (s : State), s.home.gone.contains (la, (a.fid : Nat)) = false ∧ s.snoopOf la a.fid = some (k, x) ∧
      a.data = none ∧ (∀ n, n ∈ x.snps → n.fid = a.fid → tickEarlier s.tick.loc n.due = true ∧ a.keep.val + n.kind ≤ 2) ∧ x.snps.any (fun n
      => decide (n.fid ≠ a.fid)) = true) ∧
    (∃ (la : Nat) (k : Nat) (a : SnpRsp) (x : Trk) (n : Snp) (d : Line) (e : DirEnt) (s : State), s.home.gone.contains (la, (a.fid : Nat)) = false ∧
      s.snoopOf la a.fid = some (k, x) ∧ a.data = none ∧ a.keep = 0 ∧ x.snps = [n] ∧ n.fid = a.fid ∧ n.kind ≤ 2 ∧ tickEarlier s.tick.loc n.due = true
      ∧ x.phase = 2 ∧ x.todo = none ∧ x.ack = 0 ∧ x.ev = .rdown ∧ x.type2 = false ∧ x.wb = none ∧ x.got = some (d, false) ∧ x.via ≠ .discard ∧ x.ent =
      some e ∧ (e.st = 1 ∨ e.st = 4) ∧ s.sfUp la = true ∧ (s.dieSet la).length < 16) ∧
    (∃ (la : Nat) (a : SnpRsp) (s : State), s.home.gone.contains (la, (a.fid : Nat)) = true) ∧
    (∃ (la : Nat) (k : Nat) (a : SnpRsp) (x : Trk) (s : State), s.home.gone.contains (la, (a.fid : Nat)) = false ∧ s.snoopOf la a.fid = some (k, x) ∧
      (∀ n, n ∈ x.snps → n.fid = a.fid → tickEarlier s.tick.loc n.due = false)) ∧
    (∃ (k : Nat) (fid : Fid) (x : Trk) (n : Snp) (s : State), tfind s.home.trks k = some x ∧ x.snps.find? (fun n => decide (n.fid = (fid : Nat))) =
      some n ∧ tickEarlier s.tick.loc n.due = true) ∧
    (∃ (k : Nat) (fid : Fid) (x : Trk) (n : Snp) (s : State), tfind s.home.trks k = some x ∧ x.snps.find? (fun n => decide (n.fid = (fid : Nat))) =
      some n ∧ tickEarlier s.tick.loc n.due = false ∧ tfind (s.agentDead fid).home.trks k = none) :=
  ⟨⟨3, { la := la5, ev := .rda, fid := 7, phase := 1, got := some (0xAB, false) }, 0xAB,
     { hm { trks := [(3, { la := la5, ev := .rda, fid := 7, phase := 1, got := some (0xAB, false) })] } with bind := bd3 }, by decide +kernel⟩,
   ⟨3, { la := la5, ev := .ce, fid := 7, phase := 1 }, ent5 2,
     { hm { ents := [(la5, ent5 2)], trks := [(3, { la := la5, ev := .ce, fid := 7, phase := 1 })] } with bind := bd3 }, by decide +kernel⟩,
   ⟨la5, 3, ⟨8, 0, none⟩, snp8, { hm { trks := [(3, snp8)] } with bind := bd3 }, by decide +kernel⟩,
   ⟨la5, 3, ⟨8, 0, none⟩, own5, ⟨8, 2, 100, false⟩, 0xAB, ent5 1, { hm { ents := [(la5, ent5 1)], trks := [(3, own5)] } with bind := bd3 }, by
     decide +kernel⟩,
   ⟨la5, ⟨8, 0, none⟩, { hm { gone := [(la5, 8)] } with bind := bd3 }, by decide +kernel⟩,
   ⟨la5, 3, ⟨8, 0, none⟩, snp8, { hm { trks := [(3, snp8)] } with bind := bd3, tick := { loc := 100 } }, by decide +kernel⟩,
   ⟨3, 8, snp8, ⟨8, 1, 100, false⟩, { hm { trks := [(3, snp8)] } with bind := bd3 }, by decide +kernel⟩,
   ⟨3, 8, snp8, ⟨8, 1, 100, false⟩,
     { hm { trks := [(3, snp8)] } with bind := { bd3 with doms := [(3, { state := 1, agents := [(0, ⟨true, 3, 7⟩), (1, ⟨true, 3, 8⟩)] })] }, tick := { loc := 100 } },
     by decide +kernel⟩⟩

/-- States and operands that meet the hypotheses of `Obligations.MemoryAnswers`, clause by clause. -/
theorem witness_MemoryAnswers :
    (∃ (rid : Nat) (la : Nat) (s : State), tfind s.home.devRds rid = some (la, none)) ∧
    (∃ (rid : Nat) (la : Nat) (k : Nat) (x : Trk) (s : State), tfind s.home.devRds rid = some (la, some k) ∧ tfind s.home.trks k = some x ∧
      x.ev.isMove = false) ∧
    (∃ (la : Nat) (s : State), s.allocOf la = none) ∧
    (∃ (la : Nat) (s : State), (s.allocOf la).isSome = true) ∧
    (∃ (la : Nat) (l : LsLine) (a : Alloc) (s : State), s.lsLine la = some l ∧ l.wr = true ∧ s.home.allocs = [a] ∧ a.la ≠ la ∧ s.lsSet a.la = s.lsSet
      la ∧ s.home.trks = [] ∧ (s.setLines la).length + s.setShadows la ≤ 16) ∧
    (∃ (la : Nat) (k : Nat) (x : Trk) (s : State), s.inDoubt la = false ∧ s.lineBusy la = false ∧ (k, x) ∈ s.home.trks ∧ x.la = la ∧ x.phase = 0 ∧
      x.ev = .ncw ∧ (∀ j y, (j, y) ∈ s.home.trks → y.la = la → (j, y) ≠ (k, x) → x.ord < y.ord)) :=
  ⟨⟨1, la5, { hm { devRds := [(1, (la5, none))] } with bind := bd3 }, by decide +kernel⟩,
   ⟨1, la5, 3, { la := la5, ev := .rds, fid := 7, phase := 3, rd := 2, rid := 1 },
     { hm { devRds := [(1, (la5, some 3))], trks := [(3, { la := la5, ev := .rds, fid := 7, phase := 3, rd := 2, rid := 1 })] } with bind := bd3 }, by
     decide +kernel⟩,
   ⟨la5, State.reset, by decide +kernel⟩,
   ⟨la5, { hm { allocs := [⟨la5, ⟨true, false, 1, 0, false⟩, none⟩] } with bind := bd3 }, by decide +kernel⟩,
   by obtain ⟨x, y, hne, h⟩ := Finite.exists_ne_map_eq_of_infinite (fun n : Nat => (⟨Config.lsHash n % 25165824, Nat.mod_lt _ (by decide)⟩ : Fin
     25165824)); have h2 : Config.lsHash y % 25165824 = Config.lsHash x % 25165824 := (congrArg Fin.val h).symm; exact ⟨x, ⟨true, false, 1, 0, true⟩,
     ⟨y, ⟨true, false, 2, 0, false⟩, none⟩,
     { State.reset with home := { lines := [(x, ⟨true, false, 1, 0, true⟩)], allocs := [⟨y, ⟨true, false, 2, 0, false⟩, none⟩] } }, by simp
     [State.lsLine, tfind], rfl, rfl, hne.symm, by simp [State.lsSet, h2, State.slice, State.reset, tget], rfl, by simp [State.setLines,
     State.setShadows]⟩,
   ⟨la5, 3, { la := la5, ev := .ncw, fid := 7 }, { hm { trks := [(3, { la := la5, ev := .ncw, fid := 7 })] } with bind := bd3 },
     by and_intros <;> first | decide +kernel | exact (fun _ _ h _ hne => absurd (List.mem_singleton.mp h) hne)⟩⟩

/-- States and operands that meet the hypotheses of `Obligations.StackMemory`, clause by clause. -/
theorem witness_StackMemory :
    (∃ (h : StackIx) (pc : Fin 32) (slot : Fin 64) (attempt : Bool) (x : RdSlot) (s : State), tfind s.hbm.slots ((h.val * 32 + pc.val) * 64 +
      slot.val) = some x ∧ x.attempt ≠ b2n attempt) ∧
    (∃ (h : StackIx) (pc : Fin 32) (slot : Fin 64) (x : RdSlot) (s : State), tfind s.hbm.slots ((h.val * 32 + pc.val) * 64 + slot.val) = some x ∧
      x.attempt = 0 ∧ x.halves = 0) ∧
    (∃ (h : StackIx) (pc : Fin 32) (slot : Fin 64) (half : Bool) (x : RdSlot) (s : State), tfind s.hbm.slots ((h.val * 32 + pc.val) * 64 + slot.val) =
      some x ∧ x.attempt = 0 ∧ x.halves = (if half then 1 else 2)) ∧
    (∃ (h : StackIx) (pc : Fin 32) (slot : Fin 64) (x : RdSlot) (k : Nat) (s : State), tfind s.hbm.slots ((h.val * 32 + pc.val) * 64 + slot.val) =
      some x ∧ (x.halves = 1 ∨ x.halves = 2) ∧ x.attempt = 0 ∧ x.trk = some k) ∧
    (∃ (h : StackIx) (pc : Fin 32) (slot : Fin 64) (x : RdSlot) (s : State), tfind s.hbm.slots ((h.val * 32 + pc.val) * 64 + slot.val) = some x ∧
      (x.halves = 1 ∨ x.halves = 2) ∧ x.attempt ≠ 0) ∧
    (∃ (h : StackIx) (s : State), s.present 8 h = true) ∧
    (∃ (h : StackIx) (s : State), s.present 8 h = false) ∧
    (∃ (h : StackIx) (s : State), s.present 8 h = true ∧ s.bit hbmCtl 31 = true) ∧
    (∃ (n : Nat) (s : State), s.hbm.mirror = some n ∧ n < 576 ∧ s.tick.guardDone = false ∧ s.hbm.mirAt ≠ some s.tick.loc) ∧
    (∃ (n : Nat) (s : State), s.hbm.mirror = some n ∧ 576 ≤ n) :=
  ⟨⟨0, 0, 0, false, { la := la5, trk := none, attempt := 1 },
     { State.reset with hbm := { slots := [(0, { la := la5, trk := none, attempt := 1 })] } }, by decide +kernel⟩,
   ⟨0, 0, 0, { la := la5, trk := none }, { State.reset with hbm := { slots := [(0, { la := la5, trk := none })] } }, by decide +kernel⟩,
   ⟨0, 0, 0, true, { la := la5, trk := none, halves := 1 }, { State.reset with hbm := { slots := [(0, { la := la5, trk := none, halves := 1 })] } },
     by decide +kernel⟩,
   ⟨0, 0, 0, { la := la5, trk := some 3, halves := 1 }, 3, { State.reset with hbm := { slots := [(0, { la := la5, trk := some 3, halves := 1 })] } },
     by decide +kernel⟩,
   ⟨0, 0, 0, { la := la5, trk := some 3, halves := 1, attempt := 1 },
     { State.reset with hbm := { slots := [(0, { la := la5, trk := some 3, halves := 1, attempt := 1 })] } }, by decide +kernel⟩,
   ⟨0, State.reset, by decide +kernel⟩,
   ⟨0, rg [(0x20C, 0x100#32)], by decide +kernel⟩,
   ⟨0, rg [(hbmCtl, 0x80000000#32)], by decide +kernel⟩,
   ⟨575, { State.reset with hbm := { mirror := some 575 } }, by decide +kernel⟩,
   ⟨576, { State.reset with hbm := { mirror := some 576 } }, by decide +kernel⟩⟩

/-- States and operands that meet the hypotheses of `Obligations.HamperPorts`, clause by clause. -/
theorem witness_HamperPorts :
    (∃ (v : VcsIx) (k : Fin 64) (off : Fin 4096) (b : List Byte) (s : State), (tfind s.bind.vcs v).isSome = true ∧ (s.portSlot v k).st = 0 ∧ 0x20 ≤
      off.val ∧ off.val + b.length ≤ 0xA20) ∧
    (∃ (v : VcsIx) (k : Fin 64) (b : List Byte) (x : Vcs) (s : State), s.clk.draining = false ∧ tfind s.bind.vcs v = some x ∧ (s.portSlot v k).st = 0
      ∧ b.length = 32) ∧
    (∃ (v : VcsIx) (k : Fin 64) (b : List Byte) (x : Vcs) (s : State), s.clk.draining = false ∧ tfind s.bind.vcs v = some x ∧ (s.portSlot v k).st = 0
      ∧ b.length = 32 ∧ s.bit hmpCtl 31 = false) ∧
    (∃ (v : VcsIx) (k : Fin 64) (s : State), (s.portSlot v k).st = 2) ∧
    (∃ (v : VcsIx) (k : Fin 64) (s : State), (s.portSlot v k).st = 1) :=
  ⟨⟨3, 1, 0x20, [1, 2], dm { vcs := [(3, vc3)] }, by decide +kernel⟩,
   ⟨3, 1, List.replicate 32 0, vc3, dm { vcs := [(3, vc3)] }, by decide +kernel⟩,
   ⟨3, 1, List.replicate 32 0, vc3, { dm { vcs := [(3, vc3)] } with regs := [(hmpCtl, 0#32)] }, by decide +kernel⟩,
   ⟨3, 1, hp { ports := [(193, { st := 2 })] }, by decide +kernel⟩,
   ⟨3, 1, hp { ports := [(193, { st := 1 })] }, by decide +kernel⟩⟩

/-- States and operands that meet the hypotheses of `Obligations.HamperParts`, clause by clause. -/
theorem witness_HamperParts :
    (∃ (m : HMsg) (s : State), (s.part m.key).isSome = true) ∧
    (∃ (m : HMsg) (s : State), s.part m.key = none ∧ s.slotFree ≠ 0 ∧ s.partCheck m.acting m.lines = none ∧ s.locked = true ∧ s.bit glbTickStatus 30 =
      false ∧ tickEarlier s.tick.fab (m.key.stamp + 1 + BitVec.ofNat 48 m.attempt) = true ∧ tickEarlier (m.key.stamp + 1 + BitVec.ofNat 48 m.attempt)
      s.tick.fab = false ∧ m.key.stamp + 1 + BitVec.ofNat 48 m.attempt ≠ s.tick.fab) ∧
    (∃ (m : HMsg) (s : State), s.part m.key = none ∧ s.slotFree = 0) ∧
    (∃ (p : HPart) (q : HPart) (l : PLine) (m : PLine) (s : State), s.hmp.arbDone = false ∧ s.tick.guardDone = false ∧ s.contenders = [p, q] ∧ p.key ≠
      q.key ∧ l ∈ p.lines ∧ m ∈ q.lines ∧ m.la = l.la ∧ prior p.key q.key = true ∧ prior q.key p.key = false) ∧
    (∃ (key : HKey) (ix : Fin 32) (p : HPart) (l : PLine) (e : DirEnt) (s : State), s.part key = some p ∧ p.lines.find? (fun l => decide (l.l.index =
      ix)) = some l ∧ p.won = true ∧ p.vote = none ∧ l.step = 0 ∧ (∀ x, x ∈ p.lines → x.la < l.la → s.laBank x.la = s.laBank l.la → x.step = 2) ∧
      s.lineBusy l.la = false ∧ s.home.trks.any (fun x => decide (x.2.la = l.la) || decide (x.2.ev = .hamper key ix)) = false ∧ s.dirBusy l.la = false
      ∧ s.ent l.la = some e ∧ l.l.compare = false ∧ s.holders e ≠ [] ∧ s.tick.guardDone = false ∧ s.sfUp l.la = true ∧ e.onDie = true ∧
      s.copiesWaiting (s.laBank l.la) + (s.holders e).length ≤ 4096) ∧
    (∃ (key : HKey) (ix : Fin 32) (p : HPart) (l : PLine) (s : State), s.part key = some p ∧ p.lines.find? (fun l => decide (l.l.index = ix)) = some l
      ∧ p.won = true ∧ p.vote = none ∧ l.step = 0 ∧ (∀ x, x ∈ p.lines → x.la < l.la → s.laBank x.la = s.laBank l.la → x.step = 2) ∧ s.lineBusy l.la =
      false ∧ s.home.trks.any (fun x => decide (x.2.la = l.la) || decide (x.2.ev = .hamper key ix)) = false ∧ (∀ e, s.ent l.la = some e → e.onDie =
      false) ∧ s.tick.guardDone = false ∧ s.sfUp l.la = true ∧ (s.dieSet l.la).length < 16 ∧ s.dirAvail = true) ∧
    (∃ (key : HKey) (ix : Fin 32) (p : HPart) (l : PLine) (s : State), s.part key = some p ∧ p.lines.find? (fun l => decide (l.l.index = ix)) = some l
      ∧ p.won = true ∧ p.vote = none ∧ l.step = 0 ∧ (∀ x, x ∈ p.lines → x.la < l.la → s.laBank x.la = s.laBank l.la → x.step = 2) ∧ s.tick.guardDone =
      false ∧ s.home.trks.any (fun x => decide (x.2.ev = .hamper key ix)) = false ∧ (s.lineBusy l.la = true ∨ s.home.trks.any (fun x => decide (x.2.la
      = l.la)) = true)) :=
  ⟨⟨hms, hp { parts := [hpt] }, by decide +kernel⟩,
   ⟨hms, { hpf {} 100 with regs := lk }, by decide +kernel⟩,
   ⟨hms, hp { origs := List.replicate 16384 hor }, by decide +kernel⟩,
   ⟨hpt, hpt2, ⟨hln, 0⟩, ⟨hln, 0⟩, hpf { parts := [hpt, hpt2] } 101, by decide +kernel⟩,
   ⟨hky, 0, { hpt with won := true }, ⟨hln, 0⟩, { ent5 2 with sh := [8] },
     { hpf { parts := [{ hpt with won := true }] } 101 with home := { ents := [(5 * 2 ^ 22 + 1, { ent5 2 with sh := [8] })] } }, by decide +kernel⟩,
   ⟨hky, 0, { hpt with won := true }, ⟨hln, 0⟩,
     { hpf { parts := [{ hpt with won := true }] } 101 with home := { ents := [(5 * 2 ^ 22 + 1, { ent5 2 with sh := [8], onDie := false })] }, regs := [(sfDirStatus, 0x80000000#32)] },
     by decide +kernel⟩,
   ⟨hky, 0, { hpt with won := true }, ⟨hln, 0⟩,
     { hpf { parts := [{ hpt with won := true }] } 101 with home := { trks := [(1, { la := 5 * 2 ^ 22 + 1, ev := .ncr, phase := 1 })] } }, by
     decide +kernel⟩⟩

/-- States and operands that meet the hypotheses of `Obligations.LateParts`, clause by clause. -/
theorem witness_LateParts :
    (∃ (m : HMsg) (s : State), s.part m.key = none ∧ s.slotFree ≠ 0 ∧ s.partCheck m.acting m.lines = none ∧ s.locked = true ∧ s.bit glbTickStatus 30 =
      false ∧ (tickEarlier (m.key.stamp + 1 + BitVec.ofNat 48 m.attempt) s.tick.fab = true ∨ (m.key.stamp + 1 + BitVec.ofNat 48 m.attempt) =
      s.tick.fab ∧ s.hmp.arbDone = true)) ∧
    (∃ (m : HMsg) (s : State), s.part m.key = none ∧ s.slotFree = 0 ∧ (tickEarlier (m.key.stamp + 1 + BitVec.ofNat 48 m.attempt) s.tick.fab = true ∨
      (m.key.stamp + 1 + BitVec.ofNat 48 m.attempt) = s.tick.fab ∧ s.hmp.arbDone = true)) :=
  ⟨⟨hms, { hpf {} 102 with regs := lk }, by decide +kernel⟩,
   ⟨hms, { hpf { origs := List.replicate 16384 hor } 102 with regs := lk }, by decide +kernel,
     (by unfold State.slotFree; simp only [hpf, hp, List.length_replicate, Nat.sub_self, Nat.zero_sub]), by decide +kernel⟩⟩

/-- States and operands that meet the hypotheses of `Obligations.HamperVotes`, clause by clause. -/
theorem witness_HamperVotes :
    (∃ (key : HKey) (p : HPart) (s : State), s.part key = some p ∧ p.voteSent = false ∧ key.origin.val ≠ s.moduleFid ∧ p.window = s.tick.fab ∧ p.vote
      = none ∧ s.tick.guardDone = false) ∧
    (∃ (m : HMsg) (o : HOrig) (s : State), s.orig m.key = some o ∧ o.dec = none ∧ m.attempt = o.retries) ∧
    (∃ (m : HMsg) (s : State), s.orig m.key = none) ∧
    (∃ (o : HOrig) (s : State), s.hmp.dcdDone = false ∧ s.part o.key = none ∧ s.hmp.origs.filter (fun o => decide (o.window = s.tick.fab) &&
      o.dec.isNone && o.homes.any (fun h => decide (h ≠ s.moduleFid))) = [o] ∧ o.homes.all (fun h => decide (h = s.moduleFid) || o.votes.any (fun v
      => decide (v.1 = h))) = true ∧ s.bit hmpStatus 30 = false) ∧
    (∃ (o : HOrig) (s : State), s.hmp.dcdDone = false ∧ s.part o.key = none ∧ s.hmp.origs.filter (fun o => decide (o.window = s.tick.fab) &&
      o.dec.isNone && o.homes.any (fun h => decide (h ≠ s.moduleFid))) = [o] ∧ o.homes.all (fun h => decide (h = s.moduleFid) || o.votes.any (fun v
      => decide (v.1 = h))) = true ∧ s.bit hmpStatus 30 = true) :=
  ⟨⟨hky, hpt, hpf { parts := [hpt] } 101, by decide +kernel⟩,
   ⟨{ hms with key := ⟨100, 0, 1⟩ }, hor, hp { origs := [hor] }, by decide +kernel⟩,
   ⟨hms, State.reset, by decide +kernel⟩,
   ⟨{ hor with votes := [(9, 0, 255)] }, hpf { origs := [{ hor with votes := [(9, 0, 255)] }] } 101, by decide +kernel⟩,
   ⟨{ hor with votes := [(9, 0, 255)] }, { hpf { origs := [{ hor with votes := [(9, 0, 255)] }] } 101 with regs := [(hmpStatus, 0x40000000#32)] }, by
     decide +kernel⟩⟩

/-- States and operands that meet the hypotheses of `Obligations.HamperResolution`, clause by clause. -/
theorem witness_HamperResolution :
    (∃ (key : HKey) (p : HPart) (s : State), s.part key = some p ∧ p.prepared = true ∧ p.prepAck = false) ∧
    (∃ (key : HKey) (o : HOrig) (c : Nat) (s : State), s.orig key = some o ∧ o.dec = some c ∧ o.decAck = false) ∧
    (∃ (m : HMsg) (p : HPart) (s : State), s.part m.key = some p ∧ m.key.origin.val ≠ s.moduleFid) ∧
    (∃ (key : HKey) (p : HPart) (d : Tick) (s : State), s.part key = some p ∧ p.doubt = some d ∧ (∀ a, p.asked = some a → 16 ≤ ticksSince a
      s.tick.loc)) ∧
    (∃ (m : HMsg) (p : HPart) (s : State), s.part m.key = some p ∧ p.doubt.isSome = true ∧ m.code ≠ 0xFE ∧ m.code ≠ 0xFF) ∧
    (∃ (key : HKey) (p : HPart) (d : Tick) (s : State), s.part key = some p ∧ p.doubt = some d ∧ max 64 (s.fld hmpCtl 0 16) ≤ ticksSince d s.tick.loc) ∧
    (∃ (key : HKey) (p : HPart) (s : State), s.part key = some p ∧ p.doubt.isSome = true ∧ (∀ a, p.rew = some a → 1024 ≤ ticksSince a s.tick.loc)) ∧
    (∃ (key : HKey) (p : HPart) (a : Tick) (s : State), s.part key = some p ∧ p.rew = some a ∧ ticksSince a s.tick.loc < 1024) :=
  ⟨⟨hky, { hpt with prepared := true }, hp { parts := [{ hpt with prepared := true }] }, by decide +kernel⟩,
   ⟨⟨100, 0, 1⟩, { hor with dec := some 0 }, 0, hp { origs := [{ hor with dec := some 0 }] }, by decide +kernel⟩,
   ⟨hms, hpt, hp { parts := [hpt] }, by decide +kernel⟩,
   ⟨hky, { hpt with doubt := some 5 }, 5, hp { parts := [{ hpt with doubt := some 5 }] }, by decide +kernel, by decide +kernel,
     (fun a h => nomatch (show none = some a from h))⟩,
   ⟨hms, { hpt with doubt := some 5 }, hp { parts := [{ hpt with doubt := some 5 }] }, by decide +kernel⟩,
   ⟨hky, { hpt with doubt := some 5 }, 5, { hp { parts := [{ hpt with doubt := some 5 }] } with tick := { loc := 100000 } }, by decide +kernel⟩,
   ⟨hky, { hpt with doubt := some 5 }, hp { parts := [{ hpt with doubt := some 5 }] }, by decide +kernel, by decide +kernel,
     (fun a h => nomatch (show none = some a from h))⟩,
   ⟨hky, { hpt with doubt := some 5, rew := some 5 }, 5, { hp { parts := [{ hpt with doubt := some 5, rew := some 5 }] } with tick := { loc := 6 } },
     by decide +kernel⟩⟩

/-- States and operands that meet the hypotheses of `Obligations.TileAcceptance`, clause by clause. -/
theorem witness_TileAcceptance :
    (∃ (p : PortIx) (m : NetMsg) (src : Nat) (e : Nat) (f : Flow) (x : Fid) (s : State), s.portUp p = true ∧ s.clk.draining = false ∧ s.carries p
      m.type = true ∧ s.pmode p ≠ 3 ∧ s.edgeFid p m.ld = some src ∧ m.dst = .fid x ∧ s.egressOf (p.val / 16) src { dst := x }
      ({ m with cls := m.type.cls }) = some e ∧ tfind s.qos.flows (flowKey (p.val / 16) (fcOf ({ m with cls := m.type.cls }).cls) src) = some f ∧
      f.held = [] ∧ s.wheel (p.val / 16) = false ∧ f.dp + min 4096 (64 * cellCount m.bytes) ≤ f.pbs ∧ f.dc + min 4096 (64 * cellCount m.bytes) ≤ f.cbs
      ∧ s.spillDue (p.val * 8 + ({ m with cls := m.type.cls }).cls.val) = false ∧ s.cellFit (p.val * 8 + ({ m with cls := m.type.cls }).cls.val)
      (cellCount m.bytes) = true) ∧
    (∃ (p : PortIx) (m : NetMsg) (src : Nat) (x : Fid) (s : State), s.portUp p = true ∧ s.clk.draining = false ∧ s.carries p m.type = true ∧ s.pmode p
      ≠ 3 ∧ s.edgeFid p m.ld = some src ∧ m.dst = .fid x ∧ s.egressOf (p.val / 16) src { dst := x } ({ m with cls := m.type.cls }) = none) ∧
    (∃ (p : PortIx) (m : NetMsg) (s : State), (s.portUp p = false ∨ s.clk.draining = true ∨ s.carries p m.type = false)) :=
  ⟨⟨0, nm0, 7, 1, fl0, 9, { rg tr0 with qos := { flows := [(flowKey 0 0 7, fl0)] } }, by decide +kernel⟩,
   ⟨0, { nm0 with dst := .fid 300 }, 7, 300, rg tr0, by decide +kernel⟩,
   ⟨0, nm0, State.reset, by decide +kernel⟩⟩

/-- States and operands that meet the hypotheses of `Obligations.ShaperBuckets`, clause by clause. -/
theorem witness_ShaperBuckets :
    (∃ (f : Flow), f.dp ≤ f.pbs ∧ f.dc ≤ f.cbs) ∧
    (∃ (now : Nat) (c : Nat) (f : Flow), f.dp ≤ f.pbs ∧ f.dc ≤ f.cbs ∧ (shaperTest false now f c).1 = 2) ∧
    (∃ (now : Nat) (c : Nat) (f : Flow), f.dp ≤ f.pbs ∧ f.dc ≤ f.cbs ∧ (shaperTest false now f c).1 = 1) ∧
    (∃ (now : Nat) (c : Nat) (f : Flow), f.dp ≤ f.pbs ∧ f.dc ≤ f.cbs ∧ (shaperTest false now f c).1 = 0) ∧
    (∃ (f : Flow), f.dp ≤ f.pbs ∧ f.dc ≤ f.cbs ∧ f.pir = 0) ∧
    (∃ (now : Nat) (c : Nat) (f : Flow), f.dp ≤ f.pbs ∧ f.dc ≤ f.cbs ∧ (shaperTest true now f c).1 = 2) ∧
    (∃ (now : Nat) (c : Nat) (f : Flow), f.dp ≤ f.pbs ∧ f.dc ≤ f.cbs ∧ (shaperTest true now f c).1 = 0) :=
  ⟨⟨fl0, by decide +kernel⟩,
   ⟨0, 9000, fl0, by decide +kernel⟩,
   ⟨0, 5000, fl0, by decide +kernel⟩,
   ⟨0, 4000, fl0, by decide +kernel⟩,
   ⟨{ fl0 with pir := 0 }, by decide +kernel⟩,
   ⟨0, 1, { fl0 with pir := 0 }, by decide +kernel⟩,
   ⟨7, 0, fl0, by decide +kernel⟩⟩

/-- States and operands that meet the hypotheses of `Obligations.TileTransport`, clause by clause. -/
theorem witness_TileTransport :
    (∃ (d : StationIx) (r : MtrReq) (s : State), (s.collect.mtrDrain d).mtrReqs d = [r] ∧ (s.collect.mtrDrain d).mtrFits d r = true ∧ nbit (tget 0
      s.tel.level (d.val / 2)) 1 = false ∧ 192 ≤ r.m.egress ∧ r.q < 4096) ∧
    (∃ (p : PortIx) (c : ClassIx) (eg : Bool) (pg : Nat) (k : Nat) (m : TMsg) (ch : List (Nat × TMsg)) (s : State), tget [] s.hbm.spill ((if eg then
      1536 else 0) + p.val * 8 + c.val) = (pg, m) :: ch ∧ cellsOf (s.queue ((if eg then 1536 else 0) + p.val * 8 + c.val)) < 64 ∧ s.fetchCells ((if eg
      then 1536 else 0) + p.val * 8 + c.val) = 0 ∧ s.cellFit ((if eg then 1536 else 0) + p.val * 8 + c.val) (cellsOf ((((pg, m) :: ch).filter (fun x
      => decide (x.1 = pg))).map (·.2))) = true ∧ (List.range 64).find? (fun k => (tfind s.hbm.slots (((pg % 4 * 32 + areaPc (pg / 4 * 4096)) * 64) +
      k)).isNone) = some k) ∧
    (∃ (h : StackIx) (pc : Fin 32) (slot : Fin 64) (q : Nat) (pg : Nat) (x : RdSlot) (s : State), tfind s.hbm.slots ((h.val * 32 + pc.val) * 64 +
      slot.val) = some x ∧ x.job = .spill q pg ∧ x.attempt = 0 ∧ x.halves = 1) ∧
    (∃ (p : PortIx) (c : ClassIx) (m : TMsg) (s : State), s.pmode p ≠ 3 ∧ s.cxState (s.linkOf p) = 2 ∧ tget 0 s.qos.drrAt p % 8 = c.val ∧ s.queue
      (1536 + p.val * 8 + c.val) = [m] ∧ m.cells ≤ s.quantum p c) ∧
    (∃ (tl : TileIx) (fc : ClassIx) (src : Fid) (f : Flow) (m : TMsg) (s : State), s.wheel tl = false ∧ tfind s.qos.flows (flowKey tl fc src) = some f
      ∧ f.held = [m] ∧ f.dp + min 4096 (64 * m.cells) ≤ f.pbs ∧ f.cbs < f.dc + min 4096 (64 * m.cells)) ∧
    (∃ (tl : TileIx) (fc : ClassIx) (src : Fid) (f : Flow) (m : TMsg) (s : State), s.wheel tl = true ∧ tfind s.qos.flows (flowKey tl fc src) = some f
      ∧ f.held = [m] ∧ f.pir ≠ 0 ∧ f.next ≤ s.now16 + f.tau) ∧
    (∃ (p : PortIx) (c : ClassIx) (eg : Bool) (m : TMsg) (r : List TMsg) (lim : Nat) (s : State), s.queue ((if eg then 1536 else 0) + p.val * 8 +
      c.val) = m :: r ∧ s.ageLimit c = some lim ∧ lim ≤ ticksSince m.stamp s.tick.loc % 65536 ∧ 6 ≤ c.val) :=
  ⟨⟨24, ⟨0, 0, 0, ms0⟩, hb { queues := [(0, [ms0])] }, (rfl), by decide +kernel, by decide +kernel, by decide +kernel, by decide +kernel⟩,
   ⟨0, 6, false, 5, 0, ms0, [(8, ms0)], hb { spill := [(6, [(5, ms0), (8, ms0)])], spilling := [6] }, by decide +kernel⟩,
   ⟨0, 0, 0, 6, 5, { la := 5, trk := none, job := .spill 6 5, halves := 1 }, hb
     { spill := [(6, [(5, ms0), (8, ms0)])], spilling := [6], slots := [(0, { la := 5, trk := none, job := .spill 6 5, halves := 1 })] }, by
     decide +kernel⟩,
   ⟨0, 0, ms0, { rg tr0 with hbm := { queues := [(1536, [ms0])] } }, by decide +kernel⟩,
   ⟨0, 0, 7, { fl0 with dc := 4096, held := [ms0] }, ms0, qs { flows := [(flowKey 0 0 7, { fl0 with dc := 4096, held := [ms0] })] }, by
     decide +kernel⟩,
   ⟨0, 0, 7, { fl0 with held := [ms0] }, ms0,
     { rg [(tlQosStatus 0, 0x80000000#32)] with qos := { flows := [(flowKey 0 0 7, { fl0 with held := [ms0] })] } }, by decide +kernel⟩,
   ⟨0, 6, false, ms0, [], min 32767 (max 1 (({ hb { queues := [(6, [ms0])] } with tick := { loc := 65535 } } : State).fld hbmAgeLimit1 0 15)),
     { hb { queues := [(6, [ms0])] } with tick := { loc := 65535 } }, by decide +kernel⟩⟩

/-- States and operands that meet the hypotheses of `Obligations.QosFlowsAndModes`, clause by clause. -/
theorem witness_QosFlowsAndModes :
    (∃ (q : Req) (b : List Byte) (s : State), s.admitted 0x0801 q { kinds := [1], lenOk := true } = true ∧ b.length = 24 ∧ leAt b 0 4 < 2 ^ 18 ∧ fcOk
      (byteAt b 4) = true ∧ rsvZero b [(5, 3)] = true ∧ leAt b 8 4 < 2 ^ 24 ∧ leAt b 12 4 < 2 ^ 24 ∧ leAt b 16 4 < 2 ^ 24 ∧ leAt b 20 4 < 2 ^ 24 ∧
      leAt b 8 4 ≤ pirFloor (byteAt b 4) (leAt b 12 4) ∧ max 4096 (leAt b 16 4) ≤ leAt b 20 4 ∧ ((s.futureKeys q.index.toNat).contains (flowKey
      q.index.toNat (byteAt b 4) (leAt b 0 4)) = true ∨ (s.futureKeys q.index.toNat).length < 16384)) ∧
    (∃ (q : Req) (b : List Byte) (s : State), s.admitted 0x0802 q { kinds := [1], lenOk := true } = true ∧ b.length = 8 ∧ leAt b 0 4 < 2 ^ 18 ∧ fcOk
      (byteAt b 4) = true ∧ rsvZero b [(5, 3)] = true ∧ (s.futureKeys q.index.toNat).contains (flowKey q.index.toNat (byteAt b 4) (leAt b 0 4)) =
      true) ∧
    (∃ (tl : Nat) (key : Nat) (cir : Nat) (pir : Nat) (cbs : Nat) (pbs : Nat) (a : Tick) (l : List FlowChange) (s : State), s.qos.changes = ⟨tl, key,
      some (cir, pir, cbs, pbs), a⟩ :: l ∧ a ≠ s.tick.loc) ∧
    (∃ (tl : Nat) (key : Nat) (a : Tick) (l : List FlowChange) (f : Flow) (s : State), s.qos.changes = ⟨tl, key, none, a⟩ :: l ∧ a ≠ s.tick.loc ∧
      tfind s.qos.flows key = some f) ∧
    (∃ (tl : TileIx) (s : State), s.present 1 tl = false) ∧
    (∃ (tl : TileIx) (v : Word) (s : State), s.present 1 tl = true ∧ bits v 0 2 = 1 ∧ 16384 < (s.futureKeys tl).length) ∧
    (∃ (tl : TileIx) (v : Word) (s : State), s.present 1 tl = true ∧ (bits v 0 2 ≠ 1 ∨ (s.futureKeys tl).length ≤ 16384)) ∧
    (∃ (tl : TileIx) (s : State), tget 0 s.qos.modeReq tl = 0) ∧
    (∃ (tl : TileIx) (m : Nat) (s : State), tget 0 s.qos.modeReq tl = m ∧ (m = 1 ∨ m = 2) ∧ tget 0 s.qos.modeAt tl ≠ s.tick.loc.toNat + 1) ∧
    (∃ (tl : TileIx) (s : State), tget 0 s.qos.modeAt tl = s.tick.loc.toNat + 1) ∧
    (∃ (g : Fin 4096) (s : State), tget 0 s.qos.edgeD g ≠ tget 0 s.qos.seen g) ∧
    (∃ (g : Fin 4096) (s : State), tget 0 s.qos.edgeD g = tget 0 s.qos.seen g) :=
  ⟨⟨rq 1 0, fb, State.reset, by decide +kernel⟩,
   ⟨rq 1 0, cb9, qs { flows := [(flowKey 0 0 9, fl0)] }, by decide +kernel⟩,
   ⟨0, flowKey 0 0 9, 64, 100, 4096, 8192, 0, [], { qs { changes := [⟨0, flowKey 0 0 9, some (64, 100, 4096, 8192), 0⟩] } with tick := { loc := 3 } },
     by decide +kernel⟩,
   ⟨0, flowKey 0 0 9, 0, [], fl0, { qs { flows := [(flowKey 0 0 9, fl0)], changes := [⟨0, flowKey 0 0 9, none, 0⟩] } with tick := { loc := 3 } }, by
     decide +kernel⟩,
   ⟨0, rg [(glbRetMisc, 0x10000#32)], by decide +kernel⟩,
   ⟨0, 1#32, qs { flows := List.replicate 16385 (0, fl0) }, by decide +kernel, by decide +kernel,
     (by show 16384 < (((List.replicate 16385 ((0 : Nat), fl0)).filter _).map _).length; rw [List.length_map, List.filter_replicate_of_pos (by decide), List.length_replicate]; decide)⟩,
   ⟨0, 1#32, State.reset, by decide +kernel⟩,
   ⟨0, State.reset, by decide +kernel⟩,
   ⟨0, 2, qs { modeReq := [(0, 2)], flows := [(flowKey 0 0 9, fl0)] }, by decide +kernel⟩,
   ⟨0, qs { modeReq := [(0, 2)], modeAt := [(0, 1)] }, by decide +kernel⟩,
   ⟨0, { rg tr0 with qos := { seen := [(0, 7)] } }, by decide +kernel⟩,
   ⟨0, State.reset, by decide +kernel⟩⟩

/-- States and operands that meet the hypotheses of `Obligations.QosAdmission`, clause by clause. -/
theorem witness_QosAdmission :
    (∃ (q : Req) (b : List Byte) (k : Nat) (s : State), s.admitted 0x0803 q
      { lenOk := true, units := tgtUnits (leAt b 6 2), objs := tgtObjs (leAt b 6 2) } = true ∧ b.length = 12 ∧ leAt b 0 4 < 2 ^ 18 ∧ fcOk (byteAt b 4)
      = true ∧ rsvZero b [(5, 1)] = true ∧ (leAt b 6 2) < 4096 ∧ leAt b 8 4 < 2 ^ 24 ∧ s.rsvFind (leAt b 0 4) (byteAt b 4) (leAt b 6 2) = none ∧
      (List.range (min 65536 (s.qos.rsv.length + 1))).find? (fun k => (tfind s.qos.rsv k).isNone) = some k ∧ (s.begun 0x0803 q b).tgtDeliver (leAt b 6
      2) ≠ 0 ∧ s.tgtSum (leAt b 6 2) + leAt b 8 4 ≤ (s.begun 0x0803 q b).tgtDeliver (leAt b 6 2)) ∧
    (∃ (q : Req) (b : List Byte) (k : Nat) (s : State), s.admitted 0x0803 q
      { lenOk := true, units := tgtUnits (leAt b 6 2), objs := tgtObjs (leAt b 6 2) } = true ∧ b.length = 12 ∧ leAt b 0 4 < 2 ^ 18 ∧ fcOk (byteAt b 4)
      = true ∧ rsvZero b [(5, 1)] = true ∧ (leAt b 6 2) < 4096 ∧ leAt b 8 4 < 2 ^ 24 ∧ s.rsvFind (leAt b 0 4) (byteAt b 4) (leAt b 6 2) = none ∧
      (List.range (min 65536 (s.qos.rsv.length + 1))).find? (fun k => (tfind s.qos.rsv k).isNone) = some k ∧ (s.begun 0x0803 q b).tgtDeliver (leAt b 6
      2) ≠ 0 ∧ (s.begun 0x0803 q b).tgtDeliver (leAt b 6 2) < s.tgtSum (leAt b 6 2) + leAt b 8 4) ∧
    (∃ (q : Req) (b : List Byte) (e : Nat × Rsv) (s : State), s.admitted 0x0804 q
      { lenOk := true, units := tgtUnits (leAt b 6 2), objs := tgtObjs (leAt b 6 2) } = true ∧ b.length = 8 ∧ leAt b 0 4 < 2 ^ 18 ∧ fcOk (byteAt b 4)
      = true ∧ rsvZero b [(5, 1)] = true ∧ leAt b 6 2 < 4096 ∧ s.rsvFind (leAt b 0 4) (byteAt b 4) (leAt b 6 2) = some e) ∧
    (∃ (q : Req) (b : List Byte) (s : State), s.admitted 0x0805 q { lenOk := true, units := tgtUnits (leAt b 6 2), objs := tgtObjs (leAt b 6 2) } =
      true ∧ b.length = 12 ∧ rsvZero b [(0, 6)] = true ∧ 256 ≤ leAt b 6 2 ∧ leAt b 6 2 < 4096 ∧ leAt b 8 4 < 2 ^ 24 ∧ tget 0 s.bind.devs (leAt b 6 2 -
      256) ≠ 0) :=
  ⟨⟨rq 0 0, toLe 4 9 ++ [0, 0] ++ toLe 2 0 ++ toLe 4 16, 0, rg [(ptMode 0, 0x40000000#32), (ptCxStatus 0, 0x4A000000#32)], by decide +kernel⟩,
   ⟨rq 0 0, toLe 4 9 ++ [0, 0] ++ toLe 2 0 ++ toLe 4 1000000, 0, rg [(ptMode 0, 0x40000000#32), (ptCxStatus 0, 0x4A000000#32)], by decide +kernel⟩,
   ⟨rq 0 0, toLe 4 9 ++ [0, 0] ++ toLe 2 0, (0, ⟨9, 0, 0, 16⟩), qs { rsv := [(0, ⟨9, 0, 0, 16⟩)] }, by decide +kernel⟩,
   ⟨rq 0 0, [0, 0, 0, 0, 0, 0] ++ toLe 2 256 ++ toLe 4 100,
     { rg [(ptMode 0, 0x80000000#32), (ptEdgeId 0 0, 0x80000009#32)] with bind := { devs := [(0, 16)] } }, by decide +kernel⟩⟩

/-- States and operands that meet the hypotheses of `Obligations.EntriesStart`, clause by clause. -/
theorem witness_EntriesStart :
    (∃ (ix : InstIx) (ext : List (Nat × Nat × Nat)) (s : State), s.entryReady ix 0x01 ext) ∧
    (∃ (ix : InstIx) (ext : List (Nat × Nat × Nat)) (s : State), s.entryReady ix 0x02 ext) ∧
    (∃ (ix : InstIx) (ext : List (Nat × Nat × Nat)) (s : State), s.entryReady ix 0x03 ext) ∧
    (∃ (ix : InstIx) (ext : List (Nat × Nat × Nat)) (s : State), s.entryReady ix 0x04 ext) ∧
    (∃ (ix : InstIx) (ext : List (Nat × Nat × Nat)) (s : State), s.entryReady ix 0x08 ext) ∧
    (∃ (ix : InstIx) (s : State), s.canStart ix = true ∧ s.insLegacy ix = false ∧ s.insReject ix = false ∧ formatErr false (s.inst ix).entry = none ∧
      byteAt (s.inst ix).entry 0 = 0) ∧
    (∃ (ix : InstIx) (off : Nat) (s : State), s.canStart ix = true ∧ formatErr (s.insLegacy ix) (s.inst ix).entry = some off ∧ byteAt (s.inst
      ix).entry 0 = 0x01) ∧
    (∃ (ix : InstIx) (rec : List Byte) (ext : List (Nat × Nat × Nat)) (s : State), s.canStart ix = true ∧ s.insLegacy ix = false ∧ s.insReject ix =
      false ∧ formatErr false (s.inst ix).entry = none ∧ byteAt (s.inst ix).entry 0 = 0x11 ∧ 32 + 80 * byteAt rec 1 ≤ rec.length ∧ leAt (s.inst
      ix).entry 16 8 + (32 + 80 * byteAt rec 1) ≤ 2 ^ 64 ∧ s.opndCheck ix [⟨1, byteAt (s.inst ix).entry 24, leAt (s.inst ix).entry 16 8, 32 + 80 *
      byteAt rec 1, false⟩] ext = none) ∧
    (∃ (fid : Fid) (sl : SliceIx) (off : BitVec 22) (rights : BitVec 2) (len : BitVec 64) (s : State), off.toNat * 64 + len.toNat ≤ 2 ^ 28 ∧ (s.slice
      sl).state ≠ 5 ∧ s.homeReason fid sl (rights.getLsbD 1) = none) ∧
    (∃ (fid : Fid) (sl : SliceIx) (off : BitVec 22) (rights : BitVec 2) (len : BitVec 64) (r : Nat) (s : State), off.toNat * 64 + len.toNat ≤ 2 ^ 28 ∧
      (s.slice sl).state ≠ 5 ∧ s.homeReason fid sl (rights.getLsbD 1) = some r) :=
  ⟨⟨0, [], i0 (iu [(eb 1).take 32, (eb 1).drop 32]), (by unfold State.entryReady; decide +kernel)⟩,
   ⟨0, [], i0 (iu [fillB.take 32, fillB.drop 32]), (by unfold State.entryReady; decide +kernel)⟩,
   ⟨0, [], i0 (iu [(eb 3).take 32, (eb 3).drop 32]), (by unfold State.entryReady; decide +kernel)⟩,
   ⟨0, [], i0 (iu [crcB.take 32, crcB.drop 32]), (by unfold State.entryReady; decide +kernel)⟩,
   ⟨0, [], i0 (iu redU), (by unfold State.entryReady; decide +kernel)⟩,
   ⟨0, i0 (iu [List.replicate 32 0]), by decide +kernel⟩,
   ⟨0, 32, i0 (iu [u0 1, List.replicate 32 0]), by decide +kernel⟩,
   ⟨0, rec0, [], i0 (iu hu), by and_intros <;> first | decide +kernel | exact (rfl)⟩,
   ⟨7, 5, 1, 3, 64, { State.reset with bind := bd3 }, by decide +kernel⟩,
   ⟨8, 5, 1, 3, 64, 4, { State.reset with bind := bd3 }, by decide +kernel⟩⟩

/-- States and operands that meet the hypotheses of `Obligations.JobsRun`, clause by clause. -/
theorem witness_JobsRun :
    (∃ (ix : InstIx) (j : Job) (e : Nat) (s : State), (s.inst ix).job = some j ∧ (s.inst ix).eng = some e ∧ j.fin = none ∧ byteAt j.bytes 0 = 0x02 ∧
      s.insLegacy ix = false ∧ j.prog < leAt j.bytes 32 8 ∧ leAt j.bytes 32 8 - j.prog ≤ s.stepKib * 1024) ∧
    (∃ (ix : InstIx) (j : Job) (e : Nat) (k : Nat) (a : List Byte) (c : List Byte) (s : State), (s.inst ix).job = some j ∧ (s.inst ix).eng = some e ∧
      j.fin = none ∧ byteAt j.bytes 0 = 0x03 ∧ s.insLegacy ix = false ∧ min (s.stepKib * 1024) (leAt j.bytes 32 8 - j.prog) ≤ a.length ∧ min
      (s.stepKib * 1024) (leAt j.bytes 32 8 - j.prog) ≤ c.length ∧ k < min (s.stepKib * 1024) (leAt j.bytes 32 8 - j.prog) ∧ a.getD k 0 ≠ c.getD k 0 ∧
      (∀ n, n < k → a.getD n 0 = c.getD n 0)) ∧
    (∃ (ix : InstIx) (j : Job) (e : Nat) (s : State), (s.inst ix).job = some j ∧ (s.inst ix).eng = some e ∧ j.fin = none ∧ byteAt j.bytes 0 = 0x01) ∧
    (∃ (ix : InstIx) (j : Job) (st : Nat) (res : Nat) (s : State), (s.inst ix).job = some j ∧ j.fin = some (st, res) ∧ haltingStatus st = false ∧ (∀
      e, (s.inst ix).eng = some e → e < 64)) ∧
    (∃ (ix : InstIx) (num : Nat) (rec : List Byte) (e : REnt) (s : State), s.hmp.engOut.find? (fun o => decide (o.1 = ix.val)) = some (ix.val, num,
      rec) ∧ ((s.inst ix).ents ++ (s.inst ix).late).find? (fun e => decide (e.job = num) && e.opn) = some e ∧ s.ringState ix = 1) ∧
    (∃ (ix : InstIx) (num : Nat) (rec : List Byte) (e : REnt) (s : State), s.hmp.engOut.find? (fun o => decide (o.1 = ix.val)) = some (ix.val, num,
      rec) ∧ ((s.inst ix).ents ++ (s.inst ix).late).find? (fun e => decide (e.job = num) && e.opn) = some e ∧ s.ringState ix = 1 ∧ (s.inst ix).job =
      none) ∧
    (∃ (ix : InstIx) (j : Job) (e : Nat) (s : State), (s.inst ix).job = some j ∧ j.fin = none ∧ (s.inst ix).eng = some e) ∧
    (∃ (ix : InstIx) (j : Job) (s : State), (s.inst ix).job = some j ∧ j.fin = none ∧ (s.inst ix).eng = none) ∧
    (∃ (ix : InstIx) (s : State), (s.inst ix).job.isNone = true) :=
  ⟨⟨0, jb fillB, 0, i0 (ij (jb fillB)), by decide +kernel⟩,
   ⟨0, jb (eb 3), 0, 2, List.replicate 64 1, [1, 1, 7] ++ List.replicate 61 1, i0 (ij (jb (eb 3))), by decide +kernel⟩,
   ⟨0, jb (eb 1), 0, i0 (ij (jb (eb 1))), by decide +kernel⟩,
   ⟨0, { jb (eb 1) with fin := some (0, 0) }, 0, 0, i0 (ij { jb (eb 1) with fin := some (0, 0) }), by decide +kernel, by decide +kernel, by
     decide +kernel, (fun e h => by have := Option.some.inj (show some 0 = some e from h); omega)⟩,
   ⟨0, 4, rec0, { pos := 0, n := 2, job := 4, irq := false, opn := true },
     { i0 { ents := [{ pos := 0, n := 2, job := 4, irq := false, opn := true }] } with hmp := { engOut := [(0, 4, rec0)] } }, by decide +kernel⟩,
   ⟨0, 4, rec0, { pos := 0, n := 2, job := 4, irq := false, opn := true },
     { i0 { ents := [{ pos := 0, n := 2, job := 4, irq := false, opn := true }] } with hmp := { engOut := [(0, 4, rec0)] } }, by decide +kernel⟩,
   ⟨0, jb (eb 1), 0, i0 (ij (jb (eb 1))), by decide +kernel⟩,
   ⟨0, jb (eb 1), i0 { ij (jb (eb 1)) with eng := none }, by decide +kernel⟩,
   ⟨0, i0 {}, by decide +kernel⟩⟩

/-- States and operands that meet the hypotheses of `Obligations.PageMoves`, clause by clause. -/
theorem witness_PageMoves :
    (∃ (ix : InstIx) (s : State), s.canStart ix = true ∧ s.insLegacy ix = false ∧ s.insReject ix = false ∧ s.insManager ix = true ∧ formatErr false
      ((s.inst ix).entry) = none ∧ byteAt ((s.inst ix).entry) 0 = 0x10 ∧ (s.slice (leAt ((s.inst ix).entry) 16 4)).state = 1 ∧ s.hasMember (leAt
      ((s.inst ix).entry) 20 4) = true ∧ (leAt ((s.inst ix).entry) 20 4 ≠ (s.slice (leAt ((s.inst ix).entry) 16 4)).dev ∨ leAt ((s.inst ix).entry) 24
      4 ≠ (s.slice (leAt ((s.inst ix).entry) 16 4)).dpa) ∧ leAt ((s.inst ix).entry) 24 4 < s.capacityOf (leAt ((s.inst ix).entry) 20 4) ∧ (∀ k x, (k,
      x) ∈ s.bind.slices → k ≠ (leAt ((s.inst ix).entry) 16 4) → x.state ≠ 0 → ¬ (x.dev = leAt ((s.inst ix).entry) 20 4 ∧ x.dpa = leAt ((s.inst
      ix).entry) 24 4) ∧ ¬ (x.state = 4 ∧ x.newDev = leAt ((s.inst ix).entry) 20 4 ∧ x.newDpa = leAt ((s.inst ix).entry) 24 4))) ∧
    (∃ (ix : InstIx) (j : Job) (s : State), (s.inst ix).job = some j ∧ byteAt j.bytes 0 = 0x10 ∧ j.fin = none ∧ (s.slice (leAt j.bytes 16 4)).state =
      4 ∧ (s.slice (leAt j.bytes 16 4)).mark = 65535 ∧ (∀ k, k < 64 → ∃ x, s.home.trks.find? (fun t => decide (t.2.la = (leAt j.bytes 16 4) * 2 ^ 22 +
      65535 * 64 + k) && t.2.ev.isMove) = some x ∧ x.2.phase = 5)) ∧
    (∃ (ix : InstIx) (j : Job) (st : Nat) (s : State), (s.inst ix).job = some j ∧ byteAt j.bytes 0 = 0x10 ∧ j.fin = none ∧ j.stop = some st ∧ (st =
      stEngTargetFailed ∨ st = stEngMoveAborted)) :=
  ⟨⟨0, { rg (eiM ++ pmR) with eng := { insts := [(0, iu pmU)] }, bind := { slices := [(5, { state := 1 })], devs := [(0, 16)] } },
     by and_intros <;> first | decide +kernel | exact (fun k x h hk => absurd ((congrArg Prod.fst (List.mem_singleton.mp (show (k, x) ∈ [(5, ({ state := 1 } : Slice))] from h))).trans (by decide +kernel)) hk)⟩,
   ⟨0, jb pmU.flatten,
     { rg (eiM ++ pmR) with eng := { insts := [(0, ij (jb pmU.flatten))] }, bind := { slices := [(5, { state := 4, mark := 65535, newDev := 9, newDpa := 2 })] }, home := { trks := mvT } },
     by decide +kernel, by decide +kernel, by decide +kernel, by decide +kernel, by decide +kernel,
     (fun k hk => ((Option.any_eq_true _ _).mp (List.all_eq_true.mp (show (List.range 64).all (fun k => (mvT.find? (fun t => decide (t.2.la = leAt (jb pmU.flatten).bytes 16 4 * 2 ^ 22 + 65535 * 64 + k) && t.2.ev.isMove)).any (fun x => decide (x.2.phase = 5))) = true by decide +kernel) k (List.mem_range.mpr hk))).imp (fun x h => ⟨h.1, of_decide_eq_true h.2⟩))⟩,
   ⟨0, { jb pmU.flatten with stop := some stEngMoveAborted }, stEngMoveAborted,
     { rg (eiM ++ pmR) with eng := { insts := [(0, ij { jb pmU.flatten with stop := some stEngMoveAborted })] }, bind := { slices := [(5, { state := 5, mark := 65535, newDev := 9, newDpa := 2 })] } },
     by decide +kernel⟩⟩

/-- States and operands that meet the hypotheses of `Obligations.Rings`, clause by clause. -/
theorem witness_Rings :
    (∃ (ix : InstIx) (s : State), s.insBound ix = true ∧ s.bit (insRingCtl ix) 31 = false ∧ s.ringState ix = 0 ∧ s.fld (insRingCtl ix) 0 4 ≤ 10 ∧
      s.ringSpace ix = 1 ∧ s.bit (insHeadWbCtl ix) 31 = false) ∧
    (∃ (ix : InstIx) (s : State), s.bit (insRingCtl ix) 31 = true ∧ s.ringState ix = 3) ∧
    (∃ (ix : InstIx) (j : Job) (s : State), s.bit (insRingCtl ix) 31 = true ∧ s.ringState ix = 1 ∧ (s.inst ix).job = some j ∧ j.fin = none ∧ j.stop =
      none) ∧
    (∃ (ix : InstIx) (tail : Word) (s : State), s.ringState ix = 1 ∧ (tail.toNat + 2 ^ 32 - (s.inst ix).h) % 2 ^ 32 ≤ s.ringUnits ix ∧ (tail.toNat + 2
      ^ 32 - (s.inst ix).t) % 2 ^ 32 < 2 ^ 31) ∧
    (∃ (ix : InstIx) (tail : Word) (s : State), s.ringState ix = 1 ∧ s.ringUnits ix < (tail.toNat + 2 ^ 32 - (s.inst ix).h) % 2 ^ 32) ∧
    (∃ (ix : InstIx) (s : State), s.ringState ix ≠ 1) ∧
    (∃ (ix : InstIx) (b : List Byte) (s : State), s.ringState ix = 1 ∧ ((s.inst ix).x + (s.inst ix).units.length) % 2 ^ 32 ≠ (s.inst ix).t ∧ (s.inst
      ix).pfHeld < s.pfShare ∧ (s.inst ix).refetch = false ∧ b.length = 32) ∧
    (∃ (ix : InstIx) (s : State), (s.inst ix).refetch = true ∧ (s.inst ix).job = none) ∧
    (∃ (ix : InstIx) (s : State), s.headDue ix = false) ∧
    (∃ (ix : InstIx) (s : State), s.headDue ix = true ∧ (s.inst ix).h < 2 ^ 32) :=
  ⟨⟨0, rg [(engInst 0, 0x80000007#32), (insRingCtl 0, 0x10#32)], by decide +kernel⟩,
   ⟨0, rg [(engInst 0, 0x80000007#32), (insRingCtl 0, 0x80000010#32), (insRingStatus 0, 0x60000000#32)], by decide +kernel⟩,
   ⟨0, jb (eb 1), { rg (ei ++ [(insRingCtl 0, 0x80000010#32)]) with eng := { insts := [(0, ij (jb (eb 1)))] } }, by decide +kernel⟩,
   ⟨0, 5, rg ei, by decide +kernel⟩,
   ⟨0, 65, rg ei, by decide +kernel⟩,
   ⟨0, State.reset, by decide +kernel⟩,
   ⟨0, List.replicate 32 0, i0 { t := 2 }, by decide +kernel⟩,
   ⟨0, i0 { refetch := true }, by decide +kernel⟩,
   ⟨0, State.reset, by decide +kernel⟩,
   ⟨0, i0 { h := 2, t := 2, eng := some 0, unpub := 2 }, by decide +kernel⟩⟩

/-- States and operands that meet the hypotheses of `Obligations.Instances`, clause by clause. -/
theorem witness_Instances :
    (∃ (q : Req) (b : List Byte) (c : Nat) (s : State), s.admitted 0x0601 q { kinds := [9], lenOk := true } = true ∧ b.length = 28 ∧ leAt b 0 4 < 2 ^
      18 ∧ leAt b 4 4 < 2 ^ 20 ∧ byteAt b 8 < 8 ∧ leAt b 10 2 < 2048 ∧ leAt b 12 4 < 2 ^ 24 ∧ leAt b 16 4 < 2 ^ 24 ∧ leAt b 20 4 < 2 ^ 24 ∧ leAt b 24
      4 < 2 ^ 24 ∧ leAt b 12 4 ≤ leAt b 16 4 ∧ leAt b 20 4 ≤ leAt b 24 4 ∧ (s.begun 0x0601 q b).pickCluster = some c ∧ (s.begun 0x0601 q
      b).boundInsts.any (fun k => decide (k = (q.index.toNat)) || (decide ((s.begun 0x0601 q b).insHost k = leAt b 0 4) && decide ((s.begun 0x0601 q
      b).fld (engInst k + 4) 0 20 = leAt b 4 4))) = false ∧ ((s.begun 0x0601 q b).vcsOfHost (leAt b 0 4)).isSome = true) ∧
    (∃ (q : Req) (b : List Byte) (s : State), s.admitted 0x0603 q { kinds := [9], lenOk := true } = true ∧ b.length = 28 ∧ rsvZero b [(0, 9), (10, 2)]
      = true ∧ leAt b 12 4 < 2 ^ 24 ∧ leAt b 16 4 < 2 ^ 24 ∧ leAt b 20 4 < 2 ^ 24 ∧ leAt b 24 4 < 2 ^ 24 ∧ leAt b 12 4 ≤ leAt b 16 4 ∧ leAt b 20 4 ≤
      leAt b 24 4 ∧ (s.begun 0x0603 q b).insBound q.index.toNat = true) ∧
    (∃ (q : Req) (b : List Byte) (s : State), s.admitted 0x0604 q { kinds := [9], lenOk := true } = true ∧ b.length = 0) ∧
    (∃ (v : VcsIx) (ix : InstIx) (off : Fin 4096) (c : Vcs) (s : State), tfind s.bind.vcs v = some c ∧ s.insBound ix = true ∧ s.insHost ix = c.host ∧
      off.val % 4 = 0) ∧
    (∃ (v : VcsIx) (ix : InstIx) (c : Vcs) (s : State), tfind s.bind.vcs v = some c ∧ s.insHost ix ≠ c.host) ∧
    (∃ (ix : InstIx) (v : Word) (s : State), s.bit (insIrqCtl ix) 31 = true ∧ s.bit (insIrqCtl ix) 30 = true ∧ v.getLsbD 31 = false ∧ (∀ n c,
      s.vcsOfHost (s.insHost ix) = some (n, c) → s.msixMasked n (s.insVec ix) = false)) ∧
    (∃ (ix : InstIx) (s : State), s.insBound ix = true ∧ s.bit (insMboxCtl ix) 31 = false) ∧
    (∃ (ix : InstIx) (s : State), s.insBound ix = true ∧ s.bit (insMboxCtl ix) 30 = false ∧ s.bit (insIrqCtl ix) 31 = false ∧ (∀ n c, s.vcsOfHost
      (s.insHost ix) = some (n, c) → s.msixMasked n (s.insVec ix) = false)) ∧
    (∃ (ix : InstIx) (n : Nat) (c : Vcs) (s : State), s.insBound ix = true ∧ s.bit (insMboxCtl ix) 30 = false ∧ s.bit (insIrqCtl ix) 31 = false ∧
      s.vcsOfHost (s.insHost ix) = some (n, c) ∧ s.msixMasked n (s.insVec ix) = true) ∧
    (∃ (ix : InstIx) (s : State), s.insBound ix = true) ∧
    (∃ (ix : InstIx) (s : State), s.bit (insMboxCtl ix) 31 = false) ∧
    (∃ (s : State), s.eng.dueN ≠ s.eng.shareN ∨ s.eng.dueP ≠ s.eng.shareP) :=
  ⟨⟨rq 9 0, inB, 0, dm { vcs := [(0, vc3)] },
     by and_intros <;> first | exact (by have h : ((dm { vcs := [(0, vc3)] }).begun 0x0601 (rq 9 0) inB).boundInsts = [] := State.boundInsts_of_regs_nil rfl; simp only [State.pickCluster, h]; decide +kernel) | exact (by have h : ((dm { vcs := [(0, vc3)] }).begun 0x0601 (rq 9 0) inB).boundInsts = [] := State.boundInsts_of_regs_nil rfl; rw [h]; rfl) | decide +kernel⟩,
   ⟨rq 9 0, List.replicate 9 0 ++ [1] ++ toLe 2 0 ++ toLe 4 1 ++ toLe 4 2 ++ toLe 4 64 ++ toLe 4 64, rg ei, by decide +kernel⟩,
   ⟨rq 9 0, [], rg ei, by decide +kernel⟩,
   ⟨3, 0, 16, vc3, { rg ei with bind := { vcs := [(3, vc3)] } }, by decide +kernel⟩,
   ⟨3, 1, vc3, { rg ei with bind := { vcs := [(3, vc3)] } }, by decide +kernel⟩,
   ⟨0, 1#32, rg [(engInst 0, 0x80000007#32), (insIrqCtl 0, 0xC0000000#32)], by decide +kernel, by decide +kernel, by decide +kernel,
     (fun n c h => nomatch (show (none : Option (Nat × Vcs)) = some (n, c) from h))⟩,
   ⟨0, rg ei, by decide +kernel⟩,
   ⟨0, rg ei, by decide +kernel, by decide +kernel, by decide +kernel, (fun n c h => nomatch (show (none : Option (Nat × Vcs)) = some (n, c) from h))⟩,
   ⟨0, 3, vc3, { rg ei with bind := { vcs := [(3, vc3)] } }, by decide +kernel⟩,
   ⟨0, rg (ei ++ [(insMboxCtl 0, 0x40000000#32)]), by decide +kernel⟩,
   ⟨0, State.reset, by decide +kernel⟩,
   ⟨{ State.reset with eng := { dueN := 3, shareN := 5 } }, by decide +kernel⟩⟩

/-- States and operands that meet the hypotheses of `Obligations.InstanceUnbinding`, clause by clause. -/
theorem witness_InstanceUnbinding :
    (∃ (q : Req) (s : State), s.admitted 0x0602 q { kinds := [9], lenOk := true } = true ∧ (s.begun 0x0602 q []).insBound (q.index.toNat) = true ∧
      (s.begun 0x0602 q []).ringState (q.index.toNat) ≠ 0 ∨ (((s.begun 0x0602 q []).inst (q.index.toNat)).ents ++ ((s.begun 0x0602 q []).inst
      (q.index.toNat)).late).any (fun e => e.opn) = true) ∧
    (∃ (q : Req) (s : State), s.admitted 0x0602 q { kinds := [9], lenOk := true } = true ∧ (s.begun 0x0602 q []).insBound (q.index.toNat) = true ∧
      (s.begun 0x0602 q []).ringState (q.index.toNat) = 0 ∧ (((s.begun 0x0602 q []).inst (q.index.toNat)).ents ++ ((s.begun 0x0602 q []).inst
      (q.index.toNat)).late).any (fun e => e.opn) = false) :=
  ⟨⟨rq 9 0, rg ei, by decide +kernel⟩,
   ⟨rq 9 0, rg [(engInst 0, 0x80000007#32)], by decide +kernel⟩⟩

/-- States and operands that meet the hypotheses of `Obligations.LinkBringup`, clause by clause. -/
theorem witness_LinkBringup :
    (∃ (p : PortIx) (s : State), s.mayTrain p = true ∧ (s.link p).wait = false) ∧
    (∃ (p : PortIx) (s : State), s.mayTrain p = true ∧ (s.link p).wait = true ∧ 1024 ≤ s.flAge p) ∧
    (∃ (p : PortIx) (s : State), s.mayTrain p = false) ∧
    (∃ (p : PortIx) (s : State), s.flState p = 1 ∧ 4 ≤ (s.lockedLanes p).length) ∧
    (∃ (p : PortIx) (b1 : Word) (b2 : Word) (s : State), (s.flState p = 1 ∨ s.flState p = 2) ∧ (s.link p).asgn = false ∧ trainParityOk (blockBits b1)
      = true ∧ trainParityOk (blockBits b2) = true ∧ 4 ≤ (((List.range 5).filter (fun l => b1.getLsbD (3 + l) && b2.getLsbD (3 + l))).filter (fun l
      => !s.bit (ptFlLanemap p) (20 + l))).length) ∧
    (∃ (p : PortIx) (m : List LaneIx) (s : State), s.flState p = 2 ∧ m.length = 4 ∧ m.Nodup ∧ m.all (fun l => decide (s.lnState p l = 6)) = true) ∧
    (∃ (p : PortIx) (m : InitMsg) (s : State), s.flState p = 3 ∧ m.moduleId.val ≠ s.moduleFid ∧ m.version = 1 ∧ s.offers p m.rates = true ∧ m.resume =
      false ∧ s.bit glbTickStatus 29 = false) ∧
    (∃ (p : PortIx) (s : State), 1 ≤ s.flState p ∧ s.flState p ≤ 3 ∧ 64 ≤ s.flAge p ∧ (s.link p).conflict = false ∧ (s.link p).slp ≠ 4) ∧
    (∃ (p : PortIx) (s : State), s.present 2 p = true) :=
  ⟨⟨0, lkS 0 upR {}, by decide +kernel⟩,
   ⟨0, lkT 0 upR { wait := true } 1024, by decide +kernel⟩,
   ⟨0, State.reset, by decide +kernel⟩,
   ⟨0, lkS 1 lnk6 {}, by decide +kernel⟩,
   ⟨0, 0x800000F8#32, 0x800000F8#32, lkS 1 lnk6 {}, by decide +kernel⟩,
   ⟨0, [0, 1, 3, 4], lkS 2 lnk6 {}, by decide +kernel⟩,
   ⟨0, ini, lkS 3 upR {}, by decide +kernel⟩,
   ⟨0, lkT 2 upR {} 64, by decide +kernel⟩,
   ⟨0, State.reset, by decide +kernel⟩⟩

/-- States and operands that meet the hypotheses of `Obligations.LinkDowns`, clause by clause. -/
theorem witness_LinkDowns :
    (∃ (p : PortIx) (s : State), s.present 2 p = true) ∧
    (∃ (p : PortIx) (s : State), s.present 2 p = false) ∧
    (∃ (p : PortIx) (s : State), s.present 2 p = true ∧ 1 ≤ s.flState p ∧ s.flState p ≤ 3) ∧
    (∃ (p : PortIx) (s : State), 4 ≤ s.flState p) ∧
    (∃ (p : PortIx) (s : State), s.flState p < 4) ∧
    (∃ (p : PortIx) (s : State), s.linkL0 p = true) ∧
    (∃ (p : PortIx) (s : State), s.linkL0 p = true ∧ (s.link p).errWin = s.tick.loc.toNat / s.errTicks p + 1 ∧ s.errLimit p < (s.link p).err) ∧
    (∃ (p : PortIx) (s : State), (s.link p).err ≤ s.errLimit p) :=
  ⟨⟨0, State.reset, by decide +kernel⟩,
   ⟨0, rg [(glbRetPort 0, 1#32)], by decide +kernel⟩,
   ⟨0, lkS 2 upR {}, by decide +kernel⟩,
   ⟨0, lkS 4 [] {}, by decide +kernel⟩,
   ⟨0, lkS 3 [] {}, by decide +kernel⟩,
   ⟨0, lkS 5 [] {}, by decide +kernel⟩,
   ⟨0, lkS 4 [] { errWin := 1, err := 65 }, by decide +kernel⟩,
   ⟨0, lkS 4 [] { errWin := 1, err := 64 }, by decide +kernel⟩⟩

/-- States and operands that meet the hypotheses of `Obligations.LinkFlits`, clause by clause. -/
theorem witness_LinkFlits :
    (∃ (p : PortIx) (b : List Byte) (s : State), s.linkL0 p = true ∧ flitCrcOk b = true ∧ leAt b 0 8 / 2 ^ 62 % 4 = 1 ∧ nbit (leAt b 0 8) 36 = false ∧
      nbit (leAt b 0 8) 37 = false ∧ leAt b 0 8 / 2 ^ 50 % 4096 = (s.link p).rxSeq) ∧
    (∃ (p : PortIx) (b : List Byte) (s : State), s.linkL0 p = true ∧ flitCrcOk b = true ∧ leAt b 0 8 / 2 ^ 62 % 4 = 1 ∧ nbit (leAt b 0 8) 36 = false ∧
      nbit (leAt b 0 8) 37 = false ∧ leAt b 0 8 / 2 ^ 50 % 4096 ≠ (s.link p).rxSeq ∧ (s.link p).nak = false) ∧
    (∃ (p : PortIx) (s : State), s.linkL0 p = true ∧ (s.link p).unacked ≠ 0 ∧ (s.link p).tx.str = [] ∧ s.replayTicks p ≤ ticksSince (s.link p).ackAt
      s.tick.loc) ∧
    (∃ (p : PortIx) (s : State), ticksSince (s.link p).ackAt s.tick.loc < s.replayTicks p) ∧
    (∃ (p : PortIx) (s : State), s.linkL0 p = true ∧ (s.link p).nak = true ∧ s.replayTicks p ≤ ticksSince (s.link p).nakAt s.tick.loc) ∧
    (∃ (p : PortIx) (cls : ClassIx) (len : Nat) (s : State), s.linkL0 p = true ∧ (bufCount len) - (min (bufCount len) (s.nreg (ptFlCreditRsv p cls)))
      ≤ s.nreg (ptFlCreditSh p) ∧ (s.link p).unacked + (bufCount len) ≤ 4095) ∧
    (∃ (p : PortIx) (cls : ClassIx) (len : Nat) (s : State), s.nreg (ptFlCreditSh p) < bufCount len - s.nreg (ptFlCreditRsv p cls)) ∧
    (∃ (p : PortIx) (totals : List (BitVec 16)) (s : State), s.linkL0 p = true ∧ totals.length = 9) ∧
    (∃ (p : PortIx) (s : State), s.linkL0 p = true ∧ 0 < (s.link p).unrep) :=
  ⟨⟨0, flit 0, lkS 4 [] {}, by decide +kernel⟩,
   ⟨0, flit 5, lkS 4 [] {}, by decide +kernel⟩,
   ⟨0, lkT 4 [] { txSeq := 1, una := 4095 } 2, by decide +kernel⟩,
   ⟨0, lkS 4 [(ptFlErrWin 0, 2048#32)] { txSeq := 1, una := 4095 }, by decide +kernel⟩,
   ⟨0, lkT 5 [] { nak := true } 2, by decide +kernel⟩,
   ⟨0, 0, 200, lkS 4 [(ptFlCreditSh 0, 10#32), (ptFlCreditRsv 0 0, 1#32)] {}, by decide +kernel⟩,
   ⟨0, 0, 200, lkS 4 [(ptFlCreditSh 0, 0#32), (ptFlCreditRsv 0 0, 1#32)] {}, by decide +kernel⟩,
   ⟨0, [1, 2, 3, 4, 5, 6, 7, 8, 65535], lkS 4 [] {}, by decide +kernel⟩,
   ⟨0, lkS 5 [] { unrep := 3 }, by decide +kernel⟩⟩

/-- States and operands that meet the hypotheses of `Obligations.FabricMessages`, clause by clause. -/
theorem witness_FabricMessages :
    (∃ (p : PortIx) (h : FHdr) (sl : SliceIx) (off : BitVec 22) (s : State), s.fabHere p .cacheReq h 0 true (s.bankStation (sl.val * 2 ^ 22 +
      off.toNat))) ∧
    (∃ (p : PortIx) (h : FHdr) (r : RemReq) (s : State), s.fabHere p .memRsp h 64 false ⟨p.val / 16 * 2 % 53, Nat.mod_lt _ (by decide)⟩ ∧
      s.lnk.rem.find? (fun r => decide (r.fid = h.dst.val) && decide (r.tag = h.tag.toNat)) = some r ∧ r.via ≠ .discard) ∧
    (∃ (p : PortIx) (h : FHdr) (kind : Fin 4) (sl : SliceIx) (home : Fid) (v : Vcs) (k : Nat) (s : State), kind.val ≠ 0 ∧ s.fabHere p .backInv h 0
      false ⟨p.val / 16 * 2 % 53, Nat.mod_lt _ (by decide)⟩ ∧ s.remoteEntry h.dst home sl = some (v, k)) ∧
    (∃ (p : PortIx) (h : FHdr) (kind : Fin 4) (sl : SliceIx) (home : Fid) (s : State), kind.val ≠ 0 ∧ s.fabHere p .backInv h 0 false ⟨p.val / 16 * 2 %
      53, Nat.mod_lt _ (by decide)⟩ ∧ s.remoteEntry h.dst home sl = none) ∧
    (∃ (p : PortIx) (h : FHdr) (x : Trk) (s : State), s.fabHere p .cacheRsp h 0 false ⟨p.val / 16 * 2 % 53, Nat.mod_lt _ (by decide)⟩ ∧ tfind
      s.home.trks h.tag.toNat = some x) ∧
    (∃ (p : PortIx) (h : FHdr) (bytes : Nat) (e : Bool) (u : StationIx) (s : State), s.fabHere p (if h.cls = 5 then .ioNonPosted else if h.cls = 6
      then .bulk else if e then .ioNonPosted else .ioPosted : MsgType) h bytes e u) ∧
    (∃ (p : PortIx) (h : FHdr) (bytes : Nat) (s : State), s.fabHere p .mgmt h bytes false 52) ∧
    (∃ (tag : Word) (r : RemReq) (s : State), s.lnk.rem.find? (fun r => decide (r.tag = tag.toNat)) = some r ∧ tickEarlier s.tick.loc r.due = false ∧
      r.via = .mem ∧ r.write = false) :=
  ⟨⟨0, fhd 0, 5, 1, frS,
     (⟨by decide +kernel, by decide +kernel, by decide +kernel, by decide +kernel, ⟨_, rfl, by decide +kernel⟩, by decide +kernel, by decide +kernel, by decide +kernel⟩)⟩,
   ⟨0, fhd 4, rr, { frS with lnk := { rem := [rr] } },
     (⟨by decide +kernel, by decide +kernel, by decide +kernel, by decide +kernel, ⟨_, rfl, by decide +kernel⟩, by decide +kernel, by decide +kernel, by decide +kernel⟩),
     by decide +kernel, by decide +kernel⟩,
   ⟨0, fhd 1, 3, 5, 7, { usp := 1, host := 9, base := 0, len := 16 }, 2,
     { frS with bind := { vcs := [(0, { usp := 1, host := 9, base := 0, len := 16 })], hmap := [(2, ⟨3, some 7, 5⟩)] } }, by decide +kernel,
     (⟨by decide +kernel, by decide +kernel, by decide +kernel, by decide +kernel, ⟨_, rfl, by decide +kernel⟩, by decide +kernel, by decide +kernel, by decide +kernel⟩),
     by decide +kernel⟩,
   ⟨0, fhd 1, 3, 5, 7, frS, by decide +kernel,
     (⟨by decide +kernel, by decide +kernel, by decide +kernel, by decide +kernel, ⟨_, rfl, by decide +kernel⟩, by decide +kernel, by decide +kernel, by decide +kernel⟩),
     by decide +kernel⟩,
   ⟨0, fhd 4, { snp8 with fid := 8 }, { frS with home := { trks := [(3, { snp8 with fid := 8 })] } },
     (⟨by decide +kernel, by decide +kernel, by decide +kernel, by decide +kernel, ⟨_, rfl, by decide +kernel⟩, by decide +kernel, by decide +kernel, by decide +kernel⟩),
     by decide +kernel⟩,
   ⟨0, fhd 2, 8, true, 1, frS,
     (⟨by decide +kernel, by decide +kernel, by decide +kernel, by decide +kernel, ⟨_, rfl, by decide +kernel⟩, by decide +kernel, by decide +kernel, by decide +kernel⟩)⟩,
   ⟨0, fhd 3, 8, frS,
     (⟨by decide +kernel, by decide +kernel, by decide +kernel, by decide +kernel, ⟨_, rfl, by decide +kernel⟩, by decide +kernel, by decide +kernel, by decide +kernel⟩)⟩,
   ⟨3, rr, { State.reset with lnk := { rem := [rr] } }, by decide +kernel⟩⟩

/-- States and operands that meet the hypotheses of `Obligations.LaneReplacement`, clause by clause. -/
theorem witness_LaneReplacement :
    (∃ (p : PortIx) (g : Fin 4) (ls : Nat) (s : State), s.linkL0 p = true ∧ s.bit (ptFlCtl p) 28 = true ∧ (s.link p).ceWin = s.tick.loc.toNat / ((if
      s.fld (ptFlSpareCtl p) 0 8 = 0 then 4 else s.fld (ptFlSpareCtl p) 0 8) * 256) + 1 ∧ s.fld (ptFlSpareCtl p) 16 16 < tget 0 (s.link p).ce g ∧
      (s.link p).rxSpare = some ls ∧ (s.link p).spared = false ∧ (s.link p).sp = 0) ∧
    (∃ (p : PortIx) (ls : Nat) (s : State), s.linkL0 p = true ∧ s.bit (ptFlCtl p) 27 = true ∧ (s.link p).sp = 0 ∧ (s.link p).spared = false ∧ (s.link
      p).rxSpare = some ls ∧ (s.link p).err ≤ s.errLimit p / 2 ∧ (if s.fld (ptFlSpareCtl p) 8 8 = 0 then 1 else s.fld (ptFlSpareCtl p) 8 8) * 65536 ≤
      ticksSince (s.link p).rotAt s.tick.loc) ∧
    (∃ (p : PortIx) (s : State), s.linkL0 p = true ∧ s.fld (ptFlLanemap p) 12 3 ≠ 7) ∧
    (∃ (p : PortIx) (g : Fin 4) (ls : Nat) (s : State), s.linkL0 p = true ∧ (s.link p).sp = 1 ∧ (s.link p).spLane = g.val ∧ (s.link p).rxSpare = some
      ls) ∧
    (∃ (p : PortIx) (s : State), (s.link p).sp = 1 ∨ (s.link p).sp = 4) ∧
    (∃ (p : PortIx) (per : BitVec 16) (cw : Byte) (ls : Nat) (s : State), s.linkL0 p = true ∧ (s.link p).sp = 2 ∧ (s.link p).rxSpare = some ls ∧ 63 ≤
      ticksSince (s.link p).spReady s.tick.loc ∧ s.lnState p ls = 6 ∧ (s.link p).ahead16 per.toNat cw.toNat = true) ∧
    (∃ (p : PortIx) (ls : Nat) (s : State), s.linkL0 p = true ∧ (s.link p).sp = 3 ∧ (s.link p).rxSpare = some ls ∧ (s.link p).spRot = false ∧ (s.link
      p).dueLane = none) ∧
    (∃ (p : PortIx) (s : State), s.linkL0 p = true ∧ (s.link p).tsp = 1) ∧
    (∃ (p : PortIx) (s : State), s.linkL0 p = true ∧ (s.link p).tsp = 1 ∧ (s.link p).tspLane < 4 ∧ s.fld (ptFlLanemap p) 12 3 < 5 ∧ s.fld (ptFlLanemap
      p) (3 * (s.link p).tspLane) 3 < 5) ∧
    (∃ (p : PortIx) (s : State), s.linkL0 p = true) ∧
    (∃ (p : PortIx) (s : State), s.linkL0 p = true ∧ (s.link p).tspRot = true) ∧
    (∃ (p : PortIx) (s : State), ((s.link p).sp = 1 ∨ (s.link p).sp = 2) ∧ 250 ≤ ticksSince (s.link p).spAt s.tick.loc ∧ (s.link p).spRot = false) ∧
    (∃ (p : PortIx) (per : BitVec 16) (cw : Byte) (s : State), s.linkL0 p = true ∧ (s.link p).sp = 5 ∧ s.lnState p (s.link p).spOld = 6 ∧ (s.link
      p).ahead16 per.toNat cw.toNat = true) :=
  ⟨⟨0, 1, 4, lkS 4 [(ptFlCtl 0, 0x90000000#32)] { ce := [(1, 70000)], ceWin := 1, rxMap := [0, 1, 2, 3, 4] }, by decide +kernel⟩,
   ⟨0, 4, lkT 4 [(ptFlCtl 0, 0x88000000#32)] { rxMap := [0, 1, 2, 3, 4] } 0x1000000, by decide +kernel⟩,
   ⟨0, lkS 4 [(ptFlLanemap 0, 0x4000#32)] {}, by decide +kernel⟩,
   ⟨0, 1, 4, lkS 4 [] { sp := 1, spLane := 1, rxMap := [0, 1, 2, 3, 4] }, by decide +kernel⟩,
   ⟨0, lkS 4 [] { sp := 4, spLane := 1, rxMap := [0, 1, 2, 3, 4] }, by decide +kernel⟩,
   ⟨0, 7, 3, 4, lkT 4 lnk6 { sp := 2, spLane := 1, rxMap := [0, 1, 2, 3, 4] } 63, by decide +kernel⟩,
   ⟨0, 4, lkS 4 [] { sp := 3, spLane := 1, rxMap := [0, 1, 2, 3, 4] }, by decide +kernel⟩,
   ⟨0, lkS 4 [] { tsp := 1 }, by decide +kernel⟩,
   ⟨0, lkS 4 [(ptFlLanemap 0, 0x4688#32)] { tsp := 1, tspLane := 2 }, by decide +kernel⟩,
   ⟨0, lkS 4 [] { tsp := 1, tspLane := 2 }, by decide +kernel⟩,
   ⟨0, lkS 4 [] { tsp := 1, tspLane := 2, tspRot := true }, by decide +kernel⟩,
   ⟨0, lkT 4 [] { sp := 2, spLane := 1, rxMap := [0, 1, 2, 3, 4] } 250, by decide +kernel⟩,
   ⟨0, 7, 3, lkS 4 lnk6 { sp := 5, spLane := 1, spOld := 1, rxMap := [0, 4, 2, 3, 1] }, by decide +kernel⟩⟩

/-- States and operands that meet the hypotheses of `Obligations.LinkSleep`, clause by clause. -/
theorem witness_LinkSleep :
    (∃ (p : PortIx) (s : State), s.flState p = 4 ∧ s.bit (ptFlCtl p) 26 = true ∧ (s.link p).unacked = 0 ∧ s.quietTicks p ≤ ticksSince (s.link
      p).dataAt s.tick.loc) ∧
    (∃ (p : PortIx) (s : State), s.sleepOk p = true ∧ (s.link p).slp = 0) ∧
    (∃ (p : PortIx) (s : State), s.linkL0 p = true ∧ s.sleepOk p = false ∧ (s.link p).slp = 0) ∧
    (∃ (p : PortIx) (s : State), s.linkL0 p = true ∧ ((s.link p).slp = 1 ∨ ((s.link p).slp = 2 ∧ (s.link p).wake = false))) ∧
    (∃ (p : PortIx) (s : State), s.linkL0 p = true ∧ (s.link p).slp = 2 ∧ (s.link p).wake = true) ∧
    (∃ (p : PortIx) (s : State), (s.link p).slp = 1) ∧
    (∃ (p : PortIx) (s : State), (s.link p).slp = 2) ∧
    (∃ (p : PortIx) (s : State), s.linkL0 p = true ∧ (s.link p).slp = 1) ∧
    (∃ (p : PortIx) (s : State), s.linkL0 p = true ∧ (s.link p).slp = 2) ∧
    (∃ (p : PortIx) (s : State), s.flState p = 6 ∧ (s.link p).slp = 3) ∧
    (∃ (p : PortIx) (s : State), (s.link p).slp = 2 ∧ 3 ≤ ticksSince (s.link p).slpAt s.tick.loc) ∧
    (∃ (p : PortIx) (m : List LaneIx) (s : State), s.flState p = 2 ∧ (s.link p).slp = 4 ∧ m.length = 4 ∧ m.Nodup ∧ m.all (fun l => decide (s.lnState p
      l = 6)) = true) ∧
    (∃ (p : PortIx) (s : State), (s.link p).slp = 4 ∧ ticksSince (s.link p).slpAt s.tick.loc ≤ 16) ∧
    (∃ (p : PortIx) (s : State), (s.link p).slp = 4) :=
  ⟨⟨0, lkT 4 [(ptFlCtl 0, 0x84000000#32)] {} 64, by decide +kernel⟩,
   ⟨0, lkT 4 [(ptFlCtl 0, 0x82000000#32)] { farSleep := true } 64, by decide +kernel⟩,
   ⟨0, lkT 4 [(ptFlCtl 0, 0x80000000#32)] { farSleep := true } 64, by decide +kernel⟩,
   ⟨0, lkS 4 [] { slp := 2 }, by decide +kernel⟩,
   ⟨0, lkS 4 [] { slp := 2, wake := true }, by decide +kernel⟩,
   ⟨0, lkS 4 [] { slp := 1 }, by decide +kernel⟩,
   ⟨0, lkS 4 [] { slp := 2 }, by decide +kernel⟩,
   ⟨0, lkS 4 [] { slp := 1 }, by decide +kernel⟩,
   ⟨0, lkS 4 [] { slp := 2 }, by decide +kernel⟩,
   ⟨0, lkS 6 [] { slp := 3 }, by decide +kernel⟩,
   ⟨0, lkT 4 [] { slp := 2 } 3, by decide +kernel⟩,
   ⟨0, [0, 1, 2, 3], lkS 2 lnk6 { slp := 4 }, by decide +kernel⟩,
   ⟨0, lkT 2 [] { slp := 4 } 16, by decide +kernel⟩,
   ⟨0, lkT 2 [] { slp := 4 } 16, by decide +kernel⟩⟩

/-- States and operands that meet the hypotheses of `Obligations.CxlHotPlug`, clause by clause. -/
theorem witness_CxlHotPlug :
    (∃ (tl : TileIx) (k : Nat) (s : State), k < 8 ∧ s.present 1 tl = true) ∧
    (∃ (p : PortIx) (s : State), s.isCxl p = true ∧ s.bit (ptCxHpStatus p) 28 = false ∧ s.bit (ptCxHpStatus p) 26 = true ∧ 64 ≤ (s.cxp p).prsRun ∧
      s.hp p = 0 ∧ s.bit (ptCxCtl p) 25 = false) ∧
    (∃ (p : PortIx) (s : State), s.isCxl p = true ∧ s.bit (ptCxHpStatus p) 28 = true ∧ s.bit (ptCxHpStatus p) 26 = true ∧ 64 ≤ (s.cxp p).prsRun ∧ s.hp
      p = 5) ∧
    (∃ (p : PortIx) (s : State), ((s.cxp p).prsRun < 64 ∨ s.bit (ptCxHpStatus p) 26 = false)) ∧
    (∃ (p : PortIx) (s : State), s.isCxl p = true ∧ 8 ≤ (s.cxp p).btnRun ∧ (s.cxp p).btnRun < 1000000 ∧ s.bit (ptCxHpStatus p) 26 = true ∧ s.hp p = 2) ∧
    (∃ (p : PortIx) (s : State), s.isCxl p = true ∧ 8 ≤ (s.cxp p).btnRun ∧ (s.cxp p).btnRun < 1000000 ∧ s.bit (ptCxHpStatus p) 26 = true ∧ s.hp p = 3) ∧
    (∃ (p : PortIx) (s : State), s.hp p = 3 ∧ (s.cxp p).timer = 0) ∧
    (∃ (p : PortIx) (s : State), s.isCxl p = true ∧ s.vppbOf p = none ∧ 2 ≤ s.hp p ∧ s.hp p ≤ 4) ∧
    (∃ (p : PortIx) (s : State), s.isCxl p = true ∧ s.hp p = 4) ∧
    (∃ (v : VcsIx) (k : Fin 16) (p : Nat) (s : State), tfind s.cxl.vppb (v.val * 16 + k.val) = some p) :=
  ⟨⟨0, 0, State.reset, by decide +kernel⟩,
   ⟨0, cx 2 0 0 [(ptCxCtl 0, 0#32), (ptCxHpStatus 0, 0x04000000#32)] { prsRun := 64 } 0, by decide +kernel⟩,
   ⟨0, cx 2 0 11 [(ptCxHpStatus 0, 0xB4000000#32)] { prsRun := 64 } 0, by decide +kernel⟩,
   ⟨0, cx 2 0 0 [] { prsRun := 63 } 0, by decide +kernel⟩,
   ⟨0, { cx 2 2 5 [] { btnRun := 8 } 0 with regs := [(ptMode 0, 0x80000000#32), (ptCxStatus 0, 0x40000000#32), (ptCxHpStatus 0, 0x54000000#32)] }, by
     decide +kernel⟩,
   ⟨0,
     { cx 2 2 5 [] { btnRun := 8, timer := 4 } 0 with regs := [(ptMode 0, 0x80000000#32), (ptCxStatus 0, 0x40000000#32), (ptCxHpStatus 0, 0x74000000#32)] },
     by decide +kernel⟩,
   ⟨0, cx 2 2 7 [] {} 0, by decide +kernel⟩,
   ⟨0, cx 2 2 5 [] {} 0, by decide +kernel⟩,
   ⟨0, cx 2 2 9 [] {} 0, by decide +kernel⟩,
   ⟨3, 1, 0, vb (cx 2 2 5 [] {} 0), by decide +kernel⟩⟩

/-- States and operands that meet the hypotheses of `Obligations.CxlLinks`, clause by clause. -/
theorem witness_CxlLinks :
    (∃ (p : PortIx) (u : CxUp) (s : State), s.isCxl p = true ∧ s.cxState p = 1 ∧ s.bit glbTickStatus 29 = false ∧ u.rate.val ≤ s.maxRate p ∧
      u.width.toNat ≤ s.cfgWidth p ∧ u.width.toNat ∈ [1, 2, 4, 8, 16] ∧ (s.pmode p = 1 ∨ 2 ≤ u.type.val ∧ (2 ≤ u.rate.val ∨ u.type.val = 6)) ∧ (s.cxp
      p).downAt = none) ∧
    (∃ (p : PortIx) (u : CxUp) (s : State), s.mayLinkUp p u = false) ∧
    (∃ (p : PortIx) (a : Tick) (s : State), s.isCxl p = true ∧ s.cxState p = 1 ∧ s.hp p = 1 ∧ (s.cxp p).trainAt = some a ∧ 64 ≤ ticksSince a
      s.tick.loc) ∧
    (∃ (p : PortIx) (s : State), s.isCxl p = true ∧ s.cxState p = 0 ∧ s.hp p = 1 ∧ 1024 ≤ ticksSince (s.cxp p).tryAt s.tick.loc ∧ s.bit (ptCxCtl p) 31
      = true ∧ s.bit glbTickStatus 29 = false) ∧
    (∃ (p : PortIx) (s : State), s.isCxl p = true ∧ s.cxState p = 2) ∧
    (∃ (p : PortIx) (s : State), s.isCxl p = true ∧ s.cxState p = 3) ∧
    (∃ (p : PortIx) (c : Fin 9) (s : State), s.isCxl p = true ∧ (c.val = 1 ∨ c.val = 2 ∨ c.val = 8)) ∧
    (∃ (p : PortIx) (s : State), s.cxState p = 1) ∧
    (∃ (p : PortIx) (a : Tick) (s : State), (s.cxp p).downAt = some a ∧ s.downTicks p ≤ ticksSince a s.tick.loc ∧ (s.type3Lost p).cxState p ≠ 1) ∧
    (∃ (p : PortIx) (a : Tick) (s : State), (s.cxp p).downAt = some a ∧ ticksSince a s.tick.loc < s.downTicks p) ∧
    (∃ (p : PortIx) (s : State), s.isCxl p = true ∧ (s.cxState p = 2 ∨ s.cxState p = 3) ∧ s.pmode p = 1) ∧
    (∃ (p : PortIx) (s : State), s.isCxl p = true ∧ (s.cxState p = 2 ∨ s.cxState p = 3) ∧ s.pmode p = 2 ∧ s.bit (ptCxCtl p) 24 = true) ∧
    (∃ (p : PortIx) (s : State), s.isCxl p = true ∧ s.cxState p ≠ 4 ∧ s.cachesBehind p = true) ∧
    (∃ (p : PortIx) (s : State), s.isCxl p = true ∧ s.cxState p ≠ 4 ∧ s.hp p ≠ 5) ∧
    (∃ (p : PortIx) (s : State), s.isCxl p = true ∧ s.cxState p = 4 ∧ s.bit (ptCxCtl p) 31 = true ∧ s.bit glbTickStatus 29 = false) ∧
    (∃ (v : VcsIx) (k : Fin 16) (p : Nat) (s : State), tfind s.cxl.vppb (v.val * 16 + k.val) = some p ∧ s.cxState p = 4) ∧
    (∃ (p : PortIx) (s : State), s.isCxl p = true) ∧
    (∃ (p : PortIx) (s : State), s.isCxl p = true ∧ s.bit (ptCxHpStatus p) 28 = false) ∧
    (∃ (p : PortIx) (s : State), s.isCxl p = true ∧ (s.regs.filter (fun e => match locate e.1 with | some (.port, q, 0x2000) => bits e.2 30 1 = 1 && decide (q ≠ p.val) | _ => false)).length < 4) :=
  ⟨⟨0, cxu, cx 1 1 5 [(ptCxCtl 0, 0xA8000000#32)] { trainAt := some 0 } 0, by decide +kernel⟩,
   ⟨0, cxu, State.reset, by decide +kernel⟩,
   ⟨0, 0, cx 2 1 3 [] { trainAt := some 0 } 64, by decide +kernel⟩,
   ⟨0, cx 2 0 3 [(ptCxCtl 0, 0x80000000#32), (glbTickStatus, 0#32)] {} 1024, by decide +kernel⟩,
   ⟨0, cx 2 2 5 [] {} 0, by decide +kernel⟩,
   ⟨0, cx 2 3 5 [] {} 0, by decide +kernel⟩,
   ⟨0, 8, cx 2 2 5 [] {} 0, by decide +kernel⟩,
   ⟨0, cx 2 1 3 [] { trainAt := some 0 } 0, by decide +kernel⟩,
   ⟨0, 0, cx 2 0 3 [] { downAt := some 0, wasType := 4 } 65535, by decide +kernel⟩,
   ⟨0, 0, cx 2 0 3 [] { downAt := some 0, wasType := 4 } 0, by decide +kernel⟩,
   ⟨0, cx 1 2 5 [] {} 0, by decide +kernel⟩,
   ⟨0, cx 2 2 5 [(ptCxCtl 0, 0x81000000#32)] {} 0, by decide +kernel⟩,
   ⟨0, { cx 2 2 5 [(ptEdgeId 0 0, 0x80000007#32)] {} 0 with bind := bd3 }, by decide +kernel⟩,
   ⟨0, cx 2 2 5 [] {} 0, by decide +kernel⟩,
   ⟨0, cx 2 4 5 [(ptCxCtl 0, 0x80000000#32), (glbTickStatus, 0#32)] {} 7, by decide +kernel⟩,
   ⟨3, 1, 0, vb (cx 2 4 5 [] {} 7), by decide +kernel⟩,
   ⟨0, cx 2 2 5 [] {} 0, by decide +kernel⟩,
   ⟨0, cx 2 0 0 [] {} 0, by decide +kernel⟩,
   ⟨0, cx 2 2 5 [] {} 0, by decide +kernel⟩⟩

/-- States and operands that meet the hypotheses of `Obligations.SwitchCommands`, clause by clause. -/
theorem witness_SwitchCommands :
    (∃ (q : Req) (b : List Byte) (s : State), s.admitted 0x0C01 q { kinds := [2], lenOk := true } = true ∧ b.length = 4 ∧ byteAt b 0 ≤ 3 ∧ rsvZero b
      [(1, 3)] = true ∧ (s.begun 0x0C01 q b).portRuns q.index.toNat = false) ∧
    (∃ (q : Req) (b : List Byte) (s : State), s.admitted 0x0C02 q
      { kinds := [2], lenOk := true, objs := (((List.range (2 ^ byteAt b 0)).map ((q.index.toNat) + ·)) ++ ((List.range 192).filter (fun y => decide (s.linkOf y = (q.index.toNat))))).map .port }
      = true ∧ b.length = 4 ∧ byteAt b 0 ≤ 2 ∧ rsvZero b [(1, 3)] = true ∧ (q.index.toNat) % 16 % 2 ^ byteAt b 0 = 0 ∧ ((s.begun 0x0C02 q b).pmode
      (q.index.toNat) = 1 ∨ (s.begun 0x0C02 q b).pmode (q.index.toNat) = 2) ∧ (∀ y, y ∈ ((List.range (2 ^ byteAt b 0)).map ((q.index.toNat) + ·)) →
      (s.begun 0x0C02 q b).pmode y = (s.begun 0x0C02 q b).pmode (q.index.toNat)) ∧ (∀ y, y ∈ ((List.range (2 ^ byteAt b 0)).map ((q.index.toNat) + ·))
      ++ ((List.range 192).filter (fun y => decide (s.linkOf y = (q.index.toNat)))) → (s.begun 0x0C02 q b).portRuns y = false)) ∧
    (∃ (q : Req) (b : List Byte) (c : Vcs) (s : State), s.admitted 0x0308 q { lenOk := true, objs := [.vcs (byteAt b 0)] } = true ∧ b.length = 4 ∧
      byteAt b 0 < 96 ∧ rsvZero b [(1, 3)] = true ∧ tfind s.bind.vcs (byteAt b 0) = some c ∧ (List.range c.len).any (fun k => (tfind s.bind.hmap
      (c.base + k)).isSome) = false) ∧
    (∃ (q : Req) (b : List Byte) (s : State), s.admitted 0x0309 q
      { lenOk := true, objs := [.vcs (byteAt b 0), .port (byteAt b 2)], units := [(2, byteAt b 2)] } = true ∧ b.length = 4 ∧ byteAt b 0 < 96 ∧ byteAt
      b 1 < 16 ∧ byteAt b 2 < 192 ∧ rsvZero b [(3, 1)] = true ∧ (tfind s.bind.vcs (byteAt b 0)).isSome = true ∧ (s.begun 0x0309 q b).pmode (byteAt b
      2) = 2 ∧ (s.begun 0x0309 q b).isMember (byteAt b 2) = false ∧ (s.begun 0x0309 q b).devType (byteAt b 2) ≠ 4 ∧ (s.begun 0x0309 q b).devType
      (byteAt b 2) ≠ 5 ∧ s.vppbOf (byteAt b 2) = none ∧ tfind s.cxl.vppb (byteAt b 0 * 16 + byteAt b 1) = none) ∧
    (∃ (q : Req) (b : List Byte) (p : Nat) (s : State), s.admitted 0x030A q { lenOk := true, objs := [.vcs (byteAt b 0), .port p] } = true ∧ b.length
      = 4 ∧ byteAt b 0 < 96 ∧ byteAt b 1 < 16 ∧ rsvZero b [(2, 2)] = true ∧ p < 192 ∧ tfind s.cxl.vppb (byteAt b 0 * 16 + byteAt b 1) = some p ∧
      (s.begun 0x030A q b).edgeFid p 0 = none) :=
  ⟨⟨rq 2 0, [1, 0, 0, 0], cx 2 0 0 [] {} 0, by decide +kernel⟩,
   ⟨rq 2 0, [1, 0, 0, 0], rg [(ptMode 0, 0x80000000#32), (ptMode 1, 0x80010000#32)], by decide +kernel⟩,
   ⟨rq 0 0, [3, 0, 0, 0], vc3, dm { vcs := [(3, vc3)] }, by decide +kernel⟩,
   ⟨rq 0 0, [3, 1, 0, 0], { cx 2 2 5 [] {} 0 with bind := { vcs := [(3, vc3)] } }, by decide +kernel⟩,
   ⟨rq 0 0, [3, 1, 0, 0], 0, vb (cx 2 2 5 [] {} 0), by decide +kernel⟩⟩

/-- States and operands that meet the hypotheses of `Obligations.FmApi`, clause by clause. -/
theorem witness_FmApi :
    (∃ (src : Src) (s : State), s.fmShut src = false) ∧
    (∃ (src : Src) (p : Byte) (s : State), s.fmShut src = false ∧ p.toNat < 192) ∧
    (∃ (src : Src) (p : Byte) (s : State), s.fmShut src = false ∧ p.toNat < 192 ∧ s.isCxl p.toNat = true) ∧
    (∃ (src : Src) (v : Byte) (s : State), s.fmShut src = false ∧ v.toNat < 96) ∧
    (∃ (src : Src) (v : Byte) (k : Byte) (p : Byte) (s : State), s.fmShut src = false ∧ v.toNat < 96 ∧ k.toNat < 16 ∧ p.toNat < 192 ∧ s.present 2
      p.toNat = true ∧ s.lockCheck ({ src := src, seq := 0, kind := 0, index := 0, lockV := false, lock := 0, gen := 0, rsvd := false }) [.module,
      .vcs v.toNat, .port p.toNat] = none ∧ (tfind s.bind.vcs v.toNat).isSome = true ∧ (s.journalBegin 0x0309
      ({ src := src, seq := 0, kind := 0, index := 0, lockV := false, lock := 0, gen := 0, rsvd := false }) [v, k, p, 0]).pmode p.toNat = 2 ∧
      (s.journalBegin 0x0309 ({ src := src, seq := 0, kind := 0, index := 0, lockV := false, lock := 0, gen := 0, rsvd := false }) [v, k, p,
      0]).isMember p.toNat = false ∧ (s.journalBegin 0x0309
      ({ src := src, seq := 0, kind := 0, index := 0, lockV := false, lock := 0, gen := 0, rsvd := false }) [v, k, p, 0]).devType p.toNat ≠ 4 ∧
      (s.journalBegin 0x0309 ({ src := src, seq := 0, kind := 0, index := 0, lockV := false, lock := 0, gen := 0, rsvd := false }) [v, k, p,
      0]).devType p.toNat ≠ 5 ∧ s.vppbOf p.toNat = none ∧ tfind s.cxl.vppb (v.toNat * 16 + k.toNat) = none) ∧
    (∃ (src : Src) (v : Byte) (k : Byte) (p : Nat) (s : State), s.fmShut src = false ∧ v.toNat < 96 ∧ k.toNat < 16 ∧ tfind s.cxl.vppb (v.toNat * 16 +
      k.toNat) = some p ∧ s.lockCheck ({ src := src, seq := 0, kind := 0, index := 0, lockV := false, lock := 0, gen := 0, rsvd := false }) [.module,
      .vcs v.toNat, .port p] = none ∧ (s.journalBegin 0x030A
      ({ src := src, seq := 0, kind := 0, index := 0, lockV := false, lock := 0, gen := 0, rsvd := false }) [v, k, 0, 0]).edgeFid p 0 = none) ∧
    (∃ (src : Src) (v : Byte) (k : Byte) (c : Vcs) (s : State), s.fmShut src = false ∧ tfind s.bind.vcs v.toNat = some c ∧ k.toNat < 16) ∧
    (∃ (src : Src) (p : Byte) (s : State), s.fmShut src = false ∧ s.mldPort p.toNat = true) ∧
    (∃ (src : Src) (p : Byte) (ld : Byte) (s : State), s.fmShut src = false ∧ s.mldPort p.toNat = true ∧ ld.toNat < s.fld (ptCxStatus p.toNat) 7 5) ∧
    (∃ (src : Src) (s : State), s.fmShut src = true) :=
  ⟨⟨src0, State.reset, by decide +kernel⟩,
   ⟨src0, 0, cx 2 2 5 [] {} 0, by decide +kernel⟩,
   ⟨src0, 0, cx 2 2 5 [] {} 0, by decide +kernel⟩,
   ⟨src0, 3, vb (cx 2 2 5 [] {} 0), by decide +kernel⟩,
   ⟨src0, 3, 1, 0, { cx 2 2 5 [] {} 0 with bind := { vcs := [(3, vc3)] } }, by decide +kernel⟩,
   ⟨src0, 3, 1, 0, vb (cx 2 2 5 [] {} 0), by decide +kernel⟩,
   ⟨src0, 3, 1, vc3, vb (cx 2 2 5 [] {} 0), by decide +kernel⟩,
   ⟨src0, 0, rg [(ptMode 0, 0x80000000#32), (ptCxStatus 0, 0x40005100#32)], by decide +kernel⟩,
   ⟨src0, 0, 1, rg [(ptMode 0, 0x80000000#32), (ptCxStatus 0, 0x40005100#32)], by decide +kernel⟩,
   ⟨src0, { State.reset with clk := { mgmtLost := true } }, by decide +kernel⟩⟩

/-- States and operands that meet the hypotheses of `Obligations.LaneBringup`, clause by clause. -/
theorem witness_LaneBringup :
    (∃ (p : PortIx) (l : LaneIx) (s : State), s.lnState p l = 1 ∧ s.laneAge p l ≤ 1) ∧
    (∃ (p : PortIx) (l : LaneIx) (s : State), s.lnState p l = 1 ∧ 1 ≤ s.laneAge p l) ∧
    (∃ (p : PortIx) (l : LaneIx) (s : State), s.lnState p l = 2 ∧ 4 ≤ s.laneAge p l) ∧
    (∃ (p : PortIx) (l : LaneIx) (s : State), s.lnState p l = 5 ∧ 8 ≤ s.laneAge p l) ∧
    (∃ (p : PortIx) (l : LaneIx) (cause : Nat) (s : State), cause < 16 ∧ (s.laneS p l).recal = false ∧ s.flState p ≠ 1) ∧
    (∃ (p : PortIx) (l : LaneIx) (blocks : List Word) (s : State), s.lnState p l = 2 ∧ s.laneAge p l ≤ 4 ∧ 4 ≤ blocks.length ∧ blocks.all (fun b
      => trainParityOk (blockBits b)) = true ∧ s.bit (lnCtl p l) 30 = false) ∧
    (∃ (p : PortIx) (l : LaneIx) (s : State), s.lnState p l = 3 ∧ 2 * ((s.laneS p l).swept + 1) ≤ s.laneAge p l ∧ (s.laneS p l).swept < 15 ∧ s.bit
      (lnRxEq p l) 30 = false) ∧
    (∃ (p : PortIx) (l : LaneIx) (h : Byte) (bh : Nat) (bs : Nat) (s : State), s.lnState p l = 3 ∧ 32 ≤ s.laneAge p l ∧ (s.laneS p l).swept = 15 ∧
      (s.laneS p l).best = some (bh, bs) ∧ h.toNat ≤ bh ∧ bs < 16 ∧ s.eyeMin p l ≤ bh ∧ s.bit (lnRxEq p l) 30 = false) ∧
    (∃ (p : PortIx) (l : LaneIx) (s : State), s.lnState p l = 4) ∧
    (∃ (p : PortIx) (l : LaneIx) (hs : List Byte) (s : State), s.lnState p l = 5 ∧ s.laneAge p l ≤ 8 ∧ 4 ≤ hs.length ∧ hs.all (fun h
      => decide (s.eyeMin p l ≤ h.toNat)) = true) ∧
    (∃ (p : PortIx) (l : LaneIx) (s : State), s.lnState p l = 6 ∧ (s.link p).carries l = false ∧ (s.link p).sp ≠ 4) ∧
    (∃ (p : PortIx) (l : LaneIx) (s : State), s.lnState p l = 7 ∧ (s.laneS p l).relock = false) ∧
    (∃ (p : PortIx) (l : LaneIx) (pk : Nat) (d0 : Word) (d1 : Word) (r : Bool) (s : State), s.lnState p l = 7 ∧ (s.laneS p l).relock = true ∧
      s.laneAge p l ≤ 8 ∧ (s.laneS p l).eq = some (pk, d0, d1, r) ∧ pk < 16) ∧
    (∃ (p : PortIx) (l : LaneIx) (s : State), s.lnState p l = 7 ∧ (s.laneS p l).relock = true ∧ 8 ≤ s.laneAge p l) :=
  ⟨⟨0, 1, ln 1 [] {} 1, by decide +kernel⟩,
   ⟨0, 1, ln 1 [] {} 1, by decide +kernel⟩,
   ⟨0, 1, ln 2 [] {} 4, by decide +kernel⟩,
   ⟨0, 1, ln 5 [] {} 8, by decide +kernel⟩,
   ⟨0, 1, 4, ln 5 [] {} 8, by decide +kernel⟩,
   ⟨0, 1, [0x80000001#32, 0x80000001#32, 0x80000001#32, 0x80000001#32], ln 2 [(lnCtl 0 1, 0#32)] {} 4, by decide +kernel⟩,
   ⟨0, 1, ln 3 [(lnRxEq 0 1, 0#32)] { swept := 14 } 30, by decide +kernel⟩,
   ⟨0, 1, 20, 30, 7, ln 3 [(lnRxEq 0 1, 0#32)] { swept := 15, best := some (30, 7) } 32, by decide +kernel⟩,
   ⟨0, 1, ln 4 [] {} 3, by decide +kernel⟩,
   ⟨0, 1, [12, 13, 14, 15], ln 5 [] {} 8, by decide +kernel⟩,
   ⟨0, 1, ln 6 [] {} 8, by decide +kernel⟩,
   ⟨0, 1, ln 7 [] {} 8, by decide +kernel⟩,
   ⟨0, 1, 15, 1, 2, true, ln 7 [] { relock := true, eq := some (15, 1, 2, true) } 8, by decide +kernel⟩,
   ⟨0, 1, ln 7 [] { relock := true } 8, by decide +kernel⟩⟩

/-- States and operands that meet the hypotheses of `Obligations.LaneFaultsAndTests`, clause by clause. -/
theorem witness_LaneFaultsAndTests :
    (∃ (p : PortIx) (l : LaneIx) (s : State), s.lnState p l = 6 ∧ s.pmode p ≠ 3) ∧
    (∃ (p : PortIx) (l : LaneIx) (h : Byte) (s : State), s.lnState p l = 6 ∧ s.bit (lnMarginRes p l) 30 = false ∧ s.eyeMin p l ≤ h.toNat) ∧
    (∃ (p : PortIx) (l : LaneIx) (s : State), s.lnState p l = 6 ∧ s.bit (lnRxEq p l) 31 = true ∧ s.bit (lnRxEq p l) 30 = false ∧ s.bit (lnMarginRes p
      l) 30 = false ∧ (s.laneS p l).recal = false ∧ (s.link p).rxQuiet = false ∧ (s.link p).sp = 0 ∧ s.trackTicks p l ≤ ticksSince (s.laneS p
      l).trackAt s.tick.loc) ∧
    (∃ (p : PortIx) (l : LaneIx) (s : State), s.present 2 p = true ∧ s.present 3 (p.val * 5 + l.val) = true ∧ s.linkDisabled p = false) ∧
    (∃ (p : PortIx) (l : LaneIx) (s : State), (s.present 2 p && s.present 3 (p.val * 5 + l.val)) = false) ∧
    (∃ (p : PortIx) (l : LaneIx) (s : State), s.present 2 p = true ∧ s.present 3 (p.val * 5 + l.val) = true ∧ s.linkDisabled p = true ∧ (l.val ≠ 4 ∨
      s.pmode p = 3)) ∧
    (∃ (p : PortIx) (l : LaneIx) (v : Word) (s : State), s.present 2 p = true ∧ s.present 3 (p.val * 5 + l.val) = true ∧ s.linkDisabled p = true ∧
      (l.val ≠ 4 ∨ s.pmode p = 3) ∧ bits v 31 1 = 1) ∧
    (∃ (p : PortIx) (l : LaneIx) (s : State), s.lnState p l = 9 ∧ s.bit (lnTestCtl p l) 30 = true ∧ (s.laneS p l).phase = 5 ∧ s.bit (lnTestStatus p l)
      31 = false) ∧
    (∃ (p : PortIx) (l : LaneIx) (s : State), s.lnState p l = 9 ∧ s.bit (lnTestStatus p l) 31 = true) ∧
    (∃ (p : PortIx) (l : LaneIx) (s : State), s.present 2 p = true ∧ s.present 3 (p.val * 5 + l.val) = true ∧ (s.lnState p l = 6 ∨ s.lnState p l = 9)
      ∧ (s.laneS p l).recal = false ∧ (s.laneS p l).pcie = false) ∧
    (∃ (p : PortIx) (l : LaneIx) (s : State), s.bit (lnMarginRes p l) 30 = true ∧ s.marginUi p l ≤ (ticksSince (s.laneS p l).margAt s.tick.loc + 1) *
      s.laneUi p l) ∧
    (∃ (p : PortIx) (l : LaneIx) (s : State), (s.pmode p = 1 ∨ s.pmode p = 2) ∧ s.lnState p l = 6 ∧ 3 ≤ s.fld (ptCxStatus (s.linkOf p)) 26 3 ∧ s.bit
      (lnMarginRes p l) 30 = false) :=
  ⟨⟨0, 1, ln 6 [(ptMode 0, 0x80000000#32)] {} 0, by decide +kernel⟩,
   ⟨0, 1, 12, ln 6 [] {} 0, by decide +kernel⟩,
   ⟨0, 1, ln 6 [(lnRxEq 0 1, 0x8000000F#32)] {} 1024, by decide +kernel⟩,
   ⟨0, 1, ln 6 [(ptMode 0, 0xC0000000#32), (ptFlCtl 0, 0x80000000#32)] {} 0, by decide +kernel⟩,
   ⟨0, 1, rg [(glbRetPort 0, 1#32)], by decide +kernel⟩,
   ⟨0, 4, ln 6 [(ptMode 0, 0xC0000000#32), (ptFlCtl 0, 0#32)] {} 0, by decide +kernel⟩,
   ⟨0, 3, 0x81000000#32, ln 6 [(ptMode 0, 0x80000000#32), (ptCxCtl 0, 0#32)] {} 0, by decide +kernel⟩,
   ⟨0, 1, ln 9 [(lnTestCtl 0 1, 0x40000000#32)] { phase := 5 } 0, by decide +kernel⟩,
   ⟨0, 1, ln 9 [(lnTestCtl 0 1, 0x40000000#32), (lnTestStatus 0 1, 0x80000000#32)] { phase := 5 } 0, by decide +kernel⟩,
   ⟨0, 1, ln 6 [] {} 0, by decide +kernel⟩,
   ⟨0, 1, ln 6 [(lnMarginRes 0 1, 0x40000000#32), (lnMarginCtl 0 1, 0#32)] {} 1000, by decide +kernel⟩,
   ⟨0, 1, ln 6 [(ptMode 0, 0x80000000#32), (ptCxStatus 0, 0x4C000000#32)] {} 0, by decide +kernel⟩⟩

/-- States and operands that meet the hypotheses of `Obligations.PowerUp`, clause by clause. -/
theorem witness_PowerUp :
    (∃ (s : State), s.kState = kUnseated ∧ s.pwr.supply = true) ∧
    (∃ (s : State), s.kState = kDebounce) ∧
    (∃ (s : State), s.kState = kDebounce ∧ s.fld pwrStatus 26 2 = 3) ∧
    (∃ (vbus : Nat) (midA : Nat) (midB : Nat) (s : State), s.kState = kStandby ∧ s.passDamaged = false ∧ vbus < 2000 ∧ midA < 2000 ∧ midB < 2000 ∧
      s.feedUsable 0 = true ∧ s.feedUsable 1 = true ∧ s.bit pwrStatus 25 = true) ∧
    (∃ (vbus : Nat) (midA : Nat) (midB : Nat) (s : State), s.kState = kStandby ∧ s.passDamaged = false ∧ 2000 ≤ vbus ∨ 2000 ≤ midA ∨ 2000 ≤ midB) ∧
    (∃ (s : State), s.kState = kInrush) ∧
    (∃ (g : Fin 10) (s : State), s.kState = kSequencing ∧ s.pwr.group = g) ∧
    (∃ (s : State), s.kState = kInrush ∧ s.pwr.charging < 2) ∧
    (∃ (s : State), s.kState = kFault ∧ s.passDamaged = false) ∧
    (∃ (s : State), s.pwr.pass = 0 ∧ s.kState ≠ kInrush ∧ s.passDamaged = false) :=
  ⟨⟨pw 0 0 [] {}, by decide +kernel⟩,
   ⟨pw 1 0xC000000 [] {}, by decide +kernel⟩,
   ⟨pw 1 0xC000000 [] {}, by decide +kernel⟩,
   ⟨0, 0, 0, pw 2 0x03800000 [] {}, by decide +kernel⟩,
   ⟨0, 2000, 0, pw 2 0x03800000 [] {}, by decide +kernel⟩,
   ⟨pw 3 0x01800000 [] { pass := 1, charging := 0 }, by decide +kernel⟩,
   ⟨9, pw 4 0x01800000 [] { pass := 3, group := 9 }, by decide +kernel⟩,
   ⟨pw 3 0x01800000 [] { pass := 1 }, by decide +kernel⟩,
   ⟨pw 8 0x01800000 [(pwrFault, 0x01000000#32)] { latched := 1, tripped := 1 }, by decide +kernel⟩,
   ⟨pw 2 0x01800000 [] {}, by decide +kernel⟩⟩

/-- States and operands that meet the hypotheses of `Obligations.PowerOff`, clause by clause. -/
theorem witness_PowerOff :
    (∃ (cause : Nat) (group : Nat), cause < 16 ∧ group < 16) ∧
    (∃ (s : State), s.powered = true) ∧
    (∃ (s : State), s.kState = kStandby ∨ s.kState = kOn ∧ s.pwr.vbusHigh = true) ∧
    (∃ (s : State), s.kState = kStandby ∧ s.pwr.vbusHigh = false) ∧
    (∃ (s : State), s.kState = kOn) ∧
    (∃ (q : Req) (s : State), s.admitted 0x0A01 q { lenOk := true } = true ∧ s.kState = kOn) ∧
    (∃ (g : Fin 10) (s : State), s.kState = kStopping ∧ s.pwr.down = g + 1) ∧
    (∃ (s : State), s.kState = kStopping ∨ s.kState = kOffWait) :=
  ⟨⟨15, 15, by decide +kernel⟩,
   ⟨pw 5 0x01800000 [] { pass := 3 }, by decide +kernel⟩,
   ⟨pw 5 0x01800000 [] { pass := 3, vbusHigh := true }, by decide +kernel⟩,
   ⟨pw 2 0x01800000 [] {}, by decide +kernel⟩,
   ⟨pw 5 0x03800000 [] { pass := 3 }, by decide +kernel⟩,
   ⟨rq 0 0, pw 5 0x03800000 [] { pass := 3 }, by decide +kernel⟩,
   ⟨0, pw 6 0x03800000 [] { pass := 3, down := 1 }, by decide +kernel⟩,
   ⟨pw 7 0x01840000 [] { vbusHigh := true, bleeder := true }, by decide +kernel⟩⟩

/-- States and operands that meet the hypotheses of `Obligations.FeedProtection`, clause by clause. -/
theorem witness_FeedProtection :
    (∃ (f : FeedIx) (s : State), s.kState = kOn ∧ s.feedOk f = true) ∧
    (∃ (f : FeedIx) (s : State), s.kState = kOn ∧ s.pwr.supply = true ∧ s.feedOk f = false) ∧
    (∃ (f : FeedIx) (s : State), nbit s.pwr.oring f = false) ∧
    (∃ (f : FeedIx) (s : State), nbit s.pwr.pass f = true) ∧
    (∃ (f : FeedIx) (s : State), nbit s.pwr.retry f = true ∧ s.feedUsable f = true ∧ s.powered = true ∧ (s.kState ≠ kOn ∨ oneSecond ≤ ticksSince
      (BitVec.ofNat 48 (tget 0 s.pwr.tripAt f - 1)) s.tick.loc)) ∧
    (∃ (s : State), s.feedOk 0 = true ∧ s.feedOk 1 = true) ∧
    (∃ (s : State), s.pwr.supply = false) :=
  ⟨⟨0, pw 5 0x03800000 [] { pass := 3, mgmtUp := true }, by decide +kernel⟩,
   ⟨0, pw 5 0x02800000 [] { pass := 2, mgmtUp := true }, by decide +kernel⟩,
   ⟨1, pw 5 0x03A00000 [] { pass := 3, oring := 1, mgmtUp := true }, by decide +kernel⟩,
   ⟨1, pw 5 0x03A00000 [] { pass := 3, oring := 3, mgmtUp := true }, by decide +kernel⟩,
   ⟨1, { pw 5 0x03A00000 [] { pass := 1, oring := 1, tripped := 2, retry := 2, mgmtUp := true } with tick := { loc := 1000000 } }, by decide +kernel⟩,
   ⟨pw 5 0x03A00000 [] { pass := 3, oring := 3, mgmtUp := true }, by decide +kernel⟩,
   ⟨pw 0 0 [] { supply := false }, by decide +kernel⟩⟩

/-- States and operands that meet the hypotheses of `Obligations.MctpAndSideband`, clause by clause. -/
theorem witness_MctpAndSideband :
    (∃ (k : MctpPacket) (s : State), k.pecOk = true ∧ k.som = true ∧ k.eom = true ∧ k.payload.length ≤ 4099 ∧ byteAt k.payload 0 = 0x7E ∧ leAt
      k.payload 1 2 = Config.vendorId.toNat ∧ s.nalug.reasm.find? (fun r => r.is k.src k.tag k.owner) = none) ∧
    (∃ (src : Src) (tag : BitVec 3) (owner : Bool) (s : State), s.nalug.reasm.any (fun r => r.is src tag owner) = true) ∧
    (∃ (b : BusIx) (s : State), s.busI3c b = false) ∧
    (∃ (b : BusIx) (s : State), s.busI3c b = true) ∧
    (∃ (b : BusIx) (s : State) (n : Nat), n < 64 ∧ s.busI3c b = false ∧ (s.lockAt n).held = true ∧ onBus b (s.lockAt n).owner = true) :=
  ⟨⟨⟨src0, true, true, true, 0, 0, true, 0x7E :: toLe 2 Config.vendorId.toNat ++ opB 0x0101⟩, State.reset,
     by and_intros <;> first | exact (by show leAt (0x7E :: toLe 2 Config.vendorId.toNat ++ opB 0x0101) 1 2 = _; generalize Config.vendorId = v; have := v.isLt; simp [leAt, toLe, byteAt]; omega) | decide +kernel⟩,
   ⟨src0, 1, true, ng { reasm := [⟨src0, 1, true, 0, []⟩] }, by decide +kernel⟩,
   ⟨0, State.reset, by decide +kernel⟩,
   ⟨0, rg [(mgtNalugCtl, 0xC0003233#32)], by decide +kernel⟩,
   ⟨0, ng { locks := [(2, lk0)] }, 2, by decide +kernel⟩⟩

/-- States and operands that meet the hypotheses of `Obligations.NalugAcceptance`, clause by clause. -/
theorem witness_NalugAcceptance :
    (∃ (src : Src) (b : List Byte) (s : State) (k : Kept), s.clk.mgmtLost = false ∧ (s.bit glbTickStatus 29 = false ∨ src.path ≠ 3) ∧ 16 ≤ b.length ∧
      byteAt b 2 < 64 ∧ s.nalug.kept.find? (fun k => decide (k.src = src) && decide (k.seq = (parseReq src b).seq)) = some k) ∧
    (∃ (src : Src) (b : List Byte) (s : State), s.clk.mgmtLost = false ∧ (s.bit glbTickStatus 29 = false ∨ src.path ≠ 3) ∧ 16 ≤ b.length ∧ byteAt b 2
      < 64 ∧ s.freshSeq (parseReq src b) = true ∧ s.nalug.inbox = [] ∧ s.nalug.br = none ∧ s.nalug.brWait = [] ∧ s.served (leAt b 0 2) = true ∧
      knownOpcodes.contains (leAt b 0 2) = true ∧ leAt b 6 2 = b.length - 16) ∧
    (∃ (src : Src) (b : List Byte) (s : State), s.clk.mgmtLost = false ∧ (s.bit glbTickStatus 29 = false ∨ src.path ≠ 3) ∧ 16 ≤ b.length ∧ byteAt b 2
      < 64 ∧ s.freshSeq (parseReq src b) = true ∧ s.nalug.br = none ∧ s.nalug.brWait = [] ∧ s.nalug.inbox.length = 64 ∧ s.nalug.inbox.all (fun m
      => !decide (m.1 = src)) = true) :=
  ⟨⟨src0, opB 0x0101, ng { kept := [⟨src0, 5, 0x0101, 0, [], false⟩] }, ⟨src0, 5, 0x0101, 0, [], false⟩, by decide +kernel⟩,
   ⟨src0, opB 0x0101, State.reset, by decide +kernel⟩,
   ⟨src0, opB 0x0101, ng { inbox := List.replicate 64 (⟨1, 0, 9⟩, [], 0) }, by decide +kernel⟩⟩

/-- States and operands that meet the hypotheses of `Obligations.GeneralCommands`, clause by clause. -/
theorem witness_GeneralCommands :
    (∃ (q : Req) (s : State), s.admitted 0x0101 q { lenOk := true } = true) ∧
    (∃ (q : Req) (body : List Byte) (s : State), s.admitted 0x0105 q { lenOk := true } = true ∧ body.length = 16) ∧
    (∃ (q : Req) (body : List Byte) (s : State), s.admitted 0x0108 q { lenOk := true } = true ∧ body.length = 12 ∧ (byteAt body 0) < 64 ∧ byteAt body
      1 ≤ 6 ∧ leAt body 2 2 = 0 ∧ leAt body 4 4 ≤ leAt body 8 4 ∧ leAt body 8 4 < 2 ^ 28 ∧ (s.lockAt (byteAt body 0)).held = false ∧ (∀ k, k < 64 →
      (s.lockAt k).held = true → (s.lockAt k).owner = q.src)) ∧
    (∃ (q : Req) (body : List Byte) (s : State), s.admitted 0x0109 q { lenOk := true } = true ∧ body.length = 4 ∧ (s.lockAt (q.lock.toNat)).held =
      true ∧ leAt body 0 4 = 0 ∧ q.lockV = true ∧ (s.lockAt (q.lock.toNat)).owner = q.src ∧ (s.lockAt (q.lock.toNat)).gen = q.gen) ∧
    (∃ (q : Req) (body : List Byte) (s : State), s.admitted 0x0109 q { lenOk := true } = true ∧ body.length = 4 ∧ (s.lockAt (q.lock.toNat)).held =
      true ∧ leAt body 0 4 = 1) ∧
    (∃ (q : Req) (body : List Byte) (s : State), s.admitted 0x010A q { lenOk := true } = true ∧ body.length = 4 ∧ leAt body 0 4 ≤ 63) ∧
    (∃ (q : Req) (body : List Byte) (s : State), s.admitted 0x010B q { lenOk := true } = true ∧ body.length = 8 ∧ ((leAt body 0 8) % 256) < 32 ∧ (leAt
      body 0 8) = stepToken ((leAt body 0 8) % 256) (s.slot ((leAt body 0 8) % 256)) ∧ (s.slot ((leAt body 0 8) % 256)).state = 1 ∨ (s.slot ((leAt
      body 0 8) % 256)).state = 2) ∧
    (∃ (q : Req) (body : List Byte) (s : State), s.admitted 0x010B q { lenOk := true } = true ∧ body.length = 8 ∧ ((leAt body 0 8) % 256) < 32 ∧ (leAt
      body 0 8) = stepToken ((leAt body 0 8) % 256) (s.slot ((leAt body 0 8) % 256)) ∧ (s.slot ((leAt body 0 8) % 256)).state = 3) ∧
    (∃ (q : Req) (body : List Byte) (s : State), s.admitted 0x010C q { lenOk := true } = true ∧ body.length = 8 ∧ ((leAt body 0 8) % 256) < 32 ∧ (leAt
      body 0 8) = stepToken ((leAt body 0 8) % 256) (s.slot ((leAt body 0 8) % 256)) ∧ (s.slot ((leAt body 0 8) % 256)).state = 2) ∧
    (∃ (q : Req) (body : List Byte) (k : Nat) (s : State), s.admitted 0x010D q { lenOk := true } = true ∧ body.length = 4 ∧ byteAt body 2 = 1 ∧ byteAt
      body 3 = 0 ∧ leAt body 0 2 < 2 ^ 14 ∧ leAt body 0 2 % 2 = 0 ∧ s.nalug.subs.find? (fun e => decide (e.2.src = q.src)) = none ∧ (List.range
      8).find? (fun k => (tfind s.nalug.subs k).isNone) = some k) ∧
    (∃ (q : Req) (body : List Byte) (s : State), s.admitted 0x010E q { lenOk := true } = true ∧ body.length = 8 ∧ s.logOn = true ∧ 0 < byteAt body 4 ∧
      byteAt body 4 ≤ 16 ∧ leAt body 5 3 = 0 ∧ BitVec.ofNat 32 (leAt body 0 4) = s.ev.logHead - BitVec.ofNat 32 s.ev.log.length) ∧
    (∃ (r : EvRec) (rest : List EvRec) (s : State), s.clk.mgmtLost = false ∧ s.ev.fifo = r :: rest ∧ s.nalug.subs = []) :=
  ⟨⟨rq 0 0, State.reset, by decide +kernel⟩,
   ⟨rq 0 0, List.replicate 16 7, State.reset, by decide +kernel⟩,
   ⟨rq 0 0, [2, 0, 0, 0] ++ toLe 4 0 ++ toLe 4 (2 ^ 28 - 1), State.reset, by decide +kernel⟩,
   ⟨rqL, [0, 0, 0, 0], ng { locks := [(2, lk0)] }, by decide +kernel⟩,
   ⟨⟨src0, 1, 0, 0, false, 2, 0, false⟩, [1, 0, 0, 0], ng { locks := [(2, lk0)] }, by decide +kernel⟩,
   ⟨rq 0 0, [2, 0, 0, 0], ng { locks := [(2, lk0)] }, by decide +kernel⟩,
   ⟨rq 0 0, tokB sl3, ng { steps := [(2, sl3)] }, by decide +kernel⟩,
   ⟨rq 0 0, tokB { sl3 with state := 3 }, ng { steps := [(2, { sl3 with state := 3 })] }, by decide +kernel⟩,
   ⟨rq 0 0, tokB { sl3 with state := 2 }, ng { steps := [(2, { sl3 with state := 2 })] }, by decide +kernel⟩,
   ⟨rq 0 0, [2, 0, 1, 0], 0, State.reset, by decide +kernel⟩,
   ⟨rq 0 0, toLe 4 0xFFFFFFFF ++ [16, 0, 0, 0], { State.reset with ev := { log := [ev0] } }, by decide +kernel⟩,
   ⟨ev0, [ev0], { State.reset with ev := { fifo := [ev0, ev0] } }, by decide +kernel⟩⟩

/-- States and operands that meet the hypotheses of `Obligations.Bridge`, clause by clause. -/
theorem witness_Bridge :
    (∃ (q : Req) (body : List Byte) (s : State), s.admitted 0x0A02 q { kinds := [10], lenOk := true } = true ∧ body.length = 4 ∧ 0 < byteAt body 1 ∧
      byteAt body 1 ≤ 32 ∧ byteAt body 2 ≤ 1 ∧ byteAt body 3 = 0) ∧
    (∃ (q : Req) (body : List Byte) (s : State), s.admitted 0x0A02 q { kinds := [10], lenOk := true } = true ∧ body.length = 4 ∧ 0 < byteAt body 1 ∧
      byteAt body 1 ≤ 32 ∧ byteAt body 2 ≤ 1 ∧ byteAt body 3 = 0 ∧ s.nalug.br = none) ∧
    (∃ (q : Req) (body : List Byte) (s : State), s.admitted 0x0A02 q { kinds := [10], lenOk := true } = true ∧ body.length = 4 ∧ 0 < byteAt body 1 ∧
      byteAt body 1 ≤ 32 ∧ byteAt body 2 ≤ 1 ∧ byteAt body 3 = 0 ∧ s.nalug.br.isSome = true) ∧
    (∃ (q : Req) (body : List Byte) (s : State), s.admitted 0x0A03 q { kinds := [10], lenOk := true } = true ∧ body.length = 4 + byteAt body 1 ∧
      byteAt body 1 ≤ 32 ∧ byteAt body 2 ≤ 1 ∧ byteAt body 3 = 0 ∧ (byteAt body 0 = 0x03 ∧ byteAt body 1 = 0) ∨ q.src.path = 4) ∧
    (∃ (q : Req) (body : List Byte) (s : State), s.admitted 0x0A03 q { kinds := [10], lenOk := true } = true ∧ body.length = 4 + byteAt body 1 ∧
      byteAt body 1 ≤ 32 ∧ byteAt body 2 ≤ 1 ∧ byteAt body 3 = 0 ∧ ¬ (byteAt body 0 = 0x03 ∧ byteAt body 1 = 0) ∧ q.src.path ≠ 4) ∧
    (∃ (x : BrTxn) (s : State), s.nalug.br = some x ∧ s.nalug.brWait = []) ∧
    (∃ (x : BrTxn) (s : State), s.nalug.br = some x ∧ x.opn = true) ∧
    (∃ (v : Word) (s : State), s.bit pwrBrStatus 31 = false ∧ bits v 0 1 = 1 ∧ bits v 24 5 ≤ 20 ∧ s.nalug.br = none) ∧
    (∃ (s : State), s.bit pwrBrStatus 31 = false) ∧
    (∃ (s : State) (x : BrTxn), s.bit pwrBrStatus 31 = true ∧ s.nalug.br = some x ∧ x.cmd = true ∧ x.read = true) ∧
    (∃ (q : Req) (s : State), s.admitted 0x0A04 q { kinds := [0, 10], lenOk := true } = true ∧ q.kind = 10) ∧
    (∃ (r : StageReading) (s : State), s.present 10 r.stage = true ∧ r.ok = false) ∧
    (∃ (r : StageReading) (s : State), s.present 10 r.stage = true ∧ r.ok = true) :=
  ⟨⟨rq 10 0, [0x8B, 32, 1, 0], State.reset, by decide +kernel⟩,
   ⟨rq 10 0, [0x8B, 32, 1, 0], State.reset, by decide +kernel⟩,
   ⟨rq 10 0, [0x8B, 32, 1, 0], ng { br := some brx }, by decide +kernel⟩,
   ⟨rq 10 0, [3, 0, 0, 0], State.reset, by decide +kernel⟩,
   ⟨rq 10 0, [3, 1, 0, 0, 7], State.reset, by decide +kernel⟩,
   ⟨brx, ng { br := some brx }, by decide +kernel⟩,
   ⟨brn, ng { br := some brn }, by decide +kernel⟩,
   ⟨0x14000001#32, State.reset, by decide +kernel⟩,
   ⟨State.reset, by decide +kernel⟩,
   ⟨{ rg [(pwrBrStatus, 0x80000000#32)] with nalug := { br := some brx } }, brx, by decide +kernel⟩,
   ⟨rq 10 3, State.reset, by decide +kernel⟩,
   ⟨{ stR with ok := false }, ng { stages := [(1, { fails := 1 })] }, by decide +kernel⟩,
   ⟨stR, ng { stages := [(1, { fails := 1 })] }, by decide +kernel⟩⟩

/-- States and operands that meet the hypotheses of `Obligations.FirmwareAndFjx`, clause by clause. -/
theorem witness_FirmwareAndFjx :
    (∃ (q : Req) (body : List Byte) (s : State), s.admitted 0x0201 q { lenOk := true } = true ∧ 5 ≤ body.length ∧ body.length ≤ 4068 ∧ leAt body 0 4 +
      (body.length - 4) ≤ 33554432 - 64 ∧ s.running .fwCommit = false ∧ s.mgmt.fwBuf + (body.length - 4) ≤ 65536 ∧ (leAt body 0 4 = 0 ∨ ((s.fwCopy
      s.inactive).started = true ∧ leAt body 0 4 = (s.fwCopy s.inactive).bytes.length))) ∧
    (∃ (q : Req) (k : Nat) (s : State), s.admitted 0x0202 q { lenOk := true } = true ∧ s.running .fwCommit = false ∧ s.pickSlot = some k) ∧
    (∃ (s : State), s.mgmt.inRecovery = true ∧ s.mgmt.recovBoot = true) ∧
    (∃ (q : Req) (body : List Byte) (b : List Byte) (s : State), s.admitted 0x0203 q { lenOk := true } = true ∧ body.length = 8 ∧ 0 < leAt body 4 2 ∧
      leAt body 4 2 ≤ 4064 ∧ leAt body 6 2 = 0 ∧ s.mgmt.applied = some b ∧ leAt body 0 4 + leAt body 4 2 ≤ b.length ∧ b.length ≤ 4194304) ∧
    (∃ (q : Req) (body : List Byte) (s : State), s.admitted 0x0204 q { lenOk := true } = true ∧ 5 ≤ body.length ∧ body.length ≤ 4068 ∧ leAt body 0 4 +
      (body.length - 4) ≤ 4194304 ∧ s.running .fjxCommit = false ∧ s.mgmt.fjxBuf + (body.length - 4) ≤ 65536 ∧ (leAt body 0 4 = 0 ∨ (s.mgmt.stagingOn
      = true ∧ leAt body 0 4 = s.mgmt.staging.length))) ∧
    (∃ (q : Req) (k : Nat) (s : State), s.admitted 0x0205 q { lenOk := true } = true ∧ s.fld mgtStatus 25 3 ≠ 4 ∧ s.running .fjxCommit = false ∧
      s.pickSlot = some k) :=
  ⟨⟨rq 0 0, toLe 4 0 ++ [1], State.reset, by decide +kernel⟩,
   ⟨rq 0 0, 0, State.reset, by decide +kernel⟩,
   ⟨mg { State.reset.mgmt with inRecovery := true, recovBoot := true }, by decide +kernel⟩,
   ⟨rq 0 0, toLe 4 1 ++ toLe 2 2 ++ [0, 0], [1, 2, 3], mg { State.reset.mgmt with applied := some [1, 2, 3] }, by decide +kernel⟩,
   ⟨rq 0 0, toLe 4 0 ++ [1], State.reset, by decide +kernel⟩,
   ⟨rq 0 0, 0, rg [(mgtStatus, 0x02000000#32)], by decide +kernel⟩⟩

/-- States and operands that meet the hypotheses of `Obligations.Lifecycle`, clause by clause. -/
theorem witness_Lifecycle :
    (∃ (q : Req) (body : List Byte) (tgt : Nat) (pair : Nat) (k : Nat) (vendor : Bool) (s : State), s.admitted 0x0206 q { lenOk := true } = true ∧
      body.length = 4 ∧ leAt body 0 4 = tgt ∧ tgt ≤ 4 ∧ lcPair (s.fld mgtStatus 25 3) tgt = some (pair, vendor) ∧ (vendor = true → q.src.path = 4) ∧
      s.bit mgtStatus 29 = false ∧ (∀ j g, j < 32 → (s.slot j).job ≠ .lifecycle g) ∧ s.pickSlot = some k) ∧
    (∃ (q : Req) (body : List Byte) (tgt : Nat) (s : State), s.admitted 0x0206 q { lenOk := true } = true ∧ body.length = 4 ∧ leAt body 0 4 = tgt ∧
      tgt ≤ 4 ∧ lcPair (s.fld mgtStatus 25 3) tgt = none) ∧
    (∃ (q : Req) (s : State), s.admitted 0x0207 q { lenOk := true } = true) ∧
    (∃ (q : Req) (sig : List Byte) (a : Tick) (s : State), s.admitted 0x0207 q { lenOk := true } = true ∧ sig.length = 96 ∧ (s.fld mgtStatus 25 3 = 1
      ∨ s.fld mgtStatus 25 3 = 3) ∧ s.mgmt.nonceAt = some a ∧ ticksSince a s.tick.loc ≤ 1024 ∧ s.mgmt.nonceUsed = false ∧ s.mgmt.debugBad < 8) ∧
    (∃ (k : Nat) (tgt : Nat) (s : State), k < 32 ∧ 1 ≤ tgt ∧ tgt ≤ 4 ∧ s.clk.mgmtLost = false ∧ (s.slot k).state = 1 ∧ (s.slot k).job = .lifecycle tgt
      ∧ (s.slot k).ranAt ≠ some s.tick.loc ∧ s.tick.guardDone = false ∧ (∀ j, j < 32 → j ≠ k → (s.slot j).job = .none)) :=
  ⟨⟨rq 0 0, [2, 0, 0, 0], 2, 1, 0, false, rg [(mgtStatus, 0x02000000#32)],
     by and_intros <;> first | decide +kernel | exact (fun j g _ h => nomatch (show StepJob.none = .lifecycle g from h))⟩,
   ⟨rq 0 0, [3, 0, 0, 0], 3, rg [(mgtStatus, 0x02000000#32)], by decide +kernel⟩,
   ⟨rq 0 0, State.reset, by decide +kernel⟩,
   ⟨rq 0 0, List.replicate 96 7, 3,
     { rg [(mgtStatus, 0x02000000#32)] with mgmt := { State.reset.mgmt with nonce := 4, nonceAt := some 3 }, tick := { loc := 1027 } }, by
     decide +kernel⟩,
   ⟨0, 2, { ng { steps := [(0, lcS 3)] } with tick := { loc := 9 } }, by decide +kernel⟩⟩

/-- States and operands that meet the hypotheses of `Obligations.BootAndTakeover`, clause by clause. -/
theorem witness_BootAndTakeover :
    (∃ (s : State), s.pwr.mgmtUp = true ∧ s.pwr.bootRan = false) ∧
    (∃ (s : State), s.lcState ≤ 3 ∧ s.completePending = s.takeLc s.lcState ∧ s.mgmt.fwB.commit = none ∧ s.fwReason s.mgmt.fwA = 0 ∧ s.mgmt.stopped =
      false) ∧
    (∃ (s : State), s.mgmt.watchdog = true) ∧
    (∃ (s : State), s.bit mgtCkptStatus 30 = false ∧ s.ckptTicks ≤ ticksSince s.mgmt.ckptLast s.tick.loc) ∧
    (∃ (s : State), s.bit mgtCkptStatus 30 = true ∧ s.tick.guardDone = false ∧ s.mgmt.sliceAt ≠ some s.tick.loc) ∧
    (∃ (s : State), s.activeCore < 2 ∧ tget 0 s.mgmt.failAt s.activeCore = 0 ∧ s.present 11 (1 - s.activeCore) = true ∧ s.bit mgtHaCtl 31 = true ∧
      s.hbTicks ≤ ticksSince s.mgmt.actSince s.tick.loc) ∧
    (∃ (c : CoreIx) (s : State), s.present 11 c = true ∧ s.activeCore = c ∧ tget 0 s.mgmt.failAt c = 0 ∧ s.present 11 (1 - c) = true ∧ s.bit mgtHaCtl
      31 = true) ∧
    (∃ (q : Req) (k : Nat) (s : State), s.admitted 0x0208 q { lenOk := true } = true ∧ s.present 11 0 = true ∧ s.present 11 1 = true ∧ s.pickSlot =
      some k) :=
  ⟨⟨{ State.reset with pwr := { mgmtUp := true } }, by decide +kernel⟩,
   ⟨State.reset, by decide +kernel⟩,
   ⟨mg { State.reset.mgmt with watchdog := true }, by decide +kernel⟩,
   ⟨{ State.reset with tick := { loc := 0x1000000 } }, by decide +kernel⟩,
   ⟨{ rg [(mgtCkptStatus, 0x417F0000#32)] with tick := { loc := 9 } }, by decide +kernel⟩,
   ⟨{ rg [(mgtHaCtl, 0x80000000#32)] with tick := { loc := 32 } }, by decide +kernel⟩,
   ⟨0, rg [(mgtHaCtl, 0x80000000#32)], by decide +kernel⟩,
   ⟨rq 0 0, 0, State.reset, by decide +kernel⟩⟩

/-- States and operands that meet the hypotheses of `Obligations.Telemetry`, clause by clause. -/
theorem witness_Telemetry :
    (∃ (volts : List (BitVec 16)) (n : Nat) (s : State), n < 12 ∧ (∀ a, s.tel.sampleAt = some a → 64 ≤ ticksSince a s.tick.loc) ∧ (volts.getD n
      0).toNat < 2 ^ 14 ∧ (∀ k, k < 21 → s.present 10 k = false) ∧ (∀ kind ix, s.lvlMask kind ix = 0) ∧ (∀ k, tget 0 s.tel.runs k = 0)) ∧
    (∃ (a : Tick) (s : State), s.tel.sampleAt = some a ∧ ticksSince a s.tick.loc < 64) ∧
    (∃ (n : Nat) (s : State), n < 8 ∧ (∀ a, s.tel.roAt = some a → 2 ^ 20 ≤ ticksSince a s.tick.loc)) ∧
    (∃ (tl : Option TileIx) (c : Fin 128) (s : State), pmcThere tl c = true ∧ (∀ x, tl = some x → s.present 1 x = true)) ∧
    (∃ (x : TileIx) (c : Fin 128) (s : State), c.val < 64 ∧ s.present 1 x = false) ∧
    (∃ (p : PortIx) (tx : Nat) (rx : Nat) (s : State), s.tick.loc.toNat % s.bwWindow = 0 ∧ s.tel.bwAt ≠ some s.tick.loc ∧ s.pmode p ≠ 3 ∧ s.tel.bw =
      [] ∧ tx < 2 ^ 64 ∧ rx < 2 ^ 64) ∧
    (∃ (d : Dump) (s : State), s.tel.dump = some d ∧ s.tick.guardDone = false ∧ d.at0 ≠ some s.tick.loc ∧ s.telDest (d.flags / 2) d.port = true ∧
      d.units ≠ 3) ∧
    (∃ (d : Dump) (s : State), s.tel.dump = some d ∧ s.tick.guardDone = false ∧ d.at0 ≠ some s.tick.loc ∧ s.telDest (d.flags / 2) d.port = true ∧
      d.units = 3) ∧
    (∃ (g : LatTag) (s : State), s.tel.tags.find? (fun t => t.fin) = some g ∧ s.tel.latTick < 64 ∧ s.telDest (s.fld telLatCtl 31 1) (s.fld telDumpCtl
      16 8) = true) ∧
    (∃ (s : State), s.tel.auditOn.isSome = true ∧ s.idle = true) ∧
    (∃ (a : Tick) (s : State), s.tel.auditOn = some a ∧ s.idle = false ∧ s.auditLimit ≤ ticksSince a s.tick.loc) :=
  ⟨⟨[700], 0, rg noStg, by decide +kernel, (fun a h => nomatch (show (none : Option Tick) = some a from h)), by decide +kernel, by decide +kernel,
     (fun _ _ => rfl), (fun _ => rfl)⟩,
   ⟨0, { State.reset with tel := { sampleAt := some 0 }, tick := { loc := 63 } }, by decide +kernel⟩,
   ⟨0, State.reset, by decide +kernel, (fun a h => nomatch (show (none : Option Tick) = some a from h))⟩,
   ⟨none, 127, State.reset, by decide +kernel⟩,
   ⟨3, 3, rg [(glbCapMisc, 0#32)], by decide +kernel⟩,
   ⟨0, 5, 6, State.reset, by decide +kernel⟩,
   ⟨dmp, { State.reset with tel := { dump := some dmp } }, by decide +kernel⟩,
   ⟨{ dmp with units := 3 }, { State.reset with tel := { dump := some { dmp with units := 3 } } }, by decide +kernel⟩,
   ⟨ltg, { State.reset with tel := { tags := [ltg] } }, by decide +kernel⟩,
   ⟨{ State.reset with tel := { auditOn := some 0, idleRun := 1000000 } }, by decide +kernel⟩,
   ⟨0, { State.reset with tel := { auditOn := some 0 }, tick := { loc := 0x7FFFFFFF } }, by decide +kernel⟩⟩

/-- States and operands that meet the hypotheses of `Obligations.ResetRequests`, clause by clause. -/
theorem witness_ResetRequests :
    (∃ (q : Req) (body : List Byte) (s : State), s.admitted 0x0106 q { kinds := [0, 1, 2, 9], lenOk := true } = true ∧ body.length = 4 ∧ leAt body 1 3
      = 0 ∧ s.clk.running = [] ∧ byteAt body 0 = 2 ∧ q.kind = 0) ∧
    (∃ (q : Req) (body : List Byte) (s : State), s.admitted 0x0106 q { kinds := [0, 1, 2, 9], lenOk := true } = true ∧ body.length = 4 ∧ leAt body 1 3
      = 0 ∧ s.clk.running = [] ∧ byteAt body 0 = 3 ∧ q.kind = 0) ∧
    (∃ (q : Req) (body : List Byte) (s : State), s.admitted 0x0106 q { kinds := [0, 1, 2, 9], lenOk := true } = true ∧ body.length = 4 ∧ leAt body 1 3
      = 0 ∧ s.clk.running = [] ∧ byteAt body 0 = 4 ∧ q.kind = 1 ∧ q.src.path ≠ 3) ∧
    (∃ (q : Req) (body : List Byte) (s : State), s.admitted 0x0106 q { kinds := [0, 1, 2, 9], lenOk := true } = true ∧ body.length = 4 ∧ leAt body 1 3
      = 0 ∧ s.clk.running = [] ∧ byteAt body 0 = 5 ∧ q.kind = 2 ∧ q.src.path ≠ 3) ∧
    (∃ (q : Req) (body : List Byte) (s : State), s.admitted 0x0106 q { kinds := [0, 1, 2, 9], lenOk := true } = true ∧ body.length = 4 ∧ leAt body 1 3
      = 0 ∧ s.clk.running ≠ [] ∧ byteAt body 0 = 3 ∧ q.kind = 0) ∧
    (∃ (u : TileIx) (r : Nat × Nat × Nat × Tick) (s : State), s.dueReset 4 (2 ^ 28 + u) = some r) ∧
    (∃ (p : PortIx) (r : Nat × Nat × Nat × Tick) (s : State), s.dueReset 5 (2 * 2 ^ 28 + p) = some r) ∧
    (∃ (r : Nat × Nat × Nat × Tick) (s : State), s.clk.running = [] ∧ s.dueReset 3 0 = some r) ∧
    (∃ (source : Nat) (t0 : Tick) (s : State), s.clk.running = [(3, 0, source, t0)] ∧ source ≠ srcClock ∧ s.home.trks = []) ∧
    (∃ (r : Nat × Nat × Nat × Tick) (s : State), s.dueReset 2 0 = some r ∧ (r.2.2.1 = srcPower → s.pwr.fresh = false)) :=
  ⟨⟨rq 0 0, [2, 0, 0, 0], State.reset, by decide +kernel⟩,
   ⟨rq 0 0, [3, 0, 0, 0], State.reset, by decide +kernel⟩,
   ⟨rq 1 0, [4, 0, 0, 0], State.reset, by decide +kernel⟩,
   ⟨rq 2 0, [5, 0, 0, 0], State.reset, by decide +kernel⟩,
   ⟨rq 0 0, [3, 0, 0, 0], { State.reset with clk := { running := [(3, 0, 1, 0)], draining := true } }, by decide +kernel⟩,
   ⟨3, (4, 2 ^ 28 + 3, 0, 0), rsR (4, 2 ^ 28 + 3, 0, 0) 0, by decide +kernel⟩,
   ⟨3, (5, 2 * 2 ^ 28 + 3, 0, 0), rsR (5, 2 * 2 ^ 28 + 3, 0, 0) 0, by decide +kernel⟩,
   ⟨(3, 0, 4, 0), rsR (3, 0, 4, 0) 0, by decide +kernel⟩,
   ⟨4, 0, { State.reset with clk := { running := [(3, 0, 4, 0)], draining := true } }, by decide +kernel⟩,
   ⟨(2, 0, 4, 0), rsR (2, 0, 4, 0) 0, by decide +kernel⟩⟩

/-- States and operands that meet the hypotheses of `Obligations.ClocksAndCrossings`, clause by clause. -/
theorem witness_ClocksAndCrossings :
    (∃ (d : Fin 16) (s : State), d.val = 14 ∧ s.bit glbClkStatus 29 = true) ∧
    (∃ (d : Fin 16) (s : State), 1 ≤ d.val ∧ d.val ≤ 12 ∧ s.bit glbClkStatus (15 + d.val) = true ∧ s.present 1 (d.val - 1) = true) ∧
    (∃ (d : Fin 16) (s : State), 1 ≤ d.val ∧ d.val ≤ 12 ∧ s.bit glbClkStatus (15 + d.val) = true ∧ s.present 1 (d.val - 1) = false) ∧
    (∃ (d : Fin 16) (s : State), d.val = 0 ∧ s.bit glbClkStatus 31 = true) ∧
    (∃ (d : Fin 16) (s : State), d.val = 13 ∧ s.bit glbClkStatus 30 = true) ∧
    (∃ (d : Fin 16) (s : State), s.bit glbClkStatus (pllBit d) = false) ∧
    (∃ (d : Fin 15) (s : State), d.val = 13 ∧ s.bit glbClkStatus 30 = false ∧ s.bit glbClkStatus 28 = true) ∧
    (∃ (d : Fin 15) (s : State), 1 ≤ d.val ∧ d.val ≤ 12 ∧ s.bit glbClkStatus (15 + d.val) = false ∧ s.bit glbClkStatus 28 = true ∧ tget 0 s.clk.lostAt
      (d.val - 1) ≠ 0 ∧ ticksSince (BitVec.ofNat 48 (tget 0 s.clk.lostAt (d.val - 1) - 1)) s.tick.loc ≤ 64) ∧
    (∃ (tl : TileIx) (s : State), tget 0 s.clk.lostAt tl ≠ 0 ∧ 64 ≤ ticksSince (BitVec.ofNat 48 (tget 0 s.clk.lostAt tl - 1)) s.tick.loc) ∧
    (∃ (s : State), s.clk.coreLost = true ∧ s.bit glbClkStatus 31 = false ∧ s.bit glbTickStatus 29 = false) ∧
    (∃ (x : Fin 1024) (k : Nat), isCrossing x = true ∧ 1 ≤ k) ∧
    (∃ (x : Fin 1024) (s : State), isCrossing x = true ∧ x.val % 32 ≠ 16 ∧ s.bit glbXingLog0 31 = false) :=
  ⟨⟨14, rg [(glbClkStatus, 0xFFFFFFFF#32)], by decide +kernel⟩,
   ⟨12, rg [(glbClkStatus, 0xFFFFFFFF#32)], by decide +kernel⟩,
   ⟨12, rg [(glbClkStatus, 0xFFFFFFFF#32), (0x20C, 0x08000000#32)], by decide +kernel⟩,
   ⟨0, rg [(glbClkStatus, 0xFFFFFFFF#32)], by decide +kernel⟩,
   ⟨13, rg [(glbClkStatus, 0xFFFFFFFF#32)], by decide +kernel⟩,
   ⟨13, rg [(glbClkStatus, 0#32)], by decide +kernel⟩,
   ⟨13, rg [(glbClkStatus, 0x9FFF0000#32)], by decide +kernel⟩,
   ⟨12, { rg [(glbClkStatus, 0xF7FFFFFF#32)] with clk := { lostAt := [(11, 1)] } }, by decide +kernel⟩,
   ⟨11, { State.reset with clk := { lostAt := [(11, 1)] }, tick := { loc := 64 } }, by decide +kernel⟩,
   ⟨{ rg [(glbClkStatus, 0#32), (glbTickStatus, 0#32)] with clk := { coreLost := true } }, by decide +kernel⟩,
   ⟨1, 1, by decide +kernel⟩,
   ⟨1, State.reset, by decide +kernel⟩⟩

/-- States and operands that meet the hypotheses of `Obligations.FaultsAndBackground`, clause by clause. -/
theorem witness_FaultsAndBackground :
    (∃ (s : State), s.bit glbErrLog0 31 = false) ∧
    (∃ (s : State), s.bit glbErrLog0 31 = true) ∧
    (∃ (b : BankIx) (s : State), s.present 5 b = true ∧ s.bit sfScrubCtl 31 = true) ∧
    (∃ (b : BankIx) (s : State), s.present 5 b = true ∧ s.bit sfScrubCtl 31 = true ∧ tget 0 s.clk.sfDefer b ≠ 3) ∧
    (∃ (h : StackIx) (s : State), s.present 8 h = true) ∧
    (∃ (h : StackIx) (pc : Fin 32) (s : State), s.present 8 h = true ∧ s.fld hbmScrubCtl 0 8 ≠ 0 ∧ nbit (s.lvlMask 2 h) 1 = false ∧ tget 0
      s.hbm.scrubAt (h.val * 32 + pc.val) = 0) ∧
    (∃ (q : Req) (b : List Byte) (s : State), s.admitted 0x0107 q { kinds := [1, 2, 4, 5, 6, 7, 8, 11], lenOk := true } = true ∧ b.length = 0 ∧
      (s.begun 0x0107 q b).lastOfMinimum q.kind.toNat q.index.toNat = false) ∧
    (∃ (q : Req) (b : List Byte) (s : State), s.admitted 0x0107 q { kinds := [1, 2, 4, 5, 6, 7, 8, 11], lenOk := true } = true ∧ b.length = 0 ∧
      (s.begun 0x0107 q b).lastOfMinimum q.kind.toNat q.index.toNat = true) :=
  ⟨⟨State.reset, by decide +kernel⟩,
   ⟨rg [(glbErrLog0, 0x80000009#32)], by decide +kernel⟩,
   ⟨0, rg [(sfScrubCtl, 0x80000000#32)], by decide +kernel⟩,
   ⟨0, { rg [(sfScrubCtl, 0x80000000#32)] with clk := { sfDefer := [(0, 2)] } }, by decide +kernel⟩,
   ⟨0, hb { postp := [(0, 4)] }, by decide +kernel⟩,
   ⟨0, 0, rg [(hbmScrubCtl, 8#32)], by decide +kernel⟩,
   ⟨rq 1 3, [], State.reset, by decide +kernel⟩,
   ⟨rq 11 0, [], rg [(0x20C, 2#32)], by decide +kernel⟩⟩

/-- States and operands that meet the hypotheses of `Obligations.RegisterAccess`, clause by clause. -/
theorem witness_RegisterAccess :
    (∃ (m : Fin 8) (lvl : Fin 3) (off : Word) (b : List Byte) (r : RegRow) (s : State), b.length = 4 ∧ off.toNat % 4 = 0 ∧ s.acuAdmits m lvl off.toNat
      true = true ∧ locate off.toNat = some (.glob, 0, off.toNat) ∧ unitAt off.toNat = none ∧ findRow off.toNat = some r ∧ (off.toNat < 0x101000 ∨
      0x101800 ≤ off.toNat) ∧ (off.toNat < 0x180000 ∨ 0x200000 ≤ off.toNat) ∧ (off.toNat < 0x701000 ∨ 0x702000 ≤ off.toNat) ∧ off.toNat ∉ [hmpTiming0,
      hmpTiming1, telAuditCtl, pwrCtl, pwrBrCmd] ∧ slotOf off.toNat ≠ 9 ∧ off.toNat ≠ glbEvFifoOvfCnt) ∧
    (∃ (off : Word) (b : List Byte), aligned off.toNat b.length = false) ∧
    (∃ (m : Fin 8) (lvl : Fin 3) (off : Word) (b : List Byte) (s : State), aligned off.toNat b.length = true ∧ s.acuAdmits m lvl off.toNat true =
      false) ∧
    (∃ (m : Fin 8) (lvl : Fin 3) (off : Word) (r : RegRow) (s : State), off.toNat % 4 = 0 ∧ s.acuAdmits m lvl off.toNat false = true ∧ slotOf
      off.toNat ≠ 9 ∧ (off.toNat < 0x800110 ∨ 0x800130 ≤ off.toNat) ∧ unitAt off.toNat = none ∧ s.memberAt off.toNat = false ∧ measured off.toNat =
      none ∧ s.tel.latch = [] ∧ lowOf64 off.toNat = false ∧ findRow off.toNat = some r ∧ off.toNat ≠ glbXingMergeCnt ∧ off.toNat ≠ glbXingToCnt) ∧
    (∃ (m : Fin 8) (lvl : Fin 3) (off : Word) (r : RegRow) (s : State), off.toNat % 4 = 0 ∧ s.acuAdmits m lvl off.toNat false = true ∧ slotOf
      off.toNat ≠ 9 ∧ (off.toNat < 0x800110 ∨ 0x800130 ≤ off.toNat) ∧ unitAt off.toNat = none ∧ s.memberAt off.toNat = false ∧ measured off.toNat =
      none ∧ measured (off.toNat + 4) = none ∧ s.tel.latch = [] ∧ lowOf64 off.toNat = true ∧ findRow off.toNat = some r ∧ r.rc = 0) ∧
    (∃ (u : Fin 8) (m : Fin 8) (lvl : Fin 3) (s : State), s.acuAdmits m lvl (mgtAcuCtl u + 3) true = true) ∧
    (∃ (u : Fin 8) (m : Fin 8) (lvl : Fin 3) (k : Fin 64) (b : List Byte) (s : State), b.length = 4 ∧ s.bit (mgtAcuCtl u) 30 = true ∧ 4 ≤ k.val ∧
      s.acuAdmits m lvl (mgtAcuCtl u + 4 * k) true = true) :=
  ⟨⟨0, 0, 0x5008#32, [1, 2, 3, 4], (findRow 0x5008).getD R0, State.reset, by decide +kernel⟩,
   ⟨0x5009#32, [1, 2], by decide +kernel⟩,
   ⟨4, 1, 0x100008#32, [1, 2, 3, 4], State.reset, by decide +kernel⟩,
   ⟨0, 0, 0x5008#32, (findRow 0x5008).getD R0, State.reset, by decide +kernel⟩,
   ⟨0, 0, 0x1000#32, (findRow 0x1000).getD R0, State.reset, by decide +kernel⟩,
   ⟨0, 0, 0, State.reset, by decide +kernel⟩,
   ⟨0, 0, 0, 4, [1, 2, 3, 4], rg [(mgtAcuCtl 0, 0x40000000#32)], by decide +kernel⟩⟩

/-- States and operands that meet the hypotheses of `Obligations.RegisterCommands`, clause by clause. -/
theorem witness_RegisterCommands :
    (∃ (q : Req) (body : List Byte) (s : State), s.admitted 0x0102 q { lenOk := true } = true ∧ body.length = 8 ∧ leAt body 0 4 % 4 = 0 ∧ 0 < byteAt
      body 4 ∧ byteAt body 4 ≤ 64 ∧ leAt body 0 4 + 4 * byteAt body 4 ≤ 0x4000000 ∧ leAt body 5 3 = 0 ∧ s.opRefused (opWords (leAt body 0 4) (byteAt
      body 4)) false = none) ∧
    (∃ (q : Req) (body : List Byte) (s : State), s.admitted 0x0103 q
      { lenOk := true, objs := ((opWords (leAt body 0 4) (byteAt body 4)).map (fun o => Obj.page (o / 4096))).eraseDups } = true ∧ body.length = 8 + 4
      * (byteAt body 4) ∧ (leAt body 0 4) % 4 = 0 ∧ 0 < (byteAt body 4) ∧ (byteAt body 4) ≤ 64 ∧ (leAt body 0 4) + 4 * (byteAt body 4) ≤ 0x4000000 ∧
      leAt body 5 3 = 0 ∧ s.opRefused (opWords (leAt body 0 4) (byteAt body 4)) true = none ∧ (opWords (leAt body 0 4) (byteAt body 4)).filter
      s.absentAt = [] ∧ s.edgeClash (opWords (leAt body 0 4) (byteAt body 4)) (edgeWrites (leAt body 0 4) (byteAt body 4) (body.drop 8)) = false) ∧
    (∃ (q : Req) (body : List Byte) (s : State), s.admitted 0x0104 q { lenOk := true } = true ∧ body.length = 4 ∧ leAt body 0 4 < 2 ^ 18 ∧ (∀ p, p <
      192 → s.pmode p = 3 → s.flState p = 0)) ∧
    (∃ (q : Req) (body : List Byte) (s : State), s.admitted 0x0104 q { lenOk := true } = true ∧ body.length = 4 ∧ leAt body 0 4 < 2 ^ 18 ∧ (∃ p, p <
      192 ∧ s.pmode p = 3 ∧ s.flState p ≠ 0)) :=
  ⟨⟨rq 0 0, toLe 4 0x5008 ++ [1, 0, 0, 0], State.reset, by decide +kernel⟩,
   ⟨rq 0 0, toLe 4 0x5008 ++ [1, 0, 0, 0] ++ [1, 2, 3, 4], State.reset, by decide +kernel⟩,
   ⟨rq 0 0, toLe 4 (2 ^ 18 - 1), State.reset, by decide +kernel⟩,
   ⟨rq 0 0, toLe 4 5, rg (fst 4), by decide +kernel, by decide +kernel, by decide +kernel, (⟨0, by decide +kernel⟩)⟩⟩

/-! ### Ill-formed commands -/

/-- For each check of `Instr.wellFormed`, a term that it refuses. -/
theorem test_illFormed_refused :
    ([.opIdentify (rq 0 0) (List.replicate 4081 0), .nalugPacketReceive ⟨src0, true, true, true, 0, 0, true, List.replicate 4097 0⟩,
      .bridgeTransactionDone 0 (List.replicate 33 0), .registerWrite 0 0 0 [], .rcRegisterRead 0 0 0 4097, .feedOutOfRange 0 (2 ^ 32),
      .feedInRange 0 (2 ^ 32), .cbTrip 0 (2 ^ 32), .coldModuleReset [(8, 4)], .monitorSample [] [], .roMeasure [],
      .cxlLinkUp 0 { cxu with width := 3 }, .pmcConfigWrite (some 0) 64 0 0, .pmcCntWrite (some 0) 64 0, .tileMessageAccept 0 { nm0 with bytes := 4097 }, .biconflict 0 (2 ^ 40),
      .snoopResponse (2 ^ 40) ⟨8, 0, none⟩, .lineStoreWriteAck (2 ^ 40), .lineQueueAdvance (2 ^ 40), .lsVictimWriteDone (2 ^ 40),
      .deviceWriteComplete (2 ^ 40), .copy 0 [(0, 0, 8)], .ringEnable 0 [(0, 0, 9)], .hamper 0 rec0 [(0, 0, 10)],
      .instanceWindowAccess 0 0 0 none 4 [(0, 0, 8)]] : List Instr).all (fun c => !c.wellFormed) = true := by decide +kernel

theorem test_illFormed_refused_ports :
    ([.hamperPortEntryWrite 0 0 0 [], .hamperPortHeaderWrite 0 0 0 [], .hpartReceive { hms with lines := List.replicate 33 hln },
      .hvoteReceive { hms with lines := List.replicate 33 hln }, .hdecideReceive { hms with lines := List.replicate 33 hln },
      .hqueryReceive { hms with lines := List.replicate 33 hln }, .hanswerReceive { hms with lines := List.replicate 33 hln },
      .hamper 0 [0, 1] [], .instanceWindowAccess 0 0 0 none 0 [], .instanceWindowAccess 0 0 0 (some [1]) 4 [], .mailboxBufferWrite 0 true false 0 [],
      .alignDone 0 [0, 1, 2], .flitReceive 0 true 0 [] [], .linkMessageSend 0 0 4097, .creditFlitReceive 0 [], .ioMessageReceive 0 (fhd 0) 4097 true 0,
      .mctpMessageReceive 0 (fhd 3) 4097, .lanePatternFound 0 0 false [], .laneCheckPass 0 0 [], .hdmDecoderWrite 0 1 0 0] : List Instr).all
      (fun c => !c.wellFormed) = true := by decide +kernel

/-- And terms that it admits. -/
theorem test_wellFormed_admitted :
    ([.opIdentify (rq 0 0) [], .registerWrite 0 0 0 [1, 2, 3, 4], .coldModuleReset [(8, 3)], .tileMessageAccept 0 nm0, .hpartReceive hms,
      .hamper 0 rec0 [], .flitReceive 0 true 0 [] (flit 0), .hdmDecoderWrite 0 0x10000000 0 0] : List Instr).all (fun c => c.wellFormed) = true := by
  decide +kernel

/-! ### The spec's worked examples -/

/-- R14, R16: P130 uses station S16. -/
theorem test_station_of_P130 : portStation 130 = 16 := by decide

/-- The example under R70: line index, LA, bucket HB13, set. -/
theorem test_hash_of_the_line : lineAddr 0x51A2 0x03456780 = 0x14688D159E ∧ bucket 0x14688D159E = 0xD ∧ sfSet 0x14688D159E = 0x0B7A ∧
    State.reset.laBank 0x14688D159E = 13 := by decide +kernel

def vcX : State := dm { vcs := [(3, { usp := 5, host := 0x4105, base := 1024, len := 64, hdm := 0x004000000000 })], hmap := [(1068, ⟨3, none, 0x51A2⟩), (1069, ⟨3, none, 7⟩), (1070, ⟨1, none, 8⟩)] }

/-- The example under R58: entry 1,068, slice offset 0x0345_6780; the write that runs into a read-only entry fails there with
reason 2. -/
theorem test_window_of_vCS3 : vcX.originByte 3 0x0042C3456780 false = .inr (⟨3, none, 0x51A2⟩, 0x0002C3456780) ∧
    vcX.originByte 3 (0x004000000000 + 0x0002DFFFFFFF) true = .inr (⟨3, none, 7⟩, 0x0002DFFFFFFF) ∧
    vcX.originByte 3 (0x004000000000 + 0x0002E0000000) true = .inl (2, 0x0002E0000000) := by decide +kernel

def stepX : State := { rg ([(ptMode 0, 0xC0000000#32), (ptFlStatus 0, 0x80000000#32), (glbTickStatus, 0x40000000#32), (glbTickMaster, 0x80000003#32)]) with tick := { loc := 7, fab := 0x2341, adjDue := true, syncs := [(0, [(⟨0x2359, 19776, 3, 1, true, true, 0⟩, 7)])] } }

/-- The example under R24: 412 ns late in tick 0x2341, the module adds 1,836 cycles and loads 0x235B. -/
theorem test_step_of_holdover : (match exec .adjustmentTickStart stepX with | .next t => t.tick.adj | _ => none) = some (1836, 0x235B) := by
  decide +kernel

/-- The example under R160: of 64 B requests the 128th is green, the 129th yellow, the 257th red. -/
def shF (n : Nat) : Flow := { cir := 4096, pir := 8192, cbs := 8192, pbs := 16384, cirP := 4096, dc := 64 * min n 128, dp := 64 * n }
theorem test_shaper_colours : (shaperTest false 0 (shF 127) 64).1 = 0 ∧ (shaperTest false 0 (shF 128) 64).1 = 1 ∧
    (shaperTest false 0 (shF 255) 64).1 = 1 ∧ (shaperTest false 0 (shF 256) 64).1 = 2 := by decide

def rsX (rate : Nat) : State := { rg [(ptMode 130, 0x80820000#32), (ptCxStatus 130, BitVec.ofNat 32 (2 * 2 ^ 29 + rate * 2 ^ 26 + 4 * 2 ^ 21)),
    (ptEdgeId 130 0, 0x80004182#32)] with bind := { devs := [(2080, 16)] }, qos := { seen := [(2336, 28672)], rsv := [(0, ⟨1, 0, 2336, 12288⟩), (1, ⟨2, 0, 2336, 8192⟩), (2, ⟨3, 0, 2336, 6144⟩)] } }

/-- The example under R172: 28,672 deliverable, a fourth reservation of 4,096 is refused with a headroom of 2,048. -/
theorem test_reservation_refused : (match exec (.opQosReserve (rq 0 0) (toLe 4 4 ++ [0, 0] ++ toLe 2 2336 ++ toLe 4 4096)) (rsX 5) with
    | .next t => t.out.getLast? | _ => none) = some (.reply (rq 0 0) 0x0803 stQosAdmission (toLe 4 2048)) := by decide +kernel

/-- At 32 GT/s the scale falls to 35,288. -/
theorem test_rescale : (match exec (.qosRescale 2336) ((rsX 4).rateEdge) with | .next t => t.tgtScale 2336 | _ => 0) = 35288 := by decide +kernel

/-- The example under R212: 600 instances share 109 prefetch and 27 completion slots each. -/
theorem test_shares_of_600 : ({ State.reset with eng := { shareN := 600, shareP := 4 } }).pfShare = 109 ∧
    ({ State.reset with eng := { shareN := 600, shareP := 4 } }).cplShare = 27 := by decide +kernel

def rateX : State := { rg [(engInst 0, 0x90000007#32), (engInst 0 + 16, 65536#32), (insRingStatus 0, 0x20000000#32)] with eng := { insts := [(0, { iu [u0 1, toLe 8 32768 ++ [5] ++ List.replicate 23 0] with dp := 32768 })] } }

/-- The example under R215: entry B, a COPY of 32 KiB, completes with ST_ENG_RATE while TP is 32,768. -/
theorem test_rate_refused : (match exec (.copy 0 []) rateX with | .next t => (t.inst 0).job.map (·.fin) | _ => none) = some (some (stEngRate, 0)) := by
  decide +kernel

/-- The example under R252: the delay sample is 270.0 cycles. -/
theorem test_delay_sample : (match exec (.delayRspReceive 0 1600 0 7368 1 1100 8)
      (lkS 4 [] { req := some (1600, 1) }) with | .next t => (t.link 0).delays | _ => []) = [4320] := by decide +kernel

def stX : StageReading := { stage := 5, ok := true, status := 0, vout := 0x0C00, iout := 0xF181, temp := 0xF887, voutMode := 0x14, cm := 0, cb := 0, cr := 0 }

/-- The example under R335: stage 5 reads 750 mV, 96,250 mA and 67,500 m°C. -/
theorem test_stage_readings : (match exec (.bridgePollRound [stX]) State.reset with
    | .next t => (t.nreg (pwrStg 5), t.nreg (pwrStg 5 + 4), t.nreg (pwrStg 5 + 8)) | _ => (0, 0, 0)) = (750, 96250, 67500) := by decide +kernel

/-- A queue of two commands: the first is taken, the second stays (the model's queue, log entry 1). -/
theorem test_queue_is_fifo : (match step { State.reset with pending := [.guardPoint, .auditCheck] } with | .next t => (t.tick.guardDone, t.pending) | _ => (false, [])) =
    (true, [.auditCheck]) := by decide +kernel

end Sys2Proof.Tests
end

section
namespace Sys2Proof.Machine

/-! ### The decoder of R420 at the base of a port, a lane and a page -/

theorem locate_portBlock {t r q : Nat} (ht : t < 12) (hr : r < 16) (hq : q < 0x8000) :
    locate (0x2000000 + t * 0x100000 + 0x80000 + r * 0x8000 + q) =
      if 0x6000 ≤ q ∧ q < 0x6A00 then some (.lane, (t * 16 + r) * 5 + (q - 0x6000) / 0x200, q % 0x200)
      else some (.port, t * 16 + r, q) := by
  generalize ho : 0x2000000 + t * 0x100000 + 0x80000 + r * 0x8000 + q = o
  have htile : (o - 0x2000000) / 0x100000 = t := by omega
  have hrest : o % 0x100000 = 0x80000 + (r * 0x8000 + q) := by omega
  have hport : (0x80000 + (r * 0x8000 + q) - 0x80000) / 0x8000 = r := by
    rw [Nat.add_sub_cancel_left]; omega
  have hoff : (0x80000 + (r * 0x8000 + q)) % 0x8000 = q := by omega
  unfold locate
  rw [if_neg (by omega), if_pos (by omega)]
  simp only [htile, hrest, hport, hoff]
  rw [if_neg (by omega), if_neg (by omega)]

theorem locate_portBase {p q : Nat} (hp : p < 192) (hq : q < 0x6000) : locate (portBase p + q) = some (.port, p, q) := by
  unfold portBase
  rw [locate_portBlock (by omega) (by omega) (by omega), if_neg (by omega), Nat.div_add_mod']

theorem locate_laneBase {p l q : Nat} (hp : p < 192) (hl : l < 5) (hq : q < 0x200) :
    locate (laneBase p l + q) = some (.lane, p * 5 + l, q) := by
  have he : laneBase p l + q = 0x2000000 + p / 16 * 0x100000 + 0x80000 + p % 16 * 0x8000 + (0x6000 + l * 0x200 + q) := by
    unfold laneBase portBase; omega
  have hlane : (0x6000 + l * 0x200 + q - 0x6000) / 0x200 = l := by omega
  have hoff : (0x6000 + l * 0x200 + q) % 0x200 = q := by omega
  rw [he, locate_portBlock (by omega) (by omega) (by omega), if_pos (by omega), Nat.div_add_mod', hlane, hoff]

theorem locate_pageBase {i q : Nat} (hi : i < 1024) (hq : q < 0x1000) : locate (pageBase i + q) = some (.page, i, q) := by
  have hpage : (pageBase i + q - 0x1000000) / 0x1000 = i := by unfold pageBase; omega
  have hoff : (pageBase i + q) % 0x1000 = q := by unfold pageBase; omega
  have hb : 0x1000000 ≤ pageBase i + q ∧ pageBase i + q < 0x1400000 := by unfold pageBase; omega
  unfold locate
  simp only [hpage, hoff]
  rw [if_neg (by omega), if_neg (by omega), if_pos (by omega), if_pos hb.2]

/-! ### Words of the reset state -/

theorem regReset_of_row {o u q : Nat} {sp : Space} {w : Word} (hl : locate o = some (sp, u, q)) (hq : (sp, q) ≠ (.port, 0))
    (hrow : (regRows.find? (fun r => decide (r.sp = sp) && r.covers q)).map (fun r => BitVec.ofNat 32 r.rst) = some w) :
    regReset o = w := by
  obtain ⟨r, hr, hw⟩ := Option.map_eq_some_iff.mp hrow
  unfold regReset findRow
  rw [hl]
  split
  · next h => simp_all
  · simp only [hr, hw]

theorem reg_reset (o : Nat) : State.reset.reg o = regReset o := rfl

theorem regReset_ptFlStatus {p : Nat} (hp : p < 192) : regReset (ptFlStatus p) = 0 := by
  unfold ptFlStatus
  exact regReset_of_row (locate_portBase hp (by decide)) (by decide) (by decide +kernel)

theorem regReset_lnStatus {p l : Nat} (hp : p < 192) (hl : l < 5) : regReset (lnStatus p l) = 0 := by
  unfold lnStatus
  exact regReset_of_row (locate_laneBase hp hl (by decide)) (by decide) (by decide +kernel)

theorem regReset_insRingStatus {i : Nat} (hi : i < 1024) : regReset (insRingStatus i) = 0 := by
  unfold insRingStatus
  exact regReset_of_row (locate_pageBase hi (by decide)) (by decide) (by decide +kernel)

theorem reset_fld_zero {o : Nat} (h : regReset o = 0) (lo n : Nat) : State.reset.fld o lo n = 0 := by
  rw [State.fld, reg_reset, h]
  simp [bits]

theorem reset_fuse (b : Nat) : nbit (tget 0 State.reset.mgmt.fuses 0) b = decide (b < 3) := by
  have h7 : nbit 7 b = Nat.testBit (2 ^ 3 - 1) b := by
    simp [nbit, Nat.testBit_eq_decide_div_mod_eq]
  rw [← Nat.testBit_two_pow_sub_one, ← h7]
  rfl

/-- Settles O2. The shipped module's fuses (log 14) and the values that the register tables do not give (log 10) are the model's
choices. -/
theorem resetState : Obligations.ResetState := by
  refine ⟨rfl, rfl, rfl, by decide +kernel, by decide +kernel, fun _ => rfl, fun _ => rfl, fun _ => rfl, fun _ => ⟨rfl, rfl⟩, rfl, rfl,
    fun _ => rfl, fun i => reset_fld_zero (regReset_insRingStatus i.isLt) _ _,
    fun p l => reset_fld_zero (regReset_lnStatus p.isLt l.isLt) _ _, fun p => reset_fld_zero (regReset_ptFlStatus p.isLt) _ _, reset_fuse, rfl⟩

end Sys2Proof.Machine
end

section
namespace Sys2Proof.Machine

/-! ### The event FIFO when the log's write saturates a counter -/

/-- One event waits; the counter of writes of stack 0, which holds the event log, is one short of its limit. -/
def saturatingDrainState : State :=
  { State.reset with
    regs := [(hbmStkWriteCnt 0, 0xFFFFFFFE#32), (hbmStkWriteCnt 0 + 4, 0xFFFFFFFF#32)]
    ev := { fifo := [⟨0x0204, false, 0, 0, 0, 0, []⟩] } }

/-- Draining the event writes it to the log, whose write saturates the counter: EV_CNT_SATURATED takes the drained event's place in
the FIFO. -/
theorem eventDrain_refills_fifo :
    (match exec .eventDrain saturatingDrainState with | .next t => t.ev.fifo.map (·.code) | _ => []) = [0x0909] := by
  decide +kernel

/-- Refutes O50: the drain of the oldest event writes the event log in the HBM, and when that write saturates the stack's 64-bit write
counter (R386) the FIFO holds EV_CNT_SATURATED afterwards, not the rest of the FIFO alone. -/
theorem not_generalCommands : ¬ Obligations.GeneralCommands := by
  rintro ⟨-, -, -, -, -, -, -, -, -, hdrain, -⟩
  obtain ⟨t, ht, hfifo, -⟩ := hdrain ⟨0x0204, false, 0, 0, 0, 0, []⟩ [] saturatingDrainState rfl rfl rfl
  have h := eventDrain_refills_fifo
  rw [ht] at h
  simp [hfifo] at h

/-! ### A directory burst is no half of a line -/

/-- A directory read of attempt 0 whose second burst has come. -/
def dirReadSlot : RdSlot := { la := 0, trk := none, job := .dir 0, halves := 2 }
def dirReadState : State := { State.reset with hbm := { slots := [(0, dirReadSlot)] } }

/-- The other burst of a directory pair sends the pair to the directory. -/
theorem dirBurst_sends :
    (match exec (.hbmBurstArrival 0 0 0 false false 0) dirReadState with | .next t => t.out | _ => []) = [.dirData 0 0] := by
  decide +kernel

/-- Refutes O16: when the second burst of a directory pair comes (R143) the pair is sent on as directory data, which
`State.deliver` does not do for a directory read. -/
theorem not_stackMemory : ¬ Obligations.StackMemory := by
  rintro ⟨-, -, hsecond, -⟩
  have he := hsecond 0 0 0 false dirReadSlot dirReadState rfl rfl rfl
  have h := dirBurst_sends
  rw [he] at h
  exact absurd h (by decide +kernel)

/-! ### A merge of a port that is a member of another link -/

/-- Port 0 is a member of the link of port 1, and another source holds the lock of port 1. -/
def foreignMemberState : State :=
  { State.reset with
    regs := [(ptMode 0, 0x40010000#32)]
    nalug := { locks := [(0, { held := true, owner := ⟨2, 0, 8⟩, kind := 5, first := 1, last := 1 })] } }

/-- OP_PORT_MERGE of port 0 from a source without locks. -/
def mergeReq : Req := ⟨⟨1, 0, 8⟩, 1, 2, 0, false, 0, 0, false⟩

/-- The merge names the link that port 0 is a member of, and so is refused by its lock. -/
theorem opPortMerge_locked :
    (match exec (.opPortMerge mergeReq [0, 0, 0, 0]) foreignMemberState with | .next t => t.out | _ => []) =
      [.reply mergeReq 0x0C02 stLocked []] := by
  decide +kernel

/-- Refutes O41: OP_PORT_MERGE of a port that is a member of another link names that link's ports too, so a lock on one of them refuses
the command though the lock check of the ports with the merged link's own name passes. -/
theorem not_switchCommands : ¬ Obligations.SwitchCommands := by
  rintro ⟨-, hmerge, -⟩
  obtain ⟨t, ht, -, hout⟩ := hmerge mergeReq [0, 0, 0, 0] foreignMemberState (by decide +kernel) rfl (by decide +kernel)
    (by decide +kernel) (by decide +kernel) (by decide +kernel) (by decide +kernel) (by decide +kernel)
  have h := opPortMerge_locked
  rw [ht] at h
  simp only [h] at hout
  exact absurd hout (by decide +kernel)

end Sys2Proof.Machine
end

section
namespace Sys2Proof.Machine

/-! ### What the tick's own commands and the two power-up resets alone change -/

/-- The counts of both ticks, the guard point's mark, the adjustment tick's plan, and the queue of commands. -/
structure Clock where
  loc       : Tick
  fab       : Tick
  guardDone : Bool
  adj       : Option (Nat × Tick)
  pending   : List Instr

def State.clock (s : State) : Clock := ⟨s.tick.loc, s.tick.fab, s.tick.guardDone, s.tick.adj, s.pending⟩

/-- An update of fields other than the tick and the queue. -/
@[simp] theorem clock_update (s : State) (out : List Out) (regs : Tab Word) (free : Nat) (ev : EvS) (nalug : NalugS) (mgmt : MgmtS)
    (clk : ClkS) (tel : TelS) (bind : BindS) (home : HomeS) (hmp : HmpS) (hbm : HbmS) (qos : QosS) (eng : EngS) (lnk : FabS) (cxl : CxlS)
    (lane : LaneT) (pwr : PwrS) :
    State.clock ⟨s.pending, out, regs, free, s.tick, ev, nalug, mgmt, clk, tel, bind, home, hmp, hbm, qos, eng, lnk, cxl, lane, pwr⟩ = s.clock :=
  (rfl)

@[simp] theorem clock_ite (c : Prop) [Decidable c] (s t : State) :
    (if c then s else t).clock = if c then s.clock else t.clock := apply_ite State.clock c s t

@[simp] theorem fst_clock_ite {α : Type} (c : Prop) [Decidable c] (x y : State × α) :
    (if c then x else y).1.clock = if c then x.1.clock else y.1.clock := apply_ite (fun z : State × α => z.1.clock) c x y

@[simp] theorem snd_clock_ite {α : Type} (c : Prop) [Decidable c] (x y : α × State) :
    (if c then x else y).2.clock = if c then x.2.clock else y.2.clock := apply_ite (fun z : α × State => z.2.clock) c x y

theorem clock_of_ite {c : Prop} [Decidable c] {s t : State} {k : Clock} (hs : s.clock = k) (ht : t.clock = k) :
    (if c then s else t).clock = k := by
  split <;> assumption

theorem fst_clock_of_ite {α : Type} {c : Prop} [Decidable c] {x y : State × α} {k : Clock} (hx : x.1.clock = k) (hy : y.1.clock = k) :
    (if c then x else y).1.clock = k := by
  split <;> assumption

/-- The state that a pair was taken apart to. -/
theorem clock_of_fst {α : Type} {x : State × α} {t : State} {a : α} (h : x = (t, a)) : t.clock = x.1.clock := by rw [h]

theorem clock_of_snd {α : Type} {x : α × State} {t : State} {a : α} (h : x = (a, t)) : t.clock = x.2.clock := by rw [h]

/-- A fold of steps that each keep the clock. -/
@[simp] theorem clock_foldl {α : Type} {f : State → α → State} (h : ∀ t a, (f t a).clock = t.clock) (l : List α) (s : State) :
    (l.foldl f s).clock = s.clock := by
  induction l generalizing s with
  | nil => rfl
  | cons a r ih => exact (ih (f s a)).trans (h s a)

@[simp] theorem clock_each {α : Type} {f : α → State → State} (h : ∀ a t, (f a t).clock = t.clock) (l : List α) (s : State) :
    (s.each l f).clock = s.clock := clock_foldl (fun t a => h a t) l s

theorem clock_foldl_fst {α β : Type} {f : State × β → α → State × β} (h : ∀ x a, (f x a).1.clock = x.1.clock) (l : List α) (x : State × β) :
    (l.foldl f x).1.clock = x.1.clock := by
  induction l generalizing x with
  | nil => rfl
  | cons a r ih => exact (ih (f x a)).trans (h x a)

/-- The outcome's next state has the clock of `s`. -/
def KeepsClock (s : State) (r : Host.Outcome State Fault Refusal) : Prop := ∀ t, r = .next t → t.clock = s.clock

@[simp] theorem keepsClock_next (s t : State) : KeepsClock s (.next t) ↔ t.clock = s.clock :=
  ⟨fun h => h t rfl, fun h _ e => by cases e; exact h⟩

@[simp] theorem keepsClock_ite (c : Prop) [Decidable c] (s : State) (a b : Host.Outcome State Fault Refusal) :
    KeepsClock s (if c then a else b) ↔ if c then KeepsClock s a else KeepsClock s b := by
  split <;> rfl

end Sys2Proof.Machine
end

section
namespace Sys2Proof.Machine

/-! ### The clock through Sys2Proof/Machine/Ops.lean -/

@[simp] theorem setReg_clock (s : State) (o : Nat) (v : Word) : (s.setReg o v).clock = s.clock := by
  simp [State.setReg]

@[simp] theorem setFld_clock (s : State) (o lo n v : Nat) : (s.setFld o lo n v).clock = s.clock := by
  simp [State.setFld]

@[simp] theorem setBit_clock (s : State) (o i : Nat) (b : Bool) : (s.setBit o i b).clock = s.clock := by
  simp [State.setBit]

@[simp] theorem setN_clock (s : State) (o v : Nat) : (s.setN o v).clock = s.clock := by
  simp [State.setN]

@[simp] theorem set64_clock (s : State) (o v : Nat) : (s.set64 o v).clock = s.clock := by
  simp [State.set64]

@[simp] theorem clearRegs_clock (s : State) (p : Nat → Bool) : (s.clearRegs p).clock = s.clock := by
  simp [State.clearRegs]

@[simp] theorem cnt_clock (s : State) (o : Nat) (k : Nat) : (s.cnt o k).clock = s.clock := by
  simp [State.cnt]

@[simp] theorem emit_clock (s : State) (m : Out) : (s.emit m).clock = s.clock := by
  simp [State.emit]

@[simp] theorem draw_clock (s : State) : s.draw.2.clock = s.clock := by
  simp [State.draw]

@[simp] theorem markBusy_clock (s : State) : s.markBusy.clock = s.clock := by
  simp [State.markBusy]

@[simp] theorem raise_clock (s : State) (code : Nat) (vals : List EvVal) : (s.raise code vals).clock = s.clock := by
  simp [State.raise]

@[simp] theorem raiseLim_clock (s : State) (code unit : Nat) (vals : List EvVal) : (s.raiseLim code unit vals).clock = s.clock := by
  simp [State.raiseLim]

@[simp] theorem raiseLate_clock (s : State) (code : Nat) (vals : List EvVal) : (s.raiseLate code vals).clock = s.clock := by
  simp [State.raiseLate]

@[simp] theorem raiseHeld_clock (s : State) : s.raiseHeld.clock = s.clock := by
  simp [State.raiseHeld]

@[simp] theorem cnt64_clock (s : State) (o : Nat) (k : Nat) : (s.cnt64 o k).clock = s.clock := by
  simp [State.cnt64]

@[simp] theorem checkMinimum_clock (s : State) : s.checkMinimum.clock = s.clock := by
  simp [State.checkMinimum]

@[simp] theorem setRetired_clock (s : State) (kind i : Nat) : (s.setRetired kind i).clock = s.clock := by
  unfold State.setRetired
  split <;> simp

@[simp] theorem retireUnit_clock (s : State) (kind i : Nat) : (s.retireUnit kind i).clock = s.clock := by
  simp [State.retireUnit]

@[simp] theorem ifPresent_clock (s : State) (kind i off : Nat) {act : State → Host.Outcome State Fault Refusal} (h : KeepsClock s (act s)) :
    KeepsClock s (s.ifPresent kind i off act) := by
  unfold State.ifPresent
  split
  · exact h
  · simp

end Sys2Proof.Machine
end

section
namespace Sys2Proof.Machine

/-! ### The clock through Sys2Proof/Machine/Nalug.lean -/

@[simp] theorem setLock_clock (s : State) (n : Nat) (l : Lock) : (s.setLock n l).clock = s.clock := by
  simp [State.setLock]

@[simp] theorem breakLock_clock (s : State) (n : Nat) : (s.breakLock n).clock = s.clock := by
  simp [State.breakLock]

@[simp] theorem breakLocksOf_clock (s : State) (p : Src → Bool) : (s.breakLocksOf p).clock = s.clock := by
  simp [State.breakLocksOf]

@[simp] theorem resetPath_clock (s : State) (p : Src → Bool) : (s.resetPath p).clock = s.clock := by
  simp [State.resetPath]

@[simp] theorem journal_clock (s : State) (r : JRec) (n : Nat) : (s.journal r n).clock = s.clock := by
  simp [State.journal]

@[simp] theorem journalBegin_clock (s : State) (code : Nat) (q : Req) (body : List Byte) :
    (s.journalBegin code q body).clock = s.clock := by
  simp [State.journalBegin]

@[simp] theorem journalDone_clock (s : State) (code : Nat) (src : Src) (seq : BitVec 16) (status : Nat) (body : List Byte) :
    (s.journalDone code src seq status body).clock = s.clock := by
  simp [State.journalDone]

@[simp] theorem keepReply_clock (s : State) (k : Kept) : (s.keepReply k).clock = s.clock := by
  simp [State.keepReply]

@[simp] theorem firstAnswer_clock (s : State) : s.firstAnswer.clock = s.clock := by
  simp [State.firstAnswer]

@[simp] theorem answer_clock (s : State) (code : Nat) (q : Req) (status : Nat) (body : List Byte) :
    (s.answer code q status body).clock = s.clock := by
  simp [State.answer]

@[simp] theorem takeInbox_clock (s : State) (q : Req) : (s.takeInbox q).clock = s.clock := by
  simp [State.takeInbox]

@[simp] theorem keepRequest_clock (s : State) (code : Nat) (q : Req) (body : List Byte) : (s.keepRequest code q body).clock = s.clock := by
  simp [State.keepRequest]

@[simp] theorem jrnlWait_clock (s : State) (code : Nat) (q : Req) (body : List Byte) : (s.jrnlWait code q body).clock = s.clock := by
  simp [State.jrnlWait]

@[simp] theorem nalug_run_clock (s : State) (code : Nat) (q : Req) (body : List Byte) (f : OpForm)
    {act : State → State × Option (Nat × List Byte)} (h : ∀ t, (act t).1.clock = t.clock) :
    (s.nalug_run code q body f act).clock = s.clock := by
  unfold State.nalug_run
  dsimp only
  split
  · rfl
  split
  · simp
  split
  · rfl
  split
  · simp
  split
  · simp
  split
  · simp
  split
  · simp
  have ha := h ((s.takeInbox q).journalBegin code q body)
  split
  · next t ht => rw [ht] at ha; simpa using ha
  · next t st b ht => rw [ht] at ha; simpa using ha

theorem keepsClock_nalug_run {s : State} {code : Nat} {q : Req} {body : List Byte} {f : OpForm}
    {act : State → State × Option (Nat × List Byte)} (h : ∀ t, (act t).1.clock = t.clock) :
    KeepsClock s (.next (s.nalug_run code q body f act)) :=
  (keepsClock_next _ _).mpr (nalug_run_clock s code q body f h)

@[simp] theorem setSlot_clock (s : State) (k : Nat) (x : StepSlot) : (s.setSlot k x).clock = s.clock := by
  simp [State.setSlot]

@[simp] theorem stepStart_clock (s : State) (code : Nat) (q : Req) (job : StepJob) (total phase : Nat) :
    (s.stepStart code q job total phase).1.clock = s.clock := by
  unfold State.stepStart
  split <;> simp

@[simp] theorem stepFinish_clock (s : State) (k : Nat) (status : Nat) (body : List Byte) :
    (s.stepFinish k status body).clock = s.clock := by
  simp [State.stepFinish]

@[simp] theorem stepInternal_clock (s : State) (k : Nat) : (s.stepInternal k).clock = s.clock := by
  simp [State.stepInternal]

@[simp] theorem stepNext_clock (s : State) (k : Nat) (phase : Nat) : (s.stepNext k phase).clock = s.clock := by
  simp [State.stepNext]

@[simp] theorem stepPhase_clock (s : State) (k : Nat) (phase : Nat) : (s.stepPhase k phase).clock = s.clock := by
  simp [State.stepPhase]

@[simp] theorem ok_clock (s : State) : (ok s).1.clock = s.clock := by
  simp [ok]

@[simp] theorem refuse_clock (s : State) (st : Nat) : (refuse s st).1.clock = s.clock := by
  simp [refuse]

end Sys2Proof.Machine
end

section
namespace Sys2Proof.Machine

/-! ### The clock through Sys2Proof/Machine/Pmc.lean -/

@[simp] theorem pmcAdd_clock (s : State) (global : Bool) (lo hi ev unit add : Nat) (a : PmcAttr) :
    (s.pmcAdd global lo hi ev unit add a).clock = s.clock := by
  simp [State.pmcAdd]

@[simp] theorem pmc_clock (s : State) (ev unit add : Nat) (a : PmcAttr) : (s.pmc ev unit add a).clock = s.clock := by
  simp [State.pmc]

@[simp] theorem tpmc_clock (s : State) (p ev add : Nat) (a : PmcAttr) : (s.tpmc p ev add a).clock = s.clock := by
  simp [State.tpmc]

@[simp] theorem stkWrite_clock (s : State) (h : Nat) (n : Nat) : (s.stkWrite h n).clock = s.clock := by
  simp [State.stkWrite]

@[simp] theorem stkRead_clock (s : State) (h n : Nat) : (s.stkRead h n).clock = s.clock := by
  simp [State.stkRead]

@[simp] theorem logUnit_clock (s : State) (unit : Nat) : (s.logUnit unit).clock = s.clock := by
  simp [State.logUnit]

@[simp] theorem bwAdd_clock (s : State) (p dir n : Nat) : (s.bwAdd p dir n).clock = s.clock := by
  simp [State.bwAdd]

end Sys2Proof.Machine
end

section
namespace Sys2Proof.Machine

/-! ### The clock through Sys2Proof/Machine/Mgmt.lean -/

@[simp] theorem evLogPut_clock (s : State) (r : EvRec) : (s.evLogPut r).clock = s.clock := by
  unfold State.evLogPut
  split
  · exact (logUnit_clock _ _).trans (clock_update s _ _ _ _ _ _ _ _ _ _ _ _ _ _ _ _ _ _)
  · rfl

@[simp] theorem nalugAccept_clock (s : State) (src : Src) (b : List Byte) : (s.nalugAccept src b).clock = s.clock := by
  unfold State.nalugAccept
  dsimp only
  (repeat' split) <;> simp

@[simp] theorem dropReasm_clock (s : State) (src : Src) (tag : BitVec 3) (owner : Bool) : (s.dropReasm src tag owner).clock = s.clock := by
  simp [State.dropReasm]

@[simp] theorem nalugMessage_clock (s : State) (src : Src) (b : List Byte) : (s.nalugMessage src b).clock = s.clock := by
  simp [State.nalugMessage]

@[simp] theorem reassemble_clock (s : State) (k : MctpPacket) (b : List Byte) : (s.reassemble k b).clock = s.clock := by
  simp [State.reassemble]

@[simp] theorem execNalugPacketReceive_clock (k : MctpPacket) (s : State) : KeepsClock s (execNalugPacketReceive k s) := by
  unfold execNalugPacketReceive
  dsimp only
  (repeat' split) <;> simp

@[simp] theorem execMctpReassemblyTimeout_clock (src : Src) (tag : BitVec 3) (owner : Bool) (s : State) :
    KeepsClock s (execMctpReassemblyTimeout src tag owner s) := by
  simp [execMctpReassemblyTimeout]

@[simp] theorem execSetEndpointId_clock (src : Src) (eid : Byte) (s : State) : KeepsClock s (execSetEndpointId src eid s) := by
  simp [execSetEndpointId]

@[simp] theorem execGetEndpointId_clock (src : Src) (s : State) : KeepsClock s (execGetEndpointId src s) := by
  simp [execGetEndpointId]

@[simp] theorem execGetMctpVersionSupport_clock (src : Src) (s : State) : KeepsClock s (execGetMctpVersionSupport src s) := by
  simp [execGetMctpVersionSupport]

@[simp] theorem execGetMessageTypeSupport_clock (src : Src) (s : State) : KeepsClock s (execGetMessageTypeSupport src s) := by
  simp [execGetMessageTypeSupport]

@[simp] theorem execGetVendorDefinedMessageSupport_clock (src : Src) (s : State) :
    KeepsClock s (execGetVendorDefinedMessageSupport src s) := by
  simp [execGetVendorDefinedMessageSupport]

@[simp] theorem execOpIdentify_clock (q : Req) (body : List Byte) (s : State) : KeepsClock s (execOpIdentify q body s) := by
  simp [execOpIdentify]

@[simp] theorem execOpWallclockMark_clock (q : Req) (body : List Byte) (s : State) : KeepsClock s (execOpWallclockMark q body s) := by
  simp [execOpWallclockMark]

@[simp] theorem execOpLockAcquire_clock (q : Req) (body : List Byte) (s : State) : KeepsClock s (execOpLockAcquire q body s) := by
  refine keepsClock_nalug_run fun t => ?_
  dsimp only
  split <;> simp

@[simp] theorem execOpLockRelease_clock (q : Req) (body : List Byte) (s : State) : KeepsClock s (execOpLockRelease q body s) := by
  simp [execOpLockRelease]

@[simp] theorem execOpLockQuery_clock (q : Req) (body : List Byte) (s : State) : KeepsClock s (execOpLockQuery q body s) := by
  simp [execOpLockQuery]

@[simp] theorem pollSlot_clock (s : State) (tok : Nat) : (s.pollSlot tok).1.clock = s.clock := by
  simp [State.pollSlot]

@[simp] theorem execOpStepPoll_clock (q : Req) (body : List Byte) (s : State) : KeepsClock s (execOpStepPoll q body s) := by
  simp [execOpStepPoll]

@[simp] theorem execOpStepResume_clock (q : Req) (body : List Byte) (s : State) : KeepsClock s (execOpStepResume q body s) := by
  simp [execOpStepResume]

@[simp] theorem execOpEventConfig_clock (q : Req) (body : List Byte) (s : State) : KeepsClock s (execOpEventConfig q body s) := by
  refine keepsClock_nalug_run fun t => ?_
  dsimp only
  (repeat' split) <;> simp

@[simp] theorem execOpEventLogRead_clock (q : Req) (body : List Byte) (s : State) : KeepsClock s (execOpEventLogRead q body s) := by
  simp [execOpEventLogRead]

@[simp] theorem queueNotify_clock (s : State) (k : Nat) (u : Subscriber) (r : EvRec) : (s.queueNotify k u r).clock = s.clock := by
  simp [State.queueNotify]

@[simp] theorem sendNotify_clock (s : State) (k : Nat) (u : Subscriber) : (s.sendNotify k u).clock = s.clock := by
  unfold State.sendNotify
  dsimp only
  (repeat' split) <;> simp

@[simp] theorem execEventDrain_clock (s : State) : KeepsClock s (execEventDrain s) := by
  unfold execEventDrain
  dsimp only
  (repeat' split) <;> simp

@[simp] theorem execGlbEvPendWrite_clock (v : Word) (s : State) : KeepsClock s (execGlbEvPendWrite v s) := by
  simp [execGlbEvPendWrite]

@[simp] theorem execSmbusClockLowTimeout_clock (b : BusIx) (s : State) : KeepsClock s (execSmbusClockLowTimeout b s) := by
  simp [execSmbusClockLowTimeout]

@[simp] theorem execSidebandBusSupplyLoss_clock (b : BusIx) (s : State) : KeepsClock s (execSidebandBusSupplyLoss b s) := by
  simp [execSidebandBusSupplyLoss]

@[simp] theorem execI3cTargetReset_clock (b : BusIx) (s : State) : KeepsClock s (execI3cTargetReset b s) := by
  simp [execI3cTargetReset]

@[simp] theorem execI3cEntdaa_clock (b : BusIx) (addr : BitVec 7) (s : State) : KeepsClock s (execI3cEntdaa b addr s) := by
  simp [execI3cEntdaa]

@[simp] theorem execSbArbRetry_clock (b : BusIx) (s : State) : KeepsClock s (execSbArbRetry b s) := by
  simp [execSbArbRetry]

end Sys2Proof.Machine
end

section
namespace Sys2Proof.Machine

/-! ### The clock through Sys2Proof/Machine/Bridge.lean -/

@[simp] theorem setStage_clock (s : State) (k : Nat) (x : StageS) : (s.setStage k x).clock = s.clock := by
  simp [State.setStage]

@[simp] theorem brError_clock (s : State) (cause : Nat) : (s.brError cause).clock = s.clock := by
  simp [State.brError]

@[simp] theorem brLate_clock (s : State) (stage code cause : Nat) : (s.brLate stage code cause).clock = s.clock := by
  simp [State.brLate]

@[simp] theorem brDrive_clock (s : State) (t : BrTxn) : (s.brDrive t).clock = s.clock := by
  simp [State.brDrive]

@[simp] theorem pollReads_clock (s : State) (r : StageReading) : (s.pollReads r).clock = s.clock := by
  simp [State.pollReads]

@[simp] theorem pollTake_clock (s : State) (r : StageReading) : (s.pollTake r).clock = s.clock := by
  simp [State.pollTake]

@[simp] theorem pollStage_clock (s : State) (r : StageReading) : (s.pollStage r).clock = s.clock := by
  simp [State.pollStage]

@[simp] theorem roundEnd_clock (s : State) : s.roundEnd.clock = s.clock := by
  unfold State.roundEnd
  split <;> simp

@[simp] theorem execBridgePollRound_clock (rs : List StageReading) (s : State) : KeepsClock s (execBridgePollRound rs s) := by
  simp [execBridgePollRound]

@[simp] theorem brStart_clock (s : State) (t : BrTxn) : (s.brStart t).clock = s.clock := by
  unfold State.brStart
  split <;> simp

@[simp] theorem brNext_clock (s : State) : s.brNext.clock = s.clock := by
  unfold State.brNext
  split <;> simp

@[simp] theorem brData_clock (s : State) (d : List Byte) : (s.brData d).clock = s.clock := by
  simp [State.brData]

@[simp] theorem brRelease_clock (s : State) (t : BrTxn) (good : Bool) : (s.brRelease t good).clock = s.clock := by
  simp [State.brRelease]

@[simp] theorem brAnswer_clock (s : State) (t : BrTxn) (st : Nat) (b : List Byte) : (s.brAnswer t st b).clock = s.clock := by
  unfold State.brAnswer
  split <;> simp

@[simp] theorem brFinish_clock (s : State) (t : BrTxn) (cause : Nat) (d : List Byte) : (s.brFinish t cause d).clock = s.clock := by
  simp [State.brFinish]

@[simp] theorem execBridgeTransactionDone_clock (cause : Fin 6) (data : List Byte) (s : State) :
    KeepsClock s (execBridgeTransactionDone cause data s) := by
  unfold execBridgeTransactionDone
  split <;> simp

@[simp] theorem execBridgeHoldLimit_clock (s : State) : KeepsClock s (execBridgeHoldLimit s) := by
  unfold execBridgeHoldLimit
  split <;> simp

@[simp] theorem execOpPmbusRead_clock (q : Req) (body : List Byte) (s : State) : KeepsClock s (execOpPmbusRead q body s) := by
  simp [execOpPmbusRead]

@[simp] theorem execOpPmbusWrite_clock (q : Req) (body : List Byte) (s : State) : KeepsClock s (execOpPmbusWrite q body s) := by
  simp [execOpPmbusWrite]

@[simp] theorem execPwrBrCmdWrite_clock (_m : Fin 8) (vendor : Bool) (v : Word) (s : State) :
    KeepsClock s (execPwrBrCmdWrite _m vendor v s) := by
  simp [execPwrBrCmdWrite]

@[simp] theorem execPwrBrDataRead_clock (m : Fin 8) (w : Fin 8) (s : State) : KeepsClock s (execPwrBrDataRead m w s) := by
  unfold execPwrBrDataRead
  dsimp only
  (repeat' split) <;> simp

@[simp] theorem execOpTelemetryRead_clock (q : Req) (body : List Byte) (s : State) : KeepsClock s (execOpTelemetryRead q body s) := by
  simp [execOpTelemetryRead]

end Sys2Proof.Machine
end

section
namespace Sys2Proof.Machine

/-! ### The clock through Sys2Proof/Machine/Firmware.lean -/

@[simp] theorem setFw_clock (s : State) (i : Nat) (c : FwCopy) : (s.setFw i c).clock = s.clock := by
  simp [State.setFw]

@[simp] theorem execOpFwWrite_clock (q : Req) (body : List Byte) (s : State) : KeepsClock s (execOpFwWrite q body s) := by
  simp [execOpFwWrite]

@[simp] theorem execFlashProgramDone_clock (fjx : Bool) (n : Nat) (good : Bool) (s : State) :
    KeepsClock s (execFlashProgramDone fjx n good s) := by
  simp [execFlashProgramDone]

@[simp] theorem execOpFwCommit_clock (q : Req) (body : List Byte) (s : State) : KeepsClock s (execOpFwCommit q body s) := by
  simp [execOpFwCommit]

@[simp] theorem fwCommitStep_clock (s : State) (k : Nat) : (s.fwCommitStep k).clock = s.clock := by
  simp [State.fwCommitStep]

@[simp] theorem setFjx_clock (s : State) (i : Nat) (b : List Byte) : (s.setFjx i b).clock = s.clock := by
  simp [State.setFjx]

@[simp] theorem execOpFjxRead_clock (q : Req) (body : List Byte) (s : State) : KeepsClock s (execOpFjxRead q body s) := by
  refine keepsClock_nalug_run fun t => ?_
  split <;> simp

@[simp] theorem execOpFjxWrite_clock (q : Req) (body : List Byte) (s : State) : KeepsClock s (execOpFjxWrite q body s) := by
  simp [execOpFjxWrite]

@[simp] theorem burn_clock (s : State) (k : Nat) : (s.burn k).clock = s.clock := by
  simp [State.burn]

@[simp] theorem execOpFjxCommit_clock (q : Req) (body : List Byte) (s : State) : KeepsClock s (execOpFjxCommit q body s) := by
  simp [execOpFjxCommit]

@[simp] theorem fjxCommitStep_clock (s : State) (k : Nat) : (s.fjxCommitStep k).clock = s.clock := by
  unfold State.fjxCommitStep
  dsimp only
  (repeat' split) <;> simp

@[simp] theorem execOpLifecycleSet_clock (q : Req) (body : List Byte) (s : State) : KeepsClock s (execOpLifecycleSet q body s) := by
  refine keepsClock_nalug_run fun t => ?_
  dsimp only
  split <;> simp

@[simp] theorem lcEffects_clock (s : State) (tgt : Nat) : (s.lcEffects tgt).clock = s.clock := by
  unfold State.lcEffects
  split <;> simp

@[simp] theorem takeLc_clock (s : State) (tgt : Nat) : (s.takeLc tgt).clock = s.clock := by
  simp [State.takeLc]

@[simp] theorem lifecycleStep_clock (s : State) (k tgt : Nat) : (s.lifecycleStep k tgt).clock = s.clock := by
  unfold State.lifecycleStep
  split <;> simp

@[simp] theorem execOpDebugUnlock_clock (q : Req) (body : List Byte) (s : State) : KeepsClock s (execOpDebugUnlock q body s) := by
  simp [execOpDebugUnlock]

@[simp] theorem completePending_clock (s : State) : s.completePending.clock = s.clock := by
  unfold State.completePending
  split <;> simp

@[simp] theorem runFw_clock (s : State) (i : Nat) (fallback : Bool) : (s.runFw i fallback).clock = s.clock := by
  simp [State.runFw]

@[simp] theorem enterRecovery_clock (s : State) : s.enterRecovery.clock = s.clock := by
  simp [State.enterRecovery]

@[simp] theorem countBoot_clock (s : State) : s.countBoot.clock = s.clock := by
  simp [State.countBoot]

@[simp] theorem bootRom_clock (s : State) (cold : Bool) : (s.bootRom cold).clock = s.clock := by
  simp [State.bootRom]

@[simp] theorem execRecoveryBootStart_clock (s : State) : KeepsClock s (execRecoveryBootStart s) := by
  simp [execRecoveryBootStart]

@[simp] theorem setBuf_clock (s : State) (i : Nat) (b : CkptBuf) : (s.setBuf i b).clock = s.clock := by
  simp [State.setBuf]

@[simp] theorem ckptBegin_clock (s : State) : s.ckptBegin.clock = s.clock := by
  simp [State.ckptBegin]

@[simp] theorem ckptEnd_clock (s : State) : s.ckptEnd.clock = s.clock := by
  simp [State.ckptEnd]

@[simp] theorem execCheckpointStart_clock (s : State) : KeepsClock s (execCheckpointStart s) := by
  simp [execCheckpointStart]

@[simp] theorem ckptSlice_clock (s : State) : s.ckptSlice.clock = s.clock := by
  simp [State.ckptSlice]

@[simp] theorem execCheckpointSlice_clock (s : State) : KeepsClock s (execCheckpointSlice s) := by
  simp [execCheckpointSlice]

@[simp] theorem takeover_clock (s : State) (old new cause : Nat) (replay : Bool) : (s.takeover old new cause replay).clock = s.clock := by
  simp [State.takeover]

@[simp] theorem coreFailed_clock (s : State) (c cause : Nat) : (s.coreFailed c cause).clock = s.clock := by
  simp [State.coreFailed]

@[simp] theorem execHeartbeatTimeout_clock (s : State) : KeepsClock s (execHeartbeatTimeout s) := by
  simp [execHeartbeatTimeout]

@[simp] theorem execMcFatalFault_clock (c : CoreIx) (s : State) : KeepsClock s (execMcFatalFault c s) := by
  simp [execMcFatalFault]

@[simp] theorem execOpMcSwitch_clock (q : Req) (body : List Byte) (s : State) : KeepsClock s (execOpMcSwitch q body s) := by
  simp [execOpMcSwitch]

@[simp] theorem mcSwitchStep_clock (s : State) (k : Nat) : (s.mcSwitchStep k).clock = s.clock := by
  unfold State.mcSwitchStep
  split <;> simp

end Sys2Proof.Machine
end

section
namespace Sys2Proof.Machine

/-! ### The clock through Sys2Proof/Machine/Power.lean -/

@[simp] theorem setK_clock (s : State) (k : Nat) : (s.setK k).clock = s.clock := by
  simp [State.setK]

@[simp] theorem setUnsafe_clock (s : State) : s.setUnsafe.clock = s.clock := by
  simp [State.setUnsafe]

@[simp] theorem raiseUp_clock (s : State) (code : Nat) (vals : List EvVal) : (s.raiseUp code vals).clock = s.clock := by
  simp [State.raiseUp]

@[simp] theorem recordOff_clock (s : State) (cause group : Nat) : (s.recordOff cause group).clock = s.clock := by
  simp [State.recordOff]

@[simp] theorem passOff_clock (s : State) : s.passOff.clock = s.clock := by
  simp [State.passOff]

@[simp] theorem emergencyOff_clock (s : State) (cause group : Nat) : (s.emergencyOff cause group).clock = s.clock := by
  simp [State.emergencyOff]

@[simp] theorem startInrush_clock (s : State) (f : Nat) : (s.startInrush f).clock = s.clock := by
  simp [State.startInrush]

@[simp] theorem feedPath_clock (s : State) (f : Nat) (on : Bool) : (s.feedPath f on).clock = s.clock := by
  simp [State.feedPath]

@[simp] theorem standby_clock (s : State) : s.standby.clock = s.clock := by
  simp [State.standby]

@[simp] theorem execSeatPinsSeated_clock (s : State) : KeepsClock s (execSeatPinsSeated s) := by
  simp [execSeatPinsSeated]

@[simp] theorem execSeatPinChange_clock (a b : Bool) (s : State) : KeepsClock s (execSeatPinChange a b s) := by
  simp [execSeatPinChange]

@[simp] theorem execSeatDebounceExpiry_clock (s : State) : KeepsClock s (execSeatDebounceExpiry s) := by
  simp [execSeatDebounceExpiry]

@[simp] theorem damage_clock (s : State) (a b : Bool) : (s.damage a b).clock = s.clock := by
  simp [State.damage]

@[simp] theorem execOnReqLow_clock (va vb vbus midA midB : Nat) (s : State) : KeepsClock s (execOnReqLow va vb vbus midA midB s) := by
  simp [execOnReqLow]

@[simp] theorem execFaultOnReqCycle_clock (s : State) : KeepsClock s (execFaultOnReqCycle s) := by
  simp [execFaultOnReqCycle]

@[simp] theorem execInrushComplete_clock (s : State) : KeepsClock s (execInrushComplete s) := by
  simp [execInrushComplete]

@[simp] theorem execInrushTimeout_clock (s : State) : KeepsClock s (execInrushTimeout s) := by
  simp [execInrushTimeout]

@[simp] theorem execInrushFeedLost_clock (s : State) : KeepsClock s (execInrushFeedLost s) := by
  simp [execInrushFeedLost]

@[simp] theorem execRailGroupSettled_clock (g : Fin 10) (s : State) : KeepsClock s (execRailGroupSettled g s) := by
  simp [execRailGroupSettled]

@[simp] theorem execRailGroupTimeout_clock (g : Fin 10) (s : State) : KeepsClock s (execRailGroupTimeout g s) := by
  simp [execRailGroupTimeout]

@[simp] theorem execRailFault_clock (g : Fin 10) (s : State) : KeepsClock s (execRailFault g s) := by
  simp [execRailFault]

@[simp] theorem execExtraction_clock (s : State) : KeepsClock s (execExtraction s) := by
  simp [execExtraction]

@[simp] theorem execVbusUndervoltage_clock (s : State) : KeepsClock s (execVbusUndervoltage s) := by
  simp [execVbusUndervoltage]

@[simp] theorem orderlyOff_clock (s : State) : s.orderlyOff.clock = s.clock := by
  simp [State.orderlyOff]

@[simp] theorem execOnReqHigh_clock (s : State) : KeepsClock s (execOnReqHigh s) := by
  simp [execOnReqHigh]

@[simp] theorem execOpModuleOff_clock (q : Req) (body : List Byte) (s : State) : KeepsClock s (execOpModuleOff q body s) := by
  simp [execOpModuleOff]

@[simp] theorem execPwrCtlOff_clock (s : State) : KeepsClock s (execPwrCtlOff s) := by
  simp [execPwrCtlOff]

@[simp] theorem feedEnable_clock (s : State) (f : Nat) (v : Bool) : (s.feedEnable f v).clock = s.clock := by
  simp [State.feedEnable]

@[simp] theorem execPwrCtlFeedAEn_clock (v : Bool) (s : State) : KeepsClock s (execPwrCtlFeedAEn v s) := by
  simp [execPwrCtlFeedAEn]

@[simp] theorem execPwrCtlFeedBEn_clock (v : Bool) (s : State) : KeepsClock s (execPwrCtlFeedBEn v s) := by
  simp [execPwrCtlFeedBEn]

@[simp] theorem execOrderlyOffGroupDisable_clock (g : Fin 10) (s : State) : KeepsClock s (execOrderlyOffGroupDisable g s) := by
  simp [execOrderlyOffGroupDisable]

@[simp] theorem execVbusDischarged_clock (s : State) : KeepsClock s (execVbusDischarged s) := by
  simp [execVbusDischarged]

@[simp] theorem execFeedInRange_clock (f : FeedIx) (mv : Nat) (s : State) : KeepsClock s (execFeedInRange f mv s) := by
  simp [execFeedInRange]

@[simp] theorem execOringTurnOff_clock (f : FeedIx) (s : State) : KeepsClock s (execOringTurnOff f s) := by
  simp [execOringTurnOff]

@[simp] theorem execOringFail_clock (f : FeedIx) (s : State) : KeepsClock s (execOringFail f s) := by
  simp [execOringFail]

@[simp] theorem execCbTrip_clock (f : FeedIx) (ma : Nat) (s : State) : KeepsClock s (execCbTrip f ma s) := by
  simp [execCbTrip]

@[simp] theorem execCbRetry_clock (f : FeedIx) (s : State) : KeepsClock s (execCbRetry f s) := by
  simp [execCbRetry]

@[simp] theorem execPassDamaged_clock (a b : Bool) (s : State) : KeepsClock s (execPassDamaged a b s) := by
  simp [execPassDamaged]

@[simp] theorem execKeeperSupplyLost_clock (s : State) : KeepsClock s (execKeeperSupplyLost s) := by
  simp [execKeeperSupplyLost]

end Sys2Proof.Machine
end

section
namespace Sys2Proof.Machine

/-! ### The clock through Sys2Proof/Machine/HomeBase.lean -/

@[simp] theorem inHome_clock (s : State) (f : HomeS → HomeS) : (s.inHome f).clock = s.clock := by
  simp [State.inHome]

@[simp] theorem inBind_clock (s : State) (f : BindS → BindS) : (s.inBind f).clock = s.clock := by
  simp [State.inBind]

@[simp] theorem inHbm_clock (s : State) (f : HbmS → HbmS) : (s.inHbm f).clock = s.clock := by
  simp [State.inHbm]

@[simp] theorem setSlice_clock (s : State) (n : Nat) (x : Slice) : (s.setSlice n x).clock = s.clock := by
  simp [State.setSlice]

@[simp] theorem setDom_clock (s : State) (n : Nat) (x : Dom) : (s.setDom n x).clock = s.clock := by
  simp [State.setDom]

@[simp] theorem errReply_clock (s : State) (m : NetMsg) (why : Nat) : (s.errReply m why).clock = s.clock := by
  unfold State.errReply
  split <;> simp

@[simp] theorem coreMiss_clock (s : State) (dst : Nat) : (s.coreMiss dst).clock = s.clock := by
  simp [State.coreMiss]

@[simp] theorem stamp_clock (s : State) : s.stamp.2.clock = s.clock := by
  simp [State.stamp]

@[simp] theorem devWr_clock (s : State) (dev addr : Nat) (d : Line) (poison : Bool) : (s.devWr dev addr d poison).clock = s.clock := by
  simp [State.devWr]

@[simp] theorem devWrDone_clock (s : State) (la : Nat) : (s.devWrDone la).clock = s.clock := by
  simp [State.devWrDone]

@[simp] theorem devWriteLine_clock (s : State) (la : Nat) (d : Line) (poison : Bool) : (s.devWriteLine la d poison).clock = s.clock := by
  unfold State.devWriteLine
  dsimp only
  (repeat' split) <;> simp

@[simp] theorem fixShared_clock (s : State) (la : Nat) (dirty : Bool) : (s.fixShared la dirty).clock = s.clock := by
  unfold State.fixShared
  split <;> simp

@[simp] theorem seeDirty_clock (s : State) (la : Nat) : (s.seeDirty la).clock = s.clock := by
  simp [State.seeDirty]

@[simp] theorem lsPut_clock (s : State) (la : Nat) (l : LsLine) : (s.lsPut la l).clock = s.clock := by
  simp [State.lsPut]

@[simp] theorem lsDrop_clock (s : State) (la : Nat) : (s.lsDrop la).clock = s.clock := by
  simp [State.lsDrop]

@[simp] theorem lsUse_clock (s : State) (la : Nat) : (s.lsUse la).clock = s.clock := by
  simp [State.lsUse]

@[simp] theorem victimWrite_clock (s : State) (v : Nat × LsLine) : (s.victimWrite v).clock = s.clock := by
  simp [State.victimWrite]

@[simp] theorem findWay_clock (s : State) (la waits : Nat) : (s.findWay la waits).1.clock = s.clock := by
  unfold State.findWay
  split
  · rfl
  · split <;> simp

@[simp] theorem delAlloc_clock (s : State) (la : Nat) : (s.delAlloc la).clock = s.clock := by
  simp [State.delAlloc]

@[simp] theorem setRead_clock (s : State) (la : Nat) : (s.setRead la).clock = s.clock := by
  simp [State.setRead]

/-- The body is compared with its name as a function: applied, the kernel would evaluate the way's choice. -/
@[simp] theorem lsAlloc_clock (s : State) (la : Nat) (l : LsLine) (trk : Option Nat) : (s.lsAlloc la l trk).1.clock = s.clock := by
  generalize hf : @State.lsAlloc = f
  delta State.lsAlloc at hf
  have h := congrFun (congrFun (congrFun (congrFun hf.symm s) la) l) trk
  beta_reduce at h
  rw [h]
  split
  · simp [clock_of_fst ‹_›]
  · dsimp only
    split <;> simp [clock_of_fst ‹_›]
  · simp [clock_of_fst ‹_›]

@[simp] theorem memStore_clock (s : State) (la : Nat) (d : Line) (poison : Bool) (trk : Option Nat) :
    (s.memStore la d poison trk).1.clock = s.clock := by
  unfold State.memStore
  dsimp only
  (repeat' split) <;> simp

@[simp] theorem lsFill_clock (s : State) (la : Nat) (d : Line) (poison : Bool) : (s.lsFill la d poison).clock = s.clock := by
  simp [State.lsFill]

@[simp] theorem placeAllocs_clock (s : State) (la : Nat) : (s.placeAllocs la).clock = s.clock := by
  unfold State.placeAllocs
  refine clock_each (fun a t => ?_) _ _
  split
  · simp [clock_of_fst ‹t.findWay _ _ = _›]
  · cases a.trk <;> simp [clock_of_fst ‹t.findWay _ _ = _›]
  · simp [clock_of_fst ‹t.findWay _ _ = _›]

@[simp] theorem lsLose_clock (s : State) (p : Nat → LsLine → Bool) : (s.lsLose p).clock = s.clock := by
  simp [State.lsLose]

@[simp] theorem poisonCnt_clock (s : State) (la : Nat) : (s.poisonCnt la).clock = s.clock := by
  simp [State.poisonCnt]

@[simp] theorem poisonLine_clock (s : State) (la : Nat) : (s.poisonLine la).clock = s.clock := by
  simp [State.poisonLine]

@[simp] theorem poisonOwned_clock (s : State) (la : Nat) : (s.poisonOwned la).clock = s.clock := by
  simp [State.poisonOwned]

@[simp] theorem setCoh_clock (s : State) (d : Nat) (x : DomCoh) : (s.setCoh d x).clock = s.clock := by
  simp [State.setCoh]

@[simp] theorem untrack_clock (s : State) (sl : Nat) : (s.untrack sl).clock = s.clock := by
  simp [State.untrack]

@[simp] theorem exitAbandon_clock (s : State) (d : Nat) : (s.exitAbandon d).clock = s.clock := by
  simp [State.exitAbandon]

@[simp] theorem enterBlanket_clock (s : State) (d cause : Nat) : (s.enterBlanket d cause).clock = s.clock := by
  simp [State.enterBlanket]

@[simp] theorem countEvict_clock (s : State) (la d : Nat) : (s.countEvict la d).clock = s.clock := by
  simp [State.countEvict]

@[simp] theorem setEnt_clock (s : State) (la : Nat) (e : Option DirEnt) : (s.setEnt la e).clock = s.clock := by
  unfold State.setEnt
  split <;> simp

@[simp] theorem dropEnt_clock (s : State) (la : Nat) (e : DirEnt) : (s.dropEnt la e).clock = s.clock := by
  simp [State.dropEnt]

@[simp] theorem setTrk_clock (s : State) (k : Nat) (t : Trk) : (s.setTrk k t).clock = s.clock := by
  simp [State.setTrk]

@[simp] theorem delTrk_clock (s : State) (k : Nat) : (s.delTrk k).clock = s.clock := by
  simp [State.delTrk]

@[simp] theorem stampWord_clock (s : State) : s.stampWord.2.clock = s.clock := by
  simp [State.stampWord]

@[simp] theorem inTags_clock (s : State) (p : LatTag → Bool) (f : LatTag → LatTag) : (s.inTags p f).clock = s.clock := by
  simp [State.inTags]

@[simp] theorem latStage_clock (s : State) (p : LatTag → Bool) (stage : Nat) (last : Bool) : (s.latStage p stage last).clock = s.clock := by
  simp [State.latStage]

@[simp] theorem latAbort_clock (s : State) (p : LatTag → Bool) : (s.latAbort p).clock = s.clock := by
  simp [State.latAbort]

@[simp] theorem latFlag_clock (s : State) (fid la v : Nat) : (s.latFlag fid la v).clock = s.clock := by
  simp [State.latFlag]

@[simp] theorem unread_clock (s : State) (p : Nat → Bool) : (s.unread p).clock = s.clock := by
  simp [State.unread]

@[simp] theorem cutTrks_clock (s : State) (p : Trk → Bool) : (s.cutTrks p).clock = s.clock := by
  simp [State.cutTrks]

@[simp] theorem sendSnoops_clock (s : State) (k : Nat) (t : Trk) (kind : Nat) (fids : List Nat) :
    (s.sendSnoops k t kind fids).clock = s.clock := by
  simp [State.sendSnoops]

@[simp] theorem entriesLost_clock (s : State) (b set : Nat) (las : List Nat) : (s.entriesLost b set las).clock = s.clock := by
  simp [State.entriesLost]

@[simp] theorem dirPut_clock (s : State) (la : Nat) (e : DirEnt) : (s.dirPut la e).clock = s.clock := by
  simp [State.dirPut]

@[simp] theorem evictEnt_clock (s : State) (la : Nat) (e : DirEnt) : (s.evictEnt la e).clock = s.clock := by
  simp [State.evictEnt]

@[simp] theorem moveOut_clock (s : State) (la : Nat) (e : DirEnt) (keepOut : Bool) : (s.moveOut la e keepOut).1.clock = s.clock := by
  unfold State.moveOut
  dsimp only
  (repeat' split) <;> simp

@[simp] theorem record_clock (s : State) (la : Nat) (e : DirEnt) (must : Bool) : (s.record la e must).1.clock = s.clock := by
  unfold State.record
  dsimp only
  (repeat' split) <;> simp

@[simp] theorem dirLost_clock (s : State) (h : Nat) : (s.dirLost h).clock = s.clock := by
  simp [State.dirLost]

@[simp] theorem rewriteEntries_clock (s : State) : s.rewriteEntries.clock = s.clock := by
  simp [State.rewriteEntries]

@[simp] theorem homeFail_clock (s : State) (fid sl off reason : Nat) : (s.homeFail fid sl off reason).clock = s.clock := by
  simp [State.homeFail]

@[simp] theorem protoErr_clock (s : State) (la fid : Nat) : (s.protoErr la fid).clock = s.clock := by
  simp [State.protoErr]

end Sys2Proof.Machine
end

section
namespace Sys2Proof.Machine

/-! ### The clock through Sys2Proof/Machine/EngineBase.lean -/

@[simp] theorem engRemote_clock (s : State) (i : Nat) (e : HEnt) (f o cls hev len : Nat) (d : Option (List Byte)) :
    (s.engRemote i e f o cls hev len d).clock = s.clock := by
  simp [State.engRemote]

@[simp] theorem engLine_clock (s : State) (i space cls addr len : Nat) (d : Option (List Byte)) :
    (s.engLine i space cls addr len d).clock = s.clock := by
  unfold State.engLine
  dsimp only
  (repeat' split) <;> simp

@[simp] theorem engLines_clock (s : State) (i space cls addr : Nat) (b : List Byte) : (s.engLines i space cls addr b).clock = s.clock := by
  simp [State.engLines]

@[simp] theorem issueReads_clock (s : State) (i : Nat) : (s.issueReads i).clock = s.clock := by
  unfold State.issueReads
  dsimp only
  split <;> simp

@[simp] theorem readBack_clock (s : State) (via : Via) (r : HRsp) : (s.readBack via r).clock = s.clock := by
  unfold State.readBack
  dsimp only
  (repeat' split) <;> simp

@[simp] theorem jobsStop_clock (s : State) (p : Job → Bool) (st : Nat) : (s.jobsStop p st).clock = s.clock := by
  simp [State.jobsStop]

@[simp] theorem jobsFailed_clock (s : State) (ss : List Nat) : (s.jobsFailed ss).clock = s.clock := by
  simp [State.jobsFailed]

@[simp] theorem abandonMove_clock (s : State) (n : Nat) : (s.abandonMove n).clock = s.clock := by
  simp [State.abandonMove]

@[simp] theorem movePoison_clock (s : State) (t : Trk) : (s.movePoison t).clock = s.clock := by
  unfold State.movePoison
  split <;> simp

end Sys2Proof.Machine
end

section
namespace Sys2Proof.Machine

/-! ### The clock through Sys2Proof/Machine/HamperBase.lean -/

@[simp] theorem inHmp_clock (s : State) (f : HmpS → HmpS) : (s.inHmp f).clock = s.clock := by
  simp [State.inHmp]

@[simp] theorem setPart_clock (s : State) (p : HPart) : (s.setPart p).clock = s.clock := by
  simp [State.setPart]

@[simp] theorem setOrig_clock (s : State) (o : HOrig) : (s.setOrig o).clock = s.clock := by
  simp [State.setOrig]

@[simp] theorem logAppend_clock (s : State) (r : LogRec) : (s.logAppend r).clock = s.clock := by
  simp [State.logAppend]

@[simp] theorem logAbsent_clock (s : State) (i : Nat) : (s.logAbsent i).clock = s.clock := by
  unfold State.logAbsent
  split <;> simp

@[simp] theorem sendHmsg_clock (s : State) (dst type : Nat) (m : HMsg) : (s.sendHmsg dst type m).clock = s.clock := by
  simp [State.sendHmsg]

@[simp] theorem unhold_clock (s : State) (la : Nat) : (s.unhold la).clock = s.clock := by
  unfold State.unhold
  split <;> simp

@[simp] theorem acquireEnd_clock (s : State) (k : Nat) (t : Trk) : (s.acquireEnd k t).clock = s.clock := by
  unfold State.acquireEnd
  split <;> simp

@[simp] theorem partRelease_clock (s : State) (p : HPart) : (s.partRelease p).clock = s.clock := by
  simp [State.partRelease]

@[simp] theorem partVote_clock (s : State) (p : HPart) (v fail : Nat) : (s.partVote p v fail).clock = s.clock := by
  unfold State.partVote
  dsimp only
  split <;> simp

/-- The body is compared with its name as a function: applied, the kernel would evaluate the way's choice. -/
@[simp] theorem stageShadow_clock (s : State) (la : Nat) (d : Line) (poison : Bool) : (s.stageShadow la d poison).1.clock = s.clock := by
  generalize hf : @State.stageShadow = f
  delta State.stageShadow at hf
  have h := congrFun (congrFun (congrFun (congrFun hf.symm s) la) d) poison
  beta_reduce at h
  rw [h]
  split
  · simp [clock_of_fst ‹_›]
  · simp

@[simp] theorem hmpDone_clock (s : State) (k : Nat) (t : Trk) (p : HPart) (l : PLine) (miss : Bool) :
    (s.hmpDone k t p l miss).clock = s.clock := by
  unfold State.hmpDone
  dsimp only
  (repeat' split) <;> simp

@[simp] theorem hmpLine_clock (s : State) (k : Nat) (t : Trk) (p : HPart) (l : PLine) (d : Line) (poison : Bool) : (s.hmpLine k t p l d poison).clock = s.clock := by
  unfold State.hmpLine
  split
  · simp
  · dsimp only
    split <;> simp [clock_of_fst ‹_›]

@[simp] theorem hmpFailed_clock (s : State) (slices : List Nat) : (s.hmpFailed slices).clock = s.clock := by
  unfold State.hmpFailed
  refine clock_each (fun p t => ?_) _ _
  cases p.vote with
  | none => simp
  | some v => cases t.orig p.key <;> simp

end Sys2Proof.Machine
end

section
namespace Sys2Proof.Machine

/-! ### The clock through Sys2Proof/Machine/Home.lean -/

@[simp] theorem aheadFree_clock (s : State) (fid la : Nat) : (s.aheadFree fid la).clock = s.clock := by
  simp [State.aheadFree]

@[simp] theorem complete_clock (s : State) (fid : Nat) (via : Via) (la : Nat) (r : Option HRsp) :
    (s.complete fid via la r).clock = s.clock := by
  unfold State.complete
  split <;> simp

@[simp] theorem respond_clock (s : State) (fid : Nat) (via : Via) (la : Nat) (r : Option HRsp) : (s.respond fid via la r).clock = s.clock := by
  unfold State.respond
  split
  · split <;> simp
  · simp

@[simp] theorem slotAsk_clock (s : State) (la : Nat) (job : RdJob) : (s.slotAsk la job).clock = s.clock := by
  unfold State.slotAsk
  split <;> simp

@[simp] theorem slotIssue_clock (s : State) (la : Nat) (trk : Option Nat) (job : RdJob) : (s.slotIssue la trk job).clock = s.clock := by
  unfold State.slotIssue
  dsimp only
  split <;> simp

@[simp] theorem hbmIssue_clock (s : State) (la : Nat) (trk : Option Nat) : (s.hbmIssue la trk).clock = s.clock := by
  simp [State.hbmIssue]

@[simp] theorem dirRead_clock (s : State) (la : Nat) : (s.dirRead la).clock = s.clock := by
  simp [State.dirRead]

@[simp] theorem lookup0_clock (s : State) (la : Nat) : (s.lookup0 la).clock = s.clock := by
  simp [State.lookup0]

@[simp] theorem sendRead_clock (s : State) (k : Nat) (t : Trk) : (s.sendRead k t).clock = s.clock := by
  simp [State.sendRead]

@[simp] theorem issueRead_clock (s : State) (k : Nat) (t : Trk) (spec : Bool) : (s.issueRead k t spec).clock = s.clock := by
  unfold State.issueRead
  dsimp only
  (repeat' split) <;> simp

@[simp] theorem kickReads_clock (s : State) (b : Nat) : (s.kickReads b).clock = s.clock := by
  unfold State.kickReads
  split <;> simp

@[simp] theorem dropReads_clock (s : State) (k : Nat) (t : Trk) : (s.dropReads k t).clock = s.clock := by
  simp [State.dropReads]

@[simp] theorem endTrk_clock (s : State) (k : Nat) (t : Trk) : (s.endTrk k t).clock = s.clock := by
  simp [State.endTrk]

@[simp] theorem recordNext_clock (s : State) (t : Trk) (e : Option DirEnt) : (s.recordNext t e).1.clock = s.clock := by
  unfold State.recordNext
  split <;> simp

@[simp] theorem serve_clock (s : State) (k : Nat) (t : Trk) : (s.serve k t).clock = s.clock := by
  unfold State.serve
  split
  · rfl
  · dsimp only
    split <;> simp [clock_of_fst ‹_›]

@[simp] theorem ncwWrite_clock (s : State) (k : Nat) (t : Trk) : (s.ncwWrite k t).clock = s.clock := by
  unfold State.ncwWrite
  dsimp only
  split <;> simp

@[simp] theorem ownerLost_clock (s : State) (t : Trk) : (s.ownerLost t).1.clock = s.clock := by
  simp [State.ownerLost]

@[simp] theorem goOn_clock (s : State) (k : Nat) (t : Trk) : (s.goOn k t).clock = s.clock := by
  unfold State.goOn
  dsimp only
  split <;> simp

@[simp] theorem walkLineDone_clock (s : State) (k : Nat) (t : Trk) (f : Option Nat) : (s.walkLineDone k t f).clock = s.clock := by
  unfold State.walkLineDone
  dsimp only
  (repeat' split) <;> simp

@[simp] theorem hamperGoOn_clock (s : State) (k : Nat) (t : Trk) : (s.hamperGoOn k t).clock = s.clock := by
  unfold State.hamperGoOn
  dsimp only
  (repeat' split) <;> simp

@[simp] theorem moveOn_clock (s : State) (k : Nat) (t : Trk) : (s.moveOn k t).clock = s.clock := by
  unfold State.moveOn
  dsimp only
  (repeat' split) <;> simp

@[simp] theorem partOn_clock (s : State) (k : Nat) (t : Trk) (j : Option Nat) : (s.partOn k t j).clock = s.clock := by
  unfold State.partOn
  dsimp only
  (repeat' split) <;> simp

@[simp] theorem advance1_clock (s : State) (k : Nat) : (s.advance1 k).clock = s.clock := by
  unfold State.advance1
  split
  · rfl
  · next t _ =>
    by_cases h2 : t.phase = 2
    · simp only [h2]
      cases t.ev <;> simp
    by_cases h3 : t.phase = 3
    · simp only [h3]
      cases t.ev <;> simp
    · simp [h2, h3]

@[simp] theorem advance_clock (s : State) (k : Nat) : (s.advance k).clock = s.clock := by
  simp [State.advance]

@[simp] theorem resume_clock (s : State) : s.resume.clock = s.clock := by
  unfold State.resume
  refine clock_each (fun a t => ?_) _ _
  split <;> simp

@[simp] theorem cleanEvict_clock (s : State) (fid la : Nat) : (s.cleanEvict fid la).clock = s.clock := by
  unfold State.cleanEvict
  split <;> simp

@[simp] theorem startReq_clock (s : State) (k : Nat) (t : Trk) : (s.startReq k t).clock = s.clock := by
  simp [State.startReq]

@[simp] theorem homeAccept_clock (s : State) (ev : HEv) (r : HReq) (odd : Bool) : (s.homeAccept ev r odd).clock = s.clock := by
  unfold State.homeAccept
  dsimp only
  (repeat' split) <;> simp

@[simp] theorem forbidden_clock (s : State) (r : HReq) (write : Bool) : (s.forbidden r write).clock = s.clock := by
  simp [State.forbidden]

@[simp] theorem homeReq_clock (s : State) (ev : HEv) (r : HReq) : (s.homeReq ev r).clock = s.clock := by
  simp [State.homeReq]

@[simp] theorem execHomeRds_clock (r : HReq) (s : State) : KeepsClock s (execHomeRds r s) := by
  simp [execHomeRds]

@[simp] theorem execHomeRda_clock (r : HReq) (s : State) : KeepsClock s (execHomeRda r s) := by
  simp [execHomeRda]

@[simp] theorem execHomeRdown_clock (r : HReq) (s : State) : KeepsClock s (execHomeRdown r s) := by
  simp [execHomeRdown]

@[simp] theorem execHomeNcr_clock (r : HReq) (s : State) : KeepsClock s (execHomeNcr r s) := by
  simp [execHomeNcr]

@[simp] theorem execHomeCe_clock (r : HReq) (s : State) : KeepsClock s (execHomeCe r s) := by
  simp [execHomeCe]

@[simp] theorem absorb_clock (s : State) (k : Nat) (t : Trk) (d : Line) (poison : Bool) : (s.absorb k t d poison).clock = s.clock := by
  simp [State.absorb]

@[simp] theorem takeWb_clock (s : State) (la : Nat) (d : Line) (mask : BitVec 64) (k : Option (Nat × Trk)) :
    (s.takeWb la d mask k).clock = s.clock := by
  unfold State.takeWb
  dsimp only
  (repeat' split) <;> simp

@[simp] theorem wbEntry_clock (s : State) (la fid : Nat) (d : Line) (mask : BitVec 64) (keep : Bool) :
    (s.wbEntry la fid d mask keep).clock = s.clock := by
  unfold State.wbEntry
  split <;> simp

@[simp] theorem strayWb_clock (s : State) (r : HReq) : (s.strayWb r).1.clock = s.clock := by
  unfold State.strayWb
  split <;> simp

@[simp] theorem homeWrite_clock (s : State) (r : HReq) : (s.homeWrite r).clock = s.clock := by
  unfold State.homeWrite
  extract_lets sl la fid done nonCaching owed ent named clean
  have hdone : ∀ t, (done t).clock = t.clock := fun t => by simp [done]
  clear_value done nonCaching owed ent named clean
  cases owed with
  | some kt => simp [hdone]
  | none =>
    cases h : s.strayWb r with
    | mk t reason => cases reason <;> simp [hdone, clock_of_fst h]

@[simp] theorem execHomeWb_clock (r : HReq) (s : State) : KeepsClock s (execHomeWb r s) := by
  unfold execHomeWb
  split <;> simp

@[simp] theorem execHomeNcw_clock (r : HReq) (s : State) : KeepsClock s (execHomeNcw r s) := by
  simp [execHomeNcw]

@[simp] theorem execMemspecrd_clock (r : HReq) (s : State) : KeepsClock s (execMemspecrd r s) := by
  simp [execMemspecrd]

@[simp] theorem execClflush_clock (r : HReq) (s : State) : KeepsClock s (execClflush r s) := by
  simp [execClflush]

@[simp] theorem execBiconflict_clock (fid : Fid) (la : Nat) (s : State) : KeepsClock s (execBiconflict fid la s) := by
  simp [execBiconflict]

@[simp] theorem snoopAnswer_clock (s : State) (la : Nat) (k : Nat) (t : Trk) (a : SnpRsp) : (s.snoopAnswer la k t a).clock = s.clock := by
  unfold State.snoopAnswer
  dsimp only
  (repeat' split) <;> simp

@[simp] theorem execSnoopResponse_clock (la : Nat) (a : SnpRsp) (s : State) : KeepsClock s (execSnoopResponse la a s) := by
  unfold execSnoopResponse
  dsimp only
  (repeat' split) <;> simp

@[simp] theorem entUse_clock (s : State) (la : Nat) : (s.entUse la).clock = s.clock := by
  simp [State.entUse]

@[simp] theorem bringIn_clock (s : State) (la : Nat) : (s.bringIn la).1.clock = s.clock := by
  unfold State.bringIn
  split <;> simp

@[simp] theorem execSfLookupDone_clock (k : Nat) (s : State) : KeepsClock s (execSfLookupDone k s) := by
  unfold execSfLookupDone
  split
  · simp
  split
  · simp
  split
  · simp
  · next h =>
    extract_lets la e self minus wide kind excl tg t s2
    have h1 := clock_of_fst h
    have h2 : s2.clock = s.clock := by simp [s2, h1]
    clear_value tg t kind wide s2
    split
    · simp [h1]
    split
    · simp [h1]
    · split <;> simp [h2]

@[simp] theorem readArrived_clock (s : State) (k : Nat) (d : Line) (poison : Bool) : (s.readArrived k d poison).clock = s.clock := by
  unfold State.readArrived
  split <;> simp

@[simp] theorem execDeviceReadComplete_clock (rid : Nat) (d : Line) (poison : Bool) (s : State) :
    KeepsClock s (execDeviceReadComplete rid d poison s) := by
  unfold execDeviceReadComplete
  dsimp only
  (repeat' split) <;> simp

@[simp] theorem acked_clock (s : State) (la kind : Nat) : (s.acked la kind).clock = s.clock := by
  simp [State.acked]

@[simp] theorem execLineStoreWriteAck_clock (la : Nat) (s : State) : KeepsClock s (execLineStoreWriteAck la s) := by
  simp [execLineStoreWriteAck]

@[simp] theorem execLsVictimWriteDone_clock (la : Nat) (s : State) : KeepsClock s (execLsVictimWriteDone la s) := by
  unfold execLsVictimWriteDone
  split <;> simp

@[simp] theorem failQueued_clock (s : State) (p : Nat → Bool) : (s.failQueued p).clock = s.clock := by
  simp [State.failQueued]

@[simp] theorem hmpStart_clock (s : State) (k : Nat) (t : Trk) : (s.hmpStart k t).clock = s.clock := by
  unfold State.hmpStart
  extract_lets la
  split
  · split
    · simp
    split
    · simp
    split
    · simp
    split
    · simp
    split
    · rfl
    · next h =>
      have h1 := clock_of_fst h
      simp [h1]
  · rfl

@[simp] theorem execLineQueueAdvance_clock (la : Nat) (s : State) : KeepsClock s (execLineQueueAdvance la s) := by
  unfold execLineQueueAdvance
  split
  · simp
  split
  · simp
  · split <;> simp

end Sys2Proof.Machine
end

section
namespace Sys2Proof.Machine

/-! ### The clock through Sys2Proof/Machine/Binding.lean -/

@[simp] theorem walkBank_clock (bs : List Nat) (slice : Nat) (stop : Nat → State → Bool) {act : Nat → State → State}
    (h : ∀ la t, (act la t).clock = t.clock) (n p : Nat) (s : State) : (walkBank bs slice stop act n p s).2.clock = s.clock := by
  induction n generalizing p s with
  | zero => rfl
  | succ n ih =>
    unfold walkBank
    split
    · rfl
    · dsimp only
      split
      · rfl
      · simp [ih, h]

@[simp] theorem setWalk_clock (s : State) (w : Nat) (x : Option Walk) : (s.setWalk w x).clock = s.clock := by
  simp [State.setWalk]

@[simp] theorem walkTick_clock (s : State) (w : Nat) {act : Nat → State → State} (stop : Nat → State → Bool)
    (h : ∀ la t, (act la t).clock = t.clock) : (s.walkTick w act stop).clock = s.clock := by
  unfold State.walkTick
  split
  · rfl
  · next k _ =>
    dsimp only
    generalize hx : List.foldl _ _ _ = x
    have hs : x.1.clock = s.clock := by
      rw [← hx]
      exact clock_foldl_fst (fun a b => by split <;> simp [h]) _ _
    split <;> simp [hs]

@[simp] theorem walkSnoop_clock (s : State) (w la : Nat) (f : Option Nat) (fids : List Nat) :
    (s.walkSnoop w la f fids).clock = s.clock := by
  simp [State.walkSnoop]

@[simp] theorem examAgent_clock (w f : Nat) (la : Nat) (s : State) : (s.examAgent w f la).clock = s.clock := by
  unfold State.examAgent
  split <;> simp

@[simp] theorem examTeardown_clock (w d : Nat) (failed : Bool) (la : Nat) (s : State) : (s.examTeardown w d failed la).clock = s.clock := by
  unfold State.examTeardown
  split <;> simp

@[simp] theorem examRelease_clock (w : Nat) (la : Nat) (s : State) : (s.examRelease w la).clock = s.clock := by
  unfold State.examRelease
  dsimp only
  (repeat' split) <;> simp

@[simp] theorem examExit_clock (w d : Nat) (la : Nat) (s : State) : (s.examExit w d la).clock = s.clock := by
  unfold State.examExit
  split <;> simp

@[simp] theorem execOpSliceAssign_clock (q : Req) (body : List Byte) (s : State) : KeepsClock s (execOpSliceAssign q body s) := by
  simp [execOpSliceAssign]

@[simp] theorem dropLines_clock (s : State) (n : Nat) : (s.dropLines n).clock = s.clock := by
  simp [State.dropLines]

@[simp] theorem unassign_clock (s : State) (n : Nat) : (s.unassign n).clock = s.clock := by
  simp [State.unassign]

@[simp] theorem execOpSliceRelease_clock (q : Req) (body : List Byte) (s : State) : KeepsClock s (execOpSliceRelease q body s) := by
  refine keepsClock_nalug_run fun t => ?_
  (repeat' split) <;> simp

@[simp] theorem sliceReleaseStep_clock (s : State) (k n : Nat) : (s.sliceReleaseStep k n).clock = s.clock := by
  unfold State.sliceReleaseStep
  split <;> simp

@[simp] theorem execOpDomainCreate_clock (q : Req) (body : List Byte) (s : State) : KeepsClock s (execOpDomainCreate q body s) := by
  simp [execOpDomainCreate]

@[simp] theorem execOpDomainAgentAdd_clock (q : Req) (body : List Byte) (s : State) : KeepsClock s (execOpDomainAgentAdd q body s) := by
  refine keepsClock_nalug_run fun t => ?_
  dsimp only
  (repeat' split) <;> simp

@[simp] theorem execOpDomainAgentRemove_clock (q : Req) (body : List Byte) (s : State) :
    KeepsClock s (execOpDomainAgentRemove q body s) := by
  refine keepsClock_nalug_run fun t => ?_
  dsimp only
  (repeat' split) <;> simp

@[simp] theorem walkOn_clock (s : State) (w d : Nat) : (s.walkOn w d).clock = s.clock := by
  unfold State.walkOn
  split <;> simp

@[simp] theorem agentRemoveStep_clock (s : State) (k d slot f : Nat) : (s.agentRemoveStep k d slot f).clock = s.clock := by
  unfold State.agentRemoveStep
  split <;> simp

@[simp] theorem execOpDomainTeardown_clock (q : Req) (body : List Byte) (s : State) : KeepsClock s (execOpDomainTeardown q body s) := by
  refine keepsClock_nalug_run fun t => ?_
  split <;> simp

@[simp] theorem teardownEnd_clock (s : State) (k d moves : Nat) : (s.teardownEnd k d moves).clock = s.clock := by
  simp [State.teardownEnd]

@[simp] theorem teardownStep_clock (s : State) (k d : Nat) (failed : Bool) : (s.teardownStep k d failed).clock = s.clock := by
  unfold State.teardownStep
  split <;> simp

@[simp] theorem execOpVcsCreate_clock (q : Req) (body : List Byte) (s : State) : KeepsClock s (execOpVcsCreate q body s) := by
  refine keepsClock_nalug_run fun t => ?_
  (repeat' split) <;> simp

@[simp] theorem execHdmDecoderWrite_clock (v : VcsIx) (base : BitVec 64) (ig iw : BitVec 4) (s : State) :
    KeepsClock s (execHdmDecoderWrite v base ig iw s) := by
  unfold execHdmDecoderWrite
  split <;> simp

@[simp] theorem bindTo_clock (s : State) (mode rights n f v index : Nat) : (s.bindTo mode rights n f v index).clock = s.clock := by
  simp [State.bindTo]

@[simp] theorem execOpBind_clock (q : Req) (body : List Byte) (s : State) : KeepsClock s (execOpBind q body s) := by
  refine keepsClock_nalug_run fun t => ?_
  dsimp only
  (repeat' split) <;> simp

theorem revoke_clock {s t : State} {mode n f v index : Nat} (h : s.revoke mode n f v index = some t) : t.clock = s.clock := by
  revert h
  unfold State.revoke
  split
  · split
    · rintro ⟨⟩
      simp
    · rintro ⟨⟩
  split
  · rintro ⟨⟩
  split
  · rintro ⟨⟩
  split
  · rintro ⟨⟩
    simp
  · rintro ⟨⟩

@[simp] theorem unbindBegin_clock (s : State) (k n : Nat) : (s.unbindBegin k n).clock = s.clock := by
  simp [State.unbindBegin]

@[simp] theorem execOpUnbind_clock (q : Req) (body : List Byte) (s : State) : KeepsClock s (execOpUnbind q body s) := by
  refine keepsClock_nalug_run fun t => ?_
  split
  · split
    · simp
    · simp [revoke_clock ‹_›]
  dsimp only
  split
  · simp
  split
  · simp
  split
  · simp
  · simp
  · simp [revoke_clock ‹_›]

@[simp] theorem execOpRebind_clock (q : Req) (body : List Byte) (s : State) : KeepsClock s (execOpRebind q body s) := by
  refine keepsClock_nalug_run fun t => ?_
  extract_lets x old rv
  have hrv : ∀ u, rv = some u → u.clock = t.clock := by
    intro u hu
    cases h : old with
    | none => exact revoke_clock (by simpa [rv, h] using hu)
    | some o => exact revoke_clock (by simpa [rv, h] using hu)
  clear_value rv
  refine fst_clock_of_ite (by simp) (fst_clock_of_ite (by simp) (fst_clock_of_ite (by simp) (fst_clock_of_ite (by simp) ?_)))
  split
  · simp
  · simp
  · next u _ =>
    have hu := hrv u rfl
    split <;> simp [hu]

@[simp] theorem unbindEnd_clock (s : State) (n f : Nat) : (s.unbindEnd n f).clock = s.clock := by
  simp [State.unbindEnd]

@[simp] theorem startWalk_clock (s : State) (k n f : Nat) : (s.startWalk k n f).clock = s.clock := by
  unfold State.startWalk
  split
  · split <;> simp
  · rfl

@[simp] theorem unbindStep_clock (s : State) (k n f : Nat) {fin : State → State} (h : ∀ t, (fin t).clock = t.clock) :
    (s.unbindStep k n f fin).clock = s.clock := by
  unfold State.unbindStep
  split <;> simp [h]

@[simp] theorem rebindEnd_clock (k mode r n fo fn v index : Nat) (nd : Option Nat) (s : State) :
    (s.rebindEnd k mode r n fo fn v index nd).clock = s.clock := by
  unfold State.rebindEnd
  dsimp only
  (repeat' split) <;> simp

@[simp] theorem opUnbindStep_clock (s : State) (k n f : Nat) : (s.opUnbindStep k n f).clock = s.clock := by
  simp [State.opUnbindStep]

@[simp] theorem opRebindStep_clock (s : State) (k mode r n fo fn v index : Nat) (nd : Option Nat) :
    (s.opRebindStep k mode r n fo fn v index nd).clock = s.clock := by
  simp [State.opRebindStep]

@[simp] theorem stepOnce_clock (s : State) (k : Nat) {f : State → State} (h : ∀ t, (f t).clock = t.clock) :
    (s.stepOnce k f).clock = s.clock := by
  simp [State.stepOnce, h]

@[simp] theorem execUnbindDrainDone_clock (k : Fin 32) (s : State) : KeepsClock s (execUnbindDrainDone k s) := by
  unfold execUnbindDrainDone
  dsimp only
  (repeat' split) <;> simp

@[simp] theorem execWalkStep_clock (k : Fin 32) (s : State) : KeepsClock s (execWalkStep k s) := by
  unfold execWalkStep
  dsimp only
  (repeat' split) <;> simp

@[simp] theorem edgePut_clock (s : State) (p ld : Nat) (v : Word) : (s.edgePut p ld v).clock = s.clock := by
  simp [State.edgePut]

@[simp] theorem execPtEdgeIdWrite_clock (p : PortIx) (ld : Fin 16) (v : Word) (s : State) : KeepsClock s (execPtEdgeIdWrite p ld v s) := by
  simp [execPtEdgeIdWrite]

@[simp] theorem execBlanketWindowEnd_clock (s : State) : KeepsClock s (execBlanketWindowEnd s) := by
  simp [execBlanketWindowEnd]

@[simp] theorem execBlanketEnter_clock (d : DomIx) (s : State) : KeepsClock s (execBlanketEnter d s) := by
  unfold execBlanketEnter
  split <;> simp

@[simp] theorem visitNext_clock (s : State) (d : Nat) : (s.visitNext d).clock = s.clock := by
  unfold State.visitNext
  split <;> simp

@[simp] theorem visitEnd_clock (s : State) (n : Nat) : (s.visitEnd n).clock = s.clock := by
  simp [State.visitEnd]

@[simp] theorem execExitWalkStart_clock (d : DomIx) (s : State) : KeepsClock s (execExitWalkStart d s) := by
  simp [execExitWalkStart]

@[simp] theorem execExitWalkStep_clock (d : DomIx) (s : State) : KeepsClock s (execExitWalkStep d s) := by
  unfold execExitWalkStep
  dsimp only
  (repeat' split) <;> simp

@[simp] theorem execBlanketExit_clock (d : DomIx) (s : State) : KeepsClock s (execBlanketExit d s) := by
  simp [execBlanketExit]

@[simp] theorem execOpDirRebuild_clock (q : Req) (body : List Byte) (s : State) : KeepsClock s (execOpDirRebuild q body s) := by
  refine keepsClock_nalug_run fun t => ?_
  dsimp only
  (repeat' split) <;> simp

@[simp] theorem dirRebuildStep_clock (s : State) (k : Nat) : (s.dirRebuildStep k).clock = s.clock := by
  simp [State.dirRebuildStep]

end Sys2Proof.Machine
end

section
namespace Sys2Proof.Machine

/-! ### The clock through Sys2Proof/Machine/Hampers.lean -/

@[simp] theorem originFail_clock (s : State) (port : Option Nat) (fid reason off : Nat) :
    (s.originFail port fid reason off).clock = s.clock := by
  unfold State.originFail
  split <;> simp

@[simp] theorem setPortSlot_clock (s : State) (v k : Nat) (x : PortSlot) : (s.setPortSlot v k x).clock = s.clock := by
  simp [State.setPortSlot]

@[simp] theorem outcome_clock (s : State) (src : HSrc) (r : List Byte) : (s.outcome src r).clock = s.clock := by
  unfold State.outcome
  split <;> simp

@[simp] theorem abortCount_clock (s : State) (status : Nat) : (s.abortCount status).clock = s.clock := by
  simp [State.abortCount]

@[simp] theorem abortCapture_clock (s : State) (status : Nat) (key : HKey) : (s.abortCapture status key).clock = s.clock := by
  simp [State.abortCapture]

@[simp] theorem addPart_clock (s : State) (p : HPart) : (s.addPart p).clock = s.clock := by
  simp [State.addPart]

@[simp] theorem hmpSubmit_clock (s : State) (src : HSrc) (acting v : Nat) (legacy : Bool) (port : Option Nat) (b : List Byte) :
    (s.hmpSubmit src acting v legacy port b).clock = s.clock := by
  unfold State.hmpSubmit
  extract_lets user me refuse n es dec home lines homes cross crossAny tag key lim o s1
  have h1 : s1.clock = s.clock := by simp [s1]
  have hrefuse : ∀ t st f, (refuse t st f).clock = t.clock := fun t st f => by simp [refuse]
  clear_value refuse lines cross crossAny homes s1
  split
  · exact hrefuse _ _ _
  split
  · exact hrefuse _ _ _
  split
  · exact hrefuse _ _ _
  split
  · exact hrefuse _ _ _
  split
  · exact (hrefuse _ _ _).trans (originFail_clock _ _ _ _ _)
  split
  · exact hrefuse _ _ _
  split
  · exact hrefuse _ _ _
  split
  · exact hrefuse _ _ _
  · refine (clock_each (fun h t => ?_) _ _).trans h1
    split <;> simp

@[simp] theorem execHamperPortEntryWrite_clock (v : VcsIx) (k : Fin 64) (off : Fin 4096) (b : List Byte) (s : State) :
    KeepsClock s (execHamperPortEntryWrite v k off b s) := by
  simp [execHamperPortEntryWrite]

@[simp] theorem execHamperPortHeaderWrite_clock (v : VcsIx) (k : Fin 64) (off : Fin 32) (b : List Byte) (s : State) :
    KeepsClock s (execHamperPortHeaderWrite v k off b s) := by
  unfold execHamperPortHeaderWrite
  dsimp only
  (repeat' split) <;> simp

@[simp] theorem execHmpSlotAck_clock (v : VcsIx) (k : Fin 64) (s : State) : KeepsClock s (execHmpSlotAck v k s) := by
  unfold execHmpSlotAck
  split <;> simp

@[simp] theorem sendH_clock (s : State) (dst type : Nat) (p : HPart) (code fail : Nat) :
    (s.sendH dst type p code fail).clock = s.clock := by
  simp [State.sendH]

@[simp] theorem lateMsg_clock (s : State) : s.lateMsg.clock = s.clock := by
  simp [State.lateMsg]

@[simp] theorem sendVote_clock (s : State) (p : HPart) : (s.sendVote p).clock = s.clock := by
  simp [State.sendVote]

@[simp] theorem execHpartReceive_clock (m : HMsg) (s : State) : KeepsClock s (execHpartReceive m s) := by
  unfold execHpartReceive
  dsimp only
  (repeat' split) <;> simp

@[simp] theorem execHamperArbitration_clock (s : State) : KeepsClock s (execHamperArbitration s) := by
  simp [execHamperArbitration]

@[simp] theorem execHamperLineAcquire_clock (key : HKey) (i : Fin 32) (s : State) : KeepsClock s (execHamperLineAcquire key i s) := by
  unfold execHamperLineAcquire
  dsimp only
  (repeat' split) <;> simp

@[simp] theorem judge_clock (s : State) (p : HPart) : (s.judge p).clock = s.clock := by
  simp [State.judge]

@[simp] theorem execHamperVoteSend_clock (key : HKey) (s : State) : KeepsClock s (execHamperVoteSend key s) := by
  unfold execHamperVoteSend
  dsimp only
  (repeat' split) <;> simp

@[simp] theorem execHvoteReceive_clock (m : HMsg) (s : State) : KeepsClock s (execHvoteReceive m s) := by
  unfold execHvoteReceive
  split <;> simp

@[simp] theorem announce_clock (s : State) (o : HOrig) (c : Nat) : (s.announce o c).clock = s.clock := by
  unfold State.announce
  dsimp only
  split <;> simp

@[simp] theorem decideAll_clock (s : State) : s.decideAll.clock = s.clock := by
  unfold State.decideAll
  refine (clock_each (fun o t => ?_) _ _).trans (by simp)
  cases t.part o.key <;> simp

@[simp] theorem execHamperDecide_clock (s : State) : KeepsClock s (execHamperDecide s) := by
  simp [execHamperDecide]

@[simp] theorem execCommitLogWriteAck_clock (key : HKey) (type : Fin 4) (s : State) : KeepsClock s (execCommitLogWriteAck key type s) := by
  unfold execCommitLogWriteAck
  split
  · split <;> simp
  · split
    · simp
    · split <;> simp
  · split <;> simp
  · simp

@[simp] theorem execHdecideReceive_clock (m : HMsg) (s : State) : KeepsClock s (execHdecideReceive m s) := by
  unfold execHdecideReceive
  split <;> simp

@[simp] theorem execHquerySend_clock (key : HKey) (s : State) : KeepsClock s (execHquerySend key s) := by
  unfold execHquerySend
  split <;> simp

@[simp] theorem answerQuery_clock (s : State) (m : HMsg) : (s.answerQuery m).clock = s.clock := by
  simp [State.answerQuery]

@[simp] theorem execHqueryReceive_clock (m : HMsg) (s : State) : KeepsClock s (execHqueryReceive m s) := by
  unfold execHqueryReceive
  split <;> simp

@[simp] theorem execHanswerReceive_clock (m : HMsg) (s : State) : KeepsClock s (execHanswerReceive m s) := by
  unfold execHanswerReceive
  dsimp only
  (repeat' split) <;> simp

@[simp] theorem execHamperIndoubtPoison_clock (key : HKey) (s : State) : KeepsClock s (execHamperIndoubtPoison key s) := by
  unfold execHamperIndoubtPoison
  split
  · simp
  · split <;> simp

@[simp] theorem execIndoubtRecordRewrite_clock (key : HKey) (s : State) : KeepsClock s (execIndoubtRecordRewrite key s) := by
  unfold execIndoubtRecordRewrite
  split <;> simp

@[simp] theorem execHmpTimingWrite_clock (second : Bool) (v : Word) (s : State) : KeepsClock s (execHmpTimingWrite second v s) := by
  simp [execHmpTimingWrite]

@[simp] theorem doubtBegin_clock (s : State) (p : HPart) : (s.doubtBegin p).clock = s.clock := by
  simp [State.doubtBegin]

@[simp] theorem overrun_clock (s : State) (banks : Nat) : (s.overrun banks).clock = s.clock := by
  have h : (s.cnt glbTickOverrunCnt).pending = s.pending := congrArg Clock.pending (cnt_clock s glbTickOverrunCnt 1)
  unfold State.overrun
  refine (raise_clock _ _ _).trans ?_
  split
  · rfl
  · simp only [State.clock, h]

@[simp] theorem hmpGuard_clock (s : State) : s.hmpGuard.clock = s.clock := by
  unfold State.hmpGuard
  extract_lets me s0 locals s1 behind s2 doubtful s3 sealing s4
  have h0 : s0.clock = s.clock := by simp [s0]
  have h1 : s1.clock = s0.clock := by
    refine clock_each (fun o t => ?_) _ _
    extract_lets t1
    have ht1 : t1.clock = t.clock := by cases h : t.part o.key <;> simp [t1, h]
    clear_value t1
    dsimp only
    split <;> simp [ht1]
  have h2 : s2.clock = s1.clock := by
    refine clock_each (fun p t => ?_) _ _
    extract_lets u
    have hu : u.clock = t.clock := by simp [u]
    split <;> simp [hu]
  have h3 : s3.clock = s2.clock := by simp [s3]
  have h4 : s4.clock = s3.clock := by simp [s4]
  simp [h4, h3, h2, h1, h0]

@[simp] theorem flip_clock (s : State) (p : HPart) : (s.flip p).clock = s.clock := by
  unfold State.flip
  refine clock_each (fun l t => ?_) _ _
  dsimp only
  cases tfind t.home.shadow l.la <;> simp

@[simp] theorem delPart_clock (s : State) (key : HKey) : (s.delPart key).clock = s.clock := by
  simp [State.delPart]

@[simp] theorem delOrig_clock (s : State) (key : HKey) : (s.delOrig key).clock = s.clock := by
  simp [State.delOrig]

@[simp] theorem poisonPart_clock (s : State) (p : HPart) : (s.poisonPart p).clock = s.clock := by
  simp [State.poisonPart]

@[simp] theorem partRetry_clock (s : State) (p : HPart) : (s.partRetry p).clock = s.clock := by
  unfold State.partRetry
  dsimp only
  split <;> simp

@[simp] theorem partEdge_clock (p : HPart) (s : State) : (s.partEdge p).clock = s.clock := by
  unfold State.partEdge
  dsimp only
  (repeat' split) <;> simp

@[simp] theorem hmpLate_clock (s : State) : s.hmpLate.clock = s.clock := by
  simp [State.hmpLate]

@[simp] theorem origEdge_clock (late : Bool) (o : HOrig) (s : State) : (s.origEdge late o).clock = s.clock := by
  unfold State.origEdge
  dsimp only
  (repeat' split) <;> simp

@[simp] theorem hmpEdge_clock (s : State) : s.hmpEdge.clock = s.clock := by
  simp [State.hmpEdge]

@[simp] theorem freeHmpPort_clock (s : State) (v : Nat) : (s.freeHmpPort v).clock = s.clock := by
  simp [State.freeHmpPort]

end Sys2Proof.Machine
end

section
namespace Sys2Proof.Machine

/-! ### The clock through Sys2Proof/Machine/Fail.lean -/

@[simp] theorem failTrks_clock (s : State) (p : Nat → Bool) : (s.failTrks p).clock = s.clock := by
  simp [State.failTrks]

@[simp] theorem failSlices_clock (s : State) (ss : List Nat) (cause : Nat) : (s.failSlices ss cause).clock = s.clock := by
  simp [State.failSlices]

@[simp] theorem failDomain_clock (s : State) (d : Nat) {why : State → State} (h : ∀ t, (why t).clock = t.clock) :
    (s.failDomain d why).clock = s.clock := by
  simp [State.failDomain, h]

@[simp] theorem agentQuiet_clock (s : State) (f : Nat) : (s.agentQuiet f).clock = s.clock := by
  simp [State.agentQuiet]

@[simp] theorem agentDead_clock (s : State) (f : Nat) : (s.agentDead f).clock = s.clock := by
  simp [State.agentDead]

@[simp] theorem dropLost_clock (s : State) (ss : List Nat) : (s.dropLost ss).1.clock = s.clock := by
  simp [State.dropLost]

@[simp] theorem deviceLost_clock (s : State) (p ld : Nat) : (s.deviceLost p ld).clock = s.clock := by
  unfold State.deviceLost
  split <;> simp

@[simp] theorem execSnoopTimeout_clock (k : Nat) (fid : Fid) (s : State) : KeepsClock s (execSnoopTimeout k fid s) := by
  unfold execSnoopTimeout
  dsimp only
  (repeat' split) <;> simp

@[simp] theorem homeBankLost_clock (s : State) (h : Nat) : (s.homeBankLost h).clock = s.clock := by
  unfold State.homeBankLost
  dsimp only
  split <;> simp

@[simp] theorem sfBankLost_clock (s : State) (b : Nat) : (s.sfBankLost b).clock = s.clock := by
  simp [State.sfBankLost]

@[simp] theorem startMirror_clock (s : State) (log : Nat) : (s.startMirror log).clock = s.clock := by
  unfold State.startMirror
  dsimp only
  split <;> simp

@[simp] theorem hbmMirror_clock (s : State) : s.hbmMirror.clock = s.clock := by
  simp [State.hbmMirror]

@[simp] theorem ageDrop_clock (s : State) (q : Nat) (l : List TMsg) : (s.ageDrop q l).clock = s.clock := by
  simp [State.ageDrop]

@[simp] theorem spillLost_clock (s : State) (h : Nat) : (s.spillLost h).clock = s.clock := by
  simp [State.spillLost]

@[simp] theorem stackLost_clock (s : State) (h : Nat) : (s.stackLost h).clock = s.clock := by
  unfold State.stackLost
  extract_lets s1 mine bad good drop fail s2 s3 log mir valid s4 l s5 ev s6 s7 s8 s9 s10
  have h1 : s1.clock = s.clock := by simp [s1]
  have h2 : s2.clock = s1.clock := by simp [s2]
  have h4 : s4.clock = s2.clock := by simp [s4, s3, drop]
  have h6 : s6.clock = s4.clock := by simp [s6, s5]
  have h7 : s7.clock = s4.clock := by
    cases h : s.nextStack h <;> simp [s7, h, h6]
  have h8 : s8.clock = s7.clock := by simp [s8]
  have h9 : s9.clock = s8.clock := by simp [s9]
  have h10 : s10.clock = s8.clock := by simp [s10, h9]
  clear_value s10
  simp [h10, h8, h7, h4, h2, h1]

@[simp] theorem retireStack_clock (s : State) (h : Nat) : (s.retireStack h).clock = s.clock := by
  simp [State.retireStack]

end Sys2Proof.Machine
end

section
namespace Sys2Proof.Machine

/-! ### The clock through Sys2Proof/Machine/Buffers.lean -/

@[simp] theorem setQueue_clock (s : State) (q : Nat) (l : List TMsg) : (s.setQueue q l).clock = s.clock := by
  simp [State.setQueue]

@[simp] theorem markSpill_clock (s : State) (q : Nat) : (s.markSpill q).clock = s.clock := by
  simp [State.markSpill]

@[simp] theorem spillLeave_clock (s : State) (q : Nat) : (s.spillLeave q).clock = s.clock := by
  simp [State.spillLeave]

end Sys2Proof.Machine
end

section
namespace Sys2Proof.Machine

/-! ### The clock through Sys2Proof/Machine/Hbm.lean -/

@[simp] theorem stackUe_clock (s : State) (h : Nat) : (s.stackUe h).clock = s.clock := by
  simp [State.stackUe]

@[simp] theorem freeSlot_clock (s : State) (q : Nat) : (s.freeSlot q).clock = s.clock := by
  unfold State.freeSlot
  dsimp only
  split <;> simp

@[simp] theorem poisonLog_clock (s : State) (q : Nat) (x : RdSlot) : (s.poisonLog q x).clock = s.clock := by
  simp [State.poisonLog]

@[simp] theorem sendFrom_clock (s : State) (st : Nat) (m : TMsg) : (s.sendFrom st m).clock = s.clock := by
  simp [State.sendFrom]

@[simp] theorem pageBack_clock (s : State) (st q page : Nat) : (s.pageBack st q page).clock = s.clock := by
  simp [State.pageBack]

@[simp] theorem dirLose_clock (s : State) (la b : Nat) : (s.dirLose la b).clock = s.clock := by
  simp [State.dirLose]

@[simp] theorem dirPart_clock (s : State) (q : Nat) (x : RdSlot) (half : Nat) : (s.dirPart q x half).clock = s.clock := by
  simp [State.dirPart]

@[simp] theorem pairPoison_clock (s : State) (q : Nat) (x : RdSlot) : (s.pairPoison q x).clock = s.clock := by
  unfold State.pairPoison
  dsimp only
  (repeat' split) <;> simp

@[simp] theorem deliver_clock (s : State) (q : Nat) (x : RdSlot) : (s.deliver q x).clock = s.clock := by
  unfold State.deliver
  dsimp only
  (repeat' split) <;> simp

@[simp] theorem execHbmBurstArrival_clock (h : StackIx) (pc : Fin 32) (slot : Fin 64) (attempt half : Bool) (quality : Fin 3) (s : State) :
    KeepsClock s (execHbmBurstArrival h pc slot attempt half quality s) := by
  unfold execHbmBurstArrival
  dsimp only
  (repeat' split) <;> simp

@[simp] theorem execPairingHoldExpiry_clock (h : StackIx) (pc : Fin 32) (slot : Fin 64) (s : State) :
    KeepsClock s (execPairingHoldExpiry h pc slot s) := by
  unfold execPairingHoldExpiry
  dsimp only
  (repeat' split) <;> simp

@[simp] theorem execHbmStackRetire_clock (h : StackIx) (s : State) : KeepsClock s (execHbmStackRetire h s) := by
  simp [execHbmStackRetire]

@[simp] theorem execPseudoChannelRetrainFail_clock (h : StackIx) (pc : Fin 32) (s : State) :
    KeepsClock s (execPseudoChannelRetrainFail h pc s) := by
  simp [execPseudoChannelRetrainFail]

@[simp] theorem execMirrorCopyUnit_clock (s : State) : KeepsClock s (execMirrorCopyUnit s) := by
  unfold execMirrorCopyUnit
  split <;> simp

@[simp] theorem scrubBack_clock (s : State) (h pc area addr : Nat) : (s.scrubBack h pc area addr).clock = s.clock := by
  simp [State.scrubBack]

@[simp] theorem hbmEdge_clock (s : State) : s.hbmEdge.clock = s.clock := by
  simp [State.hbmEdge]

@[simp] theorem execDeviceWriteComplete_clock (la : Nat) (s : State) : KeepsClock s (execDeviceWriteComplete la s) := by
  simp [execDeviceWriteComplete]

end Sys2Proof.Machine
end

section
namespace Sys2Proof.Machine

/-! ### The clock through Sys2Proof/Machine/LinkBase.lean -/

@[simp] theorem setLink_clock (s : State) (p : Nat) (x : LinkS) : (s.setLink p x).clock = s.clock := by
  simp [State.setLink]

@[simp] theorem setCxp_clock (s : State) (p : Nat) (x : CxPort) : (s.setCxp p x).clock = s.clock := by
  simp [State.setCxp]

@[simp] theorem msixKick_clock (s : State) (v n : Nat) : (s.msixKick v n).clock = s.clock := by
  simp [State.msixKick]

@[simp] theorem msixPut_clock (s : State) (v w : Nat) (x : Word) : (s.msixPut v w x).clock = s.clock := by
  simp [State.msixPut]

@[simp] theorem fnReset_clock (s : State) (v : Nat) : (s.fnReset v).clock = s.clock := by
  simp [State.fnReset]

@[simp] theorem sendCw_clock (s : State) (p : Nat) (quiet : Bool) (flits : List (List Byte)) :
    (s.sendCw p quiet flits).clock = s.clock := by
  simp [State.sendCw]

@[simp] theorem quietExit_clock (s : State) (p : Nat) : (s.quietExit p).clock = s.clock := by
  simp [State.quietExit]

@[simp] theorem sendFlits_clock (s : State) (p : Nat) (fl : List (List Byte)) : (s.sendFlits p fl).clock = s.clock := by
  simp [State.sendFlits]

@[simp] theorem ctl_clock (s : State) (p ctype : Nat) (vals : List Nat) (n : Nat) : (s.ctl p ctype vals n).clock = s.clock := by
  simp [State.ctl]

@[simp] theorem linkAnswer_clock (s : State) (p : Nat) (nak : Bool) : (s.linkAnswer p nak).clock = s.clock := by
  simp [State.linkAnswer]

@[simp] theorem pump_clock (s : State) (p : Nat) : (s.pump p).clock = s.clock := by
  simp [State.pump]

theorem linkSend_clock {s t : State} {p cls : Nat} {b : List Byte} (h : s.linkSend p cls b = some t) : t.clock = s.clock := by
  unfold State.linkSend at h
  split at h
  · cases h
  · dsimp only at h
    split at h
    · cases h
    · cases h
      simp

@[simp] theorem sendCredit_clock (s : State) (p : Nat) : (s.sendCredit p).clock = s.clock := by
  simp [State.sendCredit]

@[simp] theorem linkFree_clock (s : State) (p cls : Nat) : (s.linkFree p cls).clock = s.clock := by
  unfold State.linkFree
  dsimp only
  split <;> simp

end Sys2Proof.Machine
end

section
namespace Sys2Proof.Machine

/-! ### The clock through Sys2Proof/Machine/Tiles.lean -/

@[simp] theorem inQos_clock (s : State) (f : QosS → QosS) : (s.inQos f).clock = s.clock := by
  simp [State.inQos]

@[simp] theorem setDef_clock (s : State) (t fc : Nat) (f : Flow) : (s.setDef t fc f).clock = s.clock := by
  simp [State.setDef]

@[simp] theorem setFlowOf_clock (s : State) (t fc src : Nat) (f : Flow) : (s.setFlowOf t fc src f).clock = s.clock := by
  simp [State.setFlowOf]

@[simp] theorem countColour_clock (s : State) (t fc col c : Nat) : (s.countColour t fc col c).clock = s.clock := by
  simp [State.countColour]

@[simp] theorem pushQueue_clock (s : State) (q : Nat) (m : TMsg) : (s.pushQueue q m).clock = s.clock := by
  simp [State.pushQueue]

@[simp] theorem spillScan_clock (s : State) (q : Nat) : (s.spillScan q).clock = s.clock := by
  simp [State.spillScan]

@[simp] theorem enqueue_clock (s : State) (q : Nat) (m : TMsg) : (s.enqueue q m).1.clock = s.clock := by
  unfold State.enqueue
  dsimp only
  (repeat' split) <;> simp

@[simp] theorem missOf_clock (s : State) (p dst : Nat) (m : NetMsg) : (s.missOf p dst m).clock = s.clock := by
  simp [State.missOf]

@[simp] theorem routeMiss_clock (s : State) (p dst : Nat) (m : NetMsg) : (s.routeMiss p dst m).clock = s.clock := by
  simp [State.routeMiss]

@[simp] theorem barAccess_clock (s : State) (p v : Nat) (m : NetMsg) (off : Nat) (write : Bool) (len : Nat) :
    (s.barAccess p v m off write len).clock = s.clock := by
  simp [State.barAccess]

theorem vppbConfig_clock {s t : State} {p v : Nat} {m : NetMsg} {k : Nat} {below : Bool} (h : s.vppbConfig p v m k below = .inl t) :
    t.clock = s.clock := by
  unfold State.vppbConfig at h
  split at h
  · split at h
    · cases h
    · cases h
      simp
  · cases h
    simp
  · cases h
    simp
  · cases h
    simp

theorem destOf_clock {s t : State} {p src : Nat} {m : NetMsg} (h : s.destOf p src m = .inl t) : t.clock = s.clock := by
  unfold State.destOf at h
  dsimp only at h
  split at h
  · cases h
  · cases h
  · split at h
    · cases h
    · cases h
      simp
  · cases h
    split <;> simp
  · split at h
    · split at h
      · cases h
        exact vppbConfig_clock ‹_›
      · cases h
    · cases h
      simp
  · split at h
    · cases h
      simp
    · split at h
      · cases h
        simp
      · cases h

@[simp] theorem tagRequest_clock (s : State) (p : Nat) (m : TMsg) (la : Option Nat) (remote : Bool) :
    (s.tagRequest p m la remote).clock = s.clock := by
  simp [State.tagRequest]

@[simp] theorem trackRemote_clock (s : State) (t src : Nat) (d : Dest) (m : NetMsg) : (s.trackRemote t src d m).clock = s.clock := by
  unfold State.trackRemote
  split <;> simp

@[simp] theorem police_clock (s : State) (t fc src : Nat) (f : Flow) (m : NetMsg) : (s.police t fc src f m).clock = s.clock := by
  simp [State.police]

@[simp] theorem reserveAhead_clock (s : State) (p src : Nat) (d : Dest) (m : NetMsg) : (s.reserveAhead p src d m).clock = s.clock := by
  unfold State.reserveAhead
  split <;> simp

@[simp] theorem tileTake_clock (s : State) (p src : Nat) (d : Dest) (e : Nat) (m : NetMsg) :
    (s.tileTake p src d e m).1.clock = s.clock := by
  simp [State.tileTake]

@[simp] theorem npDone_clock (s : State) (p : Nat) (m : NetMsg) : (s.npDone p m).clock = s.clock := by
  simp [State.npDone]

@[simp] theorem takeParts_clock (s : State) (p src : Nat) (l : List (Dest × NetMsg)) : (s.takeParts p src l).1.clock = s.clock := by
  induction l generalizing s with
  | nil => rfl
  | cons x r ih =>
    obtain ⟨d, m⟩ := x
    unfold State.takeParts
    split
    · simp [ih]
    · next e _ =>
      have h := tileTake_clock s p src d e m
      split
      · next h1 => simpa [ih, h1] using h
      · exact h

@[simp] theorem execTileMessageAccept_clock (p : PortIx) (m : NetMsg) (s : State) : KeepsClock s (execTileMessageAccept p m s) := by
  unfold execTileMessageAccept
  extract_lets t fabric lim m1 s1 s2
  have h2 : s2.clock = s.clock := by simp [s2, s1]
  clear_value s2
  split
  · simp
  split
  · simp [h2]
  split
  · simp [h2]
  split
  · simp [destOf_clock ‹_›, h2]
  · split <;> simp [h2]
  · split
    · simp [clock_of_fst ‹_›, h2]
    · simp [h2]

@[simp] theorem releaseHeld_clock (s : State) (t fc src n : Nat) : (s.releaseHeld t fc src n).clock = s.clock := by
  induction n generalizing s with
  | zero => rfl
  | succ n ih =>
    unfold State.releaseHeld
    dsimp only
    split
    · rfl
    · simp [ih]

@[simp] theorem execHoldListRelease_clock (t : TileIx) (fc : ClassIx) (src : Option Fid) (s : State) : KeepsClock s (execHoldListRelease t fc src s) := by
  unfold execHoldListRelease
  split <;> simp

@[simp] theorem execCalendarSlotDue_clock (t : TileIx) (fc : ClassIx) (src : Option Fid) (s : State) : KeepsClock s (execCalendarSlotDue t fc src s) := by
  unfold execCalendarSlotDue
  split <;> simp

@[simp] theorem egressTake_clock (s : State) (m : TMsg) : (s.egressTake m).1.clock = s.clock := by
  simp [State.egressTake]

@[simp] theorem takesAhead_clock (s : State) (m : TMsg) : (s.takesAhead m).clock = s.clock := by
  unfold State.takesAhead
  split <;> simp

@[simp] theorem mtrDrain_clock (s : State) (d : Nat) : (s.mtrDrain d).clock = s.clock := by
  simp [State.mtrDrain]

@[simp] theorem corePut_clock (s : State) (id : Nat) (o : Out) : (s.corePut id o).clock = s.clock := by
  unfold State.corePut
  dsimp only
  (repeat' split) <;> simp

@[simp] theorem collect_clock (s : State) : s.collect.clock = s.clock := by
  simp [State.collect]

@[simp] theorem mtrMove_clock (d : Nat) (r : MtrReq) (s : State) : (s.mtrMove d r).clock = s.clock := by
  simp [State.mtrMove]

@[simp] theorem mtrFill_clock (d src n room : Nat) (s : State) : (State.mtrFill d src n room s).clock = s.clock := by
  induction n generalizing room s with
  | zero => rfl
  | succ n ih =>
    unfold State.mtrFill
    dsimp only
    split <;> simp [ih]

@[simp] theorem mtrHeldBack_clock (s : State) (l : List MtrReq) : (s.mtrHeldBack l).clock = s.clock := by
  unfold State.mtrHeldBack
  refine clock_each (fun r t => ?_) _ _
  split
  · split
    · simp [clock_of_fst ‹_›]
    · rfl
  · rfl

@[simp] theorem kickSnoops_clock (s : State) : s.kickSnoops.clock = s.clock := by
  unfold State.kickSnoops
  refine clock_each (fun x t => ?_) _ _
  split <;> simp

@[simp] theorem execMortarBeatGrant_clock (d : StationIx) (s : State) : KeepsClock s (execMortarBeatGrant d s) := by
  unfold execMortarBeatGrant
  extract_lets s1 reqs hot off s1' fit0 fits s2 s3
  have h1 : s1'.clock = s.clock := by simp [s1', s1]
  have h2 : s2.clock = s1'.clock := by simp [s2]
  have h3 : s3.clock = s.clock := by simp [s3, h2, h1]
  clear_value s3
  split
  · simp [h3]
  · extract_lets n s4 s5 s6
    have h4 : s4.clock = s3.clock := by simp [s4]
    have h5 : s5.clock = s4.clock := by simp [s5]
    have h6 : s6.clock = s5.clock := by simp [s6]
    simp [h6, h5, h4, h3]

@[simp] theorem cutQueue_clock (s : State) (q : Nat) (l : List TMsg) : (s.cutQueue q l).clock = s.clock := by
  simp [State.cutQueue]

@[simp] theorem execSpillFetch_clock (p : PortIx) (c : ClassIx) (egress : Bool) (s : State) :
    KeepsClock s (execSpillFetch p c egress s) := by
  unfold execSpillFetch
  dsimp only
  (repeat' split) <;> simp

@[simp] theorem npOpen_clock (s : State) (p : Nat) (m : NetMsg) : (s.npOpen p m).clock = s.clock := by
  simp [State.npOpen]

theorem sendOne_clock {s t : State} {p : Nat} {m : TMsg} (h : s.sendOne p m = some t) : t.clock = s.clock := by
  unfold State.sendOne at h
  dsimp only at h
  split at h
  · cases h
  split at h
  · obtain ⟨u, hu, rfl⟩ := Option.map_eq_some_iff.mp h
    simp [linkSend_clock hu]
  split at h
  · cases h
    simp
  · cases h

@[simp] theorem drrServe_clock (s : State) (p c n : Nat) : (s.drrServe p c n).clock = s.clock := by
  induction n generalizing s with
  | zero => rfl
  | succ n ih =>
    unfold State.drrServe
    extract_lets q
    split
    · simp
    · extract_lets charge
      split
      · rfl
      split
      · rfl
      · simp [ih, sendOne_clock ‹_›]

@[simp] theorem execEgressDrrTurn_clock (p : PortIx) (credit : BitVec 8) (s : State) : KeepsClock s (execEgressDrrTurn p credit s) := by
  unfold execEgressDrrTurn
  extract_lets at0 order head ready
  clear_value ready
  split <;> simp

end Sys2Proof.Machine
end

section
namespace Sys2Proof.Machine

/-! ### The clock through Sys2Proof/Machine/Qos.lean -/

@[simp] theorem askMode_clock (s : State) (t flows : Nat) : (s.askMode t flows).clock = s.clock := by
  simp [State.askMode]

@[simp] theorem execOpQosFlowSet_clock (q : Req) (b : List Byte) (s : State) : KeepsClock s (execOpQosFlowSet q b s) := by
  simp [execOpQosFlowSet]

@[simp] theorem execOpQosFlowClear_clock (q : Req) (b : List Byte) (s : State) : KeepsClock s (execOpQosFlowClear q b s) := by
  simp [execOpQosFlowClear]

@[simp] theorem countFlows_clock (s : State) (t : Nat) : (s.countFlows t).clock = s.clock := by
  simp [State.countFlows]

@[simp] theorem execFlowChangeApply_clock (s : State) : KeepsClock s (execFlowChangeApply s) := by
  unfold execFlowChangeApply
  dsimp only
  (repeat' split) <;> simp

@[simp] theorem execTlQosCtlWrite_clock (t : TileIx) (v : Word) (s : State) : KeepsClock s (execTlQosCtlWrite t v s) := by
  refine ifPresent_clock _ _ _ _ ?_
  dsimp only
  split <;> simp

@[simp] theorem execQosModeChange_clock (t : TileIx) (s : State) : KeepsClock s (execQosModeChange t s) := by
  simp [execQosModeChange]

@[simp] theorem rsvFree_clock (s : State) : s.rsvFree.clock = s.clock := by
  simp [State.rsvFree]

@[simp] theorem execOpQosReserve_clock (q : Req) (b : List Byte) (s : State) : KeepsClock s (execOpQosReserve q b s) := by
  refine keepsClock_nalug_run fun t => ?_
  dsimp only
  (repeat' split) <;> simp

@[simp] theorem execOpQosRelease_clock (q : Req) (b : List Byte) (s : State) : KeepsClock s (execOpQosRelease q b s) := by
  refine keepsClock_nalug_run fun t => ?_
  split <;> simp

@[simp] theorem execOpQosTargetSet_clock (q : Req) (b : List Byte) (s : State) : KeepsClock s (execOpQosTargetSet q b s) := by
  simp [execOpQosTargetSet]

@[simp] theorem rateEdge_clock (s : State) : s.rateEdge.clock = s.clock := by
  simp [State.rateEdge]

@[simp] theorem execQosRescale_clock (tgt : Fin 4096) (s : State) : KeepsClock s (execQosRescale tgt s) := by
  simp [execQosRescale]

@[simp] theorem refillFlows_clock (s : State) : s.refillFlows.clock = s.clock := by
  simp [State.refillFlows]

end Sys2Proof.Machine
end

section
namespace Sys2Proof.Machine

/-! ### The clock through Sys2Proof/Machine/Rings.lean -/

@[simp] theorem inEng_clock (s : State) (f : EngS → EngS) : (s.inEng f).clock = s.clock := by
  simp [State.inEng]

@[simp] theorem setInst_clock (s : State) (i : Nat) (x : Inst) : (s.setInst i x).clock = s.clock := by
  simp [State.setInst]

@[simp] theorem setRing_clock (s : State) (i st err : Nat) : (s.setRing i st err).clock = s.clock := by
  simp [State.setRing]

@[simp] theorem latchShares_clock (s : State) : s.latchShares.clock = s.clock := by
  simp [State.latchShares]

@[simp] theorem execShareChange_clock (s : State) : KeepsClock s (execShareChange s) := by
  simp [execShareChange]

@[simp] theorem sendVec_clock (s : State) (i : Nat) : (s.sendVec i).clock = s.clock := by
  unfold State.sendVec
  split <;> simp

@[simp] theorem insSignal_clock (s : State) (i : Nat) : (s.insSignal i).clock = s.clock := by
  simp [State.insSignal]

@[simp] theorem execInsIrqCtlWrite_clock (i : InstIx) (v : Word) (s : State) : KeepsClock s (execInsIrqCtlWrite i v s) := by
  simp [execInsIrqCtlWrite]

@[simp] theorem publish_clock (s : State) (i : Nat) : (s.publish i).clock = s.clock := by
  simp [State.publish]

@[simp] theorem ringSettle_clock (s : State) (i : Nat) : (s.ringSettle i).clock = s.clock := by
  simp [State.ringSettle]

@[simp] theorem stopInst_clock (s : State) (i st : Nat) : (s.stopInst i st).clock = s.clock := by
  unfold State.stopInst
  dsimp only
  split <;> simp

@[simp] theorem wbFailed_clock (s : State) (i num : Nat) : (s.wbFailed i num).clock = s.clock := by
  simp [State.wbFailed]

@[simp] theorem freeEngine_clock (s : State) (i : Nat) : (s.freeEngine i).clock = s.clock := by
  unfold State.freeEngine
  dsimp only
  split <;> simp

@[simp] theorem ringError_clock (s : State) (i err : Nat) : (s.ringError i err).clock = s.clock := by
  simp [State.ringError]

@[simp] theorem execHeadPublish_clock (i : InstIx) (good : Bool) (s : State) : KeepsClock s (execHeadPublish i good s) := by
  simp [execHeadPublish]

theorem poolCheck_clock {s : State} {i addr len : Nat} {write : Bool} {x : Nat × Nat × (State → State)}
    (h : s.poolCheck i addr len write = some x) (t : State) : (x.2.2 t).clock = t.clock := by
  unfold State.poolCheck at h
  dsimp only at h
  split at h
  · cases h
    simp
  · obtain ⟨y, -, hy⟩ := List.exists_of_findSome?_eq_some h
    split at hy
    · cases hy
      simp
    · split at hy
      · cases hy
      split at hy
      · cases hy
        rfl
      split at hy
      · cases hy
        simp
      · cases hy

@[simp] theorem sendChecks_clock (s : State) (i space addr len : Nat) (write : Bool) : (s.sendChecks i space addr len write).clock = s.clock := by
  unfold State.sendChecks
  split
  · simp
  split
  · rfl
  · extract_lets l sl
    refine clock_each (fun n t => ?_) _ _
    dsimp only
    split <;> simp

theorem rangeCheck_clock {s : State} {i k space addr len : Nat} {write : Bool} {ext : List (Nat × Nat × Nat)} {x : Nat × Nat × (State → State)}
    (h : s.rangeCheck i k space addr len write ext = some x) (t : State) : (x.2.2 t).clock = t.clock := by
  unfold State.rangeCheck at h
  extract_lets out own at h
  have hown : ∀ a, own = some a → (a.2.2 t).clock = t.clock := by
    intro a ha
    by_cases hs : space = 0
    · exact poolCheck_clock (by simpa [own, hs] using ha) t
    · simp [own, hs] at ha
  clear_value own out
  split at h
  · split at h
    · cases h
      exact hown _ rfl
    · cases h
      rfl
  · cases h
    exact hown _ rfl
  · cases h
    rfl
  · cases h

@[simp] theorem execRingEnable_clock (i : InstIx) (ext : List (Nat × Nat × Nat)) (s : State) : KeepsClock s (execRingEnable i ext s) := by
  unfold execRingEnable
  split
  · simp
  extract_lets s1 len sp s2 s3 ring wb badForm hd ins
  have h1 : s1.clock = s.clock := by simp [s1]
  have h3 : s3.clock = s.clock := by simp [s3, s2, h1]
  have hring : ∀ a, ring = some a → (a.2.2 s3).clock = s.clock := by
    intro a ha
    obtain ⟨w, -, hw⟩ := List.exists_of_findSome?_eq_some ha
    exact (rangeCheck_clock hw s3).trans h3
  have hwb : ∀ a, wb = some a → (a.2.2 s3).clock = s.clock := by
    intro a ha
    by_cases hb : s.bit (insHeadWbCtl i) 31 = true
    · exact (rangeCheck_clock (by simpa [wb, hb] using ha) s3).trans h3
    · simp [wb, hb] at ha
  clear_value ring wb badForm ins s3
  split
  · simp [h1]
  split
  · simp [h3]
  · simp [hring _ rfl]
  · simp [hwb _ rfl]
  · simp [h3]

@[simp] theorem execRingDisable_clock (i : InstIx) (s : State) : KeepsClock s (execRingDisable i s) := by
  unfold execRingDisable
  dsimp only
  (repeat' split) <;> simp

@[simp] theorem execInsDoorbellWrite_clock (i : InstIx) (tail : Word) (s : State) : KeepsClock s (execInsDoorbellWrite i tail s) := by
  simp [execInsDoorbellWrite]

@[simp] theorem execRingUnitFetch_clock (i : InstIx) (data : Option (List Byte)) (s : State) :
    KeepsClock s (execRingUnitFetch i data s) := by
  unfold execRingUnitFetch
  split <;> simp

@[simp] theorem execRefetch_clock (i : InstIx) (s : State) : KeepsClock s (execRefetch i s) := by
  simp [execRefetch]

@[simp] theorem engData_clock (s : State) (i space addr : Nat) (b : List Byte) : (s.engData i space addr b).clock = s.clock := by
  unfold State.engData
  dsimp only
  (repeat' split) <;> simp

@[simp] theorem pmcEng_clock (s : State) (i ev n : Nat) : (s.pmcEng i ev n).clock = s.clock := by
  simp [State.pmcEng]

@[simp] theorem insCharge_clock (s : State) (i c : Nat) : (s.insCharge i c).clock = s.clock := by
  simp [State.insCharge]

@[simp] theorem walkTier_clock (s : State) (fuel : Nat) (l : List Nat) (room : Nat) (got : List Nat) :
    (s.walkTier fuel l room got).1.clock = s.clock := by
  induction fuel generalizing s l got with
  | zero => rfl
  | succ fuel ih =>
    cases l with
    | nil => rfl
    | cons i r => simp [State.walkTier, ih]

@[simp] theorem chooseInsts_clock (s : State) (c room : Nat) (skip : List Nat) : (s.chooseInsts c room skip).1.clock = s.clock := by
  unfold State.chooseInsts
  extract_lets ready tier
  have htier : ∀ t k l n, (tier t k l n).1.clock = t.clock := by
    intro t k l n
    simp only [tier]
    split <;> simp
  clear_value tier
  simp [htier]

@[simp] theorem beginStep_clock (s : State) (i : Nat) : (s.beginStep i).clock = s.clock := by
  unfold State.beginStep
  dsimp only
  split <;> simp

@[simp] theorem takeEngine_clock (s : State) (i e : Nat) : (s.takeEngine i e).clock = s.clock := by
  unfold State.takeEngine
  dsimp only
  split <;> simp

@[simp] theorem schedCluster_clock (s : State) (c : Nat) : (s.schedCluster c).clock = s.clock := by
  unfold State.schedCluster
  dsimp only
  refine (clock_each (fun e t => ?_) _ _).trans (by simp)
  cases t.servedBy e with
  | none => cases tget 0 t.eng.plan e <;> simp
  | some i => cases tget 0 (t.freeEngine i).eng.plan e <;> simp

@[simp] theorem boundary_clock (s : State) (i : Nat) : (s.boundary i).clock = s.clock := by
  unfold State.boundary
  dsimp only
  (repeat' split) <;> simp

@[simp] theorem refillInsts_clock (s : State) : s.refillInsts.clock = s.clock := by
  unfold State.refillInsts
  refine clock_each (fun i t => ?_) _ _
  dsimp only
  split <;> simp

@[simp] theorem execT2mSend_clock (i : InstIx) (s : State) : KeepsClock s (execT2mSend i s) := by
  simp [execT2mSend]

@[simp] theorem execT2mAck_clock (i : InstIx) (s : State) : KeepsClock s (execT2mAck i s) := by
  simp [execT2mAck]

@[simp] theorem execM2tSend_clock (i : InstIx) (s : State) : KeepsClock s (execM2tSend i s) := by
  simp [execM2tSend]

@[simp] theorem execM2tAck_clock (i : InstIx) (s : State) : KeepsClock s (execM2tAck i s) := by
  simp [execM2tAck]

@[simp] theorem putBytes_clock (s : State) (base off : Nat) (l : List Byte) : (s.putBytes base off l).clock = s.clock := by
  induction l generalizing s off with
  | nil => rfl
  | cons b r ih => simp [State.putBytes, ih]

@[simp] theorem execMailboxBufferWrite_clock (i : InstIx) (tenant m2t : Bool) (off : Fin 256) (b : List Byte) (s : State) : KeepsClock s (execMailboxBufferWrite i tenant m2t off b s) := by
  simp [execMailboxBufferWrite]

end Sys2Proof.Machine
end

section
namespace Sys2Proof.Machine

/-! ### The clock through Sys2Proof/Machine/Engines.lean -/

@[simp] theorem beginJob_clock (s : State) (i : Nat) (b : List Byte) (fin : Option (Nat × Nat)) : (s.beginJob i b fin).clock = s.clock := by
  unfold State.beginJob
  dsimp only
  split <;> simp

theorem opndCheck_clock {s : State} {i : Nat} {ops : List Opnd} {ext : List (Nat × Nat × Nat)} {x : Nat × Nat × Nat × (State → State)}
    (h : s.opndCheck i ops ext = some x) (t : State) : (x.2.2.2 t).clock = t.clock := by
  obtain ⟨o, -, ho⟩ := List.exists_of_findSome?_eq_some h
  obtain ⟨y, hy, rfl⟩ := Option.map_eq_some_iff.mp ho
  exact rangeCheck_clock hy t

@[simp] theorem checkOpnds_clock (s : State) (i : Nat) (ops : List Opnd) : (s.checkOpnds i ops).clock = s.clock := by
  simp [State.checkOpnds]

@[simp] theorem inJob_clock (s : State) (i : Nat) (f : Job → Job) : (s.inJob i f).clock = s.clock := by
  simp [State.inJob]

@[simp] theorem startEntry_clock (s : State) (i op : Nat) (chg : List Byte → Nat) (ops : List Byte → List Opnd) (ext : List (Nat × Nat × Nat))
    {go : State → List Byte → State} (bad : List Byte → Option Nat) (h : ∀ t b, (go t b).clock = t.clock) :
    (s.startEntry i op chg ops ext go bad).clock = s.clock := by
  unfold State.startEntry
  extract_lets x b o mine wrong c tp s1 ins s2 t
  have h1 : s1.clock = s.clock := by simp [s1]
  have h2 : s2.clock = s.clock := by simp [s2]
  have ht : t.clock = s.clock := by simp [t, h, h2]
  clear_value mine wrong ins s1 s2 t
  split
  · rfl
  split
  · rfl
  split
  · simp
  split
  · simp
  split
  · simp
  split
  · rfl
  split
  · simp [h1]
  split
  · simp [h2]
  · simp [h2]
  · simp [h2]
  · next hf => simp [opndCheck_clock hf s2, h2]
  · simp [ht]

@[simp] theorem execNop_clock (i : InstIx) (ext : List (Nat × Nat × Nat)) (s : State) : KeepsClock s (execNop i ext s) := by
  simp [execNop]

@[simp] theorem execCopy_clock (i : InstIx) (ext : List (Nat × Nat × Nat)) (s : State) : KeepsClock s (execCopy i ext s) := by
  simp [execCopy]

@[simp] theorem execFill_clock (i : InstIx) (ext : List (Nat × Nat × Nat)) (s : State) : KeepsClock s (execFill i ext s) := by
  simp [execFill]

@[simp] theorem execCompare_clock (i : InstIx) (ext : List (Nat × Nat × Nat)) (s : State) : KeepsClock s (execCompare i ext s) := by
  simp [execCompare]

@[simp] theorem execCrc32c_clock (i : InstIx) (ext : List (Nat × Nat × Nat)) (s : State) : KeepsClock s (execCrc32c i ext s) := by
  simp [execCrc32c]

@[simp] theorem execReduce_clock (i : InstIx) (ext : List (Nat × Nat × Nat)) (s : State) : KeepsClock s (execReduce i ext s) := by
  simp [execReduce]

@[simp] theorem execHamper_clock (i : InstIx) (rec : List Byte) (ext : List (Nat × Nat × Nat)) (s : State) : KeepsClock s (execHamper i rec ext s) := by
  unfold execHamper
  extract_lets len
  split
  · simp
  · refine (keepsClock_next _ _).mpr (startEntry_clock _ _ _ _ _ _ _ fun t b => ?_)
    extract_lets host v t0 t1 t2 x num t3 t4
    have h2 : t2.clock = t.clock := by simp [t2, t1, t0]
    have h4 : t4.clock = t2.clock := by
      cases h : x.eng <;> simp [t4, t3, h]
    simp [h4, h2]

@[simp] theorem writeBack_clock (s : State) (i pos st res : Nat) : (s.writeBack i pos st res).clock = s.clock := by
  simp [State.writeBack]

@[simp] theorem jobBack_clock (s : State) (i pos st res : Nat) : (s.jobBack i pos st res).clock = s.clock := by
  simp [State.jobBack]

@[simp] theorem entryDone_clock (s : State) (i num : Nat) : (s.entryDone i num).clock = s.clock := by
  simp [State.entryDone]

@[simp] theorem hamperWbFail_clock (s : State) (i : Nat) : (s.hamperWbFail i).clock = s.clock := by
  unfold State.hamperWbFail
  split <;> simp

@[simp] theorem execJobComplete_clock (i : InstIx) (good : Bool) (s : State) : KeepsClock s (execJobComplete i good s) := by
  unfold execJobComplete
  dsimp only
  (repeat' split) <;> simp

@[simp] theorem execHamperEntryOutcome_clock (i : InstIx) (s : State) : KeepsClock s (execHamperEntryOutcome i s) := by
  unfold execHamperEntryOutcome
  dsimp only
  (repeat' split) <;> simp

theorem stepWork_clock {s : State} {i : Nat} {j : Job} {rd : List (List Byte)} {part : Bool} {x : State × Job × Nat}
    (h : s.stepWork i j rd part = some x) : x.1.clock = s.clock := by
  unfold State.stepWork at h
  extract_lets b sz a n0 n hi last at h
  clear_value last
  split at h
  · split at h
    · cases h
    · cases h
      simp
  · split at h
    · cases h
      rfl
    · cases h
      simp
  · split at h
    · cases h
    split at h
    · cases h
      rfl
    · cases h
      rfl
  · split at h
    · cases h
    · cases h
      rfl
  · split at h
    · cases h
    split at h
    split at h
    · cases h
      simp
    · obtain e | e := (ite_eq_or_eq _ _ _).imp h.symm.trans h.symm.trans
      · cases e
        simp
      · cases e
        rfl
  · cases h

@[simp] theorem readsDone_clock (s : State) (i : Nat) (j : Job) : (s.readsDone i j).clock = s.clock := by
  simp [State.readsDone]

@[simp] theorem atsEnd_clock (s : State) (i : Nat) : (s.atsEnd i).clock = s.clock := by
  simp [State.atsEnd]

@[simp] theorem execJobStepBoundary_clock (i : InstIx) (rd : List (List Byte)) (bad : Option (Bool × Nat)) (s : State) : KeepsClock s (execJobStepBoundary i rd bad s) := by
  unfold execJobStepBoundary
  extract_lets x
  split
  · split
    · simp
    split
    · simp
    · next h =>
      have h1 : _ = s.clock := (stepWork_clock h).trans (readsDone_clock s _ _)
      simp only at h1
      simp [h1]
  · simp

@[simp] theorem execAtsInvalidation_clock (i : InstIx) (used : Bool) (s : State) : KeepsClock s (execAtsInvalidation i used s) := by
  unfold execAtsInvalidation
  dsimp only
  split <;> simp

@[simp] theorem openPage_clock (s : State) (i sl page : Nat) : (s.openPage i sl page).clock = s.clock := by
  simp [State.openPage]

@[simp] theorem execPageMove_clock (i : InstIx) (ext : List (Nat × Nat × Nat)) (s : State) : KeepsClock s (execPageMove i ext s) := by
  simp [execPageMove]

@[simp] theorem execPageMoveStepDone_clock (i : InstIx) (s : State) : KeepsClock s (execPageMoveStepDone i s) := by
  unfold execPageMoveStepDone
  dsimp only
  (repeat' split) <;> simp

@[simp] theorem insReset_clock (s : State) (i : Nat) : (s.insReset i).clock = s.clock := by
  unfold State.insReset
  dsimp only
  (repeat' split) <;> simp

@[simp] theorem execOpInsBind_clock (q : Req) (b : List Byte) (s : State) : KeepsClock s (execOpInsBind q b s) := by
  refine keepsClock_nalug_run fun t => ?_
  split <;> simp

@[simp] theorem execOpInsUnbind_clock (q : Req) (b : List Byte) (s : State) : KeepsClock s (execOpInsUnbind q b s) := by
  simp [execOpInsUnbind]

@[simp] theorem execOpInsSetRate_clock (q : Req) (b : List Byte) (s : State) : KeepsClock s (execOpInsSetRate q b s) := by
  simp [execOpInsSetRate]

@[simp] theorem execOpInsReset_clock (q : Req) (b : List Byte) (s : State) : KeepsClock s (execOpInsReset q b s) := by
  simp [execOpInsReset]

@[simp] theorem moveInsts_clock (s : State) (c : Nat) : (s.moveInsts c).clock = s.clock := by
  unfold State.moveInsts
  split
  · rfl
  · refine clock_each (fun i t => ?_) _ _
    split <;> simp

@[simp] theorem engineGone_clock (e : Nat) (s : State) : (s.engineGone e).clock = s.clock := by
  unfold State.engineGone
  split <;> simp

@[simp] theorem enginesNone_clock (s : State) : s.enginesNone.clock = s.clock := by
  simp [State.enginesNone]

@[simp] theorem enginesLost_clock (s : State) (es : List Nat) : (s.enginesLost es).clock = s.clock := by
  simp [State.enginesLost]

@[simp] theorem pageWrite_clock (s : State) (i : Nat) (tenant : Bool) (o : Nat) (w : Word) (ext : List (Nat × Nat × Nat)) : (s.pageWrite i tenant o w ext).clock = s.clock := by
  unfold State.pageWrite
  extract_lets ii get idle en keep sp s1 ins t1 t2 t3
  have hget : ∀ u r, u.clock = s.clock → KeepsClock u r → (get r).clock = s.clock := by
    intro u r hu hr
    cases r with
    | next t => exact (hr t rfl).trans hu
    | _ => rfl
  have h1 : s1.clock = s.clock := by simp [s1]
  have ht1 : t1.clock = s.clock := clock_of_ite (hget s _ rfl (execT2mSend_clock _ _)) rfl
  have ht2 : t2.clock = s.clock := by
    refine clock_of_ite ?_ ht1
    split
    · next h => exact (execT2mAck_clock _ _ _ h).trans ht1
    · exact ht1
  have ht3 : t3.clock = s.clock := by
    refine clock_of_ite ?_ ht2
    split
    · next h => exact (execM2tSend_clock _ _ _ h).trans ht2
    · exact ht2
  clear_value t1 t2 t3 s1 get ins
  refine clock_of_ite (hget s _ rfl (execInsDoorbellWrite_clock _ _ _)) (clock_of_ite (by simp) (clock_of_ite (by simp) ?_))
  refine clock_of_ite ?_ (clock_of_ite (by simp) (clock_of_ite (by simp) (clock_of_ite (by simp) (clock_of_ite (by simp) ?_))))
  · exact clock_of_ite (hget s1 _ h1 (execRingEnable_clock _ _ _)) (clock_of_ite (hget s1 _ h1 (execRingDisable_clock _ _)) h1)
  refine clock_of_ite (hget s _ rfl (execInsIrqCtlWrite_clock _ _ _)) (clock_of_ite ?_ ?_)
  · refine clock_of_ite ?_ ht3
    split
    · next h => exact (execM2tAck_clock _ _ _ h).trans ht3
    · exact ht3
  · exact clock_of_ite (hget s _ rfl (execMailboxBufferWrite_clock _ _ _ _ _ _))
      (clock_of_ite (hget s _ rfl (execMailboxBufferWrite_clock _ _ _ _ _ _)) rfl)

@[simp] theorem execInstanceWindowAccess_clock (v : VcsIx) (i : InstIx) (off : Fin 4096) (wr : Option (List Byte)) (n : Nat) (ext : List (Nat × Nat × Nat)) (s : State) :
    KeepsClock s (execInstanceWindowAccess v i off wr n ext s) := by
  unfold execInstanceWindowAccess
  dsimp only
  (repeat' split) <;> simp

@[simp] theorem execCheck_clock (fid : Fid) (tag : Word) (slice : SliceIx) (off : BitVec 22) (rights : BitVec 2) (len : BitVec 64) (s : State) :
    KeepsClock s (execCheck fid tag slice off rights len s) := by
  unfold execCheck
  dsimp only
  (repeat' split) <;> simp

end Sys2Proof.Machine
end

section
namespace Sys2Proof.Machine

/-! ### The clock through Sys2Proof/Machine/LinkDown.lean -/

@[simp] theorem setLn_clock (s : State) (p l st : Nat) : (s.setLn p l st).clock = s.clock := by
  simp [State.setLn]

@[simp] theorem demotePort_clock (s : State) (p : Nat) : (s.demotePort p).clock = s.clock := by
  simp [State.demotePort]

@[simp] theorem rerouteQueues_clock (s : State) (p : Nat) : (s.rerouteQueues p).clock = s.clock := by
  unfold State.rerouteQueues
  refine clock_each (fun c t => ?_) _ _
  extract_lets q go t1 t2
  have hgo : ∀ m y stay, stay.clock = y.clock → (go m y stay).clock = y.clock := by
    intro m y stay hs
    simp only [go]
    split
    · split
      · simp
      split
      · simp [clock_of_fst ‹_›]
      · exact hs
    · simp
  have h1 : t1.clock = t.clock :=
    clock_each (fun m y => (hgo _ _ _ (by simp)).trans (by simp)) _ _
  have h2 : t2.clock = t1.clock :=
    clock_each (fun x y => (hgo _ _ _ (by simp)).trans (by simp)) _ _
  simp [h2, h1]

@[simp] theorem errCount_clock (s : State) (p n : Nat) : (s.errCount p n).clock = s.clock := by
  simp [State.errCount]

@[simp] theorem fallback_clock (s : State) (p : Nat) : (s.fallback p).clock = s.clock := by
  simp [State.fallback]

@[simp] theorem setLane_clock (s : State) (p l : Nat) (x : LaneS) : (s.setLane p l x).clock = s.clock := by
  simp [State.setLane]

@[simp] theorem laneOff_clock (s : State) (p l : Nat) : (s.laneOff p l).clock = s.clock := by
  simp [State.laneOff]

@[simp] theorem lanesOff_clock (s : State) (p : Nat) : (s.lanesOff p).clock = s.clock := by
  simp [State.lanesOff]

@[simp] theorem linkDown_clock (s : State) (p cause : Nat) : (s.linkDown p cause).clock = s.clock := by
  simp [State.linkDown]

@[simp] theorem spareFlit_clock (s : State) (p op lane : Nat) (rot : Bool) (cw : Nat × Nat) :
    (s.spareFlit p op lane rot cw).clock = s.clock := by
  simp [State.spareFlit]

@[simp] theorem setSpare_clock (s : State) (p st lane : Nat) : (s.setSpare p st lane).clock = s.clock := by
  simp [State.setSpare]

@[simp] theorem spareBegin_clock (s : State) (p lane : Nat) (rot : Bool) : (s.spareBegin p lane rot).clock = s.clock := by
  simp [State.spareBegin]

@[simp] theorem noSpare_clock (s : State) (p : Nat) (failed : Bool) : (s.noSpare p failed).clock = s.clock := by
  simp [State.noSpare]

@[simp] theorem replaceLane_clock (s : State) (p lane : Nat) (failed : Bool) : (s.replaceLane p lane failed).clock = s.clock := by
  simp [State.replaceLane]

end Sys2Proof.Machine
end

section
namespace Sys2Proof.Machine

/-! ### The clock through Sys2Proof/Machine/Lanes.lean -/

@[simp] theorem sendTrain_clock (s : State) (p l : Nat) : (s.sendTrain p l).clock = s.clock := by
  simp [State.sendTrain]

@[simp] theorem laneTo_clock (s : State) (p l st : Nat) : (s.laneTo p l st).clock = s.clock := by
  simp [State.laneTo]

@[simp] theorem checkLanes_clock (s : State) (p : Nat) : (s.checkLanes p).clock = s.clock := by
  simp [State.checkLanes]

@[simp] theorem laneFail_clock (s : State) (p l cause : Nat) : (s.laneFail p l cause).clock = s.clock := by
  simp [State.laneFail]

@[simp] theorem execLaneReceiverDetected_clock (p : PortIx) (l : LaneIx) (s : State) : KeepsClock s (execLaneReceiverDetected p l s) := by
  simp [execLaneReceiverDetected]

@[simp] theorem execLaneDetectTimeout_clock (p : PortIx) (l : LaneIx) (s : State) : KeepsClock s (execLaneDetectTimeout p l s) := by
  simp [execLaneDetectTimeout]

@[simp] theorem sweepStart_clock (s : State) (p l : Nat) : (s.sweepStart p l).clock = s.clock := by
  simp [State.sweepStart]

@[simp] theorem execLanePatternFound_clock (p : PortIx) (l : LaneIx) (inv : Bool) (blocks : List Word) (s : State) :
    KeepsClock s (execLanePatternFound p l inv blocks s) := by
  simp [execLanePatternFound]

@[simp] theorem execLaneIdentTimeout_clock (p : PortIx) (l : LaneIx) (s : State) : KeepsClock s (execLaneIdentTimeout p l s) := by
  simp [execLaneIdentTimeout]

@[simp] theorem laneNext_clock (s : State) (p l st : Nat) : (s.laneNext p l st).clock = s.clock := by
  simp [State.laneNext]

@[simp] theorem execLaneSweepDwellEnd_clock (p : PortIx) (l : LaneIx) (height : Byte) (s : State) :
    KeepsClock s (execLaneSweepDwellEnd p l height s) := by
  simp [execLaneSweepDwellEnd]

@[simp] theorem execLaneDfeSettled_clock (p : PortIx) (l : LaneIx) (settled : Bool) (d0 d1 : Word) (s : State) :
    KeepsClock s (execLaneDfeSettled p l settled d0 d1 s) := by
  simp [execLaneDfeSettled]

@[simp] theorem laneLock_clock (s : State) (p l : Nat) : (s.laneLock p l).clock = s.clock := by
  simp [State.laneLock]

@[simp] theorem execLaneCheckPass_clock (p : PortIx) (l : LaneIx) (heights : List Byte) (s : State) :
    KeepsClock s (execLaneCheckPass p l heights s) := by
  simp [execLaneCheckPass]

@[simp] theorem execLaneCheckTimeout_clock (p : PortIx) (l : LaneIx) (s : State) : KeepsClock s (execLaneCheckTimeout p l s) := by
  simp [execLaneCheckTimeout]

@[simp] theorem execLaneStandbyEnter_clock (p : PortIx) (l : LaneIx) (s : State) : KeepsClock s (execLaneStandbyEnter p l s) := by
  simp [execLaneStandbyEnter]

@[simp] theorem relockStart_clock (s : State) (p l : Nat) : (s.relockStart p l).clock = s.clock := by
  simp [State.relockStart]

@[simp] theorem execLaneRelockRequest_clock (p : PortIx) (l : LaneIx) (s : State) : KeepsClock s (execLaneRelockRequest p l s) := by
  simp [execLaneRelockRequest]

@[simp] theorem execLaneRelockDone_clock (p : PortIx) (l : LaneIx) (s : State) : KeepsClock s (execLaneRelockDone p l s) := by
  unfold execLaneRelockDone
  dsimp only
  (repeat' split) <;> simp

@[simp] theorem laneEv_clock (s : State) (p l cause : Nat) : (s.laneEv p l cause).clock = s.clock := by
  simp [State.laneEv]

@[simp] theorem execLaneRelockTimeout_clock (p : PortIx) (l : LaneIx) (s : State) : KeepsClock s (execLaneRelockTimeout p l s) := by
  simp [execLaneRelockTimeout]

@[simp] theorem cxRecover_clock (s : State) (p : Nat) : (s.cxRecover p).clock = s.clock := by
  simp [State.cxRecover]

@[simp] theorem fabLaneLost_clock (s : State) (p l : Nat) : (s.fabLaneLost p l).clock = s.clock := by
  unfold State.fabLaneLost
  dsimp only
  (repeat' split) <;> simp

@[simp] theorem laneFault_clock (s : State) (p l cause : Nat) : (s.laneFault p l cause).clock = s.clock := by
  simp [State.laneFault]

@[simp] theorem execLaneLossOfSignal_clock (p : PortIx) (l : LaneIx) (s : State) : KeepsClock s (execLaneLossOfSignal p l s) := by
  simp [execLaneLossOfSignal]

@[simp] theorem execLaneCdrLoss_clock (p : PortIx) (l : LaneIx) (s : State) : KeepsClock s (execLaneCdrLoss p l s) := by
  simp [execLaneCdrLoss]

@[simp] theorem eyeEv_clock (s : State) (p l h : Nat) : (s.eyeEv p l h).clock = s.clock := by
  simp [State.eyeEv]

@[simp] theorem execEyeMeasurement_clock (p : PortIx) (l : LaneIx) (height width : Byte) (s : State) :
    KeepsClock s (execEyeMeasurement p l height width s) := by
  simp [execEyeMeasurement]

@[simp] theorem execPeakingTrackStep_clock (p : PortIx) (l : LaneIx) (up : Option Bool) (s : State) :
    KeepsClock s (execPeakingTrackStep p l up s) := by
  simp [execPeakingTrackStep]

@[simp] theorem genOn_clock (s : State) (p l : Nat) (v : Word) : (s.genOn p l v).clock = s.clock := by
  simp [State.genOn]

@[simp] theorem lnTestWrite_clock (s : State) (p l : Nat) (v : Word) : (s.lnTestWrite p l v).clock = s.clock := by
  simp [State.lnTestWrite]

@[simp] theorem endTests_clock (s : State) (p : Nat) : (s.endTests p).clock = s.clock := by
  simp [State.endTests]

@[simp] theorem ifLane_clock (s : State) (p l off : Nat) {act : State → Res} (h : KeepsClock s (act s)) : KeepsClock s (s.ifLane p l off act) :=
  ifPresent_clock _ _ _ _ (ifPresent_clock _ _ _ _ h)

@[simp] theorem execLnTestCtlGenEn_clock (p : PortIx) (l : LaneIx) (v : Word) (s : State) : KeepsClock s (execLnTestCtlGenEn p l v s) := by
  simp [execLnTestCtlGenEn]

@[simp] theorem execLnTestCtlChkEn_clock (p : PortIx) (l : LaneIx) (v : Word) (s : State) : KeepsClock s (execLnTestCtlChkEn p l v s) := by
  simp [execLnTestCtlChkEn]

@[simp] theorem execLnTestCtlInjOne_clock (p : PortIx) (l : LaneIx) (v : Word) (s : State) :
    KeepsClock s (execLnTestCtlInjOne p l v s) := by
  simp [execLnTestCtlInjOne]

@[simp] theorem execCheckerSync_clock (p : PortIx) (l : LaneIx) (reg : BitVec 31) (s : State) :
    KeepsClock s (execCheckerSync p l reg s) := by
  simp [execCheckerSync]

@[simp] theorem checked_clock (s : State) (p l n wrong : Nat) : (s.checked p l n wrong).clock = s.clock := by
  simp [State.checked]

@[simp] theorem execCheckerSyncLost_clock (p : PortIx) (l : LaneIx) (n wrong : Nat) (s : State) :
    KeepsClock s (execCheckerSyncLost p l n wrong s) := by
  simp [execCheckerSyncLost]

@[simp] theorem execLnMarginCtlGo_clock (p : PortIx) (l : LaneIx) (v : Word) (s : State) : KeepsClock s (execLnMarginCtlGo p l v s) := by
  simp [execLnMarginCtlGo]

@[simp] theorem execMarginDone_clock (p : PortIx) (l : LaneIx) (errors : Nat) (s : State) : KeepsClock s (execMarginDone p l errors s) := by
  simp [execMarginDone]

@[simp] theorem execPcieMarginingCommand_clock (p : PortIx) (l : LaneIx) (run : Bool) (s : State) :
    KeepsClock s (execPcieMarginingCommand p l run s) := by
  simp [execPcieMarginingCommand]

end Sys2Proof.Machine
end

section
namespace Sys2Proof.Machine

/-! ### The clock through Sys2Proof/Machine/Links.lean -/

@[simp] theorem flTo_clock (s : State) (p st : Nat) : (s.flTo p st).clock = s.clock := by
  simp [State.flTo]

@[simp] theorem bringup_clock (s : State) (p : Nat) : (s.bringup p).clock = s.clock := by
  simp [State.bringup]

@[simp] theorem execLinkBringupStart_clock (p : PortIx) (s : State) : KeepsClock s (execLinkBringupStart p s) := by
  simp [execLinkBringupStart]

@[simp] theorem flEnWrite_clock (s : State) (p : Nat) (v : Bool) : (s.flEnWrite p v).clock = s.clock := by
  simp [State.flEnWrite]

@[simp] theorem execPtFlCtlEnWrite_clock (p : PortIx) (v : Bool) (s : State) : KeepsClock s (execPtFlCtlEnWrite p v s) :=
  ifPresent_clock _ _ _ _ (by simp)

@[simp] theorem flRateWrite_clock (s : State) (p v : Nat) : (s.flRateWrite p v).clock = s.clock := by
  simp [State.flRateWrite]

@[simp] theorem execPtFlCtlRateWrite_clock (p : PortIx) (v : BitVec 2) (s : State) : KeepsClock s (execPtFlCtlRateWrite p v s) :=
  ifPresent_clock _ _ _ _ (by simp)

@[simp] theorem txStart_clock (s : State) (p : Nat) : (s.txStart p).clock = s.clock := by
  simp [State.txStart]

@[simp] theorem execLanesLocked_clock (p : PortIx) (s : State) : KeepsClock s (execLanesLocked p s) := by
  simp [execLanesLocked]

@[simp] theorem execLaneAssignment_clock (p : PortIx) (b1 b2 : Word) (s : State) : KeepsClock s (execLaneAssignment p b1 b2 s) := by
  simp [execLaneAssignment]

@[simp] theorem sendInit_clock (s : State) (p : Nat) (resume : Bool) : (s.sendInit p resume).clock = s.clock := by
  simp [State.sendInit]

@[simp] theorem execAlignDone_clock (p : PortIx) (m : List LaneIx) (s : State) : KeepsClock s (execAlignDone p m s) := by
  simp [execAlignDone]

@[simp] theorem creditsInit_clock (s : State) (p : Nat) (i : InitMsg) : (s.creditsInit p i).clock = s.clock := by
  simp [State.creditsInit]

@[simp] theorem execInitReceive_clock (p : PortIx) (i : InitMsg) (s : State) : KeepsClock s (execInitReceive p i s) := by
  simp [execInitReceive]

@[simp] theorem execLinkTrainTimeout_clock (p : PortIx) (s : State) : KeepsClock s (execLinkTrainTimeout p s) := by
  simp [execLinkTrainTimeout]

@[simp] theorem execLinkTrainRetry_clock (p : PortIx) (s : State) : KeepsClock s (execLinkTrainRetry p s) := by
  simp [execLinkTrainRetry]

@[simp] theorem execDownFlitReceive_clock (p : PortIx) (cause : Byte) (s : State) : KeepsClock s (execDownFlitReceive p cause s) := by
  simp [execDownFlitReceive]

@[simp] theorem execMarkersMissed_clock (p : PortIx) (s : State) : KeepsClock s (execMarkersMissed p s) := by
  simp [execMarkersMissed]

@[simp] theorem execLinkErrorLimit_clock (p : PortIx) (s : State) : KeepsClock s (execLinkErrorLimit p s) := by
  simp [execLinkErrorLimit]

@[simp] theorem replayAll_clock (s : State) (p : Nat) : (s.replayAll p).clock = s.clock := by
  simp [State.replayAll]

@[simp] theorem gap_clock (s : State) (p : Nat) : (s.gap p).clock = s.clock := by
  simp [State.gap]

@[simp] theorem badFlit_clock (s : State) (p : Nat) : (s.badFlit p).clock = s.clock := by
  simp [State.badFlit]

@[simp] theorem ackTake_clock (s : State) (p a : Nat) : (s.ackTake p a).clock = s.clock := by
  simp [State.ackTake]

@[simp] theorem msgIn_clock (s : State) (p : Nat) (b : List Byte) : (s.msgIn p b).clock = s.clock := by
  simp [State.msgIn]

@[simp] theorem unpack_clock (s : State) (p n : Nat) (b : List Byte) : (s.unpack p n b).1.clock = s.clock := by
  induction n generalizing s b with
  | zero => rfl
  | succ n ih => simp [State.unpack, ih]

@[simp] theorem payload_clock (s : State) (p start : Nat) (pay : List Byte) : (s.payload p start pay).clock = s.clock := by
  simp [State.payload]

@[simp] theorem corrected_clock (s : State) (p : Nat) (corr : List Nat) : (s.corrected p corr).clock = s.clock := by
  simp [State.corrected]

@[simp] theorem execFlitReceive_clock (p : PortIx) (cwOk : Bool) (cw : BitVec 20) (corr : List Nat) (b : List Byte) (s : State) :
    KeepsClock s (execFlitReceive p cwOk cw corr b s) := by
  simp [execFlitReceive]

@[simp] theorem execReplayTimerExpiry_clock (p : PortIx) (s : State) : KeepsClock s (execReplayTimerExpiry p s) := by
  simp [execReplayTimerExpiry]

@[simp] theorem execNakRepeatTimer_clock (p : PortIx) (s : State) : KeepsClock s (execNakRepeatTimer p s) := by
  simp [execNakRepeatTimer]

@[simp] theorem execLinkMessageSend_clock (p : PortIx) (cls : ClassIx) (len : Nat) (s : State) : KeepsClock s (execLinkMessageSend p cls len s) := by
  unfold execLinkMessageSend
  dsimp only
  rw [keepsClock_next]
  generalize hr : State.linkSend _ _ _ _ = r
  cases r with
  | none => rfl
  | some t => exact (linkSend_clock hr).trans (by simp [State.draw])

@[simp] theorem execCreditFlitReceive_clock (p : PortIx) (totals : List (BitVec 16)) (s : State) :
    KeepsClock s (execCreditFlitReceive p totals s) := by
  simp [execCreditFlitReceive]

@[simp] theorem execCreditFlitSend_clock (p : PortIx) (s : State) : KeepsClock s (execCreditFlitSend p s) := by
  simp [execCreditFlitSend]

@[simp] theorem execDelayReqSend_clock (p : PortIx) (cyc : BitVec 12) (sx : BitVec 4) (s : State) :
    KeepsClock s (execDelayReqSend p cyc sx s) := by
  simp [execDelayReqSend]

@[simp] theorem execDelayReqReceive_clock (p : PortIx) (t1 : BitVec 64) (id : Word) (cyc2 : BitVec 12) (sx2 : BitVec 4) (cyc3 : BitVec 12) (sx3 : BitVec 4) (s : State) :
    KeepsClock s (execDelayReqReceive p t1 id cyc2 sx2 cyc3 sx3 s) := by
  simp [execDelayReqReceive]

@[simp] theorem execDelayRspReceive_clock (p : PortIx) (t1 t2 t3 : BitVec 64) (id : Word) (cyc : BitVec 12) (sx : BitVec 4) (s : State) :
    KeepsClock s (execDelayRspReceive p t1 t2 t3 id cyc sx s) := by
  simp [execDelayRspReceive]

@[simp] theorem execLaneCeThreshold_clock (p : PortIx) (g : Fin 4) (s : State) : KeepsClock s (execLaneCeThreshold p g s) := by
  simp [execLaneCeThreshold]

@[simp] theorem execSpareReqReceive_clock (p : PortIx) (g : Fin 4) (rot : Bool) (s : State) :
    KeepsClock s (execSpareReqReceive p g rot s) := by
  simp [execSpareReqReceive]

@[simp] theorem execSpareReadyReceive_clock (p : PortIx) (g : Fin 4) (s : State) : KeepsClock s (execSpareReadyReceive p g s) := by
  unfold execSpareReadyReceive
  dsimp only
  (repeat' split) <;> simp

@[simp] theorem execSpareRepeatTimer_clock (p : PortIx) (s : State) : KeepsClock s (execSpareRepeatTimer p s) := by
  simp [execSpareRepeatTimer]

@[simp] theorem execSpareDwellEnd_clock (p : PortIx) (period : BitVec 16) (cw : Byte) (s : State) :
    KeepsClock s (execSpareDwellEnd p period cw s) := by
  unfold execSpareDwellEnd
  dsimp only
  split <;> simp

@[simp] theorem spareDone_clock (s : State) (p : Nat) : (s.spareDone p).clock = s.clock := by
  unfold State.spareDone
  dsimp only
  split <;> simp

@[simp] theorem execSpareSwitchPoint_clock (p : PortIx) (s : State) : KeepsClock s (execSpareSwitchPoint p s) := by
  unfold execSpareSwitchPoint
  dsimp only
  (repeat' split) <;> simp

@[simp] theorem execSpareSwitchReceive_clock (p : PortIx) (period : BitVec 16) (cw : Byte) (s : State) :
    KeepsClock s (execSpareSwitchReceive p period cw s) := by
  simp [execSpareSwitchReceive]

@[simp] theorem execSpareDoneReceive_clock (p : PortIx) (s : State) : KeepsClock s (execSpareDoneReceive p s) := by
  simp [execSpareDoneReceive]

@[simp] theorem execSpareAbortReceive_clock (p : PortIx) (s : State) : KeepsClock s (execSpareAbortReceive p s) := by
  simp [execSpareAbortReceive]

@[simp] theorem execSpareBackReceive_clock (p : PortIx) (s : State) : KeepsClock s (execSpareBackReceive p s) := by
  simp [execSpareBackReceive]

@[simp] theorem execSpareLockTimeout_clock (p : PortIx) (s : State) : KeepsClock s (execSpareLockTimeout p s) := by
  simp [execSpareLockTimeout]

@[simp] theorem execRotationInterval_clock (p : PortIx) (s : State) : KeepsClock s (execRotationInterval p s) := by
  simp [execRotationInterval]

@[simp] theorem execRecalibrationDone_clock (p : PortIx) (period : BitVec 16) (cw : Byte) (s : State) :
    KeepsClock s (execRecalibrationDone p period cw s) := by
  simp [execRecalibrationDone]

@[simp] theorem execQuietEnter_clock (p : PortIx) (s : State) : KeepsClock s (execQuietEnter p s) := by
  simp [execQuietEnter]

@[simp] theorem pwrFlit_clock (s : State) (p op : Nat) : (s.pwrFlit p op).clock = s.clock := by
  simp [State.pwrFlit]

@[simp] theorem execSleepIdleTimer_clock (p : PortIx) (s : State) : KeepsClock s (execSleepIdleTimer p s) := by
  simp [execSleepIdleTimer]

@[simp] theorem sleepAnswer_clock (s : State) (p : Nat) : (s.sleepAnswer p).clock = s.clock := by
  simp [State.sleepAnswer]

@[simp] theorem execSleepReqReceive_clock (p : PortIx) (s : State) : KeepsClock s (execSleepReqReceive p s) := by
  simp [execSleepReqReceive]

@[simp] theorem sleepExit_clock (s : State) (p : Nat) : (s.sleepExit p).clock = s.clock := by
  simp [State.sleepExit]

@[simp] theorem sleepEnter_clock (s : State) (p : Nat) (latch : Bool) : (s.sleepEnter p latch).clock = s.clock := by
  simp [State.sleepEnter]

@[simp] theorem execSleepAckReceive_clock (p : PortIx) (s : State) : KeepsClock s (execSleepAckReceive p s) := by
  simp [execSleepAckReceive]

@[simp] theorem execSleepNakReceive_clock (p : PortIx) (s : State) : KeepsClock s (execSleepNakReceive p s) := by
  simp [execSleepNakReceive]

@[simp] theorem execSleepCancelReceive_clock (p : PortIx) (s : State) : KeepsClock s (execSleepCancelReceive p s) := by
  simp [execSleepCancelReceive]

@[simp] theorem execWakeReceive_clock (p : PortIx) (s : State) : KeepsClock s (execWakeReceive p s) := by
  simp [execWakeReceive]

@[simp] theorem execSleepWakeEvent_clock (p : PortIx) (s : State) : KeepsClock s (execSleepWakeEvent p s) := by
  simp [execSleepWakeEvent]

@[simp] theorem execSleepResponderTimeout_clock (p : PortIx) (s : State) : KeepsClock s (execSleepResponderTimeout p s) := by
  simp [execSleepResponderTimeout]

@[simp] theorem execRxElectricalIdleDetect_clock (p : PortIx) (s : State) : KeepsClock s (execRxElectricalIdleDetect p s) := by
  simp [execRxElectricalIdleDetect]

@[simp] theorem execSleepExitDone_clock (p : PortIx) (ok : Bool) (s : State) : KeepsClock s (execSleepExitDone p ok s) := by
  simp [execSleepExitDone]

theorem resState_clock {r : Res} {s t : State} (hr : KeepsClock t r) (h : t.clock = s.clock) : (resState r s).clock = s.clock := by
  cases r with
  | next u => exact (hr u rfl).trans h
  | _ => rfl

@[simp] theorem fabTake_clock (s : State) (p : Nat) (type : MsgType) (h : FHdr) (bytes : Nat) (body : List Byte) (expect : Bool) (unit : StationIx)
    (edge : Bool) {here : Bool → State → State} (hh : ∀ y t, (here y t).clock = t.clock) :
    (s.fabTake p type h bytes body expect unit edge here).clock = s.clock := by
  unfold State.fabTake
  extract_lets t lim m s0 s1 fc charge f holds
  have h1 : s1.clock = s.clock := by simp [s1]
  clear_value s1
  split
  · rfl
  split
  · simp [h1]
  split
  · simp [h1]
  split
  · simp [h1]
  split
  refine clock_of_ite (by simp [h1]) (clock_of_ite (by simp [h1]) (clock_of_ite (by simp [h1]) ?_))
  exact (hh _ _).trans (by simp [h1])

@[simp] theorem execCreqReceive_clock (p : PortIx) (h : FHdr) (hev : Fin 9) (rights : BitVec 2) (slice : SliceIx) (off : BitVec 22) (mask : BitVec 64) (data : Line) (s : State) : KeepsClock s (execCreqReceive p h hev rights slice off mask data s) := by
  unfold execCreqReceive
  dsimp only
  split
  · simp
  · refine (keepsClock_next _ _).mpr (fabTake_clock _ _ _ _ _ _ _ _ _ fun y t => ?_)
    split
    · simp
    · simp
    · simp
    · simp
    · exact resState_clock (execHomeWb_clock _ _) rfl
    · simp
    · simp
    · exact resState_clock (execCheck_clock _ _ _ _ _ _ _) rfl

@[simp] theorem execCrspReceive_clock (p : PortIx) (h : FHdr) (status : Fin 5) (reason : Fin 6) (grant : Fin 4) (data : Option Line) (s : State) : KeepsClock s (execCrspReceive p h status reason grant data s) := by
  refine (keepsClock_next _ _).mpr (fabTake_clock _ _ _ _ _ _ _ _ _ fun y t => ?_)
  split
  · rfl
  · dsimp only
    split <;> simp

@[simp] theorem execSnpReceive_clock (p : PortIx) (h : FHdr) (kind : Fin 4) (slice : SliceIx) (off : BitVec 22) (home : Fid) (s : State) : KeepsClock s (execSnpReceive p h kind slice off home s) := by
  unfold execSnpReceive
  dsimp only
  split
  · simp
  · refine (keepsClock_next _ _).mpr (fabTake_clock _ _ _ _ _ _ _ _ _ fun y t => ?_)
    split <;> simp [State.draw]

@[simp] theorem execSnprspReceive_clock (p : PortIx) (h : FHdr) (rsp : Fin 4) (data : Line) (s : State) : KeepsClock s (execSnprspReceive p h rsp data s) := by
  refine (keepsClock_next _ _).mpr (fabTake_clock _ _ _ _ _ _ _ _ _ fun y t => ?_)
  split
  · rfl
  · exact resState_clock (execSnoopResponse_clock _ _ _) rfl

@[simp] theorem execIoMessageReceive_clock (p : PortIx) (h : FHdr) (bytes : Nat) (expect : Bool) (unit : StationIx) (s : State) :
    KeepsClock s (execIoMessageReceive p h bytes expect unit s) := by
  simp [execIoMessageReceive]

@[simp] theorem execMctpMessageReceive_clock (p : PortIx) (h : FHdr) (bytes : Nat) (s : State) :
    KeepsClock s (execMctpMessageReceive p h bytes s) := by
  simp [execMctpMessageReceive]

@[simp] theorem execRemoteRequestTimeout_clock (tag : Word) (s : State) : KeepsClock s (execRemoteRequestTimeout tag s) := by
  unfold execRemoteRequestTimeout
  dsimp only
  (repeat' split) <;> simp

end Sys2Proof.Machine
end

section
namespace Sys2Proof.Machine

/-! ### The clock through Sys2Proof/Machine/Cxl.lean -/

@[simp] theorem setHp_clock (s : State) (p st : Nat) : (s.setHp p st).clock = s.clock := by
  simp [State.setHp]

@[simp] theorem setPwrInd_clock (s : State) (p v : Nat) : (s.setPwrInd p v).clock = s.clock := by
  simp [State.setPwrInd]

@[simp] theorem setAttnInd_clock (s : State) (p v : Nat) : (s.setAttnInd p v).clock = s.clock := by
  simp [State.setAttnInd]

@[simp] theorem cxLaneUp_clock (s : State) (p l rate : Nat) : (s.cxLaneUp p l rate).clock = s.clock := by
  simp [State.cxLaneUp]

@[simp] theorem cxLanesUp_clock (s : State) (p width rate : Nat) (rev : Bool) : (s.cxLanesUp p width rate rev).clock = s.clock := by
  simp [State.cxLanesUp]

@[simp] theorem cxLanesOff_clock (s : State) (p : Nat) : (s.cxLanesOff p).clock = s.clock := by
  simp [State.cxLanesOff]

@[simp] theorem cxTrain_clock (s : State) (p : Nat) : (s.cxTrain p).clock = s.clock := by
  simp [State.cxTrain]

@[simp] theorem hostJobs_clock (s : State) (f : Nat) : (s.hostJobs f).clock = s.clock := by
  simp [State.hostJobs]

@[simp] theorem vppbGone_clock (s : State) (p : Nat) : (s.vppbGone p).clock = s.clock := by
  unfold State.vppbGone
  split <;> simp

@[simp] theorem agentsGone_clock (s : State) (p type lds : Nat) : (s.agentsGone p type lds).clock = s.clock := by
  unfold State.agentsGone
  extract_lets s1 s2
  have h1 : s1.clock = s.clock := by simp [s1]
  have h2 : s2.clock = s1.clock := by cases h : s1.edgeFid p 0 <;> simp [s2, h]
  clear_value s2 s1
  split
  · simp [h2, h1]
  · split <;> simp [h1]
  · split <;> simp [h1]
  · refine (clock_each (fun ld t => ?_) _ _).trans h1
    split <;> simp
  · refine (clock_each (fun ld t => ?_) _ _).trans h1
    split <;> simp
  · split <;> simp [h1]

@[simp] theorem contain_clock (s : State) (p : Nat) (aged : Bool) : (s.contain p aged).clock = s.clock := by
  simp [State.contain]

@[simp] theorem hpGone_clock (s : State) (p : Nat) : (s.hpGone p).clock = s.clock := by
  simp [State.hpGone]

@[simp] theorem mgmtFnLost_clock (s : State) (p : Nat) : (s.mgmtFnLost p).clock = s.clock := by
  simp [State.mgmtFnLost]

@[simp] theorem cxDown_clock (s : State) (p cause : Nat) : (s.cxDown p cause).clock = s.clock := by
  simp [State.cxDown]

@[simp] theorem execCxlLinkDown_clock (p : PortIx) (cause : Fin 9) (s : State) : KeepsClock s (execCxlLinkDown p cause s) := by
  simp [execCxlLinkDown]

@[simp] theorem execCxlRecovery_clock (p : PortIx) (s : State) : KeepsClock s (execCxlRecovery p s) := by
  simp [execCxlRecovery]

@[simp] theorem type3Lost_clock (s : State) (p : Nat) : (s.type3Lost p).clock = s.clock := by
  simp [State.type3Lost]

@[simp] theorem execCxlDownTicksExpiry_clock (p : PortIx) (s : State) : KeepsClock s (execCxlDownTicksExpiry p s) := by
  unfold execCxlDownTicksExpiry
  split <;> simp

@[simp] theorem execCxlUncorrectableError_clock (p : PortIx) (s : State) : KeepsClock s (execCxlUncorrectableError p s) := by
  simp [execCxlUncorrectableError]

@[simp] theorem cxReissue_clock (s : State) (p : Nat) : (s.cxReissue p).clock = s.clock := by
  simp [State.cxReissue]

@[simp] theorem execCxlLinkUp_clock (p : PortIx) (i : CxUp) (s : State) : KeepsClock s (execCxlLinkUp p i s) := by
  simp [execCxlLinkUp]

@[simp] theorem execCxlTrainTimeout_clock (p : PortIx) (s : State) : KeepsClock s (execCxlTrainTimeout p s) := by
  unfold execCxlTrainTimeout
  split <;> simp

@[simp] theorem execCxlTrainRetry_clock (p : PortIx) (s : State) : KeepsClock s (execCxlTrainRetry p s) := by
  simp [execCxlTrainRetry]

@[simp] theorem scanBrick_clock (s : State) (b : Nat) (r : Option (BitVec 8 × BitVec 8)) : (s.scanBrick b r).clock = s.clock := by
  unfold State.scanBrick
  split <;> simp

@[simp] theorem execExpanderScan_clock (t : TileIx) (b0 b1 : Option (BitVec 8 × BitVec 8)) (s : State) :
    KeepsClock s (execExpanderScan t b0 b1 s) := by
  simp [execExpanderScan]

@[simp] theorem execCxlPresenceAccepted_clock (p : PortIx) (s : State) : KeepsClock s (execCxlPresenceAccepted p s) := by
  simp [execCxlPresenceAccepted]

@[simp] theorem removed_clock (s : State) (p cause : Nat) : (s.removed p cause).clock = s.clock := by
  simp [State.removed]

@[simp] theorem execCxlPresenceLost_clock (p : PortIx) (s : State) : KeepsClock s (execCxlPresenceLost p s) := by
  simp [execCxlPresenceLost]

@[simp] theorem execCxlButtonAccepted_clock (p : PortIx) (s : State) : KeepsClock s (execCxlButtonAccepted p s) := by
  simp [execCxlButtonAccepted]

@[simp] theorem execButtonWaitTimer_clock (p : PortIx) (s : State) : KeepsClock s (execButtonWaitTimer p s) := by
  simp [execButtonWaitTimer]

@[simp] theorem removeOk_clock (s : State) (p : Nat) : (s.removeOk p).clock = s.clock := by
  simp [State.removeOk]

@[simp] theorem execPtCxHpCtlRemoveOk_clock (p : PortIx) (s : State) : KeepsClock s (execPtCxHpCtlRemoveOk p s) := by
  simp [execPtCxHpCtlRemoveOk]

@[simp] theorem execPtCxHpCtlCancel_clock (p : PortIx) (s : State) : KeepsClock s (execPtCxHpCtlCancel p s) := by
  simp [execPtCxHpCtlCancel]

@[simp] theorem execHostSlotControlWrite_clock (v : VcsIx) (k : Fin 16) (pwr attn : BitVec 2) (off : Bool) (s : State) :
    KeepsClock s (execHostSlotControlWrite v k pwr attn off s) := by
  unfold execHostSlotControlWrite
  split <;> simp

@[simp] theorem execPtCxCtlRetrain_clock (p : PortIx) (force : Bool) (s : State) : KeepsClock s (execPtCxCtlRetrain p force s) := by
  simp [execPtCxCtlRetrain]

@[simp] theorem dpcRelease_clock (s : State) (p : Nat) : (s.dpcRelease p).clock = s.clock := by
  simp [State.dpcRelease]

@[simp] theorem execPtCxCtlDpcRelease_clock (p : PortIx) (s : State) : KeepsClock s (execPtCxCtlDpcRelease p s) := by
  simp [execPtCxCtlDpcRelease]

@[simp] theorem execVppbDpcRelease_clock (v : VcsIx) (k : Fin 16) (s : State) : KeepsClock s (execVppbDpcRelease v k s) := by
  unfold execVppbDpcRelease
  split <;> simp

@[simp] theorem execPtCxCtlMgmtFnWrite_clock (p : PortIx) (v : Bool) (s : State) : KeepsClock s (execPtCxCtlMgmtFnWrite p v s) := by
  simp [execPtCxCtlMgmtFnWrite]

@[simp] theorem cxEnWrite_clock (s : State) (p : Nat) (v : Bool) : (s.cxEnWrite p v).clock = s.clock := by
  simp [State.cxEnWrite]

@[simp] theorem execPtCxCtlEnWrite_clock (p : PortIx) (v : Bool) (s : State) : KeepsClock s (execPtCxCtlEnWrite p v s) := by
  simp [execPtCxCtlEnWrite]

@[simp] theorem execOpPortMode_clock (q : Req) (body : List Byte) (s : State) : KeepsClock s (execOpPortMode q body s) := by
  simp [execOpPortMode]

@[simp] theorem execOpPortMerge_clock (q : Req) (body : List Byte) (s : State) : KeepsClock s (execOpPortMerge q body s) := by
  simp [execOpPortMerge]

@[simp] theorem vppbBind_clock (s : State) (v k p : Nat) : (s.vppbBind v k p).1.clock = s.clock := by
  simp [State.vppbBind]

@[simp] theorem vppbUnbind_clock (s : State) (v k : Nat) : (s.vppbUnbind v k).1.clock = s.clock := by
  unfold State.vppbUnbind
  split <;> simp

@[simp] theorem execOpVcsVppbBind_clock (q : Req) (body : List Byte) (s : State) : KeepsClock s (execOpVcsVppbBind q body s) := by
  simp [execOpVcsVppbBind]

@[simp] theorem execOpVcsVppbUnbind_clock (q : Req) (body : List Byte) (s : State) : KeepsClock s (execOpVcsVppbUnbind q body s) := by
  simp [execOpVcsVppbUnbind]

@[simp] theorem execOpVcsDestroy_clock (q : Req) (body : List Byte) (s : State) : KeepsClock s (execOpVcsDestroy q body s) := by
  refine keepsClock_nalug_run fun t => ?_
  split <;> simp

@[simp] theorem fmBinding_clock (s : State) (src : Src) (code nalug : Nat) (body : List Byte) (objs : List Obj) (ports : List Nat)
    {act : State → State × Nat} (h : ∀ t, (act t).1.clock = t.clock) : (s.fmBinding src code nalug body objs ports act).clock = s.clock := by
  unfold State.fmBinding
  dsimp only
  split
  · simp
  · split <;> simp [h]

@[simp] theorem fmServe_clock (s : State) (src : Src) {act : Res} (h : KeepsClock s act) : KeepsClock s (s.fmServe src act) := by
  unfold State.fmServe
  split
  · simp
  · exact h

@[simp] theorem execIdentifySwitchDevice_clock (src : Src) (s : State) : KeepsClock s (execIdentifySwitchDevice src s) := by
  simp [execIdentifySwitchDevice]

@[simp] theorem execGetPhysicalPortState_clock (src : Src) (ports : List Byte) (s : State) :
    KeepsClock s (execGetPhysicalPortState src ports s) := by
  simp [execGetPhysicalPortState]

@[simp] theorem execPhysicalPortControl_clock (src : Src) (port : Byte) (op : Fin 3) (s : State) : KeepsClock s (execPhysicalPortControl src port op s) := by
  refine fmServe_clock _ _ ?_
  dsimp only
  split
  · simp
  · split <;> simp

@[simp] theorem execSendPpbCxlIoConfigurationRequest_clock (src : Src) (port : Byte) (b : List Byte) (s : State) :
    KeepsClock s (execSendPpbCxlIoConfigurationRequest src port b s) := by
  simp [execSendPpbCxlIoConfigurationRequest]

@[simp] theorem execGetVirtualCxlSwitchInfo_clock (src : Src) (v : Byte) (s : State) :
    KeepsClock s (execGetVirtualCxlSwitchInfo src v s) := by
  simp [execGetVirtualCxlSwitchInfo]

@[simp] theorem execBindVppb_clock (src : Src) (v : Byte) (k : Byte) (port : Byte) (ld : BitVec 16) (s : State) :
    KeepsClock s (execBindVppb src v k port ld s) := by
  simp [execBindVppb]

@[simp] theorem execUnbindVppb_clock (src : Src) (v : Byte) (k : Byte) (s : State) : KeepsClock s (execUnbindVppb src v k s) := by
  simp [execUnbindVppb]

@[simp] theorem execGenerateAerEvent_clock (src : Src) (v : Byte) (k : Byte) (s : State) : KeepsClock s (execGenerateAerEvent src v k s) := by
  refine fmServe_clock _ _ ?_
  split
  · split <;> simp
  · simp

@[simp] theorem execTunnelManagementCommand_clock (src : Src) (port : Byte) (b : List Byte) (s : State) :
    KeepsClock s (execTunnelManagementCommand src port b s) := by
  simp [execTunnelManagementCommand]

@[simp] theorem execSendLdCxlIoConfigurationRequest_clock (src : Src) (port : Byte) (ld : Byte) (b : List Byte) (s : State) :
    KeepsClock s (execSendLdCxlIoConfigurationRequest src port ld b s) := by
  simp [execSendLdCxlIoConfigurationRequest]

@[simp] theorem execSendLdCxlIoMemoryRequest_clock (src : Src) (port : Byte) (ld : Byte) (b : List Byte) (s : State) :
    KeepsClock s (execSendLdCxlIoMemoryRequest src port ld b s) := by
  simp [execSendLdCxlIoMemoryRequest]

@[simp] theorem execFmApiUnsupported_clock (src : Src) (opcode : BitVec 16) (s : State) :
    KeepsClock s (execFmApiUnsupported src opcode s) := by
  simp [execFmApiUnsupported]

theorem ageHead_clock {s : State} {q : Nat} {x : TMsg × State} (h : s.ageHead q = some x) : x.2.clock = s.clock := by
  unfold State.ageHead at h
  split at h
  · cases h
    simp
  · cases h
    simp
  · cases h

@[simp] theorem execMessageAged_clock (p : PortIx) (c : ClassIx) (egress : Bool) (s : State) : KeepsClock s (execMessageAged p c egress s) := by
  unfold execMessageAged
  extract_lets q
  split
  · next m s1 lim ha hl =>
    have h1 : s1.clock = s.clock := ageHead_clock ha
    extract_lets age
    split
    · simp
    split
    · simp [h1]
    split
    · simp
    split
    · simp
    · split
      · split <;> simp [h1]
      · simp [h1]
  · simp

end Sys2Proof.Machine
end

section
namespace Sys2Proof.Machine

/-! ### The clock through Sys2Proof/Machine/Units.lean -/

@[simp] theorem portDown_clock (s : State) (p fl cx : Nat) : (s.portDown p fl cx).clock = s.clock := by
  simp [State.portDown]

@[simp] theorem discard_clock (s : State) (m : TMsg) : (s.discard m).clock = s.clock := by
  unfold State.discard
  dsimp only
  (repeat' split) <;> simp

@[simp] theorem flushQueue_clock (s : State) (q : Nat) : (s.flushQueue q).clock = s.clock := by
  simp [State.flushQueue]

@[simp] theorem dropHeld_clock (s : State) (p : TMsg → Bool) : (s.dropHeld p).clock = s.clock := by
  simp [State.dropHeld]

@[simp] theorem flushPort_clock (s : State) (p : Nat) : (s.flushPort p).clock = s.clock := by
  simp [State.flushPort]

@[simp] theorem retireTile_clock (s : State) (t : Nat) : (s.retireTile t).clock = s.clock := by
  simp [State.retireTile]

@[simp] theorem retireAny_clock (s : State) (kind i : Nat) : (s.retireAny kind i).clock = s.clock := by
  unfold State.retireAny
  split <;> simp

@[simp] theorem execOpUnitRetire_clock (q : Req) (body : List Byte) (s : State) : KeepsClock s (execOpUnitRetire q body s) := by
  simp [execOpUnitRetire]

end Sys2Proof.Machine
end

section
namespace Sys2Proof.Machine

/-! ### The clock through Sys2Proof/Machine/Telemetry.lean -/

@[simp] theorem inTel_clock (s : State) (f : TelS → TelS) : (s.inTel f).clock = s.clock := by
  simp [State.inTel]

@[simp] theorem critAction_clock (s : State) (kind i : Nat) : (s.critAction kind i).clock = s.clock := by
  unfold State.critAction
  split <;> simp

@[simp] theorem levelStep_clock (s : State) (kind i lvl : Nat) (t : Int) (u shown : Nat) :
    (s.levelStep kind i lvl t u shown).clock = s.clock := by
  simp [State.levelStep]

@[simp] theorem critHold_clock (s : State) (h : Nat) (t : Int) (u : Nat) : (s.critHold h t u).clock = s.clock := by
  simp [State.critHold]

@[simp] theorem levelSample_clock (s : State) (kind i : Nat) (t : Int) (u shown : Nat) :
    (s.levelSample kind i t u shown).clock = s.clock := by
  simp [State.levelSample]

@[simp] theorem tempSample_clock (s : State) (i : Nat) (w : BitVec 16) : (s.tempSample i w).clock = s.clock := by
  simp [State.tempSample]

@[simp] theorem voltSample_clock (s : State) (i mv : Nat) : (s.voltSample i mv).clock = s.clock := by
  simp [State.voltSample]

@[simp] theorem stageSample_clock (s : State) (k : Nat) : (s.stageSample k).clock = s.clock := by
  simp [State.stageSample]

@[simp] theorem execMonitorSample_clock (temps volts : List (BitVec 16)) (s : State) : KeepsClock s (execMonitorSample temps volts s) := by
  simp [execMonitorSample]

@[simp] theorem execRoMeasure_clock (khz : List (BitVec 24)) (s : State) : KeepsClock s (execRoMeasure khz s) := by
  simp [execRoMeasure]

@[simp] theorem pmcWrite_clock (s : State) (tile : Option TileIx) (c off : Nat) {act : State → State} (h : ∀ t, (act t).clock = t.clock) :
    KeepsClock s (s.pmcWrite tile c off act) := by
  unfold State.pmcWrite
  split
  · simp
  · split <;> simp [h]

@[simp] theorem execPmcConfigWrite_clock (tile : Option TileIx) (c : Fin 128) (k : Fin 3) (v : Word) (s : State) :
    KeepsClock s (execPmcConfigWrite tile c k v s) := by
  simp [execPmcConfigWrite]

@[simp] theorem execPmcCntWrite_clock (tile : Option TileIx) (c : Fin 128) (v : BitVec 64) (s : State) :
    KeepsClock s (execPmcCntWrite tile c v s) := by
  simp [execPmcCntWrite]

@[simp] theorem pmcApply_clock (s : State) (o : Nat) (v : Word) : (s.pmcApply o v).clock = s.clock := by
  simp [State.pmcApply]

@[simp] theorem pmcEdge_clock (s : State) : s.pmcEdge.clock = s.clock := by
  simp [State.pmcEdge]

@[simp] theorem bwMove_clock (s : State) (p dir n : Nat) : (s.bwMove p dir n).clock = s.clock := by
  simp [State.bwMove]

@[simp] theorem execBwWindowEnd_clock (cxl : List (PortIx × Nat × Nat)) (s : State) : KeepsClock s (execBwWindowEnd cxl s) := by
  simp [execBwWindowEnd]

@[simp] theorem dumpFail_clock (s : State) (seq : Word) : (s.dumpFail seq).clock = s.clock := by
  simp [State.dumpFail]

@[simp] theorem snapshot_clock (s : State) : s.snapshot.clock = s.clock := by
  simp [State.snapshot]

@[simp] theorem execDumpWriteUnit_clock (good : Bool) (s : State) : KeepsClock s (execDumpWriteUnit good s) := by
  unfold execDumpWriteUnit
  split <;> simp

@[simp] theorem execLatencyRecordWrite_clock (s : State) : KeepsClock s (execLatencyRecordWrite s) := by
  unfold execLatencyRecordWrite
  split <;> simp

@[simp] theorem idleEdge_clock (s : State) : s.idleEdge.clock = s.clock := by
  simp [State.idleEdge]

@[simp] theorem auditWrite_clock (s : State) (v : Word) : (s.auditWrite v).clock = s.clock := by
  simp [State.auditWrite]

@[simp] theorem execAuditGo_clock (v : Word) (s : State) : KeepsClock s (execAuditGo v s) := by
  simp [execAuditGo]

@[simp] theorem execAuditCheck_clock (s : State) : KeepsClock s (execAuditCheck s) := by
  unfold execAuditCheck
  dsimp only
  (repeat' split) <;> simp

@[simp] theorem execAuditTimeout_clock (s : State) : KeepsClock s (execAuditTimeout s) := by
  unfold execAuditTimeout
  split <;> simp

end Sys2Proof.Machine
end

section
namespace Sys2Proof.Machine

/-! ### The clock through Sys2Proof/Machine/Tick.lean -/

@[simp] theorem inTick_clock (s : State) {f : TickS → TickS}
    (h : ∀ k, (f k).loc = k.loc ∧ (f k).fab = k.fab ∧ (f k).guardDone = k.guardDone ∧ (f k).adj = k.adj) : (s.inTick f).clock = s.clock := by
  obtain ⟨hl, hf, hg, ha⟩ := h s.tick
  simp only [State.clock, State.inTick, hl, hf, hg, ha]

@[simp] theorem loseLock_clock (s : State) (cause : Nat) : (s.loseLock cause).clock = s.clock := by
  simp [State.loseLock]

@[simp] theorem gainLock_clock (s : State) : s.gainLock.clock = s.clock := by
  simp [State.gainLock]

@[simp] theorem follow_clock (s : State) (p : Nat) (m : SyncMsg) (trim : Int) : (s.follow p m trim).clock = s.clock := by
  simp [State.follow]

@[simp] theorem execSyncReceive_clock (p : PortIx) (m : SyncMsg) (trim : Int) (s : State) : KeepsClock s (execSyncReceive p m trim s) := by
  simp [execSyncReceive]

@[simp] theorem execMasterLossTimeout_clock (s : State) : KeepsClock s (execMasterLossTimeout s) := by
  unfold execMasterLossTimeout
  split <;> simp

@[simp] theorem execGlbTickCtlMasterElig_clock (v : Bool) (s : State) : KeepsClock s (execGlbTickCtlMasterElig v s) := by
  simp [execGlbTickCtlMasterElig]

@[simp] theorem markUpstream_clock (s : State) (old new : Option Nat) : (s.markUpstream old new).clock = s.clock := by
  unfold State.markUpstream
  dsimp only
  (repeat' split) <;> simp

@[simp] theorem elect_clock (s : State) : s.elect.clock = s.clock := by
  unfold State.elect
  dsimp only
  split <;> simp

@[simp] theorem sendSyncs_clock (s : State) : s.sendSyncs.clock = s.clock := by
  simp [State.sendSyncs]

@[simp] theorem pmcCycles_clock (s : State) (global : Bool) (lo hi ev n : Nat) : (s.pmcCycles global lo hi ev n).clock = s.clock := by
  simp [State.pmcCycles]

@[simp] theorem pmcTick_clock (s : State) (cyc : List (Bool × Nat × Nat × ClassIx × Nat)) : (s.pmcTick cyc).clock = s.clock := by
  simp [State.pmcTick]

@[simp] theorem snapshotEdge_clock (s : State) : s.snapshotEdge.clock = s.clock := by
  simp [State.snapshotEdge]

@[simp] theorem laneTests_clock (s : State) (tests : List (PortIx × LaneIx × Nat × Nat)) : (s.laneTests tests).clock = s.clock := by
  simp [State.laneTests]

end Sys2Proof.Machine
end

section
namespace Sys2Proof.Machine

/-! ### The clock through Sys2Proof/Machine/Access.lean -/

@[simp] theorem acuDenied_clock (s : State) (m lvl o : Nat) (write : Bool) : (s.acuDenied m lvl o write).clock = s.clock := by
  simp [State.acuDenied]

@[simp] theorem sense_clock (s : State) (o : Nat) : (s.sense o).2.clock = s.clock := by
  unfold State.sense
  split <;> simp

@[simp] theorem readClear_clock (s : State) (o : Nat) : (s.readClear o).clock = s.clock := by
  unfold State.readClear
  split <;> simp

@[simp] theorem readWord_clock (s : State) (m o : Nat) (four : Bool) : (s.readWord m o four).2.clock = s.clock := by
  unfold State.readWord
  dsimp only
  (repeat' split) <;> simp

@[simp] theorem readWords_clock (s : State) (m o : Nat) (four : Nat → Bool) (n : Nat) : (s.readWords m o four n).2.clock = s.clock := by
  induction n with
  | zero => rfl
  | succ n ih => simp [State.readWords, ih]

@[simp] theorem misaligned_clock (s : State) (m o : Nat) : (s.misaligned m o).clock = s.clock := by
  simp [State.misaligned]

@[simp] theorem regRead_clock (s : State) (m lvl o n : Nat) : (s.regRead m lvl o n).clock = s.clock := by
  unfold State.regRead
  split
  · simp
  split
  · simp
  split
  · simp
  split
  · split
    · next h => exact execPwrBrDataRead_clock _ _ _ _ h
    · rfl
  · simp

@[simp] theorem plainWrite_clock (s : State) (o : Nat) (v bm : Word) : (s.plainWrite o v bm).clock = s.clock := by
  unfold State.plainWrite
  split <;> simp

@[simp] theorem nextOr_clock (s : State) {r : Res} (h : KeepsClock s r) : (nextOr s r).clock = s.clock := by
  cases r with
  | next t => exact h t rfl
  | _ => rfl

@[simp] theorem acuWrite_clock (s : State) (m lvl o : Nat) (v bm : Word) : (s.acuWrite m lvl o v bm).clock = s.clock := by
  simp [State.acuWrite]

@[simp] theorem globWrite_clock (s : State) (m lvl o : Nat) (v bm : Word) : (s.globWrite m lvl o v bm).clock = s.clock := by
  simp [State.globWrite]

@[simp] theorem defWrite_clock (s : State) (t fc o : Nat) (v bm : Word) : (s.defWrite t fc o v bm).clock = s.clock := by
  simp [State.defWrite]

@[simp] theorem tileWrite_clock (s : State) (t r o : Nat) (v bm : Word) : (s.tileWrite t r o v bm).clock = s.clock := by
  simp [State.tileWrite]

@[simp] theorem flCtlWrite_clock (s : State) (p : Nat) (v bm : Word) : (s.flCtlWrite p v bm).clock = s.clock := by
  simp [State.flCtlWrite]

@[simp] theorem cxCtlWrite_clock (s : State) (p : PortIx) (v bm : Word) : (s.cxCtlWrite p v bm).clock = s.clock := by
  simp [State.cxCtlWrite]

@[simp] theorem hpCtlWrite_clock (s : State) (p : PortIx) (v bm : Word) : (s.hpCtlWrite p v bm).clock = s.clock := by
  simp [State.hpCtlWrite]

@[simp] theorem portWrite_clock (s : State) (p q o : Nat) (v bm : Word) : (s.portWrite p q o v bm).clock = s.clock := by
  simp [State.portWrite]

@[simp] theorem lnCtlWrite_clock (s : State) (p l : Nat) (v bm : Word) : (s.lnCtlWrite p l v bm).clock = s.clock := by
  simp [State.lnCtlWrite]

@[simp] theorem lnRxEqWrite_clock (s : State) (p l : Nat) (v bm : Word) : (s.lnRxEqWrite p l v bm).clock = s.clock := by
  simp [State.lnRxEqWrite]

@[simp] theorem laneWrite_clock (s : State) (x q o : Nat) (v bm : Word) : (s.laneWrite x q o v bm).clock = s.clock := by
  simp [State.laneWrite]

@[simp] theorem writeWord_clock (s : State) (m lvl o be : Nat) (v : Word) : (s.writeWord m lvl o be v).clock = s.clock := by
  unfold State.writeWord
  dsimp only
  (repeat' split) <;> simp

@[simp] theorem edgeAccess_clock (s : State) (o : Nat) (b : List Byte) : (s.edgeAccess o b).clock = s.clock := by
  unfold State.edgeAccess
  dsimp only
  split
  · simp
  · refine clock_each (fun k t => ?_) _ _
    split <;> simp

@[simp] theorem regWrite_clock (s : State) (m lvl o : Nat) (b : List Byte) : (s.regWrite m lvl o b).clock = s.clock := by
  unfold State.regWrite
  dsimp only
  (repeat' split) <;> simp

@[simp] theorem execMgtAcuCtlSelWrite_clock (t m : Fin 8) (lvl : Fin 3) (sel : Bool) (s : State) :
    KeepsClock s (execMgtAcuCtlSelWrite t m lvl sel s) := by
  simp [execMgtAcuCtlSelWrite]

@[simp] theorem execMgtAcuCtlLockWrite_clock (t m : Fin 8) (lvl : Fin 3) (s : State) : KeepsClock s (execMgtAcuCtlLockWrite t m lvl s) := by
  simp [execMgtAcuCtlLockWrite]

@[simp] theorem execRegisterWrite_clock (m : Fin 8) (lvl : Fin 3) (off : Word) (b : List Byte) (s : State) :
    KeepsClock s (execRegisterWrite m lvl off b s) := by
  simp [execRegisterWrite]

@[simp] theorem execRcRegisterRead_clock (m : Fin 8) (lvl : Fin 3) (off : Word) (n : Nat) (s : State) :
    KeepsClock s (execRcRegisterRead m lvl off n s) := by
  simp [execRcRegisterRead]

@[simp] theorem execCounterLowWordRead_clock (m : Fin 8) (lvl : Fin 3) (off : Word) (s : State) :
    KeepsClock s (execCounterLowWordRead m lvl off s) := by
  simp [execCounterLowWordRead]

@[simp] theorem opDenied_clock (s : State) (o : Nat) (write : Bool) : (s.opDenied o write).1.clock = s.clock := by
  simp [State.opDenied]

@[simp] theorem execOpRegRead_clock (q : Req) (body : List Byte) (s : State) : KeepsClock s (execOpRegRead q body s) := by
  refine keepsClock_nalug_run fun t => ?_
  split <;> simp

@[simp] theorem nalugWord_clock (s : State) (o : Nat) (v : Word) : (s.nalugWord o v).clock = s.clock := by
  unfold State.nalugWord
  split <;> simp

@[simp] theorem execOpRegWrite_clock (q : Req) (body : List Byte) (s : State) : KeepsClock s (execOpRegWrite q body s) := by
  refine keepsClock_nalug_run fun t => ?_
  split <;> simp

@[simp] theorem execOpSetModuleId_clock (q : Req) (body : List Byte) (s : State) : KeepsClock s (execOpSetModuleId q body s) := by
  simp [execOpSetModuleId]

end Sys2Proof.Machine
end

section
namespace Sys2Proof.Machine

/-! ### The clock through Sys2Proof/Machine/Reset.lean -/

@[simp] theorem askReset_clock (s : State) (scope target source : Nat) : (s.askReset scope target source).clock = s.clock := by
  simp [State.askReset]

@[simp] theorem dropResets_clock (s : State) (p : Nat × Nat × Nat × Tick → Bool) : (s.dropResets p).clock = s.clock := by
  simp [State.dropResets]

@[simp] theorem clearCounters_clock (s : State) (p : Space × Nat × Nat → Bool) : (s.clearCounters p).clock = s.clock := by
  simp [State.clearCounters]

@[simp] theorem newMode_clock (s : State) (p : Nat) : (s.newMode p).clock = s.clock := by
  unfold State.newMode
  dsimp only
  (repeat' split) <;> simp

@[simp] theorem mgmtPathReset_clock (s : State) (p : Nat) : (s.mgmtPathReset p).clock = s.clock := by
  simp [State.mgmtPathReset]

@[simp] theorem keepHp_clock (s : State) (p st : Nat) : (s.keepHp p st).clock = s.clock := by
  simp [State.keepHp]

@[simp] theorem portClear_clock (s : State) (p : Nat) : (s.portClear p).clock = s.clock := by
  unfold State.portClear
  dsimp only
  split <;> simp

@[simp] theorem portTrain_clock (s : State) (p : Nat) : (s.portTrain p).clock = s.clock := by
  simp [State.portTrain]

@[simp] theorem portReset_clock (s : State) (p source : Nat) : (s.portReset p source).clock = s.clock := by
  simp [State.portReset]

@[simp] theorem tileClear_clock (s : State) (t : Nat) : (s.tileClear t).clock = s.clock := by
  simp [State.tileClear]

@[simp] theorem tileReset_clock (s : State) (t source : Nat) : (s.tileReset t source).clock = s.clock := by
  simp [State.tileReset]

@[simp] theorem execTileReset_clock (t : TileIx) (s : State) : KeepsClock s (execTileReset t s) := by
  unfold execTileReset
  split <;> simp

@[simp] theorem execPortReset_clock (p : PortIx) (s : State) : KeepsClock s (execPortReset p s) := by
  unfold execPortReset
  split <;> simp

@[simp] theorem restartPart_clock (p : HPart) (s : State) : (s.restartPart p).clock = s.clock := by
  simp [State.restartPart]

@[simp] theorem restartOrig_clock (known : List HKey) (o : HOrig) (s : State) : (s.restartOrig known o).clock = s.clock := by
  simp [State.restartOrig]

@[simp] theorem hmpRestart_clock (s : State) : s.hmpRestart.clock = s.clock := by
  simp [State.hmpRestart]

@[simp] theorem warmRings_clock (s : State) : s.warmRings.clock = s.clock := by
  unfold State.warmRings
  refine clock_each (fun i t => ?_) _ _
  extract_lets x t1 h
  have h1 : t1.clock = t.clock := by
    cases hj : x.job with
    | none => simp [t1, hj]
    | some j => simp [t1, hj]
  simp [h1]

@[simp] theorem warmQueues_clock (s : State) : s.warmQueues.clock = s.clock := by
  simp [State.warmQueues]

@[simp] theorem warmLogic_clock (s : State) : s.warmLogic.clock = s.clock := by
  simp [State.warmLogic]

@[simp] theorem linksReset_clock (s : State) : s.linksReset.clock = s.clock := by
  simp [State.linksReset]

@[simp] theorem warmBegin_clock (s : State) (source : Nat) : (s.warmBegin source).clock = s.clock := by
  simp [State.warmBegin]

@[simp] theorem resetDone_clock (s : State) (scope source : Nat) (absorbed : List Req) :
    (s.resetDone scope source absorbed).clock = s.clock := by
  simp [State.resetDone]

@[simp] theorem warmFinish_clock (s : State) (source : Nat) : (s.warmFinish source).clock = s.clock := by
  simp [State.warmFinish]

@[simp] theorem execWarmModuleReset_clock (s : State) : KeepsClock s (execWarmModuleReset s) := by
  unfold execWarmModuleReset
  split
  · simp
  · split <;> simp

@[simp] theorem execWarmResetDrainDone_clock (s : State) : KeepsClock s (execWarmResetDrainDone s) := by
  unfold execWarmResetDrainDone
  split <;> simp

@[simp] theorem fjxReg_clock (x : State × Option Nat) (e : Nat × Nat × Nat) : (State.fjxReg x e).1.clock = x.1.clock := by
  unfold State.fjxReg
  dsimp only
  split
  · rfl
  · split <;> simp

@[simp] theorem fjxPort_clock (s : State) (e : Nat × Nat × Nat × Bool) : (s.fjxPort e).clock = s.clock := by
  simp [State.fjxPort]

@[simp] theorem fjxRecord_clock (x : State × Option Nat) (r : FjxRec) : (State.fjxRecord x r).1.clock = x.1.clock := by
  cases r with
  | ports l => exact clock_foldl fjxPort_clock l x.1
  | regs l => exact clock_foldl_fst fjxReg_clock l (x.1, x.2)
  | _ => simp [State.fjxRecord]

@[simp] theorem fjxApply_clock (s : State) : s.fjxApply.clock = s.clock := by
  unfold State.fjxApply
  extract_lets s1
  have h1 : s1.clock = s.clock := by
    refine clock_each (fun i t => ?_) _ _
    split <;> simp
  split
  · simp [h1]
  · next i _ =>
    have h2 := clock_foldl_fst fjxRecord_clock ((s1.fjxParse (s1.fjxCopy i)).getD []) (s1, none)
    dsimp only
    generalize List.foldl _ _ _ = x at h2 ⊢
    cases x.2 <;> simp [h2, h1]

@[simp] theorem bootTables_clock (s : State) : s.bootTables.clock = s.clock := by
  simp [State.bootTables]

/-- A cold base has the tick's reset values and keeps the queue. -/
theorem coldBase_clock (s : State) : s.coldBase.clock = ⟨0, 0, false, none, s.pending⟩ := by
  unfold State.coldBase
  exact (setReg_clock _ _ _).trans rfl

@[simp] theorem clocksUp_clock (s : State) : s.clocksUp.clock = s.clock := by
  simp [State.clocksUp]

@[simp] theorem selfTest_clock (s : State) (u : Nat × Nat) : (s.selfTest u).clock = s.clock := by
  simp [State.selfTest]

/-- Of the cold reset's steps only its base changes the clock. -/
theorem coldReset_clock (s : State) (source : Nat) (fails : List (Nat × Nat)) : (s.coldReset source fails).clock = s.coldBase.clock := by
  unfold State.coldReset
  simp

@[simp] theorem execBootRomStart_clock (s : State) : KeepsClock s (execBootRomStart s) := by
  simp [execBootRomStart]

@[simp] theorem execBootWatchdogExpiry_clock (s : State) : KeepsClock s (execBootWatchdogExpiry s) := by
  simp [execBootWatchdogExpiry]

@[simp] theorem execOpReset_clock (q : Req) (body : List Byte) (s : State) : KeepsClock s (execOpReset q body s) := by
  unfold execOpReset
  dsimp only
  split <;> simp

@[simp] theorem execFeedOutOfRange_clock (f : FeedIx) (mv : Nat) (s : State) : KeepsClock s (execFeedOutOfRange f mv s) := by
  simp [execFeedOutOfRange]

@[simp] theorem runStep_clock (s : State) (k : Nat) : (s.runStep k).clock = s.clock := by
  unfold State.runStep
  dsimp only
  split <;> simp

@[simp] theorem execSteppedCommandStep_clock (s : State) : KeepsClock s (execSteppedCommandStep s) := by
  simp [execSteppedCommandStep]

end Sys2Proof.Machine
end

section
namespace Sys2Proof.Machine

/-! ### The clock through Sys2Proof/Machine/Clocks.lean -/

@[simp] theorem inClk_clock (s : State) (f : ClkS → ClkS) : (s.inClk f).clock = s.clock := by
  simp [State.inClk]

@[simp] theorem raiseClk_clock (s : State) (code : Nat) (vals : List EvVal) : (s.raiseClk code vals).clock = s.clock := by
  simp [State.raiseClk]

@[simp] theorem pllGone_clock (s : State) (d : Nat) : (s.pllGone d).clock = s.clock := by
  simp [State.pllGone]

@[simp] theorem coreLost_clock (s : State) : s.coreLost.clock = s.clock := by
  simp [State.coreLost]

@[simp] theorem tilePllLost_clock (s : State) (t : Nat) : (s.tilePllLost t).clock = s.clock := by
  simp [State.tilePllLost]

@[simp] theorem execPllLockLoss_clock (d : Fin 16) (s : State) : KeepsClock s (execPllLockLoss d s) := by
  simp [execPllLockLoss]

@[simp] theorem execPllRelock_clock (d : Fin 15) (s : State) : KeepsClock s (execPllRelock d s) := by
  unfold execPllRelock
  dsimp only
  (repeat' split) <;> simp

@[simp] theorem execTilePllRelockTimeout_clock (t : TileIx) (s : State) : KeepsClock s (execTilePllRelockTimeout t s) := by
  simp [execTilePllRelockTimeout]

@[simp] theorem execCorePllRelockTimeout_clock (s : State) : KeepsClock s (execCorePllRelockTimeout s) := by
  simp [execCorePllRelockTimeout]

@[simp] theorem execCrossingEventDelivery_clock (x : Fin 1024) (k : Nat) (s : State) : KeepsClock s (execCrossingEventDelivery x k s) := by
  simp [execCrossingEventDelivery]

@[simp] theorem execCrossingTimeout_clock (x : Fin 1024) (m : Fin 8) (off : Word) (write : Bool) (req : Option (Req × Nat)) (s : State) :
    KeepsClock s (execCrossingTimeout x m off write req s) := by
  unfold execCrossingTimeout
  dsimp only
  (repeat' split) <;> simp

@[simp] theorem execMortarHeaderUe_clock (s : State) : KeepsClock s (execMortarHeaderUe s) := by
  simp [execMortarHeaderUe]

@[simp] theorem sramUe_clock (s : State) (st unit entry : Nat) : (s.sramUe st unit entry).clock = s.clock := by
  simp [State.sramUe]

@[simp] theorem poisonMsg_clock (s : State) (t id : Nat) : (s.poisonMsg t id).clock = s.clock := by
  simp [State.poisonMsg]

@[simp] theorem sfEntryUe_clock (s : State) (b set : Nat) (la : Option Nat) : (s.sfEntryUe b set la).clock = s.clock := by
  simp [State.sfEntryUe]

@[simp] theorem routeUe_clock (s : State) (t q : Nat) : (s.routeUe t q).clock = s.clock := by
  simp [State.routeUe]

@[simp] theorem tileUe_clock (s : State) (t : Nat) : (s.tileUe t).clock = s.clock := by
  simp [State.tileUe]

@[simp] theorem execSramUe_clock (st : Fin 10) (unit : Byte) (entry : Word) (la : Option Nat) (s : State) :
    KeepsClock s (execSramUe st unit entry la s) := by
  unfold execSramUe
  split <;> simp

@[simp] theorem sfScrub_clock (s : State) (b : Nat) (la : Option Nat) (bad : Bool) : (s.sfScrub b la bad).clock = s.clock := by
  simp [State.sfScrub]

@[simp] theorem sfWait_clock (s : State) (b : Nat) (la : Option Nat) (bad : Bool) : (s.sfWait b la bad).clock = s.clock := by
  simp [State.sfWait]

@[simp] theorem execSfScrubSet_clock (b : BankIx) (idle bad : Bool) (la : Option Nat) (s : State) :
    KeepsClock s (execSfScrubSet b idle bad la s) := by
  simp [execSfScrubSet]

@[simp] theorem execHbmRefresh_clock (h : StackIx) (pc : Fin 32) (idle : Bool) (s : State) : KeepsClock s (execHbmRefresh h pc idle s) := by
  simp [execHbmRefresh]

@[simp] theorem scrubLost_clock (s : State) (area la : Nat) : (s.scrubLost area la).clock = s.clock := by
  unfold State.scrubLost
  split <;> simp

@[simp] theorem scrubSpoilt_clock (s : State) (h area addr : Nat) : (s.scrubSpoilt h area addr).clock = s.clock := by
  simp [State.scrubSpoilt]

@[simp] theorem scrubRead_clock (s : State) (h pc : Nat) (res : Fin 3) (la : Option Nat) (area : Nat) (addr : BitVec 64) :
    (s.scrubRead h pc res la area addr).clock = s.clock := by
  unfold State.scrubRead
  dsimp only
  (repeat' split) <;> simp

@[simp] theorem execPatrolScrubUnit_clock (h : StackIx) (pc : Fin 32) (idle : Bool) (res : Fin 3) (la : Option Nat) (area : Fin 8) (addr : BitVec 64) (s : State) :
    KeepsClock s (execPatrolScrubUnit h pc idle res la area addr s) := by
  simp [execPatrolScrubUnit]

end Sys2Proof.Machine
end

section
namespace Sys2Proof.Machine

/-! ### The clock's parts -/

theorem loc_of_clock {s : State} {k : Clock} (h : s.clock = k) : s.tick.loc = k.loc := congrArg Clock.loc h

theorem fab_of_clock {s : State} {k : Clock} (h : s.clock = k) : s.tick.fab = k.fab := congrArg Clock.fab h

theorem guardDone_of_clock {s : State} {k : Clock} (h : s.clock = k) : s.tick.guardDone = k.guardDone := congrArg Clock.guardDone h

theorem adj_of_clock {s : State} {k : Clock} (h : s.clock = k) : s.tick.adj = k.adj := congrArg Clock.adj h

theorem pending_of_clock {s : State} {k : Clock} (h : s.clock = k) : s.pending = k.pending := congrArg Clock.pending h

/-! ### The edge and the other commands that move the clock -/

/-- The clock after an edge: both counts go on by one, but the closing edge of the adjustment tick takes the master's number (R24). -/
def Clock.next (k : Clock) : Clock :=
  { k with loc := k.loc + 1, fab := (match k.adj with | some (_, new) => new | none => k.fab + 1), adj := none }

theorem stepEnd_clock (s : State) (d : Nat) (new : Tick) :
    (s.stepEnd d new).clock = { s.clock with loc := s.tick.loc + 1, fab := new, adj := none } := by
  simp only [State.stepEnd, raise_clock, setBit_clock, cnt_clock, setN_clock]
  rfl

theorem countEdge_clock (s : State) : s.countEdge.clock = s.clock.next := by
  unfold State.countEdge
  split
  · next d new h =>
    rw [stepEnd_clock]
    simp only [Clock.next, State.clock, h]
  · next h =>
    refine clock_of_ite ?_ ?_
    · refine ((gainLock_clock _).trans (inTick_clock _ (by simp))).trans ?_
      simp only [Clock.next, State.clock, State.inTick, h]
    · simp only [Clock.next, State.clock, State.inTick, h]

/-- The guard point only marks itself as passed. -/
theorem guard_clock (s : State) : s.guard.clock = { s.clock with guardDone := true } := by
  unfold State.guard
  split
  · next h => simp only [State.clock, h]
  · exact congrArg (fun k : Clock => { k with guardDone := true }) (hmpGuard_clock s)

theorem tickEnd_clock (s : State) : s.tickEnd.clock = { s.clock with guardDone := true } :=
  (hmpLate_clock _).trans (guard_clock s)

/-- A new tick: the next counts, and its guard point is ahead. -/
theorem edge_clock (s : State) (tests : List (PortIx × LaneIx × Nat × Nat)) (cyc : List (Bool × Nat × Nat × ClassIx × Nat)) :
    (s.edge tests cyc).clock = { s.clock.next with guardDone := false } := by
  unfold State.edge
  extract_lets s1 s2 s3 s4 s5 s6 s7
  have h1 : s1.clock = ({ s.clock with guardDone := true } : Clock).next := by
    simp only [s1, countEdge_clock, idleEdge_clock, laneTests_clock, pmcTick_clock, tickEnd_clock]
  have h2 : s2.clock = { s1.clock with guardDone := false } := (hmpEdge_clock _).trans rfl
  have h3 : s3.clock = s2.clock := by simp [s3]
  have h7 : s7.clock = s3.clock := by simp [s7, s6, s5, s4]
  calc ((s7.rateEdge).inTick (fun t => { t with adjDue := s7.stepPending && s7.noOpenHamper })).clock
      = s7.clock := (inTick_clock _ (by simp)).trans (rateEdge_clock s7)
    _ = { s.clock.next with guardDone := false } := by rw [h7, h3, h2, h1]; rfl

theorem execTickEdge_clock {s : State} (hs : s.coreRuns = true) (tests : List (PortIx × LaneIx × Nat × Nat))
    (cyc : List (Bool × Nat × Nat × ClassIx × Nat)) :
    ∃ t, exec (.tickEdge tests cyc) s = .next t ∧ t.clock = { s.clock.next with guardDone := false } :=
  ⟨s.edge tests cyc, by simp only [exec, execTickEdge, hs, if_true], edge_clock s tests cyc⟩

theorem execTickStepped_clock {s : State} (ha : s.tick.adj.isSome) (hs : s.coreRuns = true) (tests : List (PortIx × LaneIx × Nat × Nat))
    (cyc : List (Bool × Nat × Nat × ClassIx × Nat)) :
    ∃ t, exec (.tickStepped tests cyc) s = .next t ∧ t.clock = { s.clock.next with guardDone := false } :=
  ⟨s.edge tests cyc, by simp only [exec, execTickStepped, ha, hs, and_self, if_true], edge_clock s tests cyc⟩

theorem execGuardPoint_clock (s : State) :
    ∃ t, exec .guardPoint s = .next t ∧ t.clock = { s.clock with guardDone := true } :=
  ⟨s.guard, rfl, guard_clock s⟩

/-- The adjustment tick is planned, or given up; the counts stay. -/
theorem execAdjustmentTickStart_loc {s t : State} (h : exec .adjustmentTickStart s = .next t) : t.tick.loc = s.tick.loc := by
  change execAdjustmentTickStart s = .next t at h
  unfold execAdjustmentTickStart at h
  split at h
  · cases h
    rfl
  · dsimp only at h
    split at h
    · cases h
      refine loc_of_clock (k := s.clock) (clock_of_ite ?_ (by simp))
      exact (gainLock_clock _).trans ((inTick_clock _ (by simp)).trans (by simp))
    · split at h
      · cases h
        exact loc_of_clock (k := s.clock) (by simp)
      · cases h
        rfl

/-- The commands that move the clock: the edge and what belongs to the tick itself, and the two power-up resets. -/
def movesClock : Instr → Bool
  | .tickEdge _ _ | .tickStepped _ _ | .guardPoint | .adjustmentTickStart | .keeperPowerOn | .coldModuleReset _ => true
  | _ => false

/-- Every other command keeps the clock. -/
theorem exec_clock {c : Instr} (hc : movesClock c = false) (s : State) : KeepsClock s (exec c s) := by
  cases c with
  | tickEdge tests cyc => cases hc
  | guardPoint => cases hc
  | syncReceive p m trim => exact execSyncReceive_clock p m trim s
  | masterLossTimeout => exact execMasterLossTimeout_clock s
  | adjustmentTickStart => cases hc
  | tickStepped tests cyc => cases hc
  | glbTickCtlMasterElig v => exact execGlbTickCtlMasterElig_clock v s
  | opWallclockMark q body => exact execOpWallclockMark_clock q body s
  | opUnitRetire q body => exact execOpUnitRetire_clock q body s
  | nalugPacketReceive k => exact execNalugPacketReceive_clock k s
  | mctpReassemblyTimeout src tag owner => exact execMctpReassemblyTimeout_clock src tag owner s
  | setEndpointId src eid => exact execSetEndpointId_clock src eid s
  | getEndpointId src => exact execGetEndpointId_clock src s
  | getMctpVersionSupport src => exact execGetMctpVersionSupport_clock src s
  | getMessageTypeSupport src => exact execGetMessageTypeSupport_clock src s
  | getVendorDefinedMessageSupport src => exact execGetVendorDefinedMessageSupport_clock src s
  | opIdentify q body => exact execOpIdentify_clock q body s
  | opRegRead q body => exact execOpRegRead_clock q body s
  | opRegWrite q body => exact execOpRegWrite_clock q body s
  | opSetModuleId q body => exact execOpSetModuleId_clock q body s
  | opReset q body => exact execOpReset_clock q body s
  | opLockAcquire q body => exact execOpLockAcquire_clock q body s
  | opLockRelease q body => exact execOpLockRelease_clock q body s
  | opLockQuery q body => exact execOpLockQuery_clock q body s
  | opStepPoll q body => exact execOpStepPoll_clock q body s
  | opStepResume q body => exact execOpStepResume_clock q body s
  | opEventConfig q body => exact execOpEventConfig_clock q body s
  | opEventLogRead q body => exact execOpEventLogRead_clock q body s
  | steppedCommandStep => exact execSteppedCommandStep_clock s
  | eventDrain => exact execEventDrain_clock s
  | glbEvPendWrite v => exact execGlbEvPendWrite_clock v s
  | smbusClockLowTimeout b => exact execSmbusClockLowTimeout_clock b s
  | i3cTargetReset b => exact execI3cTargetReset_clock b s
  | sbArbRetry b => exact execSbArbRetry_clock b s
  | pwrBrCmdWrite m vendor v => exact execPwrBrCmdWrite_clock m vendor v s
  | pwrBrDataRead m w => exact execPwrBrDataRead_clock m w s
  | bridgeTransactionDone cause data => exact execBridgeTransactionDone_clock cause data s
  | bridgeHoldLimit => exact execBridgeHoldLimit_clock s
  | bridgePollRound rs => exact execBridgePollRound_clock rs s
  | opPmbusRead q body => exact execOpPmbusRead_clock q body s
  | opPmbusWrite q body => exact execOpPmbusWrite_clock q body s
  | opTelemetryRead q body => exact execOpTelemetryRead_clock q body s
  | bootRomStart => exact execBootRomStart_clock s
  | recoveryBootStart => exact execRecoveryBootStart_clock s
  | bootWatchdogExpiry => exact execBootWatchdogExpiry_clock s
  | opFwWrite q body => exact execOpFwWrite_clock q body s
  | flashProgramDone fjx n ok => exact execFlashProgramDone_clock fjx n ok s
  | opFwCommit q body => exact execOpFwCommit_clock q body s
  | opFjxRead q body => exact execOpFjxRead_clock q body s
  | opFjxWrite q body => exact execOpFjxWrite_clock q body s
  | opFjxCommit q body => exact execOpFjxCommit_clock q body s
  | opLifecycleSet q body => exact execOpLifecycleSet_clock q body s
  | opDebugUnlock q body => exact execOpDebugUnlock_clock q body s
  | opMcSwitch q body => exact execOpMcSwitch_clock q body s
  | heartbeatTimeout => exact execHeartbeatTimeout_clock s
  | mcFatalFault c => exact execMcFatalFault_clock c s
  | checkpointStart => exact execCheckpointStart_clock s
  | checkpointSlice => exact execCheckpointSlice_clock s
  | mgtAcuCtlSelWrite t m lvl sel => exact execMgtAcuCtlSelWrite_clock t m lvl sel s
  | mgtAcuCtlLockWrite t m lvl => exact execMgtAcuCtlLockWrite_clock t m lvl s
  | registerWrite m lvl off bytes => exact execRegisterWrite_clock m lvl off bytes s
  | rcRegisterRead m lvl off n => exact execRcRegisterRead_clock m lvl off n s
  | counterLowWordRead m lvl off => exact execCounterLowWordRead_clock m lvl off s
  | seatPinsSeated => exact execSeatPinsSeated_clock s
  | seatPinChange a b => exact execSeatPinChange_clock a b s
  | seatDebounceExpiry => exact execSeatDebounceExpiry_clock s
  | onReqLow va vb vbus midA midB => exact execOnReqLow_clock va vb vbus midA midB s
  | faultOnReqCycle => exact execFaultOnReqCycle_clock s
  | inrushComplete => exact execInrushComplete_clock s
  | inrushTimeout => exact execInrushTimeout_clock s
  | inrushFeedLost => exact execInrushFeedLost_clock s
  | railGroupSettled g => exact execRailGroupSettled_clock g s
  | railGroupTimeout g => exact execRailGroupTimeout_clock g s
  | railFault g => exact execRailFault_clock g s
  | extraction => exact execExtraction_clock s
  | vbusUndervoltage => exact execVbusUndervoltage_clock s
  | onReqHigh => exact execOnReqHigh_clock s
  | opModuleOff q body => exact execOpModuleOff_clock q body s
  | pwrCtlOff => exact execPwrCtlOff_clock s
  | pwrCtlFeedAEn v => exact execPwrCtlFeedAEn_clock v s
  | pwrCtlFeedBEn v => exact execPwrCtlFeedBEn_clock v s
  | orderlyOffGroupDisable g => exact execOrderlyOffGroupDisable_clock g s
  | vbusDischarged => exact execVbusDischarged_clock s
  | feedOutOfRange f mv => exact execFeedOutOfRange_clock f mv s
  | feedInRange f mv => exact execFeedInRange_clock f mv s
  | oringTurnOff f => exact execOringTurnOff_clock f s
  | oringFail f => exact execOringFail_clock f s
  | cbTrip f ma => exact execCbTrip_clock f ma s
  | cbRetry f => exact execCbRetry_clock f s
  | passDamaged a b => exact execPassDamaged_clock a b s
  | keeperPowerOn => cases hc
  | pllLockLoss d => exact execPllLockLoss_clock d s
  | pllRelock d => exact execPllRelock_clock d s
  | tilePllRelockTimeout t => exact execTilePllRelockTimeout_clock t s
  | corePllRelockTimeout => exact execCorePllRelockTimeout_clock s
  | crossingEventDelivery x k => exact execCrossingEventDelivery_clock x k s
  | crossingTimeout x m off write req => exact execCrossingTimeout_clock x m off write req s
  | coldModuleReset fails => cases hc
  | warmModuleReset => exact execWarmModuleReset_clock s
  | warmResetDrainDone => exact execWarmResetDrainDone_clock s
  | tileReset t => exact execTileReset_clock t s
  | portReset p => exact execPortReset_clock p s
  | mortarHeaderUe => exact execMortarHeaderUe_clock s
  | sramUe st unit entry la => exact execSramUe_clock st unit entry la s
  | sfScrubSet b idle bad la => exact execSfScrubSet_clock b idle bad la s
  | hbmRefresh h pc idle => exact execHbmRefresh_clock h pc idle s
  | patrolScrubUnit h pc idle res la area addr => exact execPatrolScrubUnit_clock h pc idle res la area addr s
  | monitorSample temps volts => exact execMonitorSample_clock temps volts s
  | roMeasure khz => exact execRoMeasure_clock khz s
  | pmcConfigWrite tile c k v => exact execPmcConfigWrite_clock tile c k v s
  | pmcCntWrite tile c v => exact execPmcCntWrite_clock tile c v s
  | bwWindowEnd cxl => exact execBwWindowEnd_clock cxl s
  | dumpWriteUnit good => exact execDumpWriteUnit_clock good s
  | latencyRecordWrite => exact execLatencyRecordWrite_clock s
  | auditGo v => exact execAuditGo_clock v s
  | auditCheck => exact execAuditCheck_clock s
  | auditTimeout => exact execAuditTimeout_clock s
  | mortarBeatGrant d => exact execMortarBeatGrant_clock d s
  | tileMessageAccept p m => exact execTileMessageAccept_clock p m s
  | spillFetch p c egress => exact execSpillFetch_clock p c egress s
  | holdListRelease t fc src => exact execHoldListRelease_clock t fc src s
  | calendarSlotDue t fc src => exact execCalendarSlotDue_clock t fc src s
  | egressDrrTurn p credit => exact execEgressDrrTurn_clock p credit s
  | messageAged p c egress => exact execMessageAged_clock p c egress s
  | opQosFlowSet q body => exact execOpQosFlowSet_clock q body s
  | opQosFlowClear q body => exact execOpQosFlowClear_clock q body s
  | flowChangeApply => exact execFlowChangeApply_clock s
  | opQosReserve q body => exact execOpQosReserve_clock q body s
  | opQosRelease q body => exact execOpQosRelease_clock q body s
  | opQosTargetSet q body => exact execOpQosTargetSet_clock q body s
  | tlQosCtlWrite t v => exact execTlQosCtlWrite_clock t v s
  | qosModeChange t => exact execQosModeChange_clock t s
  | qosRescale tgt => exact execQosRescale_clock tgt s
  | homeRds r => exact execHomeRds_clock r s
  | homeRda r => exact execHomeRda_clock r s
  | homeRdown r => exact execHomeRdown_clock r s
  | homeNcr r => exact execHomeNcr_clock r s
  | homeNcw r => exact execHomeNcw_clock r s
  | homeWb r => exact execHomeWb_clock r s
  | homeCe r => exact execHomeCe_clock r s
  | memspecrd r => exact execMemspecrd_clock r s
  | clflush r => exact execClflush_clock r s
  | biconflict fid la => exact execBiconflict_clock fid la s
  | snoopResponse la a => exact execSnoopResponse_clock la a s
  | sfLookupDone k => exact execSfLookupDone_clock k s
  | deviceReadComplete rid d poison => exact execDeviceReadComplete_clock rid d poison s
  | lineStoreWriteAck la => exact execLineStoreWriteAck_clock la s
  | lineQueueAdvance la => exact execLineQueueAdvance_clock la s
  | lsVictimWriteDone la => exact execLsVictimWriteDone_clock la s
  | blanketWindowEnd => exact execBlanketWindowEnd_clock s
  | blanketEnter d => exact execBlanketEnter_clock d s
  | exitWalkStart d => exact execExitWalkStart_clock d s
  | exitWalkStep d => exact execExitWalkStep_clock d s
  | blanketExit d => exact execBlanketExit_clock d s
  | snoopTimeout k fid => exact execSnoopTimeout_clock k fid s
  | opSliceAssign q body => exact execOpSliceAssign_clock q body s
  | opSliceRelease q body => exact execOpSliceRelease_clock q body s
  | opDomainCreate q body => exact execOpDomainCreate_clock q body s
  | opDomainAgentAdd q body => exact execOpDomainAgentAdd_clock q body s
  | opDomainAgentRemove q body => exact execOpDomainAgentRemove_clock q body s
  | opDomainTeardown q body => exact execOpDomainTeardown_clock q body s
  | opVcsCreate q body => exact execOpVcsCreate_clock q body s
  | opVcsDestroy q body => exact execOpVcsDestroy_clock q body s
  | opVcsVppbBind q body => exact execOpVcsVppbBind_clock q body s
  | opVcsVppbUnbind q body => exact execOpVcsVppbUnbind_clock q body s
  | opBind q body => exact execOpBind_clock q body s
  | opUnbind q body => exact execOpUnbind_clock q body s
  | opRebind q body => exact execOpRebind_clock q body s
  | opDirRebuild q body => exact execOpDirRebuild_clock q body s
  | unbindDrainDone k => exact execUnbindDrainDone_clock k s
  | walkStep k => exact execWalkStep_clock k s
  | ptEdgeIdWrite p ld v => exact execPtEdgeIdWrite_clock p ld v s
  | hamperPortEntryWrite v k off b => exact execHamperPortEntryWrite_clock v k off b s
  | hamperPortHeaderWrite v k off b => exact execHamperPortHeaderWrite_clock v k off b s
  | hmpSlotAck v k => exact execHmpSlotAck_clock v k s
  | hpartReceive m => exact execHpartReceive_clock m s
  | hamperArbitration => exact execHamperArbitration_clock s
  | hamperLineAcquire key ix => exact execHamperLineAcquire_clock key ix s
  | hamperVoteSend key => exact execHamperVoteSend_clock key s
  | hvoteReceive m => exact execHvoteReceive_clock m s
  | hamperDecide => exact execHamperDecide_clock s
  | commitLogWriteAck key type => exact execCommitLogWriteAck_clock key type s
  | hdecideReceive m => exact execHdecideReceive_clock m s
  | hquerySend key => exact execHquerySend_clock key s
  | hqueryReceive m => exact execHqueryReceive_clock m s
  | hanswerReceive m => exact execHanswerReceive_clock m s
  | hamperIndoubtPoison key => exact execHamperIndoubtPoison_clock key s
  | indoubtRecordRewrite key => exact execIndoubtRecordRewrite_clock key s
  | hmpTimingWrite second v => exact execHmpTimingWrite_clock second v s
  | hbmBurstArrival h pc slot attempt half quality => exact execHbmBurstArrival_clock h pc slot attempt half quality s
  | pairingHoldExpiry h pc slot => exact execPairingHoldExpiry_clock h pc slot s
  | hbmStackRetire h => exact execHbmStackRetire_clock h s
  | mirrorCopyUnit => exact execMirrorCopyUnit_clock s
  | insDoorbellWrite ix tail => exact execInsDoorbellWrite_clock ix tail s
  | ringEnable ix ext => exact execRingEnable_clock ix ext s
  | ringDisable ix => exact execRingDisable_clock ix s
  | ringUnitFetch ix data => exact execRingUnitFetch_clock ix data s
  | nop ix ext => exact execNop_clock ix ext s
  | copy ix ext => exact execCopy_clock ix ext s
  | fill ix ext => exact execFill_clock ix ext s
  | compare ix ext => exact execCompare_clock ix ext s
  | crc32c ix ext => exact execCrc32c_clock ix ext s
  | reduce ix ext => exact execReduce_clock ix ext s
  | pageMove ix ext => exact execPageMove_clock ix ext s
  | hamper ix rec ext => exact execHamper_clock ix rec ext s
  | check fid tag slice off rights len => exact execCheck_clock fid tag slice off rights len s
  | jobStepBoundary ix rd bad => exact execJobStepBoundary_clock ix rd bad s
  | jobComplete ix good => exact execJobComplete_clock ix good s
  | hamperEntryOutcome ix => exact execHamperEntryOutcome_clock ix s
  | headPublish ix good => exact execHeadPublish_clock ix good s
  | refetch ix => exact execRefetch_clock ix s
  | atsInvalidation ix used => exact execAtsInvalidation_clock ix used s
  | pageMoveStepDone ix => exact execPageMoveStepDone_clock ix s
  | opInsBind q body => exact execOpInsBind_clock q body s
  | opInsUnbind q body => exact execOpInsUnbind_clock q body s
  | opInsSetRate q body => exact execOpInsSetRate_clock q body s
  | opInsReset q body => exact execOpInsReset_clock q body s
  | instanceWindowAccess v ix off wr n ext => exact execInstanceWindowAccess_clock v ix off wr n ext s
  | insIrqCtlWrite ix v => exact execInsIrqCtlWrite_clock ix v s
  | t2mSend ix => exact execT2mSend_clock ix s
  | t2mAck ix => exact execT2mAck_clock ix s
  | m2tSend ix => exact execM2tSend_clock ix s
  | m2tAck ix => exact execM2tAck_clock ix s
  | mailboxBufferWrite ix tenant m2t off b => exact execMailboxBufferWrite_clock ix tenant m2t off b s
  | shareChange => exact execShareChange_clock s
  | linkBringupStart p => exact execLinkBringupStart_clock p s
  | ptFlCtlEnWrite p v => exact execPtFlCtlEnWrite_clock p v s
  | ptFlCtlRateWrite p v => exact execPtFlCtlRateWrite_clock p v s
  | lanesLocked p => exact execLanesLocked_clock p s
  | laneAssignment p b1 b2 => exact execLaneAssignment_clock p b1 b2 s
  | alignDone p m => exact execAlignDone_clock p m s
  | initReceive p ix => exact execInitReceive_clock p ix s
  | linkTrainTimeout p => exact execLinkTrainTimeout_clock p s
  | linkTrainRetry p => exact execLinkTrainRetry_clock p s
  | downFlitReceive p cause => exact execDownFlitReceive_clock p cause s
  | markersMissed p => exact execMarkersMissed_clock p s
  | linkErrorLimit p => exact execLinkErrorLimit_clock p s
  | flitReceive p cwOk cw corr b => exact execFlitReceive_clock p cwOk cw corr b s
  | replayTimerExpiry p => exact execReplayTimerExpiry_clock p s
  | nakRepeatTimer p => exact execNakRepeatTimer_clock p s
  | linkMessageSend p cls len => exact execLinkMessageSend_clock p cls len s
  | creditFlitReceive p totals => exact execCreditFlitReceive_clock p totals s
  | creditFlitSend p => exact execCreditFlitSend_clock p s
  | creqReceive p h hev rights slice off mask data => exact execCreqReceive_clock p h hev rights slice off mask data s
  | crspReceive p h status reason grant data => exact execCrspReceive_clock p h status reason grant data s
  | snpReceive p h kind slice off home => exact execSnpReceive_clock p h kind slice off home s
  | snprspReceive p h rsp data => exact execSnprspReceive_clock p h rsp data s
  | ioMessageReceive p h bytes expect unit => exact execIoMessageReceive_clock p h bytes expect unit s
  | mctpMessageReceive p h bytes => exact execMctpMessageReceive_clock p h bytes s
  | remoteRequestTimeout tag => exact execRemoteRequestTimeout_clock tag s
  | delayReqSend p cyc sx => exact execDelayReqSend_clock p cyc sx s
  | delayReqReceive p t1 id cyc2 sx2 cyc3 sx3 => exact execDelayReqReceive_clock p t1 id cyc2 sx2 cyc3 sx3 s
  | delayRspReceive p t1 t2 t3 id cyc sx => exact execDelayRspReceive_clock p t1 t2 t3 id cyc sx s
  | laneCeThreshold p g => exact execLaneCeThreshold_clock p g s
  | spareReqReceive p g rot => exact execSpareReqReceive_clock p g rot s
  | spareReadyReceive p g => exact execSpareReadyReceive_clock p g s
  | spareRepeatTimer p => exact execSpareRepeatTimer_clock p s
  | spareDwellEnd p period cw => exact execSpareDwellEnd_clock p period cw s
  | spareSwitchPoint p => exact execSpareSwitchPoint_clock p s
  | spareSwitchReceive p period cw => exact execSpareSwitchReceive_clock p period cw s
  | spareDoneReceive p => exact execSpareDoneReceive_clock p s
  | spareAbortReceive p => exact execSpareAbortReceive_clock p s
  | spareBackReceive p => exact execSpareBackReceive_clock p s
  | spareLockTimeout p => exact execSpareLockTimeout_clock p s
  | rotationInterval p => exact execRotationInterval_clock p s
  | recalibrationDone p period cw => exact execRecalibrationDone_clock p period cw s
  | quietEnter p => exact execQuietEnter_clock p s
  | sleepIdleTimer p => exact execSleepIdleTimer_clock p s
  | sleepReqReceive p => exact execSleepReqReceive_clock p s
  | sleepAckReceive p => exact execSleepAckReceive_clock p s
  | sleepNakReceive p => exact execSleepNakReceive_clock p s
  | sleepCancelReceive p => exact execSleepCancelReceive_clock p s
  | wakeReceive p => exact execWakeReceive_clock p s
  | sleepWakeEvent p => exact execSleepWakeEvent_clock p s
  | sleepResponderTimeout p => exact execSleepResponderTimeout_clock p s
  | sleepExitDone p ok => exact execSleepExitDone_clock p ok s
  | expanderScan t b0 b1 => exact execExpanderScan_clock t b0 b1 s
  | cxlPresenceAccepted p => exact execCxlPresenceAccepted_clock p s
  | cxlPresenceLost p => exact execCxlPresenceLost_clock p s
  | cxlButtonAccepted p => exact execCxlButtonAccepted_clock p s
  | buttonWaitTimer p => exact execButtonWaitTimer_clock p s
  | cxlLinkUp p ix => exact execCxlLinkUp_clock p ix s
  | cxlTrainTimeout p => exact execCxlTrainTimeout_clock p s
  | cxlTrainRetry p => exact execCxlTrainRetry_clock p s
  | cxlRecovery p => exact execCxlRecovery_clock p s
  | cxlLinkDown p cause => exact execCxlLinkDown_clock p cause s
  | cxlDownTicksExpiry p => exact execCxlDownTicksExpiry_clock p s
  | cxlUncorrectableError p => exact execCxlUncorrectableError_clock p s
  | ptCxCtlRetrain p force => exact execPtCxCtlRetrain_clock p force s
  | ptCxCtlDpcRelease p => exact execPtCxCtlDpcRelease_clock p s
  | ptCxCtlEnWrite p v => exact execPtCxCtlEnWrite_clock p v s
  | ptCxCtlMgmtFnWrite p v => exact execPtCxCtlMgmtFnWrite_clock p v s
  | vppbDpcRelease v k => exact execVppbDpcRelease_clock v k s
  | ptCxHpCtlRemoveOk p => exact execPtCxHpCtlRemoveOk_clock p s
  | ptCxHpCtlCancel p => exact execPtCxHpCtlCancel_clock p s
  | hostSlotControlWrite v k pwr attn off => exact execHostSlotControlWrite_clock v k pwr attn off s
  | opPortMode q body => exact execOpPortMode_clock q body s
  | opPortMerge q body => exact execOpPortMerge_clock q body s
  | identifySwitchDevice src => exact execIdentifySwitchDevice_clock src s
  | getPhysicalPortState src ports => exact execGetPhysicalPortState_clock src ports s
  | physicalPortControl src port op => exact execPhysicalPortControl_clock src port op s
  | sendPpbCxlIoConfigurationRequest src port b => exact execSendPpbCxlIoConfigurationRequest_clock src port b s
  | getVirtualCxlSwitchInfo src v => exact execGetVirtualCxlSwitchInfo_clock src v s
  | bindVppb src v k port ld => exact execBindVppb_clock src v k port ld s
  | unbindVppb src v k => exact execUnbindVppb_clock src v k s
  | generateAerEvent src v k => exact execGenerateAerEvent_clock src v k s
  | tunnelManagementCommand src port b => exact execTunnelManagementCommand_clock src port b s
  | sendLdCxlIoConfigurationRequest src port ld b => exact execSendLdCxlIoConfigurationRequest_clock src port ld b s
  | sendLdCxlIoMemoryRequest src port ld b => exact execSendLdCxlIoMemoryRequest_clock src port ld b s
  | fmApiUnsupported src opcode => exact execFmApiUnsupported_clock src opcode s
  | laneReceiverDetected p l => exact execLaneReceiverDetected_clock p l s
  | laneDetectTimeout p l => exact execLaneDetectTimeout_clock p l s
  | lanePatternFound p l inv blocks => exact execLanePatternFound_clock p l inv blocks s
  | laneIdentTimeout p l => exact execLaneIdentTimeout_clock p l s
  | laneSweepDwellEnd p l height => exact execLaneSweepDwellEnd_clock p l height s
  | laneDfeSettled p l settled d0 d1 => exact execLaneDfeSettled_clock p l settled d0 d1 s
  | laneCheckPass p l heights => exact execLaneCheckPass_clock p l heights s
  | laneCheckTimeout p l => exact execLaneCheckTimeout_clock p l s
  | laneStandbyEnter p l => exact execLaneStandbyEnter_clock p l s
  | laneRelockRequest p l => exact execLaneRelockRequest_clock p l s
  | laneRelockDone p l => exact execLaneRelockDone_clock p l s
  | laneRelockTimeout p l => exact execLaneRelockTimeout_clock p l s
  | laneLossOfSignal p l => exact execLaneLossOfSignal_clock p l s
  | laneCdrLoss p l => exact execLaneCdrLoss_clock p l s
  | eyeMeasurement p l height width => exact execEyeMeasurement_clock p l height width s
  | peakingTrackStep p l up => exact execPeakingTrackStep_clock p l up s
  | lnTestCtlGenEn p l v => exact execLnTestCtlGenEn_clock p l v s
  | lnTestCtlChkEn p l v => exact execLnTestCtlChkEn_clock p l v s
  | lnTestCtlInjOne p l v => exact execLnTestCtlInjOne_clock p l v s
  | checkerSync p l reg => exact execCheckerSync_clock p l reg s
  | checkerSyncLost p l n wrong => exact execCheckerSyncLost_clock p l n wrong s
  | lnMarginCtlGo p l v => exact execLnMarginCtlGo_clock p l v s
  | marginDone p l errors => exact execMarginDone_clock p l errors s
  | pcieMarginingCommand p l run => exact execPcieMarginingCommand_clock p l run s
  | keeperSupplyLost => exact execKeeperSupplyLost_clock s
  | sidebandBusSupplyLoss b => exact execSidebandBusSupplyLoss_clock b s
  | i3cEntdaa b addr => exact execI3cEntdaa_clock b addr s
  | hdmDecoderWrite v base ig iw => exact execHdmDecoderWrite_clock v base ig iw s
  | deviceWriteComplete la => exact execDeviceWriteComplete_clock la s
  | rxElectricalIdleDetect p => exact execRxElectricalIdleDetect_clock p s
  | pseudoChannelRetrainFail h pc => exact execPseudoChannelRetrainFail_clock h pc s

end Sys2Proof.Machine
end

section
namespace Sys2Proof.Machine

/-! ### The local tick count (R19, R21) -/

/-- The two registers of GLB_TICK_LOCAL show the halves of the count. -/
theorem view_glbTickLocal (s : State) : s.view glbTickLocal + 2 ^ 32 * s.view (glbTickLocal + 4) = s.tick.loc.toNat := by
  have hlo : s.view glbTickLocal = half32 s.tick.loc.toNat 0 := rfl
  have hhi : s.view (glbTickLocal + 4) = half32 s.tick.loc.toNat 1 := rfl
  have hlt : s.tick.loc.toNat < 2 ^ 48 := s.tick.loc.isLt
  rw [hlo, hhi]
  unfold half32
  omega

theorem tickEarlier_iff (a b : Tick) : tickEarlier a b = true ↔ 1 ≤ (b - a).toNat ∧ (b - a).toNat ≤ 2 ^ 47 - 1 := by
  simp only [tickEarlier, Bool.and_eq_true, decide_eq_true_eq]
  omega

theorem execTickEdge_of_stopped {s : State} (hs : s.coreRuns = false) (tests : List (PortIx × LaneIx × Nat × Nat))
    (cyc : List (Bool × Nat × Nat × ClassIx × Nat)) : exec (.tickEdge tests cyc) s = .next s := by
  simp only [exec, execTickEdge, hs, Bool.false_eq_true, if_false]

theorem execKeeperPowerOn_loc {s : State} (hs : s.pwr.supply = false) : ∃ t, exec .keeperPowerOn s = .next t ∧ t.tick.loc = 0 := by
  refine ⟨{ s.coldBase with pwr := {}, regs := [] }, by simp only [exec, execKeeperPowerOn, hs, Bool.false_eq_true, if_false], ?_⟩
  exact loc_of_clock (k := ⟨0, 0, false, none, s.pending⟩) (by rw [clock_update, coldBase_clock])

theorem execColdModuleReset_loc {s : State} (hs : (s.dueReset 2 0).isSome = true) (fails : List (Fin 12 × Nat)) :
    ∃ t, exec (.coldModuleReset fails) s = .next t ∧ t.tick.loc = 0 := by
  obtain ⟨r, hr⟩ := Option.isSome_iff_exists.mp hs
  refine ⟨s.coldReset r.2.2.1 (fails.map (fun u => (u.1.val, u.2))), by simp only [exec, execColdModuleReset, hr], ?_⟩
  exact loc_of_clock ((coldReset_clock _ _ _).trans (coldBase_clock s))

/-- The commands that change the local tick count. -/
theorem exec_loc {c : Instr} {s t : State} (h : exec c s = .next t) (hne : t.tick.loc ≠ s.tick.loc) :
    c = .keeperPowerOn ∨ (∃ fails, c = .coldModuleReset fails) ∨ ∃ tests cyc, c = .tickEdge tests cyc ∨ c = .tickStepped tests cyc := by
  cases hc : movesClock c with
  | false => exact absurd (loc_of_clock (exec_clock hc s t h)) hne
  | true =>
    cases c with
    | tickEdge tests cyc => exact .inr (.inr ⟨tests, cyc, .inl rfl⟩)
    | tickStepped tests cyc => exact .inr (.inr ⟨tests, cyc, .inr rfl⟩)
    | keeperPowerOn => exact .inl rfl
    | coldModuleReset fails => exact .inr (.inl ⟨fails, rfl⟩)
    | guardPoint =>
      obtain ⟨u, hu, hk⟩ := execGuardPoint_clock s
      cases hu.symm.trans h
      exact absurd (loc_of_clock hk) hne
    | adjustmentTickStart => exact absurd (execAdjustmentTickStart_loc h) hne
    | _ => cases hc

/-- Settles O5: every function of the model but the edge and the cold base keeps the clock (`exec_clock`); an edge takes the next
count, and the core die that is not powered makes none (R31). -/
theorem localTicks : Obligations.LocalTicks := by
  unfold Obligations.LocalTicks
  refine ⟨fun tests cyc s => ⟨fun hs => ?_, fun hs => execTickEdge_of_stopped hs tests cyc⟩, fun s hs => execKeeperPowerOn_loc hs,
    fun fails s hs => execColdModuleReset_loc hs fails, fun c s t h hne => exec_loc h hne, view_glbTickLocal, tickEarlier_iff⟩
  obtain ⟨t, ht, hk⟩ := execTickEdge_clock hs tests cyc
  exact ⟨t, ht, loc_of_clock hk⟩

end Sys2Proof.Machine
end

section
namespace Sys2Proof.Machine

/-! ### LOCKED and STEP_PENDING (R22) -/

@[simp] theorem inTick_tick (s : State) (f : TickS → TickS) : (s.inTick f).tick = f s.tick := (rfl)

theorem raise_seq (s : State) (code : Nat) (vals : List EvVal) : (s.raise code vals).ev.seq = s.ev.seq + 1 := by
  unfold State.raise
  dsimp only
  split
  · rfl
  · exact congrArg EvS.seq (cnt_ev _ _ _)

theorem bit_eq_of_reg {s t : State} {o : Nat} (h : t.reg o = s.reg o) (i : Nat) : t.bit o i = s.bit o i := by
  have hf : t.fld o i 1 = s.fld o i 1 := congrArg (fun w => bits w i 1) h
  unfold State.bit
  rw [hf]

/-- LOCKED and STEP_PENDING are bits of GLB_TICK_STATUS, which an event does not change. -/
theorem raise_tickStatus (s : State) (code : Nat) (vals : List EvVal) (i : Nat) :
    (s.raise code vals).bit glbTickStatus i = s.bit glbTickStatus i :=
  bit_eq_of_reg (raise_reg s code vals (by decide)) i

theorem loseLock_locked (s : State) (cause : Nat) : (s.loseLock cause).locked = false := by
  unfold State.loseLock
  split
  · exact (raise_tickStatus _ _ _ _).trans (bit_setBit_self s glbTickStatus 31 false (by decide))
  · next h => exact Bool.eq_false_iff.mpr h

theorem gainLock_locked (s : State) : s.gainLock.locked = true := by
  unfold State.gainLock
  split
  · next h => exact h
  · exact (raise_tickStatus _ _ _ _).trans (bit_setBit_self s glbTickStatus 31 true (by decide))

@[simp] theorem loseLock_tick (s : State) (cause : Nat) : (s.loseLock cause).tick = s.tick := by
  unfold State.loseLock
  split <;> simp

@[simp] theorem gainLock_tick (s : State) : s.gainLock.tick = s.tick := by
  unfold State.gainLock
  split <;> simp

theorem loseLock_seq {s : State} (h : s.locked = true) (cause : Nat) : (s.loseLock cause).ev.seq = s.ev.seq + 1 := by
  unfold State.loseLock
  rw [if_pos h, raise_seq, setBit_ev]

/-! ### A SYNC (R251, R252) -/

@[simp] theorem follow_tick (s : State) (p : Nat) (m : SyncMsg) (trim : Int) : (s.follow p m trim).tick = s.tick := by
  unfold State.follow
  dsimp only
  split
  · split
    · split <;> simp
    · simp
  split
  · simp
  split <;> simp

theorem setPhase_tickStatus (s : State) (v i : Nat) : (s.setN glbTickPhase v).bit glbTickStatus i = s.bit glbTickStatus i :=
  bit_eq_of_reg (by rw [reg_setN, if_neg (by decide)]) i

/-- The number of the tick that the SYNC names is not the module's own: LOCKED ends, and a step is due. -/
theorem follow_of_ne {s : State} {p : Nat} {m : SyncMsg} (trim : Int) (hl : s.locked = true)
    (hm : m.ftick ≠ s.tick.fab + BitVec.ofInt 48 (nearestEdge (s.masterEdge p m))) :
    (s.follow p m trim).locked = false ∧ (s.follow p m trim).stepPending = true := by
  unfold State.follow
  extract_lets e ph own good tr s1
  have h1 : s1.locked = true := (setPhase_tickStatus s _ 31).trans hl
  have hg : good = false := by simp only [good, own, e, hm, decide_false, Bool.false_and]
  clear_value s1 good
  rw [if_pos h1, hg, if_neg Bool.false_ne_true]
  exact ⟨(bit_setBit _ _ _ _ _ true (by decide) (.inr (by decide))).trans (loseLock_locked s1 3),
    bit_setBit_self _ _ _ true (by decide)⟩

/-- The SYNC names the module's own tick with a phase error within 24 cycles: LOCKED begins. -/
theorem follow_of_eq {s : State} {p : Nat} {m : SyncMsg} (trim : Int) (hl : s.locked = false) (hs : s.stepPending = false)
    (hm : m.ftick = s.tick.fab + BitVec.ofInt 48 (nearestEdge (s.masterEdge p m)))
    (hu : phaseOf (s.masterEdge p m) ≤ 384) (hd : -384 ≤ phaseOf (s.masterEdge p m)) :
    (s.follow p m trim).locked = true := by
  unfold State.follow
  extract_lets e ph own good tr s1
  have h1 : s1.locked = false := (setPhase_tickStatus s _ 31).trans hl
  have h2 : s1.stepPending = false := (setPhase_tickStatus s _ 30).trans hs
  have hg : good = true := by simp only [good, own, e, ph, hm, hu, hd, decide_true, Bool.and_self]
  clear_value s1 good
  rw [h1, if_neg Bool.false_ne_true, h2, if_neg Bool.false_ne_true, hg, if_pos rfl]
  exact gainLock_locked s1

/-- A SYNC is kept, newest first. -/
def State.keepSync (s : State) (p : PortIx) (m : SyncMsg) : State :=
  s.inTick (fun t => { t with syncs := tput [] t.syncs p ((m, s.tick.loc) :: tget [] t.syncs p) })

theorem execSyncReceive_eq {s : State} {p : PortIx} (hp : s.linkL0 p = true) (m : SyncMsg) (trim : Int) :
    exec (.syncReceive p m trim) s =
      .next (if s.upstream = some p.val ∧ s.tick.adj.isNone then (s.keepSync p m).follow p m trim else s.keepSync p m) := by
  change execSyncReceive p m trim s = _
  unfold execSyncReceive
  rw [hp, if_neg (by decide)]
  exact (apply_ite Host.Outcome.next _ _ _).symm

theorem keepSync_masterEdge (s : State) (p : PortIx) (m : SyncMsg) : (s.keepSync p m).masterEdge p m = s.masterEdge p m := by
  simp only [State.masterEdge, fld_congr (show (s.keepSync p m).regs = s.regs from inTick_regs s _)]

theorem keepSync_syncs (s : State) (p : PortIx) (m : SyncMsg) :
    tget [] (s.keepSync p m).tick.syncs p = (m, s.tick.loc) :: tget [] s.tick.syncs p := by
  simp [State.keepSync]

theorem execSyncReceive_syncs {s : State} {p : PortIx} (hp : s.linkL0 p = true) (m : SyncMsg) (trim : Int) :
    ∃ t, exec (.syncReceive p m trim) s = .next t ∧ tget [] t.tick.syncs p = (m, s.tick.loc) :: tget [] s.tick.syncs p := by
  refine ⟨_, execSyncReceive_eq hp m trim, ?_⟩
  split
  · rw [follow_tick, keepSync_syncs]
  · exact keepSync_syncs s p m

theorem execSyncReceive_of_ne {s : State} {p : PortIx} {m : SyncMsg} (hp : s.linkL0 p = true) (hu : s.upstream = some p.val)
    (ha : s.tick.adj = none) (hl : s.locked = true)
    (hm : m.ftick ≠ s.tick.fab + BitVec.ofInt 48 (nearestEdge (s.masterEdge p m))) (trim : Int) :
    ∃ t, exec (.syncReceive p m trim) s = .next t ∧ t.locked = false ∧ t.stepPending = true := by
  refine ⟨_, execSyncReceive_eq hp m trim, ?_⟩
  rw [if_pos ⟨hu, by rw [ha]; rfl⟩]
  refine follow_of_ne trim ((bit_congr (inTick_regs s _) _ _).trans hl) ?_
  rw [keepSync_masterEdge]
  exact hm

theorem execSyncReceive_of_eq {s : State} {p : PortIx} {m : SyncMsg} (hp : s.linkL0 p = true) (hu : s.upstream = some p.val)
    (ha : s.tick.adj = none) (hl : s.locked = false) (hs : s.stepPending = false)
    (hm : m.ftick = s.tick.fab + BitVec.ofInt 48 (nearestEdge (s.masterEdge p m)))
    (hup : phaseOf (s.masterEdge p m) ≤ 384) (hdn : -384 ≤ phaseOf (s.masterEdge p m)) (trim : Int) :
    ∃ t, exec (.syncReceive p m trim) s = .next t ∧ t.locked = true := by
  refine ⟨_, execSyncReceive_eq hp m trim, ?_⟩
  rw [if_pos ⟨hu, by rw [ha]; rfl⟩]
  have he := keepSync_masterEdge s p m
  exact follow_of_eq trim ((bit_congr (inTick_regs s _) _ _).trans hl) ((bit_congr (inTick_regs s _) _ _).trans hs)
    (by rw [he]; exact hm) (by rw [he]; exact hup) (by rw [he]; exact hdn)

theorem execMasterLossTimeout_lost {s : State} {a : Tick} (ha : s.tick.lostAt = some a) (h64 : 64 ≤ ticksSince a s.tick.loc)
    (hl : s.locked = true) :
    ∃ t, exec .masterLossTimeout s = .next t ∧ t.locked = false ∧ t.ev.seq = s.ev.seq + 1 ∧ t.tick = s.tick :=
  ⟨s.loseLock 2, by simp only [exec, execMasterLossTimeout, ha, h64, if_true], loseLock_locked s 2, loseLock_seq hl 2, loseLock_tick s 2⟩

theorem execGlbTickCtlMasterElig_eq (v : Bool) (s : State) :
    ∃ t, exec (.glbTickCtlMasterElig v) s = .next t ∧ t.bit glbTickCtl 31 = v ∧ (∀ o, o ≠ glbTickCtl → t.reg o = s.reg o) ∧
      t.tick = s.tick :=
  ⟨s.setBit glbTickCtl 31 v, rfl, bit_setBit_self s _ _ v (by decide), fun o ho => by rw [reg_setBit, if_neg ho], setBit_tick s _ _ v⟩

/-! ### The step (R24) -/

theorem execAdjustmentTickStart_begins {s : State} {p : Nat} {m : SyncMsg} {a : Tick} (hs : s.stepPending = true) (ha : s.tick.adj = none)
    (hd : s.tick.adjDue = true) (hg : s.tick.guardDone = false) (hu : s.upstream = some p)
    (hm : (tget [] s.tick.syncs p).head? = some (m, a)) :
    ∃ t d new, exec .adjustmentTickStart s = .next t ∧ t.tick.adj = some (d, new) ∧ t.tick.loc = s.tick.loc ∧ t.regs = s.regs ∧
      (let x := s.masterEdge p m - (ticksSince a s.tick.loc : Int) * tick16
       d = (stepExtra x / 16).toNat ∧ new = m.ftick + BitVec.ofInt 48 (stepTicks x)) := by
  refine ⟨s.inTick (fun t => { t with adj := some (_, _) }), _, _, ?_, rfl, rfl, rfl, rfl, rfl⟩
  change execAdjustmentTickStart s = _
  unfold execAdjustmentTickStart
  simp only [hs, ha, hd, hg, hu, hm]
  rfl

theorem execAdjustmentTickStart_of_not_due {s : State} (hd : s.tick.adjDue = false) : exec .adjustmentTickStart s = .next s := by
  change execAdjustmentTickStart s = _
  unfold execAdjustmentTickStart
  rw [if_pos (by simp [hd])]

/-- The edge's last act: what it finds pending and crossed by no open hamper decides the tick that it opens. -/
theorem edge_adjDue (s : State) (tests : List (PortIx × LaneIx × Nat × Nat)) (cyc : List (Bool × Nat × Nat × ClassIx × Nat)) :
    (s.edge tests cyc).tick.adjDue = ((s.edge tests cyc).stepPending && (s.edge tests cyc).noOpenHamper) := by
  have key : ∀ u : State, ((u.rateEdge).inTick (fun t => { t with adjDue := u.stepPending && u.noOpenHamper })).tick.adjDue =
      (((u.rateEdge).inTick (fun t => { t with adjDue := u.stepPending && u.noOpenHamper })).stepPending &&
        ((u.rateEdge).inTick (fun t => { t with adjDue := u.stepPending && u.noOpenHamper })).noOpenHamper) := fun u => rfl
  exact key _

/-! ### Sending on a link -/

/-- What a link holds of its own delay request. -/
def LinkS.request (l : LinkS) : Option (Nat × Nat) × Option Tick := (l.req, l.reqAt)

@[simp] theorem link_setLink (s : State) (p : Nat) (x : LinkS) : (s.setLink p x).link p = x := by
  simp [State.link, State.setLink]

theorem link_congr {s t : State} (h : t.lnk = s.lnk) (p : Nat) : t.link p = s.link p := by
  unfold State.link
  rw [h]

theorem sendCw_request (s : State) (p : Nat) (quiet : Bool) (flits : List (List Byte)) :
    ((s.sendCw p quiet flits).link p).request = (s.link p).request := by
  have he : ∀ (t : State) (o : Out), (t.emit o).link p = t.link p := fun t o => rfl
  unfold State.sendCw
  extract_lets l fl e lanes out n o l1
  split
  · rw [he, he, link_setLink]
    rfl
  · rw [he, link_setLink]
    rfl

theorem mem_sendCw_out {s : State} {m : Out} (h : m ∈ s.out) (p : Nat) (quiet : Bool) (flits : List (List Byte)) :
    m ∈ (s.sendCw p quiet flits).out := by
  unfold State.sendCw
  dsimp only
  split <;> simp [State.emit, h]

theorem quietExit_request (s : State) (p : Nat) : ((s.quietExit p).link p).request = (s.link p).request := by
  unfold State.quietExit
  split
  · rw [link_congr (setFld_lnk _ _ _ _ _), sendCw_request]
  · rfl

theorem mem_each_out {α : Type} {f : α → State → State} {m : Out} (h : ∀ a t, m ∈ t.out → m ∈ (f a t).out) (l : List α) {s : State}
    (hs : m ∈ s.out) : m ∈ (s.each l f).out := by
  unfold State.each
  induction l generalizing s with
  | nil => exact hs
  | cons a r ih => exact ih (h a s hs)

/-- A control flit is sent, whatever codewords carry it. -/
theorem mem_ctl_out (s : State) (p ctype : Nat) (vals : List Nat) (n : Nat) : Out.ctlFlit p ctype vals ∈ (s.ctl p ctype vals n).out :=
  mem_each_out (fun _ _ ht => mem_sendCw_out ht _ _ _) _ (by simp [State.emit])

theorem each_request {α : Type} {p : Nat} {f : α → State → State} (h : ∀ a t, ((f a t).link p).request = (t.link p).request)
    (l : List α) (s : State) : ((s.each l f).link p).request = (s.link p).request := by
  unfold State.each
  induction l generalizing s with
  | nil => rfl
  | cons a r ih => exact (ih (f a s)).trans (h a s)

theorem ctl_request (s : State) (p ctype : Nat) (vals : List Nat) (n : Nat) :
    ((s.ctl p ctype vals n).link p).request = (s.link p).request :=
  (each_request (fun _ t => sendCw_request t p false _) _ _).trans (quietExit_request s p)

/-! ### The delay of a link (R249) -/

theorem execDelayReqSend_due {p : PortIx} (cyc : BitVec 12) (sx : BitVec 4) {s : State} (hp : s.linkL0 p = true)
    (h16 : ∀ a, (s.link p).reqAt = some a → 16 ≤ ticksSince a s.tick.loc) :
    ∃ t, exec (.delayReqSend p cyc sx) s = .next t ∧ (t.link p).req = some (s.stampAt cyc sx, (s.link p).reqNo) ∧
      (t.link p).reqAt = some s.tick.loc ∧ Out.ctlFlit p 4 [s.stampAt cyc sx, (s.link p).reqNo] ∈ t.out := by
  have hdue : (match (s.link p).reqAt with | some t => decide (16 ≤ ticksSince t s.tick.loc) | none => true) = true := by
    cases ha : (s.link p).reqAt with
    | none => rfl
    | some a => exact decide_eq_true (h16 a ha)
  generalize hl : ({ s.link p with
    req := some (s.stampAt cyc sx, (s.link p).reqNo), reqNo := ((s.link p).reqNo + 1) % 2 ^ 32, reqAt := some s.tick.loc } : LinkS) = l
  have hr : (((s.setLink p l).ctl p 4 [s.stampAt cyc sx, (s.link p).reqNo]).link p).request = l.request :=
    (ctl_request _ _ _ _ _).trans (congrArg LinkS.request (link_setLink s p l))
  have hq : l.request = (some (s.stampAt cyc sx, (s.link p).reqNo), some s.tick.loc) := by rw [← hl]; rfl
  refine ⟨(s.setLink p l).ctl p 4 [s.stampAt cyc sx, (s.link p).reqNo], ?_, congrArg Prod.fst (hr.trans hq),
    congrArg Prod.snd (hr.trans hq), mem_ctl_out _ _ _ _ _⟩
  rw [← hl]
  exact if_pos ⟨hp, hdue⟩

theorem execDelayReqReceive_answers {p : PortIx} (t1 : BitVec 64) (id : Word) (c2 : BitVec 12) (x2 : BitVec 4) (c3 : BitVec 12)
    (x3 : BitVec 4) {s : State} (hp : s.linkL0 p = true) :
    ∃ t, exec (.delayReqReceive p t1 id c2 x2 c3 x3) s = .next t ∧
      Out.ctlFlit p 5 [t1.toNat, s.stampAt c2 x2, s.stampAt c3 x3, id.toNat] ∈ t.out :=
  ⟨_, if_pos hp, mem_ctl_out s _ _ _ _⟩

/-- The eighth sample: the register shows the median of the eight (log 148). -/
theorem execDelayRspReceive_eighth {p : PortIx} (t1 t2 t3 : BitVec 64) (id : Word) (cyc : BitVec 12) (sx : BitVec 4) {s : State} {d : Int}
    (hd : d = (((stampVal (s.stampAt cyc sx) : Int) - stampVal t1.toNat) - ((stampVal t3.toNat : Int) - stampVal t2.toNat)) / 2)
    (hp : s.linkL0 p = true) (hr : (s.link p).req = some (t1.toNat, id.toNat)) (h7 : (s.link p).delays.length = 7)
    (he : (s.link p).delayEv = none) :
    ∃ t, exec (.delayRspReceive p t1 t2 t3 id cyc sx) s = .next t ∧ (t.link p).req = none ∧
      (t.link p).delays = (s.link p).delays ++ [d.toNat] ∧
      t.nreg (ptFlDelay p) = 2 ^ 31 + median8 ((s.link p).delays ++ [d.toNat]) % 2 ^ 24 := by
  have hlen : ((s.link p).delays ++ [d.toNat]).length = 8 := by simp [h7]
  have hds : (((s.link p).delays ++ [d.toNat]).reverse.take 8).reverse = (s.link p).delays ++ [d.toNat] := by
    rw [List.take_of_length_le (by simp [h7]), List.reverse_reverse]
  generalize hm : median8 ((s.link p).delays ++ [d.toNat]) = m
  refine ⟨(s.setLink p { s.link p with delays := (s.link p).delays ++ [d.toNat], req := none, delayEv := some m }).setN (ptFlDelay p)
    (2 ^ 31 + m % 2 ^ 24), ?_, ?_, ?_, ?_⟩
  · change execDelayRspReceive p t1 t2 t3 id cyc sx s = _
    unfold execDelayRspReceive
    simp only [hp, hr, he, ← hd, hds, hlen, hm]
    simp
  · exact congrArg LinkS.req ((link_congr (setN_lnk _ _ _) p).trans (link_setLink s p _))
  · exact congrArg LinkS.delays ((link_congr (setN_lnk _ _ _) p).trans (link_setLink s p _))
  · simp only [State.nreg, reg_setN, if_true, BitVec.toNat_ofNat]
    omega

theorem execDelayRspReceive_of_ne {p : PortIx} (t1 t2 t3 : BitVec 64) (id : Word) (cyc : BitVec 12) (sx : BitVec 4) {s : State}
    (hr : (s.link p).req ≠ some (t1.toNat, id.toNat)) : exec (.delayRspReceive p t1 t2 t3 id cyc sx) s = .next s := by
  change execDelayRspReceive p t1 t2 t3 id cyc sx s = _
  unfold execDelayRspReceive
  exact if_pos (by simp [hr])

/-- Settles O6: the edges by the clock's rules (`edge_clock`, `guard_clock`), the SYNC by `State.follow`, the delay by what a control
flit leaves of its link. Of the values the median of eight is the model's own choice (log 148), and so are the floor in d (log 26) and
TICK_STEPPED as the adjustment tick's closing edge (log 27). -/
theorem tickAndMaster : Obligations.TickAndMaster := by
  unfold Obligations.TickAndMaster
  refine ⟨fun tests cyc s ha hs => ?_, fun tests cyc d new s ha hs => ?_, fun s _ => ?_, execGlbTickCtlMasterElig_eq,
    fun p m trim s hp => ⟨execSyncReceive_syncs hp m trim, fun hu ha hl hm => execSyncReceive_of_ne hp hu ha hl hm trim,
      fun hu ha hl hs hm hup hdn => execSyncReceive_of_eq hp hu ha hl hs hm hup hdn trim⟩,
    fun a s ha h64 hl => execMasterLossTimeout_lost ha h64 hl,
    fun p m a s hs ha hd hg hu hm => execAdjustmentTickStart_begins hs ha hd hg hu hm,
    fun s hd => execAdjustmentTickStart_of_not_due hd, fun tests cyc s hs => ?_,
    fun p cyc sx s hp h16 => execDelayReqSend_due cyc sx hp h16,
    fun p t1 id c2 x2 c3 x3 s hp => execDelayReqReceive_answers t1 id c2 x2 c3 x3 hp,
    fun p t1 t2 t3 id cyc sx s hp hr h7 he => execDelayRspReceive_eighth t1 t2 t3 id cyc sx rfl hp hr h7 he,
    fun p t1 t2 t3 id cyc sx s hr => execDelayRspReceive_of_ne t1 t2 t3 id cyc sx hr⟩
  · obtain ⟨t, ht, hk⟩ := execTickEdge_clock hs tests cyc
    exact ⟨t, ht, loc_of_clock hk, (fab_of_clock hk).trans (by simp only [Clock.next, State.clock, ha]), guardDone_of_clock hk, pending_of_clock hk⟩
  · obtain ⟨t, ht, hk⟩ := execTickStepped_clock (by rw [ha]; rfl) hs tests cyc
    exact ⟨t, ht, loc_of_clock hk, (fab_of_clock hk).trans (by simp only [Clock.next, State.clock, ha]), adj_of_clock hk, guardDone_of_clock hk⟩
  · obtain ⟨t, ht, hk⟩ := execGuardPoint_clock s
    exact ⟨t, ht, guardDone_of_clock hk, loc_of_clock hk, fab_of_clock hk, adj_of_clock hk⟩
  · exact ⟨s.edge tests cyc, by simp only [exec, execTickEdge, hs, if_true], edge_adjDue s tests cyc⟩

end Sys2Proof.Machine
end

section
namespace Sys2Proof.Machine

/-! ### An admitted command -/

/-- An admitted command whose action answers: its action's state, counted, journaled and answered. -/
theorem nalug_run_answered {s t : State} {code st : Nat} {q : Req} {body b : List Byte} {f g : OpForm}
    {act : State → State × Option (Nat × List Byte)} (h : s.admitted code q f = true) (hg : g = f)
    (ha : act (s.begun code q body) = (t, some (st, b))) : s.nalug_run code q body g act = t.answered code q st b := by
  rw [hg, nalug_run_of_admitted act h, ha]

theorem mem_answered_out (t : State) (code : Nat) (q : Req) (st : Nat) (b : List Byte) :
    Out.reply q code st b ∈ (t.answered code q st b).out := by
  rw [answered_out]
  exact List.mem_append_right _ (List.mem_singleton.mpr rfl)

/-! ### Registers that a command's action sees -/

section Begun
variable (s : State) (code : Nat) (q : Req) (body : List Byte)

@[simp] theorem begun_activeCore : (s.begun code q body).activeCore = s.activeCore := begun_fld s code q body _ _ _

@[simp] theorem begun_opRefused (ws : List Nat) (write : Bool) : (s.begun code q body).opRefused ws write = s.opRefused ws write := by
  simp [State.opRefused, State.slotGrants]

@[simp] theorem begun_absentAt : (s.begun code q body).absentAt = s.absentAt := by
  funext o
  unfold State.absentAt
  simp only [begun_present]

@[simp] theorem begun_edges : (s.begun code q body).edges = s.edges := by
  simp [State.edges]

@[simp] theorem begun_edgeClash (ws : List Nat) (es : List (Nat × Nat × Nat)) :
    (s.begun code q body).edgeClash ws es = s.edgeClash ws es := by
  simp [State.edgeClash]

@[simp] theorem begun_pmode (p : Nat) : (s.begun code q body).pmode p = s.pmode p := begun_fld s code q body _ _ _

@[simp] theorem begun_flState (p : Nat) : (s.begun code q body).flState p = s.flState p := begun_fld s code q body _ _ _

end Begun

/-! ### OP_REG_READ, OP_REG_WRITE, OP_SET_MODULE_ID -/

theorem exec_opRegRead {q : Req} {body : List Byte} {s : State} (ha : s.admitted 0x0102 q { lenOk := true } = true)
    (hlen : body.length = 8) (hal : leAt body 0 4 % 4 = 0) (h0 : 0 < byteAt body 4) (h64 : byteAt body 4 ≤ 64)
    (hend : leAt body 0 4 + 4 * byteAt body 4 ≤ 0x4000000) (hrsv : leAt body 5 3 = 0)
    (hr : s.opRefused (opWords (leAt body 0 4) (byteAt body 4)) false = none) :
    exec (.opRegRead q body) s =
      (let ws := opWords (leAt body 0 4) (byteAt body 4)
       let r := (s.begun 0x0102 q body).readWords s.activeCore (leAt body 0 4) (aloneIn ws) (byteAt body 4)
       .next (r.2.answered 0x0102 q (if ws.any s.absentAt then stUnitAbsent else stOk) (r.1.flatMap (toLe 4)))) :=
  congrArg Host.Outcome.next (nalug_run_answered ha
    (by simp [hlen, hal, hrsv]; omega)
    (by simp [hr]))

theorem exec_opRegWrite {q : Req} {body : List Byte} {off n : Nat} {s : State} (ho : leAt body 0 4 = off) (hn : byteAt body 4 = n)
    (ha : s.admitted 0x0103 q { lenOk := true, objs := ((opWords off n).map (fun o => Obj.page (o / 4096))).eraseDups } = true)
    (hlen : body.length = 8 + 4 * n) (hal : off % 4 = 0) (h0 : 0 < n) (h64 : n ≤ 64) (hend : off + 4 * n ≤ 0x4000000)
    (hrsv : leAt body 5 3 = 0) (hr : s.opRefused (opWords off n) true = none) (habs : (opWords off n).filter s.absentAt = [])
    (hclash : s.edgeClash (opWords off n) (edgeWrites off n (body.drop 8)) = false) :
    exec (.opRegWrite q body) s =
      .next (((s.begun 0x0103 q body).each (List.range n) (fun k u =>
        u.nalugWord (off + 4 * k) (BitVec.ofNat 32 (leAt (body.drop 8) (4 * k) 4)))).answered 0x0103 q stOk []) := by
  subst ho hn
  exact congrArg Host.Outcome.next (nalug_run_answered ha
    (by simp [hlen, hal, hrsv]; omega)
    (by simp [hr, habs, hclash, ok]))

theorem exec_opSetModuleId {q : Req} {body : List Byte} {s : State} (ha : s.admitted 0x0104 q { lenOk := true } = true)
    (hlen : body.length = 4) (hf : leAt body 0 4 < 2 ^ 18) (hdown : ∀ p, p < 192 → s.pmode p = 3 → s.flState p = 0) :
    exec (.opSetModuleId q body) s =
      .next (((s.begun 0x0104 q body).setN glbModuleFid (2 ^ 31 + leAt body 0 4)).answered 0x0104 q stOk []) :=
  congrArg Host.Outcome.next (nalug_run_answered ha (by simp [hlen]; omega) (if_neg (by simpa using hdown)))

theorem exec_opSetModuleId_busy {q : Req} {body : List Byte} {s : State} {p : Nat} (ha : s.admitted 0x0104 q { lenOk := true } = true)
    (hlen : body.length = 4) (hf : leAt body 0 4 < 2 ^ 18) (hp : p < 192) (hm : s.pmode p = 3) (hup : s.flState p ≠ 0) :
    exec (.opSetModuleId q body) s = .next ((s.begun 0x0104 q body).answered 0x0104 q stPortBusy []) :=
  congrArg Host.Outcome.next (nalug_run_answered ha (by simp [hlen]; omega)
    (if_pos (by simpa using ⟨p, hp, hm, hup⟩)))

theorem moduleFid_answered (s : State) (f : Nat) (q : Req) (st : Nat) (b : List Byte) :
    ((s.setN glbModuleFid f).answered 0x0104 q st b).reg glbModuleFid = BitVec.ofNat 32 f := by
  rw [answered_reg _ _ _ _ _ (by decide) (by decide) (by decide) (by decide), reg_setN, if_pos rfl]

/-- Settles O60: each command is admitted, so its action runs on the begun state (`nalug_run_answered`), where no check refuses it. -/
theorem registerCommands : Obligations.RegisterCommands := by
  refine ⟨fun q body s => exec_opRegRead, fun q body s => exec_opRegWrite rfl rfl, fun q body s ha hlen hf => ⟨fun hdown => ?_, ?_⟩⟩
  · exact ⟨_, exec_opSetModuleId ha hlen hf hdown, moduleFid_answered _ _ _ _ _, mem_answered_out _ _ _ _ _⟩
  · rintro ⟨p, hp, hm, hup⟩
    exact exec_opSetModuleId_busy ha hlen hf hp hm hup

end Sys2Proof.Machine
end

section
namespace Sys2Proof.Machine

/-! ### What leaves a part of the state as it was -/

/-- Repeating an action keeps what each of its runs keeps. -/
theorem each_frame {α β : Type} {proj : State → β} {f : α → State → State} (h : ∀ a t, proj (f a t) = proj t) (l : List α) (s : State) :
    proj (s.each l f) = proj s := by
  induction l generalizing s with
  | nil => rfl
  | cons a r ih => exact (ih (f a s)).trans (h a s)

/-- Performance counters keep what a 64-bit counter keeps. -/
theorem pmcAdd_frame {β : Type} {proj : State → β} (h : ∀ (s : State) (o k : Nat), proj (s.cnt64 o k) = proj s) (s : State) (global : Bool)
    (lo hi ev unit add : Nat) (a : PmcAttr) : proj (s.pmcAdd global lo hi ev unit add a) = proj s := by
  unfold State.pmcAdd
  refine each_frame (fun e t => ?_) _ _
  split
  · exact h t _ _
  · rfl

@[simp] theorem stkWrite_bind (s : State) (h n : Nat) : (s.stkWrite h n).bind = s.bind := by
  unfold State.stkWrite State.pmc
  rw [pmcAdd_frame (proj := State.bind) (fun t o k => cnt64_bind t o k), cnt64_bind]

/-! ### Slices -/

theorem slice_congr {s t : State} (h : t.bind = s.bind) (n : Nat) : t.slice n = s.slice n := by
  rw [State.slice, State.slice, h]

@[simp] theorem emit_slice (s : State) (m : Out) (n : Nat) : (s.emit m).slice n = s.slice n := (rfl)

@[simp] theorem stkWrite_slice (s : State) (h c n : Nat) : (s.stkWrite h c).slice n = s.slice n := slice_congr (stkWrite_bind s h c) n

@[simp] theorem raise_slice (s : State) (code : Nat) (vals : List EvVal) (n : Nat) : (s.raise code vals).slice n = s.slice n :=
  slice_congr (raise_bind s code vals) n

@[simp] theorem begun_slice (s : State) (code : Nat) (q : Req) (body : List Byte) (n : Nat) : (s.begun code q body).slice n = s.slice n :=
  slice_congr (begun_bind s code q body) n

@[simp] theorem answered_slice (s : State) (code : Nat) (q : Req) (st : Nat) (b : List Byte) (n : Nat) :
    (s.answered code q st b).slice n = s.slice n := slice_congr (answered_bind s code q st b) n

@[simp] theorem begun_sliceBusy (s : State) (code : Nat) (q : Req) (body : List Byte) (n : Nat) :
    (s.begun code q body).sliceBusy n = s.sliceBusy n := by
  simp only [State.sliceBusy, State.jobSlot, begun_slot, begun_slice]

@[simp] theorem inHome_slice (s : State) (f : HomeS → HomeS) (n : Nat) : (s.inHome f).slice n = s.slice n := (rfl)

@[simp] theorem slice_setSlice_self (s : State) (n : Nat) (x : Slice) : (s.setSlice n x).slice n = x := by
  simp [State.slice, State.setSlice, State.inBind]

theorem slice_setSlice_ne (s : State) {n k : Nat} (x : Slice) (h : k ≠ n) : (s.setSlice n x).slice k = s.slice k := by
  simp [State.slice, State.setSlice, State.inBind, tget_tput_ne _ _ _ _ h]

/-! ### A waiting allocation takes its way -/

theorem fixShared_slice (s : State) (la n : Nat) (dirty : Bool) : (s.fixShared la dirty).slice n = s.slice n := by
  unfold State.fixShared
  split
  · split_ifs <;> rfl
  · rfl

theorem seeDirty_dirtySeen (s : State) (la : Nat) : ((s.seeDirty la).slice (laSlice la)).dirtySeen = true := by
  unfold State.seeDirty
  dsimp only
  split
  · assumption
  · rw [slice_setSlice_self]

/-- Putting a dirty line into its way sets DIRTY_SEEN of its slice (R144). -/
theorem lsPut_dirtySeen (s : State) (la : Nat) {l : LsLine} (hd : l.dirty = true) : ((s.lsPut la l).slice (laSlice la)).dirtySeen = true := by
  unfold State.lsPut
  simp only [hd, if_true, emit_slice, stkWrite_slice, inHome_slice, fixShared_slice]
  exact seeDirty_dirtySeen _ _

theorem placeAllocs_dirtySeen {s : State} {a : Alloc} (hl : s.home.lines = []) (hs : s.home.shadow = []) (ha : s.home.allocs = [a])
    (hd : a.line.dirty = true) : ((s.placeAllocs a.la).slice (laSlice a.la)).dirtySeen = true := by
  have hfree : s.wayFree a.la = true := by simp [State.wayFree, State.setLines, State.setShadows, hl, hs]
  have hset : s.home.allocs.filter (fun b => decide (s.lsSet b.la = s.lsSet a.la)) = [a] := by simp [ha]
  unfold State.placeAllocs
  rw [hset, State.each, List.foldl_cons, List.foldl_nil, State.findWay, if_pos hfree]
  exact lsPut_dirtySeen _ _ hd

/-- Lines that leave the line store let the one allocation that waits take its way. -/
theorem lsLose_dirtySeen {s : State} {a : Alloc} {p : Nat → LsLine → Bool} (hl : s.home.lines = []) (hs : s.home.shadow = [])
    (ha : s.home.allocs = [a]) (hp : p a.la a.line = false) (hd : a.line.dirty = true) :
    ((s.lsLose p).slice (laSlice a.la)).dirtySeen = true := by
  have hkeep : s.home.allocs.filter (fun b => !p b.la b.line) = [a] := by simp [ha, hp]
  unfold State.lsLose
  simp only [hkeep, State.each, State.inHome, List.map_cons, List.map_nil, List.foldl_cons, List.foldl_nil]
  rw [if_pos (by simp [State.allocOf])]
  exact placeAllocs_dirtySeen (by simp [hl]) hs rfl hd

/-! ### The release of a slice while a dirty line of another slice waits for a way -/

/-- An idle slice without data in the line store is released at once (R48, R436). -/
theorem exec_opSliceRelease {q : Req} {body : List Byte} {n : Nat} {s : State} (hn : leAt body 0 4 = n)
    (ha : s.admitted 0x0302 q { lenOk := true, objs := sliceObjs s n } = true) (hlen : body.length = 4) (hlt : n < 2 ^ 18)
    (hb : s.sliceBusy n = false) (hst : (s.slice n).state = 1) (hds : (s.slice n).dirtySeen = false) :
    exec (.opSliceRelease q body) s =
      .next (((((s.begun 0x0302 q body).dropLines n).unassign n).raise 0x0345 [.w n, .w 0]).answered 0x0302 q stOk []) := by
  subst hn
  exact congrArg Host.Outcome.next (nalug_run_answered ha (by simp [hlen]; omega) (by simp [hb, hst, hds, ok]))

/-- Slice 0 is idle; a dirty line of slice 1, whose DIRTY_SEEN is 0, waits for a way of the line store. -/
def waitingLineState : State :=
  { State.reset with
    bind := { slices := [(0, { state := 1 }), (1, { state := 1 })] }
    home := { allocs := [⟨2 ^ 22, { dirty := true, poison := false, data := 0 }, none⟩] } }

/-- OP_SLICE_RELEASE of slice 0 from a source without locks. -/
def releaseReq : Req := ⟨⟨1, 0, 8⟩, 1, 0, 0, false, 0, 0, false⟩

theorem waitingLineState_admitted :
    waitingLineState.admitted 0x0302 releaseReq { lenOk := true, objs := sliceObjs waitingLineState (leAt [0, 0, 0, 0] 0 4) } = true := by
  decide +kernel

/-- The release of slice 0 lets the line of slice 1 into the line store. -/
theorem opSliceRelease_seesDirty :
    ∃ t, exec (.opSliceRelease releaseReq [0, 0, 0, 0]) waitingLineState = .next t ∧ (t.slice 1).dirtySeen = true := by
  refine ⟨_, exec_opSliceRelease (n := 0) (by decide) waitingLineState_admitted rfl (by decide) (by decide +kernel) rfl rfl, ?_⟩
  rw [answered_slice, raise_slice, State.unassign, slice_setSlice_ne _ _ (by decide), State.dropLines, inHome_slice]
  have hhome : (waitingLineState.begun 0x0302 releaseReq [0, 0, 0, 0]).home = waitingLineState.home := begun_home _ _ _ _
  exact lsLose_dirtySeen (a := ⟨2 ^ 22, { dirty := true, poison := false, data := 0 }, none⟩) (p := fun la _ => decide (laSlice la = 0))
    (by rw [hhome]; rfl) (by rw [hhome]; rfl) (by rw [hhome]; rfl) (by decide) rfl

/-- Refutes O10: the lines and allocations that a release discards let waiting allocations of other slices take their ways (R86), and a
dirty one sets DIRTY_SEEN of its own slice (R144). The clause of OP_SLICE_RELEASE says that every other slice stays as it was for every
state, also for one in which a dirty line waits for a way while DIRTY_SEEN of its slice is 0; `State.lsAlloc` leaves no such state, but
the clause has no premise that shuts it out. -/
theorem not_slicesAndDomains : ¬ Obligations.SlicesAndDomains := by
  rintro ⟨-, hrel, -⟩
  obtain ⟨t, ht, -, -, hother, -⟩ := hrel releaseReq [0, 0, 0, 0] waitingLineState waitingLineState_admitted rfl (by decide)
    (by decide +kernel) rfl rfl
  obtain ⟨u, hu, hseen⟩ := opSliceRelease_seesDirty
  cases ht.symm.trans hu
  rw [hother 1 (by decide)] at hseen
  exact absurd hseen (by decide)

end Sys2Proof.Machine
end

section
namespace Sys2Proof.Machine

/-! ### A page move that loses its new device at the last page -/

/-- The entry of PAGE_MOVE of slice 5 to device 9, range 2. -/
def lostMoveEntry : List Byte :=
  [0x10, 1, 0, 0] ++ List.replicate 12 0 ++ toLe 4 5 ++ toLe 4 9 ++ toLe 4 2 ++ List.replicate 36 0

/-- Its job has been told to stop: the new device was lost (R201). -/
def lostMoveJob : Job := { pos := 0, bytes := lostMoveEntry, num := 0, stop := some stEngMoveAborted }

/-- The copies of the last page of slice 5 are all written when the device is lost; the ring has left its engine. -/
def lostMoveState : State :=
  { State.reset with
    eng := { insts := [(0, { job := some lostMoveJob })] }
    bind := { slices := [(5, { state := 4, mark := 65535, newDev := 9, newDpa := 2 })] }
    home := { trks := (List.range 64).map (fun k => (k, { la := 5 * 2 ^ 22 + 65535 * 64 + k, ev := .move 0, phase := 5 })) } }

theorem lostMoveState_copied (k : Nat) (hk : k < 64) :
    ∃ x, lostMoveState.home.trks.find? (fun t => decide (t.2.la = 5 * 2 ^ 22 + 65535 * 64 + k) && t.2.ev.isMove) = some x ∧ x.2.phase = 5 := by
  have hall : ∀ k < 64, (lostMoveState.home.trks.find? (fun t => decide (t.2.la = 5 * 2 ^ 22 + 65535 * 64 + k) && t.2.ev.isMove)).any
      (fun x => decide (x.2.phase = 5)) = true := by decide +kernel
  obtain ⟨x, hx, hphase⟩ := (Option.any_eq_true _ _).mp (hall k hk)
  exact ⟨x, hx, of_decide_eq_true hphase⟩

/-- The move is abandoned although its last page is copied. -/
theorem pageMoveStepDone_lostMove :
    (match exec (.pageMoveStepDone 0) lostMoveState with | .next t => (t.inst 0).job.bind (·.fin) | _ => none) = some (stEngMoveAborted, 0) := by
  decide +kernel

/-- Refutes O29: a move whose job has been told to stop (R201) is abandoned at its step boundary, with ST_ENG_MOVE_ABORTED, also when that
step was the last page's copy. The clause of the last page has no premise that the job need not stop. -/
theorem not_pageMoves : ¬ Obligations.PageMoves := by
  rintro ⟨-, hlast, -⟩
  obtain ⟨t, ht, hjob, -⟩ := hlast 0 lostMoveJob lostMoveState rfl (by decide) rfl (by decide) (by decide) lostMoveState_copied
  have h := pageMoveStepDone_lostMove
  have hfin : (t.inst 0).job.bind (·.fin) = some (stOk, 65536) := congrArg (fun o : Option Job => o.bind (·.fin)) hjob
  rw [ht] at h
  exact absurd (hfin.symm.trans h) (by decide)

end Sys2Proof.Machine
end

section
namespace Sys2Proof.Machine

/-! ### The binding tables that a command's action sees -/

theorem dom_congr {s t : State} (h : t.bind = s.bind) (d : Nat) : t.dom d = s.dom d := by
  rw [State.dom, State.dom, h]

theorem bindRefusal_congr {s t : State} (h : t.bind = s.bind) (mode n f v index d : Nat) :
    t.bindRefusal mode n f v index d = s.bindRefusal mode n f v index d := by
  have hb : ∀ u : State, u.bindRefusal mode n f v index d = { s with bind := u.bind }.bindRefusal mode n f v index d := fun _ => rfl
  rw [hb t, h]

theorem pickSlot_congr {s t : State} (h : t.nalug.steps = s.nalug.steps) : t.pickSlot = s.pickSlot := by
  have hb : ∀ u : State, u.pickSlot = { s with nalug := { s.nalug with steps := u.nalug.steps } }.pickSlot := fun _ => rfl
  rw [hb t, h]

section Begun
variable (s : State) (code : Nat) (q : Req) (body : List Byte)

@[simp] theorem begun_dom (d : Nat) : (s.begun code q body).dom d = s.dom d := dom_congr (begun_bind s code q body) d

@[simp] theorem begun_bindRefusal (mode n f v index d : Nat) :
    (s.begun code q body).bindRefusal mode n f v index d = s.bindRefusal mode n f v index d :=
  bindRefusal_congr (begun_bind s code q body) mode n f v index d

@[simp] theorem begun_mapOf (n f : Nat) : (s.begun code q body).mapOf n f = s.mapOf n f := by
  simp only [State.mapOf, begun_bind]

@[simp] theorem begun_freeRun (len : Nat) : (s.begun code q body).freeRun len = s.freeRun len := by
  simp only [State.freeRun, begun_bind]

@[simp] theorem begun_isMember (p : Nat) : (s.begun code q body).isMember p = s.isMember p := begun_bit s code q body _ _

@[simp] theorem begun_edgeFid (p ld : Nat) : (s.begun code q body).edgeFid p ld = s.edgeFid p ld := by
  simp only [State.edgeFid, begun_bit, begun_fld]

@[simp] theorem begun_pickSlot : (s.begun code q body).pickSlot = s.pickSlot := pickSlot_congr (begun_steps s code q body)

end Begun

/-! ### Step slots -/

@[simp] theorem slot_setSlot_self (s : State) (k : Nat) (x : StepSlot) : (s.setSlot k x).slot k = x := by
  simp [State.slot, State.setSlot]

@[simp] theorem answered_slot (s : State) (code : Nat) (q : Req) (st : Nat) (b : List Byte) (k : Nat) :
    (s.answered code q st b).slot k = s.slot k := by
  obtain ⟨kept, h⟩ := answered_nalug s code q st b
  rw [State.slot, State.slot, h]

/-- A stepped command begins in the slot that is picked (R320, R321). -/
theorem stepStart_of_pickSlot {s : State} {k : Nat} (hk : s.pickSlot = some k) (code : Nat) (q : Req) (job : StepJob) (total phase : Nat) :
    ∃ x, s.stepStart code q job total phase = (s.setSlot k x, some (stInProgress, toLe 8 (stepToken k x))) ∧ x.state = 1 ∧ x.phase = phase ∧
      x.job = job := by
  unfold State.stepStart
  rw [hk]
  exact ⟨_, rfl, rfl, rfl, rfl⟩

/-- An admitted command whose action begins a stepped command: its slot is active and its reply carries the token. -/
theorem exec_stepped {c : Instr} {s t : State} {code k : Nat} {q : Req} {body : List Byte} {f g : OpForm} {job : StepJob} {total phase : Nat}
    {act : State → State × Option (Nat × List Byte)} (hc : exec c s = .next (s.nalug_run code q body g act)) (h : s.admitted code q f = true)
    (hg : g = f) (hk : t.pickSlot = some k) (ha : act (s.begun code q body) = t.stepStart code q job total phase) :
    ∃ u, exec c s = .next u ∧ u.bind = t.bind ∧ (u.slot k).state = 1 ∧ (u.slot k).phase = phase ∧ (u.slot k).job = job ∧
      Out.reply q code stInProgress (toLe 8 (stepToken k (u.slot k))) ∈ u.out := by
  obtain ⟨x, hx, hstate, hphase, hjob⟩ := stepStart_of_pickSlot hk code q job total phase
  have hslot : (((t.setSlot k x).answered code q stInProgress (toLe 8 (stepToken k x))).slot k) = x := by simp
  refine ⟨_, hc.trans (congrArg _ (nalug_run_answered h hg (ha.trans hx))), by simp, ?_, ?_, ?_, ?_⟩
  · rw [hslot, hstate]
  · rw [hslot, hphase]
  · rw [hslot, hjob]
  · rw [hslot]
    exact mem_answered_out _ _ _ _ _

/-- A slot takes its step: it is active, the guard point has not passed, and it has not run in this tick (R29, R320). -/
theorem stepOnce_of_ready {s : State} {k : Nat} (hs : (s.slot k).state = 1) (hg : s.tick.guardDone = false)
    (hr : (s.slot k).ranAt ≠ some s.tick.loc) (f : State → State) :
    s.stepOnce k f = f (s.setSlot k { s.slot k with ranAt := some s.tick.loc }) := by
  unfold State.stepOnce
  exact if_neg (by simp [hs, hg, hr])

/-! ### Revocation and the start of a drain -/

/-- What a revocation leaves depends on the binding tables alone. -/
theorem revoke_congr {s s1 t : State} {mode n f v index : Nat} (h : t.bind = s.bind) (hr : s.revoke mode n f v index = some s1) :
    t.revoke mode n f v index = some { t with bind := s1.bind } := by
  unfold State.revoke at hr ⊢
  rw [h]
  split_ifs at hr ⊢ with hm
  · cases hr
    rw [State.inBind, h]
    rfl
  · split at hr
    · cases hr
    · split at hr
      · cases hr
      · split_ifs at hr ⊢
        cases hr
        rw [State.inBind, h]
        rfl

theorem revoke_slices {s s1 : State} {mode n f v index : Nat} (hr : s.revoke mode n f v index = some s1) : s1.bind.slices = s.bind.slices := by
  unfold State.revoke at hr
  split_ifs at hr with hm
  · cases hr; rfl
  · split at hr
    · cases hr
    · split at hr
      · cases hr
      · split_ifs at hr
        cases hr; rfl

/-- A map entry of the host that names a slice of this module is revoked. -/
theorem revoke_mapped {s : State} {n f v index : Nat} {y : Vcs} {e : HEnt} (hv : tfind s.bind.vcs v = some y) (hi : index < y.len)
    (hf : y.host = f) (he : tfind s.bind.hmap (y.base + index) = some e) (hn : e.slice = n) (hr : e.remote = none) :
    s.revoke 0 n f v index = some (s.inBind (fun b => { b with hmap := tdel b.hmap (y.base + index) })) := by
  simp [State.revoke, hv, he, hi, hf, hn, hr]

@[simp] theorem setWalk_slice (s : State) (w : Nat) (x : Option Walk) (n : Nat) : (s.setWalk w x).slice n = s.slice n := (rfl)

@[simp] theorem walk_setWalk_self (s : State) (w : Nat) (x : Walk) : (s.setWalk w (some x)).walk w = some x := by
  simp [State.walk, State.setWalk, State.inBind]

theorem unbindBegin_nalug (s : State) (k n : Nat) : (s.unbindBegin k n).nalug = s.nalug := by
  unfold State.unbindBegin
  dsimp only
  split <;> rfl

theorem unbindBegin_hmap (s : State) (k n : Nat) : (s.unbindBegin k n).bind.hmap = s.bind.hmap := by
  unfold State.unbindBegin
  dsimp only
  split <;> rfl

theorem unbindBegin_grants (s : State) (k n : Nat) : (s.unbindBegin k n).bind.grants = s.bind.grants := by
  unfold State.unbindBegin
  dsimp only
  split <;> rfl

/-- A bound slice is UNBINDING from the start of the drain (R48). -/
theorem unbindBegin_slice {s : State} {n : Nat} (h : (s.slice n).state = 2) (k : Nat) :
    (s.unbindBegin k n).slice n = { s.slice n with state := 3 } := by
  unfold State.unbindBegin
  dsimp only
  rw [if_pos h, setWalk_slice, slice_setSlice_self]

/-! ### OP_VCS_CREATE, the decoder, OP_BIND, edge IDs -/

/-- The vCS takes the run that is free (R55); which run that is, the lowest, is the model's own choice (log 50). -/
theorem exec_opVcsCreate {q : Req} {body : List Byte} {v p b : Nat} {s : State} (hbv : byteAt body 0 = v) (hbp : byteAt body 1 = p)
    (ha : s.admitted 0x0307 q { lenOk := true, units := [(2, p)], objs := [.vcs v, .port p] } = true) (hlen : body.length = 12)
    (hv : v < 96) (hp : p < 192) (hf : leAt body 4 4 < 2 ^ 18) (h0 : 0 < leAt body 8 4) (hmax : leAt body 8 4 ≤ 65536) (hrsv : leAt body 2 2 = 0)
    (hnew : tfind s.bind.vcs v = none) (husp : ∀ k x, (k, x) ∈ s.bind.vcs → x.usp ≠ p) (hm : s.pmode p = 1) (hmem : s.isMember p = false)
    (he : s.edgeFid p 0 = some (leAt body 4 4)) (hb : s.freeRun (leAt body 8 4) = some b) :
    exec (.opVcsCreate q body) s = .next (((s.begun 0x0307 q body).inBind (fun x => { x with
      vcs := tins x.vcs v { usp := p, host := leAt body 4 4, base := b, len := leAt body 8 4 } })).answered 0x0307 q stOk (toLe 4 b)) := by
  subst hbv hbp
  have hany : s.bind.vcs.any (fun e => decide (e.2.usp = byteAt body 1)) = false := by simpa using husp
  exact congrArg Host.Outcome.next (nalug_run_answered ha
    (by simp [rsvZero, hlen, hrsv]; omega)
    (by simp [hnew, hany, hm, hmem, he, hb]))

theorem exec_hdmDecoderWrite {v : VcsIx} {x : Vcs} {s : State} (base : BitVec 64) (ig iw : BitVec 4) (hx : tfind s.bind.vcs v = some x) :
    exec (.hdmDecoderWrite v base ig iw) s = .next (s.inBind (fun b => { b with
      vcs := tins b.vcs v { x with hdm := base.toNat / 2 ^ 28 * 2 ^ 28, ig := ig.toNat, iw := iw.toNat } })) := by
  change execHdmDecoderWrite v base ig iw s = _
  unfold execHdmDecoderWrite
  rw [hx]

theorem bindTo_slice (s : State) (mode rights n f v index : Nat) :
    (s.bindTo mode rights n f v index).slice n = { s.slice n with state := 2, maps := (s.slice n).maps + 1 } := by
  rw [State.bindTo, raise_slice, slice_setSlice_self]

/-- A binding in MODE 0 writes its vCS's map entry (R61). -/
theorem bindTo_mapped {s : State} {v : Nat} {y : Vcs} (hv : tfind s.bind.vcs v = some y) (rights n f index : Nat) :
    (s.bindTo 0 rights n f v index).bind = { s.bind with
      hmap := tins s.bind.hmap (y.base + index) ⟨rights, none, n⟩
      slices := tput {} s.bind.slices n { s.slice n with state := 2, maps := (s.slice n).maps + 1 } } := by
  simp [State.bindTo, State.setSlice, State.inBind, hv]

theorem exec_opBind {q : Req} {body : List Byte} {s : State} (ha : s.admitted 0x030B q (bindForm s body true) = true) (hmode : byteAt body 0 = 0)
    (hbusy : s.sliceBusy (leAt body 4 4) = false) (hst : (s.slice (leAt body 4 4)).state = 1 ∨ (s.slice (leAt body 4 4)).state = 2)
    (hd : (s.dom (s.slice (leAt body 4 4)).dom).state ≠ 3)
    (hr : s.bindRefusal 0 (leAt body 4 4) (leAt body 8 4) (byteAt body 12) (leAt body 16 4) (s.slice (leAt body 4 4)).dom = none) :
    exec (.opBind q body) s = .next (((s.begun 0x030B q body).bindTo 0 (byteAt body 1) (leAt body 4 4) (leAt body 8 4) (byteAt body 12)
      (leAt body 16 4)).answered 0x030B q stOk []) := by
  have hst' : ¬ ((s.slice (leAt body 4 4)).state ≠ 1 ∧ (s.slice (leAt body 4 4)).state ≠ 2) := by omega
  exact congrArg Host.Outcome.next (nalug_run_answered ha rfl (by simp [hmode, hbusy, hst', hd, hr, ok]))

theorem exec_ptEdgeIdWrite {p : PortIx} {ld : Fin 16} {v : Word} {s : State} (hp : s.present 2 p = true)
    (hfree : bits v 31 1 = 1 → s.fidTaken (bits v 0 18) p ld = false) :
    exec (.ptEdgeIdWrite p ld v) s = .next (s.edgePut p ld v) := by
  change execPtEdgeIdWrite p ld v s = _
  unfold execPtEdgeIdWrite
  rw [if_neg (by simp [hp]), if_neg (by simpa using hfree)]

theorem exec_ptEdgeIdWrite_taken {p : PortIx} {ld : Fin 16} {v : Word} {s : State} (hp : s.present 2 p = true) (hv : bits v 31 1 = 1)
    (ht : s.fidTaken (bits v 0 18) p ld = true) :
    exec (.ptEdgeIdWrite p ld v) s = .next (s.raise 0x0142 [.w p, .w ld, .w (bits v 0 18)]) := by
  change execPtEdgeIdWrite p ld v s = _
  unfold execPtEdgeIdWrite
  rw [if_neg (by simp [hp]), if_pos (by simp [hv, ht])]

theorem exec_ptEdgeIdWrite_absent {p : PortIx} {s : State} (ld : Fin 16) (v : Word) (hp : s.present 2 p = false) :
    exec (.ptEdgeIdWrite p ld v) s = .next (s.raise 0x0101 [.w (ptEdgeId p ld)]) := by
  change execPtEdgeIdWrite p ld v s = _
  unfold execPtEdgeIdWrite
  rw [if_pos (by simp [hp])]

theorem edgePut_nreg (s : State) (p ld : Nat) (v : Word) : (s.edgePut p ld v).nreg (ptEdgeId p ld) = bits v 31 1 * 2 ^ 31 + bits v 0 18 := by
  have h1 : bits v 31 1 < 2 := bits_lt v 31 1
  have h18 : bits v 0 18 < 2 ^ 18 := bits_lt v 0 18
  rw [State.edgePut, State.nreg, reg_setN, if_pos rfl, BitVec.toNat_ofNat]
  omega

/-! ### OP_UNBIND, OP_REBIND and their steps -/

/-- An unbind in MODE 0: the map entry goes at once, the slice drains (R62). The slot that it takes is the model's own choice (log 190). -/
theorem exec_opUnbind {q : Req} {body : List Byte} {n f index k : Nat} {y : Vcs} {e : HEnt} {s : State} (hbn : leAt body 4 4 = n)
    (hbf : leAt body 8 4 = f) (hbi : leAt body 16 4 = index) (ha : s.admitted 0x030C q (bindForm s body false) = true) (hmode : byteAt body 0 = 0)
    (hbusy : s.sliceBusy n = false) (hst : (s.slice n).state = 2) (hv : tfind s.bind.vcs (byteAt body 12) = some y) (hi : index < y.len)
    (hf : y.host = f) (he : tfind s.bind.hmap (y.base + index) = some e) (hn : e.slice = n) (hr : e.remote = none) (hk : s.pickSlot = some k) :
    ∃ t, exec (.opUnbind q body) s = .next t ∧ tfind t.bind.hmap (y.base + index) = none ∧ (t.slice n).state = 3 ∧
      (t.slot k).state = 1 ∧ (t.slot k).phase = 0 ∧ (t.slot k).job = .unbind 0 n f ∧
      Out.reply q 0x030C stInProgress (toLe 8 (stepToken k (t.slot k))) ∈ t.out := by
  subst hbn hbf hbi
  have hrev := revoke_mapped (s := s.begun 0x030C q body) (by rw [begun_bind]; exact hv) hi hf (by rw [begun_bind]; exact he) hn hr
  generalize ht1 : (s.begun 0x030C q body).inBind (fun b => { b with hmap := tdel b.hmap (y.base + leAt body 16 4) }) = t1 at hrev
  have hslice : t1.slice (leAt body 4 4) = s.slice (leAt body 4 4) := by rw [← ht1]; exact begun_slice s _ q body _
  have hhmap : tfind t1.bind.hmap (y.base + leAt body 16 4) = none := by rw [← ht1]; exact tfind_tdel_self _ _
  have hpick : (t1.unbindBegin k (leAt body 4 4)).pickSlot = some k := by
    rw [pickSlot_congr (s := s) (by rw [unbindBegin_nalug, ← ht1]; exact begun_steps s _ q body), hk]
  obtain ⟨u, hu, hbind, hstate, hphase, hjob, hout⟩ := exec_stepped (c := .opUnbind q body) rfl ha rfl hpick
    (by simp [hmode, hbusy, hst, hk, hrev]; rfl)
  refine ⟨u, hu, ?_, ?_, hstate, hphase, hjob, hout⟩
  · rw [hbind, unbindBegin_hmap, hhmap]
  · rw [slice_congr hbind, unbindBegin_slice (by rw [hslice, hst])]

/-- A rebind in MODE 1 within its domain: the old grant goes at once, the slice drains (R64). -/
theorem exec_opRebind {q : Req} {body : List Byte} {n fo fn v index k : Nat} {s s1 : State} (hbn : leAt body 4 4 = n) (hbo : leAt body 8 4 = fo)
    (hbf : leAt body 12 4 = fn) (hbv : byteAt body 16 = v) (hbi : leAt body 20 4 = index)
    (ha : s.admitted 0x030D q { lenOk := true, objs := sliceObjs s n } = true) (hlen : body.length = 28) (hmode : byteAt body 0 = 1)
    (hright : byteAt body 1 = 1 ∨ byteAt body 1 = 3) (h2 : byteAt body 2 = 0) (h3 : byteAt body 3 = 0) (hn : n < 2 ^ 18) (ho : fo < 2 ^ 18)
    (hf : fn < 2 ^ 18) (h17 : leAt body 17 3 = 0) (h26 : leAt body 26 2 = 0) (h24 : leAt body 24 2 < 4096) (hbusy : s.sliceBusy n = false)
    (hst : (s.slice n).state = 2) (hd : (s.dom (s.slice n).dom).state = 1) (hmap : s.mapOf n fo = none) (hr : s.revoke 1 n fo 0 0 = some s1)
    (href : s1.bindRefusal 1 n fn v index (s.slice n).dom = none) (hk : s.pickSlot = some k) :
    ∃ t, exec (.opRebind q body) s = .next t ∧ t.bind.grants = s1.bind.grants ∧ (t.slice n).state = 3 ∧
      (t.slot k).state = 1 ∧ (t.slot k).phase = 0 ∧ (t.slot k).job = .rebind 1 (byteAt body 1) n fo fn v index none := by
  subst hbn hbo hbf hbv hbi
  have hnd : nbit 0 0 = false := rfl
  have h3' : leAt body 3 1 = 0 := by simp [leAt, h3]
  have hrev := revoke_congr (begun_bind s 0x030D q body) hr
  generalize ht1 : ({ s.begun 0x030D q body with bind := s1.bind } : State) = t1 at hrev
  have hbind1 : t1.bind = s1.bind := by rw [← ht1]
  have hslice : t1.slice (leAt body 4 4) = s.slice (leAt body 4 4) := by rw [State.slice, State.slice, hbind1, revoke_slices hr]
  have href1 : t1.bindRefusal 1 (leAt body 4 4) (leAt body 12 4) (byteAt body 16) (leAt body 20 4) (s.slice (leAt body 4 4)).dom = none :=
    (bindRefusal_congr hbind1 ..).trans href
  have hpick : (t1.unbindBegin k (leAt body 4 4)).pickSlot = some k := by
    rw [pickSlot_congr (s := s) (by rw [unbindBegin_nalug, ← ht1]; exact begun_steps s _ q body), hk]
  obtain ⟨u, hu, hbind, hstate, hphase, hjob, -⟩ := exec_stepped (c := .opRebind q body) rfl ha
    (by simp [rsvZero, hlen, hmode, h2, h3', hnd, h17, h26]; omega) hpick
    (by simp [hmode, h2, hnd, hbusy, hst, hd, hmap, hrev, href1, hk]; rfl)
  refine ⟨u, hu, ?_, ?_, hstate, hphase, hjob⟩
  · rw [hbind, unbindBegin_grants, hbind1]
  · rw [slice_congr hbind, unbindBegin_slice (by rw [hslice, hst])]

/-- The drain is complete: the walk starts at the next edge (R62). -/
theorem opUnbindStep_drained {s : State} {k n f : Nat} {w : Walk} (hw : s.walk k = some w) (hd : (s.dom (s.slice n).dom).state = 1)
    (hp : (s.slot k).phase = 0) (hdr : s.drained n f = true) :
    s.opUnbindStep k n f = (s.setWalk k (some { w with after := s.tick.loc })).stepNext k 1 := by
  simp [State.opUnbindStep, State.unbindStep, State.startWalk, hw, hd, hp, hdr]

theorem stepNext_phase (s : State) (k phase : Nat) : ((s.stepNext k phase).slot k).phase = phase := by
  have h : (s.stepNext k phase).slot k = { s.slot k with done := (s.slot k).done + 1, phase := phase } := slot_setSlot_self _ _ _
  rw [h]

theorem exec_unbindDrainDone_unbind {k : Fin 32} {mode n f : Nat} {s : State} (hp : (s.slot k).phase = 0)
    (hj : (s.slot k).job = .unbind mode n f) :
    exec (.unbindDrainDone k) s = .next (s.stepOnce k (fun t => t.opUnbindStep k n f)) := by
  change execUnbindDrainDone k s = _
  unfold execUnbindDrainDone
  simp [hp, hj]

theorem exec_walkStep_unbind {k : Fin 32} {mode n f : Nat} {s : State} (hp : (s.slot k).phase ≠ 0) (hj : (s.slot k).job = .unbind mode n f) :
    exec (.walkStep k) s = .next (s.stepOnce k (fun t => t.opUnbindStep k n f)) := by
  change execWalkStep k s = _
  unfold execWalkStep
  simp [hp, hj]

/-- Settles O11: what each command does by its own equation (`exec_opVcsCreate` to `exec_walkStep_unbind`), read in the tables that it
writes. The run that a vCS takes (log 50) and the step slot of a stepped command (log 190) are the model's own choices. -/
theorem bindings : Obligations.Bindings := by
  refine ⟨?_, ?_, ?_, ?_, fun p ld v s => exec_ptEdgeIdWrite_taken, fun p ld v s => exec_ptEdgeIdWrite_absent ld v,
    fun q body y e k s => exec_opUnbind rfl rfl rfl, fun q body s1 k s => exec_opRebind rfl rfl rfl rfl rfl, ?_,
    fun k mode n f s hs hp hj hg hr => ?_⟩
  · intro q body b s v p ha hlen hv hp hf h0 hmax hrsv hnew husp hm hmem he hb
    exact ⟨_, exec_opVcsCreate rfl rfl ha hlen hv hp hf h0 hmax hrsv hnew husp hm hmem he hb,
      by rw [answered_bind]; exact tfind_tins_self _ _ _, mem_answered_out _ _ _ _ _⟩
  · intro v base ig iw x s hx
    exact ⟨_, exec_hdmDecoderWrite base ig iw hx, tfind_tins_self _ _ _, rfl, rfl⟩
  · intro q body y s n f v index x ha hmode hbusy hst hd hv hr
    have hbind := bindTo_mapped (s := s.begun 0x030B q body) (by rw [begun_bind]; exact hv) (byteAt body 1) n f index
    refine ⟨_, exec_opBind ha hmode hbusy hst hd hr, ?_, ?_, ?_, ?_, mem_answered_out _ _ _ _ _⟩
    · rw [answered_bind, hbind]; exact tfind_tins_self _ _ _
    · rw [answered_slice, bindTo_slice, begun_slice]
    · rw [answered_bind, hbind, begun_bind]
    · rw [answered_bind, hbind, begun_bind]
  · intro p ld v s hp hfree
    exact ⟨_, exec_ptEdgeIdWrite hp hfree, edgePut_nreg s p ld v, fun o ho => by rw [State.edgePut, reg_setN, if_neg ho]⟩
  · intro k mode n f w s hs hp hj hdr hw hg hr hd
    have hstep := opUnbindStep_drained (s := s.setSlot k { s.slot k with ranAt := some s.tick.loc }) hw hd
      (by rw [slot_setSlot_self]; exact hp) hdr
    exact ⟨_, (exec_unbindDrainDone_unbind hp hj).trans (congrArg _ ((stepOnce_of_ready hs hg hr _).trans hstep)), stepNext_phase _ _ _,
      walk_setWalk_self _ _ _, rfl⟩
  · rw [exec_walkStep_unbind hp hj, stepOnce_of_ready hs hg hr]

end Sys2Proof.Machine
end

section
namespace Sys2Proof.Machine

/-! ### What counting, credits and latency tags leave of the buffers and the flows -/

/-- The tiles' buffers and the flows. -/
def State.traffic (s : State) : HbmS × QosS := (s.hbm, s.qos)

theorem traffic_of_eq {s t : State} (hh : t.hbm = s.hbm) (hq : t.qos = s.qos) : t.traffic = s.traffic := by
  rw [State.traffic, hh, hq, State.traffic]

theorem traffic_fst (s : State) : s.traffic.1 = s.hbm := (rfl)

theorem traffic_snd (s : State) : s.traffic.2 = s.qos := (rfl)

theorem inHbm_traffic (s : State) (f : HbmS → HbmS) : (s.inHbm f).traffic = (f s.traffic.1, s.traffic.2) := (rfl)

theorem inQos_traffic (s : State) (f : QosS → QosS) : (s.inQos f).traffic = (s.traffic.1, f s.traffic.2) := (rfl)

theorem traffic_ite (c : Prop) [Decidable c] (s t : State) : (if c then s else t).traffic = if c then s.traffic else t.traffic :=
  apply_ite State.traffic c s t

theorem traffic_of_ite {c : Prop} [Decidable c] {s t : State} {k : HbmS × QosS} (hs : s.traffic = k) (ht : t.traffic = k) :
    (if c then s else t).traffic = k := by
  split <;> assumption

@[simp] theorem cnt_traffic (s : State) (o k : Nat) : (s.cnt o k).traffic = s.traffic := traffic_of_eq (cnt_hbm s o k) (cnt_qos s o k)

@[simp] theorem cnt64_traffic (s : State) (o k : Nat) : (s.cnt64 o k).traffic = s.traffic := traffic_of_eq (cnt64_hbm s o k) (cnt64_qos s o k)

@[simp] theorem tpmc_traffic (s : State) (p ev add : Nat) (a : PmcAttr) : (s.tpmc p ev add a).traffic = s.traffic :=
  pmcAdd_frame cnt64_traffic ..

@[simp] theorem countColour_traffic (s : State) (t fc col c : Nat) : (s.countColour t fc col c).traffic = s.traffic := cnt64_traffic ..

@[simp] theorem emit_traffic (s : State) (m : Out) : (s.emit m).traffic = s.traffic := (rfl)

@[simp] theorem setLink_traffic (s : State) (p : Nat) (x : LinkS) : (s.setLink p x).traffic = s.traffic := (rfl)

@[simp] theorem setFld_traffic (s : State) (o lo n v : Nat) : (s.setFld o lo n v).traffic = s.traffic := (rfl)

@[simp] theorem sendCw_traffic (s : State) (p : Nat) (quiet : Bool) (flits : List (List Byte)) :
    (s.sendCw p quiet flits).traffic = s.traffic := by
  unfold State.sendCw
  dsimp only
  split <;> simp only [emit_traffic, setLink_traffic]

@[simp] theorem quietExit_traffic (s : State) (p : Nat) : (s.quietExit p).traffic = s.traffic := by
  unfold State.quietExit
  split <;> simp only [setFld_traffic, sendCw_traffic]

@[simp] theorem ctl_traffic (s : State) (p ctype : Nat) (vals : List Nat) (n : Nat) : (s.ctl p ctype vals n).traffic = s.traffic := by
  unfold State.ctl
  rw [each_frame (fun _ t => sendCw_traffic t _ _ _), emit_traffic, quietExit_traffic]

@[simp] theorem linkFree_traffic (s : State) (p cls : Nat) : (s.linkFree p cls).traffic = s.traffic := by
  unfold State.linkFree
  dsimp only
  split
  · rfl
  · split <;> simp only [State.sendCredit, ctl_traffic, setLink_traffic]

@[simp] theorem latStage_traffic (s : State) (p : LatTag → Bool) (stage : Nat) (last : Bool) :
    (s.latStage p stage last).traffic = s.traffic := by
  unfold State.latStage
  split <;> rfl

@[simp] theorem tagRequest_traffic (s : State) (p : Nat) (m : TMsg) (la : Option Nat) (remote : Bool) :
    (s.tagRequest p m la remote).traffic = s.traffic := by
  unfold State.tagRequest
  exact traffic_of_ite rfl (traffic_of_ite rfl (traffic_of_ite (cnt_traffic ..) (latStage_traffic ..)))

/-! ### A message takes its place in a queue -/

theorem markSpill_queues (s : State) (q : Nat) : (s.markSpill q).hbm.queues = s.hbm.queues := by
  unfold State.markSpill
  split <;> rfl

theorem markSpill_qos (s : State) (q : Nat) : (s.markSpill q).qos = s.qos := by
  unfold State.markSpill
  split <;> rfl

theorem spillScan_queues (s : State) (q : Nat) : (s.spillScan q).hbm.queues = s.hbm.queues := by
  unfold State.spillScan
  dsimp only
  split
  · exact each_frame (proj := fun t => t.hbm.queues) (fun k t => markSpill_queues t k) _ _
  · rfl

theorem spillScan_qos (s : State) (q : Nat) : (s.spillScan q).qos = s.qos := by
  unfold State.spillScan
  dsimp only
  split
  · exact each_frame (fun k t => markSpill_qos t k) _ _
  · rfl

/-- A message whose cells fit a queue that does not spill goes to its tail (R140). -/
theorem enqueue_fits {s : State} {q : Nat} {m : TMsg} (hs : s.spillDue q = false) (hc : s.cellFit q m.cells = true) :
    ∃ u, s.enqueue q m = (u, true) ∧ u.hbm.queues = tput [] s.hbm.queues q (s.queue q ++ [m]) ∧ u.qos = s.qos := by
  unfold State.enqueue
  simp only [hs, hc, Bool.false_eq_true, if_false, if_true]
  refine ⟨_, rfl, ?_, ?_⟩
  · rw [spillScan_queues]
    split
    · rw [markSpill_queues]; rfl
    · rfl
  · rw [spillScan_qos]
    split
    · rw [markSpill_qos]; rfl
    · rfl

/-! ### The shaper and the tile -/

/-- A flow both of whose buckets have given a charge. -/
def Flow.charged (f : Flow) (c : Nat) : Flow := { f with dp := f.dp + c, dc := f.dc + c }

/-- A charge that both buckets have room for is green (R160). -/
theorem shaperTest_green {f : Flow} {c : Nat} (now : Nat) (hp : f.dp + c ≤ f.pbs) (hc : f.dc + c ≤ f.cbs) :
    shaperTest false now f c = (0, f.charged c) := by
  unfold shaperTest
  rw [if_neg (by decide), if_neg (by omega), if_pos hc, Flow.charged]

theorem flowOf_of_tfind {s : State} {t fc src : Nat} {f : Flow} (h : tfind s.qos.flows (flowKey t fc src) = some f) : s.flowOf t fc src = f := by
  rw [State.flowOf, h, Option.getD_some]

theorem setFlowOf_of_tfind {s : State} {t fc src : Nat} {f : Flow} (h : tfind s.qos.flows (flowKey t fc src) = some f) (g : Flow) :
    s.setFlowOf t fc src g = s.inQos (fun q => { q with flows := tins q.flows (flowKey t fc src) g }) := by
  rw [State.setFlowOf, h, Option.isSome_some, if_pos rfl]

theorem tagRemote_local (s : State) (x : Nat) (m : NetMsg) : s.tagRemote { dst := x } m = m := (rfl)

theorem trackRemote_local (s : State) (t src x : Nat) (m : NetMsg) : s.trackRemote t src { dst := x } m = s := (rfl)

theorem reserveAhead_local (s : State) (p src x : Nat) (m : NetMsg) : s.reserveAhead p src { dst := x } m = s := (rfl)

/-- A green message toward a fabric ID as it stands in its queue. -/
def State.tileMsg (s : State) (p src e : Nat) (x : Fid) (m : NetMsg) : TMsg :=
  { m := m, inp := p, src := src, dst := x, egress := e, cells := cellCount m.bytes, stamp := s.tick.loc, yellow := m.yellow, ord := s.hbm.accepts }

/-- A message toward a fabric ID whose charge is green goes to the tail of its queue, and both buckets give its charge (R140, R160). -/
theorem tileTake_green {s : State} {p src e : Nat} {x : Fid} {m : NetMsg} {f : Flow}
    (hf : tfind s.qos.flows (flowKey (p / 16) (fcOf m.cls) src) = some f) (hheld : f.held = []) (hw : s.wheel (p / 16) = false)
    (hp : f.dp + min 4096 (64 * cellCount m.bytes) ≤ f.pbs) (hc : f.dc + min 4096 (64 * cellCount m.bytes) ≤ f.cbs)
    (hs : s.spillDue (p * 8 + m.cls.val) = false) (hfit : s.cellFit (p * 8 + m.cls.val) (cellCount m.bytes) = true) :
    ∃ u y h, s.tileTake p src { dst := x } e m = (u, true) ∧
      u.traffic = (h, { s.qos with
        flows := tins s.qos.flows (flowKey (p / 16) (fcOf m.cls) src) (f.charged (min 4096 (64 * cellCount m.bytes))) }) ∧
      h.queues = tput [] s.hbm.queues (p * 8 + m.cls.val) (s.queue (p * 8 + m.cls.val) ++ [y]) ∧
      y.m = m ∧ y.egress = e ∧ y.dst = x.val ∧ y.src = src ∧ y.cells = cellCount m.bytes ∧ y.stamp = s.tick.loc := by
  have hgreen := shaperTest_green s.now16 hp hc
  obtain ⟨u, hu, hqueues, hqos⟩ := enqueue_fits (m := s.tileMsg p src e x m) hs hfit
  have hfu : tfind u.qos.flows (flowKey (p / 16) (fcOf m.cls) src) = some f := by rw [hqos]; exact hf
  have hgone : ((0 : Nat) = 2) = False := by decide
  have hyellow : decide ((0 : Nat) = 1) = false := rfl
  unfold State.tileTake
  unfold State.tileMsg at hu
  simp only [flowOf_of_tfind hf, hheld, hw, hgreen, List.isEmpty_nil, Bool.not_true, Bool.and_false, Bool.false_eq_true, if_false, if_true,
    hgone, false_and, hyellow, Bool.false_and, Bool.or_false, tagRemote_local, trackRemote_local, reserveAhead_local, hu, setFlowOf_of_tfind hfu]
  refine ⟨_, s.tileMsg p src e x m, { u.hbm with accepts := u.hbm.accepts + 1 }, rfl, ?_, hqueues, rfl, rfl, rfl, rfl, rfl, rfl⟩
  simp only [tagRequest_traffic, linkFree_traffic, countColour_traffic, inHbm_traffic, traffic_ite, tpmc_traffic, cnt64_traffic, ite_self,
    inQos_traffic, traffic_fst, traffic_snd, hqos]

/-! ### TILE_MESSAGE_ACCEPT at a CXL port -/

/-- What a port's message books before its route is looked up is in the counters and the port's outstanding requests. -/
theorem markBusy_npDone_eq (s : State) (p : Nat) (m : NetMsg) : ∃ tel cxl, s.markBusy.npDone p m = { s with tel := tel, cxl := cxl } := by
  unfold State.npDone
  dsimp only
  split
  · exact ⟨_, _, rfl⟩
  · exact ⟨_, s.cxl, rfl⟩

theorem destOf_fid {m : NetMsg} {x : Fid} (h : m.dst = .fid x) (s : State) (p src : Nat) : s.destOf p src m = .inr [({ dst := x }, m)] := by
  unfold State.destOf
  rw [h]

/-- A port's message is looked up in the registers, the bindings and the links alone. -/
theorem egressOf_booked (s : State) (tel : TelS) (cxl : CxlS) (t src : Nat) (d : Dest) (m : NetMsg) :
    { s with tel := tel, cxl := cxl }.egressOf t src d m = s.egressOf t src d m := rfl

/-- A message of an up CXL port takes the class of its type; with a route it is taken by the tile, without one it is a miss (R41, R43). -/
theorem exec_tileMessageAccept_up {p : PortIx} {m n : NetMsg} {src : Nat} {x : Fid} {s : State} (hn : { m with cls := m.type.cls } = n)
    (hup : s.portUp p = true) (hdr : s.clk.draining = false) (hcar : s.carries p m.type = true) (hmode : s.pmode p ≠ 3)
    (hsrc : s.edgeFid p m.ld = some src) (hdst : m.dst = .fid x) :
    exec (.tileMessageAccept p m) s = .next ((s.egressOf (p.val / 16) src { dst := x } n).elim
      (((s.markBusy.npDone p n).routeMiss p x n).linkFree p n.cls) (fun e => ((s.markBusy.npDone p n).tileTake p src { dst := x } e n).1)) := by
  obtain ⟨tel, cxl, hbooked⟩ := markBusy_npDone_eq s p n
  have hsrc' : (s.markBusy.npDone p n).edgeFid p m.ld = some src := by rw [hbooked]; exact hsrc
  have hroute : (s.markBusy.npDone p n).egressOf (p.val / 16) src { dst := x } n = s.egressOf (p.val / 16) src { dst := x } n := by
    rw [hbooked, egressOf_booked]
  subst hn
  change execTileMessageAccept p m s = _
  unfold execTileMessageAccept
  cases he : s.egressOf (p.val / 16) src { dst := x } { m with cls := m.type.cls } <;>
    simp [hup, hdr, hcar, hmode, hsrc', destOf_fid (m := { m with cls := m.type.cls }) hdst, hroute, he]

theorem exec_tileMessageAccept_shut {p : PortIx} {m : NetMsg} {s : State}
    (h : s.portUp p = false ∨ s.clk.draining = true ∨ s.carries p m.type = false) : exec (.tileMessageAccept p m) s = .next s := by
  change execTileMessageAccept p m s = _
  unfold execTileMessageAccept
  refine if_pos ?_
  rcases h with h | h | h <;> simp [apply_ite NetMsg.type, h]

/-- Settles O22: the message's route is the one it has before it is booked (`egressOf_booked`), and the tile takes a green message by
`tileTake_green`. -/
theorem tileAcceptance : Obligations.TileAcceptance := by
  refine ⟨?_, ?_, fun p m s => exec_tileMessageAccept_shut⟩
  · intro p m src e f x s n hup hdr hcar hmode hsrc hdst he hf hheld hw hp hc hs hfit
    have hexec := exec_tileMessageAccept_up (n := n) rfl hup hdr hcar hmode hsrc hdst
    obtain ⟨tel, cxl, hbooked⟩ := markBusy_npDone_eq s p n
    obtain ⟨u, y, h, hu, htraffic, hqueues, hmsg⟩ :=
      tileTake_green (s := { s with tel := tel, cxl := cxl }) (e := e) (x := x) hf hheld hw hp hc hs hfit
    rw [he, Option.elim_some, hbooked, hu] at hexec
    have hhbm : u.hbm = h := congrArg Prod.fst htraffic
    have hqos : u.qos = _ := congrArg Prod.snd htraffic
    obtain ⟨hm, hegress, hydst, hysrc, hcells, hstamp⟩ := hmsg
    refine ⟨u, y, hexec, ?_, hm, hegress, hydst, hysrc, hcells, hstamp, ?_, fun k hk => ?_⟩
    · rw [State.queue, hhbm, hqueues]; exact tget_tput_self ..
    · rw [hqos]; exact tfind_tins_self ..
    · rw [State.queue, hhbm, hqueues]; exact tget_tput_ne _ _ _ _ hk
  · intro p m src x s n hup hdr hcar hmode hsrc hdst he
    rw [exec_tileMessageAccept_up (n := n) rfl hup hdr hcar hmode hsrc hdst, he, Option.elim_none]

end Sys2Proof.Machine
end

section
namespace Sys2Proof.Machine

/-! ### The home's tables and the bindings stay as they are -/

/-- What sends and counts: the home, the bindings, and every message that was sent before, are as they were. -/
structure KeepsHome (s t : State) : Prop where
  home : t.home = s.home
  bind : t.bind = s.bind
  out  : s.out ⊆ t.out

/-- What answers a requester keeps the registers too. -/
structure Answers (s t : State) : Prop extends KeepsHome s t where
  regs : t.regs = s.regs

/-- What issues reads for a home keeps its directory and the lines' data (R74, R87). -/
structure KeepsLines (s t : State) : Prop where
  ents : t.home.ents = s.home.ents
  data : t.lineData = s.lineData
  bind : t.bind = s.bind
  out  : s.out ⊆ t.out

theorem KeepsHome.refl (s : State) : KeepsHome s s := ⟨rfl, rfl, List.Subset.refl _⟩

theorem KeepsHome.trans {s t u : State} (h : KeepsHome s t) (g : KeepsHome t u) : KeepsHome s u :=
  ⟨g.home.trans h.home, g.bind.trans h.bind, fun _ hm => g.out (h.out hm)⟩

theorem KeepsHome.ite {s t u : State} {c : Prop} [Decidable c] (ht : KeepsHome s t) (hu : KeepsHome s u) : KeepsHome s (if c then t else u) := by
  split <;> assumption

theorem KeepsHome.each {α : Type} {f : α → State → State} (h : ∀ a t, KeepsHome t (f a t)) (l : List α) (s : State) :
    KeepsHome s (s.each l f) := by
  induction l generalizing s with
  | nil => exact .refl s
  | cons a r ih => exact (h a s).trans (ih (f a s))

theorem Answers.refl (s : State) : Answers s s := ⟨.refl s, rfl⟩

theorem Answers.trans {s t u : State} (h : Answers s t) (g : Answers t u) : Answers s u :=
  ⟨h.toKeepsHome.trans g.toKeepsHome, g.regs.trans h.regs⟩

theorem Answers.each {α : Type} {f : α → State → State} (h : ∀ a t, Answers t (f a t)) (l : List α) (s : State) :
    Answers s (s.each l f) := by
  induction l generalizing s with
  | nil => exact .refl s
  | cons a r ih => exact (h a s).trans (ih (f a s))

theorem KeepsLines.refl (s : State) : KeepsLines s s := ⟨rfl, rfl, rfl, List.Subset.refl _⟩

theorem KeepsLines.trans {s t u : State} (h : KeepsLines s t) (g : KeepsLines t u) : KeepsLines s u :=
  ⟨g.ents.trans h.ents, g.data.trans h.data, g.bind.trans h.bind, fun _ hm => g.out (h.out hm)⟩

theorem KeepsHome.lines {s t : State} (h : KeepsHome s t) : KeepsLines s t :=
  ⟨by rw [h.home], by rw [State.lineData, h.home, State.lineData], h.bind, h.out⟩

/-! ### Counters, events, tags -/

theorem emit_answers (s : State) (m : Out) : Answers s (s.emit m) := ⟨⟨rfl, rfl, List.subset_append_left _ _⟩, rfl⟩

theorem mem_emit_out (s : State) (m : Out) : m ∈ (s.emit m).out := List.mem_append_right _ (List.mem_singleton.mpr rfl)

theorem cnt_keepsHome (s : State) (o k : Nat) : KeepsHome s (s.cnt o k) :=
  ⟨cnt_home s o k, cnt_bind s o k, by rw [cnt_out]; exact List.Subset.refl _⟩

theorem cnt64_keepsHome (s : State) (o k : Nat) : KeepsHome s (s.cnt64 o k) :=
  ⟨cnt64_home s o k, cnt64_bind s o k, by rw [cnt64_out]; exact List.Subset.refl _⟩

theorem raiseLim_keepsHome (s : State) (code unit : Nat) (vals : List EvVal) : KeepsHome s (s.raiseLim code unit vals) :=
  ⟨raiseLim_home s code unit vals, raiseLim_bind s code unit vals, by rw [raiseLim_out]; exact List.Subset.refl _⟩

theorem draw_answers (s : State) : Answers s s.draw.2 := ⟨⟨rfl, rfl, List.Subset.refl _⟩, rfl⟩

theorem inHbm_keepsHome (s : State) (f : HbmS → HbmS) : KeepsHome s (s.inHbm f) := ⟨rfl, rfl, List.Subset.refl _⟩

theorem pmc_keepsHome (s : State) (ev unit add : Nat) (a : PmcAttr) : KeepsHome s (s.pmc ev unit add a) := by
  unfold State.pmc State.pmcAdd
  refine .each (fun e t => ?_) _ _
  split
  · exact cnt64_keepsHome t _ _
  · exact .refl t

theorem stkRead_keepsHome (s : State) (h n : Nat) : KeepsHome s (s.stkRead h n) :=
  (cnt64_keepsHome s _ _).trans (pmc_keepsHome _ _ _ _ _)

theorem stkWrite_keepsHome (s : State) (h n : Nat) : KeepsHome s (s.stkWrite h n) :=
  (cnt64_keepsHome s _ _).trans (pmc_keepsHome _ _ _ _ _)

theorem coreMiss_keepsHome (s : State) (dst : Nat) : KeepsHome s (s.coreMiss dst) :=
  (cnt_keepsHome s _ _).trans (raiseLim_keepsHome _ _ _ _)

/-- A protocol error is counted and logged (R76). -/
theorem protoErr_keepsHome (s : State) (la fid : Nat) : KeepsHome s (s.protoErr la fid) :=
  (cnt_keepsHome s _ _).trans (raiseLim_keepsHome _ _ _ _)

theorem protoErr_nreg (s : State) (la fid : Nat) : (s.protoErr la fid).nreg (sfBankProtoErrCnt (s.laBank la)) =
    min 0xFFFFFFFF (s.nreg (sfBankProtoErrCnt (s.laBank la)) + 1) := by
  have hne : sfBankProtoErrCnt (s.laBank la) ≠ glbEvFifoOvfCnt := by unfold sfBankProtoErrCnt glbEvFifoOvfCnt; omega
  have hmin : min ((s.reg (sfBankProtoErrCnt (s.laBank la))).toNat + 1) (2 ^ 32 - 1) < 2 ^ 32 := by omega
  unfold State.protoErr State.nreg
  dsimp only
  rw [raiseLim_reg _ _ _ _ hne, reg_cnt, if_pos rfl, BitVec.toNat_ofNat, Nat.mod_eq_of_lt hmin]
  omega

/-- A stamped stage changes the tags and takes a free value, no more. -/
theorem latStage_eq (s : State) (p : LatTag → Bool) (stage : Nat) (last : Bool) :
    ∃ tel free, s.latStage p stage last = { s with tel := tel, free := free } := by
  unfold State.latStage
  split
  · exact ⟨_, _, rfl⟩
  · exact ⟨_, _, rfl⟩

theorem latStage_answers (s : State) (p : LatTag → Bool) (stage : Nat) (last : Bool) : Answers s (s.latStage p stage last) := by
  obtain ⟨tel, free, h⟩ := latStage_eq s p stage last
  rw [h]
  exact ⟨⟨rfl, rfl, List.Subset.refl _⟩, rfl⟩

/-! ### Answers -/

theorem engLine_answers (s : State) (i space cls addr len : Nat) (d : Option (List Byte)) : Answers s (s.engLine i space cls addr len d) := by
  unfold State.engLine
  dsimp only
  split
  · exact emit_answers s _
  · split
    · split
      · exact ⟨⟨rfl, rfl, List.subset_append_left _ _⟩, rfl⟩
      · exact emit_answers s _
    · exact emit_answers s _

theorem issueReads_answers (s : State) (i : Nat) : Answers s (s.issueReads i) := by
  unfold State.issueReads
  dsimp only
  split
  · exact .refl s
  · split
    · exact .refl s
    · have h := Answers.each (fun (y : Nat × Nat × Nat) t => engLine_answers t i y.1 6 y.2.1 y.2.2 none)
      exact (h _ s).trans ⟨⟨rfl, rfl, List.Subset.refl _⟩, rfl⟩

theorem readBack_answers (s : State) (via : Via) (r : HRsp) : Answers s (s.readBack via r) := by
  unfold State.readBack
  split
  case h_4 => exact .refl s
  all_goals
    dsimp only
    split
    · split
      · exact .refl s
      · refine Answers.trans ?_ (issueReads_answers _ _)
        exact ⟨⟨rfl, rfl, List.Subset.refl _⟩, rfl⟩
    · exact .refl s

theorem complete_answers (s : State) (fid : Nat) (via : Via) (la : Nat) (r : Option HRsp) : Answers s (s.complete fid via la r) := by
  unfold State.complete
  split
  · exact ((latStage_answers s _ _ _).trans (latStage_answers _ _ _ _)).trans ((emit_answers _ _).trans (readBack_answers _ _ _))
  · exact ⟨⟨rfl, rfl, List.Subset.refl _⟩, rfl⟩

theorem respond_answers (s : State) (fid : Nat) (via : Via) (la : Nat) (r : Option HRsp) : Answers s (s.respond fid via la r) := by
  unfold State.respond
  split
  · split
    · exact (emit_answers s _).trans (readBack_answers _ _ _)
    · exact .refl s
  · exact complete_answers s fid via la r

/-- A completion that is not discarded leaves the home (R58). -/
theorem mem_complete_out (s : State) (fid : Nat) {via : Via} (la : Nat) (x : HRsp) (hv : via ≠ .discard) :
    Out.homeRsp fid via la x ∈ (s.complete fid via la (some x)).out := by
  unfold State.complete
  rw [if_neg hv]
  exact (readBack_answers _ _ _).out (mem_emit_out _ _)

theorem mem_respond_out (s : State) (fid : Nat) {via : Via} (la : Nat) (x : HRsp) (hv : via ≠ .discard) :
    Out.homeRsp fid via la x ∈ (s.respond fid via la (some x)).out := by
  unfold State.respond
  split
  · exact (readBack_answers _ _ _).out (mem_emit_out _ _)
  · exact mem_complete_out s fid la x hv

/-! ### Reads -/

theorem slotAsk_keepsHome (s : State) (la : Nat) (job : RdJob) : KeepsHome s (s.slotAsk la job) := by
  unfold State.slotAsk
  split <;> exact (emit_answers s _).toKeepsHome

theorem slotIssue_keepsHome (s : State) (la : Nat) (trk : Option Nat) (job : RdJob) : KeepsHome s (s.slotIssue la trk job) := by
  unfold State.slotIssue
  dsimp only
  split
  · exact (inHbm_keepsHome s _).trans ((stkRead_keepsHome _ _ _).trans (slotAsk_keepsHome _ _ _))
  · exact inHbm_keepsHome s _

/-- A lookup sends its reads of the directory set (R83, R143). -/
theorem lookup0_keepsHome (s : State) (la : Nat) : KeepsHome s (s.lookup0 la) := by
  have hdir : KeepsHome s (s.dirRead la) := by
    unfold State.dirRead
    split
    · exact .each (fun k t => slotIssue_keepsHome t la none (.dir k)) _ _
    · exact .refl s
  unfold State.lookup0
  exact .ite (.refl s) hdir

/-- Renewing a line's age leaves what it holds (R86). -/
theorem lsUse_keepsLines (s : State) (la : Nat) : KeepsLines s (s.lsUse la) := by
  refine ⟨rfl, ?_, rfl, List.Subset.refl _⟩
  simp only [State.lineData, State.lsUse, State.stamp, State.inHome, List.map_map]
  refine List.map_congr_left fun e _ => ?_
  by_cases h : e.1 = la <;> simp [h]

/-- Of the home's trackers one is written; the directory and the lines' data stay. -/
structure PutsTrk (s : State) (k : Nat) (x : Trk) (u : State) : Prop extends KeepsLines s u where
  trks : u.home.trks = tins s.home.trks k x

theorem KeepsHome.setTrk {s u : State} (h : KeepsHome s u) (k : Nat) (x : Trk) : PutsTrk s k x (u.setTrk k x) :=
  ⟨⟨h.lines.ents, h.lines.data, h.bind, h.out⟩, congrArg (fun y : HomeS => tins y.trks k x) h.home⟩

theorem PutsTrk.trans {s u v : State} {k : Nat} {x : Trk} (p : PutsTrk s k x u) (h : KeepsLines u v) (ht : v.home.trks = u.home.trks) :
    PutsTrk s k x v := ⟨p.toKeepsLines.trans h, ht.trans p.trks⟩

/-- The tracker with other books of its read. -/
def Trk.reading (t : Trk) (rd rid : Nat) (got : Option (Line × Bool)) : Trk := { t with rd := rd, rid := rid, got := got }

/-- The read of a line goes to its device in the next number of the home (R74, R87). -/
theorem sendRead_puts (s : State) (k : Nat) (t : Trk) : ∃ rid, PutsTrk s k (t.reading 2 rid t.got) (s.sendRead k t) := by
  have h : KeepsHome s ((s.pmc 0x05 (s.laBank t.la) 1 (viaAttr t.via t.fid t.la)).latStage (tagAt t.fid t.la) 4) :=
    (pmc_keepsHome s _ _ _ _).trans (latStage_answers _ _ _ _).toKeepsHome
  unfold State.sendRead
  generalize (s.pmc 0x05 (s.laBank t.la) 1 (viaAttr t.via t.fid t.la)).latStage (tagAt t.fid t.la) 4 = u at h ⊢
  exact ⟨_, ⟨h.lines.ents, h.lines.data, h.bind, fun _ hm => List.mem_append_left _ (h.out hm)⟩, by
    rw [← h.home]; rfl⟩

/-- A read for a tracker writes its tracker's books of the read and leaves the directory and the lines' data (R74, R87). -/
theorem issueRead_puts (s : State) (k : Nat) (t : Trk) (spec : Bool) :
    ∃ rd rid got, PutsTrk s k (t.reading rd rid got) (s.issueRead k t spec) := by
  have hsame : PutsTrk s k (t.reading t.rd t.rid t.got) (s.setTrk k t) := (KeepsHome.refl s).setTrk k t
  unfold State.issueRead
  split
  · have h : KeepsHome s (((s.pmc 0x04 (s.laBank t.la) 1 (viaAttr t.via t.fid t.la)).latStage (tagAt t.fid t.la) 4).latFlag t.fid t.la 16) :=
      ((pmc_keepsHome s _ _ _ _).trans (latStage_answers _ _ _ _).toKeepsHome).trans ⟨rfl, rfl, List.Subset.refl _⟩
    generalize ((s.pmc 0x04 (s.laBank t.la) 1 (viaAttr t.via t.fid t.la)).latStage (tagAt t.fid t.la) 4).latFlag t.fid t.la 16 = u at h ⊢
    refine ⟨1, t.rid, t.got, ((h.setTrk k _).trans (lsUse_keepsLines _ _) rfl).trans (slotIssue_keepsHome _ _ _ _).lines ?_⟩
    rw [State.hbmIssue, (slotIssue_keepsHome _ _ _ _).home]
    rfl
  · split
    · split
      · exact ⟨_, _, _, hsame⟩
      · exact ⟨4, t.rid, _, (KeepsHome.refl s).setTrk k _⟩
    · split
      · split
        · exact ⟨_, _, _, hsame⟩
        · exact ⟨3, t.rid, t.got, (KeepsHome.refl s).setTrk k _⟩
      · split
        · obtain ⟨rid, h⟩ := sendRead_puts s k t
          exact ⟨2, rid, t.got, h⟩
        · split
          · exact ⟨_, _, _, hsame⟩
          · exact ⟨4, t.rid, _, ((draw_answers s).toKeepsHome.trans (coreMiss_keepsHome _ _)).setTrk k _⟩

/-! ### Trackers that end -/

theorem tfind_isSome_of_mem {α : Type} {t : Tab α} {k : Nat} {v : α} (h : (k, v) ∈ t) : (tfind t k).isSome = true := by
  induction t with
  | nil => cases h
  | cons e r ih =>
    obtain ⟨j, w⟩ := e
    simp only [tfind]
    split
    · rfl
    · next hj =>
      rcases List.mem_cons.mp h with heq | hr
      · exact absurd (congrArg Prod.fst heq).symm hj
      · exact ih hr

theorem mem_keys_of_tfind {α : Type} {t : Tab α} {k : Nat} (h : (tfind t k).isSome = true) : k ∈ t.map Prod.fst := by
  induction t with
  | nil => cases h
  | cons e r ih =>
    obtain ⟨j, w⟩ := e
    simp only [tfind] at h
    split at h
    · next hj => simp [hj]
    · exact List.mem_cons_of_mem _ (ih h)

/-- A tracker number is free: of one number more than there are trackers, one is no tracker's (R78). -/
theorem tfind_freeTrk (s : State) : tfind s.home.trks s.freeTrk = none := by
  obtain ⟨k, hk⟩ : ∃ k, (List.range (s.home.trks.length + 1)).find? (fun k => (tfind s.home.trks k).isNone) = some k := by
    rw [← Option.isSome_iff_exists, List.find?_isSome]
    by_contra hno
    push Not at hno
    have hsub : List.range (s.home.trks.length + 1) ⊆ s.home.trks.map Prod.fst := fun k hk =>
      mem_keys_of_tfind (by simpa [Option.isNone_iff_eq_none, Option.ne_none_iff_isSome] using hno k hk)
    have hlen := (List.nodup_range.subperm hsub).length_le
    simp at hlen
  rw [State.freeTrk, hk, Option.getD_some]
  simpa using List.find?_some hk

/-- A read that waits is issued, if there is one: the tracker that is written is one of the home's (R74, R99). -/
theorem kickReads_puts (s : State) (b : Nat) : s.kickReads b = s ∨ ∃ k t x, (k, t) ∈ s.home.trks ∧ PutsTrk s k x (s.kickReads b) := by
  unfold State.kickReads
  split
  · next k t hlru =>
    obtain ⟨rd, rid, got, h⟩ := issueRead_puts s k { t with rd := 0 } false
    exact .inr ⟨k, t, _, (List.mem_filter.mp (List.mem_of_find?_eq_some hlru)).1, h⟩
  · exact .inl rfl

theorem kickReads_keepsLines (s : State) (b : Nat) : KeepsLines s (s.kickReads b) := by
  rcases kickReads_puts s b with h | ⟨k, t, x, -, h⟩
  · rw [h]; exact .refl s
  · exact h.toKeepsLines

theorem kickReads_none {s : State} {k : Nat} (h : tfind s.home.trks k = none) (b : Nat) : tfind (s.kickReads b).home.trks k = none := by
  rcases kickReads_puts s b with he | ⟨j, t, x, hm, hp⟩
  · rw [he, h]
  · have hne : k ≠ j := fun hk => by simpa [← hk, h] using tfind_isSome_of_mem hm
    rw [hp.trks, tfind_tins_ne _ _ hne, h]

/-- A tracker that ends is free, and a read that waits may start (R88, R99). -/
theorem endTrk_keepsLines (s : State) (k : Nat) (t : Trk) : KeepsLines s (s.endTrk k t) :=
  KeepsLines.trans (t := (s.delTrk k).unread (fun j => decide (j = k))) ⟨rfl, rfl, rfl, List.Subset.refl _⟩ (kickReads_keepsLines _ _)

theorem endTrk_none (s : State) (k : Nat) (t : Trk) : tfind (s.endTrk k t).home.trks k = none :=
  kickReads_none (tfind_tdel_self s.home.trks k) _

end Sys2Proof.Machine
end

section
namespace Sys2Proof.Machine

/-! ### Blanket mode's tables -/

@[simp] theorem coh_setCoh_self (s : State) (d : Nat) (x : DomCoh) : (s.setCoh d x).coh d = x := by
  simp [State.coh, State.setCoh, State.inHome]

@[simp] theorem raise_coh (s : State) (code : Nat) (vals : List EvVal) (d : Nat) : (s.raise code vals).coh d = s.coh d := by
  rw [State.coh, raise_home, State.coh]

theorem inHome_home (s : State) (f : HomeS → HomeS) : (s.inHome f).home = f s.home := (rfl)

theorem untrack_ents (s : State) (sl : Nat) : (s.untrack sl).home.ents = s.home.ents := (rfl)

theorem untrack_nalug (s : State) (sl : Nat) : (s.untrack sl).nalug = s.nalug := (rfl)

theorem enterBlanket_ents (s : State) (d cause : Nat) : (s.enterBlanket d cause).home.ents = s.home.ents := by
  unfold State.enterBlanket
  dsimp only
  split
  · rfl
  · rw [raise_home]; rfl

theorem enterBlanket_nalug (s : State) (d cause : Nat) : (s.enterBlanket d cause).nalug = s.nalug := by
  unfold State.enterBlanket
  dsimp only
  split
  · rfl
  · rw [raise_nalug]; rfl

/-- A directory that is lost keeps the entries on die alone (R92). -/
theorem dirLost_ents (s : State) (h : Nat) : (s.dirLost h).home.ents = s.home.ents.filter (fun e => e.2.onDie) := by
  have hdom : ∀ (d : Nat) (t : State), ((t.each (t.domSlices d) (fun n x => x.untrack n)).enterBlanket d 2).home.ents = t.home.ents :=
    fun d t => (enterBlanket_ents _ _ _).trans (each_frame (proj := fun x => x.home.ents) (fun n x => untrack_ents x n) _ t)
  unfold State.dirLost
  refine (each_frame (proj := fun x => x.home.ents) hdom _ _).trans ?_
  simp only [raise_home, inHome_home, setBit_home]

theorem dirLost_nalug (s : State) (h : Nat) : (s.dirLost h).nalug = s.nalug := by
  have hdom : ∀ (d : Nat) (t : State), ((t.each (t.domSlices d) (fun n x => x.untrack n)).enterBlanket d 2).nalug = t.nalug :=
    fun d t => (enterBlanket_nalug _ _ _).trans (each_frame (proj := State.nalug) (fun n x => untrack_nalug x n) _ t)
  unfold State.dirLost
  refine (each_frame (proj := State.nalug) hdom _ _).trans ?_
  simp only [raise_nalug, inHome_nalug, setBit_nalug]

@[simp] theorem begun_stackMask (s : State) (code : Nat) (q : Req) (body : List Byte) : (s.begun code q body).stackMask = s.stackMask := by
  simp only [State.stackMask, begun_present]

/-- The directory is rebuilt from the step slot that is picked, after what was available is lost (R92). -/
theorem exec_opDirRebuild {q : Req} {k : Nat} {s : State} (ha : s.admitted 0x030E q { lenOk := true } = true) (hm : s.stackMask ≠ 0)
    (hj : ∀ j, j < 32 → (s.slot j).job ≠ .dirRebuild) (hk : s.pickSlot = some k) :
    ∃ (u : State) (b : List Byte), exec (.opDirRebuild q []) s = .next
        ((((u.setFld sfDirStatus 24 4 s.stackMask).setBit sfDirStatus 30 true).setBit sfDirStatus 31 false).answered 0x030E q stInProgress b) ∧ (u.slot k).job = .dirRebuild ∧
      (s.dirAvail = true → u.home.ents = s.home.ents.filter (fun e => e.2.onDie)) := by
  have hfree : (s.begun 0x030E q []).jobSlot (fun j => decide (j = .dirRebuild)) = none := by
    simp only [State.jobSlot, begun_slot, List.find?_eq_none, List.mem_range]
    exact fun j hlt => by simp [hj j hlt]
  obtain ⟨x, hx, -, -, hjob⟩ := stepStart_of_pickSlot (s := s.begun 0x030E q []) ((begun_pickSlot s _ q []).trans hk) 0x030E q .dirRebuild 8192 0
  have hav : ((s.begun 0x030E q []).setSlot k x).dirAvail = s.dirAvail := begun_bit s _ q [] _ _
  generalize ht1 : (s.begun 0x030E q []).setSlot k x = t1 at hx hav
  have hslot : t1.slot k = x := by rw [← ht1, slot_setSlot_self]
  have hents : t1.home.ents = s.home.ents := by rw [← ht1]; exact congrArg HomeS.ents (begun_home s 0x030E q [])
  refine ⟨if t1.dirAvail then t1.draw.2.dirLost (t1.draw.1 % 4) else t1, toLe 8 (stepToken k x),
    congrArg Host.Outcome.next (nalug_run_answered ha rfl ?_), ?_, fun h => ?_⟩
  · simp only [begun_stackMask, if_neg hm, hfree, Option.isSome_none, Bool.false_eq_true, if_false, hx, stInProgress]
  · have hnalug : (if t1.dirAvail then t1.draw.2.dirLost (t1.draw.1 % 4) else t1).nalug = t1.nalug := by
      split
      · exact dirLost_nalug _ _
      · rfl
    rw [State.slot, hnalug]
    exact (congrArg StepSlot.job hslot).trans hjob
  · rw [if_pos (hav.trans h), dirLost_ents]
    exact congrArg _ hents

/-! ### The walk that ends Blanket mode -/

theorem exec_exitWalkStart {d : DomIx} {n : Nat} {l : List Nat} {s : State} (hb : (s.coh d).blanket = true) (he : (s.coh d).exitOn = false)
    (hq : s.exitWindows ≤ (s.coh d).quiet) (hav : s.dirAvail = true) (hsf : s.home.sfLost = []) (hu : s.untracked d = n :: l) :
    exec (.exitWalkStart d) s = .next (((s.setCoh d { s.coh d with exitOn := true }).inHome (fun h => { h with
      visits := h.visits.filter (fun x => !(s.domSlices d).contains x) ++ [n] })).setWalk (32 + d) (some { slice := n, after := s.tick.loc })) := by
  have hnext : (s.setCoh d { s.coh d with exitOn := true }).untracked d = n :: l := hu
  change execExitWalkStart d s = _
  unfold execExitWalkStart
  rw [if_pos (by simp [hb, he, hq, hav, hsf]), State.visitNext, hnext]
  rfl

theorem exec_exitWalkStep {d : DomIx} {w : Walk} {s : State} (he : (s.coh d).exitOn = true) (hg : s.tick.guardDone = false)
    (hw : s.walk (32 + d) = some w) (hr : w.ranAt ≠ some s.tick.loc) (ha : w.after ≠ s.tick.loc) :
    exec (.exitWalkStep d) s = .next (let s1 := s.walkTick (32 + d) (State.examExit (32 + d) d)
      if s1.walkDone (32 + d) then (s1.visitEnd w.slice).visitNext d else s1) := by
  change execExitWalkStep d s = _
  unfold execExitWalkStep
  rw [if_neg (by simp [he, hg]), hw]
  exact if_neg (by simp [hr, ha])

theorem exec_blanketExit {d : DomIx} {a : Tick} {s : State} (he : (s.coh d).exitOn = true) (hc : (s.coh d).clearAt = some a)
    (ha : a ≠ s.tick.loc) (hu : s.untracked d = []) :
    exec (.blanketExit d) s = .next ((s.setCoh d { s.coh d with exitOn := false, blanket := false, quiet := 0, clearAt := none }).raise 0x0303
      [.w (d : Nat)]) := by
  change execBlanketExit d s = _
  unfold execBlanketExit
  exact if_pos (by simp [he, hc, ha, hu])

/-- The windows of every domain end together (R89). -/
theorem exec_blanketWindowEnd_due {d : Nat} {s : State} (hd : s.home.doms.map (·.1) = [d])
    (hw : s.windowTicks ≤ ticksSince s.home.winAt s.tick.loc) :
    exec .blanketWindowEnd s = .next ((s.inHome (fun h => { h with winAt := s.tick.loc })).setCoh d { s.coh d with
      last := (s.coh d).win, win := 0, quiet := (if (s.coh d).blanket ∧ (s.coh d).win < s.exitBi then (s.coh d).quiet + 1 else 0) }) := by
  change execBlanketWindowEnd s = _
  unfold execBlanketWindowEnd
  rw [if_neg (Nat.not_lt.mpr hw), hd]
  rfl

theorem exec_blanketEnter_due {d : DomIx} {a : Tick} {s : State} (hdue : (s.coh d).due = some a) (ha : a ≠ s.tick.loc) :
    exec (.blanketEnter d) s = .next (s.enterBlanket d 0) := by
  change execBlanketEnter d s = _
  unfold execBlanketEnter
  rw [hdue]
  exact if_neg ha

/-- Settles O12: each command by its own equation (`exec_blanketWindowEnd_due` to `exec_opDirRebuild`), read in the home's tables. That the
domains' windows are common (log 75), that OP_DIR_REBUILD first loses a directory that is available (log 247), and the step slot that it
takes (log 190) are the model's own choices. -/
theorem blanketMode : Obligations.BlanketMode := by
  refine ⟨fun d s hd hw => ⟨_, exec_blanketWindowEnd_due hd hw, ?_⟩, fun s h => if_pos h, fun d a s => exec_blanketEnter_due, ?_,
    fun d w s => exec_exitWalkStep, fun d a s he hc ha hu => ⟨_, exec_blanketExit he hc ha hu, ?_⟩, ?_⟩
  · simp only [coh_setCoh_self, true_and]
    exact ⟨rfl, rfl⟩
  · intro d n l s hb he hq hav hsf hu
    have hcoh := coh_setCoh_self s d { s.coh d with exitOn := true }
    refine ⟨_, exec_exitWalkStart hb he hq hav hsf hu, congrArg DomCoh.exitOn hcoh, (congrArg DomCoh.blanket hcoh).trans hb,
      walk_setWalk_self _ _ _, rfl, ?_⟩
    exact List.mem_append_right _ (List.mem_singleton.mpr rfl)
  · simp only [raise_coh, coh_setCoh_self, raise_seq, true_and]
    rfl
  · intro q k s ha hm hj hk
    obtain ⟨u, b, hexec, hjob, hents⟩ := exec_opDirRebuild ha hm hj hk
    have hreg : ∀ t : State, ∀ i, (t.answered 0x030E q stInProgress b).bit sfDirStatus i = t.bit sfDirStatus i := fun t i => by
      rw [State.bit, State.fld, answered_reg _ _ _ _ _ (by decide) (by decide) (by decide) (by decide)]
      rfl
    refine ⟨_, hexec, ?_, ?_, fun hav e he => ?_, ?_⟩
    · rw [hreg, bit_setBit _ _ _ _ _ _ (by decide) (by decide), bit_setBit_self _ _ _ _ (by decide)]
    · rw [hreg, bit_setBit_self _ _ _ _ (by decide)]
    · rw [answered_home] at he
      simp only [setBit_home, setFld_home, hents hav] at he
      exact (List.mem_filter.mp he).2
    · rw [answered_slot, State.slot, setBit_nalug, setBit_nalug, setFld_nalug]
      exact hjob

end Sys2Proof.Machine
end

section
namespace Sys2Proof.Machine

/-! ### What reads the home's tables alone -/

theorem ent_congr {s t : State} (h : t.home = s.home) (la : Nat) : t.ent la = s.ent la := by rw [State.ent, h, State.ent]

theorem lsLine_congr {s t : State} (h : t.home = s.home) (la : Nat) : t.lsLine la = s.lsLine la := by rw [State.lsLine, h, State.lsLine]

theorem dirtyHere_congr {s t : State} (h : t.home = s.home) (la : Nat) : t.dirtyHere la = s.dirtyHere la := by
  simp only [State.dirtyHere, State.lsDirty, State.lsLine, State.allocOf, h]

theorem lineBusy_congr {s t : State} (h : t.home = s.home) (la : Nat) : t.lineBusy la = s.lineBusy la := by
  simp only [State.lineBusy, State.lineOpen, State.ent, State.allocOf, h]

@[simp] theorem ent_setEnt_self (s : State) (la : Nat) (e : Option DirEnt) : (s.setEnt la e).ent la = e := by
  cases e
  · exact tfind_tdel_self _ _
  · exact tfind_tins_self _ _ _

theorem setEnt_dirtyHere (s : State) (la k : Nat) (e : Option DirEnt) : (s.setEnt la e).dirtyHere k = s.dirtyHere k := by
  cases e <;> rfl

/-! ### Requests open their trackers -/

theorem KeepsHome.puts {s u v : State} {k : Nat} {x : Trk} (h : KeepsHome s u) (p : PutsTrk u k x v) : PutsTrk s k x v :=
  ⟨h.lines.trans p.toKeepsLines, p.trks.trans (congrArg (fun y : HomeS => tins y.trks k x) h.home)⟩

theorem stamp_keepsLines (s : State) : KeepsLines s s.stamp.2 := ⟨rfl, rfl, rfl, List.Subset.refl _⟩

/-- A request at the head of its line goes to its lookup, whether or not a read is issued ahead (R78, R87). -/
theorem startReq_puts (s : State) (k : Nat) (t : Trk) :
    ∃ rd rid got, PutsTrk s k (Trk.reading { t with phase := 1 } rd rid got) (s.startReq k t) := by
  unfold State.startReq
  dsimp only
  split
  · obtain ⟨rd, rid, got, h⟩ := issueRead_puts (s.lookup0 t.la) k { t with phase := 1 } true
    exact ⟨rd, rid, got, (lookup0_keepsHome s t.la).puts h⟩
  · exact ⟨t.rd, t.rid, t.got, (lookup0_keepsHome s t.la).setTrk k _⟩

/-- The tracker that a request takes. -/
def reqTrk (r : HReq) (ev : HEv) (n : Nat) : Trk :=
  { la := reqLine r, ev := ev, fid := r.fid, via := r.via, type2 := r.msg.cache, data := r.data, mask := r.mask, ord := n }

/-- A mapped slice and a caching agent with all rights: the home has no reason to refuse (R57). -/
theorem homeReason_none {s : State} {r : HReq} {a : Nat × AgentSlot} (h : s.requestFree r a) (write : Bool) :
    s.homeReason r.fid r.slice write = none := by
  obtain ⟨-, hslice, -, -, hbad, hag, hrights, -⟩ := h
  simp [State.homeReason, State.entryBad, hbad, hslice, hag, hrights]

/-- A request that is free to go is counted, and starts in a free tracker (R78, R87). -/
theorem homeAccept_free {s : State} {r : HReq} {a : Nat × AgentSlot} (h : s.requestFree r a) (ev : HEv) :
    ∃ (u : State) (n : Nat), KeepsHome s u ∧ s.homeAccept ev r = u.stamp.2.startReq u.stamp.2.freeTrk (reqTrk r ev n) := by
  have hreason := homeReason_none h
  obtain ⟨hdrain, hslice, hbank, hdoubt, -, hag, hrights, hcache, htrk, hbusy, hany⟩ := h
  rw [List.contains_eq_mem, decide_eq_false_iff_not] at hbank
  unfold reqLine at hbank hdoubt htrk hbusy hany
  have hag' : s.markBusy.agentOf (s.markBusy.slice r.slice).dom r.fid = some a := hag
  obtain ⟨u, hu, hkeep⟩ : ∃ u, (if ev = .ce then s.markBusy else
      ((s.markBusy.cnt64 (sfBankReqCnt (s.laBank (lineAddr r.slice r.off.toNat)))).pmc 0x01 (s.laBank (lineAddr r.slice r.off.toNat)) 1
        (viaAttr r.via r.fid (lineAddr r.slice r.off.toNat))).latStage (tagAt r.fid (lineAddr r.slice r.off.toNat)) 2) = u ∧ KeepsHome s u :=
    have hmark : KeepsHome s s.markBusy := ⟨rfl, rfl, List.Subset.refl _⟩
    ⟨_, rfl, .ite hmark (hmark.trans ((cnt64_keepsHome s.markBusy _ _).trans
      ((pmc_keepsHome _ _ _ _ _).trans (latStage_answers _ _ _ _).toKeepsHome)))⟩
  have hbusy' : u.stamp.2.lineBusy (lineAddr r.slice r.off.toNat) = false := (lineBusy_congr hkeep.home _).trans hbusy
  have hany' : u.stamp.2.home.trks.any (fun x => decide (x.2.la = lineAddr r.slice r.off.toNat)) = false :=
    (congrArg (fun y : HomeS => y.trks.any (fun x => decide (x.2.la = lineAddr r.slice r.off.toNat))) hkeep.home).trans hany
  refine ⟨u, u.stamp.1, hkeep, ?_⟩
  unfold State.homeAccept
  simp [hdrain, hslice, hbank, hdoubt, hreason, htrk, hag', hrights, hcache, hu, hbusy', hany']
  rfl

/-- An accepted request whose message R72 lists opens its tracker, in the lookup. -/
theorem homeReq_opens {s : State} {r : HReq} {a : Nat × AgentSlot} {ev : HEv} (h : s.requestFree r a) (hf : evFits r.msg ev = true) :
    s.opened (s.homeReq ev r) r ev := by
  obtain ⟨u, n, hkeep, hacc⟩ := homeAccept_free h ev
  obtain ⟨rd, rid, got, hput⟩ := startReq_puts u.stamp.2 u.stamp.2.freeTrk (reqTrk r ev n)
  have hlines : KeepsLines s _ := (hkeep.lines.trans (stamp_keepsLines u)).trans hput.toKeepsLines
  have hfree : tfind s.home.trks u.stamp.2.freeTrk = none := by
    rw [← hkeep.home]
    exact tfind_freeTrk u.stamp.2
  rw [State.homeReq, hf, Bool.true_or, if_pos rfl, hacc]
  have htrk := (congrArg (tfind · u.stamp.2.freeTrk) hput.trks).trans (tfind_tins_self _ _ _)
  exact ⟨_, _, htrk, rfl, rfl, rfl, rfl, rfl, rfl, rfl, hlines.ents, hlines.data, hlines.bind, hfree⟩

/-! ### Protocol errors -/

/-- A forbidden message is counted and completed as refused, and the home is as it was (R76; the form is log 245). -/
theorem forbidden_refused (s : State) (r : HReq) (write : Bool) : s.protoRefused (s.forbidden r write) r write := by
  have hans := respond_answers (s.protoErr (reqLine r) r.fid) r.fid r.via (reqLine r) (refuseForm r.via write)
  have hkeep := (protoErr_keepsHome s (reqLine r) r.fid).trans hans.toKeepsHome
  refine ⟨hkeep.home, hkeep.bind, (nreg_congr hans.regs _).trans (protoErr_nreg s _ _), fun x hv hx => ?_⟩
  unfold State.forbidden
  rw [hx]
  exact mem_respond_out _ _ _ _ hv

theorem homeReq_refused {s : State} {r : HReq} {ev : HEv} (hd : s.clk.draining = false) (hf : evFits r.msg ev = false) :
    s.protoRefused (s.homeReq ev r) r ev.isWrite := by
  rw [State.homeReq, hd, hf, Bool.or_false, if_neg Bool.false_ne_true]
  exact forbidden_refused s r _

end Sys2Proof.Machine
end

section
namespace Sys2Proof.Machine

/-! ### A line takes its way -/

/-- An entry follows its line's DIRTY, and nothing else of the state does (R73). -/
theorem fixShared_eq (s : State) (la : Nat) (dirty : Bool) : ∃ ents, s.fixShared la dirty = s.inHome (fun h => { h with ents := ents }) := by
  unfold State.fixShared
  split
  · split
    · exact ⟨_, rfl⟩
    · split
      · exact ⟨_, rfl⟩
      · exact ⟨s.home.ents, rfl⟩
  · exact ⟨s.home.ents, rfl⟩

theorem fixShared_of_none {s : State} {la : Nat} (h : s.ent la = none) (dirty : Bool) : s.fixShared la dirty = s := by
  unfold State.fixShared
  rw [show tfind s.home.ents la = none from h]

theorem seeDirty_home (s : State) (la : Nat) : (s.seeDirty la).home = s.home := by
  unfold State.seeDirty
  dsimp only
  split <;> rfl

/-- A line that takes its way is written there in the home's next number (R86). -/
theorem lsPut_home (s : State) (la : Nat) (l : LsLine) : ∃ ents, (s.lsPut la l).home = { s.home with
    ents := ents, lines := tins s.home.lines la { l with use := s.home.clock + 1, wr := false }, clock := s.home.clock + 1 } ∧
    (s.ent la = none → ents = s.home.ents) := by
  have hmark : ∃ ents, (if l.dirty then (s.stamp.2.seeDirty la).fixShared la true else s.stamp.2).home =
      { s.home with ents := ents, clock := s.home.clock + 1 } ∧ (s.ent la = none → ents = s.home.ents) := by
    split
    · by_cases hent : s.ent la = none
      · have hfix := fixShared_of_none ((ent_congr (seeDirty_home s.stamp.2 la) la).trans hent) true
        exact ⟨s.home.ents, by rw [hfix, seeDirty_home]; rfl, fun _ => rfl⟩
      · obtain ⟨ents, h⟩ := fixShared_eq (s.stamp.2.seeDirty la) la true
        exact ⟨ents, by rw [h, inHome_home, seeDirty_home]; rfl, fun hn => absurd hn hent⟩
    · exact ⟨s.home.ents, rfl, fun _ => rfl⟩
  obtain ⟨ents, hhome, hnone⟩ := hmark
  refine ⟨ents, ?_, hnone⟩
  unfold State.lsPut
  dsimp only
  rw [emit_home, (stkWrite_keepsHome _ _ _).home, inHome_home]
  rw [hhome]
  rfl

theorem lsPut_lsLine (s : State) (la : Nat) (l : LsLine) : (s.lsPut la l).lsLine la = some { l with use := s.home.clock + 1, wr := false } := by
  obtain ⟨ents, h, -⟩ := lsPut_home s la l
  rw [State.lsLine, h, tfind_tins_self]

/-- A line without an entry is put without one (R73). -/
theorem lsPut_ents {s : State} {la : Nat} (hn : s.ent la = none) (l : LsLine) : (s.lsPut la l).home.ents = s.home.ents := by
  obtain ⟨ents, h, he⟩ := lsPut_home s la l
  rw [h]
  exact he hn

/-! ### Write-backs -/

/-- A precise entry names every agent that it records (R82). -/
theorem mem_holders {s : State} {e : DirEnt} {f : Nat} (hc : e.coarse = false) (hf : e.sh.contains f = true) : f ∈ s.holders e := by
  have hf' : f ∈ e.sh := by simpa using hf
  simp only [State.holders, hc, Bool.false_eq_true, if_false, List.contains_eq_mem, List.mem_append, List.mem_filter]
  by_cases h : f ∈ ((s.dom e.dom).agents.filter (fun a => decide (a.2.fid ∈ e.sh))).map (fun a => a.2.fid)
  · exact .inl h
  · exact .inr ⟨hf', by simpa using h⟩

/-- A write-back of an agent that the entry records: MetaValue A is forbidden, a sharer's is a protocol error, the exclusive holder's
is taken (R72, R75, R76). -/
theorem homeWrite_recorded {s : State} {r : HReq} {e : DirEnt} (h : s.wbFree r) (he : s.ent (reqLine r) = some e) (hc : e.coarse = false)
    (hs : e.sh.contains r.fid = true) :
    s.homeWrite r = if r.msg = .memWr .a ∨ r.msg = .memWrPtl .a then s.forbidden r true
      else if e.st = 1 ∨ e.st = 4 then (s.protoErr (reqLine r) r.fid).respond r.fid r.via (reqLine r) (some .done)
      else (s.wbEntry (reqLine r) r.fid r.data r.mask r.msg.keeps).respond r.fid r.via (reqLine r) (some .done) := by
  have hnamed := mem_holders (s := s) hc hs
  obtain ⟨hslice, hbank, hcache, howed⟩ := h
  rw [List.contains_eq_mem, decide_eq_false_iff_not] at hbank
  unfold reqLine at he hbank howed ⊢
  unfold State.homeWrite
  cases hag : s.agentOf (s.slice r.slice).dom r.fid with
  | none => simp [hslice, hbank, howed, he, hc, hnamed, hag]
  | some a => simp [hslice, hbank, howed, he, hc, hnamed, hag, hcache a hag]

theorem homeWrite_unrecorded {s : State} {r : HReq} (h : s.wbFree r) (hm : memWrites r.msg = false)
    (hr : s.homeReason r.fid r.slice true = none) (he : s.ent (reqLine r) = none) :
    s.homeWrite r = (s.wbEntry (reqLine r) r.fid r.data r.mask r.msg.keeps).respond r.fid r.via (reqLine r) (some .done) := by
  obtain ⟨hslice, hbank, hcache, howed⟩ := h
  rw [List.contains_eq_mem, decide_eq_false_iff_not] at hbank
  unfold reqLine at he hbank howed ⊢
  unfold State.homeWrite
  cases hag : s.agentOf (s.slice r.slice).dom r.fid with
  | none => simp [hslice, hbank, howed, he, hm, State.strayWb, hr, hag]
  | some a => simp [hslice, hbank, howed, he, hm, State.strayWb, hr, hag, hcache a hag]

theorem wbEntry_held {s : State} {la fid : Nat} {e : DirEnt} (he : s.ent la = some e) (hst : e.st = 2 ∨ e.st = 3)
    (hf : e.sh.contains fid = true) (d : Line) (mask : BitVec 64) (keep : Bool) :
    ∃ u : State, s.wbEntry la fid d mask keep = u.setEnt la (if keep then some { e with st := if u.dirtyHere la then 4 else 1 } else none) := by
  refine ⟨s.takeWb la d mask (s.openTrk la), ?_⟩
  simp only [State.wbEntry, he, if_pos (And.intro hst hf)]

theorem laSlice_reqLine (r : HReq) : laSlice (reqLine r) = r.slice := by
  have hoff := r.off.isLt
  simp only [laSlice, reqLine, lineAddr]
  omega

/-- A write-back of a line that no tracker serves takes the line's way: whole, or merged by its byte mask (R77). -/
theorem takeWb_unmatched {s : State} {la : Nat} {l : LsLine} (ht : ∀ k x, (k, x) ∈ s.home.trks → x.la ≠ la)
    (hst : (s.slice (laSlice la)).state ≠ 5) (hu : s.lsUsable (laSlice la) = true) (hl : s.lsLine la = some l) (d : Line) (mask : BitVec 64) :
    s.takeWb la d mask (s.openTrk la) = s.lsPut la (if mask = BitVec.allOnes 64 then ⟨true, false, d, 0, false⟩
      else ⟨true, l.poison, lineMerge l.data d mask, 0, false⟩) := by
  have hopen : s.openTrk la = none := by
    simp only [State.openTrk, List.find?_eq_none]
    exact fun x hx => by simp [ht x.1 x.2 hx]
  have hstore : ∀ x p, (s.memStore la x p none).1 = s.lsPut la ⟨true, p, x, 0, false⟩ := fun x p => by
    simp [State.memStore, hu, hl]
  rw [hopen]
  unfold State.takeWb
  dsimp only
  split
  · next i y hfind =>
    have hp := List.find?_some hfind
    exact absurd (of_decide_eq_true (Bool.and_eq_true_iff.mp hp).1) (ht i y (List.mem_of_find?_eq_some hfind))
  · simp only [hst, or_false, hl, hstore]
    split <;> rfl

/-! ### The commands of a home -/

theorem exec_homeWb {r : HReq} {s : State} (h : wbMsg r.msg = true) : exec (.homeWb r) s = .next (s.homeWrite r) := by
  change execHomeWb r s = _
  unfold execHomeWb
  cases hm : r.msg <;> simp_all [wbMsg]

theorem exec_homeWb_forbidden {r : HReq} {s : State} (h : wbMsg r.msg = false) : exec (.homeWb r) s = .next (s.forbidden r true) := by
  change execHomeWb r s = _
  unfold execHomeWb
  cases hm : r.msg <;> simp_all [wbMsg]

theorem exec_homeNcw {r : HReq} {s : State} (h : memWrites r.msg = false) : exec (.homeNcw r) s = .next (s.homeReq .ncw r) := by
  change execHomeNcw r s = _
  unfold execHomeNcw
  rw [h]
  rfl

theorem exec_homeNcw_memWrites {r : HReq} {s : State} (h : memWrites r.msg = true) : exec (.homeNcw r) s = exec (.homeWb r) s := by
  rw [exec_homeWb]
  · change execHomeNcw r s = _
    unfold execHomeNcw
    rw [h, if_pos rfl]
  · cases hm : r.msg <;> simp_all [memWrites, wbMsg]

/-- A message that R72 lists for an uncached write is no memory write (R72). -/
theorem memWrites_false_of_ncw {m : CxMsg} (h : evFits m .ncw = true) : memWrites m = false := by
  cases m <;> simp_all [memWrites, evFits]

theorem exec_clflush_recorded {r : HReq} {e : DirEnt} {s : State} (he : s.ent (reqLine r) = some e) (hf : (s.holders e).contains r.fid = true) :
    exec (.clflush r) s = .next (s.homeAccept .ce r) := by
  change execClflush r s = _
  unfold reqLine at he
  unfold execClflush
  simp only [he, hf, if_true]

theorem exec_clflush_unrecorded {r : HReq} {s : State} (he : s.ent (reqLine r) = none) :
    exec (.clflush r) s = .next (s.respond r.fid r.via (reqLine r) (some .goI)) := by
  change execClflush r s = _
  unfold reqLine at he ⊢
  unfold execClflush
  simp only [he, Bool.false_eq_true, if_false]

theorem exec_biconflict {fid : Fid} {la : Nat} {s : State} (h : (s.snoopOf la fid).isSome = true) :
    exec (.biconflict fid la) s = .next (s.respond fid .mem la (some .conflictAck)) := if_pos h

/-- Settles O13: requests by `homeReq_opens` and `homeReq_refused`, write-backs by `homeWrite_recorded` and `homeWrite_unrecorded`. The form in
which a message that R72 does not list completes is the model's own choice (log 245). -/
theorem homeRequests : Obligations.HomeRequests := by
  refine ⟨fun r a s h hf => ⟨_, rfl, homeReq_opens h hf⟩, fun r a s h hf => ⟨_, rfl, homeReq_opens h hf⟩,
    fun r a s h hf => ⟨_, rfl, homeReq_opens h hf⟩, fun r a s h hf => ⟨_, rfl, homeReq_opens h hf⟩,
    fun r a s h hf => ⟨_, exec_homeNcw (memWrites_false_of_ncw hf), homeReq_opens h hf⟩, fun r a s h hf => ⟨_, rfl, homeReq_opens h hf⟩,
    fun r s hd hf => ⟨_, rfl, homeReq_refused hd hf⟩, fun r s hd hf => ⟨_, rfl, homeReq_refused hd hf⟩,
    fun r s hd hf => ⟨_, rfl, homeReq_refused hd hf⟩, fun r s hd hf => ⟨_, rfl, homeReq_refused hd hf⟩,
    fun r s hd hm hf => ⟨_, exec_homeNcw hm, homeReq_refused hd hf⟩, fun r s hd hf => ⟨_, rfl, homeReq_refused hd hf⟩,
    fun r s => rfl, fun r e s => exec_clflush_recorded, fun r s => exec_clflush_unrecorded, ?_, ?_, ?_,
    fun r s => exec_homeWb_forbidden, ?_, ?_, fun r s => exec_homeNcw_memWrites⟩
  · intro fid la s h
    exact ⟨_, exec_biconflict h, mem_respond_out _ _ _ _ (by decide), (respond_answers _ _ _ _ _).home⟩
  · intro r e s hfree hwb ha hpa he hst hc hs hv
    have hexec := exec_homeWb (s := s) hwb
    obtain ⟨u, hu⟩ := wbEntry_held he hst hs r.data r.mask r.msg.keeps
    rw [homeWrite_recorded hfree he hc hs, if_neg (by simp [ha, hpa]), if_neg (by omega), hu] at hexec
    have hans := (respond_answers (u.setEnt (reqLine r) (if r.msg.keeps then some { e with st := if u.dirtyHere (reqLine r) then 4 else 1 }
      else none)) r.fid r.via (reqLine r) (some .done)).home
    refine ⟨_, hexec, ?_, mem_respond_out _ _ _ _ hv⟩
    rw [ent_congr hans, dirtyHere_congr hans, ent_setEnt_self, setEnt_dirtyHere]
  · intro r l s hfree hwb hm hr ht he hu hl hv
    have hexec := exec_homeWb (s := s) hwb
    have hst : (s.slice (laSlice (reqLine r))).state ≠ 5 := by rw [laSlice_reqLine]; exact hfree.1
    have hentry : s.wbEntry (reqLine r) r.fid r.data r.mask r.msg.keeps = s.takeWb (reqLine r) r.data r.mask (s.openTrk (reqLine r)) := by
      simp only [State.wbEntry, he]
    rw [homeWrite_unrecorded hfree hm hr he, hentry, takeWb_unmatched ht hst hu hl] at hexec
    have hans := (respond_answers (s.lsPut (reqLine r) (if r.mask = BitVec.allOnes 64 then ⟨true, false, r.data, 0, false⟩
      else ⟨true, l.poison, lineMerge l.data r.data r.mask, 0, false⟩)) r.fid r.via (reqLine r) (some .done)).home
    refine ⟨_, s.home.clock + 1, hexec, ?_, ?_, mem_respond_out _ _ _ _ hv⟩
    · rw [hans, lsPut_ents he]
    · rw [lsLine_congr hans, lsPut_lsLine]
      split <;> rfl
  · intro r e s hfree ha he hc hs
    have hwb : wbMsg r.msg = true := by rcases ha with ha | ha <;> rw [ha] <;> rfl
    rw [exec_homeWb hwb, homeWrite_recorded hfree he hc hs, if_pos ha]
  · intro r e s hfree hwb ha hpa he hst hc hs hv
    have hexec := exec_homeWb (s := s) hwb
    rw [homeWrite_recorded hfree he hc hs, if_neg (by simp [ha, hpa]), if_pos hst] at hexec
    have hans := respond_answers (s.protoErr (reqLine r) r.fid) r.fid r.via (reqLine r) (some .done)
    have hkeep := (protoErr_keepsHome s (reqLine r) r.fid).trans hans.toKeepsHome
    exact ⟨_, hexec, hkeep.home, hkeep.bind, (nreg_congr hans.regs _).trans (protoErr_nreg s _ _), mem_respond_out _ _ _ _ hv⟩

end Sys2Proof.Machine
end

section
namespace Sys2Proof.Machine

/-! ### A tracker goes on -/

/-- The home events of a read that is recorded (R72, R75). -/
def HEv.isRead : HEv → Bool
  | .rds | .rda | .rdown => true
  | _ => false

/-- A tracker that owes snoops waits (R78). -/
theorem advance_snooping {s : State} {k : Nat} {t : Trk} (h : tfind s.home.trks k = some t) (hs : t.snps.isEmpty = false) : s.advance k = s := by
  have hstep : s.advance1 k = s := by
    unfold State.advance1
    rw [h]
    simp [hs]
  have hready : s.trkReady k = false := by simp [State.trkReady, h, hs]
  simp [State.advance, hstep, hready]

/-- A tracker that has ended in its first step takes no other. -/
theorem advance_ended {s : State} {k : Nat} (h : tfind (s.advance1 k).home.trks k = none) : s.advance k = s.advance1 k := by
  have hready : (s.advance1 k).trkReady k = false := by simp [State.trkReady, h]
  simp [State.advance, hready]

/-- A way of the set is free: the entry is recorded there (R83). -/
theorem record_room {s : State} {la : Nat} (hup : s.sfUp la = true) (hset : (s.dieSet la).length < 16) (e : DirEnt) (must : Bool) :
    s.record la e must = (s.stamp.2.setEnt la (some { e with onDie := true, use := s.home.clock + 1 }), true) := by
  have hup' : s.stamp.2.sfUp la = true := hup
  have hroom : ((s.stamp.2.dieSet la).filter (fun x => decide (x.1 ≠ la))).length < 16 :=
    lt_of_le_of_lt (List.length_filter_le _ _) hset
  unfold State.record
  simp only [hup', Bool.not_true, Bool.false_eq_true, if_false, if_pos hroom]
  rfl

/-- What a tracker's read waits for has come: its snoops and its data (R74, R75). -/
structure Trk.served (t : Trk) (d : Line) : Prop where
  snps  : t.snps = []
  todo  : t.todo = none
  ack   : t.ack = 0
  phase : t.phase = 2
  read  : t.ev.isRead = true
  owner : t.noData = false
  wb    : t.wb = none
  got   : t.got = some (d, false)
  via   : t.via ≠ .discard

/-- A read that is served: its entry is recorded, its answer leaves, its tracker ends (R74, R75). -/
theorem advance1_served {s : State} {k : Nat} {t : Trk} {d : Line} {y : DirEnt} {g : Nat} (ht : tfind s.home.trks k = some t)
    (h : t.served d) (hn : s.nextEnt t = (some y, g)) (hg : g ≠ 3) (hup : s.sfUp t.la = true) (hset : (s.dieSet t.la).length < 16) :
    s.advance1 k = ((s.stamp.2.setEnt t.la (some { y with onDie := true, use := s.home.clock + 1 })).complete t.fid t.via t.la
      (some (.data g d false))).endTrk k t := by
  have hncr : t.ev ≠ .ncr := fun he => by simpa [he, HEv.isRead] using h.read
  have hrecord : s.recordNext t (some y) = (s.stamp.2.setEnt t.la (some { y with onDie := true, use := s.home.clock + 1 }), true) := by
    unfold State.recordNext
    cases s.ent t.la <;> simp only [if_neg hncr, record_room hup hset]
  have hserve : s.serve k t = ((s.stamp.2.setEnt t.la (some { y with onDie := true, use := s.home.clock + 1 })).complete t.fid t.via t.la
      (some (.data g d false))).endTrk k t := by
    unfold State.serve
    simp [h.wb, h.got, hn, hrecord, hg]
  have hgo : s.goOn k t = s.serve k t := by
    have hread := h.read
    unfold State.goOn State.ownerLost
    cases hev : t.ev <;> simp_all [h.owner, h.got, HEv.isRead]
  have hread := h.read
  unfold State.advance1
  rw [ht, ← hserve, ← hgo]
  cases hev : t.ev <;> simp_all [h.snps, h.todo, h.ack, h.phase, HEv.isMove, HEv.isRead]

theorem advance_served {s : State} {k : Nat} {t : Trk} {d : Line} {y : DirEnt} {g : Nat} (ht : tfind s.home.trks k = some t)
    (h : t.served d) (hn : s.nextEnt t = (some y, g)) (hg : g ≠ 3) (hup : s.sfUp t.la = true) (hset : (s.dieSet t.la).length < 16) :
    (s.advance k).ent t.la = some { y with onDie := true, use := s.home.clock + 1 } ∧
      Out.homeRsp t.fid t.via t.la (.data g d false) ∈ (s.advance k).out := by
  have hstep := advance1_served ht h hn hg hup hset
  rw [advance_ended (by rw [hstep]; exact endTrk_none _ _ _), hstep]
  generalize hu : s.stamp.2.setEnt t.la (some { y with onDie := true, use := s.home.clock + 1 }) = u
  have hkeep := endTrk_keepsLines (u.complete t.fid t.via t.la (some (.data g d false))) k t
  refine ⟨?_, hkeep.out (mem_complete_out _ _ _ _ h.via)⟩
  rw [State.ent, hkeep.ents, (complete_answers _ _ _ _ _).home, ← hu]
  exact ent_setEnt_self _ _ _

/-! ### The entry after a read -/

/-- A read of a line in I: its requester is the one recorded agent (R75). -/
theorem nextEnt_free {s : State} {t : Trk} (hev : t.ev.isRead = true) (h2 : t.type2 = false) (hr : t.rsps = []) (ht : t.ent = none)
    (he : s.ent t.la = none) :
    s.nextEnt t = (some { st := if t.ev = .rds then (if s.dirtyHere t.la then 4 else 1) else 2, dom := s.laDom t.la, sh := [t.fid] },
      if t.ev = .rds then 1 else 2) := by
  unfold State.nextEnt
  cases h : t.ev <;> simp_all [HEv.isRead, State.addSharer]

/-- An exclusive read leaves its requester as the one recorded agent, in E (R75). -/
theorem nextEnt_rdown {s : State} {t : Trk} (hev : t.ev = .rdown) (h2 : t.type2 = false) :
    s.nextEnt t = (some { st := 2, dom := s.laDom t.la, sh := [t.fid] }, 2) := by
  unfold State.nextEnt
  simp [hev, h2, State.addSharer]

/-! ### The lookup -/

/-- A tracker that goes on from its lookup without a snoop. -/
def Trk.looked (t : Trk) (e : Option DirEnt) : Trk := { t with ent := e, wide := false, phase := 2 }

/-- A read of a line in I, outside Blanket mode, goes on without snoops (R75, R90). -/
theorem exec_sfLookupDone_free {k : Nat} {x : Trk} {s : State} (ht : tfind s.home.trks k = some x) (hp : x.phase = 1) (hev : x.ev ≠ .ce)
    (he : s.ent x.la = none) (hb : s.blanketDom (s.laDom x.la) = false) (hup : s.sfUp x.la = true) (hdir : s.dirBusy x.la = false) :
    exec (.sfLookupDone k) s = .next (((s.latStage (tagAt x.fid x.la) 3).setTrk k (x.looked none)).advance k) := by
  have hin : (s.latStage (tagAt x.fid x.la) 3).bringIn x.la = (s.latStage (tagAt x.fid x.la) 3, true) := by
    unfold State.bringIn
    rw [ent_congr (latStage_answers s _ _ _).home, he]
  change execSfLookupDone k s = _
  unfold execSfLookupDone
  simp [ht, hp, hdir, hin, he, hb, hup, hev, Trk.looked]

/-- A renewed entry is the same but for its age (R83). -/
theorem ent_entUse (s : State) (la : Nat) : (s.entUse la).ent la = (s.ent la).map (fun e => { e with use := s.home.clock + 1 }) := by
  simp only [State.ent, State.entUse, State.stamp, State.inHome]
  induction s.home.ents with
  | nil => rfl
  | cons e r ih =>
    obtain ⟨j, w⟩ := e
    by_cases h : j = la
    · simp [tfind, h]
    · simpa [tfind, h] using ih

/-- The clean eviction of the only sharer frees the entry (R75). -/
theorem cleanEvict_only {s : State} {f la : Nat} {e : DirEnt} (he : s.ent la = some e) (hc : e.coarse = false) (hs : e.sh = [f])
    (hst : e.st ≠ 3) : s.cleanEvict f la = s.setEnt la none := by
  simp [State.cleanEvict, he, hc, hs, hst, entMinus]

theorem exec_sfLookupDone_ce {k : Nat} {x : Trk} {e : DirEnt} {s : State} (ht : tfind s.home.trks k = some x) (hp : x.phase = 1)
    (hev : x.ev = .ce) (he : s.ent x.la = some e) (hon : e.onDie = true) (hdir : s.dirBusy x.la = false) :
    ∃ y, exec (.sfLookupDone k) s = .next (((((s.latStage (tagAt x.fid x.la) 3).entUse x.la).cleanEvict x.fid x.la).complete x.fid x.via x.la
      (some .done)).endTrk k y) := by
  have hin : (s.latStage (tagAt x.fid x.la) 3).bringIn x.la = ((s.latStage (tagAt x.fid x.la) 3).entUse x.la, true) := by
    unfold State.bringIn
    rw [ent_congr (latStage_answers s _ _ _).home, he]
    exact if_pos hon
  refine ⟨{ x with ent := some e, wide := false }, ?_⟩
  change execSfLookupDone k s = _
  unfold execSfLookupDone
  simp [ht, hp, hdir, hin, he, hev]

/-! ### Snoop answers -/

/-- The tracker that a snoop's answer is of: it is of the line, and has the agent's snoop open (R79). -/
theorem snoopOf_spec {s : State} {la fid k : Nat} {x : Trk} (h : s.snoopOf la fid = some (k, x)) :
    x.la = la ∧ ∃ n, x.snps.find? (fun n => decide (n.fid = fid)) = some n ∧ n ∈ x.snps ∧ n.fid = fid := by
  have hp := List.find?_some h
  simp only [Bool.and_eq_true, decide_eq_true_eq, List.any_eq_true] at hp
  obtain ⟨hla, m, hm, hmf⟩ := hp
  have hsome : (x.snps.find? (fun n => decide (n.fid = fid))).isSome = true := List.find?_isSome.mpr ⟨m, hm, decide_eq_true hmf⟩
  obtain ⟨n, hn⟩ := Option.isSome_iff_exists.mp hsome
  have hnf := List.find?_some hn
  exact ⟨hla, n, hn, List.mem_of_find?_eq_some hn, of_decide_eq_true hnf⟩

theorem exec_snoopResponse_open {la k : Nat} {a : SnpRsp} {x : Trk} {s : State} (hg : s.home.gone.contains (la, (a.fid : Nat)) = false)
    (ho : s.snoopOf la a.fid = some (k, x)) : exec (.snoopResponse la a) s = .next (s.snoopAnswer la k x a) := by
  change execSnoopResponse la a s = _
  unfold execSnoopResponse
  simp only [hg, Bool.false_eq_true, if_false, ho]

/-- A tracker that has an agent's answer. -/
def Trk.answeredBy (t : Trk) (a : SnpRsp) : Trk := { t with snps := t.snps.filter (fun n => decide (n.fid ≠ a.fid)), rsps := t.rsps ++ [a] }

/-- An answer in time, without data, that keeps no more than its snoop allows (R75, R76, R93). -/
theorem snoopAnswer_clean {s : State} {la k : Nat} {t : Trk} {a : SnpRsp} {n : Snp}
    (hf : t.snps.find? (fun n => decide (n.fid = (a.fid : Nat))) = some n) (hd : a.data = none) (hdue : tickEarlier s.tick.loc n.due = true) (hkeep : a.keep.val + n.kind ≤ 2) :
    s.snoopAnswer la k t a = (s.setTrk k (t.answeredBy a)).advance k := by
  have hle : ¬ 2 - n.kind < a.keep.val := by omega
  have ha : ({ fid := a.fid, keep := a.keep, data := none } : SnpRsp) = a := by rw [← hd]
  unfold State.snoopAnswer
  simp [hf, hdue, hle, hd, ha, Trk.answeredBy]

theorem snoopAnswer_late {s : State} {la k : Nat} {t : Trk} {a : SnpRsp} {n : Snp}
    (hf : t.snps.find? (fun n => decide (n.fid = (a.fid : Nat))) = some n) (hdue : tickEarlier s.tick.loc n.due = false) :
    s.snoopAnswer la k t a = s.setTrk k { t with snps := t.snps.map (fun n => if n.fid = (a.fid : Nat) then { n with late := true } else n) } := by
  unfold State.snoopAnswer
  simp [hf, hdue]

theorem exec_snoopTimeout_early {k : Nat} {fid : Fid} {x : Trk} {n : Snp} {s : State} (ht : tfind s.home.trks k = some x)
    (hf : x.snps.find? (fun n => decide (n.fid = (fid : Nat))) = some n) (hdue : tickEarlier s.tick.loc n.due = true) :
    exec (.snoopTimeout k fid) s = .next s := by
  change execSnoopTimeout k fid s = _
  unfold execSnoopTimeout
  simp only [ht, hf, hdue, if_true]

theorem exec_snoopTimeout_dead {k : Nat} {fid : Fid} {x : Trk} {n : Snp} {s : State} (ht : tfind s.home.trks k = some x)
    (hf : x.snps.find? (fun n => decide (n.fid = (fid : Nat))) = some n) (hdue : tickEarlier s.tick.loc n.due = false)
    (hdead : tfind (s.agentDead fid).home.trks k = none) : exec (.snoopTimeout k fid) s = .next (s.agentDead fid) := by
  change execSnoopTimeout k fid s = _
  unfold execSnoopTimeout
  simp only [ht, hf, hdue, Bool.false_eq_true, if_false, hdead]

/-- Settles O14: the lookup and the last answer serve their read by `advance_served`, an answer before the last one leaves the tracker
waiting (`advance_snooping`), and the rest is each command's own equation. -/
theorem lookupsAndSnoops : Obligations.LookupsAndSnoops := by
  refine ⟨?_, ?_, ?_, ?_, fun la a s h => if_pos h, ?_, fun k fid x n s => exec_snoopTimeout_early, fun k fid x n s => exec_snoopTimeout_dead⟩
  · intro k x d s ht hp hev h2 hsnps htodo hack hrsps hwb hgot hv he hb hup hset hdir
    have hread : x.ev.isRead = true := by rcases hev with h | h | h <;> rw [h] <;> rfl
    have hce : x.ev ≠ .ce := fun h => by simp [h] at hev
    have hexec := exec_sfLookupDone_free ht hp hce he hb hup hdir
    obtain ⟨tel, free, hlat⟩ := latStage_eq s (tagAt x.fid x.la) 3 false
    rw [hlat] at hexec
    have hnext := nextEnt_free (s := { s with tel := tel, free := free }.setTrk k (x.looked none)) (t := x.looked none) hread h2 hrsps rfl he
    have hserved : (x.looked none).served d := ⟨hsnps, htodo, hack, rfl, hread, rfl, hwb, hgot, hv⟩
    have hgrant : (if (x.looked none).ev = .rds then 1 else 2) ≠ 3 := by split <;> decide
    obtain ⟨hent, hout⟩ := advance_served (tfind_tins_self _ _ _) hserved hnext hgrant hup hset
    exact ⟨_, _, hexec, hent, rfl, rfl, rfl, rfl, hout⟩
  · intro k x e s ht hp hev hv he hon hc hs hst hdir
    obtain ⟨y, hexec⟩ := exec_sfLookupDone_ce ht hp hev he hon hdir
    have huse := ent_entUse (s.latStage (tagAt x.fid x.la) 3) x.la
    rw [ent_congr (latStage_answers s _ _ _).home, he, Option.map_some] at huse
    rw [cleanEvict_only huse hc hs hst] at hexec
    have hkeep := endTrk_keepsLines ((((s.latStage (tagAt x.fid x.la) 3).entUse x.la).setEnt x.la none).complete x.fid x.via x.la (some .done)) k y
    refine ⟨_, hexec, ?_, hkeep.out (mem_complete_out _ _ _ _ hv)⟩
    rw [State.ent, hkeep.ents, (complete_answers _ _ _ _ _).home]
    exact ent_setEnt_self _ _ _
  · intro la k a x s hg ho hd hn hother
    obtain ⟨-, n, hf, hmem, hfid⟩ := snoopOf_spec ho
    obtain ⟨hdue, hkeep⟩ := hn n hmem hfid
    have hwait : (x.answeredBy a).snps.isEmpty = false := by
      obtain ⟨m, hm, hmf⟩ := List.any_eq_true.mp hother
      exact List.isEmpty_eq_false_iff_exists_mem.mpr ⟨m, List.mem_filter.mpr ⟨hm, hmf⟩⟩
    rw [exec_snoopResponse_open hg ho, snoopAnswer_clean hf hd hdue hkeep, advance_snooping (tfind_tins_self _ _ _) hwait]
    rfl
  · intro la k a x n d e s hg ho hd hk0 hsn hfid hkind hdue hp htodo hack hev h2 hwb hgot hv hent hst hup hset
    obtain ⟨hla, -⟩ := snoopOf_spec ho
    subst hla
    have hexec := exec_snoopResponse_open hg ho
    rw [snoopAnswer_clean (n := n) (by simp [hsn, hfid]) hd hdue (by simp [hk0, hkind])] at hexec
    have hnone : (x.answeredBy a).snps = [] := by simp [Trk.answeredBy, hsn, hfid]
    have howner : (x.answeredBy a).noData = false := by
      have h3 : e.st ≠ 3 := by omega
      simp [Trk.noData, Trk.answeredBy, hent, h3]
    have hnext := nextEnt_rdown (s := s.setTrk k (x.answeredBy a)) (t := x.answeredBy a) hev h2
    have hread : (x.answeredBy a).ev.isRead = true := congrArg HEv.isRead hev
    have hserved : (x.answeredBy a).served d := ⟨hnone, htodo, hack, hp, hread, howner, hwb, hgot, hv⟩
    obtain ⟨hy, hout⟩ := advance_served (tfind_tins_self _ _ _) hserved hnext (by decide) hup hset
    exact ⟨_, _, hexec, hy, rfl, rfl, rfl, hout⟩
  · intro la k a x s hg ho hn
    obtain ⟨-, n, hf, hmem, hfid⟩ := snoopOf_spec ho
    rw [exec_snoopResponse_open hg ho, snoopAnswer_late hf (hn n hmem hfid)]

end Sys2Proof.Machine
end

section
namespace Sys2Proof.Machine

/-! ### Device data -/

/-- Data of a read that was undone frees its read tracker (R88). -/
theorem exec_deviceReadComplete_undone {rid la : Nat} {s : State} (h : tfind s.home.devRds rid = some (la, none)) (d : Line) (p : Bool) :
    exec (.deviceReadComplete rid d p) s = .next ((s.inHome (fun h => { h with devRds := tdel h.devRds rid })).kickReads (s.laBank la)) := by
  change execDeviceReadComplete rid d p s = _
  unfold execDeviceReadComplete
  simp only [h]

/-- Data of a request's read fills the line store, and goes to the request (R85, R88). -/
theorem exec_deviceReadComplete_request {rid la k : Nat} {x : Trk} {s : State} (h : tfind s.home.devRds rid = some (la, some k))
    (hx : tfind s.home.trks k = some x) (hm : x.ev.isMove = false) (d : Line) (p : Bool) :
    exec (.deviceReadComplete rid d p) s = .next ((((s.inHome (fun h => { h with devRds := tdel h.devRds rid })).lsFill la d p).readArrived k d
      p).kickReads (s.laBank la)) := by
  change execDeviceReadComplete rid d p s = _
  unfold execDeviceReadComplete
  simp only [h, hx, hm, Bool.false_eq_true, if_false]

/-! ### A victim's way -/

theorem lsDrop_eq (s : State) (la : Nat) : ∃ ents, s.lsDrop la = s.inHome (fun h => { h with lines := tdel h.lines la, ents := ents }) := by
  obtain ⟨ents, h⟩ := fixShared_eq (s.inHome (fun h => { h with lines := tdel h.lines la })) la false
  exact ⟨ents, h⟩

/-- The way of a line that leaves the line store is free (R86). -/
theorem wayFree_tdel {s t : State} {la k : Nat} (hlines : t.home.lines = tdel s.home.lines la) (hshadow : t.home.shadow = s.home.shadow)
    (hbind : t.bind = s.bind) (hin : (s.lsLine la).isSome = true) (hset : s.lsSet k = s.lsSet la)
    (hroom : (s.setLines la).length + s.setShadows la ≤ 16) : t.wayFree k = true := by
  have hlsSet : ∀ n, t.lsSet n = s.lsSet n := fun n => by simp only [State.lsSet, slice_congr hbind]
  obtain ⟨⟨j, l⟩, hmem, hj⟩ := List.mem_map.mp (mem_keys_of_tfind hin)
  have hsub : t.setLines k = (s.setLines la).filter (fun e => e.1 != la) := by
    simp only [State.setLines, hlines, hlsSet, hset, tdel, List.filter_filter, Bool.and_comm]
  have hless : (t.setLines k).length < (s.setLines la).length := by
    rw [hsub]
    refine List.length_filter_lt_length_iff_exists.mpr ⟨(j, l), List.mem_filter.mpr ⟨hmem, ?_⟩, ?_⟩ <;> simp [show j = la from hj]
  have hshadows : t.setShadows k = s.setShadows la := by simp only [State.setShadows, hshadow, hlsSet, hset]
  simp only [State.wayFree, hshadows, decide_eq_true_eq]
  omega

/-- The one allocation that waits in a set takes a way that is free (R86). -/
theorem placeAllocs_way {s : State} {a : Alloc} {la : Nat} (ha : s.home.allocs = [a]) (hset : s.lsSet a.la = s.lsSet la)
    (hfree : s.wayFree a.la = true) : s.placeAllocs la = (s.delAlloc a.la).lsPut a.la a.line := by
  have hwait : s.home.allocs.filter (fun b => decide (s.lsSet b.la = s.lsSet la)) = [a] := by simp [ha, hset]
  unfold State.placeAllocs
  simp only [hwait, State.each, List.foldl_cons, List.foldl_nil, State.findWay, if_pos hfree]

theorem resume_of_nil {s : State} (h : s.home.trks = []) : s.resume = s := by simp [State.resume, h, State.each]

theorem kickReads_of_nil {s : State} (h : s.home.trks = []) (b : Nat) : s.kickReads b = s := by simp [State.kickReads, h, lruOf]

theorem exec_lsVictimWriteDone {la : Nat} {l : LsLine} {s : State} (hl : s.lsLine la = some l) (hw : l.wr = true) :
    exec (.lsVictimWriteDone la) s = .next (((((s.devWrDone la).lsDrop la).placeAllocs la).resume).kickReads (s.laBank la)) := by
  change execLsVictimWriteDone la s = _
  unfold execLsVictimWriteDone
  simp only [hl, hw, if_true]

/-- A victim is on its device: its way takes the line that waited (R86). -/
theorem lsVictimWriteDone_places {la : Nat} {l : LsLine} {a : Alloc} {s : State} (hl : s.lsLine la = some l) (hw : l.wr = true)
    (ha : s.home.allocs = [a]) (hne : a.la ≠ la) (hset : s.lsSet a.la = s.lsSet la) (ht : s.home.trks = [])
    (hroom : (s.setLines la).length + s.setShadows la ≤ 16) :
    ∃ t n, exec (.lsVictimWriteDone la) s = .next t ∧ t.lsLine la = none ∧ t.lsLine a.la = some { a.line with use := n, wr := false } ∧
      t.home.allocs = [] := by
  obtain ⟨ents, hdrop⟩ := lsDrop_eq (s.devWrDone la) la
  have hway : ((s.devWrDone la).lsDrop la).wayFree a.la = true :=
    wayFree_tdel (s := s) (by rw [hdrop]; rfl) (by rw [hdrop]; rfl) (by rw [hdrop]; rfl) (by rw [hl]; rfl) hset hroom
  have hplace : ((s.devWrDone la).lsDrop la).placeAllocs la = (((s.devWrDone la).lsDrop la).delAlloc a.la).lsPut a.la a.line :=
    placeAllocs_way (by rw [hdrop]; exact ha) (by rw [hdrop]; exact hset) hway
  obtain ⟨ents', hhome, -⟩ := lsPut_home (((s.devWrDone la).lsDrop la).delAlloc a.la) a.la a.line
  have hexec := exec_lsVictimWriteDone hl hw
  rw [hplace] at hexec
  generalize hu : (((s.devWrDone la).lsDrop la).delAlloc a.la) = v at hhome hexec
  have htrks : (v.lsPut a.la a.line).home.trks = [] := by rw [hhome, ← hu, hdrop]; exact ht
  rw [resume_of_nil htrks, kickReads_of_nil htrks] at hexec
  refine ⟨_, v.home.clock + 1, hexec, ?_, ?_, ?_⟩
  · rw [State.lsLine, hhome, tfind_tins_ne _ _ hne.symm, ← hu, hdrop]
    exact tfind_tdel_self _ _
  · rw [State.lsLine, hhome, tfind_tins_self]
  · have hgone : [a].filter (fun b => decide (b.la ≠ a.la)) = [] := by simp
    rw [hhome, ← hu, hdrop, ← hgone, ← ha]
    rfl

/-! ### The oldest request of a line -/

/-- The one element that is below every other is the least recently used. -/
theorem lruOf_eq_some {α : Type} {use : α → Nat} {l : List α} {a : α} (ha : a ∈ l) (hmin : ∀ b ∈ l, b ≠ a → use a < use b) :
    lruOf use l = some a := by
  have hle : l.all (fun b => decide (use a ≤ use b)) = true := by
    simp only [List.all_eq_true, decide_eq_true_eq]
    intro b hb
    by_cases h : b = a
    · rw [h]
    · exact (hmin b hb h).le
  have hsome : (lruOf use l).isSome = true := List.find?_isSome.mpr ⟨a, ha, hle⟩
  obtain ⟨c, hc⟩ := Option.isSome_iff_exists.mp hsome
  have hcle := List.find?_some hc
  simp only [List.all_eq_true, decide_eq_true_eq] at hcle
  by_cases h : c = a
  · rw [hc, h]
  · exact absurd (hcle a ha) (Nat.not_le.mpr (hmin c (List.mem_of_find?_eq_some hc) h))

/-- The oldest request that waits on a free line goes to its lookup (R78). -/
theorem exec_lineQueueAdvance_ncw {la k : Nat} {x : Trk} {s : State} (hd : s.inDoubt la = false) (hb : s.lineBusy la = false)
    (hm : (k, x) ∈ s.home.trks) (hla : x.la = la) (hp : x.phase = 0) (hev : x.ev = .ncw)
    (hold : ∀ j y, (j, y) ∈ s.home.trks → y.la = la → (j, y) ≠ (k, x) → x.ord < y.ord) :
    exec (.lineQueueAdvance la) s = .next ((s.lookup0 la).setTrk k { x with phase := 1 }) := by
  have hlru : lruOf (fun y : Nat × Trk => y.2.ord) (s.home.trks.filter (fun y => decide (y.2.la = la) && decide (y.2.phase = 0) &&
      (y.2.ev.isReq || y.2.ev.isMove || y.2.ev.isHamper))) = some (k, x) := by
    refine lruOf_eq_some (List.mem_filter.mpr ⟨hm, by simp [hla, hp, hev, HEv.isReq]⟩) fun y hy hne => ?_
    obtain ⟨hmem, htest⟩ := List.mem_filter.mp hy
    exact hold y.1 y.2 hmem (by simp only [Bool.and_eq_true, decide_eq_true_eq] at htest; exact htest.1.1) hne
  change execLineQueueAdvance la s = _
  unfold execLineQueueAdvance
  simp only [hd, hb, Bool.false_eq_true, if_false, hlru]
  simp [hev, HEv.isMove, HEv.isHamper, State.startReq, hla]

/-- Settles O15: each answer by its own equation; a victim's way by `lsVictimWriteDone_places`, the oldest request by `lruOf_eq_some`. That
a line's fill waits for a way when every way of its set is taken is the model's own choice (log 68). -/
theorem memoryAnswers : Obligations.MemoryAnswers := by
  refine ⟨fun rid la d p s h => ⟨_, exec_deviceReadComplete_undone h d p, rfl, ?_⟩,
    fun rid la k d p x s h hx hm => exec_deviceReadComplete_request h hx hm d p, fun la s h => if_neg (by simp [h]), fun la s h => if_pos h,
    fun la s => rfl, fun la l a s => lsVictimWriteDone_places, fun la k x s => exec_lineQueueAdvance_ncw⟩
  have hkeep := kickReads_keepsLines (s.inHome (fun h => { h with devRds := tdel h.devRds rid })) (s.laBank la)
  exact ⟨hkeep.ents, hkeep.data⟩

end Sys2Proof.Machine
end

section
namespace Sys2Proof.Machine

/-! ### Hamper ports: the bytes of a slot -/

@[simp] theorem portSlot_setPortSlot (s : State) (v k : Nat) (x : PortSlot) : (s.setPortSlot v k x).portSlot v k = x :=
  tget_tput_self _ _ _ _

theorem portSlot_congr {s t : State} (h : t.hmp = s.hmp) (v k : Nat) : t.portSlot v k = s.portSlot v k := by
  rw [State.portSlot, h, State.portSlot]

@[simp] theorem setPortSlot_regs (s : State) (v k : Nat) (x : PortSlot) : (s.setPortSlot v k x).regs = s.regs := (rfl)

@[simp] theorem setPortSlot_tick (s : State) (v k : Nat) (x : PortSlot) : (s.setPortSlot v k x).tick = s.tick := (rfl)

@[simp] theorem setPortSlot_origs (s : State) (v k : Nat) (x : PortSlot) : (s.setPortSlot v k x).hmp.origs = s.hmp.origs := (rfl)

/-- Bytes are put at an offset of a slot, those past the last entry left out (R106). -/
theorem tget_staged (off : Nat) (b : List Byte) (t : Tab Nat) {n : Nat} (h : off + n ≤ 0xA20) (j : Nat) :
    tget 0 ((List.range n).foldl (fun t i => if off + i < 0xA20 then tput 0 t (off + i) (byteAt b i) else t) t) j =
      if off ≤ j ∧ j < off + n then byteAt b (j - off) else tget 0 t j := by
  induction n with
  | zero => rw [if_neg (by omega)]; rfl
  | succ n ih =>
    rw [List.range_succ, List.foldl_append, List.foldl_cons, List.foldl_nil, if_pos (by omega)]
    by_cases hj : j = off + n
    · subst hj
      rw [tget_tput_self, if_pos (by omega), Nat.add_sub_cancel_left]
    · rw [tget_tput_ne _ _ _ _ hj, ih (by omega)]
      refine if_congr ?_ rfl rfl
      omega

/-- A write of entry bytes to a FREE slot stages them (R106). -/
theorem exec_hamperPortEntryWrite_free {v : VcsIx} {k : Fin 64} {off : Fin 4096} {b : List Byte} {s : State}
    (hv : (tfind s.bind.vcs v).isSome = true) (hst : (s.portSlot v k).st = 0) (hoff : 0x20 ≤ off.val) :
    exec (.hamperPortEntryWrite v k off b) s = .next (s.setPortSlot v k { s.portSlot v k with
      staged := (List.range b.length).foldl (fun t i => if off.val + i < 0xA20 then tput 0 t (off.val + i) (byteAt b i) else t)
        (s.portSlot v k).staged }) := by
  change execHamperPortEntryWrite v k off b s = _
  unfold execHamperPortEntryWrite
  have hnone : (tfind s.bind.vcs v).isNone = false := by rw [Option.isNone_eq_false_iff, hv]
  simp [hnone, hst, Nat.not_lt.mpr hoff]

/-- A write of exactly the header submits the record of header and staged entries (R106). -/
theorem exec_hamperPortHeaderWrite_submits {v : VcsIx} {k : Fin 64} {b : List Byte} {x : Vcs} {s : State} (hd : s.clk.draining = false)
    (hv : tfind s.bind.vcs v = some x) (hst : (s.portSlot v k).st = 0) (hb : b.length = 32) :
    exec (.hamperPortHeaderWrite v k 0 b) s =
      .next ((s.setPortSlot v k { s.portSlot v k with st := 1 }).hmpSubmit (.port v k) x.host v false (some x.usp)
        (b ++ (List.range 2560).map (fun j => BitVec.ofNat 8 (tget 0 (s.portSlot v k).staged (32 + j))))) := by
  change execHamperPortHeaderWrite v k 0 b s = _
  unfold execHamperPortHeaderWrite
  simp [hd, hv, hst, hb]

theorem leAt_append {b c : List Byte} {i n : Nat} (h : i + n ≤ b.length) : leAt (b ++ c) i n = leAt b i n := by
  induction n generalizing i with
  | zero => rfl
  | succ n ih =>
    have hbyte : byteAt (b ++ c) i = byteAt b i := by
      simp [byteAt, List.getD_eq_getElem?_getD, List.getElem?_append_left (show i < b.length by omega)]
    rw [leAt, leAt, hbyte, ih (by omega)]

/-- A record that is submitted with hampers switched off is refused (R107, R130). -/
theorem hmpSubmit_off {s : State} (h : s.bit hmpCtl 31 = false) (src : HSrc) (acting v : Nat) (legacy : Bool) (port : Option Nat) (b : List Byte) :
    s.hmpSubmit src acting v legacy port b =
      (s.abortCount 0x44).outcome src (outcomeRec 0x44 false 0 0xFF 0 s.tick.fab (BitVec.ofNat 32 (leAt b 4 4))) := by
  unfold State.hmpSubmit
  simp only [h, Bool.not_false, Bool.true_or, if_true]

theorem abortCount_hmp (s : State) (status : Nat) : (s.abortCount status).hmp = s.hmp := cnt64_hmp s _ _

/-- The outcome of a BUSY slot makes it DONE (R106). -/
theorem outcome_busy {s : State} {v k : Nat} (h : (s.portSlot v k).st = 1) (r : List Byte) :
    s.outcome (.port v k) r = s.setPortSlot v k { s.portSlot v k with st := 2, out := r } := if_pos h

/-- Settles O17: staged bytes by `tget_staged`, the record that is refused by `hmpSubmit_off`, the rest by each command's own equation. -/
theorem hamperPorts : Obligations.HamperPorts := by
  refine ⟨?_, fun v k b x s => exec_hamperPortHeaderWrite_submits, ?_, ?_, ?_⟩
  · intro v k off b s hv hst hlo hhi
    refine ⟨_, exec_hamperPortEntryWrite_free hv hst hlo, by rw [portSlot_setPortSlot]; exact hst, rfl, rfl, fun j => ?_⟩
    rw [portSlot_setPortSlot]
    exact tget_staged _ _ _ hhi j
  · intro v k b x s hd hv hst hb hoff
    have hexec := exec_hamperPortHeaderWrite_submits hd hv hst hb
    generalize hu : s.setPortSlot v k { s.portSlot v k with st := 1 } = u at hexec
    have huOff : u.bit hmpCtl 31 = false := by rw [← hu, bit_congr (setPortSlot_regs ..), hoff]
    have huSlot : ((u.abortCount 0x44).portSlot v k).st = 1 := by
      rw [portSlot_congr (abortCount_hmp u _), ← hu, portSlot_setPortSlot]
    rw [hmpSubmit_off huOff, outcome_busy huSlot, leAt_append (by omega)] at hexec
    refine ⟨_, hexec, by rw [portSlot_setPortSlot], ?_, ?_⟩
    · rw [portSlot_setPortSlot, ← hu, setPortSlot_tick]
    · rw [setPortSlot_origs, abortCount_hmp, ← hu, setPortSlot_origs]
  · intro v k s hst
    refine ⟨s.setPortSlot v k {}, ?_, portSlot_setPortSlot _ _ _ _, rfl⟩
    change execHmpSlotAck v k s = _
    simp only [execHmpSlotAck, hst]
  · intro v k s hst
    change execHmpSlotAck v k s = _
    simp only [execHmpSlotAck, hst]

end Sys2Proof.Machine
end

section
namespace Sys2Proof.Machine

/-! ### What the home's lines and trackers leave of the hampers -/

/-- The state that a pair was taken apart to. -/
theorem hmp_of_fst {α : Type} {x : State × α} {t : State} {a : α} (h : x = (t, a)) : t.hmp = x.1.hmp := by rw [h]

theorem stkWrite_hmp (s : State) (h n : Nat) : (s.stkWrite h n).hmp = s.hmp := by
  unfold State.stkWrite State.pmc
  rw [pmcAdd_frame (proj := State.hmp) (fun t o k => cnt64_hmp t o k), cnt64_hmp]

@[simp] theorem devWr_hmp (s : State) (dev addr : Nat) (d : Line) (poison : Bool) : (s.devWr dev addr d poison).hmp = s.hmp := by
  unfold State.devWr
  split
  · rfl
  · simp [State.coreMiss]

@[simp] theorem devWriteLine_hmp (s : State) (la : Nat) (d : Line) (poison : Bool) : (s.devWriteLine la d poison).hmp = s.hmp := by
  unfold State.devWriteLine
  dsimp only
  (repeat' split) <;> simp

@[simp] theorem fixShared_hmp (s : State) (la : Nat) (dirty : Bool) : (s.fixShared la dirty).hmp = s.hmp := by
  obtain ⟨ents, h⟩ := fixShared_eq s la dirty
  rw [h]
  rfl

@[simp] theorem seeDirty_hmp (s : State) (la : Nat) : (s.seeDirty la).hmp = s.hmp := by
  unfold State.seeDirty
  dsimp only
  split <;> rfl

@[simp] theorem lsPut_hmp (s : State) (la : Nat) (l : LsLine) : (s.lsPut la l).hmp = s.hmp := by
  unfold State.lsPut
  dsimp only
  rw [emit_hmp, stkWrite_hmp, inHome_hmp]
  split
  · rw [fixShared_hmp, seeDirty_hmp]; rfl
  · rfl

@[simp] theorem lsDrop_hmp (s : State) (la : Nat) : (s.lsDrop la).hmp = s.hmp := fixShared_hmp _ _ _

@[simp] theorem victimWrite_hmp (s : State) (v : Nat × LsLine) : (s.victimWrite v).hmp = s.hmp := by
  unfold State.victimWrite
  rw [inHome_hmp, cnt64_hmp, devWriteLine_hmp]

@[simp] theorem findWay_hmp (s : State) (la waits : Nat) : (s.findWay la waits).1.hmp = s.hmp := by
  unfold State.findWay
  (repeat' split) <;> simp

@[simp] theorem delAlloc_hmp (s : State) (la : Nat) : (s.delAlloc la).hmp = s.hmp := (rfl)

@[simp] theorem placeAllocs_hmp (s : State) (la : Nat) : (s.placeAllocs la).hmp = s.hmp := by
  unfold State.placeAllocs
  refine each_frame (fun a t => ?_) _ _
  split
  · simp [hmp_of_fst ‹t.findWay _ _ = _›]
  · dsimp only
    split
    · simp [hmp_of_fst ‹t.findWay _ _ = _›]
    · split <;> simp [hmp_of_fst ‹t.findWay _ _ = _›]
  · simp [hmp_of_fst ‹t.findWay _ _ = _›]

@[simp] theorem setEnt_hmp (s : State) (la : Nat) (e : Option DirEnt) : (s.setEnt la e).hmp = s.hmp := by
  cases e <;> rfl

@[simp] theorem unhold_hmp (s : State) (la : Nat) : (s.unhold la).hmp = s.hmp := by
  unfold State.unhold
  split
  · split
    · exact setEnt_hmp _ _ _
    · rfl
  · rfl

@[simp] theorem unread_hmp (s : State) (p : Nat → Bool) : (s.unread p).hmp = s.hmp := (rfl)

@[simp] theorem delTrk_hmp (s : State) (k : Nat) : (s.delTrk k).hmp = s.hmp := (rfl)

@[simp] theorem cutTrks_hmp (s : State) (p : Trk → Bool) : (s.cutTrks p).hmp = s.hmp := (rfl)

@[simp] theorem acquireEnd_hmp (s : State) (k : Nat) (t : Trk) : (s.acquireEnd k t).hmp = s.hmp := by
  unfold State.acquireEnd
  dsimp only
  rw [unread_hmp, delTrk_hmp]
  split
  · split
    · rfl
    · exact setEnt_hmp _ _ _
  · exact setEnt_hmp _ _ _

@[simp] theorem slotIssue_hmp (s : State) (la : Nat) (trk : Option Nat) (job : RdJob) : (s.slotIssue la trk job).hmp = s.hmp := by
  have hask : ∀ t : State, (t.slotAsk la job).hmp = t.hmp := fun t => by cases job <;> rfl
  unfold State.slotIssue
  dsimp only
  split
  · rw [hask, State.stkRead, State.pmc, pmcAdd_frame (proj := State.hmp) (fun t o k => cnt64_hmp t o k), cnt64_hmp, inHbm_hmp]
  · rfl

@[simp] theorem dirRead_hmp (s : State) (la : Nat) : (s.dirRead la).hmp = s.hmp := by
  unfold State.dirRead
  split
  · exact each_frame (fun k t => slotIssue_hmp t la none (.dir k)) _ _
  · rfl

end Sys2Proof.Machine
end

section
namespace Sys2Proof.Machine

/-! ### Parts and hampers by their keys -/

/-- Among elements of one key each, the one that replaces those of its key is found in their place. -/
theorem find?_replace {α β : Type} [DecidableEq β] {key : α → β} {l : List α} {a : α}
    (h : (l.find? (fun x => decide (key x = key a))).isSome = true) :
    (l.map (fun x => if key x = key a then a else x)).find? (fun x => decide (key x = key a)) = some a := by
  induction l with
  | nil => cases h
  | cons b r ih =>
    by_cases hb : key b = key a
    · simp [hb]
    · simp only [List.find?_cons, hb, decide_false] at h
      simpa [hb] using ih h

theorem find?_replace_ne {α β : Type} [DecidableEq β] {key : α → β} (l : List α) {a : α} {k : β} (h : k ≠ key a) :
    (l.map (fun x => if key x = key a then a else x)).find? (fun x => decide (key x = k)) = l.find? (fun x => decide (key x = k)) := by
  induction l with
  | nil => rfl
  | cons b r ih =>
    by_cases hb : key b = key a
    · simpa [hb, Ne.symm h] using ih
    · simp [hb, List.find?_cons, ih]

theorem eq_of_mem_replace {α β : Type} [DecidableEq β] {key : α → β} {l : List α} {a b : α}
    (hb : b ∈ l.map (fun x => if key x = key a then a else x)) (hk : key b = key a) : b = a := by
  obtain ⟨x, -, hx⟩ := List.mem_map.mp hb
  split at hx
  · exact hx.symm
  · next hne => exact absurd (hx ▸ hk) hne

theorem key_of_part {s : State} {k : HKey} {p : HPart} (h : s.part k = some p) : p.key = k := by
  have hk := List.find?_some h
  exact of_decide_eq_true hk

theorem key_of_orig {s : State} {k : HKey} {o : HOrig} (h : s.orig k = some o) : o.key = k := by
  have hk := List.find?_some h
  exact of_decide_eq_true hk

theorem part_congr {s t : State} (h : t.hmp.parts = s.hmp.parts) (k : HKey) : t.part k = s.part k := by rw [State.part, h, State.part]

theorem orig_congr {s t : State} (h : t.hmp.origs = s.hmp.origs) (k : HKey) : t.orig k = s.orig k := by rw [State.orig, h, State.orig]

/-- A part that is written is what its home holds for the key. -/
theorem part_setPart_self {s : State} {p : HPart} (h : (s.part p.key).isSome = true) : (s.setPart p).part p.key = some p :=
  find?_replace (key := HPart.key) h

theorem part_setPart_ne (s : State) {p : HPart} {k : HKey} (h : k ≠ p.key) : (s.setPart p).part k = s.part k :=
  find?_replace_ne (key := HPart.key) _ h

theorem orig_setOrig_self {s : State} {o : HOrig} (h : (s.orig o.key).isSome = true) : (s.setOrig o).orig o.key = some o :=
  find?_replace (key := HOrig.key) h

/-- The part of a key after it is written. -/
theorem part_setPart {s : State} {k : HKey} {p q : HPart} (h : s.part k = some p) (hq : q.key = k) : (s.setPart q).part k = some q := by
  subst hq
  exact part_setPart_self (by rw [h]; rfl)

theorem orig_setOrig {s : State} {k : HKey} {o q : HOrig} (h : s.orig k = some o) (hq : q.key = k) : (s.setOrig q).orig k = some q := by
  subst hq
  exact orig_setOrig_self (by rw [h]; rfl)

theorem part_isSome_of_mem {s : State} {p : HPart} (h : p ∈ s.hmp.parts) : (s.part p.key).isSome = true :=
  List.find?_isSome.mpr ⟨p, h, decide_eq_true rfl⟩

@[simp] theorem setPart_regs (s : State) (p : HPart) : (s.setPart p).regs = s.regs := (rfl)
@[simp] theorem setPart_ev (s : State) (p : HPart) : (s.setPart p).ev = s.ev := (rfl)

/-! ### Hamper messages -/

@[simp] theorem sendH_hmp (s : State) (dst type : Nat) (p : HPart) (code fail : Nat) : (s.sendH dst type p code fail).hmp = s.hmp := (rfl)
@[simp] theorem sendH_regs (s : State) (dst type : Nat) (p : HPart) (code fail : Nat) : (s.sendH dst type p code fail).regs = s.regs := (rfl)

/-- The message that leaves carries its part's key and the code (R128). -/
theorem mem_sendH_out (s : State) (dst type : Nat) (p : HPart) (code fail : Nat) :
    ∃ m b, Out.hmsg dst type m b ∈ (s.sendH dst type p code fail).out ∧ m.key = p.key ∧ m.code = BitVec.ofNat 8 code :=
  ⟨_, _, mem_emit_out _ _, rfl, rfl⟩

theorem each_sendH_hmp (s : State) (type : Nat) (p : HPart) (code fail : Nat) (l : List Nat) :
    (s.each l (fun h t => t.sendH h type p code fail)).hmp = s.hmp := each_frame (fun h t => sendH_hmp t h type p code fail) _ _

/-! ### Commit-log records -/

theorem logUnit_hmp (s : State) (unit : Nat) : (s.logUnit unit).hmp = s.hmp := by
  unfold State.logUnit
  dsimp only
  split <;> simp only [stkWrite_hmp]

/-- A record that is written is the last of the ring's (R121). -/
theorem logAppend_hmp (s : State) (r : LogRec) : ∃ l, (s.logAppend r).hmp = { s.hmp with log := l } ∧ r ∈ l := by
  refine ⟨(s.hmp.log ++ [r]).drop (s.hmp.log.length + 1 - logRing), ?_, ?_⟩
  · unfold State.logAppend
    dsimp only
    split <;> simp only [emit_hmp, logUnit_hmp, setN_hmp] <;> rfl
  · have hle : s.hmp.log.length + 1 - logRing ≤ s.hmp.log.length := by unfold logRing; omega
    rw [List.drop_append_of_le_length hle]
    exact List.mem_append_right _ (List.mem_singleton.mpr rfl)

end Sys2Proof.Machine
end

section
namespace Sys2Proof.Machine

/-! ### A part that lets its lines go -/

/-- A part that has let its lines go (R114, R117). -/
def HPart.released (p : HPart) : HPart := { p with lines := p.lines.map (fun l => { l with step := 0 }), won := false, mis := none }

theorem partRelease_part {s : State} {p : HPart} (h : (s.part p.key).isSome = true) : (s.partRelease p).part p.key = some p.released := by
  have hrelease : ∃ u : State, u.hmp = s.hmp ∧ s.partRelease p = u.setPart p.released := by
    refine ⟨_, ?_, rfl⟩
    refine (each_frame (fun (x : Nat × Trk) t => acquireEnd_hmp t x.1 x.2) _ _).trans ((cutTrks_hmp _ _).trans ?_)
    refine each_frame (fun l t => ?_) _ _
    dsimp only
    split
    · rw [placeAllocs_hmp, inHome_hmp, unhold_hmp]
    · rw [inHome_hmp, unhold_hmp]
  obtain ⟨u, hu, heq⟩ := hrelease
  rw [heq]
  exact part_setPart_self (p := p.released) (by rw [part_congr (congrArg HmpS.parts hu)]; exact h)

/-- A part that votes something other than PREPARED has let its lines go (R114). -/
theorem partVote_part {s : State} {p : HPart} (h : (s.part p.key).isSome = true) (v fail : Nat) :
    (s.partVote p v fail).part p.key = some { p.released with vote := some v, fail := fail } := by
  have hrel := partRelease_part h
  unfold State.partVote
  simp only [hrel]
  exact part_setPart hrel rfl

/-! ### Votes -/

/-- A part that has no vote yet is judged by its record's acknowledgement (R114, R120). -/
theorem judge_part {s : State} {p : HPart} (h : (s.part p.key).isSome = true) (hv : p.vote = none) :
    ∃ q, (s.judge p).part p.key = some q ∧ q.key = p.key ∧ q.vote = some (if p.prepAck then 0 else 0x4A) := by
  unfold State.judge
  rw [hv, Option.isSome_none, if_neg Bool.false_ne_true]
  split
  · exact ⟨{ p with vote := some 0 }, part_setPart_self (p := { p with vote := some 0 }) h, rfl, rfl⟩
  · exact ⟨_, partVote_part h 0x4A 0xFF, rfl, rfl⟩

theorem sendVote_part {s : State} {p : HPart} (h : (s.part p.key).isSome = true) :
    (s.sendVote p).part p.key = some { p with voteSent := true } :=
  part_setPart_self (p := { p with voteSent := true }) h

@[simp] theorem sendVote_regs (s : State) (p : HPart) : (s.sendVote p).regs = s.regs := (rfl)
@[simp] theorem sendVote_ev (s : State) (p : HPart) : (s.sendVote p).ev = s.ev := (rfl)

/-- A vote goes to its coordinator (R114). -/
theorem mem_sendVote_out {p : HPart} {v : Nat} (s : State) (hv : p.vote = some v) :
    ∃ m b, Out.hmsg p.key.origin 2 m b ∈ (s.sendVote p).out ∧ m.key = p.key ∧ m.code = BitVec.ofNat 8 v := by
  unfold State.sendVote
  rw [hv, Option.getD_some]
  exact mem_sendH_out _ _ _ _ _ _

/-- In its window's turn a part is judged, and its vote is sent (R114). -/
theorem exec_hamperVoteSend_due {key : HKey} {p q : HPart} {s : State} (hp : s.part key = some p) (hs : p.voteSent = false)
    (hkey : key.origin.val ≠ s.moduleFid) (hw : p.window = s.tick.fab) (hg : s.tick.guardDone = false)
    (hq : (s.judge p).part key = some q) : exec (.hamperVoteSend key) s = .next ((s.judge p).sendVote q) := by
  change execHamperVoteSend key s = _
  unfold execHamperVoteSend
  simp [hp, hs, hg, hkey, hw, hq]

/-- A vote of the present attempt is kept with its hamper (R115). -/
theorem exec_hvoteReceive_open {m : HMsg} {o : HOrig} {s : State} (ho : s.orig m.key = some o) (hd : o.dec = none) (ha : m.attempt = o.retries) :
    exec (.hvoteReceive m) s = .next (s.setOrig { o with votes := o.votes ++ [(m.sender.val, m.code.toNat, m.fail.toNat)] }) := by
  change execHvoteReceive m s = _
  unfold execHvoteReceive
  simp [ho, hd, ha]

theorem exec_hvoteReceive_unknown {m : HMsg} {s : State} (ho : s.orig m.key = none) :
    exec (.hvoteReceive m) s = .next (s.cnt hmpLateCnt) := by
  change execHvoteReceive m s = _
  unfold execHvoteReceive
  simp [ho, State.lateMsg]

/-! ### Decisions -/

/-- A hamper without a part here sends its decision, and keeps what the module holds of hampers (R115). -/
theorem announce_hmp {s : State} {o : HOrig} (h : s.part o.key = none) (c : Nat) : (s.announce o c).hmp = s.hmp := by
  unfold State.announce
  dsimp only
  rw [part_congr (congrArg HmpS.parts (each_sendH_hmp ..)), h]
  exact each_sendH_hmp ..

/-- The decision that a hamper takes from the votes that its module holds (R115). -/
def State.decided (s : State) (o : HOrig) : HOrig :=
  { o with dec := some (decideVotes (s.votesOf o) o.retries o.limit).1, fail := (decideVotes (s.votesOf o) o.retries o.limit).2 }

/-- A hamper that is aborted because there is no commit log (R152). -/
def HOrig.unlogged (o : HOrig) : HOrig := { o with dec := some 0x44, decAck := true }

/-- The module has taken its decisions of the tick (R115). -/
def State.deciding (s : State) : State := s.inHmp (fun h => { h with dcdDone := true })

/-- The one hamper that is due, whose part is not here and whose votes have come, is decided (R115), or without a commit log aborts
(R152). -/
theorem decideAll_one {s : State} {o : HOrig} (hp : s.part o.key = none)
    (hdue : s.hmp.origs.filter (fun o => decide (o.window = s.tick.fab) && o.dec.isNone && o.homes.any (fun h => decide (h ≠ s.moduleFid))) = [o])
    (hall : o.homes.all (fun h => decide (h = s.moduleFid) || o.votes.any (fun v => decide (v.1 = h))) = true) :
    s.decideAll =
      if s.bit hmpStatus 30 = false then (s.deciding.setOrig o.unlogged).announce o.unlogged 0x44
      else if (decideVotes (s.votesOf o) o.retries o.limit).1 = 1 then
        ((s.deciding.setOrig (s.decided o)).logAppend (s.deciding.decisionRec o (decideVotes (s.votesOf o) o.retries o.limit).1)).cnt64 hmpRetryCnt
      else (s.deciding.setOrig (s.decided o)).logAppend (s.deciding.decisionRec o (decideVotes (s.votesOf o) o.retries o.limit).1) := by
  have hmissing : o.homes.any (fun h => decide (h ≠ s.moduleFid) && !o.votes.any (fun v => decide (v.1 = h))) = false := by
    rw [List.any_eq_false]
    intro h hh
    have hvoted := List.all_eq_true.mp hall h hh
    by_cases hm : h = s.moduleFid
    · simp [hm]
    · simpa [hm] using hvoted
  have hpart : s.deciding.part o.key = none := hp
  have hbit : s.deciding.bit hmpStatus 30 = s.bit hmpStatus 30 := rfl
  have hvotes : s.deciding.votesOf o = s.votesOf o := rfl
  unfold State.decideAll
  change (s.deciding.each (s.hmp.origs.filter (fun o => decide (o.window = s.tick.fab) && o.dec.isNone &&
    o.homes.any (fun h => decide (h ≠ s.moduleFid)))) _) = _
  rw [hdue, State.each, List.foldl_cons, List.foldl_nil]
  simp only [hpart, hmissing, Bool.false_eq_true, if_false, hbit, hvotes]
  cases s.bit hmpStatus 30
  · rfl
  · rfl

/-- Settles O20: a part is judged by `judge_part` and the one hamper that is due decided by `decideAll_one`. The code of a RETRY decision's
record is the model's own choice (log 261). -/
theorem hamperVotes : Obligations.HamperVotes := by
  refine ⟨?_, ?_, fun m s => exec_hvoteReceive_unknown, ?_⟩
  · intro key p s hp hs hkey hw hv hg
    obtain rfl := key_of_part hp
    have hsome : (s.part p.key).isSome = true := by rw [hp]; rfl
    obtain ⟨q, hq, hqk, hqv⟩ := judge_part hsome hv
    obtain ⟨m, b, hout, hmk, hmc⟩ := mem_sendVote_out (s.judge p) hqv
    have hsent := sendVote_part (s := s.judge p) (p := q) (by rw [hqk, hq]; rfl)
    rw [hqk] at hout hmk hsent
    exact ⟨_, m, _, b, exec_hamperVoteSend_due hp hs hkey hw hg hq, hsent, rfl, hqv, hout, hmk, by rw [hmc]; split <;> rfl⟩
  · intro m o s ho hd ha
    have hkey := key_of_orig ho
    exact ⟨_, exec_hvoteReceive_open ho hd ha, orig_setOrig ho hkey, rfl⟩
  · intro o s hdone hp hdue hall
    have hexec : exec .hamperDecide s = .next s.decideAll := by
      change execHamperDecide s = _
      unfold execHamperDecide
      rw [hdone, if_neg Bool.false_ne_true]
    have hmem : o ∈ s.hmp.origs := (List.mem_filter.mp (hdue ▸ List.mem_singleton.mpr rfl)).1
    have hsome : (s.deciding.orig o.key).isSome = true := List.find?_isSome.mpr ⟨o, hmem, decide_eq_true rfl⟩
    have hone := decideAll_one hp hdue hall
    refine ⟨fun hlog => ⟨_, hexec, ?_⟩, fun hlog => ?_⟩
    · rw [hone, if_pos hlog]
      have hann : ((s.deciding.setOrig o.unlogged).announce o.unlogged 0x44).hmp = (s.deciding.setOrig o.unlogged).hmp :=
        announce_hmp (s := s.deciding.setOrig o.unlogged) (o := o.unlogged) hp _
      exact ⟨(orig_congr (congrArg HmpS.origs hann) _).trans (orig_setOrig_self (o := o.unlogged) hsome), (congrArg HmpS.log hann).trans rfl⟩
    · obtain ⟨l, hl, hr⟩ := logAppend_hmp (s.deciding.setOrig (s.decided o)) (s.deciding.decisionRec o (decideVotes (s.votesOf o) o.retries o.limit).1)
      have hhmp : s.decideAll.hmp = { (s.deciding.setOrig (s.decided o)).hmp with log := l } := by
        rw [hone, if_neg (by simp [hlog]), ← hl]
        split
        · exact cnt64_hmp _ _ _
        · rfl
      refine ⟨_, _, hexec, by rw [hhmp]; rfl, ?_, by rw [hhmp]; exact hr, rfl, rfl, rfl⟩
      rw [orig_congr (s := s.deciding.setOrig (s.decided o)) (by rw [hhmp])]
      exact orig_setOrig_self (o := s.decided o) hsome

end Sys2Proof.Machine
end

section
namespace Sys2Proof.Machine

/-! ### The check of a part that arrives -/

theorem homeReason_congr {s t : State} (hb : t.bind = s.bind) (hc : t.clk = s.clk) (fid sl : Nat) (write : Bool) :
    t.homeReason fid sl write = s.homeReason fid sl write := by
  unfold State.homeReason State.entryBad State.agentOf State.dom State.slice
  rw [hb, hc]

/-- A stack's presence depends on its bits in the capability, retirement and disable maps (R427). -/
theorem present_stack_congr {s t : State} (hcap : t.reg 0x10C = s.reg 0x10C) (hret : t.reg 0x20C = s.reg 0x20C)
    (hdis : t.reg 0x30C = s.reg 0x30C) (h : Nat) : t.present 8 h = s.present 8 h := by
  change (t.bit 0x10C (8 + h) && !t.bit 0x20C (8 + h) && !t.bit 0x30C (8 + h)) = _
  rw [bit_eq_of_reg hcap, bit_eq_of_reg hret, bit_eq_of_reg hdis]
  rfl

theorem partCheck_congr {s t : State} (hb : t.bind = s.bind) (hc : t.clk = s.clk) (hn : t.nalug = s.nalug)
    (hp : ∀ h, t.present 8 h = s.present 8 h) (acting : Nat) (lines : List HLine) : t.partCheck acting lines = s.partCheck acting lines := by
  have hreason : t.homeReason = s.homeReason := by
    funext fid sl write
    exact homeReason_congr hb hc fid sl write
  have hpresent : t.present 8 = s.present 8 := funext hp
  unfold State.partCheck State.revoked State.lsUsable State.slice
  rw [hb, hn, hreason, hpresent]

/-! ### Late messages -/

/-- A late message is counted, and raised at most once in 1,024 ticks (R110). -/
def State.countLate (s : State) : State := s.lateMsg.raiseLim 0x0404 0 []

@[simp] theorem countLate_hmp (s : State) : s.countLate.hmp = s.hmp := raiseLim_hmp _ _ _ _

theorem raise_win (s : State) (code : Nat) (vals : List EvVal) : (s.raise code vals).ev.win = s.ev.win := by
  unfold State.raise
  dsimp only
  split <;> rfl

/-- An event of the present window is not raised again (R432). -/
theorem raiseLim_again {s : State} {code unit : Nat} (h : tget 0 s.ev.win (code * 2 ^ 32 + unit) = s.tick.loc.toNat / 1024 + 1)
    (vals : List EvVal) : s.raiseLim code unit vals = s := if_pos h

theorem raiseLim_first {s : State} {code unit : Nat} (h : tget 0 s.ev.win (code * 2 ^ 32 + unit) ≠ s.tick.loc.toNat / 1024 + 1)
    (vals : List EvVal) : (s.raiseLim code unit vals).ev.seq = s.ev.seq + 1 ∧
      tget 0 (s.raiseLim code unit vals).ev.win (code * 2 ^ 32 + unit) = s.tick.loc.toNat / 1024 + 1 := by
  unfold State.raiseLim
  dsimp only
  rw [if_neg h, raise_seq, raise_win]
  have hwin := tget_tput_self 0 s.ev.win (code * 2 ^ 32 + unit) (s.tick.loc.toNat / 1024 + 1)
  exact ⟨rfl, hwin⟩

theorem countLate_reg (s : State) {o : Nat} (hl : o ≠ hmpLateCnt) (he : o ≠ glbEvFifoOvfCnt) : s.countLate.reg o = s.reg o := by
  unfold State.countLate State.lateMsg
  rw [raiseLim_reg _ _ _ _ he, reg_cnt, if_neg hl]

theorem countLate_lateCnt (s : State) : s.countLate.reg hmpLateCnt = (s.cnt hmpLateCnt).reg hmpLateCnt :=
  raiseLim_reg _ _ _ _ (by decide)

theorem cnt_nreg (s : State) (o : Nat) : (s.cnt o).nreg o = min 0xFFFFFFFF (s.nreg o + 1) := by
  have hmin : min ((s.reg o).toNat + 1) (2 ^ 32 - 1) < 2 ^ 32 := by omega
  rw [State.nreg, reg_cnt, if_pos rfl, BitVec.toNat_ofNat, Nat.mod_eq_of_lt hmin, State.nreg]
  omega

theorem countLate_nreg (s : State) : s.countLate.nreg hmpLateCnt = min 0xFFFFFFFF (s.nreg hmpLateCnt + 1) := by
  rw [State.nreg, countLate_lateCnt, ← State.nreg, cnt_nreg]

theorem partCheck_countLate (s : State) (acting : Nat) (lines : List HLine) : s.countLate.partCheck acting lines = s.partCheck acting lines :=
  partCheck_congr (s := s) (t := s.countLate) (raiseLim_bind _ _ _ _) (raiseLim_clk _ _ _ _) (raiseLim_nalug _ _ _ _)
    (present_stack_congr (countLate_reg s (by decide) (by decide)) (countLate_reg s (by decide) (by decide))
      (countLate_reg s (by decide) (by decide))) acting lines

/-- EV_HMP_LATE_MSG is raised in a window of 1,024 ticks that has not seen it, and not again (R110, R432). -/
theorem countLate_again {s : State} (h : tget 0 s.ev.win (0x0404 * 2 ^ 32) = s.tick.loc.toNat / 1024 + 1) : s.countLate.ev = s.ev := by
  have hagain := raiseLim_again (s := s.lateMsg) (code := 0x0404) (unit := 0) (by rw [State.lateMsg, cnt_ev, cnt_tick]; exact h) []
  rw [State.countLate, hagain, State.lateMsg, cnt_ev]

theorem countLate_first {s : State} (h : tget 0 s.ev.win (0x0404 * 2 ^ 32) ≠ s.tick.loc.toNat / 1024 + 1) :
    s.countLate.ev.seq = s.ev.seq + 1 ∧ tget 0 s.countLate.ev.win (0x0404 * 2 ^ 32) = s.tick.loc.toNat / 1024 + 1 := by
  have hfirst := raiseLim_first (s := s.lateMsg) (code := 0x0404) (unit := 0) (by rw [State.lateMsg, cnt_ev, cnt_tick]; exact h) []
  rw [State.lateMsg, cnt_ev, cnt_tick] at hfirst
  exact hfirst

/-! ### A part arrives -/

/-- The part that a message brings, in the window of its attempt (R109). -/
def bringsPart (m : HMsg) : HPart :=
  { key := m.key, acting := m.acting, lines := m.lines.map (fun l => { l := l }), parts := m.parts.map (·.val), boot := m.boot, limit := m.limit,
    attempt := m.attempt, window := m.key.stamp + 1 + BitVec.ofNat 48 m.attempt }

/-- ARB_CYCLE of a window has passed (R110). -/
def State.pastArb (s : State) (w : Tick) : Bool := tickEarlier w s.tick.fab || (decide (w = s.tick.fab) && s.hmp.arbDone)

theorem pastArb_iff {s : State} {w : Tick} :
    s.pastArb w = true ↔ tickEarlier w s.tick.fab = true ∨ w = s.tick.fab ∧ s.hmp.arbDone = true := by
  simp [State.pastArb]

/-- A part is kept at its home. -/
def State.keepPart (s : State) (p : HPart) : State := s.inHmp (fun h => { h with parts := h.parts ++ [p] })

@[simp] theorem keepPart_regs (s : State) (p : HPart) : (s.keepPart p).regs = s.regs := (rfl)
@[simp] theorem keepPart_ev (s : State) (p : HPart) : (s.keepPart p).ev = s.ev := (rfl)

theorem bringsPart_lines (m : HMsg) : (bringsPart m).lines.map (·.l) = m.lines := by
  simp [bringsPart, Function.comp_def]

/-- A part whose lines pass the home's check is kept without a vote. -/
theorem addPart_checked {s : State} {m : HMsg} (h : s.partCheck m.acting m.lines = none) : s.addPart (bringsPart m) = s.keepPart (bringsPart m) := by
  unfold State.addPart
  rw [bringsPart_lines, show (bringsPart m).acting = m.acting from rfl, h]
  rfl

theorem part_keepPart {s : State} {p : HPart} (h : s.part p.key = none) : (s.keepPart p).part p.key = some p := by
  have happ : (s.hmp.parts ++ [p]).find? (fun x => decide (x.key = p.key)) = some p := by
    rw [List.find?_append, show s.hmp.parts.find? (fun x => decide (x.key = p.key)) = none from h]
    simp
  exact happ

theorem exec_hpartReceive_held {m : HMsg} {s : State} (hp : (s.part m.key).isSome = true) :
    exec (.hpartReceive m) s = .next (s.cnt hmpLateCnt) := if_pos hp

/-- A part that finds no slot is refused, counted when it is late (R110, R114). -/
theorem exec_hpartReceive_noSlot {m : HMsg} {s : State} (hp : s.part m.key = none) (hs : s.slotFree = 0) :
    exec (.hpartReceive m) s =
      .next ((if s.pastArb (bringsPart m).window then s.countLate else s).sendH m.key.origin 2 (bringsPart m) 0x43 0xFF) := by
  change execHpartReceive m s = _
  unfold execHpartReceive
  dsimp only
  rw [hp, Option.isSome_none, if_neg Bool.false_ne_true, if_pos hs]
  rfl

/-- The part of a late message votes RETRY (R110). -/
def latePart (m : HMsg) : HPart := { bringsPart m with vote := some 1 }

/-- A part that passes its home's check is kept until its window; a late one votes RETRY at once (R109, R110). -/
theorem exec_hpartReceive_checked {m : HMsg} {s : State} (hp : s.part m.key = none) (hs : s.slotFree ≠ 0)
    (hc : s.partCheck m.acting m.lines = none) (hl : s.locked = true) (hb : s.bit glbTickStatus 30 = false) :
    exec (.hpartReceive m) s = .next (if s.pastArb (bringsPart m).window
      then ((s.countLate.keepPart (bringsPart m)).setPart (latePart m)).sendVote (latePart m) else s.keepPart (bringsPart m)) := by
  change execHpartReceive m s = _
  unfold execHpartReceive
  extract_lets p late s0 notLocked s1
  rw [hp, Option.isSome_none, if_neg Bool.false_ne_true, if_neg hs]
  have hlate : s.pastArb (bringsPart m).window = late := rfl
  have hs0 : s0 = if late then s.countLate else s := rfl
  have hs1 : s1 = s0.addPart (bringsPart m) := rfl
  have hlocked : notLocked = false := by simp [notLocked, hl, hb]
  clear_value late s0 s1 notLocked
  have hcheck : s0.partCheck m.acting m.lines = none := by
    rw [hs0]
    split
    · rw [partCheck_countLate, hc]
    · exact hc
  have hnone : s0.part m.key = none := by
    rw [hs0]
    split
    · rw [part_congr (congrArg HmpS.parts (countLate_hmp s)), hp]
    · exact hp
  rw [addPart_checked hcheck] at hs1
  have hpart : s1.part m.key = some (bringsPart m) := by rw [hs1]; exact part_keepPart (p := bringsPart m) hnone
  have hvote : (bringsPart m).vote = none := rfl
  rw [hlate, hpart]
  cases late
  · simp [hvote, hlocked, hs1, hs0]
  · simp [hvote, hlocked, hs1, hs0, latePart]

/-- A part that arrives late has voted RETRY and contends no more (R110, R111). -/
theorem contenders_late {s : State} {m : HMsg} {q : HPart}
    (hq : q ∈ (((s.keepPart (bringsPart m)).setPart (latePart m)).sendVote (latePart m)).contenders) : q.key ≠ m.key := by
  intro hk
  obtain ⟨hmem, htest⟩ := List.mem_filter.mp hq
  have heq : q = { latePart m with voteSent := true } := eq_of_mem_replace (key := HPart.key) hmem hk
  simp [heq, latePart] at htest

/-- Settles O19: a late part that has a slot by `exec_hpartReceive_checked`, one that has none by `exec_hpartReceive_noSlot` (code 0x43,
ST_HMP_NO_SLOT, R114); EV_HMP_LATE_MSG by `countLate_again` and `countLate_first`. -/
theorem lateParts : Obligations.LateParts := by
  refine ⟨?_, ?_⟩
  · intro m s w hp hs hc hl hb hw
    have hlate : s.pastArb (bringsPart m).window = true := pastArb_iff.mpr hw
    have hexec := exec_hpartReceive_checked hp hs hc hl hb
    rw [if_pos hlate] at hexec
    have hnone : s.countLate.part m.key = none := (part_congr (congrArg HmpS.parts (countLate_hmp s)) _).trans hp
    have hkept : (s.countLate.keepPart (bringsPart m)).part m.key = some (bringsPart m) := part_keepPart (p := bringsPart m) hnone
    have hset : ((s.countLate.keepPart (bringsPart m)).setPart (latePart m)).part m.key = some (latePart m) := part_setPart hkept rfl
    have hsent := sendVote_part (s := (s.countLate.keepPart (bringsPart m)).setPart (latePart m)) (p := latePart m)
      (Option.isSome_of_eq_some hset)
    obtain ⟨x, b, hout, hkey, hcode⟩ := mem_sendVote_out (p := latePart m) ((s.countLate.keepPart (bringsPart m)).setPart (latePart m)) rfl
    have hev : ((((s.countLate.keepPart (bringsPart m)).setPart (latePart m)).sendVote (latePart m))).ev = s.countLate.ev := by
      rw [sendVote_ev, setPart_ev, keepPart_ev]
    have hregs : ((((s.countLate.keepPart (bringsPart m)).setPart (latePart m)).sendVote (latePart m))).regs = s.countLate.regs := by
      rw [sendVote_regs, setPart_regs, keepPart_regs]
    refine ⟨_, _, x, b, hexec, hsent, rfl, rfl, rfl, fun q => contenders_late, hout, hkey, hcode, ?_, fun hwin => ?_, fun hwin => ?_⟩
    · rw [nreg_congr hregs, countLate_nreg]
    · rw [hev, countLate_again hwin]
    · rw [hev]
      exact countLate_first hwin
  · intro m s w hp hs hw
    have hlate : s.pastArb (bringsPart m).window = true := pastArb_iff.mpr hw
    have hexec := exec_hpartReceive_noSlot hp hs
    rw [if_pos hlate] at hexec
    obtain ⟨x, b, hout, hkey, hcode⟩ := mem_sendH_out s.countLate m.key.origin 2 (bringsPart m) 0x43 0xFF
    refine ⟨_, x, b, hexec, ?_, hout, hkey, hcode, ?_⟩
    · rw [sendH_hmp, countLate_hmp]
    · rw [nreg_congr (sendH_regs ..), countLate_nreg]

end Sys2Proof.Machine
end

section
namespace Sys2Proof.Machine

/-! ### Arbitration of two parts -/

/-- Of two parts that want a line, the one that comes first in R111's order wins every line it wants, the other votes RETRY. -/
theorem exec_hamperArbitration_pair {p q : HPart} {l m : PLine} {s : State} (ha : s.hmp.arbDone = false) (hg : s.tick.guardDone = false)
    (hc : s.contenders = [p, q]) (hne : p.key ≠ q.key) (hl : l ∈ p.lines) (hm : m ∈ q.lines) (hla : m.la = l.la)
    (hpq : prior p.key q.key = true) (hqp : prior q.key p.key = false) :
    exec .hamperArbitration s =
      .next (((s.inHmp (fun h => { h with arbDone := true })).setPart { p with won := true }).setPart { q with vote := some 1 }) := by
  change execHamperArbitration s = _
  unfold execHamperArbitration
  extract_lets cs wins winAt cutAt s1
  have hcs : cs = [p, q] := hc
  have hcut : ∀ x, (List.range 16).filter (cutAt x) = [] := by
    intro x
    rw [List.filter_eq_nil_iff]
    intro h _
    have hfew : (cs.filter (fun y => winAt y h && decide (y.key ≠ x.key) && prior y.key x.key)).length ≤ 2 :=
      (List.length_filter_le _ _).trans (by rw [hcs]; rfl)
    have hless : ¬ 64 ≤ (cs.filter (fun y => winAt y h && decide (y.key ≠ x.key) && prior y.key x.key)).length := by omega
    simp only [cutAt, decide_eq_false hless, Bool.and_false, Bool.false_eq_true, not_false_iff]
  have hwins : p.lines.all (fun y => wins p y.la) = true := by
    simp [wins, hcs, hpq]
  have hloses : q.lines.all (fun y => wins q y.la) = false := by
    have hlost : wins q m.la = false := by
      have hwants : p.lines.any (fun y => decide (y.la = m.la)) = true := List.any_eq_true.mpr ⟨l, hl, decide_eq_true hla.symm⟩
      simp [wins, hcs, hwants, hne, hqp]
    exact List.all_eq_false.mpr ⟨m, hm, by simp [hlost]⟩
  rw [ha, hg, Bool.or_false, if_neg Bool.false_ne_true, hcs, State.each, List.foldl_cons, List.foldl_cons, List.foldl_nil]
  simp only [hcut, hwins, hloses, List.isEmpty_nil, Bool.not_true, Bool.not_false, Bool.false_eq_true, if_false, if_true]
  rfl

/-! ### Snoops that leave -/

theorem mem_each_emit_out {α : Type} (f : α → Out) {l : List α} {a : α} (ha : a ∈ l) (s : State) :
    f a ∈ (s.each l (fun a t => t.emit (f a))).out := by
  induction l generalizing s with
  | nil => cases ha
  | cons b r ih =>
    rcases List.mem_cons.mp ha with rfl | hr
    · exact (KeepsHome.each (fun a t => (emit_answers t (f a)).toKeepsHome) r _).out (mem_emit_out s (f a))
    · exact ih hr _

/-- A tracker whose snoops have left (R75, R93). -/
def Trk.snooping (t : Trk) (kind : Nat) (fids : List Nat) (due : Tick) : Trk :=
  { t with snps := t.snps ++ fids.map (fun f => { fid := f, kind := kind, due := due }), phase := 2, todo := none }

/-- Snoops that the bank's station has room for leave at once (R75, R149). -/
theorem sendSnoops_room {s : State} {t : Trk} {fids : List Nat} (h : s.copiesWaiting (s.laBank t.la) + fids.length ≤ 4096) (k kind : Nat) :
    ∃ due, (s.sendSnoops k t kind fids).home = { s.home with trks := tins s.home.trks k (t.snooping kind fids due) } ∧
      ∀ f ∈ fids, Out.snoop f kind t.la ∈ (s.sendSnoops k t kind fids).out := by
  unfold State.sendSnoops
  dsimp only
  rw [if_neg (Nat.not_lt.mpr h)]
  have hflag : KeepsHome s (if fids.isEmpty then s else s.latFlag t.fid t.la 32) := .ite (.refl s) ⟨rfl, rfl, List.Subset.refl _⟩
  generalize (if fids.isEmpty then s else s.latFlag t.fid t.la 32) = u at hflag
  have hsent : KeepsHome u (u.each fids (fun f x => x.emit (.snoop f kind t.la))) :=
    .each (fun f x => (emit_answers x _).toKeepsHome) _ _
  have hmem : ∀ f ∈ fids, Out.snoop f kind t.la ∈ (u.each fids (fun f x => x.emit (.snoop f kind t.la))).out :=
    fun f hf => mem_each_emit_out (fun f => .snoop f kind t.la) hf u
  generalize (u.each fids (fun f x => x.emit (.snoop f kind t.la))) = v at hsent hmem
  have hcount : KeepsHome v (if fids.isEmpty then v else (v.cnt64 (sfBankBisnpCnt (s.laBank t.la)) fids.length).pmc 0x02 (s.laBank t.la)
      fids.length { fid := some t.fid, slice := some (laSlice t.la) }) := .ite (.refl v) ((cnt64_keepsHome v _ _).trans (pmc_keepsHome _ _ _ _ _))
  refine ⟨s.tick.loc + BitVec.ofNat 48 (s.snoopTicks + 1), ?_, fun f hf => hcount.out (hmem f hf)⟩
  rw [← (hflag.trans (hsent.trans hcount)).home]
  rfl

/-! ### The start of an acquire -/

/-- A line of a part is being acquired. -/
def HPart.acquiring (p : HPart) (i : Nat) : HPart :=
  { p with lines := p.lines.map (fun x => if x.l.index.val = i then { x with step := 1 } else x) }

/-- The acquire of a WRITE line whose entry is on die holds the line and snoops every agent that the entry may name (R112). -/
theorem hmpStart_snoops {s : State} {t : Trk} {key : HKey} {i : Nat} {p : HPart} {e : DirEnt} (hev : t.ev = .hamper key i)
    (hp : s.part key = some p) (he : s.ent t.la = some e) (hon : e.onDie = true) (h2 : t.type2 = false) (hh : s.holders e ≠ [])
    (hup : s.sfUp t.la = true) (hdir : s.dirBusy t.la = false) (k : Nat) :
    s.hmpStart k t = ((s.setEnt t.la (some { e with hold := true, onDie := true })).setPart (p.acquiring i)).sendSnoops k
      { t with ent := some e } 2 (s.holders e) := by
  have hsome : (s.holders e).isEmpty = false := List.isEmpty_eq_false_iff.mpr hh
  unfold State.hmpStart
  simp [hev, hp, he, hon, h2, hup, hdir, hsome, HPart.acquiring]

/-- The acquire of a line without an entry on die reads the line's directory set first (R83, R112, R143). -/
theorem hmpStart_reads {s : State} {t : Trk} {key : HKey} {i : Nat} {p : HPart} (hev : t.ev = .hamper key i) (hp : s.part key = some p)
    (he : ∀ e, s.ent t.la = some e → e.onDie = false) (hup : s.sfUp t.la = true) (hset : (s.dieSet t.la).length < 16)
    (hav : s.dirAvail = true) (hd : t.dir = false) (k : Nat) : s.hmpStart k t = (s.dirRead t.la).setTrk k { t with dir := true } := by
  have hroom : ∀ f, ¬ 16 ≤ ((s.dieSet t.la).filter f).length := fun f =>
    Nat.not_le.mpr (lt_of_le_of_lt (List.length_filter_le _ _) hset)
  unfold State.hmpStart
  cases hent : s.ent t.la with
  | none => simp [hev, hp, hent, hup, hroom, hav, hd]
  | some e => simp [hev, hp, hent, hup, hroom, hav, hd, he e hent]

/-- A part may acquire a line: it has won, the line's turn in its bank has come, and no acquire of it waits (R112). -/
structure State.acquires (s : State) (key : HKey) (i : Fin 32) (p : HPart) (l : PLine) : Prop where
  part   : s.part key = some p
  line   : p.lines.find? (fun l => decide (l.l.index = i)) = some l
  won    : p.won = true
  vote   : p.vote = none
  step   : l.step = 0
  turn   : ∀ x, x ∈ p.lines → x.la < l.la → s.laBank x.la = s.laBank l.la → x.step = 2
  guard  : s.tick.guardDone = false
  queued : s.home.trks.any (fun x => decide (x.2.ev = .hamper key i)) = false

/-- The tracker of an acquire; `type2` says that the line is a COMPARE line. -/
def acquireTrk (key : HKey) (i : Fin 32) (p : HPart) (l : PLine) (n : Nat) : Trk :=
  { la := l.la, ev := .hamper key i, fid := p.acting, type2 := l.l.compare, ord := n }

/-- An acquire takes a free tracker, in its line's order (R78). -/
def State.openAcquire (s : State) (key : HKey) (i : Fin 32) (p : HPart) (l : PLine) : State :=
  s.stamp.2.setTrk s.stamp.2.freeTrk (acquireTrk key i p l s.stamp.1)

/-- An acquire takes a tracker; it starts when its line has none, and else waits in the line's queue (R78, R112). -/
theorem exec_hamperLineAcquire {key : HKey} {i : Fin 32} {p : HPart} {l : PLine} {s : State} (h : s.acquires key i p l) :
    exec (.hamperLineAcquire key i) s = .next (if s.lineBusy l.la || s.home.trks.any (fun x => decide (x.2.la = l.la))
      then (s.openAcquire key i p l).cnt64 (sfBankConflictCnt (s.laBank l.la))
      else (s.openAcquire key i p l).hmpStart s.stamp.2.freeTrk (acquireTrk key i p l s.stamp.1)) := by
  have hturn : p.lines.any (fun x => decide (x.la < l.la) && decide (s.laBank x.la = s.laBank l.la) && decide (x.step ≠ 2)) = false := by
    rw [List.any_eq_false]
    intro x hx
    simpa using fun hla hbank => h.turn x hx hla hbank
  change execHamperLineAcquire key i s = _
  unfold execHamperLineAcquire
  simp only [h.part, h.line, h.won, h.vote, h.step, hturn, h.guard, h.queued]
  rw [if_neg (by decide)]
  split <;> rfl

theorem any_eq_false_of_or {α : Type} {l : List α} {f g : α → Bool} (h : l.any (fun x => f x || g x) = false) :
    l.any f = false ∧ l.any g = false := by
  simpa only [List.any_eq_false, Bool.or_eq_true, not_or, forall_and] using h

theorem dirRead_keepsHome (s : State) (la : Nat) : KeepsHome s (s.dirRead la) := by
  unfold State.dirRead
  exact .ite (.each (fun k t => slotIssue_keepsHome t la none (.dir k)) _ _) (.refl s)

/-- Settles O18: a part that arrives by `exec_hpartReceive_checked` and `exec_hpartReceive_noSlot` (code 0x43, ST_HMP_NO_SLOT), two parts that want
a line by `exec_hamperArbitration_pair`, an acquire by `exec_hamperLineAcquire`, `hmpStart_snoops` and `hmpStart_reads`. That a second copy
of a part is discarded and counted is the model's own choice (log 249). -/
theorem hamperParts : Obligations.HamperParts := by
  refine ⟨fun m s => exec_hpartReceive_held, ?_, ?_, ?_, ?_, ?_, ?_⟩
  · intro m s hp hs hc hl hb _ hw hne
    have hexec := exec_hpartReceive_checked hp hs hc hl hb
    have htime : ¬ s.pastArb (bringsPart m).window = true := fun hlate => by
      rcases pastArb_iff.mp hlate with h | h
      · exact absurd h (by rw [Bool.not_eq_true]; exact hw)
      · exact hne h.1
    rw [if_neg htime] at hexec
    exact ⟨_, bringsPart m, hexec, rfl, rfl, rfl, rfl, bringsPart_lines m, rfl, rfl⟩
  · intro m s hp hs
    obtain ⟨x, b, hout, hkey, hcode⟩ :=
      mem_sendH_out (if s.pastArb (bringsPart m).window then s.countLate else s) m.key.origin 2 (bringsPart m) 0x43 0xFF
    refine ⟨_, x, b, exec_hpartReceive_noSlot hp hs, ?_, hout, hcode, hkey, fun hw ha => ?_⟩
    · rw [sendH_hmp]
      split
      · exact countLate_hmp s
      · rfl
    · have hlate : s.pastArb (bringsPart m).window = true := pastArb_iff.mpr (.inr ⟨hw, ha⟩)
      rw [reg_congr (sendH_regs ..), if_pos hlate, countLate_lateCnt]
  · intro p q l m s ha hg hc hne hl hm hla hpq hqp
    have hmem : ∀ r ∈ [p, q], r ∈ s.hmp.parts := fun r hr => (List.mem_filter.mp (show r ∈ s.contenders from hc ▸ hr)).1
    have hp := part_isSome_of_mem (hmem p (by simp))
    have hq := part_isSome_of_mem (hmem q (by simp))
    refine ⟨_, exec_hamperArbitration_pair ha hg hc hne hl hm hla hpq hqp, ?_, ?_, rfl⟩
    · rw [part_setPart_ne _ (p := { q with vote := some 1 }) hne]
      exact part_setPart_self (p := { p with won := true }) hp
    · refine part_setPart_self (p := { q with vote := some 1 }) ?_
      rw [part_setPart_ne _ (p := { p with won := true }) hne.symm]
      exact hq
  · intro key i p l e s hp hfind hwon hvote hstep hturn hbusy hany hdir hent hcmp hh hg hup hon hroom
    obtain ⟨hla, hqueued⟩ := any_eq_false_of_or hany
    have hexec := exec_hamperLineAcquire ⟨hp, hfind, hwon, hvote, hstep, hturn, hg, hqueued⟩
    rw [hbusy, hla, Bool.or_false, if_neg Bool.false_ne_true] at hexec
    rw [hmpStart_snoops (s := s.openAcquire key i p l) (t := acquireTrk key i p l s.stamp.1) rfl hp hent hon hcmp hh hup hdir] at hexec
    obtain ⟨due, hhome, hout⟩ := sendSnoops_room
      (s := ((s.openAcquire key i p l).setEnt l.la (some { e with hold := true, onDie := true })).setPart (p.acquiring i))
      (t := { acquireTrk key i p l s.stamp.1 with ent := some e }) (fids := s.holders e) hroom s.stamp.2.freeTrk 2
    refine ⟨_, s.stamp.2.freeTrk, _, { e with hold := true, onDie := true }, hexec, (congrArg (fun h : HomeS => tfind h.trks s.stamp.2.freeTrk) hhome).trans (tfind_tins_self _ _ _),
      rfl, rfl, ?_, hout, (congrArg (fun h : HomeS => tfind h.ents l.la) hhome).trans (tfind_tins_self _ _ _), rfl⟩
    simp [Trk.snooping, acquireTrk, Function.comp_def]
  · intro key i p l s hp hfind hwon hvote hstep hturn hbusy hany hent hg hup hset hav
    obtain ⟨hla, hqueued⟩ := any_eq_false_of_or hany
    have hexec := exec_hamperLineAcquire ⟨hp, hfind, hwon, hvote, hstep, hturn, hg, hqueued⟩
    rw [hbusy, hla, Bool.or_false, if_neg Bool.false_ne_true,
      hmpStart_reads (s := s.openAcquire key i p l) (t := acquireTrk key i p l s.stamp.1) rfl hp hent hup hset hav rfl] at hexec
    refine ⟨_, s.stamp.2.freeTrk, _, hexec, tfind_tins_self _ _ _, rfl, rfl, rfl, rfl, ?_, ?_⟩
    · exact ent_congr (dirRead_keepsHome (s.openAcquire key i p l) l.la).home l.la
    · exact dirRead_hmp (s.openAcquire key i p l) l.la
  · intro key i p l s hp hfind hwon hvote hstep hturn hg hqueued hbusy
    have hexec := exec_hamperLineAcquire ⟨hp, hfind, hwon, hvote, hstep, hturn, hg, hqueued⟩
    rw [if_pos (by simpa using hbusy)] at hexec
    refine ⟨_, s.stamp.2.freeTrk, acquireTrk key i p l s.stamp.1, hexec, ?_, rfl, rfl, rfl, ?_, cnt64_hmp _ _ _⟩
    · rw [cnt64_home]
      exact tfind_tins_self _ _ _
    · rw [ent_congr (cnt64_home _ _ _)]
      rfl

end Sys2Proof.Machine
end

section
namespace Sys2Proof.Machine

/-! ### A query that the commit log answers -/

/-- The key of a hamper of module 9, and the SEAL record of its COMMIT at this module, number 0. -/
def sealedKey : HKey := ⟨100, 9, 1⟩
def sealRecord : LogRec := { type := 3, code := 0, lines := 1, attempt := 0, key := sealedKey, boot := 0, parts := [9, 0], edge := 102, banks := 1 }

/-- The part is gone from its home, and the record is the one of the commit log. -/
def sealedState : State := { State.reset with regs := [(hmpLogHead, 1#32)], hmp := { log := [sealRecord] } }

/-- Module 9's query of the hamper. -/
def sealedQuery : HMsg := ⟨sealedKey, 0, 0, 0xFF, 9, 0, 0, 0, [], 0, []⟩

/-- The query's answer waits for the record: its arrival sends the read of the record, and no message. -/
theorem hqueryReceive_reads :
    (match exec (.hqueryReceive sealedQuery) sealedState with | .next t => t.out | _ => []) = [.logRead 0 0] := by
  decide +kernel

/-- Refutes O21: a query of a hamper that its home no longer holds, but of which the commit log has the SEAL record, is not answered at
once (R123, R147): its arrival issues the read of the record, and the HANSWER leaves when the record comes. -/
theorem not_hamperResolution : ¬ Obligations.HamperResolution := by
  rintro ⟨-, -, -, -, hquery, -⟩
  obtain ⟨t, x, b, ht, hout, -⟩ := hquery sealedQuery sealedState
  have h := hqueryReceive_reads
  rw [ht] at h
  simp [hout, sealedState, State.reset] at h

end Sys2Proof.Machine
end

section
namespace Sys2Proof.Machine

/-! ### A non-posted request behind a posted one at its egress port (R265) -/

/-- The bits of a credit byte that names one class. -/
theorem getLsbD_ofNat_two_pow : ∀ c k : ClassIx, (BitVec.ofNat 8 (2 ^ c.val)).getLsbD k.val = decide (k = c) := by
  decide

/-- A CXL port's turn with credit for one class only leaves the state as it is while that class's head must wait for a posted request. -/
theorem exec_egressDrrTurn_behindPosted {p : PortIx} {c : ClassIx} {m : TMsg} {s : State} (hmode : s.pmode p ≠ 3)
    (hhead : (s.queue (1536 + p.val * 8 + c.val)).head? = some m) (hahead : s.postedAhead (1536 + p.val * 8 + 4) m = true) :
    exec (.egressDrrTurn p (BitVec.ofNat 8 (2 ^ c.val))) s = .next s := by
  show execEgressDrrTurn p (BitVec.ofNat 8 (2 ^ c.val)) s = .next s
  unfold execEgressDrrTurn
  dsimp only
  rw [List.find?_eq_none.mpr]
  intro k hmem hready
  obtain ⟨n, -, rfl⟩ := List.mem_map.mp hmem
  obtain ⟨k, hk⟩ : ∃ k : ClassIx, (tget 0 s.qos.drrAt p + n) % 8 = k.val := ⟨⟨_, Nat.mod_lt _ (by decide)⟩, rfl⟩
  rw [hk] at hready
  by_cases hkc : k = c
  · subst hkc
    simp [hhead, hmode, hahead] at hready
  · have hcredit : (BitVec.ofNat 8 (2 ^ c.val)).getLsbD k.val = false := by
      rw [getLsbD_ofNat_two_pow, decide_eq_false hkc]
    cases hq : (s.queue (1536 + p.val * 8 + k.val)).head? with
    | none => simp [hq] at hready
    | some x => simp only [hq, hmode, hcredit, if_false, Bool.false_and, Bool.false_eq_true] at hready

/-- Two CXL.io requests of requester 7 toward completer 9: the posted one was accepted first. -/
def postedMsg : TMsg :=
  { m := { id := 1, type := .ioPosted, cls := 4, src := 7, ld := 0, dst := .fid 9, bytes := 64, expect := false, yellow := false, hop := 0, unit := 0 },
    inp := 16, src := 7, dst := 9, egress := 0, cells := 1, stamp := 0, ord := 0 }
def nonPostedMsg : TMsg :=
  { m := { id := 2, type := .ioNonPosted, cls := 5, src := 7, ld := 0, dst := .fid 9, bytes := 64, expect := true, yellow := false, hop := 0, unit := 0 },
    inp := 16, src := 7, dst := 9, egress := 0, cells := 1, stamp := 0, ord := 1 }

/-- Both wait in their egress queues of port 0, whose CXL link is up; the turn is at class 5. -/
def postedAheadState : State :=
  { State.reset with
    regs := [(ptMode 0, 0x40000000#32), (ptCxStatus 0, 0x40160000#32)]
    hbm := { queues := [(1536 + 4, [postedMsg]), (1536 + 5, [nonPostedMsg])] }
    qos := { drrAt := [(0, 5)] } }

/-- Refutes O24: its egress clause gives the turn to a queue that has credit and enough deficit, but a non-posted CXL.io request never
passes a posted one of its requester and completer (R265). In `postedAheadState` port 0 has credit for class 5 and the head's charge is
within its quantum, and yet the request stays in its queue, since the posted request accepted before it is still in the queue of class 4. -/
theorem not_tileTransport : ¬ Obligations.TileTransport := by
  rintro ⟨-, -, -, hegress, -⟩
  have hmode : postedAheadState.pmode (0 : PortIx) ≠ 3 := by decide +kernel
  have hqueue : postedAheadState.queue (1536 + (0 : PortIx).val * 8 + (5 : ClassIx).val) = [nonPostedMsg] := by decide +kernel
  obtain ⟨t, hexec, hempty, -⟩ := hegress 0 5 nonPostedMsg postedAheadState hmode (by decide +kernel) (by decide +kernel) hqueue (by decide +kernel)
  rw [exec_egressDrrTurn_behindPosted hmode (by rw [hqueue]; rfl) (by decide +kernel)] at hexec
  cases hexec
  rw [hqueue] at hempty
  cases hempty

end Sys2Proof.Machine
end

section
namespace Sys2Proof.Machine

/-! ### The shaper's colours (R160) and its wheel (R163) -/

/-- A charge beyond what the peak bucket holds is red. -/
theorem shaperTest_red {f : Flow} {c : Nat} (now : Nat) (h : f.pbs < f.dp + c) : shaperTest false now f c = (2, f) := by
  unfold shaperTest
  rw [if_neg (by decide), if_pos h]

/-- A charge that the peak bucket alone has room for is yellow. -/
theorem shaperTest_yellow {f : Flow} {c : Nat} (now : Nat) (hp : f.dp + c ≤ f.pbs) (hc : f.cbs < f.dc + c) :
    shaperTest false now f c = (1, { f with dp := f.dp + c }) := by
  unfold shaperTest
  rw [if_neg (by decide), if_neg (by omega), if_neg (by omega)]

theorem shaperTest_wheel_stopped {f : Flow} (now c : Nat) (h : f.pir = 0) : shaperTest true now f c = (2, f) := by
  unfold shaperTest
  rw [if_pos rfl, if_pos h]

/-- A message that is early by at most τ conforms, and NEXT moves on by its charge over PIR. -/
theorem shaperTest_wheel_conforms {f : Flow} {now : Nat} (c : Nat) (h : f.pir ≠ 0) (hn : f.next ≤ now + f.tau) :
    shaperTest true now f c = (0, { f with next := max f.next now + c * 65536 / f.pir }) := by
  unfold shaperTest
  rw [if_pos rfl, if_neg h, if_pos hn]

theorem shaperTest_wheel_early {f : Flow} {now : Nat} (c : Nat) (hn : now + f.tau < f.next) : shaperTest true now f c = (2, f) := by
  by_cases h : f.pir = 0
  · exact shaperTest_wheel_stopped now c h
  · unfold shaperTest
    rw [if_pos rfl, if_neg h, if_neg (Nat.not_le.mpr hn)]

/-- Settles O23, by the colours of R160 (`shaperTest_red`, `shaperTest_yellow`, `shaperTest_green`) and the outcomes of R163: stopped,
conforming and early. The quotients C / PIR and PBS / PIR are floored, which is the model's own choice (log 109). -/
theorem shaperBuckets : Obligations.ShaperBuckets := by
  refine fun now c f hp hc => ⟨?_, ?_⟩
  · rcases Nat.lt_or_ge f.pbs (f.dp + c) with hred | hroom
    · simp [shaperTest_red now hred]
      omega
    · rcases Nat.lt_or_ge f.cbs (f.dc + c) with hyellow | hgreen
      · simp [shaperTest_yellow now hroom hyellow]
        omega
      · simp [shaperTest_green now hroom hgreen, Flow.charged]
        omega
  · by_cases hstop : f.pir = 0
    · simp [shaperTest_wheel_stopped now c hstop]
    · rcases Nat.lt_or_ge (now + f.tau) f.next with hearly | htime
      · simp [shaperTest_wheel_early c hearly]
      · have htau : f.next - now ≤ f.tau := by omega
        simpa [shaperTest_wheel_conforms c hstop htime, hstop, Flow.tau] using htau

end Sys2Proof.Machine
end

section
namespace Sys2Proof.Machine

/-! ### The shaping state that a command's action sees and leaves -/

theorem inQos_qos (s : State) (f : QosS → QosS) : (s.inQos f).qos = f s.qos := (rfl)

theorem tgtSum_congr {s t : State} (h : t.qos = s.qos) (g : Nat) : t.tgtSum g = s.tgtSum g := by
  simp only [State.tgtSum, h]

section Begun
variable (s : State) (code : Nat) (q : Req) (body : List Byte)

@[simp] theorem begun_futureKeys (t : Nat) : (s.begun code q body).futureKeys t = s.futureKeys t := by
  simp only [State.futureKeys, begun_qos]

@[simp] theorem begun_rsvFind (src fc g : Nat) : (s.begun code q body).rsvFind src fc g = s.rsvFind src fc g := by
  simp only [State.rsvFind, begun_qos]

@[simp] theorem begun_tgtSum (g : Nat) : (s.begun code q body).tgtSum g = s.tgtSum g := tgtSum_congr (begun_qos ..) g

end Begun

/-- Asking for a mode writes the tile's request alone. -/
theorem askMode_eq (s : State) (t n : Nat) : ∃ r a, s.askMode t n = s.inQos (fun q => { q with modeReq := r, modeAt := a }) := by
  unfold State.askMode
  extract_lets want now was req
  split
  · exact ⟨s.qos.modeReq, s.qos.modeAt, rfl⟩
  · exact ⟨_, _, rfl⟩

@[simp] theorem askMode_regs (s : State) (t n : Nat) : (s.askMode t n).regs = s.regs := by
  obtain ⟨r, a, h⟩ := askMode_eq s t n
  rw [h, inQos_regs]

@[simp] theorem askMode_flows (s : State) (t n : Nat) : (s.askMode t n).qos.flows = s.qos.flows := by
  obtain ⟨r, a, h⟩ := askMode_eq s t n
  rw [h, inQos_qos]

@[simp] theorem askMode_changes (s : State) (t n : Nat) : (s.askMode t n).qos.changes = s.qos.changes := by
  obtain ⟨r, a, h⟩ := askMode_eq s t n
  rw [h, inQos_qos]

@[simp] theorem countFlows_qos (s : State) (t : Nat) : (s.countFlows t).qos = s.qos := setFld_qos ..

@[simp] theorem rsvFree_qos (s : State) : s.rsvFree.qos = s.qos := setFld_qos ..

/-! ### OP_QOS_FLOW_SET and OP_QOS_FLOW_CLEAR (R159, R169) -/

/-- An accepted flow change waits for the next edge. -/
def State.acceptChange (s : State) (c : FlowChange) : State := s.inQos (fun x => { x with changes := x.changes ++ [c] })

/-- The body names a flow as the two commands ask. -/
structure FlowNamed (b : List Byte) : Prop where
  src : leAt b 0 4 < 2 ^ 18
  fc  : fcOk (byteAt b 4) = true
  rsv : rsvZero b [(5, 3)] = true

/-- The parameters of a flow have their widths and fit each other, the floors of R159 applied. -/
structure FlowParams (b : List Byte) (pir cbs : Nat) : Prop where
  cir24 : leAt b 8 4 < 2 ^ 24
  pir24 : leAt b 12 4 < 2 ^ 24
  cbs24 : leAt b 16 4 < 2 ^ 24
  pbs24 : leAt b 20 4 < 2 ^ 24
  pirIs : pirFloor (byteAt b 4) (leAt b 12 4) = pir
  cbsIs : max 4096 (leAt b 16 4) = cbs
  rates : leAt b 8 4 ≤ pir
  sizes : cbs ≤ leAt b 20 4

/-- A flow that a tile will hold, or a tile that will hold fewer than 16,384: no flow set is refused for want of an entry. -/
theorem flowSet_hasEntry {keys : List Nat} {key : Nat} (h : keys.contains key = true ∨ keys.length < 16384) (mode : Nat) :
    ¬ (!keys.contains key && decide ((if mode = 1 then 16384 else 262144) ≤ keys.length)) = true := by
  rw [Bool.and_eq_true, Bool.not_eq_true', decide_eq_true_eq]
  rintro ⟨hnew, hfull⟩
  rcases h with hold | hfew
  · rw [hold] at hnew
    exact Bool.noConfusion hnew
  · split at hfull <;> omega

theorem exec_opQosFlowSet {q : Req} {b : List Byte} {t key pir cbs : Nat} {s : State} (ht : q.index.toNat = t)
    (hkey : flowKey t (byteAt b 4) (leAt b 0 4) = key) (ha : s.admitted 0x0801 q { kinds := [1], lenOk := true } = true)
    (hlen : b.length = 24) (hb : FlowNamed b) (hp : FlowParams b pir cbs)
    (hroom : (s.futureKeys t).contains key = true ∨ (s.futureKeys t).length < 16384) :
    exec (.opQosFlowSet q b) s = .next ((((s.begun 0x0801 q b).acceptChange
      ⟨t, key, some (leAt b 8 4, pir, cbs, leAt b 20 4), s.tick.loc⟩).askMode t
        ((s.futureKeys t).length + b2n (!(s.futureKeys t).contains key))).answered 0x0801 q stOk []) := by
  obtain ⟨hcir24, hpir24, hcbs24, hpbs24, rfl, rfl, hrates, hsizes⟩ := hp
  subst ht hkey
  refine congrArg Host.Outcome.next (nalug_run_answered ha ?_ ?_)
  · simpa [hlen, hb.fc, hb.rsv] using And.intro hb.src ⟨hcir24, hpir24, hcbs24, hpbs24⟩
  · rw [if_neg (by omega)]
    simp only [begun_futureKeys, begun_tick]
    rw [if_neg (flowSet_hasEntry hroom _)]
    rfl

theorem exec_opQosFlowClear {q : Req} {b : List Byte} {t key : Nat} {s : State} (ht : q.index.toNat = t)
    (hkey : flowKey t (byteAt b 4) (leAt b 0 4) = key) (ha : s.admitted 0x0802 q { kinds := [1], lenOk := true } = true)
    (hlen : b.length = 8) (hb : FlowNamed b) (hold : (s.futureKeys t).contains key = true) :
    exec (.opQosFlowClear q b) s = .next ((((s.begun 0x0802 q b).acceptChange ⟨t, key, none, s.tick.loc⟩).askMode t
      ((s.futureKeys t).length - 1)).answered 0x0802 q stOk []) := by
  subst ht hkey
  refine congrArg Host.Outcome.next (nalug_run_answered ha ?_ ?_)
  · simpa [hlen, hb.fc, hb.rsv] using hb.src
  · simp only [begun_futureKeys, begun_tick, hold, Bool.not_true, Bool.false_eq_true, if_false]
    rfl

/-! ### FLOW_CHANGE_APPLY (R159, R169) -/

theorem reparam_params (f : Flow) (now : Nat) (fresh : Bool) (cir pir cbs pbs : Nat) :
    let g := f.reparam now fresh cir pir cbs pbs
    g.cir = cir ∧ g.pir = pir ∧ g.cbs = cbs ∧ g.pbs = pbs := by
  cases fresh <;> exact ⟨rfl, rfl, rfl, rfl⟩

/-- A changed flow's buckets keep what they hold, clamped to the new sizes. -/
theorem reparam_contents (f : Flow) (now cir pir cbs pbs : Nat) :
    let g := f.reparam now false cir pir cbs pbs
    g.cbs - g.dc = min cbs (f.cbs - f.dc) ∧ g.pbs - g.dp = min pbs (f.pbs - f.dp) ∧ g.held = f.held :=
  ⟨Nat.sub_sub_self (Nat.min_le_left ..), Nat.sub_sub_self (Nat.min_le_left ..), rfl⟩

/-- A flow of the tile with the parameters of a change. -/
def State.changedFlow (s : State) (key cir pir cbs pbs : Nat) : Flow :=
  ((tfind s.qos.flows key).getD {}).reparam s.now16 (tfind s.qos.flows key).isNone cir pir cbs pbs

theorem exec_flowChangeApply_set {tl key cir pir cbs pbs : Nat} {a : Tick} {l : List FlowChange} {s : State}
    (hc : s.qos.changes = ⟨tl, key, some (cir, pir, cbs, pbs), a⟩ :: l) (ha : a ≠ s.tick.loc) :
    ∃ t, exec .flowChangeApply s = .next t ∧
      t.qos = { s.qos with changes := l, flows := tins s.qos.flows key (s.changedFlow key cir pir cbs pbs) } := by
  refine ⟨_, ?_, countFlows_qos (s.inQos (fun q => { q with
    changes := l, flows := tins q.flows key (s.changedFlow key cir pir cbs pbs) })) tl⟩
  show execFlowChangeApply s = _
  simp only [execFlowChangeApply, hc, ha, if_false]
  rfl

/-- A cleared flow is gone; its held messages join the default flow's list. -/
theorem exec_flowChangeApply_clear {tl key : Nat} {a : Tick} {l : List FlowChange} {f : Flow} {s : State}
    (hc : s.qos.changes = ⟨tl, key, none, a⟩ :: l) (ha : a ≠ s.tick.loc) (hf : tfind s.qos.flows key = some f) :
    ∃ u : State, u.qos = { s.qos with changes := l, flows := tdel s.qos.flows key } ∧
      exec .flowChangeApply s = .next (u.setDef tl (key / 2 ^ 18 % 8)
        { u.defFlow tl (key / 2 ^ 18 % 8) with held := (u.defFlow tl (key / 2 ^ 18 % 8)).held ++ f.held }) := by
  refine ⟨_, countFlows_qos (s.inQos (fun q => { q with changes := l, flows := tdel q.flows key })) tl, ?_⟩
  show execFlowChangeApply s = _
  simp only [execFlowChangeApply, hc, ha, hf, if_false]
  rfl

theorem defFlow_held {s t : State} (h : t.qos.defs = s.qos.defs) (tl fc : Nat) : (t.defFlow tl fc).held = (s.defFlow tl fc).held := by
  simp only [State.defFlow, h]

theorem defFlow_setDef_held (s : State) (tl fc : Nat) (f : Flow) : ((s.setDef tl fc f).defFlow tl fc).held = f.held := by
  simp [State.defFlow, State.setDef, inQos_qos]

/-! ### TL_QOS_CTL_WRITE and QOS_MODE_CHANGE (R164) -/

theorem exec_tlQosCtlWrite_absent {tl : TileIx} {s : State} (v : Word) (h : s.present 1 tl = false) :
    exec (.tlQosCtlWrite tl v) s = .next (s.raise 0x0101 [.w (tlQosCtl tl)]) := by
  show execTlQosCtlWrite tl v s = _
  rw [execTlQosCtlWrite, State.ifPresent, h, if_neg Bool.false_ne_true]

theorem exec_tlQosCtlWrite_discarded {tl : TileIx} {v : Word} {s : State} (h : s.present 1 tl = true) (hv : bits v 0 2 = 1)
    (hn : 16384 < (s.futureKeys tl).length) : exec (.tlQosCtlWrite tl v) s = .next s := by
  show execTlQosCtlWrite tl v s = _
  rw [execTlQosCtlWrite, State.ifPresent, h, if_pos rfl, if_pos ⟨hv, hn⟩]

theorem exec_tlQosCtlWrite_taken {tl : TileIx} {v : Word} {s : State} (h : s.present 1 tl = true)
    (hn : bits v 0 2 ≠ 1 ∨ (s.futureKeys tl).length ≤ 16384) :
    exec (.tlQosCtlWrite tl v) s = .next ((s.setFld (tlQosCtl tl) 0 2 (bits v 0 2)).askMode tl (s.futureKeys tl).length) := by
  show execTlQosCtlWrite tl v s = _
  rw [execTlQosCtlWrite, State.ifPresent, h, if_pos rfl, if_neg (by omega)]

/-- A tile's flows in the other mode, its request served. -/
def State.convertFlows (s : State) (tl : Nat) (wh : Bool) : State :=
  s.inQos (fun q => { q with
    modeReq := tput 0 q.modeReq tl 0
    modeAt := tput 0 q.modeAt tl 0
    flows := q.flows.map (fun e => if tileOfKey e.1 = tl then (e.1, e.2.convert wh s.now16) else e) })

/-- A tile's default flows in the other mode, at a time. -/
def State.convertDefs (s : State) (tl now : Nat) (wh : Bool) : State :=
  s.each [0, 1, 2, 3, 4, 6, 7] (fun fc x => x.setDef tl fc ((x.defFlow tl fc).convert wh now))

/-- Converting the default flows changes nothing that storing one of them leaves. -/
theorem convertDefs_frame {β : Type} {proj : State → β} (h : ∀ t tl fc f, proj (State.setDef t tl fc f) = proj t) (s : State) (tl now : Nat)
    (wh : Bool) : proj (s.convertDefs tl now wh) = proj s :=
  each_frame (fun fc t => h t tl fc _) _ _

theorem exec_qosModeChange_due {tl : TileIx} {m : Nat} {s : State} (hreq : tget 0 s.qos.modeReq tl = m) (hm : m ≠ 0)
    (hedge : tget 0 s.qos.modeAt tl ≠ s.tick.loc.toNat + 1) :
    exec (.qosModeChange tl) s = .next ((((s.convertFlows tl (decide (m = 2))).convertDefs tl s.now16 (decide (m = 2))).setBit
      (tlQosStatus tl) 31 (decide (m = 2))).raise (if decide (m = 2) then 0x0801 else 0x0802) []) := by
  subst hreq
  show execQosModeChange tl s = _
  unfold execQosModeChange
  rw [if_neg (by simp [hm, hedge])]
  rfl

theorem exec_qosModeChange_idle {tl : TileIx} {s : State}
    (h : tget 0 s.qos.modeReq tl = 0 ∨ tget 0 s.qos.modeAt tl = s.tick.loc.toNat + 1) : exec (.qosModeChange tl) s = .next s := by
  show execQosModeChange tl s = _
  unfold execQosModeChange
  exact if_pos h

theorem wheel_raise_setBit (s : State) (tl code : Nat) (wh : Bool) (vals : List EvVal) :
    ((s.setBit (tlQosStatus tl) 31 wh).raise code vals).wheel tl = wh := by
  have hne : tlQosStatus tl ≠ glbEvFifoOvfCnt := by unfold tlQosStatus tileBase glbEvFifoOvfCnt; omega
  exact (bit_eq_of_reg (raise_reg _ _ _ hne) 31).trans (bit_setBit_self s _ 31 wh (by decide))

/-! ### QOS_RESCALE (R171) -/

/-- The scale of a target at the rate of the last edge. -/
def State.edgeScale (s : State) (g : Nat) : Nat :=
  if s.tgtSum g = 0 then 65536 else min 65536 (tget 0 s.qos.edgeD g * 65536 / s.tgtSum g)

theorem edgeScale_le (s : State) (g : Nat) : s.edgeScale g ≤ 65536 := by
  unfold State.edgeScale
  split
  · exact Nat.le_refl _
  · exact Nat.min_le_left ..

/-- A target whose rate changed is booked at the new rate and scale; after that only flows change, and an event and a count are added. -/
theorem exec_qosRescale_changed {g : Fin 4096} {s : State} (h : tget 0 s.qos.edgeD g ≠ tget 0 s.qos.seen g) :
    ∃ t flows, exec (.qosRescale g) s = .next t ∧ t.qos = { s.qos with
      seen := tput 0 s.qos.seen g (tget 0 s.qos.edgeD g), lack := tput 0 s.qos.lack g (65536 - s.edgeScale g), flows := flows } := by
  show ∃ t flows, execQosRescale g s = .next t ∧ _
  unfold execQosRescale
  extract_lets gn d was sum sc old s1 s2
  rw [if_neg h]
  have hqos : s2.qos = { s.qos with
      seen := tput 0 s.qos.seen g (tget 0 s.qos.edgeD g), lack := tput 0 s.qos.lack g (65536 - s.edgeScale g), flows := s2.qos.flows } := rfl
  split
  · exact ⟨_, s2.qos.flows, rfl, by rw [cnt_qos, raise_qos]; exact hqos⟩
  · split
    · exact ⟨_, s2.qos.flows, rfl, by rw [raise_qos]; exact hqos⟩
    · exact ⟨_, s2.qos.flows, rfl, hqos⟩

theorem exec_qosRescale_same {g : Fin 4096} {s : State} (h : tget 0 s.qos.edgeD g = tget 0 s.qos.seen g) :
    exec (.qosRescale g) s = .next s := by
  show execQosRescale g s = _
  unfold execQosRescale
  exact if_pos h

/-- Settles O25: a change is accepted by `exec_opQosFlowSet` and `exec_opQosFlowClear` and takes effect by `exec_flowChangeApply_set` and
`exec_flowChangeApply_clear`; a mode is asked for by `exec_tlQosCtlWrite_taken` and changed by `exec_qosModeChange_due`; a target is rescaled by
`exec_qosRescale_changed`. That a new flow starts with full buckets is log 108 and the rounding of a flow's conversion log 109: the
model's own choices. -/
theorem qosFlowsAndModes : Obligations.QosFlowsAndModes := by
  refine ⟨?_, ?_, ?_, ?_, fun tl v s => exec_tlQosCtlWrite_absent v, fun tl v s => exec_tlQosCtlWrite_discarded, ?_,
    fun tl s h => exec_qosModeChange_idle (.inl h), ?_, fun tl s h => exec_qosModeChange_idle (.inr h), ?_,
    fun g s => exec_qosRescale_same⟩
  · intro q b s key ha hlen hsrc hfc hrsv h8 h12 h16 h20 hrate hsize hroom
    refine ⟨_, exec_opQosFlowSet rfl rfl ha hlen ⟨hsrc, hfc, hrsv⟩ ⟨h8, h12, h16, h20, rfl, rfl, hrate, hsize⟩ hroom, ?_,
      mem_answered_out .., ?_⟩ <;> simp [State.acceptChange, inQos_qos, key]
  · intro q b s key ha hlen hsrc hfc hrsv hold
    refine ⟨_, exec_opQosFlowClear rfl rfl ha hlen ⟨hsrc, hfc, hrsv⟩ hold, ?_, mem_answered_out .., ?_⟩ <;>
      simp [State.acceptChange, inQos_qos, key]
  · intro tl key cir pir cbs pbs a l s hc ha
    obtain ⟨hcir, hpir, hcbs, hpbs⟩ :=
      reparam_params ((tfind s.qos.flows key).getD {}) s.now16 (tfind s.qos.flows key).isNone cir pir cbs pbs
    obtain ⟨t, hexec, hqos⟩ := exec_flowChangeApply_set hc ha
    refine ⟨t, s.changedFlow key cir pir cbs pbs, hexec, by rw [hqos], by rw [hqos, tfind_tins_self], hcir, hpir, hcbs, hpbs,
      fun k hk => by rw [hqos, tfind_tins_ne _ _ hk], fun hnew => ?_, fun f hf => ?_⟩
    · rw [State.changedFlow, hnew]
      exact ⟨rfl, rfl, rfl⟩
    · rw [State.changedFlow, hf]
      exact reparam_contents f s.now16 cir pir cbs pbs
  · intro tl key a l f s hc ha hf
    obtain ⟨u, hqos, hexec⟩ := exec_flowChangeApply_clear hc ha hf
    refine ⟨_, hexec, ?_, ?_, ?_⟩
    · rw [State.setDef, inQos_qos, hqos]
    · rw [State.setDef, inQos_qos, hqos]
      exact tfind_tdel_self ..
    · have hheld := defFlow_held (t := u) (s := s) (by rw [hqos]) tl (key / 2 ^ 18 % 8)
      rw [defFlow_setDef_held]
      exact congrArg (· ++ f.held) hheld
  · intro tl v s hp hn
    refine ⟨_, exec_tlQosCtlWrite_taken hp hn, ?_, by rw [askMode_flows, setFld_qos], ?_⟩
    · rw [fld_congr (askMode_regs ..), fld_setFld_self _ _ _ _ _ (by decide), Nat.mod_eq_of_lt (bits_lt v 0 2)]
    · have hne : tlQosStatus tl ≠ tlQosCtl tl := by unfold tlQosStatus tlQosCtl; omega
      rw [bit_congr (askMode_regs ..), bit_setFld _ _ _ _ _ _ _ (by decide) (.inl hne)]
  · intro tl m s hreq hm hedge
    refine ⟨_, exec_qosModeChange_due hreq (by omega) hedge, wheel_raise_setBit .., ?_, ?_, ?_⟩
    · rw [raise_qos, setBit_qos, convertDefs_frame (proj := fun t => t.qos.modeReq) (fun _ _ _ _ => rfl)]
      exact tget_tput_self 0 s.qos.modeReq tl 0
    · rw [raise_qos, setBit_qos, convertDefs_frame (proj := fun t => t.qos.flows) (fun _ _ _ _ => rfl)]
      rfl
    · rw [raise_seq, setBit_ev, convertDefs_frame (proj := fun t => t.ev) (fun _ _ _ _ => rfl)]
      rfl
  · intro g s h
    obtain ⟨t, flows, hexec, hqos⟩ := exec_qosRescale_changed h
    refine ⟨t, hexec, ?_, ?_, by rw [hqos]⟩
    · rw [hqos]
      exact tget_tput_self ..
    · rw [State.tgtScale, hqos]
      dsimp only
      rw [tget_tput_self, Nat.sub_sub_self (edgeScale_le s g)]
      rfl

end Sys2Proof.Machine
end

section
namespace Sys2Proof.Machine

/-! ### OP_QOS_RESERVE, OP_QOS_RELEASE and OP_QOS_TARGET_SET (R167, R168) -/

/-- A reservation stands in the table; the first one on a target at full scale books the target's rate (R171). -/
def State.reserved (s : State) (k : Nat) (r : Rsv) : State :=
  let first := decide (s.tgtSum r.tgt = 0) && decide (s.tgtScale r.tgt = 65536)
  (s.inQos (fun y => { y with
    rsv := tins y.rsv k r
    seen := if first then tput 0 y.seen r.tgt (s.tgtDeliver r.tgt) else y.seen
    edgeD := if first then tput 0 y.edgeD r.tgt (s.tgtDeliver r.tgt) else y.edgeD })).rsvFree

/-- The body names a source, a flow class and a target as the two commands ask. -/
structure RsvNamed (b : List Byte) (src fc g : Nat) : Prop where
  srcIs : leAt b 0 4 = src
  fcIs  : byteAt b 4 = fc
  tgtIs : leAt b 6 2 = g
  src18 : src < 2 ^ 18
  fc    : fcOk fc = true
  rsv   : rsvZero b [(5, 1)] = true
  tgt   : g < 4096

section Admission
variable {q : Req} {b : List Byte} {src fc g rate : Nat} {s : State}

/-- A new reservation on a target that has a rate: it is kept under the lowest free index when it fits, and else refused and counted. -/
theorem exec_opQosReserve_new {k : Nat} (ha : s.admitted 0x0803 q { lenOk := true, units := tgtUnits g, objs := tgtObjs g } = true)
    (hlen : b.length = 12) (hb : RsvNamed b src fc g) (hr : leAt b 8 4 = rate) (hrate : rate < 2 ^ 24)
    (hnew : s.rsvFind src fc g = none)
    (hk : (List.range (min 65536 (s.qos.rsv.length + 1))).find? (fun k => (tfind s.qos.rsv k).isNone) = some k)
    (hd : (s.begun 0x0803 q b).tgtDeliver g ≠ 0) :
    exec (.opQosReserve q b) s = .next (
      if (s.begun 0x0803 q b).tgtDeliver g < s.tgtSum g + rate
      then ((s.begun 0x0803 q b).cnt qosRefuseCnt).answered 0x0803 q stQosAdmission
        (toLe 4 ((s.begun 0x0803 q b).tgtDeliver g - s.tgtSum g))
      else ((s.begun 0x0803 q b).reserved k ⟨src, fc, g, rate⟩).answered 0x0803 q stOk
        (toLe 4 ((s.begun 0x0803 q b).tgtDeliver g - (s.tgtSum g + rate)))) := by
  obtain ⟨rfl, rfl, rfl, hsrc, hfc, hrsv, htgt⟩ := hb
  subst hr
  split
  all_goals
    next hfits =>
      refine congrArg Host.Outcome.next (nalug_run_answered ha ?_ ?_)
      · simpa [hlen, hfc, hrsv, htgt] using And.intro hsrc hrate
      · simp [hnew, hk, hd, hfits, State.reserved]

theorem exec_opQosRelease {e : Nat × Rsv} (ha : s.admitted 0x0804 q { lenOk := true, units := tgtUnits g, objs := tgtObjs g } = true)
    (hlen : b.length = 8) (hb : RsvNamed b src fc g) (he : s.rsvFind src fc g = some e) :
    exec (.opQosRelease q b) s =
      .next (((s.begun 0x0804 q b).inQos (fun y => { y with rsv := tdel y.rsv e.1 })).rsvFree.answered 0x0804 q stOk []) := by
  obtain ⟨rfl, rfl, rfl, hsrc, hfc, hrsv, htgt⟩ := hb
  refine congrArg Host.Outcome.next (nalug_run_answered ha ?_ ?_)
  · simpa [hlen, hfc, hrsv, htgt] using hsrc
  · rw [begun_rsvFind, he]
    rfl

/-- A declared rate of 0 removes the declaration. -/
theorem exec_opQosTargetSet (ha : s.admitted 0x0805 q { lenOk := true, units := tgtUnits g, objs := tgtObjs g } = true)
    (hlen : b.length = 12) (hrsv : rsvZero b [(0, 6)] = true) (hg : leAt b 6 2 = g) (hr : leAt b 8 4 = rate) (hdev : 256 ≤ g)
    (htgt : g < 4096) (hrate : rate < 2 ^ 24) (hx : tget 0 s.bind.devs (g - 256) ≠ 0) :
    exec (.opQosTargetSet q b) s = .next (((s.begun 0x0805 q b).inQos (fun y => { y with
      declared := if rate = 0 then tdel y.declared g else tins y.declared g rate })).answered 0x0805 q stOk []) := by
  subst hg hr
  refine congrArg Host.Outcome.next (nalug_run_answered ha ?_ ?_)
  · simpa [hlen, hrsv, htgt] using hrate
  · rw [begun_bind, if_neg (by omega)]
    rfl

end Admission

/-- Settles O26, by what each command executes to: `exec_opQosReserve_new`, `exec_opQosRelease`, `exec_opQosTargetSet`. That a new reservation
takes the lowest free index of the table, which software sees through QOS_RSV_IDX, is the model's own choice: R168 names no index. -/
theorem qosAdmission : Obligations.QosAdmission := by
  refine ⟨?_, ?_, ?_, ?_⟩
  · intro q b k s x g ha hlen hsrc hfc hrsv hg hrate hnew hk hd hfits
    have hexec := exec_opQosReserve_new ha hlen ⟨rfl, rfl, rfl, hsrc, hfc, hrsv, hg⟩ rfl hrate hnew hk hd
    rw [if_neg (Nat.not_lt.mpr hfits)] at hexec
    exact ⟨_, hexec, by simp [State.reserved, inQos_qos, g], mem_answered_out ..⟩
  · intro q b k s x g ha hlen hsrc hfc hrsv hg hrate hnew hk hd hover
    have hexec := exec_opQosReserve_new ha hlen ⟨rfl, rfl, rfl, hsrc, hfc, hrsv, hg⟩ rfl hrate hnew hk hd
    rw [if_pos hover] at hexec
    exact ⟨_, hexec, by simp, mem_answered_out ..⟩
  · intro q b e s ha hlen hsrc hfc hrsv hg he
    exact ⟨_, exec_opQosRelease ha hlen ⟨rfl, rfl, rfl, hsrc, hfc, hrsv, hg⟩ he, by simp [inQos_qos], mem_answered_out ..⟩
  · intro q b s ha hlen hrsv hdev hg hrate hx
    exact ⟨_, exec_opQosTargetSet ha hlen hrsv rfl rfl hdev hg hrate hx, mem_answered_out .., by simp [inQos_qos]⟩

end Sys2Proof.Machine
end

section
namespace Sys2Proof.Machine

/-! ### A ring's own state after a write -/

/-- What `State.inst` reads depends on the engines' tables alone. -/
theorem inst_congr {s t : State} (h : t.eng = s.eng) (i : Nat) : t.inst i = s.inst i := by
  rw [State.inst, State.inst, h]

@[simp] theorem inst_setInst_self (s : State) (i : Nat) (x : Inst) : (s.setInst i x).inst i = x := by
  simp [State.inst, State.setInst, State.inEng]

theorem inst_setInst_ne (s : State) {i k : Nat} (x : Inst) (h : k ≠ i) : (s.setInst i x).inst k = s.inst k := by
  simp [State.inst, State.setInst, State.inEng, tget_tput_ne _ _ _ _ h]

@[simp] theorem inst_setReg (s : State) (o : Nat) (v : Word) (i : Nat) : (s.setReg o v).inst i = s.inst i := (rfl)
@[simp] theorem inst_setN (s : State) (o v i : Nat) : (s.setN o v).inst i = s.inst i := (rfl)
@[simp] theorem inst_setBit (s : State) (o k : Nat) (b : Bool) (i : Nat) : (s.setBit o k b).inst i = s.inst i := (rfl)
@[simp] theorem inst_setRing (s : State) (k st err i : Nat) : (s.setRing k st err).inst i = s.inst i :=
  inst_congr (by simp [State.setRing]) i

@[simp] theorem inst_cnt64 (s : State) (o k i : Nat) : (s.cnt64 o k).inst i = s.inst i := inst_congr (cnt64_eng s o k) i

@[simp] theorem inst_raiseLim (s : State) (code unit : Nat) (vals : List EvVal) (i : Nat) : (s.raiseLim code unit vals).inst i = s.inst i :=
  inst_congr (raiseLim_eng s code unit vals) i

@[simp] theorem inJob_inst (s : State) (i : Nat) (f : Job → Job) :
    (s.inJob i f).inst i = { s.inst i with job := (s.inst i).job.map f } := inst_setInst_self _ _ _

@[simp] theorem pmcEng_eng (s : State) (i ev n : Nat) : (s.pmcEng i ev n).eng = s.eng :=
  pmcAdd_frame (proj := State.eng) (fun t o k => cnt64_eng t o k) s _ _ _ _ _ _ _

@[simp] theorem pmcEng_out (s : State) (i ev n : Nat) : (s.pmcEng i ev n).out = s.out :=
  pmcAdd_frame (proj := State.out) (fun t o k => cnt64_out t o k) s _ _ _ _ _ _ _

@[simp] theorem pmcEng_hmp (s : State) (i ev n : Nat) : (s.pmcEng i ev n).hmp = s.hmp :=
  pmcAdd_frame (proj := State.hmp) (fun t o k => cnt64_hmp t o k) s _ _ _ _ _ _ _

/-! ### What only sends -/

/-- Messages leave, with their tags; the rest of the state is as it was (R176, R177, R185). -/
structure Sends (s t : State) : Prop where
  rest : t = { s with lnk := t.lnk, out := t.out }
  out  : s.out ⊆ t.out

namespace Sends
variable {s t u : State}

theorem refl (s : State) : Sends s s := ⟨rfl, List.Subset.refl _⟩

theorem trans (h : Sends s t) (g : Sends t u) : Sends s u :=
  ⟨g.rest.trans (congrArg (fun x : State => { x with lnk := u.lnk, out := u.out }) h.rest), fun _ hm => g.out (h.out hm)⟩

theorem each {α : Type} {f : α → State → State} (h : ∀ a t, Sends t (f a t)) (l : List α) (s : State) : Sends s (s.each l f) := by
  induction l generalizing s with
  | nil => exact refl s
  | cons a r ih => exact (h a s).trans (ih (f a s))

/-- Each run of a repeated action is seen at a state that only sending separates from the first. -/
theorem each_at {α : Type} {f : α → State → State} (h : ∀ a t, Sends t (f a t)) {l : List α} {a : α} (ha : a ∈ l) (s : State) :
    ∃ u, Sends s u ∧ Sends (f a u) (s.each l f) := by
  induction l generalizing s with
  | nil => cases ha
  | cons b r ih =>
    rcases List.mem_cons.mp ha with rfl | hr
    · exact ⟨s, refl s, each h r _⟩
    · obtain ⟨u, hsu, hu⟩ := ih hr (f b s)
      exact ⟨u, (h b s).trans hsu, hu⟩

theorem emit (s : State) (m : Out) : Sends s (s.emit m) := ⟨rfl, List.subset_append_left _ _⟩

theorem regs (h : Sends s t) : t.regs = s.regs := by rw [h.rest]
theorem eng (h : Sends s t) : t.eng = s.eng := by rw [h.rest]
theorem hmp (h : Sends s t) : t.hmp = s.hmp := by rw [h.rest]
theorem inst (h : Sends s t) (i : Nat) : t.inst i = s.inst i := inst_congr h.eng i

end Sends

theorem engLine_sends (s : State) (i space cls addr len : Nat) (d : Option (List Byte)) : Sends s (s.engLine i space cls addr len d) := by
  unfold State.engLine
  dsimp only
  split
  · exact .emit s _
  split
  · split
    · exact ⟨rfl, List.subset_append_left _ _⟩
    · exact .emit s _
  · exact .emit s _

theorem engLines_sends (s : State) (i space cls addr : Nat) (b : List Byte) : Sends s (s.engLines i space cls addr b) :=
  .each (fun _ t => engLine_sends t _ _ _ _ _ _) _ s

theorem readsDone_sends (s : State) (i : Nat) (j : Job) : Sends s (s.readsDone i j) :=
  .each (fun _ t => engLine_sends t _ _ _ _ _ _) _ s

theorem atsEnd_sends (s : State) (i : Nat) : Sends s (s.atsEnd i) := .each (fun _ t => .emit t _) _ s

theorem sendChecks_sends (s : State) (i space addr len : Nat) (write : Bool) : Sends s (s.sendChecks i space addr len write) := by
  unfold State.sendChecks
  split
  · exact .each (fun _ t => .emit t _) _ s
  split
  · exact .refl s
  · extract_lets l sl
    refine .each (fun n t => ?_) _ s
    dsimp only
    split
    · exact .refl t
    · exact ⟨rfl, List.subset_append_left _ _⟩

theorem checkOpnds_sends (s : State) (i : Nat) (ops : List Opnd) : Sends s (s.checkOpnds i ops) :=
  .each (fun _ t => sendChecks_sends t _ _ _ _ _) _ s

/-! ### Line reads of a step -/

/-- The job with other line reads to issue and outstanding (R176). -/
def Job.reading (j : Job) (todo : List (Nat × Nat × Nat)) (n : Nat) : Job := { j with rdTodo := todo, rdOut := n }

/-- Reads of ring `i` leave: its job notes them, and of the engines nothing else changes (R176). -/
structure Reads (i : Nat) (s t : State) : Prop where
  self  : ∃ todo n, t.inst i = { s.inst i with job := (s.inst i).job.map (fun j => j.reading todo n) }
  other : ∀ k, k ≠ i → t.inst k = s.inst k
  out   : s.out ⊆ t.out

/-- A job as it stands reads what it reads. -/
theorem Reads.refl (i : Nat) (s : State) : Reads i s s := by
  refine ⟨?_, fun _ _ => rfl, List.Subset.refl _⟩
  cases h : (s.inst i).job with
  | none => exact ⟨[], 0, by rw [Option.map_none, ← h]⟩
  | some j => exact ⟨j.rdTodo, j.rdOut, by rw [Option.map_some, Job.reading, ← h]⟩

theorem Reads.of_setInst {s u : State} {i : Nat} {j : Job} {todo : List (Nat × Nat × Nat)} {n : Nat} (hj : (s.inst i).job = some j)
    (h : Sends s u) : Reads i s (u.setInst i { s.inst i with job := some (j.reading todo n) }) := by
  refine ⟨⟨todo, n, ?_⟩, fun k hk => ?_, h.out⟩
  · rw [inst_setInst_self, hj, Option.map_some]
  · rw [inst_setInst_ne _ _ hk, h.inst]

theorem Reads.trans {i : Nat} {s t u : State} (h : Reads i s t) (g : Reads i t u) : Reads i s u := by
  obtain ⟨todo, n, ht⟩ := h.self
  obtain ⟨todo', n', hu⟩ := g.self
  refine ⟨⟨todo', n', ?_⟩, fun k hk => (g.other k hk).trans (h.other k hk), fun _ hm => g.out (h.out hm)⟩
  rw [hu, ht]
  cases (s.inst i).job <;> rfl

theorem issueReads_reads (s : State) (i : Nat) : Reads i s (s.issueReads i) := by
  cases hj : (s.inst i).job with
  | none =>
    have hx := hj
    rw [State.inst] at hx
    simp only [State.issueReads, hx]
    exact .refl i s
  | some j =>
    have hx := hj
    rw [State.inst] at hx
    simp only [State.issueReads, hx]
    split
    · exact .refl i s
    · exact .of_setInst hj (.each (fun _ t => engLine_sends t _ _ _ _ _ _) _ s)

theorem beginStep_reads (s : State) (i : Nat) : Reads i s (s.beginStep i) := by
  unfold State.beginStep
  dsimp only
  split
  · next j hj =>
    split
    · exact .refl i s
    · exact (Reads.of_setInst hj (.refl s)).trans (issueReads_reads _ i)
  · exact .refl i s

/-! ### Instances whose job has ended -/

/-- The ring runs no unfinished job. -/
def Inst.settled (x : Inst) : Bool := x.job.all (fun j => j.fin.isSome)

theorem beginStep_of_settled {s : State} {i : Nat} (h : (s.inst i).settled = true) : s.beginStep i = s := by
  unfold State.beginStep
  dsimp only
  split
  · next j hj =>
    have hf : j.fin.isSome = true := by simpa [Inst.settled, hj] using h
    simp [hf]
  · rfl

/-- The entries of a ring stay, and so does its job if that has ended. -/
def Inst.sameJob (x y : Inst) : Prop := y.ents = x.ents ∧ (x.settled = true → y.job = x.job)

theorem Inst.sameJob.trans {x y z : Inst} (h : x.sameJob y) (g : y.sameJob z) : x.sameJob z :=
  ⟨g.1.trans h.1, fun hx => (g.2 (by rw [Inst.settled, h.2 hx]; exact hx)).trans (h.2 hx)⟩

/-- What the engines' schedule leaves of the rings (R197, R214): entries, ended jobs, and the messages sent before. -/
structure KeepsJobs (s t : State) : Prop where
  inst : ∀ k, (s.inst k).sameJob (t.inst k)
  out  : s.out ⊆ t.out

namespace KeepsJobs
variable {s t u : State}

theorem of_eng (h : t.eng = s.eng) (ho : s.out ⊆ t.out) : KeepsJobs s t :=
  ⟨fun k => by rw [inst_congr h]; exact ⟨rfl, fun _ => rfl⟩, ho⟩

theorem refl (s : State) : KeepsJobs s s := of_eng rfl (List.Subset.refl _)

theorem trans (h : KeepsJobs s t) (g : KeepsJobs t u) : KeepsJobs s u :=
  ⟨fun k => (h.inst k).trans (g.inst k), fun _ hm => g.out (h.out hm)⟩

theorem ite {c : Prop} [Decidable c] (ht : KeepsJobs s t) (hu : KeepsJobs s u) : KeepsJobs s (if c then t else u) := by
  split <;> assumption

theorem setInst {s : State} {i : Nat} {x : Inst} (h : (s.inst i).sameJob x) : KeepsJobs s (s.setInst i x) := by
  refine ⟨fun k => ?_, List.Subset.refl _⟩
  by_cases hk : k = i
  · subst hk
    rw [inst_setInst_self]
    exact h
  · rw [inst_setInst_ne s x hk]
    exact ⟨rfl, fun _ => rfl⟩

theorem setInst_other (s : State) (i : Nat) (x : Inst) (he : x.ents = (s.inst i).ents := by rfl) (hj : x.job = (s.inst i).job := by rfl) :
    KeepsJobs s (s.setInst i x) := setInst ⟨he, fun _ => hj⟩

/-- The fate of a ring's job, from a state in which it has ended. -/
theorem job (h : KeepsJobs s t) {i : Nat} (hs : (s.inst i).settled = true) : (t.inst i).job = (s.inst i).job := (h.inst i).2 hs

theorem settled (h : KeepsJobs s t) {i : Nat} (hs : (s.inst i).settled = true) : (t.inst i).settled = true := by
  rw [Inst.settled, h.job hs]
  exact hs

end KeepsJobs

theorem Sends.keepsJobs {s t : State} (h : Sends s t) : KeepsJobs s t := .of_eng h.eng h.out

theorem Reads.keepsEnts {i : Nat} {s t : State} (h : Reads i s t) (k : Nat) : (t.inst k).ents = (s.inst k).ents := by
  by_cases hk : k = i
  · subst hk
    obtain ⟨todo, n, hi⟩ := h.self
    rw [hi]
  · rw [h.other k hk]

theorem beginStep_keepsJobs (s : State) (i : Nat) : KeepsJobs s (s.beginStep i) := by
  refine ⟨fun k => ⟨(beginStep_reads s i).keepsEnts k, fun hs => ?_⟩, (beginStep_reads s i).out⟩
  by_cases hk : k = i
  · subst hk
    rw [beginStep_of_settled hs]
  · rw [(beginStep_reads s i).other k hk]

theorem cnt64_keepsJobs (s : State) (o k : Nat) : KeepsJobs s (s.cnt64 o k) :=
  .of_eng (cnt64_eng s o k) (by rw [cnt64_out]; exact List.Subset.refl _)

theorem pmcEng_keepsJobs (s : State) (i ev n : Nat) : KeepsJobs s (s.pmcEng i ev n) :=
  .of_eng (pmcEng_eng s i ev n) (by rw [pmcEng_out]; exact List.Subset.refl _)

theorem insCharge_keepsJobs (s : State) (i c : Nat) : KeepsJobs s (s.insCharge i c) := .setInst_other s i _

theorem setReg_keepsJobs (s : State) (o : Nat) (v : Word) : KeepsJobs s (s.setReg o v) := .of_eng rfl (List.Subset.refl _)

theorem freeEngine_keepsJobs (s : State) (i : Nat) : KeepsJobs s (s.freeEngine i) := by
  unfold State.freeEngine
  dsimp only
  split
  · exact (KeepsJobs.setInst_other s i _).trans (setReg_keepsJobs _ _ _)
  · exact .refl s

theorem takeEngine_keepsJobs (s : State) (i e : Nat) : KeepsJobs s (s.takeEngine i e) := by
  have hstep : KeepsJobs s ((s.setInst i { s.inst i with eng := some e }).beginStep i) :=
    (KeepsJobs.setInst_other s i _).trans (beginStep_keepsJobs _ i)
  unfold State.takeEngine
  dsimp only
  split
  · exact hstep.trans ((setReg_keepsJobs _ _ _).trans (cnt64_keepsJobs _ _ _))
  · exact hstep

theorem walkTier_keepsJobs (s : State) (fuel : Nat) (l : List Nat) (room : Nat) (got : List Nat) :
    KeepsJobs s (s.walkTier fuel l room got).1 := by
  induction fuel generalizing s l got with
  | zero => exact .refl s
  | succ fuel ih =>
    cases l with
    | nil => exact .refl s
    | cons i r =>
      unfold State.walkTier
      dsimp only
      split
      · exact .refl s
      split
      · exact ih s _ _
      · exact (KeepsJobs.setInst_other s i _).trans (ih _ _ _)

/-- The engines' plan and the walk pointers are apart from the instances. -/
theorem inEng_keepsJobs {f : EngS → EngS} (h : ∀ e, (f e).insts = e.insts) (s : State) : KeepsJobs s (s.inEng f) := by
  refine ⟨fun k => ?_, List.Subset.refl _⟩
  have hk : (s.inEng f).inst k = s.inst k := by rw [State.inst, State.inst, State.inEng, h]
  rw [hk]
  exact ⟨rfl, fun _ => rfl⟩

theorem chooseInsts_keepsJobs (s : State) (c room : Nat) (skip : List Nat) : KeepsJobs s (s.chooseInsts c room skip).1 := by
  unfold State.chooseInsts
  extract_lets ready tier
  have htier : ∀ t k l n, KeepsJobs t (tier t k l n).1 := by
    intro t k l n
    simp only [tier]
    split
    · exact (walkTier_keepsJobs t _ _ _ _).trans (inEng_keepsJobs (by exact fun _ => rfl) _)
    · exact walkTier_keepsJobs t _ _ _ _
  clear_value tier
  exact (htier s _ _ _).trans (htier _ _ _ _)

/-- A step boundary changes who runs, not what has ended (R197, R214). -/
theorem boundary_keepsJobs (s : State) (i : Nat) : KeepsJobs s (s.boundary i) := by
  unfold State.boundary
  split
  · exact .refl s
  extract_lets due unfinished leave s1 busy
  have hleave : KeepsJobs s (leave s) := (KeepsJobs.ite (cnt64_keepsJobs s _ _) (.refl s)).trans (freeEngine_keepsJobs _ i)
  clear_value due leave
  split
  · cases due with
    | zero => exact hleave
    | succ n => exact .ite (hleave.trans (takeEngine_keepsJobs _ _ _)) hleave
  split
  · exact .refl s
  · have hchosen := hleave.trans (chooseInsts_keepsJobs (leave s) ((leave s).insCluster i) 1 busy)
    generalize hc : (leave s).chooseInsts ((leave s).insCluster i) 1 busy = c at hchosen
    obtain ⟨s2, l⟩ := c
    dsimp only
    cases l with
    | nil => exact hchosen.trans (inEng_keepsJobs (by exact fun _ => rfl) _)
    | cons n r => exact hchosen.trans ((inEng_keepsJobs (by exact fun _ => rfl) _).trans (takeEngine_keepsJobs _ _ _))

end Sys2Proof.Machine
end

section
namespace Sys2Proof.Machine

/-! ### Registers of a ring's page -/

theorem insRingStatus_ne_ovf (i : Nat) : insRingStatus i ≠ glbEvFifoOvfCnt := by
  simp only [insRingStatus, pageBase, glbEvFifoOvfCnt]
  omega

theorem insRingCtl_ne_ovf (i : Nat) : insRingCtl i ≠ glbEvFifoOvfCnt := by
  simp only [insRingCtl, pageBase, glbEvFifoOvfCnt]
  omega

theorem insRingCtl_ne_status (i : Nat) : insRingCtl i ≠ insRingStatus i := by simp [insRingCtl, insRingStatus]
theorem insRingTail_ne_status (i : Nat) : insRingTail i ≠ insRingStatus i := by simp [insRingTail, insRingStatus]
theorem insRingTail_ne_ctl (i : Nat) : insRingTail i ≠ insRingCtl i := by simp [insRingTail, insRingCtl]
theorem insRingHead_ne_irqCtl (i : Nat) : insRingHead i ≠ insIrqCtl i := by simp [insRingHead, insIrqCtl]

/-! ### The state of a ring -/

theorem ringState_of_reg {s t : State} {i : Nat} (h : t.reg (insRingStatus i) = s.reg (insRingStatus i)) : t.ringState i = s.ringState i := by
  rw [State.ringState, State.fld, h]
  rfl

theorem ringSpace_congr {s t : State} (h : t.regs = s.regs) (i : Nat) : t.ringSpace i = s.ringSpace i := fld_congr h _ _ _

theorem unitAddr_congr {s t : State} (h : t.regs = s.regs) (i pos : Nat) : t.unitAddr i pos = s.unitAddr i pos := by
  simp only [State.unitAddr, State.ringBase, State.reg64, State.ringUnits, reg_congr h, fld_congr h]

theorem ringState_setRing (s : State) (i err : Nat) {st : Nat} (h : st < 8) : (s.setRing i st err).ringState i = st := by
  rw [State.ringState, State.setRing, fld_setFld _ _ _ _ _ _ _ _ (by omega) (by omega), fld_setFld_self _ _ _ _ _ (by omega)]
  omega

theorem ringErr_setRing (s : State) (i st : Nat) {err : Nat} (h : err < 4) : (s.setRing i st err).fld (insRingStatus i) 24 2 = err := by
  rw [State.setRing, fld_setFld_self _ _ _ _ _ (by omega)]
  omega

theorem reg_setRing_ne (s : State) (i st err : Nat) {o : Nat} (h : o ≠ insRingStatus i) : (s.setRing i st err).reg o = s.reg o := by
  rw [State.setRing, reg_setFld, if_neg h, reg_setFld, if_neg h]

theorem bit_setRing_ctl (s : State) (i st err k : Nat) : (s.setRing i st err).bit (insRingCtl i) k = s.bit (insRingCtl i) k := by
  rw [State.bit, State.bit, State.fld, State.fld, reg_setRing_ne s i st err (insRingCtl_ne_status i)]

theorem setRing_out (s : State) (i st err : Nat) : (s.setRing i st err).out = s.out := by
  rw [State.setRing, setFld_out, setFld_out]

/-- A ring in ERROR: its state, the cause, no fetched unit left (R178, R180). -/
theorem ringError_state (s : State) (i err : Nat) : (s.ringError i err).ringState i = 4 :=
  (ringState_of_reg (raiseLim_reg _ _ _ _ (insRingStatus_ne_ovf i))).trans (ringState_setRing _ _ _ (by omega))

theorem ringError_cause (s : State) (i : Nat) {err : Nat} (h : err < 4) : (s.ringError i err).fld (insRingStatus i) 24 2 = err := by
  unfold State.ringError
  rw [State.fld, raiseLim_reg _ _ _ _ (insRingStatus_ne_ovf i)]
  exact ringErr_setRing _ _ _ h

theorem ringError_inst (s : State) (i err : Nat) : (s.ringError i err).inst i = { s.inst i with units := [], refetch := false } := by
  simp [State.ringError]

/-! ### The stop of a ring's job -/

theorem abandonMove_eng (s : State) (n : Nat) : (s.abandonMove n).eng = s.eng := by
  unfold State.abandonMove
  dsimp only
  split
  · rw [raise_eng]
    rfl
  · rfl

theorem abandonMove_reg (s : State) (n : Nat) {o : Nat} (h : o ≠ glbEvFifoOvfCnt) : (s.abandonMove n).reg o = s.reg o := by
  unfold State.abandonMove
  dsimp only
  split
  · rw [raise_reg _ _ _ h]
    rfl
  · rfl

/-- A page move that rests at its boundary is abandoned; the ring's job is stopped either way (R180, R196). -/
theorem stopInst_cases (s : State) (i st : Nat) : ∃ u, (u = s ∨ ∃ n, u = s.abandonMove n) ∧
    s.stopInst i st = u.setInst i ((u.inst i).stopJob (fun j => j.stop.isNone) st) := by
  unfold State.stopInst
  extract_lets x s1
  refine ⟨s1, ?_, rfl⟩
  simp only [s1]
  split
  · split
    · exact .inr ⟨_, rfl⟩
    · exact .inl rfl
  · exact .inl rfl

theorem stopInst_inst (s : State) (i st : Nat) : (s.stopInst i st).inst i = (s.inst i).stopJob (fun j => j.stop.isNone) st := by
  obtain ⟨u, hu, h⟩ := stopInst_cases s i st
  rw [h, inst_setInst_self]
  rcases hu with rfl | ⟨n, rfl⟩
  · rfl
  · rw [inst_congr (abandonMove_eng s n)]

theorem stopInst_reg (s : State) (i st : Nat) {o : Nat} (ho : o ≠ glbEvFifoOvfCnt) : (s.stopInst i st).reg o = s.reg o := by
  obtain ⟨u, hu, h⟩ := stopInst_cases s i st
  rw [h, reg_congr (setInst_regs _ _ _)]
  rcases hu with rfl | ⟨n, rfl⟩
  · rfl
  · exact abandonMove_reg s n ho

theorem stopJob_running {x : Inst} {j : Job} {st : Nat} (hj : x.job = some j) (hf : j.fin = none) (hstop : j.stop = none) (he : x.eng.isSome = true) :
    x.stopJob (fun j => j.stop.isNone) st = { x with job := some { j with stop := some st } } := by
  simp [Inst.stopJob, hj, hf, hstop, Option.isSome_iff_ne_none.mp he]

theorem stopJob_resting {x : Inst} {j : Job} {st : Nat} (hj : x.job = some j) (hf : j.fin = none) (hstop : j.stop = none) (he : x.eng = none) :
    x.stopJob (fun j => j.stop.isNone) st = { x with job := some (j.ended st) } := by
  simp [Inst.stopJob, hj, hf, hstop, he]

/-! ### Enable and disable -/

theorem each_emit_out {α : Type} (f : α → Out) (l : List α) (s : State) : (s.each l (fun a t => t.emit (f a))).out = s.out ++ l.map f := by
  induction l generalizing s with
  | nil => simp [State.each]
  | cons a r ih =>
    have h := ih (s.emit (f a))
    simp only [State.each, List.foldl_cons, List.map_cons] at h ⊢
    rw [h, State.emit, List.append_assoc, List.singleton_append]

/-- Each page of a range in host memory asks for its translation (R177). -/
theorem sendChecks_host_out (s : State) (i addr len : Nat) (write : Bool) : (s.sendChecks i 1 addr len write).out =
    s.out ++ (List.range (ceilDiv (addr % 4096 + len) 4096)).map (fun k => .atsRequest i (addr / 4096 + k)) := by
  rw [State.sendChecks, if_pos rfl]
  exact each_emit_out _ _ s

/-- A range in host memory that nobody outside refuses passes. -/
theorem rangeCheck_host_nil (s : State) (i k addr len : Nat) (write : Bool) : s.rangeCheck i k 1 addr len write [] = none := by
  simp [State.rangeCheck]

theorem exec_ringEnable_host {ix : InstIx} {s : State} (hb : s.insBound ix = true) (hen : s.bit (insRingCtl ix) 31 = false)
    (hst : s.ringState ix = 0) (hsize : s.fld (insRingCtl ix) 0 4 ≤ 10) (hsp : s.ringSpace ix = 1) (hwb : s.bit (insHeadWbCtl ix) 31 = false) :
    exec (.ringEnable ix []) s =
      let u := (s.setBit (insRingCtl ix) 31 true).sendChecks ix 1 (s.ringBase ix) (s.ringUnits ix * 32) true
      .next (((u.setInst ix { (u.inst ix).park with t := (s.inst ix).h, x := (s.inst ix).h }).setN (insRingTail ix) (s.inst ix).h).setRing ix 1 0) := by
  have hform : (decide (10 < s.fld (insRingCtl ix) 0 4) || decide (1 < 1) || (false && decide (1 < s.fld (insHeadWbCtl ix) 0 2))) = false := by
    simp; omega
  show execRingEnable ix [] s = _
  unfold execRingEnable
  simp only [hb, hen, hst, hsp, hwb, hform, rangeCheck_host_nil, List.findSome?_cons, List.findSome?_nil, Bool.not_true, Bool.or_self, ne_eq,
    not_true, Bool.false_eq_true, if_false]

/-- A running ring whose job has not ended leaves service with it (R180). -/
theorem exec_ringDisable_running {ix : InstIx} {s : State} (hen : s.bit (insRingCtl ix) 31 = true) (hst : s.ringState ix = 1) :
    exec (.ringDisable ix) s =
      let u := (s.setBit (insRingCtl ix) 31 false).stopInst ix stEngAborted
      .next (((u.setInst ix { u.inst ix with units := [], refetch := false }).setRing ix 2 (s.fld (insRingStatus ix) 24 2)).ringSettle ix) := by
  show execRingDisable ix s = _
  simp [execRingDisable, hen, hst]

theorem exec_ringDisable_stopped {ix : InstIx} {s : State} (hen : s.bit (insRingCtl ix) 31 = true) (hst : s.ringState ix = 3) :
    exec (.ringDisable ix) s =
      let u := (s.setBit (insRingCtl ix) 31 false).stopInst ix stEngAborted
      .next ((u.setInst ix (u.inst ix).park).setRing ix 0 (s.fld (insRingStatus ix) 24 2)) := by
  show execRingDisable ix s = _
  simp [execRingDisable, hen, hst]

theorem ringSettle_of_job {s : State} {i : Nat} (h : (s.inst i).job.isSome = true) : s.ringSettle i = s := by
  unfold State.ringSettle
  dsimp only
  rw [if_neg]
  rintro ⟨-, -, hn⟩
  rw [Option.isNone_iff_eq_none.mp hn] at h
  cases h

/-! ### The head -/

/-- A signal (R211) sends its vector or leaves it pending; the rings, the hampers and the other registers stay. -/
structure Signals (i : Nat) (s t : State) : Prop where
  eng : t.eng = s.eng
  hmp : t.hmp = s.hmp
  reg : ∀ o, o ≠ insIrqCtl i → t.reg o = s.reg o
  out : s.out ⊆ t.out

theorem Signals.refl (i : Nat) (s : State) : Signals i s s := ⟨rfl, rfl, fun _ _ => rfl, List.Subset.refl _⟩

theorem emit_signals (i : Nat) (s : State) (m : Out) : Signals i s (s.emit m) := ⟨rfl, rfl, fun _ _ => rfl, (Sends.emit s m).out⟩

theorem insSignal_signals (s : State) (i : Nat) : Signals i s (s.insSignal i) := by
  unfold State.insSignal
  split
  · exact ⟨setBit_eng _ _ _ _, setBit_hmp _ _ _ _, fun o h => by rw [reg_setBit, if_neg h], by rw [setBit_out]; exact List.Subset.refl _⟩
  unfold State.sendVec
  dsimp only
  split
  · split
    · exact ⟨rfl, rfl, fun _ _ => rfl, List.Subset.refl _⟩
    · exact emit_signals i s _
  · exact emit_signals i s _

/-- A publication: its write-back may leave, the head is written, the signal follows (R183, R211). -/
theorem publish_cases (s : State) (i : Nat) : ∃ u, Signals i s u ∧
    Signals i ((u.setN (insRingHead i) (s.inst i).h).setInst i { s.inst i with unpub := 0, irqDue := false }) (s.publish i) := by
  unfold State.publish
  extract_lets x s1 s2
  refine ⟨s1, ?_, ?_⟩
  · simp only [s1]
    split
    · exact emit_signals i s _
    · exact .refl i s
  · split
    · exact insSignal_signals s2 i
    · exact .refl i s2

/-- After a publication nothing waits for the next publication (R183). -/
theorem publish_inst (s : State) (i : Nat) : (s.publish i).inst i = { s.inst i with unpub := 0, irqDue := false } := by
  obtain ⟨u, -, h⟩ := publish_cases s i
  rw [inst_congr h.eng, inst_setInst_self]

theorem publish_head (s : State) (i : Nat) : (s.publish i).nreg (insRingHead i) = (s.inst i).h % 2 ^ 32 := by
  obtain ⟨u, -, h⟩ := publish_cases s i
  rw [State.nreg, h.reg _ (insRingHead_ne_irqCtl i), reg_congr (setInst_regs _ _ _), reg_setN, if_pos rfl, BitVec.toNat_ofNat]

theorem publish_hmp (s : State) (i : Nat) : (s.publish i).hmp = s.hmp := by
  obtain ⟨u, hu, h⟩ := publish_cases s i
  rw [h.hmp, setInst_hmp, setN_hmp, hu.hmp]

theorem publish_out (s : State) (i : Nat) : s.out ⊆ (s.publish i).out := by
  obtain ⟨u, hu, h⟩ := publish_cases s i
  refine fun m hm => h.out ?_
  rw [setInst_out, setN_out]
  exact hu.out hm

theorem exec_headPublish_due {ix : InstIx} {s : State} (h : s.headDue ix = true) : exec (.headPublish ix true) s = .next (s.publish ix) := by
  show execHeadPublish ix true s = _
  simp [execHeadPublish, h]

theorem exec_headPublish_early {ix : InstIx} {s : State} (h : s.headDue ix = false) (good : Bool) : exec (.headPublish ix good) s = .next s := by
  show execHeadPublish ix good s = _
  simp [execHeadPublish, h]

/-! ### The doorbell and the fetch -/

section Doorbell
variable {ix : InstIx} {tail : Word} {s : State}

theorem exec_insDoorbellWrite_good (hst : s.ringState ix = 1) (hunits : (tail.toNat + 2 ^ 32 - (s.inst ix).h) % 2 ^ 32 ≤ s.ringUnits ix)
    (hstep : (tail.toNat + 2 ^ 32 - (s.inst ix).t) % 2 ^ 32 < 2 ^ 31) :
    exec (.insDoorbellWrite ix tail) s = .next ((s.setInst ix { s.inst ix with t := tail.toNat }).setReg (insRingTail ix) tail) := by
  show execInsDoorbellWrite ix tail s = _
  unfold execInsDoorbellWrite
  rw [if_neg (not_not.mpr hst), if_pos ⟨hunits, hstep⟩]

theorem exec_insDoorbellWrite_over (hst : s.ringState ix = 1) (hover : s.ringUnits ix < (tail.toNat + 2 ^ 32 - (s.inst ix).h) % 2 ^ 32) :
    exec (.insDoorbellWrite ix tail) s = .next ((s.cnt engDoorbellErrCnt).ringError ix 1) := by
  show execInsDoorbellWrite ix tail s = _
  unfold execInsDoorbellWrite
  rw [if_neg (not_not.mpr hst), if_neg (fun h => absurd h.1 (Nat.not_le.mpr hover))]

theorem exec_insDoorbellWrite_stopped (hst : s.ringState ix ≠ 1) : exec (.insDoorbellWrite ix tail) s = .next (s.cnt engDoorbellErrCnt) := by
  show execInsDoorbellWrite ix tail s = _
  unfold execInsDoorbellWrite
  rw [if_pos hst]

end Doorbell

/-- A fetched unit joins those that wait, in the order of the ring (R179). -/
theorem exec_ringUnitFetch_room {ix : InstIx} {b : List Byte} {s : State} (hst : s.ringState ix = 1)
    (htail : ((s.inst ix).x + (s.inst ix).units.length) % 2 ^ 32 ≠ (s.inst ix).t) (hshare : (s.inst ix).pfHeld < s.pfShare)
    (href : (s.inst ix).refetch = false) (hlen : b.length = 32) :
    exec (.ringUnitFetch ix (some b)) s =
      .next ((s.engLine ix (s.ringSpace ix) 6 (s.unitAddr ix ((s.inst ix).x + (s.inst ix).units.length)) 32 none).setInst ix
        { s.inst ix with units := (s.inst ix).units ++ [b] }) := by
  show execRingUnitFetch ix (some b) s = _
  unfold execRingUnitFetch
  dsimp only
  rw [if_neg (by simpa [hst, href, Nat.not_le.mpr hshare] using htail), if_pos hlen]

theorem exec_refetch_idle {ix : InstIx} {s : State} (href : (s.inst ix).refetch = true) (hj : (s.inst ix).job = none) :
    exec (.refetch ix) s = .next (s.setInst ix { s.inst ix with refetch := false }) := by
  show execRefetch ix s = _
  simp [execRefetch, href, hj]

/-- A running ring with an unfinished job is DISABLING until the job has ended (R180). -/
theorem ringDisable_unfinished {ix : InstIx} {j' : Job} {s : State} (hen : s.bit (insRingCtl ix) 31 = true) (hst : s.ringState ix = 1)
    (hstop : ((s.inst ix).stopJob (fun j => j.stop.isNone) stEngAborted).job = some j') :
    ∃ t, exec (.ringDisable ix) s = .next t ∧ t.ringState ix = 2 ∧ (t.inst ix).units = [] ∧ (t.inst ix).job = some j' := by
  have hinst := stopInst_inst (s.setBit (insRingCtl ix) 31 false) ix stEngAborted
  rw [inst_setBit] at hinst
  rw [exec_ringDisable_running hen hst]
  dsimp only
  rw [hinst, ringSettle_of_job (by simp [hstop])]
  exact ⟨_, rfl, ringState_setRing _ _ _ (by omega), by simp, by simp [hstop]⟩

/-- Settles O30: each command by its own equation (`exec_ringEnable_host` to `exec_headPublish_due`), read in the ring's registers and its
own state. That a ring that is enabled again starts with no entries is the model's choice (log 267). -/
theorem rings : Obligations.Rings := by
  refine ⟨?_, ?_, ?_, ?_, ?_, ?_, ?_, ?_, ?_, ?_⟩
  · intro ix s hb hen hst hsize hsp hwb
    have hsent := sendChecks_sends (s.setBit (insRingCtl ix) 31 true) ix 1 (s.ringBase ix) (s.ringUnits ix * 32) true
    have hout := sendChecks_host_out (s.setBit (insRingCtl ix) 31 true) ix (s.ringBase ix) (s.ringUnits ix * 32) true
    refine ⟨_, exec_ringEnable_host hb hen hst hsize hsp hwb, ringState_setRing _ _ _ (by omega), ?_, ?_, ?_, ?_, ?_, ?_⟩
    · rw [bit_setRing_ctl, State.bit, State.fld, reg_setN, if_neg (insRingTail_ne_ctl ix).symm, reg_congr (setInst_regs _ _ _),
        reg_congr hsent.regs]
      exact bit_setBit_self _ _ _ _ (by omega)
    · rw [State.nreg, reg_setRing_ne _ _ _ _ (insRingTail_ne_status ix), reg_setN, if_pos rfl, BitVec.toNat_ofNat]
    · rw [inst_setRing, inst_setN, inst_setInst_self, hsent.inst, inst_setBit, Inst.park]
    · rw [inst_setRing, inst_setN, inst_setInst_self]
    · rw [inst_setRing, inst_setN, inst_setInst_self, Inst.park]
    · rw [setRing_out, setN_out, setInst_out, hout, setBit_out]
  · intro ix s hen hst
    refine ⟨_, exec_ringDisable_stopped hen hst, ringState_setRing _ _ _ (by omega), ?_⟩
    rw [bit_setRing_ctl, State.bit, State.fld, reg_congr (setInst_regs _ _ _), stopInst_reg _ _ _ (insRingCtl_ne_ovf ix)]
    exact bit_setBit_self _ _ _ _ (by omega)
  · intro ix j s hen hst hj hf hstop
    cases he : (s.inst ix).eng with
    | some e =>
      obtain ⟨t, ht, hring, hunits, hjob⟩ := ringDisable_unfinished (j' := { j with stop := some stEngAborted }) hen hst
        (by rw [stopJob_running hj hf hstop (by rw [he]; rfl)])
      exact ⟨t, ht, hring, hunits, fun _ => hjob, nofun⟩
    | none =>
      obtain ⟨t, ht, hring, hunits, hjob⟩ := ringDisable_unfinished (j' := j.ended stEngAborted) hen hst
        (by rw [stopJob_resting hj hf hstop he])
      exact ⟨t, ht, hring, hunits, nofun, fun _ => hjob⟩
  · intro ix tail s hst hunits hstep
    refine ⟨_, exec_insDoorbellWrite_good hst hunits hstep, by simp, reg_setReg_self _ _ _, ?_⟩
    exact (ringState_of_reg (reg_setReg_ne _ _ (insRingTail_ne_status ix).symm)).trans hst
  · intro ix tail s hst hover
    exact ⟨_, exec_insDoorbellWrite_over hst hover, ringError_state _ _ _, ringError_cause _ _ (by omega), by rw [ringError_inst]⟩
  · intro ix tail s hst
    exact exec_insDoorbellWrite_stopped hst
  · intro ix b s hst htail hshare href hlen
    refine ⟨_, exec_ringUnitFetch_room hst htail hshare href hlen, by simp, (engLine_sends _ _ _ _ _ _ _).regs, fun hsp => ?_⟩
    rw [hsp]
    rfl
  · intro ix s href hj
    exact ⟨_, exec_refetch_idle href hj, inst_setInst_self _ _ _, setInst_regs _ _ _⟩
  · intro ix s hdue good
    exact exec_headPublish_early hdue good
  · intro ix s hdue hh
    exact ⟨_, exec_headPublish_due hdue, by rw [publish_head, Nat.mod_eq_of_lt hh], by rw [publish_inst]⟩

end Sys2Proof.Machine
end

section
namespace Sys2Proof.Machine

/-! ### An entry begins -/

/-- The job of a ring's next entry, of bytes `b` (R181). -/
def Inst.nextJob (x : Inst) (b : List Byte) (num : Nat) : Job := { pos := x.x, bytes := b, num := num }

/-- The ring whose next entry, of bytes `b`, has begun as number `num`; `job`: its job now (R179, R181). -/
def Inst.begun (x : Inst) (b : List Byte) (num : Nat) (job : Option Job) : Inst :=
  { x with
    units := x.units.drop (b.length / 32)
    x := (x.x + b.length / 32) % 2 ^ 32
    ents := x.ents ++ [{ pos := x.x, n := b.length / 32, job := num, irq := decide (byteAt b 1 / 64 % 2 = 1) }]
    job := job }

/-- The job with the slices that its operands touch, and its first reads (R176, R201). -/
def Job.noting (j : Job) (hit : List Nat) (todo : List (Nat × Nat × Nat)) (n : Nat) : Job := { j with hit := hit, rdTodo := todo, rdOut := n }

theorem beginJob_inst (s : State) (i : Nat) (b : List Byte) (fin : Option (Nat × Nat)) :
    (s.beginJob i b fin).inst i = (s.inst i).begun b s.eng.jobs (some { (s.inst i).nextJob b s.eng.jobs with fin := fin }) := by
  unfold State.beginJob
  dsimp only
  split
  · rw [inst_cnt64, inst_setReg, inst_setInst_self]
    rfl
  · rw [inst_setInst_self]
    rfl

theorem engDenied_direct {s : State} {i op : Nat} (hleg : s.insLegacy i = false) (hop : op ≠ 0x10) : s.engDenied i op = false := by
  simp [State.engDenied, hleg, hop]

section StartEntry
variable {s : State} {i op off : Nat} {chg : List Byte → Nat} {ops : List Byte → List Opnd} {ext : List (Nat × Nat × Nat)}
  {go : State → List Byte → State} {bad : List Byte → Option Nat}

/-- A bad format ends the entry at its first offending field (R187). -/
theorem startEntry_badFormat (hs : s.canStart i = true) (hop : byteAt (s.inst i).entry 0 = op)
    (hf : formatErr (s.insLegacy i) (s.inst i).entry = some off) (hbad : bad (s.inst i).entry = none) :
    s.startEntry i op chg ops ext go bad = s.beginJob i (s.inst i).entry (some (stEngFormat, off)) := by
  unfold State.startEntry
  simp [hs, hop, hf, hbad]

/-- An entry whose checks all pass: its action runs, the slices that it touches are noted, its first step begins (R185, R201). -/
theorem startEntry_passed (hs : s.canStart i = true) (hleg : s.insLegacy i = false) (hrej : s.insReject i = false) (hperm : op ≠ 0x10)
    (hop : byteAt (s.inst i).entry 0 = op) (hf : formatErr false (s.inst i).entry = none) (hbad : bad (s.inst i).entry = none)
    (hchk : s.opndCheck i (ops (s.inst i).entry) ext = none) :
    s.startEntry i op chg ops ext go bad = ((go (s.checkOpnds i (ops (s.inst i).entry)) (s.inst i).entry).inJob i
      (fun j => { j with hit := j.hit ++ s.opndSlices i (ops (s.inst i).entry) })).beginStep i := by
  unfold State.startEntry
  simp [hs, hleg, hrej, hop, hf, hbad, hchk, engDenied_direct hleg hperm]

/-- The job that the entry's action leaves, with its slices and its first reads. -/
theorem startEntry_job {x : Inst} {num : Nat} {j : Job} (hs : s.canStart i = true) (hleg : s.insLegacy i = false) (hrej : s.insReject i = false)
    (hperm : op ≠ 0x10) (hop : byteAt (s.inst i).entry 0 = op) (hf : formatErr false (s.inst i).entry = none)
    (hbad : bad (s.inst i).entry = none) (hchk : s.opndCheck i (ops (s.inst i).entry) ext = none)
    (hgo : ∀ t, Sends s t → (go t (s.inst i).entry).inst i = x.begun (s.inst i).entry num (some j)) : ∃ hit todo n,
      (s.startEntry i op chg ops ext go bad).inst i = x.begun (s.inst i).entry num (some (j.noting hit todo n)) := by
  rw [startEntry_passed hs hleg hrej hperm hop hf hbad hchk]
  obtain ⟨todo, n, h⟩ := (beginStep_reads ((go (s.checkOpnds i (ops (s.inst i).entry)) (s.inst i).entry).inJob i
    (fun j => { j with hit := j.hit ++ s.opndSlices i (ops (s.inst i).entry) })) i).self
  refine ⟨j.hit ++ s.opndSlices i (ops (s.inst i).entry), todo, n, ?_⟩
  rw [h, inJob_inst, hgo _ (checkOpnds_sends _ _ _)]
  rfl

end StartEntry

/-- The job that a ready entry begins with: its own values, as the operation starts from them (R181, R189, R190). -/
theorem entryReady_begins {s : State} {ix : InstIx} {op : Nat} {ext : List (Nat × Nat × Nat)} {go : State → List Byte → State} (f : Job → Job)
    (h : s.entryReady ix op ext) (hop : op ≠ 0x10)
    (hgo : ∀ t, ((go t (s.inst ix).entry).inst ix) = ((t.beginJob ix (s.inst ix).entry none).inJob ix f).inst ix)
    (hf : ∀ j, (f j).bytes = j.bytes ∧ (f j).pos = j.pos ∧ (f j).fin = j.fin ∧ (f j).prog = j.prog) :
    ∃ hit todo n, s.jobBegun (s.startEntry ix op jobCharge opnds ext go) ix
      ((f ((s.inst ix).nextJob (s.inst ix).entry s.eng.jobs)).noting hit todo n) := by
  obtain ⟨hs, hleg, hrej, hfmt, hchk, hentry⟩ := h
  obtain ⟨hb, hp, hfin, hprog⟩ := hf ((s.inst ix).nextJob (s.inst ix).entry s.eng.jobs)
  obtain ⟨hit, todo, n, hend⟩ := startEntry_job (chg := jobCharge) (ops := opnds) (go := go) (bad := fun _ => none) (x := s.inst ix)
    (num := s.eng.jobs) (j := f ((s.inst ix).nextJob (s.inst ix).entry s.eng.jobs)) hs hleg hrej hop hentry hfmt rfl hchk
    (fun t ht => by rw [hgo t, inJob_inst, beginJob_inst, ht.inst, ht.eng]; rfl)
  refine ⟨hit, todo, n, ?_⟩
  unfold State.jobBegun
  rw [hend]
  exact ⟨rfl, hb, hp, hfin, hprog, rfl, rfl⟩

/-- COPY, FILL and COMPARE begin with the entry's own job. -/
theorem entryReady_plain {s : State} {ix : InstIx} {op : Nat} {ext : List (Nat × Nat × Nat)} (h : s.entryReady ix op ext) (hop : op ≠ 0x10) :
    ∃ j, s.jobBegun (s.startEntry ix op jobCharge opnds ext (fun t b => t.beginJob ix b none)) ix j := by
  obtain ⟨hit, todo, n, hj⟩ := entryReady_begins (go := fun t b => t.beginJob ix b none) id h hop
    (fun t => by rw [inJob_inst, Option.map_id_fun, id]) (fun _ => ⟨rfl, rfl, rfl, rfl⟩)
  exact ⟨_, hj⟩

/-! ### A hamper's entry -/

/-- A HAMPER whose checks have passed: its record is being fetched, its entry has begun, its charge is taken (R193, R213). -/
def State.hamperBegun (t : State) (i : Nat) (b : List Byte) (len : Nat) : State :=
  let t0 := t.each (lineSpans (leAt b 16 8) len) (fun y z => z.engLine i (byteAt b 24) 3 y.1 y.2 none)
  let t1 := t0.beginJob i b none
  if t.insLegacy i then t1 else t1.insCharge i len

/-- Its entry stands open, and the ring has no job (R193). -/
def State.hamperOpened (t : State) (i : Nat) (b : List Byte) (len : Nat) : State :=
  let t1 := t.hamperBegun i b len
  let x := t1.inst i
  t1.setInst i { x with job := none, ents := x.ents.map (fun (e : REnt) => if e.job = t.eng.jobs then ({ e with opn := true } : REnt) else e) }

theorem hamperOpened_settled (t : State) (i : Nat) (b : List Byte) (len : Nat) : ((t.hamperOpened i b len).inst i).settled = true := by
  rw [State.hamperOpened, inst_setInst_self]
  rfl

theorem hamperOpened_job (t : State) (i : Nat) (b : List Byte) (len : Nat) : ((t.hamperOpened i b len).inst i).job = none := by
  rw [State.hamperOpened, inst_setInst_self]

theorem hamperBegun_ents (t : State) (i : Nat) (b : List Byte) (len : Nat) : ((t.hamperBegun i b len).inst i).ents =
    (t.inst i).ents ++ [{ pos := (t.inst i).x, n := b.length / 32, job := t.eng.jobs, irq := decide (byteAt b 1 / 64 % 2 = 1) }] := by
  have hsent : Sends t (t.each (lineSpans (leAt b 16 8) len) (fun y z => z.engLine i (byteAt b 24) 3 y.1 y.2 none)) :=
    .each (fun _ z => engLine_sends z _ _ _ _ _ _) _ t
  unfold State.hamperBegun
  extract_lets t0 t1
  have h1 : t1.inst i = (t.inst i).begun b t.eng.jobs (some ((t.inst i).nextJob b t.eng.jobs)) := by
    rw [beginJob_inst, hsent.inst, hsent.eng]
    rfl
  split
  · rw [h1, Inst.begun]
  · rw [State.insCharge, inst_setInst_self, h1, Inst.begun]

/-- The entry stands open in the ring, under the job's number. -/
theorem hamperOpened_entry (t : State) (i : Nat) (b : List Byte) (len : Nat) :
    ∃ e ∈ ((t.hamperOpened i b len).inst i).ents, e.job = t.eng.jobs ∧ e.opn = true ∧ e.pos = (t.inst i).x := by
  refine ⟨{ pos := (t.inst i).x, n := b.length / 32, job := t.eng.jobs, irq := decide (byteAt b 1 / 64 % 2 = 1), opn := true }, ?_, rfl, rfl, rfl⟩
  rw [State.hamperOpened, inst_setInst_self, hamperBegun_ents]
  simp

theorem outcome_eng (s : State) (src : HSrc) (r : List Byte) : (s.outcome src r).eng = s.eng := by
  unfold State.outcome
  split
  · dsimp only
    split <;> rfl
  · rfl
  · rfl

theorem outcome_out (s : State) (src : HSrc) (r : List Byte) : (s.outcome src r).out = s.out := by
  unfold State.outcome
  split
  · dsimp only
    split <;> rfl
  · rfl
  · rfl

theorem originFail_keepsJobs (s : State) (port : Option Nat) (fid reason off : Nat) : KeepsJobs s (s.originFail port fid reason off) := by
  unfold State.originFail
  dsimp only
  split
  · exact .of_eng (by rw [raiseLim_eng, cnt_eng]) (by rw [raiseLim_out, cnt_out]; exact List.Subset.refl _)
  · exact .of_eng (raiseLim_eng _ _ _ _) (by rw [raiseLim_out]; exact List.Subset.refl _)

theorem KeepsJobs.each {α : Type} {f : α → State → State} (h : ∀ a t, KeepsJobs t (f a t)) (l : List α) (s : State) : KeepsJobs s (s.each l f) := by
  induction l generalizing s with
  | nil => exact .refl s
  | cons a r ih => exact (h a s).trans (ih (f a s))

theorem inHmp_keepsJobs (s : State) (f : HmpS → HmpS) : KeepsJobs s (s.inHmp f) := .of_eng rfl (List.Subset.refl _)

theorem addPart_keepsJobs (s : State) (p : HPart) : KeepsJobs s (s.addPart p) := by
  unfold State.addPart
  exact inHmp_keepsJobs s _

theorem outcome_keepsJobs (s : State) (src : HSrc) (r : List Byte) : KeepsJobs s (s.outcome src r) :=
  .of_eng (outcome_eng s src r) (by rw [outcome_out]; exact List.Subset.refl _)

/-- A submission concerns the hampers, not the rings (R107, R109). -/
theorem hmpSubmit_keepsJobs (s : State) (src : HSrc) (acting v : Nat) (legacy : Bool) (port : Option Nat) (b : List Byte) :
    KeepsJobs s (s.hmpSubmit src acting v legacy port b) := by
  unfold State.hmpSubmit
  extract_lets user me refuse n es dec home lines homes cross crossAny tag key lim o s1
  have h1 : KeepsJobs s s1 := (setReg_keepsJobs s _ _).trans ((cnt64_keepsJobs _ _ _).trans (inHmp_keepsJobs _ _))
  have hrefuse : ∀ t st f, KeepsJobs t (refuse t st f) := fun t st f =>
    (cnt64_keepsJobs t _ _).trans (outcome_keepsJobs _ _ _)
  clear_value refuse lines cross crossAny homes s1
  split
  · exact hrefuse _ _ _
  split
  · exact hrefuse _ _ _
  split
  · exact hrefuse _ _ _
  split
  · exact hrefuse _ _ _
  split
  · exact (originFail_keepsJobs _ _ _ _ _).trans (hrefuse _ _ _)
  split
  · exact hrefuse _ _ _
  split
  · exact hrefuse _ _ _
  split
  · exact hrefuse _ _ _
  · refine h1.trans (.each (fun h t => ?_) _ _)
    dsimp only
    split
    · exact addPart_keepsJobs t _
    · exact (Sends.emit t _).keepsJobs

/-- Without a job there is none to change. -/
theorem inJob_keepsJobs {s : State} {i : Nat} (h : (s.inst i).job = none) (f : Job → Job) : KeepsJobs s (s.inJob i f) :=
  .setInst ⟨rfl, fun _ => by rw [h]; rfl⟩

/-- The open entry's record is counted and submitted, and the ring's engine goes on (R193). -/
def State.hamperLeft (t : State) (i : Nat) (b : List Byte) (len : Nat) (rec : List Byte) : State :=
  let host := t.insHost i
  let v := match t.vcsOfHost host with | some x => x.1 | none => 96
  let u := t.hamperOpened i b len
  let u1 := match ((t.hamperBegun i b len).inst i).eng with
    | some e => (((u.setReg (engEState e) 0).cnt64 (engEByteCnt e) len).cnt64 engByteCnt len).pmcEng i 0x0D len
    | none => u
  (u1.hmpSubmit (.engine i t.eng.jobs) host v (t.insLegacy i) none rec).boundary i

theorem hamperLeft_keepsJobs (t : State) (i : Nat) (b : List Byte) (len : Nat) (rec : List Byte) :
    KeepsJobs (t.hamperOpened i b len) (t.hamperLeft i b len rec) := by
  refine KeepsJobs.trans ?_ ((hmpSubmit_keepsJobs _ _ _ _ _ _ _).trans (boundary_keepsJobs _ _))
  split
  · exact (setReg_keepsJobs _ _ _).trans ((cnt64_keepsJobs _ _ _).trans ((cnt64_keepsJobs _ _ _).trans (pmcEng_keepsJobs _ _ _ _)))
  · exact .refl _

/-- A HAMPER whose checks pass opens its entry and submits its record (R193). -/
theorem exec_hamper_passed {ix : InstIx} {rec : List Byte} {ext : List (Nat × Nat × Nat)} {s : State} (hs : s.canStart ix = true)
    (hleg : s.insLegacy ix = false) (hrej : s.insReject ix = false) (hf : formatErr false (s.inst ix).entry = none)
    (hop : byteAt (s.inst ix).entry 0 = 0x11) (hlen : 32 + 80 * byteAt rec 1 ≤ rec.length)
    (hend : leAt (s.inst ix).entry 16 8 + (32 + 80 * byteAt rec 1) ≤ 2 ^ 64)
    (hchk : s.opndCheck ix [⟨1, byteAt (s.inst ix).entry 24, leAt (s.inst ix).entry 16 8, 32 + 80 * byteAt rec 1, false⟩] ext = none) :
    ∃ u f, Sends s u ∧ exec (.hamper ix rec ext) s =
      .next (((u.hamperLeft ix (s.inst ix).entry (32 + 80 * byteAt rec 1) rec).inJob ix f).beginStep ix) := by
  rw [show exec (.hamper ix rec ext) s = execHamper ix rec ext s from rfl, execHamper]
  dsimp only
  rw [if_neg (Nat.not_lt.mpr hlen), startEntry_passed hs hleg hrej (by omega) hop hf (if_neg (Nat.not_lt.mpr hend)) hchk]
  unfold State.hamperLeft State.hamperOpened State.hamperBegun
  exact ⟨_, _, checkOpnds_sends _ _ _, rfl⟩

/-- A HAMPER entry stands open once its record is submitted, and the ring goes on without a job (R193). -/
theorem hamper_opens {s u : State} {i len : Nat} {rec b : List Byte} (f : Job → Job) (hu : Sends s u) :
    ∃ t, t = ((u.hamperLeft i b len rec).inJob i f).beginStep i ∧ (t.inst i).job = none ∧
      ∃ x ∈ (t.inst i).ents, x.job = s.eng.jobs ∧ x.opn = true ∧ x.pos = (s.inst i).x := by
  have hleft := hamperLeft_keepsJobs u i b len rec
  have hjob := (hleft.job (hamperOpened_settled u i b len)).trans (hamperOpened_job u i b len)
  have hall := (hleft.trans (inJob_keepsJobs hjob f)).trans (beginStep_keepsJobs _ i)
  obtain ⟨x, hx, hnum, hopn, hpos⟩ := hamperOpened_entry u i b len
  refine ⟨_, rfl, ?_, x, ?_, by rw [hnum, hu.eng], hopn, by rw [hpos, hu.inst]⟩
  · exact (hall.job (hamperOpened_settled u i b len)).trans (hamperOpened_job u i b len)
  · rw [(hall.inst i).1]
    exact hx

/-! ### Checks at the home -/

theorem homeFail_home (s : State) (fid sl off reason : Nat) : (s.homeFail fid sl off reason).home = s.home := by
  unfold State.homeFail
  dsimp only
  rw [raiseLim_home]
  split
  · exact cnt_home _ _ _
  · rw [setN_home, setN_home, setN_home, cnt_home]

section Check
variable {fid : Fid} {tag : Word} {sl : SliceIx} {off : BitVec 22} {rights : BitVec 2} {len : BitVec 64} {s : State}

theorem exec_check_passed (hlen : off.toNat * 64 + len.toNat ≤ 2 ^ 28) (hst : (s.slice sl).state ≠ 5)
    (hr : s.homeReason fid sl (rights.getLsbD 1) = none) : exec (.check fid tag sl off rights len) s =
      .next (s.emit (.fabMsg (24 + s.laBank (sl.val * 2 ^ 22 + off.toNat)) fid 2 tag.toNat [0, 0, 0] none)) := by
  rw [show exec (.check fid tag sl off rights len) s = execCheck fid tag sl off rights len s from rfl, execCheck]
  rw [if_neg (Nat.not_lt.mpr hlen), if_neg hst, hr]

theorem exec_check_failed {r : Nat} (hlen : off.toNat * 64 + len.toNat ≤ 2 ^ 28) (hst : (s.slice sl).state ≠ 5)
    (hr : s.homeReason fid sl (rights.getLsbD 1) = some r) : exec (.check fid tag sl off rights len) s =
      .next ((s.homeFail fid sl (off.toNat * 64) r).emit (.fabMsg (24 + s.laBank (sl.val * 2 ^ 22 + off.toNat)) fid 2 tag.toNat [3, r, 0] none)) := by
  rw [show exec (.check fid tag sl off rights len) s = execCheck fid tag sl off rights len s from rfl, execCheck]
  rw [if_neg (Nat.not_lt.mpr hlen), if_neg hst, hr]

end Check

/-- Settles O27: an entry that is ready begins its job (`entryReady_begins`), NOP and a bad format end it at once (`startEntry_job`,
`startEntry_badFormat`), a HAMPER stays open (`hamper_opens`), CHECK answers by the home's reason. That the format is
judged before permission, rate and operands is deduced (log 119). -/
theorem entriesStart : Obligations.EntriesStart := by
  refine ⟨?_, ?_, ?_, ?_, ?_, ?_, ?_, ?_, ?_, ?_⟩
  · intro ix ext s h
    obtain ⟨j, hj⟩ := entryReady_plain h (by decide)
    exact ⟨_, j, rfl, hj⟩
  · intro ix ext s h
    obtain ⟨j, hj⟩ := entryReady_plain h (by decide)
    exact ⟨_, j, rfl, hj⟩
  · intro ix ext s h
    obtain ⟨j, hj⟩ := entryReady_plain h (by decide)
    exact ⟨_, j, rfl, hj⟩
  · intro ix ext s h
    obtain ⟨hit, todo, n, hj⟩ := entryReady_begins
      (go := fun t b => (t.beginJob ix b none).inJob ix (fun j => { j with crc := leAt b 24 4 }))
      (fun j => { j with crc := leAt (s.inst ix).entry 24 4 }) h (by decide) (fun _ => rfl)
      (fun _ => ⟨rfl, rfl, rfl, rfl⟩)
    exact ⟨_, _, rfl, hj, rfl⟩
  · intro ix ext s h
    obtain ⟨hit, todo, n, hj⟩ := entryReady_begins
      (go := fun t b => (t.beginJob ix b none).inJob ix (fun j => { j with acc := accIn b }))
      (fun j => { j with acc := accIn (s.inst ix).entry }) h (by decide) (fun _ => rfl)
      (fun _ => ⟨rfl, rfl, rfl, rfl⟩)
    exact ⟨_, _, rfl, hj, rfl⟩
  · intro ix ext s hs hleg hrej hf hop
    have hchk : s.opndCheck ix (opnds (s.inst ix).entry) ext = none := by simp [opnds, hop, State.opndCheck]
    obtain ⟨hit, todo, n, hend⟩ := startEntry_job (chg := jobCharge) (bad := fun _ => none) (go := fun t b => t.beginJob ix b (some (stOk, 0)))
      hs hleg hrej (by decide) hop hf rfl hchk (fun t ht => by rw [beginJob_inst, ht.inst, ht.eng])
    exact ⟨_, _, rfl, by rw [hend]; rfl, rfl, rfl⟩
  · intro ix ext off s hs hf hop
    refine ⟨_, _, congrArg Host.Outcome.next (startEntry_badFormat hs hop hf rfl), by rw [beginJob_inst]; rfl, rfl⟩
  · intro ix rec ext s hs hleg hrej hf hop hlen hend hchk
    obtain ⟨u, f, hu, hexec⟩ := exec_hamper_passed hs hleg hrej hf hop hlen hend hchk
    obtain ⟨t, ht, hjob, x, hx, hnum, hopn, hpos⟩ := hamper_opens f hu
    exact ⟨t, x, by rw [hexec, ht], hjob, hx, hnum, hopn, hpos⟩
  · intro fid tag sl off rights len s hlen hst hr
    exact exec_check_passed hlen hst hr
  · intro fid tag sl off rights len r s hlen hst hr
    exact ⟨_, exec_check_failed hlen hst hr, mem_emit_out _ _, homeFail_home _ _ _ _ _⟩

end Sys2Proof.Machine
end

section
namespace Sys2Proof.Machine

/-! ### The lines of a write -/

/-- The spans of a range lie in it. -/
theorem lineSpans_bounds {addr len : Nat} {y : Nat × Nat} (h : y ∈ lineSpans addr len) : addr ≤ y.1 ∧ y.1 + y.2 ≤ addr + len := by
  obtain ⟨k, hk, rfl⟩ := List.mem_map.mp h
  have hk := List.mem_range.mp hk
  simp only [ceilDiv, OfNat.ofNat_ne_zero, if_false] at hk
  dsimp only
  split <;> omega

/-- The line of a pooled address at a remote home does not depend on what is sent. -/
theorem Sends.remoteLine {s t : State} (h : Sends s t) (i space addr : Nat) : t.remoteLine i space addr = s.remoteLine i space addr := by
  rw [h.rest]
  rfl

section EngLine
variable {s : State} {i space addr len : Nat} {b : List Byte}

/-- A line that no remote home keeps is written where it is (R177). -/
theorem engLine_local (cls : Nat) (h : s.remoteLine i space addr = none) :
    s.engLine i space cls addr len (some b) = s.emit (.engWrite i space addr b) := by
  unfold State.remoteLine at h
  unfold State.engLine
  dsimp only [Option.isSome_some]
  split
  · rfl
  · next hs =>
    rw [if_neg hs] at h
    split
    · next hm =>
      rw [hm] at h
      dsimp only at h
      split
      · next hr => rw [hr] at h; cases h
      · rfl
    · rfl

/-- A line at a remote home leaves as a request toward it, NCW, with its bytes in place (R176, R177, R229). -/
theorem engLine_remote (cls : Nat) {f sl o : Nat} (h : s.remoteLine i space addr = some (f, sl, o)) : ∃ tag,
    Out.engCreq i f tag cls 7 0 sl (o / 64) (2 ^ (o % 64 + len) - 2 ^ (o % 64))
      (List.replicate (o % 64) 0 ++ b ++ List.replicate (64 - o % 64 - b.length) 0) ∈ (s.engLine i space cls addr len (some b)).out := by
  unfold State.remoteLine at h
  unfold State.engLine
  dsimp only [Option.isSome_some]
  split at h
  · cases h
  · next hs =>
    rw [if_neg hs]
    split at h
    · next e o' _ =>
      obtain ⟨f', hr, heq⟩ := Option.map_eq_some_iff.mp h
      cases heq
      have ho : o' % 2 ^ 28 % 64 = o' % 64 := Nat.mod_mod_of_dvd _ (by decide)
      rw [hr, ho]
      refine ⟨s.lnk.nextTag, ?_⟩
      simp [State.engRemote, State.emit, b2n]
    · cases h

end EngLine

section EngLines
variable {s : State} {i space addr : Nat} {b : List Byte} {y : Nat × Nat}

theorem mem_engLines_local (hy : y ∈ lineSpans addr b.length) (h : s.remoteLine i space y.1 = none) :
    Out.engWrite i space y.1 ((b.drop (y.1 - addr)).take y.2) ∈ (s.engLines i space 6 addr b).out := by
  obtain ⟨u, hu, hend⟩ := Sends.each_at (f := fun x t => t.engLine i space 6 x.1 x.2 (some ((b.drop (x.1 - addr)).take x.2)))
    (fun x t => engLine_sends t _ _ _ _ _ _) hy s
  refine hend.out ?_
  rw [engLine_local 6 ((hu.remoteLine i space y.1).trans h)]
  exact mem_emit_out _ _

theorem mem_engLines_remote {f sl o : Nat} (hy : y ∈ lineSpans addr b.length) (h : s.remoteLine i space y.1 = some (f, sl, o)) : ∃ tag,
    Out.engCreq i f tag 6 7 0 sl (o / 64) (2 ^ (o % 64 + y.2) - 2 ^ (o % 64))
      (List.replicate (o % 64) 0 ++ (b.drop (y.1 - addr)).take y.2 ++ List.replicate (64 - o % 64 - ((b.drop (y.1 - addr)).take y.2).length) 0) ∈
        (s.engLines i space 6 addr b).out := by
  obtain ⟨u, hu, hend⟩ := Sends.each_at (f := fun x t => t.engLine i space 6 x.1 x.2 (some ((b.drop (x.1 - addr)).take x.2)))
    (fun x t => engLine_sends t _ _ _ _ _ _) hy s
  obtain ⟨tag, htag⟩ := engLine_remote 6 ((hu.remoteLine i space y.1).trans h)
  exact ⟨tag, hend.out htag⟩

/-- A job's write sends its lines, whatever fetched entries it discards (R184). -/
theorem engLines_subset_engData (hb : b ≠ []) : (s.engLines i space 6 addr b).out ⊆ (s.engData i space addr b).out := by
  unfold State.engData
  rw [if_neg (by simpa using hb)]
  dsimp only
  split
  · exact List.Subset.refl _
  split
  · exact List.Subset.refl _
  · rw [cnt64_out, setInst_out]
    exact List.Subset.refl _

end EngLines

/-! ### The work of a step -/

/-- The bytes that a FILL writes at an address (R189). -/
def Job.pattern (j : Job) (addr n : Nat) : List Byte := (List.range n).map (fun k => j.bytes.getD (24 + (addr + k) % 8) 0)

theorem pattern_length (j : Job) (addr n : Nat) : (j.pattern addr n).length = n := by simp [Job.pattern]

theorem pattern_span (j : Job) {addr n a m : Nat} (ha : addr ≤ a) (hm : a + m ≤ addr + n) :
    ((j.pattern addr n).drop (a - addr)).take m = j.pattern a m := by
  refine List.ext_getElem (by simp [Job.pattern]; omega) (fun k _ _ => ?_)
  simp only [Job.pattern, List.getElem_take, List.getElem_drop, List.getElem_map, List.getElem_range]
  rw [show addr + (a - addr + k) = a + k by omega]

/-- A line of a FILL's write: at its place, or at its remote home (R177, R189). -/
theorem engData_pattern_line {s : State} {i space addr n : Nat} {j : Job} {y : Nat × Nat} (hn : 0 < n) (hy : y ∈ lineSpans addr n) :
    (s.remoteLine i space y.1 = none → Out.engWrite i space y.1 (j.pattern y.1 y.2) ∈ (s.engData i space addr (j.pattern addr n)).out) ∧
    (∀ f sl o, s.remoteLine i space y.1 = some (f, sl, o) → ∃ tag,
      Out.engCreq i f tag 6 7 0 sl (o / 64) (2 ^ (o % 64 + y.2) - 2 ^ (o % 64))
        (List.replicate (o % 64) 0 ++ j.pattern y.1 y.2 ++ List.replicate (64 - o % 64 - y.2) 0) ∈
          (s.engData i space addr (j.pattern addr n)).out) := by
  obtain ⟨hlo, hhi⟩ := lineSpans_bounds hy
  have hspan := pattern_span j hlo hhi
  have hline : y ∈ lineSpans addr (j.pattern addr n).length := by rwa [pattern_length]
  have hsent := engLines_subset_engData (s := s) (i := i) (space := space) (addr := addr) (b := j.pattern addr n)
    (List.ne_nil_of_length_pos (by rwa [pattern_length]))
  refine ⟨fun hl => ?_, fun f sl o hr => ?_⟩
  · have hm := mem_engLines_local hline hl
    rw [hspan] at hm
    exact hsent hm
  · obtain ⟨tag, hm⟩ := mem_engLines_remote hline hr
    rw [hspan, pattern_length] at hm
    exact ⟨tag, hsent hm⟩

theorem stepBytes_direct {s : State} {i : Nat} (hleg : s.insLegacy i = false) (j : Job) :
    s.stepBytes i j = min (s.stepKib * 1024) (leAt j.bytes 32 8 - j.prog) := by
  simp [State.stepBytes, hleg]

section StepWork
variable {s : State} {i : Nat} {j : Job}

/-- The last step of a FILL (R189). -/
theorem stepWork_fill_last (rd : List (List Byte)) (hop : byteAt j.bytes 0 = 0x02) (hleg : s.insLegacy i = false)
    (hlt : j.prog < leAt j.bytes 32 8) (hlast : leAt j.bytes 32 8 - j.prog ≤ s.stepKib * 1024) :
    s.stepWork i j rd false = some (s.engData i (byteAt j.bytes 40 / 4 % 4) (leAt j.bytes 16 8 + j.prog)
      (j.pattern (leAt j.bytes 16 8 + j.prog) (leAt j.bytes 32 8 - j.prog)), { j with prog := leAt j.bytes 32 8, fin := some (stOk, 0) },
      leAt j.bytes 32 8 - j.prog) := by
  have hn : s.stepBytes i j = leAt j.bytes 32 8 - j.prog := by rw [stepBytes_direct hleg, Nat.min_eq_right hlast]
  have hprog : j.prog + (leAt j.bytes 32 8 - j.prog) = leAt j.bytes 32 8 := by omega
  simp [State.stepWork, hop, hn, hprog, Job.pattern]

/-- A COMPARE ends at the first unequal byte of its step (R189). -/
theorem stepWork_compare_differs {a c : List Byte} {n k : Nat} (hop : byteAt j.bytes 0 = 0x03) (hn : s.stepBytes i j = n) (ha : n ≤ a.length)
    (hc : n ≤ c.length) (hk : k < n) (hne : a.getD k 0 ≠ c.getD k 0) (heq : ∀ m, m < k → a.getD m 0 = c.getD m 0) :
    s.stepWork i j [a, c] false = some (s, { j with fin := some (stEngMismatch, j.prog + k) }, 2 * n) := by
  have hfind : (List.range n).find? (fun k => a.getD k 0 != c.getD k 0) = some k := by
    rw [List.find?_range_eq_some]
    exact ⟨by simpa using hne, List.mem_range.mpr hk, fun m hm => by simpa using heq m hm⟩
  have hroom : ¬ (a.length < n ∨ c.length < n) := by omega
  simp only [State.stepWork, hop, hn, List.headD_cons, List.drop_succ_cons, List.drop_zero, Bool.false_eq_true, if_false, if_neg hroom, hfind]

/-- A COPY of which nothing was read writes nothing (R197). -/
theorem stepWork_copy_unread (hop : byteAt j.bytes 0 = 0x01) : s.stepWork i j [[]] true = some (s, j, 0) := by
  simp [State.stepWork, hop, State.engData]

end StepWork

/-! ### The end of a step -/

/-- The job after a step: a read that failed ends it with its operand's offset (R186). -/
def Job.judged (j : Job) (bad : Option (Bool × Nat)) : Job :=
  match j.fin, bad with
  | none, some (tmo, off) => { j with fin := some (if tmo then stEngTimeout else stEngPoison, off) }
  | _, _ => j

/-- The end of a step that ends its job as `j`, on engine `e`: what it used is counted, invalidations complete, the engine goes on (R186,
R197). -/
def State.stepEnded (s : State) (i e c : Nat) (j : Job) : State :=
  let s3 := ((s.cnt64 engByteCnt c).cnt64 (engEByteCnt e) c).pmcEng i 0x0D c
  let y := s3.inst i
  let s4 := (s3.atsEnd i).setInst i { y with job := some j, ats := 0 }
  let s5 := s4.boundary i
  if (s5.inst i).eng = some e then s5.beginStep i else s5

/-- The ended job stays as it is, and what was sent stays sent. -/
theorem stepEnded_job (s : State) (i e c : Nat) {j : Job} (hf : j.fin.isSome = true) :
    ((s.stepEnded i e c j).inst i).job = some j ∧ s.out ⊆ (s.stepEnded i e c j).out := by
  unfold State.stepEnded
  extract_lets s3 y s4 s5
  have h3 : KeepsJobs s s3 := (cnt64_keepsJobs _ _ _).trans ((cnt64_keepsJobs _ _ _).trans (pmcEng_keepsJobs _ _ _ _))
  have hj : (s4.inst i).job = some j := by simp only [s4, inst_setInst_self]
  have h4 : s3.out ⊆ s4.out := by
    simp only [s4, setInst_out]
    exact (atsEnd_sends s3 i).out
  have h5 := (boundary_keepsJobs s4 i).trans (.ite (c := (s5.inst i).eng = some e) (beginStep_keepsJobs s5 i) (.refl s5))
  refine ⟨(h5.job ?_).trans hj, fun m hm => h5.out (h4 (h3.out hm))⟩
  rw [Inst.settled, hj]
  exact hf

section StepBoundary
variable {ix : InstIx} {rd : List (List Byte)} {bad : Option (Bool × Nat)} {s s1 : State} {j j1 : Job} {e c : Nat}

theorem exec_jobStepBoundary_ended (hj : (s.inst ix).job = some j) (he : (s.inst ix).eng = some e) (hf : j.fin = none)
    (hw : (s.readsDone ix j).stepWork ix (j.reading [] 0) rd bad.isSome = some (s1, j1, c)) (hend : (j1.judged bad).fin.isSome = true) :
    exec (.jobStepBoundary ix rd bad) s = .next ((if s.insLegacy ix then s1 else s1.insCharge ix c).stepEnded ix e c (j1.judged bad)) := by
  rw [show exec (.jobStepBoundary ix rd bad) s = execJobStepBoundary ix rd bad s from rfl, execJobStepBoundary]
  dsimp only
  rw [hj, he]
  dsimp only
  rw [if_neg (by simp [hf]), show { j with rdTodo := [], rdOut := 0 } = j.reading [] 0 from rfl, hw]
  cases h1 : j1.fin with
  | some r =>
    simp only [Job.judged, h1] <;> rfl
  | none =>
    cases bad with
    | some x =>
      simp only [Job.judged, h1] <;> rfl
    | none => simp [Job.judged, h1] at hend

/-- A step that ends its job: the job stands as its work left it, and what was sent stays sent (R197). -/
theorem jobStepBoundary_ends (hj : (s.inst ix).job = some j) (he : (s.inst ix).eng = some e) (hf : j.fin = none)
    (hw : (s.readsDone ix j).stepWork ix (j.reading [] 0) rd bad.isSome = some (s1, j1, c)) (hend : (j1.judged bad).fin.isSome = true) :
    ∃ t, exec (.jobStepBoundary ix rd bad) s = .next t ∧ (t.inst ix).job = some (j1.judged bad) ∧ s1.out ⊆ t.out := by
  obtain ⟨hjob, hout⟩ := stepEnded_job (if s.insLegacy ix then s1 else s1.insCharge ix c) ix e c hend
  exact ⟨_, exec_jobStepBoundary_ended hj he hf hw hend, hjob,
    fun m hm => hout ((KeepsJobs.ite (.refl s1) (insCharge_keepsJobs s1 ix c)).out hm)⟩

end StepBoundary

/-! ### Completion -/

theorem engEState_ne_page {e i : Nat} (he : e < 64) (q : Nat) : pageBase i + q ≠ engEState e := by
  unfold pageBase engEState
  omega

/-- The ring's address registers after a write elsewhere than its page. -/
theorem unitAddr_setReg {s : State} {o i : Nat} {v : Word} (h : ∀ q, pageBase i + q ≠ o) (pos : Nat) :
    (s.setReg o v).unitAddr i pos = s.unitAddr i pos := by
  have hr : ∀ q, (s.setReg o v).reg (pageBase i + q) = s.reg (pageBase i + q) := fun q => reg_setReg_ne s v (h q)
  simp only [State.unitAddr, State.ringBase, State.reg64, State.ringUnits, State.fld, insRingBase, insRingCtl, Nat.add_assoc, hr]

theorem ringSpace_setReg {s : State} {o i : Nat} {v : Word} (h : ∀ q, pageBase i + q ≠ o) :
    (s.setReg o v).ringSpace i = s.ringSpace i := by
  rw [State.ringSpace, State.ringSpace, State.fld, State.fld, insRingCtl, reg_setReg_ne s v (h _)]

/-- The write-back leaves; of the rings and the hampers, counting changes nothing (R182, R200). -/
theorem jobBack_parts (s : State) (i pos st res : Nat) : (s.jobBack i pos st res).eng = s.eng ∧ (s.jobBack i pos st res).hmp = s.hmp ∧
    (s.jobBack i pos st res).out = s.out ++ [.engStatus i (s.ringSpace i) (s.unitAddr i pos) (toLe 1 st ++ [0x80]) (toLe 8 res)] := by
  unfold State.jobBack State.writeBack
  dsimp only
  split
  · rw [cnt64_eng, cnt64_hmp, cnt64_out, pmcEng_eng, pmcEng_hmp, pmcEng_out, cnt64_eng, cnt64_hmp, cnt64_out]
    exact ⟨rfl, rfl, rfl⟩
  · rw [pmcEng_eng, pmcEng_hmp, pmcEng_out, cnt64_eng, cnt64_hmp, cnt64_out]
    exact ⟨rfl, rfl, rfl⟩

theorem advance_job (x : Inst) (now : Tick) : (x.advance now).job = x.job := by
  unfold Inst.advance
  dsimp only
  split <;> rfl

theorem entryDone_job (s : State) (i num : Nat) : ((s.entryDone i num).inst i).job = (s.inst i).job := by
  rw [State.entryDone, inst_setInst_self, advance_job]

/-- A ring that settles publishes its head: its job, the hampers and what was sent are as they were (R180). -/
theorem ringSettle_keeps (s : State) (i : Nat) : ((s.ringSettle i).inst i).job = (s.inst i).job ∧ (s.ringSettle i).hmp = s.hmp ∧
    s.out ⊆ (s.ringSettle i).out := by
  unfold State.ringSettle
  dsimp only
  split
  · refine ⟨by rw [inst_setRing, publish_inst], ?_, ?_⟩
    · rw [State.setRing, setFld_hmp, setFld_hmp, publish_hmp]
    · rw [setRing_out]
      exact publish_out s i
  · exact ⟨rfl, rfl, List.Subset.refl _⟩

/-- A finished job's entry: written back, complete, and the ring settles (R182, R183). -/
def State.completed (s : State) (i pos num st res : Nat) : State := ((s.jobBack i pos st res).entryDone i num).ringSettle i

theorem completed_keeps (s : State) (i pos num st res : Nat) : ((s.completed i pos num st res).inst i).job = (s.inst i).job ∧
    (s.completed i pos num st res).hmp = s.hmp ∧
    Out.engStatus i (s.ringSpace i) (s.unitAddr i pos) (toLe 1 st ++ [0x80]) (toLe 8 res) ∈ (s.completed i pos num st res).out := by
  obtain ⟨heng, hhmp, hout⟩ := jobBack_parts s i pos st res
  obtain ⟨hjob, hsettled, hsent⟩ := ringSettle_keeps ((s.jobBack i pos st res).entryDone i num) i
  refine ⟨?_, hsettled.trans hhmp, hsent ?_⟩
  · rw [State.completed, hjob, entryDone_job, inst_congr heng]
  · show _ ∈ (s.jobBack i pos st res).out
    rw [hout]
    exact List.mem_append_right _ (List.mem_singleton.mpr rfl)

/-- A finished job is written back in its ring, and its engine's state word is cleared (R182). -/
theorem exec_jobComplete_good {ix : InstIx} {j : Job} {st res : Nat} {s : State} (hj : (s.inst ix).job = some j) (hf : j.fin = some (st, res))
    (hh : haltingStatus st = false) (he : ∀ e, (s.inst ix).eng = some e → e < 64) : ∃ u : State,
      exec (.jobComplete ix true) s = .next ((u.setInst ix { s.inst ix with job := none }).completed ix j.pos j.num st res) ∧
      u.ringSpace ix = s.ringSpace ix ∧ u.unitAddr ix j.pos = s.unitAddr ix j.pos := by
  refine ⟨match (s.inst ix).eng with | some e => s.setReg (engEState e) 0 | none => s, ?_, ?_⟩
  · rw [show exec (.jobComplete ix true) s = execJobComplete ix true s from rfl, execJobComplete]
    simp only [hj, hf, hh, Bool.not_true, Bool.false_and, Bool.false_eq_true, if_false] <;> rfl
  · cases heng : (s.inst ix).eng with
    | none => exact ⟨rfl, rfl⟩
    | some e => exact ⟨ringSpace_setReg (engEState_ne_page (he e heng)), unitAddr_setReg (engEState_ne_page (he e heng)) _⟩

/-! ### The outcome of a hamper's entry -/

section Outcome
variable {ix : InstIx} {num : Nat} {rec : List Byte} {e : REnt} {s : State}

theorem exec_hamperEntryOutcome_open (ho : s.hmp.engOut.find? (fun o => decide (o.1 = ix.val)) = some (ix.val, num, rec))
    (he : ((s.inst ix).ents ++ (s.inst ix).late).find? (fun e => decide (e.job = num) && e.opn) = some e) :
    ∃ u, Sends (s.inHmp (fun h => { h with engOut := h.engOut.erase (ix.val, num, rec) })) u ∧
      exec (.hamperEntryOutcome ix) s = .next (u.completed ix e.pos num (byteAt rec 0) 0) := by
  rw [show exec (.hamperEntryOutcome ix) s = execHamperEntryOutcome ix s from rfl, execHamperEntryOutcome, ho]
  dsimp only
  rw [he]
  exact ⟨_, .each (fun _ t => engLines_sends t _ _ _ _ _) _ _, rfl⟩

/-- A write-back that fails puts the ring into ERROR (R180). -/
theorem wbFailed_state (hst : s.ringState ix = 1) : (s.wbFailed ix num).ringState ix = 4 := by
  unfold State.wbFailed
  dsimp only
  rw [if_pos (.inl hst)]
  exact (ringState_of_reg (raiseLim_reg _ _ _ _ (insRingStatus_ne_ovf ix))).trans (ringState_setRing _ _ _ (by omega))

theorem exec_jobComplete_outcomeFails (ho : s.hmp.engOut.find? (fun o => decide (o.1 = ix.val)) = some (ix.val, num, rec))
    (he : ((s.inst ix).ents ++ (s.inst ix).late).find? (fun e => decide (e.job = num) && e.opn) = some e) (hj : (s.inst ix).job = none) :
    exec (.jobComplete ix false) s = .next ((s.inHmp (fun h => { h with engOut := h.engOut.erase (ix.val, num, rec) })).wbFailed ix num) := by
  have hany : ((s.inst ix).ents ++ (s.inst ix).late).any (fun e => decide (e.job = num) && e.opn) = true := by
    have hopen := List.find?_some he
    exact List.any_eq_true.mpr ⟨e, List.mem_of_find?_eq_some he, hopen⟩
  rw [show exec (.jobComplete ix false) s = execJobComplete ix false s from rfl, execJobComplete]
  dsimp only
  rw [hj]
  simp only [State.hamperWbFail, ho, hany, if_true, Bool.false_eq_true, if_false]

end Outcome

/-! ### ATS invalidations -/

section Ats
variable {ix : InstIx} {j : Job} {s : State}

theorem exec_atsInvalidation_running {e : Nat} (hj : (s.inst ix).job = some j) (hf : j.fin = none) (he : (s.inst ix).eng = some e) :
    exec (.atsInvalidation ix true) s = .next (s.setInst ix { s.inst ix with ats := (s.inst ix).ats + 1 }) := by
  rw [show exec (.atsInvalidation ix true) s = execAtsInvalidation ix true s from rfl]
  simp [execAtsInvalidation, hj, hf, he]

theorem exec_atsInvalidation_resting (hj : (s.inst ix).job = some j) (hf : j.fin = none) (he : (s.inst ix).eng = none) :
    exec (.atsInvalidation ix true) s =
      .next ((s.setInst ix { s.inst ix with job := some { j with fin := some (stEngDecode, j.atsResult) } }).emit (.atsDone ix)) := by
  rw [show exec (.atsInvalidation ix true) s = execAtsInvalidation ix true s from rfl]
  simp [execAtsInvalidation, hj, hf, he]

theorem exec_atsInvalidation_idle (hj : (s.inst ix).job = none) (used : Bool) :
    exec (.atsInvalidation ix used) s = .next (s.emit (.atsDone ix)) := by
  rw [show exec (.atsInvalidation ix used) s = execAtsInvalidation ix used s from rfl]
  simp [execAtsInvalidation, hj]

theorem exec_atsInvalidation_unused (ix : InstIx) (s : State) : exec (.atsInvalidation ix false) s = .next (s.emit (.atsDone ix)) := by
  cases hj : (s.inst ix).job with
  | none => exact exec_atsInvalidation_idle hj false
  | some j =>
    rw [show exec (.atsInvalidation ix false) s = execAtsInvalidation ix false s from rfl]
    simp [execAtsInvalidation, hj]

end Ats

/-- Settles O28: a step that ends its job by `jobStepBoundary_ends`, with the work of `stepWork_fill_last`, `stepWork_compare_differs` and
`stepWork_copy_unread`; completion and a hamper's outcome by `completed_keeps`. The result of a job that an ATS invalidation ends (log 268), and
that a failed JOB_COMPLETE without a job is that of a HAMPER entry (log 252), are the model's choices. -/
theorem jobsRun : Obligations.JobsRun := by
  refine ⟨?_, ?_, ?_, ?_, ?_, ?_, ?_, ?_, ?_⟩
  · intro ix j e rd s hj he hf hop hleg hlt hlast
    have hu := readsDone_sends s ix j
    have hwork := stepWork_fill_last (s := s.readsDone ix j) (i := ix) (j := j.reading [] 0) rd hop ((bit_congr hu.regs _ _).trans hleg) hlt
      (by rw [State.stepKib, fld_congr hu.regs]; exact hlast)
    obtain ⟨t, ht, hjob, hout⟩ := jobStepBoundary_ends (bad := none) hj he hf hwork rfl
    refine ⟨t, ht, hjob, fun y hy => ?_⟩
    obtain ⟨hlocal, hremote⟩ := engData_pattern_line (s := s.readsDone ix j) (i := ix) (space := byteAt j.bytes 40 / 4 % 4) (j := j) (by omega) hy
    refine ⟨fun hl => hout (hlocal ((hu.remoteLine _ _ _).trans hl)), fun f sl o hr => ?_⟩
    obtain ⟨tag, htag⟩ := hremote f sl o ((hu.remoteLine _ _ _).trans hr)
    exact ⟨tag, hout htag⟩
  · intro ix j e k a c s hj he hf hop hleg ha hc hk hne heq
    have hu := readsDone_sends s ix j
    have hn : (s.readsDone ix j).stepBytes ix (j.reading [] 0) = min (s.stepKib * 1024) (leAt j.bytes 32 8 - j.prog) := by
      rw [stepBytes_direct ((bit_congr hu.regs _ _).trans hleg), State.stepKib, fld_congr hu.regs]
      rfl
    obtain ⟨t, ht, hjob, -⟩ := jobStepBoundary_ends (bad := none) hj he hf
      (stepWork_compare_differs (j := j.reading [] 0) hop hn ha hc hk hne heq) rfl
    exact ⟨t, ht, hjob⟩
  · intro ix j e off s hj he hf hop
    have hjudged : ((j.reading [] 0).judged (some (false, off))) = { j with fin := some (stEngPoison, off), rdTodo := [], rdOut := 0 } := by
      simp [Job.judged, Job.reading, hf]
    obtain ⟨t, ht, hjob, -⟩ := jobStepBoundary_ends (bad := some (false, off)) hj he hf (stepWork_copy_unread (j := j.reading [] 0) hop)
      (by rw [hjudged]; rfl)
    exact ⟨t, ht, hjob.trans (congrArg some hjudged)⟩
  · intro ix j st res s hj hf hh he
    obtain ⟨u, hexec, hspace, haddr⟩ := exec_jobComplete_good hj hf hh he
    obtain ⟨hjob, -, hout⟩ := completed_keeps (u.setInst ix { s.inst ix with job := none }) ix j.pos j.num st res
    rw [ringSpace_congr (setInst_regs u _ _), hspace, unitAddr_congr (setInst_regs u _ _), haddr] at hout
    exact ⟨_, hexec, by rw [hjob, inst_setInst_self], hout⟩
  · intro ix num rec e s ho he hst
    refine ⟨?_, fun hj => ⟨_, exec_jobComplete_outcomeFails ho he hj, wbFailed_state hst⟩⟩
    obtain ⟨u, hu, hexec⟩ := exec_hamperEntryOutcome_open ho he
    obtain ⟨-, hhmp, hout⟩ := completed_keeps u ix e.pos num (byteAt rec 0) 0
    rw [ringSpace_congr hu.regs, unitAddr_congr hu.regs] at hout
    exact ⟨_, hexec, by rw [hhmp, hu.hmp]; rfl, hout⟩
  · intro ix j e s hj hf he
    exact exec_atsInvalidation_running hj hf he
  · intro ix j s hj hf he
    exact exec_atsInvalidation_resting hj hf he
  · intro ix s hj
    exact exec_atsInvalidation_idle (Option.isNone_iff_eq_none.mp hj) true
  · intro ix s
    exact exec_atsInvalidation_unused ix s

end Sys2Proof.Machine
end

section
namespace Sys2Proof.Machine

/-! ### The binding registers of instances -/

/-- The binding registers (R220) of one of the instances lie below its page (R210). -/
theorem engInst_add_ne_page {i k o : Nat} (hk : k < 32) (ho : pageBase i ≤ o) : engInst i + k ≠ o := by
  simp only [engInst, pageBase] at ho ⊢
  omega

theorem engInst_ne_page {i o : Nat} (ho : pageBase i ≤ o) : engInst i ≠ o := engInst_add_ne_page (k := 0) (by decide) ho

/-- They lie above the registers that events and answers write. -/
theorem engInst_above {o : Nat} (i : Nat) (h : o < 0x420000) : engInst i ≠ o := by
  simp only [engInst]
  omega

theorem pageBase_le_insIrqCtl (i : Nat) : pageBase i ≤ insIrqCtl i := Nat.le_add_right _ _
theorem pageBase_le_insMboxCtl (i : Nat) : pageBase i ≤ insMboxCtl i := Nat.le_add_right _ _

theorem insMboxCtl_ne_ovf (i : Nat) : insMboxCtl i ≠ glbEvFifoOvfCnt := by
  simp only [insMboxCtl, pageBase, glbEvFifoOvfCnt]
  omega

theorem engInst_answered (t : State) (code : Nat) (q : Req) (st : Nat) (b : List Byte) (i : Nat) :
    (t.answered code q st b).reg (engInst i) = t.reg (engInst i) :=
  answered_reg t code q st b (engInst_above i (by decide)) (engInst_above i (by decide)) (engInst_above i (by decide))
    (engInst_above i (by decide))

theorem inst_answered (t : State) (code : Nat) (q : Req) (st : Nat) (b : List Byte) (i : Nat) : (t.answered code q st b).inst i = t.inst i :=
  inst_congr (answered_eng t code q st b) i

theorem inst_begun (s : State) (code : Nat) (q : Req) (b : List Byte) (i : Nat) : (s.begun code q b).inst i = s.inst i :=
  inst_congr (begun_eng s code q b) i

theorem inst_raise (s : State) (code : Nat) (vals : List EvVal) (i : Nat) : (s.raise code vals).inst i = s.inst i :=
  inst_congr (raise_eng s code vals) i

/-! ### OP_INS_BIND and OP_INS_SET_RATE (R205) -/

/-- The rates that a command names: each has 24 bits, and no committed one is above its peak. -/
structure RatesFit (cir pir cbs pbs : Nat) : Prop where
  cir24 : cir < 2 ^ 24
  pir24 : pir < 2 ^ 24
  cbs24 : cbs < 2 ^ 24
  pbs24 : pbs < 2 ^ 24
  rate : cir ≤ pir
  burst : cbs ≤ pbs

section RatesFit
variable {cir pir cbs pbs : Nat}

theorem RatesFit.none_over (h : RatesFit cir pir cbs pbs) : [cir, pir, cbs, pbs].any (fun v => decide (2 ^ 24 ≤ v)) = false := by
  simpa using ⟨h.cir24, h.pir24, h.cbs24, h.pbs24⟩

theorem RatesFit.not_below (h : RatesFit cir pir cbs pbs) : ¬ (pir < cir ∨ pbs < cbs) :=
  not_or.mpr ⟨Nat.not_lt.mpr h.rate, Nat.not_lt.mpr h.burst⟩

end RatesFit

/-- The word of ENG_INST_BIND when VALID is set (R220). -/
def bindWord (fl c host : Nat) : Nat := 2 ^ 31 + fl % 2 * 2 ^ 30 + fl / 2 % 2 * 2 ^ 29 + fl / 4 % 2 * 2 ^ 28 + c * 2 ^ 24 + host

/-- The fields below VALID do not reach it. -/
theorem bindWord_bounds {fl c host : Nat} (hc : c < 4) (hh : host < 2 ^ 18) : 2 ^ 31 ≤ bindWord fl c host ∧ bindWord fl c host < 2 ^ 32 := by
  unfold bindWord
  omega

theorem bindWord_valid {fl c host : Nat} (hc : c < 4) (hh : host < 2 ^ 18) : bits (BitVec.ofNat 32 (bindWord fl c host)) 31 1 = 1 := by
  obtain ⟨hlo, hhi⟩ := bindWord_bounds (fl := fl) hc hh
  rw [bits, BitVec.toNat_ofNat, Nat.mod_eq_of_lt hhi]
  omega

theorem bindWord_host (fl c : Nat) {host : Nat} (hh : host < 2 ^ 18) : bits (BitVec.ofNat 32 (bindWord fl c host)) 0 18 = host := by
  simp only [bits, BitVec.toNat_ofNat, bindWord]
  omega

/-- Number i of the instances is bound to cluster c as the command's body says: its registers, its INS_INFO, its head, its own state (R205). -/
def State.bindInst (s : State) (i c : Nat) (b : List Byte) : State :=
  let fl := byteAt b 8
  let s1 := s.setN (engInst i) (bindWord fl c (leAt b 0 4))
  let s2 := (((s1.setN (engInst i + 4) (leAt b 10 2 * 2 ^ 20 + leAt b 4 4)).setN (engInst i + 8) (leAt b 12 4)).setN (engInst i + 12)
    (leAt b 16 4)).setN (engInst i + 16) (byteAt b 9 * 2 ^ 24 + leAt b 24 4)
  let s3 := (s2.setN (engInst i + 20) (leAt b 20 4)).setN (insInfo i) (fl / 2 % 2 * 2 ^ 31 + fl % 2 * 2 ^ 30 + leAt b 4 4)
  (s3.setInst i {}).setReg (insRingHead i) 0

theorem bindInst_reg (s : State) (i c : Nat) (b : List Byte) :
    (s.bindInst i c b).reg (engInst i) = BitVec.ofNat 32 (bindWord (byteAt b 8) c (leAt b 0 4)) := by
  have hhead : engInst i ≠ insRingHead i := engInst_ne_page (Nat.le_add_right _ _)
  have hinfo : engInst i ≠ insInfo i := engInst_ne_page (Nat.le_add_right _ _)
  rw [State.bindInst, reg_setReg_ne _ _ hhead, reg_congr (setInst_regs _ _ _), reg_setN, if_neg hinfo]
  simp [reg_setN]

theorem bindInst_inst (s : State) (i c : Nat) (b : List Byte) : (s.bindInst i c b).inst i = {} := by
  simp [State.bindInst]

theorem pickCluster_lt {s : State} {c : Nat} (h : s.pickCluster = some c) : c < 4 := by
  have hmem := List.mem_of_find?_eq_some h
  exact List.mem_range.mp (List.mem_of_mem_filter hmem)

theorem exec_opInsBind {q : Req} {b : List Byte} {c : Nat} {s x : State} (ha : s.admitted 0x0601 q { kinds := [9], lenOk := true } = true)
    (hlen : b.length = 28) (hhost : leAt b 0 4 < 2 ^ 18) (hpasid : leAt b 4 4 < 2 ^ 20) (hfl : byteAt b 8 < 8) (hvec : leAt b 10 2 < 2048)
    (hr : RatesFit (leAt b 12 4) (leAt b 16 4) (leAt b 20 4) (leAt b 24 4)) (hx : s.begun 0x0601 q b = x) (hc : x.pickCluster = some c)
    (hdup : x.boundInsts.any (fun k => decide (k = q.index.toNat) ||
      (decide (x.insHost k = leAt b 0 4) && decide (x.fld (engInst k + 4) 0 20 = leAt b 4 4))) = false)
    (hv : (x.vcsOfHost (leAt b 0 4)).isSome = true) :
    exec (.opInsBind q b) s = .next (((x.bindInst q.index.toNat c b).raise 0x0601 []).answered 0x0601 q stOk (toLe 1 c)) := by
  subst hx
  refine congrArg Host.Outcome.next (nalug_run_answered ha ?_ ?_)
  · rw [hr.none_over]
    simpa [hlen] using ⟨⟨⟨hhost, hpasid⟩, hfl⟩, hvec⟩
  · simp only [hc, hdup, Option.isNone_eq_false_iff.mpr hv, Bool.false_eq_true, if_false]
    rw [if_neg hr.not_below]
    rfl

theorem exec_opInsSetRate {q : Req} {b : List Byte} {s x : State} (ha : s.admitted 0x0603 q { kinds := [9], lenOk := true } = true)
    (hlen : b.length = 28) (hrsv : rsvZero b [(0, 9), (10, 2)] = true)
    (hr : RatesFit (leAt b 12 4) (leAt b 16 4) (leAt b 20 4) (leAt b 24 4)) (hx : s.begun 0x0603 q b = x)
    (hb : x.insBound q.index.toNat = true) :
    exec (.opInsSetRate q b) s = .next ((x.setInst q.index.toNat { x.inst q.index.toNat with
      rates := some (byteAt b 9, leAt b 12 4, leAt b 16 4, leAt b 20 4, leAt b 24 4) }).answered 0x0603 q stOk []) := by
  subst hx
  refine congrArg Host.Outcome.next (nalug_run_answered ha ?_ ?_)
  · rw [hr.none_over]
    simp [hlen, hrsv]
  · simp only [hb, Bool.not_true, Bool.false_eq_true, if_false]
    rw [if_neg hr.not_below]
    rfl

/-! ### Reset and unbinding of instances (R207, R218) -/

/-- A reset leaves a ring nothing of its own but the rates that wait for the next edge (R205, R218). -/
theorem insReset_inst (s : State) (i : Nat) : (s.insReset i).inst i = { rates := (s.inst i).rates } := by
  unfold State.insReset
  dsimp only
  rw [inst_congr (clearRegs_eng _ _)]
  split
  · rw [inst_congr (cnt_eng _ _ _), inst_setInst_self]
  · exact inst_setInst_self _ _ _

theorem exec_opInsReset {q : Req} {b : List Byte} {s : State} (ha : s.admitted 0x0604 q { kinds := [9], lenOk := true } = true)
    (hlen : b.length = 0) :
    exec (.opInsReset q b) s = .next (((s.begun 0x0604 q b).insReset q.index.toNat).answered 0x0604 q stOk []) :=
  congrArg Host.Outcome.next (nalug_run_answered ha (by rw [hlen]; rfl) rfl)

/-- INS_INFO is cleared and ENG_INST_BIND.VALID with it (R207). -/
def State.unbindInst (s : State) (i : Nat) : State := (s.setReg (insInfo i) 0).setBit (engInst i) 31 false

theorem unbindInst_bound (s : State) (i : Nat) : (s.unbindInst i).insBound i = false := bit_setBit_self _ _ _ _ (by omega)

theorem unbindInst_reg (s : State) (i : Nat) {o : Nat} (hb : o ≠ engInst i) (hp : o ≠ insInfo i) : (s.unbindInst i).reg o = s.reg o := by
  rw [State.unbindInst, reg_setBit, if_neg hb, reg_setReg_ne _ _ hp]

section Unbind
variable {q : Req} {n : Nat} {s x : State} (ha : s.admitted 0x0602 q { kinds := [9], lenOk := true } = true) (hn : q.index.toNat = n)
  (hx : s.begun 0x0602 q [] = x) (hb : x.insBound n = true)
include ha hn hx hb

theorem exec_opInsUnbind_busy (hbusy : x.ringState n ≠ 0 ∨ ((x.inst n).ents ++ (x.inst n).late).any (fun e => e.opn) = true) :
    exec (.opInsUnbind q []) s = .next (x.answered 0x0602 q stInsBusy []) := by
  subst hn hx
  refine congrArg Host.Outcome.next (nalug_run_answered ha rfl ?_)
  simp only [hb, Bool.not_true, Bool.false_eq_true, if_false]
  rw [if_pos hbusy]
  rfl

theorem exec_opInsUnbind_idle (hring : x.ringState n = 0) (hopn : ((x.inst n).ents ++ (x.inst n).late).any (fun e => e.opn) = false) :
    exec (.opInsUnbind q []) s = .next ((((x.insReset n).unbindInst n).raise 0x0602 []).answered 0x0602 q stOk []) := by
  subst hn hx
  refine congrArg Host.Outcome.next (nalug_run_answered ha rfl ?_)
  simp only [hb, hring, hopn, Bool.not_true, Bool.false_eq_true, if_false, ne_eq, not_true, or_self]
  rfl

end Unbind

/-- Settles O32: refused by `exec_opInsUnbind_busy`, accepted by `exec_opInsUnbind_idle`, with the reset of `insReset_inst` before the
binding's end (`State.unbindInst`) and the event after it. -/
theorem instanceUnbinding : Obligations.InstanceUnbinding := by
  refine ⟨rfl, fun q s => ?_⟩
  intro n x ha hb
  refine ⟨exec_opInsUnbind_busy ha rfl rfl hb, fun hring hopn => ?_⟩
  exact ⟨x.insReset n, (x.insReset n).unbindInst n, exec_opInsUnbind_idle ha rfl rfl hb hring hopn, rfl, insReset_inst x n, unbindInst_bound _ _,
    fun o ho hp => unbindInst_reg _ _ ho hp, rfl, rfl, rfl⟩

/-! ### The interrupts of instances (R211) -/

/-- VEC of ring i is not masked in the MSI-X table of the bound host's vCS (R211, R266). -/
def State.vecOpen (s : State) (i : Nat) : Prop :=
  ∀ n c, s.vcsOfHost (s.insHost i) = some (n, c) → s.msixMasked n (s.insVec i) = false

theorem emit_out (s : State) (m : Out) : (s.emit m).out = s.out ++ [m] := (rfl)

theorem sendVec_open {s : State} {i : Nat} (h : s.vecOpen i) : s.sendVec i = s.emit (.insIrq i (s.insVec i)) := by
  unfold State.sendVec
  dsimp only
  split
  · next v c hv => rw [h v c hv, if_neg Bool.false_ne_true]
  · rfl

/-- Vector n of vCS v is pending (R266). -/
def State.pendVec (s : State) (v n : Nat) : State := { s with cxl := { s.cxl with pba := tput false s.cxl.pba (v * 2048 + n) true } }

theorem pendVec_regs (s : State) (v n : Nat) : (s.pendVec v n).regs = s.regs := (rfl)
theorem pendVec_out (s : State) (v n : Nat) : (s.pendVec v n).out = s.out := (rfl)
theorem pendVec_pending (s : State) (v n : Nat) : tget false (s.pendVec v n).cxl.pba (v * 2048 + n) = true := by
  rw [State.pendVec, tget_tput_self]

/-- A vector that is masked in the MSI-X table goes pending there: the model's choice (log 254, log 265). -/
theorem sendVec_masked {s : State} {i n : Nat} {c : Vcs} (hv : s.vcsOfHost (s.insHost i) = some (n, c))
    (hm : s.msixMasked n (s.insVec i) = true) :
    s.sendVec i = s.pendVec n (s.insVec i) := by
  simp [State.sendVec, State.pendVec, hv, hm]

section PageWrite
variable {i o : Nat} (s : State) (k : Nat) (b : Bool) (ho : pageBase i ≤ o)
include ho

theorem insHost_setBit_page : (s.setBit o k b).insHost i = s.insHost i := by
  rw [State.insHost, State.fld, reg_setBit, if_neg (engInst_ne_page ho)]
  rfl

theorem insVec_setBit_page : (s.setBit o k b).insVec i = s.insVec i := by
  rw [State.insVec, State.fld, reg_setBit, if_neg (engInst_add_ne_page (by decide) ho)]
  rfl

/-- A write of the ring's own page leaves its vector open. -/
theorem vecOpen_setBit_page (h : s.vecOpen i) : (s.setBit o k b).vecOpen i := by
  unfold State.vecOpen
  rw [insHost_setBit_page s k b ho, insVec_setBit_page s k b ho]
  exact h

theorem sendVec_setBit_page (h : s.vecOpen i) : (s.setBit o k b).sendVec i = (s.setBit o k b).emit (.insIrq i (s.insVec i)) := by
  rw [sendVec_open (vecOpen_setBit_page s k b ho h), insVec_setBit_page s k b ho]

theorem sendVec_setBit_page_masked {n : Nat} {c : Vcs} (hv : s.vcsOfHost (s.insHost i) = some (n, c))
    (hm : s.msixMasked n (s.insVec i) = true) :
    (s.setBit o k b).sendVec i = (s.setBit o k b).pendVec n (s.insVec i) := by
  have hvec := insVec_setBit_page s k b ho
  rw [sendVec_masked (n := n) (c := c) (by rw [insHost_setBit_page s k b ho]; exact hv) (by rw [hvec]; exact hm), hvec]

end PageWrite

/-- A signal that INS_IRQ_CTL does not mask is a vector sent (R211). -/
theorem insSignal_unmasked {s : State} {i : Nat} (h : s.bit (insIrqCtl i) 31 = false) : s.insSignal i = s.sendVec i := by
  rw [State.insSignal, h, if_neg Bool.false_ne_true]

/-- MASK is cleared while PEND is set: both are clear, and the vector leaves once (R211). -/
theorem exec_insIrqCtlWrite_unmask {ix : InstIx} {v : Word} {s : State} (hm : s.bit (insIrqCtl ix) 31 = true) (hp : s.bit (insIrqCtl ix) 30 = true)
    (hv : v.getLsbD 31 = false) :
    exec (.insIrqCtlWrite ix v) s = .next (((s.setBit (insIrqCtl ix) 31 false).setBit (insIrqCtl ix) 30 false).sendVec ix) := by
  show execInsIrqCtlWrite ix v s = _
  unfold execInsIrqCtlWrite
  simp only [hm, hp, hv, Bool.not_false, Bool.not_true, Bool.and_true, Bool.and_false, if_true]

/-! ### Mailboxes (R216) -/

section Mailbox
variable {ix : InstIx} {s : State}

theorem exec_t2mSend_empty (hb : s.insBound ix = true) (hf : s.bit (insMboxCtl ix) 31 = false) :
    exec (.t2mSend ix) s = .next ((s.setBit (insMboxCtl ix) 31 true).raise 0x0603 [.w ix]) := by
  show execT2mSend ix s = _
  simp [execT2mSend, hb, hf]

theorem exec_t2mAck (ix : InstIx) (s : State) : exec (.t2mAck ix) s = .next (s.setBit (insMboxCtl ix) 31 false) := (rfl)

theorem exec_m2tSend_empty (hb : s.insBound ix = true) (hf : s.bit (insMboxCtl ix) 30 = false) (hm : s.bit (insIrqCtl ix) 31 = false) :
    exec (.m2tSend ix) s = .next ((s.setBit (insMboxCtl ix) 30 true).sendVec ix) := by
  have hm' : (s.setBit (insMboxCtl ix) 30 true).bit (insIrqCtl ix) 31 = false :=
    (bit_setBit s _ _ _ _ _ (by omega) (.inr (by omega))).trans hm
  show execM2tSend ix s = _
  simp [execM2tSend, hb, hf, insSignal_unmasked hm']

theorem exec_m2tAck_bound (hb : s.insBound ix = true) :
    exec (.m2tAck ix) s = .next ((s.setBit (insMboxCtl ix) 30 false).raise 0x0603 [.w ix]) := by
  show execM2tAck ix s = _
  rw [execM2tAck, if_pos hb]

/-- A tenant's bytes go to its own buffer while that is free. -/
theorem exec_mailboxBufferWrite_free (off : Fin 256) (b : List Byte) (hf : s.bit (insMboxCtl ix) 31 = false) :
    exec (.mailboxBufferWrite ix true false off b) s = .next (s.putBytes (insMboxT2m ix 0) off (b.take (256 - off.val))) := by
  show execMailboxBufferWrite ix true false off b s = _
  simp [execMailboxBufferWrite, hf]

/-- The flag that a mailbox command writes stays as written while its event is raised. -/
theorem mboxFlag_raise (s : State) (i k code : Nat) (b : Bool) (vals : List EvVal) (hk : k < 32) :
    ((s.setBit (insMboxCtl i) k b).raise code vals).bit (insMboxCtl i) k = b := by
  rw [State.bit, State.fld, raise_reg _ _ _ (insMboxCtl_ne_ovf i)]
  exact bit_setBit_self _ _ _ _ hk

end Mailbox

/-! ### The window of instances and their shares (R209, R212) -/

section Window
variable {v : VcsIx} {ix : InstIx} {c : Vcs} {s : State}

theorem exec_instanceWindowAccess_read {off : Fin 4096} (hc : tfind s.bind.vcs v = some c) (hb : s.insBound ix = true)
    (hh : s.insHost ix = c.host) (hal : off.val % 4 = 0) :
    exec (.instanceWindowAccess v ix off none 4 []) s = .next (s.emit (.insRead ix off (toLe 4 (s.pageRead ix off)))) := by
  show execInstanceWindowAccess v ix off none 4 [] s = _
  simp [execInstanceWindowAccess, hc, hb, hh, hal]

/-- A write to a page of another host's instances is discarded and counted. -/
theorem exec_instanceWindowAccess_stray (off : Fin 4096) (b : List Byte) (n : Nat) (ext : List (Nat × Nat × Nat))
    (hc : tfind s.bind.vcs v = some c) (hh : s.insHost ix ≠ c.host) :
    exec (.instanceWindowAccess v ix off (some b) n ext) s = .next (s.cnt engInstStrayCnt) := by
  show execInstanceWindowAccess v ix off (some b) n ext s = _
  simp [execInstanceWindowAccess, hc, hh]

end Window

theorem exec_shareChange_due {s : State} (h : s.eng.dueN ≠ s.eng.shareN ∨ s.eng.dueP ≠ s.eng.shareP) :
    exec .shareChange s = .next ((s.inEng (fun e => { e with shareN := e.dueN, shareP := e.dueP })).raise 0x0604 []) := by
  show execShareChange s = _
  rw [execShareChange, if_neg (not_and_or.mpr h)]

/-- Settles O31: each command by its own equation (`exec_opInsBind` to `exec_shareChange_due`), read in the ring's registers and its
own state. That a vector which is masked in the MSI-X table sets its pending bit there, and the table's mask bit itself, are the model's
choices (log 254, log 265). -/
theorem instances : Obligations.Instances := by
  refine ⟨?_, ?_, ?_, ?_, ?_, ?_, ?_, ?_, ?_, ?_, ?_, ?_, ?_⟩
  · intro q b c s n x ha hlen hhost hpasid hfl hvec hcir hpir hcbs hpbs hrate hburst hc hdup hv
    have hreg : (((x.bindInst n c b).raise 0x0601 []).answered 0x0601 q stOk (toLe 1 c)).reg (engInst n) =
        BitVec.ofNat 32 (bindWord (byteAt b 8) c (leAt b 0 4)) := by
      rw [engInst_answered, raise_reg _ _ _ (engInst_above n (by decide)), bindInst_reg]
    refine ⟨_, exec_opInsBind ha hlen hhost hpasid hfl hvec ⟨hcir, hpir, hcbs, hpbs, hrate, hburst⟩ rfl hc hdup hv, ?_, ?_, ?_,
      mem_answered_out ..⟩
    · rw [State.insBound, State.bit, State.fld, hreg, bindWord_valid (pickCluster_lt hc) hhost]
      rfl
    · rw [State.insHost, State.fld, hreg, bindWord_host _ _ hhost]
    · rw [inst_answered, inst_raise, bindInst_inst]
  · intro q b s ha hlen hrsv hcir hpir hcbs hpbs hrate hburst hb
    refine ⟨_, exec_opInsSetRate ha hlen hrsv ⟨hcir, hpir, hcbs, hpbs, hrate, hburst⟩ rfl hb, mem_answered_out .., ?_⟩
    rw [inst_answered, inst_setInst_self, inst_begun]
  · intro q b s ha hlen
    refine ⟨_, exec_opInsReset ha hlen, ?_, mem_answered_out ..⟩
    rw [inst_answered, insReset_inst, inst_begun]
  · intro v ix off c s hc hb hh hal
    exact exec_instanceWindowAccess_read hc hb hh hal
  · intro v ix off b n ext c s hc hh
    exact exec_instanceWindowAccess_stray off b n ext hc hh
  · intro ix v s hm hp hv hopen
    have hpage := pageBase_le_insIrqCtl ix
    refine ⟨_, exec_insIrqCtlWrite_unmask hm hp hv, ?_⟩
    rw [sendVec_setBit_page _ _ _ hpage (vecOpen_setBit_page _ _ _ hpage hopen), insVec_setBit_page _ _ _ hpage, bit_congr (emit_regs _ _),
      bit_congr (emit_regs _ _), emit_out, setBit_out, setBit_out]
    exact ⟨(bit_setBit _ _ _ _ _ _ (by omega) (.inr (by omega))).trans (bit_setBit_self _ _ _ _ (by omega)),
      bit_setBit_self _ _ _ _ (by omega), rfl⟩
  · intro ix s hb hf
    exact ⟨_, exec_t2mSend_empty hb hf, mboxFlag_raise _ _ _ _ _ _ (by omega), by rw [raise_seq, setBit_ev]⟩
  · intro ix s
    exact ⟨_, exec_t2mAck ix s, bit_setBit_self _ _ _ _ (by omega), setBit_out _ _ _ _⟩
  · intro ix s hb hf hm hopen
    refine ⟨_, exec_m2tSend_empty hb hf hm, ?_⟩
    rw [sendVec_setBit_page _ _ _ (pageBase_le_insMboxCtl ix) hopen, bit_congr (emit_regs _ _), emit_out, setBit_out]
    exact ⟨bit_setBit_self _ _ _ _ (by omega), rfl⟩
  · intro ix n c s hb hf hm hv hmask
    refine ⟨_, exec_m2tSend_empty hb hf hm, ?_⟩
    rw [sendVec_setBit_page_masked _ _ _ (pageBase_le_insMboxCtl ix) hv hmask, bit_congr (pendVec_regs _ _ _), pendVec_out, setBit_out,
      pendVec_pending]
    exact ⟨bit_setBit_self _ _ _ _ (by omega), rfl, rfl⟩
  · intro ix s hb
    exact ⟨_, exec_m2tAck_bound hb, mboxFlag_raise _ _ _ _ _ _ (by omega), by rw [raise_seq, setBit_ev]⟩
  · intro ix off b s hf
    exact exec_mailboxBufferWrite_free off b hf
  · intro s h
    refine ⟨_, exec_shareChange_due h, ?_⟩
    rw [raise_eng]
    exact ⟨rfl, rfl⟩

end Sys2Proof.Machine
end

section
namespace Sys2Proof.Machine

/-! ### A response that frees a read slot of an engine (R176, R241) -/

/-- An engine's request toward its remote home: host 9, tag 3. -/
def engineRequest : RemReq := { fid := 9, tag := 3, tile := 0, via := .engine 0, la := 5 * 2 ^ 22, write := false, due := 0 }

/-- Its job has 256 line reads outstanding; one more waits for a read slot. -/
def waitingReadJob : Job := { pos := 0, bytes := [], num := 0, rdTodo := [(0, 64, 64)], rdOut := 256 }

/-- Instance 0 is bound to host 9, whose window lies in slice 5 of module 7. Port 0 is a fabric port in L0, and ID 9 is this module's. -/
def waitingReadState : State :=
  { State.reset with
    regs := [(engInst 0, 9#32), (tlGroupRt 0 0, 0x80000000#32), (tlRouteCtl 0, 0x80000000#32), (tlMemberRt 0 0 + 36, 0xC0000000#32),
      (ptMode 0, 0xC0000000#32), (ptFlStatus 0, 0x80000000#32)]
    bind := { vcs := [(0, { usp := 1, host := 9, base := 0, len := 1 })], hmap := [(0, ⟨3, some 7, 5⟩)] }
    eng := { insts := [(0, { job := some waitingReadJob, eng := some 0 })] }
    lnk := { rem := [engineRequest] } }

/-- The header of the response, from module 7. -/
def engineResponse : FHdr := { hop := 1, yellow := false, cls := 1, src := 7, dst := 9, tag := 3 }

theorem waitingReadState_fabHere :
    waitingReadState.fabHere (0 : PortIx) .memRsp engineResponse 64 false ⟨(0 : PortIx).val / 16 * 2 % 53, Nat.mod_lt _ (by decide)⟩ :=
  ⟨by decide +kernel, by decide +kernel, by decide +kernel, by decide +kernel, ⟨_, rfl, by decide +kernel⟩, by decide +kernel,
    by decide +kernel, by decide +kernel⟩

/-- The slot that the response frees is taken by the read that waits, and its request is tracked in turn. -/
theorem crspReceive_issuesRead :
    (match exec (.crspReceive 0 engineResponse 0 0 0 (some 0)) waitingReadState with | .next t => t.lnk.rem.map (·.via) | _ => []) = [.engine 0] := by
  decide +kernel

/-- Refutes O36: the clause of CRSP_RECEIVE says that the module's tracked requests are then those before without the one that the response
completes. A response to an engine's line read also frees a read slot (R176), which the job's next line read takes at once; that one's
request toward its remote home is tracked too (R241). In `waitingReadState` one such read waits. -/
theorem not_fabricMessages : ¬ Obligations.FabricMessages := by
  rintro ⟨-, hcrsp, -⟩
  obtain ⟨t, ht, hrem, -⟩ := hcrsp 0 engineResponse 0 0 0 engineRequest waitingReadState waitingReadState_fabHere (by decide) (by decide)
  have h := crspReceive_issuesRead
  rw [ht] at h
  simp only [hrem] at h
  exact absurd h (by decide)
end Sys2Proof.Machine
end

section
namespace Sys2Proof.Machine

/-! ### What leaves the ports' registers as they are (R419) -/

/-- A word of a port's block or of its lanes. -/
def PortReg (o : Nat) : Prop := 0x2000000 ≤ o ∧ 0x80000 ≤ o % 0x100000

theorem portReg_portBase (p : Nat) {k : Nat} (h : k < 0x8000) : PortReg (portBase p + k) := by
  unfold PortReg portBase
  omega

theorem not_portReg_tileBase (t : Nat) {k : Nat} (h : k < 0x80000) : ¬ PortReg (tileBase t + k) := by
  unfold PortReg tileBase
  omega

theorem not_portReg_core {o : Nat} (h : o < 0x2000000) : ¬ PortReg o := fun hp => absurd hp.1 (by omega)

theorem PortReg.ne {o j : Nat} (ho : PortReg o) (hj : ¬ PortReg j) : o ≠ j := fun he => hj (he ▸ ho)

/-- Every register of a port has its value. -/
def KeepsPorts (s t : State) : Prop := ∀ o, PortReg o → t.reg o = s.reg o

namespace KeepsPorts
variable {s t u : State}

theorem of_regs (h : t.regs = s.regs) : KeepsPorts s t := fun o _ => reg_congr h o
theorem refl (s : State) : KeepsPorts s s := of_regs rfl
theorem trans (h : KeepsPorts s t) (g : KeepsPorts t u) : KeepsPorts s u := fun o ho => (g o ho).trans (h o ho)

theorem each {α : Type} {f : α → State → State} {l : List α} (h : ∀ a ∈ l, ∀ t, KeepsPorts t (f a t)) (s : State) :
    KeepsPorts s (s.each l f) := by
  induction l generalizing s with
  | nil => exact refl s
  | cons a r ih => exact (h a List.mem_cons_self s).trans (ih (fun b hb => h b (List.mem_cons_of_mem a hb)) (f a s))

theorem setReg (s : State) {j : Nat} (v : Word) (hj : ¬ PortReg j) : KeepsPorts s (s.setReg j v) :=
  fun _ ho => reg_setReg_ne s v (ho.ne hj)

theorem cnt (s : State) {j : Nat} (k : Nat) (hj : ¬ PortReg j) : KeepsPorts s (s.cnt j k) := setReg s _ hj

theorem raise (s : State) (code : Nat) (vals : List EvVal) : KeepsPorts s (s.raise code vals) :=
  fun _ ho => raise_reg s code vals (ho.ne (not_portReg_core (by decide)))

theorem raiseLim (s : State) (code unit : Nat) (vals : List EvVal) : KeepsPorts s (s.raiseLim code unit vals) :=
  fun _ ho => raiseLim_reg s code unit vals (ho.ne (not_portReg_core (by decide)))

theorem cnt64 (s : State) {j : Nat} (k : Nat) (hj : ¬ PortReg j) (hj4 : ¬ PortReg (j + 4)) : KeepsPorts s (s.cnt64 j k) :=
  fun _ ho => cnt64_reg s k (ho.ne hj) (ho.ne hj4) (ho.ne (not_portReg_core (by decide)))

theorem pmcAdd (s : State) (global : Bool) {lo hi : Nat} (ev unit add : Nat) (a : PmcAttr)
    (h : ∀ o, lo ≤ o → o < hi → ¬ PortReg (o + 0x10) ∧ ¬ PortReg (o + 0x10 + 4)) : KeepsPorts s (s.pmcAdd global lo hi ev unit add a) := by
  unfold State.pmcAdd
  refine each (fun e he t => ?_) s
  have hb := List.of_mem_filter he
  simp only [Bool.and_eq_true, decide_eq_true_eq] at hb
  obtain ⟨⟨⟨hlo, hhi⟩, -⟩, -⟩ := hb
  obtain ⟨h0, h4⟩ := h e.1 hlo hhi
  split
  · exact cnt64 t add h0 h4
  · exact refl t

theorem tpmc (s : State) (p ev add : Nat) (a : PmcAttr) : KeepsPorts s (s.tpmc p ev add a) := by
  refine pmcAdd s _ _ _ _ _ (fun o hlo hhi => ?_)
  unfold tlPmcCfg at hlo hhi
  obtain ⟨k, rfl⟩ : ∃ k, o = tileBase (p / 16) + k := ⟨o - tileBase (p / 16), by omega⟩
  simp only [Nat.add_assoc]
  exact ⟨not_portReg_tileBase _ (by omega), not_portReg_tileBase _ (by omega)⟩

theorem stkWrite (s : State) {h : Nat} (n : Nat) (hh : h < 4) : KeepsPorts s (s.stkWrite h n) := by
  refine (cnt64 s n ?_ ?_).trans (pmcAdd _ _ _ _ _ _ (fun o _ hhi => ⟨not_portReg_core ?_, not_portReg_core ?_⟩))
  · exact not_portReg_core (by unfold hbmStkWriteCnt; omega)
  · exact not_portReg_core (by unfold hbmStkWriteCnt; omega)
  · omega
  · omega

end KeepsPorts

/-! ### Messages of a port that goes down (R40, R240) -/

@[simp] theorem errReply_regs (s : State) (m : NetMsg) (why : Nat) : (s.errReply m why).regs = s.regs := by
  unfold State.errReply
  split
  · split <;> rfl
  · rfl

@[simp] theorem spillLeave_regs (s : State) (q : Nat) : (s.spillLeave q).regs = s.regs := by
  unfold State.spillLeave
  split <;> rfl

@[simp] theorem cutQueue_regs (s : State) (q : Nat) (l : List TMsg) : (s.cutQueue q l).regs = s.regs := by
  unfold State.cutQueue
  dsimp only
  split
  · rfl
  · split <;> rfl

@[simp] theorem markSpill_regs (s : State) (q : Nat) : (s.markSpill q).regs = s.regs := by
  unfold State.markSpill
  split <;> rfl

@[simp] theorem spillScan_regs (s : State) (q : Nat) : (s.spillScan q).regs = s.regs := by
  unfold State.spillScan
  dsimp only
  split
  · exact each_frame (proj := State.regs) (fun k t => markSpill_regs t k) _ _
  · rfl

@[simp] theorem demotePort_regs (s : State) (p : Nat) : (s.demotePort p).regs = s.regs := by
  unfold State.demotePort
  refine each_frame (proj := State.regs) (fun t x => each_frame (proj := State.regs) (fun k y => ?_) _ _) _ _
  dsimp only
  split <;> rfl

theorem fcOf_lt {c : Nat} (h : c < 8) : fcOf c < 8 := by
  unfold fcOf
  split <;> omega

theorem not_portReg_tlQosCntDrop (t : Nat) {c : Nat} (h : c < 8) : ¬ PortReg (tlQosCntDrop t c) := by
  unfold tlQosCntDrop
  rw [Nat.add_assoc]
  exact not_portReg_tileBase t (by omega)

/-- A route miss counts in its tile. -/
theorem routeMiss_keepsPorts (s : State) (p dst : Nat) (m : NetMsg) : KeepsPorts s (s.routeMiss p dst m) := by
  unfold State.routeMiss State.missOf
  exact ((((KeepsPorts.tpmc s p _ _ _).trans (.cnt _ _ (not_portReg_tileBase _ (by decide)))).trans (.raiseLim _ _ _ _)).trans
    (.of_regs rfl)).trans (.of_regs (errReply_regs _ _ _))

/-- A message that arrives at a queue counts in its tile, and in its stack when it is spilled. -/
theorem enqueue_keepsPorts (s : State) (q : Nat) (m : TMsg) : KeepsPorts s (s.enqueue q m).1 := by
  have hmark := KeepsPorts.of_regs (markSpill_regs s q)
  unfold State.enqueue
  dsimp only
  split
  · split
    · exact .refl s
    split
    · exact hmark.trans (.cnt _ _ (not_portReg_tlQosCntDrop _ (fcOf_lt (by omega))))
    split
    · next pg _ =>
      have hcount : ∀ t : State, KeepsPorts t (t.cnt64 (tlSpillCnt (queueTile q))) := fun t =>
        .cnt64 t 1 (not_portReg_tileBase (queueTile q) (k := 0x40028) (by decide)) (not_portReg_tileBase (queueTile q) (k := 0x4002C) (by decide))
      exact ((((hmark.trans (.of_regs (inHbm_regs _ _))).trans (hcount _)).trans (.tpmc _ _ _ _ _)).trans
        (.stkWrite _ _ (Nat.mod_lt _ (by decide)))).trans (.of_regs (inHbm_regs _ _))
    · exact (hmark.trans (.setReg _ _ (not_portReg_tileBase _ (by decide)))).trans (.raiseLim _ _ _ _)
  split
  · refine .of_regs ?_
    rw [spillScan_regs]
    split
    · exact markSpill_regs _ _
    · rfl
  · exact .refl s

theorem keepsPorts_of_enqueue {s t : State} {q : Nat} {m : TMsg} {b : Bool} (h : s.enqueue q m = (t, b)) : KeepsPorts s t := by
  have hk := enqueue_keepsPorts s q m
  rw [h] at hk
  exact hk

/-- The messages of a port that has gone down leave its registers, and those of every other port, as they are. -/
theorem rerouteQueues_keepsPorts (s : State) (p : Nat) : KeepsPorts s (s.rerouteQueues p) := by
  unfold State.rerouteQueues
  refine .each (fun c _ t => ?_) s
  extract_lets q go t1 t2
  have hgo : ∀ m x y stay, KeepsPorts x y → KeepsPorts x stay → KeepsPorts x (go m y stay) := by
    intro m x y stay hy hstay
    simp only [go]
    split
    · split
      · exact hy.trans (routeMiss_keepsPorts _ _ _ _)
      split
      · exact hy.trans (keepsPorts_of_enqueue ‹_›)
      · exact hstay
    · exact hy.trans (routeMiss_keepsPorts _ _ _ _)
  have h1 : KeepsPorts t t1 := .each (fun m _ y => hgo _ _ _ _ (.of_regs (setQueue_regs _ _ _)) (.of_regs (setQueue_regs _ _ _))) t
  have h2 : KeepsPorts t1 t2 := .each (fun x _ y => hgo _ _ _ _ (.of_regs (inHbm_regs _ _)) (.of_regs (inHbm_regs _ _))) t1
  exact (h1.trans h2).trans (.of_regs (by rw [spillLeave_regs, cutQueue_regs]))

end Sys2Proof.Machine
end

section
namespace Sys2Proof.Machine

/-! ### A link under the other updates -/

section Link
variable (s : State) (p : Nat)

@[simp] theorem link_emit (m : Out) : (s.emit m).link p = s.link p := (rfl)
@[simp] theorem link_setReg (o : Nat) (v : Word) : (s.setReg o v).link p = s.link p := (rfl)
@[simp] theorem link_setFld (o lo n v : Nat) : (s.setFld o lo n v).link p = s.link p := (rfl)
@[simp] theorem link_setBit (o i : Nat) (b : Bool) : (s.setBit o i b).link p = s.link p := (rfl)
@[simp] theorem link_setN (o v : Nat) : (s.setN o v).link p = s.link p := (rfl)
@[simp] theorem link_cnt (o k : Nat) : (s.cnt o k).link p = s.link p := (rfl)
@[simp] theorem link_bwAdd (q d n : Nat) : (s.bwAdd q d n).link p = s.link p := (rfl)
@[simp] theorem link_setLane (q l : Nat) (x : LaneS) : (s.setLane q l x).link p = s.link p := (rfl)
@[simp] theorem link_setSpare (q st l : Nat) : (s.setSpare q st l).link p = s.link p :=
  link_congr (by rw [State.setSpare, setFld_lnk, setFld_lnk]) p
@[simp] theorem link_cnt64 (o k : Nat) : (s.cnt64 o k).link p = s.link p := link_congr (cnt64_lnk s o k) p
@[simp] theorem link_raise (code : Nat) (vals : List EvVal) : (s.raise code vals).link p = s.link p := link_congr (raise_lnk s code vals) p

@[simp] theorem flState_setLink (q : Nat) (x : LinkS) : (s.setLink q x).flState p = s.flState p := (rfl)
@[simp] theorem flState_emit (m : Out) : (s.emit m).flState p = s.flState p := (rfl)

@[simp] theorem bwAdd_regs (q d n : Nat) : (s.bwAdd q d n).regs = s.regs := (rfl)
@[simp] theorem bwAdd_out (q d n : Nat) : (s.bwAdd q d n).out = s.out := (rfl)

end Link

/-- The state of a link after it is written. -/
theorem flState_setFld (s : State) (p v : Nat) : (s.setFld (ptFlStatus p) 29 3 v).flState p = v % 8 :=
  fld_setFld_self s _ 29 3 v (by decide)

theorem flState_of_reg {s t : State} {p : Nat} (h : t.reg (ptFlStatus p) = s.reg (ptFlStatus p)) : t.flState p = s.flState p :=
  congrArg (bits · 29 3) h

/-! ### Codewords leave (R222, R231, R246) -/

/-- A link without its transmitter's place in the period: which codeword of which period is next, its lanes, the mirror, the stuff
symbols counted. -/
def LinkS.kept (l : LinkS) : LinkS := { l with stuffs := 0, tx := { l.tx with period := 0, cw := 0, lanes := [], mirror := none } }

/-- What the place in the period has no part in. -/
theorem get_of_kept {α : Type} {l m : LinkS} (h : l.kept = m.kept) (f : LinkS → α) (hf : ∀ l, f l.kept = f l := by intro; rfl) : f l = f m := by
  rw [← hf, h, hf]

/-- Codewords of port `p` leave: its transmitter moves on, and its link leaves L0-quiet if a rule asks for it (R246). -/
structure Sent (p : Nat) (s t : State) : Prop where
  rest  : t = { s with regs := t.regs, lnk := t.lnk, out := t.out }
  reg   : ∀ o, o ≠ ptFlStatus p → t.reg o = s.reg o
  fld   : ∀ lo n, lo + n ≤ 29 → t.fld (ptFlStatus p) lo n = s.fld (ptFlStatus p) lo n
  state : t.flState p = s.flState p ∨ s.flState p = 5 ∧ t.flState p = 4
  links : t.lnk = { s.lnk with links := t.lnk.links }
  link  : (t.link p).kept = (s.link p).kept
  out   : s.out ⊆ t.out

namespace Sent
variable {p : Nat} {s t u : State}

theorem refl (p : Nat) (s : State) : Sent p s s :=
  ⟨rfl, fun _ _ => rfl, fun _ _ _ => rfl, .inl rfl, rfl, rfl, List.Subset.refl _⟩

theorem trans (h : Sent p s t) (g : Sent p t u) : Sent p s u where
  rest := g.rest.trans (congrArg (fun x : State => { x with regs := u.regs, lnk := u.lnk, out := u.out }) h.rest)
  reg o ho := (g.reg o ho).trans (h.reg o ho)
  fld lo n hn := (g.fld lo n hn).trans (h.fld lo n hn)
  state := by
    rcases h.state with hs | ⟨hs, ht⟩ <;> rcases g.state with hu | ⟨h5, hu⟩
    · exact .inl (hu.trans hs)
    · exact .inr ⟨hs.symm.trans h5, hu⟩
    · exact .inr ⟨hs, hu.trans ht⟩
    · exact absurd (ht.symm.trans h5) (by decide)
  links := g.links.trans (congrArg (fun x : FabS => { x with links := u.lnk.links }) h.links)
  link := g.link.trans h.link
  out := List.Subset.trans h.out g.out

theorem each {α : Type} {f : α → State → State} (h : ∀ a t, Sent p t (f a t)) (l : List α) (s : State) : Sent p s (s.each l f) := by
  induction l generalizing s with
  | nil => exact refl p s
  | cons a r ih => exact (h a s).trans (ih (f a s))

theorem emit (p : Nat) (s : State) (m : Out) : Sent p s (s.emit m) :=
  ⟨rfl, fun _ _ => rfl, fun _ _ _ => rfl, .inl rfl, rfl, rfl, List.subset_append_left _ _⟩

theorem setLink {x : LinkS} (h : x.kept = (s.link p).kept) : Sent p s (s.setLink p x) :=
  ⟨rfl, fun _ _ => rfl, fun _ _ _ => rfl, .inl rfl, rfl, by rw [link_setLink, h], List.Subset.refl _⟩

theorem get {α : Type} (h : Sent p s t) (f : LinkS → α) (hf : ∀ l, f l.kept = f l := by intro; rfl) : f (t.link p) = f (s.link p) :=
  get_of_kept h.link f hf

theorem tick (h : Sent p s t) : t.tick = s.tick := by rw [h.rest]
theorem ev (h : Sent p s t) : t.ev = s.ev := by rw [h.rest]
theorem lane (h : Sent p s t) : t.lane = s.lane := by rw [h.rest]
theorem home (h : Sent p s t) : t.home = s.home := by rw [h.rest]
theorem bind (h : Sent p s t) : t.bind = s.bind := by rw [h.rest]

theorem bit (h : Sent p s t) {i : Nat} (hi : i < 29) : t.bit (ptFlStatus p) i = s.bit (ptFlStatus p) i := by
  unfold State.bit
  rw [h.fld i 1 (by omega)]

/-- A link that was not in L0-quiet keeps its state. -/
theorem flState (h : Sent p s t) {v : Nat} (hs : s.flState p = v) (hv : v ≠ 5) : t.flState p = v :=
  h.state.elim (fun ht => ht.trans hs) (fun ⟨h5, _⟩ => absurd (hs.symm.trans h5) hv)

end Sent

@[simp] theorem sendCw_regs (s : State) (p : Nat) (quiet : Bool) (flits : List (List Byte)) : (s.sendCw p quiet flits).regs = s.regs := by
  unfold State.sendCw
  dsimp only
  split <;> simp only [emit_regs, setLink_regs]

theorem sendCw_sent (s : State) (p : Nat) (quiet : Bool) (flits : List (List Byte)) : Sent p s (s.sendCw p quiet flits) := by
  unfold State.sendCw
  dsimp only
  split
  · refine ((Sent.setLink ?_).trans (.emit p _ _)).trans (.emit p _ _)
    rfl
  · refine (Sent.setLink ?_).trans (.emit p _ _)
    rfl

theorem setFld_flState_sent {p : Nat} {s : State} (h : s.flState p = 5) : Sent p s (s.setFld (ptFlStatus p) 29 3 4) where
  rest := by rw [State.setFld, State.setReg]
  reg o ho := by rw [reg_setFld, if_neg ho]
  fld lo n hn := fld_setFld s _ _ _ _ _ lo n (by decide) (.inr (.inl hn))
  state := .inr ⟨h, flState_setFld s p 4⟩
  links := by rw [setFld_lnk]
  link := by rw [link_setFld]
  out := by rw [setFld_out]; exact List.Subset.refl _

theorem quietExit_sent (s : State) (p : Nat) : Sent p s (s.quietExit p) := by
  unfold State.quietExit
  split
  · next h => exact (sendCw_sent s p false []).trans (setFld_flState_sent ((flState_of_reg (reg_congr (sendCw_regs _ _ _ _) _)).trans h))
  · exact .refl p s

/-- A link in L0 or L0-quiet is in L0 once something must be sent (R246). -/
theorem quietExit_flState {s : State} {p : Nat} (h : s.linkL0 p = true) : (s.quietExit p).flState p = 4 := by
  unfold State.quietExit
  split
  · exact flState_setFld _ p 4
  · next h5 => simpa [State.linkL0, h5] using h

theorem ctl_sent (s : State) (p ctype : Nat) (vals : List Nat) (n : Nat) : Sent p s (s.ctl p ctype vals n) :=
  ((quietExit_sent s p).trans (.emit p _ _)).trans (.each (fun _ t => sendCw_sent t p _ _) _ _)

theorem sendFlits_sent (s : State) (p : Nat) (fl : List (List Byte)) : Sent p s (s.sendFlits p fl) :=
  .each (fun _ t => sendCw_sent t p _ _) _ _

theorem linkAnswer_sent (s : State) (p : Nat) (nak : Bool) : Sent p s (s.linkAnswer p nak) :=
  ((quietExit_sent s p).trans (.emit p _ _)).trans (sendCw_sent _ p _ _)

theorem mem_linkAnswer_out (s : State) (p : Nat) (nak : Bool) :
    Out.ackNak p (((s.link p).rxSeq + 4095) % 4096) nak ∈ (s.linkAnswer p nak).out :=
  mem_sendCw_out (mem_emit_out _ _) _ _ _

theorem spareFlit_sent (s : State) (p op lane : Nat) (rot : Bool) (cw : Nat × Nat) : Sent p s (s.spareFlit p op lane rot cw) :=
  ctl_sent s p 6 _ _

theorem mem_spareFlit_out (s : State) (p op lane : Nat) (rot : Bool) (cw : Nat × Nat) :
    Out.ctlFlit p 6 [op, lane, b2n rot, cw.1, cw.2] ∈ (s.spareFlit p op lane rot cw).out := mem_ctl_out s p 6 _ _

theorem pwrFlit_sent (s : State) (p op : Nat) : Sent p s (s.pwrFlit p op) := ctl_sent s p 7 _ _

theorem mem_pwrFlit_out (s : State) (p op : Nat) : Out.ctlFlit p 7 [op] ∈ (s.pwrFlit p op).out := mem_ctl_out s p 7 _ _

end Sys2Proof.Machine
end

section
namespace Sys2Proof.Machine

/-! ### PT_FL_STATUS.STATE and PT_FL_CTL under the other updates -/

theorem portReg_ptFlStatus (p : Nat) : PortReg (ptFlStatus p) := portReg_portBase p (by decide)
theorem portReg_ptFlCtl (p : Nat) : PortReg (ptFlCtl p) := portReg_portBase p (by decide)

theorem flState_setBit (s : State) (p : Nat) {i : Nat} (b : Bool) (h : i < 29) : (s.setBit (ptFlStatus p) i b).flState p = s.flState p :=
  fld_setBit s _ i _ 29 3 b (by omega) (.inr (.inr (by omega)))

theorem flState_setFld_low (s : State) (p : Nat) {lo n : Nat} (v : Nat) (h : lo + n ≤ 29) :
    (s.setFld (ptFlStatus p) lo n v).flState p = s.flState p :=
  fld_setFld s _ lo n v _ 29 3 (by omega) (.inr (.inr h))

theorem flState_setReg (s : State) (p : Nat) {o : Nat} (v : Word) (h : ptFlStatus p ≠ o) : (s.setReg o v).flState p = s.flState p :=
  flState_of_reg (reg_setReg_ne s v h)

theorem flState_keepsPorts {s t : State} (h : KeepsPorts s t) (p : Nat) : t.flState p = s.flState p :=
  flState_of_reg (h _ (portReg_ptFlStatus p))

/-! ### Lanes go OFF -/

theorem portBase_ne_lnStatus (p l : Nat) {k : Nat} (h : k < 0x6000) : portBase p + k ≠ lnStatus p l := by
  unfold lnStatus laneBase
  omega

theorem laneOff_reg (s : State) {p l o : Nat} (h : o ≠ lnStatus p l) : (s.laneOff p l).reg o = s.reg o := by
  rw [State.laneOff, reg_congr (setLane_regs _ _ _ _), reg_setFld, if_neg h, State.setLn, reg_setFld, if_neg h]

/-- Lanes that go OFF write their own status words alone. -/
theorem lanesOff_reg (s : State) (p : Nat) {k : Nat} (h : k < 0x6000) : (s.lanesOff p).reg (portBase p + k) = s.reg (portBase p + k) := by
  refine each_frame (proj := fun t : State => t.reg (portBase p + k)) (fun l t => ?_) _ s
  split
  · rfl
  · exact laneOff_reg t (portBase_ne_lnStatus p l h)

theorem flState_lanesOff (s : State) (p : Nat) : (s.lanesOff p).flState p = s.flState p := flState_of_reg (lanesOff_reg s p (by decide))

theorem laneOff_lnk (s : State) (p l : Nat) : (s.laneOff p l).lnk = s.lnk := by
  rw [State.laneOff, setLane_lnk, setFld_lnk, State.setLn, setFld_lnk]

@[simp] theorem lanesOff_lnk (s : State) (p : Nat) : (s.lanesOff p).lnk = s.lnk := by
  refine each_frame (proj := State.lnk) (fun l t => ?_) _ s
  split
  · rfl
  · exact laneOff_lnk t p l

/-! ### The link goes down (R239, R240) -/

theorem fallback_keepsPorts (s : State) (p : Nat) : KeepsPorts s (s.fallback p) := by
  unfold State.fallback
  dsimp only
  split
  · exact (KeepsPorts.of_regs (setLink_regs _ _ _)).trans (.raise _ _ _)
  · exact .refl s

/-- The last actions for a port that goes down: its port sets, its queues, its rate. -/
theorem demoteReroute_keepsPorts (s : State) (p : Nat) : KeepsPorts s (((s.demotePort p).rerouteQueues p).fallback p) :=
  ((KeepsPorts.of_regs (demotePort_regs s p)).trans (rerouteQueues_keepsPorts _ p)).trans (fallback_keepsPorts _ p)

/-- In training nothing else than the state goes. -/
theorem linkDown_training {s : State} {p : Nat} (cause : Nat) (h1 : 1 ≤ s.flState p) (h3 : s.flState p ≤ 3) (hs : (s.link p).slp ≠ 4) :
    s.linkDown p cause =
      ((s.setFld (ptFlStatus p) 29 3 0).setLink p { s.link p with since := s.tick.loc, conflict := false }).lanesOff p := by
  unfold State.linkDown
  dsimp only
  rw [if_neg (by omega), if_pos ⟨by omega, hs⟩]

/-- What PT_FL_STATUS and PT_FL_NEIGHBOR show of a link that has left L0 or the exit from L1-sleep. -/
theorem flState_downStatus (s : State) (p cause : Nat) :
    ((((((s.setFld (ptFlStatus p) 29 3 0).setFld (ptFlStatus p) 24 4 cause).setBit (ptFlStatus p) 23 false).setBit (ptFlStatus p) 22 false).setFld
      (ptFlStatus p) 16 6 0).setBit (ptFlNeighbor p) 31 false).flState p = 0 := by
  have hne : ptFlStatus p ≠ ptFlNeighbor p := by simp [ptFlStatus, ptFlNeighbor]
  refine (flState_setReg _ p _ hne).trans ?_
  rw [flState_setFld_low _ _ _ (by decide), flState_setBit _ _ _ (by decide), flState_setBit _ _ _ (by decide),
    flState_setFld_low _ _ _ (by decide), flState_setFld]

/-- A link that is taken down is in DOWN. -/
theorem flState_linkDown (s : State) (p cause : Nat) : (s.linkDown p cause).flState p = 0 := by
  have hdown : ptFlStatus p ≠ ptFlDownCnt p := by simp [ptFlStatus, ptFlDownCnt]
  have hlost : ptFlStatus p ≠ ptFlLostMsgCnt p := by simp [ptFlStatus, ptFlLostMsgCnt]
  unfold State.linkDown
  dsimp only
  split
  · next h => exact h
  split
  · rw [flState_lanesOff, flState_setLink, flState_setFld]
  · rw [flState_keepsPorts (demoteReroute_keepsPorts _ p), flState_lanesOff, flState_keepsPorts (.raise _ _ _), State.cnt, State.setN,
      flState_setReg _ _ _ hdown]
    split
    · exact flState_downStatus _ p cause
    · exact (flState_setReg _ p _ hlost).trans (flState_downStatus _ p cause)

/-- PT_FL_CTL stays as it is written when its link goes down. -/
theorem linkDown_ptFlCtl (s : State) (p cause : Nat) : (s.linkDown p cause).reg (ptFlCtl p) = s.reg (ptFlCtl p) := by
  have hstatus : ptFlCtl p ≠ ptFlStatus p := by simp [ptFlCtl, ptFlStatus]
  have hneighbor : ptFlCtl p ≠ ptFlNeighbor p := by simp [ptFlCtl, ptFlNeighbor]
  have hdown : ptFlCtl p ≠ ptFlDownCnt p := by simp [ptFlCtl, ptFlDownCnt]
  have hlost : ptFlCtl p ≠ ptFlLostMsgCnt p := by simp [ptFlCtl, ptFlLostMsgCnt]
  have hoff : ∀ t : State, (t.lanesOff p).reg (ptFlCtl p) = t.reg (ptFlCtl p) := fun t => lanesOff_reg t p (by decide)
  unfold State.linkDown
  dsimp only
  split
  · rfl
  split
  · rw [hoff, reg_congr (setLink_regs _ _ _), reg_setFld, if_neg hstatus]
  · rw [demoteReroute_keepsPorts _ p _ (portReg_ptFlCtl p), hoff, KeepsPorts.raise _ _ _ _ (portReg_ptFlCtl p), reg_cnt, if_neg hdown]
    have hcnt : ∀ (c : Prop) [Decidable c] (t : State) (k : Nat),
        (if c then t else t.cnt (ptFlLostMsgCnt p) k).reg (ptFlCtl p) = t.reg (ptFlCtl p) := by
      intro c _ t k
      split
      · rfl
      · rw [reg_cnt, if_neg hlost]
    rw [hcnt, reg_setBit, if_neg hneighbor, reg_setFld, if_neg hstatus, reg_setBit, if_neg hstatus, reg_setBit, if_neg hstatus, reg_setFld,
      if_neg hstatus, reg_setFld, if_neg hstatus, reg_congr (setLink_regs _ _ _)]
    split
    · exact (ctl_sent _ _ _ _ _).reg _ hstatus
    · rfl

theorem exec_ptFlCtlEnWrite_off {p : PortIx} {s : State} (h : s.present 2 p = true) :
    exec (.ptFlCtlEnWrite p false) s = .next ((s.setBit (ptFlCtl p) 31 false).linkDown p 7) := by
  change s.ifPresent 2 p (ptFlCtl p) (fun t => .next (t.flEnWrite p false)) = _
  rw [State.ifPresent, if_pos h, State.flEnWrite, if_neg Bool.false_ne_true]

theorem exec_ptFlCtlEnWrite_on {p : PortIx} {s : State} (h : s.present 2 p = true) :
    exec (.ptFlCtlEnWrite p true) s = .next ((s.setBit (ptFlCtl p) 31 true).endTests p) := by
  change s.ifPresent 2 p (ptFlCtl p) (fun t => .next (t.flEnWrite p true)) = _
  rw [State.ifPresent, if_pos h, State.flEnWrite, if_pos rfl]

theorem exec_ptFlCtlEnWrite_absent {p : PortIx} {s : State} (h : s.present 2 p = false) (v : Bool) :
    exec (.ptFlCtlEnWrite p v) s = .next (s.raise 0x0101 [.w (ptFlCtl p)]) := if_neg (by rw [h]; decide)

theorem exec_ptFlCtlRateWrite_absent {p : PortIx} {s : State} (h : s.present 2 p = false) (v : BitVec 2) :
    exec (.ptFlCtlRateWrite p v) s = .next (s.raise 0x0101 [.w (ptFlCtl p)]) := if_neg (by rw [h]; decide)

theorem exec_downFlitReceive (p : PortIx) (c : Byte) (s : State) :
    exec (.downFlitReceive p c) s = .next (if 4 ≤ s.flState p then s.linkDown p 4 else s) := (rfl)

theorem exec_markersMissed (p : PortIx) (s : State) : exec (.markersMissed p) s = .next (if s.linkL0 p then s.linkDown p 3 else s) := (rfl)

theorem exec_linkErrorLimit (p : PortIx) (s : State) : exec (.linkErrorLimit p) s =
    .next (if s.linkL0 p ∧ (s.link p).errWin = s.tick.loc.toNat / s.errTicks p + 1 ∧ s.errLimit p < (s.link p).err then s.linkDown p 1 else s) :=
  (rfl)

/-- Settles O34: each command by the condition of its one test; a link that EN = 0 takes down is in DOWN from every state
(`flState_linkDown`), and PT_FL_CTL keeps what was written (`linkDown_ptFlCtl`). -/
theorem linkDowns : Obligations.LinkDowns := by
  refine ⟨fun p s => exec_ptFlCtlEnWrite_off,
    fun p s hp => ⟨exec_ptFlCtlEnWrite_absent hp, exec_ptFlCtlRateWrite_absent hp⟩, fun p s hp _ _ => ?_,
    fun p s => exec_ptFlCtlEnWrite_on, fun p c s h => ?_, fun p c s h => ?_, fun p s h => ?_, fun p s h hw he => ?_, fun p s h => ?_⟩
  · refine ⟨_, exec_ptFlCtlEnWrite_off hp, flState_linkDown _ p 7, ?_⟩
    exact (bit_eq_of_reg (linkDown_ptFlCtl _ p 7) 31).trans (bit_setBit_self s _ 31 false (by decide))
  · rw [exec_downFlitReceive, if_pos h]
  · rw [exec_downFlitReceive, if_neg (Nat.not_le.mpr h)]
  · rw [exec_markersMissed, if_pos h]
  · rw [exec_linkErrorLimit, if_pos ⟨h, hw, he⟩]
  · rw [exec_linkErrorLimit, if_neg fun hx => absurd hx.2.2 (Nat.not_lt.mpr h)]

end Sys2Proof.Machine
end

section
namespace Sys2Proof.Machine

/-! ### Registers of a run of a repeated write -/

theorem each_range_succ (s : State) (n : Nat) (f : Nat → State → State) : s.each (List.range (n + 1)) f = f n (s.each (List.range n) f) := by
  rw [State.each, List.range_succ, List.foldl_append]
  rfl

/-- Three-bit fields of a register that are written one after the other. -/
theorem fld_each_setFld (s : State) (o : Nat) (v : Nat → Nat) {n : Nat} (hn : 3 * n ≤ 32) {g : Nat} (hg : g < n) :
    (s.each (List.range n) (fun g t => t.setFld o (3 * g) 3 (v g))).fld o (3 * g) 3 = v g % 8 := by
  induction n with
  | zero => omega
  | succ n ih =>
    rw [each_range_succ]
    by_cases he : g = n
    · rw [he]
      exact fld_setFld_self _ _ _ _ _ (by omega)
    · rw [fld_setFld _ _ _ _ _ _ _ _ (by omega) (.inr (.inl (by omega))), ih (by omega) (by omega)]

/-- A register that is none of those written one after the other. -/
theorem reg_each_setN (s : State) (a : Nat → Nat) (v : Nat → State → Nat) {n o : Nat} (ho : ∀ c, c < n → o ≠ a c) :
    (s.each (List.range n) (fun c t => t.setN (a c) (v c t))).reg o = s.reg o := by
  induction n with
  | zero => rfl
  | succ n ih => rw [each_range_succ, reg_setN, if_neg (ho n (Nat.lt_succ_self n)), ih fun c hc => ho c (Nat.lt_succ_of_lt hc)]

/-- Registers of distinct offsets that are written one after the other, each from its own value. -/
theorem nreg_each_setN (s : State) (a : Nat → Nat) (v : Nat → Nat → Nat) {n : Nat} (ha : ∀ c d, a c = a d → c = d) {c : Nat} (hc : c < n) :
    (s.each (List.range n) (fun c t => t.setN (a c) (v c (t.nreg (a c))))).nreg (a c) = v c (s.nreg (a c)) % 2 ^ 32 := by
  induction n with
  | zero => omega
  | succ n ih =>
    rw [each_range_succ, State.nreg, reg_setN]
    split
    · next he =>
      rw [ha _ _ he, BitVec.toNat_ofNat, State.nreg, reg_each_setN s a (fun c t => v c (t.nreg (a c))) fun d hd he => absurd (ha _ _ he) (by omega),
        State.nreg]
    · next he => exact ih (Nat.lt_of_le_of_ne (Nat.lt_succ_iff.mp hc) fun h => he (congrArg a h))

theorem eraseDups_of_nodup {α : Type} [BEq α] [LawfulBEq α] {l : List α} (h : l.Nodup) : l.eraseDups = l := by
  induction l with
  | nil => rfl
  | cons a r ih =>
    obtain ⟨ha, hr⟩ := List.nodup_cons.mp h
    have hf : r.filter (fun b => !b == a) = r := List.filter_eq_self.mpr fun b hb => by
      simpa using fun he : b = a => ha (he ▸ hb)
    rw [List.eraseDups_cons, hf, ih hr]

theorem getD_lt {l : List Nat} {b d : Nat} (hl : ∀ x ∈ l, x < b) (hd : d < b) (i : Nat) : l.getD i d < b := by
  rw [List.getD_eq_getElem?_getD]
  cases h : l[i]? with
  | none => exact hd
  | some x => exact hl x (List.mem_of_getElem? h)

/-! ### Bring-up (R232) -/

theorem exec_linkBringupStart (p : PortIx) (s : State) :
    exec (.linkBringupStart p) s = .next (if s.mayTrain p && !(s.link p).wait then s.bringup p else s) := (rfl)

theorem exec_linkTrainRetry (p : PortIx) (s : State) :
    exec (.linkTrainRetry p) s = .next (if s.mayTrain p && (s.link p).wait && decide (1024 ≤ s.flAge p) then s.bringup p else s) := (rfl)

theorem flState_flTo (s : State) (p st : Nat) : (s.flTo p st).flState p = st % 8 :=
  (flState_setLink _ p p _).trans (flState_setFld s p st)

@[simp] theorem link_flTo (s : State) (p st : Nat) : (s.flTo p st).link p = { s.link p with since := s.tick.loc } := link_setLink _ p _

theorem flTo_reg (s : State) {p o : Nat} (st : Nat) (h : o ≠ ptFlStatus p) : (s.flTo p st).reg o = s.reg o := by
  rw [State.flTo, reg_congr (setLink_regs _ _ _), reg_setFld, if_neg h]

@[simp] theorem txStart_regs (s : State) (p : Nat) : (s.txStart p).regs = s.regs := (rfl)

theorem txStart_kept (s : State) (p : Nat) : ((s.txStart p).link p).kept = (s.link p).kept :=
  (congrArg LinkS.kept (link_setLink s.draw.2 p ((s.draw.2.link p).newPeriod s.draw.1))).trans rfl

theorem exec_lanesLocked {p : PortIx} {s : State} (hst : s.flState p = 1) (h4 : 4 ≤ (s.lockedLanes p).length) :
    exec (.lanesLocked p) s = .next (((s.flTo p 2).setBit (ptFlStatus p) 28 (s.trains64 p)).txStart p) := if_pos ⟨hst, h4⟩

/-! ### Lanes are assigned (R285) -/

/-- The far end's locked transmit lanes that two blocks show and PT_FL_LANEMAP does not mark BAD, in order. -/
def State.goodFar (s : State) (p : Nat) (b1 b2 : Word) : List Nat :=
  ((List.range 5).filter (fun l => b1.getLsbD (3 + l) && b2.getLsbD (3 + l))).filter (fun l => !s.bit (ptFlLanemap p) (20 + l))

theorem goodFar_lt (s : State) (p : Nat) (b1 b2 : Word) : ∀ x ∈ s.goodFar p b1 b2, x < 8 := fun x hx => by
  have := List.mem_range.mp (List.mem_of_mem_filter (List.mem_of_mem_filter hx))
  omega

theorem exec_laneAssignment {p : PortIx} {b1 b2 : Word} {s : State} (hst : s.flState p = 1 ∨ s.flState p = 2) (ha : (s.link p).asgn = false)
    (h1 : trainParityOk (blockBits b1) = true) (h2 : trainParityOk (blockBits b2) = true) (h4 : 4 ≤ (s.goodFar p b1 b2).length) :
    exec (.laneAssignment p b1 b2) s =
      .next (((s.each (List.range 4) (fun g t => t.setFld (ptFlLanemap p) (3 * g) 3 ((s.goodFar p b1 b2).getD g 0))).setFld (ptFlLanemap p) 12 3
        ((s.goodFar p b1 b2).getD 4 7)).setLink p { s.link p with asgn := true }) :=
  if_pos ⟨hst, by rw [ha]; rfl, h1, h2, h4.trans (List.length_filter_le _ _), h4⟩

/-- The assigned lanes stand in PT_FL_LANEMAP: logical lanes 0 to 3, then the spare. -/
theorem fld_laneMap (s : State) (o : Nat) {use : List Nat} (hu : ∀ x ∈ use, x < 8) :
    (∀ g, g < 4 → ((s.each (List.range 4) (fun g t => t.setFld o (3 * g) 3 (use.getD g 0))).setFld o 12 3 (use.getD 4 7)).fld o (3 * g) 3 =
      use.getD g 0) ∧
    ((s.each (List.range 4) (fun g t => t.setFld o (3 * g) 3 (use.getD g 0))).setFld o 12 3 (use.getD 4 7)).fld o 12 3 = use.getD 4 7 := by
  refine ⟨fun g hg => ?_, ?_⟩
  · rw [fld_setFld _ _ _ _ _ _ _ _ (by omega) (.inr (.inl (by omega))), fld_each_setFld _ _ _ (by decide) hg,
      Nat.mod_eq_of_lt (getD_lt hu (by decide) g)]
  · rw [fld_setFld_self _ _ _ _ _ (by decide)]
    exact Nat.mod_eq_of_lt (getD_lt hu (by decide) 4)

/-! ### ALIGN and INIT (R231, R232, R237) -/

theorem sendInit_sent (s : State) (p : Nat) (resume : Bool) : Sent p s (s.sendInit p resume) := ctl_sent s p 1 _ _

/-- INIT says whether it resumes a link that slept (R248). -/
theorem sendInit_resume (s : State) (p : Nat) (resume : Bool) :
    ∃ v, Out.ctlFlit p 1 v ∈ (s.sendInit p resume).out ∧ nbit (v.getD 2 0) 0 = resume := by
  refine ⟨_, mem_ctl_out s p 1 _ _, ?_⟩
  change decide ((b2n resume + 2 * b2n (s.bit (ptFlCtl p) 25)) / 2 ^ 0 % 2 = 1) = resume
  cases resume <;> cases s.bit (ptFlCtl p) 25 <;> decide

/-- ALIGN is done: the receive map is the four lanes that the markers name, then the spare if one is left. -/
theorem exec_alignDone {p : PortIx} {m : List LaneIx} {s : State} (hst : s.flState p = 2) (hlen : m.length = 4) (hm : m.Nodup)
    (hlock : m.all (fun l => decide (s.lnState p l = 6)) = true) :
    ∃ spare, exec (.alignDone p m) s = .next (((s.flTo p 3).setLink p { s.link p with since := s.tick.loc, rxMap := m.map (·.val) ++ spare }).sendInit p
      (decide ((s.link p).slp = 4))) := by
  have hdup : (m.map (·.val)).eraseDups.length = 4 := by
    rw [eraseDups_of_nodup (hm.map Fin.val_injective), List.length_map, hlen]
  exact ⟨_, if_pos ⟨hst, by rw [List.length_map, hlen], hdup, by rw [List.all_map]; exact hlock⟩⟩

theorem alignDone_state (s : State) (p : Nat) (l : LinkS) (resume : Bool) :
    (((s.flTo p 3).setLink p l).sendInit p resume).flState p = 3 :=
  (sendInit_sent _ p resume).flState ((flState_setLink _ _ _ _).trans (flState_flTo s p 3)) (by decide)

/-- A link that the far end's INIT has brought up (R232). -/
def LinkS.up (l : LinkS) (m : InitMsg) (now : Tick) : LinkS :=
  { l with farSleep := m.sleepEn, rxPer := (m.period.toNat, 0), fails := 0, conflict := false, busyAt := now, rotAt := now, sp := 0, tsp := 0,
           spared := false, slp := 0 }

/-- What an INIT writes beside the credits: the state, the neighbour, the link. -/
def State.initUp (s : State) (p : Nat) (m : InitMsg) (now : Tick) : State :=
  let u := (s.flTo p 4).setN (ptFlNeighbor p) (2 ^ 31 + m.port.toNat * 2 ^ 20 + m.moduleId)
  (u.setLink p ((u.link p).up m now)).setBit (ptFlStatus p) 23 false

theorem exec_initReceive_fresh {p : PortIx} {m : InitMsg} {s : State} (hst : s.flState p = 3) (hid : m.moduleId.val ≠ s.moduleFid)
    (hv : m.version = 1) (ho : s.offers p m.rates = true) (hr : m.resume = false) (hmin : s.bit glbTickStatus 29 = false) :
    exec (.initReceive p m) s = .next (((s.creditsInit p m).initUp p m s.tick.loc).raise 0x0B01
      [.w p, .w (if s.bit (ptFlStatus p) 28 then 1 else 2), .w m.moduleId, .w m.port.toNat]) := by
  have hl0 : s.linkL0 p = false := by simp [State.linkL0, hst]
  change execInitReceive p m s = _
  unfold execInitReceive
  rw [if_neg (by rw [hl0]; decide), if_neg (by simp [hst, hmin]), if_neg hid, if_neg (by simp [hv, ho]), hr]
  rfl

theorem ptFlCreditRsv_injective (p : Nat) {c d : Nat} (h : ptFlCreditRsv p c = ptFlCreditRsv p d) : c = d := by
  unfold ptFlCreditRsv at h
  omega

/-- The link's credits and its sequence numbers as the far end's INIT gives them (R234, R237). -/
theorem creditsInit_nreg (s : State) (p : Nat) (m : InitMsg) :
    (∀ c, c < 8 → (s.creditsInit p m).nreg (ptFlCreditRsv p c) = byteAt m.rsv c) ∧
    (s.creditsInit p m).nreg (ptFlCreditSh p) = m.pool.toNat - ((List.range 8).map (byteAt m.rsv)).foldl (· + ·) 0 := by
  have hsh : ∀ c, c < 8 → ptFlCreditRsv p c ≠ ptFlCreditSh p := fun c hc => by
    unfold ptFlCreditRsv ptFlCreditSh
    omega
  unfold State.creditsInit
  dsimp only
  simp only [nreg_congr (setLink_regs _ _ _)]
  refine ⟨fun c hc => ?_, ?_⟩
  · rw [State.nreg, reg_setN, if_neg (hsh c hc)]
    refine (nreg_each_setN s (ptFlCreditRsv p) (fun c _ => _) (fun _ _ => ptFlCreditRsv_injective p) hc).trans ?_
    rw [List.getD_eq_getElem _ _ (by simpa using hc), List.getElem_map, List.getElem_range]
    have := byteAt_lt m.rsv c
    omega
  · rw [State.nreg, reg_setN, if_pos rfl, BitVec.toNat_ofNat]
    have := m.pool.isLt
    exact Nat.mod_eq_of_lt (by omega)

theorem creditsInit_link (s : State) (p : Nat) (m : InitMsg) :
    ((s.creditsInit p m).link p).txSeq = 0 ∧ ((s.creditsInit p m).link p).rxSeq = 0 := by
  unfold State.creditsInit
  rw [link_setLink]
  exact ⟨rfl, rfl⟩

theorem creditsInit_ev (s : State) (p : Nat) (m : InitMsg) : (s.creditsInit p m).ev = s.ev := by
  unfold State.creditsInit
  dsimp only
  rw [setLink_ev, setN_ev, each_frame (proj := State.ev) (fun c t => setN_ev t _ _)]

/-- An INIT that brings up the link writes STATE and the neighbour, and keeps every other register. -/
theorem initUp_regs (s : State) (p : Nat) (m : InitMsg) (now : Tick) :
    (s.initUp p m now).flState p = 4 ∧ (s.initUp p m now).nreg (ptFlNeighbor p) = 2 ^ 31 + m.port.toNat * 2 ^ 20 + m.moduleId ∧
    ∀ o, o ≠ ptFlStatus p → o ≠ ptFlNeighbor p → (s.initUp p m now).reg o = s.reg o := by
  have hne : ptFlNeighbor p ≠ ptFlStatus p := by simp [ptFlStatus, ptFlNeighbor]
  unfold State.initUp
  extract_lets u
  refine ⟨?_, ?_, fun o hs hn => ?_⟩
  · rw [flState_setBit _ _ _ (by decide), flState_setLink]
    exact (flState_setReg _ p _ hne.symm).trans (flState_flTo s p 4)
  · rw [State.nreg, reg_setBit, if_neg hne, reg_congr (setLink_regs _ _ _), reg_setN, if_pos rfl, BitVec.toNat_ofNat]
    have := m.port.isLt
    have := m.moduleId.isLt
    exact Nat.mod_eq_of_lt (by omega)
  · rw [reg_setBit, if_neg hs, reg_congr (setLink_regs _ _ _), reg_setN, if_neg hn, flTo_reg _ _ hs]

theorem initUp_link (s : State) (p : Nat) (m : InitMsg) (now : Tick) :
    (s.initUp p m now).link p = ({ s.link p with since := s.tick.loc } : LinkS).up m now := by
  unfold State.initUp
  extract_lets u
  rw [link_setBit, link_setLink, link_setN, link_flTo]

theorem initUp_ev (s : State) (p : Nat) (m : InitMsg) (now : Tick) : (s.initUp p m now).ev = s.ev := by
  unfold State.initUp
  extract_lets u
  rw [setBit_ev, setLink_ev, setN_ev, State.flTo, setLink_ev, setFld_ev]

/-- The neighbour's ID, and that it is known (R38). -/
theorem neighbor_fields {s : State} {o id port : Nat} (h : s.nreg o = 2 ^ 31 + port * 2 ^ 20 + id) (hid : id < 2 ^ 18) (hp : port < 2 ^ 8) :
    s.fld o 0 18 = id ∧ s.bit o 31 = true := by
  rw [State.nreg] at h
  refine ⟨?_, decide_eq_true ?_⟩
  · rw [State.fld, bits, h]
    omega
  · rw [State.fld, bits, h]
    omega

/-! ### Training that makes no progress (R233) -/

theorem fallback_fails (s : State) (p : Nat) : ((s.fallback p).link p).fails = (s.link p).fails := by
  unfold State.fallback
  dsimp only
  split
  · rw [link_raise, link_setLink]
  · rfl

theorem exec_linkTrainTimeout {p : PortIx} {s t : State} (h1 : 1 ≤ s.flState p) (h3 : s.flState p ≤ 3) (hage : 64 ≤ s.flAge p)
    (hc : (s.link p).conflict = false) (hs : (s.link p).slp ≠ 4) (ht : t = (s.linkDown p 0).cnt (ptFlTrainFailCnt p)) :
    exec (.linkTrainTimeout p) s = .next ((t.setLink p { t.link p with fails := (t.link p).fails + 1 }).fallback p) := by
  subst ht
  exact if_pos ⟨h1, h3, hage, by rw [hc]; rfl, hs⟩

/-- A training failure counts (R233). -/
theorem trainFail_nreg {p : Nat} {s : State} (h1 : 1 ≤ s.flState p) (h3 : s.flState p ≤ 3) (hs : (s.link p).slp ≠ 4) (l : LinkS) :
    ((((s.linkDown p 0).cnt (ptFlTrainFailCnt p)).setLink p l).fallback p).nreg (ptFlTrainFailCnt p) =
      min 0xFFFFFFFF (s.nreg (ptFlTrainFailCnt p) + 1) := by
  have hport : PortReg (ptFlTrainFailCnt p) := portReg_portBase p (by decide)
  have hdown : (s.linkDown p 0).reg (ptFlTrainFailCnt p) = s.reg (ptFlTrainFailCnt p) := by
    rw [linkDown_training 0 h1 h3 hs]
    refine (lanesOff_reg _ p (by decide)).trans ?_
    exact (reg_congr (setLink_regs _ _ _) _).trans (reg_setReg_ne _ _ (by simp [ptFlStatus]))
  have hnreg : (s.linkDown p 0).nreg (ptFlTrainFailCnt p) = s.nreg (ptFlTrainFailCnt p) := congrArg BitVec.toNat hdown
  rw [State.nreg, fallback_keepsPorts _ p _ hport, reg_congr (setLink_regs _ _ _)]
  rw [← State.nreg, cnt_nreg, hnreg]

theorem exec_ptFlCtlRateWrite_present {p : PortIx} {s : State} (h : s.present 2 p = true) (v : BitVec 2) :
    exec (.ptFlCtlRateWrite p v) s = .next (s.flRateWrite p v.toNat) := if_pos h

theorem portReg_ptFlCreditRsv (p : Nat) {c : Nat} (h : c < 8) : PortReg (ptFlCreditRsv p c) := by
  unfold ptFlCreditRsv
  rw [Nat.add_assoc]
  exact portReg_portBase p (by omega)

/-- Settles O33: each command by its own equation (`exec_linkBringupStart` to `exec_ptFlCtlRateWrite_present`); the far end's INIT by the
credits of `creditsInit_nreg` and the state and neighbour of `initUp_regs`, a link without progress by `linkDown_training`. -/
theorem linkBringup : Obligations.LinkBringup := by
  refine ⟨fun p s ht hw => ?_, fun p s ht hw hage => ?_, fun p s ht => ⟨?_, ?_⟩, fun p s hst h4 => ?_, ?_, ?_, ?_, ?_, ?_⟩
  · rw [exec_linkBringupStart, if_pos (by simp [ht, hw])]
  · rw [exec_linkTrainRetry, if_pos (by simp [ht, hw, hage])]
  · rw [exec_linkBringupStart, if_neg (by simp [ht])]
  · rw [exec_linkTrainRetry, if_neg (by simp [ht])]
  · refine ⟨_, exec_lanesLocked hst h4, ?_, ?_, ?_⟩
    · rw [flState_of_reg (reg_congr (txStart_regs _ _) _), flState_setBit _ _ _ (by decide), flState_flTo]
    · rw [bit_congr (txStart_regs _ _), bit_setBit_self _ _ _ _ (by decide)]
    · rw [get_of_kept (txStart_kept _ p) LinkS.since, link_setBit, link_flTo]
  · intro p b1 b2 s far use hst ha h1 h2 h4
    obtain ⟨hmap, hspare⟩ := fld_laneMap s (ptFlLanemap p) (goodFar_lt s p b1 b2)
    refine ⟨_, exec_laneAssignment hst ha h1 h2 h4, fun g hg => ?_, ?_, ?_⟩
    · exact (fld_congr (setLink_regs _ _ _) _ _ _).trans (hmap g hg)
    · exact (fld_congr (setLink_regs _ _ _) _ _ _).trans hspare
    · rw [link_setLink]
  · intro p m s hst hlen hm hlock
    obtain ⟨spare, hexec⟩ := exec_alignDone hst hlen hm hlock
    have hsent := sendInit_sent ((s.flTo p 3).setLink p { s.link p with since := s.tick.loc, rxMap := m.map (·.val) ++ spare }) p
      (decide ((s.link p).slp = 4))
    refine ⟨_, hexec, alignDone_state s p _ _, ?_, ?_⟩
    · rw [hsent.get LinkS.rxMap, link_setLink]
      exact List.take_left' (by rw [List.length_map, hlen])
    · rw [hsent.get LinkS.since, link_setLink]
  · intro p m s hst hid hv ho hr hmin
    obtain ⟨hstate, hneighbor, hreg⟩ := initUp_regs (s.creditsInit p m) p m s.tick.loc
    obtain ⟨hrsv, hsh⟩ := creditsInit_nreg s p m
    obtain ⟨htx, hrx⟩ := creditsInit_link s p m
    have hlink := initUp_link (s.creditsInit p m) p m s.tick.loc
    have hraise := KeepsPorts.raise ((s.creditsInit p m).initUp p m s.tick.loc) 0x0B01
      [.w p, .w (if s.bit (ptFlStatus p) 28 then 1 else 2), .w m.moduleId, .w m.port.toNat]
    have hnbr := hraise (ptFlNeighbor p) (portReg_portBase p (by decide))
    obtain ⟨hfid, hvalid⟩ := neighbor_fields hneighbor m.moduleId.isLt m.port.isLt
    refine ⟨_, exec_initReceive_fresh hst hid hv ho hr hmin, ?_, fun c hc => ?_, ?_, ?_, ?_, ?_, ?_, ?_, ?_⟩
    · rw [flState_keepsPorts hraise, hstate]
    · rw [← hrsv c hc]
      refine congrArg BitVec.toNat ((hraise _ (portReg_ptFlCreditRsv p hc)).trans (hreg _ ?_ ?_)) <;>
        simp [ptFlCreditRsv, ptFlStatus, ptFlNeighbor] <;> omega
    · rw [← hsh]
      refine congrArg BitVec.toNat ((hraise _ (portReg_portBase p (by decide))).trans (hreg _ ?_ ?_)) <;>
        simp [ptFlStatus, ptFlNeighbor]
    · exact (congrArg (bits · 0 18) hnbr).trans hfid
    · exact (bit_eq_of_reg hnbr 31).trans hvalid
    · rw [link_raise, hlink]; exact htx
    · rw [link_raise, hlink]; exact hrx
    · rw [link_raise, hlink]; rfl
    · rw [raise_seq, initUp_ev, creditsInit_ev]
  · intro p s h1 h3 hage hc hs
    refine ⟨_, exec_linkTrainTimeout h1 h3 hage hc hs rfl, ?_, ?_, ?_⟩
    · rw [flState_keepsPorts (fallback_keepsPorts _ p), flState_setLink]
      exact (flState_setReg _ p _ (by simp [ptFlStatus, ptFlTrainFailCnt])).trans (flState_linkDown s p 0)
    · rw [fallback_fails, link_setLink, link_cnt, linkDown_training 0 h1 h3 hs, link_congr (lanesOff_lnk _ _), link_setLink]
    · exact trainFail_nreg h1 h3 hs _
  · intro p v s hp
    refine ⟨_, exec_ptFlCtlRateWrite_present hp v, ?_, ?_⟩
    · refine (fld_congr (setLink_regs _ _ _) _ _ _).trans ?_
      rw [fld_setFld_self _ _ _ _ _ (by decide)]
      exact Nat.mod_eq_of_lt v.isLt
    · rw [State.flRateWrite, link_setLink]
      exact ⟨rfl, rfl, rfl⟩

end Sys2Proof.Machine
end

section
namespace Sys2Proof.Machine

/-! ### Bytes go out (R227, R234) -/

/-- A link whose stream has gone into `n` DATA flits. -/
def LinkS.pumped (l : LinkS) (now : Tick) (n : Nat) : LinkS :=
  { l with
    txSeq := (l.txSeq + n) % 4096, busyAt := now, dataAt := now, ackAt := (if l.unacked = 0 then now else l.ackAt)
    tx := { l.tx with str := l.tx.str.drop (112 * n), hds := (l.tx.hds.filter (fun h => decide (112 * n ≤ h))).map (· - 112 * n),
                      buf := l.tx.buf ++ l.nextFlits n } }

/-- The state that the codewords of `n` new DATA flits leave from: the flits are counted. -/
def State.pumpStart (s : State) (p n : Nat) : State :=
  ((s.setLink p ((s.link p).pumped s.tick.loc n)).cnt64 (ptFlTxFlitCnt p) n).bwAdd p 0 (128 * n)

/-- The stream goes into as many DATA flits as it fills and the replay buffer has room for. -/
theorem pump_sent (s : State) (p : Nat) {n : Nat} (hn : min (ceilDiv (s.link p).tx.str.length 112) (4095 - (s.link p).unacked) = n) :
    n = 0 ∧ s.pump p = s ∨ Sent p (s.pumpStart p n) (s.pump p) := by
  subst hn
  unfold State.pump
  dsimp only
  split
  · next h => exact .inl ⟨h, rfl⟩
  · exact .inr (sendFlits_sent _ _ _)

theorem pump_of_empty {s : State} {p : Nat} (h : (s.link p).tx.str = []) : s.pump p = s := by
  unfold State.pump
  dsimp only
  rw [if_pos (by rw [h]; exact Nat.zero_min _)]

@[simp] theorem link_pumpStart (s : State) (p n : Nat) : (s.pumpStart p n).link p = (s.link p).pumped s.tick.loc n := by
  rw [State.pumpStart, link_bwAdd, link_cnt64, link_setLink]

theorem pumpStart_reg (s : State) {p o : Nat} (n : Nat) (ho : PortReg o) (h : o ≠ ptFlTxFlitCnt p) (h4 : o ≠ ptFlTxFlitCnt p + 4) :
    (s.pumpStart p n).reg o = s.reg o := by
  rw [State.pumpStart, reg_congr (bwAdd_regs _ _ _ _), cnt64_reg _ _ h h4 (ho.ne (not_portReg_core (by decide))), reg_congr (setLink_regs _ _ _)]

theorem pumpStart_status (s : State) (p n : Nat) : (s.pumpStart p n).reg (ptFlStatus p) = s.reg (ptFlStatus p) :=
  pumpStart_reg s n (portReg_ptFlStatus p) (by simp [ptFlStatus, ptFlTxFlitCnt]) (by simp [ptFlStatus, ptFlTxFlitCnt])

/-- Sending DATA flits changes neither the state nor any other field of PT_FL_STATUS in L0. -/
theorem pump_status {s : State} {p : Nat} (h : s.flState p = 4) {i : Nat} (hi : i < 29) :
    (s.pump p).flState p = 4 ∧ (s.pump p).bit (ptFlStatus p) i = s.bit (ptFlStatus p) i := by
  rcases pump_sent s p rfl with ⟨-, he⟩ | hsent
  · rw [he]
    exact ⟨h, rfl⟩
  · exact ⟨hsent.flState ((flState_of_reg (pumpStart_status s p _)).trans h) (by decide),
      (hsent.bit hi).trans (bit_eq_of_reg (pumpStart_status s p _) i)⟩

/-- What sending DATA flits has no part in is as it was. -/
theorem pump_get {α : Type} (s : State) (p : Nat) (f : LinkS → α) (hf : ∀ l, f l.kept = f l := by intro; rfl)
    (hp : ∀ l now n, f (LinkS.pumped l now n) = f l := by intros; rfl) : f ((s.pump p).link p) = f (s.link p) := by
  rcases pump_sent s p rfl with ⟨-, he⟩ | hsent
  · rw [he]
  · rw [hsent.get f hf, link_pumpStart, hp]

/-! ### Into L1-sleep and out of it (R247, R248) -/

theorem relockStart_frame (s : State) (p l : Nat) : (s.relockStart p l).regs = s.regs ∧ (s.relockStart p l).lnk = s.lnk := by
  unfold State.relockStart
  split <;> exact ⟨rfl, rfl⟩

/-- The exit's first state: SLEEP_WAKE is shown, the lanes re-lock, a period begins. -/
theorem sleepExit_spec (s : State) (p : Nat) :
    (s.sleepExit p).flState p = 2 ∧ (s.sleepExit p).bit (ptFlStatus p) 23 = true ∧
    ((s.sleepExit p).link p).slp = 4 ∧ ((s.sleepExit p).link p).txSeq = (s.link p).txSeq ∧
    ((s.sleepExit p).link p).tx.buf = (s.link p).tx.buf := by
  have hlane : ∀ (l : Nat) (t : State), let u := if (s.link p).rxMap.take 4 |>.contains l then t.relockStart p l else t
      (u.regs, u.lnk) = (t.regs, t.lnk) := by
    intro l t
    dsimp only
    split
    · obtain ⟨hr, hl⟩ := relockStart_frame t p l
      rw [hr, hl]
    · rfl
  unfold State.sleepExit
  extract_lets l s1
  have hframe := each_frame (proj := fun t : State => (t.regs, t.lnk)) hlane (List.range 5) s1
  obtain ⟨hregs, hlnk⟩ := Prod.mk.inj hframe
  refine ⟨?_, ?_, ?_⟩
  · rw [flState_of_reg (reg_congr hregs _), flState_setLink, flState_setFld]
  · rw [bit_congr hregs, bit_congr (setLink_regs _ _ _), bit_setFld _ _ _ _ _ _ _ (by decide) (.inr (.inl (by decide))),
      bit_setBit_self _ _ _ _ (by decide)]
  · rw [link_congr hlnk, link_setLink]
    exact ⟨rfl, rfl, rfl⟩

/-- Both ends are committed: two more codewords, then L1-sleep (R247). -/
def State.sleepCommit (s : State) (p : Nat) (latch : Bool) : State :=
  let s0 := ((s.quietExit p).sendCw p false []).sendCw p false []
  let s1 := ((s0.setFld (ptFlStatus p) 29 3 6).setBit (ptFlStatus p) 23 latch).cnt (ptFlSleepCnt p)
  s1.setLink p { s1.link p with slp := 3, wake := false, slpAt := s.tick.loc }

theorem sleepEnter_eq (s : State) (p : Nat) (latch : Bool) :
    s.sleepEnter p latch = if latch then (s.sleepCommit p latch).sleepExit p else s.sleepCommit p latch := (rfl)

theorem sleepCommit_status (s : State) (p : Nat) (latch : Bool) :
    (s.sleepCommit p latch).flState p = 6 ∧ (s.sleepCommit p latch).bit (ptFlStatus p) 23 = latch := by
  have hcnt : ∀ t : State, (t.cnt (ptFlSleepCnt p)).reg (ptFlStatus p) = t.reg (ptFlStatus p) := fun t => by
    rw [reg_cnt, if_neg (by simp [ptFlStatus, ptFlSleepCnt])]
  rw [State.sleepCommit, flState_setLink, bit_congr (setLink_regs _ _ _), flState_of_reg (hcnt _), bit_eq_of_reg (hcnt _)]
  exact ⟨(flState_setBit _ _ _ (by decide)).trans (flState_setFld _ _ _), bit_setBit_self _ _ _ _ (by decide)⟩

theorem sleepCommit_link (s : State) (p : Nat) (latch : Bool) :
    ((s.sleepCommit p latch).link p).slp = 3 ∧ ((s.sleepCommit p latch).link p).txSeq = (s.link p).txSeq ∧
    ((s.sleepCommit p latch).link p).tx.buf = (s.link p).tx.buf := by
  have hsent : Sent p s (((s.quietExit p).sendCw p false []).sendCw p false []) :=
    ((quietExit_sent s p).trans (sendCw_sent _ p _ _)).trans (sendCw_sent _ p _ _)
  rw [State.sleepCommit, link_setLink, link_cnt, link_setBit, link_setFld]
  exact ⟨rfl, hsent.get LinkS.txSeq, hsent.get (fun l => l.tx.buf)⟩

/-- A latched wake starts the exit at once. -/
theorem sleepEnter_spec (s : State) (p : Nat) (latch : Bool) :
    (s.sleepEnter p latch).flState p = (if latch then 2 else 6) ∧ (s.sleepEnter p latch).bit (ptFlStatus p) 23 = latch ∧
    ((s.sleepEnter p latch).link p).slp = (if latch then 4 else 3) ∧ ((s.sleepEnter p latch).link p).txSeq = (s.link p).txSeq ∧
    ((s.sleepEnter p latch).link p).tx.buf = (s.link p).tx.buf := by
  obtain ⟨hstate, hbit⟩ := sleepCommit_status s p latch
  obtain ⟨hslp, hseq, hbuf⟩ := sleepCommit_link s p latch
  obtain ⟨estate, ebit, eslp, eseq, ebuf⟩ := sleepExit_spec (s.sleepCommit p latch) p
  rw [hseq] at eseq
  rw [hbuf] at ebuf
  rw [sleepEnter_eq]
  split
  · next h => exact ⟨estate, ebit.trans h.symm, eslp, eseq, ebuf⟩
  · exact ⟨hstate, hbit, hslp, hseq, hbuf⟩

/-! ### The commands of R246 to R248 -/

theorem exec_quietEnter {p : PortIx} {s : State} (hst : s.flState p = 4) (hen : s.bit (ptFlCtl p) 26 = true) (hu : (s.link p).unacked = 0)
    (hq : s.quietTicks p ≤ ticksSince (s.link p).dataAt s.tick.loc) :
    exec (.quietEnter p) s = .next ((s.sendCw p true []).setFld (ptFlStatus p) 29 3 5) := by
  change Host.Outcome.next (ite _ _ _) = _
  rw [if_pos ⟨hst, hen, hu, hq⟩]

theorem linkL0_of_sleepOk {s : State} {p : Nat} (h : s.sleepOk p = true) : s.linkL0 p = true := by
  simp only [State.sleepOk, Bool.and_eq_true] at h
  exact h.1.1.1.1.1.1

theorem linkL0_of_asleep {s : State} {p : Nat} (h : s.flState p = 6) : s.linkL0 p = false := by
  simp [State.linkL0, h]

theorem exec_sleepIdleTimer {p : PortIx} {s : State} (ho : s.sleepOk p = true) (h : (s.link p).slp = 0) :
    exec (.sleepIdleTimer p) s = .next ((s.setLink p { s.link p with slp := 1 }).pwrFlit p 1) := by
  change Host.Outcome.next (ite _ _ _) = _
  rw [if_pos ⟨ho, h⟩]

theorem exec_sleepReqReceive {p : PortIx} {s : State} (hl : s.linkL0 p = true) (h : (s.link p).slp = 0) :
    exec (.sleepReqReceive p) s = .next (s.sleepAnswer p) := by
  change execSleepReqReceive p s = _
  unfold execSleepReqReceive
  rw [if_neg (by simp [hl]), if_neg (by simp [h]), if_pos (by simp [h])]

theorem exec_sleepAckReceive_initiator {p : PortIx} {s : State} (hl : s.linkL0 p = true) (h : (s.link p).slp = 1) :
    exec (.sleepAckReceive p) s = .next ((s.pwrFlit p 2).sleepEnter p false) := by
  change execSleepAckReceive p s = _
  unfold execSleepAckReceive
  rw [if_neg (by simp [hl]), if_pos h]

theorem exec_sleepAckReceive_responder {p : PortIx} {s : State} (hl : s.linkL0 p = true) (h : (s.link p).slp = 2) :
    exec (.sleepAckReceive p) s = .next (s.sleepEnter p (s.link p).wake) := by
  change execSleepAckReceive p s = _
  unfold execSleepAckReceive
  rw [if_neg (by simp [hl]), if_neg (by simp [h]), if_pos h]

theorem exec_wakeReceive_initiator {p : PortIx} {s : State} (hl : s.linkL0 p = true) (h : (s.link p).slp = 1) :
    exec (.wakeReceive p) s = .next ((s.setLink p { s.link p with slp := 0 }).pwrFlit p 4) := if_pos ⟨h, hl⟩

theorem exec_wakeReceive_asleep {p : PortIx} {s : State} (hst : s.flState p = 6) (h : (s.link p).slp = 3) :
    exec (.wakeReceive p) s = .next (s.sleepExit p) := by
  change execWakeReceive p s = _
  unfold execWakeReceive
  rw [if_neg (by simp [h]), if_pos ⟨h, hst⟩]

theorem exec_sleepWakeEvent_responder {p : PortIx} {s : State} (hl : s.linkL0 p = true) (h : (s.link p).slp = 2) :
    exec (.sleepWakeEvent p) s = .next ((s.setLink p { s.link p with wake := true }).pwrFlit p 5) := by
  change execSleepWakeEvent p s = _
  unfold execSleepWakeEvent
  rw [if_pos hl, if_neg (by simp [h]), if_pos h]

theorem exec_sleepWakeEvent_asleep {p : PortIx} {s : State} (hst : s.flState p = 6) (h : (s.link p).slp = 3) :
    exec (.sleepWakeEvent p) s = .next (s.sleepExit p) := by
  change execSleepWakeEvent p s = _
  unfold execSleepWakeEvent
  rw [if_neg (by simp [linkL0_of_asleep hst]), if_pos ⟨hst, h⟩]

theorem exec_rxElectricalIdleDetect {p : PortIx} {s : State} (hl : s.linkL0 p = true) (h : (s.link p).slp = 2) :
    exec (.rxElectricalIdleDetect p) s = .next (s.sleepEnter p (s.link p).wake) := by
  change Host.Outcome.next (ite _ _ _) = _
  rw [if_pos ⟨hl, h⟩]

/-- The state of a link whose exit from L1-sleep is done, before what waits is sent (R248). -/
def State.awake (s : State) (p : Nat) (now : Tick) : State :=
  let u := (s.flTo p 4).setBit (ptFlStatus p) 23 false
  u.setLink p { u.link p with slp := 0, busyAt := now }

/-- The exit passes ALIGN and INIT, unless it has, and ends in L0. -/
theorem exec_sleepExitDone_ok {p : PortIx} {s : State} (h : (s.link p).slp = 4) (ht : ticksSince (s.link p).slpAt s.tick.loc ≤ 16) :
    ∃ u : State, exec (.sleepExitDone p true) s = .next ((u.awake p s.tick.loc).pump p) := by
  refine ⟨if s.flState p = 3 then s else (s.flTo p 3).sendInit p true, ?_⟩
  change execSleepExitDone p true s = _
  unfold execSleepExitDone
  rw [if_pos h, if_pos ⟨rfl, ht⟩]
  rfl

theorem exec_sleepExitDone_fails {p : PortIx} {s : State} (h : (s.link p).slp = 4) :
    exec (.sleepExitDone p false) s = .next (s.linkDown p 3) := by
  change execSleepExitDone p false s = _
  unfold execSleepExitDone
  rw [if_pos h, if_neg (by simp)]

theorem awake_spec (s : State) (p : Nat) (now : Tick) :
    (s.awake p now).flState p = 4 ∧ (s.awake p now).bit (ptFlStatus p) 23 = false ∧ ((s.awake p now).link p).slp = 0 := by
  unfold State.awake
  extract_lets u
  refine ⟨?_, ?_, ?_⟩
  · rw [flState_setLink, flState_setBit _ _ _ (by decide), flState_flTo]
  · rw [bit_congr (setLink_regs _ _ _), bit_setBit_self _ _ _ _ (by decide)]
  · rw [link_setLink]

/-- Settles O38: each command by its own equation (`exec_quietEnter` to `exec_sleepExitDone_fails`); L1-sleep and its exit by
`sleepEnter_spec` and `sleepExit_spec`, what a control flit leaves of its link by `Sent`. -/
theorem linkSleep : Obligations.LinkSleep := by
  refine ⟨?_, ?_, ?_, ?_, ?_, ?_, ?_, ?_, ?_, ?_, ?_, ?_, ?_, ?_, ?_, ?_⟩
  · intro p s hst hen hu hq
    have hsent := sendCw_sent s p true []
    refine ⟨_, exec_quietEnter hst hen hu hq, flState_setFld _ _ _, ?_, ?_⟩
    · rw [link_setFld, hsent.get LinkS.txSeq]
    · rw [link_setFld, hsent.get (fun l => l.tx.buf)]
  · intro p s ho h
    refine ⟨_, exec_sleepIdleTimer ho h, ?_, mem_pwrFlit_out _ p 1⟩
    rw [(pwrFlit_sent _ p 1).get LinkS.slp, link_setLink]
  · intro p s ho h
    refine ⟨_, exec_sleepReqReceive (linkL0_of_sleepOk ho) h, ?_⟩
    rw [State.sleepAnswer, if_pos ho, (pwrFlit_sent _ p 2).get LinkS.slp, (pwrFlit_sent _ p 2).get LinkS.slpAt, link_setLink]
    exact ⟨rfl, rfl, mem_pwrFlit_out _ p 2⟩
  · intro p s hl ho h
    refine ⟨_, exec_sleepReqReceive hl h, ?_⟩
    rw [State.sleepAnswer, if_neg (by simp [ho]), (pwrFlit_sent _ p 3).get LinkS.slp, link_setLink]
    exact ⟨rfl, mem_pwrFlit_out _ p 3⟩
  · rintro p s hl (h | ⟨h, hw⟩)
    · obtain ⟨hstate, hbit, hslp, -⟩ := sleepEnter_spec (s.pwrFlit p 2) p false
      exact ⟨_, exec_sleepAckReceive_initiator hl h, hstate, hslp, hbit⟩
    · obtain ⟨hstate, hbit, hslp, -⟩ := sleepEnter_spec s p false
      exact ⟨_, by rw [exec_sleepAckReceive_responder hl h, hw], hstate, hslp, hbit⟩
  · intro p s hl h hw
    obtain ⟨hstate, hbit, hslp, hseq, hbuf⟩ := sleepEnter_spec s p true
    exact ⟨_, by rw [exec_sleepAckReceive_responder hl h, hw], hstate, hslp, hbit, hseq, hbuf⟩
  · intro p s h
    exact congrArg Host.Outcome.next (if_pos h)
  · intro p s h
    exact congrArg Host.Outcome.next (if_pos h)
  · intro p s hl h
    refine ⟨_, exec_wakeReceive_initiator hl h, ?_, mem_pwrFlit_out _ p 4⟩
    rw [(pwrFlit_sent _ p 4).get LinkS.slp, link_setLink]
  · intro p s hl h
    refine ⟨_, exec_sleepWakeEvent_responder hl h, ?_, ?_, mem_pwrFlit_out _ p 5⟩
    · rw [(pwrFlit_sent _ p 5).get LinkS.slp, link_setLink]
      exact h
    · rw [(pwrFlit_sent _ p 5).get LinkS.wake, link_setLink]
  · intro p s hst h
    exact ⟨exec_wakeReceive_asleep hst h, exec_sleepWakeEvent_asleep hst h⟩
  · intro p s h ht
    exact congrArg Host.Outcome.next (if_pos ⟨h, ht⟩)
  · intro p s hl h
    obtain ⟨hstate, hbit, -⟩ := sleepEnter_spec s p (s.link p).wake
    exact ⟨_, exec_rxElectricalIdleDetect hl h, hstate, hbit⟩
  · intro p m s hst h hlen hm hlock
    obtain ⟨spare, hexec⟩ := exec_alignDone hst hlen hm hlock
    rw [h, decide_eq_true rfl] at hexec
    obtain ⟨v, hv, hresume⟩ := sendInit_resume ((s.flTo p 3).setLink p { s.link p with since := s.tick.loc, rxMap := m.map (·.val) ++ spare }) p true
    refine ⟨_, v, hexec, alignDone_state s p _ _, ?_, hv, hresume⟩
    rw [(sendInit_sent _ p true).get LinkS.slp, link_setLink]
    exact h
  · intro p s h ht
    obtain ⟨u, hexec⟩ := exec_sleepExitDone_ok h ht
    obtain ⟨hstate, hbit, hslp⟩ := awake_spec u p s.tick.loc
    obtain ⟨hpump, hpumpBit⟩ := pump_status hstate (i := 23) (by decide)
    exact ⟨_, hexec, hpump, (pump_get _ p LinkS.slp).trans hslp, hpumpBit.trans hbit⟩
  · intro p s h
    exact exec_sleepExitDone_fails h

end Sys2Proof.Machine
end

section
namespace Sys2Proof.Machine

/-! ### SPARE flits (R243) -/

@[simp] theorem setSpare_ev (s : State) (p st l : Nat) : (s.setSpare p st l).ev = s.ev := by rw [State.setSpare, setFld_ev, setFld_ev]

/-- The receiving end asks for a lane (R243). -/
theorem spareBegin_spec (s : State) (p lane : Nat) (rot : Bool) :
    ((s.spareBegin p lane rot).link p).sp = 1 ∧ ((s.spareBegin p lane rot).link p).spLane = lane ∧
    ((s.spareBegin p lane rot).link p).spRot = rot ∧ ((s.spareBegin p lane rot).link p).rotNext = (s.link p).rotNext ∧
    ((s.spareBegin p lane rot).link p).rotAt = (s.link p).rotAt ∧ Out.ctlFlit p 6 [1, lane, b2n rot, 0, 0] ∈ (s.spareBegin p lane rot).out := by
  have hsent := spareFlit_sent ((s.setLink p { s.link p with
    sp := 1, spLane := lane, spAt := s.tick.loc, spRot := rot, spOld := (s.link p).rxMap.getD lane 0 }).setSpare p 1 lane) p 1 lane rot (0, 0)
  rw [State.spareBegin, hsent.get LinkS.sp, hsent.get LinkS.spLane, hsent.get LinkS.spRot, hsent.get LinkS.rotNext, hsent.get LinkS.rotAt,
    link_setSpare, link_setLink]
  exact ⟨rfl, rfl, rfl, rfl, rfl, mem_spareFlit_out _ p 1 lane rot (0, 0)⟩

/-- A replacement falls due while the spare is idle. -/
theorem replaceLane_begins {s : State} {p ls : Nat} (hsp : (s.link p).rxSpare = some ls) (hd : (s.link p).spared = false) (h0 : (s.link p).sp = 0)
    (lane : Nat) (failed : Bool) : s.replaceLane p lane failed = s.spareBegin p lane false := by
  unfold State.replaceLane
  dsimp only
  rw [if_neg (by simp [hsp, hd]), if_pos h0]

/-- The state in which DONE has been sent. -/
def State.doneSent (s : State) (p : Nat) : State :=
  ((s.setLink p { s.link p with sp := 4, spRot := false }).setSpare p 2 (s.link p).spLane).spareFlit p 4 (s.link p).spLane false (0, 0)

theorem spareDone_of_noDue {s : State} {p : Nat} (hd : (s.link p).dueLane = none) :
    s.spareDone p = (((s.doneSent p).cnt (ptFlSwapCnt p)).raise 0x0B03 [.w p, .w 0, .w (s.link p).spLane, .w (s.link p).spOld]).setLink p
      { ((s.doneSent p).cnt (ptFlSwapCnt p)).link p with dueLane := none } := by
  unfold State.spareDone
  dsimp only
  split
  next h => cases hd.symm.trans h
  next => rfl

theorem doneSent_sent (s : State) (p : Nat) :
    Sent p ((s.setLink p { s.link p with sp := 4, spRot := false }).setSpare p 2 (s.link p).spLane) (s.doneSent p) := by
  unfold State.doneSent
  exact spareFlit_sent _ p 4 _ false (0, 0)

theorem mem_doneSent_out (s : State) (p : Nat) : Out.ctlFlit p 6 [4, (s.link p).spLane, 0, 0, 0] ∈ (s.doneSent p).out := by
  unfold State.doneSent
  exact mem_spareFlit_out _ p 4 _ false (0, 0)

/-- Ending what was due leaves the spare's state and the map. -/
theorem noDue_sp (l : LinkS) : ({ l with dueLane := none } : LinkS).sp = l.sp := rfl
theorem noDue_rxMap (l : LinkS) : ({ l with dueLane := none } : LinkS).rxMap = l.rxMap := rfl

/-- The last row at the receiving end: DONE, the event. -/
theorem spareDone_spec {s : State} {p : Nat} (hd : (s.link p).dueLane = none) :
    ((s.spareDone p).link p).sp = 4 ∧ ((s.spareDone p).link p).rxMap = (s.link p).rxMap ∧
    Out.ctlFlit p 6 [4, (s.link p).spLane, 0, 0, 0] ∈ (s.spareDone p).out ∧ (s.spareDone p).ev.seq = s.ev.seq + 1 := by
  have hsent := doneSent_sent s p
  rw [spareDone_of_noDue hd, link_setLink, link_cnt, setLink_out, raise_out, cnt_out, setLink_ev, raise_seq, cnt_ev, hsent.ev, setSpare_ev,
    setLink_ev, noDue_sp, noDue_rxMap, hsent.get LinkS.sp, hsent.get LinkS.rxMap, link_setSpare, link_setLink]
  exact ⟨rfl, rfl, mem_doneSent_out s p, rfl⟩

/-! ### The commands of R242 to R245 -/

theorem exec_laneCeThreshold {p : PortIx} {g : Fin 4} {s : State} (hl : s.linkL0 p = true) (hen : s.bit (ptFlCtl p) 28 = true)
    (hw : (s.link p).ceWin = s.tick.loc.toNat / ((if s.fld (ptFlSpareCtl p) 0 8 = 0 then 4 else s.fld (ptFlSpareCtl p) 0 8) * 256) + 1)
    (hce : s.fld (ptFlSpareCtl p) 16 16 < tget 0 (s.link p).ce g) :
    exec (.laneCeThreshold p g) s = .next (s.replaceLane p g false) := by
  change Host.Outcome.next (ite _ _ _) = _
  rw [if_pos ⟨hl, hen, hw, hce⟩]

theorem exec_rotationInterval {p : PortIx} {s : State} (hl : s.linkL0 p = true) (hen : s.bit (ptFlCtl p) 27 = true) (h0 : (s.link p).sp = 0)
    (hd : (s.link p).spared = false) {ls : Nat} (hsp : (s.link p).rxSpare = some ls) (he : (s.link p).err ≤ s.errLimit p / 2)
    (hi : (if s.fld (ptFlSpareCtl p) 8 8 = 0 then 1 else s.fld (ptFlSpareCtl p) 8 8) * 65536 ≤ ticksSince (s.link p).rotAt s.tick.loc) :
    exec (.rotationInterval p) s = .next ((s.setLink p { s.link p with rotNext := ((s.link p).rotNext + 1) % 4, rotAt := s.tick.loc }).spareBegin p
      (s.link p).rotNext true) := by
  have hquiet : decide (s.errLimit p / 2 < (s.link p).err) = false := decide_eq_false (Nat.not_lt.mpr he)
  change execRotationInterval p s = _
  unfold execRotationInterval
  dsimp only
  rw [if_pos ⟨hl, hen, h0, by rw [hd]; rfl, by rw [hsp]; rfl, by rw [hquiet, Bool.and_false]; rfl, hi⟩]

theorem exec_spareReqReceive {p : PortIx} {s : State} (g : Fin 4) (rot : Bool) (hl : s.linkL0 p = true) (hm : s.fld (ptFlLanemap p) 12 3 ≠ 7) :
    exec (.spareReqReceive p g rot) s =
      .next ((s.setLink p { s.link p with tsp := 1, tspLane := g, tspRot := rot, tspCw := none }).spareFlit p 2 g rot (0, 0)) := by
  change execSpareReqReceive p g rot s = _
  unfold execSpareReqReceive
  dsimp only
  rw [if_neg (by simp [hl, hm])]

theorem exec_spareReadyReceive {p : PortIx} {g : Fin 4} {ls : Nat} {s : State} (hl : s.linkL0 p = true) (h1 : (s.link p).sp = 1)
    (hg : (s.link p).spLane = g.val) (hsp : (s.link p).rxSpare = some ls) :
    exec (.spareReadyReceive p g) s = .next ((s.setLink p { s.link p with sp := 2, spReady := s.tick.loc }).relockStart p ls) := by
  change execSpareReadyReceive p g s = _
  unfold execSpareReadyReceive
  dsimp only
  rw [if_pos ⟨hl, h1, hg⟩, hsp]

theorem exec_spareRepeatTimer {p : PortIx} {s : State} (h : (s.link p).sp = 1 ∨ (s.link p).sp = 4) :
    exec (.spareRepeatTimer p) s = .next (s.spareFlit p (s.link p).sp (s.link p).spLane (s.link p).spRot (0, 0)) := by
  change execSpareRepeatTimer p s = _
  unfold execSpareRepeatTimer
  rcases h with h | h
  · rw [if_pos h, h]
  · rw [if_neg (by simp [h]), if_pos h, h]

theorem exec_spareDwellEnd {p : PortIx} {per : BitVec 16} {cw : Byte} {ls : Nat} {s : State} (hl : s.linkL0 p = true) (h2 : (s.link p).sp = 2)
    (hsp : (s.link p).rxSpare = some ls) (ht : 63 ≤ ticksSince (s.link p).spReady s.tick.loc) (hlock : s.lnState p ls = 6)
    (ha : (s.link p).ahead16 per.toNat cw.toNat = true) :
    exec (.spareDwellEnd p per cw) s = .next ((s.setLink p { s.link p with sp := 3, spCw := (per.toNat, cw.toNat) }).spareFlit p 3 (s.link p).spLane
      (s.link p).spRot (per.toNat, cw.toNat)) := by
  change execSpareDwellEnd p per cw s = _
  unfold execSpareDwellEnd
  dsimp only
  rw [hsp]
  exact if_pos ⟨hl, h2, ht, hlock, ha⟩

theorem exec_spareSwitchPoint {p : PortIx} {ls : Nat} {s : State} (hl : s.linkL0 p = true) (h3 : (s.link p).sp = 3)
    (hsp : (s.link p).rxSpare = some ls) (hr : (s.link p).spRot = false) :
    exec (.spareSwitchPoint p) s = .next ((s.setLink p { s.link p with rxMap := (s.link p).rxMap.set (s.link p).spLane ls }).spareDone p) := by
  change execSpareSwitchPoint p s = _
  unfold execSpareSwitchPoint
  dsimp only
  rw [if_neg (by simp [hl])]
  split
  next lane hthree hspare =>
    obtain rfl : ls = lane := Option.some.inj (hsp.symm.trans hspare)
    rw [if_neg (by simp [hr])]
  next hsix => cases h3.symm.trans hsix
  next hnone => exact absurd hsp (hnone _ h3)

theorem exec_spareLockTimeout {p : PortIx} {s : State} (h : (s.link p).sp = 1 ∨ (s.link p).sp = 2) (ht : 250 ≤ ticksSince (s.link p).spAt s.tick.loc)
    (hr : (s.link p).spRot = false) :
    exec (.spareLockTimeout p) s =
      .next ((((s.setLink p { s.link p with sp := 0 }).setSpare p 0 0).spareFlit p 5 (s.link p).spLane false (0, 0)).raise 0x0B04 []) := by
  change execSpareLockTimeout p s = _
  unfold execSpareLockTimeout
  dsimp only
  rw [if_pos ⟨h, ht⟩, hr, if_neg Bool.false_ne_true]

theorem exec_recalibrationDone {p : PortIx} {per : BitVec 16} {cw : Byte} {s : State} (hl : s.linkL0 p = true) (h5 : (s.link p).sp = 5)
    (hlock : s.lnState p (s.link p).spOld = 6) (ha : (s.link p).ahead16 per.toNat cw.toNat = true) :
    exec (.recalibrationDone p per cw) s =
      .next ((((s.setLane p (s.link p).spOld { s.laneS p (s.link p).spOld with recal := false }).setLink p
        { s.link p with sp := 6, spCw := (per.toNat, cw.toNat) }).setSpare p 4 (s.link p).spLane).spareFlit p 3 (s.link p).spLane true
          (per.toNat, cw.toNat)) := by
  change execRecalibrationDone p per cw s = _
  unfold execRecalibrationDone
  dsimp only
  rw [if_pos ⟨hl, h5, .inr ⟨hlock, ha⟩⟩, if_neg (by simp [hlock])]

/-- What the transmitting end writes when the lane is read from the spare: its map, the lane BAD (R243). -/
def State.mapSpare (s : State) (p : Nat) : State :=
  ((s.setFld (ptFlLanemap p) (3 * (s.link p).tspLane) 3 (s.fld (ptFlLanemap p) 12 3)).setFld (ptFlLanemap p) 12 3 7).setBit (ptFlLanemap p)
    (20 + s.fld (ptFlLanemap p) (3 * (s.link p).tspLane) 3) true

theorem exec_spareDoneReceive {p : PortIx} {s : State} (hl : s.linkL0 p = true) (h1 : (s.link p).tsp = 1) :
    exec (.spareDoneReceive p) s = .next ((((s.mapSpare p).setLink p (s.link p).mirrorOff).cnt (ptFlSwapCnt p)).raise 0x0B03
      [.w p, .w 1, .w (s.link p).tspLane, .w (s.fld (ptFlLanemap p) (3 * (s.link p).tspLane) 3)]) := if_pos ⟨hl, h1⟩

/-- The logical lane reads the spare, no spare is left, and the old lane is BAD. -/
theorem mapSpare_fields {s : State} {p : Nat} (hlane : (s.link p).tspLane < 4) (hspare : s.fld (ptFlLanemap p) 12 3 < 5)
    (hold : s.fld (ptFlLanemap p) (3 * (s.link p).tspLane) 3 < 5) :
    (s.mapSpare p).fld (ptFlLanemap p) (3 * (s.link p).tspLane) 3 = s.fld (ptFlLanemap p) 12 3 ∧ (s.mapSpare p).fld (ptFlLanemap p) 12 3 = 7 ∧
    (s.mapSpare p).bit (ptFlLanemap p) (20 + s.fld (ptFlLanemap p) (3 * (s.link p).tspLane) 3) = true := by
  unfold State.mapSpare
  refine ⟨?_, ?_, bit_setBit_self _ _ _ _ (by omega)⟩
  · rw [fld_setBit _ _ _ _ _ _ _ (by omega) (.inr (.inl (by omega))), fld_setFld _ _ _ _ _ _ _ _ (by decide) (.inr (.inl (by omega))),
      fld_setFld_self _ _ _ _ _ (by omega)]
    exact Nat.mod_eq_of_lt (by omega)
  · rw [fld_setBit _ _ _ _ _ _ _ (by omega) (.inr (.inl (by omega))), fld_setFld_self _ _ _ _ _ (by decide)]
    decide

/-- Settles O37: each command by its own equation (`exec_laneCeThreshold` to `exec_spareDoneReceive`); the start by `spareBegin_spec`, DONE by
`spareDone_spec`, the map by `mapSpare_fields`, what a SPARE flit leaves of its link by `Sent`. -/
theorem laneReplacement : Obligations.LaneReplacement := by
  refine ⟨?_, ?_, ?_, ?_, fun p s h => exec_spareRepeatTimer h, ?_, ?_, ?_, ?_, ?_, ?_, ?_, ?_⟩
  · intro p g ls s hl hen hw hce hsp hd h0
    obtain ⟨hone, hlane, hrot, -, -, hout⟩ := spareBegin_spec s p g false
    exact ⟨_, by rw [exec_laneCeThreshold hl hen hw hce, replaceLane_begins hsp hd h0], hone, hlane, hrot, hout⟩
  · intro p ls s hl hen h0 hd hsp he hi
    obtain ⟨hone, hlane, hrot, hnext, hat, -⟩ := spareBegin_spec
      (s.setLink p { s.link p with rotNext := ((s.link p).rotNext + 1) % 4, rotAt := s.tick.loc }) p (s.link p).rotNext true
    rw [link_setLink] at hnext hat
    exact ⟨_, exec_rotationInterval hl hen h0 hd hsp he hi, hone, hrot, hlane, hnext, hat⟩
  · intro p g rot s hl hm
    have hsent := spareFlit_sent (s.setLink p { s.link p with tsp := 1, tspLane := g, tspRot := rot, tspCw := none }) p 2 g rot (0, 0)
    refine ⟨_, exec_spareReqReceive g rot hl hm, ?_, ?_, ?_, mem_spareFlit_out _ p 2 g rot (0, 0)⟩
    · rw [hsent.get LinkS.tsp, link_setLink]
    · rw [hsent.get LinkS.tspLane, link_setLink]
    · rw [hsent.get LinkS.tspRot, link_setLink]
  · intro p g ls s hl h1 hg hsp
    refine ⟨_, exec_spareReadyReceive hl h1 hg hsp, ?_⟩
    rw [link_congr (relockStart_frame _ p ls).2, link_setLink]
    exact ⟨rfl, rfl⟩
  · intro p per cw ls s hl h2 hsp ht hlock ha
    have hsent := spareFlit_sent (s.setLink p { s.link p with sp := 3, spCw := (per.toNat, cw.toNat) }) p 3 (s.link p).spLane (s.link p).spRot
      (per.toNat, cw.toNat)
    refine ⟨_, exec_spareDwellEnd hl h2 hsp ht hlock ha, ?_, ?_, mem_spareFlit_out _ p 3 _ _ (per.toNat, cw.toNat)⟩
    · rw [hsent.get LinkS.sp, link_setLink]
    · rw [hsent.get LinkS.spCw, link_setLink]
  · intro p ls s hl h3 hsp hr hd
    obtain ⟨hfour, hmap, hout, hseq⟩ := spareDone_spec (p := p)
      (s := s.setLink p { s.link p with rxMap := (s.link p).rxMap.set (s.link p).spLane ls }) (by rw [link_setLink]; exact hd)
    rw [link_setLink] at hmap hout
    exact ⟨_, exec_spareSwitchPoint hl h3 hsp hr, hfour, hmap, hout, hseq⟩
  · intro p per cw s hl h1
    refine ⟨_, congrArg Host.Outcome.next (if_pos ⟨hl, h1⟩), ?_, setLink_regs _ _ _⟩
    rw [link_setLink]
  · intro p s hl h1 hlane hspare hold
    obtain ⟨hread, hnone, hbad⟩ := mapSpare_fields hlane hspare hold
    have hreg : ∀ vals, ((((s.mapSpare p).setLink p (s.link p).mirrorOff).cnt (ptFlSwapCnt p)).raise 0x0B03 vals).reg (ptFlLanemap p) =
        (s.mapSpare p).reg (ptFlLanemap p) := fun vals => by
      refine (KeepsPorts.raise _ _ _ (ptFlLanemap p) (portReg_portBase p (by decide))).trans ?_
      rw [reg_cnt, if_neg (by simp [ptFlLanemap, ptFlSwapCnt]), reg_congr (setLink_regs _ _ _)]
    refine ⟨_, exec_spareDoneReceive hl h1, ?_, ?_, ?_, ?_⟩
    · exact (congrArg (bits · _ 3) (hreg _)).trans hread
    · exact (congrArg (bits · 12 3) (hreg _)).trans hnone
    · exact (bit_eq_of_reg (hreg _) _).trans hbad
    · rw [link_raise, link_cnt, link_setLink]
      rfl
  · intro p s hl
    exact congrArg Host.Outcome.next (if_pos hl)
  · intro p s hl hr
    exact congrArg Host.Outcome.next (if_pos ⟨hl, hr⟩)
  · intro p s h ht hr
    have hsent := spareFlit_sent ((s.setLink p { s.link p with sp := 0 }).setSpare p 0 0) p 5 (s.link p).spLane false (0, 0)
    refine ⟨_, exec_spareLockTimeout h ht hr, ?_, ?_, ?_⟩
    · rw [link_raise, hsent.get LinkS.sp, link_setSpare, link_setLink]
    · rw [raise_out]
      exact mem_spareFlit_out _ p 5 _ false (0, 0)
    · rw [raise_seq, hsent.ev, setSpare_ev, setLink_ev]
  · intro p per cw s hl h5 hlock ha
    have hsent := spareFlit_sent (((s.setLane p (s.link p).spOld { s.laneS p (s.link p).spOld with recal := false }).setLink p
      { s.link p with sp := 6, spCw := (per.toNat, cw.toNat) }).setSpare p 4 (s.link p).spLane) p 3 (s.link p).spLane true (per.toNat, cw.toNat)
    refine ⟨_, exec_recalibrationDone hl h5 hlock ha, ?_, ?_, mem_spareFlit_out _ p 3 _ true (per.toNat, cw.toNat)⟩
    · rw [hsent.get LinkS.sp, link_setSpare, link_setLink]
    · rw [hsent.get LinkS.spCw, link_setSpare, link_setLink]

end Sys2Proof.Machine
end

section
namespace Sys2Proof.Machine

/-! ### Bytes of accepted flits (R228, R235, R238) -/

/-- What a link shows of the flits it has received: the SEQ that it expects, ACK_V, NAK. -/
def LinkS.received (l : LinkS) : Nat × Bool × Bool := (l.rxSeq, l.ackV, l.nak)

theorem received_eq {l m : LinkS} (h : l.received = m.received) : l.rxSeq = m.rxSeq ∧ l.ackV = m.ackV ∧ l.nak = m.nak := by
  simpa only [LinkS.received, Prod.mk.injEq] using h

/-- Messages and credits of port `p` are handled: what it has received stays, and what was sent. -/
structure Handles (p : Nat) (s t : State) : Prop where
  received : (t.link p).received = (s.link p).received
  out : s.out ⊆ t.out

namespace Handles
variable {p : Nat} {s t u : State}

theorem refl (p : Nat) (s : State) : Handles p s s := ⟨rfl, List.Subset.refl _⟩

theorem trans (h : Handles p s t) (g : Handles p t u) : Handles p s u :=
  ⟨g.received.trans h.received, List.Subset.trans h.out g.out⟩

theorem of_sent (h : Sent p s t) : Handles p s t := ⟨h.get LinkS.received, h.out⟩

theorem setLink {x : LinkS} (h : x.received = (s.link p).received) : Handles p s (s.setLink p x) :=
  ⟨by rw [link_setLink, h], List.Subset.refl _⟩

theorem cnt (p : Nat) (s : State) (o k : Nat) : Handles p s (s.cnt o k) := ⟨by rw [link_cnt], by rw [cnt_out]; exact List.Subset.refl _⟩

end Handles

theorem sendCredit_handles (s : State) (p : Nat) : Handles p s (s.sendCredit p) :=
  (Handles.setLink (by rfl)).trans (.of_sent (ctl_sent _ p 2 _ _))

theorem linkFree_handles (s : State) (p cls : Nat) : Handles p s (s.linkFree p cls) := by
  unfold State.linkFree
  dsimp only
  split
  · exact .refl p s
  · split
    · exact (Handles.setLink (by rfl)).trans (sendCredit_handles _ p)
    · exact Handles.setLink (by rfl)

theorem msgIn_handles (s : State) (p : Nat) (b : List Byte) : Handles p s (s.msgIn p b) := by
  unfold State.msgIn
  dsimp only
  split
  · exact (Handles.setLink (by rfl)).trans (.of_sent (.emit p _ _))
  · exact ((Handles.setLink (by rfl)).trans (.cnt p _ _ _)).trans (linkFree_handles _ p _)

theorem unpack_handles (s : State) (p n : Nat) (b : List Byte) : Handles p s (s.unpack p n b).1 := by
  induction n generalizing s b with
  | zero => exact .refl p s
  | succ n ih =>
    unfold State.unpack
    dsimp only
    split
    · exact .refl p s
    split
    · exact .refl p s
    split
    · exact .refl p s
    · exact (msgIn_handles s p _).trans (ih _ _)

theorem payload_handles (s : State) (p start : Nat) (pay : List Byte) : Handles p s (s.payload p start pay) :=
  (unpack_handles s p 8 _).trans (.setLink (by rfl))

/-! ### Flits that arrive (R235, R236) -/

/-- The state after the CFF of a codeword that decoded without a corrected symbol. -/
def State.cffTaken (s : State) (p cw : Nat) : State :=
  (s.bwAdd p 1 128).setLink p { s.link p with rxQuiet := cffQuiet cw, rxPer := (s.link p).codewordAt (cw / 4096) }

theorem cffTaken_handles (s : State) (p cw : Nat) : Handles p s (s.cffTaken p cw) :=
  (⟨rfl, List.Subset.refl _⟩ : Handles p s (s.bwAdd p 1 128)).trans (.setLink (by rfl))

theorem corrected_nil (s : State) (p : Nat) : s.corrected p [] = s := if_pos rfl

/-- A DATA flit with a right CRC, without ACK_V and NAK, in a codeword that decoded. -/
theorem exec_flitReceive_data {p : PortIx} {cw : BitVec 20} {b : List Byte} {s : State} (hl : s.linkL0 p = true) (hcrc : flitCrcOk b = true)
    (hft : leAt b 0 8 / 2 ^ 62 % 4 = 1) (hnak : nbit (leAt b 0 8) 36 = false) (hack : nbit (leAt b 0 8) 37 = false) :
    exec (.flitReceive p true cw [] b) s =
      if leAt b 0 8 / 2 ^ 50 % 4096 = ((s.cffTaken p cw.toNat).link p).rxSeq then
        .next ((((((s.cffTaken p cw.toNat).setLink p { (s.cffTaken p cw.toNat).link p with
          rxSeq := (((s.cffTaken p cw.toNat).link p).rxSeq + 1) % 4096, ackV := true, nak := false, busyAt := s.tick.loc }).cnt64
            (ptFlRxFlitCnt p)).linkAnswer p false)).payload p (leAt b 0 8 / 2 ^ 25 % 128) ((b.drop 8).take 112))
      else if ((s.cffTaken p cw.toNat).link p).nak then .next (s.cffTaken p cw.toNat) else .next ((s.cffTaken p cw.toNat).badFlit p) := by
  change execFlitReceive p true cw [] b s = _
  unfold execFlitReceive
  dsimp only
  rw [if_neg (by simp [hl]), if_neg (by decide), if_neg (by rw [hcrc, hft]; decide), corrected_nil, hack, hnak, if_neg Bool.false_ne_true,
    if_neg Bool.false_ne_true, if_neg (by rw [hft]; decide)]
  rfl

/-- One SEQ after another: the last of the next is this one. -/
theorem lastSeq_succ {n : Nat} (h : n < 4096) : ((n + 1) % 4096 + 4095) % 4096 = n := by omega

/-- What the error window has no part in is as it was. -/
theorem errCount_get {α : Type} (s : State) (p n : Nat) (f : LinkS → α)
    (he : ∀ l w k, f { l with errWin := w, err := k } = f l := by intros; rfl) :
    f ((s.errCount p n).link p) = f (s.link p) := by
  rw [State.errCount, link_setLink, he]

/-- A flit that is discarded while no NAK is out is NAKed (R235). -/
theorem badFlit_nak {s : State} {p : Nat} (h : (s.link p).nak = false) :
    ((s.badFlit p).link p).rxSeq = (s.link p).rxSeq ∧ ((s.badFlit p).link p).nak = true ∧
    Out.ackNak p (s.link p).lastRx true ∈ (s.badFlit p).out := by
  have hseq := errCount_get (s.cnt (ptFlBadFlitCnt p)) p 1 LinkS.rxSeq
  have hnak := errCount_get (s.cnt (ptFlBadFlitCnt p)) p 1 LinkS.nak
  rw [link_cnt] at hseq hnak
  unfold State.badFlit
  generalize (s.cnt (ptFlBadFlitCnt p)).errCount p 1 = t at *
  have hsent := linkAnswer_sent (t.setLink p { t.link p with nak := true, nakAt := t.tick.loc }) p true
  have hgap : t.gap p = (t.setLink p { t.link p with nak := true, nakAt := t.tick.loc }).linkAnswer p true := if_neg (by rw [hnak, h]; decide)
  have hout := mem_linkAnswer_out (t.setLink p { t.link p with nak := true, nakAt := t.tick.loc }) p true
  rw [link_setLink] at hout
  rw [hgap, hsent.get LinkS.rxSeq, hsent.get LinkS.nak, link_setLink, LinkS.lastRx, ← hseq]
  exact ⟨rfl, rfl, hout⟩

/-! ### The replay buffer (R236) -/

/-- The state that a replay leaves from: it is counted. -/
def State.replayStart (s : State) (p : Nat) : State :=
  (((((s.quietExit p).cnt (ptFlReplayCnt p)).cnt64 (ptFlTxFlitCnt p) (s.link p).unacked).bwAdd p 0 (128 * (s.link p).unacked)).errCount p 1).emit
    (.replay p (s.link p).una (s.link p).unacked)

theorem replayStart_get {α : Type} (s : State) (p : Nat) (f : LinkS → α) (hf : ∀ l, f l.kept = f l := by intro; rfl)
    (he : ∀ l w n, f { l with errWin := w, err := n } = f l := by intros; rfl) : f ((s.replayStart p).link p) = f (s.link p) := by
  rw [State.replayStart, link_emit, errCount_get _ _ _ f he, link_bwAdd, link_cnt64, link_cnt, (quietExit_sent s p).get f hf]

theorem replayAll_of_unacked {s : State} {p : Nat} (h : (s.link p).unacked ≠ 0) :
    s.replayAll p = (((s.replayStart p).setLink p { (s.replayStart p).link p with ackAt := s.tick.loc, dataAt := s.tick.loc }).sendFlits p
      (((s.replayStart p).link p).tx.buf.map ((s.replayStart p).link p).dataFlit)).pump p := by
  unfold State.replayAll State.replayStart
  dsimp only
  rw [if_neg h]

/-- Flits of the replay buffer go out, and with nothing new to send that is all. -/
theorem resend_spec {u : State} {p : Nat} {m : Out} (now : Tick) (hmem : m ∈ u.out) (hstr : (u.link p).tx.str = []) :
    let t := ((u.setLink p { u.link p with ackAt := now, dataAt := now }).sendFlits p ((u.link p).tx.buf.map (u.link p).dataFlit)).pump p
    m ∈ t.out ∧ (t.link p).txSeq = (u.link p).txSeq ∧ (t.link p).tx.buf = (u.link p).tx.buf ∧ (t.link p).ackAt = now := by
  intro t
  have hsent := sendFlits_sent (u.setLink p { u.link p with ackAt := now, dataAt := now }) p ((u.link p).tx.buf.map (u.link p).dataFlit)
  have ht : t = (u.setLink p { u.link p with ackAt := now, dataAt := now }).sendFlits p ((u.link p).tx.buf.map (u.link p).dataFlit) :=
    pump_of_empty (by rw [hsent.get (fun l => l.tx.str), link_setLink]; exact hstr)
  rw [ht, hsent.get LinkS.txSeq, hsent.get (fun l => l.tx.buf), hsent.get LinkS.ackAt, link_setLink]
  exact ⟨hsent.out hmem, rfl, rfl, rfl⟩

theorem mem_replayStart_out (s : State) (p : Nat) : Out.replay p (s.link p).una (s.link p).unacked ∈ (s.replayStart p).out := mem_emit_out _ _

/-- Every unacknowledged flit is sent again. -/
theorem replayAll_spec {s : State} {p : Nat} (h : (s.link p).unacked ≠ 0) (hstr : (s.link p).tx.str = []) :
    Out.replay p (s.link p).una (s.link p).unacked ∈ (s.replayAll p).out ∧ ((s.replayAll p).link p).txSeq = (s.link p).txSeq ∧
    ((s.replayAll p).link p).tx.buf = (s.link p).tx.buf ∧ ((s.replayAll p).link p).ackAt = s.tick.loc := by
  obtain ⟨hout, hseq, hbuf, hat⟩ := resend_spec s.tick.loc (mem_replayStart_out s p) ((replayStart_get s p (fun l => l.tx.str)).trans hstr)
  rw [replayAll_of_unacked h]
  exact ⟨hout, hseq.trans (replayStart_get s p LinkS.txSeq), hbuf.trans (replayStart_get s p (fun l => l.tx.buf)), hat⟩

/-! ### Messages go out (R228, R238) -/

theorem msgHead_length (hop : Nat) (yellow : Bool) (cls mtype len dst src tag : Nat) :
    (msgHead hop yellow cls mtype len dst src tag).length = 16 := by
  simp [msgHead]

theorem setShn_length {b : List Byte} (shn : Nat) (h : 8 ≤ b.length) : (setShn b shn).length = b.length := by
  simp only [setShn, List.length_append, List.length_take, List.length_drop, toLe_length]
  omega

/-- The buffers of a message of `len` bytes carry its header and its bytes. -/
theorem bufCount_bound (len : Nat) : 0 < bufCount len ∧ 16 + len ≤ 112 * bufCount len := by
  unfold bufCount ceilDiv
  rw [if_neg (by decide)]
  omega

theorem bufCount_eq (len : Nat) : ceilDiv (16 + len) 112 = bufCount len := rfl

/-- A message's credits are taken, and the link is in L0. -/
def State.charged (s : State) (p cls r shn : Nat) : State :=
  ((s.setN (ptFlCreditRsv p cls) (s.nreg (ptFlCreditRsv p cls) - r)).setN (ptFlCreditSh p) (s.nreg (ptFlCreditSh p) - shn)).quietExit p

/-- A link whose stream a message has entered. -/
def LinkS.entered (l : LinkS) (b : List Byte) (shn : Nat) : LinkS :=
  { l with
    out := l.out ++ [(l.txSeq + ceilDiv (l.tx.str.length + b.length) 112) % 4096]
    tx := { l.tx with hds := l.tx.hds ++ [l.tx.str.length], str := l.tx.str ++ setShn b shn } }

/-- A message waits in the byte stream. -/
def State.entered (s : State) (p cls : Nat) (b : List Byte) (r shn : Nat) : State :=
  ((s.charged p cls r shn).setLink p (((s.charged p cls r shn).link p).entered b shn)).emit (.linkTx p cls (b.length - 16) shn)

theorem linkSend_without_credit {s : State} {p cls : Nat} {b : List Byte}
    (h : s.nreg (ptFlCreditSh p) < bufCount (b.length - 16) - s.nreg (ptFlCreditRsv p cls)) : s.linkSend p cls b = none := by
  unfold State.linkSend
  dsimp only
  split
  · rfl
  · rw [if_pos (by omega)]

theorem linkSend_with_credit {s : State} {p cls n r : Nat} {b : List Byte} (hl : s.linkL0 p = true) (hn : n = bufCount (b.length - 16))
    (hr : r = min n (s.nreg (ptFlCreditRsv p cls))) (hsh : n - r ≤ s.nreg (ptFlCreditSh p)) :
    s.linkSend p cls b = some ((s.entered p cls b r (n - r)).pump p) := by
  have hup : ¬ (s.flState p ≠ 4 ∧ s.flState p ≠ 5) := by
    simp only [State.linkL0, Bool.or_eq_true, decide_eq_true_eq] at hl
    omega
  subst hn hr
  unfold State.linkSend
  dsimp only
  rw [if_neg hup, if_neg (Nat.not_lt.mpr hsh)]
  rfl

/-- Registers of the port that no DATA flit counts in. -/
theorem pump_reg (s : State) {p o : Nat} (ho : PortReg o) (hs : o ≠ ptFlStatus p) (h : o ≠ ptFlTxFlitCnt p) (h4 : o ≠ ptFlTxFlitCnt p + 4) :
    (s.pump p).reg o = s.reg o := by
  rcases pump_sent s p rfl with ⟨-, he⟩ | hsent
  · rw [he]
  · exact (hsent.reg o hs).trans (pumpStart_reg s _ ho h h4)

theorem pump_out (s : State) (p : Nat) : s.out ⊆ (s.pump p).out := by
  rcases pump_sent s p rfl with ⟨-, he⟩ | hsent
  · rw [he]
    exact List.Subset.refl _
  · refine List.Subset.trans ?_ hsent.out
    rw [State.pumpStart, bwAdd_out, cnt64_out, setLink_out]
    exact List.Subset.refl _

theorem entered_reg (s : State) {p cls r shn o : Nat} (b : List Byte) (h : o ≠ ptFlStatus p) :
    (s.entered p cls b r shn).reg o = ((s.setN (ptFlCreditRsv p cls) (s.nreg (ptFlCreditRsv p cls) - r)).setN (ptFlCreditSh p)
      (s.nreg (ptFlCreditSh p) - shn)).reg o := by
  rw [State.entered, reg_congr (emit_regs _ _), reg_congr (setLink_regs _ _ _), State.charged, (quietExit_sent _ p).reg o h]

theorem nreg_setN_self (s : State) (o : Nat) {v : Nat} (h : v < 2 ^ 32) : (s.setN o v).nreg o = v := by
  rw [State.nreg, reg_setN, if_pos rfl, BitVec.toNat_ofNat, Nat.mod_eq_of_lt h]

theorem nreg_setN_ne (s : State) {o j : Nat} (v : Nat) (h : j ≠ o) : (s.setN o v).nreg j = s.nreg j := by
  rw [State.nreg, reg_setN, if_neg h, State.nreg]

/-- The credits that a message takes from its class and from the shared ones. -/
theorem entered_credits (s : State) {p cls : Nat} (b : List Byte) (r shn : Nat) (hc : cls < 8) :
    ((s.entered p cls b r shn).pump p).nreg (ptFlCreditRsv p cls) = s.nreg (ptFlCreditRsv p cls) - r ∧
    ((s.entered p cls b r shn).pump p).nreg (ptFlCreditSh p) = s.nreg (ptFlCreditSh p) - shn := by
  have hne : ptFlCreditRsv p cls ≠ ptFlCreditSh p := by
    unfold ptFlCreditRsv ptFlCreditSh
    omega
  have hkeep : ∀ o, PortReg o → o ≠ ptFlStatus p → o ≠ ptFlTxFlitCnt p → o ≠ ptFlTxFlitCnt p + 4 →
      ((s.entered p cls b r shn).pump p).nreg o = ((s.setN (ptFlCreditRsv p cls) (s.nreg (ptFlCreditRsv p cls) - r)).setN (ptFlCreditSh p)
        (s.nreg (ptFlCreditSh p) - shn)).nreg o := fun o ho hs h h4 =>
    congrArg BitVec.toNat ((pump_reg _ ho hs h h4).trans (entered_reg s b hs))
  have hbound : ∀ o k, s.nreg o - k < 2 ^ 32 := fun o k => Nat.lt_of_le_of_lt (Nat.sub_le _ _) (s.reg o).isLt
  constructor
  · rw [hkeep _ (portReg_ptFlCreditRsv p hc) (by unfold ptFlCreditRsv ptFlStatus; omega) (by unfold ptFlCreditRsv ptFlTxFlitCnt; omega)
      (by unfold ptFlCreditRsv ptFlTxFlitCnt; omega), nreg_setN_ne _ _ hne, nreg_setN_self _ _ (hbound _ _)]
  · rw [hkeep (ptFlCreditSh p) (portReg_portBase p (k := 0x1050) (by decide)) (by unfold ptFlCreditSh ptFlStatus; omega)
      (by unfold ptFlCreditSh ptFlTxFlitCnt; omega) (by unfold ptFlCreditSh ptFlTxFlitCnt; omega), nreg_setN_self _ _ (hbound _ _)]

theorem charged_linkL0 {s : State} {p cls : Nat} (r shn : Nat) (hl : s.linkL0 p = true) (hc : cls < 8) : (s.charged p cls r shn).flState p = 4 := by
  refine quietExit_flState ?_
  have hstate : ((s.setN (ptFlCreditRsv p cls) (s.nreg (ptFlCreditRsv p cls) - r)).setN (ptFlCreditSh p)
      (s.nreg (ptFlCreditSh p) - shn)).flState p = s.flState p := flState_of_reg (by
    rw [reg_setN, if_neg (by unfold ptFlCreditSh ptFlStatus; omega), reg_setN, if_neg (by unfold ptFlCreditRsv ptFlStatus; omega)])
  rwa [State.linkL0, hstate]

theorem charged_get {α : Type} (s : State) (p cls r shn : Nat) (f : LinkS → α) (hf : ∀ l, f l.kept = f l := by intro; rfl) :
    f ((s.charged p cls r shn).link p) = f (s.link p) := by
  rw [State.charged, (quietExit_sent _ p).get f hf, link_congr (setN_lnk _ _ _), link_congr (setN_lnk _ _ _)]

/-- What a message that enters the stream leaves of its link. -/
theorem entered_get {α : Type} (s : State) (p cls : Nat) (b : List Byte) (r shn : Nat) (f : LinkS → α)
    (hf : ∀ l, f l.kept = f l := by intro; rfl) (he : ∀ l b n, f (LinkS.entered l b n) = f l := by intros; rfl) : f ((s.entered p cls b r shn).link p) = f (s.link p) := by
  rw [State.entered, link_emit, link_setLink, he, charged_get s p cls r shn f hf]

theorem entered_str_length (s : State) (p cls : Nat) {b : List Byte} (r shn : Nat) (hb : 8 ≤ b.length) (hstr : (s.link p).tx.str = []) :
    ((s.entered p cls b r shn).link p).tx.str.length = b.length := by
  have hempty := charged_get s p cls r shn (fun l => l.tx.str)
  rw [State.entered, link_emit, link_setLink, LinkS.entered, List.length_append, setShn_length _ hb, hempty, hstr, List.length_nil,
    Nat.zero_add]

/-- A stream that the replay buffer has room for goes out whole. -/
theorem pump_whole {u : State} {p n : Nat} (hn : ceilDiv (u.link p).tx.str.length 112 = n) (hpos : 0 < n)
    (hfits : (u.link p).tx.str.length ≤ 112 * n) (hroom : (u.link p).unacked + n ≤ 4095) :
    ((u.pump p).link p).txSeq = ((u.link p).txSeq + n) % 4096 ∧ ((u.pump p).link p).tx.str = [] ∧
    ((u.pump p).link p).tx.buf = (u.link p).tx.buf ++ (u.link p).nextFlits n := by
  have hmin : min (ceilDiv (u.link p).tx.str.length 112) (4095 - (u.link p).unacked) = n := by
    rw [hn]
    omega
  have hsent := (pump_sent u p hmin).resolve_left (fun h => absurd h.1 (by omega))
  rw [hsent.get LinkS.txSeq, hsent.get (fun l => l.tx.str), hsent.get (fun l => l.tx.buf), link_pumpStart]
  exact ⟨rfl, List.drop_eq_nil_of_le hfits, rfl⟩

/-- A message that finds the stream empty goes in flits of its own, as many as it has buffers. -/
theorem pump_entered {s : State} {p cls len : Nat} {b : List Byte} (r shn : Nat) (hb : b.length = 16 + len) (hstr : (s.link p).tx.str = [])
    (hroom : (s.link p).unacked + bufCount len ≤ 4095) :
    (((s.entered p cls b r shn).pump p).link p).txSeq = ((s.link p).txSeq + bufCount len) % 4096 ∧
    (((s.entered p cls b r shn).pump p).link p).tx.str = [] ∧
    (((s.entered p cls b r shn).pump p).link p).tx.buf.length = (s.link p).tx.buf.length + bufCount len ∧
    (((s.entered p cls b r shn).pump p).link p).tx.buf.take (s.link p).tx.buf.length = (s.link p).tx.buf := by
  obtain ⟨hpos, hfits⟩ := bufCount_bound len
  have hlen := (entered_str_length s p cls r shn (by omega) hstr).trans hb
  have hbuf := entered_get s p cls b r shn (fun l => l.tx.buf)
  obtain ⟨hseq, hempty, hgrown⟩ := pump_whole (by rw [hlen, bufCount_eq]) hpos (by rw [hlen]; exact hfits)
    (by rw [entered_get s p cls b r shn LinkS.unacked]; exact hroom)
  rw [hseq, hempty, hgrown, hbuf, entered_get s p cls b r shn LinkS.txSeq]
  refine ⟨rfl, rfl, ?_, List.take_left' rfl⟩
  rw [List.length_append, LinkS.nextFlits, List.length_map, List.length_range]

/-- A message whose credits are there, from any sender. -/
theorem linkSend_spec {s : State} {p cls len n r : Nat} {b : List Byte} (hb : b.length = 16 + len) (hc : cls < 8) (hn : n = bufCount len)
    (hr : r = min n (s.nreg (ptFlCreditRsv p cls))) (hl : s.linkL0 p = true) (hsh : n - r ≤ s.nreg (ptFlCreditSh p))
    (hroom : (s.link p).unacked + n ≤ 4095) :
    ∃ t, s.linkSend p cls b = some t ∧ t.nreg (ptFlCreditRsv p cls) = s.nreg (ptFlCreditRsv p cls) - r ∧
      t.nreg (ptFlCreditSh p) = s.nreg (ptFlCreditSh p) - (n - r) ∧ Out.linkTx p cls len (n - r) ∈ t.out ∧ t.flState p = 4 ∧
      ((s.link p).tx.str = [] → (t.link p).txSeq = ((s.link p).txSeq + n) % 4096 ∧ (t.link p).tx.str = [] ∧
        (t.link p).tx.buf.length = (s.link p).tx.buf.length + n ∧ (t.link p).tx.buf.take (s.link p).tx.buf.length = (s.link p).tx.buf) := by
  have hlen : b.length - 16 = len := by omega
  obtain ⟨hrsv, hshared⟩ := entered_credits s b r (n - r) hc
  have hmem : Out.linkTx p cls len (n - r) ∈ (s.entered p cls b r (n - r)).out := by
    rw [State.entered, hlen]
    exact mem_emit_out _ _
  have hstate : (s.entered p cls b r (n - r)).flState p = 4 := by
    rw [State.entered, flState_emit, flState_setLink, charged_linkL0 r (n - r) hl hc]
  refine ⟨_, linkSend_with_credit hl (by rw [hlen, hn]) hr hsh, hrsv, hshared, pump_out _ p hmem, (pump_status hstate (i := 0) (by decide)).1, ?_⟩
  intro hstr
  subst hn
  exact pump_entered r _ hb hstr hroom

/-- The bytes that LINK_MESSAGE_SEND sends: what the header and the body hold is the free value. -/
theorem exec_linkMessageSend (p : PortIx) (cls : ClassIx) (len : Nat) (s : State) :
    ∃ b : List Byte, b.length = 16 + len ∧ exec (.linkMessageSend p cls len) s = .next ((s.draw.2.linkSend p cls b).getD s) :=
  ⟨_, by rw [List.length_append, msgHead_length, toLe_length], rfl⟩


/-! ### CREDIT flits (R238) -/

theorem exec_creditFlitReceive {p : PortIx} {totals : List (BitVec 16)} {s : State} (hl : s.linkL0 p = true) (h9 : totals.length = 9) :
    exec (.creditFlitReceive p totals) s = .next
      (((s.each (List.range 8) (fun c t => t.setN (ptFlCreditRsv p c)
        ((t.nreg (ptFlCreditRsv p c) + ((totals.getD c 0).toNat + 65536 - tget 0 (s.link p).retIn c) % 65536) % 65536))).setN (ptFlCreditSh p)
        (((s.each (List.range 8) (fun c t => t.setN (ptFlCreditRsv p c)
          ((t.nreg (ptFlCreditRsv p c) + ((totals.getD c 0).toNat + 65536 - tget 0 (s.link p).retIn c) % 65536) % 65536))).nreg (ptFlCreditSh p) +
          ((totals.getD 8 0).toNat + 65536 - tget 0 (s.link p).retIn 8) % 65536) % 65536)).setLink p
        { s.link p with retIn := (List.range 9).foldl (fun (t : Tab Nat) c => tput 0 t c (totals.getD c 0).toNat) [] }) :=
  if_neg (by simp [hl, h9])

/-- A table that is filled for each key of a range. -/
theorem tget_foldl_tput (f : Nat → Nat) {n c : Nat} (h : c < n) :
    tget 0 ((List.range n).foldl (fun (t : Tab Nat) c => tput 0 t c (f c)) []) c = f c := by
  induction n with
  | zero => omega
  | succ n ih =>
    rw [List.range_succ, List.foldl_append, List.foldl_cons, List.foldl_nil]
    rcases Nat.lt_succ_iff_lt_or_eq.mp h with hlt | rfl
    · rw [tget_tput_ne 0 0 _ _ (Nat.ne_of_lt hlt), ih hlt]
    · exact tget_tput_self 0 _ _ _

/-! ### The obligation -/

/-- Settles O35: a DATA flit by `exec_flitReceive_data` with `payload_handles` (in sequence) and `badFlit_nak` (out of sequence), replay by
`replayAll_spec`, a message by `linkSend_spec` and `linkSend_without_credit`, CREDIT totals by `nreg_each_setN` and `tget_foldl_tput`. -/
theorem linkFlits : Obligations.LinkFlits := by
  refine ⟨?_, ?_, ?_, ?_, ?_, ?_, ?_, ?_, ?_⟩
  · intro p cw b s hl hcrc hft hnak hack hseq
    have htaken : ((s.cffTaken p cw.toNat).link p).rxSeq = (s.link p).rxSeq := (received_eq (cffTaken_handles s p cw.toNat).received).1
    have hlt : (s.link p).rxSeq < 4096 := hseq ▸ Nat.mod_lt _ (by decide)
    rw [exec_flitReceive_data hl hcrc hft hnak hack, htaken, if_pos hseq]
    generalize s.cffTaken p cw.toNat = u
    have hsent := linkAnswer_sent ((u.setLink p { u.link p with
      rxSeq := ((s.link p).rxSeq + 1) % 4096, ackV := true, nak := false, busyAt := s.tick.loc }).cnt64 (ptFlRxFlitCnt p)) p false
    have hout := mem_linkAnswer_out ((u.setLink p { u.link p with
      rxSeq := ((s.link p).rxSeq + 1) % 4096, ackV := true, nak := false, busyAt := s.tick.loc }).cnt64 (ptFlRxFlitCnt p)) p false
    have hrecv := hsent.get LinkS.received
    rw [link_cnt64, link_setLink] at hout hrecv
    rw [lastSeq_succ hlt] at hout
    obtain ⟨hpay, hkept⟩ := payload_handles _ p (leAt b 0 8 / 2 ^ 25 % 128) ((b.drop 8).take 112)
    refine ⟨_, rfl, ?_⟩
    obtain ⟨hrx, hackv, hnakv⟩ := received_eq (hpay.trans hrecv)
    exact ⟨hrx, hackv, hnakv, hkept hout⟩
  · intro p cw b s hl hcrc hft hnak hack hseq hgap
    obtain ⟨htaken, -, hnone⟩ := received_eq (cffTaken_handles s p cw.toNat).received
    obtain ⟨hrx, hnakv, hout⟩ := badFlit_nak (hnone.trans hgap)
    rw [exec_flitReceive_data hl hcrc hft hnak hack, htaken, if_neg hseq, hnone, hgap, if_neg Bool.false_ne_true]
    rw [LinkS.lastRx, htaken] at hout
    exact ⟨_, rfl, hrx.trans htaken, hnakv, hout⟩
  · intro p s hl hun hstr ht
    refine ⟨_, congrArg Host.Outcome.next (if_pos (by simp [hl, ht])), replayAll_spec hun hstr⟩
  · intro p s ht
    exact congrArg Host.Outcome.next (if_neg (by simp [Nat.not_le.mpr ht]))
  · intro p s hl hnak ht
    have hsent := linkAnswer_sent (s.setLink p { s.link p with nakAt := s.tick.loc }) p true
    have hout := mem_linkAnswer_out (s.setLink p { s.link p with nakAt := s.tick.loc }) p true
    rw [link_setLink] at hout
    refine ⟨_, congrArg Host.Outcome.next (if_pos (by simp [hl, hnak, ht])), hout, ?_, ?_⟩
    · rw [hsent.get LinkS.nakAt, link_setLink]
    · rw [hsent.get LinkS.rxSeq, link_setLink]
  · intro p cls len s n r hl hsh hroom
    obtain ⟨b, hb, he⟩ := exec_linkMessageSend p cls len s
    obtain ⟨t, ht, hspec⟩ := linkSend_spec (s := s.draw.2) (p := p) (n := n) (r := r) hb cls.isLt rfl rfl hl hsh hroom
    exact ⟨t, by rw [he, ht]; rfl, hspec⟩
  · intro p cls len s h
    obtain ⟨b, hb, he⟩ := exec_linkMessageSend p cls len s
    rw [he, linkSend_without_credit (by rw [hb, Nat.add_sub_cancel_left]; exact h)]
    rfl
  · intro p totals s hl h9
    have hsh : ∀ c, c < 8 → ptFlCreditRsv p c ≠ ptFlCreditSh p := fun c hc => by
      unfold ptFlCreditRsv ptFlCreditSh
      omega
    refine ⟨_, exec_creditFlitReceive hl h9, fun c hc => ?_, ?_, fun c hc => ?_⟩
    · rw [nreg_congr (setLink_regs _ _ _), nreg_setN_ne _ _ (hsh c hc)]
      refine (nreg_each_setN s (ptFlCreditRsv p) (fun c x => (x + _) % 65536) (fun _ _ => ptFlCreditRsv_injective p) hc).trans ?_
      exact Nat.mod_eq_of_lt (Nat.lt_trans (Nat.mod_lt _ (by decide)) (by decide))
    · rw [nreg_congr (setLink_regs _ _ _), nreg_setN_self _ _ (Nat.lt_trans (Nat.mod_lt _ (by decide)) (by decide))]
      rw [State.nreg, reg_each_setN s (ptFlCreditRsv p) _ (fun c hc => (hsh c hc).symm), State.nreg]
    · rw [link_setLink]
      exact tget_foldl_tput (fun c => (totals.getD c 0).toNat) hc
  · intro p s hl hun
    have hsent := ctl_sent (s.setLink p { s.link p with unrep := 0 }) p 2 ((List.range 9).map (fun c => tget 0 (s.link p).retOut c)) 1
    refine ⟨_, congrArg Host.Outcome.next (if_pos ⟨hl, hun⟩), ?_, mem_ctl_out _ p 2 _ 1⟩
    exact (hsent.get LinkS.unrep).trans (by rw [link_setLink])

end Sys2Proof.Machine
end

section
namespace Sys2Proof.Machine

/-! ### Registers and state of a CXL port (R270, R275) -/

theorem portReg_ptCxHpStatus (p : Nat) : PortReg (ptCxHpStatus p) := portReg_portBase p (by decide)

theorem ptCxHpStatus_ne_hpCtl (p q : Nat) : ptCxHpStatus p ≠ ptCxHpCtl q := by
  unfold ptCxHpStatus ptCxHpCtl portBase
  omega

theorem ptCxHpStatus_injective {p q : Nat} (h : ptCxHpStatus p = ptCxHpStatus q) : p = q := by
  unfold ptCxHpStatus portBase at h
  omega

theorem cxp_congr {s t : State} (h : t.cxl = s.cxl) (p : Nat) : t.cxp p = s.cxp p := by rw [State.cxp, State.cxp, h]

section Port
variable (s : State) (p : Nat)

@[simp] theorem cxp_setCxp (x : CxPort) : (s.setCxp p x).cxp p = x := tget_tput_self _ _ _ _

theorem cxp_setCxp_ne {q : Nat} (x : CxPort) (h : q ≠ p) : (s.setCxp p x).cxp q = s.cxp q := tget_tput_ne _ _ _ _ h

@[simp] theorem cxp_raise (code : Nat) (vals : List EvVal) : (s.raise code vals).cxp p = s.cxp p := cxp_congr (raise_cxl s code vals) p
@[simp] theorem cxp_setBit (o i : Nat) (b : Bool) : (s.setBit o i b).cxp p = s.cxp p := (rfl)
@[simp] theorem cxp_setHp (q st : Nat) : (s.setHp q st).cxp p = s.cxp p := cxp_congr (setFld_cxl s _ _ _ _) p

theorem setPwrInd_cases (v : Nat) : s.setPwrInd p v = s ∨ s.setPwrInd p v = s.setFld (ptCxHpCtl p) 30 2 v := by
  unfold State.setPwrInd
  split
  · exact .inl rfl
  · exact .inr rfl

theorem setAttnInd_cases (v : Nat) : s.setAttnInd p v = s ∨ s.setAttnInd p v = s.setFld (ptCxHpCtl p) 28 2 v := by
  unfold State.setAttnInd
  split
  · exact .inl rfl
  · exact .inr rfl

@[simp] theorem cxp_setPwrInd (q v : Nat) : (s.setPwrInd q v).cxp p = s.cxp p := by
  rcases setPwrInd_cases s q v with h | h
  · rw [h]
  · rw [h, cxp_congr (setFld_cxl s _ _ _ _)]

@[simp] theorem setPwrInd_out (v : Nat) : (s.setPwrInd p v).out = s.out := by
  rcases setPwrInd_cases s p v with h | h
  · rw [h]
  · rw [h, setFld_out]

@[simp] theorem setPwrInd_ev (v : Nat) : (s.setPwrInd p v).ev = s.ev := by
  rcases setPwrInd_cases s p v with h | h
  · rw [h]
  · rw [h, setFld_ev]

@[simp] theorem setAttnInd_ev (v : Nat) : (s.setAttnInd p v).ev = s.ev := by
  rcases setAttnInd_cases s p v with h | h
  · rw [h]
  · rw [h, setFld_ev]

@[simp] theorem setHp_ev (st : Nat) : (s.setHp p st).ev = s.ev := setFld_ev s _ _ _ _
@[simp] theorem setHp_out (st : Nat) : (s.setHp p st).out = s.out := setFld_out s _ _ _ _

/-! #### PT_CX_HP_STATUS -/

/-- The power indicator is no part of PT_CX_HP_STATUS. -/
@[simp] theorem setPwrInd_hpStatus (q v : Nat) : (s.setPwrInd q v).reg (ptCxHpStatus p) = s.reg (ptCxHpStatus p) := by
  rcases setPwrInd_cases s q v with h | h
  · rw [h]
  · rw [h, reg_setFld, if_neg (ptCxHpStatus_ne_hpCtl p q)]

@[simp] theorem setAttnInd_hpStatus (q v : Nat) : (s.setAttnInd q v).reg (ptCxHpStatus p) = s.reg (ptCxHpStatus p) := by
  rcases setAttnInd_cases s q v with h | h
  · rw [h]
  · rw [h, reg_setFld, if_neg (ptCxHpStatus_ne_hpCtl p q)]

@[simp] theorem raise_hpStatus (code : Nat) (vals : List EvVal) : (s.raise code vals).reg (ptCxHpStatus p) = s.reg (ptCxHpStatus p) :=
  KeepsPorts.raise s code vals _ (portReg_ptCxHpStatus p)

@[simp] theorem hp_setHp (st : Nat) : (s.setHp p st).hp p = st % 8 := fld_setFld_self s _ 29 3 st (by decide)

theorem hp_of_reg {s t : State} {p : Nat} (h : t.reg (ptCxHpStatus p) = s.reg (ptCxHpStatus p)) : t.hp p = s.hp p :=
  congrArg (bits · 29 3) h

@[simp] theorem hp_raise (code : Nat) (vals : List EvVal) : (s.raise code vals).hp p = s.hp p := hp_of_reg (raise_hpStatus s p code vals)
@[simp] theorem hp_setPwrInd (v : Nat) : (s.setPwrInd p v).hp p = s.hp p := hp_of_reg (setPwrInd_hpStatus s p p v)
@[simp] theorem hp_setAttnInd (v : Nat) : (s.setAttnInd p v).hp p = s.hp p := hp_of_reg (setAttnInd_hpStatus s p p v)

/-- The hot-plug state lies above the bits of presence, button and expander. -/
theorem bit_setHp (st : Nat) {i : Nat} (h : i < 29) : (s.setHp p st).bit (ptCxHpStatus p) i = s.bit (ptCxHpStatus p) i :=
  bit_setFld s _ 29 3 st _ i (by decide) (.inr (.inl h))

end Port

end Sys2Proof.Machine
end

section
namespace Sys2Proof.Machine

/-! ### A scan of the expanders (R270) -/

/-- What a scan changes of a port: its PT_CX_HP_STATUS and its own state. -/
def scanView (p : Nat) (t : State) : Word × CxPort := (t.reg (ptCxHpStatus p), t.cxp p)

/-- A scan of port `k` of brick `b`: its presence and its button are read. -/
def scanPort (b : Nat) (pr bt : BitVec 8) (k : Nat) (t : State) : State :=
  let x := t.cxp (8 * b + k)
  let x1 : CxPort := { x with prsRun := (if pr.getLsbD k = t.bit (ptCxHpStatus (8 * b + k)) 28 then 0 else x.prsRun + 1),
                              btnRun := (if bt.getLsbD k then x.btnRun + 1 else 0), timer := x.timer - 1, lostScan := x.lostScan.map (· + 1) }
  ((t.setBit (ptCxHpStatus (8 * b + k)) 26 true).setBit (ptCxHpStatus (8 * b + k)) 27 (bt.getLsbD k)).setCxp (8 * b + k) (t.indScan (8 * b + k) x1)

/-- A brick's scan of an expander that answers is the scan of its eight ports. -/
theorem scanBrick_some (s : State) (b : Nat) (pr bt : BitVec 8) :
    ∃ s0, (∀ p, scanView p s0 = scanView p s) ∧ s.scanBrick b (some (pr, bt)) = s0.each (List.range 8) (scanPort b pr bt) :=
  ⟨{ s with cxl := { s.cxl with quiet := tput 0 s.cxl.quiet b 0 } }, fun _ => rfl, rfl⟩

/-- An action on one port's status and state leaves another port's as they are. -/
theorem scanView_setCxp_setBit (t : State) {p q : Nat} (i : Nat) (b : Bool) (x : CxPort) (h : p ≠ q) :
    scanView p ((t.setBit (ptCxHpStatus q) i b).setCxp q x) = scanView p t := by
  unfold scanView
  rw [cxp_setCxp_ne _ _ _ h, cxp_setBit, reg_congr (setCxp_regs _ _ _), reg_setBit, if_neg fun he => h (ptCxHpStatus_injective he)]

theorem scanPort_other (b : Nat) (pr bt : BitVec 8) (t : State) {p k : Nat} (h : p ≠ 8 * b + k) :
    scanView p (scanPort b pr bt k t) = scanView p t := by
  unfold scanPort
  rw [scanView_setCxp_setBit _ _ _ _ h, scanView, cxp_setBit, reg_setBit, if_neg fun he => h (ptCxHpStatus_injective he), scanView]

theorem scanView_raise (p : Nat) (s : State) (code : Nat) (vals : List EvVal) : scanView p (s.raise code vals) = scanView p s := by
  simp [scanView]

/-- What keeps a projection in each of the runs that occur keeps it over the list. -/
theorem each_frame_mem {α β : Type} {proj : State → β} {f : α → State → State} {l : List α} (h : ∀ a ∈ l, ∀ t, proj (f a t) = proj t) (s : State) :
    proj (s.each l f) = proj s := by
  induction l generalizing s with
  | nil => rfl
  | cons a r ih => exact (ih (fun b hb => h b (List.mem_cons_of_mem a hb)) (f a s)).trans (h a List.mem_cons_self s)

/-- Of an action over a list without repetition one run alone changes a projection: it starts from the projection's first value. -/
theorem each_once {α β : Type} {proj : State → β} {f : α → State → State} {l : List α} {k : α} (hl : l.Nodup) (hk : k ∈ l)
    (hother : ∀ a ∈ l, a ≠ k → ∀ t, proj (f a t) = proj t) (s : State) :
    ∃ u, proj u = proj s ∧ proj (s.each l f) = proj (f k u) := by
  induction l generalizing s with
  | nil => cases hk
  | cons a r ih =>
    obtain ⟨har, hr⟩ := List.nodup_cons.mp hl
    have hrest : ∀ b ∈ r, b ≠ k → ∀ t, proj (f b t) = proj t := fun b hb => hother b (List.mem_cons_of_mem a hb)
    rcases List.mem_cons.mp hk with rfl | hkr
    · exact ⟨s, rfl, each_frame_mem (fun b hb => hrest b hb fun he => har (he ▸ hb)) (f k s)⟩
    · obtain ⟨u, hu, he⟩ := ih hr hkr hrest (f a s)
      exact ⟨u, hu.trans (hother a List.mem_cons_self (fun he => har (he ▸ hkr)) s), he⟩

/-- A brick's scan leaves the ports of every other brick as they are. -/
theorem scanBrick_other (s : State) {b p : Nat} (r : Option (BitVec 8 × BitVec 8)) (h : p / 8 ≠ b) : scanView p (s.scanBrick b r) = scanView p s := by
  rcases r with - | ⟨pr, bt⟩
  · unfold State.scanBrick
    dsimp only
    split
    · rw [scanView_raise]
      refine (each_frame_mem (proj := scanView p) (fun q hq t => scanView_setCxp_setBit t _ _ _ ?_) _).trans rfl
      obtain ⟨k, hk, rfl⟩ := List.mem_map.mp hq
      have := List.mem_range.mp hk
      omega
    · rfl
  · obtain ⟨s0, h0, he⟩ := scanBrick_some s b pr bt
    rw [he]
    refine (each_frame_mem (proj := scanView p) (fun k hk t => scanPort_other b pr bt t ?_) s0).trans (h0 p)
    have := List.mem_range.mp hk
    omega

/-- A brick's scan does to each of its ports what `scanPort` does. -/
theorem scanBrick_self (s : State) (b : Nat) (pr bt : BitVec 8) {k : Nat} (hk : k < 8) :
    ∃ u, scanView (8 * b + k) u = scanView (8 * b + k) s ∧
      scanView (8 * b + k) (s.scanBrick b (some (pr, bt))) = scanView (8 * b + k) (scanPort b pr bt k u) := by
  have hother : ∀ j ∈ List.range 8, j ≠ k → ∀ t, scanView (8 * b + k) (scanPort b pr bt j t) = scanView (8 * b + k) t :=
    fun j _ hj t => scanPort_other b pr bt t fun he => hj (by omega)
  obtain ⟨s0, h0, he⟩ := scanBrick_some s b pr bt
  obtain ⟨u, hu, hscan⟩ := each_once List.nodup_range (List.mem_range.mpr hk) hother s0
  exact ⟨u, hu.trans (h0 _), he ▸ hscan⟩

/-- The runs, the timer and the bits of a port after its scan. -/
theorem scanPort_spec {b k : Nat} (pr bt : BitVec 8) {s t u : State} (hu : scanView (8 * b + k) u = scanView (8 * b + k) s)
    (ht : scanView (8 * b + k) t = scanView (8 * b + k) (scanPort b pr bt k u)) :
    t.bit (ptCxHpStatus (8 * b + k)) 27 = bt.getLsbD k ∧ t.bit (ptCxHpStatus (8 * b + k)) 26 = true ∧
      (t.cxp (8 * b + k)).prsRun = (if pr.getLsbD k = s.bit (ptCxHpStatus (8 * b + k)) 28 then 0 else (s.cxp (8 * b + k)).prsRun + 1) ∧
      (t.cxp (8 * b + k)).btnRun = (if bt.getLsbD k then (s.cxp (8 * b + k)).btnRun + 1 else 0) ∧
      (t.cxp (8 * b + k)).timer = (s.cxp (8 * b + k)).timer - 1 := by
  obtain ⟨hureg, hucxp⟩ := Prod.mk.inj hu
  obtain ⟨htreg, htcxp⟩ := Prod.mk.inj ht
  rw [bit_eq_of_reg htreg, bit_eq_of_reg htreg, htcxp]
  unfold scanPort
  rw [cxp_setCxp, bit_congr (setCxp_regs _ _ _), bit_congr (setCxp_regs _ _ _), bit_setBit_self _ _ _ _ (by decide),
    bit_setBit _ _ _ _ 26 _ (by decide) (.inr (by decide)), bit_setBit_self _ _ _ _ (by decide), hucxp, bit_eq_of_reg hureg]
  exact ⟨rfl, rfl, rfl, rfl, rfl⟩

theorem exec_expanderScan {tl : TileIx} {s : State} (h : s.present 1 tl = true) (b0 b1 : Option (BitVec 8 × BitVec 8)) :
    exec (.expanderScan tl b0 b1) s = .next ((s.scanBrick (2 * tl.val) b0).scanBrick (2 * tl.val + 1) b1) :=
  congrArg Host.Outcome.next (if_pos h)

/-! ### Presence, buttons and removal (R270 to R273) -/

section Commands
variable {p : PortIx} {s : State}

theorem present_of_isCxl {p : Nat} (h : s.isCxl p = true) : s.present 2 p = true := (Bool.and_eq_true_iff.mp h).2

theorem exec_cxlPresenceAccepted_empty (hc : s.isCxl p = true) (h28 : s.bit (ptCxHpStatus p) 28 = false) (h26 : s.bit (ptCxHpStatus p) 26 = true)
    (hrun : 64 ≤ (s.cxp p).prsRun) (hhp : s.hp p = 0) (hauto : s.bit (ptCxCtl p) 25 = false) :
    exec (.cxlPresenceAccepted p) s =
      .next ((((s.setBit (ptCxHpStatus p) 28 true).setCxp p { s.cxp p with prsRun := 0 }).raise 0x0C10 []).setHp p 1) :=
  (if_pos (by simp [hc, h28, h26, hrun])).trans (by simp [hhp, hauto])

theorem exec_cxlPresenceLost_safe (hc : s.isCxl p = true) (h28 : s.bit (ptCxHpStatus p) 28 = true) (h26 : s.bit (ptCxHpStatus p) 26 = true)
    (hrun : 64 ≤ (s.cxp p).prsRun) (hhp : s.hp p = 5) :
    exec (.cxlPresenceLost p) s = .next
      (((((s.setBit (ptCxHpStatus p) 28 false).setCxp p { s.cxp p with prsRun := 0 }).setHp p 0).setAttnInd p 0).raise 0x0C10 []) :=
  (if_pos (by simp [hc, h28, h26, hrun])).trans (by simp [hhp])

/-- Neither command acts before 64 equal scans of an expander that answers. -/
theorem exec_cxlPresence_early (h : (s.cxp p).prsRun < 64 ∨ s.bit (ptCxHpStatus p) 26 = false) :
    exec (.cxlPresenceAccepted p) s = .next s ∧ exec (.cxlPresenceLost p) s = .next s := by
  have hguard : (s.bit (ptCxHpStatus p) 26 && decide (64 ≤ (s.cxp p).prsRun)) = false := by
    rcases h with h | h
    · simp [Nat.not_le.mpr h]
    · simp [h]
  exact ⟨if_neg (by rw [Bool.and_assoc, hguard, Bool.and_false]; decide), if_neg (by rw [Bool.and_assoc, hguard, Bool.and_false]; decide)⟩

/-- A button accepted in ACTIVE starts BUTTON_WAIT. -/
theorem exec_cxlButtonAccepted_active (hc : s.isCxl p = true) (h8 : 8 ≤ (s.cxp p).btnRun) (hmax : (s.cxp p).btnRun < 1000000)
    (h26 : s.bit (ptCxHpStatus p) 26 = true) (hhp : s.hp p = 2) :
    exec (.cxlButtonAccepted p) s = .next (((((s.setCxp p { s.cxp p with btnRun := 1000000 }).setCxp p
      { s.cxp p with btnRun := 1000000, timer := 19074 }).setHp p 3).setPwrInd p 2).raise 0x0C11 []) :=
  (if_neg (by simp [hc, h26]; omega)).trans (by simp [hhp])

/-- A button accepted in BUTTON_WAIT ends it. -/
theorem exec_cxlButtonAccepted_wait (hc : s.isCxl p = true) (h8 : 8 ≤ (s.cxp p).btnRun) (hmax : (s.cxp p).btnRun < 1000000)
    (h26 : s.bit (ptCxHpStatus p) 26 = true) (hhp : s.hp p = 3) :
    exec (.cxlButtonAccepted p) s = .next (((((s.setCxp p { s.cxp p with btnRun := 1000000 }).setCxp p
      { s.cxp p with btnRun := 1000000, timer := 0 }).setHp p 2).setPwrInd p 1).raise 0x0C11 []) :=
  (if_neg (by simp [hc, h26]; omega)).trans (by simp [hhp])

theorem exec_buttonWaitTimer (hhp : s.hp p = 3) (ht : (s.cxp p).timer = 0) :
    exec (.buttonWaitTimer p) s = .next
      ((s.setHp p 4).raise 0x0C12 (.w p :: ((List.range 16).filterMap (s.edgeFid p)).map (fun f => EvVal.w f))) :=
  if_pos ⟨hhp, ht⟩

theorem removeOk_eq {p : Nat} (h2 : 2 ≤ s.hp p) (h4 : s.hp p ≤ 4) : s.removeOk p = (((s.setHp p 5).removed p 6).setHp p 5).setPwrInd p 0 :=
  if_pos ⟨h2, h4⟩

theorem exec_ptCxHpCtlRemoveOk (hc : s.isCxl p = true) (hv : s.vppbOf p = none) : exec (.ptCxHpCtlRemoveOk p) s = .next (s.removeOk p) :=
  (if_pos (present_of_isCxl hc)).trans (congrArg Host.Outcome.next (if_pos (by rw [hc, hv]; rfl)))

theorem exec_ptCxHpCtlCancel (hc : s.isCxl p = true) (hhp : s.hp p = 4) :
    exec (.ptCxHpCtlCancel p) s = .next ((s.setHp p 2).setPwrInd p 1) :=
  (if_pos (present_of_isCxl hc)).trans (congrArg Host.Outcome.next (if_pos ⟨hc, hhp⟩))

theorem exec_hostSlotControlWrite_on {v : VcsIx} {k : Fin 16} {q : Nat} (h : tfind s.cxl.vppb (v.val * 16 + k.val) = some q) (pwr attn : BitVec 2) :
    exec (.hostSlotControlWrite v k pwr attn false) s = .next (s.setCxp q { s.cxp q with slotPwr := pwr.toNat, slotAttn := attn.toNat }) := by
  change execHostSlotControlWrite v k pwr attn false s = _
  unfold execHostSlotControlWrite
  rw [h]
  rfl

end Commands

/-- Settles O39: the scan by `scanBrick_self` for the port's own brick and `scanBrick_other` for the tile's second one; each other command
by the equation of its branch, whose state the laws of PT_CX_HP_STATUS read. -/
theorem cxlHotPlug : Obligations.CxlHotPlug := by
  refine ⟨?_, ?_, ?_, ?_, ?_, ?_, ?_, ?_, ?_, ?_⟩
  · intro tl pr bt b1 k s hk hpres p
    obtain ⟨u, hu, hbrick⟩ := scanBrick_self s (2 * tl.val) pr bt hk
    have hsecond := scanBrick_other (s.scanBrick (2 * tl.val) (some (pr, bt))) (b := 2 * tl.val + 1) (p := p) b1 (by omega)
    exact ⟨_, exec_expanderScan hpres _ b1, scanPort_spec pr bt hu (hsecond.trans hbrick)⟩
  · intro p s hc h28 h26 hrun hhp hauto
    refine ⟨_, exec_cxlPresenceAccepted_empty hc h28 h26 hrun hhp hauto, by simp, ?_, by simp, ?_⟩
    · rw [bit_setHp _ _ _ (by decide), bit_eq_of_reg (raise_hpStatus _ _ _ _), bit_congr (setCxp_regs _ _ _), bit_setBit_self _ _ _ _ (by decide)]
    · rw [setHp_ev, raise_seq, setCxp_ev, setBit_ev]
  · intro p s hc h28 h26 hrun hhp
    refine ⟨_, exec_cxlPresenceLost_safe hc h28 h26 hrun hhp, by simp, ?_, ?_⟩
    · rw [bit_eq_of_reg (raise_hpStatus _ _ _ _), bit_eq_of_reg (setAttnInd_hpStatus _ _ _ _), bit_setHp _ _ _ (by decide),
        bit_congr (setCxp_regs _ _ _), bit_setBit_self _ _ _ _ (by decide)]
    · rw [raise_seq, setAttnInd_ev, setHp_ev, setCxp_ev, setBit_ev]
  · exact fun p s => exec_cxlPresence_early
  · intro p s hc h8 hmax h26 hhp
    refine ⟨_, exec_cxlButtonAccepted_active hc h8 hmax h26 hhp, by simp, by simp, ?_⟩
    rw [raise_seq, setPwrInd_ev, setHp_ev, setCxp_ev, setCxp_ev]
  · intro p s hc h8 hmax h26 hhp
    exact ⟨_, exec_cxlButtonAccepted_wait hc h8 hmax h26 hhp, by simp, by simp⟩
  · intro p s hhp ht
    exact ⟨_, exec_buttonWaitTimer hhp ht, by simp, by rw [raise_seq, setHp_ev]⟩
  · intro p s hc hv h2 h4
    exact ⟨_, exec_ptCxHpCtlRemoveOk hc hv, removeOk_eq h2 h4, by rw [removeOk_eq h2 h4, hp_setPwrInd, hp_setHp]⟩
  · intro p s hc hhp
    exact ⟨_, exec_ptCxHpCtlCancel hc hhp, by simp, by simp⟩
  · intro v k pwr attn p s hv
    exact ⟨_, exec_hostSlotControlWrite_on hv pwr attn, by simp, by simp, setCxp_regs _ _ _⟩

end Sys2Proof.Machine
end

section
namespace Sys2Proof.Machine

/-! ### A containment that is left while the port is SAFE (R264, R272) -/

/-- A port that leaves containment while it is SAFE does not train: training starts outside SAFE only (R272). -/
theorem cxState_dpcRelease_safe {s : State} {p : Nat} (h4 : s.cxState p = 4) (h5 : s.hp p = 5) : (s.dpcRelease p).cxState p = 0 := by
  have hne : ptCxHpStatus p ≠ ptCxStatus p := by simp [ptCxHpStatus, ptCxStatus]
  have hhp : (s.setFld (ptCxStatus p) 29 3 0).hp p = 5 := (hp_of_reg (by rw [reg_setFld, if_neg hne])).trans h5
  unfold State.dpcRelease
  rw [if_pos h4, State.cxTrain, if_neg fun h => h.2.2.1 hhp]
  exact fld_setFld_self s _ 29 3 0 (by decide)

theorem exec_ptCxCtlDpcRelease {p : PortIx} {s : State} (h : s.isCxl p = true) : exec (.ptCxCtlDpcRelease p) s = .next (s.dpcRelease p) :=
  (if_pos (present_of_isCxl h)).trans (congrArg Host.Outcome.next (if_pos h))

/-- Downstream port 0 carries a Type-3 device. An uncorrectable error has contained it; it is ACTIVE until its DOWN_TICKS end (R262). -/
def containedState : State :=
  { State.reset with
    regs := [(ptMode 0, 0x80000000#32), (ptCxCtl 0, 0x80000000#32), (ptCxStatus 0, 0x80000000#32), (ptCxHpStatus 0, 0x54000000#32)]
    cxl := { ports := [(0, { wasType := 4, wasLds := 1, downAt := some 0 })] } }

/-- REMOVE_OK makes the contained port SAFE and leaves it contained. -/
theorem containedState_removeOk :
    exec (.ptCxHpCtlRemoveOk 0) containedState = .next (containedState.removeOk 0) ∧ (containedState.removeOk 0).hp 0 = 5 ∧
      (containedState.removeOk 0).cxState 0 = 4 :=
  ⟨exec_ptCxHpCtlRemoveOk (by decide +kernel) (by decide +kernel), by decide +kernel, by decide +kernel⟩

/-- Refutes O40: the clause of PT_CX_CTL_DPC_RELEASE says that the port then trains. A port that REMOVE_OK has made SAFE while it was
contained does not (R272): its link is then down. The state is the one that REMOVE_OK leaves of `containedState`. -/
theorem not_cxlLinks : ¬ Obligations.CxlLinks := by
  rintro ⟨-, -, -, -, -, -, -, -, -, -, -, -, -, -, hrelease, -⟩
  obtain ⟨-, hsafe, hcontained⟩ := containedState_removeOk
  have hc : (containedState.removeOk 0).isCxl 0 = true := by decide +kernel
  obtain ⟨t, ht, htrain, -⟩ := hrelease 0 (containedState.removeOk 0) hc hcontained (by decide +kernel) (by decide +kernel)
  obtain rfl := Host.Outcome.next.inj ((exec_ptCxCtlDpcRelease (p := 0) hc).symm.trans ht)
  exact absurd ((cxState_dpcRelease_safe hcontained hsafe).symm.trans htrain) (by decide)

end Sys2Proof.Machine
end

section
namespace Sys2Proof.Machine

/-! ### Commands of the FM API (R269) -/

section Serve
variable {src : Src} {s : State}

theorem fmServe_open (h : s.fmShut src = false) (act : Res) : s.fmServe src act = act := if_neg (by rw [h]; decide)
theorem fmServe_shut (h : s.fmShut src = true) (act : Res) : s.fmServe src act = .next s := if_pos h

theorem exec_identifySwitchDevice (h : s.fmShut src = false) :
    exec (.identifySwitchDevice src) s = .next (s.emit (.fmReply src 0x5100 .success [192, 96])) := fmServe_open h _

theorem exec_getPhysicalPortState {p : Byte} (h : s.fmShut src = false) (hp : p.toNat < 192) :
    exec (.getPhysicalPortState src [p]) s =
      .next (s.emit (.fmReply src 0x5101 .success [s.nreg (ptMode p.toNat), if s.isMember p.toNat then 0 else s.nreg (ptCxStatus p.toNat)])) :=
  (fmServe_open h _).trans (if_neg (by simp [hp]))

theorem exec_physicalPortControl_assert {p : Byte} (h : s.fmShut src = false) (hp : p.toNat < 192) (hc : s.isCxl p.toNat = true) :
    exec (.physicalPortControl src p 0) s = .next
      (((s.setCxp p.toNat { s.cxp p.toNat with perst := true }).emit (.perst p.toNat true)).emit (.fmReply src 0x5102 .success [])) :=
  (fmServe_open h _).trans (if_neg (by simp [hc, hp]))

theorem exec_sendPpbCxlIoConfigurationRequest {p : Byte} (h : s.fmShut src = false) (hp : p.toNat < 192) (hc : s.isCxl p.toNat = true) (b : List Byte) :
    exec (.sendPpbCxlIoConfigurationRequest src p b) s = .next (s.emit (.fmForward 0x5103 p.toNat 0 b)) :=
  (fmServe_open h _).trans (if_neg (by simp [hc, hp]))

/-- What GET_VIRTUAL_CXL_SWITCH_INFO answers of a vCS. -/
def State.vcsInfo (s : State) (v : Nat) : List Nat :=
  [b2n (tfind s.bind.vcs v).isSome, match tfind s.bind.vcs v with | some c => c.usp | none => 0] ++
    (List.range 16).map (fun k => match tfind s.cxl.vppb (v * 16 + k) with | some p => p + 1 | none => 0)

theorem exec_getVirtualCxlSwitchInfo {v : Byte} (h : s.fmShut src = false) (hv : v.toNat < 96) :
    exec (.getVirtualCxlSwitchInfo src v) s = .next (s.emit (.fmReply src 0x5200 .success (s.vcsInfo v.toNat))) :=
  (fmServe_open h _).trans (if_neg (Nat.not_le.mpr hv))

theorem exec_generateAerEvent {v k : Byte} {c : Vcs} (h : s.fmShut src = false) (hv : tfind s.bind.vcs v.toNat = some c) (hk : k.toNat < 16) :
    exec (.generateAerEvent src v k) s = .next ((s.emit (.aer c.usp)).emit (.fmReply src 0x5203 .success [])) := by
  refine (fmServe_open h _).trans ?_
  rw [hv]
  exact if_neg (Nat.not_le.mpr hk)

theorem exec_tunnelManagementCommand {p : Byte} (h : s.fmShut src = false) (hm : s.mldPort p.toNat = true) (b : List Byte) :
    exec (.tunnelManagementCommand src p b) s = .next (s.emit (.fmForward 0x5300 p.toNat 0xFFFF b)) :=
  (fmServe_open h _).trans (if_pos hm)

section Ld
variable {p ld : Byte} (h : s.fmShut src = false) (hm : s.mldPort p.toNat = true) (hld : ld.toNat < s.fld (ptCxStatus p.toNat) 7 5)
include h hm hld

theorem exec_sendLdCxlIoConfigurationRequest (b : List Byte) :
    exec (.sendLdCxlIoConfigurationRequest src p ld b) s = .next (s.emit (.fmForward 0x5301 p.toNat ld.toNat b)) :=
  (fmServe_open h _).trans (if_pos (by rw [hm, decide_eq_true hld]; rfl))

theorem exec_sendLdCxlIoMemoryRequest (b : List Byte) :
    exec (.sendLdCxlIoMemoryRequest src p ld b) s = .next (s.emit (.fmForward 0x5302 p.toNat ld.toNat b)) :=
  (fmServe_open h _).trans (if_pos (by rw [hm, decide_eq_true hld]; rfl))

end Ld

theorem exec_fmApiUnsupported (h : s.fmShut src = false) (op : BitVec 16) :
    exec (.fmApiUnsupported src op) s = .next (s.emit (.fmReply src op.toNat .unsupported [])) := fmServe_open h _

end Serve

/-! ### Bindings of vPPBs (R267) -/

/-- The request as which an FM API command that changes binding is checked and journaled. -/
def fmReq (src : Src) : Req := { src := src, seq := 0, kind := 0, index := 0, lockV := false, lock := 0, gen := 0, rsvd := false }

/-- A binding that meets no absent port and no lock takes effect between its journal records, and a reply of its status follows. -/
theorem fmBinding_open {s t : State} {src : Src} {code nalug st : Nat} {body : List Byte} {objs : List Obj} {ports : List Nat} {act : State → State × Nat}
    (hports : ports.any (fun p => !s.present 2 p) = false) (hlock : s.lockCheck (fmReq src) (.module :: objs) = none)
    (hact : act (s.journalBegin nalug (fmReq src) body) = (t, st)) :
    s.fmBinding src code nalug body objs ports act = (t.journalDone nalug src 0 st []).emit (.fmReply src code (fmRc st) []) := by
  unfold State.fmBinding
  rw [← fmReq, if_neg (by rw [hports]; decide), hlock]
  dsimp only
  rw [hact]

theorem vppbBind_free {s : State} {v k p : Nat} (hv : (tfind s.bind.vcs v).isSome = true) (hmode : s.pmode p = 2) (hmem : s.isMember p = false)
    (h4 : s.devType p ≠ 4) (h5 : s.devType p ≠ 5) (hport : s.vppbOf p = none) (hslot : tfind s.cxl.vppb (v * 16 + k) = none) :
    s.vppbBind v k p =
      (({ s with cxl := { s.cxl with vppb := tins s.cxl.vppb (v * 16 + k) p } }).setBit (ptCxHpStatus p) 25 true, stOk) := by
  have hvcs : (tfind s.bind.vcs v).isNone = false := by rw [← Option.not_isSome, hv]; rfl
  unfold State.vppbBind
  rw [if_neg (by simp [hvcs, hmode, hmem, h4, h5]), hport, hslot]
  rfl

theorem vppbUnbind_free {s : State} {v k p : Nat} (hslot : tfind s.cxl.vppb (v * 16 + k) = some p) (hedge : s.edgeFid p 0 = none) :
    s.vppbUnbind v k =
      (({ s with cxl := { s.cxl with vppb := tdel s.cxl.vppb (v * 16 + k) } }).setBit (ptCxHpStatus p) 25 false, stOk) := by
  unfold State.vppbUnbind
  rw [hslot]
  dsimp only
  rw [hedge]
  rfl

theorem exec_bindVppb {src : Src} {v k p : Byte} {s : State} (h : s.fmShut src = false) (hv : v.toNat < 96) (hk : k.toNat < 16) (hp : p.toNat < 192) :
    exec (.bindVppb src v k p 0xFFFF) s = .next (s.fmBinding src 0x5201 0x0309 [v, k, p, 0] [.vcs v.toNat, .port p.toNat] [p.toNat]
      (fun t => t.vppbBind v.toNat k.toNat p.toNat)) :=
  (fmServe_open h _).trans (if_neg (by simp [hv, hk, hp]))

theorem exec_unbindVppb {src : Src} {v k : Byte} {p : Nat} {s : State} (h : s.fmShut src = false) (hv : v.toNat < 96) (hk : k.toNat < 16)
    (hslot : tfind s.cxl.vppb (v.toNat * 16 + k.toNat) = some p) :
    exec (.unbindVppb src v k) s = .next (s.fmBinding src 0x5202 0x030A [v, k, 0, 0] [.vcs v.toNat, .port p] []
      (fun t => t.vppbUnbind v.toNat k.toNat)) := by
  refine (fmServe_open h _).trans ((if_neg (by simp [hv, hk])).trans ?_)
  rw [hslot]

theorem vppbOf_congr {s t : State} (h : t.cxl = s.cxl) (p : Nat) : t.vppbOf p = s.vppbOf p := by rw [State.vppbOf, State.vppbOf, h]

/-- Settles O42: what is answered or forwarded by the equation of each command; a binding by `fmBinding_open` with `vppbBind_free` or
`vppbUnbind_free`. An empty downstream port may be bound (log 158); what is forwarded is an output without a reply (log 161). -/
theorem fmApi : Obligations.FmApi := by
  refine ⟨fun src s h => exec_identifySwitchDevice h, fun src p s h hp => exec_getPhysicalPortState h hp, fun src p s h hp hc => ?_,
    fun src p b s h hp hc => exec_sendPpbCxlIoConfigurationRequest h hp hc b, fun src v s h hv => ?_, ?_, ?_,
    fun src v k c s h hv hk => exec_generateAerEvent h hv hk, fun src p b s h hm => exec_tunnelManagementCommand h hm b,
    fun src p ld b s h hm hld => ⟨exec_sendLdCxlIoConfigurationRequest h hm hld b, exec_sendLdCxlIoMemoryRequest h hm hld b⟩,
    fun src op s h => exec_fmApiUnsupported h op, fun src p s h => ⟨fmServe_shut h _, fmServe_shut h _⟩⟩
  · exact ⟨_, exec_physicalPortControl_assert h hp hc, congrArg CxPort.perst (cxp_setCxp s _ _), List.append_assoc _ _ _⟩
  · exact ⟨_, s.vcsInfo v.toNat, exec_getVirtualCxlSwitchInfo h hv, rfl, by simp [State.vcsInfo], rfl⟩
  · intro src v k p s q x h hv hk hp hpres hlock hvcs hmode hmem h4 h5 hport hslot
    have hcxl : x.cxl = s.cxl := journalBegin_cxl s _ _ _
    have hbind : x.bind = s.bind := journalBegin_bind s _ _ _
    have hact := vppbBind_free (s := x) (hbind ▸ hvcs) hmode hmem h4 h5 ((vppbOf_congr hcxl _).trans hport) (hcxl ▸ hslot)
    refine ⟨_, (exec_bindVppb h hv hk hp).trans (congrArg _ (fmBinding_open (by simp [hpres]) hlock hact)), ?_, List.mem_append_right _ List.mem_cons_self⟩
    rw [emit_cxl, journalDone_cxl, setBit_cxl, hcxl]
  · intro src v k p s q h hv hk hslot hlock hedge
    have hcxl : (s.journalBegin 0x030A q [v, k, 0, 0]).cxl = s.cxl := journalBegin_cxl s _ _ _
    have hact := vppbUnbind_free (v := v.toNat) (k := k.toNat) (hcxl ▸ hslot) hedge
    refine ⟨_, (exec_unbindVppb h hv hk hslot).trans (congrArg _ (fmBinding_open rfl hlock hact)), ?_, List.mem_append_right _ List.mem_cons_self⟩
    rw [emit_cxl, journalDone_cxl, setBit_cxl, hcxl]

end Sys2Proof.Machine
end

section
namespace Sys2Proof.Machine

/-! ### A lane's words and its own state (R276, R279) -/

theorem portReg_laneBase (p : Nat) {l k : Nat} (hl : l < 5) (hk : k < 0x200) : PortReg (laneBase p l + k) := by
  unfold laneBase
  rw [Nat.add_assoc, Nat.add_assoc]
  exact portReg_portBase p (by omega)

theorem portBase_ne_laneBase {n p l k j : Nat} (hk : k < 0x6000) (hl : l < 5) (hj : j < 0x200) : portBase n + k ≠ laneBase p l + j := by
  unfold laneBase portBase
  omega

@[simp] theorem laneS_setLane (s : State) (p l : Nat) (x : LaneS) : (s.setLane p l x).laneS p l = x := tget_tput_self _ _ _ _

theorem laneS_congr {s t : State} (h : t.lane = s.lane) (p l : Nat) : t.laneS p l = s.laneS p l := by rw [State.laneS, State.laneS, h]

theorem lnState_of_reg {s t : State} {p l : Nat} (h : t.reg (lnStatus p l) = s.reg (lnStatus p l)) : t.lnState p l = s.lnState p l :=
  congrArg (bits · 28 4) h

theorem lnState_setLn (s : State) (p l st : Nat) : (s.setLn p l st).lnState p l = st % 16 := fld_setFld_self s _ 28 4 st (by decide)

/-- A training block is sent: no register changes. -/
@[simp] theorem sendTrain_regs (s : State) (p l : Nat) : (s.sendTrain p l).regs = s.regs := by
  unfold State.sendTrain
  dsimp only
  split <;> rfl

/-- A lane that enters a state shows it; no other register changes. -/
theorem laneTo_regs (s : State) (p l st : Nat) : (s.laneTo p l st).regs = (s.setLn p l st).regs := by
  unfold State.laneTo
  dsimp only
  split
  · exact (each_frame (proj := State.regs) (fun g u => sendTrain_regs u p g) _ _).trans (setLane_regs _ _ _ _)
  · exact (sendTrain_regs _ p l).trans (setLane_regs _ _ _ _)

theorem laneTo_reg (s : State) {p l o : Nat} (st : Nat) (h : o ≠ lnStatus p l) : (s.laneTo p l st).reg o = s.reg o := by
  rw [reg_congr (laneTo_regs s p l st), State.setLn, reg_setFld, if_neg h]

theorem laneLock_reg (s : State) {p l o : Nat} (hs : o ≠ lnStatus p l) (he : o ≠ lnEye p l) : (s.laneLock p l).reg o = s.reg o := by
  unfold State.laneLock
  rw [reg_congr (setLane_regs _ _ _ _), reg_setBit, if_neg he, reg_setFld, if_neg hs, laneTo_reg s 6 hs]

/-! ### A re-lock under FORCE (R282, R284) -/

/-- FORCE holds the peaking setting at FORCE_PEAK through a re-lock also, whatever setting the lane has stored (R282). -/
theorem laneRelockDone_forced {p : PortIx} {l : LaneIx} {s : State} {e : Nat × Word × Word × Bool} (hst : s.lnState p l = 7)
    (hre : (s.laneS p l).relock = true) (hage : s.laneAge p l ≤ 8) (heq : (s.laneS p l).eq = some e) (hf : s.bit (lnRxEq p l) 30 = true) :
    ∃ t, exec (.laneRelockDone p l) s = .next t ∧ t.fld (lnRxEq p l) 0 4 = s.fld (lnRxEq p l) 24 4 := by
  obtain ⟨pk, d0, d1, r⟩ := e
  refine ⟨_, (if_pos ⟨hst, hre, hage⟩).trans (by rw [heq]), ?_⟩
  rw [State.fld, laneLock_reg _ (by simp [lnRxEq, lnStatus]) (by simp [lnRxEq, lnEye]), reg_setReg_ne _ _ (by simp [lnRxEq, lnDfe1]),
    reg_setReg_ne _ _ (by simp [lnRxEq, lnDfe0]), ← State.fld, fld_setFld_self _ _ _ _ _ (by decide), if_pos hf]
  exact Nat.mod_eq_of_lt (bits_lt _ 24 4)

/-- Lane 1 of port 0 in STANDBY, which has stored peaking 7; FORCE is set since, with FORCE_PEAK 3. -/
def forcedStandby : State :=
  { State.reset with
    regs := [(lnStatus 0 1, 0x70000000#32), (lnRxEq 0 1, 0xC3000003#32)]
    lane := { lanes := [(1, { eq := some (7, 0, 0, false) })] } }

/-- Its re-lock begins. -/
theorem forcedStandby_relockRequest :
    exec (.laneRelockRequest 0 1) forcedStandby = .next (forcedStandby.relockStart 0 1) ∧ (forcedStandby.relockStart 0 1).lnState 0 1 = 7 ∧
      (forcedStandby.relockStart 0 1).laneS 0 1 = { eq := some (7, 0, 0, false), relock := true } :=
  ⟨rfl, by decide +kernel, by decide +kernel⟩

/-- Refutes O43: the clause of LANE_RELOCK_DONE says that the lane then has its stored peaking setting (R284). With LN_RX_EQ.FORCE = 1 it
has FORCE_PEAK (R282, `laneRelockDone_forced`). The state is the one that the re-lock request leaves of `forcedStandby`. -/
theorem not_laneBringup : ¬ Obligations.LaneBringup := by
  rintro ⟨-, -, -, -, -, -, -, -, -, -, -, -, hrelock, -⟩
  obtain ⟨-, hst, hlane⟩ := forcedStandby_relockRequest
  have hre : ((forcedStandby.relockStart 0 1).laneS 0 1).relock = true := by rw [hlane]
  have heq : ((forcedStandby.relockStart 0 1).laneS 0 1).eq = some (7, 0, 0, false) := by rw [hlane]
  have hage : (forcedStandby.relockStart 0 1).laneAge 0 1 ≤ 8 := by decide +kernel
  obtain ⟨t, ht, -, hstored, -⟩ := hrelock 0 1 7 0 0 false _ hst hre hage heq (by decide)
  obtain ⟨u, hu, hforced⟩ := laneRelockDone_forced (p := 0) (l := 1) hst hre hage heq (by decide +kernel)
  obtain rfl := Host.Outcome.next.inj (hu.symm.trans ht)
  exact absurd (hstored.symm.trans hforced) (by decide +kernel)

end Sys2Proof.Machine
end

section
namespace Sys2Proof.Machine

/-! ### Words, counters and a lane's state under the other updates -/

theorem fld_of_reg {s t : State} {o : Nat} (h : t.reg o = s.reg o) (lo n : Nat) : t.fld o lo n = s.fld o lo n := congrArg (bits · lo n) h

theorem bits_one (w : Word) (i : Nat) : bits w i 1 = (w.getLsbD i).toNat := by
  rw [bits, pow_one, BitVec.getLsbD, Nat.toNat_testBit]

theorem bit_eq_getLsbD (s : State) (o i : Nat) : s.bit o i = (s.reg o).getLsbD i := by
  rw [State.bit, State.fld, bits_one]
  cases (s.reg o).getLsbD i <;> rfl

theorem bit_eq_decide_bits (s : State) (o i : Nat) : s.bit o i = decide (bits (s.reg o) i 1 = 1) := rfl

theorem nreg_cnt_self (s : State) (o k : Nat) : (s.cnt o k).nreg o = min 0xFFFFFFFF (s.nreg o + k) := by
  refine (nreg_setN_self s o ?_).trans (Nat.min_comm _ _)
  omega

/-- CAUSE, the lock bits and the far lane lie below STATE. -/
theorem lnState_setFld (s : State) (p l lo n v : Nat) (h : lo + n ≤ 28) : (s.setFld (lnStatus p l) lo n v).lnState p l = s.lnState p l :=
  fld_setFld s _ lo n v _ 28 4 (by omega) (.inr (.inr h))

/-- The mode of a port is no word of a lane. -/
theorem pmode_setReg_lane (s : State) (q : Nat) {p l k : Nat} (v : Word) (hl : l < 5) (hk : k < 0x200) :
    (s.setReg (laneBase p l + k) v).pmode q = s.pmode q :=
  fld_of_reg (reg_setReg_ne s v (portBase_ne_laneBase (by decide) hl hk)) 30 2

/-! ### Faults of a LOCKED lane of a CXL port (R289) -/

/-- Recovery of the link writes words of its port, none of a lane. -/
theorem cxRecover_reg (s : State) (q : Nat) {p l k : Nat} (hl : l < 5) (hk : k < 0x200) :
    (s.cxRecover q).reg (laneBase p l + k) = s.reg (laneBase p l + k) := by
  have hcount : laneBase p l + k ≠ ptCxRecoveryCnt (s.linkOf q) := (portBase_ne_laneBase (by decide) hl hk).symm
  have hstatus : laneBase p l + k ≠ ptCxStatus (s.linkOf q) := (portBase_ne_laneBase (by decide) hl hk).symm
  unfold State.cxRecover
  dsimp only
  split
  · rw [reg_cnt, if_neg hcount, reg_setFld, if_neg hstatus]
  · rfl

/-- What a fault writes of a CXL lane's words: STATE and CAUSE, and LN_FAIL_CNT. -/
theorem laneFault_reg {s : State} {p l k : Nat} (cause : Nat) (hm : s.pmode p ≠ 3) (hl : l < 5) (hk : k < 0x200) :
    (s.laneFault p l cause).reg (laneBase p l + k) =
      (((s.setLn p l 8).setFld (lnStatus p l) 18 4 cause).cnt (lnFailCnt p l)).reg (laneBase p l + k) := by
  unfold State.laneFault State.laneEv
  dsimp only
  rw [if_neg hm, cxRecover_reg _ _ hl hk, KeepsPorts.raiseLim _ _ _ _ _ (portReg_laneBase p hl hk)]
  simp only [reg_cnt, reg_setFld, reg_congr (laneTo_regs s p l 8)]

/-- Every other word of the lane is as it was. -/
theorem laneFault_reg_ne {s : State} {p l k : Nat} (cause : Nat) (hm : s.pmode p ≠ 3) (hl : l < 5) (hk : k < 0x200)
    (hs : laneBase p l + k ≠ lnStatus p l) (hf : laneBase p l + k ≠ lnFailCnt p l) :
    (s.laneFault p l cause).reg (laneBase p l + k) = s.reg (laneBase p l + k) := by
  rw [laneFault_reg cause hm hl hk, reg_cnt, if_neg hf, reg_setFld, if_neg hs, State.setLn, reg_setFld, if_neg hs]

theorem laneFault_spec {s : State} {p l cause : Nat} (hm : s.pmode p ≠ 3) (hl : l < 5) (hc : cause < 16) :
    (s.laneFault p l cause).lnState p l = 8 ∧ (s.laneFault p l cause).fld (lnStatus p l) 18 4 = cause ∧
      (s.laneFault p l cause).nreg (lnFailCnt p l) = min 0xFFFFFFFF (s.nreg (lnFailCnt p l) + 1) := by
  have hne : lnStatus p l ≠ lnFailCnt p l := by simp [lnStatus, lnFailCnt]
  have hstatus : (s.laneFault p l cause).reg (lnStatus p l) = ((s.setLn p l 8).setFld (lnStatus p l) 18 4 cause).reg (lnStatus p l) :=
    (laneFault_reg cause hm hl (by decide)).trans (by rw [reg_cnt, ← lnStatus, if_neg hne])
  have hcount : (s.laneFault p l cause).reg (lnFailCnt p l) =
      (((s.setLn p l 8).setFld (lnStatus p l) 18 4 cause).cnt (lnFailCnt p l)).reg (lnFailCnt p l) := laneFault_reg cause hm hl (by decide)
  refine ⟨?_, ?_, ?_⟩
  · rw [lnState_of_reg hstatus, lnState_setFld _ _ _ _ _ _ (by decide), lnState_setLn]
  · rw [fld_of_reg hstatus, fld_setFld_self _ _ _ _ _ (by decide)]
    exact Nat.mod_eq_of_lt hc
  · rw [State.nreg, hcount, ← State.nreg, nreg_cnt_self, State.nreg, reg_setFld, if_neg hne.symm, State.setLn, reg_setFld, if_neg hne.symm, State.nreg]

theorem exec_laneLossOfSignal {p : PortIx} {l : LaneIx} {s : State} (h : s.lnState p l = 6) :
    exec (.laneLossOfSignal p l) s = .next ((s.setBit (lnStatus p l) 25 false).laneFault p l 6) := if_neg (not_not.mpr h)

theorem exec_laneCdrLoss {p : PortIx} {l : LaneIx} {s : State} (h : s.lnState p l = 6) :
    exec (.laneCdrLoss p l) s = .next (((s.setBit (lnStatus p l) 26 false).cnt (lnCdrLossCnt p l)).laneFault p l 7) := if_neg (not_not.mpr h)

/-! ### The eye of a tick, and tracking (R282, R289) -/

/-- A tick's eye in LN_EYE, with the lane's runs of low eyes after it. -/
def State.showEye (s : State) (p l : Nat) (h w : Byte) (k : LaneS) : State :=
  (((s.setFld (lnEye p l) 0 8 h.toNat).setFld (lnEye p l) 16 8 w.toNat).setBit (lnEye p l) 31 true).setLane p l k

theorem showEye_spec (s : State) (p l : Nat) (h w : Byte) (k : LaneS) :
    (s.showEye p l h w k).fld (lnEye p l) 0 8 = h.toNat ∧ (s.showEye p l h w k).fld (lnEye p l) 16 8 = w.toNat ∧
      (s.showEye p l h w k).bit (lnEye p l) 31 = true ∧ (s.showEye p l h w k).lnState p l = s.lnState p l := by
  have hne : lnStatus p l ≠ lnEye p l := by simp [lnStatus, lnEye]
  have hh : h.toNat % 2 ^ 8 = h.toNat := Nat.mod_eq_of_lt h.isLt
  have hw : w.toNat % 2 ^ 8 = w.toNat := Nat.mod_eq_of_lt w.isLt
  unfold State.showEye
  refine ⟨?_, ?_, ?_, ?_⟩
  · rw [fld_congr (setLane_regs _ _ _ _), fld_setBit _ _ _ _ _ _ _ (by decide) (.inr (.inl (by decide))),
      fld_setFld _ _ _ _ _ _ _ _ (by decide) (.inr (.inl (by decide))), fld_setFld_self _ _ _ _ _ (by decide), hh]
  · rw [fld_congr (setLane_regs _ _ _ _), fld_setBit _ _ _ _ _ _ _ (by decide) (.inr (.inl (by decide))),
      fld_setFld_self _ _ _ _ _ (by decide), hw]
  · rw [bit_congr (setLane_regs _ _ _ _), bit_setBit_self _ _ _ _ (by decide)]
  · refine lnState_of_reg ?_
    rw [reg_congr (setLane_regs _ _ _ _), reg_setBit, if_neg hne, reg_setFld, if_neg hne, reg_setFld, if_neg hne]

/-- An eye of at least EYE_MIN ends the run of low eyes; EV_LN_EYE_LOW may be due for EYE_WARN. -/
theorem exec_eyeMeasurement_good {p : PortIx} {l : LaneIx} {h w : Byte} {s : State} (hst : s.lnState p l = 6)
    (hm : s.bit (lnMarginRes p l) 30 = false) (he : s.eyeMin p l ≤ h.toNat) :
    ∃ k : LaneS, k.lowRun = 0 ∧ (exec (.eyeMeasurement p l h w) s = .next (s.showEye p l h w k) ∨
      exec (.eyeMeasurement p l h w) s = .next ((s.showEye p l h w k).eyeEv p l h.toNat)) := by
  have hopen : ¬ (s.lnState p l ≠ 6 ∨ s.bit (lnMarginRes p l) 30 = true) := by simp [hst, hm]
  have hgood : ¬ h.toNat < s.eyeMin p l := Nat.not_lt.mpr he
  have hexec : exec (.eyeMeasurement p l h w) s = _ := if_neg hopen
  simp only [if_neg hgood] at hexec
  rw [if_neg fun hlow => absurd hlow.1 (by decide)] at hexec
  generalize (if h.toNat < s.fld (lnFaultCtl p l) 16 8 then (s.laneS p l).warnRun + 1 else 0) = warn at hexec
  refine ⟨{ s.laneS p l with lowRun := 0, warnRun := warn }, rfl, ?_⟩
  rw [hexec]
  split
  · exact .inr rfl
  · exact .inl rfl

theorem eyeEv_reg (s : State) (p l h : Nat) {o : Nat} (ho : PortReg o) : (s.eyeEv p l h).reg o = s.reg o :=
  KeepsPorts.raiseLim s _ _ _ o ho

/-- A tracking step that is due and not paused, with the error sign for more peaking. -/
theorem exec_peakingTrackStep_up {p : PortIx} {l : LaneIx} {s : State} (hst : s.lnState p l = 6) (htr : s.bit (lnRxEq p l) 31 = true)
    (hf : s.bit (lnRxEq p l) 30 = false) (hm : s.bit (lnMarginRes p l) 30 = false) (hr : (s.laneS p l).recal = false)
    (hq : (s.link p).rxQuiet = false) (hsp : (s.link p).sp = 0) (hdue : s.trackTicks p l ≤ ticksSince (s.laneS p l).trackAt s.tick.loc) :
    exec (.peakingTrackStep p l (some true)) s = .next ((s.setFld (lnRxEq p l) 0 4 (min 15 (s.fld (lnRxEq p l) 0 4 + 1))).setLane p l
      { s.laneS p l with trackAt := s.tick.loc }) :=
  if_neg (by simp [hst, htr, hf, hm, hr, hq, hsp, hdue])

/-! ### Tests of a lane (R290, R291) -/

section Test
variable {p : PortIx} {l : LaneIx} {s : State}

theorem ifLane_present (h2 : s.present 2 p = true) (h3 : s.present 3 (p.val * 5 + l.val) = true) (off : Nat) (act : State → Res) :
    s.ifLane p l off act = act s := (if_pos h2).trans (if_pos h3)

theorem ifLane_absent (h : (s.present 2 p && s.present 3 (p.val * 5 + l.val)) = false) (off : Nat) (act : State → Res) :
    s.ifLane p l off act = .next (s.raise 0x0101 [.w off]) := by
  by_cases h2 : s.present 2 p = true
  · exact (if_pos h2).trans (if_neg (by simpa [h2] using h))
  · exact if_neg h2

/-- While the link is not disabled no generator and no checker is enabled. -/
theorem lnTestWrite_linkEnabled {v : Word} (h : bits v 31 1 = 1 ∨ bits v 30 1 = 1) (hd : s.linkDisabled p = false) : s.lnTestWrite p l v = s :=
  if_pos ⟨h, .inl (by rw [hd]; rfl)⟩

/-- The lane enters TEST; its generator runs and injects as a value of LN_TEST_CTL says. -/
def State.testRun (s : State) (p l : Nat) (v : Word) : State :=
  let t := if bits v 31 1 = 1 then (s.setLn p l 9).genOn p l v else s.setLn p l 9
  if bits v 24 1 = 1 ∧ bits v 31 1 = 1 then t.emit (.lnInject p l) else t

theorem testRun_regs (s : State) (p l : Nat) (v : Word) : (s.testRun p l v).regs = (s.setLn p l 9).regs := by
  have hgen : (if bits v 31 1 = 1 then (s.setLn p l 9).genOn p l v else s.setLn p l 9).regs = (s.setLn p l 9).regs := by
    split
    · exact emit_regs _ _
    · rfl
  unfold State.testRun
  dsimp only
  split
  · exact hgen
  · exact hgen

theorem mem_testRun_out (s : State) (p l : Nat) {v : Word} (hi : bits v 24 1 = 1) (hg : bits v 31 1 = 1) :
    Out.lnInject p l ∈ (s.testRun p l v).out := by
  unfold State.testRun
  dsimp only
  rw [if_pos ⟨hi, hg⟩]
  exact List.mem_append_right _ List.mem_cons_self

theorem sweepStart_reg (s : State) {p l o : Nat} (h : o ≠ lnRxEq p l) : (s.sweepStart p l).reg o = s.reg o :=
  reg_setReg_ne _ _ h

/-- On a disabled link a value that enables the generator or the checker is kept, and the lane enters TEST. -/
theorem lnTestWrite_linkDisabled {v : Word} (h : bits v 31 1 = 1 ∨ bits v 30 1 = 1) (hd : s.linkDisabled p = true) (hl : l.val ≠ 4 ∨ s.pmode p = 3) :
    ∃ u : State, u.reg (lnTestCtl p l) = v &&& 0xFEF80000#32 ∧ s.lnTestWrite p l v = u.testRun p l v := by
  have hopen : ¬ ((bits v 31 1 = 1 ∨ bits v 30 1 = 1) ∧ ((!s.linkDisabled p) = true ∨ (l.val = 4 ∧ s.pmode p ≠ 3))) := by
    rintro ⟨-, hen | ⟨h4, h3⟩⟩
    · simp [hd] at hen
    · exact hl.elim (· h4) h3
  have hstatus : lnTestCtl p l ≠ lnTestStatus p l := by simp [lnTestCtl, lnTestStatus]
  have hrxEq : lnTestCtl p l ≠ lnRxEq p l := by simp [lnTestCtl, lnRxEq]
  have he : s.lnTestWrite p l v = _ := if_neg hopen
  rw [if_pos h] at he
  refine ⟨_, ?_, he⟩
  split
  · rw [reg_setBit, if_neg hstatus, sweepStart_reg _ hrxEq, reg_congr (setLane_regs _ _ _ _), reg_congr (setLane_regs _ _ _ _), reg_setReg_self]
  · split
    · rw [reg_setBit, if_neg hstatus, reg_congr (setLane_regs _ _ _ _), reg_congr (setLane_regs _ _ _ _), reg_setReg_self]
    · rw [reg_congr (setLane_regs _ _ _ _), reg_setReg_self]

theorem lnTestWrite_spec {v : Word} (h : bits v 31 1 = 1 ∨ bits v 30 1 = 1) (hd : s.linkDisabled p = true) (hl : l.val ≠ 4 ∨ s.pmode p = 3) :
    (s.lnTestWrite p l v).lnState p l = 9 ∧ (s.lnTestWrite p l v).reg (lnTestCtl p l) = v &&& 0xFEF80000#32 ∧
      (bits v 24 1 = 1 → bits v 31 1 = 1 → Out.lnInject p l ∈ (s.lnTestWrite p l v).out) := by
  obtain ⟨u, hctl, he⟩ := lnTestWrite_linkDisabled h hd hl
  have hne : lnTestCtl p l ≠ lnStatus p l := by simp [lnTestCtl, lnStatus]
  rw [he]
  refine ⟨?_, ?_, mem_testRun_out u p l⟩
  · rw [lnState_of_reg (reg_congr (testRun_regs u p l v) _), lnState_setLn]
  · rw [reg_congr (testRun_regs u p l v), State.setLn, reg_setFld, if_neg hne, hctl]

/-- What LN_TEST_CTL keeps of a value: all but INJ_ONE and the bits that it does not have. -/
theorem bit_of_testCtl {t : State} {o : Nat} {v : Word} (h : t.reg o = v &&& 0xFEF80000#32) (i : Nat) :
    t.bit o i = (decide (bits v i 1 = 1) && (0xFEF80000#32).getLsbD i) := by
  rw [bit_eq_getLsbD, h, BitVec.getLsbD_and, bits_one]
  cases v.getLsbD i <;> rfl

theorem exec_checkerSync {r : BitVec 31} (hst : s.lnState p l = 9) (hc : s.bit (lnTestCtl p l) 30 = true) (hp : (s.laneS p l).phase = 5)
    (hn : s.bit (lnTestStatus p l) 31 = false) :
    exec (.checkerSync p l r) s = .next ((s.setBit (lnTestStatus p l) 31 true).setLane p l
      { s.laneS p l with chk := r.toNat % (prbsOnes (s.fld (lnTestCtl p l) 28 2) + 1) }) :=
  if_pos ⟨hst, hc, hp, by rw [hn]; rfl⟩

theorem exec_checkerSyncLost {n wrong : Nat} (hst : s.lnState p l = 9) (hy : s.bit (lnTestStatus p l) 31 = true) :
    exec (.checkerSyncLost p l n wrong) s = .next (((s.checked p l n wrong).setFld (lnTestStatus p l) 30 2 1).setLane p l
      { s.laneS p l with chk := 0 }) := if_pos ⟨hst, hy⟩

/-- SYNC is the upper bit of the pair that the loss of SYNC writes as 1. -/
theorem syncBit_of_pair {w : Word} (h : bits w 30 2 = 1) : bits w 31 1 = 0 := by
  unfold bits at h ⊢
  omega

/-- In SYNC the wrong bits are counted. -/
theorem checked_errCnt (hy : s.bit (lnTestStatus p l) 31 = true) (n wrong : Nat) :
    (s.checked p l n wrong).nreg (lnTestErrCnt p l) = min 0xFFFFFFFF (s.nreg (lnTestErrCnt p l) + wrong) := by
  have hovf : lnTestErrCnt p l ≠ glbEvFifoOvfCnt := (portReg_laneBase p l.isLt (by decide)).ne (not_portReg_core (by decide))
  unfold State.checked
  rw [if_pos hy, nreg_cnt_self, State.nreg, cnt64_reg _ _ (by simp [lnTestErrCnt, lnTestBitCnt])
    (by simp [lnTestErrCnt, lnTestBitCnt, Nat.add_assoc]) hovf, State.nreg]

/-! ### Margining (R292) -/

/-- A measurement that GO starts: of the status bits of LN_MARGIN_RES it sets BUSY alone. -/
theorem exec_lnMarginCtlGo_starts {v : Word} (h2 : s.present 2 p = true) (h3 : s.present 3 (p.val * 5 + l.val) = true)
    (hst : s.lnState p l = 6 ∨ s.lnState p l = 9) (hr : (s.laneS p l).recal = false) (hp : (s.laneS p l).pcie = false) :
    ∃ t, exec (.lnMarginCtlGo p l v) s = .next t ∧
      t.regs = ((((s.setReg (lnMarginCtl p l) (v &&& 0x0F3F007F#32)).setFld (lnMarginRes p l) 31 1 0).setFld (lnMarginRes p l) 28 2 0).setBit
        (lnMarginRes p l) 30 true).regs := by
  have hopen : ¬ ((s.lnState p l ≠ 6 ∧ s.lnState p l ≠ 9) ∨ (s.laneS p l).recal = true ∨ (s.laneS p l).pcie = true) := by
    rintro (⟨h6, h9⟩ | h | h)
    · exact hst.elim h6 h9
    · simp [hr] at h
    · simp [hp] at h
  exact ⟨_, (ifLane_present h2 h3 _ _).trans (if_neg hopen), (emit_regs _ _).trans (setLane_regs _ _ _ _)⟩

theorem exec_marginDone {n : Nat} (hb : s.bit (lnMarginRes p l) 30 = true)
    (hui : s.marginUi p l ≤ (ticksSince (s.laneS p l).margAt s.tick.loc + 1) * s.laneUi p l) :
    exec (.marginDone p l n) s = .next (s.setReg (lnMarginRes p l) (putBits (BitVec.ofNat 32 (min n (2 ^ 28 - 1))) 31 1 1)) := if_pos ⟨hb, hui⟩

/-- The result of a measurement: DONE, not BUSY, and the count of errors, which saturates. -/
theorem marginResult_fields (n : Nat) : let w := putBits (BitVec.ofNat 32 (min n (2 ^ 28 - 1))) 31 1 1
    bits w 30 1 = 0 ∧ bits w 31 1 = 1 ∧ bits w 0 28 = min n (2 ^ 28 - 1) := by
  have hlt : min n (2 ^ 28 - 1) < 2 ^ 28 := by omega
  have hnat : (BitVec.ofNat 32 (min n (2 ^ 28 - 1))).toNat = min n (2 ^ 28 - 1) := by
    rw [BitVec.toNat_ofNat, Nat.mod_eq_of_lt (hlt.trans (by decide))]
  refine ⟨?_, bits_putBits _ _ _ _ (by decide), ?_⟩
  · rw [bits_putBits_ne _ _ _ _ _ _ (by decide) (.inl (by decide)), bits, hnat]
    omega
  · rw [bits_putBits_ne _ _ _ _ _ _ (by decide) (.inl (by decide)), bits, hnat]
    omega

theorem exec_pcieMarginingCommand_served {run : Bool} (hm : s.pmode p = 1 ∨ s.pmode p = 2) (hst : s.lnState p l = 6)
    (hrate : 3 ≤ s.fld (ptCxStatus (s.linkOf p)) 26 3) (hb : s.bit (lnMarginRes p l) 30 = false) :
    exec (.pcieMarginingCommand p l run) s = .next ((s.setLane p l { s.laneS p l with pcie := run }).emit (.lnMargin p l true)) :=
  (if_neg (by omega)).trans (if_neg (by simp [hb]))

end Test

/-- Settles O44: a fault of a CXL lane by `laneFault_spec`, a good eye by `exec_eyeMeasurement_good`, writes of LN_TEST_CTL by
`lnTestWrite_linkEnabled` and `lnTestWrite_spec`, an absent lane by `ifLane_absent`, each other command by its own equation. -/
theorem laneFaultsAndTests : Obligations.LaneFaultsAndTests := by
  refine ⟨?_, ?_, ?_, ?_, ?_, ?_, ?_, ?_, ?_, ?_, ?_, ?_, ?_, ?_⟩
  · intro p l s hst hm
    have hmode : (s.setBit (lnStatus p l) 25 false).pmode p = s.pmode p := pmode_setReg_lane s p _ l.isLt (by decide)
    obtain ⟨hfail, hcause, hcount⟩ := laneFault_spec (cause := 6) (hmode ▸ hm) l.isLt (by decide)
    refine ⟨_, exec_laneLossOfSignal hst, hfail, hcause, hcount.trans ?_⟩
    rw [State.nreg, reg_setBit, if_neg (by simp [lnFailCnt, lnStatus]), State.nreg]
  · intro p l s hst hm
    have hcdr : lnCdrLossCnt p l ≠ lnStatus p l := by simp [lnCdrLossCnt, lnStatus]
    have hmode : ((s.setBit (lnStatus p l) 26 false).cnt (lnCdrLossCnt p l)).pmode p = s.pmode p :=
      (pmode_setReg_lane _ p _ l.isLt (by decide)).trans (pmode_setReg_lane s p _ l.isLt (by decide))
    obtain ⟨hfail, hcause, -⟩ := laneFault_spec (cause := 7) (hmode ▸ hm) l.isLt (by decide)
    have hkept := laneFault_reg_ne (k := 0x50) 7 (hmode ▸ hm) l.isLt (by decide) hcdr (by simp [lnFailCnt])
    refine ⟨_, exec_laneCdrLoss hst, hfail, hcause, (congrArg BitVec.toNat hkept).trans ((nreg_cnt_self _ _ _).trans ?_)⟩
    rw [State.nreg, reg_setBit, if_neg hcdr, State.nreg]
  · intro p l h w s hst hm he
    obtain ⟨k, hk, hexec⟩ := exec_eyeMeasurement_good (w := w) hst hm he
    obtain ⟨hh, hw, hv, hs⟩ := showEye_spec s p l h w k
    rcases hexec with hexec | hexec
    · exact ⟨_, hexec, hh, hw, hv, (congrArg LaneS.lowRun (laneS_setLane _ _ _ _)).trans hk, hs.trans hst⟩
    · have heye : ((s.showEye p l h w k).eyeEv p l h.toNat).reg (lnEye p l) = (s.showEye p l h w k).reg (lnEye p l) :=
        eyeEv_reg _ _ _ _ (portReg_laneBase p l.isLt (by decide))
      have hstatus : ((s.showEye p l h w k).eyeEv p l h.toNat).reg (lnStatus p l) = (s.showEye p l h w k).reg (lnStatus p l) :=
        eyeEv_reg _ _ _ _ (portReg_laneBase p l.isLt (by decide))
      refine ⟨_, hexec, (fld_of_reg heye _ _).trans hh, (fld_of_reg heye _ _).trans hw, (bit_eq_of_reg heye _).trans hv, ?_,
        ((lnState_of_reg hstatus).trans hs).trans hst⟩
      rw [State.eyeEv, laneS_congr (raiseLim_lane _ _ _ _)]
      exact (congrArg LaneS.lowRun (laneS_setLane _ _ _ _)).trans hk
  · intro p l s hst htr hf hm hr hq hsp hdue
    refine ⟨_, exec_peakingTrackStep_up hst htr hf hm hr hq hsp hdue, ?_, congrArg LaneS.trackAt (laneS_setLane _ _ _ _)⟩
    rw [fld_congr (setLane_regs _ _ _ _), fld_setFld_self _ _ _ _ _ (by decide)]
    omega
  · intro p l v s h2 h3 hd
    exact ⟨(ifLane_present h2 h3 _ _).trans (congrArg _ (lnTestWrite_linkEnabled (.inl (bits_putBits _ _ _ _ (by decide))) hd)),
      (ifLane_present h2 h3 _ _).trans (congrArg _ (lnTestWrite_linkEnabled (.inr (bits_putBits _ _ _ _ (by decide))) hd))⟩
  · exact fun p l v s h => ⟨ifLane_absent h _ _, ifLane_absent h _ _, ifLane_absent h _ _, ifLane_absent h _ _⟩
  · intro p l v s h2 h3 hd hl
    have hgen : bits (putBits v 31 1 1) 31 1 = 1 := bits_putBits _ _ _ _ (by decide)
    obtain ⟨hst, hctl, -⟩ := lnTestWrite_spec (.inl hgen) hd hl
    exact ⟨_, ifLane_present h2 h3 _ _, hst, by rw [bit_of_testCtl hctl, hgen]; rfl⟩
  · intro p l v s h2 h3 hd hl
    have hchk : bits (putBits v 30 1 1) 30 1 = 1 := bits_putBits _ _ _ _ (by decide)
    obtain ⟨hst, hctl, -⟩ := lnTestWrite_spec (.inr hchk) hd hl
    exact ⟨_, ifLane_present h2 h3 _ _, hst, by rw [bit_of_testCtl hctl, hchk]; rfl⟩
  · intro p l v s h2 h3 hd hl hv
    have hinj : bits (putBits v 24 1 1) 24 1 = 1 := bits_putBits _ _ _ _ (by decide)
    have hgen : bits (putBits v 24 1 1) 31 1 = 1 := (bits_putBits_ne _ _ _ _ _ _ (by decide) (.inr (by decide))).trans hv
    obtain ⟨hst, hctl, hout⟩ := lnTestWrite_spec (.inl hgen) hd hl
    exact ⟨_, ifLane_present h2 h3 _ _, hst, hout hinj hgen, (bit_of_testCtl hctl 24).trans (Bool.and_false _)⟩
  · intro p l r s hst hc hp hn
    exact ⟨_, exec_checkerSync hst hc hp hn, (bit_congr (setLane_regs _ _ _ _) _ _).trans (bit_setBit_self _ _ _ _ (by decide))⟩
  · intro p l n wrong s hst hy
    refine ⟨_, exec_checkerSyncLost hst hy, ?_, ?_⟩
    · rw [bit_congr (setLane_regs _ _ _ _), bit_eq_decide_bits, reg_setFld, if_pos rfl]
      exact decide_eq_false (by rw [syncBit_of_pair (bits_putBits _ _ _ _ (by decide))]; decide)
    · rw [nreg_congr (setLane_regs _ _ _ _), State.nreg, reg_setFld, if_neg (by simp [lnTestErrCnt, lnTestStatus]), ← State.nreg, checked_errCnt hy]
  · intro p l v s h2 h3 hst hr hp
    obtain ⟨t, hexec, hregs⟩ := exec_lnMarginCtlGo_starts (v := v) h2 h3 hst hr hp
    refine ⟨t, hexec, ?_, ?_⟩
    · rw [bit_congr hregs, bit_setBit_self _ _ _ _ (by decide)]
    · rw [bit_congr hregs, bit_setBit _ _ _ _ _ _ (by decide) (.inr (by decide)), bit_setFld _ _ _ _ _ _ _ (by decide) (.inr (.inr (by decide))),
        bit_eq_decide_bits, reg_setFld, if_pos rfl, bits_putBits _ _ _ _ (by decide)]
      rfl
  · intro p l n s hb hui
    obtain ⟨hbusy, hdone, hcount⟩ := marginResult_fields n
    refine ⟨_, exec_marginDone hb hui, ?_, ?_, ?_⟩
    · rw [bit_eq_decide_bits, reg_setReg_self, hbusy]; rfl
    · rw [bit_eq_decide_bits, reg_setReg_self, hdone]; rfl
    · rw [State.fld, reg_setReg_self, hcount]
  · intro p l run s hm hst hrate hb
    exact ⟨_, exec_pcieMarginingCommand_served hm hst hrate hb, congrArg LaneS.pcie (laneS_setLane _ _ _ _), rfl⟩

end Sys2Proof.Machine
end

section
namespace Sys2Proof.Machine

/-! ### Footprints: what a function may change, and what stays as it was outside -/

/-- The parts of the state that may change. The burned bits of one-time memory stand apart from the rest of `mgmt`, the instances from
the rest of `eng`, the requests toward remote homes from the rest of `lnk`, the reads under way from the rest of `hbm`, and the pending
vectors from the rest of `cxl`. -/
structure Scope where
  out   : Bool := false
  free  : Bool := false
  tick  : Bool := false
  ev    : Bool := false
  nalug : Bool := false
  otp   : Bool := false
  mgmt  : Bool := false
  clk   : Bool := false
  tel   : Bool := false
  bind  : Bool := false
  home  : Bool := false
  hmp   : Bool := false
  reads : Bool := false
  hbm   : Bool := false
  qos   : Bool := false
  insts : Bool := false
  eng   : Bool := false
  rem   : Bool := false
  lnk   : Bool := false
  pba   : Bool := false
  cxl   : Bool := false
  lane  : Bool := false
  pwr   : Bool := false
  reg   : Nat → Bool := fun _ => false

/-- The management state but the burned bits of one-time memory. -/
def MgmtS.rest (m : MgmtS) : MgmtS := { m with fuses := [], svnMin := 0 }
/-- The HBM but the reads under way. -/
def HbmS.rest (m : HbmS) : HbmS := { m with slots := [], waitRd := [], ahead := [] }
/-- The engines but their instances. -/
def EngS.rest (e : EngS) : EngS := { e with insts := [] }
/-- The fabric links but the requests toward remote homes. -/
def FabS.rest (f : FabS) : FabS := { f with rem := [], nextTag := 0 }
/-- The CXL ports but the vectors that wait for their mask. -/
def CxlS.rest (c : CxlS) : CxlS := { c with pba := [] }

@[simp] theorem mgmtRest_otp (m : MgmtS) (f : Tab Nat) (n : Nat) : MgmtS.rest { m with fuses := f, svnMin := n } = m.rest := (rfl)
@[simp] theorem hbmRest_reads (m : HbmS) (a : Tab RdSlot) (b : List (Nat × Option Nat × RdJob)) (c : List (Nat × Nat × Nat)) :
    HbmS.rest { m with slots := a, waitRd := b, ahead := c } = m.rest := (rfl)
@[simp] theorem engRest_insts (e : EngS) (x : Tab Inst) : EngS.rest { e with insts := x } = e.rest := (rfl)
@[simp] theorem lnkRest_rem (f : FabS) (r : List RemReq) (n : Nat) : FabS.rest { f with rem := r, nextTag := n } = f.rest := (rfl)
@[simp] theorem cxlRest_pba (c : CxlS) (p : Tab Bool) : CxlS.rest { c with pba := p } = c.rest := (rfl)

/-- A value that a scope covers is not looked at. -/
def hide {α : Type} (b : Bool) (d x : α) : α := if b then d else x

@[simp] theorem hide_true {α : Type} (d x : α) : hide true d x = d := (rfl)
@[simp] theorem hide_false {α : Type} (d x : α) : hide false d x = x := (rfl)

/-- The words of a register table that a scope does not cover. -/
def Scope.words (S : Scope) (r : Tab Word) : Nat → Word := fun o => hide (S.reg o) 0 (tget (regReset o) r o)

/-- The state without what a scope covers; the queue of commands is never covered. -/
structure Outside where
  pending : List Instr
  out   : List Out
  words : Nat → Word
  free  : Nat
  tick  : TickS
  ev    : EvS
  nalug : NalugS
  otp   : Tab Nat × Nat
  mgmt  : MgmtS
  clk   : ClkS
  tel   : TelS
  bind  : BindS
  home  : HomeS
  hmp   : HmpS
  reads : Tab RdSlot × List (Nat × Option Nat × RdJob) × List (Nat × Nat × Nat)
  hbm   : HbmS
  qos   : QosS
  insts : Tab Inst
  eng   : EngS
  rem   : List RemReq × Nat
  lnk   : FabS
  pba   : Tab Bool
  cxl   : CxlS
  lane  : LaneT
  pwr   : PwrS

def State.outside (s : State) (S : Scope) : Outside where
  pending := s.pending
  out := hide S.out [] s.out
  words := S.words s.regs
  free := hide S.free 0 s.free
  tick := hide S.tick {} s.tick
  ev := hide S.ev {} s.ev
  nalug := hide S.nalug {} s.nalug
  otp := hide S.otp ([], 0) (s.mgmt.fuses, s.mgmt.svnMin)
  mgmt := hide S.mgmt {} s.mgmt.rest
  clk := hide S.clk {} s.clk
  tel := hide S.tel {} s.tel
  bind := hide S.bind {} s.bind
  home := hide S.home {} s.home
  hmp := hide S.hmp {} s.hmp
  reads := hide S.reads ([], [], []) (s.hbm.slots, s.hbm.waitRd, s.hbm.ahead)
  hbm := hide S.hbm {} s.hbm.rest
  qos := hide S.qos {} s.qos
  insts := hide S.insts [] s.eng.insts
  eng := hide S.eng {} s.eng.rest
  rem := hide S.rem ([], 0) (s.lnk.rem, s.lnk.nextTag)
  lnk := hide S.lnk {} s.lnk.rest
  pba := hide S.pba [] s.cxl.pba
  cxl := hide S.cxl {} s.cxl.rest
  lane := hide S.lane {} s.lane
  pwr := hide S.pwr {} s.pwr

variable {S : Scope}

/-- An update of fields of the state: what it gives a field is either covered or what the field held. -/
@[simp] theorem outside_update (s : State) (out : List Out) (regs : Tab Word) (free : Nat) (tick : TickS) (ev : EvS) (nalug : NalugS)
    (mgmt : MgmtS) (clk : ClkS) (tel : TelS) (bind : BindS) (home : HomeS) (hmp : HmpS) (hbm : HbmS) (qos : QosS) (eng : EngS)
    (lnk : FabS) (cxl : CxlS) (lane : LaneT) (pwr : PwrS)
    (hout : hide S.out [] out = hide S.out [] s.out) (hregs : S.words regs = S.words s.regs)
    (hfree : hide S.free 0 free = hide S.free 0 s.free) (htick : hide S.tick {} tick = hide S.tick {} s.tick)
    (hev : hide S.ev {} ev = hide S.ev {} s.ev) (hnalug : hide S.nalug {} nalug = hide S.nalug {} s.nalug)
    (hotp : hide S.otp ([], 0) (mgmt.fuses, mgmt.svnMin) = hide S.otp ([], 0) (s.mgmt.fuses, s.mgmt.svnMin))
    (hmgmt : hide S.mgmt {} mgmt.rest = hide S.mgmt {} s.mgmt.rest)
    (hclk : hide S.clk {} clk = hide S.clk {} s.clk) (htel : hide S.tel {} tel = hide S.tel {} s.tel)
    (hbind : hide S.bind {} bind = hide S.bind {} s.bind) (hhome : hide S.home {} home = hide S.home {} s.home)
    (hhmp : hide S.hmp {} hmp = hide S.hmp {} s.hmp)
    (hreads : hide S.reads ([], [], []) (hbm.slots, hbm.waitRd, hbm.ahead) =
      hide S.reads ([], [], []) (s.hbm.slots, s.hbm.waitRd, s.hbm.ahead))
    (hhbm : hide S.hbm {} hbm.rest =
      hide S.hbm {} s.hbm.rest)
    (hqos : hide S.qos {} qos = hide S.qos {} s.qos) (hinsts : hide S.insts [] eng.insts = hide S.insts [] s.eng.insts)
    (heng : hide S.eng {} eng.rest = hide S.eng {} s.eng.rest)
    (hrem : hide S.rem ([], 0) (lnk.rem, lnk.nextTag) = hide S.rem ([], 0) (s.lnk.rem, s.lnk.nextTag))
    (hlnk : hide S.lnk {} lnk.rest = hide S.lnk {} s.lnk.rest)
    (hpba : hide S.pba [] cxl.pba = hide S.pba [] s.cxl.pba)
    (hcxl : hide S.cxl {} cxl.rest = hide S.cxl {} s.cxl.rest)
    (hlane : hide S.lane {} lane = hide S.lane {} s.lane) (hpwr : hide S.pwr {} pwr = hide S.pwr {} s.pwr) :
    State.outside ⟨s.pending, out, regs, free, tick, ev, nalug, mgmt, clk, tel, bind, home, hmp, hbm, qos, eng, lnk, cxl, lane, pwr⟩ S =
      s.outside S := by
  simp only [State.outside, hout, hregs, hfree, htick, hev, hnalug, hotp, hmgmt, hclk, htel, hbind, hhome, hhmp, hreads, hhbm, hqos,
    hinsts, heng, hrem, hlnk, hpba, hcxl, hlane, hpwr]

@[simp] theorem outside_ite (c : Prop) [Decidable c] (s t : State) :
    (if c then s else t).outside S = if c then s.outside S else t.outside S := apply_ite (fun u : State => u.outside S) c s t

@[simp] theorem fst_outside_ite {α : Type} (c : Prop) [Decidable c] (x y : State × α) :
    (if c then x else y).1.outside S = if c then x.1.outside S else y.1.outside S := apply_ite (fun z : State × α => z.1.outside S) c x y

@[simp] theorem snd_outside_ite {α : Type} (c : Prop) [Decidable c] (x y : α × State) :
    (if c then x else y).2.outside S = if c then x.2.outside S else y.2.outside S := apply_ite (fun z : α × State => z.2.outside S) c x y

/-- A fold of steps that each stay inside the scope. -/
@[simp] theorem outside_foldl {α : Type} {f : State → α → State} (h : ∀ t a, (f t a).outside S = t.outside S) (l : List α) (s : State) :
    (l.foldl f s).outside S = s.outside S := by
  induction l generalizing s with
  | nil => rfl
  | cons a r ih => exact (ih (f s a)).trans (h s a)

@[simp] theorem outside_each {α : Type} {f : α → State → State} (h : ∀ a t, (f a t).outside S = t.outside S) (l : List α) (s : State) :
    (s.each l f).outside S = s.outside S := outside_foldl (fun t a => h a t) l s

theorem outside_of_ite {c : Prop} [Decidable c] {s t : State} {k : Outside} (hs : s.outside S = k) (ht : t.outside S = k) :
    (if c then s else t).outside S = k := by
  split <;> assumption

theorem fst_outside_of_ite {α : Type} {c : Prop} [Decidable c] {x y : State × α} {k : Outside} (hx : x.1.outside S = k)
    (hy : y.1.outside S = k) : (if c then x else y).1.outside S = k := by
  split <;> assumption

/-- The state that a pair was taken apart to. -/
theorem outside_of_fst {α : Type} {x : State × α} {t : State} {a : α} (h : x = (t, a)) : t.outside S = x.1.outside S := by rw [h]

theorem outside_of_snd {α : Type} {x : α × State} {t : State} {a : α} (h : x = (a, t)) : t.outside S = x.2.outside S := by rw [h]

theorem outside_foldl_fst {α β : Type} {f : State × β → α → State × β} (h : ∀ x a, (f x a).1.outside S = x.1.outside S) (l : List α)
    (x : State × β) : (l.foldl f x).1.outside S = x.1.outside S := by
  induction l generalizing x with
  | nil => rfl
  | cons a r ih => exact (ih (f x a)).trans (h x a)

/-- The outcome is a next state that differs from `s` inside the scope alone. -/
def Within (S : Scope) (s : State) (r : Host.Outcome State Fault Refusal) : Prop := ∃ t, r = .next t ∧ t.outside S = s.outside S

theorem Within.next {s t : State} {r : Host.Outcome State Fault Refusal} (h : Within S s r) (e : r = .next t) : t.outside S = s.outside S := by
  obtain ⟨u, hu, h⟩ := h
  cases hu.symm.trans e
  exact h

@[simp] theorem within_next (s t : State) : Within S s (.next t) ↔ t.outside S = s.outside S :=
  ⟨fun ⟨_, e, h⟩ => by cases e; exact h, fun h => ⟨t, rfl, h⟩⟩

@[simp] theorem within_ite (c : Prop) [Decidable c] (s : State) (a b : Host.Outcome State Fault Refusal) :
    Within S s (if c then a else b) ↔ if c then Within S s a else Within S s b := by
  split <;> rfl

/-! ### Registers that a scope covers -/

theorem words_tput {o : Nat} (h : S.reg o = true) (r : Tab Word) (v : Word) : S.words (tput (regReset o) r o v) = S.words r := by
  funext k
  by_cases hk : k = o
  · simp [Scope.words, hk, h]
  · simp only [Scope.words, tget_tput_ne _ _ _ _ hk]
 
/-- The registers of the management block (R425) are covered. -/
def Scope.LowRegs (S : Scope) : Prop := ∀ o, o < 0x200000 → S.reg o = true
/-- The registers of the tiles, the ports and the lanes are covered. -/
def Scope.PortRegs (S : Scope) : Prop := ∀ o, 0x2000000 ≤ o → S.reg o = true

/-- All registers but those of the keeper are covered. -/
def Scope.OffKeeper (S : Scope) : Prop := ∀ o, o < 0x800000 ∨ 0x2000000 ≤ o → S.reg o = true
/-- What a fabric link that goes down may reach: its messages queue elsewhere, and the queues may spill. -/
def Scope.Links (S : Scope) : Prop := S.out = true ∧ S.ev = true ∧ S.tel = true ∧ S.bind = true ∧ S.reads = true ∧ S.hbm = true ∧
  S.qos = true ∧ S.lnk = true ∧ S.lane = true ∧ S.OffKeeper

@[simp] theorem offKeeper_of_allRegs (h : ∀ o, S.reg o) : S.OffKeeper := fun o _ => h o
theorem Scope.OffKeeper.ports (h : S.OffKeeper) : S.PortRegs := fun o ho => h o (.inr ho)
theorem Scope.OffKeeper.below (h : S.OffKeeper) {o : Nat} (ho : o < 0x800000) : S.reg o = true := h o (.inl ho)

theorem Scope.Links.facts (h : S.Links) : S.out = true ∧ S.ev = true ∧ S.tel = true ∧ S.bind = true ∧ S.reads = true ∧ S.hbm = true ∧
    S.qos = true ∧ S.lnk = true ∧ S.lane = true ∧ S.OffKeeper ∧ S.PortRegs ∧ S.reg glbEvFifoOvfCnt = true ∧
    ∀ k, S.reg (hbmStkWriteCnt (k % 4)) = true ∧ S.reg (hbmStkWriteCnt (k % 4) + 4) = true := by
  obtain ⟨h1, h2, h3, h4, h5, h6, h7, h8, h9, hr⟩ := h
  refine ⟨h1, h2, h3, h4, h5, h6, h7, h8, h9, hr, hr.ports, hr.below (by decide), fun k => ⟨hr.below ?_, hr.below ?_⟩⟩
  · unfold hbmStkWriteCnt
    omega
  · unfold hbmStkWriteCnt
    omega

@[simp] theorem lowRegs_of_allRegs (h : ∀ o, S.reg o) : S.LowRegs := fun o _ => h o
@[simp] theorem portRegs_of_allRegs (h : ∀ o, S.reg o) : S.PortRegs := fun o _ => h o
@[simp] theorem reg_of_lowRegs (h : S.LowRegs) {o : Nat} (ho : o < 0x200000) : S.reg o = true := h o ho
@[simp] theorem reg_of_portRegs (h : S.PortRegs) {o : Nat} (ho : 0x2000000 ≤ o) : S.reg o = true := h o ho

@[simp] theorem reg_add_of_portRegs (h : S.PortRegs) {o : Nat} (ho : 0x2000000 ≤ o) : S.reg (o + 4) = true :=
  h _ (Nat.le_add_right_of_le ho)

@[simp] theorem management_registers : glbEvFifoOvfCnt < 0x200000 ∧ mgtJrnlStallCnt < 0x200000 ∧ mgtNalugBadCnt < 0x200000 ∧
    mgtNalugBusyCnt < 0x200000 ∧ mgtNalugCmdCnt < 0x200000 ∧ mgtNalugCmdCnt + 4 < 0x200000 ∧ mgtSvnMin < 0x200000 := by decide

theorem le_portBase (p : Nat) : 0x2000000 ≤ portBase p := by
  unfold portBase
  omega

theorem le_laneBase (p l : Nat) : 0x2000000 ≤ laneBase p l := by
  have := le_portBase p
  unfold laneBase
  omega

@[simp] theorem lane_registers (p l : Nat) : 0x2000000 ≤ lnDfe0 p l ∧ 0x2000000 ≤ lnDfe1 p l ∧ 0x2000000 ≤ lnEye p l ∧
    0x2000000 ≤ lnMarginCtl p l ∧ 0x2000000 ≤ lnMarginRes p l ∧ 0x2000000 ≤ lnRxEq p l ∧ 0x2000000 ≤ lnStatus p l ∧
    0x2000000 ≤ lnTestBitCnt p l ∧ 0x2000000 ≤ lnTestCtl p l ∧ 0x2000000 ≤ lnTestErrCnt p l ∧ 0x2000000 ≤ lnTestStatus p l := by
  have := le_laneBase p l
  simp only [lnDfe0, lnDfe1, lnEye, lnMarginCtl, lnMarginRes, lnRxEq, lnStatus, lnTestBitCnt, lnTestCtl, lnTestErrCnt, lnTestStatus]
  omega

@[simp] theorem link_registers (p : Nat) : 0x2000000 ≤ ptFlBadFlitCnt p ∧ 0x2000000 ≤ ptFlCorrCwCnt p ∧
    0x2000000 ≤ ptFlCreditSh p ∧ 0x2000000 ≤ ptFlCtl p ∧ 0x2000000 ≤ ptFlDelay p ∧ 0x2000000 ≤ ptFlLostMsgCnt p ∧
    0x2000000 ≤ ptFlLanemap p ∧ 0x2000000 ≤ ptFlReplayCnt p ∧ 0x2000000 ≤ ptFlRxFlitCnt p ∧ 0x2000000 ≤ ptFlSleepCnt p ∧
    0x2000000 ≤ ptFlStatus p ∧ 0x2000000 ≤ ptFlSwapCnt p ∧ 0x2000000 ≤ ptFlTxFlitCnt p ∧ 0x2000000 ≤ ptFlDownCnt p ∧
    0x2000000 ≤ ptFlNeighbor p := by
  have := le_portBase p
  simp only [ptFlBadFlitCnt, ptFlCorrCwCnt, ptFlCreditSh, ptFlCtl, ptFlDelay, ptFlLostMsgCnt, ptFlLanemap, ptFlReplayCnt,
    ptFlRxFlitCnt, ptFlSleepCnt, ptFlStatus, ptFlSwapCnt, ptFlTxFlitCnt, ptFlDownCnt, ptFlNeighbor]
  omega

@[simp] theorem linkArray_registers (p k : Nat) : 0x2000000 ≤ ptFlCreditRsv p k ∧ 0x2000000 ≤ ptFlLaneCe p k := by
  have := le_portBase p
  simp only [ptFlCreditRsv, ptFlLaneCe]
  omega

@[simp] theorem cxlPort_registers (p : Nat) : 0x2000000 ≤ ptCxHpCtl p ∧ 0x2000000 ≤ ptCxHpStatus p ∧ 0x2000000 ≤ ptCxRecoveryCnt p ∧
    0x2000000 ≤ ptCxStatus p := by
  have := le_portBase p
  simp only [ptCxHpCtl, ptCxHpStatus, ptCxRecoveryCnt, ptCxStatus]
  omega

@[simp] theorem tile_registers (t : Nat) : 0x2000000 ≤ tlQosCtl t ∧ 0x2000000 ≤ tlQosStatus t ∧ 0x2000000 ≤ tlRouteMissCnt t ∧
    0x2000000 ≤ tlSpillCnt t ∧ 0x2000000 ≤ tlBufStatus t := by
  simp only [tlQosCtl, tlQosStatus, tlRouteMissCnt, tlSpillCnt, tlBufStatus, tileBase]
  omega

@[simp] theorem tileArray_registers (t k : Nat) : 0x2000000 ≤ tlPmcCfg t k ∧ 0x2000000 ≤ tlQosCntDrop t k := by
  simp only [tlPmcCfg, tlQosCntDrop, tileBase]
  omega

/-- Everything but the burned bits of one-time memory and the queue of commands. -/
def bulk : Scope where
  out := true
  free := true
  tick := true
  ev := true
  nalug := true
  mgmt := true
  clk := true
  tel := true
  bind := true
  home := true
  hmp := true
  reads := true
  hbm := true
  qos := true
  insts := true
  eng := true
  rem := true
  lnk := true
  pba := true
  cxl := true
  lane := true
  pwr := true
  reg := fun _ => true

@[simp] theorem bulk_parts : bulk.out = true ∧ bulk.free = true ∧ bulk.tick = true ∧ bulk.ev = true ∧ bulk.nalug = true ∧ bulk.mgmt = true ∧
    bulk.clk = true ∧ bulk.tel = true ∧ bulk.bind = true ∧ bulk.home = true ∧ bulk.hmp = true ∧ bulk.reads = true ∧ bulk.hbm = true ∧
    bulk.qos = true ∧ bulk.insts = true ∧ bulk.eng = true ∧ bulk.rem = true ∧ bulk.lnk = true ∧ bulk.pba = true ∧ bulk.cxl = true ∧
    bulk.lane = true ∧ bulk.pwr = true ∧ (∀ o, bulk.reg o = true) ∧ bulk.LowRegs ∧ bulk.PortRegs ∧
    bulk.OffKeeper ∧ bulk.Links :=
  ⟨rfl, rfl, rfl, rfl, rfl, rfl, rfl, rfl, rfl, rfl, rfl, rfl, rfl, rfl, rfl, rfl, rfl, rfl, rfl, rfl, rfl, rfl, fun _ => rfl, fun _ _ => rfl, fun _ _ => rfl, fun _ _ => rfl,
    rfl, rfl, rfl, rfl, rfl, rfl, rfl, rfl, rfl, fun _ _ => rfl⟩

end Sys2Proof.Machine
end

section
namespace Sys2Proof.Machine

/-! ### Outside a scope, through Sys2Proof/Machine/Ops.lean -/

variable {S : Scope} {o : Nat}

@[simp] theorem setReg_words (hS : S.reg o) (s : State) (v : Word) : S.words (s.setReg o v).regs = S.words s.regs := words_tput hS _ _

@[simp] theorem setReg_outside (hS : S.reg o) (s : State) (v : Word) : (s.setReg o v).outside S = s.outside S := by
  simp [State.setReg, words_tput hS]

@[simp] theorem setFld_words (hS : S.reg o) (s : State) (lo n v : Nat) : S.words (s.setFld o lo n v).regs = S.words s.regs := words_tput hS _ _

@[simp] theorem setFld_outside (hS : S.reg o) (s : State) (lo n v : Nat) : (s.setFld o lo n v).outside S = s.outside S := by
  simp [State.setFld, hS]

@[simp] theorem setBit_words (hS : S.reg o) (s : State) (i : Nat) (b : Bool) : S.words (s.setBit o i b).regs = S.words s.regs := words_tput hS _ _

@[simp] theorem setBit_outside (hS : S.reg o) (s : State) (i : Nat) (b : Bool) : (s.setBit o i b).outside S = s.outside S := by
  simp [State.setBit, hS]

@[simp] theorem setN_words (hS : S.reg o) (s : State) (v : Nat) : S.words (s.setN o v).regs = S.words s.regs := words_tput hS _ _

@[simp] theorem setN_outside (hS : S.reg o) (s : State) (v : Nat) : (s.setN o v).outside S = s.outside S := by
  simp [State.setN, hS]

@[simp] theorem set64_words (hS : S.reg o ∧ S.reg (o + 4)) (s : State) (v : Nat) : S.words (s.set64 o v).regs = S.words s.regs := by
  simp [State.set64, hS]

@[simp] theorem set64_outside (hS : S.reg o ∧ S.reg (o + 4)) (s : State) (v : Nat) : (s.set64 o v).outside S = s.outside S := by
  simp [State.set64, hS]

@[simp] theorem cnt_words (hS : S.reg o) (s : State) (k : Nat) : S.words (s.cnt o k).regs = S.words s.regs :=
  setN_words hS s (min ((s.reg o).toNat + k) (2 ^ 32 - 1))

@[simp] theorem cnt_outside (hS : S.reg o) (s : State) (k : Nat) : (s.cnt o k).outside S = s.outside S := by
  simp [State.cnt, hS]

theorem words_eq_of_allRegs (hS : ∀ o, S.reg o) (r r' : Tab Word) : S.words r = S.words r' := by
  funext o
  simp [Scope.words, hS]

@[simp] theorem words_of_allRegs (hS : ∀ o, S.reg o) (r : Tab Word) : S.words r = fun _ => 0 := by
  funext o
  simp [Scope.words, hS]

@[simp] theorem clearRegs_outside (hS : ∀ o, S.reg o) (s : State) (p : Nat → Bool) : (s.clearRegs p).outside S = s.outside S := by
  simp [State.clearRegs, hS]

@[simp] theorem emit_outside (hS : S.out) (s : State) (m : Out) : (s.emit m).outside S = s.outside S := by
  simp [State.emit, hS]

@[simp] theorem draw_outside (hS : S.free) (s : State) : s.draw.2.outside S = s.outside S := by
  simp [State.draw, hS]

@[simp] theorem markBusy_outside (hS : S.tel) (s : State) : s.markBusy.outside S = s.outside S := by
  simp [State.markBusy, hS]

@[simp] theorem raise_words (hS : S.reg glbEvFifoOvfCnt) (s : State) (code : Nat) (vals : List EvVal) :
    S.words (s.raise code vals).regs = S.words s.regs := by
  unfold State.raise
  dsimp only
  split
  · rfl
  · exact cnt_words hS _ _

@[simp] theorem raise_outside (hS : S.ev ∧ S.reg glbEvFifoOvfCnt) (s : State) (code : Nat) (vals : List EvVal) :
    (s.raise code vals).outside S = s.outside S := by
  simp [State.raise, hS]

@[simp] theorem raiseLim_words (hS : S.reg glbEvFifoOvfCnt) (s : State) (code unit : Nat) (vals : List EvVal) :
    S.words (s.raiseLim code unit vals).regs = S.words s.regs := by
  unfold State.raiseLim
  dsimp only
  split
  · rfl
  · exact raise_words hS _ _ _

@[simp] theorem raiseLim_outside (hS : S.ev ∧ S.reg glbEvFifoOvfCnt) (s : State) (code unit : Nat) (vals : List EvVal) :
    (s.raiseLim code unit vals).outside S = s.outside S := by
  simp [State.raiseLim, hS]

@[simp] theorem raiseLate_outside (hS : S.ev) (s : State) (code : Nat) (vals : List EvVal) :
    (s.raiseLate code vals).outside S = s.outside S := by
  simp [State.raiseLate, hS]

@[simp] theorem raiseHeld_outside (hS : S.ev ∧ S.reg glbEvFifoOvfCnt) (s : State) : s.raiseHeld.outside S = s.outside S := by
  simp [State.raiseHeld, hS]

@[simp] theorem cnt64_words (hS : S.reg o ∧ S.reg (o + 4) ∧ S.reg glbEvFifoOvfCnt) (s : State) (k : Nat) :
    S.words (s.cnt64 o k).regs = S.words s.regs := by
  unfold State.cnt64
  extract_lets v w t
  have ht : S.words t.regs = S.words s.regs := set64_words ⟨hS.1, hS.2.1⟩ s w
  clear_value w t
  split
  · rw [raise_words hS.2.2, ht]
  · exact ht

@[simp] theorem cnt64_outside (hS : S.ev ∧ S.reg o ∧ S.reg (o + 4) ∧ S.reg glbEvFifoOvfCnt) (s : State) (k : Nat) :
    (s.cnt64 o k).outside S = s.outside S := by
  unfold State.cnt64
  extract_lets v w t
  have ht : t.outside S = s.outside S := by simp [t, hS]
  clear_value w t
  split
  · rw [raise_outside (by simp [hS]), ht]
  · exact ht

@[simp] theorem checkMinimum_outside (hS : S.ev ∧ ∀ o, S.reg o) (s : State) : s.checkMinimum.outside S = s.outside S := by
  simp [State.checkMinimum, hS]

@[simp] theorem setRetired_outside (hS : ∀ o, S.reg o) (s : State) (kind i : Nat) : (s.setRetired kind i).outside S = s.outside S := by
  unfold State.setRetired
  split <;> simp [hS]

@[simp] theorem retireUnit_outside (hS : S.ev ∧ ∀ o, S.reg o) (s : State) (kind i : Nat) : (s.retireUnit kind i).outside S = s.outside S := by
  simp [State.retireUnit, hS]

@[simp] theorem ifPresent_outside (hS : S.ev ∧ S.reg glbEvFifoOvfCnt) (s : State) (kind i off : Nat)
    {act : State → Host.Outcome State Fault Refusal} (h : Within S s (act s)) : Within S s (s.ifPresent kind i off act) := by
  unfold State.ifPresent
  split
  · exact h
  · simp [hS]

end Sys2Proof.Machine
end

section
namespace Sys2Proof.Machine

/-! ### Outside a scope, through Sys2Proof/Machine/Nalug.lean -/

variable {S : Scope}

@[simp] theorem setLock_outside (s : State) (n : Nat) (l : Lock) : (s.setLock n l).outside bulk = s.outside bulk := by
  simp [State.setLock]

@[simp] theorem breakLock_outside (s : State) (n : Nat) : (s.breakLock n).outside bulk = s.outside bulk := by
  simp [State.breakLock]

@[simp] theorem breakLocksOf_outside (s : State) (p : Src → Bool) : (s.breakLocksOf p).outside bulk = s.outside bulk := by
  simp [State.breakLocksOf]

@[simp] theorem resetPath_outside (s : State) (p : Src → Bool) : (s.resetPath p).outside bulk = s.outside bulk := by
  simp [State.resetPath]

@[simp] theorem journal_outside (hS : S.mgmt) (s : State) (r : JRec) (n : Nat) : (s.journal r n).outside S = s.outside S := by
  simp [State.journal, hS]

@[simp] theorem journalBegin_outside (hS : S.mgmt) (s : State) (code : Nat) (q : Req) (body : List Byte) :
    (s.journalBegin code q body).outside S = s.outside S := by
  simp [State.journalBegin, hS]

@[simp] theorem journalDone_outside (hS : S.mgmt) (s : State) (code : Nat) (src : Src) (seq : BitVec 16) (status : Nat) (body : List Byte) :
    (s.journalDone code src seq status body).outside S = s.outside S := by
  simp [State.journalDone, hS]

@[simp] theorem keepReply_outside (hS : S.nalug) (s : State) (k : Kept) : (s.keepReply k).outside S = s.outside S := by
  simp [State.keepReply, hS]

@[simp] theorem firstAnswer_outside (hS : S.ev ∧ S.otp ∧ S.mgmt ∧ S.LowRegs) (s : State) : s.firstAnswer.outside S = s.outside S := by
  simp [State.firstAnswer, hS]

@[simp] theorem answer_outside (hS : S.out ∧ S.ev ∧ S.nalug ∧ S.otp ∧ S.mgmt ∧ S.LowRegs) (s : State) (code : Nat) (q : Req) (status : Nat) (body : List Byte) :
    (s.answer code q status body).outside S = s.outside S := by
  simp [State.answer, hS]

@[simp] theorem takeInbox_outside (hS : S.nalug) (s : State) (q : Req) : (s.takeInbox q).outside S = s.outside S := by
  simp [State.takeInbox, hS]

@[simp] theorem keepRequest_outside (hS : S.nalug) (s : State) (code : Nat) (q : Req) (body : List Byte) : (s.keepRequest code q body).outside S = s.outside S := by
  simp [State.keepRequest, hS]

@[simp] theorem jrnlWait_outside (hS : S.nalug ∧ S.LowRegs) (s : State) (code : Nat) (q : Req) (body : List Byte) : (s.jrnlWait code q body).outside S = s.outside S := by
  simp [State.jrnlWait, hS]

@[simp] theorem nalug_run_outside (hS : S.out ∧ S.ev ∧ S.nalug ∧ S.otp ∧ S.mgmt ∧ S.LowRegs) (s : State) (code : Nat) (q : Req) (body : List Byte) (f : OpForm)
    {act : State → State × Option (Nat × List Byte)} (h : ∀ t, (act t).1.outside S = t.outside S) :
    (s.nalug_run code q body f act).outside S = s.outside S := by
  unfold State.nalug_run
  dsimp only
  split
  · rfl
  split
  · simp [hS]
  split
  · rfl
  split
  · simp [hS]
  split
  · simp [hS]
  split
  · simp [hS]
  split
  · simp [hS]
  have ha := h ((s.takeInbox q).journalBegin code q body)
  split
  · next t ht => rw [ht] at ha; simpa [hS] using ha
  · next t st b ht => rw [ht] at ha; simpa [hS] using ha

@[simp] theorem setSlot_outside (hS : S.nalug) (s : State) (k : Nat) (x : StepSlot) : (s.setSlot k x).outside S = s.outside S := by
  simp [State.setSlot, hS]

@[simp] theorem stepStart_outside (hS : S.nalug ∧ S.LowRegs) (s : State) (code : Nat) (q : Req) (job : StepJob) (total phase : Nat) :
    (s.stepStart code q job total phase).1.outside S = s.outside S := by
  unfold State.stepStart
  split <;> simp [hS]

@[simp] theorem stepFinish_outside (hS : S.ev ∧ S.nalug ∧ S.mgmt ∧ ∀ o, S.reg o) (s : State) (k : Nat) (status : Nat) (body : List Byte) :
    (s.stepFinish k status body).outside S = s.outside S := by
  simp [State.stepFinish, hS]

@[simp] theorem stepInternal_outside (hS : S.free ∧ S.ev ∧ S.nalug ∧ S.mgmt ∧ ∀ o, S.reg o) (s : State) (k : Nat) : (s.stepInternal k).outside S = s.outside S := by
  simp [State.stepInternal, hS]

@[simp] theorem stepNext_outside (hS : S.nalug ∧ S.mgmt) (s : State) (k : Nat) (phase : Nat) : (s.stepNext k phase).outside S = s.outside S := by
  simp [State.stepNext, hS]

@[simp] theorem stepPhase_outside (s : State) (k : Nat) (phase : Nat) : (s.stepPhase k phase).outside bulk = s.outside bulk := by
  simp [State.stepPhase]

@[simp] theorem ok_outside (s : State) : (ok s).1.outside S = s.outside S := by
  simp [ok]

@[simp] theorem refuse_outside (s : State) (st : Nat) : (refuse s st).1.outside S = s.outside S := by
  simp [refuse]

theorem within_nalug_run (hS : S.out ∧ S.ev ∧ S.nalug ∧ S.otp ∧ S.mgmt ∧ S.LowRegs) {s : State} {code : Nat} {q : Req} {body : List Byte}
    {f : OpForm} {act : State → State × Option (Nat × List Byte)} (h : ∀ t, (act t).1.outside S = t.outside S) :
    Within S s (.next (s.nalug_run code q body f act)) :=
  (within_next _ _).mpr (nalug_run_outside hS s code q body f h)

end Sys2Proof.Machine
end

section
namespace Sys2Proof.Machine

/-! ### Outside a scope, through Sys2Proof/Machine/Pmc.lean -/

variable {S : Scope} {h : Nat}

theorem pmcAdd_outside (hS : S.ev ∧ S.reg glbEvFifoOvfCnt) (s : State) (global : Bool) {lo hi : Nat}
    (hr : ∀ o, lo ≤ o → o < hi + 0x20 → S.reg o = true) (ev unit add : Nat) (a : PmcAttr) :
    (s.pmcAdd global lo hi ev unit add a).outside S = s.outside S := by
  unfold State.pmcAdd State.each
  have hstep : ∀ (l : List (Nat × Word)) (t : State), (∀ e ∈ l, lo ≤ e.1 ∧ e.1 < hi) →
      (l.foldl (fun t e => if s.pmcPass global e.1 e.2 a then t.cnt64 (e.1 + 0x10) add else t) t).outside S = t.outside S := by
    intro l
    induction l with
    | nil => exact fun _ _ => rfl
    | cons e r ih =>
      intro t he
      obtain ⟨h1, h2⟩ := he e (List.mem_cons_self ..)
      refine (ih _ fun x hx => he x (List.mem_cons_of_mem _ hx)).trans ?_
      refine outside_of_ite (cnt64_outside ⟨hS.1, hr _ (by omega) (by omega), hr _ (by omega) (by omega), hS.2⟩ _ _) rfl
  refine hstep _ s fun e he => ?_
  simp only [List.mem_filter, Bool.and_eq_true, decide_eq_true_eq] at he
  exact ⟨he.2.1.1.1, he.2.1.1.2⟩

@[simp] theorem pmc_outside (hS : S.ev ∧ S.OffKeeper) (s : State) (ev unit add : Nat) (a : PmcAttr) :
    (s.pmc ev unit add a).outside S = s.outside S :=
  pmcAdd_outside ⟨hS.1, hS.2.below (by decide)⟩ s true (fun o _ ho => hS.2.below (by omega)) _ _ _ _

@[simp] theorem tpmc_outside (hS : S.ev ∧ S.OffKeeper) (s : State) (p ev add : Nat) (a : PmcAttr) :
    (s.tpmc p ev add a).outside S = s.outside S :=
  pmcAdd_outside ⟨hS.1, hS.2.below (by decide)⟩ s false (fun _ ho _ => hS.2.ports _ (Nat.le_trans (tileArray_registers _ 0).1 ho)) _ _ _ _

@[simp] theorem stkWrite_outside (hS : S.ev ∧ S.reg (hbmStkWriteCnt h) ∧ S.reg (hbmStkWriteCnt h + 4) ∧ S.OffKeeper) (s : State) (n : Nat) :
    (s.stkWrite h n).outside S = s.outside S := by
  simp [State.stkWrite, hS, hS.2.2.2.below (show glbEvFifoOvfCnt < 0x800000 by decide)]

@[simp] theorem stkRead_outside (hS : S.ev ∧ ∀ o, S.reg o) (s : State) (h n : Nat) : (s.stkRead h n).outside S = s.outside S := by
  simp [State.stkRead, hS]

@[simp] theorem logUnit_outside (s : State) (unit : Nat) : (s.logUnit unit).outside bulk = s.outside bulk := by
  simp [State.logUnit]

@[simp] theorem bwAdd_outside (hS : S.tel) (s : State) (p dir n : Nat) : (s.bwAdd p dir n).outside S = s.outside S := by
  simp [State.bwAdd, hS]

end Sys2Proof.Machine
end

section
namespace Sys2Proof.Machine

/-! ### Outside a scope, through Sys2Proof/Machine/Mgmt.lean -/

variable {S : Scope}

@[simp] theorem evLogPut_outside (s : State) (r : EvRec) : (s.evLogPut r).outside bulk = s.outside bulk := by
  simp [State.evLogPut]

@[simp] theorem dropReasm_outside (s : State) (src : Src) (tag : BitVec 3) (owner : Bool) : (s.dropReasm src tag owner).outside bulk = s.outside bulk := by
  simp [State.dropReasm]

@[simp] theorem execMctpReassemblyTimeout_outside (src : Src) (tag : BitVec 3) (owner : Bool) (s : State) :
    Within bulk s (execMctpReassemblyTimeout src tag owner s) := by
  simp [execMctpReassemblyTimeout]

@[simp] theorem execSetEndpointId_outside (src : Src) (eid : Byte) (s : State) : Within bulk s (execSetEndpointId src eid s) := by
  simp [execSetEndpointId]

@[simp] theorem execGetEndpointId_outside (src : Src) (s : State) : Within bulk s (execGetEndpointId src s) := by
  simp [execGetEndpointId]

@[simp] theorem execGetMctpVersionSupport_outside (src : Src) (s : State) : Within bulk s (execGetMctpVersionSupport src s) := by
  simp [execGetMctpVersionSupport]

@[simp] theorem execGetMessageTypeSupport_outside (src : Src) (s : State) : Within bulk s (execGetMessageTypeSupport src s) := by
  simp [execGetMessageTypeSupport]

@[simp] theorem execGetVendorDefinedMessageSupport_outside (src : Src) (s : State) :
    Within bulk s (execGetVendorDefinedMessageSupport src s) := by
  simp [execGetVendorDefinedMessageSupport]

@[simp] theorem pollSlot_outside (s : State) (tok : Nat) : (s.pollSlot tok).1.outside bulk = s.outside bulk := by
  simp [State.pollSlot]

@[simp] theorem queueNotify_outside (s : State) (k : Nat) (u : Subscriber) (r : EvRec) : (s.queueNotify k u r).outside bulk = s.outside bulk := by
  simp [State.queueNotify]

@[simp] theorem sendNotify_outside (s : State) (k : Nat) (u : Subscriber) : (s.sendNotify k u).outside bulk = s.outside bulk := by
  unfold State.sendNotify
  dsimp only
  (repeat' split) <;> simp

@[simp] theorem execEventDrain_outside (s : State) : Within bulk s (execEventDrain s) := by
  unfold execEventDrain
  dsimp only
  (repeat' split) <;> simp

@[simp] theorem execGlbEvPendWrite_outside (v : Word) (s : State) : Within bulk s (execGlbEvPendWrite v s) := by
  simp [execGlbEvPendWrite]

@[simp] theorem execSmbusClockLowTimeout_outside (b : BusIx) (s : State) : Within bulk s (execSmbusClockLowTimeout b s) := by
  simp [execSmbusClockLowTimeout]

@[simp] theorem execSidebandBusSupplyLoss_outside (b : BusIx) (s : State) : Within bulk s (execSidebandBusSupplyLoss b s) := by
  simp [execSidebandBusSupplyLoss]

@[simp] theorem execI3cTargetReset_outside (b : BusIx) (s : State) : Within bulk s (execI3cTargetReset b s) := by
  simp [execI3cTargetReset]

@[simp] theorem execI3cEntdaa_outside (b : BusIx) (addr : BitVec 7) (s : State) : Within bulk s (execI3cEntdaa b addr s) := by
  simp [execI3cEntdaa]

@[simp] theorem execSbArbRetry_outside (b : BusIx) (s : State) : Within bulk s (execSbArbRetry b s) := by
  simp [execSbArbRetry]

end Sys2Proof.Machine
end

section
namespace Sys2Proof.Machine

/-! ### Outside a scope, through Sys2Proof/Machine/Bridge.lean -/

variable {S : Scope}

@[simp] theorem setStage_outside (s : State) (k : Nat) (x : StageS) : (s.setStage k x).outside bulk = s.outside bulk := by
  simp [State.setStage]

@[simp] theorem brError_outside (s : State) (cause : Nat) : (s.brError cause).outside bulk = s.outside bulk := by
  simp [State.brError]

@[simp] theorem brLate_outside (s : State) (stage code cause : Nat) : (s.brLate stage code cause).outside bulk = s.outside bulk := by
  simp [State.brLate]

@[simp] theorem brDrive_outside (s : State) (t : BrTxn) : (s.brDrive t).outside bulk = s.outside bulk := by
  simp [State.brDrive]

@[simp] theorem pollReads_outside (s : State) (r : StageReading) : (s.pollReads r).outside bulk = s.outside bulk := by
  simp [State.pollReads]

@[simp] theorem pollTake_outside (s : State) (r : StageReading) : (s.pollTake r).outside bulk = s.outside bulk := by
  simp [State.pollTake]

@[simp] theorem pollStage_outside (s : State) (r : StageReading) : (s.pollStage r).outside bulk = s.outside bulk := by
  simp [State.pollStage]

@[simp] theorem roundEnd_outside (s : State) : s.roundEnd.outside bulk = s.outside bulk := by
  unfold State.roundEnd
  split <;> simp

@[simp] theorem execBridgePollRound_outside (rs : List StageReading) (s : State) : Within bulk s (execBridgePollRound rs s) := by
  simp [execBridgePollRound]

@[simp] theorem brStart_outside (s : State) (t : BrTxn) : (s.brStart t).outside bulk = s.outside bulk := by
  unfold State.brStart
  split <;> simp

@[simp] theorem brNext_outside (s : State) : s.brNext.outside bulk = s.outside bulk := by
  unfold State.brNext
  split <;> simp

@[simp] theorem brData_outside (s : State) (d : List Byte) : (s.brData d).outside bulk = s.outside bulk := by
  simp [State.brData]

@[simp] theorem brRelease_outside (s : State) (t : BrTxn) (good : Bool) : (s.brRelease t good).outside bulk = s.outside bulk := by
  simp [State.brRelease]

@[simp] theorem execPwrBrDataRead_outside (m : Fin 8) (w : Fin 8) (s : State) : Within bulk s (execPwrBrDataRead m w s) := by
  unfold execPwrBrDataRead
  dsimp only
  (repeat' split) <;> simp

end Sys2Proof.Machine
end

section
namespace Sys2Proof.Machine

/-! ### Outside a scope, through Sys2Proof/Machine/Firmware.lean -/

variable {S : Scope}

@[simp] theorem setFw_outside (s : State) (i : Nat) (c : FwCopy) : (s.setFw i c).outside bulk = s.outside bulk := by
  simp [State.setFw]

@[simp] theorem execFlashProgramDone_outside (fjx : Bool) (n : Nat) (good : Bool) (s : State) :
    Within bulk s (execFlashProgramDone fjx n good s) := by
  simp [execFlashProgramDone]

@[simp] theorem fwCommitStep_outside (s : State) (k : Nat) : (s.fwCommitStep k).outside bulk = s.outside bulk := by
  simp [State.fwCommitStep]

@[simp] theorem setFjx_outside (s : State) (i : Nat) (b : List Byte) : (s.setFjx i b).outside bulk = s.outside bulk := by
  simp [State.setFjx]

@[simp] theorem fjxCommitStep_outside (s : State) (k : Nat) : (s.fjxCommitStep k).outside bulk = s.outside bulk := by
  unfold State.fjxCommitStep
  dsimp only
  (repeat' split) <;> simp

@[simp] theorem lcEffects_outside (s : State) (tgt : Nat) : (s.lcEffects tgt).outside bulk = s.outside bulk := by
  unfold State.lcEffects
  split <;> simp

@[simp] theorem takeLc_outside (s : State) (tgt : Nat) : (s.takeLc tgt).outside bulk = s.outside bulk := by
  simp [State.takeLc]

@[simp] theorem runFw_outside (s : State) (i : Nat) (fallback : Bool) : (s.runFw i fallback).outside bulk = s.outside bulk := by
  simp [State.runFw]

@[simp] theorem enterRecovery_outside (s : State) : s.enterRecovery.outside bulk = s.outside bulk := by
  simp [State.enterRecovery]

@[simp] theorem countBoot_outside (s : State) : s.countBoot.outside bulk = s.outside bulk := by
  simp [State.countBoot]

@[simp] theorem setBuf_outside (s : State) (i : Nat) (b : CkptBuf) : (s.setBuf i b).outside bulk = s.outside bulk := by
  simp [State.setBuf]

@[simp] theorem ckptBegin_outside (s : State) : s.ckptBegin.outside bulk = s.outside bulk := by
  simp [State.ckptBegin]

@[simp] theorem ckptEnd_outside (s : State) : s.ckptEnd.outside bulk = s.outside bulk := by
  simp [State.ckptEnd]

@[simp] theorem execCheckpointStart_outside (s : State) : Within bulk s (execCheckpointStart s) := by
  simp [execCheckpointStart]

@[simp] theorem ckptSlice_outside (s : State) : s.ckptSlice.outside bulk = s.outside bulk := by
  simp [State.ckptSlice]

@[simp] theorem execCheckpointSlice_outside (s : State) : Within bulk s (execCheckpointSlice s) := by
  simp [execCheckpointSlice]

@[simp] theorem takeover_outside (s : State) (old new cause : Nat) (replay : Bool) : (s.takeover old new cause replay).outside bulk = s.outside bulk := by
  simp [State.takeover]

@[simp] theorem coreFailed_outside (s : State) (c cause : Nat) : (s.coreFailed c cause).outside bulk = s.outside bulk := by
  simp [State.coreFailed]

@[simp] theorem execHeartbeatTimeout_outside (s : State) : Within bulk s (execHeartbeatTimeout s) := by
  simp [execHeartbeatTimeout]

@[simp] theorem execMcFatalFault_outside (c : CoreIx) (s : State) : Within bulk s (execMcFatalFault c s) := by
  simp [execMcFatalFault]

@[simp] theorem mcSwitchStep_outside (s : State) (k : Nat) : (s.mcSwitchStep k).outside bulk = s.outside bulk := by
  unfold State.mcSwitchStep
  split <;> simp

end Sys2Proof.Machine
end

section
namespace Sys2Proof.Machine

/-! ### Outside a scope, through Sys2Proof/Machine/Power.lean -/

variable {S : Scope}

@[simp] theorem setK_outside (s : State) (k : Nat) : (s.setK k).outside bulk = s.outside bulk := by
  simp [State.setK]

@[simp] theorem setUnsafe_outside (s : State) : s.setUnsafe.outside bulk = s.outside bulk := by
  simp [State.setUnsafe]

@[simp] theorem raiseUp_outside (s : State) (code : Nat) (vals : List EvVal) : (s.raiseUp code vals).outside bulk = s.outside bulk := by
  simp [State.raiseUp]

@[simp] theorem recordOff_outside (s : State) (cause group : Nat) : (s.recordOff cause group).outside bulk = s.outside bulk := by
  simp [State.recordOff]

@[simp] theorem passOff_outside (s : State) : s.passOff.outside bulk = s.outside bulk := by
  simp [State.passOff]

@[simp] theorem emergencyOff_outside (s : State) (cause group : Nat) : (s.emergencyOff cause group).outside bulk = s.outside bulk := by
  simp [State.emergencyOff]

@[simp] theorem startInrush_outside (s : State) (f : Nat) : (s.startInrush f).outside bulk = s.outside bulk := by
  simp [State.startInrush]

@[simp] theorem feedPath_outside (s : State) (f : Nat) (on : Bool) : (s.feedPath f on).outside bulk = s.outside bulk := by
  simp [State.feedPath]

@[simp] theorem standby_outside (s : State) : s.standby.outside bulk = s.outside bulk := by
  simp [State.standby]

@[simp] theorem execSeatPinsSeated_outside (s : State) : Within bulk s (execSeatPinsSeated s) := by
  simp [execSeatPinsSeated]

@[simp] theorem execSeatPinChange_outside (a b : Bool) (s : State) : Within bulk s (execSeatPinChange a b s) := by
  simp [execSeatPinChange]

@[simp] theorem execSeatDebounceExpiry_outside (s : State) : Within bulk s (execSeatDebounceExpiry s) := by
  simp [execSeatDebounceExpiry]

@[simp] theorem damage_outside (s : State) (a b : Bool) : (s.damage a b).outside bulk = s.outside bulk := by
  simp [State.damage]

@[simp] theorem execOnReqLow_outside (va vb vbus midA midB : Nat) (s : State) : Within bulk s (execOnReqLow va vb vbus midA midB s) := by
  simp [execOnReqLow]

@[simp] theorem execFaultOnReqCycle_outside (s : State) : Within bulk s (execFaultOnReqCycle s) := by
  simp [execFaultOnReqCycle]

@[simp] theorem execInrushComplete_outside (s : State) : Within bulk s (execInrushComplete s) := by
  simp [execInrushComplete]

@[simp] theorem execInrushTimeout_outside (s : State) : Within bulk s (execInrushTimeout s) := by
  simp [execInrushTimeout]

@[simp] theorem execInrushFeedLost_outside (s : State) : Within bulk s (execInrushFeedLost s) := by
  simp [execInrushFeedLost]

@[simp] theorem execRailGroupSettled_outside (g : Fin 10) (s : State) : Within bulk s (execRailGroupSettled g s) := by
  simp [execRailGroupSettled]

@[simp] theorem execRailGroupTimeout_outside (g : Fin 10) (s : State) : Within bulk s (execRailGroupTimeout g s) := by
  simp [execRailGroupTimeout]

@[simp] theorem execRailFault_outside (g : Fin 10) (s : State) : Within bulk s (execRailFault g s) := by
  simp [execRailFault]

@[simp] theorem execExtraction_outside (s : State) : Within bulk s (execExtraction s) := by
  simp [execExtraction]

@[simp] theorem execVbusUndervoltage_outside (s : State) : Within bulk s (execVbusUndervoltage s) := by
  simp [execVbusUndervoltage]

@[simp] theorem orderlyOff_outside (s : State) : s.orderlyOff.outside bulk = s.outside bulk := by
  simp [State.orderlyOff]

@[simp] theorem execOnReqHigh_outside (s : State) : Within bulk s (execOnReqHigh s) := by
  simp [execOnReqHigh]

@[simp] theorem execPwrCtlOff_outside (s : State) : Within bulk s (execPwrCtlOff s) := by
  simp [execPwrCtlOff]

@[simp] theorem feedEnable_outside (s : State) (f : Nat) (v : Bool) : (s.feedEnable f v).outside bulk = s.outside bulk := by
  simp [State.feedEnable]

@[simp] theorem execPwrCtlFeedAEn_outside (v : Bool) (s : State) : Within bulk s (execPwrCtlFeedAEn v s) := by
  simp [execPwrCtlFeedAEn]

@[simp] theorem execPwrCtlFeedBEn_outside (v : Bool) (s : State) : Within bulk s (execPwrCtlFeedBEn v s) := by
  simp [execPwrCtlFeedBEn]

@[simp] theorem execOrderlyOffGroupDisable_outside (g : Fin 10) (s : State) : Within bulk s (execOrderlyOffGroupDisable g s) := by
  simp [execOrderlyOffGroupDisable]

@[simp] theorem execVbusDischarged_outside (s : State) : Within bulk s (execVbusDischarged s) := by
  simp [execVbusDischarged]

@[simp] theorem execFeedInRange_outside (f : FeedIx) (mv : Nat) (s : State) : Within bulk s (execFeedInRange f mv s) := by
  simp [execFeedInRange]

@[simp] theorem execOringTurnOff_outside (f : FeedIx) (s : State) : Within bulk s (execOringTurnOff f s) := by
  simp [execOringTurnOff]

@[simp] theorem execOringFail_outside (f : FeedIx) (s : State) : Within bulk s (execOringFail f s) := by
  simp [execOringFail]

@[simp] theorem execCbTrip_outside (f : FeedIx) (ma : Nat) (s : State) : Within bulk s (execCbTrip f ma s) := by
  simp [execCbTrip]

@[simp] theorem execCbRetry_outside (f : FeedIx) (s : State) : Within bulk s (execCbRetry f s) := by
  simp [execCbRetry]

@[simp] theorem execPassDamaged_outside (a b : Bool) (s : State) : Within bulk s (execPassDamaged a b s) := by
  simp [execPassDamaged]

@[simp] theorem execKeeperSupplyLost_outside (s : State) : Within bulk s (execKeeperSupplyLost s) := by
  simp [execKeeperSupplyLost]

end Sys2Proof.Machine
end

section
namespace Sys2Proof.Machine

/-! ### Outside a scope, through Sys2Proof/Machine/HomeBase.lean -/

variable {S : Scope}

@[simp] theorem inHome_outside (hS : S.home) (s : State) (f : HomeS → HomeS) : (s.inHome f).outside S = s.outside S := by
  simp [State.inHome, hS]

@[simp] theorem inBind_outside (hS : S.bind) (s : State) (f : BindS → BindS) : (s.inBind f).outside S = s.outside S := by
  simp [State.inBind, hS]

@[simp] theorem inHbm_outside (hS : S.reads ∧ S.hbm) (s : State) (f : HbmS → HbmS) : (s.inHbm f).outside S = s.outside S := by
  simp [State.inHbm, hS]

@[simp] theorem setSlice_outside (hS : S.bind) (s : State) (n : Nat) (x : Slice) : (s.setSlice n x).outside S = s.outside S := by
  simp [State.setSlice, hS]

@[simp] theorem setDom_outside (hS : S.bind) (s : State) (n : Nat) (x : Dom) : (s.setDom n x).outside S = s.outside S := by
  simp [State.setDom, hS]

@[simp] theorem errReply_outside (hS : S.Links) (s : State) (m : NetMsg) (why : Nat) : (s.errReply m why).outside S = s.outside S := by
  unfold State.errReply
  split <;> simp [hS, hS.facts]

@[simp] theorem coreMiss_outside (hS : S.ev ∧ ∀ o, S.reg o) (s : State) (dst : Nat) : (s.coreMiss dst).outside S = s.outside S := by
  simp [State.coreMiss, hS]

@[simp] theorem stamp_outside (hS : S.home) (s : State) : s.stamp.2.outside S = s.outside S := by
  simp [State.stamp, hS]

@[simp] theorem devWr_outside (hS : S.out ∧ S.ev ∧ S.home ∧ ∀ o, S.reg o) (s : State) (dev addr : Nat) (d : Line) (poison : Bool) : (s.devWr dev addr d poison).outside S = s.outside S := by
  simp [State.devWr, hS]

@[simp] theorem devWrDone_outside (s : State) (la : Nat) : (s.devWrDone la).outside bulk = s.outside bulk := by
  simp [State.devWrDone]

@[simp] theorem devWriteLine_outside (hS : S.out ∧ S.ev ∧ S.home ∧ ∀ o, S.reg o) (s : State) (la : Nat) (d : Line) (poison : Bool) : (s.devWriteLine la d poison).outside S = s.outside S := by
  unfold State.devWriteLine
  dsimp only
  (repeat' split) <;> simp [hS]

@[simp] theorem fixShared_outside (hS : S.home) (s : State) (la : Nat) (dirty : Bool) : (s.fixShared la dirty).outside S = s.outside S := by
  unfold State.fixShared
  split <;> simp [hS]

@[simp] theorem seeDirty_outside (hS : S.bind) (s : State) (la : Nat) : (s.seeDirty la).outside S = s.outside S := by
  simp [State.seeDirty, hS]

@[simp] theorem lsPut_outside (hS : S.out ∧ S.ev ∧ S.bind ∧ S.home ∧ ∀ o, S.reg o) (s : State) (la : Nat) (l : LsLine) : (s.lsPut la l).outside S = s.outside S := by
  simp [State.lsPut, hS]

@[simp] theorem lsDrop_outside (hS : S.home) (s : State) (la : Nat) : (s.lsDrop la).outside S = s.outside S := by
  simp [State.lsDrop, hS]

@[simp] theorem lsUse_outside (hS : S.home) (s : State) (la : Nat) : (s.lsUse la).outside S = s.outside S := by
  simp [State.lsUse, hS]

@[simp] theorem victimWrite_outside (hS : S.out ∧ S.ev ∧ S.home ∧ ∀ o, S.reg o) (s : State) (v : Nat × LsLine) : (s.victimWrite v).outside S = s.outside S := by
  simp [State.victimWrite, hS]

@[simp] theorem findWay_outside (hS : S.out ∧ S.ev ∧ S.home ∧ ∀ o, S.reg o) (s : State) (la waits : Nat) : (s.findWay la waits).1.outside S = s.outside S := by
  unfold State.findWay
  split
  · rfl
  · split <;> simp [hS]

@[simp] theorem delAlloc_outside (hS : S.home) (s : State) (la : Nat) : (s.delAlloc la).outside S = s.outside S := by
  simp [State.delAlloc, hS]

@[simp] theorem setRead_outside (s : State) (la : Nat) : (s.setRead la).outside bulk = s.outside bulk := by
  simp [State.setRead]

/-- The body is compared with its name as a function: applied, the kernel would evaluate the way's choice. -/
@[simp] theorem lsAlloc_outside (s : State) (la : Nat) (l : LsLine) (trk : Option Nat) : (s.lsAlloc la l trk).1.outside bulk = s.outside bulk := by
  generalize hf : @State.lsAlloc = f
  delta State.lsAlloc at hf
  have h := congrFun (congrFun (congrFun (congrFun hf.symm s) la) l) trk
  beta_reduce at h
  rw [h]
  split
  · simp [outside_of_fst ‹_›]
  · dsimp only
    split <;> simp [outside_of_fst ‹_›]
  · simp [outside_of_fst ‹_›]

@[simp] theorem memStore_outside (s : State) (la : Nat) (d : Line) (poison : Bool) (trk : Option Nat) :
    (s.memStore la d poison trk).1.outside bulk = s.outside bulk := by
  unfold State.memStore
  dsimp only
  (repeat' split) <;> simp

@[simp] theorem lsFill_outside (s : State) (la : Nat) (d : Line) (poison : Bool) : (s.lsFill la d poison).outside bulk = s.outside bulk := by
  simp [State.lsFill]

@[simp] theorem placeAllocs_outside (hS : S.out ∧ S.ev ∧ S.bind ∧ S.home ∧ ∀ o, S.reg o) (s : State) (la : Nat) : (s.placeAllocs la).outside S = s.outside S := by
  unfold State.placeAllocs
  refine outside_each (fun a t => ?_) _ _
  split
  · simp [hS, outside_of_fst ‹t.findWay _ _ = _›]
  · cases a.trk <;> simp [hS, outside_of_fst ‹t.findWay _ _ = _›]
  · simp [hS, outside_of_fst ‹t.findWay _ _ = _›]

@[simp] theorem lsLose_outside (s : State) (p : Nat → LsLine → Bool) : (s.lsLose p).outside bulk = s.outside bulk := by
  simp [State.lsLose]

@[simp] theorem poisonCnt_outside (hS : ∀ o, S.reg o) (s : State) (la : Nat) : (s.poisonCnt la).outside S = s.outside S := by
  simp [State.poisonCnt, hS]

@[simp] theorem poisonLine_outside (s : State) (la : Nat) : (s.poisonLine la).outside bulk = s.outside bulk := by
  simp [State.poisonLine]

@[simp] theorem poisonOwned_outside (s : State) (la : Nat) : (s.poisonOwned la).outside bulk = s.outside bulk := by
  simp [State.poisonOwned]

@[simp] theorem setCoh_outside (s : State) (d : Nat) (x : DomCoh) : (s.setCoh d x).outside bulk = s.outside bulk := by
  simp [State.setCoh]

@[simp] theorem untrack_outside (s : State) (sl : Nat) : (s.untrack sl).outside bulk = s.outside bulk := by
  simp [State.untrack]

@[simp] theorem exitAbandon_outside (s : State) (d : Nat) : (s.exitAbandon d).outside bulk = s.outside bulk := by
  simp [State.exitAbandon]

@[simp] theorem enterBlanket_outside (s : State) (d cause : Nat) : (s.enterBlanket d cause).outside bulk = s.outside bulk := by
  simp [State.enterBlanket]

@[simp] theorem countEvict_outside (s : State) (la d : Nat) : (s.countEvict la d).outside bulk = s.outside bulk := by
  simp [State.countEvict]

@[simp] theorem setEnt_outside (hS : S.home) (s : State) (la : Nat) (e : Option DirEnt) : (s.setEnt la e).outside S = s.outside S := by
  unfold State.setEnt
  split <;> simp [hS]

@[simp] theorem dropEnt_outside (s : State) (la : Nat) (e : DirEnt) : (s.dropEnt la e).outside bulk = s.outside bulk := by
  simp [State.dropEnt]

@[simp] theorem setTrk_outside (hS : S.home) (s : State) (k : Nat) (t : Trk) : (s.setTrk k t).outside S = s.outside S := by
  simp [State.setTrk, hS]

@[simp] theorem delTrk_outside (hS : S.home) (s : State) (k : Nat) : (s.delTrk k).outside S = s.outside S := by
  simp [State.delTrk, hS]

@[simp] theorem stampWord_outside (hS : S.free) (s : State) : s.stampWord.2.outside S = s.outside S := by
  simp [State.stampWord, hS]

@[simp] theorem inTags_outside (hS : S.tel) (s : State) (p : LatTag → Bool) (f : LatTag → LatTag) : (s.inTags p f).outside S = s.outside S := by
  simp [State.inTags, hS]

@[simp] theorem latStage_outside (hS : S.free ∧ S.tel) (s : State) (p : LatTag → Bool) (stage : Nat) (last : Bool) : (s.latStage p stage last).outside S = s.outside S := by
  simp [State.latStage, hS]

@[simp] theorem latAbort_outside (hS : S.tel) (s : State) (p : LatTag → Bool) : (s.latAbort p).outside S = s.outside S := by
  simp [State.latAbort, hS]

@[simp] theorem latFlag_outside (hS : S.tel) (s : State) (fid la v : Nat) : (s.latFlag fid la v).outside S = s.outside S := by
  simp [State.latFlag, hS]

@[simp] theorem unread_outside (hS : S.home ∧ S.reads) (s : State) (p : Nat → Bool) : (s.unread p).outside S = s.outside S := by
  simp [State.unread, State.inHbm, hS]

@[simp] theorem cutTrks_outside (hS : S.home ∧ S.reads) (s : State) (p : Trk → Bool) : (s.cutTrks p).outside S = s.outside S := by
  simp [State.cutTrks, hS]

@[simp] theorem sendSnoops_outside (hS : S.out ∧ S.ev ∧ S.tel ∧ S.home ∧ ∀ o, S.reg o) (s : State) (k : Nat) (t : Trk) (kind : Nat) (fids : List Nat) :
    (s.sendSnoops k t kind fids).outside S = s.outside S := by
  simp [State.sendSnoops, hS]

@[simp] theorem entriesLost_outside (s : State) (b set : Nat) (las : List Nat) : (s.entriesLost b set las).outside bulk = s.outside bulk := by
  simp [State.entriesLost]

@[simp] theorem dirPut_outside (s : State) (la : Nat) (e : DirEnt) : (s.dirPut la e).outside bulk = s.outside bulk := by
  simp [State.dirPut]

@[simp] theorem evictEnt_outside (s : State) (la : Nat) (e : DirEnt) : (s.evictEnt la e).outside bulk = s.outside bulk := by
  simp [State.evictEnt]

@[simp] theorem moveOut_outside (s : State) (la : Nat) (e : DirEnt) (keepOut : Bool) : (s.moveOut la e keepOut).1.outside bulk = s.outside bulk := by
  unfold State.moveOut
  dsimp only
  (repeat' split) <;> simp

@[simp] theorem record_outside (s : State) (la : Nat) (e : DirEnt) (must : Bool) : (s.record la e must).1.outside bulk = s.outside bulk := by
  unfold State.record
  dsimp only
  (repeat' split) <;> simp

@[simp] theorem dirLost_outside (s : State) (h : Nat) : (s.dirLost h).outside bulk = s.outside bulk := by
  simp [State.dirLost]

@[simp] theorem rewriteEntries_outside (s : State) : s.rewriteEntries.outside bulk = s.outside bulk := by
  simp [State.rewriteEntries]

@[simp] theorem homeFail_outside (hS : S.ev ∧ ∀ o, S.reg o) (s : State) (fid sl off reason : Nat) : (s.homeFail fid sl off reason).outside S = s.outside S := by
  simp [State.homeFail, hS]

@[simp] theorem protoErr_outside (hS : S.ev ∧ ∀ o, S.reg o) (s : State) (la fid : Nat) : (s.protoErr la fid).outside S = s.outside S := by
  simp [State.protoErr, hS]

end Sys2Proof.Machine
end

section
namespace Sys2Proof.Machine

/-! ### Outside a scope, through Sys2Proof/Machine/EngineBase.lean -/

variable {S : Scope}

@[simp] theorem engRemote_outside (hS : S.out ∧ S.rem) (s : State) (i : Nat) (e : HEnt) (f o cls hev len : Nat) (d : Option (List Byte)) :
    (s.engRemote i e f o cls hev len d).outside S = s.outside S := by
  simp [State.engRemote, hS]

@[simp] theorem engLine_outside (hS : S.out ∧ S.rem) (s : State) (i space cls addr len : Nat) (d : Option (List Byte)) :
    (s.engLine i space cls addr len d).outside S = s.outside S := by
  unfold State.engLine
  dsimp only
  (repeat' split) <;> simp [hS]

@[simp] theorem engLines_outside (hS : S.out ∧ S.rem) (s : State) (i space cls addr : Nat) (b : List Byte) : (s.engLines i space cls addr b).outside S = s.outside S := by
  simp [State.engLines, hS]

@[simp] theorem issueReads_outside (hS : S.out ∧ S.insts ∧ S.rem) (s : State) (i : Nat) : (s.issueReads i).outside S = s.outside S := by
  unfold State.issueReads
  dsimp only
  split <;> simp [hS]

@[simp] theorem readBack_outside (hS : S.out ∧ S.insts ∧ S.rem) (s : State) (via : Via) (r : HRsp) : (s.readBack via r).outside S = s.outside S := by
  unfold State.readBack
  dsimp only
  (repeat' split) <;> simp [hS]

@[simp] theorem jobsStop_outside (hS : S.insts) (s : State) (p : Job → Bool) (st : Nat) : (s.jobsStop p st).outside S = s.outside S := by
  simp [State.jobsStop, hS]

@[simp] theorem jobsFailed_outside (hS : S.insts) (s : State) (ss : List Nat) : (s.jobsFailed ss).outside S = s.outside S := by
  simp [State.jobsFailed, hS]

@[simp] theorem abandonMove_outside (hS : S.ev ∧ S.bind ∧ S.home ∧ S.reads ∧ ∀ o, S.reg o) (s : State) (n : Nat) : (s.abandonMove n).outside S = s.outside S := by
  simp [State.abandonMove, hS]

@[simp] theorem movePoison_outside (s : State) (t : Trk) : (s.movePoison t).outside bulk = s.outside bulk := by
  unfold State.movePoison
  split <;> simp

end Sys2Proof.Machine
end

section
namespace Sys2Proof.Machine

/-! ### Outside a scope, through Sys2Proof/Machine/HamperBase.lean -/

variable {S : Scope}

@[simp] theorem inHmp_outside (hS : S.hmp) (s : State) (f : HmpS → HmpS) : (s.inHmp f).outside S = s.outside S := by
  simp [State.inHmp, hS]

@[simp] theorem setPart_outside (hS : S.hmp) (s : State) (p : HPart) : (s.setPart p).outside S = s.outside S := by
  simp [State.setPart, hS]

@[simp] theorem setOrig_outside (hS : S.hmp) (s : State) (o : HOrig) : (s.setOrig o).outside S = s.outside S := by
  simp [State.setOrig, hS]

@[simp] theorem logAppend_outside (s : State) (r : LogRec) : (s.logAppend r).outside bulk = s.outside bulk := by
  simp [State.logAppend]

@[simp] theorem logAbsent_outside (s : State) (i : Nat) : (s.logAbsent i).outside bulk = s.outside bulk := by
  unfold State.logAbsent
  split <;> simp

@[simp] theorem sendHmsg_outside (hS : S.out) (s : State) (dst type : Nat) (m : HMsg) : (s.sendHmsg dst type m).outside S = s.outside S := by
  simp [State.sendHmsg, hS]

@[simp] theorem unhold_outside (hS : S.home) (s : State) (la : Nat) : (s.unhold la).outside S = s.outside S := by
  unfold State.unhold
  split <;> simp [hS]

@[simp] theorem acquireEnd_outside (hS : S.home ∧ S.reads) (s : State) (k : Nat) (t : Trk) : (s.acquireEnd k t).outside S = s.outside S := by
  unfold State.acquireEnd
  split <;> simp [hS]

@[simp] theorem partRelease_outside (hS : S.out ∧ S.ev ∧ S.bind ∧ S.home ∧ S.hmp ∧ S.reads ∧ ∀ o, S.reg o) (s : State) (p : HPart) : (s.partRelease p).outside S = s.outside S := by
  simp [State.partRelease, hS]

@[simp] theorem partVote_outside (hS : S.out ∧ S.ev ∧ S.bind ∧ S.home ∧ S.hmp ∧ S.reads ∧ ∀ o, S.reg o) (s : State) (p : HPart) (v fail : Nat) : (s.partVote p v fail).outside S = s.outside S := by
  unfold State.partVote
  dsimp only
  split <;> simp [hS]

/-- The body is compared with its name as a function: applied, the kernel would evaluate the way's choice. -/
@[simp] theorem stageShadow_outside (s : State) (la : Nat) (d : Line) (poison : Bool) : (s.stageShadow la d poison).1.outside bulk = s.outside bulk := by
  generalize hf : @State.stageShadow = f
  delta State.stageShadow at hf
  have h := congrFun (congrFun (congrFun (congrFun hf.symm s) la) d) poison
  beta_reduce at h
  rw [h]
  split
  · simp [outside_of_fst ‹_›]
  · simp

@[simp] theorem hmpDone_outside (s : State) (k : Nat) (t : Trk) (p : HPart) (l : PLine) (miss : Bool) :
    (s.hmpDone k t p l miss).outside bulk = s.outside bulk := by
  unfold State.hmpDone
  dsimp only
  (repeat' split) <;> simp

@[simp] theorem hmpLine_outside (s : State) (k : Nat) (t : Trk) (p : HPart) (l : PLine) (d : Line) (poison : Bool) : (s.hmpLine k t p l d poison).outside bulk = s.outside bulk := by
  unfold State.hmpLine
  split
  · simp
  · dsimp only
    split <;> simp [outside_of_fst ‹_›]

@[simp] theorem hmpFailed_outside (hS : S.out ∧ S.ev ∧ S.bind ∧ S.home ∧ S.hmp ∧ S.reads ∧ ∀ o, S.reg o) (s : State) (slices : List Nat) : (s.hmpFailed slices).outside S = s.outside S := by
  unfold State.hmpFailed
  refine outside_each (fun p t => ?_) _ _
  cases p.vote with
  | none => simp [hS]
  | some v => cases t.orig p.key <;> simp [hS]

end Sys2Proof.Machine
end

section
namespace Sys2Proof.Machine

/-! ### Outside a scope, through Sys2Proof/Machine/Home.lean -/

variable {S : Scope}

@[simp] theorem aheadFree_outside (hS : S.reads) (s : State) (fid la : Nat) : (s.aheadFree fid la).outside S = s.outside S := by
  unfold State.aheadFree State.inHbm
  dsimp only
  split <;> simp [hS]

@[simp] theorem complete_outside (hS : S.out ∧ S.free ∧ S.tel ∧ S.reads ∧ S.insts ∧ S.rem) (s : State) (fid : Nat) (via : Via) (la : Nat) (r : Option HRsp) :
    (s.complete fid via la r).outside S = s.outside S := by
  unfold State.complete
  split <;> simp [hS]

@[simp] theorem respond_outside (hS : S.out ∧ S.free ∧ S.tel ∧ S.reads ∧ S.insts ∧ S.rem) (s : State) (fid : Nat) (via : Via) (la : Nat) (r : Option HRsp) : (s.respond fid via la r).outside S = s.outside S := by
  unfold State.respond
  split
  · split <;> simp [hS]
  · simp [hS]

@[simp] theorem slotAsk_outside (hS : S.out) (s : State) (la : Nat) (job : RdJob) : (s.slotAsk la job).outside S = s.outside S := by
  unfold State.slotAsk
  split <;> simp [hS]

@[simp] theorem slotIssue_outside (hS : S.out ∧ S.ev ∧ S.reads ∧ ∀ o, S.reg o) (s : State) (la : Nat) (trk : Option Nat) (job : RdJob) :
    (s.slotIssue la trk job).outside S = s.outside S := by
  unfold State.slotIssue State.inHbm
  dsimp only
  split <;> simp [hS]

@[simp] theorem hbmIssue_outside (hS : S.out ∧ S.ev ∧ S.reads ∧ ∀ o, S.reg o) (s : State) (la : Nat) (trk : Option Nat) : (s.hbmIssue la trk).outside S = s.outside S := by
  simp [State.hbmIssue, hS]

@[simp] theorem dirRead_outside (hS : S.out ∧ S.ev ∧ S.reads ∧ ∀ o, S.reg o) (s : State) (la : Nat) : (s.dirRead la).outside S = s.outside S := by
  simp [State.dirRead, hS]

@[simp] theorem lookup0_outside (hS : S.out ∧ S.ev ∧ S.reads ∧ ∀ o, S.reg o) (s : State) (la : Nat) : (s.lookup0 la).outside S = s.outside S := by
  simp [State.lookup0, hS]

@[simp] theorem sendRead_outside (hS : S.out ∧ S.free ∧ S.ev ∧ S.tel ∧ S.home ∧ ∀ o, S.reg o) (s : State) (k : Nat) (t : Trk) : (s.sendRead k t).outside S = s.outside S := by
  simp [State.sendRead, hS]

@[simp] theorem issueRead_outside (hS : S.out ∧ S.free ∧ S.ev ∧ S.tel ∧ S.home ∧ S.reads ∧ ∀ o, S.reg o) (s : State) (k : Nat) (t : Trk) (spec : Bool) : (s.issueRead k t spec).outside S = s.outside S := by
  unfold State.issueRead
  dsimp only
  (repeat' split) <;> simp [hS]

@[simp] theorem kickReads_outside (s : State) (b : Nat) : (s.kickReads b).outside bulk = s.outside bulk := by
  unfold State.kickReads
  split <;> simp

@[simp] theorem dropReads_outside (s : State) (k : Nat) (t : Trk) : (s.dropReads k t).outside bulk = s.outside bulk := by
  simp [State.dropReads]

@[simp] theorem endTrk_outside (s : State) (k : Nat) (t : Trk) : (s.endTrk k t).outside bulk = s.outside bulk := by
  simp [State.endTrk]

@[simp] theorem recordNext_outside (s : State) (t : Trk) (e : Option DirEnt) : (s.recordNext t e).1.outside bulk = s.outside bulk := by
  unfold State.recordNext
  split <;> simp

@[simp] theorem serve_outside (s : State) (k : Nat) (t : Trk) : (s.serve k t).outside bulk = s.outside bulk := by
  unfold State.serve
  split
  · rfl
  · dsimp only
    split <;> simp [outside_of_fst ‹_›]

@[simp] theorem ncwWrite_outside (s : State) (k : Nat) (t : Trk) : (s.ncwWrite k t).outside bulk = s.outside bulk := by
  unfold State.ncwWrite
  dsimp only
  split <;> simp

@[simp] theorem ownerLost_outside (s : State) (t : Trk) : (s.ownerLost t).1.outside bulk = s.outside bulk := by
  simp [State.ownerLost]

@[simp] theorem goOn_outside (s : State) (k : Nat) (t : Trk) : (s.goOn k t).outside bulk = s.outside bulk := by
  unfold State.goOn
  dsimp only
  split <;> simp

@[simp] theorem walkLineDone_outside (s : State) (k : Nat) (t : Trk) (f : Option Nat) : (s.walkLineDone k t f).outside bulk = s.outside bulk := by
  unfold State.walkLineDone
  dsimp only
  (repeat' split) <;> simp

@[simp] theorem hamperGoOn_outside (s : State) (k : Nat) (t : Trk) : (s.hamperGoOn k t).outside bulk = s.outside bulk := by
  unfold State.hamperGoOn
  dsimp only
  (repeat' split) <;> simp

@[simp] theorem moveOn_outside (s : State) (k : Nat) (t : Trk) : (s.moveOn k t).outside bulk = s.outside bulk := by
  unfold State.moveOn
  dsimp only
  (repeat' split) <;> simp

@[simp] theorem partOn_outside (s : State) (k : Nat) (t : Trk) (j : Option Nat) : (s.partOn k t j).outside bulk = s.outside bulk := by
  unfold State.partOn
  dsimp only
  (repeat' split) <;> simp

@[simp] theorem advance1_outside (s : State) (k : Nat) : (s.advance1 k).outside bulk = s.outside bulk := by
  unfold State.advance1
  split
  · rfl
  · next t _ =>
    by_cases h2 : t.phase = 2
    · simp only [h2]
      cases t.ev <;> simp
    by_cases h3 : t.phase = 3
    · simp only [h3]
      cases t.ev <;> simp
    · simp [h2, h3]

@[simp] theorem advance_outside (s : State) (k : Nat) : (s.advance k).outside bulk = s.outside bulk := by
  simp [State.advance]

@[simp] theorem resume_outside (s : State) : s.resume.outside bulk = s.outside bulk := by
  unfold State.resume
  refine outside_each (fun a t => ?_) _ _
  split <;> simp

@[simp] theorem cleanEvict_outside (s : State) (fid la : Nat) : (s.cleanEvict fid la).outside bulk = s.outside bulk := by
  unfold State.cleanEvict
  split <;> simp

@[simp] theorem startReq_outside (hS : S.out ∧ S.free ∧ S.ev ∧ S.tel ∧ S.home ∧ S.reads ∧ ∀ o, S.reg o) (s : State) (k : Nat) (t : Trk) : (s.startReq k t).outside S = s.outside S := by
  simp [State.startReq, hS]

@[simp] theorem homeAccept_outside (hS : S.out ∧ S.free ∧ S.ev ∧ S.tel ∧ S.home ∧ S.reads ∧ S.insts ∧ S.rem ∧ ∀ o, S.reg o) (s : State) (ev : HEv) (r : HReq) (odd : Bool) : (s.homeAccept ev r odd).outside S = s.outside S := by
  unfold State.homeAccept
  dsimp only
  (repeat' split) <;> simp [hS]

@[simp] theorem forbidden_outside (hS : S.out ∧ S.free ∧ S.ev ∧ S.tel ∧ S.reads ∧ S.insts ∧ S.rem ∧ ∀ o, S.reg o) (s : State) (r : HReq) (write : Bool) : (s.forbidden r write).outside S = s.outside S := by
  simp [State.forbidden, hS]

@[simp] theorem homeReq_outside (hS : S.out ∧ S.free ∧ S.ev ∧ S.tel ∧ S.home ∧ S.reads ∧ S.insts ∧ S.rem ∧ ∀ o, S.reg o) (s : State) (ev : HEv) (r : HReq) : (s.homeReq ev r).outside S = s.outside S := by
  simp [State.homeReq, hS]

@[simp] theorem execHomeRds_outside (hS : S.out ∧ S.free ∧ S.ev ∧ S.tel ∧ S.home ∧ S.reads ∧ S.insts ∧ S.rem ∧ ∀ o, S.reg o) (r : HReq) (s : State) : Within S s (execHomeRds r s) := by
  simp [execHomeRds, hS]

@[simp] theorem execHomeRda_outside (hS : S.out ∧ S.free ∧ S.ev ∧ S.tel ∧ S.home ∧ S.reads ∧ S.insts ∧ S.rem ∧ ∀ o, S.reg o) (r : HReq) (s : State) : Within S s (execHomeRda r s) := by
  simp [execHomeRda, hS]

@[simp] theorem execHomeRdown_outside (hS : S.out ∧ S.free ∧ S.ev ∧ S.tel ∧ S.home ∧ S.reads ∧ S.insts ∧ S.rem ∧ ∀ o, S.reg o) (r : HReq) (s : State) : Within S s (execHomeRdown r s) := by
  simp [execHomeRdown, hS]

@[simp] theorem execHomeNcr_outside (hS : S.out ∧ S.free ∧ S.ev ∧ S.tel ∧ S.home ∧ S.reads ∧ S.insts ∧ S.rem ∧ ∀ o, S.reg o) (r : HReq) (s : State) : Within S s (execHomeNcr r s) := by
  simp [execHomeNcr, hS]

@[simp] theorem execHomeCe_outside (hS : S.out ∧ S.free ∧ S.ev ∧ S.tel ∧ S.home ∧ S.reads ∧ S.insts ∧ S.rem ∧ ∀ o, S.reg o) (r : HReq) (s : State) : Within S s (execHomeCe r s) := by
  simp [execHomeCe, hS]

@[simp] theorem absorb_outside (s : State) (k : Nat) (t : Trk) (d : Line) (poison : Bool) : (s.absorb k t d poison).outside bulk = s.outside bulk := by
  simp [State.absorb]

@[simp] theorem takeWb_outside (s : State) (la : Nat) (d : Line) (mask : BitVec 64) (k : Option (Nat × Trk)) :
    (s.takeWb la d mask k).outside bulk = s.outside bulk := by
  unfold State.takeWb
  dsimp only
  (repeat' split) <;> simp

@[simp] theorem wbEntry_outside (s : State) (la fid : Nat) (d : Line) (mask : BitVec 64) (keep : Bool) :
    (s.wbEntry la fid d mask keep).outside bulk = s.outside bulk := by
  unfold State.wbEntry
  split <;> simp

@[simp] theorem strayWb_outside (s : State) (r : HReq) : (s.strayWb r).1.outside bulk = s.outside bulk := by
  unfold State.strayWb
  split <;> simp

@[simp] theorem homeWrite_outside (s : State) (r : HReq) : (s.homeWrite r).outside bulk = s.outside bulk := by
  unfold State.homeWrite
  extract_lets sl la fid done nonCaching owed ent named clean
  have hdone : ∀ t, (done t).outside bulk = t.outside bulk := fun t => by simp [done]
  clear_value done nonCaching owed ent named clean
  cases owed with
  | some kt => simp [hdone]
  | none =>
    cases h : s.strayWb r with
    | mk t reason => cases reason <;> simp [hdone, outside_of_fst (S := bulk) h]

@[simp] theorem execHomeWb_outside (r : HReq) (s : State) : Within bulk s (execHomeWb r s) := by
  unfold execHomeWb
  split <;> simp

@[simp] theorem execHomeNcw_outside (r : HReq) (s : State) : Within bulk s (execHomeNcw r s) := by
  simp [execHomeNcw]

@[simp] theorem execMemspecrd_outside (r : HReq) (s : State) : Within S s (execMemspecrd r s) := by
  simp [execMemspecrd]

@[simp] theorem execClflush_outside (hS : S.out ∧ S.free ∧ S.ev ∧ S.tel ∧ S.home ∧ S.reads ∧ S.insts ∧ S.rem ∧ ∀ o, S.reg o) (r : HReq) (s : State) : Within S s (execClflush r s) := by
  simp [execClflush, hS]

@[simp] theorem execBiconflict_outside (hS : S.out ∧ S.free ∧ S.tel ∧ S.reads ∧ S.insts ∧ S.rem) (fid : Fid) (la : Nat) (s : State) : Within S s (execBiconflict fid la s) := by
  simp [execBiconflict, hS]

@[simp] theorem snoopAnswer_outside (s : State) (la : Nat) (k : Nat) (t : Trk) (a : SnpRsp) : (s.snoopAnswer la k t a).outside bulk = s.outside bulk := by
  unfold State.snoopAnswer
  dsimp only
  (repeat' split) <;> simp

@[simp] theorem execSnoopResponse_outside (la : Nat) (a : SnpRsp) (s : State) : Within bulk s (execSnoopResponse la a s) := by
  unfold execSnoopResponse
  dsimp only
  (repeat' split) <;> simp

@[simp] theorem entUse_outside (s : State) (la : Nat) : (s.entUse la).outside bulk = s.outside bulk := by
  simp [State.entUse]

@[simp] theorem bringIn_outside (s : State) (la : Nat) : (s.bringIn la).1.outside bulk = s.outside bulk := by
  unfold State.bringIn
  split <;> simp

@[simp] theorem execSfLookupDone_outside (k : Nat) (s : State) : Within bulk s (execSfLookupDone k s) := by
  unfold execSfLookupDone
  split
  · simp
  split
  · simp
  split
  · simp
  · next h =>
    extract_lets la e self minus wide kind excl tg t s2
    have h1 := outside_of_fst (S := bulk) h
    have h2 : s2.outside bulk = s.outside bulk := by simp [s2, h1]
    clear_value tg t kind wide s2
    split
    · simp [h1]
    split
    · simp [h1]
    · split <;> simp [h2]

@[simp] theorem readArrived_outside (s : State) (k : Nat) (d : Line) (poison : Bool) : (s.readArrived k d poison).outside bulk = s.outside bulk := by
  unfold State.readArrived
  split <;> simp

@[simp] theorem execDeviceReadComplete_outside (rid : Nat) (d : Line) (poison : Bool) (s : State) :
    Within bulk s (execDeviceReadComplete rid d poison s) := by
  unfold execDeviceReadComplete
  dsimp only
  (repeat' split) <;> simp

@[simp] theorem acked_outside (s : State) (la kind : Nat) : (s.acked la kind).outside bulk = s.outside bulk := by
  simp [State.acked]

@[simp] theorem execLineStoreWriteAck_outside (la : Nat) (s : State) : Within bulk s (execLineStoreWriteAck la s) := by
  simp [execLineStoreWriteAck]

@[simp] theorem execLsVictimWriteDone_outside (la : Nat) (s : State) : Within bulk s (execLsVictimWriteDone la s) := by
  unfold execLsVictimWriteDone
  split <;> simp

@[simp] theorem failQueued_outside (s : State) (p : Nat → Bool) : (s.failQueued p).outside bulk = s.outside bulk := by
  simp [State.failQueued]

@[simp] theorem hmpStart_outside (s : State) (k : Nat) (t : Trk) : (s.hmpStart k t).outside bulk = s.outside bulk := by
  unfold State.hmpStart
  extract_lets la
  split
  · split
    · simp
    split
    · simp
    split
    · simp
    split
    · simp
    split
    · rfl
    · next h =>
      have h1 := outside_of_fst (S := bulk) h
      simp [h1]
  · rfl

@[simp] theorem execLineQueueAdvance_outside (la : Nat) (s : State) : Within bulk s (execLineQueueAdvance la s) := by
  unfold execLineQueueAdvance
  split
  · simp
  split
  · simp
  · split <;> simp

end Sys2Proof.Machine
end

section
namespace Sys2Proof.Machine

/-! ### Outside a scope, through Sys2Proof/Machine/Binding.lean -/

variable {S : Scope}

@[simp] theorem walkBank_outside (bs : List Nat) (slice : Nat) (stop : Nat → State → Bool) {act : Nat → State → State}
    (h : ∀ la t, (act la t).outside S = t.outside S) (n p : Nat) (s : State) : (walkBank bs slice stop act n p s).2.outside S = s.outside S := by
  induction n generalizing p s with
  | zero => rfl
  | succ n ih =>
    unfold walkBank
    split
    · rfl
    · dsimp only
      split
      · rfl
      · simp [ih, h]

@[simp] theorem setWalk_outside (hS : S.bind) (s : State) (w : Nat) (x : Option Walk) : (s.setWalk w x).outside S = s.outside S := by
  simp [State.setWalk, hS]

@[simp] theorem walkTick_outside (hS : S.bind) (s : State) (w : Nat) {act : Nat → State → State} (stop : Nat → State → Bool)
    (h : ∀ la t, (act la t).outside S = t.outside S) : (s.walkTick w act stop).outside S = s.outside S := by
  unfold State.walkTick
  split
  · rfl
  · next k _ =>
    dsimp only
    generalize hx : List.foldl _ _ _ = x
    have hs : x.1.outside S = s.outside S := by
      rw [← hx]
      exact outside_foldl_fst (fun a b => by split <;> simp [hS, h]) _ _
    split <;> simp [hS, hs]

@[simp] theorem walkSnoop_outside (hS : S.out ∧ S.ev ∧ S.tel ∧ S.home ∧ ∀ o, S.reg o) (s : State) (w la : Nat) (f : Option Nat) (fids : List Nat) :
    (s.walkSnoop w la f fids).outside S = s.outside S := by
  simp [State.walkSnoop, hS]

@[simp] theorem examAgent_outside (hS : S.out ∧ S.ev ∧ S.tel ∧ S.home ∧ ∀ o, S.reg o) (w f : Nat) (la : Nat) (s : State) : (s.examAgent w f la).outside S = s.outside S := by
  unfold State.examAgent
  split <;> simp [hS]

@[simp] theorem examTeardown_outside (w d : Nat) (failed : Bool) (la : Nat) (s : State) : (s.examTeardown w d failed la).outside bulk = s.outside bulk := by
  unfold State.examTeardown
  split <;> simp

@[simp] theorem examRelease_outside (w : Nat) (la : Nat) (s : State) : (s.examRelease w la).outside bulk = s.outside bulk := by
  unfold State.examRelease
  dsimp only
  (repeat' split) <;> simp

@[simp] theorem examExit_outside (w d : Nat) (la : Nat) (s : State) : (s.examExit w d la).outside bulk = s.outside bulk := by
  unfold State.examExit
  split <;> simp

@[simp] theorem dropLines_outside (s : State) (n : Nat) : (s.dropLines n).outside bulk = s.outside bulk := by
  simp [State.dropLines]

@[simp] theorem unassign_outside (s : State) (n : Nat) : (s.unassign n).outside bulk = s.outside bulk := by
  simp [State.unassign]

@[simp] theorem sliceReleaseStep_outside (s : State) (k n : Nat) : (s.sliceReleaseStep k n).outside bulk = s.outside bulk := by
  unfold State.sliceReleaseStep
  split <;> simp

@[simp] theorem execOpDomainCreate_outside (hS : S.out ∧ S.ev ∧ S.nalug ∧ S.otp ∧ S.mgmt ∧ S.bind ∧ S.LowRegs) (q : Req) (body : List Byte) (s : State) : Within S s (execOpDomainCreate q body s) := by
  simp [execOpDomainCreate, hS]

@[simp] theorem execOpDomainAgentRemove_outside (hS : S.out ∧ S.ev ∧ S.nalug ∧ S.otp ∧ S.mgmt ∧ S.bind ∧ S.LowRegs) (q : Req) (body : List Byte) (s : State) :
    Within S s (execOpDomainAgentRemove q body s) := by
  refine within_nalug_run (by simp [hS]) fun t => ?_
  dsimp only
  (repeat' split) <;> simp [hS]

@[simp] theorem walkOn_outside (s : State) (w d : Nat) : (s.walkOn w d).outside bulk = s.outside bulk := by
  unfold State.walkOn
  split <;> simp

@[simp] theorem agentRemoveStep_outside (s : State) (k d slot f : Nat) : (s.agentRemoveStep k d slot f).outside bulk = s.outside bulk := by
  unfold State.agentRemoveStep
  split <;> simp

@[simp] theorem execOpDomainTeardown_outside (hS : S.out ∧ S.ev ∧ S.nalug ∧ S.otp ∧ S.mgmt ∧ S.bind ∧ S.home ∧ S.hmp ∧ S.reads ∧ S.insts ∧ ∀ o, S.reg o) (q : Req) (body : List Byte) (s : State) : Within S s (execOpDomainTeardown q body s) := by
  refine within_nalug_run (by simp [hS]) fun t => ?_
  split <;> simp [hS]

@[simp] theorem teardownEnd_outside (s : State) (k d moves : Nat) : (s.teardownEnd k d moves).outside bulk = s.outside bulk := by
  simp [State.teardownEnd]

@[simp] theorem teardownStep_outside (s : State) (k d : Nat) (failed : Bool) : (s.teardownStep k d failed).outside bulk = s.outside bulk := by
  unfold State.teardownStep
  split <;> simp

@[simp] theorem execOpVcsCreate_outside (hS : S.out ∧ S.ev ∧ S.nalug ∧ S.otp ∧ S.mgmt ∧ S.bind ∧ S.LowRegs) (q : Req) (body : List Byte) (s : State) : Within S s (execOpVcsCreate q body s) := by
  refine within_nalug_run (by simp [hS]) fun t => ?_
  (repeat' split) <;> simp [hS]

@[simp] theorem execHdmDecoderWrite_outside (hS : S.bind) (v : VcsIx) (base : BitVec 64) (ig iw : BitVec 4) (s : State) :
    Within S s (execHdmDecoderWrite v base ig iw s) := by
  unfold execHdmDecoderWrite
  split <;> simp [hS]

@[simp] theorem bindTo_outside (hS : S.ev ∧ S.bind ∧ S.reg glbEvFifoOvfCnt) (s : State) (mode rights n f v index : Nat) : (s.bindTo mode rights n f v index).outside S = s.outside S := by
  simp [State.bindTo, hS]

@[simp] theorem execOpBind_outside (hS : S.out ∧ S.ev ∧ S.nalug ∧ S.otp ∧ S.mgmt ∧ S.bind ∧ S.LowRegs) (q : Req) (body : List Byte) (s : State) : Within S s (execOpBind q body s) := by
  refine within_nalug_run (by simp [hS]) fun t => ?_
  dsimp only
  (repeat' split) <;> simp [hS]

theorem revoke_outside (hS : S.bind) {s t : State} {mode n f v index : Nat} (h : s.revoke mode n f v index = some t) : t.outside S = s.outside S := by
  revert h
  unfold State.revoke
  split
  · split
    · rintro ⟨⟩
      simp [hS]
    · rintro ⟨⟩
  split
  · rintro ⟨⟩
  split
  · rintro ⟨⟩
  split
  · rintro ⟨⟩
    simp [hS]
  · rintro ⟨⟩

@[simp] theorem unbindBegin_outside (hS : S.bind) (s : State) (k n : Nat) : (s.unbindBegin k n).outside S = s.outside S := by
  simp [State.unbindBegin, hS]

@[simp] theorem execOpUnbind_outside (hS : S.out ∧ S.ev ∧ S.nalug ∧ S.otp ∧ S.mgmt ∧ S.bind ∧ S.LowRegs) (q : Req) (body : List Byte)
    (s : State) : Within S s (execOpUnbind q body s) := by
  refine within_nalug_run (by simp [hS]) fun t => ?_
  split
  · split
    · simp [hS]
    · next h => exact revoke_outside (by simp [hS]) h
  dsimp only
  split
  · simp [hS]
  split
  · simp [hS]
  split
  · simp [hS]
  · simp [hS]
  · next h =>
    have h1 : _ = t.outside S := revoke_outside (by simp [hS]) h
    simp [hS, h1]

@[simp] theorem execOpRebind_outside (hS : S.out ∧ S.ev ∧ S.nalug ∧ S.otp ∧ S.mgmt ∧ S.bind ∧ S.LowRegs) (q : Req) (body : List Byte) (s : State) : Within S s (execOpRebind q body s) := by
  refine within_nalug_run (by simp [hS]) fun t => ?_
  extract_lets x old rv
  have hrv : ∀ u, rv = some u → u.outside S = t.outside S := by
    intro u hu
    cases h : old with
    | none => exact revoke_outside (by simp [hS]) (by simpa [rv, h] using hu)
    | some o => exact revoke_outside (by simp [hS]) (by simpa [rv, h] using hu)
  clear_value rv
  refine fst_outside_of_ite (by simp [hS]) (fst_outside_of_ite (by simp [hS]) (fst_outside_of_ite (by simp [hS]) (fst_outside_of_ite (by simp [hS]) ?_)))
  split
  · simp [hS]
  · simp [hS]
  · next u _ =>
    have hu := hrv u rfl
    split <;> simp [hS, hu]

@[simp] theorem unbindEnd_outside (hS : S.ev ∧ S.bind ∧ ∀ o, S.reg o) (s : State) (n f : Nat) : (s.unbindEnd n f).outside S = s.outside S := by
  simp [State.unbindEnd, hS]

@[simp] theorem startWalk_outside (hS : S.nalug ∧ S.mgmt ∧ S.bind) (s : State) (k n f : Nat) : (s.startWalk k n f).outside S = s.outside S := by
  unfold State.startWalk
  split
  · split <;> simp [hS]
  · rfl

@[simp] theorem unbindStep_outside (hS : S.out ∧ S.free ∧ S.ev ∧ S.nalug ∧ S.mgmt ∧ S.tel ∧ S.bind ∧ S.home ∧ ∀ o, S.reg o) (s : State) (k n f : Nat) {fin : State → State} (h : ∀ t, (fin t).outside S = t.outside S) :
    (s.unbindStep k n f fin).outside S = s.outside S := by
  unfold State.unbindStep
  split <;> simp [hS, h]

@[simp] theorem rebindEnd_outside (hS : S.ev ∧ S.nalug ∧ S.mgmt ∧ S.bind ∧ ∀ o, S.reg o) (k mode r n fo fn v index : Nat) (nd : Option Nat) (s : State) :
    (s.rebindEnd k mode r n fo fn v index nd).outside S = s.outside S := by
  unfold State.rebindEnd
  dsimp only
  (repeat' split) <;> simp [hS]

@[simp] theorem opUnbindStep_outside (hS : S.out ∧ S.free ∧ S.ev ∧ S.nalug ∧ S.mgmt ∧ S.tel ∧ S.bind ∧ S.home ∧ ∀ o, S.reg o) (s : State) (k n f : Nat) : (s.opUnbindStep k n f).outside S = s.outside S := by
  simp [State.opUnbindStep, hS]

@[simp] theorem opRebindStep_outside (hS : S.out ∧ S.free ∧ S.ev ∧ S.nalug ∧ S.mgmt ∧ S.tel ∧ S.bind ∧ S.home ∧ ∀ o, S.reg o) (s : State) (k mode r n fo fn v index : Nat) (nd : Option Nat) :
    (s.opRebindStep k mode r n fo fn v index nd).outside S = s.outside S := by
  simp [State.opRebindStep, hS]

@[simp] theorem stepOnce_outside (hS : S.nalug) (s : State) (k : Nat) {f : State → State} (h : ∀ t, (f t).outside S = t.outside S) :
    (s.stepOnce k f).outside S = s.outside S := by
  simp [hS, State.stepOnce, h]

@[simp] theorem execUnbindDrainDone_outside (hS : S.out ∧ S.free ∧ S.ev ∧ S.nalug ∧ S.mgmt ∧ S.tel ∧ S.bind ∧ S.home ∧ ∀ o, S.reg o) (k : Fin 32) (s : State) : Within S s (execUnbindDrainDone k s) := by
  unfold execUnbindDrainDone
  dsimp only
  (repeat' split) <;> simp [hS]

@[simp] theorem execWalkStep_outside (k : Fin 32) (s : State) : Within bulk s (execWalkStep k s) := by
  unfold execWalkStep
  dsimp only
  (repeat' split) <;> simp

@[simp] theorem edgePut_outside (s : State) (p ld : Nat) (v : Word) : (s.edgePut p ld v).outside bulk = s.outside bulk := by
  simp [State.edgePut]

@[simp] theorem execPtEdgeIdWrite_outside (p : PortIx) (ld : Fin 16) (v : Word) (s : State) : Within bulk s (execPtEdgeIdWrite p ld v s) := by
  simp [execPtEdgeIdWrite]

@[simp] theorem execBlanketWindowEnd_outside (s : State) : Within bulk s (execBlanketWindowEnd s) := by
  simp [execBlanketWindowEnd]

@[simp] theorem execBlanketEnter_outside (d : DomIx) (s : State) : Within bulk s (execBlanketEnter d s) := by
  unfold execBlanketEnter
  split <;> simp

@[simp] theorem visitNext_outside (s : State) (d : Nat) : (s.visitNext d).outside bulk = s.outside bulk := by
  unfold State.visitNext
  split <;> simp

@[simp] theorem visitEnd_outside (s : State) (n : Nat) : (s.visitEnd n).outside bulk = s.outside bulk := by
  simp [State.visitEnd]

@[simp] theorem execExitWalkStart_outside (d : DomIx) (s : State) : Within bulk s (execExitWalkStart d s) := by
  simp [execExitWalkStart]

@[simp] theorem execExitWalkStep_outside (d : DomIx) (s : State) : Within bulk s (execExitWalkStep d s) := by
  unfold execExitWalkStep
  dsimp only
  (repeat' split) <;> simp

@[simp] theorem execBlanketExit_outside (d : DomIx) (s : State) : Within bulk s (execBlanketExit d s) := by
  simp [execBlanketExit]

@[simp] theorem dirRebuildStep_outside (s : State) (k : Nat) : (s.dirRebuildStep k).outside bulk = s.outside bulk := by
  simp [State.dirRebuildStep]

end Sys2Proof.Machine
end

section
namespace Sys2Proof.Machine

/-! ### Outside a scope, through Sys2Proof/Machine/Hampers.lean -/

variable {S : Scope}

@[simp] theorem originFail_outside (hS : S.ev ∧ ∀ o, S.reg o) (s : State) (port : Option Nat) (fid reason off : Nat) :
    (s.originFail port fid reason off).outside S = s.outside S := by
  unfold State.originFail
  split <;> simp [hS]

@[simp] theorem setPortSlot_outside (hS : S.hmp) (s : State) (v k : Nat) (x : PortSlot) : (s.setPortSlot v k x).outside S = s.outside S := by
  simp [State.setPortSlot, hS]

@[simp] theorem outcome_outside (s : State) (src : HSrc) (r : List Byte) : (s.outcome src r).outside bulk = s.outside bulk := by
  unfold State.outcome
  split <;> simp

@[simp] theorem abortCount_outside (s : State) (status : Nat) : (s.abortCount status).outside bulk = s.outside bulk := by
  simp [State.abortCount]

@[simp] theorem abortCapture_outside (s : State) (status : Nat) (key : HKey) : (s.abortCapture status key).outside bulk = s.outside bulk := by
  simp [State.abortCapture]

@[simp] theorem addPart_outside (s : State) (p : HPart) : (s.addPart p).outside bulk = s.outside bulk := by
  simp [State.addPart]

@[simp] theorem hmpSubmit_outside (s : State) (src : HSrc) (acting v : Nat) (legacy : Bool) (port : Option Nat) (b : List Byte) :
    (s.hmpSubmit src acting v legacy port b).outside bulk = s.outside bulk := by
  unfold State.hmpSubmit
  extract_lets user me refuse n es dec home lines homes cross crossAny tag key lim o s1
  have h1 : s1.outside bulk = s.outside bulk := by simp [s1]
  have hrefuse : ∀ t st f, (refuse t st f).outside bulk = t.outside bulk := fun t st f => by simp [refuse]
  clear_value refuse lines cross crossAny homes s1
  split
  · exact hrefuse _ _ _
  split
  · exact hrefuse _ _ _
  split
  · exact hrefuse _ _ _
  split
  · exact hrefuse _ _ _
  split
  · exact (hrefuse _ _ _).trans (originFail_outside (by simp) _ _ _ _ _)
  split
  · exact hrefuse _ _ _
  split
  · exact hrefuse _ _ _
  split
  · exact hrefuse _ _ _
  · refine (outside_each (fun h t => ?_) _ _).trans h1
    split <;> simp

@[simp] theorem execHamperPortEntryWrite_outside (hS : S.hmp ∧ S.reg hmpPortDiscardCnt) (v : VcsIx) (k : Fin 64) (off : Fin 4096) (b : List Byte) (s : State) :
    Within S s (execHamperPortEntryWrite v k off b s) := by
  simp [execHamperPortEntryWrite, hS]

@[simp] theorem execHamperPortHeaderWrite_outside (v : VcsIx) (k : Fin 64) (off : Fin 32) (b : List Byte) (s : State) :
    Within bulk s (execHamperPortHeaderWrite v k off b s) := by
  unfold execHamperPortHeaderWrite
  dsimp only
  (repeat' split) <;> simp

@[simp] theorem execHmpSlotAck_outside (hS : S.hmp ∧ S.reg hmpPortDiscardCnt) (v : VcsIx) (k : Fin 64) (s : State) : Within S s (execHmpSlotAck v k s) := by
  unfold execHmpSlotAck
  split <;> simp [hS]

@[simp] theorem sendH_outside (hS : S.out) (s : State) (dst type : Nat) (p : HPart) (code fail : Nat) :
    (s.sendH dst type p code fail).outside S = s.outside S := by
  simp [State.sendH, hS]

@[simp] theorem lateMsg_outside (hS : S.reg hmpLateCnt) (s : State) : s.lateMsg.outside S = s.outside S := by
  simp [State.lateMsg, hS]

@[simp] theorem sendVote_outside (s : State) (p : HPart) : (s.sendVote p).outside bulk = s.outside bulk := by
  simp [State.sendVote]

@[simp] theorem execHpartReceive_outside (m : HMsg) (s : State) : Within bulk s (execHpartReceive m s) := by
  unfold execHpartReceive
  dsimp only
  (repeat' split) <;> simp

@[simp] theorem execHamperArbitration_outside (hS : S.hmp) (s : State) : Within S s (execHamperArbitration s) := by
  simp [execHamperArbitration, hS]

@[simp] theorem execHamperLineAcquire_outside (key : HKey) (i : Fin 32) (s : State) : Within bulk s (execHamperLineAcquire key i s) := by
  unfold execHamperLineAcquire
  dsimp only
  (repeat' split) <;> simp

@[simp] theorem judge_outside (s : State) (p : HPart) : (s.judge p).outside bulk = s.outside bulk := by
  simp [State.judge]

@[simp] theorem execHamperVoteSend_outside (key : HKey) (s : State) : Within bulk s (execHamperVoteSend key s) := by
  unfold execHamperVoteSend
  dsimp only
  (repeat' split) <;> simp

@[simp] theorem execHvoteReceive_outside (hS : S.hmp ∧ S.reg hmpLateCnt) (m : HMsg) (s : State) : Within S s (execHvoteReceive m s) := by
  unfold execHvoteReceive
  split <;> simp [hS]

@[simp] theorem announce_outside (hS : S.out ∧ S.hmp) (s : State) (o : HOrig) (c : Nat) : (s.announce o c).outside S = s.outside S := by
  unfold State.announce
  dsimp only
  split <;> simp [hS]

@[simp] theorem decideAll_outside (s : State) : s.decideAll.outside bulk = s.outside bulk := by
  unfold State.decideAll
  refine (outside_each (fun o t => ?_) _ _).trans (by simp)
  cases t.part o.key <;> simp

@[simp] theorem execHamperDecide_outside (s : State) : Within bulk s (execHamperDecide s) := by
  simp [execHamperDecide]

@[simp] theorem execCommitLogWriteAck_outside
    (hS : S.out ∧ S.ev ∧ S.hmp ∧ S.reg glbEvFifoOvfCnt ∧ S.reg hmpHomePrepCnt ∧ S.reg (hmpHomePrepCnt + 4) ∧ S.reg hmpLateSealCnt)
    (key : HKey) (type : Fin 4) (s : State) : Within S s (execCommitLogWriteAck key type s) := by
  unfold execCommitLogWriteAck
  split
  · split <;> simp [hS]
  · split
    · simp [hS]
    · split <;> simp [hS]
  · split <;> simp [hS]
  · simp [hS]

@[simp] theorem execHdecideReceive_outside (hS : S.hmp ∧ S.reg hmpLateCnt) (m : HMsg) (s : State) : Within S s (execHdecideReceive m s) := by
  unfold execHdecideReceive
  split <;> simp [hS]

@[simp] theorem execHquerySend_outside (hS : S.out ∧ S.hmp) (key : HKey) (s : State) : Within S s (execHquerySend key s) := by
  unfold execHquerySend
  split <;> simp [hS]

@[simp] theorem answerQuery_outside (s : State) (m : HMsg) : (s.answerQuery m).outside bulk = s.outside bulk := by
  simp [State.answerQuery]

@[simp] theorem execHqueryReceive_outside (m : HMsg) (s : State) : Within bulk s (execHqueryReceive m s) := by
  unfold execHqueryReceive
  split <;> simp

@[simp] theorem execHanswerReceive_outside (hS : S.hmp ∧ S.reg hmpLateCnt) (m : HMsg) (s : State) : Within S s (execHanswerReceive m s) := by
  unfold execHanswerReceive
  dsimp only
  (repeat' split) <;> simp [hS]

@[simp] theorem execHamperIndoubtPoison_outside (hS : S.hmp) (key : HKey) (s : State) : Within S s (execHamperIndoubtPoison key s) := by
  unfold execHamperIndoubtPoison
  split
  · simp [hS]
  · split <;> simp [hS]

@[simp] theorem execIndoubtRecordRewrite_outside (key : HKey) (s : State) : Within bulk s (execIndoubtRecordRewrite key s) := by
  unfold execIndoubtRecordRewrite
  split <;> simp

@[simp] theorem execHmpTimingWrite_outside (hS : S.hmp ∧ S.reg hmpTiming0 ∧ S.reg hmpTiming1) (second : Bool) (v : Word) (s : State) : Within S s (execHmpTimingWrite second v s) := by
  simp [execHmpTimingWrite, hS]

@[simp] theorem doubtBegin_outside (s : State) (p : HPart) : (s.doubtBegin p).outside bulk = s.outside bulk := by
  simp [State.doubtBegin]

@[simp] theorem overrun_outside (s : State) (banks : Nat) : (s.overrun banks).outside bulk = s.outside bulk := by
  simp [State.overrun]

@[simp] theorem hmpGuard_outside (s : State) : s.hmpGuard.outside bulk = s.outside bulk := by
  unfold State.hmpGuard
  extract_lets me s0 locals s1 behind s2 doubtful s3 sealing s4
  have h0 : s0.outside bulk = s.outside bulk := by simp [s0]
  have h1 : s1.outside bulk = s0.outside bulk := by
    refine outside_each (fun o t => ?_) _ _
    extract_lets t1
    have ht1 : t1.outside bulk = t.outside bulk := by cases h : t.part o.key <;> simp [t1, h]
    clear_value t1
    dsimp only
    split <;> simp [ht1]
  have h2 : s2.outside bulk = s1.outside bulk := by
    refine outside_each (fun p t => ?_) _ _
    extract_lets u
    have hu : u.outside bulk = t.outside bulk := by simp [u]
    split <;> simp [hu]
  have h3 : s3.outside bulk = s2.outside bulk := by simp [s3]
  have h4 : s4.outside bulk = s3.outside bulk := by simp [s4]
  simp [h4, h3, h2, h1, h0]

@[simp] theorem flip_outside (s : State) (p : HPart) : (s.flip p).outside bulk = s.outside bulk := by
  unfold State.flip
  refine outside_each (fun l t => ?_) _ _
  dsimp only
  cases tfind t.home.shadow l.la <;> simp

@[simp] theorem delPart_outside (s : State) (key : HKey) : (s.delPart key).outside bulk = s.outside bulk := by
  simp [State.delPart]

@[simp] theorem delOrig_outside (s : State) (key : HKey) : (s.delOrig key).outside bulk = s.outside bulk := by
  simp [State.delOrig]

@[simp] theorem poisonPart_outside (s : State) (p : HPart) : (s.poisonPart p).outside bulk = s.outside bulk := by
  simp [State.poisonPart]

@[simp] theorem partRetry_outside (s : State) (p : HPart) : (s.partRetry p).outside bulk = s.outside bulk := by
  unfold State.partRetry
  dsimp only
  split <;> simp

@[simp] theorem partEdge_outside (p : HPart) (s : State) : (s.partEdge p).outside bulk = s.outside bulk := by
  unfold State.partEdge
  dsimp only
  (repeat' split) <;> simp

@[simp] theorem hmpLate_outside (s : State) : s.hmpLate.outside bulk = s.outside bulk := by
  simp [State.hmpLate]

@[simp] theorem origEdge_outside (late : Bool) (o : HOrig) (s : State) : (s.origEdge late o).outside bulk = s.outside bulk := by
  unfold State.origEdge
  dsimp only
  (repeat' split) <;> simp

@[simp] theorem hmpEdge_outside (s : State) : s.hmpEdge.outside bulk = s.outside bulk := by
  simp [State.hmpEdge]

@[simp] theorem freeHmpPort_outside (s : State) (v : Nat) : (s.freeHmpPort v).outside bulk = s.outside bulk := by
  simp [State.freeHmpPort]

end Sys2Proof.Machine
end

section
namespace Sys2Proof.Machine

/-! ### Outside a scope, through Sys2Proof/Machine/Fail.lean -/

variable {S : Scope}

@[simp] theorem failTrks_outside (s : State) (p : Nat → Bool) : (s.failTrks p).outside bulk = s.outside bulk := by
  simp [State.failTrks]

@[simp] theorem failSlices_outside (s : State) (ss : List Nat) (cause : Nat) : (s.failSlices ss cause).outside bulk = s.outside bulk := by
  simp [State.failSlices]

@[simp] theorem failDomain_outside (s : State) (d : Nat) {why : State → State} (h : ∀ t, (why t).outside bulk = t.outside bulk) :
    (s.failDomain d why).outside bulk = s.outside bulk := by
  simp [State.failDomain, h]

@[simp] theorem agentQuiet_outside (s : State) (f : Nat) : (s.agentQuiet f).outside bulk = s.outside bulk := by
  simp [State.agentQuiet]

@[simp] theorem agentDead_outside (s : State) (f : Nat) : (s.agentDead f).outside bulk = s.outside bulk := by
  unfold State.agentDead
  extract_lets caches note ds tearing old s1 s2
  have hn : ∀ d x, (note d x).outside bulk = x.outside bulk := fun d x => by simp [note]
  clear_value note
  have h1 : s1.outside bulk = s.outside bulk :=
    outside_each (fun d t => failDomain_outside t d (fun x => (raise_outside (by simp) _ _ _).trans (hn d x))) _ _
  have h2 : s2.outside bulk = s1.outside bulk := by simp [s2, hn]
  simp [h2, h1]

@[simp] theorem dropLost_outside (s : State) (ss : List Nat) : (s.dropLost ss).1.outside bulk = s.outside bulk := by
  simp [State.dropLost]

@[simp] theorem deviceLost_outside (s : State) (p ld : Nat) : (s.deviceLost p ld).outside bulk = s.outside bulk := by
  unfold State.deviceLost
  split <;> simp

@[simp] theorem execSnoopTimeout_outside (k : Nat) (fid : Fid) (s : State) : Within bulk s (execSnoopTimeout k fid s) := by
  unfold execSnoopTimeout
  dsimp only
  (repeat' split) <;> simp

@[simp] theorem homeBankLost_outside (s : State) (h : Nat) : (s.homeBankLost h).outside bulk = s.outside bulk := by
  unfold State.homeBankLost
  dsimp only
  split <;> simp

@[simp] theorem sfBankLost_outside (s : State) (b : Nat) : (s.sfBankLost b).outside bulk = s.outside bulk := by
  simp [State.sfBankLost]

@[simp] theorem startMirror_outside (s : State) (log : Nat) : (s.startMirror log).outside bulk = s.outside bulk := by
  unfold State.startMirror
  dsimp only
  split <;> simp

@[simp] theorem hbmMirror_outside (s : State) : s.hbmMirror.outside bulk = s.outside bulk := by
  simp [State.hbmMirror]

@[simp] theorem ageDrop_outside (s : State) (q : Nat) (l : List TMsg) : (s.ageDrop q l).outside bulk = s.outside bulk := by
  simp [State.ageDrop]

@[simp] theorem spillLost_outside (s : State) (h : Nat) : (s.spillLost h).outside bulk = s.outside bulk := by
  simp [State.spillLost]

@[simp] theorem stackLost_outside (s : State) (h : Nat) : (s.stackLost h).outside bulk = s.outside bulk := by
  unfold State.stackLost
  extract_lets s1 mine bad good drop fail s2 s3 log mir valid s4 l s5 ev s6 s7 s8 s9 s10
  have h1 : s1.outside bulk = s.outside bulk := by simp [s1]
  have h2 : s2.outside bulk = s1.outside bulk := by simp [s2]
  have h4 : s4.outside bulk = s2.outside bulk := by simp [s4, s3, drop]
  have h6 : s6.outside bulk = s4.outside bulk := by simp [s6, s5]
  have h7 : s7.outside bulk = s4.outside bulk := by
    cases h : s.nextStack h <;> simp [s7, h, h6]
  have h8 : s8.outside bulk = s7.outside bulk := by simp [s8]
  have h9 : s9.outside bulk = s8.outside bulk := by simp [s9]
  have h10 : s10.outside bulk = s8.outside bulk := by simp [s10, h9]
  clear_value s10
  simp [h10, h8, h7, h4, h2, h1]

@[simp] theorem retireStack_outside (s : State) (h : Nat) : (s.retireStack h).outside bulk = s.outside bulk := by
  simp [State.retireStack]

end Sys2Proof.Machine
end

section
namespace Sys2Proof.Machine

/-! ### Outside a scope, through Sys2Proof/Machine/Buffers.lean -/

variable {S : Scope}

@[simp] theorem setQueue_outside (hS : S.Links) (s : State) (q : Nat) (l : List TMsg) : (s.setQueue q l).outside S = s.outside S := by
  simp [State.setQueue, hS, hS.facts]

@[simp] theorem markSpill_outside (hS : S.Links) (s : State) (q : Nat) : (s.markSpill q).outside S = s.outside S := by
  simp [State.markSpill, hS, hS.facts]

@[simp] theorem spillLeave_outside (hS : S.Links) (s : State) (q : Nat) : (s.spillLeave q).outside S = s.outside S := by
  simp [State.spillLeave, hS, hS.facts]

end Sys2Proof.Machine
end

section
namespace Sys2Proof.Machine

/-! ### Outside a scope, through Sys2Proof/Machine/Hbm.lean -/

variable {S : Scope}

@[simp] theorem stackUe_outside (s : State) (h : Nat) : (s.stackUe h).outside bulk = s.outside bulk := by
  simp [State.stackUe]

@[simp] theorem freeSlot_outside (s : State) (q : Nat) : (s.freeSlot q).outside bulk = s.outside bulk := by
  unfold State.freeSlot
  dsimp only
  split <;> simp

@[simp] theorem poisonLog_outside (s : State) (q : Nat) (x : RdSlot) : (s.poisonLog q x).outside bulk = s.outside bulk := by
  simp [State.poisonLog]

@[simp] theorem sendFrom_outside (hS : S.Links) (s : State) (st : Nat) (m : TMsg) : (s.sendFrom st m).outside S = s.outside S := by
  simp [State.sendFrom, hS, hS.facts]

@[simp] theorem pageBack_outside (s : State) (st q page : Nat) : (s.pageBack st q page).outside bulk = s.outside bulk := by
  simp [State.pageBack]

@[simp] theorem dirLose_outside (s : State) (la b : Nat) : (s.dirLose la b).outside bulk = s.outside bulk := by
  simp [State.dirLose]

@[simp] theorem dirPart_outside (s : State) (q : Nat) (x : RdSlot) (half : Nat) : (s.dirPart q x half).outside bulk = s.outside bulk := by
  simp [State.dirPart]

@[simp] theorem pairPoison_outside (s : State) (q : Nat) (x : RdSlot) : (s.pairPoison q x).outside bulk = s.outside bulk := by
  unfold State.pairPoison
  dsimp only
  (repeat' split) <;> simp

@[simp] theorem deliver_outside (s : State) (q : Nat) (x : RdSlot) : (s.deliver q x).outside bulk = s.outside bulk := by
  unfold State.deliver
  dsimp only
  (repeat' split) <;> simp

@[simp] theorem execHbmBurstArrival_outside (h : StackIx) (pc : Fin 32) (slot : Fin 64) (attempt half : Bool) (quality : Fin 3) (s : State) :
    Within bulk s (execHbmBurstArrival h pc slot attempt half quality s) := by
  unfold execHbmBurstArrival
  dsimp only
  (repeat' split) <;> simp

@[simp] theorem execPairingHoldExpiry_outside (h : StackIx) (pc : Fin 32) (slot : Fin 64) (s : State) :
    Within bulk s (execPairingHoldExpiry h pc slot s) := by
  unfold execPairingHoldExpiry
  dsimp only
  (repeat' split) <;> simp

@[simp] theorem execHbmStackRetire_outside (h : StackIx) (s : State) : Within bulk s (execHbmStackRetire h s) := by
  simp [execHbmStackRetire]

@[simp] theorem execPseudoChannelRetrainFail_outside (h : StackIx) (pc : Fin 32) (s : State) :
    Within bulk s (execPseudoChannelRetrainFail h pc s) := by
  simp [execPseudoChannelRetrainFail]

@[simp] theorem execMirrorCopyUnit_outside (s : State) : Within bulk s (execMirrorCopyUnit s) := by
  unfold execMirrorCopyUnit
  split <;> simp

@[simp] theorem scrubBack_outside (s : State) (h pc area addr : Nat) : (s.scrubBack h pc area addr).outside bulk = s.outside bulk := by
  simp [State.scrubBack]

@[simp] theorem hbmEdge_outside (s : State) : s.hbmEdge.outside bulk = s.outside bulk := by
  simp [State.hbmEdge]

@[simp] theorem execDeviceWriteComplete_outside (la : Nat) (s : State) : Within bulk s (execDeviceWriteComplete la s) := by
  simp [execDeviceWriteComplete]

end Sys2Proof.Machine
end

section
namespace Sys2Proof.Machine

/-! ### Outside a scope, through Sys2Proof/Machine/LinkBase.lean -/

variable {S : Scope}

@[simp] theorem setLink_outside (hS : S.lnk) (s : State) (p : Nat) (x : LinkS) : (s.setLink p x).outside S = s.outside S := by
  simp [State.setLink, hS]

@[simp] theorem setCxp_outside (hS : S.cxl) (s : State) (p : Nat) (x : CxPort) : (s.setCxp p x).outside S = s.outside S := by
  simp [State.setCxp, hS]

@[simp] theorem msixKick_outside (s : State) (v n : Nat) : (s.msixKick v n).outside bulk = s.outside bulk := by
  simp [State.msixKick]

@[simp] theorem msixPut_outside (s : State) (v w : Nat) (x : Word) : (s.msixPut v w x).outside bulk = s.outside bulk := by
  simp [State.msixPut]

@[simp] theorem fnReset_outside (s : State) (v : Nat) : (s.fnReset v).outside bulk = s.outside bulk := by
  simp [State.fnReset]

@[simp] theorem sendCw_outside (hS : S.out ∧ S.lnk) (s : State) (p : Nat) (quiet : Bool) (flits : List (List Byte)) :
    (s.sendCw p quiet flits).outside S = s.outside S := by
  simp [State.sendCw, hS]

@[simp] theorem quietExit_outside (hS : S.out ∧ S.lnk ∧ S.PortRegs) (s : State) (p : Nat) : (s.quietExit p).outside S = s.outside S := by
  simp [State.quietExit, hS]

@[simp] theorem sendFlits_outside (hS : S.out ∧ S.lnk) (s : State) (p : Nat) (fl : List (List Byte)) : (s.sendFlits p fl).outside S = s.outside S := by
  simp [State.sendFlits, hS]

@[simp] theorem ctl_outside (hS : S.out ∧ S.lnk ∧ S.PortRegs) (s : State) (p ctype : Nat) (vals : List Nat) (n : Nat) : (s.ctl p ctype vals n).outside S = s.outside S := by
  simp [State.ctl, hS]

@[simp] theorem linkAnswer_outside (hS : S.out ∧ S.lnk ∧ S.PortRegs) (s : State) (p : Nat) (nak : Bool) : (s.linkAnswer p nak).outside S = s.outside S := by
  simp [State.linkAnswer, hS]

@[simp] theorem pump_outside (hS : S.out ∧ S.ev ∧ S.tel ∧ S.lnk ∧ S.reg glbEvFifoOvfCnt ∧ S.PortRegs) (s : State) (p : Nat) : (s.pump p).outside S = s.outside S := by
  simp [State.pump, hS]

theorem linkSend_outside (hS : S.out ∧ S.ev ∧ S.tel ∧ S.lnk ∧ S.reg glbEvFifoOvfCnt ∧ S.PortRegs) {s t : State} {p cls : Nat} {b : List Byte} (h : s.linkSend p cls b = some t) : t.outside S = s.outside S := by
  unfold State.linkSend at h
  split at h
  · cases h
  · dsimp only at h
    split at h
    · cases h
    · cases h
      simp [hS]

@[simp] theorem sendCredit_outside (hS : S.out ∧ S.lnk ∧ S.PortRegs) (s : State) (p : Nat) : (s.sendCredit p).outside S = s.outside S := by
  simp [State.sendCredit, hS]

@[simp] theorem linkFree_outside (hS : S.out ∧ S.lnk ∧ S.PortRegs) (s : State) (p cls : Nat) : (s.linkFree p cls).outside S = s.outside S := by
  unfold State.linkFree
  dsimp only
  split <;> simp [hS]

end Sys2Proof.Machine
end

section
namespace Sys2Proof.Machine

/-! ### Outside a scope, through Sys2Proof/Machine/Tiles.lean -/

variable {S : Scope}

@[simp] theorem inQos_outside (hS : S.qos) (s : State) (f : QosS → QosS) : (s.inQos f).outside S = s.outside S := by
  simp [State.inQos, hS]

@[simp] theorem setDef_outside (hS : S.qos) (s : State) (t fc : Nat) (f : Flow) : (s.setDef t fc f).outside S = s.outside S := by
  simp [State.setDef, hS]

@[simp] theorem setFlowOf_outside (s : State) (t fc src : Nat) (f : Flow) : (s.setFlowOf t fc src f).outside bulk = s.outside bulk := by
  simp [State.setFlowOf]

@[simp] theorem countColour_outside (s : State) (t fc col c : Nat) : (s.countColour t fc col c).outside bulk = s.outside bulk := by
  simp [State.countColour]

@[simp] theorem pushQueue_outside (hS : S.Links) (s : State) (q : Nat) (m : TMsg) : (s.pushQueue q m).outside S = s.outside S := by
  simp [State.pushQueue, hS, hS.facts]

@[simp] theorem spillScan_outside (hS : S.Links) (s : State) (q : Nat) : (s.spillScan q).outside S = s.outside S := by
  simp [State.spillScan, hS, hS.facts]

@[simp] theorem enqueue_outside (hS : S.Links) (s : State) (q : Nat) (m : TMsg) : (s.enqueue q m).1.outside S = s.outside S := by
  unfold State.enqueue
  dsimp only
  (repeat' split) <;> simp [hS, hS.facts]

@[simp] theorem missOf_outside (hS : S.Links) (s : State) (p dst : Nat) (m : NetMsg) : (s.missOf p dst m).outside S = s.outside S := by
  simp [State.missOf, hS, hS.facts]

@[simp] theorem routeMiss_outside (hS : S.Links) (s : State) (p dst : Nat) (m : NetMsg) : (s.routeMiss p dst m).outside S = s.outside S := by
  simp [State.routeMiss, hS, hS.facts]

@[simp] theorem barAccess_outside (s : State) (p v : Nat) (m : NetMsg) (off : Nat) (write : Bool) (len : Nat) :
    (s.barAccess p v m off write len).outside bulk = s.outside bulk := by
  simp [State.barAccess]

theorem vppbConfig_outside {s t : State} {p v : Nat} {m : NetMsg} {k : Nat} {below : Bool} (h : s.vppbConfig p v m k below = .inl t) :
    t.outside bulk = s.outside bulk := by
  unfold State.vppbConfig at h
  split at h
  · split at h
    · cases h
    · cases h
      simp
  · cases h
    simp
  · cases h
    simp
  · cases h
    simp

theorem destOf_outside {s t : State} {p src : Nat} {m : NetMsg} (h : s.destOf p src m = .inl t) : t.outside bulk = s.outside bulk := by
  unfold State.destOf at h
  dsimp only at h
  split at h
  · cases h
  · cases h
  · split at h
    · cases h
    · cases h
      simp
  · cases h
    split <;> simp
  · split at h
    · split at h
      · cases h
        exact vppbConfig_outside ‹_›
      · cases h
    · cases h
      simp
  · split at h
    · cases h
      simp
    · split at h
      · cases h
        simp
      · cases h

@[simp] theorem tagRequest_outside (s : State) (p : Nat) (m : TMsg) (la : Option Nat) (remote : Bool) :
    (s.tagRequest p m la remote).outside bulk = s.outside bulk := by
  simp [State.tagRequest]

@[simp] theorem trackRemote_outside (s : State) (t src : Nat) (d : Dest) (m : NetMsg) : (s.trackRemote t src d m).outside bulk = s.outside bulk := by
  unfold State.trackRemote
  split <;> simp

@[simp] theorem police_outside (s : State) (t fc src : Nat) (f : Flow) (m : NetMsg) : (s.police t fc src f m).outside bulk = s.outside bulk := by
  simp [State.police]

@[simp] theorem reserveAhead_outside (s : State) (p src : Nat) (d : Dest) (m : NetMsg) : (s.reserveAhead p src d m).outside bulk = s.outside bulk := by
  unfold State.reserveAhead
  split <;> simp

@[simp] theorem tileTake_outside (s : State) (p src : Nat) (d : Dest) (e : Nat) (m : NetMsg) :
    (s.tileTake p src d e m).1.outside bulk = s.outside bulk := by
  simp [State.tileTake]

@[simp] theorem npDone_outside (s : State) (p : Nat) (m : NetMsg) : (s.npDone p m).outside bulk = s.outside bulk := by
  simp [State.npDone]

@[simp] theorem takeParts_outside (s : State) (p src : Nat) (l : List (Dest × NetMsg)) : (s.takeParts p src l).1.outside bulk = s.outside bulk := by
  induction l generalizing s with
  | nil => rfl
  | cons x r ih =>
    obtain ⟨d, m⟩ := x
    unfold State.takeParts
    split
    · simp [ih]
    · next e _ =>
      have h := tileTake_outside s p src d e m
      split
      · next h1 => simpa [ih, h1] using h
      · exact h

@[simp] theorem execTileMessageAccept_outside (p : PortIx) (m : NetMsg) (s : State) : Within bulk s (execTileMessageAccept p m s) := by
  unfold execTileMessageAccept
  extract_lets t fabric lim m1 s1 s2
  have h2 : s2.outside bulk = s.outside bulk := by simp [s2, s1]
  clear_value s2
  split
  · simp
  split
  · simp [h2]
  split
  · simp [h2]
  split
  · simp [destOf_outside ‹_›, h2]
  · split <;> simp [h2]
  · split
    · simp [outside_of_fst ‹_›, h2]
    · simp [h2]

@[simp] theorem releaseHeld_outside (s : State) (t fc src n : Nat) : (s.releaseHeld t fc src n).outside bulk = s.outside bulk := by
  induction n generalizing s with
  | zero => rfl
  | succ n ih =>
    unfold State.releaseHeld
    dsimp only
    split
    · rfl
    · simp [ih]

@[simp] theorem execHoldListRelease_outside (t : TileIx) (fc : ClassIx) (src : Option Fid) (s : State) : Within bulk s (execHoldListRelease t fc src s) := by
  unfold execHoldListRelease
  split <;> simp

@[simp] theorem execCalendarSlotDue_outside (t : TileIx) (fc : ClassIx) (src : Option Fid) (s : State) : Within bulk s (execCalendarSlotDue t fc src s) := by
  unfold execCalendarSlotDue
  split <;> simp

@[simp] theorem egressTake_outside (s : State) (m : TMsg) : (s.egressTake m).1.outside bulk = s.outside bulk := by
  simp [State.egressTake]

@[simp] theorem takesAhead_outside (s : State) (m : TMsg) : (s.takesAhead m).outside bulk = s.outside bulk := by
  unfold State.takesAhead
  split <;> simp

@[simp] theorem mtrDrain_outside (s : State) (d : Nat) : (s.mtrDrain d).outside bulk = s.outside bulk := by
  simp [State.mtrDrain]

@[simp] theorem corePut_outside (s : State) (id : Nat) (o : Out) : (s.corePut id o).outside bulk = s.outside bulk := by
  unfold State.corePut
  dsimp only
  (repeat' split) <;> simp

@[simp] theorem collect_outside (s : State) : s.collect.outside bulk = s.outside bulk := by
  simp [State.collect]

@[simp] theorem mtrMove_outside (d : Nat) (r : MtrReq) (s : State) : (s.mtrMove d r).outside bulk = s.outside bulk := by
  simp [State.mtrMove]

@[simp] theorem mtrFill_outside (d src n room : Nat) (s : State) : (State.mtrFill d src n room s).outside bulk = s.outside bulk := by
  induction n generalizing room s with
  | zero => rfl
  | succ n ih =>
    unfold State.mtrFill
    dsimp only
    split <;> simp [ih]

@[simp] theorem mtrHeldBack_outside (s : State) (l : List MtrReq) : (s.mtrHeldBack l).outside bulk = s.outside bulk := by
  unfold State.mtrHeldBack
  refine outside_each (fun r t => ?_) _ _
  split
  · split
    · simp [outside_of_fst ‹_›]
    · rfl
  · rfl

@[simp] theorem kickSnoops_outside (s : State) : s.kickSnoops.outside bulk = s.outside bulk := by
  unfold State.kickSnoops
  refine outside_each (fun x t => ?_) _ _
  split <;> simp

@[simp] theorem execMortarBeatGrant_outside (d : StationIx) (s : State) : Within bulk s (execMortarBeatGrant d s) := by
  unfold execMortarBeatGrant
  extract_lets s1 reqs hot off s1' fit0 fits s2 s3
  have h1 : s1'.outside bulk = s.outside bulk := by simp [s1', s1]
  have h2 : s2.outside bulk = s1'.outside bulk := by simp [s2]
  have h3 : s3.outside bulk = s.outside bulk := by simp [s3, h2, h1]
  clear_value s3
  split
  · simp [h3]
  · extract_lets n s4 s5 s6
    have h4 : s4.outside bulk = s3.outside bulk := by simp [s4]
    have h5 : s5.outside bulk = s4.outside bulk := by simp [s5]
    have h6 : s6.outside bulk = s5.outside bulk := by simp [s6]
    simp [h6, h5, h4, h3]

@[simp] theorem cutQueue_outside (hS : S.Links) (s : State) (q : Nat) (l : List TMsg) : (s.cutQueue q l).outside S = s.outside S := by
  simp [State.cutQueue, hS, hS.facts]

@[simp] theorem execSpillFetch_outside (p : PortIx) (c : ClassIx) (egress : Bool) (s : State) :
    Within bulk s (execSpillFetch p c egress s) := by
  unfold execSpillFetch
  dsimp only
  (repeat' split) <;> simp

@[simp] theorem npOpen_outside (s : State) (p : Nat) (m : NetMsg) : (s.npOpen p m).outside bulk = s.outside bulk := by
  simp [State.npOpen]

theorem sendOne_outside {s t : State} {p : Nat} {m : TMsg} (h : s.sendOne p m = some t) : t.outside bulk = s.outside bulk := by
  unfold State.sendOne at h
  dsimp only at h
  split at h
  · cases h
  split at h
  · obtain ⟨u, hu, rfl⟩ := Option.map_eq_some_iff.mp h
    have h1 : u.outside bulk = s.outside bulk := linkSend_outside (by simp) hu
    simp [h1]
  split at h
  · cases h
    simp
  · cases h

@[simp] theorem drrServe_outside (s : State) (p c n : Nat) : (s.drrServe p c n).outside bulk = s.outside bulk := by
  induction n generalizing s with
  | zero => rfl
  | succ n ih =>
    unfold State.drrServe
    extract_lets q
    split
    · simp
    · extract_lets charge
      split
      · rfl
      split
      · rfl
      · next h =>
        have h1 := sendOne_outside h
        simp [ih, h1]

@[simp] theorem execEgressDrrTurn_outside (p : PortIx) (credit : BitVec 8) (s : State) : Within bulk s (execEgressDrrTurn p credit s) := by
  unfold execEgressDrrTurn
  extract_lets at0 order head ready
  clear_value ready
  split <;> simp

end Sys2Proof.Machine
end

section
namespace Sys2Proof.Machine

/-! ### Outside a scope, through Sys2Proof/Machine/Qos.lean -/

variable {S : Scope}

@[simp] theorem askMode_outside (hS : S.qos) (s : State) (t flows : Nat) : (s.askMode t flows).outside S = s.outside S := by
  simp [State.askMode, hS]

@[simp] theorem execOpQosFlowSet_outside (hS : S.out ∧ S.ev ∧ S.nalug ∧ S.otp ∧ S.mgmt ∧ S.qos ∧ S.LowRegs) (q : Req) (b : List Byte) (s : State) : Within S s (execOpQosFlowSet q b s) := by
  simp [execOpQosFlowSet, hS]

@[simp] theorem execOpQosFlowClear_outside (hS : S.out ∧ S.ev ∧ S.nalug ∧ S.otp ∧ S.mgmt ∧ S.qos ∧ S.LowRegs) (q : Req) (b : List Byte) (s : State) : Within S s (execOpQosFlowClear q b s) := by
  simp [execOpQosFlowClear, hS]

@[simp] theorem countFlows_outside (hS : S.PortRegs) (s : State) (t : Nat) : (s.countFlows t).outside S = s.outside S := by
  simp [State.countFlows, hS]

@[simp] theorem execFlowChangeApply_outside (hS : S.qos ∧ S.PortRegs) (s : State) : Within S s (execFlowChangeApply s) := by
  unfold execFlowChangeApply
  dsimp only
  (repeat' split) <;> simp [hS]

@[simp] theorem execTlQosCtlWrite_outside (hS : S.ev ∧ S.qos ∧ S.reg glbEvFifoOvfCnt ∧ S.PortRegs) (t : TileIx) (v : Word) (s : State) : Within S s (execTlQosCtlWrite t v s) := by
  refine ifPresent_outside (by simp [hS]) _ _ _ _ ?_
  dsimp only
  split <;> simp [hS]

@[simp] theorem execQosModeChange_outside (hS : S.ev ∧ S.qos ∧ S.reg glbEvFifoOvfCnt ∧ S.PortRegs) (t : TileIx) (s : State) : Within S s (execQosModeChange t s) := by
  simp [execQosModeChange, hS]

@[simp] theorem rsvFree_outside (hS : S.reg qosStatus) (s : State) : s.rsvFree.outside S = s.outside S := by
  simp [State.rsvFree, hS]

@[simp] theorem execOpQosReserve_outside (hS : S.out ∧ S.ev ∧ S.nalug ∧ S.otp ∧ S.mgmt ∧ S.qos ∧ S.LowRegs ∧ S.reg qosRefuseCnt ∧ S.reg qosStatus) (q : Req) (b : List Byte) (s : State) : Within S s (execOpQosReserve q b s) := by
  refine within_nalug_run (by simp [hS]) fun t => ?_
  dsimp only
  (repeat' split) <;> simp [hS]

@[simp] theorem execOpQosRelease_outside (hS : S.out ∧ S.ev ∧ S.nalug ∧ S.otp ∧ S.mgmt ∧ S.qos ∧ S.LowRegs ∧ S.reg qosStatus) (q : Req) (b : List Byte) (s : State) : Within S s (execOpQosRelease q b s) := by
  refine within_nalug_run (by simp [hS]) fun t => ?_
  split <;> simp [hS]

@[simp] theorem execOpQosTargetSet_outside (hS : S.out ∧ S.ev ∧ S.nalug ∧ S.otp ∧ S.mgmt ∧ S.qos ∧ S.LowRegs) (q : Req) (b : List Byte) (s : State) : Within S s (execOpQosTargetSet q b s) := by
  simp [execOpQosTargetSet, hS]

@[simp] theorem rateEdge_outside (s : State) : s.rateEdge.outside bulk = s.outside bulk := by
  simp [State.rateEdge]

@[simp] theorem execQosRescale_outside (hS : S.ev ∧ S.qos ∧ S.reg glbEvFifoOvfCnt ∧ S.reg qosScaleCnt) (tgt : Fin 4096) (s : State) : Within S s (execQosRescale tgt s) := by
  simp [execQosRescale, hS]

@[simp] theorem refillFlows_outside (s : State) : s.refillFlows.outside bulk = s.outside bulk := by
  simp [State.refillFlows]

end Sys2Proof.Machine
end

section
namespace Sys2Proof.Machine

/-! ### Outside a scope, through Sys2Proof/Machine/Rings.lean -/

variable {S : Scope}

@[simp] theorem inEng_outside (hS : S.insts ∧ S.eng) (s : State) (f : EngS → EngS) : (s.inEng f).outside S = s.outside S := by
  simp [State.inEng, hS]

@[simp] theorem setInst_outside (hS : S.insts) (s : State) (i : Nat) (x : Inst) : (s.setInst i x).outside S = s.outside S := by
  simp [State.setInst, State.inEng, hS]

@[simp] theorem setRing_outside (hS : ∀ o, S.reg o) (s : State) (i st err : Nat) : (s.setRing i st err).outside S = s.outside S := by
  simp [State.setRing, hS]

@[simp] theorem latchShares_outside (s : State) : s.latchShares.outside bulk = s.outside bulk := by
  simp [State.latchShares]

@[simp] theorem execShareChange_outside (hS : S.ev ∧ S.insts ∧ S.eng ∧ ∀ o, S.reg o) (s : State) : Within S s (execShareChange s) := by
  simp [execShareChange, hS]

@[simp] theorem sendVec_outside (hS : S.out ∧ S.pba) (s : State) (i : Nat) : (s.sendVec i).outside S = s.outside S := by
  unfold State.sendVec
  split <;> simp [hS]

@[simp] theorem insSignal_outside (hS : S.out ∧ S.pba ∧ ∀ o, S.reg o) (s : State) (i : Nat) : (s.insSignal i).outside S = s.outside S := by
  simp [State.insSignal, hS]

@[simp] theorem execInsIrqCtlWrite_outside (i : InstIx) (v : Word) (s : State) : Within bulk s (execInsIrqCtlWrite i v s) := by
  simp [execInsIrqCtlWrite]

@[simp] theorem publish_outside (hS : S.out ∧ S.insts ∧ S.pba ∧ ∀ o, S.reg o) (s : State) (i : Nat) : (s.publish i).outside S = s.outside S := by
  simp [State.publish, hS]

@[simp] theorem ringSettle_outside (hS : S.out ∧ S.insts ∧ S.pba ∧ ∀ o, S.reg o) (s : State) (i : Nat) : (s.ringSettle i).outside S = s.outside S := by
  simp [State.ringSettle, hS]

@[simp] theorem stopInst_outside (hS : S.ev ∧ S.bind ∧ S.home ∧ S.reads ∧ S.insts ∧ ∀ o, S.reg o) (s : State) (i st : Nat) : (s.stopInst i st).outside S = s.outside S := by
  unfold State.stopInst
  dsimp only
  split <;> simp [hS]

@[simp] theorem wbFailed_outside (s : State) (i num : Nat) : (s.wbFailed i num).outside bulk = s.outside bulk := by
  simp [State.wbFailed]

@[simp] theorem freeEngine_outside (hS : S.insts ∧ ∀ o, S.reg o) (s : State) (i : Nat) : (s.freeEngine i).outside S = s.outside S := by
  unfold State.freeEngine
  dsimp only
  split <;> simp [hS]

@[simp] theorem ringError_outside (hS : S.ev ∧ S.insts ∧ ∀ o, S.reg o) (s : State) (i err : Nat) : (s.ringError i err).outside S = s.outside S := by
  simp [State.ringError, hS]

@[simp] theorem execHeadPublish_outside (hS : S.out ∧ S.ev ∧ S.insts ∧ S.pba ∧ ∀ o, S.reg o) (i : InstIx) (good : Bool) (s : State) : Within S s (execHeadPublish i good s) := by
  simp [execHeadPublish, hS]

theorem poolCheck_outside (hS : S.ev ∧ ∀ o, S.reg o) {s : State} {i addr len : Nat} {write : Bool} {x : Nat × Nat × (State → State)}
    (h : s.poolCheck i addr len write = some x) (t : State) : (x.2.2 t).outside S = t.outside S := by
  unfold State.poolCheck at h
  dsimp only at h
  split at h
  · cases h
    simp [hS]
  · obtain ⟨y, -, hy⟩ := List.exists_of_findSome?_eq_some h
    split at hy
    · cases hy
      simp [hS]
    · split at hy
      · cases hy
      split at hy
      · cases hy
        rfl
      split at hy
      · cases hy
        simp [hS]
      · cases hy

@[simp] theorem sendChecks_outside (hS : S.out ∧ S.rem) (s : State) (i space addr len : Nat) (write : Bool) : (s.sendChecks i space addr len write).outside S = s.outside S := by
  unfold State.sendChecks
  split
  · simp [hS]
  split
  · rfl
  · extract_lets l sl
    refine outside_each (fun n t => ?_) _ _
    dsimp only
    split <;> simp [hS]

theorem rangeCheck_outside (hS : S.ev ∧ ∀ o, S.reg o) {s : State} {i k space addr len : Nat} {write : Bool} {ext : List (Nat × Nat × Nat)} {x : Nat × Nat × (State → State)}
    (h : s.rangeCheck i k space addr len write ext = some x) (t : State) : (x.2.2 t).outside S = t.outside S := by
  unfold State.rangeCheck at h
  extract_lets out own at h
  have hown : ∀ a, own = some a → (a.2.2 t).outside S = t.outside S := by
    intro a ha
    by_cases hs : space = 0
    · exact poolCheck_outside (by simp [hS]) (by simpa [own, hs] using ha) t
    · simp [hS, own, hs] at ha
  clear_value own out
  split at h
  · split at h
    · cases h
      exact hown _ rfl
    · cases h
      rfl
  · cases h
    exact hown _ rfl
  · cases h
    rfl
  · cases h

@[simp] theorem execRingEnable_outside (hS : S.out ∧ S.ev ∧ S.insts ∧ S.rem ∧ ∀ o, S.reg o) (i : InstIx) (ext : List (Nat × Nat × Nat)) (s : State) : Within S s (execRingEnable i ext s) := by
  unfold execRingEnable
  split
  · simp [hS]
  extract_lets s1 len sp s2 s3 ring wb badForm hd ins
  have h1 : s1.outside S = s.outside S := by simp [hS, s1]
  have h3 : s3.outside S = s.outside S := by simp [hS, s3, s2, h1]
  have hring : ∀ a, ring = some a → (a.2.2 s3).outside S = s.outside S := by
    intro a ha
    obtain ⟨w, -, hw⟩ := List.exists_of_findSome?_eq_some ha
    exact (rangeCheck_outside (by simp [hS]) hw s3).trans h3
  have hwb : ∀ a, wb = some a → (a.2.2 s3).outside S = s.outside S := by
    intro a ha
    by_cases hb : s.bit (insHeadWbCtl i) 31 = true
    · exact (rangeCheck_outside (by simp [hS]) (by simpa [wb, hb] using ha) s3).trans h3
    · simp [hS, wb, hb] at ha
  clear_value ring wb badForm ins s3
  split
  · simp [hS, h1]
  split
  · simp [hS, h3]
  · simp [hS, hring _ rfl]
  · simp [hS, hwb _ rfl]
  · simp [hS, h3]

@[simp] theorem execRingDisable_outside (hS : S.out ∧ S.ev ∧ S.bind ∧ S.home ∧ S.reads ∧ S.insts ∧ S.pba ∧ ∀ o, S.reg o) (i : InstIx) (s : State) : Within S s (execRingDisable i s) := by
  unfold execRingDisable
  dsimp only
  (repeat' split) <;> simp [hS]

@[simp] theorem execInsDoorbellWrite_outside (hS : S.ev ∧ S.insts ∧ ∀ o, S.reg o) (i : InstIx) (tail : Word) (s : State) : Within S s (execInsDoorbellWrite i tail s) := by
  simp [execInsDoorbellWrite, hS]

@[simp] theorem execRingUnitFetch_outside (hS : S.out ∧ S.ev ∧ S.insts ∧ S.rem ∧ ∀ o, S.reg o) (i : InstIx) (data : Option (List Byte)) (s : State) :
    Within S s (execRingUnitFetch i data s) := by
  unfold execRingUnitFetch
  split <;> simp [hS]

@[simp] theorem execRefetch_outside (hS : S.insts) (i : InstIx) (s : State) : Within S s (execRefetch i s) := by
  simp [execRefetch, hS]

@[simp] theorem engData_outside (hS : S.out ∧ S.ev ∧ S.insts ∧ S.rem ∧ ∀ o, S.reg o) (s : State) (i space addr : Nat) (b : List Byte) : (s.engData i space addr b).outside S = s.outside S := by
  unfold State.engData
  dsimp only
  (repeat' split) <;> simp [hS]

@[simp] theorem pmcEng_outside (hS : S.ev ∧ ∀ o, S.reg o) (s : State) (i ev n : Nat) : (s.pmcEng i ev n).outside S = s.outside S := by
  simp [State.pmcEng, hS]

@[simp] theorem insCharge_outside (hS : S.insts) (s : State) (i c : Nat) : (s.insCharge i c).outside S = s.outside S := by
  simp [State.insCharge, hS]

@[simp] theorem walkTier_outside (hS : S.insts) (s : State) (fuel : Nat) (l : List Nat) (room : Nat) (got : List Nat) :
    (s.walkTier fuel l room got).1.outside S = s.outside S := by
  induction fuel generalizing s l got with
  | zero => rfl
  | succ fuel ih =>
    cases l with
    | nil => rfl
    | cons i r => simp [State.walkTier, ih, hS]

@[simp] theorem chooseInsts_outside (hS : S.insts ∧ S.eng) (s : State) (c room : Nat) (skip : List Nat) : (s.chooseInsts c room skip).1.outside S = s.outside S := by
  unfold State.chooseInsts
  extract_lets ready tier
  have htier : ∀ t k l n, (tier t k l n).1.outside S = t.outside S := by
    intro t k l n
    simp only [tier]
    split <;> simp [hS]
  clear_value tier
  simp [hS, htier]

@[simp] theorem beginStep_outside (hS : S.out ∧ S.insts ∧ S.rem) (s : State) (i : Nat) : (s.beginStep i).outside S = s.outside S := by
  unfold State.beginStep
  dsimp only
  split <;> simp [hS]

@[simp] theorem takeEngine_outside (hS : S.out ∧ S.ev ∧ S.insts ∧ S.rem ∧ ∀ o, S.reg o) (s : State) (i e : Nat) : (s.takeEngine i e).outside S = s.outside S := by
  unfold State.takeEngine
  dsimp only
  split <;> simp [hS]

@[simp] theorem schedCluster_outside (s : State) (c : Nat) : (s.schedCluster c).outside bulk = s.outside bulk := by
  unfold State.schedCluster
  dsimp only
  refine (outside_each (fun e t => ?_) _ _).trans (by simp)
  cases t.servedBy e with
  | none => cases tget 0 t.eng.plan e <;> simp
  | some i => cases tget 0 (t.freeEngine i).eng.plan e <;> simp

@[simp] theorem boundary_outside (hS : S.out ∧ S.ev ∧ S.insts ∧ S.eng ∧ S.rem ∧ ∀ o, S.reg o) (s : State) (i : Nat) : (s.boundary i).outside S = s.outside S := by
  unfold State.boundary
  dsimp only
  (repeat' split) <;> simp [hS]

@[simp] theorem refillInsts_outside (s : State) : s.refillInsts.outside bulk = s.outside bulk := by
  unfold State.refillInsts
  refine outside_each (fun i t => ?_) _ _
  dsimp only
  split <;> simp

@[simp] theorem execT2mSend_outside (i : InstIx) (s : State) : Within bulk s (execT2mSend i s) := by
  simp [execT2mSend]

@[simp] theorem execT2mAck_outside (i : InstIx) (s : State) : Within bulk s (execT2mAck i s) := by
  simp [execT2mAck]

@[simp] theorem execM2tSend_outside (i : InstIx) (s : State) : Within bulk s (execM2tSend i s) := by
  simp [execM2tSend]

@[simp] theorem execM2tAck_outside (i : InstIx) (s : State) : Within bulk s (execM2tAck i s) := by
  simp [execM2tAck]

@[simp] theorem putBytes_outside (s : State) (base off : Nat) (l : List Byte) : (s.putBytes base off l).outside bulk = s.outside bulk := by
  induction l generalizing s off with
  | nil => rfl
  | cons b r ih => simp [State.putBytes, ih]

@[simp] theorem execMailboxBufferWrite_outside (i : InstIx) (tenant m2t : Bool) (off : Fin 256) (b : List Byte) (s : State) : Within bulk s (execMailboxBufferWrite i tenant m2t off b s) := by
  simp [execMailboxBufferWrite]

end Sys2Proof.Machine
end

section
namespace Sys2Proof.Machine

/-! ### Outside a scope, through Sys2Proof/Machine/Engines.lean -/

variable {S : Scope}

@[simp] theorem beginJob_outside (hS : S.ev ∧ S.insts ∧ S.eng ∧ ∀ o, S.reg o) (s : State) (i : Nat) (b : List Byte) (fin : Option (Nat × Nat)) : (s.beginJob i b fin).outside S = s.outside S := by
  unfold State.beginJob
  dsimp only
  split <;> simp [hS]

theorem opndCheck_outside (hS : S.ev ∧ ∀ o, S.reg o) {s : State} {i : Nat} {ops : List Opnd} {ext : List (Nat × Nat × Nat)} {x : Nat × Nat × Nat × (State → State)}
    (h : s.opndCheck i ops ext = some x) (t : State) : (x.2.2.2 t).outside S = t.outside S := by
  obtain ⟨o, -, ho⟩ := List.exists_of_findSome?_eq_some h
  obtain ⟨y, hy, rfl⟩ := Option.map_eq_some_iff.mp ho
  exact rangeCheck_outside (by simp [hS]) hy t

@[simp] theorem checkOpnds_outside (hS : S.out ∧ S.rem) (s : State) (i : Nat) (ops : List Opnd) : (s.checkOpnds i ops).outside S = s.outside S := by
  simp [State.checkOpnds, hS]

@[simp] theorem inJob_outside (hS : S.insts) (s : State) (i : Nat) (f : Job → Job) : (s.inJob i f).outside S = s.outside S := by
  simp [State.inJob, hS]

@[simp] theorem startEntry_outside (hS : S.out ∧ S.ev ∧ S.insts ∧ S.eng ∧ S.rem ∧ ∀ o, S.reg o) (s : State) (i op : Nat)
    (chg : List Byte → Nat) (ops : List Byte → List Opnd) (ext : List (Nat × Nat × Nat)) {go : State → List Byte → State}
    (bad : List Byte → Option Nat) (h : ∀ t b, (go t b).outside S = t.outside S) :
    (s.startEntry i op chg ops ext go bad).outside S = s.outside S := by
  unfold State.startEntry
  extract_lets x b o mine wrong c tp s1 ins s2 t
  have h1 : s1.outside S = s.outside S := by simp [hS, s1]
  have h2 : s2.outside S = s.outside S := by simp [hS, s2]
  have ht : t.outside S = s.outside S := by simp [hS, t, h, h2]
  clear_value mine wrong ins s1 s2 t
  split
  · rfl
  split
  · rfl
  split
  · simp [hS]
  split
  · simp [hS]
  split
  · simp [hS]
  split
  · rfl
  split
  · simp [hS, h1]
  split
  · simp [hS, h2]
  · simp [hS, h2]
  · simp [hS, h2]
  · next hf =>
    have h3 := opndCheck_outside (S := S) (by simp [hS]) hf s2
    simp [hS, h3, h2]
  · simp [hS, ht]

@[simp] theorem execNop_outside (hS : S.out ∧ S.ev ∧ S.insts ∧ S.eng ∧ S.rem ∧ ∀ o, S.reg o) (i : InstIx) (ext : List (Nat × Nat × Nat)) (s : State) : Within S s (execNop i ext s) := by
  simp [execNop, hS]

@[simp] theorem execCopy_outside (hS : S.out ∧ S.ev ∧ S.insts ∧ S.eng ∧ S.rem ∧ ∀ o, S.reg o) (i : InstIx) (ext : List (Nat × Nat × Nat)) (s : State) : Within S s (execCopy i ext s) := by
  simp [execCopy, hS]

@[simp] theorem execFill_outside (hS : S.out ∧ S.ev ∧ S.insts ∧ S.eng ∧ S.rem ∧ ∀ o, S.reg o) (i : InstIx) (ext : List (Nat × Nat × Nat)) (s : State) : Within S s (execFill i ext s) := by
  simp [execFill, hS]

@[simp] theorem execCompare_outside (hS : S.out ∧ S.ev ∧ S.insts ∧ S.eng ∧ S.rem ∧ ∀ o, S.reg o) (i : InstIx) (ext : List (Nat × Nat × Nat)) (s : State) : Within S s (execCompare i ext s) := by
  simp [execCompare, hS]

@[simp] theorem execCrc32c_outside (hS : S.out ∧ S.ev ∧ S.insts ∧ S.eng ∧ S.rem ∧ ∀ o, S.reg o) (i : InstIx) (ext : List (Nat × Nat × Nat)) (s : State) : Within S s (execCrc32c i ext s) := by
  simp [execCrc32c, hS]

@[simp] theorem execReduce_outside (hS : S.out ∧ S.ev ∧ S.insts ∧ S.eng ∧ S.rem ∧ ∀ o, S.reg o) (i : InstIx) (ext : List (Nat × Nat × Nat)) (s : State) : Within S s (execReduce i ext s) := by
  simp [execReduce, hS]

@[simp] theorem execHamper_outside (i : InstIx) (rec : List Byte) (ext : List (Nat × Nat × Nat)) (s : State) : Within bulk s (execHamper i rec ext s) := by
  unfold execHamper
  extract_lets len
  split
  · simp
  · refine (within_next _ _).mpr (startEntry_outside (by simp) _ _ _ _ _ _ _ fun t b => ?_)
    extract_lets host v t0 t1 t2 x num t3 t4
    have h2 : t2.outside bulk = t.outside bulk := by simp [t2, t1, t0]
    have h4 : t4.outside bulk = t2.outside bulk := by
      cases h : x.eng <;> simp [t4, t3, h]
    simp [h4, h2]

@[simp] theorem writeBack_outside (s : State) (i pos st res : Nat) : (s.writeBack i pos st res).outside bulk = s.outside bulk := by
  simp [State.writeBack]

@[simp] theorem jobBack_outside (s : State) (i pos st res : Nat) : (s.jobBack i pos st res).outside bulk = s.outside bulk := by
  simp [State.jobBack]

@[simp] theorem entryDone_outside (s : State) (i num : Nat) : (s.entryDone i num).outside bulk = s.outside bulk := by
  simp [State.entryDone]

@[simp] theorem hamperWbFail_outside (s : State) (i : Nat) : (s.hamperWbFail i).outside bulk = s.outside bulk := by
  unfold State.hamperWbFail
  split <;> simp

@[simp] theorem execJobComplete_outside (i : InstIx) (good : Bool) (s : State) : Within bulk s (execJobComplete i good s) := by
  unfold execJobComplete
  dsimp only
  (repeat' split) <;> simp

@[simp] theorem execHamperEntryOutcome_outside (i : InstIx) (s : State) : Within bulk s (execHamperEntryOutcome i s) := by
  unfold execHamperEntryOutcome
  dsimp only
  (repeat' split) <;> simp

theorem stepWork_outside (hS : S.out ∧ S.ev ∧ S.insts ∧ S.rem ∧ ∀ o, S.reg o) {s : State} {i : Nat} {j : Job} {rd : List (List Byte)} {part : Bool} {x : State × Job × Nat}
    (h : s.stepWork i j rd part = some x) : x.1.outside S = s.outside S := by
  unfold State.stepWork at h
  extract_lets b sz a n0 n hi last at h
  clear_value last
  split at h
  · split at h
    · cases h
    · cases h
      simp [hS]
  · split at h
    · cases h
      rfl
    · cases h
      simp [hS]
  · split at h
    · cases h
    split at h
    · cases h
      rfl
    · cases h
      rfl
  · split at h
    · cases h
    · cases h
      rfl
  · split at h
    · cases h
    split at h
    split at h
    · cases h
      simp [hS]
    · obtain e | e := (ite_eq_or_eq _ _ _).imp h.symm.trans h.symm.trans
      · cases e
        simp [hS]
      · cases e
        rfl
  · cases h

@[simp] theorem readsDone_outside (hS : S.out ∧ S.rem) (s : State) (i : Nat) (j : Job) : (s.readsDone i j).outside S = s.outside S := by
  simp [State.readsDone, hS]

@[simp] theorem atsEnd_outside (hS : S.out) (s : State) (i : Nat) : (s.atsEnd i).outside S = s.outside S := by
  simp [State.atsEnd, hS]

@[simp] theorem execJobStepBoundary_outside (hS : S.out ∧ S.ev ∧ S.insts ∧ S.eng ∧ S.rem ∧ ∀ o, S.reg o) (i : InstIx) (rd : List (List Byte)) (bad : Option (Bool × Nat)) (s : State) : Within S s (execJobStepBoundary i rd bad s) := by
  unfold execJobStepBoundary
  extract_lets x
  split
  · split
    · simp [hS]
    split
    · simp [hS]
    · next h =>
      have h1 : _ = s.outside S := (stepWork_outside (by simp [hS]) h).trans (readsDone_outside (by simp [hS]) s _ _)
      simp only at h1
      simp [hS, h1]
  · simp [hS]

@[simp] theorem execAtsInvalidation_outside (hS : S.out ∧ S.insts) (i : InstIx) (used : Bool) (s : State) : Within S s (execAtsInvalidation i used s) := by
  unfold execAtsInvalidation
  dsimp only
  split <;> simp [hS]

@[simp] theorem openPage_outside (s : State) (i sl page : Nat) : (s.openPage i sl page).outside bulk = s.outside bulk := by
  simp [State.openPage]

@[simp] theorem execPageMove_outside (i : InstIx) (ext : List (Nat × Nat × Nat)) (s : State) : Within bulk s (execPageMove i ext s) := by
  simp [execPageMove]

@[simp] theorem execPageMoveStepDone_outside (i : InstIx) (s : State) : Within bulk s (execPageMoveStepDone i s) := by
  unfold execPageMoveStepDone
  dsimp only
  (repeat' split) <;> simp

@[simp] theorem insReset_outside (s : State) (i : Nat) : (s.insReset i).outside bulk = s.outside bulk := by
  unfold State.insReset
  dsimp only
  (repeat' split) <;> simp

@[simp] theorem execOpInsBind_outside (hS : S.out ∧ S.ev ∧ S.nalug ∧ S.otp ∧ S.mgmt ∧ S.insts ∧ ∀ o, S.reg o) (q : Req) (b : List Byte) (s : State) : Within S s (execOpInsBind q b s) := by
  refine within_nalug_run (by simp [hS]) fun t => ?_
  split <;> simp [hS]

@[simp] theorem execOpInsSetRate_outside (hS : S.out ∧ S.ev ∧ S.nalug ∧ S.otp ∧ S.mgmt ∧ S.insts ∧ ∀ o, S.reg o) (q : Req) (b : List Byte) (s : State) : Within S s (execOpInsSetRate q b s) := by
  simp [execOpInsSetRate, hS]

@[simp] theorem moveInsts_outside (s : State) (c : Nat) : (s.moveInsts c).outside bulk = s.outside bulk := by
  unfold State.moveInsts
  split
  · rfl
  · refine outside_each (fun i t => ?_) _ _
    split <;> simp

@[simp] theorem engineGone_outside (e : Nat) (s : State) : (s.engineGone e).outside bulk = s.outside bulk := by
  unfold State.engineGone
  split <;> simp

@[simp] theorem enginesNone_outside (s : State) : s.enginesNone.outside bulk = s.outside bulk := by
  simp [State.enginesNone]

@[simp] theorem enginesLost_outside (s : State) (es : List Nat) : (s.enginesLost es).outside bulk = s.outside bulk := by
  simp [State.enginesLost]

@[simp] theorem pageWrite_outside (s : State) (i : Nat) (tenant : Bool) (o : Nat) (w : Word) (ext : List (Nat × Nat × Nat)) :
    (s.pageWrite i tenant o w ext).outside bulk = s.outside bulk := by
  unfold State.pageWrite
  extract_lets ii get idle en keep sp s1 ins t1 t2 t3
  have hget : ∀ u r, u.outside bulk = s.outside bulk → Within bulk u r → (get r).outside bulk = s.outside bulk := by
    rintro u _ hu ⟨t, rfl, hr⟩
    exact hr.trans hu
  have h1 : s1.outside bulk = s.outside bulk := by simp [s1]
  have ht1 : t1.outside bulk = s.outside bulk := outside_of_ite (hget s _ rfl (execT2mSend_outside _ _)) rfl
  have ht2 : t2.outside bulk = s.outside bulk := by
    refine outside_of_ite ?_ ht1
    split
    · next h => exact ((execT2mAck_outside _ _).next h).trans ht1
    · exact ht1
  have ht3 : t3.outside bulk = s.outside bulk := by
    refine outside_of_ite ?_ ht2
    split
    · next h => exact ((execM2tSend_outside _ _).next h).trans ht2
    · exact ht2
  clear_value t1 t2 t3 s1 get ins
  refine outside_of_ite (hget s _ rfl (execInsDoorbellWrite_outside (by simp) _ _ _)) (outside_of_ite (by simp) (outside_of_ite (by simp) ?_))
  refine outside_of_ite ?_ (outside_of_ite (by simp) (outside_of_ite (by simp) (outside_of_ite (by simp) (outside_of_ite (by simp) ?_))))
  · exact outside_of_ite (hget s1 _ h1 (execRingEnable_outside (by simp) _ _ _)) (outside_of_ite (hget s1 _ h1 (execRingDisable_outside (by simp) _ _)) h1)
  refine outside_of_ite (hget s _ rfl (execInsIrqCtlWrite_outside _ _ _)) (outside_of_ite ?_ ?_)
  · refine outside_of_ite ?_ ht3
    split
    · next h => exact ((execM2tAck_outside _ _).next h).trans ht3
    · exact ht3
  · exact outside_of_ite (hget s _ rfl (execMailboxBufferWrite_outside _ _ _ _ _ _))
      (outside_of_ite (hget s _ rfl (execMailboxBufferWrite_outside _ _ _ _ _ _)) rfl)

@[simp] theorem execInstanceWindowAccess_outside (v : VcsIx) (i : InstIx) (off : Fin 4096) (wr : Option (List Byte)) (n : Nat) (ext : List (Nat × Nat × Nat)) (s : State) :
    Within bulk s (execInstanceWindowAccess v i off wr n ext s) := by
  unfold execInstanceWindowAccess
  dsimp only
  (repeat' split) <;> simp

@[simp] theorem execCheck_outside (fid : Fid) (tag : Word) (slice : SliceIx) (off : BitVec 22) (rights : BitVec 2) (len : BitVec 64) (s : State) :
    Within bulk s (execCheck fid tag slice off rights len s) := by
  unfold execCheck
  dsimp only
  (repeat' split) <;> simp

end Sys2Proof.Machine
end

section
namespace Sys2Proof.Machine

/-! ### Outside a scope, through Sys2Proof/Machine/LinkDown.lean -/

variable {S : Scope}

@[simp] theorem setLn_outside (hS : S.PortRegs) (s : State) (p l st : Nat) : (s.setLn p l st).outside S = s.outside S := by
  simp [State.setLn, hS]

@[simp] theorem demotePort_outside (hS : S.Links) (s : State) (p : Nat) : (s.demotePort p).outside S = s.outside S := by
  refine outside_each (fun t x => outside_each (fun k y => ?_) _ _) _ _
  dsimp only
  split
  · rfl
  · exact inBind_outside (by simp [hS, hS.facts]) _ _

@[simp] theorem rerouteQueues_outside (hS : S.Links) (s : State) (p : Nat) : (s.rerouteQueues p).outside S = s.outside S := by
  unfold State.rerouteQueues
  refine outside_each (fun c t => ?_) _ _
  extract_lets q go t1 t2
  have hgo : ∀ m y stay, stay.outside S = y.outside S → (go m y stay).outside S = y.outside S := by
    intro m y stay hs
    simp only [go]
    split
    · split
      · simp [hS]
      split
      · next z hz => exact (outside_of_fst hz).trans (by simp [hS])
      · exact hs
    · simp [hS]
  have h1 : t1.outside S = t.outside S :=
    outside_each (fun m y => (hgo _ _ _ (by simp [hS, hS.facts])).trans (by simp [hS, hS.facts])) _ _
  have h2 : t2.outside S = t1.outside S :=
    outside_each (fun x y => (hgo _ _ _ (by simp [hS, hS.facts])).trans (by simp [hS, hS.facts])) _ _
  simp [hS, h2, h1]

@[simp] theorem errCount_outside (hS : S.lnk) (s : State) (p n : Nat) : (s.errCount p n).outside S = s.outside S := by
  simp [State.errCount, hS]

@[simp] theorem fallback_outside (hS : S.Links) (s : State) (p : Nat) : (s.fallback p).outside S = s.outside S := by
  simp [State.fallback, hS, hS.facts]

@[simp] theorem setLane_outside (hS : S.lane) (s : State) (p l : Nat) (x : LaneS) : (s.setLane p l x).outside S = s.outside S := by
  simp [State.setLane, hS]

@[simp] theorem laneOff_outside (hS : S.lane ∧ S.PortRegs) (s : State) (p l : Nat) : (s.laneOff p l).outside S = s.outside S := by
  simp [State.laneOff, hS]

@[simp] theorem lanesOff_outside (hS : S.Links) (s : State) (p : Nat) : (s.lanesOff p).outside S = s.outside S := by
  simp [State.lanesOff, hS, hS.facts]

@[simp] theorem linkDown_outside (hS : S.Links) (s : State) (p cause : Nat) : (s.linkDown p cause).outside S = s.outside S := by
  simp [State.linkDown, hS, hS.facts]

@[simp] theorem spareFlit_outside (hS : S.out ∧ S.lnk ∧ S.PortRegs) (s : State) (p op lane : Nat) (rot : Bool) (cw : Nat × Nat) :
    (s.spareFlit p op lane rot cw).outside S = s.outside S := by
  simp [State.spareFlit, hS]

@[simp] theorem setSpare_outside (hS : S.PortRegs) (s : State) (p st lane : Nat) : (s.setSpare p st lane).outside S = s.outside S := by
  simp [State.setSpare, hS]

@[simp] theorem spareBegin_outside (hS : S.out ∧ S.lnk ∧ S.PortRegs) (s : State) (p lane : Nat) (rot : Bool) : (s.spareBegin p lane rot).outside S = s.outside S := by
  simp [State.spareBegin, hS]

@[simp] theorem noSpare_outside (s : State) (p : Nat) (failed : Bool) : (s.noSpare p failed).outside bulk = s.outside bulk := by
  simp [State.noSpare]

@[simp] theorem replaceLane_outside (s : State) (p lane : Nat) (failed : Bool) : (s.replaceLane p lane failed).outside bulk = s.outside bulk := by
  simp [State.replaceLane]

end Sys2Proof.Machine
end

section
namespace Sys2Proof.Machine

/-! ### Outside a scope, through Sys2Proof/Machine/Lanes.lean -/

variable {S : Scope}

@[simp] theorem sendTrain_outside (hS : S.out ∧ S.lane) (s : State) (p l : Nat) : (s.sendTrain p l).outside S = s.outside S := by
  simp [State.sendTrain, hS]

@[simp] theorem laneTo_outside (hS : S.out ∧ S.lane ∧ S.PortRegs) (s : State) (p l st : Nat) : (s.laneTo p l st).outside S = s.outside S := by
  simp [State.laneTo, hS]

@[simp] theorem checkLanes_outside (s : State) (p : Nat) : (s.checkLanes p).outside bulk = s.outside bulk := by
  simp [State.checkLanes]

@[simp] theorem laneFail_outside (s : State) (p l cause : Nat) : (s.laneFail p l cause).outside bulk = s.outside bulk := by
  simp [State.laneFail]

@[simp] theorem execLaneReceiverDetected_outside (hS : S.out ∧ S.lane ∧ S.PortRegs) (p : PortIx) (l : LaneIx) (s : State) : Within S s (execLaneReceiverDetected p l s) := by
  simp [execLaneReceiverDetected, hS]

@[simp] theorem execLaneDetectTimeout_outside (p : PortIx) (l : LaneIx) (s : State) : Within bulk s (execLaneDetectTimeout p l s) := by
  simp [execLaneDetectTimeout]

@[simp] theorem sweepStart_outside (hS : S.lane ∧ S.PortRegs) (s : State) (p l : Nat) : (s.sweepStart p l).outside S = s.outside S := by
  simp [State.sweepStart, hS]

@[simp] theorem execLanePatternFound_outside (hS : S.out ∧ S.lane ∧ S.PortRegs) (p : PortIx) (l : LaneIx) (inv : Bool) (blocks : List Word) (s : State) :
    Within S s (execLanePatternFound p l inv blocks s) := by
  simp [execLanePatternFound, hS]

@[simp] theorem execLaneIdentTimeout_outside (p : PortIx) (l : LaneIx) (s : State) : Within bulk s (execLaneIdentTimeout p l s) := by
  simp [execLaneIdentTimeout]

@[simp] theorem laneNext_outside (hS : S.out ∧ S.lane ∧ S.PortRegs) (s : State) (p l st : Nat) : (s.laneNext p l st).outside S = s.outside S := by
  simp [State.laneNext, hS]

@[simp] theorem execLaneSweepDwellEnd_outside (p : PortIx) (l : LaneIx) (height : Byte) (s : State) :
    Within bulk s (execLaneSweepDwellEnd p l height s) := by
  simp [execLaneSweepDwellEnd]

@[simp] theorem execLaneDfeSettled_outside (hS : S.out ∧ S.lane ∧ S.PortRegs) (p : PortIx) (l : LaneIx) (settled : Bool) (d0 d1 : Word) (s : State) :
    Within S s (execLaneDfeSettled p l settled d0 d1 s) := by
  simp [execLaneDfeSettled, hS]

@[simp] theorem laneLock_outside (hS : S.out ∧ S.lane ∧ S.PortRegs) (s : State) (p l : Nat) : (s.laneLock p l).outside S = s.outside S := by
  simp [State.laneLock, hS]

@[simp] theorem execLaneCheckPass_outside (hS : S.out ∧ S.lane ∧ S.PortRegs) (p : PortIx) (l : LaneIx) (heights : List Byte) (s : State) :
    Within S s (execLaneCheckPass p l heights s) := by
  simp [execLaneCheckPass, hS]

@[simp] theorem execLaneCheckTimeout_outside (p : PortIx) (l : LaneIx) (s : State) : Within bulk s (execLaneCheckTimeout p l s) := by
  simp [execLaneCheckTimeout]

@[simp] theorem execLaneStandbyEnter_outside (p : PortIx) (l : LaneIx) (s : State) : Within bulk s (execLaneStandbyEnter p l s) := by
  simp [execLaneStandbyEnter]

@[simp] theorem relockStart_outside (hS : S.lane) (s : State) (p l : Nat) : (s.relockStart p l).outside S = s.outside S := by
  simp [State.relockStart, hS]

@[simp] theorem execLaneRelockRequest_outside (hS : S.lane) (p : PortIx) (l : LaneIx) (s : State) : Within S s (execLaneRelockRequest p l s) := by
  simp [execLaneRelockRequest, hS]

@[simp] theorem execLaneRelockDone_outside (hS : S.out ∧ S.lane ∧ S.PortRegs) (p : PortIx) (l : LaneIx) (s : State) : Within S s (execLaneRelockDone p l s) := by
  unfold execLaneRelockDone
  dsimp only
  (repeat' split) <;> simp [hS]

@[simp] theorem laneEv_outside (hS : S.ev ∧ S.reg glbEvFifoOvfCnt) (s : State) (p l cause : Nat) : (s.laneEv p l cause).outside S = s.outside S := by
  simp [State.laneEv, hS]

@[simp] theorem execLaneRelockTimeout_outside (hS : S.out ∧ S.ev ∧ S.lane ∧ S.reg glbEvFifoOvfCnt ∧ S.PortRegs) (p : PortIx) (l : LaneIx) (s : State) : Within S s (execLaneRelockTimeout p l s) := by
  simp [execLaneRelockTimeout, hS]

@[simp] theorem cxRecover_outside (s : State) (p : Nat) : (s.cxRecover p).outside bulk = s.outside bulk := by
  simp [State.cxRecover]

@[simp] theorem fabLaneLost_outside (s : State) (p l : Nat) : (s.fabLaneLost p l).outside bulk = s.outside bulk := by
  unfold State.fabLaneLost
  dsimp only
  (repeat' split) <;> simp

@[simp] theorem laneFault_outside (s : State) (p l cause : Nat) : (s.laneFault p l cause).outside bulk = s.outside bulk := by
  simp [State.laneFault]

@[simp] theorem execLaneLossOfSignal_outside (p : PortIx) (l : LaneIx) (s : State) : Within bulk s (execLaneLossOfSignal p l s) := by
  simp [execLaneLossOfSignal]

@[simp] theorem execLaneCdrLoss_outside (p : PortIx) (l : LaneIx) (s : State) : Within bulk s (execLaneCdrLoss p l s) := by
  simp [execLaneCdrLoss]

@[simp] theorem eyeEv_outside (s : State) (p l h : Nat) : (s.eyeEv p l h).outside bulk = s.outside bulk := by
  simp [State.eyeEv]

@[simp] theorem execEyeMeasurement_outside (p : PortIx) (l : LaneIx) (height width : Byte) (s : State) :
    Within bulk s (execEyeMeasurement p l height width s) := by
  simp [execEyeMeasurement]

@[simp] theorem execPeakingTrackStep_outside (hS : S.lane ∧ S.PortRegs) (p : PortIx) (l : LaneIx) (up : Option Bool) (s : State) :
    Within S s (execPeakingTrackStep p l up s) := by
  simp [execPeakingTrackStep, hS]

@[simp] theorem genOn_outside (hS : S.out) (s : State) (p l : Nat) (v : Word) : (s.genOn p l v).outside S = s.outside S := by
  simp [State.genOn, hS]

@[simp] theorem lnTestWrite_outside (hS : S.out ∧ S.lane ∧ S.PortRegs) (s : State) (p l : Nat) (v : Word) : (s.lnTestWrite p l v).outside S = s.outside S := by
  simp [State.lnTestWrite, hS]

@[simp] theorem endTests_outside (s : State) (p : Nat) : (s.endTests p).outside bulk = s.outside bulk := by
  simp [State.endTests]

@[simp] theorem ifLane_outside (hS : S.ev ∧ S.reg glbEvFifoOvfCnt) (s : State) (p l off : Nat) {act : State → Res} (h : Within S s (act s)) : Within S s (s.ifLane p l off act) :=
  ifPresent_outside (by simp [hS]) _ _ _ _ (ifPresent_outside (by simp [hS]) _ _ _ _ h)

@[simp] theorem execLnTestCtlGenEn_outside (hS : S.out ∧ S.ev ∧ S.lane ∧ S.reg glbEvFifoOvfCnt ∧ S.PortRegs) (p : PortIx) (l : LaneIx) (v : Word) (s : State) : Within S s (execLnTestCtlGenEn p l v s) := by
  simp [execLnTestCtlGenEn, hS]

@[simp] theorem execLnTestCtlChkEn_outside (hS : S.out ∧ S.ev ∧ S.lane ∧ S.reg glbEvFifoOvfCnt ∧ S.PortRegs) (p : PortIx) (l : LaneIx) (v : Word) (s : State) : Within S s (execLnTestCtlChkEn p l v s) := by
  simp [execLnTestCtlChkEn, hS]

@[simp] theorem execLnTestCtlInjOne_outside (hS : S.out ∧ S.ev ∧ S.lane ∧ S.reg glbEvFifoOvfCnt ∧ S.PortRegs) (p : PortIx) (l : LaneIx) (v : Word) (s : State) :
    Within S s (execLnTestCtlInjOne p l v s) := by
  simp [execLnTestCtlInjOne, hS]

@[simp] theorem execCheckerSync_outside (hS : S.lane ∧ S.PortRegs) (p : PortIx) (l : LaneIx) (reg : BitVec 31) (s : State) :
    Within S s (execCheckerSync p l reg s) := by
  simp [execCheckerSync, hS]

@[simp] theorem checked_outside (hS : S.ev ∧ S.reg glbEvFifoOvfCnt ∧ S.PortRegs) (s : State) (p l n wrong : Nat) : (s.checked p l n wrong).outside S = s.outside S := by
  simp [State.checked, hS]

@[simp] theorem execCheckerSyncLost_outside (hS : S.ev ∧ S.lane ∧ S.reg glbEvFifoOvfCnt ∧ S.PortRegs) (p : PortIx) (l : LaneIx) (n wrong : Nat) (s : State) :
    Within S s (execCheckerSyncLost p l n wrong s) := by
  simp [execCheckerSyncLost, hS]

@[simp] theorem execLnMarginCtlGo_outside (hS : S.out ∧ S.ev ∧ S.lane ∧ S.reg glbEvFifoOvfCnt ∧ S.PortRegs) (p : PortIx) (l : LaneIx)
    (v : Word) (s : State) : Within S s (execLnMarginCtlGo p l v s) := by
  have hc : S.reg (lnMarginCtl p l) = true ∧ S.reg (lnMarginRes p l) = true := by simp [hS]
  simp [execLnMarginCtlGo, hS, hc]

@[simp] theorem execMarginDone_outside (hS : S.PortRegs) (p : PortIx) (l : LaneIx) (errors : Nat) (s : State) : Within S s (execMarginDone p l errors s) := by
  simp [execMarginDone, hS]

@[simp] theorem execPcieMarginingCommand_outside (hS : S.out ∧ S.lane) (p : PortIx) (l : LaneIx) (run : Bool) (s : State) :
    Within S s (execPcieMarginingCommand p l run s) := by
  simp [execPcieMarginingCommand, hS]

end Sys2Proof.Machine
end

section
namespace Sys2Proof.Machine

/-! ### Outside a scope, through Sys2Proof/Machine/Links.lean -/

variable {S : Scope}

@[simp] theorem flTo_outside (hS : S.lnk ∧ S.PortRegs) (s : State) (p st : Nat) : (s.flTo p st).outside S = s.outside S := by
  simp [State.flTo, hS]

@[simp] theorem bringup_outside (s : State) (p : Nat) : (s.bringup p).outside bulk = s.outside bulk := by
  simp [State.bringup]

@[simp] theorem execLinkBringupStart_outside (p : PortIx) (s : State) : Within bulk s (execLinkBringupStart p s) := by
  simp [execLinkBringupStart]

@[simp] theorem flEnWrite_outside (s : State) (p : Nat) (v : Bool) : (s.flEnWrite p v).outside bulk = s.outside bulk := by
  simp [State.flEnWrite]

@[simp] theorem execPtFlCtlEnWrite_outside (p : PortIx) (v : Bool) (s : State) : Within bulk s (execPtFlCtlEnWrite p v s) :=
  ifPresent_outside (by simp) _ _ _ _ (by simp)

@[simp] theorem flRateWrite_outside (hS : S.lnk ∧ S.PortRegs) (s : State) (p v : Nat) : (s.flRateWrite p v).outside S = s.outside S := by
  simp [State.flRateWrite, hS]

@[simp] theorem execPtFlCtlRateWrite_outside (hS : S.ev ∧ S.lnk ∧ S.reg glbEvFifoOvfCnt ∧ S.PortRegs) (p : PortIx) (v : BitVec 2) (s : State) : Within S s (execPtFlCtlRateWrite p v s) :=
  ifPresent_outside (by simp [hS]) _ _ _ _ (by simp [hS])

@[simp] theorem txStart_outside (hS : S.free ∧ S.lnk) (s : State) (p : Nat) : (s.txStart p).outside S = s.outside S := by
  simp [State.txStart, hS]

@[simp] theorem execLanesLocked_outside (hS : S.free ∧ S.lnk ∧ S.PortRegs) (p : PortIx) (s : State) : Within S s (execLanesLocked p s) := by
  simp [execLanesLocked, hS]

@[simp] theorem execLaneAssignment_outside (hS : S.lnk ∧ S.PortRegs) (p : PortIx) (b1 b2 : Word) (s : State) :
    Within S s (execLaneAssignment p b1 b2 s) := by
  have hl : S.reg (ptFlLanemap p) = true := by simp [hS]
  simp [execLaneAssignment, hS, hl]

@[simp] theorem sendInit_outside (hS : S.out ∧ S.lnk ∧ S.PortRegs) (s : State) (p : Nat) (resume : Bool) : (s.sendInit p resume).outside S = s.outside S := by
  simp [State.sendInit, hS]

@[simp] theorem execAlignDone_outside (hS : S.out ∧ S.lnk ∧ S.PortRegs) (p : PortIx) (m : List LaneIx) (s : State) : Within S s (execAlignDone p m s) := by
  simp [execAlignDone, hS]

@[simp] theorem creditsInit_outside (s : State) (p : Nat) (i : InitMsg) : (s.creditsInit p i).outside bulk = s.outside bulk := by
  simp [State.creditsInit]

@[simp] theorem execInitReceive_outside (p : PortIx) (i : InitMsg) (s : State) : Within bulk s (execInitReceive p i s) := by
  simp [execInitReceive]

@[simp] theorem execLinkTrainTimeout_outside (p : PortIx) (s : State) : Within bulk s (execLinkTrainTimeout p s) := by
  simp [execLinkTrainTimeout]

@[simp] theorem execLinkTrainRetry_outside (p : PortIx) (s : State) : Within bulk s (execLinkTrainRetry p s) := by
  simp [execLinkTrainRetry]

@[simp] theorem execDownFlitReceive_outside (p : PortIx) (cause : Byte) (s : State) : Within bulk s (execDownFlitReceive p cause s) := by
  simp [execDownFlitReceive]

@[simp] theorem execMarkersMissed_outside (p : PortIx) (s : State) : Within bulk s (execMarkersMissed p s) := by
  simp [execMarkersMissed]

@[simp] theorem execLinkErrorLimit_outside (p : PortIx) (s : State) : Within bulk s (execLinkErrorLimit p s) := by
  simp [execLinkErrorLimit]

@[simp] theorem replayAll_outside (hS : S.out ∧ S.ev ∧ S.tel ∧ S.lnk ∧ S.reg glbEvFifoOvfCnt ∧ S.PortRegs) (s : State) (p : Nat) : (s.replayAll p).outside S = s.outside S := by
  simp [State.replayAll, hS]

@[simp] theorem gap_outside (hS : S.out ∧ S.lnk ∧ S.PortRegs) (s : State) (p : Nat) : (s.gap p).outside S = s.outside S := by
  simp [State.gap, hS]

@[simp] theorem badFlit_outside (hS : S.out ∧ S.lnk ∧ S.PortRegs) (s : State) (p : Nat) : (s.badFlit p).outside S = s.outside S := by
  simp [State.badFlit, hS]

@[simp] theorem ackTake_outside (hS : S.out ∧ S.ev ∧ S.tel ∧ S.lnk ∧ S.reg glbEvFifoOvfCnt ∧ S.PortRegs) (s : State) (p a : Nat) : (s.ackTake p a).outside S = s.outside S := by
  simp [State.ackTake, hS]

@[simp] theorem msgIn_outside (hS : S.out ∧ S.lnk ∧ S.PortRegs) (s : State) (p : Nat) (b : List Byte) : (s.msgIn p b).outside S = s.outside S := by
  simp [State.msgIn, hS]

@[simp] theorem unpack_outside (hS : S.out ∧ S.lnk ∧ S.PortRegs) (s : State) (p n : Nat) (b : List Byte) : (s.unpack p n b).1.outside S = s.outside S := by
  induction n generalizing s b with
  | zero => rfl
  | succ n ih => simp [hS, State.unpack, ih]

@[simp] theorem payload_outside (hS : S.out ∧ S.lnk ∧ S.PortRegs) (s : State) (p start : Nat) (pay : List Byte) : (s.payload p start pay).outside S = s.outside S := by
  simp [State.payload, hS]

@[simp] theorem corrected_outside (hS : S.ev ∧ S.lnk ∧ S.reg glbEvFifoOvfCnt ∧ S.PortRegs) (s : State) (p : Nat) (corr : List Nat) :
    (s.corrected p corr).outside S = s.outside S := by
  have hl : ∀ g, S.reg (ptFlLaneCe p g) = true := fun g => by simp [hS]
  simp [State.corrected, hS, hl]

@[simp] theorem execFlitReceive_outside (hS : S.out ∧ S.ev ∧ S.tel ∧ S.lnk ∧ S.reg glbEvFifoOvfCnt ∧ S.PortRegs) (p : PortIx) (cwOk : Bool) (cw : BitVec 20) (corr : List Nat) (b : List Byte) (s : State) :
    Within S s (execFlitReceive p cwOk cw corr b s) := by
  simp [execFlitReceive, hS]

@[simp] theorem execReplayTimerExpiry_outside (hS : S.out ∧ S.ev ∧ S.tel ∧ S.lnk ∧ S.reg glbEvFifoOvfCnt ∧ S.PortRegs) (p : PortIx) (s : State) : Within S s (execReplayTimerExpiry p s) := by
  simp [execReplayTimerExpiry, hS]

@[simp] theorem execNakRepeatTimer_outside (hS : S.out ∧ S.lnk ∧ S.PortRegs) (p : PortIx) (s : State) : Within S s (execNakRepeatTimer p s) := by
  simp [execNakRepeatTimer, hS]

@[simp] theorem execLinkMessageSend_outside (hS : S.out ∧ S.free ∧ S.ev ∧ S.tel ∧ S.lnk ∧ S.reg glbEvFifoOvfCnt ∧ S.PortRegs) (p : PortIx) (cls : ClassIx) (len : Nat) (s : State) : Within S s (execLinkMessageSend p cls len s) := by
  unfold execLinkMessageSend
  dsimp only
  rw [within_next]
  generalize hr : State.linkSend _ _ _ _ = r
  cases r with
  | none => rfl
  | some t => exact (linkSend_outside (by simp [hS]) hr).trans (by simp [State.draw, hS])

@[simp] theorem execCreditFlitReceive_outside (hS : S.lnk ∧ S.PortRegs) (p : PortIx) (totals : List (BitVec 16)) (s : State) :
    Within S s (execCreditFlitReceive p totals s) := by
  have hc : ∀ c, S.reg (ptFlCreditRsv p c) = true := fun c => by simp [hS]
  simp [execCreditFlitReceive, hS, hc]

@[simp] theorem execCreditFlitSend_outside (hS : S.out ∧ S.lnk ∧ S.PortRegs) (p : PortIx) (s : State) : Within S s (execCreditFlitSend p s) := by
  simp [execCreditFlitSend, hS]

@[simp] theorem execDelayReqSend_outside (hS : S.out ∧ S.lnk ∧ S.PortRegs) (p : PortIx) (cyc : BitVec 12) (sx : BitVec 4) (s : State) :
    Within S s (execDelayReqSend p cyc sx s) := by
  simp [execDelayReqSend, hS]

@[simp] theorem execDelayReqReceive_outside (hS : S.out ∧ S.lnk ∧ S.PortRegs) (p : PortIx) (t1 : BitVec 64) (id : Word) (cyc2 : BitVec 12) (sx2 : BitVec 4) (cyc3 : BitVec 12) (sx3 : BitVec 4) (s : State) :
    Within S s (execDelayReqReceive p t1 id cyc2 sx2 cyc3 sx3 s) := by
  simp [execDelayReqReceive, hS]

@[simp] theorem execDelayRspReceive_outside (hS : S.ev ∧ S.lnk ∧ S.reg glbEvFifoOvfCnt ∧ S.PortRegs) (p : PortIx) (t1 t2 t3 : BitVec 64) (id : Word) (cyc : BitVec 12) (sx : BitVec 4) (s : State) :
    Within S s (execDelayRspReceive p t1 t2 t3 id cyc sx s) := by
  simp [execDelayRspReceive, hS]

@[simp] theorem execLaneCeThreshold_outside (p : PortIx) (g : Fin 4) (s : State) : Within bulk s (execLaneCeThreshold p g s) := by
  simp [execLaneCeThreshold]

@[simp] theorem execSpareReqReceive_outside (hS : S.out ∧ S.lnk ∧ S.PortRegs) (p : PortIx) (g : Fin 4) (rot : Bool) (s : State) :
    Within S s (execSpareReqReceive p g rot s) := by
  simp [execSpareReqReceive, hS]

@[simp] theorem execSpareReadyReceive_outside (p : PortIx) (g : Fin 4) (s : State) : Within bulk s (execSpareReadyReceive p g s) := by
  unfold execSpareReadyReceive
  dsimp only
  (repeat' split) <;> simp

@[simp] theorem execSpareRepeatTimer_outside (hS : S.out ∧ S.lnk ∧ S.PortRegs) (p : PortIx) (s : State) : Within S s (execSpareRepeatTimer p s) := by
  simp [execSpareRepeatTimer, hS]

@[simp] theorem execSpareDwellEnd_outside (hS : S.out ∧ S.lnk ∧ S.PortRegs) (p : PortIx) (period : BitVec 16) (cw : Byte) (s : State) :
    Within S s (execSpareDwellEnd p period cw s) := by
  unfold execSpareDwellEnd
  dsimp only
  split <;> simp [hS]

@[simp] theorem spareDone_outside (s : State) (p : Nat) : (s.spareDone p).outside bulk = s.outside bulk := by
  unfold State.spareDone
  dsimp only
  split <;> simp

@[simp] theorem execSpareSwitchPoint_outside (p : PortIx) (s : State) : Within bulk s (execSpareSwitchPoint p s) := by
  unfold execSpareSwitchPoint
  dsimp only
  (repeat' split) <;> simp

@[simp] theorem execSpareSwitchReceive_outside (hS : S.lnk) (p : PortIx) (period : BitVec 16) (cw : Byte) (s : State) :
    Within S s (execSpareSwitchReceive p period cw s) := by
  simp [execSpareSwitchReceive, hS]

@[simp] theorem execSpareDoneReceive_outside (hS : S.ev ∧ S.lnk ∧ S.reg glbEvFifoOvfCnt ∧ S.PortRegs) (p : PortIx) (s : State) : Within S s (execSpareDoneReceive p s) := by
  simp [execSpareDoneReceive, hS]

@[simp] theorem execSpareAbortReceive_outside (hS : S.lnk) (p : PortIx) (s : State) : Within S s (execSpareAbortReceive p s) := by
  simp [execSpareAbortReceive, hS]

@[simp] theorem execSpareBackReceive_outside (hS : S.lnk) (p : PortIx) (s : State) : Within S s (execSpareBackReceive p s) := by
  simp [execSpareBackReceive, hS]

@[simp] theorem execSpareLockTimeout_outside (hS : S.out ∧ S.ev ∧ S.lnk ∧ S.reg glbEvFifoOvfCnt ∧ S.PortRegs) (p : PortIx) (s : State) : Within S s (execSpareLockTimeout p s) := by
  simp [execSpareLockTimeout, hS]

@[simp] theorem execRotationInterval_outside (hS : S.out ∧ S.lnk ∧ S.PortRegs) (p : PortIx) (s : State) : Within S s (execRotationInterval p s) := by
  simp [execRotationInterval, hS]

@[simp] theorem execRecalibrationDone_outside (p : PortIx) (period : BitVec 16) (cw : Byte) (s : State) :
    Within bulk s (execRecalibrationDone p period cw s) := by
  simp [execRecalibrationDone]

@[simp] theorem execQuietEnter_outside (hS : S.out ∧ S.lnk ∧ S.PortRegs) (p : PortIx) (s : State) : Within S s (execQuietEnter p s) := by
  simp [execQuietEnter, hS]

@[simp] theorem pwrFlit_outside (hS : S.out ∧ S.lnk ∧ S.PortRegs) (s : State) (p op : Nat) : (s.pwrFlit p op).outside S = s.outside S := by
  simp [State.pwrFlit, hS]

@[simp] theorem execSleepIdleTimer_outside (hS : S.out ∧ S.lnk ∧ S.PortRegs) (p : PortIx) (s : State) : Within S s (execSleepIdleTimer p s) := by
  simp [execSleepIdleTimer, hS]

@[simp] theorem sleepAnswer_outside (hS : S.out ∧ S.lnk ∧ S.PortRegs) (s : State) (p : Nat) : (s.sleepAnswer p).outside S = s.outside S := by
  simp [State.sleepAnswer, hS]

@[simp] theorem execSleepReqReceive_outside (hS : S.out ∧ S.lnk ∧ S.PortRegs) (p : PortIx) (s : State) : Within S s (execSleepReqReceive p s) := by
  simp [execSleepReqReceive, hS]

@[simp] theorem sleepExit_outside (hS : S.lnk ∧ S.lane ∧ S.PortRegs) (s : State) (p : Nat) : (s.sleepExit p).outside S = s.outside S := by
  simp [State.sleepExit, hS]

@[simp] theorem sleepEnter_outside (hS : S.out ∧ S.lnk ∧ S.lane ∧ S.PortRegs) (s : State) (p : Nat) (latch : Bool) : (s.sleepEnter p latch).outside S = s.outside S := by
  simp [State.sleepEnter, hS]

@[simp] theorem execSleepAckReceive_outside (hS : S.out ∧ S.lnk ∧ S.lane ∧ S.PortRegs) (p : PortIx) (s : State) : Within S s (execSleepAckReceive p s) := by
  simp [execSleepAckReceive, hS]

@[simp] theorem execSleepNakReceive_outside (hS : S.lnk) (p : PortIx) (s : State) : Within S s (execSleepNakReceive p s) := by
  simp [execSleepNakReceive, hS]

@[simp] theorem execSleepCancelReceive_outside (hS : S.lnk) (p : PortIx) (s : State) : Within S s (execSleepCancelReceive p s) := by
  simp [execSleepCancelReceive, hS]

@[simp] theorem execWakeReceive_outside (hS : S.out ∧ S.lnk ∧ S.lane ∧ S.PortRegs) (p : PortIx) (s : State) : Within S s (execWakeReceive p s) := by
  simp [execWakeReceive, hS]

@[simp] theorem execSleepWakeEvent_outside (hS : S.out ∧ S.lnk ∧ S.lane ∧ S.PortRegs) (p : PortIx) (s : State) : Within S s (execSleepWakeEvent p s) := by
  simp [execSleepWakeEvent, hS]

@[simp] theorem execSleepResponderTimeout_outside (hS : S.lnk) (p : PortIx) (s : State) : Within S s (execSleepResponderTimeout p s) := by
  simp [execSleepResponderTimeout, hS]

@[simp] theorem execRxElectricalIdleDetect_outside (hS : S.out ∧ S.lnk ∧ S.lane ∧ S.PortRegs) (p : PortIx) (s : State) : Within S s (execRxElectricalIdleDetect p s) := by
  simp [execRxElectricalIdleDetect, hS]

@[simp] theorem execSleepExitDone_outside (p : PortIx) (ok : Bool) (s : State) : Within bulk s (execSleepExitDone p ok s) := by
  simp [execSleepExitDone]

theorem resState_outside {r : Res} {s t : State} (hr : Within bulk t r) (h : t.outside bulk = s.outside bulk) :
    (resState r s).outside bulk = s.outside bulk := by
  obtain ⟨u, rfl, hu⟩ := hr
  exact hu.trans h

@[simp] theorem fabTake_outside (s : State) (p : Nat) (type : MsgType) (h : FHdr) (bytes : Nat) (body : List Byte) (expect : Bool) (unit : StationIx)
    (edge : Bool) {here : Bool → State → State} (hh : ∀ y t, (here y t).outside bulk = t.outside bulk) :
    (s.fabTake p type h bytes body expect unit edge here).outside bulk = s.outside bulk := by
  unfold State.fabTake
  extract_lets t lim m s0 s1 fc charge f holds
  have h1 : s1.outside bulk = s.outside bulk := by simp [s1]
  clear_value s1
  split
  · rfl
  split
  · simp [h1]
  split
  · simp [h1]
  split
  · simp [h1]
  split
  refine outside_of_ite (by simp [h1]) (outside_of_ite (by simp [h1]) (outside_of_ite (by simp [h1]) ?_))
  exact (hh _ _).trans (by simp [h1])

@[simp] theorem execCreqReceive_outside (p : PortIx) (h : FHdr) (hev : Fin 9) (rights : BitVec 2) (slice : SliceIx) (off : BitVec 22) (mask : BitVec 64) (data : Line) (s : State) : Within bulk s (execCreqReceive p h hev rights slice off mask data s) := by
  unfold execCreqReceive
  dsimp only
  split
  · simp
  · refine (within_next _ _).mpr (fabTake_outside _ _ _ _ _ _ _ _ _ fun y t => ?_)
    split
    · simp
    · simp
    · simp
    · simp
    · exact resState_outside (execHomeWb_outside _ _) rfl
    · simp
    · simp
    · exact resState_outside (execCheck_outside _ _ _ _ _ _ _) rfl

@[simp] theorem execCrspReceive_outside (p : PortIx) (h : FHdr) (status : Fin 5) (reason : Fin 6) (grant : Fin 4) (data : Option Line) (s : State) : Within bulk s (execCrspReceive p h status reason grant data s) := by
  refine (within_next _ _).mpr (fabTake_outside _ _ _ _ _ _ _ _ _ fun y t => ?_)
  split
  · rfl
  · dsimp only
    split <;> simp

@[simp] theorem execSnpReceive_outside (p : PortIx) (h : FHdr) (kind : Fin 4) (slice : SliceIx) (off : BitVec 22) (home : Fid) (s : State) : Within bulk s (execSnpReceive p h kind slice off home s) := by
  unfold execSnpReceive
  dsimp only
  split
  · simp
  · refine (within_next _ _).mpr (fabTake_outside _ _ _ _ _ _ _ _ _ fun y t => ?_)
    split <;> simp [State.draw]

@[simp] theorem execSnprspReceive_outside (p : PortIx) (h : FHdr) (rsp : Fin 4) (data : Line) (s : State) : Within bulk s (execSnprspReceive p h rsp data s) := by
  refine (within_next _ _).mpr (fabTake_outside _ _ _ _ _ _ _ _ _ fun y t => ?_)
  split
  · rfl
  · exact resState_outside (execSnoopResponse_outside _ _ _) rfl

@[simp] theorem execIoMessageReceive_outside (p : PortIx) (h : FHdr) (bytes : Nat) (expect : Bool) (unit : StationIx) (s : State) :
    Within bulk s (execIoMessageReceive p h bytes expect unit s) := by
  simp [execIoMessageReceive]

@[simp] theorem execMctpMessageReceive_outside (p : PortIx) (h : FHdr) (bytes : Nat) (s : State) :
    Within bulk s (execMctpMessageReceive p h bytes s) := by
  simp [execMctpMessageReceive]

@[simp] theorem execRemoteRequestTimeout_outside (tag : Word) (s : State) : Within bulk s (execRemoteRequestTimeout tag s) := by
  unfold execRemoteRequestTimeout
  dsimp only
  (repeat' split) <;> simp

end Sys2Proof.Machine
end

section
namespace Sys2Proof.Machine

/-! ### Outside a scope, through Sys2Proof/Machine/Cxl.lean -/

variable {S : Scope}

@[simp] theorem setHp_outside (hS : S.PortRegs) (s : State) (p st : Nat) : (s.setHp p st).outside S = s.outside S := by
  simp [State.setHp, hS]

@[simp] theorem setPwrInd_outside (hS : S.PortRegs) (s : State) (p v : Nat) : (s.setPwrInd p v).outside S = s.outside S := by
  simp [State.setPwrInd, hS]

@[simp] theorem setAttnInd_outside (hS : S.PortRegs) (s : State) (p v : Nat) : (s.setAttnInd p v).outside S = s.outside S := by
  simp [State.setAttnInd, hS]

@[simp] theorem cxLaneUp_outside (s : State) (p l rate : Nat) : (s.cxLaneUp p l rate).outside bulk = s.outside bulk := by
  simp [State.cxLaneUp]

@[simp] theorem cxLanesUp_outside (s : State) (p width rate : Nat) (rev : Bool) : (s.cxLanesUp p width rate rev).outside bulk = s.outside bulk := by
  simp [State.cxLanesUp]

@[simp] theorem cxLanesOff_outside (s : State) (p : Nat) : (s.cxLanesOff p).outside bulk = s.outside bulk := by
  simp [State.cxLanesOff]

@[simp] theorem cxTrain_outside (hS : S.cxl ∧ S.PortRegs) (s : State) (p : Nat) : (s.cxTrain p).outside S = s.outside S := by
  simp [State.cxTrain, hS]

@[simp] theorem hostJobs_outside (s : State) (f : Nat) : (s.hostJobs f).outside bulk = s.outside bulk := by
  simp [State.hostJobs]

@[simp] theorem vppbGone_outside (s : State) (p : Nat) : (s.vppbGone p).outside bulk = s.outside bulk := by
  unfold State.vppbGone
  split <;> simp

@[simp] theorem agentsGone_outside (s : State) (p type lds : Nat) : (s.agentsGone p type lds).outside bulk = s.outside bulk := by
  unfold State.agentsGone
  extract_lets s1 s2
  have h1 : s1.outside bulk = s.outside bulk := by simp [s1]
  have h2 : s2.outside bulk = s1.outside bulk := by cases h : s1.edgeFid p 0 <;> simp [s2, h]
  clear_value s2 s1
  split
  · simp [h2, h1]
  · split <;> simp [h1]
  · split <;> simp [h1]
  · refine (outside_each (fun ld t => ?_) _ _).trans h1
    split <;> simp
  · refine (outside_each (fun ld t => ?_) _ _).trans h1
    split <;> simp
  · split <;> simp [h1]

@[simp] theorem contain_outside (s : State) (p : Nat) (aged : Bool) : (s.contain p aged).outside bulk = s.outside bulk := by
  simp [State.contain]

@[simp] theorem hpGone_outside (s : State) (p : Nat) : (s.hpGone p).outside bulk = s.outside bulk := by
  simp [State.hpGone]

@[simp] theorem mgmtFnLost_outside (s : State) (p : Nat) : (s.mgmtFnLost p).outside bulk = s.outside bulk := by
  simp [State.mgmtFnLost]

@[simp] theorem cxDown_outside (s : State) (p cause : Nat) : (s.cxDown p cause).outside bulk = s.outside bulk := by
  simp [State.cxDown]

@[simp] theorem execCxlLinkDown_outside (p : PortIx) (cause : Fin 9) (s : State) : Within bulk s (execCxlLinkDown p cause s) := by
  simp [execCxlLinkDown]

@[simp] theorem execCxlRecovery_outside (hS : S.PortRegs) (p : PortIx) (s : State) : Within S s (execCxlRecovery p s) := by
  simp [execCxlRecovery, hS]

@[simp] theorem type3Lost_outside (s : State) (p : Nat) : (s.type3Lost p).outside bulk = s.outside bulk := by
  simp [State.type3Lost]

@[simp] theorem execCxlDownTicksExpiry_outside (p : PortIx) (s : State) : Within bulk s (execCxlDownTicksExpiry p s) := by
  unfold execCxlDownTicksExpiry
  split <;> simp

@[simp] theorem execCxlUncorrectableError_outside (p : PortIx) (s : State) : Within bulk s (execCxlUncorrectableError p s) := by
  simp [execCxlUncorrectableError]

@[simp] theorem cxReissue_outside (s : State) (p : Nat) : (s.cxReissue p).outside bulk = s.outside bulk := by
  unfold State.cxReissue
  extract_lets mine rds wrs rd wr lead s1 s2
  have hr : ∀ e t, (rd e t).outside bulk = t.outside bulk := fun e t => by simp [rd]
  have hw : ∀ w t, (wr w t).outside bulk = t.outside bulk := fun w t => by simp [wr]
  clear_value rd wr
  have h1 : s1.outside bulk = s.outside bulk :=
    outside_each (fun k t => (outside_each hw _ _).trans (outside_each hr _ _)) _ _
  exact (outside_each hw _ _).trans ((outside_each hr _ _).trans h1)

@[simp] theorem execCxlLinkUp_outside (p : PortIx) (i : CxUp) (s : State) : Within bulk s (execCxlLinkUp p i s) := by
  simp [execCxlLinkUp]

@[simp] theorem execCxlTrainTimeout_outside (hS : S.ev ∧ S.cxl ∧ S.reg glbEvFifoOvfCnt ∧ S.PortRegs) (p : PortIx) (s : State) : Within S s (execCxlTrainTimeout p s) := by
  unfold execCxlTrainTimeout
  split <;> simp [hS]

@[simp] theorem execCxlTrainRetry_outside (hS : S.cxl ∧ S.PortRegs) (p : PortIx) (s : State) : Within S s (execCxlTrainRetry p s) := by
  simp [execCxlTrainRetry, hS]

@[simp] theorem scanBrick_outside (hS : S.ev ∧ S.pba ∧ S.cxl ∧ S.reg glbEvFifoOvfCnt ∧ S.PortRegs) (s : State) (b : Nat)
    (r : Option (BitVec 8 × BitVec 8)) : (s.scanBrick b r).outside S = s.outside S := by
  have hp : ∀ p, S.reg (ptCxHpStatus p) = true := fun p => by simp [hS]
  unfold State.scanBrick
  split <;> simp [hS, hp]

@[simp] theorem execExpanderScan_outside (hS : S.ev ∧ S.pba ∧ S.cxl ∧ S.reg glbEvFifoOvfCnt ∧ S.PortRegs) (t : TileIx) (b0 b1 : Option (BitVec 8 × BitVec 8)) (s : State) :
    Within S s (execExpanderScan t b0 b1 s) := by
  simp [execExpanderScan, hS]

@[simp] theorem execCxlPresenceAccepted_outside (hS : S.ev ∧ S.cxl ∧ S.reg glbEvFifoOvfCnt ∧ S.PortRegs) (p : PortIx) (s : State) : Within S s (execCxlPresenceAccepted p s) := by
  simp [execCxlPresenceAccepted, hS]

@[simp] theorem removed_outside (s : State) (p cause : Nat) : (s.removed p cause).outside bulk = s.outside bulk := by
  simp [State.removed]

@[simp] theorem execCxlPresenceLost_outside (p : PortIx) (s : State) : Within bulk s (execCxlPresenceLost p s) := by
  simp [execCxlPresenceLost]

@[simp] theorem execCxlButtonAccepted_outside (hS : S.ev ∧ S.cxl ∧ S.reg glbEvFifoOvfCnt ∧ S.PortRegs) (p : PortIx) (s : State) : Within S s (execCxlButtonAccepted p s) := by
  simp [execCxlButtonAccepted, hS]

@[simp] theorem execButtonWaitTimer_outside (hS : S.ev ∧ S.reg glbEvFifoOvfCnt ∧ S.PortRegs) (p : PortIx) (s : State) : Within S s (execButtonWaitTimer p s) := by
  simp [execButtonWaitTimer, hS]

@[simp] theorem removeOk_outside (s : State) (p : Nat) : (s.removeOk p).outside bulk = s.outside bulk := by
  simp [State.removeOk]

@[simp] theorem execPtCxHpCtlRemoveOk_outside (p : PortIx) (s : State) : Within bulk s (execPtCxHpCtlRemoveOk p s) := by
  simp [execPtCxHpCtlRemoveOk]

@[simp] theorem execPtCxHpCtlCancel_outside (hS : S.ev ∧ S.reg glbEvFifoOvfCnt ∧ S.PortRegs) (p : PortIx) (s : State) : Within S s (execPtCxHpCtlCancel p s) := by
  simp [execPtCxHpCtlCancel, hS]

@[simp] theorem execHostSlotControlWrite_outside (v : VcsIx) (k : Fin 16) (pwr attn : BitVec 2) (off : Bool) (s : State) :
    Within bulk s (execHostSlotControlWrite v k pwr attn off s) := by
  unfold execHostSlotControlWrite
  split <;> simp

@[simp] theorem execPtCxCtlRetrain_outside (p : PortIx) (force : Bool) (s : State) : Within bulk s (execPtCxCtlRetrain p force s) := by
  simp [execPtCxCtlRetrain]

@[simp] theorem dpcRelease_outside (hS : S.cxl ∧ S.PortRegs) (s : State) (p : Nat) : (s.dpcRelease p).outside S = s.outside S := by
  simp [State.dpcRelease, hS]

@[simp] theorem execPtCxCtlDpcRelease_outside (hS : S.ev ∧ S.cxl ∧ S.reg glbEvFifoOvfCnt ∧ S.PortRegs) (p : PortIx) (s : State) : Within S s (execPtCxCtlDpcRelease p s) := by
  simp [execPtCxCtlDpcRelease, hS]

@[simp] theorem execVppbDpcRelease_outside (hS : S.cxl ∧ S.PortRegs) (v : VcsIx) (k : Fin 16) (s : State) : Within S s (execVppbDpcRelease v k s) := by
  unfold execVppbDpcRelease
  split <;> simp [hS]

@[simp] theorem execPtCxCtlMgmtFnWrite_outside (p : PortIx) (v : Bool) (s : State) : Within bulk s (execPtCxCtlMgmtFnWrite p v s) := by
  simp [execPtCxCtlMgmtFnWrite]

@[simp] theorem cxEnWrite_outside (s : State) (p : Nat) (v : Bool) : (s.cxEnWrite p v).outside bulk = s.outside bulk := by
  simp [State.cxEnWrite]

@[simp] theorem execPtCxCtlEnWrite_outside (p : PortIx) (v : Bool) (s : State) : Within bulk s (execPtCxCtlEnWrite p v s) := by
  simp [execPtCxCtlEnWrite]

@[simp] theorem vppbBind_outside (s : State) (v k p : Nat) : (s.vppbBind v k p).1.outside bulk = s.outside bulk := by
  simp [State.vppbBind]

@[simp] theorem vppbUnbind_outside (s : State) (v k : Nat) : (s.vppbUnbind v k).1.outside bulk = s.outside bulk := by
  unfold State.vppbUnbind
  split <;> simp

@[simp] theorem fmBinding_outside (s : State) (src : Src) (code nalug : Nat) (body : List Byte) (objs : List Obj) (ports : List Nat)
    {act : State → State × Nat} (h : ∀ t, (act t).1.outside bulk = t.outside bulk) : (s.fmBinding src code nalug body objs ports act).outside bulk = s.outside bulk := by
  unfold State.fmBinding
  dsimp only
  split
  · simp
  · split <;> simp [h]

@[simp] theorem fmServe_outside (s : State) (src : Src) {act : Res} (h : Within bulk s act) : Within bulk s (s.fmServe src act) := by
  unfold State.fmServe
  split
  · simp
  · exact h

@[simp] theorem execIdentifySwitchDevice_outside (src : Src) (s : State) : Within bulk s (execIdentifySwitchDevice src s) := by
  simp [execIdentifySwitchDevice]

@[simp] theorem execGetPhysicalPortState_outside (src : Src) (ports : List Byte) (s : State) :
    Within bulk s (execGetPhysicalPortState src ports s) := by
  simp [execGetPhysicalPortState]

@[simp] theorem execPhysicalPortControl_outside (src : Src) (port : Byte) (op : Fin 3) (s : State) : Within bulk s (execPhysicalPortControl src port op s) := by
  refine fmServe_outside _ _ ?_
  dsimp only
  split
  · simp
  · split <;> simp

@[simp] theorem execSendPpbCxlIoConfigurationRequest_outside (src : Src) (port : Byte) (b : List Byte) (s : State) :
    Within bulk s (execSendPpbCxlIoConfigurationRequest src port b s) := by
  simp [execSendPpbCxlIoConfigurationRequest]

@[simp] theorem execGetVirtualCxlSwitchInfo_outside (src : Src) (v : Byte) (s : State) :
    Within bulk s (execGetVirtualCxlSwitchInfo src v s) := by
  simp [execGetVirtualCxlSwitchInfo]

@[simp] theorem execBindVppb_outside (src : Src) (v : Byte) (k : Byte) (port : Byte) (ld : BitVec 16) (s : State) :
    Within bulk s (execBindVppb src v k port ld s) := by
  simp [execBindVppb]

@[simp] theorem execUnbindVppb_outside (src : Src) (v : Byte) (k : Byte) (s : State) : Within bulk s (execUnbindVppb src v k s) := by
  simp [execUnbindVppb]

@[simp] theorem execGenerateAerEvent_outside (src : Src) (v : Byte) (k : Byte) (s : State) : Within bulk s (execGenerateAerEvent src v k s) := by
  refine fmServe_outside _ _ ?_
  split
  · split <;> simp
  · simp

@[simp] theorem execTunnelManagementCommand_outside (src : Src) (port : Byte) (b : List Byte) (s : State) :
    Within bulk s (execTunnelManagementCommand src port b s) := by
  simp [execTunnelManagementCommand]

@[simp] theorem execSendLdCxlIoConfigurationRequest_outside (src : Src) (port : Byte) (ld : Byte) (b : List Byte) (s : State) :
    Within bulk s (execSendLdCxlIoConfigurationRequest src port ld b s) := by
  simp [execSendLdCxlIoConfigurationRequest]

@[simp] theorem execSendLdCxlIoMemoryRequest_outside (src : Src) (port : Byte) (ld : Byte) (b : List Byte) (s : State) :
    Within bulk s (execSendLdCxlIoMemoryRequest src port ld b s) := by
  simp [execSendLdCxlIoMemoryRequest]

@[simp] theorem execFmApiUnsupported_outside (src : Src) (opcode : BitVec 16) (s : State) :
    Within bulk s (execFmApiUnsupported src opcode s) := by
  simp [execFmApiUnsupported]

theorem ageHead_outside {s : State} {q : Nat} {x : TMsg × State} (h : s.ageHead q = some x) : x.2.outside bulk = s.outside bulk := by
  unfold State.ageHead at h
  split at h
  · cases h
    simp
  · cases h
    simp
  · cases h

@[simp] theorem execMessageAged_outside (p : PortIx) (c : ClassIx) (egress : Bool) (s : State) : Within bulk s (execMessageAged p c egress s) := by
  unfold execMessageAged
  extract_lets q
  split
  · next m s1 lim ha hl =>
    have h1 : s1.outside bulk = s.outside bulk := ageHead_outside ha
    extract_lets age
    split
    · simp
    split
    · simp [h1]
    split
    · simp
    split
    · simp
    · split
      · split <;> simp [h1]
      · simp [h1]
  · simp

end Sys2Proof.Machine
end

section
namespace Sys2Proof.Machine

/-! ### Outside a scope, through Sys2Proof/Machine/Units.lean -/

variable {S : Scope}

@[simp] theorem portDown_outside (s : State) (p fl cx : Nat) : (s.portDown p fl cx).outside bulk = s.outside bulk := by
  simp [State.portDown]

@[simp] theorem discard_outside (s : State) (m : TMsg) : (s.discard m).outside bulk = s.outside bulk := by
  unfold State.discard
  dsimp only
  (repeat' split) <;> simp

@[simp] theorem flushQueue_outside (s : State) (q : Nat) : (s.flushQueue q).outside bulk = s.outside bulk := by
  simp [State.flushQueue]

@[simp] theorem dropHeld_outside (s : State) (p : TMsg → Bool) : (s.dropHeld p).outside bulk = s.outside bulk := by
  simp [State.dropHeld]

@[simp] theorem flushPort_outside (s : State) (p : Nat) : (s.flushPort p).outside bulk = s.outside bulk := by
  simp [State.flushPort]

@[simp] theorem retireTile_outside (s : State) (t : Nat) : (s.retireTile t).outside bulk = s.outside bulk := by
  simp [State.retireTile]

@[simp] theorem retireAny_outside (s : State) (kind i : Nat) : (s.retireAny kind i).outside bulk = s.outside bulk := by
  unfold State.retireAny
  split <;> simp

end Sys2Proof.Machine
end

section
namespace Sys2Proof.Machine

/-! ### Outside a scope, through Sys2Proof/Machine/Telemetry.lean -/

variable {S : Scope}

@[simp] theorem inTel_outside (s : State) (f : TelS → TelS) : (s.inTel f).outside bulk = s.outside bulk := by
  simp [State.inTel]

@[simp] theorem critAction_outside (s : State) (kind i : Nat) : (s.critAction kind i).outside bulk = s.outside bulk := by
  unfold State.critAction
  split <;> simp

@[simp] theorem levelStep_outside (s : State) (kind i lvl : Nat) (t : Int) (u shown : Nat) :
    (s.levelStep kind i lvl t u shown).outside bulk = s.outside bulk := by
  simp [State.levelStep]

@[simp] theorem critHold_outside (s : State) (h : Nat) (t : Int) (u : Nat) : (s.critHold h t u).outside bulk = s.outside bulk := by
  simp [State.critHold]

@[simp] theorem levelSample_outside (s : State) (kind i : Nat) (t : Int) (u shown : Nat) :
    (s.levelSample kind i t u shown).outside bulk = s.outside bulk := by
  simp [State.levelSample]

@[simp] theorem tempSample_outside (s : State) (i : Nat) (w : BitVec 16) : (s.tempSample i w).outside bulk = s.outside bulk := by
  simp [State.tempSample]

@[simp] theorem voltSample_outside (s : State) (i mv : Nat) : (s.voltSample i mv).outside bulk = s.outside bulk := by
  simp [State.voltSample]

@[simp] theorem stageSample_outside (s : State) (k : Nat) : (s.stageSample k).outside bulk = s.outside bulk := by
  simp [State.stageSample]

@[simp] theorem execMonitorSample_outside (temps volts : List (BitVec 16)) (s : State) : Within bulk s (execMonitorSample temps volts s) := by
  simp [execMonitorSample]

@[simp] theorem execRoMeasure_outside (khz : List (BitVec 24)) (s : State) : Within bulk s (execRoMeasure khz s) := by
  simp [execRoMeasure]

@[simp] theorem pmcWrite_outside (s : State) (tile : Option TileIx) (c off : Nat) {act : State → State} (h : ∀ t, (act t).outside bulk = t.outside bulk) :
    Within bulk s (s.pmcWrite tile c off act) := by
  unfold State.pmcWrite
  split
  · simp
  · split <;> simp [h]

@[simp] theorem execPmcConfigWrite_outside (tile : Option TileIx) (c : Fin 128) (k : Fin 3) (v : Word) (s : State) :
    Within bulk s (execPmcConfigWrite tile c k v s) := by
  simp [execPmcConfigWrite]

@[simp] theorem execPmcCntWrite_outside (tile : Option TileIx) (c : Fin 128) (v : BitVec 64) (s : State) :
    Within bulk s (execPmcCntWrite tile c v s) := by
  simp [execPmcCntWrite]

@[simp] theorem pmcApply_outside (s : State) (o : Nat) (v : Word) : (s.pmcApply o v).outside bulk = s.outside bulk := by
  simp [State.pmcApply]

@[simp] theorem pmcEdge_outside (s : State) : s.pmcEdge.outside bulk = s.outside bulk := by
  simp [State.pmcEdge]

@[simp] theorem bwMove_outside (s : State) (p dir n : Nat) : (s.bwMove p dir n).outside bulk = s.outside bulk := by
  simp [State.bwMove]

@[simp] theorem execBwWindowEnd_outside (cxl : List (PortIx × Nat × Nat)) (s : State) : Within bulk s (execBwWindowEnd cxl s) := by
  simp [execBwWindowEnd]

@[simp] theorem dumpFail_outside (s : State) (seq : Word) : (s.dumpFail seq).outside bulk = s.outside bulk := by
  simp [State.dumpFail]

@[simp] theorem snapshot_outside (s : State) : s.snapshot.outside bulk = s.outside bulk := by
  simp [State.snapshot]

@[simp] theorem execDumpWriteUnit_outside (good : Bool) (s : State) : Within bulk s (execDumpWriteUnit good s) := by
  unfold execDumpWriteUnit
  split <;> simp

@[simp] theorem execLatencyRecordWrite_outside (s : State) : Within bulk s (execLatencyRecordWrite s) := by
  unfold execLatencyRecordWrite
  split <;> simp

@[simp] theorem idleEdge_outside (s : State) : s.idleEdge.outside bulk = s.outside bulk := by
  simp [State.idleEdge]

@[simp] theorem auditWrite_outside (s : State) (v : Word) : (s.auditWrite v).outside bulk = s.outside bulk := by
  simp [State.auditWrite]

@[simp] theorem execAuditGo_outside (v : Word) (s : State) : Within bulk s (execAuditGo v s) := by
  simp [execAuditGo]

@[simp] theorem execAuditCheck_outside (s : State) : Within bulk s (execAuditCheck s) := by
  unfold execAuditCheck
  dsimp only
  (repeat' split) <;> simp

@[simp] theorem execAuditTimeout_outside (s : State) : Within bulk s (execAuditTimeout s) := by
  unfold execAuditTimeout
  split <;> simp

end Sys2Proof.Machine
end

section
namespace Sys2Proof.Machine

/-! ### Outside a scope, through Sys2Proof/Machine/Tick.lean -/

variable {S : Scope}

@[simp] theorem inTick_outside (s : State) (f : TickS → TickS) : (s.inTick f).outside bulk = s.outside bulk := by
  simp [State.inTick]

@[simp] theorem loseLock_outside (s : State) (cause : Nat) : (s.loseLock cause).outside bulk = s.outside bulk := by
  simp [State.loseLock]

@[simp] theorem gainLock_outside (s : State) : s.gainLock.outside bulk = s.outside bulk := by
  simp [State.gainLock]

@[simp] theorem follow_outside (s : State) (p : Nat) (m : SyncMsg) (trim : Int) : (s.follow p m trim).outside bulk = s.outside bulk := by
  simp [State.follow]

@[simp] theorem execSyncReceive_outside (p : PortIx) (m : SyncMsg) (trim : Int) (s : State) : Within bulk s (execSyncReceive p m trim s) := by
  simp [execSyncReceive]

@[simp] theorem execMasterLossTimeout_outside (s : State) : Within bulk s (execMasterLossTimeout s) := by
  unfold execMasterLossTimeout
  split <;> simp

@[simp] theorem execGlbTickCtlMasterElig_outside (v : Bool) (s : State) : Within bulk s (execGlbTickCtlMasterElig v s) := by
  simp [execGlbTickCtlMasterElig]

@[simp] theorem markUpstream_outside (s : State) (old new : Option Nat) : (s.markUpstream old new).outside bulk = s.outside bulk := by
  unfold State.markUpstream
  dsimp only
  (repeat' split) <;> simp

@[simp] theorem elect_outside (s : State) : s.elect.outside bulk = s.outside bulk := by
  unfold State.elect
  dsimp only
  split <;> simp

@[simp] theorem sendSyncs_outside (s : State) : s.sendSyncs.outside bulk = s.outside bulk := by
  simp [State.sendSyncs]

@[simp] theorem pmcCycles_outside (s : State) (global : Bool) (lo hi ev n : Nat) : (s.pmcCycles global lo hi ev n).outside bulk = s.outside bulk := by
  simp [State.pmcCycles]

@[simp] theorem pmcTick_outside (s : State) (cyc : List (Bool × Nat × Nat × ClassIx × Nat)) : (s.pmcTick cyc).outside bulk = s.outside bulk := by
  simp [State.pmcTick]

@[simp] theorem snapshotEdge_outside (s : State) : s.snapshotEdge.outside bulk = s.outside bulk := by
  simp [State.snapshotEdge]

@[simp] theorem laneTests_outside (s : State) (tests : List (PortIx × LaneIx × Nat × Nat)) : (s.laneTests tests).outside bulk = s.outside bulk := by
  simp [State.laneTests]

end Sys2Proof.Machine
end

section
namespace Sys2Proof.Machine

/-! ### Outside a scope, through Sys2Proof/Machine/Access.lean -/

variable {S : Scope}

@[simp] theorem acuDenied_outside (s : State) (m lvl o : Nat) (write : Bool) : (s.acuDenied m lvl o write).outside bulk = s.outside bulk := by
  simp [State.acuDenied]

@[simp] theorem sense_outside (s : State) (o : Nat) : (s.sense o).2.outside bulk = s.outside bulk := by
  unfold State.sense
  split <;> simp

@[simp] theorem readClear_outside (s : State) (o : Nat) : (s.readClear o).outside bulk = s.outside bulk := by
  unfold State.readClear
  split <;> simp

@[simp] theorem readWord_outside (s : State) (m o : Nat) (four : Bool) : (s.readWord m o four).2.outside bulk = s.outside bulk := by
  unfold State.readWord
  dsimp only
  (repeat' split) <;> simp

@[simp] theorem readWords_outside (s : State) (m o : Nat) (four : Nat → Bool) (n : Nat) : (s.readWords m o four n).2.outside bulk = s.outside bulk := by
  induction n with
  | zero => rfl
  | succ n ih => simp [State.readWords, ih]

@[simp] theorem misaligned_outside (s : State) (m o : Nat) : (s.misaligned m o).outside bulk = s.outside bulk := by
  simp [State.misaligned]

@[simp] theorem regRead_outside (s : State) (m lvl o n : Nat) : (s.regRead m lvl o n).outside bulk = s.outside bulk := by
  unfold State.regRead
  split
  · simp
  split
  · simp
  split
  · simp
  split
  · split
    · next h => exact (execPwrBrDataRead_outside _ _ _).next h
    · rfl
  · simp

@[simp] theorem plainWrite_outside (s : State) (o : Nat) (v bm : Word) : (s.plainWrite o v bm).outside bulk = s.outside bulk := by
  unfold State.plainWrite
  split <;> simp

@[simp] theorem nextOr_outside (s : State) {r : Res} (h : Within bulk s r) : (nextOr s r).outside bulk = s.outside bulk := by
  obtain ⟨t, rfl, ht⟩ := h
  exact ht

@[simp] theorem acuWrite_outside (s : State) (m lvl o : Nat) (v bm : Word) : (s.acuWrite m lvl o v bm).outside bulk = s.outside bulk := by
  simp [State.acuWrite]

@[simp] theorem defWrite_outside (s : State) (t fc o : Nat) (v bm : Word) : (s.defWrite t fc o v bm).outside bulk = s.outside bulk := by
  simp [State.defWrite]

@[simp] theorem tileWrite_outside (s : State) (t r o : Nat) (v bm : Word) : (s.tileWrite t r o v bm).outside bulk = s.outside bulk := by
  simp [State.tileWrite]

@[simp] theorem flCtlWrite_outside (s : State) (p : Nat) (v bm : Word) : (s.flCtlWrite p v bm).outside bulk = s.outside bulk := by
  simp [State.flCtlWrite]

@[simp] theorem cxCtlWrite_outside (s : State) (p : PortIx) (v bm : Word) : (s.cxCtlWrite p v bm).outside bulk = s.outside bulk := by
  simp [State.cxCtlWrite]

@[simp] theorem hpCtlWrite_outside (s : State) (p : PortIx) (v bm : Word) : (s.hpCtlWrite p v bm).outside bulk = s.outside bulk := by
  simp [State.hpCtlWrite]

@[simp] theorem portWrite_outside (s : State) (p q o : Nat) (v bm : Word) : (s.portWrite p q o v bm).outside bulk = s.outside bulk := by
  simp [State.portWrite]

@[simp] theorem lnCtlWrite_outside (s : State) (p l : Nat) (v bm : Word) : (s.lnCtlWrite p l v bm).outside bulk = s.outside bulk := by
  simp [State.lnCtlWrite]

@[simp] theorem lnRxEqWrite_outside (s : State) (p l : Nat) (v bm : Word) : (s.lnRxEqWrite p l v bm).outside bulk = s.outside bulk := by
  simp [State.lnRxEqWrite]

@[simp] theorem laneWrite_outside (s : State) (x q o : Nat) (v bm : Word) : (s.laneWrite x q o v bm).outside bulk = s.outside bulk := by
  simp [State.laneWrite]

@[simp] theorem edgeAccess_outside (s : State) (o : Nat) (b : List Byte) : (s.edgeAccess o b).outside bulk = s.outside bulk := by
  unfold State.edgeAccess
  dsimp only
  split
  · simp
  · refine outside_each (fun k t => ?_) _ _
    split <;> simp

@[simp] theorem execRcRegisterRead_outside (m : Fin 8) (lvl : Fin 3) (off : Word) (n : Nat) (s : State) :
    Within bulk s (execRcRegisterRead m lvl off n s) := by
  simp [execRcRegisterRead]

@[simp] theorem execCounterLowWordRead_outside (m : Fin 8) (lvl : Fin 3) (off : Word) (s : State) :
    Within bulk s (execCounterLowWordRead m lvl off s) := by
  simp [execCounterLowWordRead]

@[simp] theorem opDenied_outside (s : State) (o : Nat) (write : Bool) : (s.opDenied o write).1.outside bulk = s.outside bulk := by
  simp [State.opDenied]

end Sys2Proof.Machine
end

section
namespace Sys2Proof.Machine

/-! ### Outside a scope, through Sys2Proof/Machine/Reset.lean -/

variable {S : Scope}

@[simp] theorem askReset_outside (s : State) (scope target source : Nat) : (s.askReset scope target source).outside bulk = s.outside bulk := by
  simp [State.askReset]

@[simp] theorem dropResets_outside (s : State) (p : Nat × Nat × Nat × Tick → Bool) : (s.dropResets p).outside bulk = s.outside bulk := by
  simp [State.dropResets]

@[simp] theorem clearCounters_outside (s : State) (p : Space × Nat × Nat → Bool) : (s.clearCounters p).outside bulk = s.outside bulk := by
  simp [State.clearCounters]

@[simp] theorem newMode_outside (s : State) (p : Nat) : (s.newMode p).outside bulk = s.outside bulk := by
  unfold State.newMode
  dsimp only
  (repeat' split) <;> simp

@[simp] theorem mgmtPathReset_outside (s : State) (p : Nat) : (s.mgmtPathReset p).outside bulk = s.outside bulk := by
  simp [State.mgmtPathReset]

@[simp] theorem keepHp_outside (s : State) (p st : Nat) : (s.keepHp p st).outside bulk = s.outside bulk := by
  simp [State.keepHp]

@[simp] theorem portClear_outside (s : State) (p : Nat) : (s.portClear p).outside bulk = s.outside bulk := by
  unfold State.portClear
  dsimp only
  split <;> simp

@[simp] theorem portTrain_outside (s : State) (p : Nat) : (s.portTrain p).outside bulk = s.outside bulk := by
  simp [State.portTrain]

@[simp] theorem portReset_outside (s : State) (p source : Nat) : (s.portReset p source).outside bulk = s.outside bulk := by
  simp [State.portReset]

@[simp] theorem tileClear_outside (s : State) (t : Nat) : (s.tileClear t).outside bulk = s.outside bulk := by
  simp [State.tileClear]

@[simp] theorem tileReset_outside (s : State) (t source : Nat) : (s.tileReset t source).outside bulk = s.outside bulk := by
  simp [State.tileReset]

@[simp] theorem execTileReset_outside (t : TileIx) (s : State) : Within bulk s (execTileReset t s) := by
  unfold execTileReset
  split <;> simp

@[simp] theorem execPortReset_outside (p : PortIx) (s : State) : Within bulk s (execPortReset p s) := by
  unfold execPortReset
  split <;> simp

@[simp] theorem restartPart_outside (p : HPart) (s : State) : (s.restartPart p).outside bulk = s.outside bulk := by
  simp [State.restartPart]

@[simp] theorem restartOrig_outside (known : List HKey) (o : HOrig) (s : State) : (s.restartOrig known o).outside bulk = s.outside bulk := by
  simp [State.restartOrig]

@[simp] theorem hmpRestart_outside (s : State) : s.hmpRestart.outside bulk = s.outside bulk := by
  simp [State.hmpRestart]

@[simp] theorem warmRings_outside (s : State) : s.warmRings.outside bulk = s.outside bulk := by
  unfold State.warmRings
  refine outside_each (fun i t => ?_) _ _
  extract_lets x t1 h
  have h1 : t1.outside bulk = t.outside bulk := by
    cases hj : x.job with
    | none => simp [t1, hj]
    | some j => simp [t1, hj]
  simp [h1]

@[simp] theorem warmQueues_outside (s : State) : s.warmQueues.outside bulk = s.outside bulk := by
  simp [State.warmQueues]

@[simp] theorem warmLogic_outside (s : State) : s.warmLogic.outside bulk = s.outside bulk := by
  simp [State.warmLogic]

@[simp] theorem linksReset_outside (hS : S.Links) (s : State) : s.linksReset.outside S = s.outside S := by
  simp [State.linksReset, hS, hS.facts]

@[simp] theorem warmBegin_outside (s : State) (source : Nat) : (s.warmBegin source).outside bulk = s.outside bulk := by
  simp [State.warmBegin]

@[simp] theorem execWarmModuleReset_outside (s : State) : Within bulk s (execWarmModuleReset s) := by
  unfold execWarmModuleReset
  split
  · simp
  · split <;> simp

@[simp] theorem fjxPort_outside (s : State) (e : Nat × Nat × Nat × Bool) : (s.fjxPort e).outside bulk = s.outside bulk := by
  simp [State.fjxPort]

@[simp] theorem bootTables_outside (s : State) : s.bootTables.outside bulk = s.outside bulk := by
  simp [State.bootTables]

@[simp] theorem clocksUp_outside (s : State) : s.clocksUp.outside bulk = s.outside bulk := by
  simp [State.clocksUp]

@[simp] theorem selfTest_outside (s : State) (u : Nat × Nat) : (s.selfTest u).outside bulk = s.outside bulk := by
  simp [State.selfTest]

@[simp] theorem execBootWatchdogExpiry_outside (s : State) : Within bulk s (execBootWatchdogExpiry s) := by
  simp [execBootWatchdogExpiry]

@[simp] theorem execFeedOutOfRange_outside (f : FeedIx) (mv : Nat) (s : State) : Within bulk s (execFeedOutOfRange f mv s) := by
  simp [execFeedOutOfRange]

end Sys2Proof.Machine
end

section
namespace Sys2Proof.Machine

/-! ### Outside a scope, through Sys2Proof/Machine/Clocks.lean -/

variable {S : Scope}

@[simp] theorem inClk_outside (s : State) (f : ClkS → ClkS) : (s.inClk f).outside bulk = s.outside bulk := by
  simp [State.inClk]

@[simp] theorem raiseClk_outside (s : State) (code : Nat) (vals : List EvVal) : (s.raiseClk code vals).outside bulk = s.outside bulk := by
  simp [State.raiseClk]

@[simp] theorem pllGone_outside (s : State) (d : Nat) : (s.pllGone d).outside bulk = s.outside bulk := by
  simp [State.pllGone]

@[simp] theorem coreLost_outside (s : State) : s.coreLost.outside bulk = s.outside bulk := by
  simp [State.coreLost]

@[simp] theorem tilePllLost_outside (s : State) (t : Nat) : (s.tilePllLost t).outside bulk = s.outside bulk := by
  simp [State.tilePllLost]

@[simp] theorem execPllLockLoss_outside (d : Fin 16) (s : State) : Within bulk s (execPllLockLoss d s) := by
  simp [execPllLockLoss]

@[simp] theorem execTilePllRelockTimeout_outside (t : TileIx) (s : State) : Within bulk s (execTilePllRelockTimeout t s) := by
  simp [execTilePllRelockTimeout]

@[simp] theorem execCorePllRelockTimeout_outside (s : State) : Within bulk s (execCorePllRelockTimeout s) := by
  simp [execCorePllRelockTimeout]

@[simp] theorem execCrossingEventDelivery_outside (x : Fin 1024) (k : Nat) (s : State) : Within bulk s (execCrossingEventDelivery x k s) := by
  simp [execCrossingEventDelivery]

@[simp] theorem execMortarHeaderUe_outside (s : State) : Within bulk s (execMortarHeaderUe s) := by
  simp [execMortarHeaderUe]

@[simp] theorem sramUe_outside (s : State) (st unit entry : Nat) : (s.sramUe st unit entry).outside bulk = s.outside bulk := by
  simp [State.sramUe]

@[simp] theorem poisonMsg_outside (s : State) (t id : Nat) : (s.poisonMsg t id).outside bulk = s.outside bulk := by
  simp [State.poisonMsg]

@[simp] theorem sfEntryUe_outside (s : State) (b set : Nat) (la : Option Nat) : (s.sfEntryUe b set la).outside bulk = s.outside bulk := by
  simp [State.sfEntryUe]

@[simp] theorem routeUe_outside (s : State) (t q : Nat) : (s.routeUe t q).outside bulk = s.outside bulk := by
  simp [State.routeUe]

@[simp] theorem tileUe_outside (s : State) (t : Nat) : (s.tileUe t).outside bulk = s.outside bulk := by
  simp [State.tileUe]

@[simp] theorem execSramUe_outside (st : Fin 10) (unit : Byte) (entry : Word) (la : Option Nat) (s : State) :
    Within bulk s (execSramUe st unit entry la s) := by
  unfold execSramUe
  split <;> simp

@[simp] theorem sfScrub_outside (s : State) (b : Nat) (la : Option Nat) (bad : Bool) : (s.sfScrub b la bad).outside bulk = s.outside bulk := by
  simp [State.sfScrub]

@[simp] theorem sfWait_outside (s : State) (b : Nat) (la : Option Nat) (bad : Bool) : (s.sfWait b la bad).outside bulk = s.outside bulk := by
  simp [State.sfWait]

@[simp] theorem execSfScrubSet_outside (b : BankIx) (idle bad : Bool) (la : Option Nat) (s : State) :
    Within bulk s (execSfScrubSet b idle bad la s) := by
  simp [execSfScrubSet]

@[simp] theorem execHbmRefresh_outside (h : StackIx) (pc : Fin 32) (idle : Bool) (s : State) : Within bulk s (execHbmRefresh h pc idle s) := by
  simp [execHbmRefresh]

@[simp] theorem scrubLost_outside (s : State) (area la : Nat) : (s.scrubLost area la).outside bulk = s.outside bulk := by
  unfold State.scrubLost
  split <;> simp

@[simp] theorem scrubSpoilt_outside (s : State) (h area addr : Nat) : (s.scrubSpoilt h area addr).outside bulk = s.outside bulk := by
  simp [State.scrubSpoilt]

@[simp] theorem scrubRead_outside (s : State) (h pc : Nat) (res : Fin 3) (la : Option Nat) (area : Nat) (addr : BitVec 64) :
    (s.scrubRead h pc res la area addr).outside bulk = s.outside bulk := by
  unfold State.scrubRead
  dsimp only
  (repeat' split) <;> simp

@[simp] theorem execPatrolScrubUnit_outside (h : StackIx) (pc : Fin 32) (idle : Bool) (res : Fin 3) (la : Option Nat) (area : Fin 8) (addr : BitVec 64) (s : State) :
    Within bulk s (execPatrolScrubUnit h pc idle res la area addr s) := by
  simp [execPatrolScrubUnit]

end Sys2Proof.Machine
end

section
namespace Sys2Proof.Machine

/-! ### The edge, and the commands that belong to the tick itself -/

@[simp] theorem stepEnd_outside (s : State) (d : Nat) (new : Tick) : (s.stepEnd d new).outside bulk = s.outside bulk := by
  simp [State.stepEnd]

@[simp] theorem countEdge_outside (s : State) : s.countEdge.outside bulk = s.outside bulk := by
  unfold State.countEdge
  split <;> simp

@[simp] theorem guard_outside (s : State) : s.guard.outside bulk = s.outside bulk := by
  unfold State.guard
  split
  · rfl
  · simp

@[simp] theorem tickEnd_outside (s : State) : s.tickEnd.outside bulk = s.outside bulk := by
  simp [State.tickEnd]

@[simp] theorem edge_outside (s : State) (tests : List (PortIx × LaneIx × Nat × Nat)) (cyc : List (Bool × Nat × Nat × ClassIx × Nat)) :
    (s.edge tests cyc).outside bulk = s.outside bulk := by
  unfold State.edge
  extract_lets s1 s2 s3 s4 s5 s6 s7
  have h1 : s1.outside bulk = s.outside bulk := by simp [s1]
  have h2 : s2.outside bulk = s1.outside bulk := by simp [s2]
  have h3 : s3.outside bulk = s2.outside bulk := by simp [s3]
  have h7 : s7.outside bulk = s3.outside bulk := by simp [s7, s6, s5, s4]
  simp [h7, h3, h2, h1]

@[simp] theorem execTickEdge_outside (tests : List (PortIx × LaneIx × Nat × Nat)) (cyc : List (Bool × Nat × Nat × ClassIx × Nat)) (s : State) :
    Within bulk s (execTickEdge tests cyc s) := by
  simp [execTickEdge]

@[simp] theorem execTickStepped_outside (tests : List (PortIx × LaneIx × Nat × Nat)) (cyc : List (Bool × Nat × Nat × ClassIx × Nat))
    (s : State) : Within bulk s (execTickStepped tests cyc s) := by
  simp [execTickStepped]

@[simp] theorem execGuardPoint_outside (s : State) : Within bulk s (execGuardPoint s) := by
  simp [execGuardPoint]

@[simp] theorem execAdjustmentTickStart_outside (s : State) : Within bulk s (execAdjustmentTickStart s) := by
  unfold execAdjustmentTickStart
  dsimp only
  (repeat' split) <;> simp

end Sys2Proof.Machine
end

section
namespace Sys2Proof.Machine

/-! ### One-time memory only grows (R349, R354) -/

/-- The queue of commands is the same, no burned bit of a fuse pair is lost and MGT_SVN_MIN did not fall. -/
def Outside.Grows (a b : Outside) : Prop :=
  b.pending = a.pending ∧ (∀ k i, i < 3 → nbit (tget 0 a.otp.1 k) i = true → nbit (tget 0 b.otp.1 k) i = true) ∧ a.otp.2 ≤ b.otp.2

@[simp] theorem Outside.Grows.refl (a : Outside) : a.Grows a := ⟨rfl, fun _ _ _ h => h, Nat.le_refl _⟩

theorem Outside.Grows.trans {a b c : Outside} (h : a.Grows b) (k : b.Grows c) : a.Grows c :=
  ⟨k.1.trans h.1, fun n i hi e => k.2.1 n i hi (h.2.1 n i hi e), h.2.2.trans k.2.2⟩

@[simp] theorem grows_ite (a b c : Outside) (p : Prop) [Decidable p] : a.Grows (if p then b else c) ↔ if p then a.Grows b else a.Grows c := by
  split <;> rfl

/-- The outcome is a next state whose one-time memory holds what that of `s` holds. -/
def Grown (s : State) (r : Host.Outcome State Fault Refusal) : Prop := ∃ t, r = .next t ∧ (s.outside bulk).Grows (t.outside bulk)

@[simp] theorem grown_next (s t : State) : Grown s (.next t) ↔ (s.outside bulk).Grows (t.outside bulk) :=
  ⟨fun ⟨_, e, h⟩ => by cases e; exact h, fun h => ⟨t, rfl, h⟩⟩

@[simp] theorem grown_ite (p : Prop) [Decidable p] (s : State) (a b : Host.Outcome State Fault Refusal) :
    Grown s (if p then a else b) ↔ if p then Grown s a else Grown s b := by
  split <;> rfl

theorem Within.grown {s : State} {r : Host.Outcome State Fault Refusal} (h : Within bulk s r) : Grown s r := by
  obtain ⟨t, e, h⟩ := h
  exact ⟨t, e, h ▸ .refl _⟩

variable {base : Outside}

theorem grows_of_otp {s t : State} (ho : base.Grows (s.outside bulk)) (hp : t.pending = s.pending) (hk : s.otpKept t) :
    base.Grows (t.outside bulk) := ho.trans ⟨hp, hk.1, hk.2⟩

/-- A list of steps that each only grow. -/
theorem grows_foldl {α : Type} {f : State → α → State} (h : ∀ (t : State) a, base.Grows (t.outside bulk) → base.Grows ((f t a).outside bulk)) (l : List α)
    (s : State) (ho : base.Grows (s.outside bulk)) : base.Grows ((l.foldl f s).outside bulk) := by
  induction l generalizing s with
  | nil => exact ho
  | cons a r ih => exact ih _ (h s a ho)

theorem grows_each {α : Type} {f : α → State → State} {s : State}
    (h : ∀ a (t : State), base.Grows (t.outside bulk) → base.Grows ((f a t).outside bulk)) (l : List α) (ho : base.Grows (s.outside bulk)) :
    base.Grows ((s.each l f).outside bulk) := grows_foldl (fun t a => h a t) l s ho

@[simp] theorem nextOr_grows {s : State} (ho : base.Grows (s.outside bulk)) {r : Host.Outcome State Fault Refusal} (h : Grown s r) :
    base.Grows ((nextOr s r).outside bulk) := by
  obtain ⟨t, rfl, h⟩ := h
  exact ho.trans h

theorem grows_foldl_fst {α β : Type} {f : State × β → α → State × β} (h : ∀ (x : State × β) a, base.Grows (x.1.outside bulk) → base.Grows ((f x a).1.outside bulk))
    (l : List α) (x : State × β) (ho : base.Grows (x.1.outside bulk)) : base.Grows ((l.foldl f x).1.outside bulk) := by
  induction l generalizing x with
  | nil => exact ho
  | cons a r ih => exact ih _ (h x a ho)

@[simp] theorem firstAnswer_grows {s : State} (ho : base.Grows (s.outside bulk)) : base.Grows (s.firstAnswer.outside bulk) := by
  unfold State.firstAnswer
  split
  · simp only [raise_outside, setN_outside, bulk_parts, and_self]
    exact grows_of_otp ho rfl ⟨fun _ _ _ h => h, Nat.le_max_left _ _⟩
  · exact ho

@[simp] theorem answer_grows {s : State} (ho : base.Grows (s.outside bulk)) (code : Nat) (q : Req) (st : Nat) (b : List Byte) :
    base.Grows ((s.answer code q st b).outside bulk) := by
  simp [State.answer, ho]

/-- Burning a fuse pair sets its three bits. -/
@[simp] theorem burn_grows {s : State} (ho : base.Grows (s.outside bulk)) (k : Nat) : base.Grows ((s.burn k).outside bulk) := by
  refine grows_of_otp ho rfl ⟨fun n i hi h => ?_, Nat.le_refl _⟩
  by_cases hn : n = k
  · subst hn
    have : i = 0 ∨ i = 1 ∨ i = 2 := by omega
    rcases this with rfl | rfl | rfl <;> simp [State.burn, nbit]
  · simpa [State.burn, tget_tput_ne _ _ _ _ hn] using h

@[simp] theorem nalug_run_grows {s : State} (ho : base.Grows (s.outside bulk)) (code : Nat) (q : Req) (body : List Byte) (f : OpForm)
    {act : State → State × Option (Nat × List Byte)} (h : ∀ t : State, (t.outside bulk).Grows ((act t).1.outside bulk)) :
    base.Grows ((s.nalug_run code q body f act).outside bulk) := by
  unfold State.nalug_run
  dsimp only
  split
  · exact ho
  split
  · simpa using ho
  split
  · exact ho
  split
  · simpa using ho
  split
  · exact answer_grows (by simpa using ho) _ _ _ _
  split
  · exact answer_grows (by split <;> simpa using ho) _ _ _ _
  split
  · simpa using ho
  have ha : base.Grows ((act ((s.takeInbox q).journalBegin code q body)).1.outside bulk) := by
    refine Outside.Grows.trans ?_ (h _)
    simpa using ho
  split
  · next t ht => rw [ht] at ha; simpa using ha
  · next t st b ht =>
    rw [ht] at ha
    exact answer_grows (by split <;> simpa using ha) _ _ _ _

theorem grown_nalug_run {s : State} {code : Nat} {q : Req} {body : List Byte} {f : OpForm} {act : State → State × Option (Nat × List Byte)}
    (h : ∀ t : State, (t.outside bulk).Grows ((act t).1.outside bulk)) : Grown s (.next (s.nalug_run code q body f act)) :=
  (grown_next _ _).mpr (nalug_run_grows (.refl _) code q body f h)

@[simp] theorem coldBase_grows {s : State} (ho : base.Grows (s.outside bulk)) : base.Grows (s.coldBase.outside bulk) := by
  unfold State.coldBase
  simp only [setReg_outside, bulk_parts]
  exact grows_of_otp ho rfl ⟨fun _ _ _ h => h, Nat.le_refl _⟩


@[simp] theorem nalugAccept_grows {s : State} (ho : base.Grows (s.outside bulk)) (src : Src) (b : List Byte) : base.Grows ((s.nalugAccept src b).outside bulk) := by
  unfold State.nalugAccept
  dsimp only
  (repeat' split) <;> simp [ho]

@[simp] theorem nalugMessage_grows {s : State} (ho : base.Grows (s.outside bulk)) (src : Src) (b : List Byte) : base.Grows ((s.nalugMessage src b).outside bulk) := by
  simp [State.nalugMessage, ho]

@[simp] theorem reassemble_grows {s : State} (ho : base.Grows (s.outside bulk)) (k : MctpPacket) (b : List Byte) : base.Grows ((s.reassemble k b).outside bulk) := by
  simp [State.reassemble, ho]

@[simp] theorem execNalugPacketReceive_grows (k : MctpPacket) (s : State) : Grown s (execNalugPacketReceive k s) := by
  unfold execNalugPacketReceive
  dsimp only
  (repeat' split) <;> simp

@[simp] theorem execOpIdentify_grows (q : Req) (body : List Byte) (s : State) : Grown s (execOpIdentify q body s) := by
  simp [execOpIdentify]

@[simp] theorem execOpWallclockMark_grows (q : Req) (body : List Byte) (s : State) : Grown s (execOpWallclockMark q body s) := by
  refine grown_nalug_run fun t => ?_
  simp [ok]

@[simp] theorem execOpLockAcquire_grows (q : Req) (body : List Byte) (s : State) : Grown s (execOpLockAcquire q body s) := by
  refine grown_nalug_run fun t => ?_
  dsimp only
  split <;> simp

@[simp] theorem execOpLockRelease_grows (q : Req) (body : List Byte) (s : State) : Grown s (execOpLockRelease q body s) := by
  simp [execOpLockRelease]

@[simp] theorem execOpLockQuery_grows (q : Req) (body : List Byte) (s : State) : Grown s (execOpLockQuery q body s) := by
  simp [execOpLockQuery]

@[simp] theorem execOpStepPoll_grows (q : Req) (body : List Byte) (s : State) : Grown s (execOpStepPoll q body s) := by
  simp [execOpStepPoll]

@[simp] theorem execOpStepResume_grows (q : Req) (body : List Byte) (s : State) : Grown s (execOpStepResume q body s) := by
  simp [execOpStepResume]

@[simp] theorem execOpEventConfig_grows (q : Req) (body : List Byte) (s : State) : Grown s (execOpEventConfig q body s) := by
  refine grown_nalug_run fun t => ?_
  dsimp only
  (repeat' split) <;> simp

@[simp] theorem execOpEventLogRead_grows (q : Req) (body : List Byte) (s : State) : Grown s (execOpEventLogRead q body s) := by
  simp [execOpEventLogRead]

@[simp] theorem brAnswer_grows {s : State} (ho : base.Grows (s.outside bulk)) (t : BrTxn) (st : Nat) (b : List Byte) : base.Grows ((s.brAnswer t st b).outside bulk) := by
  unfold State.brAnswer
  split <;> simp [ho]

@[simp] theorem brFinish_grows {s : State} (ho : base.Grows (s.outside bulk)) (t : BrTxn) (cause : Nat) (d : List Byte) : base.Grows ((s.brFinish t cause d).outside bulk) := by
  simp [State.brFinish, ho]

@[simp] theorem execBridgeTransactionDone_grows (cause : Fin 6) (data : List Byte) (s : State) :
    Grown s (execBridgeTransactionDone cause data s) := by
  unfold execBridgeTransactionDone
  split <;> simp

@[simp] theorem execBridgeHoldLimit_grows (s : State) : Grown s (execBridgeHoldLimit s) := by
  unfold execBridgeHoldLimit
  split <;> simp

@[simp] theorem execOpPmbusRead_grows (q : Req) (body : List Byte) (s : State) : Grown s (execOpPmbusRead q body s) := by
  simp [execOpPmbusRead]

@[simp] theorem execOpPmbusWrite_grows (q : Req) (body : List Byte) (s : State) : Grown s (execOpPmbusWrite q body s) := by
  simp [execOpPmbusWrite]

@[simp] theorem execPwrBrCmdWrite_grows (_m : Fin 8) (vendor : Bool) (v : Word) (s : State) :
    Grown s (execPwrBrCmdWrite _m vendor v s) := by
  simp [execPwrBrCmdWrite]

@[simp] theorem execOpTelemetryRead_grows (q : Req) (body : List Byte) (s : State) : Grown s (execOpTelemetryRead q body s) := by
  simp [execOpTelemetryRead]

@[simp] theorem execOpFwWrite_grows (q : Req) (body : List Byte) (s : State) : Grown s (execOpFwWrite q body s) := by
  simp [execOpFwWrite]

@[simp] theorem execOpFwCommit_grows (q : Req) (body : List Byte) (s : State) : Grown s (execOpFwCommit q body s) := by
  simp [execOpFwCommit]

@[simp] theorem execOpFjxRead_grows (q : Req) (body : List Byte) (s : State) : Grown s (execOpFjxRead q body s) := by
  refine grown_nalug_run fun t => ?_
  split <;> simp

@[simp] theorem execOpFjxWrite_grows (q : Req) (body : List Byte) (s : State) : Grown s (execOpFjxWrite q body s) := by
  simp [execOpFjxWrite]

@[simp] theorem execOpFjxCommit_grows (q : Req) (body : List Byte) (s : State) : Grown s (execOpFjxCommit q body s) := by
  simp [execOpFjxCommit]

@[simp] theorem execOpLifecycleSet_grows (q : Req) (body : List Byte) (s : State) : Grown s (execOpLifecycleSet q body s) := by
  refine grown_nalug_run fun t => ?_
  dsimp only
  split <;> simp

@[simp] theorem lifecycleStep_grows {s : State} (ho : base.Grows (s.outside bulk)) (k tgt : Nat) : base.Grows ((s.lifecycleStep k tgt).outside bulk) := by
  unfold State.lifecycleStep
  split <;> simp [ho]

@[simp] theorem execOpDebugUnlock_grows (q : Req) (body : List Byte) (s : State) : Grown s (execOpDebugUnlock q body s) := by
  simp [execOpDebugUnlock]

@[simp] theorem completePending_grows {s : State} (ho : base.Grows (s.outside bulk)) : base.Grows (s.completePending.outside bulk) := by
  unfold State.completePending
  split <;> simp [ho]

@[simp] theorem bootRom_grows {s : State} (ho : base.Grows (s.outside bulk)) (cold : Bool) : base.Grows ((s.bootRom cold).outside bulk) := by
  simp [State.bootRom, ho]

@[simp] theorem execRecoveryBootStart_grows (s : State) : Grown s (execRecoveryBootStart s) := by
  simp [execRecoveryBootStart]

@[simp] theorem execOpMcSwitch_grows (q : Req) (body : List Byte) (s : State) : Grown s (execOpMcSwitch q body s) := by
  simp [execOpMcSwitch]

@[simp] theorem execOpModuleOff_grows (q : Req) (body : List Byte) (s : State) : Grown s (execOpModuleOff q body s) := by
  simp [execOpModuleOff]

@[simp] theorem execOpSliceAssign_grows (q : Req) (body : List Byte) (s : State) : Grown s (execOpSliceAssign q body s) := by
  simp [execOpSliceAssign]

@[simp] theorem execOpSliceRelease_grows (q : Req) (body : List Byte) (s : State) : Grown s (execOpSliceRelease q body s) := by
  refine grown_nalug_run fun t => ?_
  (repeat' split) <;> simp

@[simp] theorem execOpDomainCreate_grows (q : Req) (body : List Byte) (s : State) : Grown s (execOpDomainCreate q body s) := by
  simp [execOpDomainCreate]

@[simp] theorem execOpDomainAgentAdd_grows (q : Req) (body : List Byte) (s : State) : Grown s (execOpDomainAgentAdd q body s) := by
  refine grown_nalug_run fun t => ?_
  dsimp only
  (repeat' split) <;> simp

@[simp] theorem execOpDomainAgentRemove_grows (q : Req) (body : List Byte) (s : State) :
    Grown s (execOpDomainAgentRemove q body s) := by
  refine grown_nalug_run fun t => ?_
  dsimp only
  (repeat' split) <;> simp

@[simp] theorem execOpDomainTeardown_grows (q : Req) (body : List Byte) (s : State) : Grown s (execOpDomainTeardown q body s) := by
  refine grown_nalug_run fun t => ?_
  split <;> simp

@[simp] theorem execOpVcsCreate_grows (q : Req) (body : List Byte) (s : State) : Grown s (execOpVcsCreate q body s) := by
  refine grown_nalug_run fun t => ?_
  (repeat' split) <;> simp

@[simp] theorem execOpBind_grows (q : Req) (body : List Byte) (s : State) : Grown s (execOpBind q body s) := by
  refine grown_nalug_run fun t => ?_
  dsimp only
  (repeat' split) <;> simp

@[simp] theorem execOpUnbind_grows (q : Req) (body : List Byte) (s : State) : Grown s (execOpUnbind q body s) := by
  refine grown_nalug_run fun t => ?_
  split
  · split
    · simp
    · simp [revoke_outside (S := bulk) rfl ‹_›]
  dsimp only
  split
  · simp
  split
  · simp
  split
  · simp
  · simp
  · simp [revoke_outside (S := bulk) rfl ‹_›]

@[simp] theorem execOpRebind_grows (q : Req) (body : List Byte) (s : State) : Grown s (execOpRebind q body s) := by
  refine grown_nalug_run fun t => ?_
  extract_lets x old rv
  have hrv : ∀ u, rv = some u → u.outside bulk = t.outside bulk := by
    intro u hu
    cases h : old with
    | none => exact revoke_outside rfl (by simpa [rv, h] using hu)
    | some o => exact revoke_outside rfl (by simpa [rv, h] using hu)
  clear_value rv
  rw [fst_outside_of_ite (k := t.outside bulk) (by simp) (fst_outside_of_ite (by simp) (fst_outside_of_ite (by simp)
    (fst_outside_of_ite (by simp) ?_)))]
  · exact .refl _
  split
  · simp
  · simp
  · next u _ =>
    have hu := hrv u rfl
    split <;> simp [hu]

@[simp] theorem execOpDirRebuild_grows (q : Req) (body : List Byte) (s : State) : Grown s (execOpDirRebuild q body s) := by
  refine grown_nalug_run fun t => ?_
  dsimp only
  (repeat' split) <;> simp

@[simp] theorem execOpQosFlowSet_grows (q : Req) (b : List Byte) (s : State) : Grown s (execOpQosFlowSet q b s) := by
  simp [execOpQosFlowSet]

@[simp] theorem execOpQosFlowClear_grows (q : Req) (b : List Byte) (s : State) : Grown s (execOpQosFlowClear q b s) := by
  simp [execOpQosFlowClear]

@[simp] theorem execOpQosReserve_grows (q : Req) (b : List Byte) (s : State) : Grown s (execOpQosReserve q b s) := by
  refine grown_nalug_run fun t => ?_
  dsimp only
  (repeat' split) <;> simp

@[simp] theorem execOpQosRelease_grows (q : Req) (b : List Byte) (s : State) : Grown s (execOpQosRelease q b s) := by
  refine grown_nalug_run fun t => ?_
  split <;> simp

@[simp] theorem execOpQosTargetSet_grows (q : Req) (b : List Byte) (s : State) : Grown s (execOpQosTargetSet q b s) := by
  simp [execOpQosTargetSet]

@[simp] theorem execOpInsBind_grows (q : Req) (b : List Byte) (s : State) : Grown s (execOpInsBind q b s) := by
  refine grown_nalug_run fun t => ?_
  split <;> simp

@[simp] theorem execOpInsUnbind_grows (q : Req) (b : List Byte) (s : State) : Grown s (execOpInsUnbind q b s) := by
  simp [execOpInsUnbind]

@[simp] theorem execOpInsSetRate_grows (q : Req) (b : List Byte) (s : State) : Grown s (execOpInsSetRate q b s) := by
  simp [execOpInsSetRate]

@[simp] theorem execOpInsReset_grows (q : Req) (b : List Byte) (s : State) : Grown s (execOpInsReset q b s) := by
  simp [execOpInsReset]

@[simp] theorem execOpPortMode_grows (q : Req) (body : List Byte) (s : State) : Grown s (execOpPortMode q body s) := by
  simp [execOpPortMode]

@[simp] theorem execOpPortMerge_grows (q : Req) (body : List Byte) (s : State) : Grown s (execOpPortMerge q body s) := by
  refine grown_nalug_run fun t => ?_
  simp

@[simp] theorem execOpVcsVppbBind_grows (q : Req) (body : List Byte) (s : State) : Grown s (execOpVcsVppbBind q body s) := by
  simp [execOpVcsVppbBind]

@[simp] theorem execOpVcsVppbUnbind_grows (q : Req) (body : List Byte) (s : State) : Grown s (execOpVcsVppbUnbind q body s) := by
  simp [execOpVcsVppbUnbind]

@[simp] theorem execOpVcsDestroy_grows (q : Req) (body : List Byte) (s : State) : Grown s (execOpVcsDestroy q body s) := by
  refine grown_nalug_run fun t => ?_
  split <;> simp

@[simp] theorem execOpUnitRetire_grows (q : Req) (body : List Byte) (s : State) : Grown s (execOpUnitRetire q body s) := by
  simp [execOpUnitRetire]

@[simp] theorem globWrite_grows {s : State} (ho : base.Grows (s.outside bulk)) (m lvl o : Nat) (v bm : Word) :
    base.Grows ((s.globWrite m lvl o v bm).outside bulk) := by
  simp [State.globWrite, ho]

@[simp] theorem writeWord_grows {s : State} (ho : base.Grows (s.outside bulk)) (m lvl o be : Nat) (v : Word) : base.Grows ((s.writeWord m lvl o be v).outside bulk) := by
  unfold State.writeWord
  dsimp only
  (repeat' split) <;> simp [ho]

@[simp] theorem regWrite_grows {s : State} (ho : base.Grows (s.outside bulk)) (m lvl o : Nat) (b : List Byte) :
    base.Grows ((s.regWrite m lvl o b).outside bulk) := by
  unfold State.regWrite
  dsimp only
  have hw : ∀ (l : List Nat) (off be v : Nat → Nat),
      base.Grows ((s.each l (fun k t => t.writeWord m lvl (off k) (be k) (BitVec.ofNat 32 (v k)))).outside bulk) :=
    fun l off be v => grows_each (fun k t ht => writeWord_grows ht _ _ _ _ _) l ho
  (repeat' split) <;> simp [ho, hw]

@[simp] theorem execMgtAcuCtlSelWrite_grows (t m : Fin 8) (lvl : Fin 3) (sel : Bool) (s : State) :
    Grown s (execMgtAcuCtlSelWrite t m lvl sel s) := by
  simp [execMgtAcuCtlSelWrite]

@[simp] theorem execMgtAcuCtlLockWrite_grows (t m : Fin 8) (lvl : Fin 3) (s : State) : Grown s (execMgtAcuCtlLockWrite t m lvl s) := by
  simp [execMgtAcuCtlLockWrite]

@[simp] theorem execRegisterWrite_grows (m : Fin 8) (lvl : Fin 3) (off : Word) (b : List Byte) (s : State) :
    Grown s (execRegisterWrite m lvl off b s) := by
  simp [execRegisterWrite]

@[simp] theorem execOpRegRead_grows (q : Req) (body : List Byte) (s : State) : Grown s (execOpRegRead q body s) := by
  refine grown_nalug_run fun t => ?_
  split <;> simp

@[simp] theorem nalugWord_grows {s : State} (ho : base.Grows (s.outside bulk)) (o : Nat) (v : Word) : base.Grows ((s.nalugWord o v).outside bulk) := by
  unfold State.nalugWord
  split <;> simp [ho]

@[simp] theorem execOpRegWrite_grows (q : Req) (body : List Byte) (s : State) : Grown s (execOpRegWrite q body s) := by
  refine grown_nalug_run fun t => ?_
  have hw : (t.outside bulk).Grows ((t.each (List.range (byteAt body 4)) (fun k u =>
      u.nalugWord (leAt body 0 4 + 4 * k) (BitVec.ofNat 32 (leAt (body.drop 8) (4 * k) 4)))).outside bulk) :=
    grows_each (fun k u hu => nalugWord_grows hu _ _) _ (.refl _)
  split <;> simp [hw]

@[simp] theorem execOpSetModuleId_grows (q : Req) (body : List Byte) (s : State) : Grown s (execOpSetModuleId q body s) := by
  simp [execOpSetModuleId]

@[simp] theorem resetDone_grows {s : State} (ho : base.Grows (s.outside bulk)) (scope source : Nat) (absorbed : List Req) :
    base.Grows ((s.resetDone scope source absorbed).outside bulk) := by
  unfold State.resetDone
  refine grows_each (fun q t ht => by simp [ht]) _ ?_
  simp [ho]

@[simp] theorem warmFinish_grows {s : State} (ho : base.Grows (s.outside bulk)) (source : Nat) : base.Grows ((s.warmFinish source).outside bulk) := by
  simp [State.warmFinish, ho]

@[simp] theorem execWarmResetDrainDone_grows (s : State) : Grown s (execWarmResetDrainDone s) := by
  unfold execWarmResetDrainDone
  split <;> simp

@[simp] theorem fjxReg_grows {x : State × Option Nat} (ho : base.Grows (x.1.outside bulk)) (e : Nat × Nat × Nat) :
    base.Grows ((State.fjxReg x e).1.outside bulk) := by
  unfold State.fjxReg
  dsimp only
  split
  · exact ho
  · split <;> simp [ho]

@[simp] theorem fjxRecord_grows {x : State × Option Nat} (ho : base.Grows (x.1.outside bulk)) (r : FjxRec) :
    base.Grows ((State.fjxRecord x r).1.outside bulk) := by
  cases r with
  | ports l =>
    have h : ((l.foldl State.fjxPort x.1).outside bulk) = x.1.outside bulk := outside_foldl fjxPort_outside l x.1
    simpa [State.fjxRecord, h] using ho
  | regs l => exact grows_foldl_fst (fun _ _ h => fjxReg_grows h _) l (x.1, x.2) ho
  | _ => simp [State.fjxRecord, ho]

@[simp] theorem fjxApply_grows {s : State} (ho : base.Grows (s.outside bulk)) : base.Grows (s.fjxApply.outside bulk) := by
  unfold State.fjxApply
  extract_lets s1
  have h1 : base.Grows (s1.outside bulk) := by
    refine grows_each (fun i t ht => ?_) _ ho
    split <;> simp [ht]
  clear_value s1
  split
  · simp [h1]
  · next i _ =>
    have h2 := grows_foldl_fst (fun _ r h => fjxRecord_grows h r) ((s1.fjxParse (s1.fjxCopy i)).getD []) (s1, none) h1
    dsimp only
    generalize List.foldl _ _ _ = x at h2 ⊢
    cases x.2 <;> simp [h2]

@[simp] theorem execBootRomStart_grows (s : State) : Grown s (execBootRomStart s) := by
  simp [execBootRomStart]

@[simp] theorem execOpReset_grows (q : Req) (body : List Byte) (s : State) : Grown s (execOpReset q body s) := by
  unfold execOpReset
  dsimp only
  split <;> simp

@[simp] theorem stepOnce_grows {s : State} (ho : base.Grows (s.outside bulk)) (k : Nat) {f : State → State}
    (h : ∀ t : State, base.Grows (t.outside bulk) → base.Grows ((f t).outside bulk)) : base.Grows ((s.stepOnce k f).outside bulk) := by
  unfold State.stepOnce
  dsimp only
  split
  · exact ho
  · exact h _ (by simpa using ho)

@[simp] theorem runStep_grows {s : State} (ho : base.Grows (s.outside bulk)) (k : Nat) : base.Grows ((s.runStep k).outside bulk) := by
  unfold State.runStep
  dsimp only
  split
  case h_4 => exact stepOnce_grows ho k fun t ht => by simp [ht]
  all_goals simp [ho]

@[simp] theorem execSteppedCommandStep_grows (s : State) : Grown s (execSteppedCommandStep s) := by
  have h : (s.outside bulk).Grows ((s.each (List.range 32) (fun k t => t.runStep k)).outside bulk) :=
    grows_each (fun k t ht => runStep_grows ht k) _ (.refl _)
  simp [execSteppedCommandStep, h]

@[simp] theorem execPllRelock_grows (d : Fin 15) (s : State) : Grown s (execPllRelock d s) := by
  unfold execPllRelock
  dsimp only
  (repeat' split) <;> simp

@[simp] theorem execCrossingTimeout_grows (x : Fin 1024) (m : Fin 8) (off : Word) (write : Bool) (req : Option (Req × Nat)) (s : State) :
    Grown s (execCrossingTimeout x m off write req s) := by
  unfold execCrossingTimeout
  dsimp only
  (repeat' split) <;> simp

end Sys2Proof.Machine
end

section
namespace Sys2Proof.Machine

@[simp] theorem execKeeperPowerOn_grows (s : State) : Grown s (execKeeperPowerOn s) := by
  unfold execKeeperPowerOn
  split
  · simp
  · simp [coldBase_grows]

@[simp] theorem coldReset_grows {base : Outside} {s : State} (ho : base.Grows (s.outside bulk)) (source : Nat) (fails : List (Nat × Nat)) :
    base.Grows ((s.coldReset source fails).outside bulk) := by
  unfold State.coldReset
  extract_lets ran scope s0 m p s1 s2 s3 s4 s5
  have h0 : base.Grows (s0.outside bulk) := coldBase_grows ho
  have h1 : base.Grows (s1.outside bulk) := by simpa [s1, m] using h0
  clear_value s1
  have h2 : base.Grows (s2.outside bulk) := bootRom_grows (by simpa using h1) true
  clear_value s2
  have h3 : base.Grows (s3.outside bulk) := by
    unfold s3
    split
    · exact fjxApply_grows h2
    · exact h2
  clear_value s3
  have h5 : base.Grows (s5.outside bulk) := resetDone_grows (by simpa [s4] using h3) _ _ _
  split
  · simpa using h5
  · exact h5

@[simp] theorem execColdModuleReset_grows (fails : List (Fin 12 × Nat)) (s : State) : Grown s (execColdModuleReset fails s) := by
  unfold execColdModuleReset
  split <;> simp

/-- Whatever is commanded, the block goes on, its queue as it was, and one-time memory holds what it held. -/
theorem exec_grows (c : Instr) (s : State) : Grown s (exec c s) := by
  cases c with
  | tickEdge tests cyc => exact Within.grown (execTickEdge_outside tests cyc s)
  | guardPoint => exact Within.grown (execGuardPoint_outside s)
  | syncReceive p m trim => exact Within.grown (execSyncReceive_outside p m trim s)
  | masterLossTimeout => exact Within.grown (execMasterLossTimeout_outside s)
  | adjustmentTickStart => exact Within.grown (execAdjustmentTickStart_outside s)
  | tickStepped tests cyc => exact Within.grown (execTickStepped_outside tests cyc s)
  | glbTickCtlMasterElig v => exact Within.grown (execGlbTickCtlMasterElig_outside v s)
  | opWallclockMark q body => exact execOpWallclockMark_grows q body s
  | opUnitRetire q body => exact execOpUnitRetire_grows q body s
  | nalugPacketReceive k => exact execNalugPacketReceive_grows k s
  | mctpReassemblyTimeout src tag owner => exact Within.grown (execMctpReassemblyTimeout_outside src tag owner s)
  | setEndpointId src eid => exact Within.grown (execSetEndpointId_outside src eid s)
  | getEndpointId src => exact Within.grown (execGetEndpointId_outside src s)
  | getMctpVersionSupport src => exact Within.grown (execGetMctpVersionSupport_outside src s)
  | getMessageTypeSupport src => exact Within.grown (execGetMessageTypeSupport_outside src s)
  | getVendorDefinedMessageSupport src => exact Within.grown (execGetVendorDefinedMessageSupport_outside src s)
  | opIdentify q body => exact execOpIdentify_grows q body s
  | opRegRead q body => exact execOpRegRead_grows q body s
  | opRegWrite q body => exact execOpRegWrite_grows q body s
  | opSetModuleId q body => exact execOpSetModuleId_grows q body s
  | opReset q body => exact execOpReset_grows q body s
  | opLockAcquire q body => exact execOpLockAcquire_grows q body s
  | opLockRelease q body => exact execOpLockRelease_grows q body s
  | opLockQuery q body => exact execOpLockQuery_grows q body s
  | opStepPoll q body => exact execOpStepPoll_grows q body s
  | opStepResume q body => exact execOpStepResume_grows q body s
  | opEventConfig q body => exact execOpEventConfig_grows q body s
  | opEventLogRead q body => exact execOpEventLogRead_grows q body s
  | steppedCommandStep => exact execSteppedCommandStep_grows s
  | eventDrain => exact Within.grown (execEventDrain_outside s)
  | glbEvPendWrite v => exact Within.grown (execGlbEvPendWrite_outside v s)
  | smbusClockLowTimeout b => exact Within.grown (execSmbusClockLowTimeout_outside b s)
  | i3cTargetReset b => exact Within.grown (execI3cTargetReset_outside b s)
  | sbArbRetry b => exact Within.grown (execSbArbRetry_outside b s)
  | pwrBrCmdWrite m vendor v => exact execPwrBrCmdWrite_grows m vendor v s
  | pwrBrDataRead m w => exact Within.grown (execPwrBrDataRead_outside m w s)
  | bridgeTransactionDone cause data => exact execBridgeTransactionDone_grows cause data s
  | bridgeHoldLimit => exact execBridgeHoldLimit_grows s
  | bridgePollRound rs => exact Within.grown (execBridgePollRound_outside rs s)
  | opPmbusRead q body => exact execOpPmbusRead_grows q body s
  | opPmbusWrite q body => exact execOpPmbusWrite_grows q body s
  | opTelemetryRead q body => exact execOpTelemetryRead_grows q body s
  | bootRomStart => exact execBootRomStart_grows s
  | recoveryBootStart => exact execRecoveryBootStart_grows s
  | bootWatchdogExpiry => exact Within.grown (execBootWatchdogExpiry_outside s)
  | opFwWrite q body => exact execOpFwWrite_grows q body s
  | flashProgramDone fjx n ok => exact Within.grown (execFlashProgramDone_outside fjx n ok s)
  | opFwCommit q body => exact execOpFwCommit_grows q body s
  | opFjxRead q body => exact execOpFjxRead_grows q body s
  | opFjxWrite q body => exact execOpFjxWrite_grows q body s
  | opFjxCommit q body => exact execOpFjxCommit_grows q body s
  | opLifecycleSet q body => exact execOpLifecycleSet_grows q body s
  | opDebugUnlock q body => exact execOpDebugUnlock_grows q body s
  | opMcSwitch q body => exact execOpMcSwitch_grows q body s
  | heartbeatTimeout => exact Within.grown (execHeartbeatTimeout_outside s)
  | mcFatalFault c => exact Within.grown (execMcFatalFault_outside c s)
  | checkpointStart => exact Within.grown (execCheckpointStart_outside s)
  | checkpointSlice => exact Within.grown (execCheckpointSlice_outside s)
  | mgtAcuCtlSelWrite t m lvl sel => exact execMgtAcuCtlSelWrite_grows t m lvl sel s
  | mgtAcuCtlLockWrite t m lvl => exact execMgtAcuCtlLockWrite_grows t m lvl s
  | registerWrite m lvl off bytes => exact execRegisterWrite_grows m lvl off bytes s
  | rcRegisterRead m lvl off n => exact Within.grown (execRcRegisterRead_outside m lvl off n s)
  | counterLowWordRead m lvl off => exact Within.grown (execCounterLowWordRead_outside m lvl off s)
  | seatPinsSeated => exact Within.grown (execSeatPinsSeated_outside s)
  | seatPinChange a b => exact Within.grown (execSeatPinChange_outside a b s)
  | seatDebounceExpiry => exact Within.grown (execSeatDebounceExpiry_outside s)
  | onReqLow va vb vbus midA midB => exact Within.grown (execOnReqLow_outside va vb vbus midA midB s)
  | faultOnReqCycle => exact Within.grown (execFaultOnReqCycle_outside s)
  | inrushComplete => exact Within.grown (execInrushComplete_outside s)
  | inrushTimeout => exact Within.grown (execInrushTimeout_outside s)
  | inrushFeedLost => exact Within.grown (execInrushFeedLost_outside s)
  | railGroupSettled g => exact Within.grown (execRailGroupSettled_outside g s)
  | railGroupTimeout g => exact Within.grown (execRailGroupTimeout_outside g s)
  | railFault g => exact Within.grown (execRailFault_outside g s)
  | extraction => exact Within.grown (execExtraction_outside s)
  | vbusUndervoltage => exact Within.grown (execVbusUndervoltage_outside s)
  | onReqHigh => exact Within.grown (execOnReqHigh_outside s)
  | opModuleOff q body => exact execOpModuleOff_grows q body s
  | pwrCtlOff => exact Within.grown (execPwrCtlOff_outside s)
  | pwrCtlFeedAEn v => exact Within.grown (execPwrCtlFeedAEn_outside v s)
  | pwrCtlFeedBEn v => exact Within.grown (execPwrCtlFeedBEn_outside v s)
  | orderlyOffGroupDisable g => exact Within.grown (execOrderlyOffGroupDisable_outside g s)
  | vbusDischarged => exact Within.grown (execVbusDischarged_outside s)
  | feedOutOfRange f mv => exact Within.grown (execFeedOutOfRange_outside f mv s)
  | feedInRange f mv => exact Within.grown (execFeedInRange_outside f mv s)
  | oringTurnOff f => exact Within.grown (execOringTurnOff_outside f s)
  | oringFail f => exact Within.grown (execOringFail_outside f s)
  | cbTrip f ma => exact Within.grown (execCbTrip_outside f ma s)
  | cbRetry f => exact Within.grown (execCbRetry_outside f s)
  | passDamaged a b => exact Within.grown (execPassDamaged_outside a b s)
  | keeperPowerOn => exact execKeeperPowerOn_grows s
  | pllLockLoss d => exact Within.grown (execPllLockLoss_outside d s)
  | pllRelock d => exact execPllRelock_grows d s
  | tilePllRelockTimeout t => exact Within.grown (execTilePllRelockTimeout_outside t s)
  | corePllRelockTimeout => exact Within.grown (execCorePllRelockTimeout_outside s)
  | crossingEventDelivery x k => exact Within.grown (execCrossingEventDelivery_outside x k s)
  | crossingTimeout x m off write req => exact execCrossingTimeout_grows x m off write req s
  | coldModuleReset fails => exact execColdModuleReset_grows fails s
  | warmModuleReset => exact Within.grown (execWarmModuleReset_outside s)
  | warmResetDrainDone => exact execWarmResetDrainDone_grows s
  | tileReset t => exact Within.grown (execTileReset_outside t s)
  | portReset p => exact Within.grown (execPortReset_outside p s)
  | mortarHeaderUe => exact Within.grown (execMortarHeaderUe_outside s)
  | sramUe st unit entry la => exact Within.grown (execSramUe_outside st unit entry la s)
  | sfScrubSet b idle bad la => exact Within.grown (execSfScrubSet_outside b idle bad la s)
  | hbmRefresh h pc idle => exact Within.grown (execHbmRefresh_outside h pc idle s)
  | patrolScrubUnit h pc idle res la area addr => exact Within.grown (execPatrolScrubUnit_outside h pc idle res la area addr s)
  | monitorSample temps volts => exact Within.grown (execMonitorSample_outside temps volts s)
  | roMeasure khz => exact Within.grown (execRoMeasure_outside khz s)
  | pmcConfigWrite tile c k v => exact Within.grown (execPmcConfigWrite_outside tile c k v s)
  | pmcCntWrite tile c v => exact Within.grown (execPmcCntWrite_outside tile c v s)
  | bwWindowEnd cxl => exact Within.grown (execBwWindowEnd_outside cxl s)
  | dumpWriteUnit good => exact Within.grown (execDumpWriteUnit_outside good s)
  | latencyRecordWrite => exact Within.grown (execLatencyRecordWrite_outside s)
  | auditGo v => exact Within.grown (execAuditGo_outside v s)
  | auditCheck => exact Within.grown (execAuditCheck_outside s)
  | auditTimeout => exact Within.grown (execAuditTimeout_outside s)
  | mortarBeatGrant d => exact Within.grown (execMortarBeatGrant_outside d s)
  | tileMessageAccept p m => exact Within.grown (execTileMessageAccept_outside p m s)
  | spillFetch p c egress => exact Within.grown (execSpillFetch_outside p c egress s)
  | holdListRelease t fc src => exact Within.grown (execHoldListRelease_outside t fc src s)
  | calendarSlotDue t fc src => exact Within.grown (execCalendarSlotDue_outside t fc src s)
  | egressDrrTurn p credit => exact Within.grown (execEgressDrrTurn_outside p credit s)
  | messageAged p c egress => exact Within.grown (execMessageAged_outside p c egress s)
  | opQosFlowSet q body => exact execOpQosFlowSet_grows q body s
  | opQosFlowClear q body => exact execOpQosFlowClear_grows q body s
  | flowChangeApply => exact Within.grown (execFlowChangeApply_outside (by simp) s)
  | opQosReserve q body => exact execOpQosReserve_grows q body s
  | opQosRelease q body => exact execOpQosRelease_grows q body s
  | opQosTargetSet q body => exact execOpQosTargetSet_grows q body s
  | tlQosCtlWrite t v => exact Within.grown (execTlQosCtlWrite_outside (by simp) t v s)
  | qosModeChange t => exact Within.grown (execQosModeChange_outside (by simp) t s)
  | qosRescale tgt => exact Within.grown (execQosRescale_outside (by simp) tgt s)
  | homeRds r => exact Within.grown (execHomeRds_outside (by simp) r s)
  | homeRda r => exact Within.grown (execHomeRda_outside (by simp) r s)
  | homeRdown r => exact Within.grown (execHomeRdown_outside (by simp) r s)
  | homeNcr r => exact Within.grown (execHomeNcr_outside (by simp) r s)
  | homeNcw r => exact Within.grown (execHomeNcw_outside r s)
  | homeWb r => exact Within.grown (execHomeWb_outside r s)
  | homeCe r => exact Within.grown (execHomeCe_outside (by simp) r s)
  | memspecrd r => exact Within.grown (execMemspecrd_outside r s)
  | clflush r => exact Within.grown (execClflush_outside (by simp) r s)
  | biconflict fid la => exact Within.grown (execBiconflict_outside (by simp) fid la s)
  | snoopResponse la a => exact Within.grown (execSnoopResponse_outside la a s)
  | sfLookupDone k => exact Within.grown (execSfLookupDone_outside k s)
  | deviceReadComplete rid d poison => exact Within.grown (execDeviceReadComplete_outside rid d poison s)
  | lineStoreWriteAck la => exact Within.grown (execLineStoreWriteAck_outside la s)
  | lineQueueAdvance la => exact Within.grown (execLineQueueAdvance_outside la s)
  | lsVictimWriteDone la => exact Within.grown (execLsVictimWriteDone_outside la s)
  | blanketWindowEnd => exact Within.grown (execBlanketWindowEnd_outside s)
  | blanketEnter d => exact Within.grown (execBlanketEnter_outside d s)
  | exitWalkStart d => exact Within.grown (execExitWalkStart_outside d s)
  | exitWalkStep d => exact Within.grown (execExitWalkStep_outside d s)
  | blanketExit d => exact Within.grown (execBlanketExit_outside d s)
  | snoopTimeout k fid => exact Within.grown (execSnoopTimeout_outside k fid s)
  | opSliceAssign q body => exact execOpSliceAssign_grows q body s
  | opSliceRelease q body => exact execOpSliceRelease_grows q body s
  | opDomainCreate q body => exact execOpDomainCreate_grows q body s
  | opDomainAgentAdd q body => exact execOpDomainAgentAdd_grows q body s
  | opDomainAgentRemove q body => exact execOpDomainAgentRemove_grows q body s
  | opDomainTeardown q body => exact execOpDomainTeardown_grows q body s
  | opVcsCreate q body => exact execOpVcsCreate_grows q body s
  | opVcsDestroy q body => exact execOpVcsDestroy_grows q body s
  | opVcsVppbBind q body => exact execOpVcsVppbBind_grows q body s
  | opVcsVppbUnbind q body => exact execOpVcsVppbUnbind_grows q body s
  | opBind q body => exact execOpBind_grows q body s
  | opUnbind q body => exact execOpUnbind_grows q body s
  | opRebind q body => exact execOpRebind_grows q body s
  | opDirRebuild q body => exact execOpDirRebuild_grows q body s
  | unbindDrainDone k => exact Within.grown (execUnbindDrainDone_outside (by simp) k s)
  | walkStep k => exact Within.grown (execWalkStep_outside k s)
  | ptEdgeIdWrite p ld v => exact Within.grown (execPtEdgeIdWrite_outside p ld v s)
  | hamperPortEntryWrite v k off b => exact Within.grown (execHamperPortEntryWrite_outside (by simp) v k off b s)
  | hamperPortHeaderWrite v k off b => exact Within.grown (execHamperPortHeaderWrite_outside v k off b s)
  | hmpSlotAck v k => exact Within.grown (execHmpSlotAck_outside (by simp) v k s)
  | hpartReceive m => exact Within.grown (execHpartReceive_outside m s)
  | hamperArbitration => exact Within.grown (execHamperArbitration_outside (by simp) s)
  | hamperLineAcquire key ix => exact Within.grown (execHamperLineAcquire_outside key ix s)
  | hamperVoteSend key => exact Within.grown (execHamperVoteSend_outside key s)
  | hvoteReceive m => exact Within.grown (execHvoteReceive_outside (by simp) m s)
  | hamperDecide => exact Within.grown (execHamperDecide_outside s)
  | commitLogWriteAck key type => exact Within.grown (execCommitLogWriteAck_outside (by simp) key type s)
  | hdecideReceive m => exact Within.grown (execHdecideReceive_outside (by simp) m s)
  | hquerySend key => exact Within.grown (execHquerySend_outside (by simp) key s)
  | hqueryReceive m => exact Within.grown (execHqueryReceive_outside m s)
  | hanswerReceive m => exact Within.grown (execHanswerReceive_outside (by simp) m s)
  | hamperIndoubtPoison key => exact Within.grown (execHamperIndoubtPoison_outside (by simp) key s)
  | indoubtRecordRewrite key => exact Within.grown (execIndoubtRecordRewrite_outside key s)
  | hmpTimingWrite second v => exact Within.grown (execHmpTimingWrite_outside (by simp) second v s)
  | hbmBurstArrival h pc slot attempt half quality => exact Within.grown (execHbmBurstArrival_outside h pc slot attempt half quality s)
  | pairingHoldExpiry h pc slot => exact Within.grown (execPairingHoldExpiry_outside h pc slot s)
  | hbmStackRetire h => exact Within.grown (execHbmStackRetire_outside h s)
  | mirrorCopyUnit => exact Within.grown (execMirrorCopyUnit_outside s)
  | insDoorbellWrite ix tail => exact Within.grown (execInsDoorbellWrite_outside (by simp) ix tail s)
  | ringEnable ix ext => exact Within.grown (execRingEnable_outside (by simp) ix ext s)
  | ringDisable ix => exact Within.grown (execRingDisable_outside (by simp) ix s)
  | ringUnitFetch ix data => exact Within.grown (execRingUnitFetch_outside (by simp) ix data s)
  | nop ix ext => exact Within.grown (execNop_outside (by simp) ix ext s)
  | copy ix ext => exact Within.grown (execCopy_outside (by simp) ix ext s)
  | fill ix ext => exact Within.grown (execFill_outside (by simp) ix ext s)
  | compare ix ext => exact Within.grown (execCompare_outside (by simp) ix ext s)
  | crc32c ix ext => exact Within.grown (execCrc32c_outside (by simp) ix ext s)
  | reduce ix ext => exact Within.grown (execReduce_outside (by simp) ix ext s)
  | pageMove ix ext => exact Within.grown (execPageMove_outside ix ext s)
  | hamper ix rec ext => exact Within.grown (execHamper_outside ix rec ext s)
  | check fid tag slice off rights len => exact Within.grown (execCheck_outside fid tag slice off rights len s)
  | jobStepBoundary ix rd bad => exact Within.grown (execJobStepBoundary_outside (by simp) ix rd bad s)
  | jobComplete ix good => exact Within.grown (execJobComplete_outside ix good s)
  | hamperEntryOutcome ix => exact Within.grown (execHamperEntryOutcome_outside ix s)
  | headPublish ix good => exact Within.grown (execHeadPublish_outside (by simp) ix good s)
  | refetch ix => exact Within.grown (execRefetch_outside (by simp) ix s)
  | atsInvalidation ix used => exact Within.grown (execAtsInvalidation_outside (by simp) ix used s)
  | pageMoveStepDone ix => exact Within.grown (execPageMoveStepDone_outside ix s)
  | opInsBind q body => exact execOpInsBind_grows q body s
  | opInsUnbind q body => exact execOpInsUnbind_grows q body s
  | opInsSetRate q body => exact execOpInsSetRate_grows q body s
  | opInsReset q body => exact execOpInsReset_grows q body s
  | instanceWindowAccess v ix off wr n ext => exact Within.grown (execInstanceWindowAccess_outside v ix off wr n ext s)
  | insIrqCtlWrite ix v => exact Within.grown (execInsIrqCtlWrite_outside ix v s)
  | t2mSend ix => exact Within.grown (execT2mSend_outside ix s)
  | t2mAck ix => exact Within.grown (execT2mAck_outside ix s)
  | m2tSend ix => exact Within.grown (execM2tSend_outside ix s)
  | m2tAck ix => exact Within.grown (execM2tAck_outside ix s)
  | mailboxBufferWrite ix tenant m2t off b => exact Within.grown (execMailboxBufferWrite_outside ix tenant m2t off b s)
  | shareChange => exact Within.grown (execShareChange_outside (by simp) s)
  | linkBringupStart p => exact Within.grown (execLinkBringupStart_outside p s)
  | ptFlCtlEnWrite p v => exact Within.grown (execPtFlCtlEnWrite_outside p v s)
  | ptFlCtlRateWrite p v => exact Within.grown (execPtFlCtlRateWrite_outside (by simp) p v s)
  | lanesLocked p => exact Within.grown (execLanesLocked_outside (by simp) p s)
  | laneAssignment p b1 b2 => exact Within.grown (execLaneAssignment_outside (by simp) p b1 b2 s)
  | alignDone p m => exact Within.grown (execAlignDone_outside (by simp) p m s)
  | initReceive p ix => exact Within.grown (execInitReceive_outside p ix s)
  | linkTrainTimeout p => exact Within.grown (execLinkTrainTimeout_outside p s)
  | linkTrainRetry p => exact Within.grown (execLinkTrainRetry_outside p s)
  | downFlitReceive p cause => exact Within.grown (execDownFlitReceive_outside p cause s)
  | markersMissed p => exact Within.grown (execMarkersMissed_outside p s)
  | linkErrorLimit p => exact Within.grown (execLinkErrorLimit_outside p s)
  | flitReceive p cwOk cw corr b => exact Within.grown (execFlitReceive_outside (by simp) p cwOk cw corr b s)
  | replayTimerExpiry p => exact Within.grown (execReplayTimerExpiry_outside (by simp) p s)
  | nakRepeatTimer p => exact Within.grown (execNakRepeatTimer_outside (by simp) p s)
  | linkMessageSend p cls len => exact Within.grown (execLinkMessageSend_outside (by simp) p cls len s)
  | creditFlitReceive p totals => exact Within.grown (execCreditFlitReceive_outside (by simp) p totals s)
  | creditFlitSend p => exact Within.grown (execCreditFlitSend_outside (by simp) p s)
  | creqReceive p h hev rights slice off mask data => exact Within.grown (execCreqReceive_outside p h hev rights slice off mask data s)
  | crspReceive p h status reason grant data => exact Within.grown (execCrspReceive_outside p h status reason grant data s)
  | snpReceive p h kind slice off home => exact Within.grown (execSnpReceive_outside p h kind slice off home s)
  | snprspReceive p h rsp data => exact Within.grown (execSnprspReceive_outside p h rsp data s)
  | ioMessageReceive p h bytes expect unit => exact Within.grown (execIoMessageReceive_outside p h bytes expect unit s)
  | mctpMessageReceive p h bytes => exact Within.grown (execMctpMessageReceive_outside p h bytes s)
  | remoteRequestTimeout tag => exact Within.grown (execRemoteRequestTimeout_outside tag s)
  | delayReqSend p cyc sx => exact Within.grown (execDelayReqSend_outside (by simp) p cyc sx s)
  | delayReqReceive p t1 id cyc2 sx2 cyc3 sx3 => exact Within.grown (execDelayReqReceive_outside (by simp) p t1 id cyc2 sx2 cyc3 sx3 s)
  | delayRspReceive p t1 t2 t3 id cyc sx => exact Within.grown (execDelayRspReceive_outside (by simp) p t1 t2 t3 id cyc sx s)
  | laneCeThreshold p g => exact Within.grown (execLaneCeThreshold_outside p g s)
  | spareReqReceive p g rot => exact Within.grown (execSpareReqReceive_outside (by simp) p g rot s)
  | spareReadyReceive p g => exact Within.grown (execSpareReadyReceive_outside p g s)
  | spareRepeatTimer p => exact Within.grown (execSpareRepeatTimer_outside (by simp) p s)
  | spareDwellEnd p period cw => exact Within.grown (execSpareDwellEnd_outside (by simp) p period cw s)
  | spareSwitchPoint p => exact Within.grown (execSpareSwitchPoint_outside p s)
  | spareSwitchReceive p period cw => exact Within.grown (execSpareSwitchReceive_outside (by simp) p period cw s)
  | spareDoneReceive p => exact Within.grown (execSpareDoneReceive_outside (by simp) p s)
  | spareAbortReceive p => exact Within.grown (execSpareAbortReceive_outside (by simp) p s)
  | spareBackReceive p => exact Within.grown (execSpareBackReceive_outside (by simp) p s)
  | spareLockTimeout p => exact Within.grown (execSpareLockTimeout_outside (by simp) p s)
  | rotationInterval p => exact Within.grown (execRotationInterval_outside (by simp) p s)
  | recalibrationDone p period cw => exact Within.grown (execRecalibrationDone_outside p period cw s)
  | quietEnter p => exact Within.grown (execQuietEnter_outside (by simp) p s)
  | sleepIdleTimer p => exact Within.grown (execSleepIdleTimer_outside (by simp) p s)
  | sleepReqReceive p => exact Within.grown (execSleepReqReceive_outside (by simp) p s)
  | sleepAckReceive p => exact Within.grown (execSleepAckReceive_outside (by simp) p s)
  | sleepNakReceive p => exact Within.grown (execSleepNakReceive_outside (by simp) p s)
  | sleepCancelReceive p => exact Within.grown (execSleepCancelReceive_outside (by simp) p s)
  | wakeReceive p => exact Within.grown (execWakeReceive_outside (by simp) p s)
  | sleepWakeEvent p => exact Within.grown (execSleepWakeEvent_outside (by simp) p s)
  | sleepResponderTimeout p => exact Within.grown (execSleepResponderTimeout_outside (by simp) p s)
  | sleepExitDone p ok => exact Within.grown (execSleepExitDone_outside p ok s)
  | expanderScan t b0 b1 => exact Within.grown (execExpanderScan_outside (by simp) t b0 b1 s)
  | cxlPresenceAccepted p => exact Within.grown (execCxlPresenceAccepted_outside (by simp) p s)
  | cxlPresenceLost p => exact Within.grown (execCxlPresenceLost_outside p s)
  | cxlButtonAccepted p => exact Within.grown (execCxlButtonAccepted_outside (by simp) p s)
  | buttonWaitTimer p => exact Within.grown (execButtonWaitTimer_outside (by simp) p s)
  | cxlLinkUp p ix => exact Within.grown (execCxlLinkUp_outside p ix s)
  | cxlTrainTimeout p => exact Within.grown (execCxlTrainTimeout_outside (by simp) p s)
  | cxlTrainRetry p => exact Within.grown (execCxlTrainRetry_outside (by simp) p s)
  | cxlRecovery p => exact Within.grown (execCxlRecovery_outside (by simp) p s)
  | cxlLinkDown p cause => exact Within.grown (execCxlLinkDown_outside p cause s)
  | cxlDownTicksExpiry p => exact Within.grown (execCxlDownTicksExpiry_outside p s)
  | cxlUncorrectableError p => exact Within.grown (execCxlUncorrectableError_outside p s)
  | ptCxCtlRetrain p force => exact Within.grown (execPtCxCtlRetrain_outside p force s)
  | ptCxCtlDpcRelease p => exact Within.grown (execPtCxCtlDpcRelease_outside (by simp) p s)
  | ptCxCtlEnWrite p v => exact Within.grown (execPtCxCtlEnWrite_outside p v s)
  | ptCxCtlMgmtFnWrite p v => exact Within.grown (execPtCxCtlMgmtFnWrite_outside p v s)
  | vppbDpcRelease v k => exact Within.grown (execVppbDpcRelease_outside (by simp) v k s)
  | ptCxHpCtlRemoveOk p => exact Within.grown (execPtCxHpCtlRemoveOk_outside p s)
  | ptCxHpCtlCancel p => exact Within.grown (execPtCxHpCtlCancel_outside (by simp) p s)
  | hostSlotControlWrite v k pwr attn off => exact Within.grown (execHostSlotControlWrite_outside v k pwr attn off s)
  | opPortMode q body => exact execOpPortMode_grows q body s
  | opPortMerge q body => exact execOpPortMerge_grows q body s
  | identifySwitchDevice src => exact Within.grown (execIdentifySwitchDevice_outside src s)
  | getPhysicalPortState src ports => exact Within.grown (execGetPhysicalPortState_outside src ports s)
  | physicalPortControl src port op => exact Within.grown (execPhysicalPortControl_outside src port op s)
  | sendPpbCxlIoConfigurationRequest src port b => exact Within.grown (execSendPpbCxlIoConfigurationRequest_outside src port b s)
  | getVirtualCxlSwitchInfo src v => exact Within.grown (execGetVirtualCxlSwitchInfo_outside src v s)
  | bindVppb src v k port ld => exact Within.grown (execBindVppb_outside src v k port ld s)
  | unbindVppb src v k => exact Within.grown (execUnbindVppb_outside src v k s)
  | generateAerEvent src v k => exact Within.grown (execGenerateAerEvent_outside src v k s)
  | tunnelManagementCommand src port b => exact Within.grown (execTunnelManagementCommand_outside src port b s)
  | sendLdCxlIoConfigurationRequest src port ld b => exact Within.grown (execSendLdCxlIoConfigurationRequest_outside src port ld b s)
  | sendLdCxlIoMemoryRequest src port ld b => exact Within.grown (execSendLdCxlIoMemoryRequest_outside src port ld b s)
  | fmApiUnsupported src opcode => exact Within.grown (execFmApiUnsupported_outside src opcode s)
  | laneReceiverDetected p l => exact Within.grown (execLaneReceiverDetected_outside (by simp) p l s)
  | laneDetectTimeout p l => exact Within.grown (execLaneDetectTimeout_outside p l s)
  | lanePatternFound p l inv blocks => exact Within.grown (execLanePatternFound_outside (by simp) p l inv blocks s)
  | laneIdentTimeout p l => exact Within.grown (execLaneIdentTimeout_outside p l s)
  | laneSweepDwellEnd p l height => exact Within.grown (execLaneSweepDwellEnd_outside p l height s)
  | laneDfeSettled p l settled d0 d1 => exact Within.grown (execLaneDfeSettled_outside (by simp) p l settled d0 d1 s)
  | laneCheckPass p l heights => exact Within.grown (execLaneCheckPass_outside (by simp) p l heights s)
  | laneCheckTimeout p l => exact Within.grown (execLaneCheckTimeout_outside p l s)
  | laneStandbyEnter p l => exact Within.grown (execLaneStandbyEnter_outside p l s)
  | laneRelockRequest p l => exact Within.grown (execLaneRelockRequest_outside (by simp) p l s)
  | laneRelockDone p l => exact Within.grown (execLaneRelockDone_outside (by simp) p l s)
  | laneRelockTimeout p l => exact Within.grown (execLaneRelockTimeout_outside (by simp) p l s)
  | laneLossOfSignal p l => exact Within.grown (execLaneLossOfSignal_outside p l s)
  | laneCdrLoss p l => exact Within.grown (execLaneCdrLoss_outside p l s)
  | eyeMeasurement p l height width => exact Within.grown (execEyeMeasurement_outside p l height width s)
  | peakingTrackStep p l up => exact Within.grown (execPeakingTrackStep_outside (by simp) p l up s)
  | lnTestCtlGenEn p l v => exact Within.grown (execLnTestCtlGenEn_outside (by simp) p l v s)
  | lnTestCtlChkEn p l v => exact Within.grown (execLnTestCtlChkEn_outside (by simp) p l v s)
  | lnTestCtlInjOne p l v => exact Within.grown (execLnTestCtlInjOne_outside (by simp) p l v s)
  | checkerSync p l reg => exact Within.grown (execCheckerSync_outside (by simp) p l reg s)
  | checkerSyncLost p l n wrong => exact Within.grown (execCheckerSyncLost_outside (by simp) p l n wrong s)
  | lnMarginCtlGo p l v => exact Within.grown (execLnMarginCtlGo_outside (by simp) p l v s)
  | marginDone p l errors => exact Within.grown (execMarginDone_outside (by simp) p l errors s)
  | pcieMarginingCommand p l run => exact Within.grown (execPcieMarginingCommand_outside (by simp) p l run s)
  | keeperSupplyLost => exact Within.grown (execKeeperSupplyLost_outside s)
  | sidebandBusSupplyLoss b => exact Within.grown (execSidebandBusSupplyLoss_outside b s)
  | i3cEntdaa b addr => exact Within.grown (execI3cEntdaa_outside b addr s)
  | hdmDecoderWrite v base ig iw => exact Within.grown (execHdmDecoderWrite_outside (by simp) v base ig iw s)
  | deviceWriteComplete la => exact Within.grown (execDeviceWriteComplete_outside la s)
  | rxElectricalIdleDetect p => exact Within.grown (execRxElectricalIdleDetect_outside (by simp) p s)
  | pseudoChannelRetrainFail h pc => exact Within.grown (execPseudoChannelRetrainFail_outside h pc s)

theorem otpKept_of_grows {s t : State} (h : (s.outside bulk).Grows (t.outside bulk)) : s.otpKept t := ⟨h.2.1, h.2.2⟩

/-- Settles O3: every command's outcome is a next state with the queue it was given; that state may be the one before, as for a command
out of its precondition (log 4). -/
theorem everyCommandAnswers : Obligations.EveryCommandAnswers := by
  intro c s
  obtain ⟨t, ht, hp, -⟩ := exec_grows c s
  exact ⟨t, ht, hp⟩

/-- Settles O4: a step runs a command of its queue, and no command loses a burned bit or lowers MGT_SVN_MIN. -/
theorem oneTimeMemory : Obligations.OneTimeMemory := by
  intro s t h
  unfold step at h
  split at h
  · cases h
    exact ⟨fun _ _ _ e => e, Nat.le_refl _⟩
  · next c rest _ =>
    obtain ⟨u, hu, hg⟩ := exec_grows c { s with pending := rest }
    cases hu.symm.trans h
    exact otpKept_of_grows (s := { s with pending := rest }) hg

/-- Settles O1: the definition of a step, for a queue with a front and for an empty one. -/
theorem commandsFromTheQueue : Obligations.CommandsFromTheQueue := by
  constructor
  · intro c rest s h
    simp only [step, h]
  · intro s h
    simp only [step, h]


end Sys2Proof.Machine
end

section
namespace Sys2Proof.Machine

/-! ### The parts of a state outside a scope -/

variable {S : Scope} {s t : State}

theorem out_of_outside (h : t.outside S = s.outside S) (hS : S.out = false) : t.out = s.out := by
  simpa only [State.outside, hS, hide_false] using congrArg Outside.out h

theorem free_of_outside (h : t.outside S = s.outside S) (hS : S.free = false) : t.free = s.free := by
  simpa only [State.outside, hS, hide_false] using congrArg Outside.free h

theorem tick_of_outside (h : t.outside S = s.outside S) (hS : S.tick = false) : t.tick = s.tick := by
  simpa only [State.outside, hS, hide_false] using congrArg Outside.tick h

theorem ev_of_outside (h : t.outside S = s.outside S) (hS : S.ev = false) : t.ev = s.ev := by
  simpa only [State.outside, hS, hide_false] using congrArg Outside.ev h

theorem nalug_of_outside (h : t.outside S = s.outside S) (hS : S.nalug = false) : t.nalug = s.nalug := by
  simpa only [State.outside, hS, hide_false] using congrArg Outside.nalug h

theorem clk_of_outside (h : t.outside S = s.outside S) (hS : S.clk = false) : t.clk = s.clk := by
  simpa only [State.outside, hS, hide_false] using congrArg Outside.clk h

theorem tel_of_outside (h : t.outside S = s.outside S) (hS : S.tel = false) : t.tel = s.tel := by
  simpa only [State.outside, hS, hide_false] using congrArg Outside.tel h

theorem bind_of_outside (h : t.outside S = s.outside S) (hS : S.bind = false) : t.bind = s.bind := by
  simpa only [State.outside, hS, hide_false] using congrArg Outside.bind h

theorem home_of_outside (h : t.outside S = s.outside S) (hS : S.home = false) : t.home = s.home := by
  simpa only [State.outside, hS, hide_false] using congrArg Outside.home h

theorem hmp_of_outside (h : t.outside S = s.outside S) (hS : S.hmp = false) : t.hmp = s.hmp := by
  simpa only [State.outside, hS, hide_false] using congrArg Outside.hmp h

theorem qos_of_outside (h : t.outside S = s.outside S) (hS : S.qos = false) : t.qos = s.qos := by
  simpa only [State.outside, hS, hide_false] using congrArg Outside.qos h

theorem lane_of_outside (h : t.outside S = s.outside S) (hS : S.lane = false) : t.lane = s.lane := by
  simpa only [State.outside, hS, hide_false] using congrArg Outside.lane h

theorem pwr_of_outside (h : t.outside S = s.outside S) (hS : S.pwr = false) : t.pwr = s.pwr := by
  simpa only [State.outside, hS, hide_false] using congrArg Outside.pwr h

theorem mgmtRest_of_outside (h : t.outside S = s.outside S) (hS : S.mgmt = false) : t.mgmt.rest = s.mgmt.rest := by
  simpa only [State.outside, hS, hide_false] using congrArg Outside.mgmt h

theorem hbmRest_of_outside (h : t.outside S = s.outside S) (hS : S.hbm = false) : t.hbm.rest = s.hbm.rest := by
  simpa only [State.outside, hS, hide_false] using congrArg Outside.hbm h

theorem insts_of_outside (h : t.outside S = s.outside S) (hS : S.insts = false) : t.eng.insts = s.eng.insts := by
  simpa only [State.outside, hS, hide_false] using congrArg Outside.insts h

theorem engRest_of_outside (h : t.outside S = s.outside S) (hS : S.eng = false) : t.eng.rest = s.eng.rest := by
  simpa only [State.outside, hS, hide_false] using congrArg Outside.eng h

theorem lnkRest_of_outside (h : t.outside S = s.outside S) (hS : S.lnk = false) : t.lnk.rest = s.lnk.rest := by
  simpa only [State.outside, hS, hide_false] using congrArg Outside.lnk h

theorem pba_of_outside (h : t.outside S = s.outside S) (hS : S.pba = false) : t.cxl.pba = s.cxl.pba := by
  simpa only [State.outside, hS, hide_false] using congrArg Outside.pba h

theorem cxlRest_of_outside (h : t.outside S = s.outside S) (hS : S.cxl = false) : t.cxl.rest = s.cxl.rest := by
  simpa only [State.outside, hS, hide_false] using congrArg Outside.cxl h

theorem mgmt_of_outside (h : t.outside S = s.outside S) (hm : S.mgmt = false) (ho : S.otp = false) : t.mgmt = s.mgmt := by
  have hr := mgmtRest_of_outside h hm
  have hf : (t.mgmt.fuses, t.mgmt.svnMin) = (s.mgmt.fuses, s.mgmt.svnMin) := by
    simpa only [State.outside, ho, hide_false] using congrArg Outside.otp h
  calc t.mgmt = { t.mgmt.rest with fuses := t.mgmt.fuses, svnMin := t.mgmt.svnMin } := rfl
    _ = { s.mgmt.rest with fuses := s.mgmt.fuses, svnMin := s.mgmt.svnMin } := by rw [hr, (Prod.mk.inj hf).1, (Prod.mk.inj hf).2]
    _ = s.mgmt := rfl

theorem hbm_of_outside (h : t.outside S = s.outside S) (hb : S.hbm = false) (hr : S.reads = false) : t.hbm = s.hbm := by
  have hb := hbmRest_of_outside h hb
  have hr : (t.hbm.slots, t.hbm.waitRd, t.hbm.ahead) = (s.hbm.slots, s.hbm.waitRd, s.hbm.ahead) := by
    simpa only [State.outside, hr, hide_false] using congrArg Outside.reads h
  obtain ⟨h1, h23⟩ := Prod.mk.inj hr
  obtain ⟨h2, h3⟩ := Prod.mk.inj h23
  calc t.hbm = { t.hbm.rest with slots := t.hbm.slots, waitRd := t.hbm.waitRd, ahead := t.hbm.ahead } := rfl
    _ = { s.hbm.rest with slots := s.hbm.slots, waitRd := s.hbm.waitRd, ahead := s.hbm.ahead } := by rw [hb, h1, h2, h3]
    _ = s.hbm := rfl

theorem eng_of_outside (h : t.outside S = s.outside S) (he : S.eng = false) (hi : S.insts = false) : t.eng = s.eng := by
  calc t.eng = { t.eng.rest with insts := t.eng.insts } := rfl
    _ = { s.eng.rest with insts := s.eng.insts } := by rw [engRest_of_outside h he, insts_of_outside h hi]
    _ = s.eng := rfl

theorem lnk_of_outside (h : t.outside S = s.outside S) (hl : S.lnk = false) (hr : S.rem = false) : t.lnk = s.lnk := by
  have hl := lnkRest_of_outside h hl
  have hr : (t.lnk.rem, t.lnk.nextTag) = (s.lnk.rem, s.lnk.nextTag) := by
    simpa only [State.outside, hr, hide_false] using congrArg Outside.rem h
  calc t.lnk = { t.lnk.rest with rem := t.lnk.rem, nextTag := t.lnk.nextTag } := rfl
    _ = { s.lnk.rest with rem := s.lnk.rem, nextTag := s.lnk.nextTag } := by rw [hl, (Prod.mk.inj hr).1, (Prod.mk.inj hr).2]
    _ = s.lnk := rfl

theorem links_of_rest {f g : FabS} (h : f.rest = g.rest) : f.links = g.links ∧ f.rsnp = g.rsnp :=
  ⟨(congrArg FabS.links h :), (congrArg FabS.rsnp h :)⟩

theorem cxl_of_outside (h : t.outside S = s.outside S) (hc : S.cxl = false) (hp : S.pba = false) : t.cxl = s.cxl := by
  calc t.cxl = { t.cxl.rest with pba := t.cxl.pba } := rfl
    _ = { s.cxl.rest with pba := s.cxl.pba } := by rw [cxlRest_of_outside h hc, pba_of_outside h hp]
    _ = s.cxl := rfl

theorem reg_of_outside {o : Nat} (h : t.outside S = s.outside S) (hS : S.reg o = false) : t.reg o = s.reg o := by
  have := congrFun (congrArg Outside.words h) o
  simpa only [State.outside, Scope.words, hS, hide_false, State.reg] using this

end Sys2Proof.Machine
end

section
namespace Sys2Proof.Machine

/-! ### What a family of commands may change -/

/-- What a command of domains, switches and bindings may change. -/
def bindingScope : Scope where
  out := true
  ev := true
  nalug := true
  otp := true
  mgmt := true
  bind := true
  reg := fun o => decide (o < 0x200000)

@[simp] theorem bindingScope_parts : bindingScope.out = true ∧ bindingScope.ev = true ∧ bindingScope.nalug = true ∧ bindingScope.otp = true ∧ bindingScope.mgmt = true ∧ bindingScope.bind = true ∧ bindingScope.LowRegs ∧ bindingScope.reg glbEvFifoOvfCnt = true :=
  ⟨rfl, rfl, rfl, rfl, rfl, rfl, fun o h => by simp [bindingScope]; omega, rfl⟩

theorem exec_within_binding {c : Instr} (hc : c.isBinding = true) (s : State) : Within bindingScope s (exec c s) := by
  cases c with
  | opDomainCreate q body => exact execOpDomainCreate_outside (by simp) q body s
  | opDomainAgentRemove q body => exact execOpDomainAgentRemove_outside (by simp) q body s
  | opVcsCreate q body => exact execOpVcsCreate_outside (by simp) q body s
  | opBind q body => exact execOpBind_outside (by simp) q body s
  | opUnbind q body => exact execOpUnbind_outside (by simp) q body s
  | opRebind q body => exact execOpRebind_outside (by simp) q body s
  | hdmDecoderWrite v base ig iw => exact execHdmDecoderWrite_outside (by simp) v base ig iw s
  | _ => exact absurd hc Bool.false_ne_true

/-- What a command of flows, modes and reservations may change. -/
def qosScope : Scope where
  out := true
  ev := true
  nalug := true
  otp := true
  mgmt := true
  qos := true
  reg := fun o => decide (o < 0x200000) || decide (0x600000 ≤ o)

@[simp] theorem qosScope_parts : qosScope.out = true ∧ qosScope.ev = true ∧ qosScope.nalug = true ∧ qosScope.otp = true ∧ qosScope.mgmt = true ∧ qosScope.qos = true ∧ qosScope.LowRegs ∧ qosScope.PortRegs ∧ qosScope.reg qosRefuseCnt = true ∧ qosScope.reg qosScaleCnt = true ∧ qosScope.reg qosStatus = true ∧ qosScope.reg glbEvFifoOvfCnt = true :=
  ⟨rfl, rfl, rfl, rfl, rfl, rfl, fun o h => by simp [qosScope]; omega, fun o h => by simp [qosScope]; omega, rfl, rfl, rfl, rfl⟩

theorem exec_within_qos {c : Instr} (hc : c.isQos = true) (s : State) : Within qosScope s (exec c s) := by
  cases c with
  | opQosFlowSet q body => exact execOpQosFlowSet_outside (by simp) q body s
  | opQosFlowClear q body => exact execOpQosFlowClear_outside (by simp) q body s
  | opQosReserve q body => exact execOpQosReserve_outside (by simp) q body s
  | opQosRelease q body => exact execOpQosRelease_outside (by simp) q body s
  | opQosTargetSet q body => exact execOpQosTargetSet_outside (by simp) q body s
  | flowChangeApply => exact execFlowChangeApply_outside (by simp) s
  | qosModeChange t => exact execQosModeChange_outside (by simp) t s
  | qosRescale tgt => exact execQosRescale_outside (by simp) tgt s
  | tlQosCtlWrite t v => exact execTlQosCtlWrite_outside (by simp) t v s
  | _ => exact absurd hc Bool.false_ne_true

/-- What a command of rings and jobs may change. -/
def ringScope : Scope where
  out := true
  ev := true
  nalug := true
  otp := true
  mgmt := true
  insts := true
  eng := true
  rem := true
  pba := true
  reg := fun _ => true

@[simp] theorem ringScope_parts : ringScope.out = true ∧ ringScope.ev = true ∧ ringScope.nalug = true ∧ ringScope.otp = true ∧ ringScope.mgmt = true ∧ ringScope.insts = true ∧ ringScope.eng = true ∧ ringScope.rem = true ∧ ringScope.pba = true ∧ (∀ o, ringScope.reg o = true) ∧ ringScope.LowRegs ∧ ringScope.PortRegs :=
  ⟨rfl, rfl, rfl, rfl, rfl, rfl, rfl, rfl, rfl, fun _ => rfl, fun _ _ => rfl, fun _ _ => rfl⟩

theorem exec_within_ring {c : Instr} (hc : c.isRing = true) (s : State) : Within ringScope s (exec c s) := by
  cases c with
  | insDoorbellWrite ix tail => exact execInsDoorbellWrite_outside (by simp) ix tail s
  | ringEnable ix ext => exact execRingEnable_outside (by simp) ix ext s
  | ringUnitFetch ix data => exact execRingUnitFetch_outside (by simp) ix data s
  | nop ix ext => exact execNop_outside (by simp) ix ext s
  | copy ix ext => exact execCopy_outside (by simp) ix ext s
  | fill ix ext => exact execFill_outside (by simp) ix ext s
  | compare ix ext => exact execCompare_outside (by simp) ix ext s
  | crc32c ix ext => exact execCrc32c_outside (by simp) ix ext s
  | reduce ix ext => exact execReduce_outside (by simp) ix ext s
  | refetch ix => exact execRefetch_outside (by simp) ix s
  | headPublish ix good => exact execHeadPublish_outside (by simp) ix good s
  | atsInvalidation ix used => exact execAtsInvalidation_outside (by simp) ix used s
  | shareChange => exact execShareChange_outside (by simp) s
  | jobStepBoundary ix rd bad => exact execJobStepBoundary_outside (by simp) ix rd bad s
  | opInsBind q body => exact execOpInsBind_outside (by simp) q body s
  | opInsSetRate q body => exact execOpInsSetRate_outside (by simp) q body s
  | _ => exact absurd hc Bool.false_ne_true

/-- What a request at a home may change. -/
def homeRequestScope : Scope where
  out := true
  free := true
  ev := true
  tel := true
  home := true
  reads := true
  insts := true
  rem := true
  reg := fun _ => true

@[simp] theorem homeRequestScope_parts : homeRequestScope.out = true ∧ homeRequestScope.free = true ∧ homeRequestScope.ev = true ∧ homeRequestScope.tel = true ∧ homeRequestScope.home = true ∧ homeRequestScope.reads = true ∧ homeRequestScope.insts = true ∧ homeRequestScope.rem = true ∧ (∀ o, homeRequestScope.reg o = true) ∧ homeRequestScope.LowRegs ∧ homeRequestScope.PortRegs :=
  ⟨rfl, rfl, rfl, rfl, rfl, rfl, rfl, rfl, fun _ => rfl, fun _ _ => rfl, fun _ _ => rfl⟩

theorem exec_within_homeRequest {c : Instr} (hc : c.isHomeRequest = true) (s : State) : Within homeRequestScope s (exec c s) := by
  cases c with
  | homeRds r => exact execHomeRds_outside (by simp) r s
  | homeRda r => exact execHomeRda_outside (by simp) r s
  | homeRdown r => exact execHomeRdown_outside (by simp) r s
  | homeNcr r => exact execHomeNcr_outside (by simp) r s
  | homeCe r => exact execHomeCe_outside (by simp) r s
  | memspecrd r => exact execMemspecrd_outside r s
  | clflush r => exact execClflush_outside (by simp) r s
  | biconflict fid la => exact execBiconflict_outside (by simp) fid la s
  | homeNcw r =>
    have hr : memWrites r.msg = false := by simpa [Instr.isHomeRequest] using hc
    change Within _ s (execHomeNcw r s)
    simp [execHomeNcw, hr]
  | _ => exact absurd hc Bool.false_ne_true

/-- What a command of hampers may change. -/
def hamperScope : Scope where
  out := true
  ev := true
  hmp := true
  reg := fun o => decide (o < 0x400000)

@[simp] theorem hamperScope_parts : hamperScope.out = true ∧ hamperScope.ev = true ∧ hamperScope.hmp = true ∧ hamperScope.LowRegs ∧ hamperScope.reg glbEvFifoOvfCnt = true ∧ hamperScope.reg hmpHomePrepCnt = true ∧ hamperScope.reg (hmpHomePrepCnt + 4) = true ∧ hamperScope.reg hmpLateCnt = true ∧ hamperScope.reg hmpLateSealCnt = true ∧ hamperScope.reg hmpPortDiscardCnt = true ∧ hamperScope.reg hmpTiming0 = true ∧ hamperScope.reg hmpTiming1 = true :=
  ⟨rfl, rfl, rfl, fun o h => by simp [hamperScope]; omega, rfl, rfl, rfl, rfl, rfl, rfl, rfl, rfl⟩

theorem exec_within_hamper {c : Instr} (hc : c.isHamper = true) (s : State) : Within hamperScope s (exec c s) := by
  cases c with
  | hamperPortEntryWrite v k off b => exact execHamperPortEntryWrite_outside (by simp) v k off b s
  | hmpSlotAck v k => exact execHmpSlotAck_outside (by simp) v k s
  | hamperArbitration => exact execHamperArbitration_outside (by simp) s
  | hvoteReceive m => exact execHvoteReceive_outside (by simp) m s
  | hdecideReceive m => exact execHdecideReceive_outside (by simp) m s
  | hquerySend key => exact execHquerySend_outside (by simp) key s
  | hanswerReceive m => exact execHanswerReceive_outside (by simp) m s
  | hamperIndoubtPoison key => exact execHamperIndoubtPoison_outside (by simp) key s
  | commitLogWriteAck key type => exact execCommitLogWriteAck_outside (by simp) key type s
  | hmpTimingWrite second v => exact execHmpTimingWrite_outside (by simp) second v s
  | _ => exact absurd hc Bool.false_ne_true

/-- What a command of a fabric link may change. -/
def linkScope : Scope where
  out := true
  free := true
  ev := true
  tel := true
  rem := true
  lnk := true
  reg := fun o => decide (o = glbEvFifoOvfCnt) || decide (0x2000000 ≤ o)

@[simp] theorem linkScope_parts : linkScope.out = true ∧ linkScope.free = true ∧ linkScope.ev = true ∧ linkScope.tel = true ∧ linkScope.rem = true ∧ linkScope.lnk = true ∧ linkScope.PortRegs ∧ linkScope.reg glbEvFifoOvfCnt = true :=
  ⟨rfl, rfl, rfl, rfl, rfl, rfl, fun o h => by simp [linkScope]; omega, rfl⟩

theorem exec_within_link {c : Instr} (hc : c.isLink = true) (s : State) : Within linkScope s (exec c s) := by
  cases c with
  | lanesLocked p => exact execLanesLocked_outside (by simp) p s
  | laneAssignment p b1 b2 => exact execLaneAssignment_outside (by simp) p b1 b2 s
  | alignDone p m => exact execAlignDone_outside (by simp) p m s
  | ptFlCtlRateWrite p v => exact execPtFlCtlRateWrite_outside (by simp) p v s
  | flitReceive p cwOk cw corr b => exact execFlitReceive_outside (by simp) p cwOk cw corr b s
  | replayTimerExpiry p => exact execReplayTimerExpiry_outside (by simp) p s
  | nakRepeatTimer p => exact execNakRepeatTimer_outside (by simp) p s
  | linkMessageSend p cls len => exact execLinkMessageSend_outside (by simp) p cls len s
  | creditFlitReceive p totals => exact execCreditFlitReceive_outside (by simp) p totals s
  | creditFlitSend p => exact execCreditFlitSend_outside (by simp) p s
  | delayReqSend p cyc sx => exact execDelayReqSend_outside (by simp) p cyc sx s
  | delayReqReceive p t1 id cyc2 sx2 cyc3 sx3 => exact execDelayReqReceive_outside (by simp) p t1 id cyc2 sx2 cyc3 sx3 s
  | delayRspReceive p t1 t2 t3 id cyc sx => exact execDelayRspReceive_outside (by simp) p t1 t2 t3 id cyc sx s
  | spareReqReceive p g rot => exact execSpareReqReceive_outside (by simp) p g rot s
  | spareRepeatTimer p => exact execSpareRepeatTimer_outside (by simp) p s
  | spareDwellEnd p period cw => exact execSpareDwellEnd_outside (by simp) p period cw s
  | spareSwitchReceive p period cw => exact execSpareSwitchReceive_outside (by simp) p period cw s
  | spareDoneReceive p => exact execSpareDoneReceive_outside (by simp) p s
  | spareAbortReceive p => exact execSpareAbortReceive_outside (by simp) p s
  | spareBackReceive p => exact execSpareBackReceive_outside (by simp) p s
  | spareLockTimeout p => exact execSpareLockTimeout_outside (by simp) p s
  | rotationInterval p => exact execRotationInterval_outside (by simp) p s
  | quietEnter p => exact execQuietEnter_outside (by simp) p s
  | sleepIdleTimer p => exact execSleepIdleTimer_outside (by simp) p s
  | sleepReqReceive p => exact execSleepReqReceive_outside (by simp) p s
  | sleepNakReceive p => exact execSleepNakReceive_outside (by simp) p s
  | sleepCancelReceive p => exact execSleepCancelReceive_outside (by simp) p s
  | sleepResponderTimeout p => exact execSleepResponderTimeout_outside (by simp) p s
  | _ => exact absurd hc Bool.false_ne_true

/-- What putting a link to sleep or waking it may change. -/
def wakeScope : Scope where
  out := true
  rem := true
  lnk := true
  lane := true
  reg := fun o => decide (0x2000000 ≤ o)

@[simp] theorem wakeScope_parts : wakeScope.out = true ∧ wakeScope.rem = true ∧ wakeScope.lnk = true ∧ wakeScope.lane = true ∧ wakeScope.PortRegs :=
  ⟨rfl, rfl, rfl, rfl, fun o h => by simp [wakeScope]; omega⟩

theorem exec_within_wake {c : Instr} (hc : c.isWake = true) (s : State) : Within wakeScope s (exec c s) := by
  cases c with
  | sleepAckReceive p => exact execSleepAckReceive_outside (by simp) p s
  | rxElectricalIdleDetect p => exact execRxElectricalIdleDetect_outside (by simp) p s
  | wakeReceive p => exact execWakeReceive_outside (by simp) p s
  | sleepWakeEvent p => exact execSleepWakeEvent_outside (by simp) p s
  | _ => exact absurd hc Bool.false_ne_true

/-- What a command of a lane may change. -/
def laneScope : Scope where
  out := true
  ev := true
  lane := true
  reg := fun o => decide (o = glbEvFifoOvfCnt) || decide (0x2000000 ≤ o)

@[simp] theorem laneScope_parts : laneScope.out = true ∧ laneScope.ev = true ∧ laneScope.lane = true ∧ laneScope.PortRegs ∧ laneScope.reg glbEvFifoOvfCnt = true :=
  ⟨rfl, rfl, rfl, fun o h => by simp [laneScope]; omega, rfl⟩

theorem exec_within_lane {c : Instr} (hc : c.isLane = true) (s : State) : Within laneScope s (exec c s) := by
  cases c with
  | laneReceiverDetected p l => exact execLaneReceiverDetected_outside (by simp) p l s
  | lanePatternFound p l inv blocks => exact execLanePatternFound_outside (by simp) p l inv blocks s
  | laneDfeSettled p l settled d0 d1 => exact execLaneDfeSettled_outside (by simp) p l settled d0 d1 s
  | laneCheckPass p l heights => exact execLaneCheckPass_outside (by simp) p l heights s
  | laneRelockRequest p l => exact execLaneRelockRequest_outside (by simp) p l s
  | laneRelockDone p l => exact execLaneRelockDone_outside (by simp) p l s
  | laneRelockTimeout p l => exact execLaneRelockTimeout_outside (by simp) p l s
  | peakingTrackStep p l up => exact execPeakingTrackStep_outside (by simp) p l up s
  | lnTestCtlGenEn p l v => exact execLnTestCtlGenEn_outside (by simp) p l v s
  | lnTestCtlChkEn p l v => exact execLnTestCtlChkEn_outside (by simp) p l v s
  | lnTestCtlInjOne p l v => exact execLnTestCtlInjOne_outside (by simp) p l v s
  | checkerSync p l reg => exact execCheckerSync_outside (by simp) p l reg s
  | checkerSyncLost p l n wrong => exact execCheckerSyncLost_outside (by simp) p l n wrong s
  | lnMarginCtlGo p l v => exact execLnMarginCtlGo_outside (by simp) p l v s
  | marginDone p l errors => exact execMarginDone_outside (by simp) p l errors s
  | pcieMarginingCommand p l run => exact execPcieMarginingCommand_outside (by simp) p l run s
  | _ => exact absurd hc Bool.false_ne_true

/-- What a command of a CXL port may change. -/
def cxlPortScope : Scope where
  ev := true
  pba := true
  cxl := true
  reg := fun o => decide (o = glbEvFifoOvfCnt) || decide (0x2000000 ≤ o)

@[simp] theorem cxlPortScope_parts : cxlPortScope.ev = true ∧ cxlPortScope.pba = true ∧ cxlPortScope.cxl = true ∧ cxlPortScope.PortRegs ∧ cxlPortScope.reg glbEvFifoOvfCnt = true :=
  ⟨rfl, rfl, rfl, fun o h => by simp [cxlPortScope]; omega, rfl⟩

theorem exec_within_cxlPort {c : Instr} (hc : c.isCxlPort = true) (s : State) : Within cxlPortScope s (exec c s) := by
  cases c with
  | expanderScan t b0 b1 => exact execExpanderScan_outside (by simp) t b0 b1 s
  | cxlPresenceAccepted p => exact execCxlPresenceAccepted_outside (by simp) p s
  | cxlButtonAccepted p => exact execCxlButtonAccepted_outside (by simp) p s
  | buttonWaitTimer p => exact execButtonWaitTimer_outside (by simp) p s
  | ptCxHpCtlCancel p => exact execPtCxHpCtlCancel_outside (by simp) p s
  | cxlTrainTimeout p => exact execCxlTrainTimeout_outside (by simp) p s
  | cxlTrainRetry p => exact execCxlTrainRetry_outside (by simp) p s
  | cxlRecovery p => exact execCxlRecovery_outside (by simp) p s
  | ptCxCtlDpcRelease p => exact execPtCxCtlDpcRelease_outside (by simp) p s
  | vppbDpcRelease v k => exact execVppbDpcRelease_outside (by simp) v k s
  | _ => exact absurd hc Bool.false_ne_true

/-- What the teardown of a domain and the end of an unbind's drain may change. -/
def teardownScope : Scope where
  out := true
  free := true
  ev := true
  nalug := true
  otp := true
  mgmt := true
  tel := true
  bind := true
  home := true
  hmp := true
  reads := true
  hbm := true
  insts := true
  reg := fun _ => true

@[simp] theorem teardownScope_parts : teardownScope.out = true ∧ teardownScope.free = true ∧ teardownScope.ev = true ∧
    teardownScope.nalug = true ∧ teardownScope.otp = true ∧ teardownScope.mgmt = true ∧ teardownScope.tel = true ∧
    teardownScope.bind = true ∧ teardownScope.home = true ∧ teardownScope.hmp = true ∧ teardownScope.reads = true ∧
    teardownScope.insts = true ∧ ∀ o, teardownScope.reg o = true :=
  ⟨rfl, rfl, rfl, rfl, rfl, rfl, rfl, rfl, rfl, rfl, rfl, rfl, fun _ => rfl⟩

theorem exec_within_teardown {c : Instr} (hc : (∃ q b, c = .opDomainTeardown q b) ∨ ∃ k, c = .unbindDrainDone k) (s : State) :
    Within teardownScope s (exec c s) := by
  rcases hc with ⟨q, b, rfl⟩ | ⟨k, rfl⟩
  · exact execOpDomainTeardown_outside (by simp) q b s
  · exact execUnbindDrainDone_outside (by simp) k s

/-- What disabling a ring may change. -/
def ringDisableScope : Scope where
  out := true
  ev := true
  bind := true
  home := true
  reads := true
  hbm := true
  insts := true
  eng := true
  pba := true
  reg := fun _ => true

/-! ### The frames -/

/-- Settles O8: the scope of each family names what it may change. -/
theorem framesOfDataPath : Obligations.FramesOfDataPath := by
  refine ⟨fun c s t hc e => ?_, fun c s t hc e => ?_, fun c s t hc e => ?_, fun c s t hc e => ?_, fun i s t e => ?_,
    fun c s t hc e => ?_, fun c s t hc e => ?_⟩
  · have h := (exec_within_binding hc s).next e
    exact ⟨tick_of_outside h rfl, clk_of_outside h rfl, home_of_outside h rfl, hmp_of_outside h rfl, hbm_of_outside h rfl rfl,
      qos_of_outside h rfl, eng_of_outside h rfl rfl, lnk_of_outside h rfl rfl, cxl_of_outside h rfl rfl, lane_of_outside h rfl,
      pwr_of_outside h rfl, fun o ho => reg_of_outside h (by simp [bindingScope, ho])⟩
  · have h := (exec_within_teardown hc s).next e
    exact ⟨tick_of_outside h rfl, clk_of_outside h rfl, qos_of_outside h rfl, engRest_of_outside h rfl, lnk_of_outside h rfl rfl,
      cxl_of_outside h rfl rfl, lane_of_outside h rfl, pwr_of_outside h rfl⟩
  · have h := (exec_within_qos hc s).next e
    exact ⟨tick_of_outside h rfl, clk_of_outside h rfl, bind_of_outside h rfl, home_of_outside h rfl, hmp_of_outside h rfl,
      hbm_of_outside h rfl rfl, eng_of_outside h rfl rfl, lnk_of_outside h rfl rfl, cxl_of_outside h rfl rfl, lane_of_outside h rfl,
      pwr_of_outside h rfl, fun o ho ho' => reg_of_outside h (by simp [qosScope, ho, ho'])⟩
  · have h := (exec_within_ring hc s).next e
    have hl := links_of_rest (lnkRest_of_outside h rfl)
    exact ⟨tick_of_outside h rfl, clk_of_outside h rfl, bind_of_outside h rfl, home_of_outside h rfl, hmp_of_outside h rfl,
      hbm_of_outside h rfl rfl, qos_of_outside h rfl, hl.1, hl.2, cxlRest_of_outside h rfl,
      lane_of_outside h rfl, pwr_of_outside h rfl⟩
  · have h := (execRingDisable_outside (S := ringDisableScope) ⟨rfl, rfl, rfl, rfl, rfl, rfl, rfl, fun _ => rfl⟩ i s).next e
    exact ⟨free_of_outside h rfl, tick_of_outside h rfl, nalug_of_outside h rfl, mgmt_of_outside h rfl rfl, clk_of_outside h rfl,
      tel_of_outside h rfl, hmp_of_outside h rfl, qos_of_outside h rfl, lnk_of_outside h rfl rfl, cxlRest_of_outside h rfl,
      lane_of_outside h rfl, pwr_of_outside h rfl⟩
  · have h := (exec_within_homeRequest hc s).next e
    have hl := links_of_rest (lnkRest_of_outside h rfl)
    exact ⟨tick_of_outside h rfl, nalug_of_outside h rfl, mgmt_of_outside h rfl rfl, clk_of_outside h rfl, bind_of_outside h rfl,
      hmp_of_outside h rfl, qos_of_outside h rfl, engRest_of_outside h rfl, hl.1, hl.2,
      hbmRest_of_outside h rfl, cxl_of_outside h rfl rfl, lane_of_outside h rfl, pwr_of_outside h rfl⟩
  · have h := (exec_within_hamper hc s).next e
    exact ⟨free_of_outside h rfl, tick_of_outside h rfl, clk_of_outside h rfl, tel_of_outside h rfl, bind_of_outside h rfl,
      hbm_of_outside h rfl rfl, qos_of_outside h rfl, eng_of_outside h rfl rfl, lnk_of_outside h rfl rfl, cxl_of_outside h rfl rfl,
      lane_of_outside h rfl, pwr_of_outside h rfl, fun o ho => reg_of_outside h (by simp [hamperScope, ho])⟩

/-- Settles O9: the scope of each family names what it may change. -/
theorem framesOfPorts : Obligations.FramesOfPorts := by
  refine ⟨fun c s t hc e => ?_, fun c s t hc e => ?_, fun c s t hc e => ?_, fun c s t hc e => ?_⟩
  · have h := (exec_within_link hc s).next e
    exact ⟨tick_of_outside h rfl, nalug_of_outside h rfl, mgmt_of_outside h rfl rfl, clk_of_outside h rfl, bind_of_outside h rfl,
      home_of_outside h rfl, hmp_of_outside h rfl, hbm_of_outside h rfl rfl, qos_of_outside h rfl, eng_of_outside h rfl rfl,
      cxl_of_outside h rfl rfl, lane_of_outside h rfl, pwr_of_outside h rfl,
      fun o ho hne => reg_of_outside h (by simp [linkScope, ho, hne])⟩
  · have h := (exec_within_wake hc s).next e
    exact ⟨free_of_outside h rfl, tick_of_outside h rfl, ev_of_outside h rfl, nalug_of_outside h rfl, mgmt_of_outside h rfl rfl,
      clk_of_outside h rfl, tel_of_outside h rfl, bind_of_outside h rfl, home_of_outside h rfl, hmp_of_outside h rfl,
      hbm_of_outside h rfl rfl, qos_of_outside h rfl, eng_of_outside h rfl rfl, cxl_of_outside h rfl rfl, pwr_of_outside h rfl,
      fun o ho => reg_of_outside h (by simp [wakeScope, ho])⟩
  · have h := (exec_within_lane hc s).next e
    exact ⟨free_of_outside h rfl, tick_of_outside h rfl, nalug_of_outside h rfl, mgmt_of_outside h rfl rfl, clk_of_outside h rfl,
      tel_of_outside h rfl, bind_of_outside h rfl, home_of_outside h rfl, hmp_of_outside h rfl, hbm_of_outside h rfl rfl,
      qos_of_outside h rfl, eng_of_outside h rfl rfl, lnk_of_outside h rfl rfl, cxl_of_outside h rfl rfl, pwr_of_outside h rfl,
      fun o ho hne => reg_of_outside h (by simp [laneScope, ho, hne])⟩
  · have h := (exec_within_cxlPort hc s).next e
    exact ⟨out_of_outside h rfl, free_of_outside h rfl, tick_of_outside h rfl, nalug_of_outside h rfl, mgmt_of_outside h rfl rfl,
      clk_of_outside h rfl, tel_of_outside h rfl, bind_of_outside h rfl, home_of_outside h rfl, hmp_of_outside h rfl,
      hbm_of_outside h rfl rfl, qos_of_outside h rfl, eng_of_outside h rfl rfl, lnk_of_outside h rfl rfl, lane_of_outside h rfl,
      pwr_of_outside h rfl, fun o ho hne => reg_of_outside h (by simp [cxlPortScope, ho, hne])⟩


end Sys2Proof.Machine
end

section
namespace Sys2Proof.Machine

/-! ### A mark of the wall clock is counted by the performance counters (O7) -/

/-- A request over the sideband to the module. -/
def markReq : Req := { src := { path := 0, port := 0, eid := 8 }, seq := 1, kind := 0, index := 0, lockV := false, lock := 0, gen := 0, rsvd := false }

/-- The state at reset, with global counter 0 enabled for the bytes written to any stack (R376). -/
def countingState : State := { State.reset with regs := [(0x701000, 0xBF0AFFF0#32)] }

/-- The state after OP_WALLCLOCK_MARK. -/
def markedState : State := nextOr countingState (execOpWallclockMark markReq (List.replicate 16 0) countingState)

/-- The mark's record goes to the log stack, and the counter takes the 64 bytes of its write. -/
theorem markedState_counter : markedState.reg 0x701010 = 64 ∧ countingState.reg 0x701010 = 0 := by decide +kernel

/-- Refutes O7: an admitted OP_WALLCLOCK_MARK writes a record to the event log's stack, and a performance counter enabled for such
writes changes, at 0x701010, above the management block. -/
theorem not_framesOfPowerAndManagement : ¬ Obligations.FramesOfPowerAndManagement := by
  intro h
  have hm := h.2.1 (.opWallclockMark markReq (List.replicate 16 0)) countingState markedState rfl rfl
  obtain ⟨-, -, -, -, -, -, -, -, -, -, -, -, hregs⟩ := hm
  have h0 := hregs 0x701010 (by decide) (by decide)
  rw [markedState_counter.1, markedState_counter.2] at h0
  exact absurd h0 (by decide)

end Sys2Proof.Machine
end

section
namespace Sys2Proof.Machine

/-! ### The keeper's operations: what each leaves in the power state and in a field (R296-R311) -/

variable {s : State} {o lo n i : Nat}

theorem bit_eq_fld (s : State) (o i : Nat) : s.bit o i = decide (s.fld o i 1 = 1) := (rfl)

theorem fld_eq_nreg (s : State) (o lo n : Nat) : s.fld o lo n = s.nreg o / 2 ^ lo % 2 ^ n := (rfl)

theorem fld_setN_ne {v : Nat} (h : o ≠ i) : (s.setN i v).fld o lo n = s.fld o lo n := by
  simp only [State.fld, reg_setN, if_neg h]

theorem bit_setN_ne {v k : Nat} (h : o ≠ i) : (s.setN i v).bit o k = s.bit o k := by
  simp only [State.bit, fld_setN_ne h]

theorem fld_raise (code : Nat) (vals : List EvVal) (h : o ≠ glbEvFifoOvfCnt) : (s.raise code vals).fld o lo n = s.fld o lo n := by
  simp only [State.fld, raise_reg s code vals h]

theorem fld_cnt_ne {k : Nat} (h : o ≠ i) : (s.cnt i k).fld o lo n = s.fld o lo n := fld_setN_ne h

theorem bit_cnt_ne {j k : Nat} (h : o ≠ i) : (s.cnt i k).bit o j = s.bit o j := bit_setN_ne h

/-! The state of the keeper. -/

theorem setK_fld (k : Nat) (h : o ≠ pwrStatus ∨ lo + n ≤ 28) : (s.setK k).fld o lo n = s.fld o lo n :=
  fld_setFld s pwrStatus 28 4 k o lo n (by omega) (by omega)

theorem setK_bit (k : Nat) (h : o ≠ pwrStatus ∨ i < 28) : (s.setK k).bit o i = s.bit o i := by
  unfold State.bit
  rw [setK_fld k (by omega)]

theorem setK_kState {k : Nat} (h : k < 16) : (s.setK k).kState = k :=
  (fld_setFld_self s pwrStatus 28 4 k (by omega)).trans (Nat.mod_eq_of_lt h)

/-! ### The warning against removal (R301) -/

theorem setUnsafe_fld (h : o ≠ pwrStatus ∨ lo + n ≤ 18 ∨ 19 ≤ lo) : s.setUnsafe.fld o lo n = s.fld o lo n :=
  fld_setBit s pwrStatus 18 o lo n _ (by omega) h

theorem setUnsafe_bit (h : o ≠ pwrStatus ∨ i ≠ 18) : s.setUnsafe.bit o i = s.bit o i := by
  unfold State.bit
  rw [setUnsafe_fld (by omega)]

theorem setUnsafe_unsafe : s.setUnsafe.bit pwrStatus 18 = (s.pwr.vbusHigh || s.passDamaged) := bit_setBit_self s _ _ _ (by omega)

@[simp] theorem setUnsafe_pwr : s.setUnsafe.pwr = s.pwr := setBit_pwr _ _ _ _

/-! The pass transistors. -/

theorem passOff_fld (h : o ≠ pwrStatus ∨ lo + n ≤ 21 ∨ 23 ≤ lo) : s.passOff.fld o lo n = s.fld o lo n :=
  fld_setFld { s with pwr := { s.pwr with pass := 0, oring := 0, bleeder := true } } pwrStatus 21 2 0 o lo n (by omega) h

theorem passOff_bit (h : o ≠ pwrStatus ∨ i < 21 ∨ 23 ≤ i) : s.passOff.bit o i = s.bit o i := by
  unfold State.bit
  rw [passOff_fld (by omega)]

@[simp] theorem passOff_pwr : s.passOff.pwr = { s.pwr with pass := 0, oring := 0, bleeder := true } := (rfl)

theorem feedPath_fld (f : Nat) (on : Bool) (h : o ≠ pwrStatus ∨ lo + n ≤ 21 ∨ 23 ≤ lo) : (s.feedPath f on).fld o lo n = s.fld o lo n :=
  fld_setFld { s with pwr := { s.pwr with pass := withFeed s.pwr.pass f on, oring := withFeed s.pwr.oring f on } } pwrStatus 21 2 _ o lo n
    (by omega) h

theorem feedPath_bit (f : Nat) (on : Bool) (h : o ≠ pwrStatus ∨ i < 21 ∨ 23 ≤ i) : (s.feedPath f on).bit o i = s.bit o i := by
  unfold State.bit
  rw [feedPath_fld f on (by omega)]

@[simp] theorem feedPath_pwr (f : Nat) (on : Bool) :
    (s.feedPath f on).pwr = { s.pwr with pass := withFeed s.pwr.pass f on, oring := withFeed s.pwr.oring f on } := (rfl)

/-! The last off event. -/

theorem recordOff_regs (cause group : Nat) : (s.recordOff cause group).regs =
    (s.setN pwrLastOff (cause * 2 ^ 24 + group * 2 ^ 20 + min (s.fld pwrLastOff 0 20 + 1) (2 ^ 20 - 1))).regs := by
  simp only [State.recordOff]

theorem recordOff_fld (cause group : Nat) (h : o ≠ pwrLastOff) : (s.recordOff cause group).fld o lo n = s.fld o lo n := by
  rw [fld_congr (recordOff_regs cause group), fld_setN_ne h]

theorem recordOff_bit (cause group : Nat) (h : o ≠ pwrLastOff) : (s.recordOff cause group).bit o i = s.bit o i := by
  rw [bit_congr (recordOff_regs cause group), bit_setN_ne h]

@[simp] theorem recordOff_pwr (cause group : Nat) : (s.recordOff cause group).pwr = { s.pwr with offKind := cause } := by
  simp only [State.recordOff, setN_pwr]

/-- The word of an off event, as a number. -/
theorem recordOff_nreg {cause group : Nat} (hc : cause < 256) (hg : group < 16) :
    (s.recordOff cause group).nreg pwrLastOff = cause * 2 ^ 24 + group * 2 ^ 20 + min (s.fld pwrLastOff 0 20 + 1) (2 ^ 20 - 1) := by
  have hn : (s.recordOff cause group).nreg pwrLastOff =
      (cause * 2 ^ 24 + group * 2 ^ 20 + min (s.fld pwrLastOff 0 20 + 1) (2 ^ 20 - 1)) % 2 ^ 32 := by
    rw [nreg_congr (recordOff_regs cause group), State.nreg, reg_setN, if_pos rfl, BitVec.toNat_ofNat]
  rw [hn, Nat.mod_eq_of_lt]
  omega

theorem offWord_fields {c g m : Nat} (hg : g < 16) (hm : m < 2 ^ 20) :
    (c * 2 ^ 24 + g * 2 ^ 20 + m) / 2 ^ 24 = c ∧ (c * 2 ^ 24 + g * 2 ^ 20 + m) / 2 ^ 20 % 2 ^ 4 = g ∧
      (c * 2 ^ 24 + g * 2 ^ 20 + m) / 2 ^ 0 % 2 ^ 20 = m := by
  omega

theorem offCount_lt (n : Nat) : min n (2 ^ 20 - 1) < 2 ^ 20 := Nat.lt_of_le_of_lt (Nat.min_le_right _ _) (by decide)

theorem recordOff_cause {cause group : Nat} (hc : cause < 256) (hg : group < 16) : (s.recordOff cause group).fld pwrLastOff 24 8 = cause := by
  rw [fld_eq_nreg, recordOff_nreg hc hg, (offWord_fields hg (offCount_lt _)).1]
  exact Nat.mod_eq_of_lt hc

theorem recordOff_cause4 {cause group : Nat} (hc : cause < 16) (hg : group < 16) : (s.recordOff cause group).fld pwrLastOff 24 4 = cause := by
  rw [fld_eq_nreg, recordOff_nreg (Nat.lt_trans hc (by decide)) hg, (offWord_fields hg (offCount_lt _)).1]
  exact Nat.mod_eq_of_lt hc

theorem recordOff_group {cause group : Nat} (hc : cause < 16) (hg : group < 16) : (s.recordOff cause group).fld pwrLastOff 20 4 = group := by
  rw [fld_eq_nreg, recordOff_nreg (Nat.lt_trans hc (by decide)) hg, (offWord_fields hg (offCount_lt _)).2.1]

theorem recordOff_count {cause group : Nat} (hc : cause < 16) (hg : group < 16) :
    (s.recordOff cause group).fld pwrLastOff 0 20 = min (s.fld pwrLastOff 0 20 + 1) (2 ^ 20 - 1) := by
  rw [fld_eq_nreg, recordOff_nreg (Nat.lt_trans hc (by decide)) hg, (offWord_fields hg (offCount_lt _)).2.2]

/-! Events, and STANDBY. -/

theorem raiseUp_fld (code : Nat) (vals : List EvVal) (h : o ≠ glbEvFifoOvfCnt) : (s.raiseUp code vals).fld o lo n = s.fld o lo n := by
  unfold State.raiseUp
  split
  · exact fld_raise code vals h
  · rfl

theorem raiseUp_bit (code : Nat) (vals : List EvVal) (h : o ≠ glbEvFifoOvfCnt) : (s.raiseUp code vals).bit o i = s.bit o i := by
  unfold State.bit
  rw [raiseUp_fld code vals h]

@[simp] theorem raiseUp_pwr (code : Nat) (vals : List EvVal) : (s.raiseUp code vals).pwr = s.pwr := by
  unfold State.raiseUp
  split <;> simp

theorem standby_fld (h : o ≠ pwrStatus ∨ lo + n ≤ 28) : s.standby.fld o lo n = s.fld o lo n := setK_fld (s := { s with pwr := { s.pwr with keepRun := false } }) _ h

theorem standby_bit (h : o ≠ pwrStatus ∨ i < 28) : s.standby.bit o i = s.bit o i := setK_bit (s := { s with pwr := { s.pwr with keepRun := false } }) _ h

theorem standby_kState : s.standby.kState = kStandby := setK_kState (by decide)

@[simp] theorem standby_pwr : s.standby.pwr = { s.pwr with keepRun := false } := (rfl)

/-! The inrush. -/

theorem startInrush_kState (f : Nat) : (s.startInrush f).kState = kInrush := by
  unfold State.startInrush State.kState
  rw [setUnsafe_fld (by omega)]
  exact setK_kState (by decide)

theorem startInrush_fld (f : Nat) (h : o ≠ pwrStatus ∨ lo + n ≤ 18 ∨ 19 ≤ lo ∧ lo + n ≤ 28) : (s.startInrush f).fld o lo n = s.fld o lo n := by
  unfold State.startInrush
  rw [setUnsafe_fld (by omega), setK_fld _ (by omega)]
  rfl

theorem startInrush_bit (f : Nat) (h : o ≠ pwrStatus ∨ i ≠ 18 ∧ i < 28) : (s.startInrush f).bit o i = s.bit o i := by
  unfold State.bit
  rw [startInrush_fld f (by omega)]

@[simp] theorem startInrush_pwr (f : Nat) : (s.startInrush f).pwr =
    { s.pwr with charging := f, pass := 2 ^ f, oring := 2 ^ f, vbusHigh := true, bleeder := false, keepRun := true } := (rfl)

/-! A damaged pass transistor. -/

theorem damage_passDamaged (a b : Bool) : (s.damage a b).passDamaged = true := by
  unfold State.damage State.passDamaged
  dsimp only
  rw [setUnsafe_bit (.inl (by decide)), raiseUp_bit _ _ (by decide), recordOff_bit _ _ (by decide), bit_setFld _ _ _ _ _ _ _ (by omega) (by omega),
    bit_setBit_self _ _ _ _ (by omega)]

theorem damage_unsafe (a b : Bool) : (s.damage a b).bit pwrStatus 18 = true := by
  have h := damage_passDamaged (s := s) a b
  unfold State.damage State.passDamaged at *
  dsimp only at *
  rw [setUnsafe_bit (.inl (by decide))] at h
  rw [setUnsafe_unsafe, State.passDamaged, h, Bool.or_true]

theorem damage_cause (a b : Bool) : (s.damage a b).fld pwrLastOff 24 8 = 6 := by
  unfold State.damage
  dsimp only
  rw [setUnsafe_fld (.inl (by decide)), raiseUp_fld _ _ (by decide), recordOff_cause (by omega) (by omega)]

end Sys2Proof.Machine
end

section
namespace Sys2Proof.Machine

/-! ### Powering up (O45) -/

variable {s : State}

/-- With the keeper supplied, seated pins start the debounce timer (R299). -/
theorem exec_seatPinsSeated (hk : s.kState = kUnseated) (hp : s.pwr.supply = true) :
    ∃ t, exec .seatPinsSeated s = .next t ∧ t.kState = kDebounce ∧ t.fld pwrStatus 26 2 = 3 ∧ t.pwr.keepRun = true := by
  refine ⟨_, if_pos ⟨hk, hp⟩, ?_, ?_, rfl⟩
  · exact (fld_setFld _ _ _ _ _ _ _ _ (by omega) (by omega)).trans (setK_kState (by decide))
  · exact fld_setFld_self _ _ _ _ _ (by omega)

theorem exec_seatPinChange (a b : Bool) (hk : s.kState = kDebounce) :
    ∃ t, exec (.seatPinChange a b) s = .next t ∧ t.bit pwrStatus 27 = a ∧ t.bit pwrStatus 26 = b ∧ t.kState = kDebounce := by
  refine ⟨_, if_pos hk, ?_, bit_setBit_self _ _ _ _ (by omega), ?_⟩
  · rw [bit_setBit _ _ _ _ _ _ (by omega) (by omega), bit_setBit_self _ _ _ _ (by omega)]
  · unfold State.kState
    rw [fld_setBit _ _ _ _ _ _ _ (by omega) (by omega), fld_setBit _ _ _ _ _ _ _ (by omega) (by omega)]
    exact hk

theorem exec_seatDebounceExpiry (hk : s.kState = kDebounce) (hp : s.fld pwrStatus 26 2 = 3) :
    ∃ t, exec .seatDebounceExpiry s = .next t ∧ t.kState = kStandby ∧ t.pwr = { s.pwr with keepRun := false, latched := 0, tripped := 0 } ∧
      t.bit pwrFault 24 = false := by
  show ∃ t, execSeatDebounceExpiry s = .next t ∧ _
  unfold execSeatDebounceExpiry
  rw [if_pos ⟨hk, hp⟩]
  refine ⟨_, rfl, standby_kState, ?_, ?_⟩
  · simp only [standby_pwr, setBit_pwr]
  · rw [standby_bit (.inl (by decide)), bit_setBit_self _ _ _ _ (by omega)]

/-- A feed's conditions are its bits of PWR_STATUS and PWR_CTL and the keeper's record of it. -/
theorem feedUsable_congr {t : State} {f : Nat} (hs : t.bit pwrStatus (24 - f) = s.bit pwrStatus (24 - f))
    (hc : t.bit pwrCtl (30 - f) = s.bit pwrCtl (30 - f)) (hl : t.pwr.latched = s.pwr.latched) (ho : t.pwr.oringBad = s.pwr.oringBad) :
    t.feedUsable f = s.feedUsable f := by
  simp only [State.feedUsable, State.feedOk, hs, hc, hl, ho]

/-- The readings of both feeds, as ON_REQ_LOW leaves them. -/
def State.withFeeds (s : State) (va vb : Nat) : State := (s.setN (pwrFeedV 0) (min va 65535)).setN (pwrFeedV 1) (min vb 65535)

@[simp] theorem withFeeds_pwr (va vb : Nat) : (s.withFeeds va vb).pwr = s.pwr := (rfl)

theorem withFeeds_bit {o i : Nat} (va vb : Nat) (h0 : o ≠ pwrFeedV 0) (h1 : o ≠ pwrFeedV 1) : (s.withFeeds va vb).bit o i = s.bit o i := by
  unfold State.withFeeds
  rw [bit_setN_ne h1, bit_setN_ne h0]

theorem feedUsable_withFeeds (va vb f : Nat) : (s.withFeeds va vb).feedUsable f = s.feedUsable f :=
  feedUsable_congr (withFeeds_bit va vb (by decide) (by decide)) (withFeeds_bit va vb (by decide) (by decide)) rfl rfl

theorem reg_setK {o : Nat} (k : Nat) (h : o ≠ pwrStatus) : (s.setK k).reg o = s.reg o := by
  unfold State.setK
  rw [reg_setFld, if_neg h]

theorem startInrush_reg {o : Nat} (f : Nat) (h : o ≠ pwrStatus) : (s.startInrush f).reg o = s.reg o := by
  unfold State.startInrush State.setUnsafe
  rw [reg_setBit, if_neg h, reg_setK _ h]
  rfl

theorem startInrush_feeds (f va vb : Nat) : ((s.withFeeds va vb).startInrush f).nreg (pwrFeedV 0) = min va 65535 ∧
    ((s.withFeeds va vb).startInrush f).nreg (pwrFeedV 1) = min vb 65535 := by
  unfold State.nreg
  rw [startInrush_reg _ (by decide), startInrush_reg _ (by decide)]
  constructor
  · exact (nreg_setN_ne _ _ (by decide)).trans (nreg_setN_self s _ (by omega))
  · exact nreg_setN_self _ _ (by omega)

theorem exec_onReqLow_inrush {va vb vbus midA midB : Nat} (hk : s.kState = kStandby) (hd : s.passDamaged = false) (hv : vbus < 2000)
    (ha : midA < 2000) (hb : midB < 2000) (h0 : s.feedUsable 0 = true) (h1 : s.feedUsable 1 = true) (hq : s.bit pwrStatus 25 = true) :
    ∃ t, exec (.onReqLow va vb vbus midA midB) s = .next t ∧ t.kState = kInrush ∧
      t.pwr.charging = (if vb ≤ va then 0 else 1) ∧ t.pwr.pass = 2 ^ t.pwr.charging ∧
      t.nreg (pwrFeedV 0) = min va 65535 ∧ t.nreg (pwrFeedV 1) = min vb 65535 := by
  have hu : ∀ f, f = 0 ∨ f = 1 → ((s.setBit pwrStatus 25 true).withFeeds va vb).feedUsable f = true := by
    rintro f hf
    rw [feedUsable_withFeeds]
    have : (s.setBit pwrStatus 25 true).feedUsable f = s.feedUsable f :=
      feedUsable_congr (bit_setBit _ _ _ _ _ _ (by omega) (by omega)) (bit_setBit _ _ _ _ _ _ (by omega) (.inl (by decide)))
        (by rw [setBit_pwr]) (by rw [setBit_pwr])
    rw [this]
    rcases hf with rfl | rfl
    · exact h0
    · exact h1
  have hx : exec (.onReqLow va vb vbus midA midB) s =
      .next (((s.setBit pwrStatus 25 true).withFeeds va vb).startInrush (if vb ≤ va then 0 else 1)) := by
    simp only [State.withFeeds] at hu ⊢
    show execOnReqLow va vb vbus midA midB s = _
    simp only [execOnReqLow]
    rw [hq, if_pos rfl, if_neg (by simpa using hk), if_neg (by simp [hd]), if_neg (by omega), hu 0 (.inl rfl), hu 1 (.inr rfl)]
    by_cases h : vb ≤ va <;> simp [h]
  obtain ⟨hf0, hf1⟩ := startInrush_feeds (s := s.setBit pwrStatus 25 true) (if vb ≤ va then 0 else 1) va vb
  exact ⟨_, hx, startInrush_kState _, by rw [startInrush_pwr], by rw [startInrush_pwr], hf0, hf1⟩

theorem exec_onReqLow_damaged {va vb vbus midA midB : Nat} (hk : s.kState = kStandby) (hd : s.passDamaged = false)
    (hv : 2000 ≤ vbus ∨ 2000 ≤ midA ∨ 2000 ≤ midB) :
    ∃ t, exec (.onReqLow va vb vbus midA midB) s = .next t ∧ t.kState = kFault ∧ t.passDamaged = true := by
  show ∃ t, execOnReqLow va vb vbus midA midB s = .next t ∧ _
  unfold execOnReqLow
  dsimp only
  rw [if_neg (by simpa using hk), if_neg (by simp [hd]), if_pos hv]
  exact ⟨_, rfl, setK_kState (by decide), (setK_bit _ (.inl (by decide))).trans (damage_passDamaged _ _)⟩

theorem exec_inrushComplete (hk : s.kState = kInrush) :
    ∃ t, exec .inrushComplete s = .next t ∧ t.kState = kSequencing ∧ t.pwr.group = 0 :=
  ⟨_, if_pos hk, setK_kState (by decide), rfl⟩

theorem exec_railGroupSettled (g : Fin 10) (hk : s.kState = kSequencing) (hg : s.pwr.group = g) :
    ∃ t, exec (.railGroupSettled g) s = .next t ∧ t.pwr.group = g + 1 ∧
      t.pwr.mgmtUp = (s.pwr.mgmtUp || decide (g = 3)) ∧ t.kState = (if g = 9 then kOn else kSequencing) ∧
      (g = 9 → t.bit pwrStatus 19 = true) := by
  show ∃ t, execRailGroupSettled g s = .next t ∧ _
  unfold execRailGroupSettled
  rw [if_pos ⟨hk, hg⟩]
  have h3 : decide ((g : Nat) = 3) = decide (g = 3) := by simp [Fin.ext_iff]
  dsimp only
  by_cases h9 : g = 9
  · rw [if_pos (by simp [h9]), if_pos h9]
    refine ⟨_, rfl, rfl, ?_, ?_, fun _ => bit_setBit_self _ _ _ _ (by omega)⟩
    · rw [← h3]
      rfl
    · exact (fld_setBit _ _ _ _ _ _ _ (by omega) (by omega)).trans (setK_kState (by decide))
  · rw [if_neg (by simpa [Fin.ext_iff] using h9), if_neg h9]
    refine ⟨_, rfl, rfl, ?_, hk, fun h => absurd h h9⟩
    rw [← h3]

theorem exec_inrushTimeout (hk : s.kState = kInrush) :
    ∃ t, exec .inrushTimeout s = .next t ∧ t.kState = kFault ∧ t.pwr.pass = 0 ∧ t.pwr.bleeder = true ∧ t.fld pwrLastOff 24 8 = 5 := by
  refine ⟨_, if_pos hk, setK_kState (by decide), rfl, rfl, ?_⟩
  rw [setK_fld _ (.inl (by decide)), passOff_fld (.inl (by decide)), recordOff_cause (by omega) (by omega)]

theorem exec_inrushFeedLost (hk : s.kState = kInrush) (hc : s.pwr.charging < 2) :
    ∃ t, exec .inrushFeedLost s = .next t ∧ t.bit pwrStatus (24 - s.pwr.charging) = false ∧
      (s.feedUsable (1 - s.pwr.charging) = true → t.kState = kInrush ∧ t.pwr.charging = 1 - s.pwr.charging) ∧
      (s.feedUsable (1 - s.pwr.charging) = false → t.kState = kStandby ∧ t.pwr.pass = 0) := by
  generalize hs1 : s.setBit pwrStatus (24 - s.pwr.charging) false = s1
  have hu : s1.feedUsable (1 - s.pwr.charging) = s.feedUsable (1 - s.pwr.charging) := by
    subst hs1
    exact feedUsable_congr (bit_setBit _ _ _ _ _ _ (by omega) (by omega)) (bit_setBit _ _ _ _ _ _ (by omega) (.inl (by decide)))
        (by rw [setBit_pwr]) (by rw [setBit_pwr])
  have hlost : s1.bit pwrStatus (24 - s.pwr.charging) = false := by
    subst hs1
    exact bit_setBit_self _ _ _ _ (by omega)
  have hx : exec .inrushFeedLost s =
      if s1.feedUsable (1 - s.pwr.charging) then .next (s1.startInrush (1 - s.pwr.charging)) else .next s1.passOff.standby := by
    subst hs1
    exact if_pos hk
  rw [hx, hu]
  cases h : s.feedUsable (1 - s.pwr.charging)
  · refine ⟨_, if_neg (by simp), ?_, by simp, fun _ => ⟨standby_kState, rfl⟩⟩
    rw [standby_bit (.inr (by omega)), passOff_bit (by omega), hlost]
  · refine ⟨_, if_pos rfl, ?_, fun _ => ⟨startInrush_kState _, rfl⟩, by simp⟩
    rw [startInrush_bit _ (by omega), hlost]

theorem exec_faultOnReqCycle (hk : s.kState = kFault) (hd : s.passDamaged = false) :
    ∃ t, exec .faultOnReqCycle s = .next t ∧ t.kState = kStandby ∧ t.pwr.latched = 0 ∧ t.pwr.tripped = 0 ∧ t.bit pwrFault 24 = false :=
  ⟨_, if_pos ⟨hk, by simp [hd]⟩, standby_kState, rfl, rfl,
    (standby_bit (.inl (by decide))).trans (bit_setBit_self _ _ _ _ (by omega))⟩

theorem exec_passDamaged (a b : Bool) (hp : s.pwr.pass = 0) (hk : s.kState ≠ kInrush) (hd : s.passDamaged = false) :
    ∃ t, exec (.passDamaged a b) s = .next t ∧ t.passDamaged = true ∧ t.bit pwrStatus 18 = true ∧ t.fld pwrLastOff 24 8 = 6 :=
  ⟨_, if_pos ⟨hp, hk, by simp [hd]⟩, damage_passDamaged _ _, damage_unsafe _ _, damage_cause _ _⟩

/-- Settles O45: each row of R299's table by the lemma of its command. -/
theorem powerUp : Obligations.PowerUp :=
  ⟨fun _ hk hp => exec_seatPinsSeated hk hp, fun a b _ hk => exec_seatPinChange a b hk, fun _ hk hp => exec_seatDebounceExpiry hk hp,
    fun _ _ _ _ _ _ hk hd hv ha hb h0 h1 hq => exec_onReqLow_inrush hk hd hv ha hb h0 h1 hq,
    fun _ _ _ _ _ _ hk hd hv => exec_onReqLow_damaged hk hd hv, fun _ hk => exec_inrushComplete hk,
    fun g _ hk hg => exec_railGroupSettled g hk hg, fun _ hk => exec_inrushTimeout hk, fun _ hk hc => exec_inrushFeedLost hk hc,
    fun _ _ hk hg => if_pos ⟨hk, hg⟩, fun _ hk hd => exec_faultOnReqCycle hk hd, fun a b _ hp hk hd => exec_passDamaged a b hp hk hd⟩

end Sys2Proof.Machine
end

section
namespace Sys2Proof.Machine

/-! ### Going off (O46) -/

variable {s : State} {o lo n i : Nat}

/-- The state of an emergency off before the keeper's state and indications change. -/
def State.dropped (s : State) (cause group : Nat) : State :=
  { (s.recordOff cause group).passOff with
    pwr := { (s.recordOff cause group).passOff.pwr with group := 0, mgmtUp := false, bootRan := false } }

theorem emergencyOff_eq (cause group : Nat) :
    s.emergencyOff cause group = (((s.dropped cause group).setK kOffWait).setBit pwrStatus 19 false).setUnsafe := (rfl)

theorem dropped_pwr (cause group : Nat) : (s.dropped cause group).pwr =
    { s.pwr with offKind := cause, pass := 0, oring := 0, bleeder := true, group := 0, mgmtUp := false, bootRan := false } := by
  simp only [State.dropped, passOff_pwr, recordOff_pwr]

theorem dropped_regs (cause group : Nat) : (s.dropped cause group).regs = (s.recordOff cause group).passOff.regs := (rfl)

@[simp] theorem emergencyOff_pwr (cause group : Nat) : (s.emergencyOff cause group).pwr =
    { s.pwr with offKind := cause, pass := 0, oring := 0, bleeder := true, group := 0, mgmtUp := false, bootRan := false } := by
  rw [emergencyOff_eq, setUnsafe_pwr, setBit_pwr, setK_pwr, dropped_pwr]

/-- Below its status bits, an emergency off leaves a register what the record of the cause and the open transistors leave. -/
theorem emergencyOff_fld (cause group : Nat) (h : o ≠ pwrStatus ∨ lo + n ≤ 18 ∨ 20 ≤ lo ∧ lo + n ≤ 28) :
    (s.emergencyOff cause group).fld o lo n = (s.recordOff cause group).passOff.fld o lo n := by
  rw [emergencyOff_eq, setUnsafe_fld (by omega), fld_setBit _ _ _ _ _ _ _ (by omega) (by omega), setK_fld _ (by omega),
    fld_congr (dropped_regs cause group)]

theorem emergencyOff_lastOff (cause group : Nat) :
    (s.emergencyOff cause group).fld pwrLastOff lo n = (s.recordOff cause group).fld pwrLastOff lo n := by
  rw [emergencyOff_fld cause group (.inl (by decide)), passOff_fld (.inl (by decide))]

theorem emergencyOff_kState (cause group : Nat) : (s.emergencyOff cause group).kState = kOffWait := by
  rw [State.kState, emergencyOff_eq, setUnsafe_fld (by omega), fld_setBit _ _ _ _ _ _ _ (by omega) (by omega)]
  exact setK_kState (by decide)

theorem emergencyOff_allGood (cause group : Nat) : (s.emergencyOff cause group).bit pwrStatus 19 = false := by
  rw [emergencyOff_eq, setUnsafe_bit (by omega), bit_setBit_self _ _ _ _ (by omega)]

theorem passOff_passFld : s.passOff.fld pwrStatus 21 2 = 0 := fld_setFld_self _ _ _ _ _ (by omega)

/-! Only registers and the power state change. -/

@[simp] theorem recordOff_home (cause group : Nat) : (s.recordOff cause group).home = s.home := by simp only [State.recordOff, setN_home]
@[simp] theorem recordOff_bind (cause group : Nat) : (s.recordOff cause group).bind = s.bind := by simp only [State.recordOff, setN_bind]
@[simp] theorem recordOff_mgmt (cause group : Nat) : (s.recordOff cause group).mgmt = s.mgmt := by simp only [State.recordOff, setN_mgmt]
@[simp] theorem recordOff_out (cause group : Nat) : (s.recordOff cause group).out = s.out := by simp only [State.recordOff, setN_out]

theorem emergencyOff_rest (cause group : Nat) : (s.emergencyOff cause group).home = s.home ∧ (s.emergencyOff cause group).bind = s.bind ∧
    (s.emergencyOff cause group).mgmt = s.mgmt ∧ (s.emergencyOff cause group).out = s.out := by
  simp only [emergencyOff_eq, State.setUnsafe, setBit_home, setK_home, setBit_bind, setK_bind, setBit_mgmt, setK_mgmt, setBit_out, setK_out,
    State.dropped, State.passOff, setFld_home, setFld_bind, setFld_mgmt, setFld_out, recordOff_home, recordOff_bind, recordOff_mgmt,
    recordOff_out, and_self]

theorem emergencyOff_effects {cause group : Nat} (hc : cause < 16) (hg : group < 16) :
    let t := s.emergencyOff cause group
    t.kState = kOffWait ∧ t.pwr.pass = 0 ∧ t.pwr.oring = 0 ∧ t.pwr.bleeder = true ∧ t.pwr.mgmtUp = false ∧
      t.bit pwrStatus 19 = false ∧ t.fld pwrStatus 21 2 = 0 ∧ t.fld pwrLastOff 24 4 = cause ∧ t.fld pwrLastOff 20 4 = group ∧
      t.fld pwrLastOff 0 20 = min (s.fld pwrLastOff 0 20 + 1) (2 ^ 20 - 1) ∧
      t.home = s.home ∧ t.bind = s.bind ∧ t.mgmt = s.mgmt ∧ t.out = s.out := by
  refine ⟨emergencyOff_kState _ _, ?_, ?_, ?_, ?_, emergencyOff_allGood _ _, ?_, ?_, ?_, ?_, emergencyOff_rest _ _⟩
  · rw [emergencyOff_pwr]
  · rw [emergencyOff_pwr]
  · rw [emergencyOff_pwr]
  · rw [emergencyOff_pwr]
  · rw [emergencyOff_fld _ _ (by omega), passOff_passFld]
  · rw [emergencyOff_lastOff, recordOff_cause4 hc hg]
  · rw [emergencyOff_lastOff, recordOff_group hc hg]
  · rw [emergencyOff_lastOff, recordOff_count hc hg]

/-! Off by extraction, and in order. -/

theorem exec_extraction_energized (hk : s.kState = kStandby ∨ s.kState = kOn) (hv : s.pwr.vbusHigh = true) :
    exec .extraction s = .next ((s.setFld pwrStatus 26 2 0).emergencyOff 2 0) := by
  have hk' : ¬(s.kState = kUnseated ∨ s.kState = kDebounce) := by
    rcases hk with h | h <;> rw [h] <;> decide
  show execExtraction s = _
  unfold execExtraction
  rw [if_neg hk', if_pos hv]

theorem exec_extraction_standby (hk : s.kState = kStandby) (hv : s.pwr.vbusHigh = false) :
    ∃ t, exec .extraction s = .next t ∧ t.kState = kUnseated ∧ t.fld pwrStatus 26 2 = 0 ∧ t.fld pwrLastOff 24 4 = 2 := by
  show ∃ t, execExtraction s = .next t ∧ _
  unfold execExtraction
  dsimp only
  rw [if_neg (by rw [hk]; decide), if_neg (by simp [hv])]
  refine ⟨_, rfl, setK_kState (by decide), ?_, ?_⟩
  · rw [setK_fld _ (by omega), recordOff_fld _ _ (by decide), fld_setFld_self _ _ _ _ _ (by omega), Nat.zero_mod]
  · rw [setK_fld _ (.inl (by decide)), recordOff_cause4 (by omega) (by omega)]

theorem orderlyOff_eq (hk : s.kState = kOn) : ∃ t : State, s.orderlyOff = (t.setK kStopping).setBit pwrStatus 19 false ∧
    t.regs = (s.recordOff 1 0).regs ∧ t.pwr.down = 10 ∧ t.out = s.out := by
  refine ⟨{ s.recordOff 1 0 with pwr := { (s.recordOff 1 0).pwr with down := 10, mgmtUp := false, bootRan := false } }, ?_, rfl, rfl, ?_⟩
  · unfold State.orderlyOff
    rw [if_pos (.inr hk)]
  · exact recordOff_out 1 0

theorem orderlyOff_effects (hk : s.kState = kOn) : s.orderlyOff.kState = kStopping ∧ s.orderlyOff.pwr.down = 10 ∧
    s.orderlyOff.bit pwrStatus 25 = s.bit pwrStatus 25 ∧ s.orderlyOff.out = s.out := by
  obtain ⟨t, he, hr, hd, ho⟩ := orderlyOff_eq hk
  rw [he]
  refine ⟨?_, ?_, ?_, ?_⟩
  · rw [State.kState, fld_setBit _ _ _ _ _ _ _ (by omega) (by omega)]
    exact setK_kState (by decide)
  · rw [setBit_pwr, setK_pwr, hd]
  · rw [bit_setBit _ _ _ _ _ _ (by omega) (by omega), setK_bit _ (by omega), bit_congr hr, recordOff_bit _ _ (by decide)]
  · rw [setBit_out, setK_out, ho]

theorem exec_onReqHigh (hk : s.kState = kOn) :
    ∃ t, exec .onReqHigh s = .next t ∧ t.kState = kStopping ∧ t.bit pwrStatus 25 = false ∧ t.pwr.down = 10 := by
  have hk' : (s.setBit pwrStatus 25 false).kState = kOn := by
    rw [State.kState, fld_setBit _ _ _ _ _ _ _ (by omega) (by omega)]
    exact hk
  obtain ⟨h1, h2, h3, -⟩ := orderlyOff_effects hk'
  refine ⟨(s.setBit pwrStatus 25 false).orderlyOff, rfl, h1, ?_, h2⟩
  rw [h3, bit_setBit_self _ _ _ _ (by omega)]

/-- A register that no answer writes. -/
theorem fld_answered (code : Nat) (q : Req) (st : Nat) (b : List Byte) (h : mgtNalugCmdCnt + 4 < o ∧ mgtSvnMin < o ∧ glbEvFifoOvfCnt < o) :
    (s.answered code q st b).fld o lo n = s.fld o lo n := by
  unfold State.fld
  rw [answered_reg _ _ _ _ _ (by omega) (by omega) (by omega) (by omega)]

/-- The mark that OP_MODULE_OFF's action leaves for what follows its answer. -/
def State.marked (s : State) (b : Bool) : State := { s with pwr := { s.pwr with cycled := b } }

@[simp] theorem marked_out (b : Bool) : (s.marked b).out = s.out := (rfl)

theorem marked_kState (b : Bool) : (s.marked b).kState = s.kState := fld_congr rfl _ _ _

/-- OP_MODULE_OFF admitted, up to its answer. -/
def State.offAnswered (s : State) (q : Req) : State := ((s.begun 0x0A01 q []).marked true).answered 0x0A01 q stOk []

theorem offAnswered_cycled (q : Req) : (s.offAnswered q).pwr.cycled = true := by
  rw [State.offAnswered, answered_pwr]
  rfl

theorem offAnswered_kState (q : Req) : (s.offAnswered q).kState = s.kState := by
  rw [State.kState, State.offAnswered, fld_answered _ _ _ _ (by decide)]
  exact (marked_kState true).trans (begun_fld _ _ _ _ _ _ _)

theorem execOpModuleOff_admitted {q : Req} (h : s.admitted 0x0A01 q { lenOk := true } = true) :
    exec (.opModuleOff q []) s = .next ((s.offAnswered q).marked false).orderlyOff := by
  have hrun : s.nalug_run 0x0A01 q [] { lenOk := decide (([] : List Byte).length = 0) }
      (fun t => ok { t with pwr := { t.pwr with cycled := true } }) = s.offAnswered q := by
    rw [show decide (([] : List Byte).length = 0) = true from rfl, nalug_run_of_admitted _ h]
    rfl
  show execOpModuleOff q [] s = _
  unfold execOpModuleOff
  dsimp only
  rw [hrun, if_pos (offAnswered_cycled q)]
  rfl

theorem exec_opModuleOff {q : Req} (h : s.admitted 0x0A01 q { lenOk := true } = true) (hk : s.kState = kOn) :
    ∃ t, exec (.opModuleOff q []) s = .next t ∧ t.kState = kStopping ∧ Out.reply q 0x0A01 stOk [] ∈ t.out := by
  obtain ⟨h1, -, -, h4⟩ := orderlyOff_effects (s := (s.offAnswered q).marked false) (by rw [marked_kState, offAnswered_kState, hk])
  refine ⟨_, execOpModuleOff_admitted h, h1, ?_⟩
  rw [h4, marked_out, State.offAnswered, answered_out]
  exact List.mem_append_right _ (List.mem_singleton.mpr rfl)

theorem exec_orderlyOffGroupDisable (g : Fin 10) (hk : s.kState = kStopping) (hd : s.pwr.down = g + 1) :
    ∃ t, exec (.orderlyOffGroupDisable g) s = .next t ∧ t.pwr.down = g ∧ t.kState = kStopping ∧
      (g = 0 → t.pwr.pass = 0 ∧ t.pwr.bleeder = true) := by
  show ∃ t, execOrderlyOffGroupDisable g s = .next t ∧ _
  unfold execOrderlyOffGroupDisable
  rw [if_pos ⟨hk, hd⟩]
  dsimp only
  by_cases hg : (g : Nat) = 0
  · rw [if_pos hg]
    refine ⟨_, rfl, by rw [passOff_pwr], ?_, fun _ => ⟨by rw [passOff_pwr], by rw [passOff_pwr]⟩⟩
    rw [State.kState, passOff_fld (by omega)]
    exact hk
  · rw [if_neg hg]
    exact ⟨_, rfl, rfl, hk, fun h => absurd (congrArg Fin.val h) hg⟩

theorem exec_vbusDischarged (hk : s.kState = kStopping ∨ s.kState = kOffWait) :
    ∃ t, exec .vbusDischarged s = .next t ∧ t.pwr.vbusHigh = false ∧ t.pwr.bleeder = false ∧ t.bit pwrStatus 18 = s.passDamaged ∧
      t.kState = (if s.kState = kStopping then kStandby else if s.pwr.offKind = 2 then kUnseated else kFault) := by
  generalize hd : ({ s with pwr := { s.pwr with vbusHigh := false, bleeder := false } } : State) = d
  have hv : d.pwr.vbusHigh = false ∧ d.pwr.bleeder = false := by
    subst hd
    exact ⟨rfl, rfl⟩
  have hp : d.setUnsafe.bit pwrStatus 18 = s.passDamaged := by
    rw [setUnsafe_unsafe, hv.1, Bool.false_or]
    subst hd
    rfl
  show ∃ t, execVbusDischarged s = .next t ∧ _
  unfold execVbusDischarged
  dsimp only
  rw [hd]
  by_cases h : s.kState = kStopping
  · rw [if_pos h, if_pos h]
    refine ⟨_, rfl, ?_, ?_, (standby_bit (by omega)).trans hp, standby_kState⟩
    · rw [standby_pwr, setUnsafe_pwr, hv.1]
    · rw [standby_pwr, setUnsafe_pwr, hv.2]
  · rw [if_neg h, if_neg h, if_pos (hk.resolve_left h)]
    refine ⟨_, rfl, ?_, ?_, (setK_bit _ (by omega)).trans hp, setK_kState (by split <;> decide)⟩
    · rw [setK_pwr, setUnsafe_pwr, hv.1]
    · rw [setK_pwr, setUnsafe_pwr, hv.2]

/-- Settles O46: what every emergency off leaves, and each command that goes off by it or in order. -/
theorem powerOff : Obligations.PowerOff :=
  ⟨fun _ _ _ hc hg => emergencyOff_effects hc hg, fun _ _ hp => if_pos hp, fun _ hk hv => exec_extraction_energized hk hv,
    fun _ hk hv => exec_extraction_standby hk hv, fun _ hp => if_pos hp,
    fun _ hk => ⟨exec_onReqHigh hk, _, rfl, (orderlyOff_effects hk).1, (orderlyOff_effects hk).2.1⟩,
    fun _ _ h hk => exec_opModuleOff h hk, fun g _ hk hd => exec_orderlyOffGroupDisable g hk hd, fun _ hk => exec_vbusDischarged hk⟩

end Sys2Proof.Machine
end

section
namespace Sys2Proof.Machine

/-! ### Feeds and their protection (O47) -/

/-! Sets of feeds. -/

theorem nbit_withFeed_off (m f : Nat) : nbit (withFeed m f false) f = false := by
  unfold withFeed
  rw [if_neg (by simp)]
  by_cases h : nbit m f
  · have h1 : (m - 2 ^ f) / 2 ^ f = m / 2 ^ f - 1 := by simpa using Nat.sub_mul_div m (2 ^ f) 1
    rw [if_pos h]
    simp only [nbit, decide_eq_true_eq] at h
    simp only [nbit, h1, decide_eq_false_iff_not]
    omega
  · rw [if_neg h]
    simpa using h

theorem nbit_withFeed_on (m f : Nat) : nbit (withFeed m f true) f = true := by
  unfold withFeed
  rw [if_pos rfl]
  by_cases h : nbit m f
  · rw [if_pos h, h]
  · have h1 : (m + 2 ^ f) / 2 ^ f = m / 2 ^ f + 1 := Nat.add_div_right m (Nat.two_pow_pos f)
    rw [if_neg h]
    simp only [nbit, decide_eq_true_eq] at h
    simp only [nbit, h1, decide_eq_true_eq]
    omega

theorem nbit_withFeed (m f : Nat) (b : Bool) : nbit (withFeed m f b) f = b := by
  cases b
  · exact nbit_withFeed_off m f
  · exact nbit_withFeed_on m f

theorem nbit_mod_four {v f : Nat} (h : f < 2) : nbit (v % 2 ^ 2) f = nbit v f := by
  have hf : f = 0 ∨ f = 1 := by omega
  unfold nbit
  rw [decide_eq_decide]
  rcases hf with rfl | rfl <;> omega

/-! A link that goes down does not reach the keeper. -/

/-- What a link that goes down may change. -/
def linkDownScope : Scope where
  out := true
  ev := true
  tel := true
  bind := true
  reads := true
  hbm := true
  qos := true
  lnk := true
  lane := true
  reg := fun o => decide (o < 0x800000) || decide (0x2000000 ≤ o)

theorem linkDownScope_links : linkDownScope.Links :=
  ⟨rfl, rfl, rfl, rfl, rfl, rfl, rfl, rfl, rfl, fun o h => by simpa [linkDownScope] using h⟩

variable {s : State} {o lo n i : Nat}

@[simp] theorem linksReset_pwr : s.linksReset.pwr = s.pwr := pwr_of_outside (linksReset_outside linkDownScope_links s) rfl

theorem linksReset_bit (h : 0x800000 ≤ o) (h' : o < 0x2000000) : s.linksReset.bit o i = s.bit o i := by
  unfold State.bit State.fld
  rw [reg_of_outside (linksReset_outside linkDownScope_links s) (by simp [linkDownScope, h, h'])]

/-! The commands. -/

theorem feedOk_raiseUp (code : Nat) (vals : List EvVal) (f : Nat) : (s.raiseUp code vals).feedOk f = s.feedOk f :=
  raiseUp_bit code vals (by decide)

/-- A feed that left its range, its path closed: FEED_OUT_OF_RANGE up to what the loss of both feeds does. -/
def State.feedGone (s : State) (f : FeedIx) (mv : Nat) : State :=
  (((((s.setBit pwrStatus (24 - f) false).setN (pwrFeedV f) (min mv 65535)).feedPath f false).setBit pwrFault (27 - f) true).raiseUp 0x0A02
    [.w (f : Nat), .w mv])

theorem pwrFeedV_ne (f : FeedIx) : pwrStatus ≠ pwrFeedV f ∧ pwrFault ≠ pwrFeedV f ∧ pwrCtl ≠ pwrFeedV f := by
  unfold pwrFeedV pwrStatus pwrFault pwrCtl
  omega

theorem feedGone_status (f : FeedIx) (mv : Nat) (h : i = 20 ∨ 23 ≤ i) :
    (s.feedGone f mv).bit pwrStatus i = (s.setBit pwrStatus (24 - f) false).bit pwrStatus i := by
  unfold State.feedGone
  rw [raiseUp_bit _ _ (by decide), bit_setBit _ _ _ _ _ _ (by omega) (.inl (by decide)), feedPath_bit _ _ (.inr (by omega)),
    bit_setN_ne (pwrFeedV_ne f).1]

theorem feedGone_effects (f : FeedIx) (mv : Nat) : (s.feedGone f mv).feedOk f = false ∧ nbit (s.feedGone f mv).pwr.pass f = false ∧
    (s.feedGone f mv).bit pwrFault (27 - f) = true ∧ (s.feedGone f mv).feedOk (1 - f) = s.feedOk (1 - f) ∧
    (s.feedGone f mv).bit pwrStatus 20 = s.bit pwrStatus 20 := by
  refine ⟨?_, ?_, ?_, ?_, ?_⟩
  · rw [State.feedOk, feedGone_status f mv (by omega), bit_setBit_self _ _ _ _ (by omega)]
  · rw [State.feedGone, raiseUp_pwr, setBit_pwr, feedPath_pwr, nbit_withFeed_off]
  · rw [State.feedGone, raiseUp_bit _ _ (by decide), bit_setBit_self _ _ _ _ (by omega)]
  · rw [State.feedOk, feedGone_status f mv (by omega), bit_setBit _ _ _ _ _ _ (by omega) (by omega), State.feedOk]
  · rw [feedGone_status f mv (by omega), bit_setBit _ _ _ _ _ _ (by omega) (by omega)]

theorem exec_feedOutOfRange (f : FeedIx) (mv : Nat) (hk : s.kState = kOn) (hf : s.feedOk f = true) :
    ∃ t, exec (.feedOutOfRange f mv) s = .next t ∧ t.feedOk f = false ∧ nbit t.pwr.pass f = false ∧ t.bit pwrFault (27 - f) = true ∧
      (s.feedOk (1 - f) = true → t.bit pwrStatus 20 = s.bit pwrStatus 20) ∧
      (s.feedOk (1 - f) = false → t.bit pwrStatus 20 = true) := by
  obtain ⟨h1, h2, h3, h4, h5⟩ := feedGone_effects (s := s) f mv
  have hx : exec (.feedOutOfRange f mv) s = if (s.feedGone f mv).feedOk (1 - f) then .next (s.feedGone f mv)
      else .next (((s.feedGone f mv).setBit pwrStatus 20 true).linksReset) := by
    show execFeedOutOfRange f mv s = _
    unfold execFeedOutOfRange State.feedGone
    dsimp only
    rw [hk, if_neg (by simp [hf])]
  rw [hx, h4]
  cases ho : s.feedOk (1 - f)
  · refine ⟨_, if_neg (by simp), ?_, ?_, ?_, by simp, fun _ => ?_⟩
    · rw [State.feedOk, linksReset_bit (by decide) (by decide), bit_setBit _ _ _ _ _ _ (by omega) (by omega)]
      exact h1
    · rw [linksReset_pwr, setBit_pwr, h2]
    · rw [linksReset_bit (by decide) (by decide), bit_setBit _ _ _ _ _ _ (by omega) (.inl (by decide)), h3]
    · rw [linksReset_bit (by decide) (by decide), bit_setBit_self _ _ _ _ (by omega)]
  · exact ⟨_, if_pos rfl, h1, h2, h3, fun _ => h5, by simp⟩

/-- A feed back in its range, with its reading. -/
def State.feedBack (s : State) (f : FeedIx) (mv : Nat) : State := (s.setBit pwrStatus (24 - f) true).setN (pwrFeedV f) (min mv 65535)

theorem feedBack_effects (f : FeedIx) (mv : Nat) : (s.feedBack f mv).feedOk f = true ∧ (s.feedBack f mv).bit pwrStatus 20 = s.bit pwrStatus 20 ∧
    (s.feedBack f mv).nreg (pwrFeedV f) = min mv 65535 := by
  unfold State.feedBack
  refine ⟨?_, ?_, nreg_setN_self _ _ (by omega)⟩
  · rw [State.feedOk, bit_setN_ne (pwrFeedV_ne f).1, bit_setBit_self _ _ _ _ (by omega)]
  · rw [bit_setN_ne (pwrFeedV_ne f).1, bit_setBit _ _ _ _ _ _ (by omega) (by omega)]

theorem reg_feedPath (f : Nat) (on : Bool) (h : o ≠ pwrStatus) : (s.feedPath f on).reg o = s.reg o :=
  (reg_setFld _ _ _ _ _ _).trans (if_neg h)

theorem raiseUp_reg (code : Nat) (vals : List EvVal) (h : o ≠ glbEvFifoOvfCnt) : (s.raiseUp code vals).reg o = s.reg o := by
  unfold State.raiseUp
  split
  · exact raise_reg _ _ _ h
  · rfl

/-- PWR_STATUS.RUN_ON_BUS ends, and is counted where it stood. -/
def State.busDone (s : State) (was : Bool) : State := if was then (s.setBit pwrStatus 20 false).cnt pwrPfailCnt else s

theorem busDone_effects {was : Bool} (hw : s.bit pwrStatus 20 = was) (f : FeedIx) : (s.busDone was).bit pwrStatus 20 = false ∧
    (s.busDone was).feedOk f = s.feedOk f ∧ (s.busDone was).reg (pwrFeedV f) = s.reg (pwrFeedV f) := by
  cases was
  · exact ⟨hw, rfl, rfl⟩
  · have hv : pwrFeedV f ≠ pwrPfailCnt := by
      unfold pwrFeedV pwrPfailCnt
      omega
    refine ⟨?_, ?_, ?_⟩
    · rw [State.busDone, if_pos rfl, bit_cnt_ne (by decide), bit_setBit_self _ _ _ _ (by omega)]
    · rw [State.busDone, if_pos rfl, State.feedOk, bit_cnt_ne (by decide), bit_setBit _ _ _ _ _ _ (by omega) (by omega), State.feedOk]
    · rw [State.busDone, if_pos rfl, reg_cnt, if_neg hv, reg_setBit, if_neg (Ne.symm (pwrFeedV_ne f).1)]

theorem exec_feedInRange (f : FeedIx) (mv : Nat) (hk : s.kState = kOn) (hp : s.pwr.supply = true) (hf : s.feedOk f = false) :
    ∃ t, exec (.feedInRange f mv) s = .next t ∧ t.feedOk f = true ∧ t.bit pwrStatus 20 = false ∧ t.nreg (pwrFeedV f) = min mv 65535 := by
  obtain ⟨h1, h2, h3⟩ := feedBack_effects (s := s) f mv
  generalize hs2 : (if (s.feedBack f mv).feedUsable f then (s.feedBack f mv).feedPath f true else s.feedBack f mv) = s2
  have hx : exec (.feedInRange f mv) s = .next ((s2.busDone (s.bit pwrStatus 20)).raiseUp 0x0A03 [.w (f : Nat)]) := by
    subst hs2
    show execFeedInRange f mv s = _
    unfold execFeedInRange
    dsimp only
    rw [hp, if_neg (by simp), if_pos ⟨.inr hk, by simp [hf]⟩]
    rfl
  have hsame : s2.feedOk f = true ∧ s2.bit pwrStatus 20 = s.bit pwrStatus 20 ∧ s2.reg (pwrFeedV f) = (s.feedBack f mv).reg (pwrFeedV f) := by
    subst hs2
    split
    · refine ⟨?_, ?_, reg_feedPath _ _ (Ne.symm (pwrFeedV_ne f).1)⟩
      · rw [State.feedOk, feedPath_bit _ _ (.inr (by omega))]
        exact h1
      · rw [feedPath_bit _ _ (.inr (by omega)), h2]
    · exact ⟨h1, h2, rfl⟩
  obtain ⟨hb, ho, hr⟩ := busDone_effects hsame.2.1 f
  have hv : pwrFeedV f ≠ glbEvFifoOvfCnt := by
    unfold pwrFeedV glbEvFifoOvfCnt
    omega
  refine ⟨_, hx, ?_, ?_, ?_⟩
  · rw [feedOk_raiseUp, ho, hsame.1]
  · rw [raiseUp_bit _ _ (by decide), hb]
  · rw [State.nreg, raiseUp_reg _ _ hv, hr, hsame.2.2]
    exact h3

theorem exec_oringTurnOff (f : FeedIx) : ∃ t, exec (.oringTurnOff f) s = .next t ∧ nbit t.pwr.oring f = false ∧
    nbit (t.fld pwrStatus 21 2) f = false ∧ t.pwr.pass = s.pwr.pass := by
  show ∃ t, execOringTurnOff f s = .next t ∧ _
  unfold execOringTurnOff
  refine ⟨_, rfl, ?_, ?_, ?_⟩
  · rw [setFld_pwr, nbit_withFeed_off]
  · rw [fld_setFld_self _ _ _ _ _ (by omega), nbit_mod_four f.isLt, nbit_withFeed_off]
  · rw [setFld_pwr]

/-- The ORing transistor of a feed is known to be bad. -/
def State.oringBadly (s : State) (f : Nat) : State := { s with pwr := { s.pwr with oringBad := withFeed s.pwr.oringBad f true } }

theorem oringBadly_pwr (f : Nat) : (s.oringBadly f).pwr = { s.pwr with oringBad := withFeed s.pwr.oringBad f true } := (rfl)

theorem oringBadly_bit (f : Nat) : (s.oringBadly f).bit o i = s.bit o i := bit_congr rfl _ _

theorem execOringFail_off (f : FeedIx) (ho : nbit s.pwr.oring f = false) : execOringFail f s =
    .next ((((s.feedPath f false).setBit pwrFault 28 true).oringBadly f).raiseUp 0x0A0B [.w (f : Nat)]) := by
  unfold execOringFail
  rw [if_neg (by simp [ho])]
  rfl

theorem exec_oringFail (f : FeedIx) (ho : nbit s.pwr.oring f = false) : ∃ t, exec (.oringFail f) s = .next t ∧
    nbit t.pwr.pass f = false ∧ nbit t.pwr.oringBad f = true ∧ t.bit pwrFault 28 = true := by
  refine ⟨_, execOringFail_off f ho, ?_, ?_, ?_⟩
  · rw [raiseUp_pwr, oringBadly_pwr, setBit_pwr, feedPath_pwr, nbit_withFeed_off]
  · rw [raiseUp_pwr, oringBadly_pwr, nbit_withFeed_on]
  · rw [raiseUp_bit _ _ (by decide), oringBadly_bit, bit_setBit_self _ _ _ _ (by omega)]

/-- A trip within 60 s of the last one of its feed. -/
def State.tripsAgain (s : State) (f : Nat) : Bool := decide (tget 0 s.pwr.tripAt f ≠ 0) &&
  decide (ticksSince (BitVec.ofNat 48 (tget 0 s.pwr.tripAt f - 1)) s.tick.loc < sixtySeconds)

/-- What a trip leaves in PWR_FAULT and the count of trips. -/
def State.tripMarked (s : State) (f : Nat) : State :=
  let s1 := ((s.feedPath f false).setBit pwrFault 25 true).cnt pwrCbTripCnt
  if s.tripsAgain f then s1.setBit pwrFault 24 true else s1

theorem tripMarked_pwr (f : Nat) : (s.tripMarked f).pwr =
    { s.pwr with pass := withFeed s.pwr.pass f false, oring := withFeed s.pwr.oring f false } := by
  unfold State.tripMarked
  dsimp only
  split
  · rw [setBit_pwr, cnt_pwr, setBit_pwr, feedPath_pwr]
  · rw [cnt_pwr, setBit_pwr, feedPath_pwr]

theorem tripMarked_regs (f : Nat) : (s.tripMarked f).bit pwrFault 25 = true ∧
    (s.tripMarked f).nreg pwrCbTripCnt = min (s.nreg pwrCbTripCnt + 1) (2 ^ 32 - 1) ∧
    (s.tripsAgain f = true → (s.tripMarked f).bit pwrFault 24 = true) := by
  have hc : (((s.feedPath f false).setBit pwrFault 25 true).cnt pwrCbTripCnt).nreg pwrCbTripCnt = min (s.nreg pwrCbTripCnt + 1) (2 ^ 32 - 1) := by
    rw [State.nreg, reg_cnt, if_pos rfl, reg_setBit, if_neg (by decide), reg_feedPath _ _ (by decide), BitVec.toNat_ofNat,
      Nat.mod_eq_of_lt (Nat.lt_of_le_of_lt (Nat.min_le_right _ _) (by decide)), State.nreg]
  have hb : (((s.feedPath f false).setBit pwrFault 25 true).cnt pwrCbTripCnt).bit pwrFault 25 = true := by
    rw [bit_cnt_ne (by decide), bit_setBit_self _ _ _ _ (by omega)]
  unfold State.tripMarked
  dsimp only
  split
  · refine ⟨?_, ?_, fun _ => bit_setBit_self _ _ _ _ (by omega)⟩
    · rw [bit_setBit _ _ _ _ _ _ (by omega) (by omega), hb]
    · rw [State.nreg, reg_setBit, if_neg (by decide)]
      exact hc
  · next h => exact ⟨hb, hc, fun h' => absurd h' h⟩

theorem exec_cbTrip (f : FeedIx) (ma : Nat) (hp : nbit s.pwr.pass f = true) :
    ∃ t, exec (.cbTrip f ma) s = .next t ∧ t.pwr.pass = withFeed s.pwr.pass f false ∧ nbit t.pwr.tripped f = true ∧
      t.bit pwrFault 25 = true ∧ t.nreg pwrCbTripCnt = min (s.nreg pwrCbTripCnt + 1) (2 ^ 32 - 1) ∧
      nbit t.pwr.retry f = !s.tripsAgain f ∧ nbit t.pwr.latched f = (s.tripsAgain f || nbit s.pwr.latched f) ∧
      (s.tripsAgain f = true → t.bit pwrFault 24 = true) := by
  obtain ⟨h1, h2, h3⟩ := tripMarked_regs (s := s) f
  refine ⟨_, if_pos hp, ?_, ?_, ?_, ?_, ?_, ?_, ?_⟩
  · rw [raiseUp_pwr]
    exact congrArg PwrS.pass (tripMarked_pwr f)
  · rw [raiseUp_pwr, nbit_withFeed_on]
  · rw [raiseUp_bit _ _ (by decide)]
    exact (bit_congr (s := s.tripMarked f) rfl _ _).trans h1
  · rw [State.nreg, raiseUp_reg _ _ (by decide)]
    exact (nreg_congr (s := s.tripMarked f) rfl _).trans h2
  · rw [raiseUp_pwr, nbit_withFeed]
    rfl
  · rw [raiseUp_pwr, nbit_withFeed]
    rfl
  · intro h
    rw [raiseUp_bit _ _ (by decide)]
    exact (bit_congr (s := s.tripMarked f) rfl _ _).trans (h3 h)

theorem exec_cbRetry (f : FeedIx) (hr : nbit s.pwr.retry f = true) (hu : s.feedUsable f = true) (hp : s.powered = true)
    (ht : s.kState ≠ kOn ∨ oneSecond ≤ ticksSince (BitVec.ofNat 48 (tget 0 s.pwr.tripAt f - 1)) s.tick.loc) :
    ∃ t, exec (.cbRetry f) s = .next t ∧ nbit t.pwr.retry f = false ∧ nbit t.pwr.tripped f = false ∧ nbit t.pwr.pass f = true := by
  have ht' : ¬(s.kState = kOn ∧ ticksSince (BitVec.ofNat 48 (tget 0 s.pwr.tripAt f - 1)) s.tick.loc < oneSecond) := by
    rintro ⟨h1, h2⟩
    rcases ht with h | h
    · exact h h1
    · omega
  show ∃ t, execCbRetry f s = .next t ∧ _
  unfold execCbRetry
  rw [if_neg ht', if_pos ⟨hr, hu, hp⟩]
  refine ⟨_, rfl, ?_, ?_, ?_⟩
  · rw [feedPath_pwr, nbit_withFeed_off]
  · rw [feedPath_pwr, nbit_withFeed_off]
  · rw [feedPath_pwr, nbit_withFeed_on]

theorem feedEnable_effects {f : Nat} (hf : f < 2) (v : Bool) (ho : s.feedOk (1 - f) = true) :
    (s.feedEnable f v).bit pwrCtl (30 - f) = v ∧ (v = false → nbit (s.feedEnable f v).pwr.pass f = false) := by
  have hb : (s.setBit pwrCtl (30 - f) v).bit pwrCtl (30 - f) = v := bit_setBit_self _ _ _ _ (by omega)
  unfold State.feedEnable
  rw [ho, if_neg (by simp)]
  dsimp only
  cases v
  · rw [if_pos (by simp)]
    exact ⟨(feedPath_bit _ _ (.inl (by decide))).trans hb, fun _ => by rw [feedPath_pwr, nbit_withFeed_off]⟩
  · rw [if_neg (by simp)]
    refine ⟨?_, by simp⟩
    split
    · exact (feedPath_bit _ _ (.inl (by decide))).trans hb
    · exact hb

theorem exec_keeperSupplyLost : ∃ t, exec .keeperSupplyLost s = .next t ∧ t.pwr.supply = false ∧ t.pwr.pass = 0 ∧ t.pwr.mgmtUp = false ∧
    t.mgmt = s.mgmt := by
  refine ⟨_, rfl, ?_, ?_, ?_, ?_⟩
  · rw [setBit_pwr, setFld_pwr]
  · rw [setBit_pwr, setFld_pwr]
  · rw [setBit_pwr, setFld_pwr]
  · rw [setBit_mgmt, setFld_mgmt]

theorem coldBase_fuses : s.coldBase.mgmt.fuses = s.mgmt.fuses := by
  unfold State.coldBase
  rw [setReg_mgmt]

theorem exec_keeperPowerOn (hp : s.pwr.supply = false) :
    ∃ t, exec .keeperPowerOn s = .next t ∧ t.regs = [] ∧ t.pwr.supply = true ∧ t.mgmt.fuses = s.mgmt.fuses :=
  ⟨_, if_neg (by simp [hp]), rfl, rfl, coldBase_fuses⟩

/-- Settles O47: each clause by the lemma of its command; a trip within 60 s of the last is `State.tripsAgain`. -/
theorem feedProtection : Obligations.FeedProtection := by
  refine ⟨fun f mv _ hk hf => exec_feedOutOfRange f mv hk hf, fun f mv _ hk hp hf => exec_feedInRange f mv hk hp hf,
    fun f _ => exec_oringTurnOff f, fun f _ ho => exec_oringFail f ho, fun f ma s hp => ?_,
    fun f _ hr hu hp ht => exec_cbRetry f hr hu hp ht, fun v s h0 h1 => ?_, fun _ => exec_keeperSupplyLost, fun _ hp => exec_keeperPowerOn hp⟩
  · obtain ⟨t, hx, h1, h2, h3, h4, h5, h6, h7⟩ := exec_cbTrip f ma hp
    refine ⟨t, hx, by rw [h1, nbit_withFeed_off], h2, h3, h4, fun h0 => ?_, fun hne hlt => ?_⟩
    · have ha : s.tripsAgain f = false := by simp [State.tripsAgain, h0]
      exact ⟨by rw [h5, ha]; rfl, by rw [h6, ha, Bool.false_or]⟩
    · have ha : s.tripsAgain f = true := by simp [State.tripsAgain, hne, hlt]
      exact ⟨by rw [h5, ha]; rfl, by rw [h6, ha, Bool.true_or], h7 ha⟩
  · obtain ⟨ha, hb⟩ := feedEnable_effects (s := s) (f := 0) (by omega) v h1
    obtain ⟨hc, hd⟩ := feedEnable_effects (s := s) (f := 1) (by omega) v h0
    exact ⟨⟨_, rfl, ha, hb⟩, _, rfl, hc, hd⟩

end Sys2Proof.Machine
end

section
namespace Sys2Proof.Machine

/-! ### MCTP and the sideband buses (O48) -/

variable {s : State}

/-! A whole message in one packet. -/

theorem dropReasm_of_none {src : Src} {tag : BitVec 3} {owner : Bool} (h : s.nalug.reasm.find? (fun r => r.is src tag owner) = none) :
    s.dropReasm src tag owner = s := by
  have hf : s.nalug.reasm.filter (fun r => !r.is src tag owner) = s.nalug.reasm :=
    List.filter_eq_self.mpr fun r hr => by simpa using List.find?_eq_none.mp h r hr
  unfold State.dropReasm
  rw [hf]

theorem exec_nalugPacketReceive_whole {k : MctpPacket} (hp : k.pecOk = true) (hs : k.som = true) (he : k.eom = true)
    (hl : k.payload.length ≤ 4099) (ht : byteAt k.payload 0 = 0x7E) (hv : leAt k.payload 1 2 = Config.vendorId.toNat)
    (hn : s.nalug.reasm.find? (fun r => r.is k.src k.tag k.owner) = none) :
    exec (.nalugPacketReceive k) s = .next (s.nalugAccept k.src (k.payload.drop 3)) := by
  have hr : s.reassemble k k.payload = s.nalugAccept k.src (k.payload.drop 3) := by
    unfold State.reassemble State.nalugMessage
    rw [dropReasm_of_none hn, if_neg (by omega), he, if_pos rfl, if_pos ⟨ht, hv⟩]
  show execNalugPacketReceive k s = _
  unfold execNalugPacketReceive
  rw [hp, hs, he, hn]
  simpa using hr

/-! Locks that a reset of their path breaks. -/

theorem lockAt_congr {t : State} (h : t.nalug.locks = s.nalug.locks) (n : Nat) : t.lockAt n = s.lockAt n := by
  simp only [State.lockAt, h]

theorem lockAt_raise (code : Nat) (vals : List EvVal) (n : Nat) : (s.raise code vals).lockAt n = s.lockAt n :=
  lockAt_congr (by rw [raise_nalug]) n

theorem lockAt_cnt (o k n : Nat) : (s.cnt o k).lockAt n = s.lockAt n := lockAt_congr (by rw [cnt_nalug]) n

theorem lockAt_setLock (n : Nat) (l : Lock) : (s.setLock n l).lockAt n = l := by
  simp only [State.lockAt, State.setLock, tget_tput_self]

theorem lockAt_setLock_ne {n k : Nat} (l : Lock) (h : k ≠ n) : (s.setLock n l).lockAt k = s.lockAt k := by
  simp only [State.lockAt, State.setLock, tget_tput_ne _ _ _ _ h]

theorem lockAt_breakLock_ne {n k : Nat} (h : k ≠ n) : (s.breakLock n).lockAt k = s.lockAt k := by
  unfold State.breakLock
  dsimp only
  split
  · rw [lockAt_raise, lockAt_cnt, lockAt_setLock_ne _ h]
  · rfl

theorem lockAt_breakLock {n : Nat} (h : (s.lockAt n).held = true) : (s.breakLock n).lockAt n =
    { s.lockAt n with held := false, broken := true, gen := (s.lockAt n).gen + 1, moves := (s.lockAt n).moves + 1 } := by
  unfold State.breakLock
  dsimp only
  rw [if_pos h, lockAt_raise, lockAt_cnt, lockAt_setLock]

/-- What a break of the locks of some owners does at one lock. -/
def Lock.brokenFor (l : Lock) (p : Src → Bool) : Lock :=
  if l.held && p l.owner then { l with held := false, broken := true, gen := l.gen + 1, moves := l.moves + 1 } else l

/-- Each lock below the bound that such an owner holds is broken once. -/
theorem lockAt_breakAll (p : Src → Bool) (m n : Nat) :
    (s.each (List.range m) (fun k t => if (t.lockAt k).held && p (t.lockAt k).owner then t.breakLock k else t)).lockAt n =
      if n < m then (s.lockAt n).brokenFor p else s.lockAt n := by
  induction m with
  | zero => rfl
  | succ m ih =>
    rw [each_range_succ]
    generalize s.each (List.range m) _ = t at ih ⊢
    by_cases hn : n = m
    · subst hn
      rw [if_neg (Nat.lt_irrefl n)] at ih
      rw [if_pos (Nat.lt_succ_self n), ← ih, Lock.brokenFor]
      by_cases h : ((t.lockAt n).held && p (t.lockAt n).owner) = true
      · rw [if_pos h, if_pos h]
        rw [Bool.and_eq_true] at h
        exact lockAt_breakLock h.1
      · rw [if_neg h, if_neg h]
    · have hk : (if (t.lockAt m).held && p (t.lockAt m).owner then t.breakLock m else t).lockAt n = t.lockAt n := by
        split
        · exact lockAt_breakLock_ne hn
        · rfl
      have hlt : n < m ↔ n < m + 1 := by omega
      rw [hk, ih]
      simp only [hlt]

theorem lockAt_resetPath (p : Src → Bool) {n : Nat} (h : n < 64) : (s.resetPath p).lockAt n = (s.lockAt n).brokenFor p := by
  rw [lockAt_congr (s := s.breakLocksOf p) (by rw [State.resetPath]), State.breakLocksOf, lockAt_breakAll, if_pos h]

/-! The commands. -/

theorem exec_sbArbRetry (b : BusIx) : ∃ t, exec (.sbArbRetry b) s = .next t ∧
    t.nreg mgtSbArbLossCnt = min (s.nreg mgtSbArbLossCnt + 1) (2 ^ 32 - 1) ∧
    tget 0 t.nalug.tries (b + 1) = if tget 0 s.nalug.tries (b + 1) + 1 < 8 then tget 0 s.nalug.tries (b + 1) + 1 else 0 := by
  refine ⟨_, rfl, ?_, ?_⟩
  · rw [State.nreg, reg_cnt, if_pos rfl, BitVec.toNat_ofNat]
    exact Nat.mod_eq_of_lt (Nat.lt_of_le_of_lt (Nat.min_le_right _ _) (by decide))
  · rw [cnt_nalug]
    exact tget_tput_self 0 s.nalug.tries _ _

theorem exec_i3cEntdaa (b : BusIx) (addr : BitVec 7) (h : s.busI3c b = true) :
    ∃ t, exec (.i3cEntdaa b addr) s = .next t ∧ tget 0 t.nalug.i3c b = addr.toNat + 1 ∧ t.regs = s.regs ∧ t.out = s.out := by
  refine ⟨_, if_pos h, ?_, rfl, rfl⟩
  simp only [tget_tput_self]

/-- Settles O48: the packet by `State.reassemble`, the control commands by their definitions, the locks by `lockAt_resetPath`. -/
theorem mctpAndSideband : Obligations.MctpAndSideband := by
  refine ⟨fun k _ hp hs he hl ht hv hn => exec_nalugPacketReceive_whole hp hs he hl ht hv hn, fun _ _ _ _ h => if_pos h,
    fun _ _ _ => rfl, fun _ _ => ⟨rfl, rfl, rfl, rfl⟩, fun _ _ h => ⟨if_neg (by simp [h]), if_neg (by simp [h])⟩,
    fun b addr s h => ⟨if_pos h, exec_i3cEntdaa b addr h⟩, fun b s => ?_, fun b s n hn _ hh ho => ?_⟩
  · obtain ⟨t, hx, hc, ht⟩ := exec_sbArbRetry (s := s) b
    exact ⟨t, hx, hc, fun h => by rw [ht, if_pos (by omega)], fun h => by rw [ht, if_neg (by omega)]⟩
  · have hb : (s.lockAt n).brokenFor (onBus b) =
        { s.lockAt n with held := false, broken := true, gen := (s.lockAt n).gen + 1, moves := (s.lockAt n).moves + 1 } :=
      if_pos (by rw [hh, ho]; rfl)
    rw [lockAt_resetPath _ hn, hb]
    exact ⟨rfl, rfl, rfl⟩

end Sys2Proof.Machine
end

section
namespace Sys2Proof.Machine

/-! ### What an admitted command's answer leaves of the management state -/

section Nalug
variable {s t : State} {code : Nat} {q : Req} {body : List Byte}

theorem journalDone_mgmt (src : Src) (seq : BitVec 16) (st : Nat) (b : List Byte) :
    ∃ j n, (s.journalDone code src seq st b).mgmt = { s.mgmt with jrnl := j, jseq := n } := by
  unfold State.journalDone
  split
  · exact ⟨_, _, rfl⟩
  · exact ⟨s.mgmt.jrnl, s.mgmt.jseq, rfl⟩

theorem firstAnswer_mgmt : ∃ w b v, s.firstAnswer.mgmt = { s.mgmt with watchdog := w, booted := b, svnMin := v } := by
  unfold State.firstAnswer
  dsimp only
  split
  · exact ⟨false, true, max s.mgmt.svnMin s.runningCopy.svn, by rw [raise_mgmt, setN_mgmt]⟩
  · exact ⟨s.mgmt.watchdog, s.mgmt.booted, s.mgmt.svnMin, rfl⟩

/-- An answer writes journal records, and the first one ends the watchdog and may raise MGT_SVN_MIN (R344, R349). -/
theorem answered_mgmt (st : Nat) (b : List Byte) : ∃ j n w bt v, (s.answered code q st b).mgmt =
    { s.mgmt with jrnl := j, jseq := n, watchdog := w, booted := bt, svnMin := v } := by
  unfold State.answered State.answer
  obtain ⟨w, bt, v, hf⟩ := firstAnswer_mgmt (s := (State.emit (if st = stInProgress then s.cnt64 mgtNalugCmdCnt
    else (s.cnt64 mgtNalugCmdCnt).journalDone code q.src q.seq st b) (.reply q code st b)).keepReply ⟨q.src, q.seq, code, st, b, journaled code⟩)
  dsimp only
  rw [hf, keepReply_mgmt, emit_mgmt]
  split
  · exact ⟨s.mgmt.jrnl, s.mgmt.jseq, w, bt, v, by rw [cnt64_mgmt]⟩
  · obtain ⟨j, n, hj⟩ := journalDone_mgmt (s := s.cnt64 mgtNalugCmdCnt) (code := code) q.src q.seq st b
    exact ⟨j, n, w, bt, v, by rw [hj, cnt64_mgmt]⟩

/-- What of the management state no answer and no BEGIN record changes. -/
structure MgmtS.Same (a b : MgmtS) : Prop where
  fwA : a.fwA = b.fwA
  fwB : a.fwB = b.fwB
  fwBuf : a.fwBuf = b.fwBuf
  fjxA : a.fjxA = b.fjxA
  fjxB : a.fjxB = b.fjxB
  fjxBuf : a.fjxBuf = b.fjxBuf
  staging : a.staging = b.staging
  stagingOn : a.stagingOn = b.stagingOn
  applied : a.applied = b.applied
  inRecovery : a.inRecovery = b.inRecovery
  nonce : a.nonce = b.nonce
  nonceAt : a.nonceAt = b.nonceAt
  nonceUsed : a.nonceUsed = b.nonceUsed
  debugBad : a.debugBad = b.debugBad

theorem answered_same (st : Nat) (b : List Byte) : (s.answered code q st b).mgmt.Same s.mgmt := by
  obtain ⟨j, n, w, bt, v, h⟩ := answered_mgmt (s := s) (code := code) (q := q) st b
  rw [h]
  exact ⟨rfl, rfl, rfl, rfl, rfl, rfl, rfl, rfl, rfl, rfl, rfl, rfl, rfl, rfl⟩

theorem begun_same : (s.begun code q body).mgmt.Same s.mgmt := by
  obtain ⟨j, n, h⟩ := begun_mgmt s code q body
  rw [h]
  exact ⟨rfl, rfl, rfl, rfl, rfl, rfl, rfl, rfl, rfl, rfl, rfl, rfl, rfl, rfl⟩

theorem fwCopy_congr (h : t.mgmt.Same s.mgmt) (i : Nat) : t.fwCopy i = s.fwCopy i := by
  simp only [State.fwCopy, h.fwA, h.fwB]

theorem inactive_congr (h : t.mgmt.Same s.mgmt) (hr : t.regs = s.regs) : t.inactive = s.inactive := by
  simp only [State.inactive, h.inRecovery, h.fwA, h.fwB, bit_congr hr]

theorem begun_running (j : StepJob) : (s.begun code q body).running j = s.running j := by
  simp only [State.running, State.jobSlot, begun_slot]

/-- An admitted command whose action begins a stepped command in the slot that is picked. -/
theorem nalug_run_stepped {f g : OpForm} {act : State → State × Option (Nat × List Byte)} {k : Nat} {job : StepJob} {total phase : Nat}
    (h : s.admitted code q f = true) (hg : g = f) (hk : s.pickSlot = some k)
    (ha : act (s.begun code q body) = (s.begun code q body).stepStart code q job total phase) :
    s.nalug_run code q body g act = s.stepped k code q body job total phase := by
  have hx : (s.begun code q body).stepStart code q job total phase =
      ((s.begun code q body).setSlot k (s.newSlot k code q job total phase),
        some (stInProgress, toLe 8 (stepToken k (s.newSlot k code q job total phase)))) := by
    unfold State.stepStart
    rw [begun_pickSlot, hk]
    simp only [begun_slot, begun_nalug, State.newSlot]
  exact nalug_run_answered h hg (ha.trans hx)

end Nalug

/-! ### Firmware copies and the FJX image (O52) -/

variable {s : State}

theorem setFw_other (i : Nat) (c : FwCopy) (h : i < 2) : (s.setFw i c).fwCopy i = c ∧ (s.setFw i c).fwCopy (1 - i) = s.fwCopy (1 - i) := by
  have hi : i = 0 ∨ i = 1 := by omega
  rcases hi with rfl | rfl <;> exact ⟨rfl, rfl⟩

theorem inactive_lt : s.inactive < 2 := by
  unfold State.inactive
  split
  · split
    · split <;> omega
    · omega
    · omega
  · split <;> omega

/-- The copy with the chunk that a write brings (R347). -/
def fwWritten (c : FwCopy) (off : Nat) (data : List Byte) : FwCopy :=
  if off = 0 then { started := true, bytes := data } else { c with bytes := c.bytes ++ data }

theorem fwWritten_bytes (c : FwCopy) (off : Nat) (data : List Byte) :
    (fwWritten c off data).bytes = if off = 0 then data else c.bytes ++ data := by
  unfold fwWritten
  split <;> rfl

/-- What OP_FW_WRITE's action leaves: the inactive copy with the chunk, the chunk's bytes in the buffer. -/
def State.fwWrote (s : State) (off : Nat) (data : List Byte) : State :=
  { s.setFw s.inactive (fwWritten (s.fwCopy s.inactive) off data) with
    mgmt := { (s.setFw s.inactive (fwWritten (s.fwCopy s.inactive) off data)).mgmt with fwBuf := s.mgmt.fwBuf + data.length } }

theorem fwWrote_effects (off : Nat) (data : List Byte) :
    (s.fwWrote off data).fwCopy s.inactive = fwWritten (s.fwCopy s.inactive) off data ∧
    (s.fwWrote off data).fwCopy (1 - s.inactive) = s.fwCopy (1 - s.inactive) ∧
    (s.fwWrote off data).mgmt.fwBuf = s.mgmt.fwBuf + data.length :=
  ⟨(setFw_other _ _ inactive_lt).1, (setFw_other _ _ inactive_lt).2, rfl⟩

theorem exec_opFwWrite {q : Req} {body : List Byte} (h : s.admitted 0x0201 q { lenOk := true } = true) (h5 : 5 ≤ body.length)
    (hl : body.length ≤ 4068) (hend : leAt body 0 4 + (body.length - 4) ≤ 33554432 - 64) (hr : s.running .fwCommit = false)
    (hb : s.mgmt.fwBuf + (body.length - 4) ≤ 65536)
    (hoff : leAt body 0 4 = 0 ∨ ((s.fwCopy s.inactive).started = true ∧ leAt body 0 4 = (s.fwCopy s.inactive).bytes.length)) :
    exec (.opFwWrite q body) s =
      .next (((s.begun 0x0201 q body).fwWrote (leAt body 0 4) (body.drop 4)).answered 0x0201 q stOk []) := by
  have hc := begun_same (s := s) (code := 0x0201) (q := q) (body := body)
  have hoff' : ¬(leAt body 0 4 ≠ 0 ∧ ((!(s.fwCopy s.inactive).started) = true ∨ leAt body 0 4 ≠ (s.fwCopy s.inactive).bytes.length)) := by
    rcases hoff with h0 | ⟨h1, h2⟩
    · simp [h0]
    · simp [h1, h2]
  refine congrArg Host.Outcome.next (nalug_run_answered h ?_ ?_)
  · have hfit : ¬33554432 - 64 < leAt body 0 4 + (body.drop 4).length := by
      rw [List.length_drop]
      omega
    simp only [h5, hl, hfit, decide_true, decide_false, Bool.and_self]
  · dsimp only
    rw [begun_running, hr, if_neg (by simp), fwCopy_congr hc, inactive_congr hc (begun_regs _ _ _ _), if_neg hoff', hc.fwBuf, List.length_drop,
      if_neg (by omega)]
    simp only [State.fwWrote, fwWritten, ok, fwCopy_congr hc, inactive_congr hc (begun_regs _ _ _ _), hc.fwBuf, List.length_drop]

theorem exec_flashProgramDone_fw (n : Nat) (good : Bool) :
    ∃ t, exec (.flashProgramDone false n good) s = .next t ∧ t.mgmt.fwBuf = s.mgmt.fwBuf - n ∧
      (t.fwCopy s.inactive).readOk = ((s.fwCopy s.inactive).readOk && good) ∧ t.mgmt.staging = s.mgmt.staging := by
  refine ⟨_, rfl, rfl, ?_, ?_⟩
  · exact congrArg FwCopy.readOk (setFw_other (s := s) _ { s.fwCopy s.inactive with readOk := (s.fwCopy s.inactive).readOk && good } inactive_lt).1
  · unfold State.setFw
    split <;> rfl

theorem exec_opFwCommit {q : Req} {k : Nat} (h : s.admitted 0x0202 q { lenOk := true } = true) (hr : s.running .fwCommit = false)
    (hk : s.pickSlot = some k) : exec (.opFwCommit q []) s = .next (s.stepped k 0x0202 q [] .fwCommit 1 0) :=
  congrArg Host.Outcome.next (nalug_run_stepped h rfl hk (if_neg (by rw [begun_running, hr]; decide)))

theorem exec_recoveryBootStart (h : s.mgmt.inRecovery = true) (hb : s.mgmt.recovBoot = true) :
    exec .recoveryBootStart s = .next (s.bootRom false) := if_pos (by rw [h, hb]; rfl)

theorem exec_opFjxRead {q : Req} {body b : List Byte} (h : s.admitted 0x0203 q { lenOk := true } = true) (h8 : body.length = 8)
    (h0 : 0 < leAt body 4 2) (hn : leAt body 4 2 ≤ 4064) (hrsv : leAt body 6 2 = 0) (ha : s.mgmt.applied = some b)
    (hend : leAt body 0 4 + leAt body 4 2 ≤ b.length) (hb : b.length ≤ 4194304) :
    ∃ t : State, exec (.opFjxRead q body) s = .next (t.answered 0x0203 q stOk ((b.drop (leAt body 0 4)).take (leAt body 4 2))) := by
  have hlen : ((b.drop (leAt body 0 4)).take (leAt body 4 2)).length = leAt body 4 2 := by
    rw [List.length_take, List.length_drop]
    omega
  refine ⟨{ s.begun 0x0203 q body with free := (s.begun 0x0203 q body).free + 0 }, congrArg Host.Outcome.next (nalug_run_answered h ?_ ?_)⟩
  · have h1 : ¬leAt body 4 2 = 0 := by omega
    have h2 : ¬4064 < leAt body 4 2 := by omega
    have h3 : ¬4194304 < leAt body 0 4 + leAt body 4 2 := by omega
    simp only [h8, h1, h2, h3, hrsv, ne_eq, not_true_eq_false, decide_true, decide_false, Bool.or_self]
  · rw [begun_same.applied, ha]
    simp only [hlen, Nat.sub_self, List.range_zero, List.map_nil, List.append_nil]

/-- What OP_FJX_WRITE's action leaves (R351). -/
def State.fjxWrote (s : State) (off : Nat) (data : List Byte) : State :=
  { s with mgmt := { s.mgmt with staging := (if off = 0 then data else s.mgmt.staging ++ data), stagingOn := true,
                                  stagingOk := (if off = 0 then true else s.mgmt.stagingOk), fjxBuf := s.mgmt.fjxBuf + data.length } }

theorem exec_opFjxWrite {q : Req} {body : List Byte} (h : s.admitted 0x0204 q { lenOk := true } = true) (h5 : 5 ≤ body.length)
    (hl : body.length ≤ 4068) (hend : leAt body 0 4 + (body.length - 4) ≤ 4194304) (hr : s.running .fjxCommit = false)
    (hb : s.mgmt.fjxBuf + (body.length - 4) ≤ 65536)
    (hoff : leAt body 0 4 = 0 ∨ (s.mgmt.stagingOn = true ∧ leAt body 0 4 = s.mgmt.staging.length)) :
    exec (.opFjxWrite q body) s =
      .next (((s.begun 0x0204 q body).fjxWrote (leAt body 0 4) (body.drop 4)).answered 0x0204 q stOk []) := by
  have hc := begun_same (s := s) (code := 0x0204) (q := q) (body := body)
  have hoff' : ¬(leAt body 0 4 ≠ 0 ∧ ((!s.mgmt.stagingOn) = true ∨ leAt body 0 4 ≠ s.mgmt.staging.length)) := by
    rcases hoff with h0 | ⟨h1, h2⟩
    · simp [h0]
    · simp [h1, h2]
  refine congrArg Host.Outcome.next (nalug_run_answered h ?_ ?_)
  · have hfit : ¬4194304 < leAt body 0 4 + (body.drop 4).length := by
      rw [List.length_drop]
      omega
    simp only [h5, hl, hfit, decide_true, decide_false, Bool.and_self]
  · dsimp only
    rw [begun_running, hr, if_neg (by simp), hc.stagingOn, hc.staging, if_neg hoff', hc.fjxBuf, List.length_drop, if_neg (by omega)]
    simp only [State.fjxWrote, ok, hc.staging, hc.fjxBuf, List.length_drop]

theorem exec_opFjxCommit {q : Req} {k : Nat} (h : s.admitted 0x0205 q { lenOk := true } = true) (hlc : s.fld mgtStatus 25 3 ≠ 4)
    (hr : s.running .fjxCommit = false) (hk : s.pickSlot = some k) :
    exec (.opFjxCommit q []) s = .next (s.stepped k 0x0205 q [] .fjxCommit 4 0) := by
  refine congrArg Host.Outcome.next (nalug_run_stepped h rfl hk ?_)
  rw [begun_fld, if_neg hlc, begun_running, hr, if_neg (by simp)]

/-- Settles O52: the writes by what their action leaves, the commits as the stepped commands that begin. The slot that a commit takes, and
its TOTAL of one step, are the model's own choices (log 190). -/
theorem firmwareAndFjx : Obligations.FirmwareAndFjx := by
  refine ⟨fun q body s h h5 hl hend hr hb hoff => ?_, fun n good s => ⟨exec_flashProgramDone_fw n good, _, rfl, rfl, rfl, rfl, rfl⟩,
    fun _ _ _ h hr hk => exec_opFwCommit h hr hk, fun _ h hb => exec_recoveryBootStart h hb,
    fun q body b s h h8 h0 hn hrsv ha hend hb => ?_, fun q body s h h5 hl hend hr hb hoff => ?_,
    fun _ _ _ h hlc hr hk => exec_opFjxCommit h hlc hr hk⟩
  · have hc := begun_same (s := s) (code := 0x0201) (q := q) (body := body)
    have hi := inactive_congr hc (begun_regs s _ _ _)
    obtain ⟨h1, h2, h3⟩ := fwWrote_effects (s := s.begun 0x0201 q body) (leAt body 0 4) (body.drop 4)
    rw [hi] at h1 h2
    refine ⟨_, exec_opFwWrite h h5 hl hend hr hb hoff, ?_, ?_, ?_, mem_answered_out _ _ _ _ _⟩
    · rw [fwCopy_congr (answered_same _ _), h1, fwWritten_bytes, fwCopy_congr hc]
    · rw [fwCopy_congr (answered_same _ _), h2, fwCopy_congr hc]
    · rw [(answered_same _ _).fwBuf, h3, hc.fwBuf, List.length_drop]
  · obtain ⟨t, ht⟩ := exec_opFjxRead h h8 h0 hn hrsv ha hend hb
    exact ⟨_, ht, mem_answered_out _ _ _ _ _⟩
  · have hc := begun_same (s := s) (code := 0x0204) (q := q) (body := body)
    refine ⟨_, exec_opFjxWrite h h5 hl hend hr hb hoff, ?_, ?_, ?_, ?_, mem_answered_out _ _ _ _ _⟩
    · rw [(answered_same _ _).staging, State.fjxWrote, hc.staging]
    · rw [(answered_same _ _).stagingOn, State.fjxWrote]
    · rw [(answered_same _ _).fjxA, ← hc.fjxA, State.fjxWrote]
    · rw [(answered_same _ _).fjxB, ← hc.fjxB, State.fjxWrote]

end Sys2Proof.Machine
end

section
namespace Sys2Proof.Machine

/-! ### The erase of a lifecycle change under PFAIL (O53) -/

/-- The command in the first step slot: a change to RETIRED that stands before its side effects, which erase both firmware copies (R354). -/
def retiringSlot : StepSlot := { state := 1, opcode := 0x0206, total := 5, done := 2, job := .lifecycle 4, phase := 2 }

/-- PFAIL is asserted, so the firmware writes nothing more to flash (R306). -/
def retiringState : State := { (State.reset.setBit pwrStatus 20 true) with nalug := { steps := [(0, retiringSlot)] } }

/-- A step of the module in this state leaves the command in its phase. -/
theorem retiringState_waits :
    (match exec .steppedCommandStep retiringState with | .next t => (t.slot 0).phase | _ => 0) = 2 := by
  decide +kernel

/-- Refutes O53: a step that would perform the side effects of a transition (phase 2, R355) does not go on while PFAIL is asserted,
because the firmware then writes nothing more to flash (R306); the statement's clause of the step has no such premise. -/
theorem not_lifecycle : ¬ Obligations.Lifecycle := by
  rintro ⟨-, -, -, hstep⟩
  obtain ⟨t, ht, hnext, -⟩ := hstep 0 4 retiringState (by decide) (by decide) (by decide) rfl (by decide +kernel) (by decide +kernel)
    (by decide +kernel) rfl (by decide +kernel)
  have hw := retiringState_waits
  rw [ht] at hw
  have hp : (retiringState.slot 0).phase = 2 := by decide +kernel
  have := (hnext (by rw [hp]; decide)).1
  rw [hp] at this
  exact absurd (hw.symm.trans this) (by decide)

end Sys2Proof.Machine
end

section
namespace Sys2Proof.Machine

/-! ### Boot, checkpoint and takeover: what each leaves of the registers (O54) -/

section Boot
variable {s : State} {o lo n : Nat}

theorem raiseHeld_reg (h : o ≠ glbEvFifoOvfCnt) : s.raiseHeld.reg o = s.reg o :=
  (each_frame (proj := fun t => t.reg o) (fun (e : Nat × List EvVal) t => raise_reg t e.1 e.2 h) s.ev.late
    { s with ev := { s.ev with late := [] } }).trans (reg_congr (t := { s with ev := { s.ev with late := [] } }) rfl o)

theorem raiseHeld_mgmt : s.raiseHeld.mgmt = s.mgmt :=
  each_frame (proj := fun t => t.mgmt) (fun (e : Nat × List EvVal) t => raise_mgmt t e.1 e.2) s.ev.late { s with ev := { s.ev with late := [] } }

theorem fld_raiseHeld (h : o ≠ glbEvFifoOvfCnt) : s.raiseHeld.fld o lo n = s.fld o lo n := congrArg (bits · lo n) (raiseHeld_reg h)

theorem bit_raiseHeld {i : Nat} (h : o ≠ glbEvFifoOvfCnt) : s.raiseHeld.bit o i = s.bit o i := congrArg (fun n => decide (n = 1)) (fld_raiseHeld h)

theorem breakLock_reg (k : Nat) (hc : o ≠ glbLockBreakCnt) (he : o ≠ glbEvFifoOvfCnt) : (s.breakLock k).reg o = s.reg o := by
  unfold State.breakLock
  dsimp only
  split
  · rw [raise_reg _ _ _ he, reg_cnt, if_neg hc]
    exact reg_congr rfl o
  · rfl

theorem breakLocksOf_reg (p : Src → Bool) (hc : o ≠ glbLockBreakCnt) (he : o ≠ glbEvFifoOvfCnt) : (s.breakLocksOf p).reg o = s.reg o := by
  refine each_frame (proj := fun t => t.reg o) (fun k t => ?_) _ s
  split
  · exact breakLock_reg k hc he
  · rfl

theorem setBuf_regs (i : Nat) (b : CkptBuf) : (s.setBuf i b).regs = s.regs := by
  unfold State.setBuf
  split <;> rfl

/-- The word that a checkpoint's begin writes: its buffer, and RUNNING. -/
theorem ckptBegin_reg : ∃ i, s.ckptBegin.reg mgtCkptStatus = BitVec.ofNat 32 (i * 2 ^ 31 + 2 ^ 30) :=
  ⟨_, by rw [State.ckptBegin, reg_setN, if_pos rfl]⟩

theorem ckptBegin_reg_ne (h : o ≠ mgtCkptStatus) : s.ckptBegin.reg o = s.reg o := by
  rw [State.ckptBegin, reg_setN, if_neg h]
  exact reg_congr (setBuf_regs _ _) o

theorem ckptBegin_running : s.ckptBegin.bit mgtCkptStatus 30 = true := by
  obtain ⟨i, h⟩ := ckptBegin_reg (s := s)
  rw [bit_eq_fld, State.fld, h, bits, BitVec.toNat_ofNat]
  exact decide_eq_true (by omega)

theorem ckptBegin_slice : s.ckptBegin.fld mgtCkptStatus 16 9 = 0 := by
  obtain ⟨i, h⟩ := ckptBegin_reg (s := s)
  rw [State.fld, h, bits, BitVec.toNat_ofNat]
  omega

/-- A checkpoint goes into the buffer that does not hold the last complete one, which so stays. -/
theorem ckptBegin_bestBuf : s.ckptBegin.bestBuf = s.bestBuf := by
  unfold State.ckptBegin State.bestBuf
  cases ha : s.mgmt.buf0.complete <;> cases hb : s.mgmt.buf1.complete <;> cases hg : newerGen s.mgmt.buf0.gen s.mgmt.buf1.gen <;>
    simp [State.setBuf, ha, hb, hg]

theorem reg_withMgmt (m : MgmtS) : State.reg { s with mgmt := m } o = s.reg o := reg_congr rfl o

theorem reg_withNalug (m : NalugS) : State.reg { s with nalug := m } o = s.reg o := reg_congr rfl o

theorem reg_draw : s.draw.2.reg o = s.reg o := reg_congr rfl o

/-- The new core is the active one, and no later step of a takeover changes that. -/
theorem takeover_activeCore (old new cause : Nat) (r : Bool) : (s.takeover old new cause r).activeCore = new % 2 := by
  unfold State.takeover State.activeCore
  dsimp only
  rw [State.fld, raise_reg _ _ _ (by decide), breakLocksOf_reg _ (by decide) (by decide), ckptBegin_reg_ne (by decide), reg_cnt,
    if_neg (by decide), reg_setN, if_neg (by decide), reg_withMgmt, reg_draw, ← State.fld, fld_setBit _ _ _ _ _ _ _ (by decide) (by decide),
    fld_setFld_self _ _ _ _ _ (by decide), pow_one]

/-- A takeover counts itself once. -/
theorem takeover_switchCnt (old new cause : Nat) (r : Bool) :
    (s.takeover old new cause r).nreg mgtSwitchCnt = min (s.nreg mgtSwitchCnt + 1) (2 ^ 32 - 1) := by
  unfold State.takeover
  dsimp only
  rw [State.nreg, raise_reg _ _ _ (by decide), breakLocksOf_reg _ (by decide) (by decide), ckptBegin_reg_ne (by decide), ← State.nreg,
    nreg_cnt_self, Nat.min_comm, State.nreg, reg_setN, if_neg (by decide), reg_withMgmt, reg_draw, reg_setBit, if_neg (by decide),
    reg_setFld, if_neg (by decide), reg_withNalug]
  rfl

/-- The active core fails for the first time and the other one is present: the other one takes over (R362). -/
theorem coreFailed_takeover {c cause : Nat} (hc : s.activeCore = c) (hf : tget 0 s.mgmt.failAt c = 0) (hp : s.present 11 (1 - c) = true)
    (hh : s.bit mgtHaCtl 31 = true) :
    s.coreFailed c cause =
      State.takeover { s with mgmt := { s.mgmt with failAt := tput 0 s.mgmt.failAt c (s.tick.loc.toNat + 1) } } c (1 - c) cause := by
  unfold State.coreFailed
  simp [hc, hf, hp, hh]

/-- A slice before the last one moves the checkpoint on by one. -/
theorem exec_checkpointSlice_next (hr : s.bit mgtCkptStatus 30 = true) (hg : s.tick.guardDone = false) (ha : s.mgmt.sliceAt ≠ some s.tick.loc)
    (hn : s.fld mgtCkptStatus 16 9 < 383) : exec .checkpointSlice s =
      .next (State.setFld { s with mgmt := { s.mgmt with sliceAt := some s.tick.loc } } mgtCkptStatus 16 9 (s.fld mgtCkptStatus 16 9 + 1)) := by
  refine congrArg Host.Outcome.next ?_
  rw [hg, if_neg (by decide), State.ckptSlice, hr, if_neg (by simp [ha])]
  exact if_pos hn

/-- The last slice ends the checkpoint. -/
theorem exec_checkpointSlice_last (hr : s.bit mgtCkptStatus 30 = true) (hg : s.tick.guardDone = false) (ha : s.mgmt.sliceAt ≠ some s.tick.loc)
    (hn : 383 ≤ s.fld mgtCkptStatus 16 9) : exec .checkpointSlice s =
      .next (State.ckptEnd { s with mgmt := { s.mgmt with sliceAt := some s.tick.loc } }) := by
  refine congrArg Host.Outcome.next ?_
  rw [hg, if_neg (by decide), State.ckptSlice, hr, if_neg (by simp [ha])]
  exact if_neg (by omega)

theorem ckptEnd_running : s.ckptEnd.bit mgtCkptStatus 30 = false := by
  unfold State.ckptEnd
  exact bit_setBit_self _ _ _ _ (by decide)

theorem ckptEnd_gen : s.ckptEnd.reg mgtCkptGen = s.reg mgtCkptGen + 1 := by
  unfold State.ckptEnd
  dsimp only
  rw [reg_setBit, if_neg (by decide), reg_setReg, if_pos rfl]

theorem takeLc_mgmt (g : Nat) : (s.takeLc g).mgmt = s.mgmt := by rw [State.takeLc, setFld_mgmt, setFld_mgmt]

theorem lcState_congr {t : State} (h : t.mgmt = s.mgmt) : t.lcState = s.lcState := by
  unfold State.lcState State.fuse
  rw [h]

/-- Taking a lifecycle state is no new choice of a copy. -/
theorem takeLc_fw (g : Nat) : (s.takeLc g).lcState = s.lcState ∧ (s.takeLc g).fwCopy 0 = s.mgmt.fwA ∧
    (s.takeLc g).fwReason s.mgmt.fwA = s.fwReason s.mgmt.fwA := by
  refine ⟨lcState_congr (takeLc_mgmt g), ?_, ?_⟩ <;> simp only [State.fwCopy, State.fwReason, takeLc_mgmt, if_true]

/-- The boot of a module whose copy A is valid and copy B was never committed: copy A runs (R344). -/
theorem bootRom_copyA (hl : s.lcState ≤ 3) (hp : s.completePending = s.takeLc s.lcState) (hb : s.mgmt.fwB.commit = none)
    (ha : s.fwReason s.mgmt.fwA = 0) : s.bootRom true =
      (((s.takeLc s.lcState).setBit mgtStatus 31 (decide ((s.takeLc s.lcState).coldCore = 1))).runFw 0 false).raiseHeld := by
  obtain ⟨hlc, hcopy, hreason⟩ := takeLc_fw (s := s) s.lcState
  have h4 : (s.takeLc s.lcState).lcState ≠ 4 := by omega
  have hB : (s.takeLc s.lcState).mgmt.fwB.commit = none := (congrArg (·.fwB.commit) (takeLc_mgmt _)).trans hb
  have hvalid : (s.takeLc s.lcState).fwReason ((s.takeLc s.lcState).fwCopy 0) = 0 := by rw [hcopy, hreason, ha]
  unfold State.bootRom
  rw [hp]
  generalize s.takeLc s.lcState = u at h4 hB hvalid
  cases hA : u.mgmt.fwA.commit <;> simp only [h4, hB, hA, hvalid, if_true, if_false, ne_eq, not_true_eq_false, false_and, true_or, decide_false]

theorem takeLc_lc {g : Nat} (h : g ≤ 3) : (s.takeLc g).fld mgtStatus 25 3 = g := by
  rw [State.takeLc, fld_setFld _ _ _ _ _ _ _ _ (by decide) (by decide), fld_setFld_self _ _ _ _ _ (by decide)]
  omega

/-- Of MGT_STATUS, the start of a copy writes COPY, FALLBACK, RECOVERY and STANDBY_OK alone. -/
theorem runFw_fld (i : Nat) (f : Bool) (h : lo + n ≤ 30 ∨ 31 ≤ lo) : (s.runFw i f).fld mgtStatus lo n =
    (((s.setBit mgtStatus 21 (decide (i = 1))).setBit mgtStatus 19 f).setBit mgtStatus 28 false).fld mgtStatus lo n := by
  unfold State.runFw
  dsimp only
  rw [fld_of_reg (reg_withMgmt _), fld_setBit _ _ _ _ _ _ _ (by decide) (.inr h), fld_setN_ne (by decide),
    fld_of_reg (reg_setReg_ne _ _ (by decide)), fld_setN_ne (by decide)]

theorem runFw_bit (i : Nat) (f : Bool) {k : Nat} (h : k ≠ 30) : (s.runFw i f).bit mgtStatus k =
    (((s.setBit mgtStatus 21 (decide (i = 1))).setBit mgtStatus 19 f).setBit mgtStatus 28 false).bit mgtStatus k := by
  rw [bit_eq_fld, runFw_fld i f (by omega), ← bit_eq_fld]

theorem runFw_lc (i : Nat) (f : Bool) : (s.runFw i f).fld mgtStatus 25 3 = s.fld mgtStatus 25 3 := by
  rw [runFw_fld i f (by decide)]
  iterate 3 rw [fld_setBit _ _ _ _ _ _ _ (by decide) (by decide)]

/-- Copy A, when it is the first choice, runs: neither copy B nor fallback nor recovery. -/
theorem runFw_copyA : (s.runFw 0 false).bit mgtStatus 21 = false ∧ (s.runFw 0 false).bit mgtStatus 19 = false ∧
    (s.runFw 0 false).bit mgtStatus 28 = false := by
  refine ⟨?_, ?_, ?_⟩ <;> rw [runFw_bit 0 false (by decide)]
  · rw [bit_setBit _ _ _ _ _ _ (by decide) (by decide), bit_setBit _ _ _ _ _ _ (by decide) (by decide), bit_setBit_self _ _ _ _ (by decide)]
    rfl
  · rw [bit_setBit _ _ _ _ _ _ (by decide) (by decide), bit_setBit_self _ _ _ _ (by decide)]
  · rw [bit_setBit_self _ _ _ _ (by decide)]

theorem runFw_mgmt (i : Nat) (f : Bool) : (s.runFw i f).mgmt =
    { s.mgmt with watchdog := true, code := [], inRecovery := false, recovBoot := false, stopped := false } := by
  unfold State.runFw
  dsimp only
  simp only [setBit_mgmt, setN_mgmt, setReg_mgmt]

/-- What the boot of copy A leaves (R344). -/
theorem bootRom_copyA_effects (hl : s.lcState ≤ 3) (hp : s.completePending = s.takeLc s.lcState) (hb : s.mgmt.fwB.commit = none)
    (ha : s.fwReason s.mgmt.fwA = 0) : (s.bootRom true).mgmt =
      { s.mgmt with watchdog := true, code := [], inRecovery := false, recovBoot := false, stopped := false } ∧
    (s.bootRom true).bit mgtStatus 21 = false ∧ (s.bootRom true).bit mgtStatus 19 = false ∧ (s.bootRom true).bit mgtStatus 28 = false ∧
    (s.bootRom true).fld mgtStatus 25 3 = s.lcState := by
  obtain ⟨hc, hf, hr⟩ := runFw_copyA (s := (s.takeLc s.lcState).setBit mgtStatus 31 (decide ((s.takeLc s.lcState).coldCore = 1)))
  rw [bootRom_copyA hl hp hb ha]
  refine ⟨?_, (bit_raiseHeld (by decide)).trans hc, (bit_raiseHeld (by decide)).trans hf, (bit_raiseHeld (by decide)).trans hr, ?_⟩
  · rw [raiseHeld_mgmt, runFw_mgmt, setBit_mgmt, takeLc_mgmt]
  · rw [fld_raiseHeld (by decide), runFw_lc, fld_setBit _ _ _ _ _ _ _ (by decide) (by decide), takeLc_lc hl]

/-! ### The boot keeps the boot count and the power state -/

/-- The boot count and the power state. -/
def State.bootRecord (s : State) : Word × PwrS := (s.mgmt.bootCount, s.pwr)

theorem bootRecord_congr {t : State} (hm : t.mgmt.bootCount = s.mgmt.bootCount) (hp : t.pwr = s.pwr) : t.bootRecord = s.bootRecord := by
  rw [State.bootRecord, hm, hp, State.bootRecord]

theorem setBit_bootRecord (i k : Nat) (b : Bool) : (s.setBit i k b).bootRecord = s.bootRecord :=
  bootRecord_congr (by rw [setBit_mgmt]) (by rw [setBit_pwr])

theorem takeLc_bootRecord (g : Nat) : (s.takeLc g).bootRecord = s.bootRecord :=
  bootRecord_congr (by rw [takeLc_mgmt]) (by rw [State.takeLc, setFld_pwr, setFld_pwr])

theorem lcEffects_bootRecord (g : Nat) : (s.lcEffects g).bootRecord = s.bootRecord := by
  unfold State.lcEffects
  split <;> rfl

theorem burn_bootRecord (k : Nat) : (s.burn k).bootRecord = s.bootRecord := rfl

theorem raiseLate_bootRecord (code : Nat) (vals : List EvVal) : (s.raiseLate code vals).bootRecord = s.bootRecord := rfl

theorem completePending_bootRecord : s.completePending.bootRecord = s.bootRecord := by
  unfold State.completePending
  split
  case h_1 => exact takeLc_bootRecord _
  case h_2 => dsimp only; rw [raiseLate_bootRecord, setBit_bootRecord, takeLc_bootRecord, burn_bootRecord, lcEffects_bootRecord]

theorem raiseHeld_bootRecord : s.raiseHeld.bootRecord = s.bootRecord :=
  each_frame (proj := State.bootRecord) (fun (e : Nat × List EvVal) t => bootRecord_congr (by rw [raise_mgmt]) (raise_pwr t e.1 e.2)) s.ev.late
    { s with ev := { s.ev with late := [] } }

theorem runFw_bootRecord (i : Nat) (f : Bool) : (s.runFw i f).bootRecord = s.bootRecord :=
  bootRecord_congr (by rw [runFw_mgmt]) (by
    unfold State.runFw
    simp only [setBit_pwr, setN_pwr, setReg_pwr])

theorem enterRecovery_bootRecord : s.enterRecovery.bootRecord = s.bootRecord := by
  unfold State.enterRecovery
  refine bootRecord_congr ?_ ?_
  · dsimp only
    rw [setBit_mgmt]
  · dsimp only
    rw [setBit_pwr]

/-- The boot from a first choice of copy: that one, or the other, or recovery (R344, R346). -/
def State.bootFrom (s : State) (first : Nat) (cold : Bool) : State :=
  let r1 := s.fwReason (s.fwCopy first)
  let r2 := s.fwReason (s.fwCopy (1 - first))
  let s2 := if r1 = 0 then s else s.raiseLate 0x0202 [.w first, .w r1]
  let s3 := if r1 = 0 ∨ r2 = 0 then s2 else s2.raiseLate 0x0202 [.w (1 - first), .w r2]
  if r1 ≠ 0 ∧ r2 ≠ 0 then s3.enterRecovery
  else
    let s4 := if cold then s3.setBit mgtStatus 31 (decide (s3.coldCore = 1)) else s3
    (s4.runFw (if r1 = 0 then first else 1 - first) (decide (r1 ≠ 0))).raiseHeld

theorem bootFrom_bootRecord (first : Nat) (cold : Bool) : (s.bootFrom first cold).bootRecord = s.bootRecord := by
  have hlate (c : Prop) [Decidable c] (t : State) (vals : List EvVal) : (if c then t else t.raiseLate 0x0202 vals).bootRecord = t.bootRecord := by
    split <;> rfl
  unfold State.bootFrom
  dsimp only
  split
  · rw [enterRecovery_bootRecord, hlate, hlate]
  · rw [raiseHeld_bootRecord, runFw_bootRecord]
    split
    · rw [setBit_bootRecord, hlate, hlate]
    · rw [hlate, hlate]

theorem bootRom_bootRecord (cold : Bool) : (s.bootRom cold).bootRecord = s.bootRecord := by
  refine Eq.trans ?_ (completePending_bootRecord (s := s))
  unfold State.bootRom
  extract_lets u
  split
  · rfl
  · exact bootFrom_bootRecord _ cold

end Boot

/-- Settles O54: the boot by the choice of copy A, the checkpoint by its begin, its slices and its end, the takeover by its last steps.
The slot that OP_MC_SWITCH takes, and its TOTAL of two steps, are the model's own choices (log 190). -/
theorem bootAndTakeover : Obligations.BootAndTakeover := by
  refine ⟨fun s hu hb => if_pos ⟨hu, by rw [hb]; rfl⟩, fun s hu hb => ⟨_, if_pos ⟨hu, by rw [hb]; rfl⟩, ?_⟩,
    fun s hl hp hb ha _ => ?_, fun s hw => if_pos hw, fun s hr hd => ?_, fun s hr hg ha => ?_, fun s hc hf hp hh hd => ?_,
    fun c s hpc hc hf hp hh => ?_, fun q k s h h0 h1 hk => ?_⟩
  · obtain ⟨hc, hp⟩ := Prod.mk.inj (bootRom_bootRecord (s := { s with pwr := { s.pwr with bootRan := true } }.countBoot) true)
    exact ⟨hc, congrArg (·.bootRan) hp⟩
  · obtain ⟨hm, h21, h19, h28, hlc⟩ := bootRom_copyA_effects hl hp hb ha
    exact ⟨_, rfl, congrArg (·.bootCount) hm, h21, h19, h28, congrArg (·.watchdog) hm, congrArg (·.inRecovery) hm, hlc⟩
  · refine ⟨_, if_neg ?_, ckptBegin_running, ckptBegin_slice, ?_, ?_, ckptBegin_bestBuf⟩
    · simp [hr, hd]
    · rfl
    · rfl
  · rcases Nat.lt_or_ge (s.fld mgtCkptStatus 16 9) 383 with hn | hn
    · refine ⟨_, exec_checkpointSlice_next hr hg ha hn, fun _ => ⟨?_, ?_, ?_⟩, fun h => absurd hn (by omega)⟩
      · rw [fld_setFld_self _ _ _ _ _ (by decide)]
        omega
      · rw [bit_setFld _ _ _ _ _ _ _ (by decide) (by decide)]
        exact (bit_congr rfl _ _).trans hr
      · rw [reg_setFld, if_neg (by decide), reg_withMgmt]
    · refine ⟨_, exec_checkpointSlice_last hr hg ha hn, fun h => absurd h (by omega), fun _ => ⟨ckptEnd_running, ?_⟩⟩
      rw [ckptEnd_gen, reg_withMgmt]
  · refine ⟨_, congrArg Host.Outcome.next ((if_neg (by omega)).trans (coreFailed_takeover rfl hf hp hh)), ?_, ?_⟩
    · rw [takeover_activeCore]
      omega
    · rw [takeover_switchCnt]
      exact congrArg (fun w : Word => min (w.toNat + 1) (2 ^ 32 - 1)) (reg_withMgmt _)
  · refine ⟨_, (if_pos hpc).trans (congrArg Host.Outcome.next (coreFailed_takeover hc hf hp hh)), ?_⟩
    rw [takeover_activeCore]
    omega
  · refine congrArg Host.Outcome.next (nalug_run_stepped h rfl hk ?_)
    rw [begun_present, begun_present, h0, h1]
    rfl

end Sys2Proof.Machine
end

section
namespace Sys2Proof.Machine

/-! ### Reset requests and the resets when they are due (O56) -/

/-- The scopes that OP_RESET takes for each target kind (R323). -/
def resetFits (sc k : Nat) : Bool :=
  (decide (sc = 2) && decide (k = 0)) || (decide (sc = 3) && decide (k = 0)) || (decide (sc = 4) && decide (k = 1)) ||
    (decide (sc = 5) && decide (k = 2)) || (decide (sc = 6) && decide (k = 9))

section Reset
variable {s : State} {q : Req} {body : List Byte}

/-- The form of a well-formed OP_RESET is the one of its admission. -/
theorem resetForm (hl : body.length = 4) (hz : leAt body 1 3 = 0) (hf : resetFits (byteAt body 0) q.kind.toNat = true) :
    ({ kinds := [0, 1, 2, 9], lenOk := body.length = 4,
       badParam := !resetFits (byteAt body 0) q.kind.toNat || !rsvZero body [(1, 3)] } : OpForm) = { kinds := [0, 1, 2, 9], lenOk := true } := by
  simp [hl, hz, hf, rsvZero]

/-- Outside a running module reset an admitted OP_RESET is answered after its action. -/
theorem exec_opReset {t : State} (h : s.admitted 0x0106 q { kinds := [0, 1, 2, 9], lenOk := true } = true) (hl : body.length = 4)
    (hz : leAt body 1 3 = 0) (hr : s.clk.running = []) (hf : resetFits (byteAt body 0) q.kind.toNat = true)
    (ha : (match byteAt body 0 with
      | 2 => ok ((s.begun 0x0106 q body).askReset 2 0 srcOp)
      | 3 => ok ((s.begun 0x0106 q body).askReset 3 0 srcOp)
      | 4 => ok (if (s.begun 0x0106 q body).ownPath q 4 q.index.toNat then (s.begun 0x0106 q body).askReset 4 (2 ^ 28 + q.index.toNat) srcOp
          else (s.begun 0x0106 q body).tileReset q.index.toNat srcOp)
      | 5 => ok (if (s.begun 0x0106 q body).ownPath q 5 q.index.toNat then (s.begun 0x0106 q body).askReset 5 (2 * 2 ^ 28 + q.index.toNat) srcOp
          else (s.begun 0x0106 q body).portReset q.index.toNat srcOp)
      | _ => ok ((s.begun 0x0106 q body).insReset q.index.toNat)) = (t, some (stOk, []))) :
    exec (.opReset q body) s = .next (t.answered 0x0106 q stOk []) := by
  have hrun : ¬(3 ≤ byteAt body 0 ∧ (!(s.begun 0x0106 q body).clk.running.isEmpty) = true) := by simp [hr]
  exact congrArg Host.Outcome.next (nalug_run_answered h (resetForm hl hz hf) ((if_neg hrun).trans ha))

/-- During a module reset an admitted OP_RESET of scope 3 waits for the end of that reset (R323). -/
theorem exec_opReset_absorbed (h : s.admitted 0x0106 q { kinds := [0, 1, 2, 9], lenOk := true } = true) (hl : body.length = 4)
    (hz : leAt body 1 3 = 0) (hr : s.clk.running ≠ []) (hb : byteAt body 0 = 3) (hk : q.kind = 0) :
    ∃ t : State, exec (.opReset q body) s = .next (t.cnt64 mgtNalugCmdCnt) ∧ t.clk = { s.clk with absorbed := s.clk.absorbed ++ [q] } ∧
      t.out = s.out := by
  have hrun : 3 ≤ byteAt body 0 ∧ (!(s.begun 0x0106 q body).clk.running.isEmpty) = true := ⟨hb.ge, by simp [hr]⟩
  have hform := resetForm (q := q) hl hz (by rw [hb, hk]; rfl)
  refine ⟨{ s.begun 0x0106 q body with clk := { (s.begun 0x0106 q body).clk with absorbed := (s.begun 0x0106 q body).clk.absorbed ++ [q] } },
    congrArg Host.Outcome.next ?_, by rw [begun_clk], begun_out ..⟩
  refine (congrArg (s.nalug_run 0x0106 q body · _) hform).trans ((nalug_run_of_admitted _ h).trans ?_)
  rw [if_pos hrun]

/-- A request that does not come over a management function goes over no port's own path (R323). -/
theorem ownPath_eq_false (h : q.src.path ≠ 3) (scope i : Nat) : s.ownPath q scope i = false := by
  rw [State.ownPath, decide_eq_false h, Bool.false_and]

theorem dropResets_all (p : Nat × Nat × Nat × Tick → Bool) {r : Nat × Nat × Nat × Tick} (h : p r = true) :
    (s.dropResets p).nalug.resets.all (fun x => decide (x ≠ r)) = true := by
  refine List.all_eq_true.mpr fun x hx => decide_eq_true fun he => ?_
  have hp : (!p x) = true := (List.mem_filter.mp hx).2
  rw [he, h] at hp
  exact absurd hp (by decide)

theorem exec_tileReset {u : TileIx} {r : Nat × Nat × Nat × Tick} (h : s.dueReset 4 (2 ^ 28 + u) = some r) :
    ∃ s1 : State, exec (.tileReset u) s = .next (s1.tileReset u r.2.2.1) ∧ s1.regs = s.regs ∧ s1.qos = s.qos ∧
      s1.nalug.resets.all (fun x => decide (x ≠ r)) = true := by
  refine ⟨s.dropResets (fun x => decide (x = r) || (decide (x.1 = 5) && decide ((x.2.1 - 2 * 2 ^ 28) / 16 = u.val))), ?_, rfl, rfl,
    dropResets_all _ (by simp)⟩
  change execTileReset u s = _
  rw [execTileReset, h]

theorem exec_portReset {p : PortIx} {r : Nat × Nat × Nat × Tick} (h : s.dueReset 5 (2 * 2 ^ 28 + p) = some r) :
    ∃ s1 : State, exec (.portReset p) s = .next (s1.portReset p r.2.2.1) ∧ s1.regs = s.regs ∧ s1.cxl = s.cxl ∧
      s1.nalug.resets.all (fun x => decide (x ≠ r)) = true := by
  refine ⟨s.dropResets (fun x => decide (x = r)), ?_, rfl, rfl, dropResets_all _ (by simp)⟩
  change execPortReset p s = _
  rw [execPortReset, h]

/-- A warm module reset that is due begins: narrower requests go (R396). -/
theorem exec_warmModuleReset {r : Nat × Nat × Nat × Tick} (hr : s.clk.running = []) (h : s.dueReset 3 0 = some r) :
    exec .warmModuleReset s = .next (s.warmBegin r.2.2.1) := by
  change execWarmModuleReset s = _
  rw [execWarmModuleReset, hr, if_neg (by decide), h]

/-- Every reset scope below 3 is what `warmBegin` keeps. -/
theorem warmBegin_eq (source : Nat) : s.warmBegin source =
    State.linksReset { s with
      nalug := { s.nalug with resets := s.nalug.resets.filter (fun x => decide (x.1 < 3)) },
      clk := { s.clk with running := [(3, 0, source, s.tick.loc)], draining := true } } := by
  have hfilter : s.nalug.resets.filter (fun x => !decide (3 ≤ x.1)) = s.nalug.resets.filter (fun x => decide (x.1 < 3)) :=
    List.filter_congr fun x _ => by rw [← decide_not]; exact decide_eq_decide.mpr (by omega)
  rw [State.warmBegin, State.dropResets, hfilter]

/-- The cause stays through the event and the replies of the absorbed requests (R396). -/
theorem resetDone_cause (scope source : Nat) (l : List Req) :
    (s.resetDone scope source l).reg glbRstCause = BitVec.ofNat 32 (scope * 2 ^ 28 + source * 2 ^ 16) := by
  unfold State.resetDone
  refine (each_frame (proj := fun t => t.reg glbRstCause) (fun x t => ?_) l _).trans ?_
  · rw [answer_reg _ _ _ _ _ (by decide) (by decide), reg_congr (journalDone_regs ..)]
  · split
    · rw [raise_reg _ _ _ (by decide), reg_setN, if_pos rfl]
    · rw [reg_setN, if_pos rfl]

theorem warmFinish_cause (source : Nat) : (s.warmFinish source).reg glbRstCause = BitVec.ofNat 32 (3 * 2 ^ 28 + source * 2 ^ 16) :=
  resetDone_cause _ _ _

/-- With no tracker open a warm module reset ends. -/
theorem exec_warmResetDrainDone {source : Nat} {t0 : Tick} (hr : s.clk.running = [(3, 0, source, t0)]) (hs : source ≠ srcClock)
    (ht : s.home.trks = []) : exec .warmResetDrainDone s = .next (s.warmFinish source) := by
  change execWarmResetDrainDone s = _
  rw [execWarmResetDrainDone, hr]
  exact (if_neg hs).trans (if_pos (.inl (by rw [ht]; rfl)))

theorem coldReset_cause (source : Nat) (fails : List (Nat × Nat)) (h : ¬(source = srcPower ∧ s.pwr.fresh = true)) :
    (s.coldReset source fails).reg glbRstCause = BitVec.ofNat 32 (2 * 2 ^ 28 + source * 2 ^ 16) := by
  unfold State.coldReset
  extract_lets ran scope s0 m p s1 s2 s3 s4 s5
  have hcause : s5.reg glbRstCause = BitVec.ofNat 32 (2 * 2 ^ 28 + source * 2 ^ 16) := by
    have hscope : scope = 2 := if_neg h
    exact (resetDone_cause scope source []).trans (congrArg (fun n => BitVec.ofNat 32 (n * 2 ^ 28 + source * 2 ^ 16)) hscope)
  split
  · rw [raise_reg _ _ _ (by decide), hcause]
  · exact hcause

end Reset

/-- Settles O56: OP_RESET by the action of its scope, the others by the request that is due. -/
theorem resetRequests : Obligations.ResetRequests := by
  refine ⟨fun q body s h hl hz hr => ⟨fun hb hk => ?_, fun hb hk => ?_, fun hb hk hp => ?_, fun hb hk hp => ?_⟩,
    fun q body s h hl hz hr hb hk => ?_, fun _ _ _ h => exec_tileReset h, fun _ _ _ h => exec_portReset h,
    fun r s hr h => (exec_warmModuleReset hr h).trans (congrArg Host.Outcome.next (warmBegin_eq _)),
    fun source t0 s hr hs ht => ⟨_, exec_warmResetDrainDone hr hs ht, warmFinish_cause source⟩, fun fails r s h hf => ?_⟩
  · exact exec_opReset h hl hz hr (by rw [hb, hk]; rfl) (by rw [hb]; rfl)
  · exact exec_opReset h hl hz hr (by rw [hb, hk]; rfl) (by rw [hb]; rfl)
  · refine exec_opReset h hl hz hr (by rw [hb, hk]; rfl) ?_
    rw [hb]
    exact congrArg ok (if_neg (by rw [ownPath_eq_false hp]; decide))
  · refine exec_opReset h hl hz hr (by rw [hb, hk]; rfl) ?_
    rw [hb]
    exact congrArg ok (if_neg (by rw [ownPath_eq_false hp]; decide))
  · obtain ⟨t, ht, hc, ho⟩ := exec_opReset_absorbed h hl hz hr hb hk
    refine ⟨_, ht, ?_, ?_⟩
    · rw [cnt64_clk, hc]
    · rw [cnt64_out, ho]
  · refine ⟨s.coldReset r.2.2.1 (fails.map (fun u => (u.1.val, u.2))), ?_, coldReset_cause _ _ fun hc => ?_⟩
    · change execColdModuleReset fails s = _
      rw [execColdModuleReset, h]
    · exact absurd (hc.2.symm.trans (hf hc.1)) (by decide)

end Sys2Proof.Machine
end

section
namespace Sys2Proof.Machine

/-! ### PLLs and crossings (O57) -/

section Clocks
variable {s : State} {o lo n : Nat}

theorem raiseClk_reg (code : Nat) (vals : List EvVal) (h : o ≠ glbEvFifoOvfCnt) : (s.raiseClk code vals).reg o = s.reg o := by
  unfold State.raiseClk
  split
  · exact reg_congr rfl o
  · exact raise_reg _ _ _ h

theorem raiseClk_clk (code : Nat) (vals : List EvVal) : (s.raiseClk code vals).clk = s.clk := by
  unfold State.raiseClk
  split
  · rfl
  · exact raise_clk _ _ _

theorem raiseClk_tick (code : Nat) (vals : List EvVal) : (s.raiseClk code vals).tick = s.tick := by
  unfold State.raiseClk
  split
  · rfl
  · exact raise_tick _ _ _

theorem pllGone_of_locked {d : Nat} (h : s.bit glbClkStatus (pllBit d) = true) : s.pllGone d =
    (((s.setBit glbClkStatus (pllBit d) false).cnt glbClkLossCnt).inClk (fun c => { c with mgmtLost := c.mgmtLost || decide (d = 14) })).raiseClk
      0x0110 [.w d] := if_pos h

theorem pllGone_reg {d : Nat} (h : s.bit glbClkStatus (pllBit d) = true) (he : o ≠ glbEvFifoOvfCnt) :
    (s.pllGone d).reg o = ((s.setBit glbClkStatus (pllBit d) false).cnt glbClkLossCnt).reg o := by
  rw [pllGone_of_locked h, raiseClk_reg _ _ he]
  exact reg_congr rfl o

/-- A tile's presence depends on its bits in the capability, retirement and disable maps (R427). -/
theorem present_tile_congr {t : State} (hcap : t.reg 0x10C = s.reg 0x10C) (hret : t.reg 0x20C = s.reg 0x20C)
    (hdis : t.reg 0x30C = s.reg 0x30C) (i : Nat) : t.present 1 i = s.present 1 i := by
  change (t.bit 0x10C (16 + i) && !t.bit 0x20C (16 + i) && !t.bit 0x30C (16 + i)) = _
  rw [bit_eq_of_reg hcap, bit_eq_of_reg hret, bit_eq_of_reg hdis]
  rfl

/-- The loss of a PLL is no loss of a unit. -/
theorem pllGone_present_tile {d i : Nat} (h : s.bit glbClkStatus (pllBit d) = true) : (s.pllGone d).present 1 i = s.present 1 i := by
  have hreg (o : Nat) (ho : o < 0x500) : (s.pllGone d).reg o = s.reg o := by
    have hs : o ≠ glbClkStatus ∧ o ≠ glbClkLossCnt ∧ o ≠ glbEvFifoOvfCnt := by
      refine ⟨?_, ?_, ?_⟩ <;> exact (by rintro rfl; exact absurd ho (by decide))
    rw [pllGone_reg h hs.2.2, reg_cnt, if_neg hs.2.1, reg_setBit, if_neg hs.1]
  exact present_tile_congr (hreg _ (by decide)) (hreg _ (by decide)) (hreg _ (by decide)) i

theorem pllBit_tile {d : Nat} (h1 : 1 ≤ d) (h12 : d ≤ 12) : pllBit d = 15 + d := by
  unfold pllBit
  rw [if_neg (by omega), if_neg (by omega), if_neg (by omega), if_neg (by omega)]

/-- The lock of a domain that is locked is lost (R394). -/
theorem exec_pllLockLoss {d : Fin 16} (h : s.bit glbClkStatus (pllBit d) = true) (h15 : d.val ≠ 15) : exec (.pllLockLoss d) s =
    if d.val = 0 then .next (s.pllGone d).coreLost
    else if d.val ≤ 12 then .next (if (s.pllGone d).present 1 (d.val - 1) then (s.pllGone d).tilePllLost (d.val - 1) else s.pllGone d)
    else if d.val = 13 then .next ((s.pllGone d).each (List.range 4) (fun h t => if t.present 8 h then t.retireStack h else t))
    else .next (s.pllGone d) := by
  refine (if_neg ?_).trans (if_neg h15)
  rw [h]
  decide

theorem exec_pllLockLoss_tile {d : Fin 16} (h1 : 1 ≤ d.val) (h12 : d.val ≤ 12) (h : s.bit glbClkStatus (15 + d.val) = true) :
    exec (.pllLockLoss d) s = .next (if s.present 1 (d.val - 1) then (s.pllGone d).tilePllLost (d.val - 1) else s.pllGone d) := by
  rw [← pllBit_tile h1 h12] at h
  rw [exec_pllLockLoss h (by omega), if_neg (by omega), if_pos h12, pllGone_present_tile h]

/-- Retiring an absent stack changes nothing. -/
theorem retireStack_if_present (k : Nat) : (if s.present 8 k then s.retireStack k else s) = s.retireStack k := by
  unfold State.retireStack
  split <;> rfl

/-- The state in which a domain's lock has returned (R394). -/
def State.pllBack (s : State) (d : Nat) : State := (s.setBit glbClkStatus (pllBit d) true).raiseClk 0x0111 [.w d]

theorem pllBack_clk (d : Nat) : (s.pllBack d).clk = s.clk := by rw [State.pllBack, raiseClk_clk, setBit_clk]

theorem pllBack_locked {d : Nat} (h : pllBit d < 32) : (s.pllBack d).bit glbClkStatus (pllBit d) = true := by
  rw [State.pllBack, bit_eq_of_reg (raiseClk_reg _ _ (by decide)), bit_setBit_self _ _ _ _ h]

theorem pllRelock_guard {d : Nat} (h : s.bit glbClkStatus (pllBit d) = false) (href : s.bit glbClkStatus 28 = true) :
    ¬(s.bit glbClkStatus (pllBit d) || !s.bit glbClkStatus 28) = true := by
  rw [h, href]
  decide

theorem exec_pllRelock_hbm {d : Fin 15} (hd : d.val = 13) (h : s.bit glbClkStatus (pllBit d) = false) (href : s.bit glbClkStatus 28 = true) :
    exec (.pllRelock d) s = .next (s.pllBack d) :=
  (if_neg (pllRelock_guard h href)).trans ((if_neg (by omega)).trans ((if_neg (by omega)).trans (if_neg (by omega))))

/-- A tile's lock that returns within 64 ticks asks for a tile reset. -/
theorem exec_pllRelock_tile {d : Fin 15} (h1 : 1 ≤ d.val) (h12 : d.val ≤ 12) (h : s.bit glbClkStatus (pllBit d) = false)
    (href : s.bit glbClkStatus 28 = true) (ha : tget 0 s.clk.lostAt (d.val - 1) ≠ 0)
    (ht : ticksSince (BitVec.ofNat 48 (tget 0 s.clk.lostAt (d.val - 1) - 1)) s.tick.loc ≤ 64) :
    exec (.pllRelock d) s = .next (((s.pllBack d).inClk (fun c => { c with lostAt := tput 0 c.lostAt (d.val - 1) 0 })).askReset 4
      (2 ^ 28 + (d.val - 1)) srcClock) := by
  have hin : ¬(tget 0 (s.pllBack d).clk.lostAt (d.val - 1) = 0 ∨
      64 < ticksSince (BitVec.ofNat 48 (tget 0 (s.pllBack d).clk.lostAt (d.val - 1) - 1)) s.tick.loc) := by
    rw [pllBack_clk]
    omega
  exact (if_neg (pllRelock_guard h href)).trans ((if_neg (by omega)).trans ((if_pos h12).trans (if_neg hin)))

/-! ### Crossings -/

/-- The first timeout on a crossing that is not toward CK_TCK: a read is answered with a bus error (R393). -/
def State.crossingLogged (s : State) (x : Nat) (off : Word) : State :=
  ((State.setN (s.inClk (fun c => { c with tmo := satCnt c.tmo x 1 })) glbXingLog0 (2 ^ 31 + x)).setReg glbXingLog1 off).raiseLim 0x0112 x
    [.w x, .w off.toNat]

theorem exec_crossingTimeout {x : Fin 1024} (m : Fin 8) (off : Word) (hx : isCrossing x = true) (h16 : x.val % 32 ≠ 16)
    (hl : s.bit glbXingLog0 31 = false) :
    exec (.crossingTimeout x m off false none) s = .next ((s.crossingLogged x off).emit (.busErr m off.toNat)) := by
  refine (if_neg (by rw [hx]; decide)).trans ((if_neg h16).trans ?_)
  rw [hl]
  rfl

theorem crossingLogged_reg (x : Nat) (off : Word) : (s.crossingLogged x off).reg glbXingLog0 = BitVec.ofNat 32 (2 ^ 31 + x) ∧
    (s.crossingLogged x off).reg glbXingLog1 = off := by
  refine ⟨?_, ?_⟩ <;> rw [State.crossingLogged, raiseLim_reg _ _ _ _ (by decide), reg_setReg]
  · rw [if_neg (by decide), reg_setN, if_pos rfl]
  · rw [if_pos rfl]

theorem crossingLogged_clk (x : Nat) (off : Word) : (s.crossingLogged x off).clk = { s.clk with tmo := satCnt s.clk.tmo x 1 } := by
  rw [State.crossingLogged, raiseLim_clk, setReg_clk, setN_clk, State.inClk]

end Clocks

/-- Settles O57: each domain's loss and relock by its branch, a crossing's counts by `satCnt`. -/
theorem clocksAndCrossings : Obligations.ClocksAndCrossings := by
  refine ⟨fun d s hd h => ?_, fun d s h1 h12 h hp => ?_, fun d s h1 h12 h hp => ?_, fun d s hd h => ?_, fun d s hd h => ?_,
    fun d s h => ?_, fun d s hd h href => ?_, fun d s h1 h12 h href ha ht => ?_, fun tl s ha ht => ?_, fun s hc h hb => ?_,
    fun x k s hx hk => ?_, fun x m off s hx h16 hl => ?_⟩
  · have hbit : s.bit glbClkStatus (pllBit d) = true := by rw [hd]; exact h
    refine ⟨s.pllGone d, (exec_pllLockLoss hbit (by omega)).trans ((if_neg (by omega)).trans ((if_neg (by omega)).trans (if_neg (by omega)))),
      ?_, ?_, ?_⟩
    · rw [bit_eq_of_reg (pllGone_reg hbit (by decide)), bit_cnt_ne (by decide), hd]
      exact bit_setBit_self _ _ _ _ (by decide)
    · rw [pllGone_of_locked hbit, raiseClk_clk, hd]
      simp [State.inClk]
    · rw [State.nreg, pllGone_reg hbit (by decide), ← State.nreg, nreg_cnt_self, State.nreg, reg_setBit, if_neg (by decide), State.nreg]
  · rw [exec_pllLockLoss_tile h1 h12 h, hp, if_pos rfl]
  · rw [exec_pllLockLoss_tile h1 h12 h, hp, if_neg (by decide)]
  · have hbit : s.bit glbClkStatus (pllBit d) = true := by rw [hd]; exact h
    rw [exec_pllLockLoss hbit (by omega), if_pos hd, hd]
  · have hbit : s.bit glbClkStatus (pllBit d) = true := by rw [hd]; exact h
    rw [exec_pllLockLoss hbit (by omega), if_neg (by omega), if_neg (by omega), if_pos hd, hd]
    exact congrArg (fun f => Host.Outcome.next ((s.pllGone 13).each (List.range 4) f)) (funext₂ fun k t => retireStack_if_present k)
  · exact if_pos (by rw [h]; rfl)
  · have h30 : pllBit d = 30 := by rw [hd]; decide
    refine ⟨_, exec_pllRelock_hbm hd (by rw [h30]; exact h) href, ?_, pllBack_clk _⟩
    rw [← h30]
    exact pllBack_locked (by omega)
  · have hbit : s.bit glbClkStatus (pllBit d) = false := by rw [pllBit_tile h1 h12]; exact h
    rw [exec_pllRelock_tile h1 h12 hbit href ha ht, State.pllBack, pllBit_tile h1 h12]
  · exact if_pos ⟨ha, ht⟩
  · refine ⟨_, if_pos (by rw [hc, h, hb]; rfl), ?_, ?_⟩
    · rw [bit_eq_of_reg (raise_reg _ _ _ (by decide)), bit_setBit_self _ _ _ _ (by decide)]
    · rw [raise_seq, setBit_ev]
  · exact ⟨_, if_pos ⟨hx, hk⟩, tget_tput_self .., rfl⟩
  · obtain ⟨h0, h1⟩ := crossingLogged_reg (s := s) x off
    refine ⟨_, exec_crossingTimeout m off hx h16 hl, ?_, ?_, ?_, ?_, ?_⟩
    · rw [emit_clk, crossingLogged_clk]
      exact tget_tput_self ..
    · rw [bit_eq_of_reg (emit_reg _ _ _), bit_eq_fld, State.fld, h0, bits, BitVec.toNat_ofNat]
      exact decide_eq_true (by omega)
    · rw [fld_of_reg (emit_reg _ _ _), State.fld, h0, bits, BitVec.toNat_ofNat]
      omega
    · rw [emit_reg, h1]
    · exact List.mem_append_right _ (List.mem_singleton.mpr rfl)

end Sys2Proof.Machine
end

section
namespace Sys2Proof.Machine

/-! ### Register accesses (O59) -/

section Access
variable {s : State} {o m lvl : Nat}

theorem aligned_word (h : o % 4 = 0) : aligned o 4 = true := by simp [aligned, h]

theorem aligned_byte (o : Nat) : aligned o 1 = true := by simp [aligned, Nat.mod_one]

theorem absentAt_of_none (h : unitAt o = none) : s.absentAt o = false := by rw [State.absentAt, h]

theorem memberAt_glob {u q : Nat} (h : locate o = some (.glob, u, q)) : s.memberAt o = false := by rw [State.memberAt, h]

/-- A write of at most 4 bytes, which lie in one word, is a write of that word (R421). -/
theorem regWrite_narrow {b : List Byte} (ha : aligned o b.length = true) (hadm : s.acuAdmits m lvl o true = true) (hs : slotOf o ≠ 9)
    (hb : 0 < b.length) (h4 : o % 4 + b.length ≤ 4) : s.regWrite m lvl o b =
      s.writeWord m lvl (o / 4 * 4) (byteEn o b.length (o / 4 * 4)) (BitVec.ofNat 32 (leAt (List.replicate (o - o / 4 * 4) 0 ++ b) 0 4)) := by
  have hn : (o + b.length - o / 4 * 4 + 3) / 4 = 1 := by omega
  have hwide : decide (4 < b.length) = false := decide_eq_false (by omega)
  have hpage : pageForm o b.length = true := by simp [pageForm, hs]
  unfold State.regWrite
  simp only [ha, hadm, hpage, hn, hwide, Bool.not_true, Bool.false_eq_true, if_false, Bool.false_and, false_and]
  split <;> rfl

theorem byteEn_word (o : Nat) : byteEn o 4 o = 15 := by
  simp [byteEn, List.range_succ, b2n]

theorem byteEn_last (o : Nat) : byteEn (o + 3) 1 o = 8 := by
  simp [byteEn, List.range_succ, b2n]

/-- A write of a whole word (R421). -/
theorem regWrite_word {b : List Byte} (hb : b.length = 4) (h4 : o % 4 = 0) (hadm : s.acuAdmits m lvl o true = true) (hs : slotOf o ≠ 9) :
    s.regWrite m lvl o b = s.writeWord m lvl o 15 (BitVec.ofNat 32 (leAt b 0 4)) := by
  have hw : o / 4 * 4 = o := by omega
  rw [regWrite_narrow (by rw [hb]; exact aligned_word h4) hadm hs (by omega) (by omega), hw, hb, byteEn_word, Nat.sub_self]
  rfl

/-- A write of the last byte of a word. -/
theorem regWrite_last {x : Byte} (h4 : o % 4 = 0) (hadm : s.acuAdmits m lvl (o + 3) true = true) (hs : slotOf (o + 3) ≠ 9) :
    s.regWrite m lvl (o + 3) [x] = s.writeWord m lvl o 8 (BitVec.ofNat 32 (x.toNat * 2 ^ 24)) := by
  have hw : (o + 3) / 4 * 4 = o := by omega
  rw [regWrite_narrow (b := [x]) (aligned_byte _) hadm hs Nat.one_pos (by rw [List.length_singleton]; omega), hw, List.length_singleton, byteEn_last, Nat.add_sub_cancel_left]
  refine congrArg (fun n => s.writeWord m lvl o 8 (BitVec.ofNat 32 n)) ?_
  simp [leAt, byteAt, List.replicate]
  omega

theorem writeWord_glob {u q be : Nat} {v : Word} (hu : unitAt o = none) (hl : locate o = some (.glob, u, q)) :
    s.writeWord m lvl o be v = s.globWrite m lvl o v (BitVec.ofNat 32 (byteMask be)) := by
  unfold State.writeWord
  rw [absentAt_of_none hu, memberAt_glob hl, hl]
  rfl

/-- A word of the global part whose write does not act. -/
theorem globWrite_plain {v bm : Word} (h1 : o < 0x101000 ∨ 0x101800 ≤ o) (h2 : o < 0x180000 ∨ 0x200000 ≤ o)
    (h3 : o < 0x701000 ∨ 0x702000 ≤ o) (hn : o ∉ [hmpTiming0, hmpTiming1, telAuditCtl, pwrCtl, pwrBrCmd]) :
    s.globWrite m lvl o v bm = s.plainWrite o v bm := by
  simp only [List.mem_cons, List.not_mem_nil, or_false, not_or] at hn
  obtain ⟨ht0, ht1, ha, hc, hb⟩ := hn
  unfold State.globWrite
  dsimp only
  rw [if_neg (by omega), if_neg (by omega), if_neg ht0, if_neg ht1, if_neg (by omega), if_neg ha, if_neg hc, if_neg hb]

/-- A write by access types: the word, and of the rest at most the count of lost events. -/
theorem plainWrite_reg {v bm : Word} {r : RegRow} (hr : findRow o = some r) {k : Nat} (hk : k ≠ glbEvFifoOvfCnt) :
    (s.plainWrite o v bm).reg k = (s.setReg o (r.written (s.reg o) v bm s.rwlOpen)).reg k := by
  unfold State.plainWrite
  rw [hr]
  dsimp only
  split
  · rfl
  · exact raiseLim_reg _ _ _ _ hk

/-- A register without an RWL field takes a write without an event. -/
theorem plainWrite_of_rwl {v bm : Word} {r : RegRow} (hr : findRow o = some r) (hrwl : r.rwl = 0) :
    s.plainWrite o v bm = s.setReg o (r.written (s.reg o) v bm s.rwlOpen) := by
  unfold State.plainWrite
  rw [hr]
  exact if_pos (.inl (by rw [hrwl]; exact BitVec.zero_and))

/-! ### The access check units -/

/-- The row of MGT_ACU_CTL: SEL takes writes, LOCK is set by a 1 (R366, R371). -/
def acuRow : RegRow := ⟨"MGT_ACU_CTL", .glob, 0x101000, 0x100, 8, 1, 0x0, 0x80000000, 0x0, 0x0, 0x40000000, 0x0, 0x0, 0x0, false⟩

theorem findRow_mgtAcuCtl : ∀ u : Fin 8, findRow (mgtAcuCtl u) = some acuRow := by decide +kernel

/-- An offset of the access check units lies in the global part and belongs to no unit. -/
theorem acu_place (h1 : 0x101000 ≤ o) (h2 : o < 0x101800) : locate o = some (.glob, 0, o) ∧ unitAt o = none ∧ slotOf o ≠ 9 := by
  have hl : locate o = some (.glob, 0, o) := by
    unfold locate
    rw [if_neg (by omega), if_neg (by omega), if_neg (by omega)]
  refine ⟨hl, ?_, ?_⟩
  · unfold unitAt
    rw [hl]
    dsimp only
    rw [if_neg (by omega), if_neg (by omega), if_neg (by omega), if_neg (by omega)]
  · unfold slotOf
    rw [if_pos (by omega)]
    omega

/-- The bits that a write of the last byte of MGT_ACU_CTL may change: not SEL, unless by its master or by vendor firmware (R366). -/
def acuMask (u m : Fin 8) (lvl : Fin 3) : Word := if m = u ∨ lvl = 0 then 0xFF000000 else 0x7F000000

/-- A write of the last byte of MGT_ACU_CTL applies the access types of its two bits. -/
theorem regWrite_acuCtl {u m : Fin 8} {lvl : Fin 3} {x : Byte} (hadm : s.acuAdmits m lvl (mgtAcuCtl u + 3) true = true) :
    s.regWrite m lvl (mgtAcuCtl u + 3) [x] =
      s.setReg (mgtAcuCtl u) (acuRow.written (s.reg (mgtAcuCtl u)) (BitVec.ofNat 32 (x.toNat * 2 ^ 24)) (acuMask u m lvl) s.rwlOpen) := by
  have ho : mgtAcuCtl u = 0x101000 + 0x100 * u.val := rfl
  obtain ⟨hl, hu, -⟩ := acu_place (o := mgtAcuCtl u) (by omega) (by omega)
  have hmask : (if m.val = (mgtAcuCtl u - 0x101000) / 0x100 ∨ lvl.val = 0 then BitVec.ofNat 32 (byteMask 8)
      else BitVec.ofNat 32 (byteMask 8) &&& 0x7FFFFFFF#32) = acuMask u m lvl := by
    have hiff : (m.val = (mgtAcuCtl u - 0x101000) / 0x100 ∨ lvl.val = 0) ↔ (m = u ∨ lvl = 0) := by
      rw [Fin.ext_iff, Fin.ext_iff]
      exact or_congr (by omega) Iff.rfl
    exact if_congr hiff (by decide) (by decide)
  rw [regWrite_last (by omega) hadm (acu_place (by omega) (by omega)).2.2, writeWord_glob hu hl, State.globWrite]
  dsimp only
  rw [if_pos (by omega), State.acuWrite]
  dsimp only
  rw [if_pos (by omega), hmask, plainWrite_of_rwl (findRow_mgtAcuCtl u) rfl]

theorem bit_setReg_self (v : Word) (i : Nat) : (s.setReg o v).bit o i = v.getLsbD i := by
  rw [bit_eq_getLsbD, reg_setReg, if_pos rfl]

/-- What SEL becomes. -/
theorem acuWritten_sel (old : Word) (u m : Fin 8) (lvl : Fin 3) (rwl : Bool) (sel lock : Bool) :
    (acuRow.written old (BitVec.ofNat 32 ((b2n sel * 128 + b2n lock * 64) * 2 ^ 24)) (acuMask u m lvl) rwl).getLsbD 31 =
      if m = u ∨ lvl = 0 then sel else old.getLsbD 31 := by
  unfold acuMask
  split <;> cases sel <;> cases lock <;> cases rwl <;> simp [RegRow.written, acuRow, b2n]

/-- What LOCK becomes: a 1 sets it, a 0 leaves it. -/
theorem acuWritten_lock (old : Word) (u m : Fin 8) (lvl : Fin 3) (rwl : Bool) (sel lock : Bool) :
    (acuRow.written old (BitVec.ofNat 32 ((b2n sel * 128 + b2n lock * 64) * 2 ^ 24)) (acuMask u m lvl) rwl).getLsbD 30 =
      (lock || old.getLsbD 30) := by
  unfold acuMask
  split <;> cases sel <;> cases lock <;> cases rwl <;> simp [RegRow.written, acuRow, b2n]

/-- A write of SEL and LOCK (R366). -/
theorem regWrite_selLock {u m : Fin 8} {lvl : Fin 3} (sel lock : Bool) (hadm : s.acuAdmits m lvl (mgtAcuCtl u + 3) true = true) :
    (s.regWrite m lvl (mgtAcuCtl u + 3) (toLe 1 (b2n sel * 128 + b2n lock * 64))).bit (mgtAcuCtl u) 31 =
        (if m = u ∨ lvl = 0 then sel else s.bit (mgtAcuCtl u) 31) ∧
      (s.regWrite m lvl (mgtAcuCtl u + 3) (toLe 1 (b2n sel * 128 + b2n lock * 64))).bit (mgtAcuCtl u) 30 =
        (lock || s.bit (mgtAcuCtl u) 30) ∧
      ∀ k, k ≠ mgtAcuCtl u → (s.regWrite m lvl (mgtAcuCtl u + 3) (toLe 1 (b2n sel * 128 + b2n lock * 64))).reg k = s.reg k := by
  have hx : (BitVec.ofNat 8 (b2n sel * 128 + b2n lock * 64)).toNat = b2n sel * 128 + b2n lock * 64 := by
    cases sel <;> cases lock <;> rfl
  rw [toLe, toLe, regWrite_acuCtl hadm, hx, bit_setReg_self, bit_setReg_self, acuWritten_sel, acuWritten_lock, bit_eq_getLsbD, bit_eq_getLsbD]
  exact ⟨rfl, rfl, fun k hk => reg_setReg_ne _ _ hk⟩

/-- The slot words of a locked unit take no write (R366). -/
theorem regWrite_locked {u m : Fin 8} {lvl : Fin 3} {k : Fin 64} {b : List Byte} (hb : b.length = 4) (hlock : s.bit (mgtAcuCtl u) 30 = true)
    (hk : 4 ≤ k.val) (hadm : s.acuAdmits m lvl (mgtAcuCtl u + 4 * k) true = true) : s.regWrite m lvl (mgtAcuCtl u + 4 * k) b = s := by
  have ho : mgtAcuCtl u = 0x101000 + 0x100 * u.val := rfl
  obtain ⟨hl, hu, hs⟩ := acu_place (o := mgtAcuCtl u + 4 * k) (by omega) (by omega)
  have hunit : mgtAcuCtl ((mgtAcuCtl u + 4 * k - 0x101000) / 0x100) = mgtAcuCtl u := congrArg mgtAcuCtl (by omega)
  rw [regWrite_word hb (by omega) hadm hs, writeWord_glob hu hl, State.globWrite]
  dsimp only
  rw [if_pos (by omega), State.acuWrite]
  dsimp only
  rw [if_neg (by omega), if_pos (by omega)]
  split
  · rename_i h
    exact absurd h.2 (by
      have hun : (mgtAcuCtl u + 4 * k - 0x101000) / 0x100 = u.val := by omega
      rw [hun, hlock]
      decide)
  · rfl

/-! ### Reads -/

/-- The taps of a lane stand above the global part and the pages of the instances. -/
theorem dfeRuns_of_lt (h : o < 0x2000000) : s.dfeRuns o = false := by
  have hl : ∀ x q, locate o ≠ some (.lane, x, q) := fun x q he => by
    unfold locate at he
    rw [if_neg (by omega), if_neg (by omega)] at he
    split at he
    · split at he
      · simp at he
      · simp at he
    · simp at he
  unfold State.dfeRuns
  split
  · rename_i he
    exact absurd he (hl _ _)
  · rfl

/-- Above the pages of the instances lie the blocks of the tiles alone. -/
theorem locate_of_ge {e : Space × Nat × Nat} (h : 0x1400000 ≤ o) (hl : locate o = some e) : e.1 = .tile ∨ e.1 = .port ∨ e.1 = .lane := by
  unfold locate at hl
  by_cases hhi : 0x4000000 ≤ o
  · rw [if_pos hhi] at hl
    cases hl
  by_cases hblk : 0x2000000 ≤ o
  · rw [if_neg hhi, if_pos hblk] at hl
    dsimp only at hl
    split at hl
    · cases hl
    split at hl
    · exact .inl (congrArg Prod.fst (Option.some.inj hl)).symm
    split at hl
    · exact .inr (.inr (congrArg Prod.fst (Option.some.inj hl)).symm)
    · exact .inr (.inl (congrArg Prod.fst (Option.some.inj hl)).symm)
  · rw [if_neg hhi, if_neg hblk, if_pos (by omega), if_neg (by omega)] at hl
    cases hl

/-- A register that belongs to no unit lies in the global part or in a page of the instances. -/
theorem lt_of_unitAt_none {r : RegRow} (hu : unitAt o = none) (hr : findRow o = some r) : o < 0x1400000 := by
  by_contra hge
  cases hl : locate o with
  | none =>
    rw [findRow, hl] at hr
    cases hr
  | some e =>
    obtain ⟨sp, i, q⟩ := e
    rw [unitAt, hl] at hu
    rcases locate_of_ge (by omega) hl with rfl | rfl | rfl <;> cases hu

theorem toLe_take (n v : Nat) : (toLe n v).take n = toLe n v := List.take_of_length_le (toLe_length n v).le

/-- A read of one word (R421). -/
theorem regRead_word (h4 : o % 4 = 0) (hadm : s.acuAdmits m lvl o false = true) (hb : o < 0x800110 ∨ 0x800130 ≤ o) :
    s.regRead m lvl o 4 = (s.readWord m o true).2.emit (.readDone m o (toLe 4 (s.readWord m o true).1)) := by
  have hw : o / 4 * 4 = o := by omega
  have hn : (o + 4 - o + 3) / 4 = 1 := by omega
  have hpage : pageForm o 4 = true := by simp [pageForm]
  unfold State.regRead
  rw [aligned_word h4, hadm, hpage, if_neg (by decide), if_neg (by decide), if_neg (by decide), if_neg (by omega), hw]
  dsimp only
  rw [hn]
  simp [State.readWords, toLe_take]

section Word
variable {r : RegRow} (hu : unitAt o = none) (hm : s.memberAt o = false) (hme : measured o = none) (hl : s.tel.latch = [])
  (hr : findRow o = some r)
include hu hr

theorem dfeRuns_of_unitAt_none : s.dfeRuns o = false := dfeRuns_of_lt (by
  have := lt_of_unitAt_none hu hr
  omega)

theorem dfeRuns_next : s.dfeRuns (o + 4) = false := dfeRuns_of_lt (by
  have := lt_of_unitAt_none hu hr
  omega)

include hme in
theorem sense_of_none : s.sense o = (s.view o, s) := by
  rw [State.sense, hme]
  simp only [dfeRuns_of_unitAt_none hu hr, Bool.false_eq_true, if_false]

include hm hme hl

/-- A word that is no counter's low word gives what it shows; a read clears what is RC (R422). -/
theorem readWord_plain (hlow : lowOf64 o = false) : s.readWord m o true = (s.view o, s.readClear o) := by
  unfold State.readWord
  rw [absentAt_of_none hu, hm, hl, sense_of_none hu hme hr, hlow]
  rfl

/-- A counter's low word, which holds nothing RC, keeps its high word for the master (R377). -/
theorem readWord_low (hlow : lowOf64 o = true) (hrc : r.rc = 0) (hme4 : measured (o + 4) = none) : s.readWord m o true =
    (s.view o, { s with tel := { s.tel with latch := [(m, o + 4, BitVec.ofNat 32 (s.view (o + 4)))] } }) := by
  have hclear : s.readClear o = s := by
    unfold State.readClear
    rw [hr]
    exact if_pos hrc
  have hnext : s.sense (o + 4) = (s.view (o + 4), s) := by
    rw [State.sense, hme4]
    simp only [dfeRuns_next hu hr, Bool.false_eq_true, if_false]
  unfold State.readWord
  rw [absentAt_of_none hu, hm, hl, sense_of_none hu hme hr, hlow]
  dsimp only
  rw [hclear, hnext, hl]
  rfl

end Word

/-- What a read clears. -/
theorem readClear_reg {r : RegRow} (hr : findRow o = some r) (h1 : o ≠ glbXingMergeCnt) (h2 : o ≠ glbXingToCnt) :
    (s.readClear o).out = s.out ∧ (s.readClear o).reg o = s.reg o &&& ~~~ BitVec.ofNat 32 r.rc ∧
      ∀ k, k ≠ o → (s.readClear o).reg k = s.reg k := by
  unfold State.readClear
  rw [hr]
  dsimp only
  split
  · rename_i h0
    refine ⟨rfl, ?_, fun _ _ => rfl⟩
    rw [h0]
    exact (BitVec.and_allOnes (x := s.reg o)).symm
  · exact ⟨setReg_out _ _ _, by rw [reg_setReg, if_pos rfl], fun k hk => reg_setReg_ne _ _ hk⟩

end Access

/-- Settles O59: a write by the access types of its row, the access check units by `regWrite_selLock`, a read by what it clears or
keeps for the master. -/
theorem registerAccess : Obligations.RegisterAccess := by
  refine ⟨fun m lvl off b r s hb h4 hadm hl hu hr h1 h2 h3 hn hs he => ?_, fun m lvl off b s ha => ?_, fun m lvl off b s ha hadm => ?_,
    fun m lvl off r s h4 hadm _ hbr hu hm hme hla hlow hr hx1 hx2 => ?_,
    fun m lvl off r s h4 hadm _ hbr hu hm hme hme4 hla hlow hr hrc => ?_, fun u m lvl sel s hadm => ?_, fun u m lvl s hadm => ?_,
    fun u m lvl k b s hb hlock hk hadm => ?_⟩
  · refine ⟨_, rfl, ?_, fun k hk hke => ?_⟩ <;> rw [regWrite_word hb h4 hadm hs, writeWord_glob hu hl, globWrite_plain h1 h2 h3 hn]
    · rw [plainWrite_reg hr he, reg_setReg, if_pos rfl]
    · rw [plainWrite_reg hr hke, reg_setReg_ne _ _ hk]
  · exact congrArg Host.Outcome.next (if_pos (by rw [ha]; rfl))
  · exact congrArg Host.Outcome.next ((if_neg (by rw [ha]; decide)).trans (if_pos (by rw [hadm]; rfl)))
  · obtain ⟨hout, hself, hrest⟩ := readClear_reg (s := s) hr hx1 hx2
    refine ⟨_, congrArg Host.Outcome.next ((regRead_word h4 hadm hbr).trans (by rw [readWord_plain hu hm hme hla hr hlow])), ?_, ?_, fun k hk => ?_⟩
    · rw [emit_out, hout]
    · rw [emit_reg, hself]
    · rw [emit_reg, hrest k hk]
  · have hread := regRead_word (m := m) h4 hadm hbr
    rw [readWord_low hu hm hme hla hr hlow hrc hme4] at hread
    exact ⟨_, congrArg Host.Outcome.next hread, rfl, rfl, rfl⟩
  · obtain ⟨h31, h30, hrest⟩ := regWrite_selLock sel false hadm
    exact ⟨_, rfl, h31, h30, hrest⟩
  · obtain ⟨h31, h30, hrest⟩ := regWrite_selLock (s.bit (mgtAcuCtl u) 31) true hadm
    exact ⟨_, rfl, h30, h31.trans (ite_self _), hrest⟩
  · have ho : mgtAcuCtl u = 0x101000 + 0x100 * u.val := rfl
    have hoff : (BitVec.ofNat 32 (mgtAcuCtl u + 4 * k)).toNat = mgtAcuCtl u + 4 * k := by
      rw [BitVec.toNat_ofNat]
      omega
    exact congrArg Host.Outcome.next ((congrArg (fun o => s.regWrite m lvl o b) hoff).trans (regWrite_locked hb hlock hk hadm))

end Sys2Proof.Machine
end
